-- ==== Sys2Proof/Word.lean ====
section
/-! DEFINITION. The word types of the module (00 R10: 32-bit registers; 01 R33: bytes, 64-bit words). -/
namespace Sys2Proof

/-- A 32-bit register word (00 R10). -/
abbrev Word := BitVec 32
/-- A byte. -/
abbrev Byte := BitVec 8
/-- A 64-bit value, two consecutive registers or one SRAM word of data (00 R10, 09 R263). -/
abbrev DWord := BitVec 64
/-- A 48-bit device virtual address (05 R136). -/
abbrev VAddr := BitVec 48

end Sys2Proof
end

