-- ==== Sys2Proof/Syntax.lean ====
section
/-! DEFINITION. The commands of the block: one constructor of Instr for each row of spec/opcode_table.json, with the
operands that the row's rule gives it, and the data those operands carry. -/
namespace Sys2Proof

/-- The units of Table 2.1 that hold a queue. -/
inductive UnitId where
  | array | vector | rae (n : Nat) | layout | gatherScatter | attention | bonded | network | sequencer
deriving DecidableEq, Repr

/-- A half (00 R8). -/
inductive Half where
  | west | east
deriving DecidableEq, Repr

/-- A tile command as the sequencer takes it from its fetch: the tile, the 64 bytes (byte 0 in the low bits) and the
poison mark of the fetch (02 R48, R50). -/
structure TileCmd where
  ti : Nat
  bits : BitVec 512
  poison : Bool
deriving DecidableEq, Repr

/-- One 32-byte granule of a packet's data: its place from the packet's address, its bytes, the bits written, poison
(02 R77, R78). -/
structure Piece where
  idx : Nat
  data : BitVec 256
  mask : BitVec 256
  poison : Bool
deriving DecidableEq, Repr

/-- Packet types of Table 2.11. -/
inductive PktType where
  | write | memRead | memWrite | readData | writeAck | sync | syncRelease | port | nack
deriving DecidableEq, Repr

/-- A network-on-chip packet (Table 2.11). `ref` names the command that the tag stands for; `adopted` selects the
adopted slice at a tile's controller; `remote` is the fabric address of a sender or receiver of another module. -/
structure Packet where
  ptype : PktType
  dstKind : Nat
  dstId : Nat
  srcKind : Nat
  srcId : Nat
  addr : Nat
  len : Nat
  tag : Nat
  chan : Nat
  rtag : Nat
  pieces : List Piece
  adopted : Bool
  ref : Nat
  remote : Option Nat
  crcBad : Bool
  escape : Bool
deriving DecidableEq, Repr

/-- A request-protocol datagram from a client (11 R324): the port and endpoint it came from, the IP version, the length
of its UDP payload, and its header and body. -/
structure Datagram where
  port : Nat
  ip : Nat
  udp : Nat
  v6 : Bool
  payload : Nat
  magic : Nat
  version : Nat
  dtype : Nat
  flags : Nat
  peerId : Nat
  cookie : Nat
  seq : Nat
  ack : Nat
  sack : Nat
  credit : Nat
  frag : Nat
  bodyLen : Nat
  body : List Nat
deriving DecidableEq, Repr

/-- What a client port discards: a frame or datagram of R323's groups, or a datagram of the request protocol. -/
inductive Discarded where
  | frame (port : Nat)
  | datagram (d : Datagram)
deriving DecidableEq, Repr

/-- What a client port answers outside the request protocol (11 R323). -/
inductive EchoKind where
  | arp | ns | icmp | icmpv6
deriving DecidableEq, Repr


/-- A fabric packet at its source or its destination, or on its way (12 R359, R361). -/
structure FabPacket where
  ptype : Nat
  vl : Nat
  phase : Nat
  misroute : Nat
  dst : Nat
  dstTi : Nat
  src : Nat
  srcTi : Nat
  chan : Nat
  rtag : Nat
  plen : Nat
  addr : Nat
  tag : Nat
  pieces : List Piece
  crcBad : Bool
deriving DecidableEq, Repr

/-- The body of a LINK flit (12 Table 12.4). -/
structure LinkBody where
  freed : List Nat
  nak : Option Nat
  moduleId : Nat
  port : Nat
  leaving : Bool
  fenced : Bool
  eligible : Bool
  addr : Option Nat
  fcn : Nat
  rootId : Nat
deriving DecidableEq, Repr

/-- A flit of a codeword (12 R357, R359): a HEAD with its packet, a DATA flit, a LINK flit. -/
inductive Flit where
  | head (p : FabPacket)
  | data (vl : Nat)
  | link (b : LinkBody)
deriving DecidableEq, Repr

/-- A codeword as received on a port (12 R357): whether its FEC decode succeeds, and its control field and flits. -/
structure Codeword where
  ok : Bool
  isNew : Bool
  seq : Nat
  ack : Nat
  flits : List Flit
deriving DecidableEq, Repr

/-- An UP port in LINKS (12 Table 12.9). -/
structure LinkRec where
  port : Nat
  peerPort : Nat
  peerId : Nat
deriving DecidableEq, Repr

/-- A link of a map entry (12 Table 12.10). -/
structure MapLink where
  port : Nat
  peerPort : Nat
  peer : Nat
deriving DecidableEq, Repr

/-- An entry of a map (12 Table 12.10); the root has no parent. -/
structure MapEntry where
  moduleId : Nat
  addr : Nat
  level : Nat
  eligible : Bool
  fencedW : Bool
  fencedE : Bool
  parent : Option Nat
  parentPort : Nat
  links : List MapLink
deriving DecidableEq, Repr

/-- A part that ENS_PLAN gives a member (12 Table 12.9): the leader's number of the batch step, model, kind, part, how
many request steps it holds. -/
structure PlanPart where
  batch : Nat
  model : Nat
  kind : Nat
  part : Nat
  size : Nat
deriving DecidableEq, Repr

/-- A decision on a batch step (12 Table 12.9). -/
structure Decision where
  batch : Nat
  commit : Bool
deriving DecidableEq, Repr

/-- A half-link frame as it reaches an engine (13 Table 13.1): whether its CRC holds, the flit of a VALID frame, the ACK,
NAK and credits of a control frame. -/
structure HlkFrame where
  valid : Bool
  seq : Nat
  plane : Nat
  poison : Nat
  esc : Bool
  crcOk : Bool
  flit : BitVec 512
  ack : Nat
  nak : Bool
  reqCredits : Nat
  rspCredits : Nat
deriving DecidableEq, Repr

/-- The flow of a half-link packet and the gateway row it reached (13 R397). -/
structure HlkFlow where
  row : Nat
  srcKind : Nat
  srcId : Nat
  dstKind : Nat
  dstId : Nat
deriving DecidableEq, Repr

/-- Why main power is lost (14 R431): the input below its threshold, overvoltage, overcurrent slow or fast; with the value
of the event. -/
inductive LossKind where
  | input (volts : Nat)
  | overvoltage (peak : Nat)
  | overcurrent (peak : Nat) (fast : Bool)
deriving DecidableEq, Repr

/-- What the hardware reports at the end of a start step (16 Table 16.1): readable boot copies and consistent security
fuses (step 1); the card's answer, the records of LOG that scan as valid, the STATE slots whose CRC holds, the entries of
the retired list whose CRC fails (step 2); half-link modules that fail training (4); the trained rate of each stack: 0
14.4 Gb/s, 1 13.6, 2 12.8, 3 failed (5); bonds that fail port training, as tile, layer, bond (6); failing rows of the
quick march test, as tile, bank, row (8). -/
structure StartResult where
  readA : Bool
  readB : Bool
  fusesOk : Bool
  standbyFusesOk : Bool
  cardAnswers : Bool
  logValid : Nat
  slot0Ok : Bool
  slot1Ok : Bool
  retiredBad : List Nat
  modulesFailed : List Nat
  rates : List Nat
  bonds : List (Nat × Nat × Nat)
  march : List (Nat × Nat × Nat)
deriving DecidableEq, Repr

/-- The dataset of an Announce message (16 R477): its fields in the order of comparison, whether the timescale is PTP. -/
structure PtpDataset where
  priority1 : Nat
  clockClass : Nat
  accuracy : Nat
  variance : Nat
  priority2 : Nat
  identity : Nat
  steps : Nat
  source : Nat
  ptpTimescale : Bool
deriving DecidableEq, Repr

/-- A PTP message with its time stamps in ns of TAI (16 R477): a one-step Sync carries its origin time. -/
inductive PtpMsg where
  | announce (d : PtpDataset)
  | sync (source : Nat) (t1 : Option Int) (t2 : Int)
  | followUp (source : Nat) (t1 : Int)
  | delayResp (source : Nat) (t3 t4 : Int)
deriving DecidableEq, Repr

/-- The result of a self-test unit (18 Table 18.2): its tile, class (0 logic, 1 bond, 2 IBU, 3 sensor), index within the
class, whether it passed; for a bond unit the failing bonds, true where one fails at the nominal point; for an IBU unit the
failing IBUs of the layer, as pair and operation; for a sensor unit
the diodes out of tolerance and those whose comparator does not respond. -/
structure UnitResult where
  ti : Nat
  cls : Nat
  index : Nat
  passed : Bool
  bonds : List (Nat × Bool)
  ibus : List (Nat × Nat)
  diodes : List Nat
  comparators : List Nat
deriving DecidableEq, Repr

/-- An SPDM request (19 R549). A FINISH carries the requester's key, if it authenticated mutually, whether its signature
over the transcript verifies, and the heartbeat period in ms. -/
inductive SpdmMsg where
  | getVersion
  | getCapabilities
  | negotiateAlgorithms
  | challenge (nonce : List Nat)
  | keyExchange (reqId : Nat) (exchange : List Nat)
  | finish (session : Nat) (key : Option (List Nat)) (verified : Bool) (period : Nat)
  | heartbeat (session : Nat)
  | endSession (session : Nat)
  | other (code : Nat)
deriving DecidableEq, Repr

/-- An MCTP control request (19 Table 19.1). -/
inductive MctpMsg where
  | setEndpointId (eid : Nat)
  | getEndpointId
  | getVersion
  | getMessageTypes
  | other (code : Nat)
deriving DecidableEq, Repr

/-- A PLDM request (19 R534, R537): Type 0 discovery, a PDR of the repository, a numeric or a state sensor reading. -/
inductive PldmMsg where
  | getTypes
  | getVersion (type : Nat)
  | getPdr (record : Nat)
  | readSensor (sensor : Nat)
  | readState (sensor : Nat)
  | other (type code : Nat)
deriving DecidableEq, Repr

/-- The address assignment of the I3C controller (19 R534). -/
inductive I3cAssign where
  | setdasa (static dynamic : Nat)
  | entdaa (dynamic : Nat)
deriving DecidableEq, Repr

/-- The answer of a fenced half to re-attestation (19 R551): measurements 1, 4 and 5, and its signature. -/
structure Attestation where
  m1 : List Nat
  m4 : List Nat
  m5 : List Nat
  signature : List Nat
deriving DecidableEq, Repr

/-- The commands: one constructor per row of spec/opcode_table.json. -/
inductive Instr where
  /-- MATMUL (R94): Matrix product folded into passes over the 96 x 96 array and drained through the store path. -/
  | matmul (c : TileCmd)
  /-- CONV (R108): Convolution run as passes in OS or RR dataflow on the matrix array. -/
  | conv (c : TileCmd)
  /-- LOAD (R66): Run-ahead engine LOAD that fetches a memory tensor into SRAM banks in 256-byte requests. -/
  | load (c : TileCmd)
  /-- STORE (R148): Layout engine reads an SRAM tensor and writes it through the store path. -/
  | store (c : TileCmd)
  /-- GATHER (R156): Indexed read of table rows into a destination, with fetches merged per 256-position window. -/
  | gather (c : TileCmd)
  /-- SCATTER (R159): Indexed write of source rows, combined per window by overwrite, add or max. -/
  | scatter (c : TileCmd)
  /-- ELTWISE (R69): Vector-unit element-wise operation selected by OP, with broadcast sources. -/
  | eltwise (c : TileCmd)
  /-- REDUCE (R71): Vector-unit reduction over the selected dimensions in a fixed lane order. -/
  | reduce (c : TileCmd)
  /-- ATTN_SCORE (R182): Builds the visit list of pages and writes the attention state record. -/
  | attnScore (c : TileCmd)
  /-- ATTN_APPLY (R186): Computes attention over the visited pages and the staging block and writes lse. -/
  | attnApply (c : TileCmd)
  /-- KV_APPEND (R172): Appends new keys and values to a sequence's staging buffer, flushing full pages. -/
  | kvAppend (c : TileCmd)
  /-- IBU_OP (R212): Issues an in-bank unit operation on the selected bank pairs of one layer. -/
  | ibuOp (c : TileCmd)
  /-- SEND (R72): Sends an SRAM tensor as inbound writes to a tile of this or another module. -/
  | send (c : TileCmd)
  /-- RECV (R73): Waits until LEN bytes have been counted from a source tile and channel. -/
  | recv (c : TileCmd)
  /-- SYNC (R74): Sends an arrival for a group to its coordinator and waits for the release. -/
  | sync (c : TileCmd)
  /-- HANDOVER (R61): Changes the owner and steal permit of the named SRAM banks. -/
  | handover (c : TileCmd)
  /-- END (R47): Ends a segment once all its earlier commands have completed, so the next segment starts. -/
  | end_ (c : TileCmd)
  /-- BANK_OWNER_WRITE (R61): Write of TIL_BANK_OWNn once earlier commands reaching the bank have finished their accesses. -/
  | bankOwnerWrite (ti : Nat)
  /-- COMMAND_COMPLETE (R45): A unit finishes a command: its effects become visible, its token is set and COMMIT reports the step slot. -/
  | commandComplete (ti : Nat) (u : UnitId)
  /-- STEAL_STARVED (R64): An inbound write has waited more than 100 us, and the event is recorded at most once per round. -/
  | stealStarved (ti : Nat)
  /-- NOC_WRITE (R62): An inbound WRITE packet arrives at a tile and is checked for RTAG and steal permit. -/
  | nocWrite (p : Packet)
  /-- INBOUND_WRITE_PERFORMED (R62): A waiting inbound write takes an idle bank cycle and is acknowledged. -/
  | inboundWritePerformed (ti : Nat) (bank : Nat)
  /-- MEM_READ (R242): A memory read request arrives at a bonded or stack-tier controller. -/
  | memRead (p : Packet)
  /-- MEM_WRITE (R240): A memory write arrives at a controller and goes to the stack or to the write-combining buffer. -/
  | memWrite (p : Packet)
  /-- RAE_READ_DATA (R67): READ_DATA for a run-ahead request arrives and is written into the destination banks. -/
  | raeReadData (p : Packet)
  /-- WRITE_ACK (R72): A write acknowledgement returns to the sender and counts toward SEND completion. -/
  | writeAck (p : Packet)
  /-- NOC_NACK (R72): A refused write is answered NACK and the SEND raises SEND_REFUSED. -/
  | nocNack (p : Packet)
  /-- SYNC_ARRIVAL (R74): A SYNC arrival reaches the coordinator, which releases all members when COUNT is reached. -/
  | syncArrival (p : Packet)
  /-- SYNC_RELEASE (R74): A release reaches a member and its SYNC completes. -/
  | syncRelease (p : Packet)
  /-- PORT_PACKET (R375): A PORT packet reaches the fabric switch and is merged into fabric WRITEs. -/
  | portPacket (p : Packet)
  /-- ESCAPE_CHANNEL_MOVE (R79): A packet that has waited 64 steps for its next hop moves to the escape channel. -/
  | escapeChannelMove (p : Packet)
  /-- BONDED_REFRESH (R208): Per-bank refresh command issued at the interval set by the layer temperature. -/
  | bondedRefresh (ti : Nat) (layer : Nat) (bank : Nat)
  /-- REFRESH_INTERVAL_CHANGE (R208): The refresh interval moves to 31.25 us above 85 C, or back after 100 ms below 83 C. -/
  | refreshIntervalChange (ti : Nat) (layer : Nat) (temp : Int)
  /-- IBU_STEP_DONE (R213): An IBU step ends, and the accesses to its pair that waited are issued. -/
  | ibuStepDone (ti : Nat) (layer : Nat) (pair : Nat)
  /-- RESET_W (R485): Write of RESET_W in MGT_RESET_CTRL starts a compute reset of West. -/
  | resetW (cuts : List (Nat × Nat))
  /-- RESET_E (R485): Write of RESET_E in MGT_RESET_CTRL starts a compute reset of East. -/
  | resetE (cuts : List (Nat × Nat))
  /-- RESET_IN_N (R485): RESET_IN_N asserted for at least 1 us starts a compute reset of both halves. -/
  | resetInN (asserted : Bool) (cuts : List (Nat × Nat))
  /-- COMPUTE_RESET_RELEASE (R486): Tile logic is released 2 us after the request, or when RESET_IN_N is released. -/
  | computeResetRelease (h : Half)
  /-- BACKEND_TRAINED (R222): The controller finishes training its back-end and takes the ports back, and held packets are delivered. -/
  | backendTrained (ti : Nat)
  /-- CUT_LIST_HANDLING (R488): The supervisor handles the cut lists, truncates staged sequences and reloads the bases. -/
  | cutListHandling (h : Half)
  /-- WCB_LINE_TIMEOUT (R241): A write-combining line untouched for 20 us is written out. -/
  | wcbLineTimeout (stack : Nat) (block : Nat)
  /-- WCB_FLUSH (R241): Write of STM_CTRL.WCB_FLUSH writes out every buffer line within 100 us. -/
  | wcbFlush
  /-- HPPR_ARM (R254): Write of HPPR_ARM permits hard repair, or is refused outside DIAGNOSTIC and RETURN. -/
  | hpprArm (v : Word)
  /-- LOOPBACK_START (R255): Write of STM_LOOPBACK.START runs PHY loop-back on one stack. -/
  | loopbackStart (v : Word)
  /-- LOOPBACK_DONE (R255): A loop-back run ends and reports PASS or FAIL. -/
  | loopbackDone (lanesFailed : Nat)
  /-- STACK_REFRESH (R248): Per-bank refresh issued by a stack controller. -/
  | stackRefresh (stack : Nat) (bank : Nat)
  /-- STACK_TEMP_READ (R248): A stack temperature is read each 1 ms and the refresh rate doubles or returns. -/
  | stackTempRead (stack : Nat) (temp : Int)
  /-- SCRUB_ACCESS (R275): The scrubber reads the next granule or word and writes back corrected data. -/
  | scrubAccess (stack : Bool) (unit : Nat) (sram : Bool)
  /-- PENDING_ENTRY_STEP (R281): The health supervisor runs one step of at most 1 ms on the pending entry being handled. -/
  | pendingEntryStep (passed : Bool)
  /-- LOG_PROGRAM (R554): Staged records are programmed into LOG in SEQ order. -/
  | logProgram (answers : Bool)
  /-- EVT_CLEAR (R557): Write of EVT_CLEAR equal to EVT_HEAD writes the clearing mark, discards records and erases LOG. -/
  | evtClear (v : Word)
  /-- LOG_ERASE_DONE (R557): The LOG erase ends, CLEARING clears and staged records are written. -/
  | logEraseDone
  /-- EVT_WINDOW7_READ (R556): A read of EVT_WINDOW7 returns the last record word and advances the cursor. -/
  | evtWindow7Read
  /-- PLAN_FREEZE (R291): At t0 - 30 us Sage fixes the set of steps placed in the coming round. -/
  | planFreeze
  /-- ROUND_BOUNDARY (R291): At a boundary, live writes are applied, rollback completes, tiles reset to R49 state and segment lists load. -/
  | roundBoundary
  /-- BATCH_STEP_COMMIT (R311): On the last completion report, Sage commits the batch step within 5 us. -/
  | batchStepCommit (batch : Nat)
  /-- PACE_MONITOR_READ (R302): Sage reads each cluster's pace monitor every 1 ms and updates the planning pace. -/
  | paceMonitorRead (readings : List Nat)
  /-- ENSEMBLE_DECISION (R316): The leader at t1 decides COMMIT or DROP for each ensemble step and sends it. -/
  | ensembleDecision (batch : Nat)
  /-- ENSEMBLE_DECISION_LOST (R316): A member without a decision at t1 + 10 us drops the step and ends the ensemble's sessions. -/
  | ensembleDecisionLost (slot : Nat)
  /-- ACK (R326): An ACK datagram updates the acknowledgement, SACK and credit of a peer. -/
  | ack (d : Datagram)
  /-- HELLO (R328): A HELLO creates or replaces a peer, checking any token. -/
  | hello (d : Datagram)
  /-- OPEN (R333): OPEN checks token, model and tables and opens or resumes a session. -/
  | open_ (d : Datagram)
  /-- SUBMIT (R337): SUBMIT is checked and admitted by Sage, then answered within 100 us. -/
  | submit (d : Datagram)
  /-- CLIENT_RESPONSE_DISCARD (R336): A client message with RESPONSE set, or of type RESULT, is acknowledged and discarded. -/
  | clientResponseDiscard (d : Datagram)
  /-- CANCEL (R339): CANCEL releases the request's steps and is answered CANCELLED. -/
  | cancel (d : Datagram)
  /-- CLOSE (R340): CLOSE cancels the request in progress and waits for its last step. -/
  | close (d : Datagram)
  /-- CLOSE_COMPLETE (R340): Once the last step has ended, sequences are flushed, the session becomes FREE and the answer is sent. -/
  | closeComplete (session : Nat)
  /-- STATUS (R336): A STATUS request is answered with session or module state. -/
  | status (d : Datagram)
  /-- FLOOR_PLAN (R348): A FLOOR_PLAN request is answered with the record of the asked epoch. -/
  | floorPlan (d : Datagram)
  /-- LOAD_PACKAGE (R345): A package chunk is stored, and the last chunk starts verification of the package. -/
  | loadPackage (d : Datagram)
  /-- UNLOAD_PACKAGE (R346): UNLOAD_PACKAGE removes a model, closing sessions when FORCE is set. -/
  | unloadPackage (d : Datagram)
  /-- RESULT_SEND (R338): A queued RESULT is sent once the peer's credit allows. -/
  | resultSend (session : Nat)
  /-- ACK_TIMER (R327): An ACK is sent within 20 us when no other datagram carries the acknowledgement. -/
  | ackTimer (peer : Nat)
  /-- RETRANSMISSION_TIMEOUT (R327): An unacknowledged datagram is retransmitted with backoff. -/
  | retransmissionTimeout (peer : Nat) (seq : Nat)
  /-- SUBMIT_REASSEMBLY_TIMEOUT (R327): A SUBMIT not complete within 1 ms of its first datagram is discarded and answered REFUSED. -/
  | submitReassemblyTimeout (peer : Nat)
  /-- DETACH_TIMEOUT (R334): A detached session becomes CLOSING after SES_DETACH_TIMEOUT. -/
  | detachTimeout (session : Nat)
  /-- CODEWORD (R358): A fabric codeword is received and accepted in sequence, or NAKed. -/
  | codeword (port : Nat) (w : Codeword)
  /-- LINK_FLIT (R360): A LINK flit updates credits, NAK replay and peer link information. -/
  | linkFlit (port : Nat) (b : LinkBody)
  /-- LINK_FLIT_TIMER (R360): A port sends a LINK flit at least every 1 us. -/
  | linkFlitTimer (port : Nat)
  /-- CODEWORD_REPLAY_TIMEOUT (R358): With ACK stalled for 2 us the sender replays, and the port goes DOWN after 8 replays. -/
  | codewordReplayTimeout (port : Nat)
  /-- FAB_SIGNAL_DETECTED (R367): A signal on a DOWN port starts training. -/
  | fabSignalDetected (port : Nat)
  /-- FAB_TRAINING_DONE (R367): Port training completes and the port enters ALIGNING, INFO and UP or REJECTED. -/
  | fabTrainingDone (port : Nat) (reversed : Bool)
  /-- FAB_LINK_DOWN (R378): A port loses lock or gives up replay, goes DOWN and reports its links. -/
  | fabLinkDown (port : Nat) (cause : Nat)
  /-- FAB_WRITE (R375): A fabric WRITE packet is forwarded or split into mesh writes at its destination. -/
  | fabWrite (p : FabPacket)
  /-- FAB_WRITE_ACK (R362): A fabric WRITE_ACK completes the writes of a remote SEND. -/
  | fabWriteAck (p : FabPacket)
  /-- FAB_NACK (R362): A fabric NACK refuses a remote write and the SEND raises SEND_REFUSED. -/
  | fabNack (p : FabPacket)
  /-- FAB_SYNC (R375): A remote SYNC arrival reaches its coordinator. -/
  | fabSync (p : FabPacket)
  /-- FAB_SYNC_RELEASE (R362): A remote release reaches a SYNC member. -/
  | fabSyncRelease (p : FabPacket)
  /-- MISROUTE_WAIT (R374): After FAB_MISROUTE_WAIT without credit, a packet may take an EXTRA port. -/
  | misrouteWait (p : FabPacket)
  /-- ESCAPE_WAIT (R374): After FAB_ESCAPE_WAIT a packet moves to VL 3 on its escape route. -/
  | escapeWait (p : FabPacket)
  /-- FABRIC_STALL (R383): A VL head stuck for FAB_STALL_LIMIT has its buffered packets discarded. -/
  | fabricStall (port : Nat) (vl : Nat)
  /-- ROOT_ANNOUNCE (R368): A received ROOT_ANNOUNCE updates the root candidate. -/
  | rootAnnounce (port : Nat) (candidate : Nat) (fcn : Nat)
  /-- ROOT_ANNOUNCE_TIMER (R368): A module resends ROOT_ANNOUNCE on every UP link every 10 ms. -/
  | rootAnnounceTimer
  /-- CANDIDATE_EXPIRY (R368): A root candidate not announced for 30 ms expires. -/
  | candidateExpiry
  /-- ROOT_CHANGED (R368): An eligible module whose candidate has been itself for 5 ms acts as root. -/
  | rootChanged
  /-- ASSIGN (R369): ASSIGN gives a module its address, level and parent. -/
  | assign (moduleId : Nat) (addr : Nat) (level : Nat) (parentPort : Nat)
  /-- LINKS (R369): LINKS reports a module's UP ports to the root. -/
  | links (src : Nat) (recs : List LinkRec)
  /-- MAP (R370): A module receives a new map and computes its tables. -/
  | map (fcn : Nat) (entries : List MapEntry)
  /-- MAP_READY (R370): MAP_READY reaches the root, which floods ACTIVATE once all have answered. -/
  | mapReady (src : Nat) (fcn : Nat)
  /-- MAP_READY_TIMEOUT (R370): 50 ms after MAP the root floods ACTIVATE. -/
  | mapReadyTimeout
  /-- ACTIVATE (R370): A module switches to the new routing tables and checks its ensembles. -/
  | activate (fcn : Nat)
  /-- LEAVE (R377): LEAVE reaches the root, which activates a map without the module. -/
  | leave (moduleId : Nat)
  /-- FAB_CTRL_LEAVE (R377): Write of FAB_CTRL.LEAVE starts an orderly removal from the fabric. -/
  | fabCtrlLeave
  /-- ENS_FORM (R384): A member receives ENS_FORM and answers ENS_JOIN. -/
  | ensForm (src : Nat) (ensId : Nat) (model : Nat) (time : Nat) (power : Nat) (members : List Nat)
  /-- ENS_JOIN (R384): The leader collects a member's acceptance or refusal. -/
  | ensJoin (src : Nat) (ensId : Nat) (reason : Nat)
  /-- ENS_FORM_TIMEOUT (R384): An ensemble not fully accepted within 50 ms becomes FORM_FAILED. -/
  | ensFormTimeout (slot : Nat)
  /-- ENS_PLAN (R385): A member receives the parts that it runs in a round. -/
  | ensPlan (src : Nat) (round : Nat) (parts : List PlanPart)
  /-- ENS_PLAN_SEND (R385): The leader sends ENS_PLAN no later than 50 us before the boundary. -/
  | ensPlanSend (slot : Nat)
  /-- ENS_REPORT (R316): A member's completion report reaches the leader. -/
  | ensReport (src : Nat) (round : Nat) (batches : List Nat)
  /-- ENS_DECISION (R316): A member receives COMMIT or DROP for its prepared steps. -/
  | ensDecision (src : Nat) (round : Nat) (ds : List Decision)
  /-- ENS_BEAT (R386): A heartbeat between leader and member is received. -/
  | ensBeat (src : Nat) (ensId : Nat) (time : Nat) (echoed : Nat)
  /-- ENS_BEAT_TIMER (R386): Leader and members send ENS_BEAT every 1 ms. -/
  | ensBeatTimer
  /-- ENS_BEAT_LOSS (R386): No heartbeat for 5 ms breaks the ensemble. -/
  | ensBeatLoss (slot : Nat) (src : Nat)
  /-- ENS_END (R387): ENS_END sets the slot BROKEN and releases the reservation. -/
  | ensEnd (src : Nat) (ensId : Nat) (cause : Nat)
  /-- ENS_CTRL_FORM (R384): Write of FAB_ENS_CTRL.FORM starts forming an ensemble. -/
  | ensCtrlForm (slot : Nat)
  /-- ENS_CTRL_END (R386): Write of FAB_ENS_CTRL.END ends the ensemble. -/
  | ensCtrlEnd (slot : Nat)
  /-- FAB_FLOOR_PLAN (R388): A floor-plan record from an ensemble peer is received. -/
  | fabFloorPlan (src : Nat) (record : List Nat)
  /-- FP_QUERY (R388): FP_QUERY is answered with the record of the requested epoch. -/
  | fpQuery (src : Nat) (epoch : Nat)
  /-- HLK_FRAME (R399): A half-link frame is accepted in sequence, or NAKed. -/
  | hlkFrame (module : Nat) (toEast : Bool) (frame : HlkFrame) (flow : HlkFlow)
  /-- HLK_REPLAY_TIMEOUT (R399): After 500 ns without ACK progress the sender replays. -/
  | hlkReplayTimeout (module : Nat) (fromWest : Bool)
  /-- HLK_MODULE_TRAINED (R402): A module finishes training and takes its position. -/
  | hlkModuleTrained (module : Nat) (passed : Bool)
  /-- LEASE_PULSE (R405): The lease holder sends a LEASE pulse every 100 us. -/
  | leasePulse
  /-- HALVES_SPLIT (R406): No frame for 2 ms: the halves split, one continues and the other fences. -/
  | halvesSplit
  /-- REATTEST_RESULT (R551): The fenced half's attestation answer is verified, or fails on a 200 ms timeout. -/
  | reattestResult (answer : Option Attestation)
  /-- AUX_VALID (R470): Auxiliary power becomes valid and the start sequence begins. -/
  | auxValid (volts : Nat)
  /-- AUX_FALLBACK (R434): Auxiliary power lost with main enabled: the hold-up converter feeds the auxiliary domain. -/
  | auxFallback (volts : Nat)
  /-- PRESENCE_MADE (R567): PRES_A and PRES_B both low for 1 ms makes presence. -/
  | presenceMade
  /-- PRESENCE_LOST (R420): Presence breaks: the switch opens within 5 us and main power is handled as lost. -/
  | presenceLost (volts : Nat)
  /-- MAIN_LOST (R431): Main loss, overvoltage or overcurrent sheds the rails and writes the power-fault record. -/
  | mainLost (kind : LossKind)
  /-- INPUT_OUT_OF_ENVELOPE (R417): The main input enters or leaves a served band outside the operating range. -/
  | inputOutOfEnvelope (entering : Bool) (volts : Nat)
  /-- MAIN_RESTART (R433): Main input in range for 100 ms re-enters the start sequence at step 3. -/
  | mainRestart
  /-- BULK_CHARGED (R419): Bulk capacitance reaches the input and the hot-swap switch is fully on. -/
  | bulkCharged (volts : Nat) (time : Nat)
  /-- CHARGE_TIMEOUT (R419): Bulk not charged within 35 ms: the switch opens and SEQ_TIMEOUT is recorded. -/
  | chargeTimeout (volts : Nat)
  /-- POWER_UP_STEP_DONE (R427): All domains of a power-up step reach tolerance and the next step begins. -/
  | powerUpStepDone (converters : Nat) (deferred : List (Nat × Nat))
  /-- SEQ_TIMEOUT (R429): A power-up step exceeds its bound: main power is shed and STATE is LOCKED_OUT. -/
  | seqTimeout (domain : Nat) (volts : Nat)
  /-- SWITCH_ON_RECHECK (R439): A deferred switch-on rechecks headroom and neighbours every 100 us. -/
  | switchOnRecheck (domain : Nat) (headroom : Nat) (neighbourPeak : Bool)
  /-- CONVERTER_FAILED (R421): A bus converter fails and the stack caps are lowered per Table 14.2. -/
  | converterFailed (k : Nat)
  /-- PHASE_FAILED (R435): A VCL phase fails and the cluster runs on two phases at reduced voltage. -/
  | phaseFailed (cluster : Nat) (phase : Nat)
  /-- DIE_REG_TIED (R437): A failed in-die regulator is replaced through the tie switch to its partner. -/
  | dieRegTied (cluster : Nat) (rail : Nat)
  /-- RAIL_FAULT (R437): A rail out of tolerance for 10 us takes a stack offline or sheds main power. -/
  | railFault (domain : Nat) (volts : Nat)
  /-- DOMAIN_UV (R438): A VCL below 0.47 V for 1 us drops the cluster's work of the round. -/
  | domainUv (cluster : Nat) (volts : Nat) (duration : Nat)
  /-- SENSE_FAULT (R426): An open sense line makes the regulator fall back to local sensing. -/
  | senseFault (domain : Nat)
  /-- MAIN_OFF (R430): Write of MAIN_OFF powers the module down in reverse order. -/
  | mainOff
  /-- MAIN_RETRY (R433): Write of MAIN_RETRY re-enables main power after LOCKED_OUT. -/
  | mainRetry
  /-- PWR_DOM_CLR (R443): Write of PWR_DOM_CTRL.CLR resets a domain's minimum record. -/
  | pwrDomClr (domain : Nat)
  /-- THERMAL_MODEL_STEP (R447): The 1 ms thermal step predicts nodes, chooses used values and corrects the model. -/
  | thermalModelStep (diodes : List (Int × Int)) (sensors : List Int) (powers : List Nat)
  /-- SPOT_GUARD_LIFT (R450): The 70 % cap is lifted after 10 s of agreeing spots. -/
  | spotGuardLift (cluster : Nat)
  /-- CAP_EXCEEDED (R454): Stack power over CAP_h for 1 ms lowers bonded allowances and VCL. -/
  | capExceeded (h : Half) (power : Nat)
  /-- COOLANT_SAMPLE (R460): Flow and temperatures are measured every 1 ms and f_cool is updated. -/
  | coolantSample (flow : Nat) (inlet : Int) (outlet : Int)
  /-- COOLANT_RESTORED (R463): Coolant in range for 1 s releases the alert and raises the caps. -/
  | coolantRestored
  /-- THERMAL_TRIP (R464): A node or sensor reaches 115 C: main power is shed and the trip recorded. -/
  | thermalTrip (place : Nat) (value : Int)
  /-- TRIP_HOLD_END (R465): Main input below 53 V for 1 s moves a trip to COOLDOWN. -/
  | tripHoldEnd
  /-- COOLDOWN_CHECK (R465): The cool-down check runs every 1 s and clears the trip on a pass. -/
  | cooldownCheck (diodes : List (Int × Int))
  /-- STATE_SAVE (R500): Fatigue counts and the floor-plan record are saved to STATE every 24 h. -/
  | stateSave
  /-- START_STEP_DONE (R470): A step of the start sequence ends and the next begins. -/
  | startStepDone (r : StartResult)
  /-- START_STEP_TIMEOUT (R471): A start step reaches its bound and is handled per Table 16.2. -/
  | startStepTimeout (cause : Nat)
  /-- PTP_MESSAGE (R477): A PTP message updates the offset and sets calendar time. -/
  | ptpMessage (port : Nat) (domain : Nat) (msg : PtpMsg)
  /-- PTP_ANNOUNCE_TIMEOUT (R477): Three announce intervals without Announce move PTP to the next client port. -/
  | ptpAnnounceTimeout
  /-- PPS_EDGE (R478): A 1PPS edge applies the pending TAI second and drives lock. -/
  | ppsEdge (offset : Int)
  /-- TIME_LOCK_CHANGE (R476): The time base locks after 16 s or unlocks after 4 s without Sync. -/
  | timeLockChange (locked : Bool)
  /-- MGT_TIME_SET (R479): Write of MGT_TIME_SET_HI sets calendar time or the next 1PPS second. -/
  | mgtTimeSet (lo : Nat) (hi : Nat)
  /-- REMOVE_REQ_N (R572): REMOVE_REQ_N low for 1 ms starts removal preparation. -/
  | removeReqN
  /-- MGT_REMOVE_START (R489): Write of MGT_REMOVE_CTRL.START starts removal preparation. -/
  | mgtRemoveStart
  /-- REMOVAL_DRAIN_END (R489): At the boundary after t0 + DRAIN the remaining steps drop and the module powers down. -/
  | removalDrainEnd
  /-- ALERT_PULSE_END (R571): The 10 ms ALERT_N pulse at REMOVE_READY ends. -/
  | alertPulseEnd
  /-- CFG_CARD_START (R511): Write of CFG_CARD_CTRL.START erases the target partition. -/
  | cfgCardStart (target : Nat) (len : Nat) (owner : Bool)
  /-- CFG_CARD_ABORT (R511): Write of CFG_CARD_CTRL.ABORT ends the write with FAILED. -/
  | cfgCardAbort
  /-- CFG_CARD_DATA (R511): Write of CFG_CARD_DATA passes the next 4 bytes for programming. -/
  | cfgCardData (v : Word)
  /-- CARD_ERASE_DONE (R511): The partition erase ends and reception starts. -/
  | cardEraseDone
  /-- CARD_PROGRAM_DONE (R511): A 256-byte program completes on the card. -/
  | cardProgramDone (ok : Bool)
  /-- CARD_CHECK_DONE (R511): The written partition is checked and the write ends DONE or FAILED. -/
  | cardCheckDone
  /-- CARD_WRITE_TIMEOUT (R511): 60 s without a data write ends the card write with FAILED. -/
  | cardWriteTimeout
  /-- CFG_CARD_READ_DATA (R512): A read of CFG_CARD_READ_DATA returns 4 card bytes and advances the address. -/
  | cfgCardReadData
  /-- BST_TEST_START (R520): Write of BST_TEST_CTRL.START holds a tile and runs the requested test. -/
  | bstTestStart (v : Word)
  /-- MARCH_DONE (R519): A march test ends and failing rows take spares or retire the tile. -/
  | marchDone (h : Half) (rows : List (Nat × Nat))
  /-- THYME_SLICE (R523): A self-test slice runs due units on an idle cluster. -/
  | thymeSlice (cluster : Nat) (units : List UnitResult)
  /-- BST_BURN_START (R526): Write of BST_BURN_CTRL.START burns the field burn map. -/
  | bstBurnStart (owner : Bool)
  /-- BURN_DONE (R526): The fuse burn ends DONE or FAILED. -/
  | burnDone (ok : Bool)
  /-- VDM_READ (R536): Vendor READ returns COUNT registers as one indivisible view. -/
  | vdmRead (ep : Nat) (tag : Nat) (addr : Nat) (count : Nat)
  /-- VDM_WRITE (R536): Vendor WRITE applies COUNT registers in order and reports DONE. -/
  | vdmWrite (ep : Nat) (session : Option Nat) (tag : Nat) (addr : Nat) (values : List Word)
  /-- OWNER_KEY (R537): OWNER_KEY records the key for owner authorisation on the endpoint. -/
  | ownerKey (ep : Nat) (tag : Nat) (key : List Nat)
  /-- EXPORT_ID (R548): EXPORT_ID returns the module ID, a new nonce and the identity key. -/
  | exportId (ep : Nat) (tag : Nat)
  /-- LC_REQUEST (R547): LC_REQUEST performs a life-cycle transition when authorised. -/
  | lcRequest (ep : Nat) (session : Option Nat) (tag : Nat) (target : Nat) (ticket : List Nat)
  /-- SPDM_REQUEST (R549): An SPDM request is answered by the responder, including key exchange. -/
  | spdmRequest (ep : Nat) (msg : SpdmMsg)
  /-- GET_MEASUREMENTS (R550): GET_MEASUREMENTS returns the measurement blocks in one response. -/
  | getMeasurements (ep : Nat) (session : Option Nat) (index : Nat) (nonce : List Nat)
  /-- SPDM_HEARTBEAT_TIMEOUT (R549): A secured session with no message in 3 x P ends. -/
  | spdmHeartbeatTimeout (session : Nat)
  /-- PLDM_REQUEST (R534): A PLDM Type 0 or Type 2 request is answered from the sensors. -/
  | pldmRequest (ep : Nat) (msg : PldmMsg)
  /-- MCTP_CONTROL (R534): An MCTP control message is answered. -/
  | mctpControl (ep : Nat) (msg : MctpMsg)
  /-- IDENTITY_DERIVED (R543): Derivation of the identity key pair ends and SPDM stops answering Busy. -/
  | identityDerived
  /-- WATCHDOG_EXPIRY (R539): A controller without a watchdog restart for 30 ms is held in reset. -/
  | watchdogExpiry (h : Half) (logValid : Nat)
  /-- REFCLK_CHECK (R574): Every 10 ms the references are compared and REFCLK_MON is updated. -/
  | refclkCheck (ab : Bool) (ac : Bool) (bc : Bool)
  /-- LAY_XLT_FLUSH (R147): Write of LAY_XLT_FLUSH empties the translation cache. -/
  | layXltFlush (ti : Nat)
  /-- BDM_CUT_CLR (R223): Write of BDM_CUT_CLR empties the cut list. -/
  | bdmCutClr (ti : Nat)
  /-- TIL_COUNT_CLR (R82): Write of TIL_COUNT_CLR clears the tile counters. -/
  | tilCountClr (ti : Nat)
  /-- MXA_COUNT_CLR (R114): Write of MXA_COUNT_CLR clears the array counters. -/
  | mxaCountClr (ti : Nat)
  /-- LAY_COUNT_CLR (R162): Write of LAY_COUNT_CLR clears the layout counters. -/
  | layCountClr (ti : Nat)
  /-- ATN_COUNT_CLR (R194): Write of ATN_COUNT_CLR clears the attention counters. -/
  | atnCountClr (ti : Nat)
  /-- BDM_COUNT_CLR (R225): Write of BDM_COUNT_CLR clears the bonded counters. -/
  | bdmCountClr (ti : Nat)
  /-- IBU_COUNT_CLR (R231): Write of IBU_COUNT_CLR clears the IBU counters. -/
  | ibuCountClr (ti : Nat)
  /-- INT_COUNT_CLR (R283): Write of INT_COUNT_CLR clears the integrity counters. -/
  | intCountClr (ti : Nat)
  /-- STM_COUNT_CLR (R256): Write of STM_COUNT_CLR clears the stack-tier counters. -/
  | stmCountClr
  /-- ADM_COUNT_CLR (R317): Write of ADM_COUNT_CLR clears the admission counters. -/
  | admCountClr
  /-- SES_COUNT_CLR (R351): Write of SES_COUNT_CLR clears the session counters. -/
  | sesCountClr
  /-- NET_COUNT_CLR (R351): Write of NET_COUNT_CLR clears the port counters. -/
  | netCountClr
  /-- FAB_COUNT_CLR (R389): Write of FAB_COUNT_CLR clears the fabric counters. -/
  | fabCountClr
  /-- HLK_COUNT_CLR (R411): Write of HLK_COUNT_CLR clears HLK_REPLAYS. -/
  | hlkCountClr
  /-- REGISTER_WRITE (R14): A write to any other register acts per field access type, RL fields going to shadow copies. -/
  | registerWrite (addr : Nat) (v : Word)
  /-- AUX_LOST (R40): Auxiliary power is lost while main power is not enabled, or the hold-up converter can no longer feed the auxiliary domain, and the module goes Off. -/
  | auxLost
  /-- PORT_SIGNAL_DETECTED (R322): A client port in DOWN detects a link partner and starts auto-negotiation and training. -/
  | portSignalDetected (port : Nat)
  /-- PORT_UP (R322): A client port completes negotiation and PMD training and comes UP, recording event 0x0901. -/
  | portUp (port : Nat) (phy : Nat)
  /-- PORT_DOWN (R353): A client port loses signal or FEC and goes DOWN, recording event 0x0902. -/
  | portDown (port : Nat) (cause : Nat)
  /-- ICMP_ECHO_ARP_NS (R323): A client port answers an ARP request, IPv6 Neighbour Solicitation or ICMP/ICMPv6 echo. -/
  | icmpEchoArpNs (port : Nat) (kind : EchoKind) (src : Nat)
  /-- DATAGRAM_DISCARDED (R325): A received frame or datagram that is a fragment, has extension headers, a bad checksum or port, a bad MAGIC/VERSION/TYPE/length, or a wrong PEER_ID/COOKIE is discarded and counted. -/
  | datagramDiscarded (x : Discarded)
  /-- SENSE_RESTORED (R426): An open remote-sense line is restored, event 0x040E with 0 is recorded and the domain may be switched on again. -/
  | senseRestored (domain : Nat)
  /-- POWER_DOWN_STEP_DONE (R430): Each domain of an orderly power-down is discharged below 10 % and the next step begins, ending with PWR_OK released and removal reaching REMOVE_READY. -/
  | powerDownStepDone
  /-- TOKEN_BUCKET_REFILL (R245): A partition's G, C or S bucket refills to the size of a waiting access, which the stack controller then serves. -/
  | tokenBucketRefill (stack : Nat) (part : Nat) (h : Half)
  /-- READ_DATA (R76): READ_DATA for a sequencer fetch, gather, attention, scatter-combine or store-path read arrives at the requesting unit of a tile. -/
  | readData (p : Packet)
  /-- PACKAGE_VERIFICATION_DONE (R345): Verification of a complete package and the writing of its WEIGHTS and KV sequences end, with PACKAGE_INVALID or readiness for ACCEPTED at the next boundary. -/
  | packageVerificationDone (model : Nat)
  /-- ENTDAA_OR_SETDASA (R534): The I3C controller assigns the module's dynamic address by SETDASA or ENTDAA on the management port. -/
  | entdaaOrSetdasa (assign : I3cAssign)
deriving DecidableEq, Repr

end Sys2Proof
end

