-- ==== Sys2Proof/Machine/Num.lean ====
section
/-! DEFINITION. Exact binary numbers with the special values of IEEE 754, and the roundings of chapter 04
(R119, R122, R129-R131). A finite value is (-1)^neg * m * 2^e with a natural m, so sums and products are exact;
a rounding happens only where a rule names one. -/
namespace Sys2Proof.Machine

/-- A value: NaN, an infinity, or (-1)^neg * m * 2^e (m = 0 is a signed zero). -/
inductive Num where
  | nan
  | inf (neg : Bool)
  | fin (neg : Bool) (m : Nat) (e : Int)
deriving DecidableEq, Repr

/-- +0. -/
def Num.zero : Num := .fin false 0 0
/-- 1. -/
def Num.one : Num := .fin false 1 0

/-- The value with its sign turned over (04 R122; NEG of Table 2.9). -/
def Num.neg : Num → Num
  | .nan => .nan
  | .inf b => .inf (!b)
  | .fin b m e => .fin (!b) m e

/-- The magnitude (ABS of Table 2.9). -/
def Num.abs : Num → Num
  | .nan => .nan
  | .inf _ => .inf false
  | .fin _ m e => .fin false m e

/-- The signed integer of a mantissa. -/
def sgn (neg : Bool) (m : Nat) : Int := if neg then -(m : Int) else (m : Int)

/-- A finite value from a signed integer mantissa; zero takes the sign given. -/
def Num.ofInt (z : Int) (e : Int) (zeroNeg : Bool) : Num :=
  if z = 0 then .fin zeroNeg 0 0 else .fin (decide (z < 0)) z.natAbs e

/-- The exact sum; a zero sum is +0 unless both terms are negative zeros (IEEE 754, round to nearest even). -/
def Num.add : Num → Num → Num
  | .nan, _ => .nan
  | _, .nan => .nan
  | .inf a, .inf b => if a = b then .inf a else .nan
  | .inf a, .fin _ _ _ => .inf a
  | .fin _ _ _, .inf b => .inf b
  | .fin a m e, .fin b n f =>
    let g := if e ≤ f then e else f
    let z := sgn a (m <<< (e - g).toNat) + sgn b (n <<< (f - g).toNat)
    Num.ofInt z g (if m = 0 ∧ n = 0 then a && b else false)

/-- The exact difference. -/
def Num.sub (x y : Num) : Num := x.add y.neg

/-- The exact product (04 R122): zero times infinity is NaN. -/
def Num.mul : Num → Num → Num
  | .nan, _ => .nan
  | _, .nan => .nan
  | .inf a, .inf b => .inf (a ^^ b)
  | .inf a, .fin b n _ => if n = 0 then .nan else .inf (a ^^ b)
  | .fin a m _, .inf b => if m = 0 then .nan else .inf (a ^^ b)
  | .fin a m e, .fin b n f => .fin (a ^^ b) (m * n) (e + f)

/-- The value times 2^k, exact (04 R121, step 3 of Table 4.5). -/
def Num.scale (x : Num) (k : Int) : Num :=
  match x with
  | .fin a m e => .fin a m (e + k)
  | y => y

/-- Compare two numbers that are not NaN: x < y, with -0 below +0 (02 R69). -/
def Num.ltTotal : Num → Num → Bool
  | .inf a, .inf b => a && !b
  | .inf a, _ => a
  | _, .inf b => !b
  | .fin a m e, .fin b n f =>
    let g := if e ≤ f then e else f
    let x := sgn a (m <<< (e - g).toNat)
    let y := sgn b (n <<< (f - g).toNat)
    if m = 0 ∧ n = 0 then a && !b else decide (x < y)
  | _, _ => false

/-- maximum of IEEE 754-2019 (02 R69): a NaN operand gives NaN, -0 counts below +0. -/
def Num.max (x y : Num) : Num :=
  if x = .nan ∨ y = .nan then .nan else if x.ltTotal y then y else x

/-- minimum of IEEE 754-2019 (02 R69). -/
def Num.min (x y : Num) : Num :=
  if x = .nan ∨ y = .nan then .nan else if y.ltTotal x then y else x

/-- Numeric order without the sign of zero, false with a NaN: x < y. -/
def Num.lt (x y : Num) : Bool :=
  match x, y with
  | .fin _ 0 _, .fin _ 0 _ => false
  | x, y => if x = .nan ∨ y = .nan then false else x.ltTotal y

/-- A zero of either sign. -/
def Num.isZero : Num → Bool
  | .fin _ m _ => decide (m = 0)
  | _ => false

/-- The position of the leading bit: floor(log2 |x|) of a nonzero finite value. -/
def Num.exponent : Num → Int
  | .fin _ m e => (m.log2 : Int) + e
  | _ => 0

/-- The quotient of two naturals shifted left by `k`, with a last bit that says whether anything remains:
enough for any later rounding to be the rounding of the exact quotient. -/
def stickyDiv (a b k : Nat) : Nat :=
  let q := (a <<< k) / b
  2 * q + (if (a <<< k) % b = 0 then 0 else 1)

/-- The quotient, exact up to a sticky last bit below the precision of every format (IEEE 754 division). -/
def Num.div : Num → Num → Num
  | .nan, _ => .nan
  | _, .nan => .nan
  | .inf _, .inf _ => .nan
  | .inf a, .fin b _ _ => .inf (a ^^ b)
  | .fin a _ _, .inf b => .fin (a ^^ b) 0 0
  | .fin a m e, .fin b n f =>
    if n = 0 then (if m = 0 then .nan else .inf (a ^^ b))
    else
      let k := 64 + n.log2
      .fin (a ^^ b) (stickyDiv m n k) (e - f - (k : Int) - 1)

/-- Integer square root by bits, from bit `i` down. -/
def isqrtAux (n : Nat) : Nat → Nat → Nat
  | 0, r => r
  | i + 1, r =>
    let t := r + 2 ^ i
    isqrtAux n i (if t * t ≤ n then t else r)

/-- The integer square root of a natural. -/
def isqrt (n : Nat) : Nat := isqrtAux n (n.log2 / 2 + 1) 0

/-- The square root with a sticky last bit (correctly rounded once rounded). -/
def Num.sqrt : Num → Num
  | .nan => .nan
  | .inf a => if a then .nan else .inf false
  | .fin a m e =>
    if m = 0 then .fin a 0 0
    else if a then .nan
    else
      let odd := (e % 2).toNat
      let n := m <<< (128 + odd)
      let r := isqrt n
      .fin false (2 * r + (if r * r = n then 0 else 1)) ((e - (odd : Int) - 128) / 2 - 1)

/-- How a rounding chooses: to nearest even, or stochastically with a 24-bit draw (04 R130, R131). -/
inductive Rnd where
  | rne
  | stochastic (u : Nat)
deriving DecidableEq, Repr

/-- The integer nearest to m / 2^s, ties to even. -/
def rneShift (m s : Nat) : Nat :=
  let q := m >>> s
  let r := m % 2 ^ s
  if s = 0 then m
  else if r < 2 ^ (s - 1) then q
  else if 2 ^ (s - 1) < r then q + 1
  else if q % 2 = 0 then q else q + 1

/-- Stochastic choice between q and q + 1 for a magnitude m / 2^s with sign (04 R131): with lo and hi the
neighbours of the signed value, F = floor(f * 2^24) and hi is taken when u < F. -/
def stochShift (neg : Bool) (m s u : Nat) : Nat :=
  let q := m >>> s
  let r := m % 2 ^ s
  if r = 0 then q
  else if neg then
    if u < ((2 ^ s - r) <<< 24) / 2 ^ s then q else q + 1
  else
    if u < (r <<< 24) / 2 ^ s then q + 1 else q

/-- Round a magnitude m * 2^e to a multiple of 2^q; the answer counts multiples. -/
def roundMag (rnd : Rnd) (neg : Bool) (m : Nat) (e q : Int) : Nat :=
  if q ≤ e then m <<< (e - q).toNat
  else
    match rnd with
    | .rne => rneShift m (q - e).toNat
    | .stochastic u => stochShift neg m (q - e).toNat u

/-- A binary floating format: exponent bits, fraction bits (Table 4.2). -/
structure FloatFmt where
  eb : Nat
  mb : Nat
deriving DecidableEq, Repr

def FloatFmt.bias (f : FloatFmt) : Int := 2 ^ (f.eb - 1) - 1
/-- The exponent of the smallest subnormal. -/
def FloatFmt.ulpMin (f : FloatFmt) : Int := 1 - f.bias - (f.mb : Int)

def fmtFP32 : FloatFmt := ⟨8, 23⟩
def fmtBF16 : FloatFmt := ⟨8, 7⟩
def fmtFP16 : FloatFmt := ⟨5, 10⟩
def fmtE4M3 : FloatFmt := ⟨4, 3⟩
def fmtE5M2 : FloatFmt := ⟨5, 2⟩
def fmtE2M3 : FloatFmt := ⟨2, 3⟩
def fmtE3M2 : FloatFmt := ⟨3, 2⟩
def fmtE2M1 : FloatFmt := ⟨2, 1⟩

/-- The magnitude code (exponent and fraction together) of a finite value rounded to the format, the exponent
left unbounded above: subnormals are produced, nothing is flushed (R119). -/
def FloatFmt.magCode (f : FloatFmt) (rnd : Rnd) (neg : Bool) (m : Nat) (e : Int) : Nat :=
  if m = 0 then 0
  else
    let lead := (m.log2 : Int) + e
    let q0 := lead - (f.mb : Int)
    let q := if f.ulpMin ≤ q0 then q0 else f.ulpMin
    let n := roundMag rnd neg m e q
    if n < 2 ^ f.mb then n
    else ((q - f.ulpMin).toNat <<< f.mb) + n

/-- The value of a finite code. -/
def FloatFmt.finite (f : FloatFmt) (neg : Bool) (mag : Nat) : Num :=
  let ex := mag >>> f.mb
  let fr := mag % 2 ^ f.mb
  if ex = 0 then .fin neg fr f.ulpMin
  else .fin neg (2 ^ f.mb + fr) (f.ulpMin + (ex : Int) - 1)

/-- The code of +infinity in a format with IEEE specials. -/
def FloatFmt.infMag (f : FloatFmt) : Nat := (2 ^ f.eb - 1) <<< f.mb

/-- The value of a code of a format with IEEE specials (FP32, BF16, FP16, E5M2). -/
def FloatFmt.decodeIeee (f : FloatFmt) (c : Nat) : Num :=
  let neg := decide (c >>> (f.eb + f.mb) % 2 = 1)
  let mag := c % 2 ^ (f.eb + f.mb)
  if mag < f.infMag then f.finite neg mag
  else if mag = f.infMag then .inf neg
  else .nan

/-- Sign bit of a format. -/
def FloatFmt.signed (f : FloatFmt) (neg : Bool) (mag : Nat) : Nat :=
  (if neg then 2 ^ (f.eb + f.mb) else 0) + mag

/-- Encode with IEEE 754 overflow (FP32, BF16, FP16 rows of Table 4.6): to nearest even overflow rounds to
infinity; stochastically any magnitude beyond the largest finite value is an infinity. A NaN is the quiet NaN of
sign 0 with the top payload bit. -/
def FloatFmt.encodeIeee (f : FloatFmt) (rnd : Rnd) (x : Num) : Nat :=
  match x with
  | .nan => f.infMag + 2 ^ (f.mb - 1)
  | .inf a => f.signed a f.infMag
  | .fin a m e =>
    match rnd with
    | .rne =>
      let c := f.magCode .rne a m e
      f.signed a (if f.infMag ≤ c then f.infMag else c)
    | .stochastic u =>
      if (f.finite false (f.infMag - 1)).lt (.fin false m e) then f.signed a f.infMag
      else f.signed a (f.magCode (.stochastic u) a m e)

/-- Encode with saturation to the largest finite code `maxMag` (narrow rows of Table 4.6). -/
def FloatFmt.encodeSat (f : FloatFmt) (maxMag : Nat) (rnd : Rnd) (neg : Bool) (m : Nat) (e : Int) : Nat :=
  if (f.finite false maxMag).lt (.fin false m e) then f.signed neg maxMag
  else f.signed neg (f.magCode rnd neg m e)

/-- Round to a two's-complement integer of `w` bits counting multiples of 2^q, saturating (INT8, INT32, MXINT8 of
Table 4.6); the answer is the code. -/
def encodeIntSat (w : Nat) (q : Int) (rnd : Rnd) (x : Num) : Nat :=
  let hi := 2 ^ (w - 1) - 1
  match x with
  | .nan => 0
  | .inf a => if a then 2 ^ (w - 1) else hi
  | .fin a m e =>
    let beyond := (Num.fin false (if a then 2 ^ (w - 1) else hi) q).lt (.fin false m e)
    let n := if beyond then (if a then 2 ^ (w - 1) else hi) else roundMag rnd a m e q
    let n := if a then (if 2 ^ (w - 1) < n then 2 ^ (w - 1) else n) else (if hi < n then hi else n)
    if a then (2 ^ w - n) % 2 ^ w else n

/-- The signed value of a two's-complement code. -/
def toSigned (w c : Nat) : Int :=
  if c < 2 ^ (w - 1) then (c : Int) else (c : Int) - 2 ^ w

/-- Round to FP32 with round to nearest even and give the value back (vector unit, fallback, wide group). -/
def fp32 (x : Num) : Num :=
  match x with
  | .fin _ _ _ => fmtFP32.decodeIeee (fmtFP32.encodeIeee .rne x)
  | y => y

/-- Round to BF16 or FP16 with round to nearest even and give the value back. -/
def roundTo (f : FloatFmt) (x : Num) : Num :=
  match x with
  | .fin _ _ _ => f.decodeIeee (f.encodeIeee .rne x)
  | y => y

/-- One FP32 operation: the exact result rounded once. -/
def fadd (x y : Num) : Num := fp32 (x.add y)
def fsub (x y : Num) : Num := fp32 (x.sub y)
def fmul (x y : Num) : Num := fp32 (x.mul y)
/-- a * b + c with one rounding (FMA). -/
def ffma (a b c : Num) : Num := fp32 ((a.mul b).add c)
def fdiv (x y : Num) : Num := fp32 (x.div y)
def fsqrt (x : Num) : Num := fp32 x.sqrt

/-- The FP32 value of a 32-bit code. -/
def ofFP32 (c : Nat) : Num := fmtFP32.decodeIeee c
/-- The FP32 code of a value, rounded to nearest even. -/
def toFP32 (x : Num) : Nat := fmtFP32.encodeIeee .rne x

/-- Whether a value is a natural number in a range, and which (07 R210: an exactly integral FP32 count). -/
def Num.asNat? (x : Num) : Option Nat :=
  match x with
  | .fin a m e =>
    if m = 0 then some 0
    else if a then none
    else if 0 ≤ e then some (m <<< e.toNat)
    else if m % 2 ^ ((-e).toNat) = 0 then some (m >>> (-e).toNat) else none
  | _ => none

end Sys2Proof.Machine
end

