-- ==== Sys2Proof/Machine/Formats.lean ====
section
/-! DEFINITION. Element formats (04 R118-R121), conversion at the store path (R129) and the counter-based draws of
stochastic rounding (R131). -/
namespace Sys2Proof.Machine

/-- The element formats of Table 4.1. -/
inductive Fmt where
  | e4m3 | e5m2 | e2m3 | e3m2 | e2m1 | int8 | bf16 | fp16 | fp32 | int32 | e8m0
  | mxE4m3 | mxE5m2 | mxE2m3 | mxE3m2 | mxfp4 | mxint8
deriving DecidableEq, Repr

/-- The format of a code of Table 4.1; every other code is reserved. -/
def Fmt.ofCode (c : Nat) : Option Fmt :=
  match c with
  | 0x01 => some .e4m3 | 0x02 => some .e5m2 | 0x03 => some .e2m3 | 0x04 => some .e3m2
  | 0x05 => some .e2m1 | 0x06 => some .int8 | 0x07 => some .bf16 | 0x08 => some .fp16
  | 0x09 => some .fp32 | 0x0A => some .int32 | 0x0B => some .e8m0
  | 0x11 => some .mxE4m3 | 0x12 => some .mxE5m2 | 0x13 => some .mxE2m3 | 0x14 => some .mxE3m2
  | 0x15 => some .mxfp4 | 0x16 => some .mxint8
  | _ => none

/-- The code of a format. -/
def Fmt.code : Fmt → Nat
  | .e4m3 => 0x01 | .e5m2 => 0x02 | .e2m3 => 0x03 | .e3m2 => 0x04 | .e2m1 => 0x05 | .int8 => 0x06
  | .bf16 => 0x07 | .fp16 => 0x08 | .fp32 => 0x09 | .int32 => 0x0A | .e8m0 => 0x0B
  | .mxE4m3 => 0x11 | .mxE5m2 => 0x12 | .mxE2m3 => 0x13 | .mxE3m2 => 0x14 | .mxfp4 => 0x15 | .mxint8 => 0x16

/-- Element bits of Table 4.1. -/
def Fmt.width : Fmt → Nat
  | .e4m3 | .e5m2 | .int8 | .e8m0 | .mxE4m3 | .mxE5m2 | .mxint8 => 8
  | .e2m3 | .e3m2 | .mxE2m3 | .mxE3m2 => 6
  | .e2m1 | .mxfp4 => 4
  | .bf16 | .fp16 => 16
  | .fp32 | .int32 => 32

/-- Whether a block scale per 32 elements belongs to the format. -/
def Fmt.isMX : Fmt → Bool
  | .mxE4m3 | .mxE5m2 | .mxE2m3 | .mxE3m2 | .mxfp4 | .mxint8 => true
  | _ => false

/-- The operand groups of Table 3.3. -/
inductive Group where
  | narrow | integer | wide
deriving DecidableEq, Repr

def Fmt.group : Fmt → Option Group
  | .e4m3 | .e5m2 | .e2m3 | .e3m2 | .e2m1 | .mxE4m3 | .mxE5m2 | .mxE2m3 | .mxE3m2 | .mxfp4 => some .narrow
  | .int8 | .mxint8 => some .integer
  | .bf16 | .fp16 => some .wide
  | .fp32 | .int32 | .e8m0 => none

/-- FP4 elements run at twice the rate when both operands have them (Table 3.3). -/
def Fmt.isFp4 : Fmt → Bool
  | .e2m1 | .mxfp4 => true
  | _ => false

/-- The exponent of the smallest nonzero magnitude of an element (Table 4.3). -/
def Fmt.ell : Fmt → Int
  | .e4m3 | .mxE4m3 => -9
  | .e5m2 | .mxE5m2 => -16
  | .e2m3 | .mxE2m3 => -3
  | .e3m2 | .mxE3m2 => -4
  | .e2m1 | .mxfp4 => -1
  | .mxint8 => -6
  | _ => 0

/-- The value of an element code, without its block scale (04 R119, R121). -/
def Fmt.value (f : Fmt) (c : Nat) : Num :=
  match f with
  | .e4m3 | .mxE4m3 =>
    if c % 128 = 127 then .nan else fmtE4M3.finite (decide (128 ≤ c % 256)) (c % 128)
  | .e5m2 | .mxE5m2 => fmtE5M2.decodeIeee (c % 256)
  | .e2m3 | .mxE2m3 => fmtE2M3.finite (decide (32 ≤ c % 64)) (c % 32)
  | .e3m2 | .mxE3m2 => fmtE3M2.finite (decide (32 ≤ c % 64)) (c % 32)
  | .e2m1 | .mxfp4 => fmtE2M1.finite (decide (8 ≤ c % 16)) (c % 8)
  | .int8 => Num.ofInt (toSigned 8 (c % 256)) 0 false
  | .mxint8 => Num.ofInt (toSigned 8 (c % 256)) (-6) false
  | .bf16 => fmtBF16.decodeIeee (c % 2 ^ 16)
  | .fp16 => fmtFP16.decodeIeee (c % 2 ^ 16)
  | .fp32 => fmtFP32.decodeIeee (c % 2 ^ 32)
  | .int32 => Num.ofInt (toSigned 32 (c % 2 ^ 32)) 0 false
  | .e8m0 => if c % 256 = 255 then .nan else .fin false 1 ((c % 256 : Nat) - 127)

/-- A scale exponent from an E8M0 code; none for the NaN scale (R121). -/
def scaleExp (c : Nat) : Option Int := if c = 255 then none else some ((c : Int) - 127)

/-- An element with its block scale: a NaN scale makes the element NaN (R121). -/
def Fmt.scaled (f : Fmt) (c : Nat) (scale : Option Nat) : Num :=
  match scale with
  | none => f.value c
  | some sc =>
    match scaleExp sc with
    | none => .nan
    | some k => (f.value c).scale k

/-- Conversion to a destination element (Table 4.6): the one rounding of step 4 of Table 4.5. E8M0 is no drain
destination; its row is never reached there and reads 0. -/
def Fmt.encode (f : Fmt) (rnd : Rnd) (x : Num) : Nat :=
  match f with
  | .fp32 => fmtFP32.encodeIeee rnd x
  | .bf16 => fmtBF16.encodeIeee rnd x
  | .fp16 => fmtFP16.encodeIeee rnd x
  | .int8 => encodeIntSat 8 0 rnd x
  | .int32 => encodeIntSat 32 0 rnd x
  | .mxint8 => encodeIntSat 8 (-6) rnd x
  | .e8m0 => 0
  | .e4m3 | .mxE4m3 =>
    match x with
    | .nan => 0x7F
    | .inf a => fmtE4M3.signed a 0x7E
    | .fin a m e => fmtE4M3.encodeSat 0x7E rnd a m e
  | .e5m2 | .mxE5m2 =>
    match x with
    | .nan => 0x7F
    | .inf a => fmtE5M2.signed a 0x7B
    | .fin a m e => fmtE5M2.encodeSat 0x7B rnd a m e
  | .e2m3 | .mxE2m3 =>
    match x with
    | .nan => 0
    | .inf a => fmtE2M3.signed a 0x1F
    | .fin a m e => fmtE2M3.encodeSat 0x1F rnd a m e
  | .e3m2 | .mxE3m2 =>
    match x with
    | .nan => 0
    | .inf a => fmtE3M2.signed a 0x1F
    | .fin a m e => fmtE3M2.encodeSat 0x1F rnd a m e
  | .e2m1 | .mxfp4 =>
    match x with
    | .nan => 0
    | .inf a => fmtE2M1.signed a 0x7
    | .fin a m e => fmtE2M1.encodeSat 0x7 rnd a m e

/-- The exponent e of 05 R152 that the block scale of an MX destination subtracts. -/
def Fmt.mxExp : Fmt → Int
  | .mxE4m3 => 8 | .mxE5m2 => 15 | .mxE2m3 => 2 | .mxE3m2 => 4 | .mxfp4 => 2
  | _ => 0

/-- The block scale X of 05 R152 from the largest magnitude of a block: floor(log2 m) - e, within -127 to 127, and
-127 for a block of zeros. -/
def Fmt.blockExp (f : Fmt) (m : Num) : Int :=
  if m.isZero then -127
  else
    let x := m.exponent - f.mxExp
    if x < -127 then -127 else if 127 < x then 127 else x

/-- The mixer of 04 R131, modulo 2^64. -/
def mix (seed n : BitVec 64) : BitVec 64 :=
  let z := seed + (n + 1#64) * 0x9E3779B97F4A7C15#64
  let z := (z ^^^ (z >>> 30)) * 0xBF58476D1CE4E5B9#64
  let z := (z ^^^ (z >>> 27)) * 0x94D049BB133111EB#64
  z ^^^ (z >>> 31)

/-- The 24-bit draw of 04 R131 for a command ordinal and a value ordinal, each taken modulo 2^32. -/
def draw (seedEff : BitVec 64) (cmdOrdinal valueOrdinal : Nat) : Nat :=
  let n := (BitVec.ofNat 64 (cmdOrdinal % 2 ^ 32) <<< 32) ||| BitVec.ofNat 64 (valueOrdinal % 2 ^ 32)
  (mix seedEff n >>> 40).toNat

end Sys2Proof.Machine
end

