-- ==== Sys2Proof/Machine/Codes.lean ====
section
/-! DEFINITION. The error codes of chapter 09: the (72,64) SEC-DED code of an SRAM word with its address columns
(R263, R264) and the symbol code of a 32-byte granule (R265-R267), with the poison pattern of each (R268). -/
namespace Sys2Proof.Machine

/-- The number of ones of a byte. -/
def weight8 (b : BitVec 8) : Nat :=
  (List.range 8).foldl (fun n i => n + (b.getLsbD i).toNat) 0

/-- The 8-bit values of weight 3 in rising order: 56 values (R263). -/
def weight3 : List Nat :=
  [0x07, 0x0B, 0x0D, 0x0E, 0x13, 0x15, 0x16, 0x19, 0x1A, 0x1C, 0x23, 0x25, 0x26, 0x29, 0x2A, 0x2C,
   0x31, 0x32, 0x34, 0x38, 0x43, 0x45, 0x46, 0x49, 0x4A, 0x4C, 0x51, 0x52, 0x54, 0x58, 0x61, 0x62,
   0x64, 0x68, 0x70, 0x83, 0x85, 0x86, 0x89, 0x8A, 0x8C, 0x91, 0x92, 0x94, 0x98, 0xA1, 0xA2, 0xA4,
   0xA8, 0xB0, 0xC1, 0xC2, 0xC4, 0xC8, 0xD0, 0xE0]

/-- The first 26 of the 8-bit values of weight 5 in rising order: eight for data bits 56-63, eighteen for the
address bits (R263). -/
def weight5 : List Nat :=
  [0x1F, 0x2F, 0x37, 0x3B, 0x3D, 0x3E, 0x4F, 0x57, 0x5B, 0x5D, 0x5E, 0x67, 0x6B, 0x6D, 0x6E, 0x73,
   0x75, 0x76, 0x79, 0x7A, 0x7C, 0x8F, 0x97, 0x9B, 0x9D, 0x9E]

/-- The columns of the 64 data bits. -/
def dataColumns : List Nat := weight3 ++ weight5.take 8
/-- The columns of the 18 address bits. -/
def addrColumns : List Nat := weight5.drop 8
/-- The column of the poison marker. -/
def poisonColumn : Nat := 0x7F

/-- The XOR of the columns whose bit of `v` is one. -/
def xorColumns : List Nat → Nat → Nat
  | [], _ => 0
  | c :: cs, v => (if v % 2 = 1 then c else 0) ^^^ xorColumns cs (v / 2)

/-- The check value of an SRAM word: data, word address W, marker (R263). -/
def sramCheck (d : BitVec 64) (w : Nat) (poison : Bool) : BitVec 8 :=
  BitVec.ofNat 8 (xorColumns dataColumns d.toNat ^^^ xorColumns addrColumns w ^^^ (if poison then poisonColumn else 0))

/-- The coded word stored at W: check bits in [71:64] (R263). -/
def sramEncode (d : BitVec 64) (w : Nat) : BitVec 72 := sramCheck d w false ++ d
/-- The poison pattern of an SRAM word (R268): data 0 with the marker in the check bits. -/
def sramPoison (w : Nat) : BitVec 72 := sramCheck 0 w true ++ (0 : BitVec 64)

/-- The outcomes of a read of an SRAM word (Table 9.2). -/
inductive SramKind where
  | clean
  | checkCorrected
  | dataCorrected (bit : Nat)
  | addressError (bit : Nat)
  | poison
  | uncorrectable (syndrome : Nat)
deriving DecidableEq, Repr

/-- The syndrome of a stored word read at W. -/
def sramSyndrome (c : BitVec 72) (w : Nat) : BitVec 8 :=
  (c.extractLsb' 64 8) ^^^ sramCheck (c.extractLsb' 0 64) w false

/-- Classify a syndrome (Table 9.2). -/
def sramClass (syn : BitVec 8) : SramKind :=
  if syn = 0 then .clean
  else if weight8 syn = 1 then .checkCorrected
  else
    match dataColumns.idxOf? syn.toNat with
    | some i => .dataCorrected i
    | none =>
      match addrColumns.idxOf? syn.toNat with
      | some a => .addressError a
      | none => if syn.toNat = poisonColumn then .poison else .uncorrectable syn.toNat

/-- Whether an outcome delivers the data poisoned. -/
def SramKind.poisoned : SramKind → Bool
  | .clean | .checkCorrected | .dataCorrected _ => false
  | .addressError _ | .poison | .uncorrectable _ => true

/-- A read of a stored word at W: the outcome and the data delivered (corrected where it can be). -/
def sramDecode (c : BitVec 72) (w : Nat) : SramKind × BitVec 64 :=
  let d := c.extractLsb' 0 64
  match sramClass (sramSyndrome c w) with
  | .dataCorrected i => (.dataCorrected i, d ^^^ (1#64 <<< i))
  | k => (k, d)

/-- The product in GF(256) over 0x11D (R265): shift and reduce, bit by bit of the second factor. -/
def gmulAux : Nat → BitVec 8 → BitVec 8 → BitVec 8
  | 0, _, _ => 0
  | n + 1, a, b =>
    let a2 := if a.getLsbD 7 then (a <<< 1) ^^^ 0x1D#8 else a <<< 1
    (if b.getLsbD 0 then a else 0) ^^^ gmulAux n a2 (b >>> 1)

def gmul (a b : BitVec 8) : BitVec 8 := gmulAux 8 a b

/-- A 4-bit symbol in GF(16) inside GF(256): the sum of the powers of gamma = 0x98 whose bit is set (R265). -/
def phi (s : Nat) : BitVec 8 :=
  (if s % 2 = 1 then 0x01#8 else 0) ^^^ (if s / 2 % 2 = 1 then 0x98#8 else 0) ^^^
  (if s / 4 % 2 = 1 then gmul 0x98 0x98 else 0) ^^^ (if s / 8 % 2 = 1 then gmul (gmul 0x98 0x98) 0x98 else 0)

/-- The symbol of an element of GF(16). -/
def phiInv (e : BitVec 8) : Nat :=
  match (List.range 16).find? (fun s => phi s = e) with
  | some s => s
  | none => 0

/-- The four check bytes, C1 lowest. -/
structure Check4 where
  c1 : BitVec 8
  c2 : BitVec 8
  c3 : BitVec 8
  c4 : BitVec 8
deriving DecidableEq, Repr

/-- Add a symbol with locator x to the check bytes. -/
def Check4.acc (c : Check4) (t x : BitVec 8) : Check4 :=
  let t1 := gmul t x
  let t2 := gmul t1 x
  let t3 := gmul t2 x
  let t4 := gmul t3 x
  ⟨c.c1 ^^^ t1, c.c2 ^^^ t2, c.c3 ^^^ t3, c.c4 ^^^ t4⟩

/-- The check bytes of `n` successive symbols taken from the low nibbles of `v`, the first at locator `x`; the
locator after them is answered too. -/
def checkNibbles : Nat → Nat → BitVec 8 → Check4 → Check4 × BitVec 8
  | 0, _, x, c => (c, x)
  | n + 1, v, x, c => checkNibbles n (v / 16) (gmul x 2) (c.acc (phi (v % 16)) x)

/-- check(data, G, poison) of R265: 64 data symbols, 10 address symbols, the marker; C1 in bits [7:0]. -/
def granuleCheck (data : BitVec 256) (g : Nat) (poison : Bool) : BitVec 32 :=
  let r := checkNibbles 64 data.toNat 1 ⟨0, 0, 0, 0⟩
  let r := checkNibbles 10 g r.2 r.1
  let r := checkNibbles 1 (if poison then 1 else 0) r.2 r.1
  r.1.c4 ++ r.1.c3 ++ r.1.c2 ++ r.1.c1

/-- A granule as stored: check bits above the data. -/
def granuleEncode (d : BitVec 256) (g : Nat) : BitVec 288 := granuleCheck d g false ++ d
/-- The poison pattern of a granule (R268). -/
def granulePoison (g : Nat) : BitVec 288 := granuleCheck 0 g true ++ (0 : BitVec 256)

/-- The outcomes of a read of a granule (R267). -/
inductive GranKind where
  | clean
  | checkCorrected
  | dataCorrected (symbol : Nat)
  | addressError (symbol : Nat)
  | poison
  | uncorrectable
deriving DecidableEq, Repr

def GranKind.poisoned : GranKind → Bool
  | .clean | .checkCorrected | .dataCorrected _ => false
  | .addressError _ | .poison | .uncorrectable => true

/-- Counted as corrected granules (R267). -/
def GranKind.corrected : GranKind → Bool
  | .checkCorrected | .dataCorrected _ => true
  | _ => false

/-- The inverse in GF(256): a^254. -/
def ginv (a : BitVec 8) : BitVec 8 :=
  let a2 := gmul a a
  let a4 := gmul a2 a2
  let a8 := gmul a4 a4
  let a16 := gmul a8 a8
  let a32 := gmul a16 a16
  let a64 := gmul a32 a32
  let a128 := gmul a64 a64
  gmul a128 (gmul a64 (gmul a32 (gmul a16 (gmul a8 (gmul a4 a2)))))

/-- e^15, which is 1 for the nonzero elements of GF(16). -/
def gpow15 (e : BitVec 8) : BitVec 8 :=
  let e2 := gmul e e
  let e4 := gmul e2 e2
  gmul (gmul e4 e4) (gmul e4 (gmul e2 e))

/-- The logarithm to the base alpha, by search from the power `p` = alpha^i. -/
def logAlpha : Nat → Nat → BitVec 8 → BitVec 8 → Nat
  | 0, i, _, _ => i
  | n + 1, i, p, x => if p = x then i else logAlpha n (i + 1) (gmul p 2) x

/-- How many nibbles of the 32 check bits are not zero. -/
def nonzeroNibbles (s : BitVec 32) : Nat :=
  (List.range 8).foldl (fun n i => n + (if s.extractLsb' (4 * i) 4 = 0 then 0 else 1)) 0

/-- Classify a granule read (the code of R267); the error value of a data symbol comes with it. -/
def granuleClass (s : BitVec 32) : GranKind × BitVec 8 :=
  let s1 := s.extractLsb' 0 8
  let s2 := s.extractLsb' 8 8
  let s3 := s.extractLsb' 16 8
  let s4 := s.extractLsb' 24 8
  if s = 0 then (.clean, 0)
  else if nonzeroNibbles s = 1 then (.checkCorrected, 0)
  else if s1 = 0 ∨ s2 = 0 ∨ s3 = 0 ∨ s4 = 0 then (.uncorrectable, 0)
  else
    let x := gmul s2 (ginv s1)
    if gmul s2 x ≠ s3 ∨ gmul s3 x ≠ s4 then (.uncorrectable, 0)
    else
      let i := logAlpha 255 0 1 x
      let e := gmul s1 (ginv x)
      if e ≠ 0 ∧ gpow15 e ≠ 1 then (.uncorrectable, 0)
      else if i < 64 then (.dataCorrected i, e)
      else if i < 74 then (.addressError i, e)
      else if i = 74 ∧ e = 1 then (.poison, e)
      else (.uncorrectable, 0)

/-- A read of a stored granule at address value G: the outcome and the data delivered. -/
def granuleDecode (c : BitVec 288) (g : Nat) : GranKind × BitVec 256 :=
  let d := c.extractLsb' 0 256
  match granuleClass ((c.extractLsb' 256 32) ^^^ granuleCheck d g false) with
  | (.dataCorrected i, e) => (.dataCorrected i, d ^^^ (BitVec.ofNat 256 (phiInv e) <<< (4 * i)))
  | (k, _) => (k, d)

end Sys2Proof.Machine
end

