-- ==== Sys2Proof/Machine/Severity.lean ====
section
/-! DEFINITION. The severity of every event code: Table 9.9 and the event tables of the chapters (09 R279, R280,
19 R561). -/
namespace Sys2Proof.Machine

/-- The events of severity 1. -/
def severity1 : List Nat :=
  [0x0011, 0x0017, 0x001A, 0x001B, 0x001C, 0x0102, 0x0103, 0x0104, 0x0106, 0x0202, 0x0203, 0x0205, 0x0208, 0x0209,
   0x0301, 0x0302, 0x0303, 0x0403, 0x0406, 0x040E, 0x0501, 0x0502, 0x0505, 0x0508, 0x0509, 0x050C, 0x050D, 0x0604,
   0x0605, 0x0607, 0x0703, 0x0708, 0x070A, 0x0802, 0x0803, 0x0804, 0x0806, 0x080A, 0x080B, 0x080C, 0x0902, 0x0A01,
   0x0A02, 0x0A04, 0x0A06, 0x0B02, 0x0B08, 0x0B09, 0x0C01, 0x0C06, 0x0C08, 0x2502, 0x2601]

/-- The events of severity 2. -/
def severity2 : List Nat :=
  [0x040D, 0x0B04, 0x0B07, 0x200A, 0x2301, 0x2407, 0x2408, 0x2501, 0x2602, 0x2608]

/-- The events of severity 3. -/
def severity3 : List Nat :=
  [0x0001, 0x0002, 0x0014, 0x0015, 0x0204, 0x0407, 0x0408, 0x040A, 0x0503, 0x0506, 0x0606, 0x070B, 0x0808, 0x080D,
   0x080E, 0x0A03, 0x0A07, 0x0A08, 0x0C03, 0x2402, 0x2607]

/-- The events of severity 4. -/
def severity4 : List Nat :=
  [0x0409, 0x0C04, 0x2603]

/-- The events of severity 5. -/
def severity5 : List Nat :=
  [0x0012, 0x0013, 0x0016, 0x040C, 0x040F, 0x0507, 0x0A05, 0x0B03]

/-- The severity of an event; the codes not listed above are of severity 0, recorded only. -/
def severityOf (code : Nat) : Nat :=
  if severity5.contains code then 5
  else if severity4.contains code then 4
  else if severity3.contains code then 3
  else if severity2.contains code then 2
  else if severity1.contains code then 1
  else 0

end Sys2Proof.Machine
end

