-- ==== Sys2Proof/Config.lean ====
section
/-! DEFINITION. What one module fixes and what the spec leaves open. Every constant below is uninterpreted: it has no
body, so nothing can be proved of its value. -/
namespace Sys2Proof

/-- A fresh free value: the State counter `free` says how many have been taken (log 2). -/
opaque Config.freeValue : Nat → BitVec 64

/-- The coded word an SRAM address reads as before it is written, per generation of the tile's contents (09 R271). -/
opaque Config.unwrittenWord : (generation tile word : Nat) → BitVec 72
/-- The coded granule a bonded or stack address reads as before it is written, per generation (09 R271). -/
opaque Config.unwrittenGranule : (generation unit granule : Nat) → BitVec 288

/-- How many FP32 codes a result of Table 2.9 (EXP, LOG, RECIP, RSQRT: `fn` is the OP) or of Table 5.8 (`fn` is 16 + ACT) lies above
the correctly rounded one, by operand; where it is used it is held within the accuracy the tables give (log 15). -/
opaque Config.ulps : (fn : Nat) → BitVec 32 → Int

/-- REDUCE LSE on the FP32 codes of a group in order: ln of the sum of e^a; the spec states no accuracy (Table 2.10). -/
opaque Config.lse : List (BitVec 32) → BitVec 32
/-- What an INT32 sum of SCATTER outside the INT32 range writes: the spec states no result (05 R159). -/
opaque Config.int32Sum : Int → BitVec 32

/-- The row of its bank that an SRAM word lies in; the spec gives banks spare rows and not their geometry (09 R277). -/
opaque Config.sramRow : (word : Nat) → Nat

/-- The 64-bit unique module ID (19 R563). -/
opaque Config.moduleId : BitVec 64

/-- The pace in mGst/s that the forecast leaves a cluster for a round: the product of the measured pace and the derate
that the calibration set's pace model gives; capped by the measured pace where it is used (10 R302, 15 R459). -/
opaque Config.deratedPace : (forecast cluster round measured : Nat) → Nat
/-- Whether a part of the cluster would exceed its plan limit in a round (15 R459). -/
opaque Config.forecastFlag : (forecast cluster round : Nat) → Bool
/-- P_idle of a compute stack in W: its measured power with no admitted work (10 R306); half 0 is West. -/
opaque Config.idlePower : (half round : Nat) → Nat
/-- Where Sage puts a segment's commands: a 48-bit device virtual address (10 R293). -/
opaque Config.segmentEntry : (round tile seg : Nat) → BitVec 48
/-- The output slot of a request step: its virtual address as a patch gives it, and its page of the stack tier
(10 R312). -/
opaque Config.outputVa : (batch member : Nat) → BitVec 48
opaque Config.outputPage : (batch member : Nat) → Nat
/-- The address of a request step's input tokens and their page of the stack tier (11 Table 11.12). -/
opaque Config.inputVa : (batch member : Nat) → BitVec 48
opaque Config.inputPage : (batch member : Nat) → Nat
/-- The bytes a request step wrote to its output slot, modulo 65,505 (11 Table 11.7). -/
opaque Config.outputLen : (batch member : Nat) → Nat
/-- A patch value of a step that another module leads: ENS_PLAN's content is not given whole (12 Table 12.9). -/
opaque Config.remoteValue : (batch member source : Nat) → Nat

/-- Where the supervisor puts a page of a model or session: a page number in its tier (11 R343). -/
opaque Config.supervisorPage : (model tile space page : Nat) → Nat
/-- Where the supervisor puts a tile's translation table, and a sequence's page list, staging buffer and frames. -/
opaque Config.tableBase : (tile space : Nat) → BitVec 27
opaque Config.pageListVa : (session tile layer headGroup : Nat) → BitVec 48
opaque Config.stageAddr : (session tile layer headGroup : Nat) → BitVec 48
opaque Config.summaryVa : (session tile layer headGroup : Nat) → BitVec 48
opaque Config.frameVa : (session tile layer headGroup page : Nat) → BitVec 48

/-- Whether a leader's round length equals this module's, which ENS_FORM does not carry (12 R384). -/
opaque Config.sameRoundLength : (leader len : Nat) → Bool
/-- The round trip in ns of an ENS_BEAT to a leader, measured while an ensemble forms (12 R384). -/
opaque Config.beatRoundTrip : (leader : Nat) → Nat

/-- The thermal model's prediction of a node in 0.1 C after one step of 1 ms: its coefficients come from the calibration set
(15 R446); `k` tells steps apart, for the layers' shares of IBU work. -/
opaque Config.thermalPredict : (k : Nat) → (cal : List (Nat × List Nat)) → (nodes : List (Nat × Rat)) → (powers : List Nat) →
  (flow : Nat) → (inlet : Int) → (node : Nat) → Rat
/-- M' of R451: the prediction of a spot from the model corrected by the neighbouring clusters' spots. -/
opaque Config.thermalNeighbour : (k : Nat) → (cal : List (Nat × List Nat)) → (nodes : List (Nat × Rat)) →
  (used : List (Nat × Rat)) → (spot : Nat) → Rat
/-- A value of the restarted model, by its place in a trip record, after 1 s with zero power (15 R465). -/
opaque Config.thermalCool : (cal : List (Nat × List Nat)) → (nodes : List (Nat × Rat)) → (flow : Nat) → (inlet : Int) →
  (place : Nat) → Rat

/-- Griush's IANA enterprise number, which MGT_VDM_IANA holds (19 R534): the spec gives no value. -/
opaque Config.iana : BitVec 32
/-- What a register of measured quantities reads at a time: voltages, currents, power and energy of chapter 14, which no rule
computes. -/
opaque Config.measured : (addr now : Nat) → BitVec 32
/-- Which of the three busy states a unit of a tile shows while it holds a command (03 Table 3.11, 05 Table 5.11, 06 Table
6.8): they differ in timing only. -/
opaque Config.busyState : (tile unit now : Nat) → Fin 3

/-- The device identity key pair derived from a seed (19 R543): the 388 bytes of the public key, and the PSS signature of a
message, whose salt the counter tells apart. -/
opaque Config.identityKey : (seed : List Nat) → List Nat
opaque Config.identitySign : (seed message : List Nat) → (salt : Nat) → List Nat
/-- Measurement 4 (19 Table 19.10): the digest of the fuse maps, the owner slots and the life-cycle fuses, whose layout as bytes the
spec does not give; the fuses are given as numbers. -/
opaque Config.fuseDigest : (fuses : List (List Nat)) → List Nat
/-- The content of an SPDM, PLDM or MCTP answer that the DMTF standards give and the spec does not (19 R534, R549). -/
opaque Config.standardAnswer : (k : Nat) → List Nat

/-- Spare rows of a stack bank: the wrapper reports how many remain, the spec gives no number (08 R252, R253). -/
opaque Config.stackSpareRows : (stack chan loc : Nat) → Nat

end Sys2Proof
end

