-- ==== Sys2Proof/Machine/Regs.lean ====
section
/-! DEFINITION. The register table of the module: every register set of the spec's register tables with its fields
(00 R10-R16; the tables of each chapter's register list), the addresses under the spec's own register names, and the
reset values of the field tables. -/
namespace Sys2Proof.Machine

/-- Access types of Table 0.6. -/
inductive Access where
  | ro | rw | w1c | wo | rs | rl
deriving DecidableEq, Repr

/-- A field: bits [hi:lo], access, reset value, smallest and largest value a write may give it (R16). -/
structure RegField where
  hi : Nat
  lo : Nat
  access : Access
  reset : Nat
  min : Nat
  max : Nat
deriving DecidableEq, Repr

/-- A register set: `count` groups `stride` apart, each of `inner` registers in a row, from `base`. -/
structure RegDef where
  name : String
  base : Nat
  count : Nat
  stride : Nat
  inner : Nat
  fields : List RegField
deriving DecidableEq, Repr

namespace Reg

/-- R256 of spec/08_stack_memory.md. -/
def STM_CTRL : Nat := 0xb0000
/-- R256 of spec/08_stack_memory.md. -/
def STM_SYS_RATE : Nat := 0xb0001
/-- R256 of spec/08_stack_memory.md. -/
def STM_RETIRED_COUNT : Nat := 0xb0002
/-- R256 of spec/08_stack_memory.md. -/
def STM_WCB_RMW : Nat := 0xb0003
/-- R256 of spec/08_stack_memory.md. -/
def STM_COUNT_CLR : Nat := 0xb0004
/-- R256 of spec/08_stack_memory.md. -/
def STM_STACK_STATUS : Nat := 0xb0010
/-- R256 of spec/08_stack_memory.md. -/
def STM_CE_COUNT : Nat := 0xb0020
/-- R256 of spec/08_stack_memory.md. -/
def STM_UE_COUNT : Nat := 0xb0030
/-- R256 of spec/08_stack_memory.md. -/
def STM_REG_MIN : Nat := 0xb0040
/-- R256 of spec/08_stack_memory.md. -/
def STM_REG_MAX : Nat := 0xb0050
/-- R256 of spec/08_stack_memory.md. -/
def STM_LOOPBACK : Nat := 0xb0060
/-- R256 of spec/08_stack_memory.md. -/
def STM_PART_MAP : Nat := 0xb1000
/-- R285 of spec/09_data_integrity.md. -/
def BST_SCRUB_SRAM : Nat := 0xc0100
/-- R285 of spec/09_data_integrity.md. -/
def BST_SCRUB_BONDED : Nat := 0xc0101
/-- R285 of spec/09_data_integrity.md. -/
def BST_SCRUB_STACK : Nat := 0xc0102
/-- R285 of spec/09_data_integrity.md. -/
def BST_ERR_STATUS : Nat := 0xc0108
/-- R285 of spec/09_data_integrity.md. -/
def BST_ERR_OVERFLOWS : Nat := 0xc0109
/-- R317 of spec/10_rounds_admission.md. -/
def ADM_STATUS : Nat := 0x60000
/-- R317 of spec/10_rounds_admission.md. -/
def ADM_ROUND_LEN : Nat := 0x60001
/-- R317 of spec/10_rounds_admission.md. -/
def ADM_MARGIN : Nat := 0x60002
/-- R317 of spec/10_rounds_admission.md. -/
def ADM_RAMP_RESERVE : Nat := 0x60003
/-- R317 of spec/10_rounds_admission.md. -/
def ADM_ROUND_LO : Nat := 0x60004
/-- R317 of spec/10_rounds_admission.md. -/
def ADM_ROUND_HI : Nat := 0x60005
/-- R317 of spec/10_rounds_admission.md. -/
def ADM_STACK_W : Nat := 0x60006
/-- R317 of spec/10_rounds_admission.md. -/
def ADM_STACK_E : Nat := 0x60007
/-- R317 of spec/10_rounds_admission.md. -/
def ADM_CLASS : Nat := 0x60010
/-- R317 of spec/10_rounds_admission.md. -/
def ADM_PART_SHARE : Nat := 0x60020
/-- R317 of spec/10_rounds_admission.md. -/
def ADM_ACCEPTED : Nat := 0x60040
/-- R317 of spec/10_rounds_admission.md. -/
def ADM_REFUSED_CAP : Nat := 0x60041
/-- R317 of spec/10_rounds_admission.md. -/
def ADM_LATE_DROPPED : Nat := 0x60042
/-- R317 of spec/10_rounds_admission.md. -/
def ADM_STEPS_DROPPED : Nat := 0x60043
/-- R317 of spec/10_rounds_admission.md. -/
def ADM_REPLACED : Nat := 0x60044
/-- R317 of spec/10_rounds_admission.md. -/
def ADM_COUNT_CLR : Nat := 0x60045
/-- R317 of spec/10_rounds_admission.md. -/
def ADM_FLOOR : Nat := 0x60100
/-- R351 of spec/11_client_protocol.md. -/
def SES_COUNTS : Nat := 0x70000
/-- R351 of spec/11_client_protocol.md. -/
def SES_CREDIT : Nat := 0x70001
/-- R351 of spec/11_client_protocol.md. -/
def SES_DETACH_TIMEOUT : Nat := 0x70002
/-- R351 of spec/11_client_protocol.md. -/
def SES_OPEN_REFUSED : Nat := 0x70003
/-- R351 of spec/11_client_protocol.md. -/
def SES_EVICTIONS : Nat := 0x70004
/-- R351 of spec/11_client_protocol.md. -/
def SES_RETX : Nat := 0x70005
/-- R351 of spec/11_client_protocol.md. -/
def SES_DISCARDED : Nat := 0x70006
/-- R351 of spec/11_client_protocol.md. -/
def SES_COUNT_CLR : Nat := 0x70007
/-- R351 of spec/11_client_protocol.md. -/
def NET_PORT_STATUS : Nat := 0x90000
/-- R351 of spec/11_client_protocol.md. -/
def NET_UDP_PORT : Nat := 0x90004
/-- R351 of spec/11_client_protocol.md. -/
def NET_MTU : Nat := 0x90005
/-- R351 of spec/11_client_protocol.md. -/
def NET_RX_DISCARD : Nat := 0x90010
/-- R351 of spec/11_client_protocol.md. -/
def NET_FEC_UNCORR : Nat := 0x90014
/-- R351 of spec/11_client_protocol.md. -/
def NET_COUNT_CLR : Nat := 0x90018
/-- R389 of spec/12_walmin_fabric.md. -/
def FAB_STATUS : Nat := 0x80000
/-- R389 of spec/12_walmin_fabric.md. -/
def FAB_CTRL : Nat := 0x80001
/-- R389 of spec/12_walmin_fabric.md. -/
def FAB_ADDR : Nat := 0x80002
/-- R389 of spec/12_walmin_fabric.md. -/
def FAB_FCN : Nat := 0x80003
/-- R389 of spec/12_walmin_fabric.md. -/
def FAB_ROOT_ID_LO : Nat := 0x80004
/-- R389 of spec/12_walmin_fabric.md. -/
def FAB_ROOT_ID_HI : Nat := 0x80005
/-- R389 of spec/12_walmin_fabric.md. -/
def FAB_MISROUTE_WAIT : Nat := 0x80008
/-- R389 of spec/12_walmin_fabric.md. -/
def FAB_ESCAPE_WAIT : Nat := 0x80009
/-- R389 of spec/12_walmin_fabric.md. -/
def FAB_STALL_LIMIT : Nat := 0x8000a
/-- R389 of spec/12_walmin_fabric.md. -/
def FAB_PORT_STATUS : Nat := 0x80010
/-- R389 of spec/12_walmin_fabric.md. -/
def FAB_PORT_REPLAY : Nat := 0x80020
/-- R389 of spec/12_walmin_fabric.md. -/
def FAB_PORT_FEC_UNCORR : Nat := 0x80030
/-- R389 of spec/12_walmin_fabric.md. -/
def FAB_DROPPED : Nat := 0x80040
/-- R389 of spec/12_walmin_fabric.md. -/
def FAB_MISROUTED : Nat := 0x80041
/-- R389 of spec/12_walmin_fabric.md. -/
def FAB_ESCAPED : Nat := 0x80042
/-- R389 of spec/12_walmin_fabric.md. -/
def FAB_CTRL_DISCARD : Nat := 0x80043
/-- R389 of spec/12_walmin_fabric.md. -/
def FAB_COUNT_CLR : Nat := 0x80044
/-- R389 of spec/12_walmin_fabric.md. -/
def FAB_ENS_CTRL : Nat := 0x80100
/-- R389 of spec/12_walmin_fabric.md. -/
def FAB_ENS_MODEL : Nat := 0x80101
/-- R389 of spec/12_walmin_fabric.md. -/
def FAB_ENS_RESERVE : Nat := 0x80102
/-- R389 of spec/12_walmin_fabric.md. -/
def FAB_ENS_LEADER : Nat := 0x80103
/-- R389 of spec/12_walmin_fabric.md. -/
def FAB_ENS_MEMBER : Nat := 0x80108
/-- R411 of spec/13_half_link.md. -/
def HLK_STATUS : Nat := 0xa0000
/-- R411 of spec/13_half_link.md. -/
def HLK_ERR_LIMIT : Nat := 0xa0001
/-- R411 of spec/13_half_link.md. -/
def HLK_REPLAYS : Nat := 0xa0002
/-- R411 of spec/13_half_link.md. -/
def HLK_COUNT_CLR : Nat := 0xa0003
/-- R411 of spec/13_half_link.md. -/
def HLK_ROW_MAP : Nat := 0xa0010
/-- R411 of spec/13_half_link.md. -/
def HLK_MOD_STATUS : Nat := 0xa0100
/-- R440 of spec/14_power.md. -/
def PWR_STATUS : Nat := 0x40000
/-- R440 of spec/14_power.md. -/
def PWR_CTRL : Nat := 0x40001
/-- R440 of spec/14_power.md. -/
def PWR_INPUT : Nat := 0x40002
/-- R440 of spec/14_power.md. -/
def PWR_AUX : Nat := 0x40003
/-- R440 of spec/14_power.md. -/
def PWR_BUS : Nat := 0x40004
/-- R440 of spec/14_power.md. -/
def PWR_RETRIES : Nat := 0x40005
/-- R440 of spec/14_power.md. -/
def PWR_ENERGY_LO : Nat := 0x40006
/-- R440 of spec/14_power.md. -/
def PWR_ENERGY_HI : Nat := 0x40007
/-- R440 of spec/14_power.md. -/
def PWR_CL : Nat := 0x40100
/-- R440 of spec/14_power.md. -/
def PWR_DOM_STATUS : Nat := 0x41000
/-- R440 of spec/14_power.md. -/
def PWR_DOM_TIME_LO : Nat := 0x41001
/-- R440 of spec/14_power.md. -/
def PWR_DOM_TIME_HI : Nat := 0x41002
/-- R440 of spec/14_power.md. -/
def PWR_DOM_CTRL : Nat := 0x41003
/-- R466 of spec/15_thermal_cooling.md. -/
def THM_STATUS : Nat := 0x50000
/-- R466 of spec/15_thermal_cooling.md. -/
def THM_STACK_CAP : Nat := 0x50001
/-- R466 of spec/15_thermal_cooling.md. -/
def THM_SLEW : Nat := 0x50002
/-- R466 of spec/15_thermal_cooling.md. -/
def THM_CAP_NOW : Nat := 0x50003
/-- R466 of spec/15_thermal_cooling.md. -/
def THM_FLOW : Nat := 0x50004
/-- R466 of spec/15_thermal_cooling.md. -/
def THM_COOL_TEMP : Nat := 0x50005
/-- R466 of spec/15_thermal_cooling.md. -/
def THM_FATIGUE_TOTAL : Nat := 0x50008
/-- R466 of spec/15_thermal_cooling.md. -/
def THM_FATIGUE : Nat := 0x50100
/-- R466 of spec/15_thermal_cooling.md. -/
def THM_STACK_TEMP : Nat := 0x50200
/-- R466 of spec/15_thermal_cooling.md. -/
def THM_SPOT : Nat := 0x51000
/-- R492 of spec/16_startup_reset.md. -/
def MGT_START_STATUS : Nat := 0x100
/-- R492 of spec/16_startup_reset.md. -/
def MGT_RESET_CTRL : Nat := 0x101
/-- R492 of spec/16_startup_reset.md. -/
def MGT_REMOVE_CTRL : Nat := 0x102
/-- R492 of spec/16_startup_reset.md. -/
def MGT_REMOVE_DRAIN : Nat := 0x103
/-- R492 of spec/16_startup_reset.md. -/
def MGT_TIME_STATUS : Nat := 0x104
/-- R492 of spec/16_startup_reset.md. -/
def MGT_TIME_SET_LO : Nat := 0x105
/-- R492 of spec/16_startup_reset.md. -/
def MGT_TIME_SET_HI : Nat := 0x106
/-- R492 of spec/16_startup_reset.md. -/
def MGT_TIME_OFFSET : Nat := 0x107
/-- R492 of spec/16_startup_reset.md. -/
def MGT_EPOCH : Nat := 0x108
/-- R492 of spec/16_startup_reset.md. -/
def MGT_FUSE_TILE : Nat := 0x110
/-- R515 of spec/17_config_image.md. -/
def CFG_STATUS : Nat := 0x20000
/-- R515 of spec/17_config_image.md. -/
def CFG_IMAGE_SEQ : Nat := 0x20001
/-- R515 of spec/17_config_image.md. -/
def CFG_CAL_SEQ : Nat := 0x20002
/-- R515 of spec/17_config_image.md. -/
def CFG_LAST_ERR : Nat := 0x20003
/-- R515 of spec/17_config_image.md. -/
def CFG_CARD_CTRL : Nat := 0x20010
/-- R515 of spec/17_config_image.md. -/
def CFG_CARD_LEN : Nat := 0x20011
/-- R515 of spec/17_config_image.md. -/
def CFG_CARD_DATA : Nat := 0x20012
/-- R515 of spec/17_config_image.md. -/
def CFG_CARD_READ_ADDR : Nat := 0x20013
/-- R515 of spec/17_config_image.md. -/
def CFG_CARD_READ_DATA : Nat := 0x20014
/-- R531 of spec/18_selftest_health.md. -/
def BST_REPLACE_STATUS : Nat := 0xc0000
/-- R531 of spec/18_selftest_health.md. -/
def BST_THR_TILES : Nat := 0xc0010
/-- R531 of spec/18_selftest_health.md. -/
def BST_THR_BONDED : Nat := 0xc0011
/-- R531 of spec/18_selftest_health.md. -/
def BST_THR_HLK : Nat := 0xc0012
/-- R531 of spec/18_selftest_health.md. -/
def BST_THR_PHASES : Nat := 0xc0013
/-- R531 of spec/18_selftest_health.md. -/
def BST_THR_CONV : Nat := 0xc0014
/-- R531 of spec/18_selftest_health.md. -/
def BST_THR_FATIGUE : Nat := 0xc0015
/-- R531 of spec/18_selftest_health.md. -/
def BST_THR_BOND : Nat := 0xc0016
/-- R531 of spec/18_selftest_health.md. -/
def BST_THYME_CTRL : Nat := 0xc0018
/-- R531 of spec/18_selftest_health.md. -/
def BST_THYME_STATUS : Nat := 0xc0020
/-- R531 of spec/18_selftest_health.md. -/
def BST_THYME_FAILS : Nat := 0xc0021
/-- R531 of spec/18_selftest_health.md. -/
def BST_TEST_CTRL : Nat := 0xc0030
/-- R531 of spec/18_selftest_health.md. -/
def BST_TEST_STATUS : Nat := 0xc0031
/-- R531 of spec/18_selftest_health.md. -/
def BST_BURN_CTRL : Nat := 0xc0040
/-- R563 of spec/19_management_security.md. -/
def MGT_DEVICE_ID : Nat := 0x0
/-- R563 of spec/19_management_security.md. -/
def MGT_MODULE_ID_LO : Nat := 0x1
/-- R563 of spec/19_management_security.md. -/
def MGT_MODULE_ID_HI : Nat := 0x2
/-- R563 of spec/19_management_security.md. -/
def MGT_CTRL_STATUS : Nat := 0x3
/-- R563 of spec/19_management_security.md. -/
def MGT_VDM_IANA : Nat := 0x4
/-- R563 of spec/19_management_security.md. -/
def SEC_LC_STATUS : Nat := 0x10000
/-- R563 of spec/19_management_security.md. -/
def SEC_ROOT_HASH : Nat := 0x10008
/-- R563 of spec/19_management_security.md. -/
def SEC_OWNER_HASH : Nat := 0x10010
/-- R563 of spec/19_management_security.md. -/
def SEC_ID_HASH : Nat := 0x10018
/-- R563 of spec/19_management_security.md. -/
def SEC_SESSIONS : Nat := 0x10020
/-- R563 of spec/19_management_security.md. -/
def SEC_AUTH_FAILS : Nat := 0x10021
/-- R563 of spec/19_management_security.md. -/
def EVT_STATUS : Nat := 0x30000
/-- R563 of spec/19_management_security.md. -/
def EVT_FIRST : Nat := 0x30001
/-- R563 of spec/19_management_security.md. -/
def EVT_HEAD : Nat := 0x30002
/-- R563 of spec/19_management_security.md. -/
def EVT_CURSOR : Nat := 0x30003
/-- R563 of spec/19_management_security.md. -/
def EVT_CLEAR : Nat := 0x30004
/-- R563 of spec/19_management_security.md. -/
def EVT_LOST : Nat := 0x30005
/-- R563 of spec/19_management_security.md. -/
def EVT_TRIP_CURSOR : Nat := 0x30006
/-- R563 of spec/19_management_security.md. -/
def EVT_TRIP_STATUS : Nat := 0x30007
/-- R563 of spec/19_management_security.md. -/
def EVT_WINDOW : Nat := 0x30010
/-- R563 of spec/19_management_security.md. -/
def EVT_TRIP_WINDOW : Nat := 0x30100
/-- R580 of spec/20_connectors_electrical.md. -/
def MGT_SIGNALS : Nat := 0x200

/-! Offsets within a tile page (00 R12). -/

/-- R82 of spec/02_tile.md. -/
def TIL_STATUS : Nat := 0x0
/-- R82 of spec/02_tile.md. -/
def TIL_FAULT : Nat := 0x1
/-- R82 of spec/02_tile.md. -/
def TIL_FAULT_CMD_LO : Nat := 0x2
/-- R82 of spec/02_tile.md. -/
def TIL_FAULT_CMD_HI : Nat := 0x3
/-- R82 of spec/02_tile.md. -/
def TIL_FAULT_ADDR_LO : Nat := 0x4
/-- R82 of spec/02_tile.md. -/
def TIL_FAULT_ADDR_HI : Nat := 0x5
/-- R82 of spec/02_tile.md. -/
def TIL_BANK_OWN : Nat := 0x10
/-- R82 of spec/02_tile.md. -/
def TIL_CONFL : Nat := 0x20
/-- R82 of spec/02_tile.md. -/
def TIL_STEAL_WAIT : Nat := 0x29
/-- R82 of spec/02_tile.md. -/
def TIL_STEAL_REFUSED : Nat := 0x2a
/-- R82 of spec/02_tile.md. -/
def TIL_STALE_DROP : Nat := 0x2b
/-- R82 of spec/02_tile.md. -/
def TIL_RAE_STAT : Nat := 0x30
/-- R82 of spec/02_tile.md. -/
def TIL_TOKENS : Nat := 0x40
/-- R82 of spec/02_tile.md. -/
def TIL_CMD_COUNT_LO : Nat := 0x42
/-- R82 of spec/02_tile.md. -/
def TIL_CMD_COUNT_HI : Nat := 0x43
/-- R82 of spec/02_tile.md. -/
def TIL_COUNT_CLR : Nat := 0x44
/-- R114 of spec/03_matrix_array.md. -/
def MXA_STATUS : Nat := 0x200
/-- R114 of spec/03_matrix_array.md. -/
def MXA_HELD : Nat := 0x201
/-- R114 of spec/03_matrix_array.md. -/
def MXA_PASS_COUNT_LO : Nat := 0x202
/-- R114 of spec/03_matrix_array.md. -/
def MXA_PASS_COUNT_HI : Nat := 0x203
/-- R114 of spec/03_matrix_array.md. -/
def MXA_ACTIVE_LO : Nat := 0x204
/-- R114 of spec/03_matrix_array.md. -/
def MXA_ACTIVE_HI : Nat := 0x205
/-- R114 of spec/03_matrix_array.md. -/
def MXA_BUBBLE_LO : Nat := 0x206
/-- R114 of spec/03_matrix_array.md. -/
def MXA_BUBBLE_HI : Nat := 0x207
/-- R114 of spec/03_matrix_array.md. -/
def MXA_DRAIN_STALL_LO : Nat := 0x208
/-- R114 of spec/03_matrix_array.md. -/
def MXA_DRAIN_STALL_HI : Nat := 0x209
/-- R114 of spec/03_matrix_array.md. -/
def MXA_SB_HEAD : Nat := 0x20a
/-- R114 of spec/03_matrix_array.md. -/
def MXA_COUNT_CLR : Nat := 0x20b
/-- R114 of spec/03_matrix_array.md. -/
def MXA_SB : Nat := 0x280
/-- R133 of spec/04_number_formats.md. -/
def LAY_SR_SEED_LO : Nat := 0x4f0
/-- R133 of spec/04_number_formats.md. -/
def LAY_SR_SEED_HI : Nat := 0x4f1
/-- R133 of spec/04_number_formats.md. -/
def LAY_SR_CTRL : Nat := 0x4f2
/-- R162 of spec/05_tensor_layout.md. -/
def LAY_STATUS : Nat := 0x400
/-- R162 of spec/05_tensor_layout.md. -/
def LAY_OOB_READS : Nat := 0x401
/-- R162 of spec/05_tensor_layout.md. -/
def LAY_OOB_WRITES : Nat := 0x402
/-- R162 of spec/05_tensor_layout.md. -/
def LAY_OVERLAP_COUNT : Nat := 0x403
/-- R162 of spec/05_tensor_layout.md. -/
def LAY_GATHER_FETCH : Nat := 0x404
/-- R162 of spec/05_tensor_layout.md. -/
def LAY_GATHER_ROWS : Nat := 0x405
/-- R162 of spec/05_tensor_layout.md. -/
def LAY_COUNT_CLR : Nat := 0x406
/-- R162 of spec/05_tensor_layout.md. -/
def LAY_XLT_BASE : Nat := 0x410
/-- R162 of spec/05_tensor_layout.md. -/
def LAY_XLT_LEN : Nat := 0x414
/-- R162 of spec/05_tensor_layout.md. -/
def LAY_XLT_FLUSH : Nat := 0x418
/-- R194 of spec/06_attention_kv.md. -/
def ATN_STATUS : Nat := 0x600
/-- R194 of spec/06_attention_kv.md. -/
def ATN_DIR_BASE : Nat := 0x601
/-- R194 of spec/06_attention_kv.md. -/
def ATN_DIR_LEN : Nat := 0x602
/-- R194 of spec/06_attention_kv.md. -/
def ATN_PAGES_VISITED : Nat := 0x603
/-- R194 of spec/06_attention_kv.md. -/
def ATN_PAGES_SKIPPED : Nat := 0x604
/-- R194 of spec/06_attention_kv.md. -/
def ATN_INBANK_PAGES : Nat := 0x605
/-- R194 of spec/06_attention_kv.md. -/
def ATN_FLUSHES : Nat := 0x606
/-- R194 of spec/06_attention_kv.md. -/
def ATN_EMPTY_ROWS : Nat := 0x607
/-- R194 of spec/06_attention_kv.md. -/
def ATN_SUMMARY_POISON : Nat := 0x608
/-- R194 of spec/06_attention_kv.md. -/
def ATN_COUNT_CLR : Nat := 0x609
/-- R194 of spec/06_attention_kv.md. -/
def ATN_SB_HEAD : Nat := 0x60a
/-- R194 of spec/06_attention_kv.md. -/
def ATN_SB : Nat := 0x680
/-- R225 of spec/07_bonded_memory.md. -/
def BDM_STATUS : Nat := 0x800
/-- R225 of spec/07_bonded_memory.md. -/
def BDM_CTRL : Nat := 0x801
/-- R225 of spec/07_bonded_memory.md. -/
def BDM_HOME_PPN : Nat := 0x802
/-- R225 of spec/07_bonded_memory.md. -/
def BDM_BOND : Nat := 0x804
/-- R225 of spec/07_bonded_memory.md. -/
def BDM_IBU_PERM : Nat := 0x80c
/-- R225 of spec/07_bonded_memory.md. -/
def BDM_CE_COUNT : Nat := 0x814
/-- R225 of spec/07_bonded_memory.md. -/
def BDM_UE_COUNT : Nat := 0x815
/-- R225 of spec/07_bonded_memory.md. -/
def BDM_SB_WAIT : Nat := 0x816
/-- R225 of spec/07_bonded_memory.md. -/
def BDM_RMW_COUNT : Nat := 0x817
/-- R225 of spec/07_bonded_memory.md. -/
def BDM_COUNT_CLR : Nat := 0x818
/-- R225 of spec/07_bonded_memory.md. -/
def BDM_CUT_STATUS : Nat := 0x819
/-- R225 of spec/07_bonded_memory.md. -/
def BDM_CUT_CLR : Nat := 0x81a
/-- R225 of spec/07_bonded_memory.md. -/
def BDM_CUT : Nat := 0x900
/-- R231 of spec/07_bonded_memory.md. -/
def IBU_STATUS : Nat := 0xa00
/-- R231 of spec/07_bonded_memory.md. -/
def IBU_BUSY_LO : Nat := 0xa01
/-- R231 of spec/07_bonded_memory.md. -/
def IBU_BUSY_HI : Nat := 0xa02
/-- R231 of spec/07_bonded_memory.md. -/
def IBU_DISABLE_LO : Nat := 0xa03
/-- R231 of spec/07_bonded_memory.md. -/
def IBU_DISABLE_HI : Nat := 0xa04
/-- R231 of spec/07_bonded_memory.md. -/
def IBU_STEPS_LO : Nat := 0xa05
/-- R231 of spec/07_bonded_memory.md. -/
def IBU_STEPS_HI : Nat := 0xa06
/-- R231 of spec/07_bonded_memory.md. -/
def IBU_CE_COUNT : Nat := 0xa07
/-- R231 of spec/07_bonded_memory.md. -/
def IBU_POISON_COUNT : Nat := 0xa08
/-- R231 of spec/07_bonded_memory.md. -/
def IBU_COUNT_CLR : Nat := 0xa09
/-- R283 of spec/09_data_integrity.md. -/
def INT_STATUS : Nat := 0xc00
/-- R283 of spec/09_data_integrity.md. -/
def INT_SRAM_CE : Nat := 0xc01
/-- R283 of spec/09_data_integrity.md. -/
def INT_SRAM_UE : Nat := 0xc02
/-- R283 of spec/09_data_integrity.md. -/
def INT_SRAM_UNINIT : Nat := 0xc03
/-- R283 of spec/09_data_integrity.md. -/
def INT_ADDR_ERR : Nat := 0xc04
/-- R283 of spec/09_data_integrity.md. -/
def INT_POISON_READ : Nat := 0xc05
/-- R283 of spec/09_data_integrity.md. -/
def INT_NOC_CRC : Nat := 0xc06
/-- R283 of spec/09_data_integrity.md. -/
def INT_COUNT_CLR : Nat := 0xc07
/-- R283 of spec/09_data_integrity.md. -/
def INT_SCRUB_SRAM_POS : Nat := 0xc08
/-- R283 of spec/09_data_integrity.md. -/
def INT_SCRUB_SLICE_POS : Nat := 0xc09
/-- R283 of spec/09_data_integrity.md. -/
def INT_SCRUB_PASSES : Nat := 0xc0a

end Reg

/-- The registers outside the tile pages, part 0. -/
def moduleRegs0 : List RegDef := [
  ⟨"STM_CTRL", 0xb0000, 1, 1, 1, [⟨1, 1, .rw, 0, 0, 1⟩, ⟨0, 0, .wo, 0, 0, 1⟩]⟩,
  ⟨"STM_SYS_RATE", 0xb0001, 1, 1, 1, [⟨15, 0, .rl, 300, 0, 65535⟩]⟩,
  ⟨"STM_RETIRED_COUNT", 0xb0002, 1, 1, 1, [⟨31, 0, .ro, 0, 0, 4294967295⟩]⟩,
  ⟨"STM_WCB_RMW", 0xb0003, 1, 1, 1, [⟨31, 0, .ro, 0, 0, 4294967295⟩]⟩,
  ⟨"STM_COUNT_CLR", 0xb0004, 1, 1, 1, [⟨0, 0, .wo, 0, 0, 1⟩]⟩,
  ⟨"STM_STACK_STATUS", 0xb0010, 16, 1, 1, [⟨31, 31, .ro, 0, 0, 1⟩, ⟨23, 16, .ro, 0, 0, 255⟩, ⟨15, 8, .ro, 0, 0, 255⟩, ⟨2, 0, .ro, 0, 0, 7⟩]⟩,
  ⟨"STM_CE_COUNT", 0xb0020, 16, 1, 1, [⟨31, 0, .ro, 0, 0, 4294967295⟩]⟩,
  ⟨"STM_UE_COUNT", 0xb0030, 16, 1, 1, [⟨31, 0, .ro, 0, 0, 4294967295⟩]⟩,
  ⟨"STM_REG_MIN", 0xb0040, 16, 1, 1, [⟨30, 16, .rl, 0, 0, 30000⟩, ⟨14, 0, .rl, 0, 0, 30000⟩]⟩,
  ⟨"STM_REG_MAX", 0xb0050, 16, 1, 1, [⟨30, 16, .rl, 0, 0, 30000⟩, ⟨14, 0, .rl, 0, 0, 30000⟩]⟩,
  ⟨"STM_LOOPBACK", 0xb0060, 1, 1, 1, [⟨31, 31, .wo, 0, 0, 1⟩, ⟨23, 16, .ro, 0, 0, 255⟩, ⟨7, 4, .rw, 0, 0, 15⟩, ⟨1, 0, .ro, 0, 0, 3⟩]⟩,
  ⟨"STM_PART_MAP", 0xb1000, 288, 1, 1, [⟨31, 0, .ro, 0, 0, 4294967295⟩]⟩,
  ⟨"BST_SCRUB_SRAM", 0xc0100, 1, 1, 1, [⟨15, 0, .rl, 60, 1, 3600⟩]⟩,
  ⟨"BST_SCRUB_BONDED", 0xc0101, 1, 1, 1, [⟨15, 0, .rl, 60, 10, 1440⟩]⟩,
  ⟨"BST_SCRUB_STACK", 0xc0102, 1, 1, 1, [⟨15, 0, .rl, 480, 60, 4320⟩]⟩,
  ⟨"BST_ERR_STATUS", 0xc0108, 1, 1, 1, [⟨31, 31, .w1c, 0, 0, 1⟩, ⟨18, 16, .ro, 0, 0, 7⟩, ⟨10, 8, .ro, 0, 0, 7⟩, ⟨6, 0, .ro, 0, 0, 127⟩]⟩,
  ⟨"BST_ERR_OVERFLOWS", 0xc0109, 1, 1, 1, [⟨31, 0, .ro, 0, 0, 4294967295⟩]⟩,
  ⟨"ADM_STATUS", 0x60000, 1, 1, 1, [⟨31, 31, .ro, 0, 0, 1⟩, ⟨30, 30, .ro, 0, 0, 1⟩, ⟨2, 0, .ro, 0, 0, 7⟩]⟩,
  ⟨"ADM_ROUND_LEN", 0x60001, 1, 1, 1, [⟨15, 0, .rs, 2000, 0, 65535⟩]⟩,
  ⟨"ADM_MARGIN", 0x60002, 1, 1, 1, [⟨5, 0, .rl, 15, 0, 50⟩]⟩,
  ⟨"ADM_RAMP_RESERVE", 0x60003, 1, 1, 1, [⟨15, 0, .rl, 100, 0, 1400⟩]⟩,
  ⟨"ADM_ROUND_LO", 0x60004, 1, 1, 1, [⟨31, 0, .ro, 0, 0, 4294967295⟩]⟩,
  ⟨"ADM_ROUND_HI", 0x60005, 1, 1, 1, [⟨31, 0, .ro, 0, 0, 4294967295⟩]⟩,
  ⟨"ADM_STACK_W", 0x60006, 1, 1, 1, [⟨31, 16, .ro, 0, 0, 65535⟩, ⟨15, 0, .ro, 0, 0, 65535⟩]⟩]
/-- The registers outside the tile pages, part 1. -/
def moduleRegs1 : List RegDef := [
  ⟨"ADM_STACK_E", 0x60007, 1, 1, 1, [⟨31, 0, .ro, 0, 0, 4294967295⟩]⟩,
  ⟨"ADM_CLASS", 0x60010, 8, 1, 1, [⟨28, 16, .rl, 0, 1, 4096⟩, ⟨14, 0, .rl, 0, 1, 16384⟩]⟩,
  ⟨"ADM_PART_SHARE", 0x60020, 16, 1, 1, [⟨22, 16, .rl, 100, 1, 100⟩, ⟨6, 0, .rl, 0, 0, 100⟩]⟩,
  ⟨"ADM_ACCEPTED", 0x60040, 1, 1, 1, [⟨31, 0, .ro, 0, 0, 4294967295⟩]⟩,
  ⟨"ADM_REFUSED_CAP", 0x60041, 1, 1, 1, [⟨31, 0, .ro, 0, 0, 4294967295⟩]⟩,
  ⟨"ADM_LATE_DROPPED", 0x60042, 1, 1, 1, [⟨31, 0, .ro, 0, 0, 4294967295⟩]⟩,
  ⟨"ADM_STEPS_DROPPED", 0x60043, 1, 1, 1, [⟨31, 0, .ro, 0, 0, 4294967295⟩]⟩,
  ⟨"ADM_REPLACED", 0x60044, 1, 1, 1, [⟨31, 0, .ro, 0, 0, 4294967295⟩]⟩,
  ⟨"ADM_COUNT_CLR", 0x60045, 1, 1, 1, [⟨0, 0, .wo, 0, 0, 1⟩]⟩,
  ⟨"ADM_FLOOR", 0x60100, 144, 1, 1, [⟨31, 16, .ro, 0, 0, 65535⟩, ⟨15, 0, .ro, 0, 0, 65535⟩]⟩,
  ⟨"SES_COUNTS", 0x70000, 1, 1, 1, [⟨30, 16, .ro, 0, 0, 32767⟩, ⟨12, 0, .ro, 0, 0, 8191⟩]⟩,
  ⟨"SES_CREDIT", 0x70001, 1, 1, 1, [⟨31, 16, .rl, 4096, 16, 32768⟩, ⟨15, 0, .rl, 256, 16, 32768⟩]⟩,
  ⟨"SES_DETACH_TIMEOUT", 0x70002, 1, 1, 1, [⟨15, 0, .rl, 600, 1, 65535⟩]⟩,
  ⟨"SES_OPEN_REFUSED", 0x70003, 1, 1, 1, [⟨31, 0, .ro, 0, 0, 4294967295⟩]⟩,
  ⟨"SES_EVICTIONS", 0x70004, 1, 1, 1, [⟨31, 0, .ro, 0, 0, 4294967295⟩]⟩,
  ⟨"SES_RETX", 0x70005, 1, 1, 1, [⟨31, 0, .ro, 0, 0, 4294967295⟩]⟩,
  ⟨"SES_DISCARDED", 0x70006, 1, 1, 1, [⟨31, 0, .ro, 0, 0, 4294967295⟩]⟩,
  ⟨"SES_COUNT_CLR", 0x70007, 1, 1, 1, [⟨0, 0, .wo, 0, 0, 1⟩]⟩,
  ⟨"NET_PORT_STATUS", 0x90000, 4, 1, 1, [⟨5, 4, .ro, 0, 0, 3⟩, ⟨2, 0, .ro, 0, 0, 7⟩]⟩,
  ⟨"NET_UDP_PORT", 0x90004, 1, 1, 1, [⟨15, 0, .rs, 47216, 1024, 65535⟩]⟩,
  ⟨"NET_MTU", 0x90005, 1, 1, 1, [⟨13, 0, .rs, 9000, 1500, 9000⟩]⟩,
  ⟨"NET_RX_DISCARD", 0x90010, 4, 1, 1, [⟨31, 0, .ro, 0, 0, 4294967295⟩]⟩,
  ⟨"NET_FEC_UNCORR", 0x90014, 4, 1, 1, [⟨31, 0, .ro, 0, 0, 4294967295⟩]⟩,
  ⟨"NET_COUNT_CLR", 0x90018, 1, 1, 1, [⟨0, 0, .wo, 0, 0, 1⟩]⟩]
/-- The registers outside the tile pages, part 2. -/
def moduleRegs2 : List RegDef := [
  ⟨"FAB_STATUS", 0x80000, 1, 1, 1, [⟨31, 31, .ro, 0, 0, 1⟩, ⟨30, 30, .ro, 0, 0, 1⟩, ⟨29, 29, .ro, 0, 0, 1⟩, ⟨14, 0, .ro, 0, 0, 32767⟩]⟩,
  ⟨"FAB_CTRL", 0x80001, 1, 1, 1, [⟨31, 31, .rs, 1, 0, 1⟩, ⟨30, 30, .wo, 0, 0, 1⟩, ⟨11, 0, .rw, 4095, 0, 4095⟩]⟩,
  ⟨"FAB_ADDR", 0x80002, 1, 1, 1, [⟨31, 31, .ro, 0, 0, 1⟩, ⟨21, 16, .ro, 0, 0, 63⟩, ⟨13, 0, .ro, 0, 0, 16383⟩]⟩,
  ⟨"FAB_FCN", 0x80003, 1, 1, 1, [⟨31, 0, .ro, 0, 0, 4294967295⟩]⟩,
  ⟨"FAB_ROOT_ID_LO", 0x80004, 1, 1, 1, [⟨31, 0, .ro, 0, 0, 4294967295⟩]⟩,
  ⟨"FAB_ROOT_ID_HI", 0x80005, 1, 1, 1, [⟨31, 0, .ro, 0, 0, 4294967295⟩]⟩,
  ⟨"FAB_MISROUTE_WAIT", 0x80008, 1, 1, 1, [⟨15, 0, .rl, 500, 100, 10000⟩]⟩,
  ⟨"FAB_ESCAPE_WAIT", 0x80009, 1, 1, 1, [⟨15, 0, .rl, 40, 10, 1000⟩]⟩,
  ⟨"FAB_STALL_LIMIT", 0x8000a, 1, 1, 1, [⟨15, 0, .rl, 50, 10, 1000⟩]⟩,
  ⟨"FAB_PORT_STATUS", 0x80010, 12, 1, 1, [⟨29, 16, .ro, 0, 0, 16383⟩, ⟨15, 12, .ro, 0, 0, 15⟩, ⟨11, 11, .ro, 0, 0, 1⟩, ⟨10, 10, .ro, 0, 0, 1⟩, ⟨9, 9, .ro, 0, 0, 1⟩, ⟨2, 0, .ro, 0, 0, 7⟩]⟩,
  ⟨"FAB_PORT_REPLAY", 0x80020, 12, 1, 1, [⟨31, 0, .ro, 0, 0, 4294967295⟩]⟩,
  ⟨"FAB_PORT_FEC_UNCORR", 0x80030, 12, 1, 1, [⟨31, 0, .ro, 0, 0, 4294967295⟩]⟩,
  ⟨"FAB_DROPPED", 0x80040, 1, 1, 1, [⟨31, 0, .ro, 0, 0, 4294967295⟩]⟩,
  ⟨"FAB_MISROUTED", 0x80041, 1, 1, 1, [⟨31, 0, .ro, 0, 0, 4294967295⟩]⟩,
  ⟨"FAB_ESCAPED", 0x80042, 1, 1, 1, [⟨31, 0, .ro, 0, 0, 4294967295⟩]⟩,
  ⟨"FAB_CTRL_DISCARD", 0x80043, 1, 1, 1, [⟨31, 0, .ro, 0, 0, 4294967295⟩]⟩,
  ⟨"FAB_COUNT_CLR", 0x80044, 1, 1, 1, [⟨0, 0, .wo, 0, 0, 1⟩]⟩,
  ⟨"FAB_ENS_CTRL", 0x80100, 8, 64, 1, [⟨31, 31, .wo, 0, 0, 1⟩, ⟨30, 30, .wo, 0, 0, 1⟩, ⟨23, 16, .rw, 0, 0, 255⟩, ⟨14, 8, .rw, 0, 0, 64⟩, ⟨2, 0, .ro, 0, 0, 7⟩]⟩,
  ⟨"FAB_ENS_MODEL", 0x80101, 8, 64, 1, [⟨31, 0, .rw, 0, 0, 4294967295⟩]⟩,
  ⟨"FAB_ENS_RESERVE", 0x80102, 8, 64, 1, [⟨26, 16, .rw, 0, 0, 1400⟩, ⟨6, 0, .rw, 0, 0, 100⟩]⟩,
  ⟨"FAB_ENS_LEADER", 0x80103, 8, 64, 1, [⟨13, 0, .ro, 0, 0, 16383⟩]⟩,
  ⟨"FAB_ENS_MEMBER", 0x80108, 8, 64, 32, [⟨29, 16, .rw, 0, 0, 16383⟩, ⟨13, 0, .rw, 0, 0, 16383⟩]⟩,
  ⟨"HLK_STATUS", 0xa0000, 1, 1, 1, [⟨31, 31, .ro, 0, 0, 1⟩, ⟨30, 30, .ro, 0, 0, 1⟩, ⟨29, 29, .ro, 0, 0, 1⟩, ⟨28, 28, .ro, 0, 0, 1⟩, ⟨6, 0, .ro, 0, 0, 127⟩]⟩,
  ⟨"HLK_ERR_LIMIT", 0xa0001, 1, 1, 1, [⟨15, 0, .rl, 64, 8, 4096⟩]⟩]
/-- The registers outside the tile pages, part 3. -/
def moduleRegs3 : List RegDef := [
  ⟨"HLK_REPLAYS", 0xa0002, 1, 1, 1, [⟨31, 0, .ro, 0, 0, 4294967295⟩]⟩,
  ⟨"HLK_COUNT_CLR", 0xa0003, 1, 1, 1, [⟨0, 0, .wo, 0, 0, 1⟩]⟩,
  ⟨"HLK_ROW_MAP", 0xa0010, 32, 1, 1, [⟨4, 0, .ro, 0, 0, 31⟩]⟩,
  ⟨"HLK_MOD_STATUS", 0xa0100, 108, 1, 1, [⟨31, 16, .ro, 0, 0, 65535⟩, ⟨15, 8, .ro, 255, 0, 255⟩, ⟨5, 4, .ro, 0, 0, 3⟩, ⟨2, 0, .ro, 0, 0, 7⟩]⟩,
  ⟨"PWR_STATUS", 0x40000, 1, 1, 1, [⟨31, 31, .ro, 0, 0, 1⟩, ⟨30, 30, .ro, 0, 0, 1⟩, ⟨29, 29, .ro, 0, 0, 1⟩, ⟨20, 16, .ro, 0, 0, 31⟩, ⟨2, 0, .ro, 0, 0, 7⟩]⟩,
  ⟨"PWR_CTRL", 0x40001, 1, 1, 1, [⟨31, 31, .wo, 0, 0, 1⟩, ⟨30, 30, .wo, 0, 0, 1⟩]⟩,
  ⟨"PWR_INPUT", 0x40002, 1, 1, 1, [⟨31, 16, .ro, 0, 0, 65535⟩, ⟨15, 0, .ro, 0, 0, 65535⟩]⟩,
  ⟨"PWR_AUX", 0x40003, 1, 1, 1, [⟨31, 16, .ro, 0, 0, 65535⟩, ⟨15, 0, .ro, 0, 0, 65535⟩]⟩,
  ⟨"PWR_BUS", 0x40004, 1, 1, 1, [⟨31, 16, .ro, 0, 0, 65535⟩, ⟨15, 0, .ro, 0, 0, 65535⟩]⟩,
  ⟨"PWR_RETRIES", 0x40005, 1, 1, 1, [⟨1, 0, .ro, 0, 0, 3⟩]⟩,
  ⟨"PWR_ENERGY_LO", 0x40006, 1, 1, 1, [⟨31, 0, .ro, 0, 0, 4294967295⟩]⟩,
  ⟨"PWR_ENERGY_HI", 0x40007, 1, 1, 1, [⟨31, 0, .ro, 0, 0, 4294967295⟩]⟩,
  ⟨"PWR_CL", 0x40100, 144, 1, 1, [⟨31, 29, .ro, 0, 0, 7⟩, ⟨26, 24, .ro, 0, 0, 7⟩, ⟨23, 16, .ro, 0, 0, 255⟩, ⟨14, 12, .ro, 0, 0, 7⟩, ⟨6, 0, .ro, 0, 0, 127⟩]⟩,
  ⟨"PWR_DOM_STATUS", 0x41000, 640, 4, 1, [⟨31, 16, .ro, 65535, 0, 65535⟩, ⟨15, 0, .ro, 0, 0, 65535⟩]⟩,
  ⟨"PWR_DOM_TIME_LO", 0x41001, 640, 4, 1, [⟨31, 0, .ro, 0, 0, 4294967295⟩]⟩,
  ⟨"PWR_DOM_TIME_HI", 0x41002, 640, 4, 1, [⟨31, 0, .ro, 0, 0, 4294967295⟩]⟩,
  ⟨"PWR_DOM_CTRL", 0x41003, 640, 4, 1, [⟨0, 0, .wo, 0, 0, 1⟩]⟩,
  ⟨"THM_STATUS", 0x50000, 1, 1, 1, [⟨31, 31, .ro, 0, 0, 1⟩, ⟨30, 30, .ro, 0, 0, 1⟩, ⟨29, 29, .ro, 0, 0, 1⟩, ⟨28, 28, .w1c, 0, 0, 1⟩, ⟨2, 0, .ro, 0, 0, 7⟩]⟩,
  ⟨"THM_STACK_CAP", 0x50001, 1, 1, 1, [⟨26, 16, .rl, 1400, 0, 1400⟩, ⟨10, 0, .rl, 1400, 0, 1400⟩]⟩,
  ⟨"THM_SLEW", 0x50002, 1, 1, 1, [⟨11, 0, .rl, 400, 100, 2000⟩]⟩,
  ⟨"THM_CAP_NOW", 0x50003, 1, 1, 1, [⟨31, 16, .ro, 0, 0, 65535⟩, ⟨15, 0, .ro, 0, 0, 65535⟩]⟩,
  ⟨"THM_FLOW", 0x50004, 1, 1, 1, [⟨25, 16, .ro, 0, 0, 1023⟩, ⟨15, 0, .ro, 0, 0, 65535⟩]⟩,
  ⟨"THM_COOL_TEMP", 0x50005, 1, 1, 1, [⟨31, 16, .ro, 0, 0, 65535⟩, ⟨15, 0, .ro, 0, 0, 65535⟩]⟩,
  ⟨"THM_FATIGUE_TOTAL", 0x50008, 1, 1, 1, [⟨31, 0, .ro, 0, 0, 4294967295⟩]⟩]
/-- The registers outside the tile pages, part 4. -/
def moduleRegs4 : List RegDef := [
  ⟨"THM_FATIGUE", 0x50100, 144, 1, 1, [⟨31, 0, .ro, 0, 0, 4294967295⟩]⟩,
  ⟨"THM_STACK_TEMP", 0x50200, 16, 1, 1, [⟨31, 16, .ro, 0, 0, 65535⟩, ⟨15, 0, .ro, 0, 0, 65535⟩]⟩,
  ⟨"THM_SPOT", 0x51000, 1296, 1, 1, [⟨31, 31, .ro, 0, 0, 1⟩, ⟨30, 30, .ro, 0, 0, 1⟩, ⟨29, 28, .ro, 0, 0, 3⟩, ⟨23, 12, .ro, 0, 0, 4095⟩, ⟨11, 0, .ro, 0, 0, 4095⟩]⟩,
  ⟨"MGT_START_STATUS", 0x100, 1, 1, 1, [⟨19, 16, .ro, 0, 0, 15⟩, ⟨12, 12, .ro, 0, 0, 1⟩, ⟨11, 8, .ro, 0, 0, 15⟩, ⟨2, 0, .ro, 0, 0, 7⟩]⟩,
  ⟨"MGT_RESET_CTRL", 0x101, 1, 1, 1, [⟨31, 31, .wo, 0, 0, 1⟩, ⟨30, 30, .wo, 0, 0, 1⟩, ⟨1, 1, .ro, 0, 0, 1⟩, ⟨0, 0, .ro, 0, 0, 1⟩]⟩,
  ⟨"MGT_REMOVE_CTRL", 0x102, 1, 1, 1, [⟨0, 0, .wo, 0, 0, 1⟩]⟩,
  ⟨"MGT_REMOVE_DRAIN", 0x103, 1, 1, 1, [⟨15, 0, .rl, 1000, 0, 60000⟩]⟩,
  ⟨"MGT_TIME_STATUS", 0x104, 1, 1, 1, [⟨31, 31, .ro, 0, 0, 1⟩, ⟨30, 30, .ro, 0, 0, 1⟩, ⟨9, 8, .ro, 0, 0, 3⟩, ⟨1, 0, .ro, 0, 0, 3⟩]⟩,
  ⟨"MGT_TIME_SET_LO", 0x105, 1, 1, 1, [⟨31, 0, .wo, 0, 0, 4294967295⟩]⟩,
  ⟨"MGT_TIME_SET_HI", 0x106, 1, 1, 1, [⟨31, 0, .wo, 0, 0, 4294967295⟩]⟩,
  ⟨"MGT_TIME_OFFSET", 0x107, 1, 1, 1, [⟨31, 0, .ro, 0, 0, 4294967295⟩]⟩,
  ⟨"MGT_EPOCH", 0x108, 1, 1, 1, [⟨31, 0, .ro, 0, 0, 4294967295⟩]⟩,
  ⟨"MGT_FUSE_TILE", 0x110, 72, 1, 1, [⟨31, 0, .ro, 0, 0, 4294967295⟩]⟩,
  ⟨"CFG_STATUS", 0x20000, 1, 1, 1, [⟨31, 31, .ro, 0, 0, 1⟩, ⟨30, 30, .ro, 0, 0, 1⟩, ⟨29, 29, .ro, 0, 0, 1⟩, ⟨23, 16, .ro, 0, 0, 255⟩, ⟨0, 0, .ro, 0, 0, 1⟩]⟩,
  ⟨"CFG_IMAGE_SEQ", 0x20001, 1, 1, 1, [⟨31, 0, .ro, 0, 0, 4294967295⟩]⟩,
  ⟨"CFG_CAL_SEQ", 0x20002, 1, 1, 1, [⟨31, 0, .ro, 0, 0, 4294967295⟩]⟩,
  ⟨"CFG_LAST_ERR", 0x20003, 1, 1, 1, [⟨31, 16, .ro, 0, 0, 65535⟩, ⟨15, 0, .ro, 0, 0, 65535⟩]⟩,
  ⟨"CFG_CARD_CTRL", 0x20010, 1, 1, 1, [⟨31, 31, .wo, 0, 0, 1⟩, ⟨30, 30, .wo, 0, 0, 1⟩, ⟨7, 4, .rw, 0, 1, 3⟩, ⟨2, 0, .ro, 0, 0, 7⟩]⟩,
  ⟨"CFG_CARD_LEN", 0x20011, 1, 1, 1, [⟨31, 0, .rw, 0, 0, 4294967295⟩]⟩,
  ⟨"CFG_CARD_DATA", 0x20012, 1, 1, 1, [⟨31, 0, .wo, 0, 0, 4294967295⟩]⟩,
  ⟨"CFG_CARD_READ_ADDR", 0x20013, 1, 1, 1, [⟨31, 0, .rw, 0, 0, 4294967295⟩]⟩,
  ⟨"CFG_CARD_READ_DATA", 0x20014, 1, 1, 1, [⟨31, 0, .ro, 0, 0, 4294967295⟩]⟩,
  ⟨"BST_REPLACE_STATUS", 0xc0000, 1, 1, 1, [⟨31, 31, .ro, 0, 0, 1⟩, ⟨8, 0, .ro, 0, 0, 511⟩]⟩,
  ⟨"BST_THR_TILES", 0xc0010, 1, 1, 1, [⟨10, 0, .rl, 1088, 1088, 1152⟩]⟩]
/-- The registers outside the tile pages, part 5. -/
def moduleRegs5 : List RegDef := [
  ⟨"BST_THR_BONDED", 0xc0011, 1, 1, 1, [⟨15, 0, .rl, 2048, 64, 65535⟩]⟩,
  ⟨"BST_THR_HLK", 0xc0012, 1, 1, 1, [⟨6, 0, .rl, 88, 48, 96⟩]⟩,
  ⟨"BST_THR_PHASES", 0xc0013, 1, 1, 1, [⟨7, 0, .rl, 4, 1, 144⟩]⟩,
  ⟨"BST_THR_CONV", 0xc0014, 1, 1, 1, [⟨2, 0, .rl, 5, 3, 5⟩]⟩,
  ⟨"BST_THR_FATIGUE", 0xc0015, 1, 1, 1, [⟨31, 0, .rl, 200000, 1000, 4000000⟩]⟩,
  ⟨"BST_THR_BOND", 0xc0016, 1, 1, 1, [⟨7, 0, .rl, 8, 1, 255⟩]⟩,
  ⟨"BST_THYME_CTRL", 0xc0018, 1, 1, 1, [⟨31, 31, .rl, 1, 0, 1⟩, ⟨4, 0, .rl, 4, 1, 24⟩]⟩,
  ⟨"BST_THYME_STATUS", 0xc0020, 1, 1, 1, [⟨31, 16, .ro, 0, 0, 65535⟩, ⟨15, 0, .ro, 0, 0, 65535⟩]⟩,
  ⟨"BST_THYME_FAILS", 0xc0021, 1, 1, 1, [⟨31, 0, .ro, 0, 0, 4294967295⟩]⟩,
  ⟨"BST_TEST_CTRL", 0xc0030, 1, 1, 1, [⟨31, 31, .wo, 0, 0, 1⟩, ⟨30, 28, .rw, 0, 0, 6⟩, ⟨23, 12, .rw, 0, 0, 4095⟩, ⟨11, 0, .rw, 0, 0, 4095⟩]⟩,
  ⟨"BST_TEST_STATUS", 0xc0031, 1, 1, 1, [⟨31, 30, .ro, 0, 0, 3⟩, ⟨23, 12, .ro, 0, 0, 4095⟩, ⟨11, 0, .ro, 0, 0, 4095⟩]⟩,
  ⟨"BST_BURN_CTRL", 0xc0040, 1, 1, 1, [⟨31, 31, .wo, 0, 0, 1⟩, ⟨2, 0, .ro, 0, 0, 7⟩]⟩,
  ⟨"MGT_DEVICE_ID", 0x0, 1, 1, 1, [⟨31, 16, .ro, 8705, 0, 65535⟩, ⟨15, 8, .ro, 177, 0, 255⟩, ⟨7, 0, .ro, 10, 0, 255⟩]⟩,
  ⟨"MGT_MODULE_ID_LO", 0x1, 1, 1, 1, [⟨31, 0, .ro, 0, 0, 4294967295⟩]⟩,
  ⟨"MGT_MODULE_ID_HI", 0x2, 1, 1, 1, [⟨31, 0, .ro, 0, 0, 4294967295⟩]⟩,
  ⟨"MGT_CTRL_STATUS", 0x3, 1, 1, 1, [⟨31, 31, .ro, 0, 0, 1⟩, ⟨30, 30, .ro, 0, 0, 1⟩, ⟨29, 29, .ro, 0, 0, 1⟩, ⟨28, 28, .ro, 0, 0, 1⟩, ⟨0, 0, .ro, 0, 0, 1⟩]⟩,
  ⟨"MGT_VDM_IANA", 0x4, 1, 1, 1, [⟨31, 0, .ro, 0, 0, 4294967295⟩]⟩,
  ⟨"SEC_LC_STATUS", 0x10000, 1, 1, 1, [⟨21, 16, .ro, 0, 0, 63⟩, ⟨10, 8, .ro, 0, 0, 7⟩, ⟨2, 0, .ro, 0, 0, 7⟩]⟩,
  ⟨"SEC_ROOT_HASH", 0x10008, 8, 1, 1, [⟨31, 0, .ro, 0, 0, 4294967295⟩]⟩,
  ⟨"SEC_OWNER_HASH", 0x10010, 8, 1, 1, [⟨31, 0, .ro, 0, 0, 4294967295⟩]⟩,
  ⟨"SEC_ID_HASH", 0x10018, 8, 1, 1, [⟨31, 0, .ro, 0, 0, 4294967295⟩]⟩,
  ⟨"SEC_SESSIONS", 0x10020, 1, 1, 1, [⟨6, 4, .ro, 0, 0, 7⟩, ⟨2, 0, .ro, 0, 0, 7⟩]⟩,
  ⟨"SEC_AUTH_FAILS", 0x10021, 1, 1, 1, [⟨31, 0, .ro, 0, 0, 4294967295⟩]⟩,
  ⟨"EVT_STATUS", 0x30000, 1, 1, 1, [⟨31, 31, .ro, 0, 0, 1⟩, ⟨30, 30, .ro, 0, 0, 1⟩, ⟨29, 29, .ro, 0, 0, 1⟩, ⟨16, 0, .ro, 0, 0, 131071⟩]⟩]
/-- The registers outside the tile pages, part 6. -/
def moduleRegs6 : List RegDef := [
  ⟨"EVT_FIRST", 0x30001, 1, 1, 1, [⟨31, 0, .ro, 0, 0, 4294967295⟩]⟩,
  ⟨"EVT_HEAD", 0x30002, 1, 1, 1, [⟨31, 0, .ro, 0, 0, 4294967295⟩]⟩,
  ⟨"EVT_CURSOR", 0x30003, 1, 1, 1, [⟨16, 0, .rw, 0, 0, 131071⟩]⟩,
  ⟨"EVT_CLEAR", 0x30004, 1, 1, 1, [⟨31, 0, .wo, 0, 0, 4294967295⟩]⟩,
  ⟨"EVT_LOST", 0x30005, 1, 1, 1, [⟨31, 0, .ro, 0, 0, 4294967295⟩]⟩,
  ⟨"EVT_TRIP_CURSOR", 0x30006, 1, 1, 1, [⟨5, 0, .rw, 0, 0, 63⟩]⟩,
  ⟨"EVT_TRIP_STATUS", 0x30007, 1, 1, 1, [⟨14, 8, .ro, 0, 0, 127⟩, ⟨7, 7, .ro, 0, 0, 1⟩, ⟨5, 0, .ro, 0, 0, 63⟩]⟩,
  ⟨"EVT_WINDOW", 0x30010, 8, 1, 1, [⟨31, 0, .ro, 0, 0, 4294967295⟩]⟩,
  ⟨"EVT_TRIP_WINDOW", 0x30100, 256, 1, 1, [⟨31, 0, .ro, 0, 0, 4294967295⟩]⟩,
  ⟨"MGT_SIGNALS", 0x200, 1, 1, 1, [⟨31, 31, .ro, 0, 0, 1⟩, ⟨30, 30, .ro, 0, 0, 1⟩, ⟨29, 29, .ro, 0, 0, 1⟩, ⟨19, 19, .ro, 0, 0, 1⟩, ⟨18, 18, .ro, 0, 0, 1⟩, ⟨17, 17, .ro, 0, 0, 1⟩, ⟨16, 16, .ro, 0, 0, 1⟩, ⟨10, 10, .ro, 0, 0, 1⟩, ⟨9, 9, .ro, 0, 0, 1⟩, ⟨8, 8, .ro, 0, 0, 1⟩, ⟨7, 7, .ro, 0, 0, 1⟩, ⟨6, 6, .ro, 0, 0, 1⟩, ⟨5, 5, .ro, 0, 0, 1⟩, ⟨4, 4, .ro, 0, 0, 1⟩, ⟨3, 3, .ro, 0, 0, 1⟩, ⟨1, 1, .ro, 0, 0, 1⟩, ⟨0, 0, .ro, 0, 0, 1⟩]⟩]
/-- The registers outside the tile pages. -/
def moduleRegs : List RegDef :=
  moduleRegs0 ++ moduleRegs1 ++ moduleRegs2 ++ moduleRegs3 ++ moduleRegs4 ++ moduleRegs5 ++ moduleRegs6

/-- The registers of one tile page, by offset, part 0. -/
def tileRegs0 : List RegDef := [
  ⟨"TIL_STATUS", 0x0, 1, 1, 1, [⟨23, 16, .ro, 0, 0, 255⟩, ⟨13, 8, .ro, 0, 0, 63⟩, ⟨2, 0, .ro, 1, 0, 7⟩]⟩,
  ⟨"TIL_FAULT", 0x1, 1, 1, 1, [⟨31, 31, .w1c, 0, 0, 1⟩, ⟨23, 16, .ro, 0, 0, 255⟩, ⟨7, 0, .ro, 0, 0, 255⟩]⟩,
  ⟨"TIL_FAULT_CMD_LO", 0x2, 1, 1, 1, [⟨31, 0, .ro, 0, 0, 4294967295⟩]⟩,
  ⟨"TIL_FAULT_CMD_HI", 0x3, 1, 1, 1, [⟨15, 0, .ro, 0, 0, 65535⟩]⟩,
  ⟨"TIL_FAULT_ADDR_LO", 0x4, 1, 1, 1, [⟨31, 0, .ro, 0, 0, 4294967295⟩]⟩,
  ⟨"TIL_FAULT_ADDR_HI", 0x5, 1, 1, 1, [⟨15, 0, .ro, 0, 0, 65535⟩]⟩,
  ⟨"TIL_BANK_OWN", 0x10, 12, 1, 1, [⟨8, 8, .rw, 0, 0, 1⟩, ⟨3, 0, .rw, 0, 0, 8⟩]⟩,
  ⟨"TIL_CONFL", 0x20, 9, 1, 1, [⟨31, 0, .ro, 0, 0, 4294967295⟩]⟩,
  ⟨"TIL_STEAL_WAIT", 0x29, 1, 1, 1, [⟨31, 0, .ro, 0, 0, 4294967295⟩]⟩,
  ⟨"TIL_STEAL_REFUSED", 0x2a, 1, 1, 1, [⟨31, 0, .ro, 0, 0, 4294967295⟩]⟩,
  ⟨"TIL_STALE_DROP", 0x2b, 1, 1, 1, [⟨31, 0, .ro, 0, 0, 4294967295⟩]⟩,
  ⟨"TIL_RAE_STAT", 0x30, 4, 1, 1, [⟨22, 16, .ro, 0, 0, 127⟩, ⟨11, 8, .ro, 0, 0, 15⟩, ⟨0, 0, .ro, 0, 0, 1⟩]⟩,
  ⟨"TIL_TOKENS", 0x40, 1, 1, 1, [⟨15, 0, .ro, 0, 0, 65535⟩]⟩,
  ⟨"TIL_CMD_COUNT_LO", 0x42, 1, 1, 1, [⟨31, 0, .ro, 0, 0, 4294967295⟩]⟩,
  ⟨"TIL_CMD_COUNT_HI", 0x43, 1, 1, 1, [⟨31, 0, .ro, 0, 0, 4294967295⟩]⟩,
  ⟨"TIL_COUNT_CLR", 0x44, 1, 1, 1, [⟨0, 0, .wo, 0, 0, 1⟩]⟩,
  ⟨"MXA_STATUS", 0x200, 1, 1, 1, [⟨31, 31, .w1c, 0, 0, 1⟩, ⟨30, 30, .w1c, 0, 0, 1⟩, ⟨17, 16, .ro, 0, 0, 3⟩, ⟨2, 0, .ro, 1, 0, 7⟩]⟩,
  ⟨"MXA_HELD", 0x201, 1, 1, 1, [⟨22, 16, .ro, 0, 0, 127⟩, ⟨6, 0, .ro, 0, 0, 127⟩]⟩,
  ⟨"MXA_PASS_COUNT_LO", 0x202, 1, 1, 1, [⟨31, 0, .ro, 0, 0, 4294967295⟩]⟩,
  ⟨"MXA_PASS_COUNT_HI", 0x203, 1, 1, 1, [⟨31, 0, .ro, 0, 0, 4294967295⟩]⟩,
  ⟨"MXA_ACTIVE_LO", 0x204, 1, 1, 1, [⟨31, 0, .ro, 0, 0, 4294967295⟩]⟩,
  ⟨"MXA_ACTIVE_HI", 0x205, 1, 1, 1, [⟨31, 0, .ro, 0, 0, 4294967295⟩]⟩,
  ⟨"MXA_BUBBLE_LO", 0x206, 1, 1, 1, [⟨31, 0, .ro, 0, 0, 4294967295⟩]⟩,
  ⟨"MXA_BUBBLE_HI", 0x207, 1, 1, 1, [⟨31, 0, .ro, 0, 0, 4294967295⟩]⟩]
/-- The registers of one tile page, by offset, part 1. -/
def tileRegs1 : List RegDef := [
  ⟨"MXA_DRAIN_STALL_LO", 0x208, 1, 1, 1, [⟨31, 0, .ro, 0, 0, 4294967295⟩]⟩,
  ⟨"MXA_DRAIN_STALL_HI", 0x209, 1, 1, 1, [⟨31, 0, .ro, 0, 0, 4294967295⟩]⟩,
  ⟨"MXA_SB_HEAD", 0x20a, 1, 1, 1, [⟨31, 31, .w1c, 0, 0, 1⟩, ⟨4, 0, .ro, 0, 0, 31⟩]⟩,
  ⟨"MXA_COUNT_CLR", 0x20b, 1, 1, 1, [⟨0, 0, .wo, 0, 0, 1⟩]⟩,
  ⟨"MXA_SB", 0x280, 256, 1, 1, [⟨31, 0, .ro, 0, 0, 4294967295⟩]⟩,
  ⟨"LAY_SR_SEED_LO", 0x4f0, 1, 1, 1, [⟨31, 0, .rl, 0, 0, 4294967295⟩]⟩,
  ⟨"LAY_SR_SEED_HI", 0x4f1, 1, 1, 1, [⟨31, 0, .rl, 0, 0, 4294967295⟩]⟩,
  ⟨"LAY_SR_CTRL", 0x4f2, 1, 1, 1, [⟨0, 0, .rl, 0, 0, 1⟩]⟩,
  ⟨"LAY_STATUS", 0x400, 1, 1, 1, [⟨31, 31, .w1c, 0, 0, 1⟩, ⟨30, 30, .w1c, 0, 0, 1⟩, ⟨2, 0, .ro, 1, 0, 7⟩]⟩,
  ⟨"LAY_OOB_READS", 0x401, 1, 1, 1, [⟨31, 0, .ro, 0, 0, 4294967295⟩]⟩,
  ⟨"LAY_OOB_WRITES", 0x402, 1, 1, 1, [⟨31, 0, .ro, 0, 0, 4294967295⟩]⟩,
  ⟨"LAY_OVERLAP_COUNT", 0x403, 1, 1, 1, [⟨31, 0, .ro, 0, 0, 4294967295⟩]⟩,
  ⟨"LAY_GATHER_FETCH", 0x404, 1, 1, 1, [⟨31, 0, .ro, 0, 0, 4294967295⟩]⟩,
  ⟨"LAY_GATHER_ROWS", 0x405, 1, 1, 1, [⟨31, 0, .ro, 0, 0, 4294967295⟩]⟩,
  ⟨"LAY_COUNT_CLR", 0x406, 1, 1, 1, [⟨0, 0, .wo, 0, 0, 1⟩]⟩,
  ⟨"LAY_XLT_BASE", 0x410, 4, 1, 1, [⟨26, 12, .rw, 0, 0, 32767⟩]⟩,
  ⟨"LAY_XLT_LEN", 0x414, 4, 1, 1, [⟨31, 31, .rw, 0, 0, 1⟩, ⟨19, 0, .rw, 0, 0, 1048575⟩]⟩,
  ⟨"LAY_XLT_FLUSH", 0x418, 1, 1, 1, [⟨0, 0, .wo, 0, 0, 1⟩]⟩,
  ⟨"ATN_STATUS", 0x600, 1, 1, 1, [⟨31, 31, .w1c, 0, 0, 1⟩, ⟨30, 30, .w1c, 0, 0, 1⟩, ⟨29, 29, .w1c, 0, 0, 1⟩, ⟨2, 0, .ro, 1, 0, 7⟩]⟩,
  ⟨"ATN_DIR_BASE", 0x601, 1, 1, 1, [⟨26, 12, .rw, 0, 0, 32767⟩]⟩,
  ⟨"ATN_DIR_LEN", 0x602, 1, 1, 1, [⟨31, 31, .rw, 0, 0, 1⟩, ⟨10, 0, .rw, 0, 0, 2047⟩]⟩,
  ⟨"ATN_PAGES_VISITED", 0x603, 1, 1, 1, [⟨31, 0, .ro, 0, 0, 4294967295⟩]⟩,
  ⟨"ATN_PAGES_SKIPPED", 0x604, 1, 1, 1, [⟨31, 0, .ro, 0, 0, 4294967295⟩]⟩,
  ⟨"ATN_INBANK_PAGES", 0x605, 1, 1, 1, [⟨31, 0, .ro, 0, 0, 4294967295⟩]⟩]
/-- The registers of one tile page, by offset, part 2. -/
def tileRegs2 : List RegDef := [
  ⟨"ATN_FLUSHES", 0x606, 1, 1, 1, [⟨31, 0, .ro, 0, 0, 4294967295⟩]⟩,
  ⟨"ATN_EMPTY_ROWS", 0x607, 1, 1, 1, [⟨31, 0, .ro, 0, 0, 4294967295⟩]⟩,
  ⟨"ATN_SUMMARY_POISON", 0x608, 1, 1, 1, [⟨31, 0, .ro, 0, 0, 4294967295⟩]⟩,
  ⟨"ATN_COUNT_CLR", 0x609, 1, 1, 1, [⟨0, 0, .wo, 0, 0, 1⟩]⟩,
  ⟨"ATN_SB_HEAD", 0x60a, 1, 1, 1, [⟨31, 31, .w1c, 0, 0, 1⟩, ⟨4, 0, .ro, 0, 0, 31⟩]⟩,
  ⟨"ATN_SB", 0x680, 256, 1, 1, [⟨31, 0, .ro, 0, 0, 4294967295⟩]⟩,
  ⟨"BDM_STATUS", 0x800, 1, 1, 1, [⟨31, 24, .ro, 0, 0, 255⟩, ⟨23, 16, .ro, 0, 0, 255⟩, ⟨15, 15, .ro, 0, 0, 1⟩, ⟨14, 14, .ro, 0, 0, 1⟩, ⟨2, 0, .ro, 1, 0, 7⟩]⟩,
  ⟨"BDM_CTRL", 0x801, 1, 1, 1, [⟨15, 8, .rw, 0, 0, 255⟩, ⟨0, 0, .rw, 0, 0, 1⟩]⟩,
  ⟨"BDM_HOME_PPN", 0x802, 1, 1, 1, [⟨18, 0, .rw, 0, 0, 524287⟩]⟩,
  ⟨"BDM_BOND", 0x804, 8, 1, 1, [⟨31, 31, .ro, 0, 0, 1⟩, ⟨20, 16, .ro, 0, 0, 31⟩, ⟨7, 0, .ro, 0, 0, 255⟩]⟩,
  ⟨"BDM_IBU_PERM", 0x80c, 8, 1, 1, [⟨31, 0, .rw, 0, 0, 4294967295⟩]⟩,
  ⟨"BDM_CE_COUNT", 0x814, 1, 1, 1, [⟨31, 0, .ro, 0, 0, 4294967295⟩]⟩,
  ⟨"BDM_UE_COUNT", 0x815, 1, 1, 1, [⟨31, 0, .ro, 0, 0, 4294967295⟩]⟩,
  ⟨"BDM_SB_WAIT", 0x816, 1, 1, 1, [⟨31, 0, .ro, 0, 0, 4294967295⟩]⟩,
  ⟨"BDM_RMW_COUNT", 0x817, 1, 1, 1, [⟨31, 0, .ro, 0, 0, 4294967295⟩]⟩,
  ⟨"BDM_COUNT_CLR", 0x818, 1, 1, 1, [⟨0, 0, .wo, 0, 0, 1⟩]⟩,
  ⟨"BDM_CUT_STATUS", 0x819, 1, 1, 1, [⟨6, 0, .ro, 0, 0, 127⟩]⟩,
  ⟨"BDM_CUT_CLR", 0x81a, 1, 1, 1, [⟨0, 0, .wo, 0, 0, 1⟩]⟩,
  ⟨"BDM_CUT", 0x900, 160, 1, 1, [⟨31, 0, .ro, 0, 0, 4294967295⟩]⟩,
  ⟨"IBU_STATUS", 0xa00, 1, 1, 1, [⟨31, 31, .w1c, 0, 0, 1⟩, ⟨30, 30, .w1c, 0, 0, 1⟩, ⟨2, 0, .ro, 1, 0, 7⟩]⟩,
  ⟨"IBU_BUSY_LO", 0xa01, 1, 1, 1, [⟨31, 0, .ro, 0, 0, 4294967295⟩]⟩,
  ⟨"IBU_BUSY_HI", 0xa02, 1, 1, 1, [⟨31, 0, .ro, 0, 0, 4294967295⟩]⟩,
  ⟨"IBU_DISABLE_LO", 0xa03, 1, 1, 1, [⟨31, 0, .rw, 0, 0, 4294967295⟩]⟩,
  ⟨"IBU_DISABLE_HI", 0xa04, 1, 1, 1, [⟨31, 0, .rw, 0, 0, 4294967295⟩]⟩]
/-- The registers of one tile page, by offset, part 3. -/
def tileRegs3 : List RegDef := [
  ⟨"IBU_STEPS_LO", 0xa05, 1, 1, 1, [⟨31, 0, .ro, 0, 0, 4294967295⟩]⟩,
  ⟨"IBU_STEPS_HI", 0xa06, 1, 1, 1, [⟨31, 0, .ro, 0, 0, 4294967295⟩]⟩,
  ⟨"IBU_CE_COUNT", 0xa07, 1, 1, 1, [⟨31, 0, .ro, 0, 0, 4294967295⟩]⟩,
  ⟨"IBU_POISON_COUNT", 0xa08, 1, 1, 1, [⟨31, 0, .ro, 0, 0, 4294967295⟩]⟩,
  ⟨"IBU_COUNT_CLR", 0xa09, 1, 1, 1, [⟨0, 0, .wo, 0, 0, 1⟩]⟩,
  ⟨"INT_STATUS", 0xc00, 1, 1, 1, [⟨31, 31, .w1c, 0, 0, 1⟩, ⟨30, 30, .w1c, 0, 0, 1⟩, ⟨29, 29, .w1c, 0, 0, 1⟩, ⟨1, 1, .ro, 0, 0, 1⟩, ⟨0, 0, .ro, 0, 0, 1⟩]⟩,
  ⟨"INT_SRAM_CE", 0xc01, 1, 1, 1, [⟨31, 0, .ro, 0, 0, 4294967295⟩]⟩,
  ⟨"INT_SRAM_UE", 0xc02, 1, 1, 1, [⟨31, 0, .ro, 0, 0, 4294967295⟩]⟩,
  ⟨"INT_SRAM_UNINIT", 0xc03, 1, 1, 1, [⟨31, 0, .ro, 0, 0, 4294967295⟩]⟩,
  ⟨"INT_ADDR_ERR", 0xc04, 1, 1, 1, [⟨31, 0, .ro, 0, 0, 4294967295⟩]⟩,
  ⟨"INT_POISON_READ", 0xc05, 1, 1, 1, [⟨31, 0, .ro, 0, 0, 4294967295⟩]⟩,
  ⟨"INT_NOC_CRC", 0xc06, 1, 1, 1, [⟨31, 0, .ro, 0, 0, 4294967295⟩]⟩,
  ⟨"INT_COUNT_CLR", 0xc07, 1, 1, 1, [⟨0, 0, .wo, 0, 0, 1⟩]⟩,
  ⟨"INT_SCRUB_SRAM_POS", 0xc08, 1, 1, 1, [⟨17, 0, .ro, 0, 0, 262143⟩]⟩,
  ⟨"INT_SCRUB_SLICE_POS", 0xc09, 1, 1, 1, [⟨22, 22, .ro, 0, 0, 1⟩, ⟨21, 0, .ro, 0, 0, 4194303⟩]⟩,
  ⟨"INT_SCRUB_PASSES", 0xc0a, 1, 1, 1, [⟨31, 16, .ro, 0, 0, 65535⟩, ⟨15, 0, .ro, 0, 0, 65535⟩]⟩]
/-- The registers of one tile page, by offset. -/
def tileRegs : List RegDef :=
  tileRegs0 ++ tileRegs1 ++ tileRegs2 ++ tileRegs3

/-- The register sets that hold an offset. -/
def RegDef.covers (d : RegDef) (off : Nat) : Bool :=
  decide (d.base ≤ off) && decide ((off - d.base) / d.stride < d.count) && decide ((off - d.base) % d.stride < d.inner)

/-- The first address of the tile pages (00 R12). -/
def tilePages : Nat := 0x01000000
/-- The number of tiles (00 R7). -/
def tileCount : Nat := 2304
/-- The address of a register of a tile page (00 R12). -/
def tileReg (ti off : Nat) : Nat := tilePages + ti * 0x1000 + off

/-- The tile and the offset of an address in the tile pages. -/
def tileOf (addr : Nat) : Option (Nat × Nat) :=
  if tilePages ≤ addr ∧ addr < tilePages + tileCount * 0x1000 then
    some ((addr - tilePages) / 0x1000, (addr - tilePages) % 0x1000)
  else none

/-- The register at an address of the management space; none where the address holds no register (00 R16). -/
def regDef? (addr : Nat) : Option RegDef :=
  match tileOf addr with
  | some (_, off) => tileRegs.find? (fun d => d.covers off)
  | none => if addr < tilePages then moduleRegs.find? (fun d => d.covers addr) else none

/-- The width of a field. -/
def RegField.width (f : RegField) : Nat := f.hi + 1 - f.lo

/-- The field's value in a word. -/
def RegField.get (f : RegField) (w : BitVec 32) : Nat := (w.toNat >>> f.lo) % 2 ^ f.width

/-- Bits hi..lo of a word replaced. -/
def setBits (w : BitVec 32) (hi lo v : Nat) : BitVec 32 :=
  let n := hi + 1 - lo
  let old := (w.toNat >>> lo) % 2 ^ n
  BitVec.ofNat 32 (w.toNat - old * 2 ^ lo + (v % 2 ^ n) * 2 ^ lo)

/-- Bits hi..lo of a word. -/
def getBits (w : BitVec 32) (hi lo : Nat) : Nat := (w.toNat >>> lo) % 2 ^ (hi + 1 - lo)

/-- The word whose fields hold their reset values and whose reserved bits are 0 (00 R15). -/
def RegDef.resetWord (d : RegDef) : BitVec 32 :=
  BitVec.ofNat 32 (d.fields.foldl (fun n f => n + f.reset * 2 ^ f.lo) 0)

/-- The bits of a word that belong to a field of the register; reserved bits read as 0 (00 R15). -/
def RegDef.mask (d : RegDef) (w : BitVec 32) : BitVec 32 :=
  BitVec.ofNat 32 (d.fields.foldl (fun n f => n + f.get w * 2 ^ f.lo) 0)

end Sys2Proof.Machine
end

