-- ==== Sys2Proof/Machine/SMap.lean ====
section
/-! DEFINITION. Sparse maps from a number to plain data: lists of pairs in rising order of the key, with no
key twice. Register contents, tiles, memory words and tables are held so, and equal contents are equal lists. -/
namespace Sys2Proof.Machine

/-- A sparse map: pairs in strictly rising order of the key. -/
abbrev SMap (β : Type) := List (Nat × β)

/-- The entry at a key. -/
def SMap.get? {β : Type} : SMap β → Nat → Option β
  | [], _ => none
  | (a, b) :: r, k => if k = a then some b else SMap.get? r k

/-- The entry at a key, or a default where the key is not listed. -/
def SMap.getD {β : Type} (m : SMap β) (k : Nat) (d : β) : β :=
  match SMap.get? m k with
  | some b => b
  | none => d

/-- Put an entry at its place in the order, replacing the one at that key. -/
def SMap.put {β : Type} : SMap β → Nat → β → SMap β
  | [], k, v => [(k, v)]
  | (a, b) :: r, k, v =>
    if k < a then (k, v) :: (a, b) :: r
    else if k = a then (k, v) :: r
    else (a, b) :: SMap.put r k v

/-- Take the entry at a key out. -/
def SMap.del {β : Type} (m : SMap β) (k : Nat) : SMap β :=
  m.filter (fun p => p.1 ≠ k)

/-- Put a value where `d` is what an unlisted key reads as: the value `d` itself is not listed. -/
def SMap.set {β : Type} [DecidableEq β] (m : SMap β) (k : Nat) (v d : β) : SMap β :=
  if v = d then SMap.del m k else SMap.put m k v

/-- The canonical form: keys strictly rising. -/
def SMap.wf {β : Type} : SMap β → Bool
  | [] => true
  | [_] => true
  | (a, _) :: (b, v) :: r => decide (a < b) && SMap.wf ((b, v) :: r)

/-- Keep the entries whose key satisfies a test. -/
def SMap.keep {β : Type} (m : SMap β) (p : Nat → Bool) : SMap β :=
  m.filter (fun e => p e.1)

end Sys2Proof.Machine
end

