-- ==== Sys2Proof/Machine/WorkState.lean ====
section
/-! DEFINITION. The state of Sage (10) and of the client protocol engine (11): packages and their cost tables, sessions
and requests, batch steps, peers and their reliable delivery. -/
namespace Sys2Proof.Machine

/-! ## Cost tables and packages -/

/-- A coefficient triple (10 R300). -/
structure Triple where
  c0 : Nat
  c1 : Nat
  c2 : Nat
deriving DecidableEq, Repr

/-- A tile entry (10 Table 10.7), with the scaling of a relocated tile (11 R349). -/
structure TileCost where
  ti : Nat
  s : Triple
  f : Triple
  scale : Nat
  add : Nat
deriving DecidableEq, Repr

/-- A part record with its tile entries (10 Table 10.6). -/
structure PartRec where
  eW : Triple
  eE : Triple
  sbW : Triple
  sbE : Triple
  tiles : List TileCost
deriving DecidableEq, Repr

/-- A kind record with its parts (10 Table 10.5). -/
structure KindRec where
  id : Nat
  role : Nat
  batchMax : Nat
  tokensIn : Nat
  ibuPost : Nat
  parts : List PartRec
deriving DecidableEq, Repr

/-- A patch of a template (11 Table 11.12). -/
structure Patch where
  cmd : Nat
  offset : Nat
  size : Nat
  source : Nat
  arg : Nat
deriving DecidableEq, Repr

/-- A template record (11 Table 11.12). -/
structure Template where
  ti : Nat
  kind : Nat
  part : Nat
  seg : Nat
  space : Nat
  first : Nat
  count : Nat
  cmds : List (BitVec 512)
  patches : List Patch
deriving DecidableEq, Repr

/-- A WEIGHTS record (11 Table 11.11). -/
structure WeightsRec where
  ti : Nat
  space : Nat
  target : Nat
  vaddr : Nat
  data : List Nat
deriving DecidableEq, Repr

/-- A KV record (11 Table 11.11). -/
structure KvRec where
  ti : Nat
  layer : Nat
  headGroup : Nat
  kfmt : Nat
  vfmt : Nat
  dk : Nat
  dv : Nat
  sink : Nat
  recent : Nat
deriving DecidableEq, Repr

/-- A SEEDS record (11 Table 11.11). -/
structure SeedRec where
  ti : Nat
  roundMix : Nat
  seed : Nat
deriving DecidableEq, Repr

/-- A RELOC record (11 Table 11.11). -/
structure RelocRec where
  fromTi : Nat
  toTi : Nat
  scale : Nat
  add : Nat
deriving DecidableEq, Repr

/-- A package read from its image (11 R342-R344, 10 R300). -/
structure Package where
  model : Nat
  manifest : List Nat
  epoch : Nat
  maxContext : Nat
  sections : Nat
  kinds : List KindRec
  templates : List Template
  weights : List WeightsRec
  kv : List KvRec
  seeds : List SeedRec
  reloc : List RelocRec
deriving DecidableEq, Repr

/-- A loaded model. -/
structure Model where
  pkg : Package
  paused : Bool
deriving DecidableEq, Repr

/-- A load in progress (11 R345): bytes held from offset 0, the sender, whether verification runs, and a verified
package that waits for its boundary. -/
structure Load where
  model : Nat
  total : Nat
  bytes : List Nat
  peer : Nat
  ready : Option Package
deriving DecidableEq, Repr

/-! ## Requests, sessions and batch steps -/

/-- How a request step stands. -/
inductive StepState where
  | waiting
  | placed (batch : Nat)
  | committed
  | released
deriving DecidableEq, Repr

/-- A request step (10 R294): its number in the request, kind, deadline round, tokens it appends, tokens it takes, the
context length at its end, the INDEX of its RESULT (0 for none). -/
structure ReqStep where
  num : Nat
  kind : Nat
  nparts : Nat
  deadline : Nat
  appends : Nat
  ntok : Nat
  ctx : Nat
  index : Nat
  state : StepState
deriving DecidableEq, Repr

/-- A request in progress (10 R294, R297). -/
structure Request where
  reqId : Nat
  cls : Nat
  params : List Nat
  tokens : List Nat
  first : Nat
  last : Nat
  steps : List ReqStep
deriving DecidableEq, Repr

inductive SessState where
  | opened | detached | closing
deriving DecidableEq, Repr

/-- A RESULT that its peer has not acknowledged (11 R338). `seqs` holds the sequence numbers once it is sent. -/
structure Result where
  status : Nat
  reqId : Nat
  index : Nat
  last : Bool
  round : Nat
  ctx : Nat
  output : List Nat
  seqs : Option (List Nat)
deriving DecidableEq, Repr

/-- Why a session closes (Table 11.17), and the answer owed. -/
structure Closing where
  cause : Nat
  answer : Option Nat
deriving DecidableEq, Repr

/-- A session that is not FREE (11 R333, R334). -/
structure Session where
  id : Nat
  cookie : Nat
  state : SessState
  peer : Option Nat
  model : Nat
  partition : Nat
  classMask : Nat
  maxContext : Nat
  committed : Nat
  request : Option Request
  results : List Result
  closing : Option Closing
  truncated : Bool
deriving DecidableEq, Repr

/-- A member of a batch step. -/
structure Member where
  session : Nat
  reqId : Nat
  step : Nat
  partition : Nat
  ctx : Nat
deriving DecidableEq, Repr

/-- A batch step (10 R299): its first round, the partition of its opener, its members; in the round of a part, the slots
it waits for on each tile and those reported; its drop. -/
structure Batch where
  id : Nat
  model : Nat
  kind : Nat
  round : Nat
  opener : Nat
  members : List Member
  part : Option Nat
  need : List (Nat × Nat)
  got : List (Nat × Nat)
  bases : List (Nat × Nat × Nat)
  dropped : Option Nat
  poisoned : Bool
  committed : Bool
  ended : Bool
  leader : Option Nat
  ens : Option Nat
  remote : List Nat
  decision : Option Bool
deriving DecidableEq, Repr

/-- A segment as Sage has built it for a round (10 R293, 11 R344). -/
structure BuiltSegment where
  ti : Nat
  seg : Nat
  entry : Nat
  space : Nat
  slotBase : Nat
  cmds : List (BitVec 512)
deriving DecidableEq, Repr

/-- What a tile reports of a request step to Sage (02 R51, 03 R106, 05 R155): its OR of INEXACT_ANY and whether a copy
was refused. -/
structure TileReport where
  ti : Nat
  slot : Nat
  inexact : Bool
  overlap : Bool
deriving DecidableEq, Repr

/-- A tile fault reported to Sage (02 R59). -/
structure FaultReport where
  ti : Nat
  cause : Nat
  slot : Nat
deriving DecidableEq, Repr

/-- Sage (10). `frozen` is the round whose set of steps is fixed; `readings` the pace readings of the last 100 ms per
cluster, newest first; `belowFloor` the clusters below 0.80 Gst/s; `forecast` names the forecast in force; `targets` the
power targets of the round in progress in mW, West and East; `inReset` whether a half has no budget;
`draining` until when admitted steps run in a removal; `recheck` whether a lowered cap waits for its re-check. -/
structure Sage where
  reports : List TileReport
  faults : List FaultReport
  batches : List Batch
  nextBatch : Nat
  frozen : Nat
  readings : SMap (List Nat)
  belowFloor : List Nat
  forecast : Nat
  targetW : Rat
  targetE : Rat
  segments : List BuiltSegment
  inResetW : Bool
  inResetE : Bool
  draining : Option Nat
  recheck : Bool
deriving DecidableEq, Repr

def Sage.init : Sage where
  reports := []
  faults := []
  batches := []
  nextBatch := 0
  frozen := 0
  readings := []
  belowFloor := []
  forecast := 0
  targetW := 0
  targetE := 0
  segments := []
  inResetW := false
  inResetE := false
  draining := none
  recheck := false

/-- A batch step is complete: in the round of its last part every tile has reported (10 R311). `lastPart` is marked by
`part = none` once its parts are done, so the test uses the parts left. -/
def Batch.allReported (b : Batch) : Bool := b.need.all (fun x => b.got.contains x)

/-- A report of a slot by a tile reaches the batch step whose segments own the slot, unless the step is dropped
(10 R311). -/
def Batch.report (b : Batch) (ti slot : Nat) : Batch :=
  if b.dropped.isSome || b.committed || !b.need.contains (ti, slot) || b.got.contains (ti, slot) then b
  else { b with got := b.got ++ [(ti, slot)] }

/-- Whether a batch step, of `nparts` parts, has every report of its last part. -/
def Batch.complete (b : Batch) (nparts : Nat) : Bool :=
  match b.part with
  | some k => decide (k + 1 = nparts) && b.allReported
  | none => false

/-! ## Peers -/

/-- A datagram as sent by the module and not yet acknowledged, or waiting for credit (11 R326, R327). -/
structure OutDg where
  seq : Nat
  dtype : Nat
  response : Bool
  frag : Nat
  lastFrag : Bool
  body : List Nat
  tries : Nat
  sentAt : Nat
deriving DecidableEq, Repr

/-- A message being assembled (11 R581). -/
structure Assembly where
  dtype : Nat
  response : Bool
  frag : Nat
  body : List Nat
deriving DecidableEq, Repr

/-- A peer (11 R328). `limit` is ACK + CREDIT as last received; times in ns. -/
structure Peer where
  id : Nat
  port : Nat
  ip : Nat
  udp : Nat
  v6 : Bool
  cookie : Nat
  operator : Bool
  heard : Nat
  rcvNext : Nat
  rcvLimit : Nat
  held : List Datagram
  asm : Option Assembly
  ackDue : Bool
  sndNext : Nat
  limit : Nat
  queue : List OutDg
  unacked : List OutDg
  sampled : Bool
  srtt : Nat
  rttvar : Nat
deriving DecidableEq, Repr

/-- The protocol engine (11): peers, sessions, models, loads. -/
structure Client where
  peers : List Peer
  sessions : List Session
  models : List Model
  loads : List Load
  attempts : SMap Nat
deriving DecidableEq, Repr

def Client.init : Client := ⟨[], [], [], [], []⟩

/-! ## Calendar time (16 R475-R479) -/

/-- A setting of calendar time (16 R476-R479): its source (1 PTP, 2 1PPS, 3 management write), and the time it sets, or
the step it makes. -/
structure TimeSetting where
  source : Nat
  target : Option Nat
  delta : Int
deriving DecidableEq, Repr

/-- The time base: calendar time is `now` plus an offset. `pending` is a setting that waits for a round boundary, `ppsSecond` a
TAI second that waits for an edge with the time of its write, `edge` the last valid edge, `discarded` the pulses discarded. -/
structure TimeBase where
  offset : Int
  isSet : Bool
  pending : Option TimeSetting
  ppsSecond : Option (Nat × Nat)
  edge : Option Nat
  discarded : Nat
deriving DecidableEq, Repr

def TimeBase.init : TimeBase := ⟨0, false, none, none, none, 0⟩

/-! ## Fabric (12) -/

/-- A fabric port beside its status register: the sender's codewords kept for replay and its next CW_SEQ, the
receiver's expected CW_SEQ and whether it discards until it comes, the flits sent, freed by the peer and freed here per
VL, the packets buffered per VL, what the peer last said of itself. -/
structure FabPort where
  kept : List Codeword
  nextSeq : Nat
  replays : Nat
  expected : Nat
  discarding : Bool
  nakDue : Bool
  sent : List Nat
  peerFreed : List Nat
  freed : List Nat
  freedSent : List Nat
  buffers : List (Nat × FabPacket)
  peer : Option LinkBody
  reversed : Bool
  uncorr : List Nat
deriving DecidableEq, Repr

def FabPort.init : FabPort where
  kept := []
  nextSeq := 0
  replays := 0
  expected := 0
  discarding := false
  nakDue := false
  sent := [0, 0, 0, 0]
  peerFreed := [0, 0, 0, 0]
  freed := [0, 0, 0, 0]
  freedSent := [0, 0, 0, 0]
  buffers := []
  peer := none
  reversed := false
  uncorr := []

/-- A fabric map (12 R370). -/
structure FabMap where
  fcn : Nat
  entries : List MapEntry
deriving DecidableEq, Repr

/-- The root candidate, by its MODULE_ID (12 R368). -/
structure Candidate where
  id : Nat
deriving DecidableEq, Repr

/-- What a root knows of a module while it builds a map (12 R369): its entry, and whether its LINKS has come. -/
structure RootEntry where
  entry : MapEntry
  recs : Option (List LinkRec)
deriving DecidableEq, Repr

/-- An ensemble slot beside its registers (12 R384-R387): acceptances, the last heartbeat per address,
the last round trip, whether the reservation is held, the plan for a round, a state change that waits for a boundary. -/
structure EnsSlot where
  accepted : List Nat
  beats : SMap Nat
  times : SMap Nat
  roundTrip : Option Nat
  reserved : Bool
  release : Bool
  planned : Option Nat
  toLeader : Bool
deriving DecidableEq, Repr

def EnsSlot.init : EnsSlot where
  accepted := []
  beats := []
  times := []
  roundTrip := none
  reserved := false
  release := false
  planned := none
  toLeader := false

/-- A remote SEND's write in progress at the switch (12 R375): at the source, the fabric tag of a SEND's WRITE and the
packet tags it stands for; at the destination, the mesh writes left of a WRITE. -/
structure RemoteWrite where
  tag : Nat
  ti : Nat
  ref : Nat
  count : Nat
deriving DecidableEq, Repr

structure RemoteInbound where
  id : Nat
  pkt : FabPacket
  left : Nat
  refused : Bool
deriving DecidableEq, Repr

/-- The fabric (12). -/
structure Fabric where
  ports : SMap FabPort
  cand : Option Candidate
  active : Option FabMap
  next : Option FabMap
  ready : List Nat
  building : List RootEntry
  cause : Nat
  leaving : Bool
  slots : SMap EnsSlot
  outgoing : List RemoteWrite
  inbound : List RemoteInbound
  merge : List Packet
  nextTag : Nat
  dropsInRound : Nat
  transit : List FabPacket
deriving DecidableEq, Repr

def Fabric.init : Fabric where
  ports := []
  cand := none
  active := none
  next := none
  ready := []
  building := []
  cause := 0
  leaving := false
  slots := []
  outgoing := []
  inbound := []
  merge := []
  nextTag := 0
  dropsInRound := 0
  transit := []

/-- A control message as sent (12 Table 12.9). -/
inductive Ctrl where
  | rootAnnounce (candidate fcn : Nat)
  | assign (moduleId addr level parentPort : Nat)
  | links (recs : List LinkRec)
  | map (fcn : Nat) (entries : List MapEntry)
  | mapReady (fcn : Nat)
  | activate (fcn : Nat)
  | leave (moduleId : Nat)
  | ensForm (ensId model time power : Nat) (members : List Nat)
  | ensJoin (ensId reason : Nat)
  | ensPlan (round : Nat) (parts : List PlanPart)
  | ensReport (round : Nat) (batches : List Nat)
  | ensDecision (round : Nat) (ds : List Decision)
  | ensBeat (ensId time echoed : Nat)
  | ensEnd (ensId cause : Nat)
  | floorPlan (record : List Nat)
  | fpQuery (epoch : Nat)
deriving DecidableEq, Repr

/-! ## Floor plan (00 R9, 11 R347, 16 R482-R484) -/

/-- A floor-plan record: the tiles whose TILES bit is clear, the usable slice pages of tiles that differ from all 64, the
usable stack pages per half. -/
structure PlanRec where
  epoch : Nat
  prev : Nat
  round : Nat
  addr : Nat
  fencedW : Bool
  fencedE : Bool
  stackW : Nat
  stackE : Nat
  down : List Nat
  pages : SMap Nat
deriving DecidableEq, Repr

/-- The floor plan: tiles fused off, retired in service, failed at the last start and clusters dark; the records in force
and before; whether a new epoch takes effect at the next boundary. -/
structure Plan where
  epoch : Nat
  fused : List Nat
  retired : List Nat
  failed : List Nat
  dark : List Nat
  current : Option PlanRec
  previous : Option PlanRec
  due : Bool
deriving DecidableEq, Repr

def Plan.init : Plan where
  epoch := 0
  fused := []
  retired := []
  failed := []
  dark := []
  current := none
  previous := none
  due := false

/-- The keys and revocations of the configuration image in force (17): token-issuer keys and package-signing keys by
index, and revoked TOKEN_IDs. -/
structure Trust where
  issuers : SMap (List Nat)
  signers : SMap (List Nat)
  revoked : List Nat
deriving DecidableEq, Repr

def Trust.init : Trust := ⟨[], [], []⟩

/-! ## What leaves the module -/

/-- A datagram as it leaves a client port (11 R324). -/
structure ClientTx where
  port : Nat
  ip : Nat
  udp : Nat
  peerId : Nat
  cookie : Nat
  dtype : Nat
  response : Bool
  lastFrag : Bool
  seq : Nat
  ack : Nat
  sack : Nat
  credit : Nat
  frag : Nat
  body : List Nat
deriving DecidableEq, Repr

/-- What the module sends on its ports, in the order it sends it. -/
inductive Output where
  | client (x : ClientTx)
  | echo (port : Nat) (kind : EchoKind) (dst : Nat)
  | codeword (port : Nat) (w : Codeword)
  | linkFlit (port : Nat) (b : LinkBody)
  | ctrl (port : Option Nat) (dst : Nat) (m : Ctrl)
  | hlk (module : Nat) (toEast : Bool) (f : HlkFrame)
  | lease (h : Half)
  | written (addr status : Nat)
  | vdm (ep command tag status : Nat) (body : List Nat)
  | spdm (ep code : Nat) (body : List Nat)
  | pldm (ep : Nat) (body : List Nat)
  | mctp (ep : Nat) (body : List Nat)
  | ptpDelayReq (port source : Nat)
  | nonce (h : Half) (n : List Nat)
  | word (addr : Nat) (v : Word)
deriving DecidableEq, Repr

end Sys2Proof.Machine
end

