-- ==== Sys2Proof/Machine/SysState.lean ====
section
/-! DEFINITION. The state of the module's own housekeeping beside its registers: compute reset (16), the half link (13), power
(14), the thermal manager (15), the start sequence and removal (16), the configuration card (17), fuses (16, 19),
self-test (18) and the management port (19). -/
namespace Sys2Proof.Machine

/-! ## Compute reset (16 R485-R488) -/

/-- A half's compute reset: phase 0 none, 1 tile logic in reset, 2 released and training, 3 cut lists handled and waiting
for the boundary that gives budget again; its request time, its cause, whether RESET_IN_N holds it. -/
structure HalfReset where
  phase : Nat
  t0 : Nat
  cause : Nat
  byPin : Bool
deriving DecidableEq, Repr

def HalfReset.none : HalfReset := ⟨0, 0, 0, false⟩

/-- Reset control: both halves; the tiles whose vertical ports the keeper holds; a request held until step 12; the
translation registers as they stood before a reset, which the supervisor writes again in its step 7. -/
structure ResetCtl where
  west : HalfReset
  east : HalfReset
  untrained : List Nat
  heldW : Bool
  heldE : Bool
  heldCause : Nat
  bases : SMap (BitVec 32)
deriving DecidableEq, Repr

def ResetCtl.init : ResetCtl := ⟨.none, .none, [], false, false, 0, []⟩

/-! ## Half link (13) -/

/-- One end of a half-link module (13 R398, R399): VALID frames sent and not acknowledged, oldest first, with their flow;
the next SEQ; the SEQ expected; whether frames are discarded until it comes; the sender's credits and the credits owed per
plane. -/
structure HlkEnd where
  kept : List (HlkFrame × HlkFlow)
  nextSeq : Nat
  expected : Nat
  discarding : Bool
  credits : List Nat
  owed : List Nat
deriving DecidableEq, Repr

def HlkEnd.init : HlkEnd := ⟨[], 0, 0, false, [64, 64], [0, 0]⟩

/-- A half-link module: its ends, the width it trains for (2 x16, 1 x8, 0 none), the times of its replays in the last
second, whether its flows return at the next boundary. -/
structure HlkModule where
  west : HlkEnd
  east : HlkEnd
  target : Nat
  replays : List Nat
  returning : Bool
deriving DecidableEq, Repr

def HlkModule.init : HlkModule := ⟨.init, .init, 0, [], false⟩

/-- The half link: its modules; positions retired; where each flow is sent; whether a split declared in a compute
reset waits; the rejoin in progress (half; stage 0 reset due at the boundary, 1 in reset or attesting, 2 attested, epoch due); the nonce of re-attestation; whether the lease holder's
controller failed while the other half was fenced. `paused` are the models that the split paused, `cleared` the
translation entries (tile, space, page) whose VALID it cleared. -/
structure Link where
  mods : SMap HlkModule
  retired : List Nat
  flows : List (HlkFlow × Nat)
  splitDue : Bool
  rejoin : Option (Half × Nat)
  nonce : List Nat
  leaseLost : Bool
  paused : List Nat
  cleared : List (Nat × Nat × Nat)
deriving DecidableEq, Repr

def Link.init : Link := ⟨[], [], [], false, none, [], false, [], []⟩

/-! ## Power (14) -/

/-- Power beside its registers: whether the auxiliary domain is powered and since when the auxiliary input is valid;
the step of Table 14.5 in progress (0 none) and the wave of step 9; the time of a lock-out and
of the MAIN_RETRY writes accepted; whether main power stays off until auxiliary power is removed; the domains whose
switch-on is deferred, since when and why; the undervoltages of each cluster; domains on local sensing; failed in-die
regulators; clusters without budget until a boundary; whether the main input is in range; the input voltage and the charge time of
the last charging, for event 0x0401. -/
structure PowerState where
  auxOn : Bool
  auxSince : Option Nat
  step : Nat
  wave : Nat
  lockedAt : Nat
  retries : List Nat
  stayOff : Bool
  deferred : SMap (Nat × Nat)
  undervolts : SMap (List Nat)
  localSense : List Nat
  deadRegs : List (Nat × Nat)
  noBudget : List Nat
  mainIn : Bool
  volts : Nat
  chargeUs : Nat
deriving DecidableEq, Repr

def PowerState.init : PowerState where
  auxOn := false
  auxSince := none
  step := 0
  wave := 0
  lockedAt := 0
  retries := []
  stayOff := false
  deferred := []
  undervolts := []
  localSense := []
  deadRegs := []
  noBudget := []
  mainIn := false
  volts := 0
  chargeUs := 0

/-! ## Thermal manager (15) -/

/-- The thermal manager beside its registers. Temperatures are in 0.1 C. `nodes` holds the corrected model value of each
node: spots 0-1295, caps 1296-1439, stacks 1440-1455, coolant 1456-1459; `predicted` the last prediction. Diodes are
numbered 2 s and 2 s + 1: `marks` the times they were marked suspect, `episodes` those in a disagreement episode,
`agree` since when a spot's diodes agree. `used` is U of each spot and stack sensor at the last step; `guardSpots` the spots
whose choice capped their cluster at the last step, `guard` the capped clusters, `unwell` the clusters with a spot not chosen
by the first two rows of Table 15.2. `throttled` the parts in a throttle range. `allow` is a cluster's bonded allowance as a fraction, `share` the bonded
share of each stack in W, `stackRate` the served rate of a stack. Caps in W. -/
structure Thermal where
  nodes : SMap Rat
  predicted : SMap Rat
  used : SMap Rat
  marks : SMap (List Nat)
  episodes : List Nat
  agree : SMap Nat
  guardSpots : List Nat
  guard : List Nat
  unwell : List Nat
  throttled : List Nat
  allow : SMap Rat
  limit : SMap Rat
  shareW : Rat
  shareE : Rat
  stackRate : SMap Rat
  tref : SMap Rat
  capW : Rat
  capE : Rat
  lastW : Nat
  lastE : Nat
  shortRound : List Nat
  flows : List Nat
  rises : List Int
  stopped : Nat
  fcool : Rat
  reduced : Bool
  lossAt : Nat
  refused : Bool
  restart : SMap Rat
deriving DecidableEq, Repr

def Thermal.init : Thermal where
  nodes := []
  predicted := []
  used := []
  marks := []
  episodes := []
  agree := []
  guardSpots := []
  guard := []
  unwell := []
  throttled := []
  allow := []
  limit := []
  shareW := 0
  shareE := 0
  stackRate := []
  tref := []
  capW := 0
  capE := 0
  lastW := 0
  lastE := 0
  shortRound := []
  flows := []
  rises := []
  stopped := 0
  fcool := 1
  reduced := false
  lossAt := 0
  refused := false
  restart := []

/-! ## Start and removal (16) -/

/-- A removal preparation: when it was requested, its cause, the sessions closed and the
steps ended, whether its drain has ended. -/
structure Removal where
  t0 : Nat
  cause : Nat
  closed : Nat
  ended : Nat
  drained : Bool
deriving DecidableEq, Repr

/-- The start sequence beside MGT_START_STATUS: the time the step began and of t0; the fields of the image that map to no
register (17 Table 17.6); digests of what is in force for measurements; the calibration fields; the security versions of the boot copies; the
removal in progress or held; whether boot has verified on the standby. -/
structure StartState where
  t0 : Nat
  stepAt : Nat
  loaded : Bool
  timeSource : Nat
  ptpDomain : Nat
  ptpPorts : Nat
  records : SMap (List Nat)
  bootHash : List Nat
  standbyHash : List Nat
  imageHash : List Nat
  calHash : List Nat
  cal : SMap (List Nat)
  svnA : Option Nat
  svnB : Option Nat
  removal : Option Removal
  heldRemoval : Option Nat
deriving DecidableEq, Repr

def StartState.init : StartState where
  t0 := 0
  stepAt := 0
  loaded := false
  timeSource := 1
  ptpDomain := 0
  ptpPorts := 15
  records := []
  bootHash := []
  standbyHash := []
  imageHash := []
  calHash := []
  cal := []
  svnA := none
  svnB := none
  removal := none
  heldRemoval := none

/-- What PTP holds of its masters: datasets heard, the master in use, the Sync in progress, the mean path delay. -/
structure PtpState where
  masters : List PtpDataset
  master : Option PtpDataset
  t1 : Option Int
  t2 : Option Int
  delay : Option Int
deriving DecidableEq, Repr

def PtpState.init : PtpState := ⟨[], none, none, none, none⟩

/-! ## Configuration card (17) -/

/-- A trip or power-fault record (19 Table 19.12). -/
structure TripRec where
  seq : Nat
  time : Nat
  kind : Nat
  isOpen : Bool
  code : Nat
  p0 : Nat
  p1 : Nat
  p2 : Nat
  round : Nat
  evtSeq : Nat
  vmin : List Nat
  vminTime : List Nat
  temps : List Int
deriving DecidableEq, Repr

/-- A slot of STATE (17 R500). -/
structure SaveRec where
  seq : Nat
  fatigue : List Nat
  total : Nat
  plan : Option PlanRec
  clearSeq : Nat
  clearFirst : Nat
  clearHead : Nat
deriving DecidableEq, Repr

/-- A card write in progress (17 R511): target, partition, length, bytes received and programmed. -/
structure CardJob where
  target : Nat
  base : Nat
  size : Nat
  len : Nat
  received : List Nat
  programmed : Nat
deriving DecidableEq, Repr

/-- The card: the bytes of HEADER, the boot copies, the configuration slots and CAL (an erased byte reads 0xFF), the TRIP
records, the two STATE slots, the write in progress. RETIRED lies in the stack tier's list and LOG in the recorder. -/
structure Card where
  bytes : SMap Nat
  trips : List TripRec
  slot0 : Option SaveRec
  slot1 : Option SaveRec
  job : Option CardJob
deriving DecidableEq, Repr

def Card.init : Card := ⟨[], [], none, none, none⟩

/-! ## Fuses (16 R480, R481; 19 R542, R546) -/

/-- The fuses: vendor root key hash, owner slots with their identity seeds, the fused life-cycle state, the fused minimum
SVN, the maps of Table 16.3 and the field burn map. -/
structure Fuses where
  vendorHash : List Nat
  owners : List (List Nat)
  seeds : List (List Nat)
  lifeCycle : Nat
  minSvn : Nat
  tiles : List Nat
  sramRows : List (Nat × Nat × Nat)
  bondedRows : List (Nat × Nat × Nat)
  bonds : List (Nat × Nat × Nat)
  halfLink : List (Nat × Nat)
  burnTiles : List Nat
  burnLayers : List (Nat × Nat)
deriving DecidableEq, Repr

def Fuses.init : Fuses where
  vendorHash := []
  owners := []
  seeds := []
  lifeCycle := 0
  minSvn := 0
  tiles := []
  sramRows := []
  bondedRows := []
  bonds := []
  halfLink := []
  burnTiles := []
  burnLayers := []

/-! ## Self-test (18) -/

/-- A requested test (18 R520, R525): its code, tile, banks, whether it runs. -/
structure TestJob where
  test : Nat
  ti : Nat
  mask : Nat
  running : Bool
deriving DecidableEq, Repr

/-- Self-test: the requested test, the tiles it holds; the pass of Thyme: when it began, the units done per tile, the
failures, units to test again, clusters reported late. -/
structure SelfTest where
  job : Option TestJob
  held : List Nat
  releasing : List Nat
  passAt : Nat
  done : SMap Nat
  fails : Nat
  retest : List (Nat × Nat)
  late : List Nat
deriving DecidableEq, Repr

def SelfTest.init : SelfTest := ⟨none, [], [], 0, [], 0, [], []⟩

/-! ## Management port and security (19) -/

/-- A secured SPDM session (19 R549): its endpoint, whether its handshake has ended, its heartbeat period (0 none), and the key
with which its requester authenticated, where that was the key last sent in OWNER_KEY on the endpoint (R537). -/
structure SpdmSession where
  id : Nat
  ep : Nat
  isOpen : Bool
  key : Option (List Nat)
  period : Nat
deriving DecidableEq, Repr

/-- The management port: dynamic address and endpoint ID, the key last sent in OWNER_KEY per endpoint, secured sessions,
the nonce of the last EXPORT_ID answer, writes refused and logged, whether the identity key is derived, whether the port
is silent, whether the standby has taken over, the DIAGNOSTIC mode. -/
structure Mgmt where
  dynAddr : Option Nat
  eid : Nat
  ownerKeys : SMap (List Nat)
  sessions : List SpdmSession
  nextId : Nat
  nonce : Option (List Nat)
  logged : List (Nat × Nat)
  derived : Bool
  silent : Bool
  takenOver : Bool
  diagnostic : Bool
deriving DecidableEq, Repr

def Mgmt.init : Mgmt := ⟨none, 0, [], [], 1, none, [], false, false, false, false⟩

end Sys2Proof.Machine
end

