-- ==== Sys2Proof/Machine/TileState.lean ====
section
/-! DEFINITION. The state of a tile and of the memory tiers beside its registers (chapters 02-09). -/
namespace Sys2Proof.Machine

/-- One segment of the list that Sage gives a tile (02 R47, 10 R293). -/
structure Segment where
  entry : Nat
  space : Nat
  slotBase : Nat
deriving DecidableEq, Repr

/-- A write staged by a unit for one SRAM word: the bits to change, or the poison pattern (02 R45, 03 R105). -/
structure SramWrite where
  word : Nat
  data : BitVec 64
  mask : BitVec 64
  poison : Bool
deriving DecidableEq, Repr

/-- Where a translated address lies (Table 5.4): a slice granule of this tile or of the adopted slice, or the stack
tier. -/
inductive Tier where
  | own | adopted | stack
deriving DecidableEq, Repr

/-- A write to one granule of a memory tier, by byte address of the granule in its tier. -/
structure MemWrite where
  tier : Tier
  addr : Nat
  data : BitVec 256
  mask : BitVec 256
  poison : Bool
deriving DecidableEq, Repr

/-- What an array command leaves for its completion: the side-band fields of Table 3.9 and the held results. -/
structure ArrayInfo where
  passes : Nat
  drained : Bool
  accCont : Bool
  inexactMask : BitVec 64
  poisonMask : BitVec 64
deriving DecidableEq, Repr

/-- What an attention command leaves for its side-band record (Table 6.6). -/
structure AttnInfo where
  nvisit : Nat
  nskip : Nat
  staged : Nat
  flags : Nat
  emptyRows : Nat
  firstEmpty : Nat
  ninbank : Nat
  ncand : Nat
deriving DecidableEq, Repr

/-- The fields of an IBU_OP (Table 2.5). -/
structure IbuFields where
  op : Nat
  layer : Nat
  pairMask : Nat
  srcA : Nat
  srcB : Nat
  dst : Nat
  len : Nat
  p0 : Nat
  p1 : Nat
  p2 : Nat
  p3 : Nat
  stepNum : Nat
  topk : Nat
  bcast : List (Num × Bool)
  inPlace : Bool
deriving DecidableEq, Repr

/-- A SYNC of a member (02 R74). -/
structure SyncWait where
  group : Nat
  count : Nat
  released : Bool
deriving DecidableEq, Repr

/-- What a queued command still waits for, by class. -/
inductive Waits where
  | none
  | reads (n : Nat)
  | recv (src : Nat) (fabric : Option Nat) (chan len : Nat)
  | sync (w : SyncWait)
  | ibu (f : IbuFields) (left : List (Nat × Nat)) (started : Bool)
deriving DecidableEq, Repr

/-- An element that a LOAD moves: the tier and bit address it comes from, the SRAM bit it goes to, its width
(02 R67, R68). -/
structure LoadElem where
  tier : Tier
  src : Nat
  dst : Nat
  width : Nat
deriving DecidableEq, Repr

/-- A command issued to a unit and not complete (02 R43-R46). `ordinal` is its number in the round, 0 for committed work
of an earlier round (07 R216); `outstanding` counts its requests not yet answered, of which `unsent` are not yet in the
mesh. -/
structure QEntry where
  serial : Nat
  unit : UnitId
  cls : Nat
  vaddr : Nat
  slot : Nat
  flags : Nat
  setTok : Nat
  ordinal : Nat
  banks : BitVec 12
  swrites : List SramWrite
  mwrites : List MemWrite
  outstanding : Nat
  refused : Bool
  waits : Waits
  array : Option ArrayInfo
  attn : Option AttnInfo
  loads : List LoadElem
  unsent : List Packet
deriving DecidableEq, Repr

/-- A HANDOVER whose write is not done: it blocks issue (02 R61). -/
structure Handover where
  serial : Nat
  vaddr : Nat
  slot : Nat
  flags : Nat
  setTok : Nat
  banks : BitVec 12
  owner : Nat
  apply : Bool
  value : Bool
deriving DecidableEq, Repr

/-- An inbound write waiting in the ejection queue (02 R64): its bank, whether it has waited. -/
structure Inbound where
  pkt : Packet
  bank : Nat
  waited : Bool
deriving DecidableEq, Repr

/-- Arrivals counted by a coordinator for a group (02 R74): the members that have arrived. -/
structure SyncArr where
  group : Nat
  members : List (Nat × Option Nat)
deriving DecidableEq, Repr

/-- One accumulator of the array (04 R124, R125, R127). -/
structure Acc where
  q : Int
  anchor : Option Int
  cmin : Option Int
  cmax : Option Int
  fallback : Option Num
  wide : Option Num
  fnan : Bool
  pinf : Bool
  ninf : Bool
  poison : Bool
  inexact : Bool
deriving DecidableEq, Repr

/-- Results held in the accumulators (03 R102, R103). -/
structure Held where
  m : Nat
  n : Nat
  fixed : Bool
  accs : List Acc
deriving DecidableEq, Repr

/-- An entry of the translation cache (05 R147). -/
structure XltEntry where
  space : Nat
  page : Nat
  bits : BitVec 64
  poison : Bool
deriving DecidableEq, Repr

/-- An attention directory entry as the controller holds it in its cache (06 R170, R171). -/
structure DirEntry where
  session : Nat
  layer : Nat
  headGroup : Nat
  pageList : Nat
  stageAddr : Nat
  nextPos : Nat
  entry : Nat
deriving DecidableEq, Repr

/-- A KV sequence position this tile has moved in the round: the position after each request step (06 R175). -/
structure KvMark where
  session : Nat
  layer : Nat
  headGroup : Nat
  slot : Nat
  nextPos : Nat
  space : Nat
  pageList : Nat
deriving DecidableEq, Repr

/-- The running state that ATTN_SCORE leaves for ATTN_APPLY (06 R180, R184). -/
structure AttnRecord where
  addr : Nat
  size : Nat
  session : Nat
  headGroup : Nat
  layer : Nat
  pageList : Nat
  lenS : Nat
  qPos : Nat
  nq : Nat
  hq : Nat
  dk : Nat
  dv : Nat
  mode : Nat
  window : Nat
  scale : Nat
  visit : List Nat
  queries : List (Num × Int × Bool)
  qEll : Int
  qWide : Bool
  consumed : Bool
deriving DecidableEq, Repr

/-- A request step's report state on a tile (02 R51, 03 R106, 05 R155). -/
structure SlotState where
  slot : Nat
  inexact : Bool
  overlap : Bool
  inPlace : Bool
  commitSerial : Option Nat
  commitInPlace : Bool
  reported : Bool
deriving DecidableEq, Repr

/-- An entry of the cut list (07 Table 7.6). -/
structure CutEntry where
  kind : Nat
  layer : Nat
  pair : Nat
  op : Nat
  offset : Nat
  count : Nat
  cmd : Nat
  committed : Bool
deriving DecidableEq, Repr

/-- A tile beside its registers. -/
structure Tile where
  generation : Nat
  sram : SMap (BitVec 72)
  written : SMap Bool
  segs : List Segment
  pc : Nat
  queue : List QEntry
  handover : Option Handover
  serial : Nat
  ordinal : Nat
  slots : List SlotState
  recv : List (Nat × Option Nat × Nat × Nat)
  syncs : List SyncArr
  eject : List Inbound
  starved : Bool
  oobEvent : Bool
  poisonEvent : Bool
  held : Option Held
  xlt : List XltEntry
  dirCache : List DirEntry
  kvMarks : List KvMark
  kvSpace : SMap Nat
  attnRecs : List AttnRecord
  sliceGen : Nat
  slice : SMap (BitVec 288)
  waiting : List Packet
  refreshRow : SMap Nat
  coolSince : SMap Nat
  bondErr : SMap (List (Nat × Nat))
  bondSuspect : List (Nat × Nat)
  spared : List (Nat × Nat)
  failing : List Nat
  cut : List CutEntry
  rowCe : SMap (Nat × Nat)
  softSpares : List (Nat × Nat × Nat)
  pendingSpares : List (Nat × Nat × Nat)
  scrubFrom : Nat × Nat
  scrubFixes : Nat × Nat
  nocCrc : Nat
deriving DecidableEq, Repr

/-- A tile at power-up: nothing written, nothing queued. -/
def Tile.init : Tile where
  generation := 0
  sram := []
  written := []
  segs := []
  pc := 0
  queue := []
  handover := none
  serial := 0
  ordinal := 0
  slots := []
  recv := []
  syncs := []
  eject := []
  starved := false
  oobEvent := false
  poisonEvent := false
  held := none
  xlt := []
  dirCache := []
  kvMarks := []
  kvSpace := []
  attnRecs := []
  sliceGen := 0
  slice := []
  waiting := []
  refreshRow := []
  coolSince := []
  bondErr := []
  bondSuspect := []
  spared := []
  failing := []
  cut := []
  rowCe := []
  softSpares := []
  pendingSpares := []
  scrubFrom := (0, 0)
  scrubFixes := (0, 0)
  nocCrc := 0

/-- A line of a write-combining buffer (08 R240): its block, the valid bytes (bit n for byte n), data, poison per
granule, the time of its last write. -/
structure WcbLine where
  stack : Nat
  block : Nat
  valid : BitVec 256
  data : BitVec 2048
  poison : BitVec 8
  last : Nat
deriving DecidableEq, Repr

/-- A granule of the stack tier found uncorrectable, for Table 8.4. -/
structure StackUe where
  addr : Nat
  seq : Nat
deriving DecidableEq, Repr

/-- An entry of the retired list (08 Table 8.5). -/
structure RetiredEntry where
  seq : Nat
  kind : Nat
  stack : Nat
  chan : Nat
  loc : Nat
  ppn : Nat
  row : Nat
  time : Nat
deriving DecidableEq, Repr

/-- A token bucket of a controller (08 R245): stack, kind (0 G, 1 C, 2 S), partition, half of the traffic, bytes. -/
structure Bucket where
  stack : Nat
  kind : Nat
  part : Nat
  half : Half
  bytes : Nat
  filled : Nat
deriving DecidableEq, Repr

/-- The stack tier beside its registers: `repairs` are rows scheduled for soft repair and `fusedRows` those that hard repair
has fused, each as stack, channel × 2 + pseudo-channel, LOC and row (08 R250-R254); `suspects` the addresses of address
errors that wait for the supervisor; `planMin` the MIN that the round's plan needs per partition and half. -/
structure StackTier where
  generation : Nat
  mem : SMap (BitVec 288)
  wcb : List WcbLine
  buckets : List Bucket
  waiting : List Packet
  retired : List RetiredEntry
  failing : List Nat
  rowCe : SMap (Nat × Nat)
  repairs : List (Nat × Nat × Nat × Nat)
  fusedRows : List (Nat × Nat × Nat × Nat)
  suspects : List Nat
  refreshPos : SMap Nat
  coolSince : SMap Nat
  planMin : SMap Nat
  scrubPos : SMap Nat
deriving DecidableEq, Repr

def StackTier.init : StackTier where
  generation := 0
  mem := []
  wcb := []
  buckets := []
  waiting := []
  retired := []
  failing := []
  rowCe := []
  repairs := []
  fusedRows := []
  suspects := []
  refreshPos := []
  coolSince := []
  planMin := []
  scrubPos := []

/-- An event record (19 R552): sequence number, time, code, source, severity and three parameters. -/
structure EventRec where
  seq : Nat
  time : Nat
  code : Nat
  source : Nat
  severity : Nat
  p0 : Nat
  p1 : Nat
  p2 : Nat
deriving DecidableEq, Repr

/-- An entry of the health supervisor's pending list (09 R281). -/
structure PendEntry where
  seq : Nat
  severity : Nat
  code : Nat
  source : Nat
  west : Bool
  east : Bool
  key : Nat × Nat × Nat
  step : Nat
  p0 : Nat
  p1 : Nat
  p2 : Nat
deriving DecidableEq, Repr

/-- The health supervisor (09 R279-R282): the pending list, the entry it handles, halves due for a drop and reset, the layers
(tile, layer) and slices (tile, cause, bond) to retire at the next boundary (07 R219, R220). -/
structure Supervisor where
  list : List PendEntry
  handling : Option Nat
  overflowResetW : Bool
  overflowResetE : Bool
  layersDue : List (Nat × Nat)
  slicesDue : List (Nat × Nat × Nat)
deriving DecidableEq, Repr

def Supervisor.init : Supervisor where
  list := []
  handling := none
  overflowResetW := false
  overflowResetE := false
  layersDue := []
  slicesDue := []

end Sys2Proof.Machine
end

