-- ==== Sys2Proof/Machine/State.lean ====
section
/-! DEFINITION. The state of the block: every register, memory, queue, counter and pin the spec gives the module, as
plain data, with its value at reset, and the reasons a step can stop. -/
namespace Sys2Proof.Machine

/-- Why a step stops with a fault. No rule of the spec stops the module for good: an error is state (tile faults,
refused writes, trips), so no meaning of this model raises one; the constructor keeps the type inhabited. Safe. -/
inductive Fault where
  | never
deriving DecidableEq, Repr

/-- Why a step is refused. -/
inductive Refusal where
  /-- A command whose meaning is not written yet; raised by its arm of exec alone. Safe: nothing can be proved of
  what follows. -/
  | notModelled (mnemonic : String)
deriving DecidableEq, Repr

/-- The event recorder, Bay (19 R553-R560), beside its registers: staged records, the LOG slots, whether the clearing
erase runs, how many events were lost since the staging buffer had room, and the records of TRIP. -/
structure Recorder where
  staging : List EventRec
  log : List EventRec
  head : Nat
  first : Nat
  full : Bool
  clearing : Bool
  overflowed : Nat
deriving DecidableEq, Repr

def Recorder.init : Recorder where
  staging := []
  log := []
  head := 1
  first := 1
  full := false
  clearing := false
  overflowed := 0

/-- The whole state of the module. `regs` holds every register that differs from its reset value, by address, and `shadow`
the scheduling words that wait for a round boundary (00 R9); `tiles` the tiles that hold anything; `mesh` the packets on their way (02 R70);
`stm` the stack memory tier (08); `sup` the supervisor; `evt` the recorder (19); `plan` the topology plan (09 R279); `trust` the
crypto engine's keys and counters (11, 19); `sage` the round controller (10); `client` the client protocol (11); `fab` the fabric
(12); `tb` and `ptp` the time base (16); `ctl` compute reset (16); `link` the half link (13); `pwr` power (14); `thm` the thermal
manager (15); `boot` the start sequence (16); `card` the configuration card (17); `fuses` (16, 19); `bist` self-test (18); `mgmt` the
management port (19). `out` is everything the module sent or showed, oldest first; `now` is calendar time in ns; `free`
counts the free values taken (log 2); `pending` is the queue of waiting commands, first in, first out. -/
structure State where
  regs : SMap Word
  shadow : SMap Word
  tiles : SMap Tile
  mesh : List Packet
  stm : StackTier
  sup : Supervisor
  evt : Recorder
  plan : Plan
  trust : Trust
  sage : Sage
  client : Client
  fab : Fabric
  tb : TimeBase
  ptp : PtpState
  ctl : ResetCtl
  link : Link
  pwr : PowerState
  thm : Thermal
  boot : StartState
  card : Card
  fuses : Fuses
  bist : SelfTest
  mgmt : Mgmt
  out : List Output
  now : Nat
  free : Nat
  pending : List Instr
deriving DecidableEq, Repr

/-- The machine right after reset: no supply is valid yet. Every register reads its reset value, no memory is written,
nothing is programmed into card or fuses; AUX_VALID is the first event (14 R406, R410). -/
def State.reset : State where
  regs := []
  shadow := []
  tiles := []
  mesh := []
  stm := StackTier.init
  sup := Supervisor.init
  evt := Recorder.init
  plan := Plan.init
  trust := Trust.init
  sage := Sage.init
  client := Client.init
  fab := Fabric.init
  tb := TimeBase.init
  ptp := PtpState.init
  ctl := ResetCtl.init
  link := Link.init
  pwr := PowerState.init
  thm := Thermal.init
  boot := StartState.init
  card := Card.init
  fuses := Fuses.init
  bist := SelfTest.init
  mgmt := Mgmt.init
  out := []
  now := 0
  free := 0
  pending := []

end Sys2Proof.Machine
end

