-- ==== Sys2Proof/Machine/Ops.lean ====
section
/-! DEFINITION. The named operations over registers, tiles, packets and events that the meanings share. -/
namespace Sys2Proof.Machine

/-! ## Registers -/

/-- The default of a deadline class: STEP above FIRST (Table 10.3). -/
def classDefault (c : Nat) : Nat :=
  let f := [(3, 1), (5, 2), (10, 3), (25, 5), (50, 10), (250, 25), (1000, 50), (4000, 100)].getD c (0, 0)
  f.2 * 65536 + f.1

/-- The value of a register before anything writes it: its fields' reset values (00 R14, the field tables), the default
deadline classes (Table 10.3), the half-link rows on their own positions (13 R403, log 30) and the module's identity
(19 R563). -/
def resetOf (a : Nat) : Word :=
  if a = Reg.MGT_MODULE_ID_LO then Config.moduleId.extractLsb' 0 32
  else if a = Reg.MGT_MODULE_ID_HI then Config.moduleId.extractLsb' 32 32
  else if Reg.ADM_CLASS ≤ a ∧ a < Reg.ADM_CLASS + 8 then BitVec.ofNat 32 (classDefault (a - Reg.ADM_CLASS))
  else if Reg.HLK_ROW_MAP ≤ a ∧ a < Reg.HLK_ROW_MAP + 32 then BitVec.ofNat 32 (a - Reg.HLK_ROW_MAP)
  else
    match regDef? a with
    | some d => d.resetWord
    | none => 0

/-- The stored content of a register. -/
def State.reg (s : State) (a : Nat) : Word := SMap.getD s.regs a (resetOf a)

/-- Replace the content of a register. -/
def State.setReg (s : State) (a : Nat) (v : Word) : State :=
  { s with regs := SMap.set s.regs a v (resetOf a) }

/-- Bits hi..lo of a register. -/
def State.fld (s : State) (a hi lo : Nat) : Nat := getBits (s.reg a) hi lo

/-- Replace bits hi..lo of a register. -/
def State.setFld (s : State) (a hi lo v : Nat) : State := s.setReg a (setBits (s.reg a) hi lo v)

/-- Count `n` more on a 32-bit saturating counter (the tables' "32-bit saturating count"). -/
def State.count (s : State) (a n : Nat) : State :=
  let v := (s.reg a).toNat + n
  s.setReg a (BitVec.ofNat 32 (if v < 2 ^ 32 then v else 2 ^ 32 - 1))

/-- A 64-bit value in two consecutive registers, low word first (00 R10). -/
def State.reg64 (s : State) (a : Nat) : Nat := (s.reg a).toNat + (s.reg (a + 1)).toNat * 2 ^ 32

/-- Write a 64-bit value to two consecutive registers. -/
def State.setReg64 (s : State) (a v : Nat) : State :=
  (s.setReg a (BitVec.ofNat 32 v)).setReg (a + 1) (BitVec.ofNat 32 (v / 2 ^ 32))

/-- Put the registers of a list of addresses back to their reset values. -/
def State.resetRegs (s : State) (as : List Nat) : State :=
  { s with regs := s.regs.filter (fun e => !as.contains e.1) }

/-- A fresh free value, and the state that has taken it (log 2). -/
def State.takeFree (s : State) : BitVec 64 × State :=
  (Config.freeValue s.free, { s with free := s.free + 1 })

/-- Byte `i` of a run of free values from number `k`. -/
def freeByte (k i : Nat) : Nat := (Config.freeValue (k + i / 8)).toNat / 256 ^ (i % 8) % 256

/-- `n` free bytes, and the state that has taken them. -/
def State.takeBytes (s : State) (n : Nat) : List Nat × State :=
  ((List.range n).map (freeByte s.free), { s with free := s.free + (n + 7) / 8 })

/-! ## Tiles -/

/-- The column and row of a tile (00 R7). -/
def tileX (ti : Nat) : Nat := ti % 72
def tileY (ti : Nat) : Nat := ti / 72
/-- The tile at a column and row. -/
def tileAt (gx gy : Nat) : Nat := gy * 72 + gx
/-- The cluster of a tile (00 R7). -/
def clusterOf (ti : Nat) : Nat := (tileY ti / 4) * 18 + tileX ti / 4
/-- The half of a tile (00 R8). -/
def halfOf (ti : Nat) : Half := if tileX ti ≤ 35 then .west else .east
/-- The half of a stack (00 R7). -/
def stackHalf (st : Nat) : Half := if st < 8 then .west else .east
/-- The tile that shares a second slice port: (gx xor 1, gy) (07 R217). -/
def partner (ti : Nat) : Nat := if tileX ti % 2 = 0 then ti + 1 else ti - 1

/-- The tile's state beside its registers. -/
def State.tile (s : State) (ti : Nat) : Tile := SMap.getD s.tiles ti Tile.init
/-- Replace a tile. -/
def State.setTile (s : State) (ti : Nat) (t : Tile) : State := { s with tiles := SMap.put s.tiles ti t }
/-- Change a tile. -/
def State.modTile (s : State) (ti : Nat) (f : Tile → Tile) : State := s.setTile ti (f (s.tile ti))

/-- Whether a tile exists and is neither fused off, retired, failed at start nor dark (00 R9, 16 R473). -/
def State.usable (s : State) (ti : Nat) : Bool :=
  decide (ti < tileCount) && !s.plan.fused.contains ti && !s.plan.retired.contains ti &&
    !s.plan.failed.contains ti &&
    !s.plan.dark.contains (clusterOf ti)

/-- States of TIL_STATUS (Table 2.13). -/
def tilOff : Nat := 0
def tilReset : Nat := 1
def tilIdle : Nat := 2
def tilRunning : Nat := 3
def tilFaulted : Nat := 4

/-- The state of a tile's sequencer. -/
def State.tilState (s : State) (ti : Nat) : Nat := s.fld (tileReg ti Reg.TIL_STATUS) 2 0
def State.setTilState (s : State) (ti st : Nat) : State := s.setFld (tileReg ti Reg.TIL_STATUS) 2 0 st

/-- The owner of a bank (Table 2.15). -/
def State.bankOwner (s : State) (ti b : Nat) : Nat := s.fld (tileReg ti (Reg.TIL_BANK_OWN + b)) 3 0
/-- The steal permit of a bank. -/
def State.stealPermit (s : State) (ti b : Nat) : Bool := s.fld (tileReg ti (Reg.TIL_BANK_OWN + b)) 8 8 = 1

/-- The bank of a tile SRAM byte address (02, SRAM banks). -/
def bankOf (byteAddr : Nat) : Nat := byteAddr / 0x20000
/-- The bytes of a tile's SRAM. -/
def sramBytes : Nat := 0x180000

/-! ## Packets -/

/-- Put a packet into the mesh. -/
def State.send (s : State) (p : Packet) : State := { s with mesh := s.mesh ++ [p] }
def State.sendAll (s : State) (ps : List Packet) : State := { s with mesh := s.mesh ++ ps }
/-- A memory write that a tile sent. -/
def memWriteOf (p : Packet) (ti : Nat) : Bool :=
  decide (p.ptype = PktType.memWrite) && decide (p.srcKind = 0) && decide (p.srcId = ti)

/-! ## Events -/

/-- The merge key of an entry: a memory page, a row or a bonded layer that the event names (09 R281); kind 0 names
none. -/
def mergeKey (code source p0 p1 p2 : Nat) : Nat × Nat × Nat :=
  match code with
  | 0x0B04 | 0x0B07 => (1, 0, p0 / 2 ^ 13)
  | 0x2608 | 0x2408 => (2, source, p0 / 2 ^ 21)
  | 0x2402 => (3, source, p0)
  | 0x2601 => (4, source, p0 * 2 ^ 20 + p1)
  | 0x2602 => (5, source, p0)
  | 0x2603 => (6 + p0, source, p1 + 0 * p2)
  | _ => (0, 0, 0)

/-- The halves an event names: a tile's, a stack's, or both for a module-level source (09 R282). -/
def eventHalves (code source : Nat) : Bool × Bool :=
  if 0x2000 ≤ code then (decide (halfOf source = .west), decide (halfOf source = .east))
  else if code / 256 = 0x0B then (decide (stackHalf source = .west), decide (stackHalf source = .east))
  else (true, true)

/-- The next slot of LOG (19 R554). -/
def Recorder.slot (r : Recorder) : Nat := r.head - r.first

/-- Bay gives an event the next sequence number and stages it (19 R554); with the last ordinary slot used it writes
LOG_FULL in its place and stops (R555). -/
def Recorder.stage (r : Recorder) (time code source p0 p1 p2 : Nat) : Recorder × Bool × Nat :=
  if r.full then (r, false, 1)
  else if 131071 ≤ r.slot then
    ({ r with staging := r.staging ++ [⟨r.head, time, 0x0301, 0, 1, code, 0, 0⟩], head := r.head + 1, full := true },
      false, 1)
  else if 65536 ≤ r.staging.length then ({ r with overflowed := r.overflowed + 1 }, false, 1)
  else
    ({ r with staging := r.staging ++ [⟨r.head, time, code, source, severityOf code, p0, p1, p2⟩], head := r.head + 1 },
      true, 0)

/-- Put an entry into the pending list: behind every entry of higher or equal severity, in arrival order
(09 R281). -/
def insertEntry (e : PendEntry) : List PendEntry → List PendEntry
  | [] => [e]
  | x :: r => if x.severity < e.severity then e :: x :: r else x :: insertEntry e r

/-- An entry that names the same page, row or layer as a pending one merges into it and raises it (09 R281). -/
def mergeEntry (e : PendEntry) (l : List PendEntry) : Option (List PendEntry) :=
  if e.key.1 = 0 then none
  else
    match l.find? (fun x => x.key = e.key) with
    | none => none
    | some x =>
      if x.severity < e.severity then
        some (insertEntry { x with severity := e.severity } (l.erase x))
      else some l

/-- Calendar time in TAI ns (16 R475). -/
def State.calendar (s : State) : Nat := ((s.now : Int) + s.tb.offset).toNat

/-- Record an event: stage it, and hand one of severity 1-5 to the health supervisor; with 64 entries pending the entry
is lost, 0x0C40 is recorded and the halves it names are due for a drop and a compute reset (09 R279-R282). -/
def recordEvent (s : State) (code source p0 p1 p2 : Nat) : State :=
  let st := s.evt.stage s.calendar code source p0 p1 p2
  let seq := s.evt.head
  let s1 := { s with evt := st.1 }
  let s1 := if st.2.2 = 0 then s1 else s1.count Reg.EVT_LOST st.2.2
  let sev := severityOf code
  if sev = 0 then s1
  else
    let hs := eventHalves code source
    let e : PendEntry := ⟨seq, sev, code, source, hs.1, hs.2, mergeKey code source p0 p1 p2, 0, p0, p1, p2⟩
    match mergeEntry e s1.sup.list with
    | some l => { s1 with sup := { s1.sup with list := l } }
    | none =>
      if s1.sup.list.length < 64 then { s1 with sup := { s1.sup with list := insertEntry e s1.sup.list } }
      else
        let half := if hs.1 && hs.2 then 2 else if hs.1 then 0 else 1
        let st2 := s1.evt.stage s1.calendar 0x0C40 0 seq half s1.sup.list.length
        let s2 := { s1 with
          evt := st2.1
          sup := { s1.sup with
            overflowResetW := s1.sup.overflowResetW || hs.1
            overflowResetE := s1.sup.overflowResetE || hs.2 } }
        let s2 := if st2.2.2 = 0 then s2 else s2.count Reg.EVT_LOST st2.2.2
        (s2.count Reg.BST_ERR_OVERFLOWS 1).setFld Reg.BST_ERR_STATUS 31 31 1

/-- The tile whose router a packet ends at. -/
def routerOf (p : Packet) : Nat := if p.dstKind = 0 then p.dstId else p.srcId

/-- The plane of a packet: request 0, response 1 (02 R76). -/
def planeOf (t : PktType) : Nat :=
  match t with
  | .readData | .writeAck | .syncRelease | .nack => 1
  | _ => 0

/-- Report a flit that failed its CRC (02 R78, 09 R283, R287): the counter, and the event with the direction of the link
(which the packet does not carry, a free value), the plane and the count of the round. -/
def reportCrc (s : State) (p : Packet) : State :=
  let ti := routerOf p
  let f := s.takeFree
  let n := (s.tile ti).nocCrc + 1
  let s := (f.2.count (tileReg ti Reg.INT_NOC_CRC) 1).modTile ti (fun t => { t with nocCrc := n })
  recordEvent s 0x2607 ti (f.1.toNat % 4) (planeOf p.ptype) n

/-- Take a packet out of the mesh as it arrives (a packet from outside is in no list), reporting a bad CRC. -/
def State.arrive (s : State) (p : Packet) : State :=
  let s := { s with mesh := s.mesh.erase p }
  if p.crcBad then reportCrc s p else s

/-! ## Tile faults -/

/-- Record a tile fault in TIL_FAULT: the first since clearing, and the count (02 R84). -/
def noteFault (s : State) (ti cause vaddr addr : Nat) : State :=
  let a := tileReg ti Reg.TIL_FAULT
  if s.fld a 31 31 = 1 then
    let n := s.fld a 23 16
    s.setFld a 23 16 (if n < 255 then n + 1 else 255)
  else
    let s := s.setReg a (setBits (setBits (setBits 0 31 31 1) 23 16 1) 7 0 cause)
    let s := s.setReg64 (tileReg ti Reg.TIL_FAULT_CMD_LO) (vaddr % 2 ^ 48)
    s.setReg64 (tileReg ti Reg.TIL_FAULT_ADDR_LO) (addr % 2 ^ 48)

/-- Clear the array's held results (03 R103). -/
def clearHeld (s : State) (ti : Nat) : State :=
  ((s.modTile ti (fun t => { t with held := none })).setFld (tileReg ti Reg.MXA_STATUS) 17 16 0).setReg
    (tileReg ti Reg.MXA_HELD) 0

/-- Committed in-place work that has started runs to its end (07 R216). -/
def QEntry.committedInPlace (e : QEntry) : Bool :=
  match e.waits with
  | .ibu f _ started => f.inPlace && started
  | _ => false

/-- The number of parts of a batch step's kind; 0 where its model is gone. -/
def State.nparts (s : State) (model kind : Nat) : Nat :=
  match s.client.models.find? (fun m => decide (m.pkg.model = model)) with
  | none => 0
  | some m =>
    match m.pkg.kinds.find? (fun k => decide (k.id = kind)) with
    | none => 0
    | some k => k.parts.length

/-- Sage drops the batch steps that a faulted tile serves in the round and that are not complete; a poisoned command in a
batch step's own segment marks it (10 R316 case note, R311). -/
def State.dropAt (s : State) (ti slot : Nat) (poisoned : Bool) : State :=
  { s with sage := { s.sage with
    batches := s.sage.batches.map (fun b =>
      if b.dropped.isNone && !b.committed && b.need.any (fun x => decide (x.1 = ti)) &&
          !b.complete (s.nparts b.model b.kind) then
        let own := poisoned && b.bases.any (fun x => decide (x.1 = ti) && decide (x.2.1 ≤ slot) && decide (slot < x.2.1 + x.2.2))
        { b with dropped := some (if own then 2 else 1), poisoned := own }
      else b) } }

/-- A tile fault (02 R58, R59): the event, TIL_FAULT, the sequencer FAULTED, the units' commands abandoned, memory
writes not yet accepted discarded, Sage told; no segment remains in the round (DEDUCED, log 37). -/
def tileFault (s : State) (ti cause slot vaddr addr : Nat) : State :=
  let s := noteFault s ti cause vaddr addr
  let s := s.modTile ti (fun t => { t with
    queue := t.queue.filter QEntry.committedInPlace, handover := none, segs := [] })
  let s := clearHeld (s.setFld (tileReg ti Reg.TIL_STATUS) 13 8 0) ti
  let s := { s with
    mesh := s.mesh.filter (fun p => !memWriteOf p ti)
    sage := { s.sage with faults := s.sage.faults ++ [FaultReport.mk ti cause slot] } }
  let s := (s.setTilState ti tilFaulted).dropAt ti slot (decide (cause = 0x0A))
  recordEvent s (0x2000 + cause) ti (vaddr % 2 ^ 32) (vaddr / 2 ^ 32 % 2 ^ 16) (addr % 2 ^ 32)

/-- A consumer on a tile meets poison (09 R270): the counter, the sticky bit, and the first time in a round the
event. -/
def poisonMet (s : State) (ti consumer addr round : Nat) : State :=
  let s := s.count (tileReg ti Reg.INT_POISON_READ) 1
  let s := s.setFld (tileReg ti Reg.INT_STATUS) 29 29 1
  if (s.tile ti).poisonEvent then s
  else
    recordEvent (s.modTile ti (fun t => { t with poisonEvent := true })) 0x2604 ti consumer (addr % 2 ^ 32)
      (round % 2 ^ 32)

/-- The number of the round in progress (10 R317). -/
def State.round (s : State) : Nat := s.reg64 Reg.ADM_ROUND_LO

end Sys2Proof.Machine
end

