-- ==== Sys2Proof/Machine/Mem.lean ====
section
/-! DEFINITION. Reads and writes of the three memories: SRAM words with their SEC-DED code and written flags
(09 R263-R273), bonded granules through slice_map (07 R202), stack granules through stack_map (08 R238) and the
write-combining buffer (R240-R242), and a tile's translation (05 R145). -/
namespace Sys2Proof.Machine

/-! ## SRAM -/

/-- The coded word at word address `w` of a tile; free where nothing has been written (R271). -/
def Tile.raw (t : Tile) (ti w : Nat) : BitVec 72 :=
  match SMap.get? t.sram w with
  | some c => c
  | none => Config.unwrittenWord t.generation ti w

/-- A read of an SRAM word: its outcome and the data delivered. -/
def Tile.readWord (t : Tile) (ti w : Nat) : SramKind × BitVec 64 := sramDecode (t.raw ti w) w

/-- One word write (R268, R269): the poison pattern, a whole word, or a merge into the corrected content; a merge into
content that reads poisoned writes the poison pattern. -/
def Tile.writeWord (t : Tile) (ti : Nat) (x : SramWrite) : Tile :=
  if x.poison then { t with sram := SMap.put t.sram x.word (sramPoison x.word) }
  else if x.mask = BitVec.allOnes 64 then { t with sram := SMap.put t.sram x.word (sramEncode x.data x.word) }
  else
    let r := t.readWord ti x.word
    if r.1.poisoned then { t with sram := SMap.put t.sram x.word (sramPoison x.word) }
    else
      { t with sram := SMap.put t.sram x.word (sramEncode ((r.2 &&& ~~~x.mask) ||| (x.data &&& x.mask)) x.word) }

/-- Whether a list of word writes covers a whole 64-byte line. -/
def coversLine (ws : List SramWrite) (line : Nat) : Bool :=
  (List.range 8).all (fun i => ws.any (fun x =>
    decide (x.word = 8 * line + i) && (x.poison || decide (x.mask = BitVec.allOnes 64))))

/-- Word writes through the bank write port; a write that covers a whole line sets its written flag (R273). -/
def Tile.writeWords (t : Tile) (ti : Nat) (ws : List SramWrite) : Tile :=
  let t1 := ws.foldl (fun t x => t.writeWord ti x) t
  let lines := (ws.map (fun x => x.word / 8)).eraseDups
  { t1 with written := (lines.filter (coversLine ws)).foldl (fun m l => SMap.put m l true) t1.written }

/-- Whether a word's line has been written since its check bits became invalid. -/
def Tile.lineWritten (t : Tile) (w : Nat) : Bool := SMap.getD t.written (w / 8) false

/-- One more corrected word or granule in a row; the count restarts after 24 h (R277). -/
def bumpRow (m : SMap (Nat × Nat)) (row now : Nat) : SMap (Nat × Nat) × Nat :=
  match SMap.get? m row with
  | some (n, since) =>
    if now < since + 86400000000000 then (SMap.put m row (n + 1, since), n + 1)
    else (SMap.put m row (1, now), 1)
  | none => (SMap.put m row (1, now), 1)

/-- What the read of an SRAM word counts and records (Table 9.2, R273, R277). -/
def noteSramRead (s : State) (ti w : Nat) : State :=
  let t := s.tile ti
  match (t.readWord ti w).1 with
  | .dataCorrected _ =>
    let s := s.count (tileReg ti Reg.INT_SRAM_CE) 1
    let bank := w / 16384
    let row := Config.sramRow w
    let b := bumpRow t.rowCe (bank * 2 ^ 32 + row) s.now
    let s := s.setTile ti { t with rowCe := b.1 }
    if b.2 = 4 then recordEvent s 0x2601 ti bank (row % 2 ^ 32) 4 else s
  | .uncorrectable syn =>
    if t.lineWritten w then
      let s := s.count (tileReg ti Reg.INT_SRAM_UE) 1
      recordEvent (s.setFld (tileReg ti Reg.INT_STATUS) 31 31 1) 0x2602 ti (8 * w) syn 0
    else s.count (tileReg ti Reg.INT_SRAM_UNINIT) 1
  | .addressError a =>
    if t.lineWritten w then
      let s := s.count (tileReg ti Reg.INT_ADDR_ERR) 1
      recordEvent (s.setFld (tileReg ti Reg.INT_STATUS) 30 30 1) 0x2603 ti 0 (8 * w) a
    else s.count (tileReg ti Reg.INT_SRAM_UNINIT) 1
  | _ => s

/-- The reads of a list of words, each noted once. -/
def noteSramReads (s : State) (ti : Nat) (ws : List Nat) : State :=
  ws.foldl (fun s w => noteSramRead s ti w) s

/-- `n` bits of a tile's SRAM from a bit address (n at most 64), with poison where a word they touch reads poisoned. -/
def Tile.bits (t : Tile) (ti bit n : Nat) : Nat × Bool :=
  let w := bit / 64
  let off := bit % 64
  let r := t.readWord ti w
  if off + n ≤ 64 then ((r.2.toNat >>> off) % 2 ^ n, r.1.poisoned)
  else
    let r2 := t.readWord ti (w + 1)
    (((r.2.toNat + r2.2.toNat * 2 ^ 64) >>> off) % 2 ^ n, r.1.poisoned || r2.1.poisoned)

/-- A little-endian field of `n` bytes of a tile's SRAM. -/
def Tile.bytes (t : Tile) (ti addr n : Nat) : Nat × Bool :=
  (List.range n).foldr (fun i acc =>
    let b := t.bits ti (8 * (addr + i)) 8
    (b.1 + 256 * acc.1, b.2 || acc.2)) (0, false)

/-! ## Bonded slices -/

/-- slice_map of 07 R202: layer, bank pair, pair-local offset. -/
def sliceMap (o stripe : Nat) : Nat × Nat × Nat :=
  let g := (o >>> 21) % 8
  if (stripe >>> g) % 2 = 0 then ((o >>> 24) % 8, g, o % 2 ^ 21)
  else
    ((o >>> 8) % 8, g, (((o >>> 24) % 8) <<< 18) + (((o >>> 11) % 1024) <<< 8) + o % 256)

/-- Bank, row and column of a pair-local offset (07 R202). -/
def bankRowCol (pair p : Nat) : Nat × Nat × Nat :=
  (2 * pair + (p >>> 8) % 2, p >>> 12, (((p >>> 9) % 8) <<< 8) + p % 256)

/-- The physical granule number of a slice, the low 22 bits of G (Table 9.3). -/
def granuleNo (layer bank row gran : Nat) : Nat := (layer <<< 19) + (bank <<< 15) + (row <<< 6) + gran

/-- The physical granule that holds a pair-local offset. -/
def pairGranule (layer pair p : Nat) : Nat :=
  let b := bankRowCol pair p
  granuleNo layer b.1 b.2.1 (b.2.2 / 32)

/-- The physical granule that holds a slice offset. -/
def sliceGranule (o stripe : Nat) : Nat :=
  let m := sliceMap o stripe
  pairGranule m.1 m.2.1 m.2.2

/-- Layer and bank pair of a physical granule. -/
def granuleLayer (k : Nat) : Nat := k >>> 19
def granulePair (k : Nat) : Nat := ((k >>> 15) % 16) / 2

/-- G of a bonded granule (Table 9.3): the tile whose slice it is, above the physical granule. -/
def bondedG (slice k : Nat) : Nat := (slice <<< 22) + k

/-- The stripe bits of a tile's slice (Table 7.9). -/
def State.stripe (s : State) (ti : Nat) : Nat := s.fld (tileReg ti Reg.BDM_CTRL) 15 8

/-- The tile whose slice a tier names and the mapping it runs in: an adopted slice is the partner's, always in pair
mode (07 R217). -/
def State.sliceOf (s : State) (ti : Nat) (tier : Tier) : Nat × Nat :=
  match tier with
  | .adopted => (partner ti, 0)
  | _ => (ti, s.stripe ti)

/-- The stored granule of a slice; free where nothing has been written (R271). -/
def State.rawGranule (s : State) (slice k : Nat) : BitVec 288 :=
  match SMap.get? (s.tile slice).slice k with
  | some c => c
  | none => Config.unwrittenGranule (s.tile slice).sliceGen slice k

/-- Store a coded granule. -/
def State.putGranule (s : State) (slice k : Nat) (c : BitVec 288) : State :=
  s.modTile slice (fun t => { t with slice := SMap.put t.slice k c })

/-! ## Stack tier -/

/-- The location of a stack-tier address (08 R238). -/
structure StackLoc where
  stack : Nat
  chan : Nat
  pch : Nat
  sid : Nat
  bg : Nat
  bank : Nat
  row : Nat
  col : Nat
deriving DecidableEq, Repr

/-- stack_map of 08 R238. -/
def stackMap (a40 : Nat) : StackLoc :=
  let half := (a40 >>> 39) % 2
  let a := a40 % 2 ^ 39
  let lo := (a >>> 8) % 512
  let f := ((a >>> 17) % 512) ^^^ ((a >>> 26) % 512) ^^^ ((a >>> 35) % 16)
  let pc := lo ^^^ f
  let l := a >>> 17
  { stack := 8 * half + pc % 8
    chan := (pc >>> 3) % 32
    pch := (pc >>> 8) % 2
    sid := (l >>> 6) % 4
    bg := (l >>> 2) % 4
    bank := (l >>> 4) % 4
    row := l >>> 8
    col := (l % 4) * 256 + a % 256 }

/-- G of a stack granule (Table 9.3). -/
def stackG (a40 : Nat) : Nat :=
  let m := stackMap a40
  (m.stack <<< 31) + (m.chan <<< 26) + (m.pch <<< 25) + (m.sid <<< 23) + (m.bg <<< 21) + (m.bank <<< 19) +
    (m.row <<< 5) + m.col / 32

/-- The stored granule that holds a stack-tier address; free where nothing has been written. -/
def State.rawStack (s : State) (k : Nat) : BitVec 288 :=
  match SMap.get? s.stm.mem k with
  | some c => c
  | none => Config.unwrittenGranule s.stm.generation tileCount k

/-- Store a coded stack granule, keyed by address / 32. -/
def State.putStack (s : State) (k : Nat) (c : BitVec 288) : State :=
  { s with stm := { s.stm with mem := SMap.put s.stm.mem k c } }

/-- The write-combining line of a block (address / 256), if one is open. -/
def State.wcbLine (s : State) (block : Nat) : Option WcbLine := s.stm.wcb.find? (fun l => l.block = block)

/-- 32 bits of byte mask to 256 bits of bit mask, from byte `i`. -/
def byteMask (v : Nat) : Nat → BitVec 256
  | 0 => 0
  | n + 1 =>
    let r := byteMask (v / 2) n
    (r <<< 8) ||| (if v % 2 = 1 then 0xFF#256 else 0)

/-! ## A granule of any tier -/

/-- A read of a tier's granule by a tile's request: the code's outcome and the data, before any buffer. -/
def State.readCoded (s : State) (ti : Nat) (tier : Tier) (addr : Nat) : GranKind × BitVec 256 :=
  match tier with
  | .stack => granuleDecode (s.rawStack (addr / 32)) (stackG (addr / 32 * 32))
  | _ =>
    let sl := s.sliceOf ti tier
    let k := sliceGranule addr sl.2
    granuleDecode (s.rawGranule sl.1 k) (bondedG sl.1 k)

/-- The data and poison a reader of a tier's granule receives: the write-combining line's valid bytes first, poison
where either marks it (08 R242). -/
def State.readGran (s : State) (ti : Nat) (tier : Tier) (addr : Nat) : BitVec 256 × Bool :=
  let r := s.readCoded ti tier addr
  match tier with
  | .stack =>
    match s.wcbLine (addr / 256) with
    | none => (r.2, r.1.poisoned)
    | some l =>
      let g := addr / 32 % 8
      let v := (l.valid.toNat >>> (32 * g)) % 2 ^ 32
      let m := byteMask v 32
      let d := l.data.extractLsb' (256 * g) 256
      if l.poison.getLsbD g then (d, true)
      else if v = 2 ^ 32 - 1 then (d, false)
      else ((r.2 &&& ~~~m) ||| (d &&& m), r.1.poisoned)
  | _ => (r.2, r.1.poisoned)

/-- A little-endian field of `n` bytes of a tier from a byte address. -/
def State.memBytes (s : State) (ti : Nat) (tier : Tier) (addr n : Nat) : Nat × Bool :=
  (List.range n).foldr (fun i acc =>
    let a := addr + i
    let g := s.readGran ti tier (a / 32 * 32)
    ((g.1.toNat >>> (8 * (a % 32))) % 256 + 256 * acc.1, g.2 || acc.2)) (0, false)

/-- The spares a bond takes: two for a strobe pair (07 R218; bonds in the order of Table 7.1: data 0-255, check 256-287,
strobe 288-303, spare 304-319). -/
def sparesFor (bond : Nat) : Nat := if 288 ≤ bond ∧ bond < 304 then 2 else 1

/-- The spares that a layer port has left once its suspect bonds are replaced. -/
def State.sparesLeft (s : State) (slice layer : Nat) : Nat :=
  let due := (((s.tile slice).bondSuspect.filter (fun x => decide (x.1 = layer))).map (fun x => sparesFor x.2)).foldl (· + ·) 0
  16 - (s.fld (tileReg slice (Reg.BDM_BOND + layer)) 20 16 + due)

/-- Add to the error count of a bond (07 R218, 18 R522): over the last 24 h; at the threshold the bond is suspect, and
with no spare left its layer is failing, with event 0x2402 (R219). -/
def countBond (s : State) (slice layer bond n : Nat) : State :=
  let t := s.tile slice
  let k := layer * 512 + bond
  let l := (SMap.getD t.bondErr k []).filter (fun x => decide (s.now < x.1 + 86400000000000)) ++ [(s.now, n)]
  let sum := (l.map (·.2)).foldl (· + ·) 0
  let s := s.setTile slice { t with bondErr := SMap.put t.bondErr k l }
  if sum < s.fld Reg.BST_THR_BOND 7 0 ∨ t.bondSuspect.contains (layer, bond) ∨ 304 ≤ bond then s
  else if sparesFor bond ≤ s.sparesLeft slice layer then
    let a := tileReg slice (Reg.BDM_BOND + layer)
    (s.modTile slice (fun t => { t with bondSuspect := t.bondSuspect ++ [(layer, bond)] })).setFld a 7 0 (min 255 (s.fld a 7 0 + 1))
  else
    recordEvent (s.modTile slice (fun t => { t with
      failing := t.failing ++ ((List.range 8).map (fun g => layer * 8 + g)).filter (fun p => !t.failing.contains p) })) 0x2402 slice layer bond sum

/-- The bonds of a corrected granule: one bond carries one bit of each beat (07 R200, R201). -/
def correctedBonds (c : GranKind × BitVec 8) (syn : BitVec 32) : List Nat :=
  match c.1 with
  | .dataCorrected i => ((List.range 4).filter (fun j => (phiInv c.2).testBit j)).map (fun j => 4 * i + j)
  | .checkCorrected => ((List.range 32).filter (fun j => syn.getLsbD j)).map (fun j => 256 + j)
  | _ => []

/-- What a coded read of a bonded granule counts and records at the controller (07 R207, R218, 09 R267, R284, R287); an
address error is no uncorrectable granule (log 39). -/
def noteBondedRead (s : State) (ti : Nat) (tier : Tier) (addr : Nat) : State :=
  let sl := s.sliceOf ti tier
  let k := sliceGranule addr sl.2
  let c := s.rawGranule sl.1 k
  let syn := (c.extractLsb' 256 32) ^^^ granuleCheck (c.extractLsb' 0 256) (bondedG sl.1 k) false
  match (granuleClass syn).1 with
  | .checkCorrected | .dataCorrected _ =>
    let s := s.count (tileReg ti Reg.BDM_CE_COUNT) 1
    let s := (correctedBonds (granuleClass syn) syn).foldl (fun s b => countBond s sl.1 (granuleLayer k) b 1) s
    let row := k >>> 6
    let b := bumpRow (s.tile sl.1).rowCe (2 ^ 48 + row) s.now
    let s := s.modTile sl.1 (fun t => { t with rowCe := b.1 })
    if b.2 = 8 then
      s.modTile sl.1 (fun t => { t with pendingSpares := t.pendingSpares ++ [(1, granuleLayer k * 16 + (k >>> 15) % 16, (k >>> 6) % 512)] })
    else s
  | .uncorrectable =>
    let s := s.count (tileReg ti Reg.BDM_UE_COUNT) 1
    recordEvent (s.setFld (tileReg ti Reg.INT_STATUS) 31 31 1) 0x2608 ti (addr / 32 * 32) syn.toNat 0
  | .addressError i =>
    let s := s.count (tileReg ti Reg.INT_ADDR_ERR) 1
    recordEvent (s.setFld (tileReg ti Reg.INT_STATUS) 30 30 1) 0x2603 ti 1 (addr / 32 * 32) i
  | _ => s

/-- A row of a stack is scheduled for soft repair (08 R250). -/
def State.scheduleRepair (s : State) (m : StackLoc) : State :=
  { s with stm := { s.stm with repairs := s.stm.repairs ++ [(m.stack, m.chan * 2 + m.pch, m.sid * 16 + m.bg * 4 + m.bank, m.row)] } }

/-- What a coded read of a stack granule for a tile counts and records (08 R249, R250, 09 R267, R283). -/
def noteStackRead (s : State) (ti addr : Nat) : State :=
  let m := stackMap addr
  match (granuleDecode (s.rawStack (addr / 32)) (stackG (addr / 32 * 32))).1 with
  | .checkCorrected | .dataCorrected _ =>
    let s := s.count (Reg.STM_CE_COUNT + m.stack) 1
    let row := (stackG (addr / 32 * 32)) >>> 5
    let b := bumpRow s.stm.rowCe row s.now
    let s := { s with stm := { s.stm with rowCe := b.1 } }
    if b.2 = 16 then s.scheduleRepair m else s
  | .uncorrectable =>
    let s := s.count (Reg.STM_UE_COUNT + m.stack) 1
    recordEvent s 0x0B04 m.stack (addr / 256) (m.chan * 2 + m.pch) 0
  | .addressError i =>
    let s := { s with stm := { s.stm with suspects := s.stm.suspects ++ [addr] } }
    recordEvent (s.count (tileReg ti Reg.INT_ADDR_ERR) 1) 0x2603 ti 2 (addr % 2 ^ 32) i
  | _ => s

/-- The read of a granule with what it counts and records. -/
def noteRead (s : State) (ti : Nat) (tier : Tier) (addr : Nat) : State :=
  match tier with
  | .stack => noteStackRead s ti addr
  | _ => noteBondedRead s ti tier addr

/-- Write a granule of a slice: whole, poison, or read, corrected and merged (07 R206, 09 R269); a merge into content
that reads poisoned writes the poison pattern and records 0x2408. -/
def writeBonded (s : State) (ti : Nat) (x : MemWrite) : State :=
  let sl := s.sliceOf ti x.tier
  let k := sliceGranule x.addr sl.2
  let g := bondedG sl.1 k
  if x.poison then s.putGranule sl.1 k (granulePoison g)
  else if x.mask = BitVec.allOnes 256 then s.putGranule sl.1 k (granuleEncode x.data g)
  else
    let s1 := (noteBondedRead s ti x.tier x.addr).count (tileReg ti Reg.BDM_RMW_COUNT) 1
    let r := granuleDecode (s.rawGranule sl.1 k) g
    if r.1.poisoned then
      recordEvent (s1.putGranule sl.1 k (granulePoison g)) 0x2408 ti (x.addr / 32 * 32) 0 0
    else s1.putGranule sl.1 k (granuleEncode ((r.2 &&& ~~~x.mask) ||| (x.data &&& x.mask)) g)

/-- Write a granule of a stack, past the write-combining buffer: whole or poison, or merged with the count and the
event of 08 R241. -/
def writeStackGran (s : State) (ti addr : Nat) (data mask : BitVec 256) (poison : Bool) : State :=
  let k := addr / 32
  let g := stackG (k * 32)
  if poison then s.putStack k (granulePoison g)
  else if mask = BitVec.allOnes 256 then s.putStack k (granuleEncode data g)
  else
    let s1 := (noteStackRead s ti addr).count Reg.STM_WCB_RMW 1
    let r := granuleDecode (s.rawStack k) g
    if r.1.poisoned then
      recordEvent (s1.putStack k (granulePoison g)) 0x0B07 (stackMap addr).stack (addr / 256) (addr / 32 % 8) 0
    else s1.putStack k (granuleEncode ((r.2 &&& ~~~mask) ||| (data &&& mask)) g)

/-! ## Translation -/

/-- A decoded translation (05 R145): tier, byte address of the page in its tier, permissions. -/
structure Xlt where
  tier : Tier
  base : Nat
  read : Bool
  write : Bool
deriving DecidableEq, Repr

/-- Tile fault causes of Table 2.6. -/
def cIllegalClass : Nat := 0x01
def cReserved : Nat := 0x02
def cFieldRange : Nat := 0x03
def cDescriptor : Nat := 0x04
def cBankOwner : Nat := 0x05
def cStealDenied : Nat := 0x06
def cSendRefused : Nat := 0x07
def cTranslation : Nat := 0x08
def cProtection : Nat := 0x09
def cPoisonedCmd : Nat := 0x0A
def cLoadShape : Nat := 0x0B

/-- The slice size in bytes (07 R202). -/
def sliceBytes : Nat := 0x8000000

/-- Where a structure at a table offset of the tile's own tables lies: the slice, or the stack-tier home page once the
slice is retired (07 R220); none where the base or the offset falls outside. -/
def State.tableAddr (s : State) (ti base off : Nat) : Option (Tier × Nat) :=
  if s.fld (tileReg ti Reg.BDM_CTRL) 0 0 = 1 then
    if base ≥ 0x200000 ∨ base + off ≥ 0x200000 then none
    else some (.stack, s.fld (tileReg ti Reg.BDM_HOME_PPN) 18 0 * 0x200000 + base + off)
  else if base + off + 8 > sliceBytes then none
  else some (.own, base + off)

/-- Where the translation entry of a page lies; none where the space has no table, the page lies beyond LEN or the entry
beyond the table's memory (05 R136, R145, R165). -/
def State.xltAt (s : State) (ti space page : Nat) : Option (Tier × Nat) :=
  let len := s.reg (tileReg ti (Reg.LAY_XLT_LEN + space))
  if getBits len 31 31 = 0 ∨ getBits len 19 0 ≤ page then none
  else s.tableAddr ti (s.fld (tileReg ti (Reg.LAY_XLT_BASE + space)) 26 12 * 4096) (8 * page)

/-- The translation entry of a page as the tile reads it, and whether it reads poisoned. -/
def State.xltRead (s : State) (ti space page : Nat) : Option (BitVec 64 × Bool) :=
  match s.xltAt ti space page with
  | none => none
  | some (tier, a) =>
    let v := s.memBytes ti tier a 8
    some (BitVec.ofNat 64 v.1, v.2)

/-- Whether a half's stack tier answers tile requests: none of its stacks is OFFLINE (08 R236) and it is not fenced
(13 R407). -/
def State.stackHalfUp (s : State) (h : Half) : Bool :=
  (List.range 8).all (fun i =>
    s.fld (Reg.STM_STACK_STATUS + (match h with | .west => i | .east => 8 + i)) 2 0 ≠ 4) &&
  (match h with
   | .west => s.fld Reg.HLK_STATUS 28 28 = 0
   | .east => s.fld Reg.HLK_STATUS 29 29 = 0)

/-- The meaning of an entry's 64 bits (Table 5.4); none is a TRANSLATION fault. -/
def State.xltDecode (s : State) (ti : Nat) (e : BitVec 64) (poison : Bool) : Option Xlt :=
  let target := (e.toNat >>> 58) % 8
  let ppn := e.toNat % 2 ^ 20
  let rd := e.getLsbD 62
  let wr := e.getLsbD 61
  if poison ∨ e.getLsbD 63 = false ∨ (e.toNat >>> 20) % 2 ^ 38 ≠ 0 then none
  else if target = 0 then (if 63 < ppn then none else some ⟨.own, ppn * 0x200000, rd, wr⟩)
  else if target = 1 then
    (if 63 < ppn ∨ s.fld (tileReg ti Reg.BDM_STATUS) 14 14 = 0 then none else some ⟨.adopted, ppn * 0x200000, rd, wr⟩)
  else if target = 2 then
    (if 524287 < ppn then none
     else if s.stackHalfUp (if ppn < 262144 then .west else .east) then some ⟨.stack, ppn * 0x200000, rd, wr⟩
     else none)
  else none

/-- Bring the entries of pages into the translation cache, oldest out beyond 64 (05 R147; the order of replacement is
a DESIGN CHOICE, log 6). The read of the table counts as any read of its granule, and a poisoned entry is a consumption of
poison (Table 9.4). -/
def cachePage (s : State) (ti space page : Nat) : State :=
  let t := s.tile ti
  if t.xlt.any (fun x => decide (x.space = space) && decide (x.page = page)) then s
  else
    match s.xltRead ti space page with
    | none => s
    | some (bits, poison) =>
      let l := t.xlt ++ [⟨space, page, bits, poison⟩]
      let s := s.setTile ti { t with xlt := if 64 < l.length then l.drop 1 else l }
      let s := match s.xltAt ti space page with
        | some (tier, a) => noteRead s ti tier a
        | none => s
      if poison then poisonMet s ti 3 (page * 0x200000) s.round else s

/-- The translation of a virtual address of a space: the cached entry, or the table's. -/
def State.translate (s : State) (ti space vaddr : Nat) : Option Xlt :=
  let page := vaddr / 0x200000
  match (s.tile ti).xlt.find? (fun x => decide (x.space = space) && decide (x.page = page)) with
  | some x => s.xltDecode ti x.bits x.poison
  | none =>
    match s.xltRead ti space page with
    | none => none
    | some (b, p) => s.xltDecode ti b p

/-- The SRAM window (Table 5.1). -/
def sramWindow : Nat := 0xFFFFFF000000
/-- Whether an address lies in the tile's SRAM window. -/
def inWindow (a : Nat) : Bool := decide (sramWindow ≤ a) && decide (a < sramWindow + sramBytes)

/-- Where an in-bounds address goes: an SRAM byte, a byte of a tier, or a fault cause (05 R136, R143). -/
inductive Place where
  | sram (byte : Nat)
  | mem (tier : Tier) (addr : Nat)
  | bad (cause : Nat)
deriving DecidableEq, Repr

/-- Resolve a virtual address for a read or a write. -/
def State.place (s : State) (ti space vaddr : Nat) (write : Bool) : Place :=
  if inWindow vaddr then .sram (vaddr - sramWindow)
  else
    match s.translate ti space vaddr with
    | none => .bad cTranslation
    | some x =>
      if (if write then x.write else x.read) then .mem x.tier (x.base + vaddr % 0x200000)
      else .bad cProtection

end Sys2Proof.Machine
end

