-- ==== Sys2Proof/Machine/Operands.lean ====
section
/-! DEFINITION. The operand forms of tile commands: header and body fields with the checks of decode (02 R50-R57),
tensor descriptors with their validity (05 R137-R139), address generation (R140) and element reads (R141, R153). -/
namespace Sys2Proof.Machine

/-- `n` bytes of a command from an offset, little-endian (02 R50). -/
def cf (c : BitVec 512) (off n : Nat) : Nat := (c.toNat >>> (8 * off)) % 2 ^ (8 * n)

/-- The classes of Table 2.3. -/
def classCodes : List Nat :=
  [0x01, 0x02, 0x03, 0x04, 0x05, 0x06, 0x07, 0x08, 0x09, 0x0A, 0x0B, 0x0C, 0x0D, 0x0E, 0x0F, 0x10, 0x1F]

def cClass (c : BitVec 512) : Nat := cf c 0 1
def cMode (c : BitVec 512) : Nat := cf c 1 1
def cFlags (c : BitVec 512) : Nat := cf c 2 2
def cWait (c : BitVec 512) : Nat := cf c 4 2
def cSet (c : BitVec 512) : Nat := cf c 6 1
def cSlot (c : BitVec 512) : Nat := cf c 7 1
/-- Bit `i` of a number. -/
def bitOf (n i : Nat) : Bool := (n >>> i) % 2 = 1

def flSideband (f : Nat) : Bool := bitOf f 0
def flCommit (f : Nat) : Bool := bitOf f 1
def flFence (f : Nat) : Bool := bitOf f 2
def flConsume (f : Nat) : Bool := bitOf f 3

/-- Whether bytes off..off+n-1 are all zero. -/
def zeroBytes (c : BitVec 512) (off n : Nat) : Bool := cf c off n = 0

/-- The classes that carry a store block (02 R55). -/
def hasStore (cls : Nat) : Bool := [0x01, 0x02, 0x04, 0x07, 0x08, 0x0A].contains cls

/-- The mode bits that a class defines (Table 2.5). -/
def modeMask (cls : Nat) : Nat :=
  match cls with
  | 0x01 => 0x0F
  | 0x02 => 0x0D
  | 0x03 => 0x03
  | 0x05 | 0x06 | 0x0D | 0x0E | 0x0F => 0x01
  | 0x09 => 0x07
  | _ => 0

/-- The reserved bytes of a class's body, as (offset, size) (Table 2.5). -/
def reservedBytes (cls : Nat) : List (Nat × Nat) :=
  match cls with
  | 0x01 => [(22, 26)]
  | 0x02 => [(26, 22)]
  | 0x03 => [(12, 52)]
  | 0x04 => [(10, 38)]
  | 0x05 => [(15, 49)]
  | 0x06 => [(16, 48)]
  | 0x07 => [(9, 1), (24, 24)]
  | 0x08 => [(12, 36)]
  | 0x09 => [(36, 28)]
  | 0x0A => [(20, 28)]
  | 0x0B => [(24, 40)]
  | 0x0C => [(11, 1), (54, 10)]
  | 0x0D => [(15, 1), (20, 44)]
  | 0x0E => [(13, 3), (20, 44)]
  | 0x0F => [(16, 48)]
  | 0x10 => [(12, 52)]
  | _ => [(8, 56)]

/-- The reserved bits within a class's 16-bit and 8-bit fields, as (offset, size, defined bits) (Table 2.5). -/
def partBits (cls : Nat) : List (Nat × Nat × Nat) :=
  match cls with
  | 0x08 => [(9, 1, 0x3F)]
  | 0x09 => [(12, 2, 0x3FFF)]
  | 0x0A => [(10, 2, 0x3FFF)]
  | 0x0B => [(12, 2, 0x3FFF)]
  | 0x0D => [(8, 2, 0x0FFF), (10, 2, 0x3FFF)]
  | 0x0E => [(8, 2, 0x0FFF), (10, 2, 0x3FFF)]
  | 0x0F => [(12, 2, 0x0FFF), (14, 2, 0x3FFF)]
  | 0x10 => [(8, 2, 0x0FFF), (10, 1, 0x0F), (11, 1, 0x03)]
  | _ => []

/-- An array command that does not drain: its store block must be all zero (02 R57). -/
def noDrain (c : BitVec 512) : Bool := (cClass c = 0x01 || cClass c = 0x02) && !bitOf (cMode c) 2

/-- A nonzero bit or byte that the tables mark reserved as a whole (02 R52). The reserved part of an undrained store
block falls to R57 instead. -/
def reservedNonzero (c : BitVec 512) : Bool :=
  let cls := cClass c
  decide (cMode c &&& (255 ^^^ modeMask cls) ≠ 0) || decide (cFlags c ≥ 16) || decide ((cSet c >>> 4) % 8 ≠ 0) ||
  (reservedBytes cls).any (fun r => !zeroBytes c r.1 r.2) ||
  (partBits cls).any (fun r => decide (cf c r.1 r.2.1 &&& ((2 ^ (8 * r.2.1) - 1) ^^^ r.2.2) ≠ 0)) ||
  (hasStore cls && !noDrain c && (decide (cf c 52 4 ≥ 2 ^ 18) || !zeroBytes c 58 6))

/-- The six PERM fields, or the identity for 0 (05 R149). -/
def permOf (p : Nat) : List Nat :=
  if p = 0 then [0, 1, 2, 3, 4, 5] else (List.range 6).map (fun i => (p >>> (3 * i)) % 8)

/-- PERM names each of the dimensions 0-5 exactly once. -/
def permOk (p : Nat) : Bool := (List.range 6).all (fun d => (permOf p).contains d)

/-- The ranges of a store block (Table 2.4). -/
def storeBlockOk (c : BitVec 512) : Bool :=
  decide (cf c 50 1 ≤ 6) && decide (cf c 51 1 ≤ 1) && permOk (cf c 52 4)

/-- How many sources an ELTWISE operation takes; 0 for a reserved code (Table 2.9). -/
def eltSources (op : Nat) : Nat :=
  match op with
  | 0x01 | 0x02 | 0x03 | 0x05 | 0x06 => 2
  | 0x04 => 3
  | 0x07 | 0x08 | 0x09 | 0x0A | 0x0B | 0x0C | 0x0D | 0x0E => 1
  | _ => 0

def inRange (x lo hi : Nat) : Bool := decide (lo ≤ x) && decide (x ≤ hi)

/-- IBU operations of Table 7.3. -/
def ibuOps : List Nat :=
  [0x01, 0x02, 0x03, 0x08, 0x09, 0x0C, 0x10, 0x11, 0x12, 0x13, 0x18, 0x20, 0x21, 0x22, 0x23, 0x24, 0x25, 0x30]

/-- The passes of a MATMUL (03 R94). -/
def matPasses (m n : Nat) : Nat := ((m + 95) / 96) * ((n + 95) / 96)

/-- A command that holds or continues results runs in exactly one pass (03 R102). -/
def onePassOk (c : BitVec 512) (passes : Nat) : Bool :=
  (bitOf (cMode c) 2 && !bitOf (cMode c) 3) || decide (passes = 1)

/-- Every field in its range and every value among those the tables give (02 R52, Tables 2.4, 2.5; R57; 03 R102, R109;
R70; 06 R177, R179; 07 R210). -/
def fieldsOk (c : BitVec 512) : Bool :=
  let cls := cClass c
  let store := if noDrain c then zeroBytes c 48 16 else storeBlockOk c
  match cls with
  | 0x01 =>
    store && inRange (cf c 8 2) 1 768 && inRange (cf c 10 2) 1 768 && decide (1 ≤ cf c 12 4) &&
      (bitOf (cMode c) 2 || decide (cf c 20 2 = 0xFFFF)) && onePassOk c (matPasses (cf c 8 2) (cf c 10 2))
  | 0x02 =>
    store && inRange (cf c 8 1) 1 9 && inRange (cf c 9 1) 1 9 && inRange (cf c 10 1) 1 8 && inRange (cf c 11 1) 1 8 &&
      inRange (cf c 12 1) 1 8 && inRange (cf c 13 1) 1 8 && decide (cf c 14 1 ≤ 8) && decide (cf c 15 1 ≤ 8) &&
      decide (cf c 16 1 ≤ 8) && decide (cf c 17 1 ≤ 8) && decide (1 ≤ cf c 24 2) &&
      (bitOf (cMode c) 2 || decide (cf c 22 2 = 0xFFFF)) &&
      (!bitOf (cMode c) 0 || (decide (cf c 11 1 = 1) && decide (cf c 13 1 = 1)))
  | 0x04 => store
  | 0x05 => decide (cf c 14 1 ≤ 5)
  | 0x06 => decide (cf c 14 1 ≤ 5) && decide (cf c 15 1 ≤ 2)
  | 0x07 =>
    let n := eltSources (cf c 8 1)
    store && decide (1 ≤ n) &&
      (List.range 3).all (fun i => decide (cf c (10 + 2 * i) 2 ≠ 0xFFFF) == decide (i < n))
  | 0x08 => store && inRange (cf c 8 1) 1 5 && decide (cf c 9 1 % 64 ≠ 0)
  | 0x09 =>
    let retrieval := bitOf (cMode c) 2
    let sc := ofFP32 (cf c 28 4)
    inRange (cf c 20 2) 1 768 &&
      (if retrieval then inRange (cf c 22 2) 1 256 else decide (cf c 22 2 = 0)) &&
      (if bitOf (cMode c) 1 then decide (1 ≤ cf c 24 4) else decide (cf c 24 4 = 0)) &&
      (match sc with
       | .fin a m _ => !a && decide (m ≠ 0)
       | _ => false) &&
      decide (cf c 32 4 % 64 = 0)
  | 0x0A => store && decide (cf c 16 4 % 64 = 0)
  | 0x0B => inRange (cf c 18 2) 1 64
  | 0x0C => ibuOps.contains (cf c 8 1) && decide (cf c 9 1 ≤ 7) && decide (cf c 10 1 ≠ 0)
  | 0x0D =>
    decide (cf c 14 1 ≤ 15) && decide (cf c 16 4 % 64 = 0) && (bitOf (cMode c) 0 || decide (cf c 10 2 = 0))
  | 0x0E =>
    decide (cf c 12 1 ≤ 15) && decide (cf c 16 4 % 64 = 0) && inRange (cf c 16 4) 64 16777216 &&
      (bitOf (cMode c) 0 || decide (cf c 10 2 = 0))
  | 0x0F => inRange (cf c 10 2) 2 4096 && (bitOf (cMode c) 0 || decide (cf c 14 2 = 0))
  | 0x10 => decide (cf c 8 2 ≠ 0) && decide (cf c 10 1 ≤ 8)
  | _ => true

/-- What decode finds wrong with a command (02 R52); a reserved bit is named before a range (log 5). -/
def decodeCause (c : BitVec 512) : Option Nat :=
  if !classCodes.contains (cClass c) then some cIllegalClass
  else if reservedNonzero c then some cReserved
  else if !fieldsOk c then some cFieldRange
  else none

/-! ## Faults of a command -/

/-- A fault that a command's checks find: cause, data address, and the consumer row of Table 9.4 where poison was met. -/
structure Flt where
  cause : Nat
  addr : Nat
  consumer : Option Nat
deriving DecidableEq, Repr

/-- A fault with no data address. -/
def flt {α : Type} (cause : Nat) : Except Flt α := .error ⟨cause, 0, none⟩
/-- A fault at a data address. -/
def fltAt {α : Type} (cause addr : Nat) : Except Flt α := .error ⟨cause, addr, none⟩
/-- Go on only where a condition holds. -/
def need (b : Bool) (cause : Nat) : Except Flt Unit := if b then .ok () else flt cause

/-! ## Descriptors -/

/-- One dimension of a descriptor (Table 5.2). -/
structure Dim where
  size : Nat
  stride : Int
  start : Int
  bound : Nat
deriving DecidableEq, Repr

/-- A tensor descriptor: the index it was read from, and six dimensions, innermost first (Table 5.2). -/
structure Desc where
  di : Nat
  fmt : Fmt
  ndim : Nat
  blockDim : Nat
  scaleLink : Nat
  base : Nat
  fill : Nat
  dims : List Dim
deriving DecidableEq, Repr

/-- The dimension that an index beyond NDIM acts as (05 R138). -/
def Dim.unit : Dim := ⟨1, 0, 0, 1⟩

def Desc.dim (d : Desc) (i : Nat) : Dim := (d.dims[i]?).getD Dim.unit
def Desc.size (d : Desc) (i : Nat) : Nat := (d.dim i).size
/-- The sizes of the six dimensions. -/
def Desc.shape (d : Desc) : List Nat := (List.range 6).map d.size
/-- Elements visited. -/
def Desc.count (d : Desc) : Nat := d.shape.foldl (· * ·) 1

/-- A field of a descriptor slot read as one number. -/
def sf (v off n : Nat) : Nat := (v >>> (8 * off)) % 2 ^ (8 * n)

/-- Byte span of a dimension's in-bounds coordinates: the smallest and the largest; none when there is none
(05 R140). -/
def Dim.span (d : Dim) : Option (Int × Int) :=
  let lo := if d.start < 0 then 0 else d.start
  let e := d.start + (d.size : Int)
  let hi := (if e < (d.bound : Int) then e else (d.bound : Int)) - 1
  if lo ≤ hi then some (lo, hi) else none

/-- The footprint of a descriptor: first and last byte address, none for a view without in-bounds elements
(05 R140). -/
def Desc.footprint (d : Desc) : Option (Int × Int) :=
  let w := (d.fmt.width : Int)
  match (d.dim 0).span with
  | none => none
  | some (l0, h0) =>
    let r := (List.range 5).foldl (fun (acc : Option (Int × Int)) i =>
      match acc, (d.dim (i + 1)).span with
      | some (lo, hi), some (l, h) =>
        let a := l * (d.dim (i + 1)).stride
        let b := h * (d.dim (i + 1)).stride
        some (lo + min a b, hi + max a b)
      | _, _ => none) (some (0, 0))
    match r with
    | none => none
    | some (lo, hi) => some ((d.base : Int) + lo + l0 * w / 8, (d.base : Int) + hi + (h0 * w + w - 1) / 8)

/-- Table 5.3 on the raw slot, but for what a command itself accepts. -/
def slotValid (v : Nat) : Option Desc :=
  match Fmt.ofCode (sf v 0 1) with
  | none => none
  | some f =>
    let ndim := sf v 1 1
    let bd := sf v 2 1
    let link := sf v 4 2
    let base := sf v 8 6
    let fill := sf v 16 4
    let raw := (List.range 6).map (fun d =>
      (⟨sf v (20 + 18 * d) 4, toSigned 48 (sf v (24 + 18 * d) 6), toSigned 32 (sf v (30 + 18 * d) 4),
        sf v (34 + 18 * d) 4⟩ : Dim))
    let used := raw.take ndim
    let beyond := raw.drop ndim
    let d : Desc := ⟨0, f, ndim, bd, link, base, fill, used ++ beyond.map (fun _ => Dim.unit)⟩
    let s0 := (d.dim 0).start
    let w := f.width
    let ok :=
      inRange ndim 1 6 && used.all (fun x => decide (1 ≤ x.size)) &&
      beyond.all (fun x => decide (x = ⟨0, 0, 0, 0⟩)) &&
      decide ((d.dim 0).stride = 0) && (used.drop 1).all (fun x => decide (x.stride % 64 = 0)) &&
      decide (((base : Int) + (if s0 < 0 then 0 else s0) * (w : Int) / 8) % 64 = 0) &&
      (decide (w ≠ 6) || decide (s0 % 4 = 0)) && (decide (w ≠ 4) || decide (s0 % 2 = 0)) &&
      (if f.isMX then decide (bd < ndim) else decide (bd = 0) && decide (link = 0xFFFF)) &&
      decide (fill < 2 ^ w) &&
      decide (sf v 3 1 = 0) && decide (sf v 6 2 = 0) && decide (sf v 14 2 = 0) &&
      (if inWindow base then
        (match d.footprint with
         | none => true
         | some (lo, hi) => decide ((sramWindow : Int) ≤ lo) && decide (hi < (sramWindow : Int) + (sramBytes : Int)))
       else true)
    if ok then some d else none

/-- Read a descriptor at issue (02 R54, 05 R139): the index in range, the slot in a bank that SEQ owns, no poison,
valid. The fault's address is the slot's byte address (DEDUCED, log 38). -/
def readDesc (s : State) (ti di : Nat) : Except Flt Desc :=
  if 0x2FFF < di then fltAt cDescriptor (di * 128)
  else if s.bankOwner ti (bankOf (di * 128)) ≠ 0 then fltAt cDescriptor (di * 128)
  else
    let r := (s.tile ti).bytes ti (di * 128) 128
    if r.2 then .error ⟨cDescriptor, di * 128, some 2⟩
    else
      match slotValid r.1 with
      | some d => .ok { d with di := di }
      | none => fltAt cDescriptor (di * 128)

/-- The DESCRIPTOR fault of a command that a descriptor does not fit: at the byte address of its slot (log 38). -/
def badDesc {α : Type} (d : Desc) : Except Flt α := fltAt cDescriptor (d.di * 128)

/-- The word addresses of a descriptor slot, which its reading touches. -/
def slotWords (di : Nat) : List Nat := if 0x2FFF < di then [] else (List.range 16).map (fun i => di * 16 + i)

/-! ## Addresses and elements -/

/-- The coordinate of an index along a dimension. -/
def Desc.coord (d : Desc) (idx : List Nat) (k : Nat) : Int := (d.dim k).start + ((idx[k]?).getD 0 : Nat)

/-- Whether an element is in bounds (05 R140). -/
def Desc.inb (d : Desc) (idx : List Nat) : Bool :=
  (List.range 6).all (fun k => decide (0 ≤ d.coord idx k) && decide (d.coord idx k < ((d.dim k).bound : Int)))

/-- The bit address of an element: byte address times eight and the bit within the byte (05 R140, 04 R120). -/
def Desc.bitAddr (d : Desc) (idx : List Nat) : Int :=
  let off := (List.range 5).foldl (fun (o : Int) k => o + d.coord idx (k + 1) * (d.dim (k + 1)).stride) 0
  8 * ((d.base : Int) + off) + d.coord idx 0 * (d.fmt.width : Int)

/-- All indices of a shape in descriptor order: dimension 0 fastest. -/
def indices : List Nat → List (List Nat)
  | [] => [[]]
  | n :: r => (indices r).flatMap (fun t => (List.range n).map (fun i => i :: t))

/-- The position of an index in descriptor order. -/
def linear : List Nat → List Nat → Nat
  | n :: r, i :: t => i + n * linear r t
  | _, _ => 0

/-- The raw code of an element: the fill value where it is out of bounds, never poisoned (05 R141); otherwise the bits
at its place, read by owner `owner` in SRAM (02 R60) or through the translation in memory (05 R143). -/
def readCode (s : State) (ti space owner : Nat) (d : Desc) (idx : List Nat) : Except Flt (Nat × Bool) :=
  if !d.inb idx then .ok (d.fill, false)
  else
    let b := d.bitAddr idx
    let va := (b / 8).toNat
    if b < 0 then fltAt cTranslation 0
    else
      match s.place ti space va false with
      | .bad cause => fltAt cause va
      | .sram byte =>
        if s.bankOwner ti (bankOf byte) ≠ owner then fltAt cBankOwner va
        else .ok ((s.tile ti).bits ti (8 * byte + (b % 8).toNat) d.fmt.width)
      | .mem tier a =>
        let n := (d.fmt.width + 7 + (b % 8).toNat) / 8
        let r := s.memBytes ti tier a n
        .ok ((r.1 >>> (b % 8).toNat) % 2 ^ d.fmt.width, r.2)

/-- The index of an element's block scale (05 R152, R153). -/
def scaleIdx (d : Desc) (idx : List Nat) : List Nat :=
  (List.range 6).map (fun k => if k = d.blockDim then (idx[k]?).getD 0 / 32 else (idx[k]?).getD 0)

/-- An operand: its descriptor and, for an MX format, the descriptor of its scales (05 R153). -/
structure Operand where
  desc : Desc
  scale : Option Desc
deriving DecidableEq, Repr

/-- An element of an operand as a product takes it: the value with its block scale, the scale exponent (0 for an
element without scales or a fill element, 04 R121), poison. -/
structure Elem where
  val : Num
  sexp : Int
  poison : Bool
deriving DecidableEq, Repr

/-- Read an element with its scale (04 R121, R135; 05 R141, R153). -/
def readElem (s : State) (ti space owner : Nat) (o : Operand) (idx : List Nat) : Except Flt Elem :=
  match readCode s ti space owner o.desc idx with
  | .error e => .error e
  | .ok (c, p) =>
    if !o.desc.inb idx then .ok ⟨o.desc.fmt.value c, 0, false⟩
    else
      match o.scale with
      | none => .ok ⟨o.desc.fmt.value c, 0, p⟩
      | some sd =>
        match readCode s ti space owner sd (scaleIdx o.desc idx) with
        | .error e => .error e
        | .ok (sc, ps) =>
          .ok ⟨o.desc.fmt.scaled c (some sc), (scaleExp sc).getD 0, p || ps⟩

/-- A scale tensor matches its operand: E8M0, the operand's shape with ceil(SIZE/32) along BLOCK_DIM (05 R152). -/
def scaleShapeOk (d sd : Desc) : Bool :=
  decide (sd.fmt = .e8m0) &&
    (List.range 6).all (fun k =>
      decide (sd.size k = if k = d.blockDim then (d.size k + 31) / 32 else d.size k))

/-- Read an operand's descriptor and, for MX, its scales' (05 R153). -/
def readOperand (s : State) (ti di : Nat) : Except Flt Operand :=
  match readDesc s ti di with
  | .error e => .error e
  | .ok d =>
    if d.fmt.isMX then
      match readDesc s ti d.scaleLink with
      | .error e => .error e
      | .ok sd => if scaleShapeOk d sd then .ok ⟨d, some sd⟩ else fltAt cDescriptor (d.scaleLink * 128)
    else .ok ⟨d, none⟩

/-- The word addresses that the reading of an operand's slots touches. -/
def operandWords (di : Nat) (o : Operand) : List Nat :=
  slotWords di ++ (match o.scale with
    | none => []
    | some _ => slotWords o.desc.scaleLink)

/-- The tensor lies in the tile's SRAM window: its base does (05 R136, Table 5.3). -/
def Desc.inSram (d : Desc) : Bool := inWindow d.base

/-- How many of a view's elements are out of bounds (05 R141). -/
def Desc.oob (d : Desc) : Nat :=
  let inb := (List.range 6).foldl (fun n k =>
    match (d.dim k).span with
    | none => 0
    | some (l, h) => n * (h - l + 1).toNat) 1
  d.count - inb

/-- The SRAM words that a footprint in the window spans. -/
def footprintWords (f : Option (Int × Int)) : List Nat :=
  match f with
  | none => []
  | some (lo, hi) =>
    let a := (lo - (sramWindow : Int)).toNat / 8
    let b := (hi - (sramWindow : Int)).toNat / 8
    if lo < (sramWindow : Int) ∨ (sramWindow : Int) + (sramBytes : Int) ≤ hi then []
    else (List.range (b + 1 - a)).map (fun i => a + i)

/-- The banks that a footprint in the window touches, as a mask (02 R61). -/
def footprintBanks (f : Option (Int × Int)) : BitVec 12 :=
  match f with
  | none => 0
  | some (lo, hi) =>
    if lo < (sramWindow : Int) ∨ (sramWindow : Int) + (sramBytes : Int) ≤ hi then 0
    else
      let a := bankOf (lo - (sramWindow : Int)).toNat
      let b := bankOf (hi - (sramWindow : Int)).toNat
      (List.range 12).foldl (fun (m : BitVec 12) i => if a ≤ i ∧ i ≤ b then m ||| (1#12 <<< i) else m) 0

/-- The footprints of an operand: its elements and its scales. -/
def Operand.footprints (o : Operand) : List (Option (Int × Int)) :=
  o.desc.footprint :: (match o.scale with
    | none => []
    | some sd => [sd.footprint])

/-- The virtual pages a footprint spans. -/
def footprintPages (f : Option (Int × Int)) : List Nat :=
  match f with
  | none => []
  | some (lo, hi) =>
    if lo < 0 ∨ (sramWindow : Int) ≤ hi then []
    else (List.range (hi.toNat / 0x200000 + 1 - lo.toNat / 0x200000)).map (fun i => lo.toNat / 0x200000 + i)

/-- Two footprints share a byte (05 R154). -/
def overlaps (a b : Option (Int × Int)) : Bool :=
  match a, b with
  | some (l1, h1), some (l2, h2) => decide (l1 ≤ h2) && decide (l2 ≤ h1)
  | _, _ => false

end Sys2Proof.Machine
end

