-- ==== Sys2Proof/Machine/Approx.lean ====
section
/-! DEFINITION. The mathematical functions of Tables 2.9 and 5.8 to far more bits than FP32 has, so that the choice Config
leaves open stays within the accuracy the tables give, measured from the correctly rounded result (05 R151). Fixed
point with 400 fraction bits. -/
namespace Sys2Proof.Machine

/-- ln 2 and 1 / sqrt(2 pi) with 400 fraction bits. -/
def fixLn2 : Int := 0xb17217f7d1cf79abc9e3b39803f2f6af40f343267298b62d8a0d175b8baafa2be7b876206debac98559552fb4afa1b10ed2e
def fixInvSqrt2Pi : Int := 0x662114cf50d942343f2cf1402eae38bfd3829f30512706d8c0471b4802639d2e9df8ac55447d3db723f5d3abb374e88deb14

/-- A finite number with 400 fraction bits. -/
def toFix (neg : Bool) (m : Nat) (e : Int) : Int :=
  let k := e + 400
  sgn neg (if 0 ≤ k then m <<< k.toNat else m >>> (-k).toNat)

/-- The sum of f^n / n! from a term on, `fuel` terms. -/
def expSum (f : Int) : (fuel n : Nat) → (term sum : Int) → Int
  | 0, _, _, sum => sum
  | k + 1, n, term, sum => expSum f k (n + 1) (term * f / 2 ^ 400 / ((n : Int) + 1)) (sum + term)

/-- e^x: an infinity from 2^10 on, a value below every format's from -2^10 down. -/
def expNum (x : Num) : Num :=
  match x with
  | .nan => .nan
  | .inf neg => if neg then Num.zero else .inf false
  | .fin neg m e =>
    if m = 0 then Num.one
    else if 10 ≤ (m.log2 : Int) + e then (if neg then .fin false 1 (-2000) else .inf false)
    else
      let z := toFix neg m e
      let k := z / fixLn2
      .fin false (expSum (z - k * fixLn2) 100 0 (2 ^ 400) 0).toNat (k - 400)

/-- The sum of z^(2 j + 1) / (2 j + 1) from a power on, `fuel` terms. -/
def atanhSum (zz : Int) : (fuel j : Nat) → (power sum : Int) → Int
  | 0, _, _, sum => sum
  | k + 1, j, power, sum => atanhSum zz k (j + 2) (power * zz / 2 ^ 400) (sum + power / (j : Int))

/-- ln of a positive finite number m 2^e. -/
def lnNum (m : Nat) (e : Int) : Num :=
  let u : Int := toFix false m (-(m.log2 : Int))
  let z := (u - 2 ^ 400) * 2 ^ 400 / (u + 2 ^ 400)
  Num.ofInt (((m.log2 : Int) + e) * fixLn2 + 2 * atanhSum (z * z / 2 ^ 400) 140 1 z 0) (-400) false

/-- 1 / (1 + e^-x). -/
def sigmoidNum (x : Num) : Num :=
  let neg := x.lt Num.zero
  let e := expNum (if neg then x else x.neg)
  (if neg then e else Num.one).div (Num.one.add e)

/-- tanh x; close to 0 by its series, where the other form would cancel. -/
def tanhNum (x : Num) : Num :=
  if x.isZero then x
  else if x.exponent < -20 then x.sub ((x.mul (x.mul x)).div (.fin false 3 0))
  else
    let e := expNum (Num.scale x.abs 1).neg
    let r := (Num.one.sub e).div (Num.one.add e)
    if x.lt Num.zero then r.neg else r

/-- The sum of x^(2 n + 1) / (2 n + 1)!! from a term on, `fuel` terms. -/
def phiSum (xx : Int) : (fuel n : Nat) → (term sum : Int) → Int
  | 0, _, _, sum => sum
  | k + 1, n, term, sum => phiSum xx k (n + 1) (term * xx / 2 ^ 400 / (2 * (n : Int) + 3)) (sum + term)

/-- (1 + erf(x / sqrt 2)) / 2. -/
def phiNum (x : Num) : Num :=
  match x with
  | .fin neg m e =>
    if m = 0 then .fin false 1 (-1)
    else if 4 ≤ (m.log2 : Int) + e then (if neg then .fin false 1 (-2000) else Num.one)
    else
      let z := toFix false m e
      let s : Num := .fin false (phiSum (z * z / 2 ^ 400) 700 0 z 0).toNat (-400)
      let d := ((expNum (Num.scale (x.mul x) (-1)).neg).mul s).mul (.fin false fixInvSqrt2Pi.toNat (-400))
      (Num.fin false 1 (-1)).add (if neg then d.neg else d)
  | y => y

/-- The decimal constants of GELU_TANH. -/
def geluA : Num := Num.div (.fin false 79788456 0) (.fin false 100000000 0)
def geluB : Num := Num.div (.fin false 44715 0) (.fin false 1000000 0)

/-- An activation of Table 5.8 that is accurate to 2 ulp, on a finite value. -/
def actNum (act : Nat) (x : Num) : Num :=
  match act with
  | 2 => x.mul (sigmoidNum (Num.scale (geluA.mul (x.add (geluB.mul (x.mul (x.mul x))))) 1))
  | 3 => x.mul (phiNum x)
  | 4 => x.mul (sigmoidNum x)
  | 5 => sigmoidNum x
  | _ => tanhNum x

/-- A result within `bound` ulp of the correctly rounded one: moved by the codes that Config chooses, at most `bound` of them
(downward from a power of two, where the codes below lie half as far apart, twice as many). An infinity stays. -/
def nudge (bound fn : Nat) (arg exact : Num) : Num :=
  let r := toFP32 exact
  let mag : Nat := r % 2 ^ 31
  let k := Config.ulps fn (BitVec.ofNat 32 (toFP32 arg))
  let low : Int := if mag % 2 ^ 23 = 0 then 2 * (bound : Int) else bound
  let k := if k < -low then -low else if (bound : Int) < k then (bound : Int) else k
  if 0x7F800000 ≤ mag then ofFP32 r
  else
    let z : Int := (mag : Int) + k
    let neg := decide (2 ^ 31 ≤ r)
    let n := if 0x7F800000 < z.natAbs then 0x7F800000 else z.natAbs
    ofFP32 ((if (if z < 0 then !neg else neg) then 2 ^ 31 else 0) + n)

end Sys2Proof.Machine
end

