-- ==== Sys2Proof/Machine/StorePath.lean ====
section
/-! DEFINITION. The store path (04 R128-R132, 05 R148-R155): activation, block scales, conversion, permutation, and the
writes that leave it, grouped by 32-byte granule with poison per granule (03 R105). -/
namespace Sys2Proof.Machine

/-- A value entering the store path. -/
structure SVal where
  val : Num
  poison : Bool
deriving DecidableEq, Repr

/-- An activation of Table 5.8 on an FP32 value: RELU and the limits at the specials as R151 gives them, the rest within
2 ulp of the correctly rounded result (log 15). -/
def activate (act : Nat) (x : Num) : Num :=
  match act, x with
  | 0, x => x
  | _, .nan => .nan
  | 1, x => Num.max x Num.zero
  | 2, .inf true => .fin true 0 0
  | 2, .inf false => .inf false
  | 3, .inf true => .fin true 0 0
  | 3, .inf false => .inf false
  | 4, .inf true => .fin true 0 0
  | 4, .inf false => .inf false
  | 5, .inf true => .fin false 0 0
  | 5, .inf false => Num.one
  | 6, .inf true => Num.one.neg
  | 6, .inf false => Num.one
  | a, x => nudge 2 (16 + a) x (actNum a x)

/-- Step 2 of Table 4.5: with an activation, round to FP32 and apply it. -/
def step2 (act : Nat) (x : SVal) : SVal :=
  if act = 0 then x else ⟨activate act (fp32 x.val), x.poison⟩

/-- A granule under construction: in SRAM (`none`) or in a tier, by byte address / 32. -/
structure GranBuf where
  tgt : Option Tier
  g : Nat
  data : BitVec 256
  mask : BitVec 256
  poison : Bool
deriving DecidableEq, Repr

/-- Add bits to a granule, opening it where it is new. -/
def addBits (bufs : List GranBuf) (tgt : Option Tier) (g off n code : Nat) (poison : Bool) : List GranBuf :=
  let m : BitVec 256 := BitVec.ofNat 256 ((2 ^ n - 1) <<< off)
  let d : BitVec 256 := BitVec.ofNat 256 ((code % 2 ^ n) <<< off)
  match bufs with
  | [] => [⟨tgt, g, d, m, poison⟩]
  | b :: r =>
    if b.tgt = tgt ∧ b.g = g then
      { b with data := (b.data &&& ~~~m) ||| d, mask := b.mask ||| m, poison := b.poison || poison } :: r
    else b :: addBits r tgt g off n code poison

/-- Add an element of `w` bits at a bit address; one that straddles two granules goes into both. -/
def addElem (bufs : List GranBuf) (tgt : Option Tier) (bit w code : Nat) (poison : Bool) : List GranBuf :=
  let g := bit / 256
  let off := bit % 256
  if off + w ≤ 256 then addBits bufs tgt g off w code poison
  else
    let n := 256 - off
    addBits (addBits bufs tgt g off n code poison) tgt (g + 1) 0 (w - n) (code >>> n) poison

/-- What a command writes, by granule: SRAM words and tier granules. -/
structure Writes where
  sram : List SramWrite
  mem : List MemWrite
deriving DecidableEq, Repr

def Writes.none : Writes := ⟨[], []⟩
def Writes.append (a b : Writes) : Writes := ⟨a.sram ++ b.sram, a.mem ++ b.mem⟩

/-- The writes of the granules: four words of a granule in SRAM, all four in poison for a poisoned granule. -/
def granWrites (bufs : List GranBuf) : Writes :=
  bufs.foldl (fun w b =>
    match b.tgt with
    | some t => { w with mem := w.mem ++ [⟨t, 32 * b.g, b.data, b.mask, b.poison⟩] }
    | .none =>
      { w with sram := w.sram ++ ((List.range 4).filterMap (fun i =>
          let m := b.mask.extractLsb' (64 * i) 64
          if b.poison then some ⟨4 * b.g + i, 0, BitVec.allOnes 64, true⟩
          else if m = 0 then Option.none
          else some ⟨4 * b.g + i, b.data.extractLsb' (64 * i) 64, m, false⟩)) }) Writes.none

/-- Place one element of a destination view for writing as owner `owner`: dropped when out of bounds (05 R142),
refused in a bank of another owner (02 R60), or added to its granule. -/
def placeElem (s : State) (ti space owner : Nat) (d : Desc) (bufs : List GranBuf) (idx : List Nat) (code : Nat)
    (poison : Bool) : Except Flt (List GranBuf) :=
  if !d.inb idx then .ok bufs
  else
    let b := d.bitAddr idx
    let va := (b / 8).toNat
    if b < 0 then fltAt cTranslation 0
    else
      match s.place ti space va true with
      | .bad cause => fltAt cause va
      | .sram byte =>
        if s.bankOwner ti (bankOf byte) ≠ owner then fltAt cBankOwner va
        else .ok (addElem bufs .none (8 * byte + (b % 8).toNat) d.fmt.width code poison)
      | .mem tier a => .ok (addElem bufs (some tier) (8 * a + (b % 8).toNat) d.fmt.width code poison)

/-- Place elements in order, stopping at the first that faults. -/
def placeAll (s : State) (ti space owner : Nat) (d : Desc) :
    List GranBuf → List (List Nat × Nat × Bool) → Except Flt (List GranBuf)
  | bufs, [] => .ok bufs
  | bufs, (idx, code, p) :: r =>
    match placeElem s ti space owner d bufs idx code p with
    | .error e => .error e
    | .ok b => placeAll s ti space owner d b r

/-- The store block's fields and descriptors as read at issue. -/
structure StoreBlk where
  dst : Desc
  scale : Option Desc
  act : Nat
  stoch : Bool
  perm : List Nat
deriving DecidableEq, Repr

/-- Read a store block (02 R55; 05 R149, R152): the destination's size in each dimension is the source's, an MX
destination has a matching scale tensor and no other has one, and E8M0 is no drain destination (Table 4.6). -/
def readStoreBlk (s : State) (ti : Nat) (c : BitVec 512) (shape : List Nat) : Except Flt StoreBlk :=
  match readDesc s ti (cf c 48 2) with
  | .error e => .error e
  | .ok d =>
    let perm := permOf (cf c 52 4)
    let sizesOk := (List.range 6).all (fun i =>
      decide (d.size i = (shape[(perm[i]?).getD 0]?).getD 1))
    if d.fmt = .e8m0 ∨ !sizesOk then fltAt cDescriptor (cf c 48 2 * 128)
    else if d.fmt.isMX then
      if cf c 56 2 = 0xFFFF then fltAt cDescriptor (cf c 48 2 * 128)
      else
        match readDesc s ti (cf c 56 2) with
        | .error e => .error e
        | .ok sd =>
          if scaleShapeOk d sd then .ok ⟨d, some sd, cf c 50 1, decide (cf c 51 1 = 1), perm⟩ else fltAt cDescriptor (cf c 56 2 * 128)
    else if cf c 56 2 = 0xFFFF then .ok ⟨d, none, cf c 50 1, decide (cf c 51 1 = 1), perm⟩
    else fltAt cDescriptor (cf c 48 2 * 128)

/-- The word addresses that a store block's slots touch. -/
def storeWords (c : BitVec 512) : List Nat :=
  slotWords (cf c 48 2) ++ (if cf c 56 2 = 0xFFFF then [] else slotWords (cf c 56 2))

/-- The source index of a destination index: destination dimension i takes source dimension PERM field i (05 R149). -/
def srcIdx (perm : List Nat) (j : List Nat) : List Nat :=
  (List.range 6).map (fun k =>
    match perm.idxOf? k with
    | some i => (j[i]?).getD 0
    | none => 0)

/-- seed_eff of 04 R132 for the round in progress. -/
def State.seedEff (s : State) (ti : Nat) : BitVec 64 :=
  let seed := BitVec.ofNat 64 (s.reg64 (tileReg ti Reg.LAY_SR_SEED_LO))
  if s.fld (tileReg ti Reg.LAY_SR_CTRL) 0 0 = 1 then seed + BitVec.ofNat 64 s.round else seed

/-- What the store path needs to know of a command: its shape before PERM, the value at each source index after step 1,
and the order in which values enter (04 R132). -/
structure Source where
  shape : List Nat
  vals : List SVal
  ordinals : List Nat
deriving DecidableEq, Repr

def Source.at (x : Source) (idx : List Nat) : SVal := (x.vals[linear x.shape idx]?).getD ⟨Num.zero, false⟩
def Source.ordinal (x : Source) (idx : List Nat) : Nat := (x.ordinals[linear x.shape idx]?).getD 0

/-- The largest magnitude of a block: infinities as the largest finite FP32 value, NaN and poisoned values left out
(05 R152). -/
def blockMax (vs : List SVal) : Num :=
  vs.foldl (fun m v =>
    if v.poison then m
    else
      match v.val with
      | .nan => m
      | .inf _ => Num.max m (fmtFP32.finite false (fmtFP32.infMag - 1))
      | x => Num.max m x.abs) Num.zero

/-- The values of the block that a destination index lies in, after step 2. -/
def blockVals (b : StoreBlk) (x : Source) (j : List Nat) : List SVal :=
  let n := b.dst.size b.dst.blockDim
  let k := (j[b.dst.blockDim]?).getD 0 / 32
  (List.range 32).filterMap (fun i =>
    if k * 32 + i < n then
      some (step2 b.act (x.at (srcIdx b.perm (j.set b.dst.blockDim (k * 32 + i)))))
    else none)

/-- The E8M0 code of a block: 0xFF when it holds NaN, else X + 127 (05 R152, 04 R129). -/
def blockScaleCode (f : Fmt) (vs : List SVal) : Nat :=
  if vs.any (fun v => !v.poison && decide (v.val = .nan)) then 255
  else (f.blockExp (blockMax vs) + 127).toNat

/-- The destination code of one element (steps 2 to 4 of Table 4.5). -/
def elemCode (b : StoreBlk) (x : Source) (seed : BitVec 64) (ordinal : Nat) (j : List Nat) : Nat × Bool :=
  let si := srcIdx b.perm j
  let v := step2 b.act (x.at si)
  let rnd := if b.stoch then Rnd.stochastic (draw seed ordinal (x.ordinal si)) else .rne
  if b.dst.fmt.isMX then
    let sc := blockScaleCode b.dst.fmt (blockVals b x j)
    if sc = 255 then (0, v.poison)
    else (b.dst.fmt.encode rnd (v.val.scale (127 - (sc : Int))), v.poison)
  else (b.dst.fmt.encode rnd v.val, v.poison)

/-- The elements a store writes, in destination descriptor order. -/
def storeElems (b : StoreBlk) (x : Source) (seed : BitVec 64) (ordinal : Nat) : List (List Nat × Nat × Bool) :=
  (indices b.dst.shape).map (fun j => (j, elemCode b x seed ordinal j))

/-- The scales a store writes, one per block, in the scale tensor's order (05 R152). -/
def scaleElems (b : StoreBlk) (sd : Desc) (x : Source) : List (List Nat × Nat × Bool) :=
  (indices sd.shape).map (fun k =>
    let j := k.set b.dst.blockDim ((k[b.dst.blockDim]?).getD 0 * 32)
    (k, blockScaleCode b.dst.fmt (blockVals b x j), false))

/-- All writes of a store: elements and scales (05 R148-R152), as LAYOUT (02 Table 2.7). -/
def storeWrites (s : State) (ti space : Nat) (b : StoreBlk) (x : Source) (ordinal : Nat) : Except Flt Writes :=
  match placeAll s ti space 6 b.dst [] (storeElems b x (s.seedEff ti) ordinal) with
  | .error e => .error e
  | .ok bufs =>
    match b.scale with
    | none => .ok (granWrites bufs)
    | some sd =>
      match placeAll s ti space 6 sd [] (scaleElems b sd x) with
      | .error e => .error e
      | .ok sb => .ok ((granWrites bufs).append (granWrites sb))

/-- The footprints a store writes. -/
def StoreBlk.footprints (b : StoreBlk) : List (Option (Int × Int)) :=
  b.dst.footprint :: (match b.scale with
    | none => []
    | some sd => [sd.footprint])

/-- How many written elements are out of bounds (05 R142). -/
def StoreBlk.oob (b : StoreBlk) : Nat :=
  b.dst.oob + (match b.scale with
    | none => 0
    | some sd => sd.oob)

/-- In-bounds elements' bytes of a view. -/
def Desc.bytesIn (d : Desc) : Nat := ((d.count - d.oob) * d.fmt.width + 7) / 8

/-- The outcomes of the overlap rule (Table 5.9). -/
inductive Overlap where
  | noOp | run | refuse
deriving DecidableEq, Repr

/-- The overlap rule (05 R154). `reads` are all footprints the command reads; `same` says that each overlapping source
is identical to the destination in every field and nothing rearranges. In place and through the snapshot the sources are
read before they are overwritten, so both run alike. -/
def overlapCase (isStore isElt : Bool) (b : StoreBlk) (reads : List (Option (Int × Int))) (srcs : List Desc)
    (staged : Nat) : Overlap :=
  let any := b.footprints.any (fun w => reads.any (fun r => overlaps r w))
  let ident := decide (b.perm = [0, 1, 2, 3, 4, 5])
  let allSame := srcs.all (fun d => !overlaps d.footprint b.dst.footprint || decide (d = b.dst))
  if !any then .run
  else if isStore && ident && decide (b.act = 0) && b.scale.isNone && srcs.all (fun d => decide (d = b.dst)) then .noOp
  else if (isStore || isElt) && ident && allSame then .run
  else if staged ≤ 524288 then .run
  else .refuse

/-- MEM_WRITE packets of a command's tier writes: one per aligned 256-byte block (02 R76, R77). -/
def memPackets (ti ref : Nat) : List MemWrite → List Packet
  | [] => []
  | x :: r =>
    let block := x.addr / 256 * 256
    let p : Piece := ⟨x.addr / 32 % 8, x.data, x.mask, x.poison⟩
    match memPackets ti ref r with
    | q :: qs =>
      if q.addr = block ∧ q.adopted = decide (x.tier = .adopted) ∧ (q.dstKind = 1) = (x.tier = .stack) then
        { q with pieces := p :: q.pieces } :: qs
      else
        ⟨.memWrite, if x.tier = .stack then 1 else 0, if x.tier = .stack then (stackMap block).stack else ti, 0, ti,
          block, 256, 0, 0, 0, [p], decide (x.tier = .adopted), ref, none, false, false⟩ :: q :: qs
    | [] =>
      [⟨.memWrite, if x.tier = .stack then 1 else 0, if x.tier = .stack then (stackMap block).stack else ti, 0, ti,
        block, 256, 0, 0, 0, [p], decide (x.tier = .adopted), ref, none, false, false⟩]

end Sys2Proof.Machine
end

