-- ==== Sys2Proof/Machine/Issue.lean ====
section
/-! DEFINITION. Issue and completion of tile commands (02 R42-R52, R58-R61): the sequencer's checks, the unit queues,
tokens, the report of COMMIT, and the work that a class's meaning hands to its unit. -/
namespace Sys2Proof.Machine

/-- The unit of a class (Table 2.1). -/
def unitOf (c : BitVec 512) : UnitId :=
  match cClass c with
  | 0x01 | 0x02 => .array
  | 0x07 | 0x08 => .vector
  | 0x03 => .rae (cMode c % 4)
  | 0x04 => .layout
  | 0x05 | 0x06 => .gatherScatter
  | 0x09 | 0x0A | 0x0B => .attention
  | 0x0C => .bonded
  | 0x0D | 0x0E | 0x0F => .network
  | _ => .sequencer

/-- The queue depth of a unit (Table 2.1). -/
def queueDepth (u : UnitId) : Nat :=
  match u with
  | .rae _ | .bonded => 8
  | _ => 4

/-- The segment being run. -/
def Tile.seg (t : Tile) : Option Segment := t.segs.head?

/-- The address space in force (02 R47). -/
def Tile.space (t : Tile) : Nat :=
  match t.seg with
  | some g => g.space
  | none => 0

/-- A command with its effective slot, (STEP_SLOT + SLOT_BASE) mod 256, in the STEP_SLOT byte (10 R293). -/
def Tile.effective (t : Tile) (c : BitVec 512) : BitVec 512 :=
  let base := match t.seg with
    | some g => g.slotBase
    | none => 0
  let slot := (cSlot c + base) % 256
  (c &&& ~~~(BitVec.ofNat 512 (0xFF * 2 ^ 56))) ||| BitVec.ofNat 512 (slot * 2 ^ 56)

/-- Completion tokens (02 R46). -/
def State.tokens (s : State) (ti : Nat) : Nat := s.fld (tileReg ti Reg.TIL_TOKENS) 15 0
def State.setTokens (s : State) (ti v : Nat) : State := s.setFld (tileReg ti Reg.TIL_TOKENS) 15 0 v

/-- Commands of this round issued and not complete (committed in-place work of an earlier round is not among them). -/
def Tile.live (t : Tile) : List QEntry := t.queue.filter (fun e => decide (e.ordinal ≠ 0))

/-- The sequencer takes commands: the tile is usable and RUNNING with a segment, and no HANDOVER waits (R61). -/
def State.canIssue (s : State) (ti : Nat) : Bool :=
  s.usable ti && decide (s.tilState ti = tilRunning) && (s.tile ti).seg.isSome && (s.tile ti).handover.isNone

/-- What a fetch at the tile's position finds wrong (02 R48): translation and read permission in the segment's space,
SEQ ownership in the SRAM window (log 10). -/
def State.fetchCause (s : State) (ti : Nat) : Option Nat :=
  match s.place ti (s.tile ti).space (s.tile ti).pc false with
  | .bad cause => some cause
  | .sram b => if s.bankOwner ti (bankOf b) = 0 then none else some cBankOwner
  | .mem _ _ => none

/-- A command holds at the issue point: a WAIT token is not set, its unit's queue is full, or its FENCE waits (02 R44,
R51). -/
def State.holds (s : State) (ti : Nat) (c : BitVec 512) : Bool :=
  let t := s.tile ti
  let u := unitOf c
  decide (cWait c &&& (65535 ^^^ s.tokens ti) ≠ 0) ||
  (decide (u ≠ .sequencer) && decide (queueDepth u ≤ (t.queue.filter (fun e => decide (e.unit = u))).length)) ||
  (flFence (cFlags c) && !t.live.isEmpty)

/-! ## Request-step slots -/

/-- The report state of a step slot on a tile. -/
def Tile.slotAt (t : Tile) (slot : Nat) : SlotState :=
  (t.slots.find? (fun x => x.slot = slot)).getD ⟨slot, false, false, false, none, false, false⟩

/-- Replace the report state of a slot. -/
def Tile.putSlot (t : Tile) (x : SlotState) : Tile :=
  { t with slots := x :: t.slots.filter (fun y => y.slot ≠ x.slot) }

/-- An IBU_OP in place (07 R216). -/
def QEntry.inPlace (e : QEntry) : Bool :=
  match e.waits with
  | .ibu f _ _ => f.inPlace
  | _ => false

/-- The step of a slot is complete on this tile (02 R51): its COMMIT command and every earlier command of the slot are
complete; when the COMMIT is on an in-place IBU_OP, every one but the in-place IBU_OPs is. -/
def Tile.slotReady (t : Tile) (x : SlotState) : Bool :=
  match x.commitSerial with
  | none => false
  | some c =>
    !x.reported &&
    (t.queue.filter (fun e => decide (e.ordinal ≠ 0) && decide (e.slot = x.slot) && decide (e.serial ≤ c))).all
      (fun e => x.commitInPlace && e.inPlace) &&
    (match t.handover with
     | some h => decide (h.slot ≠ x.slot) || decide (c < h.serial)
     | none => true)

/-- Report every slot that has become complete to Sage (02 R51, 03 R106, 05 R155). -/
def reportSlots (s : State) (ti : Nat) : State :=
  let t := s.tile ti
  let ready := t.slots.filter t.slotReady
  { s.setTile ti { t with slots := t.slots.map (fun x => if t.slotReady x then { x with reported := true } else x) } with
    sage := { s.sage with
      reports := s.sage.reports ++ ready.map (fun x => TileReport.mk ti x.slot x.inexact x.overlap)
      batches := s.sage.batches.map (fun b => ready.foldl (fun b x => b.report ti x.slot) b) } }

/-! ## Completion -/

/-- Count a completed command, set its token, report (02 R45, R46, R51). -/
def finishCmd (s : State) (ti setTok : Nat) : State :=
  let a := tileReg ti Reg.TIL_CMD_COUNT_LO
  let s := s.setReg64 a ((s.reg64 a + 1) % 2 ^ 64)
  let s := if setTok ≥ 128 then s.setTokens ti (s.tokens ti ||| (1 <<< (setTok % 16))) else s
  reportSlots s ti

/-- Write a 32-byte side-band record into a ring (03 R112, R113; 06 R192). -/
def writeSideband (s : State) (ti head ring : Nat) (record : Nat) : State :=
  let n := s.fld (tileReg ti head) 4 0
  let wrapped := (List.range 8).any (fun i => decide (s.reg (tileReg ti (ring + 8 * n + i)) ≠ 0))
  let s := (List.range 8).foldl (fun s i =>
    s.setReg (tileReg ti (ring + 8 * n + i)) (BitVec.ofNat 32 (record >>> (32 * i)))) s
  let s := if wrapped then s.setFld (tileReg ti head) 31 31 1 else s
  s.setFld (tileReg ti head) 4 0 ((n + 1) % 32)

/-- Apply word writes through the write port of the banks. -/
def writeSram (s : State) (ti : Nat) (ws : List SramWrite) : State :=
  if ws = [] then s else s.modTile ti (fun t => t.writeWords ti ws)

/-! ## Issue -/

/-- What a class's meaning hands to its unit at issue. Reads are made at issue; writes to SRAM wait for completion and
writes to memory leave as packets (R45, log 11). -/
structure Work where
  writes : Writes
  banks : BitVec 12
  waits : Waits
  array : Option ArrayInfo
  attn : Option AttnInfo
  loads : List LoadElem
  packets : List Packet
  views : List Desc
  links : List Nat
  oobReads : Nat
  oobWrites : Nat
  refused : Bool
  after : State → State

def Work.none : Work :=
  ⟨Writes.none, 0, .none, Option.none, Option.none, [], [], [], [], 0, 0, false, id⟩

/-- The state as a unit's next command sees it: the writes of the unit's earlier commands are done (02 R44). -/
def State.view (s : State) (ti : Nat) (u : UnitId) : State :=
  ((s.tile ti).queue.filter (fun e => decide (e.unit = u))).foldl (fun s e =>
    let s := writeSram s ti e.swrites
    e.mwrites.foldl (fun s x =>
      match x.tier with
      | .stack => writeStackGran s ti x.addr x.data x.mask x.poison
      | _ => writeBonded s ti x) s) s

/-- The descriptor fields of a command (Table 2.5, Table 2.4). -/
def diFields (c : BitVec 512) : List Nat :=
  let store := if noDrain c then [] else [cf c 48 2, cf c 56 2]
  (match cClass c with
   | 0x01 => [cf c 16 2, cf c 18 2, cf c 20 2] ++ store
   | 0x02 => [cf c 18 2, cf c 20 2, cf c 22 2] ++ store
   | 0x03 => [cf c 8 2, cf c 10 2]
   | 0x04 => cf c 8 2 :: store
   | 0x05 | 0x06 => [cf c 8 2, cf c 10 2, cf c 12 2]
   | 0x07 => [cf c 10 2, cf c 12 2, cf c 14 2] ++ store
   | 0x08 => cf c 10 2 :: store
   | 0x09 => [cf c 8 2, cf c 10 2]
   | 0x0A => [cf c 8 2, cf c 14 2] ++ store
   | 0x0B => [cf c 8 2, cf c 10 2]
   | 0x0D => [cf c 12 2]
   | _ => []).filter (· ≠ 0xFFFF)

/-- The SRAM words of the descriptor slots a command reads at issue, in banks that SEQ owns (02 R54). -/
def State.readableSlots (s : State) (ti : Nat) (dis : List Nat) : List Nat :=
  (dis.filter (fun di => decide (di ≤ 0x2FFF) && decide (s.bankOwner ti (bankOf (di * 128)) = 0))).flatMap slotWords

/-- The places that the in-bounds elements of views touch: SRAM words and tier granules, each once. -/
def State.touched (s : State) (ti space : Nat) (ds : List Desc) : List Nat × List (Tier × Nat) :=
  let bytes := (ds.flatMap (fun d =>
    ((indices d.shape).filter d.inb).flatMap (fun i =>
      let b := d.bitAddr i
      [(b / 8).toNat / 8, ((b + d.fmt.width - 1) / 8).toNat / 8]))).eraseDups
  bytes.foldl (fun acc w =>
    match s.place ti space (8 * w) false with
    | .sram b => (acc.1 ++ [b / 8], acc.2)
    | .mem tier a => if acc.2.contains (tier, a / 32 * 32) then acc else (acc.1, acc.2 ++ [(tier, a / 32 * 32)])
    | .bad _ => acc) ([], [])

/-- Count and record what a command's reads of its views meet (09 Tables 9.2, 9.3). -/
def noteViews (s : State) (ti space : Nat) (ds : List Desc) : State :=
  let p := s.touched ti space ds
  p.2.foldl (fun s x => noteRead s ti x.1 x.2) (noteSramReads s ti p.1)

/-- Bring the pages that views touch in translated memory into the translation cache (05 R147). -/
def cacheViews (s : State) (ti space : Nat) (ds : List Desc) : State :=
  ((ds.flatMap (fun d => footprintPages d.footprint)).eraseDups).foldl (fun s p => cachePage s ti space p) s

/-- Out-of-bounds elements (05 R141, R142): the counts, the sticky bit, and the event once a round with the command's
address. -/
def countOob (s : State) (ti vaddr rd wr : Nat) : State :=
  let s := s.count (tileReg ti Reg.LAY_OOB_READS) rd
  if wr = 0 then s
  else
    let s := (s.count (tileReg ti Reg.LAY_OOB_WRITES) wr).setFld (tileReg ti Reg.LAY_STATUS) 30 30 1
    if (s.tile ti).oobEvent then s
    else
      recordEvent (s.modTile ti (fun t => { t with oobEvent := true })) 0x2202 ti (vaddr % 2 ^ 32)
        (vaddr / 2 ^ 32 % 2 ^ 16) 0

/-- A refusal under the overlap rule (05 R155). -/
def noteOverlap (s : State) (ti vaddr slot : Nat) : State :=
  let s := (s.count (tileReg ti Reg.LAY_OVERLAP_COUNT) 1).setFld (tileReg ti Reg.LAY_STATUS) 31 31 1
  let s := s.modTile ti (fun t => t.putSlot { t.slotAt slot with overlap := true })
  recordEvent s 0x2201 ti (vaddr % 2 ^ 32) (vaddr / 2 ^ 32 % 2 ^ 16) 0

/-- Note the slot fields that a command carries: COMMIT, an in-place IBU_OP, inexact outputs. -/
def noteSlot (t : Tile) (c : BitVec 512) (serial : Nat) (inPlace inexact : Bool) : Tile :=
  let x := t.slotAt (cSlot c)
  let x := { x with inPlace := x.inPlace || inPlace, inexact := x.inexact || inexact }
  t.putSlot (if flCommit (cFlags c) then { x with commitSerial := some serial, commitInPlace := inPlace } else x)

/-- Take a command off the issue point (02 R46, R50, 04 R132): consume tokens, count the ordinal, move on. -/
def passIssue (s : State) (ti : Nat) (c : BitVec 512) : State :=
  let s := if flConsume (cFlags c) then s.setTokens ti (s.tokens ti &&& (65535 ^^^ cWait c)) else s
  let s := s.setFld (tileReg ti Reg.TIL_STATUS) 23 16 (cSlot c)
  s.modTile ti (fun t => { t with pc := t.pc + 64, ordinal := t.ordinal + 1, serial := t.serial + 1 })

/-- Requests a run-ahead engine may still send: 64 less those in flight (02 R66). -/
def Tile.raeRoom (t : Tile) (u : UnitId) : Nat :=
  64 - ((t.queue.filter (fun e => decide (e.unit = u))).map (fun e => e.outstanding - e.unsent.length)).foldl (· + ·) 0

/-- Issue a command with its work to its unit. -/
def issueWork (s : State) (ti : Nat) (c : BitVec 512) (w : Work) : State :=
  let t := s.tile ti
  let u := unitOf c
  let serial := t.serial
  let pk := (w.packets ++ memPackets ti serial w.writes.mem).map (fun p => { p with ref := serial })
  let room := match u with
    | .rae _ => t.raeRoom u
    | _ => pk.length
  let vaddr := t.pc
  let e : QEntry :=
    ⟨serial, u, cClass c, vaddr, cSlot c, cFlags c, cSet c, t.ordinal + 1, w.banks, w.writes.sram, w.writes.mem, pk.length,
      w.refused, w.waits, w.array, w.attn, w.loads, pk.drop room⟩
  let inexact := match w.array with
    | some a => decide (a.inexactMask ≠ 0)
    | none => false
  let s := noteSramReads s ti (s.readableSlots ti w.links)
  let s := noteViews s ti t.space w.views
  let s := cacheViews s ti t.space w.views
  let s := countOob s ti vaddr w.oobReads w.oobWrites
  let s := w.after s
  let s := passIssue s ti c
  let s := s.modTile ti (fun t => noteSlot { t with queue := t.queue ++ [e] } c serial e.inPlace inexact)
  let s := if w.refused then noteOverlap s ti vaddr (cSlot c) else s
  reportSlots (s.sendAll (pk.take room)) ti

/-- A translation that fails has read the table (05 R145): what the read meets is counted. -/
def noteFailedXlt (s : State) (ti cause addr : Nat) : State :=
  if cause = cTranslation then cachePage s ti (s.tile ti).space (addr / 0x200000) else s

/-- A fault that a command's checks find, with poison met at a consumer of Table 9.4 counted first. -/
def faultWith (s : State) (ti slot vaddr : Nat) (e : Flt) : State :=
  let s := noteFailedXlt s ti e.cause e.addr
  let s := match e.consumer with
    | some k => poisonMet s ti k e.addr s.round
    | none => s
  tileFault s ti e.cause slot vaddr e.addr

/-- The sequencer at a command of class `cls` (02 R42-R54). The state is unchanged while the tile takes no commands and
where the bytes are another class's. -/
def issueCmd (s : State) (c : TileCmd) (cls : Nat) (work : State → BitVec 512 → Except Flt Work) : State :=
  let ti := c.ti
  let t := s.tile ti
  let b := t.effective c.bits
  if !s.canIssue ti || (classCodes.contains (cClass b) && decide (cClass b ≠ cls)) then s
  else
    match s.fetchCause ti with
    | some cause => tileFault (noteFailedXlt s ti cause t.pc) ti cause (cSlot b) t.pc t.pc
    | none =>
      let s := if inWindow t.pc then s else cachePage s ti t.space (t.pc / 0x200000)
      if c.poison then tileFault (poisonMet s ti 1 t.pc s.round) ti cPoisonedCmd (cSlot b) t.pc 0
      else
        match decodeCause b with
        | some cause => tileFault s ti cause (cSlot b) t.pc 0
        | none =>
          if (t.slotAt (cSlot b)).inPlace && decide (cls ≠ 0x0C) then tileFault s ti cFieldRange (cSlot b) t.pc 0
          else if s.holds ti b then s.setFld (tileReg ti Reg.TIL_STATUS) 23 16 (cSlot b)
          else
            let s := noteSramReads s ti (s.readableSlots ti (diFields b))
            match work (s.view ti (unitOf b)) b with
            | .error e => faultWith s ti (cSlot b) t.pc e
            | .ok w => issueWork s ti b w

end Sys2Proof.Machine
end

