-- ==== Sys2Proof/Machine/Array.lean ====
section
/-! DEFINITION. The matrix array (03, 04 R122-R127): MATMUL and CONV, their passes, accumulators, held results and
side-band record. -/
namespace Sys2Proof.Machine

/-! ## Accumulators -/

/-- A cleared accumulator (03 R101, 04 R124, R127). -/
def Acc.clear : Acc := ⟨0, none, none, none, none, none, false, false, false, false, false⟩

/-- Set the flag of a NaN or infinite product (04 R122). -/
def Acc.flag (a : Acc) (p : Num) : Acc :=
  match p with
  | .nan => { a with fnan := true }
  | .inf true => { a with ninf := true }
  | .inf false => { a with pinf := true }
  | .fin _ _ _ => a

/-- Start or continue fallback: round what stands to FP32 and add the product with one rounding (04 R125). -/
def Acc.fall (a : Acc) (p : Num) : Acc :=
  let sum := match a.fallback with
    | some f => f
    | none => fp32 (Num.ofInt a.q (a.anchor.getD 0) false)
  { a with fallback := some (fadd sum p), inexact := true }

/-- Whether an accumulator value fits (the range condition of 04 R124). -/
def accFits (q : Int) : Bool := decide (-(2 ^ 79 : Int) ≤ q) && decide (q < 2 ^ 79)

/-- One product in the fixed-point accumulator (04 R124, R125): `base` is the product exponent base, `c` the combined
scale. -/
def Acc.addFixed (a : Acc) (base c : Int) (p : Num) : Acc :=
  match p with
  | .fin s m e =>
    match a.fallback with
    | some _ => a.fall p
    | none =>
      let lo := min (a.cmin.getD c) c
      let hi := max (a.cmax.getD c) c
      let low := match a.anchor with
        | none => base + c
        | some x => min x (base + c)
      let q0 := a.q * 2 ^ ((a.anchor.getD low) - low).toNat
      let q1 := q0 + sgn s (if low ≤ e then m <<< (e - low).toNat else m >>> (low - e).toNat)
      if hi - lo ≤ 23 ∧ accFits q0 = true ∧ accFits q1 = true then
        { a with q := q1, anchor := some low, cmin := some lo, cmax := some hi }
      else a.fall p
  | _ => a.flag p

/-- One product in the FP32 accumulator of the wide-float group (04 R127). -/
def Acc.addWide (a : Acc) (p : Num) : Acc :=
  match p with
  | .fin _ _ _ =>
    match fp32 p with
    | .fin _ _ _ => { a with wide := some (match a.wide with | none => fp32 p | some w => fadd w (fp32 p)) }
    | q => a.flag q
  | _ => a.flag p

/-- One pair of operand elements meets in a cell (03 R88, R105; 04 R135). -/
def Acc.step (a : Acc) (wide : Bool) (base : Int) (x y : Elem) : Acc :=
  let a := { a with poison := a.poison || x.poison || y.poison }
  let p := x.val.mul y.val
  if wide then a.addWide p else a.addFixed base (x.sexp + y.sexp) p

/-- The value an accumulator drains: flags first (04 R122), then the FP32 sum, then Q times 2^A. -/
def Acc.value (a : Acc) : Num :=
  if a.fnan || (a.pinf && a.ninf) then .nan
  else if a.pinf then .inf false
  else if a.ninf then .inf true
  else
    match a.wide, a.fallback with
    | some w, _ => w
    | none, some f => f
    | none, none => Num.ofInt a.q (a.anchor.getD 0) false

/-- Step 1 of Table 4.5: the bias, exact for a fixed-point accumulator, else with one FP32 rounding. -/
def Acc.biased (a : Acc) (bias : Option Elem) : Num :=
  match bias with
  | none => a.value
  | some b =>
    if a.wide.isSome || a.fallback.isSome then fadd a.value b.val else a.value.add b.val

/-- A run of the reduction: pairs in increasing k (03 R89). -/
def Acc.run (a : Acc) (wide : Bool) (base : Int) : List Elem → List Elem → Acc
  | x :: xs, y :: ys => (a.step wide base x y).run wide base xs ys
  | _, _ => a

/-! ## Operand reads -/

/-- Read elements in order, stopping at the first that faults. -/
def readElems (s : State) (ti space owner : Nat) (o : Operand) : List (List Nat) → Except Flt (List Elem)
  | [] => .ok []
  | i :: r =>
    match readElem s ti space owner o i with
    | .error e => .error e
    | .ok x =>
      match readElems s ti space owner o r with
      | .error e => .error e
      | .ok xs => .ok (x :: xs)

/-- A 2-D operand as rows of the reduction: `rows` of `k` elements; `kOuter` says that K is dimension 1. -/
def readRows (s : State) (ti : Nat) (o : Operand) (rows k : Nat) (kOuter : Bool) : Except Flt (List (List Elem)) :=
  (List.range rows).foldr (fun r acc =>
    match acc with
    | .error e => .error e
    | .ok rs =>
      match readElems s ti 0 1 o ((List.range k).map (fun j => if kOuter then [r, j, 0, 0, 0, 0] else [j, r, 0, 0, 0, 0])) with
      | .error e => .error e
      | .ok xs => .ok (xs :: rs)) (.ok [])

/-- The bias operand, in the SRAM window with one element per output column (03 R104, R107). -/
def readBias (s : State) (ti di n : Nat) : Except Flt (Option (Operand × List Elem)) :=
  if di = 0xFFFF then .ok none
  else
    match readOperand s ti di with
    | .error e => .error e
    | .ok o =>
      if o.desc.count ≠ n ∨ !o.desc.inSram then badDesc o.desc
      else
        match readElems s ti 0 1 o (indices o.desc.shape) with
        | .error e => .error e
        | .ok xs => .ok (some (o, xs))

/-- The bias of an output column. -/
def biasAt (b : Option (Operand × List Elem)) (n : Nat) : Option Elem :=
  match b with
  | none => none
  | some (_, xs) => xs[n]?

/-- The footprints that a bias operand reads. -/
def biasPrints (b : Option (Operand × List Elem)) : List (Option (Int × Int)) :=
  match b with
  | none => []
  | some (o, _) => o.footprints

/-- Both operands belong to one group of Table 3.3. -/
def sameGroup (f g : Fmt) : Option Group :=
  if f.group = g.group then f.group else none

/-! ## Drain and hold -/

/-- The accumulators a command starts from (03 R101, R102): cleared, or the held results when it continues them; a
continuation that does not match the held results is a FIELD_RANGE fault. -/
def startAccs (t : Tile) (cont wide : Bool) (m n : Nat) : Except Flt (List Acc) :=
  if !cont then .ok (List.replicate (m * n) Acc.clear)
  else
    match t.held with
    | none => flt cFieldRange
    | some h => if h.m = m ∧ h.n = n ∧ h.fixed = !wide then .ok h.accs else flt cFieldRange

/-- Keep results in the accumulators (03 R103, R115, R116). -/
def holdResults (s : State) (ti m n : Nat) (wide : Bool) (accs : List Acc) : State :=
  let s := s.modTile ti (fun t => { t with held := some ⟨m, n, !wide, accs⟩ })
  let s := s.setFld (tileReg ti Reg.MXA_STATUS) 17 16 (if wide then 2 else 1)
  s.setReg (tileReg ti Reg.MXA_HELD) (BitVec.ofNat 32 (n * 2 ^ 16 + m))

/-- The sticky flags of drained outputs (03 R106, R115). -/
def drainFlags (s : State) (ti : Nat) (inexact poison : Bool) : State :=
  let s := if inexact then s.setFld (tileReg ti Reg.MXA_STATUS) 31 31 1 else s
  if poison then s.setFld (tileReg ti Reg.MXA_STATUS) 30 30 1 else s

/-- A mask of passes: bit p for p up to 62, bit 63 for the rest (Table 3.9). -/
def passMask (ps : List Nat) : BitVec 64 := ps.foldl (fun m p => m ||| (1#64 <<< min p 63)) 0

/-- What the array hands on: the outputs in source order with their pass and the order in which they drain. -/
structure ArrayOut where
  shape : List Nat
  accs : List Acc
  vals : List SVal
  passOf : List Nat
  ordinals : List Nat
  passes : Nat

/-- Finish an array command: hold its results, or drain them through the store path (03 R102-R106, 05 R154). -/
def arrayWork (s : State) (ti : Nat) (c : BitVec 512) (wide : Bool) (m n : Nat) (ops : List Operand)
    (bias : Option (Operand × List Elem)) (store : Option StoreBlk) (o : ArrayOut) : Except Flt Work :=
  let reads := ops.flatMap Operand.footprints ++ biasPrints bias
  let banks := reads.foldl (fun b f => b ||| footprintBanks f) 0
  let views := (ops ++ (match bias with | none => [] | some (b, _) => [b])).flatMap (fun o =>
    o.desc :: (match o.scale with | none => [] | some d => [d]))
  let links := ops.filterMap (fun o => match o.scale with | none => none | some _ => some o.desc.scaleLink)
  let oobR := (views.map Desc.oob).foldl (· + ·) 0
  let cont := bitOf (cMode c) 3
  match store with
  | none =>
    .ok { Work.none with
      banks := banks, views := views, links := links, oobReads := oobR
      array := some ⟨o.passes, false, cont, 0, 0⟩
      after := fun s => holdResults s ti m n wide o.accs }
  | some b =>
    let wbanks := b.footprints.foldl (fun m f => m ||| footprintBanks f) banks
    match overlapCase false false b reads (ops.map Operand.desc) b.dst.bytesIn with
    | .refuse =>
      .ok { Work.none with banks := wbanks, links := links, refused := true, array := some ⟨0, false, cont, 0, 0⟩ }
    | _ =>
      let src : Source := ⟨o.shape, o.vals, o.ordinals⟩
      match storeWrites s ti (s.tile ti).space b src ((s.tile ti).ordinal + 1) with
      | .error e => .error e
      | .ok w =>
        let z := o.accs.zip (o.vals.zip o.passOf)
        let inex := (z.filter (fun x => x.1.inexact && !x.2.1.poison)).map (fun x => x.2.2)
        let pois := (z.filter (fun x => x.2.1.poison)).map (fun x => x.2.2)
        .ok { Work.none with
          writes := w, banks := wbanks, views := views, links := links
          oobReads := oobR, oobWrites := b.oob
          array := some ⟨o.passes, true, cont, passMask inex, passMask pois⟩
          after := fun s => drainFlags (clearHeld s ti) ti (!inex.isEmpty) (!pois.isEmpty) }

/-- Read the store block of a draining command; none without DRAIN (02 R57). -/
def drainBlk (s : State) (ti : Nat) (c : BitVec 512) (shape : List Nat) : Except Flt (Option StoreBlk) :=
  if bitOf (cMode c) 2 then
    match readStoreBlk s ti c shape with
    | .error e => .error e
    | .ok b => .ok (some b)
  else .ok none

/-! ## MATMUL -/

/-- A MATMUL operand (Tables 3.1, 3.3): in the SRAM window, of sizes `d0` by `d1`, blocks of an MX format along K. -/
def matOperandOk (o : Operand) (d0 d1 kDim : Nat) : Bool :=
  o.desc.inSram && decide (o.desc.shape = [d0, d1, 1, 1, 1, 1]) && (!o.desc.fmt.isMX || decide (o.desc.blockDim = kDim))

/-- Rows and columns of block row or column `b` of a side of length `n`. -/
def blockLen (n b : Nat) : Nat := min 96 (n - 96 * b)

/-- The pass of an output (03 R94) and its place in the drain order (R104). -/
def matPass (n m' n' : Nat) : Nat := (m' / 96) * ((n + 95) / 96) + n' / 96
def matOrdinal (m n m' n' : Nat) : Nat :=
  (m' / 96) * 96 * n + blockLen m (m' / 96) * (n' / 96) * 96 + (m' % 96) * blockLen n (n' / 96) + n' % 96

/-- The work of a MATMUL (03 R90-R105). -/
def workMatmul (s : State) (ti : Nat) (c : BitVec 512) : Except Flt Work :=
  let m := cf c 8 2
  let n := cf c 10 2
  let k := cf c 12 4
  let ta := bitOf (cMode c) 0
  let tb := bitOf (cMode c) 1
  let passes := matPasses m n
  match readOperand s ti (cf c 16 2), readOperand s ti (cf c 18 2) with
  | .error e, _ => .error e
  | _, .error e => .error e
  | .ok a, .ok b =>
    let okA := if ta then matOperandOk a m k 1 else matOperandOk a k m 0
    let okB := if tb then matOperandOk b k n 0 else matOperandOk b n k 1
    match sameGroup a.desc.fmt b.desc.fmt with
    | none => badDesc (if a.desc.fmt.group.isNone then a.desc else b.desc)
    | some g =>
      let wide := decide (g = .wide)
      if !(okA && okB) then badDesc (if okA then b.desc else a.desc)
      else
        match startAccs (s.tile ti) (bitOf (cMode c) 3) wide m n, drainBlk s ti c [n, m, 1, 1, 1, 1] with
        | .error e, _ => .error e
        | _, .error e => .error e
        | .ok init, .ok store =>
          match readRows s ti a m k ta, readRows s ti b n k (!tb), readBias s ti (cf c 20 2) n with
          | .error e, _, _ => .error e
          | _, .error e, _ => .error e
          | _, _, .error e => .error e
          | .ok ra, .ok rb, .ok bias =>
            let base := a.desc.fmt.ell + b.desc.fmt.ell
            let accs := init.mapIdx (fun i acc =>
              acc.run wide base ((ra[i / n]?).getD []) ((rb[i % n]?).getD []))
            let vals := accs.mapIdx (fun i acc =>
              let bi := biasAt bias (i % n)
              (⟨acc.biased bi, acc.poison || (match bi with | none => false | some e => e.poison)⟩ : SVal))
            arrayWork s ti c wide m n [a, b] bias store
              ⟨[n, m, 1, 1, 1, 1], accs, vals, (List.range (m * n)).map (fun i => matPass n (i / n) (i % n)),
                (List.range (m * n)).map (fun i => matOrdinal m n (i / n) (i % n)), passes⟩

/-- MATMUL (03 R94). -/
def execMatmul (c : TileCmd) (s : State) : Host.Outcome State Fault Refusal :=
  .next (issueCmd s c 0x01 (fun s b => workMatmul s c.ti b))

/-! ## CONV -/

/-- The sizes of a CONV (Table 3.6). -/
structure ConvDims where
  b : Nat
  h : Nat
  w : Nat
  cin : Nat
  cout : Nat
  kh : Nat
  kw : Nat
  groups : Nat
  oh : Nat
  ow : Nat

/-- Output size along one side; none below 1 (Table 3.6, R107). -/
def convOut (n p q d k st : Nat) : Option Nat :=
  if n + p + q < d * (k - 1) + 1 then none else some ((n + p + q - d * (k - 1) - 1) / st + 1)

/-- The kernel positions and channels of a reduction in the order of its dataflow (Table 3.7). -/
def convOrder (rr : Bool) (kh kw cg : Nat) : List (Nat × Nat × Nat) :=
  if rr then (List.range kh).flatMap (fun y => (List.range cg).flatMap (fun c => (List.range kw).map (fun x => (y, x, c))))
  else (List.range kh).flatMap (fun y => (List.range kw).flatMap (fun x => (List.range cg).map (fun c => (y, x, c))))

/-- Padding: a zero with valid bit 1, without a scale, never poisoned (03 R105, R108). -/
def padElem : Elem := ⟨Num.zero, 0, false⟩

/-- The pass of a CONV output and its place in the drain order (03 R104, R108). -/
def convPass (d : ConvDims) (b y x co : Nat) : Nat :=
  let cg := d.cout / d.groups
  ((((co / cg) * d.b + b) * d.oh + y) * ((d.ow + 95) / 96) + x / 96) * ((cg + 95) / 96) + (co % cg) / 96
def convOrdinal (d : ConvDims) (b y x co : Nat) : Nat :=
  let cg := d.cout / d.groups
  (((co / cg) * d.b + b) * d.oh + y) * (d.ow * cg) + (x / 96) * 96 * cg +
    blockLen d.ow (x / 96) * ((co % cg) / 96) * 96 + (x % 96) * blockLen cg ((co % cg) / 96) + (co % cg) % 96

/-- The input elements an output position reads for one group, in the order of the reduction. -/
def convRow (s : State) (ti : Nat) (c : BitVec 512) (d : ConvDims) (o : Operand) (order : List (Nat × Nat × Nat))
    (b y x g : Nat) : Except Flt (List Elem) :=
  let cg := d.cin / d.groups
  order.foldr (fun k acc =>
    match acc with
    | .error e => .error e
    | .ok xs =>
      let ih := y * cf c 10 1 + k.1 * cf c 12 1
      let iw := x * cf c 11 1 + k.2.1 * cf c 13 1
      let pt := cf c 14 1
      let pl := cf c 16 1
      if ih < pt ∨ d.h ≤ ih - pt ∨ iw < pl ∨ d.w ≤ iw - pl then .ok (padElem :: xs)
      else
        match readElem s ti 0 1 o [g * cg + k.2.2, iw - pl, ih - pt, b, 0, 0] with
        | .error e => .error e
        | .ok e => .ok (e :: xs)) (.ok [])

/-- All rows of a list of positions. -/
def convRows (s : State) (ti : Nat) (c : BitVec 512) (d : ConvDims) (o : Operand) (order : List (Nat × Nat × Nat)) :
    List (Nat × Nat × Nat × Nat) → Except Flt (List (List Elem))
  | [] => .ok []
  | (b, y, x, g) :: r =>
    match convRow s ti c d o order b y x g, convRows s ti c d o order r with
    | .error e, _ => .error e
    | _, .error e => .error e
    | .ok x, .ok xs => .ok (x :: xs)

/-- The weights of each output channel, in the order of the reduction. -/
def convWeights (s : State) (ti : Nat) (o : Operand) (order : List (Nat × Nat × Nat)) :
    List Nat → Except Flt (List (List Elem))
  | [] => .ok []
  | co :: r =>
    match readElems s ti 0 1 o (order.map (fun k => [k.2.2, k.2.1, k.1, co, 0, 0])), convWeights s ti o order r with
    | .error e, _ => .error e
    | _, .error e => .error e
    | .ok x, .ok xs => .ok (x :: xs)

/-- The sizes of a CONV from its operands; none where a shape does not match (03 R107). -/
def convDims (c : BitVec 512) (i w : Desc) : Option ConvDims :=
  let kh := cf c 8 1
  let kw := cf c 9 1
  let g := cf c 24 2
  let cin := i.size 0
  let cout := w.size 3
  match convOut (i.size 2) (cf c 14 1) (cf c 15 1) (cf c 12 1) kh (cf c 10 1),
    convOut (i.size 1) (cf c 16 1) (cf c 17 1) (cf c 13 1) kw (cf c 11 1) with
  | some oh, some ow =>
    if i.size 4 = 1 ∧ i.size 5 = 1 ∧ w.size 4 = 1 ∧ w.size 5 = 1 ∧ w.size 0 = cin / g ∧ w.size 1 = kw ∧ w.size 2 = kh ∧
        cin % g = 0 ∧ cout % g = 0 then some ⟨i.size 3, i.size 2, i.size 1, cin, cout, kh, kw, g, oh, ow⟩
    else none
  | _, _ => none

/-- The work of a CONV (03 R107-R110). The destination may lie in memory, as for every store path (log 12). -/
def workConv (s : State) (ti : Nat) (c : BitVec 512) : Except Flt Work :=
  match readOperand s ti (cf c 18 2), readOperand s ti (cf c 20 2) with
  | .error e, _ => .error e
  | _, .error e => .error e
  | .ok i, .ok w =>
    match convDims c i.desc w.desc, sameGroup i.desc.fmt w.desc.fmt with
    | some d, some g =>
      let wide := decide (g = .wide)
      let cg := d.cout / d.groups
      let passes := d.groups * d.b * d.oh * ((d.ow + 95) / 96) * ((cg + 95) / 96)
      let mxOk := (!i.desc.fmt.isMX || decide (i.desc.blockDim = 0)) && (!w.desc.fmt.isMX || decide (w.desc.blockDim = 0))
      let rr := bitOf (cMode c) 0
      let order := convOrder rr d.kh d.kw (d.cin / d.groups)
      let count := d.b * d.oh * d.ow * d.cout
      let shape := [d.cout, d.ow, d.oh, d.b, 1, 1]
      if !(i.desc.inSram && w.desc.inSram && mxOk) then badDesc (if i.desc.inSram && (!i.desc.fmt.isMX || decide (i.desc.blockDim = 0)) then w.desc else i.desc)
      else if !onePassOk c passes then flt cFieldRange
      else
        match startAccs (s.tile ti) (bitOf (cMode c) 3) wide d.ow (count / d.ow), drainBlk s ti c shape with
        | .error e, _ => .error e
        | _, .error e => .error e
        | .ok init, .ok store =>
          let pos := (List.range (d.b * d.oh * d.ow)).flatMap (fun p =>
            (List.range d.groups).map (fun g => (p / (d.oh * d.ow), p / d.ow % d.oh, p % d.ow, g)))
          match convRows s ti c d i order pos, convWeights s ti w order (List.range d.cout),
            readBias s ti (cf c 22 2) d.cout with
          | .error e, _, _ => .error e
          | _, .error e, _ => .error e
          | _, _, .error e => .error e
          | .ok ri, .ok rw, .ok bias =>
            let base := i.desc.fmt.ell + w.desc.fmt.ell
            let accs := init.mapIdx (fun j acc =>
              let co := j % d.cout
              acc.run wide base ((ri[(j / d.cout) * d.groups + co / cg]?).getD []) ((rw[co]?).getD []))
            let vals := accs.mapIdx (fun j acc =>
              let bi := biasAt bias (j % d.cout)
              (⟨acc.biased bi, acc.poison || (match bi with | none => false | some e => e.poison)⟩ : SVal))
            let at4 (f : Nat → Nat → Nat → Nat → Nat) (j : Nat) : Nat :=
              let p := j / d.cout
              f (p / (d.oh * d.ow)) (p / d.ow % d.oh) (p % d.ow) (j % d.cout)
            arrayWork s ti c wide d.ow (count / d.ow) [i, w] bias store
              ⟨shape, accs, vals, (List.range count).map (at4 (convPass d)),
                (List.range count).map (at4 (convOrdinal d)), passes⟩
    | _, _ => badDesc (if i.desc.fmt.group.isNone then i.desc else w.desc)

/-- CONV (03 R108). -/
def execConv (c : TileCmd) (s : State) : Host.Outcome State Fault Refusal :=
  .next (issueCmd s c 0x02 (fun s b => workConv s c.ti b))

/-! ## Completion -/

/-- The side-band record of an array command (Table 3.9); the steps with a bubble are a free value. -/
def arrayRecord (count cls slot bubbles : Nat) (a : ArrayInfo) : Nat :=
  let flags := (if a.inexactMask ≠ 0 then 1 else 0) + (if a.poisonMask ≠ 0 then 2 else 0) +
    (if a.accCont then 4 else 0) + (if a.drained then 8 else 0)
  count % 2 ^ 32 + cls * 2 ^ 32 + slot * 2 ^ 40 + min a.passes 65535 * 2 ^ 48 + flags * 2 ^ 64 +
    (bubbles % 2 ^ 32) * 2 ^ 96 + a.inexactMask.toNat * 2 ^ 128 + a.poisonMask.toNat * 2 ^ 192

/-- What an array command's completion adds to the MXA registers (03 R112, R114): the passes; the steps active, with a
bubble and stalled depend on time, which the spec does not fix, and are free values (log 13). -/
def finishArray (s : State) (ti cls slot flags : Nat) (a : ArrayInfo) : State :=
  let f1 := s.takeFree
  let f2 := f1.2.takeFree
  let f3 := f2.2.takeFree
  let bump (s : State) (off n : Nat) : State :=
    s.setReg64 (tileReg ti off) ((s.reg64 (tileReg ti off) + n) % 2 ^ 64)
  let s := bump (bump (bump (bump f3.2 Reg.MXA_PASS_COUNT_LO a.passes) Reg.MXA_ACTIVE_LO f1.1.toNat)
    Reg.MXA_BUBBLE_LO f2.1.toNat) Reg.MXA_DRAIN_STALL_LO f3.1.toNat
  if flSideband flags then
    writeSideband s ti Reg.MXA_SB_HEAD Reg.MXA_SB
      (arrayRecord (s.reg64 (tileReg ti Reg.TIL_CMD_COUNT_LO)) cls slot f2.1.toNat a)
  else s

end Sys2Proof.Machine
end

