-- ==== Sys2Proof/Machine/Transfer.lean ====
section
/-! DEFINITION. LOAD (02 R66-R68), STORE (05 R148), GATHER and SCATTER (05 R156-R161). -/
namespace Sys2Proof.Machine

/-- Union of the banks of footprints. -/
def banksOf (fs : List (Option (Int × Int))) : BitVec 12 := fs.foldl (fun m f => m ||| footprintBanks f) 0

/-! ## LOAD -/

/-- The element of a LOAD at matching source and destination indices: an element to fetch, a fill value to write, or
nothing where the destination is out of bounds. -/
inductive LoadPart where
  | fetch (e : LoadElem)
  | fill (bit width code : Nat)
  | drop
deriving DecidableEq, Repr

/-- Resolve one element of a LOAD (02 R68; 05 R141-R143). -/
def loadPart (s : State) (ti space : Nat) (src dst : Desc) (i j : List Nat) : Except Flt LoadPart :=
  if !dst.inb j then .ok .drop
  else
    let db := dst.bitAddr j
    let dbit := 8 * ((db / 8).toNat - sramWindow) + (db % 8).toNat
    if !src.inb i then .ok (.fill dbit dst.fmt.width src.fill)
    else
      let b := src.bitAddr i
      let va := (b / 8).toNat
      if b < 0 then fltAt cTranslation 0
      else
        match s.place ti space va false with
        | .mem tier a => .ok (.fetch ⟨tier, 8 * a + (b % 8).toNat, dbit, src.fmt.width⟩)
        | .bad cause => fltAt cause va
        | .sram _ => fltAt cTranslation va

/-- Resolve the elements of a LOAD in order. -/
def loadParts (s : State) (ti space : Nat) (src dst : Desc) : List (List Nat × List Nat) → Except Flt (List LoadPart)
  | [] => .ok []
  | (i, j) :: r =>
    match loadPart s ti space src dst i j, loadParts s ti space src dst r with
    | .error e, _ => .error e
    | _, .error e => .error e
    | .ok x, .ok xs => .ok (x :: xs)

/-- The SRAM bit a part writes. -/
def LoadPart.bit? (p : LoadPart) : Option Nat :=
  match p with
  | .fetch e => some e.dst
  | .fill b _ _ => some b
  | .drop => none

/-- Of parts that write one place, the latest in descriptor order remains (05 R144). -/
def lastParts : List LoadPart → List LoadPart
  | [] => []
  | p :: r => if p.bit?.isSome && r.any (fun q => decide (q.bit? = p.bit?)) then lastParts r else p :: lastParts r

/-- The 256-byte aligned requests for the places that elements come from, 64-byte chunks from the first to the last
touched (02 R67). -/
def loadRequests (ti engine : Nat) (es : List LoadElem) : List Packet :=
  let chunks := (es.flatMap (fun e => [(e.tier, e.src / 512), (e.tier, (e.src + e.width - 1) / 512)])).eraseDups
  let blocks := (chunks.map (fun c => (c.1, c.2 / 4))).eraseDups
  blocks.mapIdx (fun i b =>
    let cs := (chunks.filter (fun c => decide (c.1 = b.1) && decide (c.2 / 4 = b.2))).map (·.2)
    let lo := cs.foldl min (4 * b.2 + 3)
    let hi := cs.foldl max 0
    let kind := if b.1 = .stack then 1 else 0
    let id := if b.1 = .stack then (stackMap (256 * b.2)).stack else ti
    ⟨.memRead, kind, id, 0, ti, 64 * lo, 64 * (hi + 1 - lo), engine * 64 + i % 64, 0, 0, [], decide (b.1 = .adopted), 0,
      none, false, false⟩)

/-- The work of a LOAD (02 R66-R68). -/
def workLoad (s : State) (ti : Nat) (c : BitVec 512) : Except Flt Work :=
  match readDesc s ti (cf c 8 2), readDesc s ti (cf c 10 2) with
  | .error e, _ => .error e
  | _, .error e => .error e
  | .ok src, .ok dst =>
    if src.inSram ∨ !dst.inSram then badDesc (if src.inSram then src else dst)
    else if src.count ≠ dst.count ∨ src.fmt ≠ dst.fmt then flt cLoadShape
    else
      match loadParts s ti (s.tile ti).space src dst ((indices src.shape).zip (indices dst.shape)) with
      | .error e => .error e
      | .ok ps =>
        let ps := lastParts ps
        let es := ps.filterMap (fun p => match p with | .fetch e => some e | _ => none)
        let fills := ps.filterMap (fun p => match p with | .fill b w v => some (b, w, v) | _ => none)
        let bufs := fills.foldl (fun b f => addElem b none f.1 f.2.1 f.2.2 false) []
        .ok { Work.none with
          writes := granWrites bufs, banks := footprintBanks dst.footprint, loads := es
          packets := loadRequests ti (cMode c % 4) es
          oobReads := src.oob, oobWrites := dst.oob
          after := fun s => cacheViews s ti (s.tile ti).space [src] }

/-- LOAD (02 R66). -/
def execLoad (c : TileCmd) (s : State) : Host.Outcome State Fault Refusal :=
  .next (issueCmd s c 0x03 (fun s b => workLoad s c.ti b))

/-- The bits of a granule of READ_DATA that an element takes: its code if all of it lies in the packet. -/
def packetCode (p : Packet) (bit width : Nat) : Option (Nat × Bool) :=
  let g := bit / 256
  let find (k : Nat) := p.pieces.find? (fun x => p.addr / 32 + x.idx = k)
  let off := bit % 256
  if off + width ≤ 256 then
    match find g with
    | some x => some ((x.data.toNat >>> off) % 2 ^ width, x.poison)
    | none => none
  else
    match find g, find (g + 1) with
    | some x, some y =>
      some ((x.data.toNat >>> off + (y.data.toNat <<< (256 - off))) % 2 ^ width, x.poison || y.poison)
    | _, _ => none

/-- The tier a READ_DATA packet answers for. -/
def packetTier (p : Packet) : Tier := if p.srcKind = 1 then .stack else if p.adopted then .adopted else .own

/-- The SRAM bit ranges that arrive, as word writes: poison marks the whole word (02 R67). -/
def loadWrites (p : Packet) (es : List LoadElem) : List SramWrite :=
  let bufs := es.foldl (fun b e =>
    if e.tier ≠ packetTier p then b
    else
      match packetCode p e.src e.width with
      | some (code, poison) => addElem b none e.dst e.width code poison
      | none => b) []
  bufs.flatMap (fun b => (List.range 4).filterMap (fun i =>
    let m := b.mask.extractLsb' (64 * i) 64
    if m = 0 then none
    else some ⟨4 * b.g + i, b.data.extractLsb' (64 * i) 64, m, b.poison⟩))

/-- The owner code of a run-ahead engine (Table 2.7). -/
def raeOwner (u : UnitId) : Nat :=
  match u with
  | .rae n => 2 + n
  | _ => 0

/-- The first word of a list of writes that lies in a bank of another owner. -/
def foreignWord (s : State) (ti owner : Nat) (ws : List SramWrite) : Option Nat :=
  (ws.find? (fun x => decide (s.bankOwner ti (x.word / 16384) ≠ owner))).map (fun x => x.word)

/-- Replace an entry of a tile's queue. -/
def Tile.putEntry (t : Tile) (e : QEntry) : Tile :=
  { t with queue := t.queue.map (fun x => if x.serial = e.serial then e else x) }

/-- The command of a tile that a response refers to. -/
def Tile.entry? (t : Tile) (serial : Nat) : Option QEntry := t.queue.find? (fun e => e.serial = serial)

/-- Send the next request that a run-ahead engine holds back (02 R66). -/
def sendNext (s : State) (ti : Nat) (u : UnitId) : State :=
  let t := s.tile ti
  match t.queue.find? (fun e => decide (e.unit = u) && !e.unsent.isEmpty) with
  | none => s
  | some e =>
    match e.unsent with
    | [] => s
    | p :: r => (s.modTile ti (fun t => t.putEntry { e with unsent := r })).send p

/-- RAE_READ_DATA (02 R67): the elements of the answer are written to the destination as the engine, poison with the
poison pattern; an answer to no waiting LOAD has no effect. -/
def execRaeReadData (p : Packet) (s : State) : Host.Outcome State Fault Refusal :=
  let s := s.arrive p
  let ti := p.dstId
  match (s.tile ti).entry? p.ref with
  | none => .next s
  | some e =>
    if e.cls ≠ 0x03 ∨ e.outstanding ≤ e.unsent.length then .next s
    else
      let ws := loadWrites p e.loads
      match foreignWord s ti (raeOwner e.unit) ws with
      | some w => .next (tileFault s ti cBankOwner e.slot e.vaddr (sramWindow + 8 * w))
      | none =>
        let s := writeSram s ti ws
        let s := s.modTile ti (fun t => t.putEntry { e with outstanding := e.outstanding - 1 })
        .next (sendNext s ti e.unit)

/-! ## STORE -/

/-- The operand's elements as they enter the store path. -/
def sourceVals (xs : List Elem) : List SVal := xs.map (fun x => ⟨x.val, x.poison⟩)

/-- Read all elements of an operand in descriptor order. -/
def readAll (s : State) (ti owner : Nat) (o : Operand) : List (List Nat) → Except Flt (List Elem)
  | [] => .ok []
  | i :: r =>
    match readElem s ti (s.tile ti).space owner o i, readAll s ti owner o r with
    | .error e, _ => .error e
    | _, .error e => .error e
    | .ok x, .ok xs => .ok (x :: xs)

/-- The descriptors of an operand. -/
def Operand.descs (o : Operand) : List Desc :=
  o.desc :: (match o.scale with
    | none => []
    | some d => [d])

/-- The scale links an operand's reading follows. -/
def Operand.links (o : Operand) : List Nat :=
  match o.scale with
  | none => []
  | some _ => [o.desc.scaleLink]

/-- Send values through the store path with the overlap rule (05 R148-R155). -/
def storeWork (s : State) (ti : Nat) (b : StoreBlk) (isStore isElt : Bool) (ops : List Operand) (staged : Nat)
    (src : Source) : Except Flt Work :=
  let reads := ops.flatMap Operand.footprints
  let banks := banksOf (reads ++ b.footprints)
  match overlapCase isStore isElt b reads (ops.map Operand.desc) staged with
  | .noOp => .ok { Work.none with banks := banks }
  | .refuse => .ok { Work.none with banks := banks, refused := true }
  | .run =>
    match storeWrites s ti (s.tile ti).space b src ((s.tile ti).ordinal + 1) with
    | .error e => .error e
    | .ok w =>
      .ok { Work.none with
        writes := w, banks := banks, views := ops.flatMap Operand.descs, links := ops.flatMap Operand.links
        oobReads := ((ops.flatMap Operand.descs).map Desc.oob).foldl (· + ·) 0, oobWrites := b.oob
        after := fun s => cacheViews s ti (s.tile ti).space (b.dst :: (match b.scale with | none => [] | some d => [d])) }

/-- The work of a STORE (05 R148): the source in the SRAM window, read as LAYOUT. -/
def workStore (s : State) (ti : Nat) (c : BitVec 512) : Except Flt Work :=
  match readOperand s ti (cf c 8 2) with
  | .error e => .error e
  | .ok o =>
    if !o.desc.inSram then badDesc o.desc
    else
      match readStoreBlk s ti c o.desc.shape with
      | .error e => .error e
      | .ok b =>
        match readAll s ti 6 o (indices o.desc.shape) with
        | .error e => .error e
        | .ok xs =>
          storeWork s ti b true false [o] o.desc.bytesIn ⟨o.desc.shape, sourceVals xs, List.range o.desc.count⟩

/-- STORE (05 R148). -/
def execStore (c : TileCmd) (s : State) : Host.Outcome State Fault Refusal :=
  .next (issueCmd s c 0x04 (fun s b => workStore s c.ti b))

/-! ## GATHER and SCATTER -/

/-- Put a coordinate at a dimension of an index. -/
def withAxis (idx : List Nat) (axis x : Nat) : List Nat := idx.set axis x

/-- The indices of one row: all but the indexed dimension (05 R156). -/
def rowIndices (shape : List Nat) (axis : Nat) : List (List Nat) := indices (shape.set axis 1)

/-- An index element: its value as a signed number and its poison (05 R158, R161). -/
def readIndices (s : State) (ti : Nat) (d : Desc) : List Nat → Except Flt (List (Int × Bool))
  | [] => .ok []
  | p :: r =>
    match readCode s ti (s.tile ti).space 8 d [p, 0, 0, 0, 0, 0], readIndices s ti d r with
    | .error e, _ => .error e
    | _, .error e => .error e
    | .ok (v, q), .ok xs => .ok ((toSigned 32 v, q) :: xs)

/-- An index after WRAP: in range for `n` rows, or none (05 R158). -/
def wrapIndex (wrap : Bool) (n : Nat) (x : Int) : Option Nat :=
  let y := if wrap && decide (x < 0) then x + n else x
  if 0 ≤ y ∧ y < (n : Int) then some y.toNat else none

/-- The codes of a row of a view. -/
def readRow (s : State) (ti : Nat) (d : Desc) (axis x : Nat) : List (List Nat) → Except Flt (List (Nat × Bool))
  | [] => .ok []
  | i :: r =>
    match readCode s ti (s.tile ti).space 8 d (withAxis i axis x), readRow s ti d axis x r with
    | .error e, _ => .error e
    | _, .error e => .error e
    | .ok v, .ok xs => .ok (v :: xs)

/-- The rows of a gather, in increasing position: the codes written at each. -/
def gatherRows (s : State) (ti : Nat) (tab : Desc) (axis : Nat) (wrap : Bool) :
    List (Int × Bool) → Except Flt (List (List (Nat × Bool)))
  | [] => .ok []
  | (x, poison) :: r =>
    let is := rowIndices tab.shape axis
    let row : Except Flt (List (Nat × Bool)) :=
      if poison then .ok (is.map (fun _ => (0, true)))
      else
        match wrapIndex wrap (tab.size axis) x with
        | none => .ok (is.map (fun _ => (tab.fill, false)))
        | some k => readRow s ti tab axis k is
    match row, gatherRows s ti tab axis wrap r with
    | .error e, _ => .error e
    | _, .error e => .error e
    | .ok v, .ok vs => .ok (v :: vs)

/-- Cut a list into windows of 256 positions (05 R157). -/
def windows {α : Type} (l : List α) : List (List α) :=
  (List.range ((l.length + 255) / 256)).map (fun w => (l.drop (256 * w)).take 256)

/-- The distinct in-range rows that a window fetches (05 R157). -/
def windowFetches (wrap : Bool) (n : Nat) (w : List (Int × Bool)) : List Nat :=
  (w.filterMap (fun x => if x.2 then none else wrapIndex wrap n x.1)).eraseDups

/-- The elements of a row of a view that are out of bounds (05 R158). -/
def rowOob (d : Desc) (axis x : Nat) : Nat :=
  ((rowIndices d.shape axis).filter (fun i => !d.inb (withAxis i axis x))).length

/-- A poisoned index is a consumption of poison (Table 9.4). -/
def noteIndexPoison (s : State) (ti n : Nat) : State :=
  (List.range n).foldl (fun s _ => poisonMet s ti 6 0 s.round) s

/-- The index tensor: INT32 with NDIM 1 (05 R156). -/
def indexOk (d : Desc) : Bool := decide (d.fmt = .int32) && decide (d.ndim = 1)

/-- The work of a GATHER (05 R156-R158, R161). -/
def workGather (s : State) (ti : Nat) (c : BitVec 512) : Except Flt Work :=
  match readDesc s ti (cf c 8 2), readDesc s ti (cf c 10 2), readDesc s ti (cf c 12 2) with
  | .error e, _, _ => .error e
  | _, .error e, _ => .error e
  | _, _, .error e => .error e
  | .ok tab, .ok ix, .ok dst =>
    let axis := cf c 14 1
    let wrap := bitOf (cMode c) 0
    let ni := ix.size 0
    let prints := [tab.footprint, ix.footprint, dst.footprint]
    if !indexOk ix ∨ tab.ndim ≤ axis ∨ dst.shape ≠ tab.shape.set axis ni ∨ tab.fmt ≠ dst.fmt then badDesc (if indexOk ix then dst else ix)
    else if overlaps dst.footprint tab.footprint || overlaps dst.footprint ix.footprint then
      .ok { Work.none with banks := banksOf prints, refused := true }
    else
      match readIndices s ti ix (List.range ni) with
      | .error e => .error e
      | .ok xs =>
        match gatherRows s ti tab axis wrap xs with
        | .error e => .error e
        | .ok rows =>
          let is := rowIndices tab.shape axis
          let elems := rows.mapIdx (fun p row => (is.zip row).map (fun x => (withAxis x.1 axis p, x.2.1, x.2.2)))
          match placeAll s ti (s.tile ti).space 8 dst [] elems.flatten with
          | .error e => .error e
          | .ok bufs =>
            let fetches := (windows xs).map (windowFetches wrap (tab.size axis))
            let outs := (xs.filter (fun x => !x.2 && decide (wrapIndex wrap (tab.size axis) x.1 = none))).length
            let poisoned := (xs.filter (fun x => x.2)).length
            let fetched := fetches.flatten
            .ok { Work.none with
              writes := granWrites bufs, banks := banksOf prints
              views := [ix]
              oobReads := ix.oob + outs * is.length + (fetched.map (rowOob tab axis)).foldl (· + ·) 0
              oobWrites := dst.oob
              after := fun s =>
                let s := noteIndexPoison s ti poisoned
                let s := fetched.foldl (fun (s : State) (k : Nat) =>
                  noteViews s ti (s.tile ti).space [{ tab with
                    dims := tab.dims.set axis { tab.dim axis with size := 1, start := (tab.dim axis).start + (k : Int) } }]) s
                let s := (s.count (tileReg ti Reg.LAY_GATHER_FETCH) fetched.length).count
                  (tileReg ti Reg.LAY_GATHER_ROWS) ni
                cacheViews s ti (s.tile ti).space [tab, dst] }

/-- GATHER (05 R156). -/
def execGather (c : TileCmd) (s : State) : Host.Outcome State Fault Refusal :=
  .next (issueCmd s c 0x05 (fun s b => workGather s c.ti b))

/-- Apply writes at once, as a later window of the same command sees them. -/
def applyWrites (s : State) (ti : Nat) (w : Writes) : State :=
  w.mem.foldl (fun s x =>
    match x.tier with
    | .stack => writeStackGran s ti x.addr x.data x.mask x.poison
    | _ => writeBonded s ti x) (writeSram s ti w.sram)

/-- The formats that combine (05 R159). -/
def combinable (f : Fmt) : Bool := decide (f = .fp32) || decide (f = .bf16) || decide (f = .fp16) || decide (f = .int32)

/-- Two values combined: FP32 addition or maximum, exact in INT32 (05 R159). -/
def combine2 (int : Bool) (op : Nat) (x y : Num) : Num :=
  if op = 2 then x.max y else if int then x.add y else fadd (fp32 x) (fp32 y)

/-- The destination code of a combined value: rounded to nearest even; an INT32 sum out of range is a value the spec
does not state (log 14). -/
def combineCode (f : Fmt) (int : Bool) (x : Num) : Nat :=
  if int then
    match x with
    | .fin a m e =>
      let z := sgn a (m <<< e.toNat)
      if -(2 ^ 31 : Int) ≤ z ∧ z < 2 ^ 31 then f.encode .rne x else (Config.int32Sum z).toNat
    | _ => f.encode .rne x
  else f.encode .rne x

/-- The rows of a window that go to one destination row, combined in increasing position (05 R159, R161). -/
def scatterRow (s : State) (ti : Nat) (src dst : Desc) (axis op k : Nat) (ps : List Nat) :
    Except Flt (List (List Nat × Nat × Bool)) :=
  let is := rowIndices src.shape axis
  let int := decide (src.fmt = .int32) && decide (dst.fmt = .int32)
  let rows : Except Flt (List (List (Nat × Bool))) := ps.foldr (fun p acc =>
    match acc, readRow s ti src axis p is with
    | .error e, _ => .error e
    | _, .error e => .error e
    | .ok rs, .ok r => .ok (r :: rs)) (.ok [])
  match rows with
  | .error e => .error e
  | .ok rows =>
    if op = 0 then
      .ok ((is.zip ((rows.getLast?).getD [])).map (fun x => (withAxis x.1 axis k, x.2.1, x.2.2)))
    else
      match readRow s ti dst axis k is with
      | .error e => .error e
      | .ok old =>
        let bad := rows.any (fun r => r.any (fun x => x.2))
        .ok (is.mapIdx (fun j i =>
          let col := rows.map (fun r => src.fmt.value ((r[j]?).getD (0, false)).1)
          let sum := match col with
            | [] => Num.zero
            | x :: xs => xs.foldl (combine2 int op) x
          let o := (old[j]?).getD (0, false)
          (withAxis i axis k, combineCode dst.fmt int (combine2 int op (dst.fmt.value o.1) sum), bad || o.2)))

/-- The destination rows of a window, in order of first appearance. -/
def scatterWindow (s : State) (ti : Nat) (src dst : Desc) (axis op : Nat) (wrap : Bool) (w : List (Nat × Int × Bool)) :
    List Nat → Except Flt (List (List Nat × Nat × Bool))
  | [] => .ok []
  | k :: r =>
    let ps := (w.filter (fun x => !x.2.2 && decide (wrapIndex wrap (dst.size axis) x.2.1 = some k))).map (·.1)
    match scatterRow s ti src dst axis op k ps, scatterWindow s ti src dst axis op wrap w r with
    | .error e, _ => .error e
    | _, .error e => .error e
    | .ok a, .ok b => .ok (a ++ b)

/-- The windows of a scatter in order, each seeing what the ones before it wrote. -/
def scatterAll (s : State) (ti : Nat) (src dst : Desc) (axis op : Nat) (wrap : Bool) :
    List (List (Nat × Int × Bool)) → Except Flt Writes
  | [] => .ok Writes.none
  | w :: r =>
    let ks := windowFetches wrap (dst.size axis) (w.map (·.2))
    match scatterWindow s ti src dst axis op wrap w ks with
    | .error e => .error e
    | .ok es =>
      match placeAll s ti (s.tile ti).space 8 dst [] es with
      | .error e => .error e
      | .ok bufs =>
        match scatterAll (applyWrites s ti (granWrites bufs)) ti src dst axis op wrap r with
        | .error e => .error e
        | .ok ws => .ok ((granWrites bufs).append ws)

/-- COMBINE other than 0 reads the destination and needs READ permission on it (05 Table 5.5): the reads of the rows
are made with read permission. -/
def workScatter (s : State) (ti : Nat) (c : BitVec 512) : Except Flt Work :=
  match readDesc s ti (cf c 8 2), readDesc s ti (cf c 10 2), readDesc s ti (cf c 12 2) with
  | .error e, _, _ => .error e
  | _, .error e, _ => .error e
  | _, _, .error e => .error e
  | .ok src, .ok ix, .ok dst =>
    let axis := cf c 14 1
    let op := cf c 15 1
    let wrap := bitOf (cMode c) 0
    let ni := ix.size 0
    let prints := [src.footprint, ix.footprint, dst.footprint]
    let fmtOk := if op = 0 then decide (src.fmt = dst.fmt) else combinable src.fmt && combinable dst.fmt
    if !indexOk ix ∨ dst.ndim ≤ axis ∨ src.shape ≠ dst.shape.set axis ni ∨ !fmtOk then badDesc (if indexOk ix then dst else ix)
    else if overlaps dst.footprint src.footprint || overlaps dst.footprint ix.footprint then
      .ok { Work.none with banks := banksOf prints, refused := true }
    else
      match readIndices s ti ix (List.range ni) with
      | .error e => .error e
      | .ok xs =>
        let num := xs.mapIdx (fun p x => (p, x.1, x.2))
        match scatterAll s ti src dst axis op wrap (windows num) with
        | .error e => .error e
        | .ok ws =>
          let rowLen := (rowIndices dst.shape axis).length
          let dropped := (xs.filter (fun x => x.2 || decide (wrapIndex wrap (dst.size axis) x.1 = none))).length
          let poisoned := (xs.filter (fun x => x.2)).length
          let rowsW := (windows num).flatMap (fun w => windowFetches wrap (dst.size axis) (w.map (·.2)))
          .ok { Work.none with
            writes := ws, banks := banksOf prints, views := [src, ix]
            oobReads := ix.oob + src.oob
            oobWrites := dropped * rowLen + (rowsW.map (rowOob dst axis)).foldl (· + ·) 0
            after := fun s => cacheViews (noteIndexPoison s ti poisoned) ti (s.tile ti).space [dst] }

/-- SCATTER (05 R159). -/
def execScatter (c : TileCmd) (s : State) : Host.Outcome State Fault Refusal :=
  .next (issueCmd s c 0x06 (fun s b => workScatter s c.ti b))

end Sys2Proof.Machine
end

