-- ==== Sys2Proof/Machine/Vector.lean ====
section
/-! DEFINITION. The vector unit: ELTWISE and REDUCE (02 R69-R71). -/
namespace Sys2Proof.Machine

/-- EXP: its special values, and a result within 2 ulp (Table 2.9, log 15). -/
def vexp (x : Num) : Num :=
  match x with
  | .nan => .nan
  | .inf true => Num.zero
  | .inf false => .inf false
  | _ => nudge 2 0x0B x (expNum x)

/-- LOG: as vexp. -/
def vlog (x : Num) : Num :=
  match x with
  | .nan => .nan
  | .inf true => .nan
  | .inf false => .inf false
  | .fin neg m e =>
    if m = 0 then .inf true
    else if neg then .nan
    else nudge 2 0x0C x (lnNum m e)

/-- RECIP and RSQRT within 1 ulp of the correctly rounded result; their values at zeros and infinities are exact. -/
def vrecip (x : Num) : Num :=
  match x with
  | .fin _ m _ => if m = 0 then fdiv Num.one x else nudge 1 0x0D x (Num.one.div x)
  | _ => fdiv Num.one x
def vrsqrt (x : Num) : Num :=
  match x with
  | .nan => .nan
  | .inf true => .nan
  | .inf false => Num.zero
  | .fin neg m _ =>
    if m = 0 then .inf neg
    else if neg then .nan
    else nudge 1 0x0E x (Num.div Num.one x.sqrt)

/-- An ELTWISE operation on FP32 values (Table 2.9). -/
def eltOp (op : Nat) (imm0 imm1 a b c : Num) : Num :=
  match op with
  | 0x01 => fadd a b
  | 0x02 => fsub a b
  | 0x03 => fmul a b
  | 0x04 => ffma a b c
  | 0x05 => a.max b
  | 0x06 => a.min b
  | 0x07 => a.abs
  | 0x08 => a.neg
  | 0x09 => ffma a imm0 imm1
  | 0x0A => (a.max imm0).min imm1
  | 0x0B => vexp a
  | 0x0C => vlog a
  | 0x0D => vrecip a
  | _ => vrsqrt a

/-- A vector-unit source (02 R70): in the SRAM window, not E8M0, of SRC0's rank, each size SRC0's or 1. -/
def vecSourceOk (o : Operand) (d0 : Desc) : Bool :=
  o.desc.inSram && decide (o.desc.fmt ≠ .e8m0) && decide (o.desc.ndim = d0.ndim) &&
    (List.range 6).all (fun k => decide (o.desc.size k = d0.size k) || decide (o.desc.size k = 1))

/-- Read the operands of a list of descriptor fields. -/
def readOperands (s : State) (ti : Nat) : List Nat → Except Flt (List Operand)
  | [] => .ok []
  | di :: r =>
    match readOperand s ti di, readOperands s ti r with
    | .error e, _ => .error e
    | _, .error e => .error e
    | .ok o, .ok os => .ok (o :: os)

/-- An index of the result shape as a broadcast source takes it. -/
def castIdx (d : Desc) (i : List Nat) : List Nat := i.mapIdx (fun k x => if d.size k = 1 then 0 else x)

/-- The columns of values of several operands, in the order of the result. -/
def readColumns (s : State) (ti : Nat) (is : List (List Nat)) : List Operand → Except Flt (List (List Elem))
  | [] => .ok []
  | o :: r =>
    match readAll s ti 1 o (is.map (castIdx o.desc)), readColumns s ti is r with
    | .error e, _ => .error e
    | _, .error e => .error e
    | .ok x, .ok xs => .ok (x :: xs)

/-- Result bytes written by a store block: the staged amount of the overlap rule. -/
def StoreBlk.bytes (b : StoreBlk) : Nat := b.dst.bytesIn

/-- The work of an ELTWISE (02 R69, R70). -/
def workEltwise (s : State) (ti : Nat) (c : BitVec 512) : Except Flt Work :=
  let op := cf c 8 1
  let n := eltSources op
  match readOperands s ti ((List.range n).map (fun i => cf c (10 + 2 * i) 2)) with
  | .error e => .error e
  | .ok [] => flt cFieldRange
  | .ok (o0 :: os) =>
    match (o0 :: os).find? (fun o => !vecSourceOk o o0.desc) with
    | some o => badDesc o.desc
    | none =>
      match readStoreBlk s ti c o0.desc.shape with
      | .error e => .error e
      | .ok b =>
        let is := indices o0.desc.shape
        match readColumns s ti is (o0 :: os) with
        | .error e => .error e
        | .ok cols =>
          let col (k j : Nat) : Elem := ((((cols[k]?).getD [])[j]?).getD padElem')
          let vals := (List.range is.length).map (fun j =>
            (⟨eltOp op (ofFP32 (cf c 16 4)) (ofFP32 (cf c 20 4)) (fp32 (col 0 j).val) (fp32 (col 1 j).val)
                (fp32 (col 2 j).val),
              (List.range n).any (fun k => (col k j).poison)⟩ : SVal))
          storeWork s ti b false true (o0 :: os) b.bytes ⟨o0.desc.shape, vals, List.range is.length⟩
where
  /-- A value no source has. -/
  padElem' : Elem := ⟨Num.zero, 0, false⟩

/-- ELTWISE (02 R69). -/
def execEltwise (c : TileCmd) (s : State) : Host.Outcome State Fault Refusal :=
  .next (issueCmd s c 0x07 (fun s b => workEltwise s c.ti b))

/-- The first value of a lane and how it takes later elements (02 R71, Table 2.10). -/
def laneFirst (op : Nat) (a : Num) : Num := if op = 4 then fmul a a else a
def laneNext (op : Nat) (s a : Num) : Num :=
  match op with
  | 2 => s.max a
  | 3 => s.min a
  | 4 => ffma a a s
  | _ => fadd s a
/-- Two lane results combined. -/
def laneJoin (op : Nat) (x y : Num) : Num :=
  match op with
  | 2 => x.max y
  | 3 => x.min y
  | _ => fadd x y

/-- Put an element into a lane. -/
def laneAdd (op : Nat) (l : Option Num) (a : Num) : Option Num :=
  match l with
  | none => some (laneFirst op a)
  | some s => some (laneNext op s a)

/-- One level of combining: neighbours join, a lane without a result passes its partner on. -/
def laneLevel (op : Nat) : List (Option Num) → List (Option Num)
  | x :: y :: r =>
    (match x, y with
     | some a, some b => some (laneJoin op a b)
     | some a, none => some a
     | none, b => b) :: laneLevel op r
  | l => l

/-- The lanes after a group's elements: element i enters lane i mod 128. -/
def lanesOf (op : Nat) (xs : List Num) : List (Option Num) :=
  (List.range 128).map (fun l =>
    ((List.range ((xs.length + 127) / 128)).filterMap (fun r => xs[128 * r + l]?)).foldl (laneAdd op) none)

/-- A group reduced in the fixed order of R71; LSE's value at finite operands is uninterpreted (log 15). -/
def reduceGroup (op : Nat) (xs : List Num) : Num :=
  if op = 5 then
    if xs.any (fun x => decide (x = .nan)) then .nan
    else if xs.any (fun x => decide (x = .inf false)) then .inf false
    else if xs.all (fun x => decide (x = .inf true)) then .inf true
    else ofFP32 (Config.lse (xs.map (fun x => BitVec.ofNat 32 (toFP32 x)))).toNat
  else
    let l := (List.range 7).foldl (fun l _ => laneLevel op l) (lanesOf op xs)
    (l.head?.getD none).getD Num.zero

/-- The shape with each reduced dimension of size 1 (Table 5.6), and the shape of one group. -/
def keptShape (axes : Nat) (shape : List Nat) : List Nat := shape.mapIdx (fun k n => if bitOf axes k then 1 else n)
def groupShape (axes : Nat) (shape : List Nat) : List Nat := shape.mapIdx (fun k n => if bitOf axes k then n else 1)

/-- The work of a REDUCE (02 R71). -/
def workReduce (s : State) (ti : Nat) (c : BitVec 512) : Except Flt Work :=
  let op := cf c 8 1
  let axes := cf c 9 1
  match readOperand s ti (cf c 10 2) with
  | .error e => .error e
  | .ok o =>
    let shape := o.desc.shape
    if !vecSourceOk o o.desc then badDesc o.desc
    else
      match readStoreBlk s ti c (keptShape axes shape) with
      | .error e => .error e
      | .ok b =>
        match readAll s ti 1 o (indices shape) with
        | .error e => .error e
        | .ok xs =>
          let vals := (indices (keptShape axes shape)).map (fun i =>
            let es := (indices (groupShape axes shape)).map (fun j =>
              (xs[linear shape (i.zipWith (· + ·) j)]?).getD ⟨Num.zero, 0, false⟩)
            (⟨reduceGroup op (es.map (fun e => fp32 e.val)), es.any (fun e => e.poison)⟩ : SVal))
          storeWork s ti b false false [o] b.bytes ⟨keptShape axes shape, vals, List.range vals.length⟩

/-- REDUCE (02 R71). -/
def execReduce (c : TileCmd) (s : State) : Host.Outcome State Fault Refusal :=
  .next (issueCmd s c 0x08 (fun s b => workReduce s c.ti b))

end Sys2Proof.Machine
end

