-- ==== Sys2Proof/Machine/Attention.lean ====
section
/-! DEFINITION. The attention controller (06): sequences, KV_APPEND with its flushes, ATTN_SCORE, ATTN_APPLY, and the
commit and restoring of sequences. -/
namespace Sys2Proof.Machine

/-! ## Directory and page list -/

/-- Read `n` bytes at a virtual address as the attention controller (06 R172, R185). -/
def readVa (s : State) (ti space va n : Nat) : Except Flt (Nat × Bool) :=
  match s.place ti space va false with
  | .bad cause => fltAt cause va
  | .sram b => if s.bankOwner ti (bankOf b) ≠ 7 then fltAt cBankOwner va else .ok ((s.tile ti).bytes ti b n)
  | .mem tier a => .ok (s.memBytes ti tier a n)

/-- A fault by poison met in a directory entry, page list or state record (Table 9.4, row 4). -/
def fltPoison {α : Type} (addr : Nat) : Except Flt α := .error ⟨cDescriptor, addr, some 4⟩

/-- The entry of the directory at an index: its 32 bytes, and poison (06 Table 6.4). -/
def State.dirRead (s : State) (ti i : Nat) : Option (Nat × Bool) :=
  match s.tableAddr ti (s.fld (tileReg ti Reg.ATN_DIR_BASE) 26 12 * 4096) (32 * i) with
  | none => none
  | some (tier, a) => some (s.memBytes ti tier a 32)

/-- What 32 bytes of a directory entry say. -/
def dirOf (v i : Nat) : DirEntry :=
  ⟨sf v 0 2 % 2 ^ 14, sf v 2 2, sf v 4 2, sf v 8 6, sf v 16 4, sf v 20 4, i⟩

/-- Probe the directory in memory for a sequence (06 R170). -/
def dirProbe (s : State) (ti session layer hg len h : Nat) : List Nat → Except Flt DirEntry
  | [] => flt cDescriptor
  | k :: r =>
    let i := (h + k) % len
    match s.dirRead ti i with
    | none => flt cDescriptor
    | some (v, poison) =>
      if poison then fltPoison (32 * i)
      else
        let e := dirOf v i
        if sf v 0 2 / 2 ^ 15 = 1 ∧ e.session = session ∧ e.layer = layer ∧ e.headGroup = hg then .ok e
        else dirProbe s ti session layer hg len h r

/-- Look a sequence up: the controller's cache, then the directory (06 R170, R171). -/
def dirLookup (s : State) (ti session layer hg : Nat) : Except Flt DirEntry :=
  match (s.tile ti).dirCache.find? (fun e =>
    decide (e.session = session) && decide (e.layer = layer) && decide (e.headGroup = hg)) with
  | some e => .ok e
  | none =>
    let r := s.reg (tileReg ti Reg.ATN_DIR_LEN)
    let len := getBits r 10 0
    if getBits r 31 31 = 0 ∨ len = 0 ∨ 1024 < len then flt cDescriptor
    else dirProbe s ti session layer hg len ((session * 31 + layer * 7 + hg) % len) (List.range 8)

/-- Put an entry into the cache, oldest out beyond 64 (06 R171). -/
def cacheDir (s : State) (ti : Nat) (e : DirEntry) : State :=
  s.modTile ti (fun t =>
    let l := t.dirCache.filter (fun x => x.entry ≠ e.entry) ++ [e]
    { t with dirCache := if 64 < l.length then l.drop 1 else l })

/-- Write `n` bytes of a tier inside one granule. -/
def putBytes (s : State) (ti : Nat) (tier : Tier) (addr n v : Nat) : State :=
  let off := 8 * (addr % 32)
  let x : MemWrite := ⟨tier, addr / 32 * 32, BitVec.ofNat 256 ((v % 2 ^ (8 * n)) <<< off),
    BitVec.ofNat 256 ((2 ^ (8 * n) - 1) <<< off), false⟩
  match tier with
  | .stack => writeStackGran s ti x.addr x.data x.mask x.poison
  | _ => writeBonded s ti x

/-- Write NEXT_POS of a directory entry, in the cache and in memory (06 Table 6.4). -/
def setNextPos (s : State) (ti : Nat) (e : DirEntry) (n : Nat) : State :=
  let s := s.modTile ti (fun t => { t with
    dirCache := t.dirCache.map (fun x => if x.entry = e.entry then { x with nextPos := n } else x) })
  match s.tableAddr ti (s.fld (tileReg ti Reg.ATN_DIR_BASE) 26 12 * 4096) (32 * e.entry) with
  | none => s
  | some (tier, a) => putBytes s ti tier (a + 20) 4 n

/-- A page list header (06 Table 6.2). -/
structure PageHdr where
  session : Nat
  layer : Nat
  headGroup : Nat
  kfmt : Fmt
  vfmt : Fmt
  dk : Nat
  dv : Nat
  committed : Nat
  capacity : Nat
  sink : Nat
  recent : Nat
  summary : Nat
deriving DecidableEq, Repr

/-- Read the header of a page list; one in poison or with a format or size outside Table 6.2 is a DESCRIPTOR fault. -/
def readHdr (s : State) (ti space va : Nat) : Except Flt PageHdr :=
  match readVa s ti space va 32 with
  | .error e => .error e
  | .ok (v, poison) =>
    if poison then fltPoison va
    else
      let dim (n : Nat) : Bool := inRange n 32 256 && decide (n % 32 = 0)
      match Fmt.ofCode (sf v 6 1), Fmt.ofCode (sf v 7 1) with
      | some k, some w =>
        let ok (f : Fmt) : Bool := [Fmt.e4m3, .e5m2, .bf16, .fp16].contains f
        if ok k && ok w && dim (sf v 8 2) && dim (sf v 10 2) then
          .ok ⟨sf v 0 2 % 2 ^ 14, sf v 2 2, sf v 4 2, k, w, sf v 8 2, sf v 10 2, sf v 12 4, sf v 16 4, sf v 20 1, sf v 21 1,
            sf v 24 6⟩
        else flt cDescriptor
      | _, _ => flt cDescriptor

/-- Element bytes of keys and values. -/
def PageHdr.kb (h : PageHdr) : Nat := h.kfmt.width / 8
def PageHdr.vb (h : PageHdr) : Nat := h.vfmt.width / 8
/-- Byte offset of the values in a staging buffer (06 R170), and its size. -/
def PageHdr.valOff (h : PageHdr) : Nat := 64 * h.dk * h.kb
def PageHdr.stageSize (h : PageHdr) : Nat := 64 * (h.dk * h.kb + h.dv * h.vb)

/-- The frame address of page `i`; a missing, poisoned or unmapped entry is a DESCRIPTOR fault. -/
def readFrame (s : State) (ti space list i cap : Nat) : Except Flt Nat :=
  if cap ≤ i then flt cDescriptor
  else
    match readVa s ti space (list + 64 + 8 * i) 8 with
    | .error e => .error e
    | .ok (v, poison) => if poison then fltPoison (list + 64 + 8 * i) else if v / 2 ^ 63 = 1 then .ok (v % 2 ^ 48) else flt cDescriptor

/-- Whether a range of SRAM bytes lies in banks of an owner. -/
def ownedRange (s : State) (ti owner addr n : Nat) : Bool :=
  decide (addr + n ≤ sramBytes) &&
    (List.range 12).all (fun b => decide (b < bankOf addr) || decide (bankOf (addr + n - 1) < b) ||
      decide (s.bankOwner ti b = owner))

/-- The banks a range touches. -/
def rangeBanks (addr n : Nat) : BitVec 12 :=
  footprintBanks (some ((sramWindow + addr : Nat), ((sramWindow + addr + n - 1 : Nat) : Int)))

/-! ## KV_APPEND -/

/-- A code with its poison mark. -/
abbrev Code := Nat × Bool

/-- The codes of a row of a K_DI or V_DI operand, read as ATTN. -/
def readTokens (s : State) (ti : Nat) (d : Desc) : List Nat → Except Flt (List (List Code))
  | [] => .ok []
  | j :: r =>
    let row : Except Flt (List Code) := (List.range (d.size 0)).foldr (fun x acc =>
      match acc, readCode s ti (s.tile ti).space 7 d [x, j, 0, 0, 0, 0] with
      | .error e, _ => .error e
      | _, .error e => .error e
      | .ok l, .ok c => .ok (c :: l)) (.ok [])
    match row, readTokens s ti d r with
    | .error e, _ => .error e
    | _, .error e => .error e
    | .ok x, .ok xs => .ok (x :: xs)

/-- The codes of a slot as staging holds them: keys or values. -/
def stagedSlot (t : Tile) (ti base width len slot : Nat) : List Code :=
  (List.range len).map (fun d => t.bits ti (8 * (base + (slot * len + d) * width)) (8 * width))

/-- The place of a mean over keys: summed in FP32 in slot order, divided, rounded to BF16 (06 R169). -/
def summaryMean (xs : List Num) : Nat :=
  match xs with
  | [] => 0
  | x :: r => Fmt.bf16.encode .rne (fdiv (r.foldl fadd x) (Num.ofInt xs.length 0 false))

/-- Granules under construction in memory: `n` elements of `w` bits from a virtual address, with WRITE permission. -/
def placeVa (s : State) (ti space : Nat) (va w : Nat) :
    List GranBuf → Nat → List Code → Except Flt (List GranBuf)
  | bufs, _, [] => .ok bufs
  | bufs, i, c :: r =>
    let bit := 8 * va + i * w
    match s.place ti space (bit / 8) true with
    | .bad cause => fltAt cause (bit / 8)
    | .sram b =>
      if s.bankOwner ti (bankOf b) ≠ 7 then fltAt cBankOwner (bit / 8)
      else placeVa s ti space va w (addElem bufs none (8 * b + bit % 8) w c.1 c.2) (i + 1) r
    | .mem tier a => placeVa s ti space va w (addElem bufs (some tier) (8 * a + bit % 8) w c.1 c.2) (i + 1) r

/-- The 64 bytes of a frame header (06 Table 6.1), as 8-byte codes. -/
def frameHeader (session layer hg count page : Nat) (h : PageHdr) : List Code :=
  let v := session + layer * 2 ^ 16 + hg * 2 ^ 32 + count * 2 ^ 48 + page * 2 ^ 64 + h.kfmt.code * 2 ^ 96 +
    h.vfmt.code * 2 ^ 104 + h.dk * 2 ^ 112 + h.dv * 2 ^ 128
  (List.range 8).map (fun i => ((v >>> (64 * i)) % 2 ^ 64, false))

/-- The writes of a flush: the whole frame and the summary entry, in poison where a key is poisoned
(06 R169, R173, R176, R191). `keys` and `vals` are the codes of the slots held; the slots above hold zero. -/
def flushWrites (s : State) (ti space session layer hg page frame : Nat) (h : PageHdr) (keys vals : List (List Code)) :
    Except Flt Writes :=
  let zeroK := List.replicate ((64 - keys.length) * h.dk) ((0, false) : Code)
  let zeroV := List.replicate ((64 - vals.length) * h.dv) ((0, false) : Code)
  match placeVa s ti space frame 64 [] 0 (frameHeader session layer hg keys.length page h) with
  | .error e => .error e
  | .ok b0 =>
    match placeVa s ti space (frame + 64) h.kfmt.width b0 0 (keys.flatten ++ zeroK) with
    | .error e => .error e
    | .ok b1 =>
      match placeVa s ti space (frame + 64 + h.valOff) h.vfmt.width b1 0 (vals.flatten ++ zeroV) with
      | .error e => .error e
      | .ok b2 =>
        let bad := keys.any (fun r => r.any (·.2))
        let mean := (List.range h.dk).map (fun d =>
          (summaryMean (keys.map (fun r => h.kfmt.value ((r[d]?).getD (0, false)).1)), bad))
        match placeVa s ti space (h.summary + page * 2 * h.dk) 16 [] 0 mean with
        | .error e => .error e
        | .ok b3 => .ok ((granWrites b2).append (granWrites b3))

/-- The word writes of tokens into staging. -/
def stageWrites (stage w len : Nat) (rows : List (Nat × List Code)) : List SramWrite :=
  (granWrites (rows.foldl (fun b r =>
    (r.2.mapIdx (fun d c => (d, c))).foldl (fun b x =>
      addElem b none (8 * (stage + (r.1 * len + x.1) * w)) (8 * w) x.2.1 x.2.2) b) [])).sram

/-- The work of a KV_APPEND (06 R172-R174). -/
def workKvAppend (s : State) (ti : Nat) (c : BitVec 512) : Except Flt Work :=
  let t := s.tile ti
  let space := t.space
  let session := cf c 12 2 % 2 ^ 14
  let hg := cf c 14 2
  let layer := cf c 16 2
  let ntok := cf c 18 2
  match readDesc s ti (cf c 8 2), readDesc s ti (cf c 10 2), dirLookup s ti session layer hg with
  | .error e, _, _ => .error e
  | _, .error e, _ => .error e
  | _, _, .error e => .error e
  | .ok kd, .ok vd, .ok e =>
    match readHdr s ti space e.pageList with
    | .error x => .error x
    | .ok h =>
      if cf c 20 4 ≠ e.nextPos then flt cFieldRange
      else if kd.shape ≠ [h.dk, ntok, 1, 1, 1, 1] ∨ vd.shape ≠ [h.dv, ntok, 1, 1, 1, 1] ∨ kd.fmt ≠ h.kfmt ∨
          vd.fmt ≠ h.vfmt ∨ !kd.inSram ∨ !vd.inSram then
        badDesc (if kd.shape = [h.dk, ntok, 1, 1, 1, 1] ∧ kd.fmt = h.kfmt ∧ kd.inSram then vd else kd)
      else if !ownedRange s ti 7 e.stageAddr h.stageSize then fltAt cBankOwner (sramWindow + e.stageAddr)
      else
        match readTokens s ti kd (List.range ntok), readTokens s ti vd (List.range ntok) with
        | .error x, _ => .error x
        | _, .error x => .error x
        | .ok ks, .ok vs =>
          let used := e.nextPos % 64
          let page := e.nextPos / 64
          let valBase := e.stageAddr + h.valOff
          let oldK := (List.range used).map (fun j => stagedSlot t ti e.stageAddr h.kb h.dk j)
          let oldV := (List.range used).map (fun j => stagedSlot t ti valBase h.vb h.dv j)
          let numbered (xs : List (List Code)) : List (Nat × List Code) := xs.mapIdx (fun i r => ((used + i) % 64, r))
          let sw := stageWrites e.stageAddr h.kb h.dk (numbered ks) ++ stageWrites valBase h.vb h.dv (numbered vs)
          let flush : Except Flt Writes :=
            if used + ntok < 64 then .ok Writes.none
            else
              match readFrame s ti space e.pageList page h.capacity with
              | .error x => .error x
              | .ok f =>
                flushWrites s ti space session layer hg page f h ((oldK ++ ks).take 64) ((oldV ++ vs).take 64)
          match flush with
          | .error x => .error x
          | .ok w =>
            let next := e.nextPos + ntok
            .ok { Work.none with
              writes := ⟨sw ++ w.sram, w.mem⟩
              banks := banksOf [kd.footprint, vd.footprint] ||| rangeBanks e.stageAddr h.stageSize
              views := [kd, vd]
              oobReads := kd.oob + vd.oob
              after := fun s =>
                let s := cachePage s ti space (e.pageList / 0x200000)
                let s := setNextPos (cacheDir s ti e) ti e next
                let s := if used + ntok < 64 then s else s.count (tileReg ti Reg.ATN_FLUSHES) 1
                s.modTile ti (fun t => { t with
                  kvSpace := SMap.put t.kvSpace session space
                  kvMarks := t.kvMarks ++ [⟨session, layer, hg, cSlot c, next, space, e.pageList⟩] }) }

/-- KV_APPEND (06 R172). -/
def execKvAppend (c : TileCmd) (s : State) : Host.Outcome State Fault Refusal :=
  .next (issueCmd s c 0x0B (fun s b => workKvAppend s c.ti b))

/-! ## Commit and restore of sequences -/

/-- Write COMMITTED_LEN of the sequences that a committed step appended to (06 R175). -/
def commitKv (s : State) (ti slot : Nat) : State :=
  let ms := (s.tile ti).kvMarks.filter (fun m => decide (m.slot = slot))
  let s := ms.foldl (fun s m =>
    match s.place ti m.space (m.pageList + 12) false with
    | .mem tier a => putBytes s ti tier a 4 m.nextPos
    | _ => s) s
  s.modTile ti (fun t => { t with kvMarks := t.kvMarks.filter (fun m => decide (m.slot ≠ slot)) })

/-- Bring the committed tokens of a sequence's partial page back into staging from the frame that dropped work flushed
(06 R175). -/
def reloadStage (s : State) (ti space : Nat) (e : DirEntry) (h : PageHdr) : State :=
  match readFrame s ti space e.pageList (h.committed / 64) h.capacity with
  | .error _ => s
  | .ok f =>
    let row (va w len j : Nat) : List Code := (List.range len).map (fun d =>
      match readVa s ti space (va + (j * len + d) * w) w with
      | .ok c => c
      | .error _ => (0, true))
    let n := h.committed % 64
    let ks := (List.range n).map (fun j => (j, row (f + 64) h.kb h.dk j))
    let vs := (List.range n).map (fun j => (j, row (f + 64 + h.valOff) h.vb h.dv j))
    writeSram s ti (stageWrites e.stageAddr h.kb h.dk ks ++ stageWrites (e.stageAddr + h.valOff) h.vb h.dv vs)

/-- Return NEXT_POS of a sequence to COMMITTED_LEN (06 R175). -/
def restoreSeq (s : State) (ti : Nat) (m : KvMark) : State :=
  match dirLookup s ti m.session m.layer m.headGroup, readHdr s ti m.space m.pageList with
  | .ok e, .ok h =>
    let s := if h.committed / 64 < e.nextPos / 64 then reloadStage s ti m.space e h else s
    setNextPos s ti e h.committed
  | _, _ => s

/-- Drop the uncommitted appends of a tile (06 R175). -/
def dropKv (s : State) (ti : Nat) : State :=
  let ms := (s.tile ti).kvMarks
  let s := ms.foldl (fun s m => restoreSeq s ti m) s
  s.modTile ti (fun t => { t with kvMarks := [] })

/-- The directory entries of a tile that name a session. -/
def State.dirOfSession (s : State) (ti session : Nat) : List DirEntry :=
  let r := s.reg (tileReg ti Reg.ATN_DIR_LEN)
  if getBits r 31 31 = 0 ∨ 1024 < getBits r 10 0 then []
  else
    (List.range (getBits r 10 0)).filterMap (fun i =>
      match s.dirRead ti i with
      | some (v, false) => if sf v 0 2 = 2 ^ 15 + session then some (dirOf v i) else none
      | _ => none)

/-- Clear a directory entry. -/
def clearDir (s : State) (ti : Nat) (e : DirEntry) : State :=
  let s := s.modTile ti (fun t => { t with dirCache := t.dirCache.filter (fun x => x.entry ≠ e.entry) })
  match s.tableAddr ti (s.fld (tileReg ti Reg.ATN_DIR_BASE) 26 12 * 4096) (32 * e.entry) with
  | none => s
  | some (tier, a) => putBytes s ti tier a 2 0

/-- The flush of a partial page at close, and the clearing of the entry (06 R176). -/
def closeSeq (s : State) (ti space : Nat) (e : DirEntry) : State :=
  match readHdr s ti space e.pageList with
  | .error _ => clearDir s ti e
  | .ok h =>
    let n := e.nextPos % 64
    if n = 0 then clearDir s ti e
    else
      match readFrame s ti space e.pageList (e.nextPos / 64) h.capacity with
      | .error _ => clearDir s ti e
      | .ok f =>
        let t := s.tile ti
        let ks := (List.range n).map (stagedSlot t ti e.stageAddr h.kb h.dk)
        let vs := (List.range n).map (stagedSlot t ti (e.stageAddr + h.valOff) h.vb h.dv)
        match flushWrites s ti space e.session e.layer e.headGroup (e.nextPos / 64) f h ks vs with
        | .error _ => clearDir s ti e
        | .ok w => clearDir ((applyWrites s ti w).count (tileReg ti Reg.ATN_FLUSHES) 1) ti e

/-- Close every sequence of a session on a tile (06 R176). -/
def closeSession (s : State) (ti session : Nat) : State :=
  let space := SMap.getD (s.tile ti).kvSpace session 0
  (s.dirOfSession ti session).foldl (fun s e => closeSeq s ti space e) s

/-! ## ATTN_SCORE -/

/-- Mask of 06 R177. -/
def visible (mode window lenS : Nat) (qp kp : Int) : Bool :=
  let causal := bitOf mode 0
  let win := bitOf mode 1
  decide (kp < (lenS : Int)) && (!causal || decide (kp ≤ qp)) &&
    (!win || (decide (qp - (window : Int) < kp) && (causal || decide (kp < qp + (window : Int)))))

/-- Block skipping of 06 R178. -/
def pageSkipped (mode window qPos nq i : Nat) : Bool :=
  let causal := bitOf mode 0
  let win := bitOf mode 1
  let last : Int := (qPos : Int) + nq - 1
  (causal && decide (last < (64 * i : Nat))) ||
  (win && decide (((64 * i + 63 : Nat) : Int) ≤ (qPos : Int) - window)) ||
  (win && !causal && decide (last + window ≤ ((64 * i : Nat) : Int)))

/-- The IBU's BF16 dot product: four partial results over elements i mod 4, combined pairwise (07 R214). -/
def dotBF16 (xs ys : List Num) : Num :=
  let ps := (xs.zip ys).map (fun p => p.1.mul p.2)
  let part (k : Nat) : Num :=
    match (List.range ((ps.length + 3) / 4)).filterMap (fun i => ps[4 * i + k]?) with
    | [] => Num.zero
    | p :: r => r.foldl fadd (fp32 p)
  fadd (fadd (part 0) (part 1)) (fadd (part 2) (part 3))

/-- One score ranks above another: poisoned above NaN above numbers, equal scores by the lower index (06 R182, 07 R214,
R215). -/
def rankBefore (a b : Nat × Num × Bool) : Bool :=
  let cls (x : Num × Bool) : Nat := if x.2 then 2 else if x.1 = .nan then 1 else 0
  let ca := cls a.2
  let cb := cls b.2
  if ca ≠ cb then decide (cb < ca)
  else if ca = 0 ∧ Num.lt b.2.1 a.2.1 = true then true
  else if ca = 0 ∧ Num.lt a.2.1 b.2.1 = true then false
  else decide (a.1 < b.1)

/-- Insert into a list kept in rank order. -/
def rankInsert (x : Nat × Num × Bool) : List (Nat × Num × Bool) → List (Nat × Num × Bool)
  | [] => [x]
  | y :: r => if rankBefore x y then x :: y :: r else y :: rankInsert x r

/-- The best `k` of a list of scores. -/
def topScores (k : Nat) (l : List (Nat × Num × Bool)) : List (Nat × Num × Bool) :=
  (l.foldl (fun acc x => rankInsert x acc) []).take k

/-- The summary entry of a page, in the own slice and in a pair-mode page (06 R169). -/
def readSummary (s : State) (ti space : Nat) (h : PageHdr) (i : Nat) : Except Flt (List Num × Bool) :=
  let va := h.summary + i * 2 * h.dk
  match s.place ti space va false with
  | .bad cause => fltAt cause va
  | .sram _ => flt cDescriptor
  | .mem tier a =>
    if tier ≠ .own ∨ (s.stripe ti >>> ((a >>> 21) % 8)) % 2 = 1 then flt cDescriptor
    else
      let r := s.memBytes ti tier a (2 * h.dk)
      .ok ((List.range h.dk).map (fun d => Fmt.bf16.value (sf r.1 (2 * d) 2)), r.2)

/-- The summaries of a list of pages. -/
def readSummaries (s : State) (ti space : Nat) (h : PageHdr) : List Nat → Except Flt (List (Nat × List Num × Bool))
  | [] => .ok []
  | i :: r =>
    match readSummary s ti space h i, readSummaries s ti space h r with
    | .error e, _ => .error e
    | _, .error e => .error e
    | .ok x, .ok xs => .ok ((i, x.1, x.2) :: xs)

/-- Sorted insertion of a page index. -/
def insertPage (i : Nat) : List Nat → List Nat
  | [] => [i]
  | j :: r => if i ≤ j then i :: j :: r else j :: insertPage i r

/-- The retrieved visit list (06 R182): the candidates, their summaries, the query rows in BF16 and whether one is
poisoned; with the number of pages forced by poison. -/
def retrieve (h : PageHdr) (topk : Nat) (cands : List (Nat × List Num × Bool)) (rows : List (List Num)) (bad : Bool) :
    List Nat × Nat :=
  let n := cands.length
  let forced := (cands.mapIdx (fun i x => (i, x))).filter (fun x =>
    decide (x.1 < h.sink) || decide (n ≤ x.1 + h.recent) || x.2.2.2)
  let fpages := forced.map (fun x => x.2.1)
  let npois := (cands.filter (fun x => x.2.2)).length
  if n ≤ topk + fpages.length then (cands.map (·.1), npois)
  else
    let rest := cands.filter (fun x => !fpages.contains x.1)
    let scores := rest.map (fun x =>
      let dots := rows.map (fun q => dotBF16 q x.2.1)
      (x.1, (match dots with
        | [] => Num.nan
        | d :: r => r.foldl Num.max d), bad))
    ((topScores topk scores).foldl (fun l x => insertPage x.1 l) fpages, npois)

/-- Bytes of the state record (06 R180). -/
def recordSize (nr dk qb dv : Nat) : Nat :=
  8256 + 64 * ((nr * dk * qb + 63) / 64) + 64 * ((8 * nr + 63) / 64) + 64 * ((4 * nr * dv + 63) / 64)

/-- The work of an ATTN_SCORE (06 R179-R183). The bytes of the record are free values, since only its size is given; the
model keeps its content beside them (log 16). -/
def workAttnScore (s : State) (ti : Nat) (c : BitVec 512) : Except Flt Work :=
  let t := s.tile ti
  let space := t.space
  let session := cf c 12 2 % 2 ^ 14
  let hg := cf c 14 2
  let nq := cf c 20 2
  let qPos := cf c 16 4
  let mode := cMode c
  let window := cf c 24 4
  let addr := cf c 32 4
  match readOperand s ti (cf c 8 2), readDesc s ti (cf c 10 2) with
  | .error e, _ => .error e
  | _, .error e => .error e
  | .ok q, .ok pd =>
    match readHdr s ti space pd.base with
    | .error e => .error e
    | .ok h =>
      let hq := q.desc.size 2
      let nr := hq * nq
      if q.desc.shape ≠ [h.dk, nq, hq, 1, 1, 1] ∨ (q.desc.ndim ≠ 2 ∧ q.desc.ndim ≠ 3) ∨ 768 < nr ∨ !q.desc.inSram ∨
          (sameGroup q.desc.fmt h.kfmt).isNone ∨ h.session ≠ session ∨ h.headGroup ≠ hg then
        badDesc (if h.session ≠ session ∨ h.headGroup ≠ hg then pd else q.desc)
      else
        match dirLookup s ti session h.layer hg with
        | .error e => .error e
        | .ok e =>
          let nfull := e.nextPos / 64
          let cands := (List.range nfull).filter (fun i => !pageSkipped mode window qPos nq i)
          let size := recordSize nr h.dk ((q.desc.fmt.width + 7) / 8) h.dv
          if !ownedRange s ti 7 addr size then fltAt cBankOwner (sramWindow + addr)
          else
            match readAll s ti 7 q (indices q.desc.shape) with
            | .error x => .error x
            | .ok qs =>
              let rows := (List.range nr).map (fun r => ((qs.drop (r * h.dk)).take h.dk))
              let visit : Except Flt (List Nat × Nat) :=
                if bitOf mode 2 then
                  match readSummaries s ti space h cands with
                  | .error x => .error x
                  | .ok cs =>
                    .ok (retrieve h (cf c 22 2) cs (rows.map (fun r => r.map (fun x => roundTo fmtBF16 x.val)))
                      (qs.any (fun x => x.poison)))
                else .ok (cands, 0)
              match visit with
              | .error x => .error x
              | .ok (vl, npois) =>
                if 4096 < vl.length then flt cFieldRange
                else
                  let rec_ : AttnRecord :=
                    ⟨addr, size, session, hg, h.layer, pd.base, e.nextPos, qPos, nq, hq, h.dk, h.dv, mode, window, cf c 28 4,
                      vl, qs.map (fun x => (x.val, x.sexp, x.poison)), q.desc.fmt.ell, decide (q.desc.fmt.group = some .wide),
                      false⟩
                  let words := (List.range (size / 8)).map (fun i =>
                    (⟨addr / 8 + i, Config.freeValue (s.free + i), BitVec.allOnes 64, false⟩ : SramWrite))
                  .ok { Work.none with
                    writes := ⟨words, []⟩
                    banks := banksOf q.footprints ||| rangeBanks addr size
                    views := q.descs, links := q.links
                    oobReads := (q.descs.map Desc.oob).foldl (· + ·) 0
                    attn := some ⟨vl.length, nfull - cands.length, e.nextPos % 64, 0, 0, 0, 0,
                      if bitOf mode 2 then cands.length else 0⟩
                    after := fun s =>
                      let s := cachePage s ti space (pd.base / 0x200000)
                      let s := { cacheDir s ti e with free := s.free + size / 8 }
                      let s := s.count (tileReg ti Reg.ATN_PAGES_SKIPPED) (nfull - cands.length)
                      let s := s.count (tileReg ti Reg.ATN_SUMMARY_POISON) npois
                      let s := (List.range npois).foldl (fun s _ => poisonMet s ti 5 (h.summary % 2 ^ 32) s.round) s
                      s.modTile ti (fun t => { t with
                        attnRecs := rec_ :: t.attnRecs.filter (fun r => r.addr ≠ addr) }) }

/-- ATTN_SCORE (06 R182). -/
def execAttnScore (c : TileCmd) (s : State) : Host.Outcome State Fault Refusal :=
  .next (issueCmd s c 0x09 (fun s b => workAttnScore s c.ti b))

/-! ## ATTN_APPLY -/

/-- A block of keys and values: positions, codes with poison, whether the IBUs score it (06 R186, R187). -/
structure KvBlock where
  pos : Nat
  keys : List (List Elem)
  vals : List (List Elem)
  inBank : Bool

/-- Codes as elements of a format. -/
def codeElems (f : Fmt) (l : List Code) : List Elem := l.map (fun c => ⟨f.value c.1, 0, c.2⟩)

/-- Read rows of elements at a virtual address. -/
def readVaRows (s : State) (ti space va : Nat) (f : Fmt) (len : Nat) : List Nat → Except Flt (List (List Elem))
  | [] => .ok []
  | j :: r =>
    let w := f.width / 8
    let row : Except Flt (List Code) := (List.range len).foldr (fun d acc =>
      match acc, readVa s ti space (va + (j * len + d) * w) w with
      | .error e, _ => .error e
      | _, .error e => .error e
      | .ok l, .ok c => .ok (c :: l)) (.ok [])
    match row, readVaRows s ti space va f len r with
    | .error e, _ => .error e
    | _, .error e => .error e
    | .ok x, .ok xs => .ok (codeElems f x :: xs)

/-- A frame lies in the own slice inside one bank pair (06 R187). -/
def frameInPair (s : State) (ti space frame size : Nat) : Bool :=
  match s.place ti space frame false, s.place ti space (frame + size - 1) false with
  | .mem .own a, .mem .own b => decide (a / 0x200000 = b / 0x200000) && decide ((s.stripe ti >>> ((a >>> 21) % 8)) % 2 = 0)
  | _, _ => false

/-- The visited pages as blocks. -/
def readBlocks (s : State) (ti space list nr : Nat) (h : PageHdr) : List Nat → Except Flt (List KvBlock)
  | [] => .ok []
  | i :: r =>
    match readFrame s ti space list i h.capacity with
    | .error e => .error e
    | .ok f =>
      match readVaRows s ti space (f + 64) h.kfmt h.dk (List.range 64),
        readVaRows s ti space (f + 64 + h.valOff) h.vfmt h.dv (List.range 64), readBlocks s ti space list nr h r with
      | .error e, _, _ => .error e
      | _, .error e, _ => .error e
      | _, _, .error e => .error e
      | .ok ks, .ok vs, .ok bs =>
        let inBank := decide (nr ≤ 8) && decide (h.kfmt ≠ .fp16) && frameInPair s ti space f (64 + h.stageSize)
        .ok (⟨64 * i, ks, vs, inBank⟩ :: bs)

/-- The score of a query row and a key before scaling (06 R186, R187): the array's sum, or the IBU's for BF16. -/
def attnDot (wide inBank bf16 : Bool) (base : Int) (q k : List Elem) : Num :=
  if inBank && bf16 then dotBF16 (q.map (fun e => roundTo fmtBF16 e.val)) (k.map (fun e => e.val))
  else fp32 (Acc.clear.run wide base q k).value

/-- The running state of a row (06 R186). -/
structure RowState where
  m : Num
  l : Num
  acc : List Num
  nan : Bool
  poison : Bool
  vpoison : List Bool

/-- exp with its exact values at 0 and minus infinity (06 R186). -/
def attnExp (x : Num) : Num := if x.isZero then Num.one else vexp x

/-- A sum in increasing order: the first value, then FP32 additions (04 R127). -/
def sumFP32 (xs : List Num) : Num :=
  match xs with
  | [] => Num.zero
  | x :: r => r.foldl fadd (fp32 x)

/-- One block on one row (06 R186, R190, R191). -/
def rowBlock (rec_ : AttnRecord) (h : PageHdr) (q : List Elem) (qp : Int) (st : RowState) (b : KvBlock) : RowState :=
  let n := b.keys.length
  let scale := ofFP32 rec_.scale
  let vis := (List.range n).map (fun j => visible rec_.mode rec_.window rec_.lenS qp ((b.pos + j : Nat) : Int))
  let scores := (b.keys.zip vis).map (fun x =>
    if x.2 then fmul (attnDot rec_.qWide b.inBank (decide (h.kfmt = .bf16)) (rec_.qEll + h.kfmt.ell) q x.1) scale else .inf true)
  let live := (vis.zip scores).map (fun x => x.1 && decide (x.2 ≠ .inf true))
  let poison := st.poison || (b.keys.zip vis).any (fun x => x.2 && x.1.any (fun e => e.poison))
  let vpoison := st.vpoison.mapIdx (fun d p =>
    p || (b.vals.zip vis).any (fun x => x.2 && (match x.1[d]? with | some e => e.poison | none => false)))
  if !live.any id then { st with poison := poison, vpoison := vpoison }
  else
    let bad := (vis.zip scores).any (fun x => x.1 && (decide (x.2 = .nan) || decide (x.2 = .inf false)))
    let mn := ((vis.zip scores).filter (fun x => x.1)).foldl (fun m x => m.max x.2) st.m
    let alpha := attnExp (fsub st.m mn)
    let rnd (x : Num) : Num := if h.vfmt = .fp16 then roundTo fmtFP16 x else roundTo fmtBF16 x
    let p := (live.zip scores).map (fun x => if x.1 then rnd (attnExp (fsub x.2 mn)) else Num.zero)
    let l := fadd (fmul st.l alpha) (sumFP32 p)
    let acc := st.acc.mapIdx (fun d a =>
      fadd (fmul a alpha) (sumFP32 ((p.zip b.vals).map (fun x =>
        x.1.mul (match x.2[d]? with | some e => e.val | none => Num.zero)))))
    ⟨mn, l, acc, st.nan || bad, poison, vpoison⟩

/-- The result of a row: outputs with poison, lse with poison, empty. -/
structure RowOut where
  out : List SVal
  lse : SVal
  empty : Bool
  nan : Bool
  poison : Bool

/-- One row over all blocks (06 R186, R189-R191). -/
def attnRow (rec_ : AttnRecord) (h : PageHdr) (blocks : List KvBlock) (r : Nat) : RowOut :=
  let q := ((rec_.queries.drop (r * rec_.dk)).take rec_.dk).map (fun x => (⟨x.1, x.2.1, x.2.2⟩ : Elem))
  let qp : Int := (rec_.qPos + r % rec_.nq : Nat)
  let qbad := q.any (fun e => e.poison)
  let st0 : RowState := ⟨.inf true, Num.zero, List.replicate rec_.dv Num.zero, false, qbad, List.replicate rec_.dv false⟩
  let st := blocks.foldl (fun st b => rowBlock rec_ h q qp st b) st0
  let empty := st.l.isZero
  let out := (st.acc.zip st.vpoison).map (fun x =>
    (⟨if st.nan then .nan else if empty then Num.zero else fdiv x.1 st.l, st.poison || x.2⟩ : SVal))
  let lse := if st.nan then .nan else if empty then .inf true else fadd st.m (vlog st.l)
  ⟨out, ⟨lse, st.poison⟩, empty, st.nan, st.poison || st.vpoison.any id⟩

/-- The work of an ATTN_APPLY (06 R184-R191). -/
def workAttnApply (s : State) (ti : Nat) (c : BitVec 512) : Except Flt Work :=
  let t := s.tile ti
  let space := t.space
  let session := cf c 10 2 % 2 ^ 14
  let hg := cf c 12 2
  let addr := cf c 16 4
  match readDesc s ti (cf c 8 2), readDesc s ti (cf c 14 2) with
  | .error e, _ => .error e
  | _, .error e => .error e
  | .ok pd, .ok ld =>
    match t.attnRecs.find? (fun r => r.addr = addr) with
    | none => flt cDescriptor
    | some r =>
      if r.session ≠ session ∨ r.headGroup ≠ hg ∨ r.pageList ≠ pd.base ∨ r.consumed then badDesc pd
      else if !ownedRange s ti 7 addr r.size then fltAt cBankOwner (sramWindow + addr)
      else if (List.range (r.size / 8)).any (fun i => (t.readWord ti (addr / 8 + i)).1.poisoned) then
        fltPoison (sramWindow + addr)
      else
        match readHdr s ti space pd.base, dirLookup s ti session r.layer hg,
          readStoreBlk s ti c [r.dv, r.nq, r.hq, 1, 1, 1] with
        | .error e, _, _ => .error e
        | _, .error e, _ => .error e
        | _, _, .error e => .error e
        | .ok h, .ok e, .ok b =>
          if e.nextPos ≠ r.lenS ∨ ld.fmt ≠ .fp32 ∨ !ld.inSram ∨ ld.shape ≠ [r.nq, r.hq, 1, 1, 1, 1] then badDesc ld
          else if !ownedRange s ti 7 e.stageAddr h.stageSize then fltAt cBankOwner (sramWindow + e.stageAddr)
          else
            let nr := r.hq * r.nq
            match readBlocks s ti space pd.base nr h r.visit with
            | .error x => .error x
            | .ok pages =>
              let n := e.nextPos % 64
              let staged : KvBlock :=
                ⟨e.nextPos / 64 * 64,
                  (List.range n).map (fun j => codeElems h.kfmt (stagedSlot t ti e.stageAddr h.kb h.dk j)),
                  (List.range n).map (fun j => codeElems h.vfmt (stagedSlot t ti (e.stageAddr + h.valOff) h.vb h.dv j)),
                  false⟩
              let outs := (List.range nr).map (attnRow r h (pages ++ [staged]))
              let rec_fp : Option (Int × Int) :=
                some (((sramWindow + addr : Nat) : Int), ((sramWindow + addr + r.size - 1 : Nat) : Int))
              let stg_fp : Option (Int × Int) :=
                some (((sramWindow + e.stageAddr : Nat) : Int), ((sramWindow + e.stageAddr + h.stageSize - 1 : Nat) : Int))
              let frames := r.visit.filterMap (fun i =>
                match readFrame s ti space pd.base i h.capacity with
                | .ok f => some (some ((f : Int), ((f + 64 + h.stageSize - 1 : Nat) : Int)))
                | .error _ => none)
              let reads : List (Option (Int × Int)) := rec_fp :: stg_fp :: frames
              let banks := banksOf (ld.footprint :: b.footprints ++ [rec_fp, stg_fp])
              let empties := (outs.filter (fun o => o.empty && !o.nan)).length
              let inbank := (pages.filter (fun p => p.inBank)).length
              let anyEmpty := decide (empties ≠ 0)
              let first := (outs.findIdx? (fun o => o.empty && !o.nan)).getD 0xFFFF
              let flags := (if anyEmpty then 1 else 0) + (if outs.any (fun o => o.poison) then 2 else 0) +
                (if outs.any (fun o => o.nan) then 4 else 0) + (if inbank = 0 then 0 else 8)
              match overlapCase false false b reads [] b.bytes with
              | .refuse => .ok { Work.none with banks := banks, refused := true }
              | _ =>
                let src : Source := ⟨[r.dv, r.nq, r.hq, 1, 1, 1], outs.flatMap (fun o => o.out), List.range (nr * r.dv)⟩
                let lses := (indices ld.shape).zip outs
                match storeWrites s ti space b src (t.ordinal + 1),
                  placeAll s ti space 7 ld [] (lses.map (fun x => (x.1, toFP32 x.2.lse.val, x.2.lse.poison))) with
                | .error x, _ => .error x
                | _, .error x => .error x
                | .ok w, .ok lb =>
                  .ok { Work.none with
                    writes := w.append (granWrites lb), banks := banks, oobWrites := b.oob + ld.oob
                    attn := some ⟨r.visit.length, 0, n, flags, empties, first, inbank, 0⟩
                    after := fun s =>
                      let f := s.takeFree
                      let s := if inbank = 0 then s else
                        f.2.setReg64 (tileReg ti Reg.IBU_STEPS_LO)
                          ((f.2.reg64 (tileReg ti Reg.IBU_STEPS_LO) + f.1.toNat) % 2 ^ 64)
                      let s := s.count (tileReg ti Reg.ATN_PAGES_VISITED) r.visit.length
                      let s := s.count (tileReg ti Reg.ATN_INBANK_PAGES) inbank
                      let s := s.count (tileReg ti Reg.ATN_EMPTY_ROWS) empties
                      let s := if anyEmpty then s.setFld (tileReg ti Reg.ATN_STATUS) 31 31 1 else s
                      let s := if outs.any (fun o => o.poison) then s.setFld (tileReg ti Reg.ATN_STATUS) 30 30 1 else s
                      s.modTile ti (fun t => { t with
                        attnRecs := t.attnRecs.map (fun x => if x.addr = addr then { x with consumed := true } else x) }) }

/-- ATTN_APPLY (06 R186). -/
def execAttnApply (c : TileCmd) (s : State) : Host.Outcome State Fault Refusal :=
  .next (issueCmd s c 0x0A (fun s b => workAttnApply s c.ti b))

/-- The side-band record of an attention command (Table 6.6). -/
def attnRecord (count cls slot : Nat) (a : AttnInfo) : Nat :=
  count % 2 ^ 32 + cls * 2 ^ 32 + slot * 2 ^ 40 + a.nvisit * 2 ^ 48 + min a.nskip 65535 * 2 ^ 64 + a.staged * 2 ^ 80 +
    a.flags * 2 ^ 88 + a.emptyRows * 2 ^ 96 + a.firstEmpty * 2 ^ 112 + a.ninbank * 2 ^ 128 + min a.ncand 65535 * 2 ^ 144

/-- What an attention command's completion writes (06 R192). -/
def finishAttn (s : State) (ti cls slot flags : Nat) (a : AttnInfo) : State :=
  if flSideband flags then
    writeSideband s ti Reg.ATN_SB_HEAD Reg.ATN_SB (attnRecord (s.reg64 (tileReg ti Reg.TIL_CMD_COUNT_LO)) cls slot a)
  else s

end Sys2Proof.Machine
end

