-- ==== Sys2Proof/Machine/MemCtrl.lean ====
section
/-! DEFINITION. The memory controllers: MEM_READ and MEM_WRITE at a bonded controller (07 R204-R213) or a stack controller
(08 R240-R245), the write-combining buffer, refresh (R208, R248) and the scrubber (09 R274-R276). -/
namespace Sys2Proof.Machine

/-- States of BDM_STATUS and STM_STACK_STATUS. -/
def bdmReady : Nat := 2
def bdmKeeper : Nat := 3
def stkReady : Nat := 2
def stkLoopback : Nat := 3
def stkOffline : Nat := 4

/-- The IBU of a pair is running a step (07 R213). -/
def Tile.pairBusy (t : Tile) (layer pair : Nat) : Bool :=
  t.queue.any (fun e =>
    match e.waits with
    | .ibu f left started => started && decide (f.layer = layer) && left.any (fun x => decide (x.1 = pair))
    | _ => false)

/-- The controller's ports are with the keeper or in training: requests are held (07 R222, R227). -/
def State.bdmHeld (s : State) (ti : Nat) : Bool := decide (s.fld (tileReg ti Reg.BDM_STATUS) 2 0 ≠ bdmReady)

/-- The tier that a packet to a controller addresses. -/
def packetMem (p : Packet) : Tier := if p.dstKind = 1 then .stack else if p.adopted then .adopted else .own

/-- Layer and pair of the own slice that a packet reaches. -/
def State.packetPair (s : State) (p : Packet) : Nat × Nat :=
  let m := sliceMap p.addr (s.sliceOf p.dstId (packetMem p)).2
  (m.1, m.2.1)

/-- The granules of a request, by byte address. -/
def packetGrans (p : Packet) : List Nat := (List.range ((p.len + 31) / 32)).map (fun i => p.addr / 32 * 32 + 32 * i)

/-- Answer a read: the data of its granules with poison, counted and recorded (07 R207, 08 R242). -/
def answerRead (s : State) (p : Packet) : State :=
  let ti := p.srcId
  let tier := packetMem p
  let gs := packetGrans p
  let pieces := gs.mapIdx (fun i g =>
    let r := s.readGran ti tier g
    (⟨i, r.1, BitVec.allOnes 256, r.2⟩ : Piece))
  let s := gs.foldl (fun s g => noteRead s ti tier g) s
  s.send ⟨.readData, p.srcKind, p.srcId, p.dstKind, p.dstId, p.addr, p.len, p.tag, 0, 0, pieces, p.adopted, p.ref, none,
    false, false⟩

/-- A controller refuses a request of a half that is down (08 R236, 13 R407). -/
def nackMem (s : State) (p : Packet) : State :=
  s.send ⟨.nack, p.srcKind, p.srcId, p.dstKind, p.dstId, p.addr, p.len, p.tag, 0, 0, [], p.adopted, p.ref, none, false,
    false⟩

/-- The controller has accepted a write of a command (02 R45). -/
def acceptWrite (s : State) (p : Packet) : State :=
  s.modTile p.srcId (fun t =>
    match t.entry? p.ref with
    | none => t
    | some e => t.putEntry { e with outstanding := e.outstanding - 1 })

/-! ## Bonded controller -/

/-- Perform a request on a slice. -/
def serveBonded (s : State) (p : Packet) : State :=
  if p.ptype = .memRead then answerRead s p
  else
    acceptWrite (p.pieces.foldl (fun s x =>
      writeBonded s p.dstId ⟨packetMem p, p.addr / 32 * 32 + 32 * x.idx, x.data, x.mask, x.poison⟩) s) p

/-- A request at a bonded controller: held while the ports are with the keeper, waiting while an IBU runs a step on its
pair, else performed (07 R213, R222). -/
def bondedRequest (s : State) (p : Packet) : State :=
  let ti := p.dstId
  let m := s.packetPair p
  if !s.usable ti then nackMem s p
  else if s.bdmHeld ti then s.modTile ti (fun t => { t with waiting := t.waiting ++ [p] })
  else if !p.adopted && (s.tile ti).pairBusy m.1 m.2 then
    (s.modTile ti (fun t => { t with waiting := t.waiting ++ [p] })).count (tileReg ti Reg.BDM_SB_WAIT) 1
  else serveBonded s p

/-- Issue the accesses that waited for a pair (07 R213). -/
def serveWaiting (s : State) (ti layer pair : Nat) : State :=
  let ready := (s.tile ti).waiting.filter (fun p => decide (s.packetPair p = (layer, pair)) && !p.adopted)
  let s := s.modTile ti (fun t => { t with
    waiting := t.waiting.filter (fun p => !(decide (s.packetPair p = (layer, pair)) && !p.adopted)) })
  ready.foldl serveBonded s

/-! ## Write-combining buffer -/

/-- A whole block: eight granules, each whole or in poison (08 R240). -/
def wholeBlock (p : Packet) : Bool :=
  decide (p.addr % 256 = 0) && (List.range 8).all (fun i => p.pieces.any (fun x =>
    decide (x.idx = i) && (x.poison || decide (x.mask = BitVec.allOnes 256))))

/-- Whether a mask is made of whole bytes. -/
def byteWhole (m : BitVec 256) : Bool :=
  (List.range 32).all (fun i => let b := m.extractLsb' (8 * i) 8; decide (b = 0) || decide (b = 255))

/-- The byte-valid bits of a bit mask. -/
def validBits (m : BitVec 256) : Nat :=
  (List.range 32).foldl (fun v i => if m.getLsbD (8 * i) then v + 2 ^ i else v) 0

/-- Write a line out: valid granules directly, partly valid ones merged (08 R241). -/
def writeOut (s : State) (l : WcbLine) : State :=
  let s := { s with stm := { s.stm with wcb := s.stm.wcb.filter (fun x => x.block ≠ l.block) } }
  (List.range 8).foldl (fun s g =>
    let v := (l.valid.toNat >>> (32 * g)) % 2 ^ 32
    let d := l.data.extractLsb' (256 * g) 256
    if l.poison.getLsbD g then writeStackGran s 0 (256 * l.block + 32 * g) d (BitVec.allOnes 256) true
    else if v = 0 then s
    else writeStackGran s 0 (256 * l.block + 32 * g) d (byteMask v 32) false) s

/-- Merge a piece into a line. -/
def mergePiece (l : WcbLine) (x : Piece) : WcbLine :=
  let g := x.idx % 8
  let whole := x.poison || decide (x.mask = BitVec.allOnes 256)
  let m2048 : BitVec 2048 := (x.mask.setWidth 2048) <<< (256 * g)
  let d2048 : BitVec 2048 := (x.data.setWidth 2048) <<< (256 * g)
  let v : Nat := if whole then 2 ^ 32 - 1 else validBits x.mask
  { l with
    valid := l.valid ||| (BitVec.ofNat 256 v <<< (32 * g))
    data := (l.data &&& ~~~m2048) ||| (d2048 &&& m2048)
    poison := if x.poison then l.poison ||| (1#8 <<< g)
      else if whole then l.poison &&& ~~~(1#8 <<< g) else l.poison }

/-- Make room for a line at a full controller: the least recently written line goes (08 R241). -/
def makeRoom (s : State) (stack : Nat) : State :=
  let ls := s.stm.wcb.filter (fun l => l.stack = stack)
  if ls.length < 1024 then s
  else
    match ls with
    | [] => s
    | l :: r => writeOut s (r.foldl (fun a b => if b.last < a.last then b else a) l)

/-- A partial write enters the buffer (08 R240, R241); a piece that ends inside a byte is merged into the stack at once,
as the byte-valid mask cannot hold it (log 17). -/
def bufferWrite (s : State) (p : Packet) : State :=
  let block := p.addr / 256
  let stack := (stackMap p.addr).stack
  let pieces := p.pieces.map (fun x => { x with idx := x.idx + p.addr / 32 % 8 })
  if pieces.any (fun x => !x.poison && !byteWhole x.mask) then
    let s := match s.wcbLine block with
      | some l => writeOut s l
      | none => s
    pieces.foldl (fun s x => writeStackGran s p.srcId (256 * block + 32 * x.idx) x.data x.mask x.poison) s
  else
    let s := match s.wcbLine block with
      | some _ => s
      | none => makeRoom s stack
    let l0 : WcbLine := (s.wcbLine block).getD ⟨stack, block, 0, 0, 0, s.now⟩
    let l := { pieces.foldl mergePiece l0 with last := s.now }
    let s := { s with stm := { s.stm with wcb := s.stm.wcb.filter (fun x => x.block ≠ block) ++ [l] } }
    if l.valid = BitVec.allOnes 256 then writeOut s l else s

/-! ## Stack controller and regulators -/

/-- The partition of a tile in the round (08 R244). -/
def State.partOf (s : State) (ti : Nat) : Nat := s.fld (Reg.STM_PART_MAP + ti / 8) (4 * (ti % 8) + 3) (4 * (ti % 8))

/-- MIN and MAX of a partition at a half in GB/s, MIN at least what the round's plan needs (17 R508 case note); a MAX below its MIN acts as the MIN (08 R245, R246). -/
def State.regMin (s : State) (part : Nat) (h : Half) : Nat :=
  match h with
  | .west => max (s.fld (Reg.STM_REG_MIN + part) 14 0) (SMap.getD s.stm.planMin (2 * part) 0)
  | .east => max (s.fld (Reg.STM_REG_MIN + part) 30 16) (SMap.getD s.stm.planMin (2 * part + 1) 0)
def State.regMax (s : State) (part : Nat) (h : Half) : Nat :=
  let m := match h with
    | .west => s.fld (Reg.STM_REG_MAX + part) 14 0
    | .east => s.fld (Reg.STM_REG_MAX + part) 30 16
  if m = 0 then 0 else max m (s.regMin part h)

/-- The rate a bucket fills at, in bytes per 8 ns (GB/s are bytes per ns, and a controller has one eighth). -/
def State.bucketRate (s : State) (kind part : Nat) (h : Half) : Nat :=
  match kind with
  | 0 => s.regMin part h
  | 1 => s.regMax part h
  | _ => s.fld Reg.STM_SYS_RATE 15 0

/-- The level of a bucket now: capped at 2 us of its rate; a bucket not yet drawn on is full (log 18). -/
def State.bucketLevel (s : State) (stack kind part : Nat) : Nat :=
  let h := stackHalf stack
  let rate := s.bucketRate kind part h
  let cap := rate * 2000 / 8
  match s.stm.buckets.find? (fun b => decide (b.stack = stack) && decide (b.kind = kind) && decide (b.part = part)) with
  | none => cap
  | some b => min cap (b.bytes + rate * (s.now - b.filled) / 8)

/-- Deduct bytes from a bucket. -/
def drawBucket (s : State) (stack kind part n : Nat) : State :=
  let b : Bucket := ⟨stack, kind, part, stackHalf stack, s.bucketLevel stack kind part - n, s.now⟩
  { s with stm := { s.stm with
    buckets := b :: s.stm.buckets.filter (fun x => !(decide (x.stack = stack) && decide (x.kind = kind) &&
      decide (x.part = part))) } }

/-- Bytes an access moves. -/
def packetBytes (p : Packet) : Nat := if p.ptype = .memRead then p.len else 32 * p.pieces.length

/-- Perform a request on the stack tier, deducting it from the partition's buckets (08 R240, R242, R245). -/
def serveStack (s : State) (p : Packet) : State :=
  let part := s.partOf p.srcId
  let n := packetBytes p
  let s := drawBucket (drawBucket s p.dstId 0 part n) p.dstId 1 part n
  if p.ptype = .memRead then answerRead s p
  else if wholeBlock p then
    let s := { s with stm := { s.stm with wcb := s.stm.wcb.filter (fun x => x.block ≠ p.addr / 256) } }
    acceptWrite (p.pieces.foldl (fun s x =>
      writeStackGran s p.srcId (p.addr + 32 * x.idx) x.data x.mask x.poison) s) p
  else acceptWrite (bufferWrite s p) p

/-- A request at a stack controller: NACK where the half's stack tier is down, waiting in loop-back or where its
partition's cap is used up, else performed (08 R236, R245, R255). -/
def stackRequest (s : State) (p : Packet) : State :=
  let h := stackHalf p.dstId
  let part := s.partOf p.srcId
  if !s.stackHalfUp h || (decide (p.srcKind = 0) && (decide (s.fld Reg.HLK_STATUS 31 31 = 1) && decide (halfOf p.srcId ≠ h))) then nackMem s p
  else if s.fld (Reg.STM_STACK_STATUS + p.dstId) 2 0 = stkLoopback ∨
      (s.regMax part h ≠ 0 ∧ s.bucketLevel p.dstId 1 part < packetBytes p) then
    { s with stm := { s.stm with waiting := s.stm.waiting ++ [p] } }
  else serveStack s p

/-- MEM_READ (08 R242, 07 R204). -/
def execMemRead (p : Packet) (s : State) : Host.Outcome State Fault Refusal :=
  let q := { p with ptype := PktType.memRead }
  .next (if p.dstKind = 1 then stackRequest (s.arrive p) q else bondedRequest (s.arrive p) q)

/-- MEM_WRITE (08 R240, 07 R206). -/
def execMemWrite (p : Packet) (s : State) : Host.Outcome State Fault Refusal :=
  let q := { p with ptype := PktType.memWrite }
  .next (if p.dstKind = 1 then stackRequest (s.arrive p) q else bondedRequest (s.arrive p) q)

/-- READ_DATA (02 R76) for a unit other than a run-ahead engine: the read was made when its command issued, so the data
leaves the mesh with no further effect (log 11). -/
def execReadData (p : Packet) (s : State) : Host.Outcome State Fault Refusal := .next (s.arrive p)

/-- TOKEN_BUCKET_REFILL (08 R245): the oldest waiting access of the partition is served from the refilled bucket. -/
def execTokenBucketRefill (stack part : Nat) (h : Half) (s : State) : Host.Outcome State Fault Refusal :=
  let mine (p : Packet) : Bool := decide (p.dstId = stack) && decide (s.partOf p.srcId = part)
  if h ≠ stackHalf stack ∨ s.fld (Reg.STM_STACK_STATUS + stack) 2 0 = stkLoopback then .next s
  else
    match s.stm.waiting.find? mine with
    | none => .next s
    | some p =>
      let n := packetBytes p
      let b : Bucket := ⟨stack, 1, part, h, max n (s.bucketLevel stack 1 part), s.now⟩
      let s := { s with stm := { s.stm with
        waiting := s.stm.waiting.erase p
        buckets := b :: s.stm.buckets.filter (fun x => !(decide (x.stack = stack) && decide (x.kind = 1) &&
          decide (x.part = part))) } }
      .next (serveStack s p)

/-- WCB_LINE_TIMEOUT (08 R241). -/
def execWcbLineTimeout (stack block : Nat) (s : State) : Host.Outcome State Fault Refusal :=
  match s.wcbLine block with
  | none => .next s
  | some l => .next (if l.stack = stack then writeOut s l else s)

/-- Write out every line of every controller (08 R241). -/
def flushWcb (s : State) : State := s.stm.wcb.foldl writeOut s

/-- Serve what waited for a stack (08 R255). -/
def serveStackWaiting (s : State) (stack : Nat) : State :=
  let ready := s.stm.waiting.filter (fun p => decide (p.dstId = stack))
  let s := { s with stm := { s.stm with waiting := s.stm.waiting.filter (fun p => decide (p.dstId ≠ stack)) } }
  ready.foldl stackRequest s

/-- LOOPBACK_DONE (08 R255, R260): the result, and the stack serves its waiting accesses again. -/
def execLoopbackDone (lanesFailed : Nat) (s : State) : Host.Outcome State Fault Refusal :=
  if s.fld Reg.STM_LOOPBACK 1 0 ≠ 1 then .next s
  else
    let stack := s.fld Reg.STM_LOOPBACK 7 4
    let s := s.setFld Reg.STM_LOOPBACK 23 16 (min lanesFailed 255)
    let s := s.setFld Reg.STM_LOOPBACK 1 0 (if lanesFailed = 0 then 2 else 3)
    let s := s.setFld (Reg.STM_STACK_STATUS + stack) 2 0 stkReady
    .next (serveStackWaiting s stack)

/-! ## Refresh -/

/-- BONDED_REFRESH (07 R208): the next row of a bank; deferred while an IBU step holds its pair. -/
def execBondedRefresh (ti layer bank : Nat) (s : State) : Host.Outcome State Fault Refusal :=
  if (s.tile ti).pairBusy layer (bank / 2) then .next s
  else
    let k := layer * 16 + bank
    .next (s.modTile ti (fun t => { t with refreshRow := SMap.put t.refreshRow k ((SMap.getD t.refreshRow k 0 + 1) % 512) }))

/-- Bit `i` of a field of a register set to a truth value. -/
def State.setBit (s : State) (a i : Nat) (b : Bool) : State := s.setFld a i i (if b then 1 else 0)

/-- The hot and cool rule of 07 R208 and 08 R248 on a temperature in 0.1 C: whether the state is hot after it, and since
when it has been cool. -/
def hotRule (hot : Bool) (since : Option Nat) (now : Nat) (temp : Int) : Bool × Option Nat :=
  if 850 < temp then (true, none)
  else if !hot then (false, none)
  else if 830 ≤ temp then (true, none)
  else
    match since with
    | none => (true, some now)
    | some t => if t + 100000000 ≤ now then (false, none) else (true, some t)

/-- Record the time since which a layer or stack has been cool. -/
def putSince (m : SMap Nat) (k : Nat) (v : Option Nat) : SMap Nat :=
  match v with
  | none => SMap.del m k
  | some t => SMap.put m k t

/-- A temperature as an event parameter: two's complement in 32 bits. -/
def tempParam (t : Int) : Nat := (t % 2 ^ 32).toNat

/-- REFRESH_INTERVAL_CHANGE (07 R208): `temp` in 0.1 C. -/
def execRefreshIntervalChange (ti layer : Nat) (temp : Int) (s : State) : Host.Outcome State Fault Refusal :=
  let a := tileReg ti Reg.BDM_STATUS
  let hot := decide (s.fld a (24 + layer % 8) (24 + layer % 8) = 1)
  let r := hotRule hot (SMap.get? (s.tile ti).coolSince (layer % 8)) s.now temp
  let s := s.modTile ti (fun t => { t with coolSince := putSince t.coolSince (layer % 8) r.2 })
  if r.1 = hot then .next s
  else
    .next (recordEvent (s.setBit a (24 + layer % 8) r.1) 0x2406 ti (layer % 8) (if r.1 then 1 else 0) (tempParam temp))

/-- STACK_REFRESH (08 R248). -/
def execStackRefresh (stack bank : Nat) (s : State) : Host.Outcome State Fault Refusal :=
  let k := stack * 4096 + bank
  .next { s with stm := { s.stm with
    refreshPos := SMap.put s.stm.refreshPos k ((SMap.getD s.stm.refreshPos k 0 + 1) % 16384) } }

/-- STACK_TEMP_READ (08 R248, R258): `temp` in C. -/
def execStackTempRead (stack : Nat) (temp : Int) (s : State) : Host.Outcome State Fault Refusal :=
  let a := Reg.STM_STACK_STATUS + stack % 16
  let s := s.setFld a 23 16 (min temp.toNat 255)
  let hot := decide (s.fld a 31 31 = 1)
  let r := hotRule hot (SMap.get? s.stm.coolSince (stack % 16)) s.now (10 * temp)
  let s := { s with stm := { s.stm with coolSince := putSince s.stm.coolSince (stack % 16) r.2 } }
  if r.1 = hot then .next s
  else .next (recordEvent (s.setBit a 31 r.1) 0x0B0A (stack % 16) (if r.1 then 1 else 0) (tempParam temp) 0)

/-! ## The scrubber -/

/-- Whether a translation entry of one of a tile's tables maps a page of a target (Table 5.4). -/
def State.mapsPage (s : State) (ti target ppn : Nat) : Bool :=
  (List.range 4).any (fun space =>
    (List.range (s.fld (tileReg ti (Reg.LAY_XLT_LEN + space)) 19 0)).any (fun page =>
      match s.xltRead ti space page with
      | some (e, _) => e.getLsbD 63 && decide ((e.toNat >>> 58) % 8 = target) && decide (e.toNat % 2 ^ 20 = ppn)
      | none => false))

/-- A slice page in service: mapped, in a layer not retired (09 R274). -/
def State.slicePageLive (s : State) (ti : Nat) (tier : Tier) (page : Nat) : Bool :=
  s.mapsPage ti (if tier = .adopted then 1 else 0) page &&
    decide (s.fld (tileReg ti Reg.BDM_STATUS) (16 + page / 8 % 8) (16 + page / 8 % 8) = 0)

/-- The stack-tier address of a stack's scrub position: row and bank first, then channel, then granule (08 R238). -/
def scrubAddr (stack k : Nat) : Nat :=
  let l := k / 512
  let pc := stack % 8 + (k / 8 % 64) * 8
  let f := (l % 512) ^^^ ((l >>> 9) % 512) ^^^ ((l >>> 18) % 16)
  (stack / 8) * 2 ^ 39 + l * 2 ^ 17 + (pc ^^^ f) * 256 + (k % 8) * 32

/-- A stack page in service: mapped by a tile, not retired, its half's stacks not OFFLINE (09 R274). -/
def State.stackPageLive (s : State) (ppn : Nat) : Bool :=
  s.stackHalfUp (if ppn < 262144 then .west else .east) && !s.stm.retired.any (fun r => decide (r.ppn = ppn)) &&
    (s.tiles.any (fun t => s.mapsPage t.1 2 ppn))

/-- The scrubber's turn at one SRAM word (Table 9.5): lines never written are covered without a read. -/
def scrubWord (s : State) (ti w : Nat) : State × Bool :=
  if !(s.tile ti).lineWritten w then (s, false)
  else
    let r := (s.tile ti).readWord ti w
    let s := noteSramRead s ti w
    match r.1 with
    | .checkCorrected | .dataCorrected _ =>
      (s.modTile ti (fun t => { t with sram := SMap.put t.sram w (sramEncode r.2 w) }), true)
    | _ => (s, false)

/-- The scrubber's turn at one slice granule. -/
def scrubGranule (s : State) (ti : Nat) (tier : Tier) (k : Nat) : State × Bool :=
  if !s.slicePageLive ti tier (k / 65536) then (s, false)
  else
    let sl := s.sliceOf ti tier
    let g := sliceGranule (32 * k) sl.2
    let r := granuleDecode (s.rawGranule sl.1 g) (bondedG sl.1 g)
    let s := noteBondedRead s ti tier (32 * k)
    match r.1 with
    | .checkCorrected | .dataCorrected _ => (s.putGranule sl.1 g (granuleEncode r.2 (bondedG sl.1 g)), true)
    | _ => (s, false)

/-- The scrubber's turn at one stack granule; it counts as system traffic (09 R276). -/
def scrubStackGran (s : State) (stack k : Nat) : State :=
  let a := scrubAddr stack k
  if !s.stackPageLive (a / 0x200000) then s
  else
    let r := granuleDecode (s.rawStack (a / 32)) (stackG a)
    let s := drawBucket (noteStackRead s 0 a) stack 2 0 32
    match r.1 with
    | .checkCorrected | .dataCorrected _ => s.putStack (a / 32) (granuleEncode r.2 (stackG a))
    | _ => s

/-- Words of an SRAM and granules of a slice. -/
def sramWords : Nat := 0x30000
def sliceGranules : Nat := 0x400000

/-- The end of a pass: its count, and SCRUB_PASS with its duration and corrections (Tables 9.11, 9.15). -/
def scrubPass (s : State) (ti engine start fixes : Nat) : State :=
  let a := tileReg ti Reg.INT_SCRUB_PASSES
  let s := if engine = 0 then s.setFld a 15 0 ((s.fld a 15 0 + 1) % 65536) else s.setFld a 31 16 ((s.fld a 31 16 + 1) % 65536)
  recordEvent s 0x2606 ti engine ((s.now - start) / 1000000000) fixes

/-- SCRUB_ACCESS (09 R275): the next word or granule of an engine; tile engines pause in a compute reset (R276), and no
engine runs without main power (14 R413). -/
def execScrubAccess (stack : Bool) (unit : Nat) (sram : Bool) (s : State) : Host.Outcome State Fault Refusal :=
  if s.fld Reg.PWR_STATUS 2 0 ≠ 3 then .next s
  else if stack then
    let k := SMap.getD s.stm.scrubPos unit 0
    let s := scrubStackGran s unit k
    .next { s with stm := { s.stm with scrubPos := SMap.put s.stm.scrubPos unit ((k + 1) % 2 ^ 31) } }
  else if !s.usable unit || s.ctl.untrained.contains unit then .next s
  else if sram then
    let a := tileReg unit Reg.INT_SCRUB_SRAM_POS
    let w := s.fld a 17 0
    let r := scrubWord s unit w
    let s := if r.2 then r.1.modTile unit (fun t => { t with scrubFixes := (t.scrubFixes.1 + 1, t.scrubFixes.2) }) else r.1
    if w + 1 < sramWords then .next (s.setFld a 17 0 (w + 1))
    else
      let t := s.tile unit
      let s := scrubPass (s.setFld a 17 0 0) unit 0 t.scrubFrom.1 t.scrubFixes.1
      .next (s.modTile unit (fun t => { t with scrubFrom := (s.now, t.scrubFrom.2), scrubFixes := (0, t.scrubFixes.2) }))
  else
    let a := tileReg unit Reg.INT_SCRUB_SLICE_POS
    let adopted := decide (s.fld a 22 22 = 1)
    let k := s.fld a 21 0
    let r := scrubGranule s unit (if adopted then .adopted else .own) k
    let s := if r.2 then r.1.modTile unit (fun t => { t with scrubFixes := (t.scrubFixes.1, t.scrubFixes.2 + 1) }) else r.1
    if k + 1 < sliceGranules then .next (s.setFld a 21 0 (k + 1))
    else if !adopted && decide (s.fld (tileReg unit Reg.BDM_STATUS) 14 14 = 1) then
      .next ((s.setFld a 21 0 0).setFld a 22 22 1)
    else
      let t := s.tile unit
      let s := scrubPass ((s.setFld a 21 0 0).setFld a 22 22 0) unit 1 t.scrubFrom.2 t.scrubFixes.2
      .next (s.modTile unit (fun t => { t with scrubFrom := (t.scrubFrom.1, s.now), scrubFixes := (t.scrubFixes.1, 0) }))

end Sys2Proof.Machine
end

