-- ==== Sys2Proof/Machine/Ibu.lean ====
section
/-! DEFINITION. The in-bank units (07 R209-R216): IBU_OP with its checks, and IBU_STEP_DONE. -/
namespace Sys2Proof.Machine

/-- The fields of an IBU_OP (Table 2.5). -/
def ibuFields (c : BitVec 512) (bcast : List (Num × Bool)) (inPlace : Bool) : IbuFields :=
  ⟨cf c 8 1, cf c 9 1, cf c 10 1, cf c 12 4, cf c 16 4, cf c 20 4, cf c 24 4, cf c 32 4, cf c 36 4, cf c 40 4, cf c 44 4,
    cf c 48 4, cf c 52 2, bcast, inPlace⟩

/-- Element format of SRC_A (Table 7.3). -/
def ibuFmt (op : Nat) : Fmt :=
  match op with
  | 0x01 | 0x24 => .e4m3
  | 0x02 | 0x25 => .e5m2
  | 0x03 | 0x08 | 0x0C | 0x10 | 0x12 | 0x20 | 0x22 | 0x23 => .bf16
  | _ => .fp32

/-- The element format a conversion or an AXPY writes. -/
def ibuOut (op : Nat) : Fmt :=
  match op with
  | 0x08 | 0x21 | 0x24 | 0x25 => .bf16
  | 0x22 => .e4m3
  | 0x23 => .e5m2
  | _ => .fp32

/-- DOT, SUM and MAX, TOPK, the operations with one result per element, by code. -/
def isDot (op : Nat) : Bool := inRange op 1 3
def isGroup (op : Nat) : Bool := inRange op 0x10 0x13
def isElt (op : Nat) : Bool := decide (op = 8) || decide (op = 9) || inRange op 0x20 0x25

/-- Bytes of SRC_A (DST for FILL) that one step covers (Table 7.3). -/
def ibuStep (op : Nat) : Nat :=
  if isDot op || isGroup op || decide (op = 0x30) then 4096 else if op = 0x0C then 1024 else 2048

/-- The count that P0 carries (D or G), if it is one (R210). -/
def ibuCount (op p0 : Nat) : Option Nat :=
  match (ofFP32 p0).asNat? with
  | none => none
  | some n =>
    match op with
    | 0x01 | 0x02 => if inRange n 32 2048 ∧ n % 32 = 0 then some n else none
    | 0x03 => if inRange n 32 1024 ∧ n % 16 = 0 then some n else none
    | 0x10 | 0x12 => if 1 ≤ n ∧ 2 * n % 32 = 0 then some n else none
    | 0x11 | 0x13 => if 1 ≤ n ∧ 4 * n % 32 = 0 then some n else none
    | _ => some 1

/-- Bytes of a vector or group: LEN must be a multiple of it. -/
def ibuUnit (op p0 : Nat) : Nat :=
  if isDot op || isGroup op then (ibuCount op p0).getD 1 * (ibuFmt op).width / 8 else 1

/-- Bytes of the destination range (Table 7.3). -/
def ibuDstLen (f : IbuFields) : Nat :=
  if isDot f.op || isGroup f.op then f.len / ibuUnit f.op f.p0 * 4
  else if f.op = 0x0C then f.len * 4
  else if f.op = 0x18 then f.topk * 8
  else if f.op = 0x30 then f.len
  else f.len * (ibuOut f.op).width / (ibuFmt f.op).width

/-- Which operands an operation uses: SRC_A, SRC_B, P0, P1-P3 and STEP_NUM. -/
def usesA (op : Nat) : Bool := decide (op ≠ 0x30)
def usesB (op : Nat) : Bool := decide (op = 8) || decide (op = 9) || decide (op = 0x0C)
def usesP0 (op : Nat) : Bool := decide (op ≠ 0x18)

/-- Two ranges share a byte. -/
def rangesMeet (a n b m : Nat) : Bool := decide (a < b + m) && decide (b < a + n)

/-- An IBU_OP in place (R216). -/
def ibuInPlace (f : IbuFields) : Bool :=
  decide (f.op = 0x0C) ||
    (usesA f.op && rangesMeet f.dst (ibuDstLen f) f.srcA f.len) ||
    (usesB f.op && rangesMeet f.dst (ibuDstLen f) f.srcB f.len)

/-- The selected pairs. -/
def ibuPairs (f : IbuFields) : List Nat := (List.range 8).filter (fun q => bitOf f.pairMask q)

/-- Operands that an operation does not use are 0, and BCAST_ADDR is all ones unless a DOT (R211). -/
def ibuUnusedZero (c : BitVec 512) (f : IbuFields) : Bool :=
  (usesA f.op || decide (f.srcA = 0)) && (usesB f.op || decide (f.srcB = 0)) && (usesP0 f.op || decide (f.p0 = 0)) &&
    (decide (f.op = 0x0C) || (decide (f.p1 = 0) && decide (f.p2 = 0) && decide (f.p3 = 0) && decide (f.stepNum = 0))) &&
    (decide (f.op = 0x18) || decide (f.topk = 0)) && (isDot f.op || decide (cf c 28 4 = 0xFFFFFFFF))

/-- The ranges and values of R211. -/
def ibuRangeOk (s : State) (ti : Nat) (f : IbuFields) : Bool :=
  let fits (b n : Nat) : Bool := decide (b % 32 = 0) && decide (b + n ≤ 0x200000)
  decide (0 < f.len) && decide (f.len % 32 = 0) && (ibuCount f.op f.p0).isSome && decide (f.len % ibuUnit f.op f.p0 = 0) &&
    fits f.srcA (if usesA f.op then f.len else 0) && fits f.srcB (if usesB f.op then f.len else 0) &&
    fits f.dst (ibuDstLen f) &&
    decide (s.fld (tileReg ti Reg.BDM_STATUS) (16 + f.layer) (16 + f.layer) = 0) &&
    decide (s.fld (tileReg ti Reg.BDM_STATUS) 15 15 = 0) &&
    (ibuPairs f).all (fun q => !bitOf (s.reg64 (tileReg ti Reg.IBU_DISABLE_LO)) (8 * f.layer + q)) &&
    (decide (f.op ≠ 0x18) || inRange f.topk 1 256) && (decide (f.op ≠ 0x0C) || decide (1 ≤ f.stepNum))

/-- Read the broadcast vector of a DOT as SEQ (R211, R212). -/
def readBcast (s : State) (ti : Nat) (c : BitVec 512) (f : IbuFields) : Except Flt (List (Num × Bool)) :=
  if !isDot f.op then .ok []
  else
    let a := cf c 28 4
    let n := (ibuCount f.op f.p0).getD 0
    let w := (ibuFmt f.op).width
    if a % 64 ≠ 0 ∨ !ownedRange s ti 0 a (n * w / 8) then fltAt cBankOwner (sramWindow + a)
    else
      .ok ((List.range n).map (fun i =>
        let r := (s.tile ti).bits ti (8 * a + i * w) w
        ((ibuFmt f.op).value r.1, r.2)))

/-- The work of an IBU_OP (07 R210-R212, R216): it starts at once, or after the commit when in place. -/
def workIbuOp (s : State) (ti : Nat) (c : BitVec 512) : Except Flt Work :=
  let f0 := ibuFields c [] false
  if !ibuUnusedZero c f0 then flt cReserved
  else if !ibuRangeOk s ti f0 then flt cFieldRange
  else
    let inPlace := ibuInPlace f0
    let perm := s.reg64 (tileReg ti (Reg.BDM_IBU_PERM + 2 * (s.tile ti).space))
    if ((s.tile ti).slotAt (cSlot c)).inPlace && !inPlace then flt cFieldRange
    else if !(ibuPairs f0).all (fun q => bitOf perm (8 * f0.layer + q)) then flt cProtection
    else
      match readBcast s ti c f0 with
      | .error e => .error e
      | .ok v =>
        let steps := (f0.len + ibuStep f0.op - 1) / ibuStep f0.op
        let n := v.length * (ibuFmt f0.op).width / 8
        .ok { Work.none with
          banks := if v.isEmpty then 0 else rangeBanks (cf c 28 4) n
          waits := .ibu (ibuFields c v inPlace) ((ibuPairs f0).map (fun q => (q, steps))) (!inPlace)
          after := fun s =>
            if v.isEmpty then s
            else noteSramReads s ti ((List.range (n / 8)).map (fun i => cf c 28 4 / 8 + i)) }

/-- IBU_OP (07 R212). -/
def execIbuOp (c : TileCmd) (s : State) : Host.Outcome State Fault Refusal :=
  .next (issueCmd s c 0x0C (fun s b => workIbuOp s c.ti b))

/-! ## Steps -/

/-- An element of a pair by its pair-local byte offset: its code and poison (R215). -/
def pairCode (s : State) (ti layer pair w p : Nat) : Nat × Bool :=
  let k := pairGranule layer pair p
  let r := granuleDecode (s.rawGranule ti k) (bondedG ti k)
  ((r.2.toNat >>> (8 * (p % 32))) % 2 ^ w, r.1.poisoned)

/-- A value of a format at a pair-local offset. -/
def pairVal (s : State) (ti layer pair : Nat) (f : Fmt) (p : Nat) : Num × Bool :=
  let c := pairCode s ti layer pair f.width p
  (f.value c.1, c.2)

/-- A result of a step: pair-local byte offset, width in bytes, code, poison. -/
structure IbuOut where
  off : Nat
  bytes : Nat
  code : Nat
  poison : Bool
deriving DecidableEq, Repr

/-- The four partial sums of R214 joined: (s0 + s1) + (s2 + s3), or the maximum. -/
def ibuSum (max : Bool) (xs : List Num) : Num :=
  let join (a b : Num) : Num := if max then a.max b else fadd a b
  let part (k : Nat) : Option Num :=
    match (List.range ((xs.length + 3) / 4)).filterMap (fun i => xs[4 * i + k]?) with
    | [] => none
    | x :: r => some (r.foldl join (fp32 x))
  let join? (a b : Option Num) : Option Num :=
    match a, b with
    | some x, some y => some (join x y)
    | some x, none => some x
    | none, y => y
  (join? (join? (part 0) (part 1)) (join? (part 2) (part 3))).getD Num.zero

/-- A dot product of a vector with the broadcast vector (R214): exact and rounded once for FP8, partial sums for
BF16. -/
def ibuDot (f : IbuFields) (xs : List Num) : Num :=
  let ps := (xs.zip (f.bcast.map (·.1))).map (fun x => x.1.mul x.2)
  if f.op = 0x03 then ibuSum false ps
  else
    let r := fp32 (ps.foldl Num.add Num.zero)
    if r.isZero then Num.zero else r

/-- pow_fp32 by binary exponentiation from the highest bit of t down, each product rounded (R214). -/
def powFP32 (x : Num) (t : Nat) : Num :=
  (List.range t.log2).foldl (fun r i =>
    let r2 := fmul r r
    if bitOf t (t.log2 - 1 - i) then fmul r2 x else r2) x

/-- One ADAM element (R214): new parameter, m and v. -/
def adamStep (f : IbuFields) (param grad m v : Num) : Num × Num × Num :=
  let b1 := ofFP32 f.p1
  let b2 := ofFP32 f.p2
  let c1 := fsub Num.one (powFP32 b1 f.stepNum)
  let c2 := fsub Num.one (powFP32 b2 f.stepNum)
  let m' := fadd (fmul b1 m) (fmul (fsub Num.one b1) grad)
  let v' := fadd (fmul b2 v) (fmul (fsub Num.one b2) (fmul grad grad))
  let u := fdiv (fdiv m' c1) (fadd (fsqrt (fdiv v' c2)) (ofFP32 f.p3))
  (fsub param (fmul (ofFP32 f.p0) u), m', v')

/-- The elements that a step covers, as indices into SRC_A (DST for FILL). -/
def stepRange (f : IbuFields) (step size : Nat) : List Nat :=
  let b := ibuStep f.op
  let lo := step * b / size
  let hi := min ((step + 1) * b) f.len / size
  (List.range (hi - lo)).map (fun i => lo + i)

/-- Rank of TOPK with a poisoned score above NaN above numbers. -/
def ibuTop (f : IbuFields) (xs : List (Num × Bool)) : List (Nat × Num × Bool) :=
  topScores f.topk (xs.mapIdx (fun i x => (i, x.1, x.2)))

/-- What one step of an operation writes (Table 7.3, R214, R215). -/
def stepOuts (s : State) (ti pair : Nat) (f : IbuFields) (step total : Nat) : List IbuOut :=
  let fa := ibuFmt f.op
  let wa := fa.width / 8
  let src (i : Nat) : Num × Bool := pairVal s ti f.layer pair fa (f.srcA + i * wa)
  if f.op = 0x30 then (stepRange f step 4).map (fun i => ⟨f.dst + 4 * i, 4, f.p0, false⟩)
  else if isDot f.op || isGroup f.op then
    let u := ibuUnit f.op f.p0
    let n := u / wa
    let done := (List.range (f.len / u)).filter (fun g =>
      decide (step * 4096 < (g + 1) * u) && decide ((g + 1) * u ≤ (step + 1) * 4096))
    done.map (fun g =>
      let xs := (List.range n).map (fun j => src (g * n + j))
      let v := if isDot f.op then ibuDot f (xs.map (·.1)) else ibuSum (decide (0x12 ≤ f.op)) (xs.map (·.1))
      ⟨f.dst + 4 * g, 4, toFP32 v, xs.any (·.2) || f.bcast.any (·.2)⟩)
  else if f.op = 0x18 then
    if step + 1 < total then []
    else
      let top := ibuTop f ((List.range (f.len / 4)).map src)
      (List.range f.topk).flatMap (fun k =>
        match top[k]? with
        | some x => [⟨f.dst + 8 * k, 4, toFP32 x.2.1, x.2.2⟩, ⟨f.dst + 8 * k + 4, 4, x.1, x.2.2⟩]
        | none => [⟨f.dst + 8 * k, 4, toFP32 (.inf true), false⟩, ⟨f.dst + 8 * k + 4, 4, 0xFFFFFFFF, false⟩])
  else if f.op = 0x0C then
    (stepRange f step 2).flatMap (fun i =>
      let p := src i
      let g := pairVal s ti f.layer pair .bf16 (f.srcB + 2 * i)
      let m := pairVal s ti f.layer pair .fp32 (f.dst + 8 * i)
      let v := pairVal s ti f.layer pair .fp32 (f.dst + 8 * i + 4)
      let bad := p.2 || g.2 || m.2 || v.2
      let r := adamStep f p.1 g.1 m.1 v.1
      [⟨f.srcA + 2 * i, 2, Fmt.bf16.encode .rne r.1, bad⟩, ⟨f.dst + 8 * i, 4, toFP32 r.2.1, bad⟩,
        ⟨f.dst + 8 * i + 4, 4, toFP32 r.2.2, bad⟩])
  else
    let fo := ibuOut f.op
    let wo := fo.width / 8
    (stepRange f step wa).map (fun i =>
      let x := src i
      if usesB f.op then
        let y := pairVal s ti f.layer pair fa (f.srcB + i * wa)
        ⟨f.dst + i * wo, wo, fo.encode .rne (((ofFP32 f.p0).mul x.1).add y.1), x.2 || y.2⟩
      else ⟨f.dst + i * wo, wo, fo.encode .rne (fmul x.1 (ofFP32 f.p0)), x.2⟩)

/-- Write a step's results to the pair, granule by granule, whole granules in poison where one depends on poison; the
granules poisoned, by pair-local offset. -/
def writePair (s : State) (ti layer pair : Nat) (outs : List IbuOut) : State × List Nat :=
  let bufs := outs.foldl (fun b o => addElem b none (8 * o.off) (8 * o.bytes) o.code o.poison) []
  let s := bufs.foldl (fun s b =>
    let k := pairGranule layer pair (32 * b.g)
    let g := bondedG ti k
    if b.poison then s.putGranule ti k (granulePoison g)
    else if b.mask = BitVec.allOnes 256 then s.putGranule ti k (granuleEncode b.data g)
    else
      let r := granuleDecode (s.rawGranule ti k) g
      if r.1.poisoned then s.putGranule ti k (granulePoison g)
      else s.putGranule ti k (granuleEncode ((r.2 &&& ~~~b.mask) ||| (b.data &&& b.mask)) g)) s
  (s, (bufs.filter (fun b => b.poison)).map (fun b => 32 * b.g))

/-- The input granules of a step that read corrected (R215). -/
def stepCorrections (s : State) (ti pair : Nat) (f : IbuFields) (step : Nat) : Nat :=
  let rng (base size : Nat) : List Nat :=
    ((stepRange f step size).map (fun i => pairGranule f.layer pair (base + i * size))).eraseDups
  let wa := (ibuFmt f.op).width / 8
  let ks := (if usesA f.op then rng f.srcA wa else []) ++ (if usesB f.op then rng f.srcB wa else [])
  (ks.filter (fun k =>
    match (granuleDecode (s.rawGranule ti k) (bondedG ti k)).1 with
    | .checkCorrected | .dataCorrected _ => true
    | _ => false)).length

/-- One step of an operation on a pair. -/
def runStep (s : State) (ti pair : Nat) (f : IbuFields) (left : Nat) : State :=
  let total := (f.len + ibuStep f.op - 1) / ibuStep f.op
  let step := total - left
  let ce := stepCorrections s ti pair f step
  let r := writePair s ti f.layer pair (stepOuts s ti pair f step total)
  let s := r.1.count (tileReg ti Reg.IBU_CE_COUNT) ce
  let a := tileReg ti Reg.IBU_STEPS_LO
  let s := s.setReg64 a ((s.reg64 a + 1) % 2 ^ 64)
  match r.2 with
  | [] => s
  | off :: _ =>
    let s := (s.count (tileReg ti Reg.IBU_POISON_COUNT) r.2.length).setFld (tileReg ti Reg.IBU_STATUS) 31 31 1
    recordEvent s 0x2501 ti (f.layer * 8 + pair) off f.op

/-- Whether an entry's operation runs on a pair of a layer. -/
def QEntry.runsOn (e : QEntry) (layer pair : Nat) : Bool :=
  match e.waits with
  | .ibu f left started => started && decide (f.layer = layer) && left.any (fun x => decide (x.1 = pair))
  | _ => false

/-- IBU_STEP_DONE (07 R213): the pair's oldest running operation ends a step, then the accesses that waited for the pair
are issued. -/
def execIbuStepDone (ti layer pair : Nat) (s : State) : Host.Outcome State Fault Refusal :=
  let t := s.tile ti
  match t.queue.find? (fun e => e.runsOn layer pair) with
  | none => .next (serveWaiting s ti layer pair)
  | some e =>
    match e.waits with
    | .ibu f left started =>
      let n := ((left.find? (fun x => decide (x.1 = pair))).map (·.2)).getD 1
      let s := runStep s ti pair f n
      let left' := (left.map (fun x => if x.1 = pair then (x.1, x.2 - 1) else x)).filter (fun x => decide (x.2 ≠ 0))
      let s := s.modTile ti (fun t => t.putEntry { e with waits := .ibu f left' started })
      .next (serveWaiting s ti layer pair)
    | _ => .next s

/-- Start the in-place IBU_OPs of a committed step (07 R216). -/
def startInPlace (s : State) (ti slot : Nat) : State :=
  s.modTile ti (fun t => { t with
    queue := t.queue.map (fun e =>
      match e.waits with
      | .ibu f left _ => if f.inPlace && decide (e.slot = slot) then { e with waits := .ibu f left true } else e
      | _ => e) })

end Sys2Proof.Machine
end

