-- ==== Sys2Proof/Machine/Net.lean ====
section
/-! DEFINITION. Commands and packets of the network-on-chip (02 R62-R81): SEND, RECV, SYNC, inbound writes, HANDOVER, END and
the completion of commands. -/
namespace Sys2Proof.Machine

/-- RTAG of the round in progress (02 R75). -/
def State.rtag (s : State) : Nat := s.round % 256

/-! ## SEND, RECV, SYNC -/

/-- The bits of a source in descriptor order, packed from bit 0 as the elements lie in an innermost run (log 19). -/
def sendBits (width : Nat) (xs : List (Nat × Bool)) : List GranBuf :=
  (xs.mapIdx (fun i x => (i, x))).foldl (fun b x => addElem b none (width * x.1) width x.2.1 x.2.2) []

/-- Read the raw codes of a view as an owner. -/
def readCodes (s : State) (ti owner : Nat) (d : Desc) : List (List Nat) → Except Flt (List (Nat × Bool))
  | [] => .ok []
  | i :: r =>
    match readCode s ti (s.tile ti).space owner d i, readCodes s ti owner d r with
    | .error e, _ => .error e
    | _, .error e => .error e
    | .ok x, .ok xs => .ok (x :: xs)

/-- The TAG of a PORT packet to the fabric switch: what it carries (0 data, 1 a SYNC arrival, 2 a release) above the
receiving tile. -/
def portTag (kind ti : Nat) : Nat := kind * 4096 + ti

/-- The inbound writes of a SEND: packets of up to 256 bytes from DST_ADDR (02 R64, R72, R77). -/
def sendPackets (s : State) (ti : Nat) (c : BitVec 512) (bufs : List GranBuf) : List Packet :=
  let remote := bitOf (cMode c) 0
  (List.range ((bufs.length + 7) / 8)).map (fun k =>
    let bs := bufs.filter (fun b => decide (b.g / 8 = k))
    let pieces := bs.map (fun b => (⟨b.g % 8, b.data, b.mask, b.poison⟩ : Piece))
    ⟨if remote then .port else .write, if remote then 3 else 0, if remote then 0 else cf c 8 2 % 4096, 0, ti,
      cf c 16 4 + 256 * k, 32 * bs.length, if remote then portTag 0 (cf c 8 2 % 4096) else 0, cf c 14 1, s.rtag, pieces, false, 0,
      if remote then some (cf c 10 2) else none, false, false⟩)

/-- The work of a SEND (02 R72): the source in the SRAM window, read as SEQ. -/
def workSend (s : State) (ti : Nat) (c : BitVec 512) : Except Flt Work :=
  match readDesc s ti (cf c 12 2) with
  | .error e => .error e
  | .ok d =>
    if !d.inSram then badDesc d
    else
      match readCodes s ti 0 d (indices d.shape) with
      | .error e => .error e
      | .ok xs =>
        .ok { Work.none with
          banks := footprintBanks d.footprint, packets := sendPackets s ti c (sendBits d.fmt.width xs), views := [d]
          oobReads := d.oob }

/-- SEND (02 R72). -/
def execSend (c : TileCmd) (s : State) : Host.Outcome State Fault Refusal :=
  .next (issueCmd s c 0x0D (fun s b => workSend s c.ti b))

/-- The fabric address an operand names with REMOTE. -/
def remoteOf (c : BitVec 512) (off : Nat) : Option Nat := if bitOf (cMode c) 0 then some (cf c off 2 % 2 ^ 14) else none

/-- RECV (02 R73). -/
def execRecv (c : TileCmd) (s : State) : Host.Outcome State Fault Refusal :=
  .next (issueCmd s c 0x0E (fun _ b =>
    .ok { Work.none with waits := .recv (cf b 8 2 % 4096) (remoteOf b 10) (cf b 12 1) (cf b 16 4) }))

/-- Bytes counted from a source and channel (02 R73). -/
def Tile.recvCount (t : Tile) (src : Nat) (fab : Option Nat) (chan : Nat) : Nat :=
  match t.recv.find? (fun x => decide (x.1 = src) && decide (x.2.1 = fab) && decide (x.2.2.1 = chan)) with
  | some x => x.2.2.2
  | none => 0
def Tile.putRecv (t : Tile) (src : Nat) (fab : Option Nat) (chan n : Nat) : Tile :=
  { t with recv := (src, fab, chan, n) ::
      t.recv.filter (fun x => !(decide (x.1 = src) && decide (x.2.1 = fab) && decide (x.2.2.1 = chan))) }

/-- The arrival packet of a SYNC; a remote coordinator is reached through the fabric port (02 R74). -/
def syncPacket (s : State) (ti : Nat) (c : BitVec 512) : Packet :=
  let remote := remoteOf c 14
  ⟨match remote with | some _ => .port | none => .sync, match remote with | some _ => 3 | none => 0,
    match remote with | some _ => 0 | none => cf c 12 2 % 4096, 0, ti, cf c 8 2, cf c 10 2,
    match remote with | some _ => portTag 1 (cf c 12 2 % 4096) | none => 0, 0, s.rtag, [], false, 0, remote,
    false, false⟩

/-- SYNC (02 R74): the arrival leaves at issue; the command waits for its release. -/
def execSync (c : TileCmd) (s : State) : Host.Outcome State Fault Refusal :=
  .next (issueCmd s c 0x0F (fun s b =>
    .ok { Work.none with
      waits := .sync ⟨cf b 8 2, cf b 10 2, false⟩
      after := fun s2 => s2.send (syncPacket s c.ti b) }))

/-- How many members a group needs at a coordinator: the COUNT of its own SYNC (02 R74). -/
def Tile.syncNeed (t : Tile) (group : Nat) : Option Nat :=
  t.queue.findSome? (fun e =>
    match e.waits with
    | .sync w => if w.group = group then some w.count else none
    | _ => none)

/-- Releases to every member of a full group; a remote member's goes through the fabric port. -/
def syncReleases (s : State) (ti group : Nat) (ms : List (Nat × Option Nat)) : List Packet :=
  ms.map (fun m =>
    ⟨match m.2 with | some _ => .port | none => .syncRelease, match m.2 with | some _ => 3 | none => 0,
      match m.2 with | some _ => 0 | none => m.1, 0, ti, group, 0,
      match m.2 with | some _ => portTag 2 m.1 | none => 0, 0, s.rtag, [], false, 0, m.2, false, false⟩)

/-- Count an arrival; when the group is full, release it and clear its count (02 R74). -/
def arriveSync (s : State) (ti group : Nat) (m : Nat × Option Nat) : State :=
  let t := s.tile ti
  let old := (t.syncs.find? (fun a => a.group = group)).getD ⟨group, []⟩
  let ms := old.members ++ [m]
  let rest := t.syncs.filter (fun a => a.group ≠ group)
  match t.syncNeed group with
  | none => s.setTile ti { t with syncs := ⟨group, ms⟩ :: rest }
  | some n =>
    if ms.length < n then s.setTile ti { t with syncs := ⟨group, ms⟩ :: rest }
    else (s.setTile ti { t with syncs := rest }).sendAll (syncReleases s ti group ms)

/-- A packet of another round (02 R75): counted and discarded. -/
def stale (s : State) (p : Packet) : Bool := decide (p.rtag ≠ s.rtag)
def dropStale (s : State) (ti : Nat) : State := s.count (tileReg ti Reg.TIL_STALE_DROP) 1

/-- A tile whose half is in a compute reset, until its ports are trained: packets bound for it are held (16 R486). -/
def State.detained (s : State) (ti : Nat) : Bool := s.ctl.untrained.contains ti

/-- Hold a packet: it stays in the mesh. -/
def detain (s : State) (p : Packet) : State := if s.mesh.contains p then s else s.send p

/-- The gateway engines refuse a request that would cross the split (13 R407): source and destination halves differ. -/
def State.crossesSplit (s : State) (src dst : Half) : Bool := decide (s.fld Reg.HLK_STATUS 31 31 = 1) && decide (src ≠ dst)

/-- SYNC_ARRIVAL (02 R74). -/
def execSyncArrival (p : Packet) (s : State) : Host.Outcome State Fault Refusal :=
  if s.detained p.dstId then .next (detain s p)
  else
  let s := s.arrive p
  .next (if !s.usable p.dstId then s
    else if stale s p then dropStale s p.dstId
    else arriveSync s p.dstId p.addr (p.srcId, p.remote))

/-- Mark the oldest SYNC of a group released. -/
def releaseSync (s : State) (ti group : Nat) : State :=
  let t := s.tile ti
  match t.queue.find? (fun e =>
    match e.waits with
    | .sync w => decide (w.group = group) && !w.released
    | _ => false) with
  | none => s
  | some e =>
    match e.waits with
    | .sync w => s.setTile ti (t.putEntry { e with waits := .sync { w with released := true } })
    | _ => s

/-- SYNC_RELEASE (02 R74). -/
def execSyncRelease (p : Packet) (s : State) : Host.Outcome State Fault Refusal :=
  if s.detained p.dstId then .next (detain s p)
  else
  let s := s.arrive p
  .next (if !s.usable p.dstId then s
    else if stale s p then dropStale s p.dstId
    else releaseSync s p.dstId p.addr)

/-! ## Inbound writes -/

/-- The answer of a write: an acknowledgement or a refusal (02 R72, R75). -/
def replyOf (p : Packet) (ok : Bool) : Packet :=
  ⟨if ok then .writeAck else .nack, p.srcKind, p.srcId, p.dstKind, p.dstId, p.addr, p.len, p.tag, p.chan, 0, [], false, p.ref,
    p.remote, false, false⟩

/-- NOC_WRITE (02 R62, R64, R72, R75): an unusable tile's router refuses; a packet of another round is acknowledged and
dropped; a write past the SRAM is refused without a fault, one to a bank without a permit with STEAL_DENIED; the fault
has no command of the receiver, so its command address is 0 (log 38); any other waits in the ejection queue, and stays in the mesh while the queue is full. -/
def execNocWrite (p : Packet) (s : State) : Host.Outcome State Fault Refusal :=
  let ti := p.dstId
  let s1 := s.arrive p
  if s.detained ti then .next (detain s p)
  else if !s.usable ti || (decide (p.srcKind = 0) && s.crossesSplit (halfOf p.srcId) (halfOf ti)) then
    .next (s1.send (replyOf p false))
  else if stale s p then .next ((dropStale s1 ti).send (replyOf p true))
  else if sramBytes < p.addr + p.len then
    .next ((s1.count (tileReg ti Reg.TIL_STEAL_REFUSED) 1).send (replyOf p false))
  else
    let bank := bankOf p.addr
    if !s.stealPermit ti bank then
      let s2 := (s1.count (tileReg ti Reg.TIL_STEAL_REFUSED) 1).send (replyOf p false)
      .next (tileFault s2 ti 0x06 0 0 p.addr)
    else if 16 ≤ (s.tile ti).eject.length then .next s
    else .next (s1.modTile ti (fun t => { t with eject := t.eject ++ [⟨p, bank, false⟩] }))

/-- The SRAM writes of an inbound packet. -/
def inboundWrites (p : Packet) : List SramWrite :=
  p.pieces.flatMap (fun x => (List.range 4).filterMap (fun i =>
    let w := p.addr / 8 + 4 * x.idx + i
    let m := x.mask.extractLsb' (64 * i) 64
    if x.poison then some ⟨w, 0, BitVec.allOnes 64, true⟩
    else if m = 0 then none
    else some ⟨w, x.data.extractLsb' (64 * i) 64, m, false⟩))

/-- INBOUND_WRITE_PERFORMED (02 R62, R65, R72, R73): the oldest write that waits for the bank is written, acknowledged and
counted for RECV; one that waited a bank cycle is counted. -/
def execInboundWritePerformed (ti bank : Nat) (s : State) : Host.Outcome State Fault Refusal :=
  let t := s.tile ti
  match t.eject.find? (fun x => decide (x.bank = bank)) with
  | none => .next s
  | some x =>
    let s := writeSram s ti (inboundWrites x.pkt)
    let s := if x.waited then s.count (tileReg ti Reg.TIL_STEAL_WAIT) 1 else s
    let src := x.pkt.srcId
    let n := (s.tile ti).recvCount src x.pkt.remote x.pkt.chan
    let s := s.modTile ti (fun t => { t.putRecv src x.pkt.remote x.pkt.chan (n + x.pkt.len) with eject := t.eject.erase x })
    .next (s.send (replyOf x.pkt true))

/-- STEAL_STARVED (02 R64): an inbound write has waited more than 100 us; the event at most once a round. The owner's use
of the bank, which made it wait, is counted (R65). -/
def execStealStarved (ti : Nat) (s : State) : Host.Outcome State Fault Refusal :=
  let t := s.tile ti
  match t.eject with
  | [] => .next s
  | x :: r =>
    let s := s.count (tileReg ti (Reg.TIL_CONFL + min (s.bankOwner ti x.bank) 8)) 1
    let s := s.modTile ti (fun t => { t with eject := { x with waited := true } :: r, starved := true })
    .next (if t.starved then s else recordEvent s 0x2020 ti x.bank (x.pkt.addr % 2 ^ 32) 0)

/-- ESCAPE_CHANNEL_MOVE (02 R79): a waiting packet moves to the escape channel, where it stays. -/
def execEscapeChannelMove (p : Packet) (s : State) : Host.Outcome State Fault Refusal :=
  if s.mesh.contains p then
    .next { s with mesh := s.mesh.map (fun q => if q = p then { q with escape := true } else q) }
  else .next s

/-! ## HANDOVER and END -/

/-- HANDOVER (02 R61): issue blocks until BANK_OWNER_WRITE performs it. -/
def execHandover (c : TileCmd) (s : State) : Host.Outcome State Fault Refusal :=
  let ti := c.ti
  let serial := (s.tile ti).serial
  let b := c.bits
  .next (issueCmd s c 0x10 (fun s0 b =>
    .ok { Work.none with
      refused := false
      after := fun s => s.modTile ti (fun t => { t with
        handover := some ⟨(s0.tile ti).serial, t.pc, cSlot b, cFlags b, cSet b, BitVec.ofNat 12 (cf b 8 2), cf b 10 1 % 16,
          bitOf (cf b 11 1) 1, bitOf (cf b 11 1) 0⟩ }) }) |> dropSeq ti serial b)
where
  /-- The sequencer has no queue: its command is held in `handover` alone. -/
  dropSeq (ti serial : Nat) (b : BitVec 512) (s : State) : State :=
    if cClass b = 0x10 then
      s.modTile ti (fun t => { t with queue := t.queue.filter (fun e => !(decide (e.serial = serial) && decide (e.cls = 0x10))) })
    else s

/-- A command that reaches a bank has not completed. -/
def Tile.reaches (t : Tile) (b : Nat) : Bool := t.queue.any (fun e => e.banks.getLsbD b)

/-- Write the owner of a bank, and its permit where APPLY is set (02 R61). -/
def writeOwner (s : State) (ti b : Nat) (h : Handover) : State :=
  let a := tileReg ti (Reg.TIL_BANK_OWN + b)
  let s := s.setFld a 3 0 h.owner
  if h.apply then s.setBit a 8 h.value else s

/-- BANK_OWNER_WRITE (02 R61): each bank of the waiting HANDOVER that no earlier command still reaches is written; the
HANDOVER completes with its last bank. -/
def execBankOwnerWrite (ti : Nat) (s : State) : Host.Outcome State Fault Refusal :=
  let t := s.tile ti
  match t.handover with
  | none => .next s
  | some h =>
    let ready := (List.range 12).filter (fun b => h.banks.getLsbD b && !t.reaches b)
    let left := ready.foldl (fun (m : BitVec 12) b => m &&& ~~~(1#12 <<< b)) h.banks
    let s := ready.foldl (fun s b => writeOwner s ti b h) s
    if left = 0 then .next (finishCmd (s.modTile ti (fun t => { t with handover := none })) ti h.setTok)
    else .next (s.modTile ti (fun t => { t with handover := some { h with banks := left } }))

/-- The segment after END: its entry becomes the position, tokens clear; none left makes the tile IDLE (02 R46, R47,
R83). -/
def nextSegment (s : State) (ti : Nat) : State :=
  let t := s.tile ti
  let rest := t.segs.drop 1
  let s := s.setTile ti { t with segs := rest, pc := (match rest with | [] => t.pc | g :: _ => g.entry) }
  let s := (s.setTokens ti 0).setFld (tileReg ti Reg.TIL_STATUS) 13 8 rest.length
  if rest.isEmpty then s.setTilState ti tilIdle else s

/-- END (02 R47): it holds until every earlier command of the segment has completed, then ends the segment. -/
def execEnd (c : TileCmd) (s : State) : Host.Outcome State Fault Refusal :=
  let ti := c.ti
  if s.canIssue ti && decide (cClass c.bits = 0x1F) && !(s.tile ti).live.isEmpty && (s.fetchCause ti).isNone && !c.poison &&
      (decodeCause c.bits).isNone then .next (s.setFld (tileReg ti Reg.TIL_STATUS) 23 16 (cSlot ((s.tile ti).effective c.bits)))
  else
    let serial := (s.tile ti).serial
    let s1 := issueCmd s c 0x1F (fun _ _ => .ok Work.none)
    let t1 := s1.tile ti
    match t1.entry? serial with
    | none => .next s1
    | some e =>
      let s2 := s1.setTile ti { t1 with queue := t1.queue.filter (fun x => x.serial ≠ serial) }
      .next (nextSegment (finishCmd s2 ti e.setTok) ti)

/-! ## Completion -/

/-- What a command still waits for is done: a RECV's bytes are counted, a SYNC is released, an IBU_OP has run. -/
def Tile.waitDone (t : Tile) (w : Waits) : Bool :=
  match w with
  | .none => true
  | .reads n => decide (n = 0)
  | .recv src fab chan len => decide (len ≤ t.recvCount src fab chan)
  | .sync x => x.released
  | .ibu _ left started => started && left.isEmpty

/-- ATTN_APPLY and the array and vector commands wait for one another in order of issue (06 R185). -/
def Tile.unitBlocked (t : Tile) (e : QEntry) : Bool :=
  let compute (x : QEntry) : Bool := decide (x.unit = .array) || decide (x.unit = .vector)
  if e.cls = 0x0A then t.queue.any (fun x => compute x && decide (x.serial < e.serial))
  else if compute e then t.queue.any (fun x => decide (x.cls = 0x0A) && decide (x.serial < e.serial))
  else false

/-- The head of a unit's queue is ready to complete (02 R45). -/
def Tile.readyHead (t : Tile) (u : UnitId) : Option QEntry :=
  match t.queue.find? (fun e => decide (e.unit = u)) with
  | none => none
  | some e => if e.outstanding = 0 ∧ t.waitDone e.waits = true ∧ t.unitBlocked e = false then some e else none

/-- What the completion of a class writes beside the common effects. -/
def finishUnit (s : State) (ti : Nat) (e : QEntry) : State :=
  let s := match e.array with
    | some a => finishArray s ti e.cls e.slot e.flags a
    | none => s
  let s := match e.attn with
    | some a => finishAttn s ti e.cls e.slot e.flags a
    | none => s
  match e.waits with
  | .recv src fab chan len => s.modTile ti (fun t => t.putRecv src fab chan (t.recvCount src fab chan - len))
  | _ => s

/-- COMMAND_COMPLETE (02 R45, R46, R51): the oldest command of the unit, once nothing of it is outstanding, leaves the
queue with its writes in the banks; a LOAD's fill values are written as its engine. -/
def execCommandComplete (ti : Nat) (u : UnitId) (s : State) : Host.Outcome State Fault Refusal :=
  let t := s.tile ti
  match t.readyHead u with
  | none => .next s
  | some e =>
    match (if e.cls = 0x03 then foreignWord s ti (raeOwner u) e.swrites else none) with
    | some w => .next (tileFault s ti cBankOwner e.slot e.vaddr (sramWindow + 8 * w))
    | none =>
      let s := writeSram s ti e.swrites
      let s := s.modTile ti (fun t => { t with queue := t.queue.filter (fun x => x.serial ≠ e.serial) })
      let s := finishCmd s ti e.setTok
      .next (finishUnit s ti e)

end Sys2Proof.Machine
end

