-- ==== Sys2Proof/Machine/Crypto.lean ====
section
/-! DEFINITION. CRC-32 (19 R552) and the signatures of the module: SHA-256 and RSASSA-PSS over RSA-3072 with MGF1 and a
32-byte salt (17 R503, 19 R542), on lists of byte values. -/
namespace Sys2Proof.Machine

/-! ## CRC-32 -/

/-- One bit of the reflected CRC-32 (19 R552). -/
def crcBit (c : BitVec 32) : BitVec 32 := if c.getLsbD 0 then (c >>> 1) ^^^ 0xEDB88320#32 else c >>> 1

/-- One byte of the CRC. -/
def crcByte (c : BitVec 32) (b : Nat) : BitVec 32 :=
  crcBit (crcBit (crcBit (crcBit (crcBit (crcBit (crcBit (crcBit (c ^^^ BitVec.ofNat 32 (b % 256)))))))))

/-- CRC-32 of a byte list. -/
def crc32 (bs : List Nat) : Nat := (bs.foldl crcByte 0xFFFFFFFF#32 ^^^ 0xFFFFFFFF#32).toNat

/-! ## SHA-256 -/

/-- The round constants of SHA-256. -/
def shaK : List (BitVec 32) := (
  [0x428a2f98, 0x71374491, 0xb5c0fbcf, 0xe9b5dba5, 0x3956c25b, 0x59f111f1, 0x923f82a4, 0xab1c5ed5] ++
  [0xd807aa98, 0x12835b01, 0x243185be, 0x550c7dc3, 0x72be5d74, 0x80deb1fe, 0x9bdc06a7, 0xc19bf174] ++
  [0xe49b69c1, 0xefbe4786, 0x0fc19dc6, 0x240ca1cc, 0x2de92c6f, 0x4a7484aa, 0x5cb0a9dc, 0x76f988da] ++
  [0x983e5152, 0xa831c66d, 0xb00327c8, 0xbf597fc7, 0xc6e00bf3, 0xd5a79147, 0x06ca6351, 0x14292967] ++
  [0x27b70a85, 0x2e1b2138, 0x4d2c6dfc, 0x53380d13, 0x650a7354, 0x766a0abb, 0x81c2c92e, 0x92722c85] ++
  [0xa2bfe8a1, 0xa81a664b, 0xc24b8b70, 0xc76c51a3, 0xd192e819, 0xd6990624, 0xf40e3585, 0x106aa070] ++
  [0x19a4c116, 0x1e376c08, 0x2748774c, 0x34b0bcb5, 0x391c0cb3, 0x4ed8aa4a, 0x5b9cca4f, 0x682e6ff3] ++
  [0x748f82ee, 0x78a5636f, 0x84c87814, 0x8cc70208, 0x90befffa, 0xa4506ceb, 0xbef9a3f7, 0xc67178f2]).map (BitVec.ofNat 32)

/-- The initial hash value. -/
def shaInit : List (BitVec 32) := ([0x6a09e667, 0xbb67ae85, 0x3c6ef372, 0xa54ff53a, 0x510e527f, 0x9b05688c, 0x1f83d9ab, 0x5be0cd19] : List Nat).map (BitVec.ofNat 32)

/-- The padded message. -/
def shaPad (m : List Nat) : List Nat :=
  let n := m.length
  m.map (· % 256) ++ [0x80] ++ List.replicate ((119 - n % 64) % 64) 0 ++
    (List.range 8).map (fun i => 8 * n / 2 ^ (8 * (7 - i)) % 256)

/-- The next word of the schedule from the sixteen before it, newest first. -/
def shaNext (w : List (BitVec 32)) : BitVec 32 :=
  let x2 := w.getD 1 0
  let x15 := w.getD 14 0
  let s0 := x15.rotateRight 7 ^^^ x15.rotateRight 18 ^^^ (x15 >>> 3)
  let s1 := x2.rotateRight 17 ^^^ x2.rotateRight 19 ^^^ (x2 >>> 10)
  s1 + w.getD 6 0 + s0 + w.getD 15 0

/-- The message schedule, newest first: sixteen words and `n` more. -/
def shaSchedule : Nat → List (BitVec 32) → List (BitVec 32)
  | 0, w => w
  | n + 1, w => shaSchedule n (shaNext w :: w)

/-- One round on the eight working variables. -/
def shaRound (v : List (BitVec 32)) (x : BitVec 32 × BitVec 32) : List (BitVec 32) :=
  match v with
  | [a, b, c, d, e, f, g, h] =>
    let s1 := e.rotateRight 6 ^^^ e.rotateRight 11 ^^^ e.rotateRight 25
    let t1 := h + s1 + ((e &&& f) ^^^ (~~~e &&& g)) + x.1 + x.2
    let s0 := a.rotateRight 2 ^^^ a.rotateRight 13 ^^^ a.rotateRight 22
    let t2 := s0 + ((a &&& b) ^^^ (a &&& c) ^^^ (b &&& c))
    [t1 + t2, a, b, c, d + t1, e, f, g]
  | _ => v

/-- One block of 64 bytes. -/
def shaBlock (h : List (BitVec 32)) (b : List Nat) : List (BitVec 32) :=
  let w := (List.range 16).map (fun i =>
    BitVec.ofNat 32 (((b.getD (4 * i) 0 * 256 + b.getD (4 * i + 1) 0) * 256 + b.getD (4 * i + 2) 0) * 256 + b.getD (4 * i + 3) 0))
  let v := (shaK.zip (shaSchedule 48 w.reverse).reverse).foldl shaRound h
  (h.zip v).map (fun x => x.1 + x.2)

/-- SHA-256 of a byte list. -/
def sha256 (m : List Nat) : List Nat :=
  let p := shaPad m
  let h := (List.range (p.length / 64)).foldl (fun h i => shaBlock h ((p.drop (64 * i)).take 64)) shaInit
  h.flatMap (fun x => (List.range 4).map (fun i => x.toNat / 2 ^ (8 * (3 - i)) % 256))

/-! ## RSA-3072 PSS -/

/-- A number from little-endian bytes. -/
def ofLe (bs : List Nat) : Nat := bs.foldr (fun b n => b % 256 + 256 * n) 0

/-- The big-endian bytes of a number. -/
def toBe (n len : Nat) : List Nat := (List.range len).map (fun i => n / 2 ^ (8 * (len - 1 - i)) % 256)

/-- b to the power of the number whose lowest `k` bits are those of e, modulo n. -/
def powMod (n : Nat) : Nat → Nat → Nat → Nat
  | 0, _, _ => 1 % n
  | k + 1, b, e => (if e % 2 = 1 then b else 1) * powMod n k (b * b % n) (e / 2) % n

/-- MGF1 with SHA-256. -/
def mgf1 (seed : List Nat) (len : Nat) : List Nat :=
  ((List.range ((len + 31) / 32)).flatMap (fun i => sha256 (seed ++ toBe i 4))).take len

/-- Verify a signature: the key is EXPONENT and MODULUS little-endian, 388 bytes, and the signature 384 bytes
little-endian (17 Table 17.4). -/
def rsaVerify (key message signature : List Nat) : Bool :=
  let e := ofLe (key.take 4)
  let n := ofLe ((key.drop 4).take 384)
  let s := ofLe (signature.take 384)
  let em := toBe (powMod n 32 s e) 384
  let masked := em.take 351
  let h := (em.drop 351).take 32
  let db := ((masked.zip (mgf1 h 351)).map (fun x => x.1 ^^^ x.2)).mapIdx (fun i b => if i = 0 then b % 128 else b)
  let salt := db.drop 319
  decide (key.length = 388) && decide (signature.length = 384) && decide (2 ^ 3071 ≤ n) && decide (s < n) &&
    decide (em.getD 383 0 = 0xBC) && decide (em.getD 0 0 < 128) &&
    decide (db.take 319 = List.replicate 318 0 ++ [1]) &&
    decide (h = sha256 (List.replicate 8 0 ++ sha256 message ++ salt))

/-- The key hash of a public key (19 R542). -/
def keyHash (key : List Nat) : List Nat := sha256 key

end Sys2Proof.Machine
end

