-- ==== Sys2Proof/Machine/Sage.lean ====
section
/-! DEFINITION. Sage (10): calendar time and rounds, the expansion of a request into steps, capacity and placement, drop,
re-placement and the end of a request, building of segments, and commit. -/
namespace Sys2Proof.Machine

/-! ## Time and rounds -/

/-- L in ns (10 R288). -/
def State.roundNs (s : State) : Nat := s.fld Reg.ADM_ROUND_LEN 15 0 * 1000
/-- W in ns (10 R291). -/
def State.windowNs (s : State) : Nat := s.roundNs - 10000
/-- The acceptance round of a decision made now (10 R292). -/
def State.acceptRound (s : State) : Nat := max ((s.calendar + 30000) / s.roundNs) s.sage.frozen

/-! ## Models -/

def State.model? (s : State) (m : Nat) : Option Model := s.client.models.find? (fun x => decide (x.pkg.model = m))
/-- The kind record of a loaded model. -/
def State.kind? (s : State) (m k : Nat) : Option KindRec :=
  match s.model? m with
  | none => none
  | some x => x.pkg.kinds.find? (fun r => decide (r.id = k))

def State.session? (s : State) (i : Nat) : Option Session := s.client.sessions.find? (fun x => decide (x.id = i))
/-- Replace a session. -/
def State.putSession (s : State) (x : Session) : State :=
  { s with client := { s.client with sessions := s.client.sessions.map (fun y => if y.id = x.id then x else y) } }

/-! ## Steps of a request -/

/-- FIRST and STEP of a class (Table 10.13). -/
def State.classFirst (s : State) (c : Nat) : Nat := s.fld (Reg.ADM_CLASS + c) 14 0
def State.classStep (s : State) (c : Nat) : Nat := s.fld (Reg.ADM_CLASS + c) 28 16

/-- A step of a kind. -/
def mkStep (k : KindRec) (num deadline appends ntok ctx index : Nat) : ReqStep :=
  ⟨num, k.id, k.parts.length, deadline, appends, ntok, ctx, index, .waiting⟩

/-- The steps of a training request (11 R337, 10 R300). -/
def expandTraining (k : KindRec) (ngen a first step len : Nat) : List ReqStep :=
  (List.range ngen).map (fun i => mkStep k i (a + first + i * step) 0 k.tokensIn len (i + 1))

/-- The steps of an inference request (10 R294, R300): `p` prefill steps, then the decode steps. -/
def expandInference (pre dec : Option KindRec) (nin ngen a first step len : Nat) : Option (List ReqStep) :=
  match (if nin = 0 then some [] else pre.map (fun k =>
      let p := (nin + k.tokensIn - 1) / k.tokensIn
      (List.range p).map (fun j =>
        let n := if j + 1 = p then nin - j * k.tokensIn else k.tokensIn
        mkStep k j (a + first) n n (len + j * k.tokensIn + n) (if j + 1 = p then 1 else 0)))) with
  | none => none
  | some ps =>
    let from_ := if nin = 0 then 1 else 2
    let gs := (List.range ngen).map (· + 1) |>.filter (fun g => decide (from_ ≤ g))
    if gs = [] then some ps
    else
      match dec with
      | none => none
      | some k => some (ps ++ gs.mapIdx (fun i g =>
          mkStep k (ps.length + i) (a + first + (g - 1) * step) 1 1 (len + nin + i + 1) g))

/-- The steps of a request (10 R294, R295); none is BAD_MESSAGE (11 R337). -/
def expand (kinds : List KindRec) (kindId nin ngen a first step len : Nat) : Option (List ReqStep) :=
  if ngen = 0 then none
  else
    let role (r : Nat) := kinds.find? (fun k => decide (k.role = r))
    match (if kindId = 0xFF then some none else (kinds.find? (fun k => decide (k.id = kindId))).map some) with
    | none => none
    | some none => expandInference (role 0) (role 1) nin ngen a first step len
    | some (some k) =>
      if k.role = 2 then (if nin = ngen * k.tokensIn then some (expandTraining k ngen a first step len) else none)
      else if k.role = 0 then expandInference (some k) (role 1) nin ngen a first step len
      else expandInference (role 0) (some k) nin ngen a first step len

/-! ## Capacity -/

/-- The increment that a member adds to a triple (10 R307). -/
def Triple.inc (t : Triple) (ctx : Nat) : Rat := (t.c1 : Rat) + (t.c2 : Rat) * ctx / 1024

/-- The planning pace of a cluster in a round, mGst/s (10 R302). -/
def State.planPace (s : State) (c n : Nat) : Nat :=
  let m := s.fld (Reg.ADM_FLOOR + c) 15 0
  min 800 (min m (Config.deratedPace s.sage.forecast c n m))

/-- Planned ns of an amount of steps and of ns on a tile in a round (10 R303; scaling of 11 R349). -/
def State.tau (s : State) (x : TileCost) (n : Nat) (steps ns : Rat) : Rat :=
  steps * x.scale / 65536 * 1000 / (s.planPace (clusterOf x.ti) n) + ns

/-- The opening cost and a member's increment of a part on a tile, in ns. -/
def State.tauOpen (s : State) (x : TileCost) (n : Nat) : Rat := s.tau x n x.s.c0 (x.f.c0 + x.add)
def State.tauInc (s : State) (x : TileCost) (n ctx : Nat) : Rat := s.tau x n (x.s.inc ctx) (x.f.inc ctx)

/-- A batch step still holds its reservations: neither dropped nor led by another module. -/
def Batch.holds (b : Batch) : Bool := b.dropped.isNone && b.leader.isNone

/-- The part of a batch step that runs in a round. -/
def Batch.partAt (b : Batch) (nparts n : Nat) : Option Nat :=
  if b.round ≤ n ∧ n < b.round + nparts then some (n - b.round) else none

/-- The part records that a round holds: batch step, part. -/
def State.partsAt (s : State) (n : Nat) : List (Batch × PartRec) :=
  s.sage.batches.filterMap (fun b =>
    if b.holds then
      match s.kind? b.model b.kind with
      | none => none
      | some k =>
        match b.partAt k.parts.length n with
        | none => none
        | some i => (k.parts[i]?).map (fun p => (b, p))
    else none)

/-- IBU_POST that a batch step reserves on a tile in a round (10 R303). -/
def State.postAt (s : State) (b : Batch) (n ti : Nat) : Nat :=
  match s.kind? b.model b.kind with
  | none => 0
  | some k =>
    match k.parts.getLast? with
    | none => 0
    | some p => if b.holds && decide (n = b.round + k.parts.length) && p.tiles.any (fun x => decide (x.ti = ti)) then k.ibuPost else 0

/-- u_q: the time that partition q has planned on a tile in a round (10 R304, R307). -/
def State.used (s : State) (n ti q : Nat) : Rat :=
  ((s.partsAt n).map (fun x =>
    match x.2.tiles.find? (fun t => decide (t.ti = ti)) with
    | none => 0
    | some t =>
      (if x.1.opener = q then s.tauOpen t n else 0) +
        ((x.1.members.filter (fun m => decide (m.partition = q))).map (fun m => s.tauInc t n m.ctx)).foldl (· + ·) 0)).foldl (· + ·) 0 +
  ((s.sage.batches.map (fun b => if b.opener = q then (s.postAt b n ti : Rat) else 0)).foldl (· + ·) 0)

/-- B (10 R303). -/
def State.budget (s : State) (margin : Nat) : Rat := (s.windowNs : Rat) * 99 / 100 * (100 - margin) / 100

/-- Shares of a partition of the budget: GUAR, which above CAP acts as CAP, and CAP (10 R304, Table 10.14). -/
def State.guar (s : State) (b : Rat) (q : Nat) : Rat :=
  b * (min (s.fld (Reg.ADM_PART_SHARE + q) 6 0) (s.fld (Reg.ADM_PART_SHARE + q) 22 16)) / 100
def State.capShare (s : State) (b : Rat) (q : Nat) : Rat := b * (s.fld (Reg.ADM_PART_SHARE + q) 22 16) / 100

/-- What a member of ensembles has granted on a tile: the reserved share of the time (10 R308, 12 R384). -/
def State.granted (s : State) (b : Rat) (ti : Nat) : Rat :=
  ((List.range 8).map (fun e =>
    let a := 64 * e
    match SMap.get? s.fab.slots e with
    | some x =>
      if x.reserved && decide (s.fld (Reg.FAB_ENS_CTRL + a) 2 0 = 3) then
        match s.model? (s.reg (Reg.FAB_ENS_MODEL + a)).toNat with
        | some m =>
          if m.pkg.kinds.any (fun k => k.parts.any (fun p => p.tiles.any (fun t => decide (t.ti = ti)))) then
            b * s.fld (Reg.FAB_ENS_RESERVE + a) 6 0 / 100
          else 0
        | none => 0
      else 0
    | none => 0)).foldl (· + ·) 0

/-- Whether a half has budget (10 R316, compute reset). -/
def State.halfHasBudget (s : State) (h : Half) : Bool :=
  match h with
  | .west => !s.sage.inResetW
  | .east => !s.sage.inResetE

/-- Whether Sage gives a tile budget: usable, its half not in reset or fenced, its cluster powered, and the tile not held for
a test (10 R316, 14 R438, 18 R520). -/
def State.givesBudget (s : State) (ti : Nat) : Bool :=
  s.usable ti && s.halfHasBudget (halfOf ti) && !s.pwr.noBudget.contains (clusterOf ti) && !s.bist.held.contains ti &&
    !s.bist.releasing.contains ti

/-- Time of an increment on a tile (10 R303, R304). -/
def State.fitsTime (s : State) (margin p n ti : Nat) (d : Rat) : Bool :=
  let b := s.budget margin
  let us := (List.range 16).map (fun q => (q, s.used n ti q))
  let total := us.foldl (fun a x => a + x.2) 0 + s.granted b ti
  let owed := (us.filter (fun x => decide (x.1 ≠ p))).foldl (fun a x => a + max 0 (s.guar b x.1 - x.2)) 0
  s.givesBudget ti && decide (total + d ≤ b) &&
    (decide (d = 0) || (decide (s.used n ti p + d ≤ s.capShare b p) && decide (d ≤ b - total - owed)))

/-- Segments that a part has on a tile (10 R303). -/
def State.segCount (s : State) (model kind part ti : Nat) : Nat :=
  match s.model? model with
  | none => 0
  | some m => (m.pkg.templates.filter (fun t =>
      decide (t.kind = kind) && decide (t.part = part) && decide (t.ti = ti))).length

/-- The segments of a tile in a round. -/
def State.segsAt (s : State) (n ti : Nat) : Nat :=
  ((s.sage.batches.filter (fun b => b.holds)).map (fun b =>
    match b.partAt (s.nparts b.model b.kind) n with
    | none => 0
    | some k => s.segCount b.model b.kind k ti)).foldl (· + ·) 0

/-- The sequences that a session of a model has on a tile. -/
def State.seqsOn (s : State) (model ti : Nat) : Nat :=
  match s.model? model with
  | none => 0
  | some m => (m.pkg.kv.filter (fun r => decide (r.ti = ti))).length

/-- The sequences that receive KV_APPEND on a tile in a round (10 R298). -/
def State.appendsAt (s : State) (n ti : Nat) : Nat :=
  ((s.partsAt n).map (fun x =>
    match s.kind? x.1.model x.1.kind with
    | some k => if k.role = 2 then 0 else x.1.members.length * s.seqsOn x.1.model ti
    | none => 0)).foldl (· + ·) 0

/-- Stack-tier traffic of a partition at a half in a round, KiB (10 R305). -/
def State.traffic (s : State) (n p : Nat) (h : Half) : Rat :=
  ((s.partsAt n).map (fun x =>
    let t := match h with | .west => x.2.sbW | .east => x.2.sbE
    (if x.1.opener = p then (t.c0 : Rat) else 0) +
      ((x.1.members.filter (fun m => decide (m.partition = p))).map (fun m => t.inc m.ctx)).foldl (· + ·) 0)).foldl (· + ·) 0

/-- The limit of R305 in KiB: MIN x W - 2 us x MIN, with MIN in GB/s. -/
def State.trafficLimit (s : State) (p : Nat) (h : Half) : Rat :=
  let r := Reg.STM_REG_MIN + p
  let m := match h with | .west => s.fld r 14 0 | .east => s.fld r 30 16
  (m : Rat) * ((s.windowNs : Rat) - 2000) / 1024

/-- E_h of a round, uJ. -/
def State.energy (s : State) (n : Nat) (h : Half) : Rat :=
  ((s.partsAt n).map (fun x =>
    let t := match h with | .west => x.2.eW | .east => x.2.eE
    (t.c0 : Rat) + (x.1.members.map (fun m => t.inc m.ctx)).foldl (· + ·) 0)).foldl (· + ·) 0

/-- Watts that members' reservations take of a stack (10 R308). -/
def State.grantedPower (s : State) : Nat :=
  ((List.range 8).map (fun e =>
    match SMap.get? s.fab.slots e with
    | some x => if x.reserved && decide (s.fld (Reg.FAB_ENS_CTRL + 64 * e) 2 0 = 3) then s.fld (Reg.FAB_ENS_RESERVE + 64 * e) 26 16 else 0
    | none => 0)).foldl (· + ·) 0

/-- P_h of a round, W (10 R306). -/
def State.power (s : State) (n : Nat) (h : Half) : Rat :=
  (Config.idlePower (match h with | .west => 0 | .east => 1) n : Rat) + s.grantedPower + s.energy n h * 1000 / s.roundNs

/-- CAP_h in force, W (15 R452). -/
def State.capNow (s : State) (h : Half) : Nat :=
  match h with
  | .west => s.fld Reg.THM_CAP_NOW 15 0
  | .east => s.fld Reg.THM_CAP_NOW 31 16

/-- SL x L in W per round. -/
def State.slewPerRound (s : State) : Rat := (s.fld Reg.THM_SLEW 11 0 : Rat) * s.roundNs / 1000000000

/-- T_h of the round in progress. -/
def State.target (s : State) (h : Half) : Rat :=
  match h with
  | .west => s.sage.targetW
  | .east => s.sage.targetE

/-- T_h of the next round from that of the last (10 R306). -/
def State.nextTarget (s : State) (n : Nat) (h : Half) : Rat :=
  let sl := s.slewPerRound
  let k := (500000000 + s.roundNs - 1) / s.roundNs
  let peak := (List.range (k + 1)).foldl (fun a i =>
    max a (s.power (n + i) h + s.fld Reg.ADM_RAMP_RESERVE 15 0 - sl * i)) 0
  min (s.capNow h : Rat) (max (s.target h - sl) peak)

/-- Power of an increment in a round (10 R306). -/
def State.fitsPower (s : State) (n : Nat) (h : Half) (d : Rat) : Bool :=
  let m := (n : Int) - s.round
  decide (d = 0) || decide (s.power n h + d * 1000 / s.roundNs ≤ min (s.capNow h : Rat) (s.target h + s.slewPerRound * m))

/-- Traffic of an increment in a round (10 R305). -/
def State.fitsTraffic (s : State) (n p : Nat) (h : Half) (d : Rat) : Bool :=
  decide (d = 0) || decide (s.traffic n p h + d ≤ s.trafficLimit p h)

/-- The ensemble slot that a model's work runs through on its leader: 2 LEADER (12 R384). -/
def State.leadsModel (s : State) (model : Nat) : Option Nat :=
  (List.range 8).find? (fun e =>
    decide (s.fld (Reg.FAB_ENS_CTRL + 64 * e) 2 0 = 2) && decide ((s.reg (Reg.FAB_ENS_MODEL + 64 * e)).toNat = model))

/-- An ensemble's work on a tile or a stack stays within its reservation (10 R308, log 21). -/
def State.fitsEnsemble (s : State) (model p n ti : Nat) (d : Rat) : Bool :=
  match s.leadsModel model with
  | none => true
  | some e => decide (s.used n ti p + d ≤ s.budget 0 * s.fld (Reg.FAB_ENS_RESERVE + 64 * e) 6 0 / 100)

/-- A part of a new member fits in its round (10 R303-R306, R298, 15 R459). -/
def State.fitsPart (s : State) (margin : Nat) (model : Nat) (k : KindRec) (part p ctx n : Nat) (opening : Bool) (pr : PartRec) : Bool :=
  pr.tiles.all (fun x =>
    let d := s.tauInc x n ctx + (if opening then s.tauOpen x n else 0)
    decide (0 < s.planPace (clusterOf x.ti) n) && !Config.forecastFlag s.sage.forecast (clusterOf x.ti) n &&
      s.fitsTime margin p n x.ti d && s.fitsEnsemble model p n x.ti d &&
      (!opening || decide (s.segsAt n x.ti + s.segCount model k.id part x.ti ≤ 32)) &&
      (decide (k.role = 2) || decide (s.appendsAt n x.ti + s.seqsOn model x.ti ≤ 64))) &&
  s.fitsTraffic n p .west (pr.sbW.inc ctx + (if opening then (pr.sbW.c0 : Rat) else 0)) &&
  s.fitsTraffic n p .east (pr.sbE.inc ctx + (if opening then (pr.sbE.c0 : Rat) else 0)) &&
  s.fitsPower n .west (pr.eW.inc ctx + (if opening then (pr.eW.c0 : Rat) else 0)) &&
  s.fitsPower n .east (pr.eE.inc ctx + (if opening then (pr.eE.c0 : Rat) else 0))

/-- A session has a step in a round (10 R298). -/
def State.sessionBusy (s : State) (sid n : Nat) : Bool :=
  s.sage.batches.any (fun b => b.holds && !b.committed && b.members.any (fun m => decide (m.session = sid)) &&
    (b.partAt (s.nparts b.model b.kind) n).isSome)

/-- A step fits at first round r, joining or opening (10 R307). -/
def State.fitsAt (s : State) (margin sid model : Nat) (k : KindRec) (p ctx r : Nat) (opening : Bool) : Bool :=
  let np := k.parts.length
  (List.range np).all (fun i => !s.sessionBusy sid (r + i)) &&
  (k.parts.zipIdx.all (fun x => s.fitsPart margin model k x.2 p ctx (r + x.2) opening x.1)) &&
  (!opening || decide (k.ibuPost = 0) ||
    match k.parts.getLast? with
    | none => true
    | some l => l.tiles.all (fun x => s.fitsTime margin p (r + np) x.ti k.ibuPost))

/-- Where a step goes at round r: the earliest-opened batch step that has room and takes it, or a new one (10 R299). -/
def State.seatAt (s : State) (margin sid model : Nat) (k : KindRec) (p ctx r : Nat) : Option (Option Nat) :=
  match s.sage.batches.find? (fun b =>
      b.holds && !b.committed && decide (b.model = model) && decide (b.kind = k.id) && decide (b.round = r) &&
        b.part.isNone && decide (b.members.length < k.batchMax) && s.fitsAt margin sid model k p ctx r false) with
  | some b => some (some b.id)
  | none => if s.fitsAt margin sid model k p ctx r true then some none else none

/-- Reserve a seat (10 R307); answers the batch step. -/
def State.seat (s : State) (model : Nat) (k : KindRec) (m : Member) (r : Nat) (seat : Option Nat) : State × Nat :=
  match seat with
  | some i =>
    ({ s with sage := { s.sage with
      batches := s.sage.batches.map (fun b => if b.id = i then { b with members := b.members ++ [m] } else b) } }, i)
  | none =>
    let b : Batch := ⟨s.sage.nextBatch, model, k.id, r, m.partition, [m], none, [], [], [], none, false, false, false, none,
      s.leadsModel model, [], none⟩
    ({ s with sage := { s.sage with batches := s.sage.batches ++ [b], nextBatch := s.sage.nextBatch + 1 } }, b.id)

/-- Place a step in the first round from `lo` in which it fits and ends by its deadline (10 R307). -/
def State.placeStep (s : State) (margin : Nat) (x : Session) (reqId : Nat) (st : ReqStep) (lo : Nat) : Option (State × Nat × Nat) :=
  match s.kind? x.model st.kind with
  | none => none
  | some k =>
    if 256 ≤ x.results.length then none
    else
      let rounds := (List.range (st.deadline + 2 - st.nparts - lo)).map (· + lo)
      match rounds.findSome? (fun r => (s.seatAt margin x.id x.model k x.partition st.ctx r).map (fun seat => (r, seat))) with
      | none => none
      | some (r, seat) =>
        let q := s.seat x.model k ⟨x.id, reqId, st.num, x.partition, st.ctx⟩ r seat
        some (q.1, r, q.2)

/-- Place the steps of a request in order (10 R307); none where one finds no place. -/
def State.placeAll (s : State) (margin : Nat) (x : Session) (reqId : Nat) : Nat → List ReqStep → Option (State × List ReqStep)
  | _, [] => some (s, [])
  | prev, st :: rest =>
    match s.placeStep margin x reqId st (prev + 1) with
    | none => none
    | some (s1, r, b) =>
      match State.placeAll s1 margin x reqId (r + st.nparts - 1) rest with
      | none => none
      | some (s2, l) => some (s2, { st with state := .placed b } :: l)

/-! ## Release, drop, end -/

/-- Take a member out of its batch step; an empty batch step that has not begun ceases (log 22). -/
def State.unseat (s : State) (sid num : Nat) : State :=
  let bs := s.sage.batches.map (fun b =>
    if b.committed || b.part.isSome then b
    else { b with members := b.members.filter (fun m => !(decide (m.session = sid) && decide (m.step = num))) })
  { s with sage := { s.sage with batches := bs.filter (fun b => !b.members.isEmpty || b.leader.isSome || b.part.isSome || b.committed) } }

/-- A step is running or between its parts. -/
def State.running (s : State) (st : ReqStep) : Bool :=
  match st.state with
  | .placed b => s.sage.batches.any (fun x => decide (x.id = b) && x.part.isSome)
  | _ => false

/-- Release the steps of a request that have not started (10 R316, CANCEL); answers their number. -/
def State.releaseSteps (s : State) (x : Session) (q : Request) : State × Nat :=
  let gone := q.steps.filter (fun st => decide (st.state ≠ .committed) && decide (st.state ≠ .released) && !s.running st)
  (gone.foldl (fun s st => s.unseat x.id st.num) s, gone.length)

/-- Statuses of Table 0.7 and Table 11.13. -/
def stAccepted : Nat := 0
def stRefused : Nat := 1
def stRefusedCapacity : Nat := 2
def stLateDropped : Nat := 3
def stPoisoned : Nat := 4
def stOverlap : Nat := 5
def stHalfLost : Nat := 6
def stFenced : Nat := 7
def stFloorPlanChanged : Nat := 8
def stEnsembleBroken : Nat := 9
def stNotAuthorised : Nat := 0x0A
def stNoSession : Nat := 0x10
def stSessionBusy : Nat := 0x11
def stNoModel : Nat := 0x12
def stContextFull : Nat := 0x13
def stTableFull : Nat := 0x14
def stBadMessage : Nat := 0x15
def stPackageInvalid : Nat := 0x16
def stCancelled : Nat := 0x17
def stContextTruncated : Nat := 0x18

/-- End the request in progress of a session with a status of Table 10.8: the event, the release of its steps, the
RESULT that carries the status; CANCELLED has no RESULT (10 R310, 11 R338). -/
def endRequest (s : State) (sid status : Nat) : State :=
  match s.session? sid with
  | none => s
  | some x =>
    match x.request with
    | none => s
    | some q =>
      let s := recordEvent s 0x0602 0 sid status (q.last % 2 ^ 32)
      let s := (s.releaseSteps x q).1
      let s := if status = stLateDropped then s.count Reg.ADM_LATE_DROPPED 1 else s
      let rs := if status = stCancelled then x.results
        else x.results ++ [⟨status, q.reqId, 0, false, s.round, x.committed, [], none⟩]
      s.putSession { x with request := none, results := rs }

/-- Change a step of a session's request. -/
def State.setStep (s : State) (sid reqId num : Nat) (v : StepState) : State :=
  match s.session? sid with
  | none => s
  | some x =>
    match x.request with
    | none => s
    | some q =>
      if q.reqId ≠ reqId then s
      else s.putSession { x with request := some { q with
        steps := q.steps.map (fun st => if st.num = num then { st with state := v } else st) } }

/-- Count and record the drop of a request step (10 R315). The source of the event is the module; its parameters are
session, cause and round. -/
def noteDrop (s : State) (sid cause round : Nat) : State :=
  recordEvent (s.count Reg.ADM_STEPS_DROPPED 1) 0x0601 0 sid cause (round % 2 ^ 32)

/-- A member of a batch step belongs to the request in progress of its session. -/
def State.memberLive (s : State) (m : Member) : Bool :=
  match s.session? m.session with
  | none => false
  | some x =>
    match x.request with
    | none => false
    | some q => decide (q.reqId = m.reqId)

/-- Treat a batch step as dropped: each live member's step waits for re-placement, or its request ends with POISONED or
ENSEMBLE_BROKEN (10 R310, R312, R315); a member whose request is gone was cancelled. -/
def dropBatch (s : State) (b : Batch) (cause : Nat) : State :=
  let s := { s with sage := { s.sage with batches := s.sage.batches.filter (fun x => x.id ≠ b.id) } }
  b.members.foldl (fun s m =>
    if s.memberLive m then
      let s := noteDrop s m.session cause s.round
      let s := s.setStep m.session m.reqId m.step .waiting
      if b.poisoned then endRequest s m.session stPoisoned
      else if cause = 5 then endRequest s m.session stEnsembleBroken
      else s
    else noteDrop s m.session 4 s.round) s

/-- Re-place the steps of a session's request that wait, and those that would no longer follow (10 R315), with MARGIN 0,
from the round after the one that starts. -/
def State.replaceSteps (s : State) (x : Session) (q : Request) : Nat → List ReqStep → State
  | _, [] => s
  | prev, st :: rest =>
    match st.state with
    | .committed | .released => State.replaceSteps s x q prev rest
    | .placed b =>
      match s.sage.batches.find? (fun y => decide (y.id = b)) with
      | none => State.replaceSteps s x q prev rest
      | some y =>
        if prev < y.round then State.replaceSteps s x q (y.round + st.nparts - 1) rest
        else
          let s1 := s.unseat x.id st.num
          match s1.placeStep 0 x q.reqId st (prev + 1) with
          | none => State.replaceSteps (s1.setStep x.id q.reqId st.num .waiting) x q st.deadline rest
          | some (s2, r, b2) =>
            let s3 := recordEvent (s2.count Reg.ADM_REPLACED 1) 0x0603 0 x.id (y.round % 2 ^ 32) (r % 2 ^ 32)
            State.replaceSteps (s3.setStep x.id q.reqId st.num (.placed b2)) x q (r + st.nparts - 1) rest
    | .waiting =>
      match s.placeStep 0 x q.reqId st (prev + 1) with
      | none => State.replaceSteps s x q st.deadline rest
      | some (s2, r, b2) =>
        let s3 := recordEvent (s2.count Reg.ADM_REPLACED 1) 0x0603 0 x.id (s.round % 2 ^ 32) (r % 2 ^ 32)
        State.replaceSteps (s3.setStep x.id q.reqId st.num (.placed b2)) x q (r + st.nparts - 1) rest

/-- At a boundary: a request with a waiting step whose deadline round has ended, or of a truncated session, ends
LATE_DROPPED (10 R310, 11 R341); the others are re-placed. -/
def settleRequests (s : State) (n : Nat) : State :=
  s.client.sessions.foldl (fun s x0 =>
    match s.session? x0.id with
    | none => s
    | some x =>
      match x.request with
      | none => s
      | some q =>
        if !x.truncated && !q.steps.any (fun st => decide (st.state = .waiting)) then s
        else if x.truncated || q.steps.any (fun st => decide (st.state = .waiting) && decide (st.deadline < n)) then
          endRequest (s.putSession { x with truncated := false }) x.id stLateDropped
        else s.replaceSteps x q n q.steps) s

/-! ## Building of segments (10 R293, 11 R344) -/

/-- Put `size` bytes of a value into a command at an offset. -/
def patchBytes (c : BitVec 512) (off size v : Nat) : BitVec 512 :=
  let m := (2 ^ (8 * size) - 1) * 2 ^ (8 * off)
  (c &&& ~~~(BitVec.ofNat 512 m)) ||| BitVec.ofNat 512 ((v % 2 ^ (8 * size)) * 2 ^ (8 * off))

/-- Bytes as a little-endian number. -/
def leNat (l : List Nat) : Nat := l.foldr (fun b a => b + 256 * a) 0
/-- Bytes as a big-endian number. -/
def beNat (l : List Nat) : Nat := l.foldl (fun a b => 256 * a + b) 0
/-- A field of a byte list. -/
def leAt (l : List Nat) (off n : Nat) : Nat := leNat ((l.drop off).take n)
def beAt (l : List Nat) (off n : Nat) : Nat := beNat ((l.drop off).take n)
/-- A number as `n` big-endian bytes. -/
def beBytes (n v : Nat) : List Nat := (List.range n).map (fun i => v / 256 ^ (n - 1 - i) % 256)

/-- The step and PARAMS that a member stands for. -/
def State.memberStep (s : State) (m : Member) : Option (ReqStep × List Nat) :=
  match s.session? m.session with
  | none => none
  | some x =>
    match x.request with
    | none => none
    | some q => (q.steps.find? (fun st => decide (st.num = m.step))).map (fun st => (st, q.params))

/-- Where a request step finds its output slot and its input tokens, within the reach of a translation table: each lies in
one page (log 40). -/
def outputVa (batch member : Nat) : Nat := (Config.outputVa batch member).toNat % 2 ^ 41 / 65536 * 65536
def inputVa (batch member : Nat) : Nat := (Config.inputVa batch member).toNat % 2 ^ 41 / 262144 * 262144

/-- The value of a patch source for a member (Table 11.12). -/
def State.patchValue (s : State) (b : Batch) (size n i : Nat) (pa : Patch) : Nat :=
  if pa.source = 7 then size
  else if pa.source = 8 then i
  else if pa.source = 9 then n % 2 ^ 32
  else
    match (b.members[i]?).bind (fun m => (s.memberStep m).map (fun x => (m, x))) with
    | none => Config.remoteValue b.id i pa.source
    | some (m, st, params) =>
      match pa.source with
      | 1 => m.session
      | 2 => st.ctx - st.appends
      | 3 => st.ntok
      | 4 => outputVa b.id i
      | 5 => inputVa b.id i
      | 6 => leAt params pa.arg pa.size
      | _ => st.index

/-- A template's commands for a batch step of `size` members: the REPEAT run once per member. -/
def Template.order (t : Template) (size : Nat) : List (Nat × Nat) :=
  let head := (List.range t.first).map (fun i => (i, 0))
  let body := (List.range size).flatMap (fun j => (List.range t.count).map (fun i => (t.first + i, j)))
  let tail := (List.range (t.cmds.length - t.first - t.count)).map (fun i => (t.first + t.count + i, 0))
  if t.count = 0 then (List.range t.cmds.length).map (fun i => (i, 0)) else head ++ body ++ tail

/-- The commands that Sage writes for a template. -/
def State.fill (s : State) (b : Batch) (size n : Nat) (t : Template) : List (BitVec 512) :=
  (t.order size).map (fun x =>
    (t.patches.filter (fun p => decide (p.cmd = x.1))).foldl (fun c p =>
      patchBytes c p.offset p.size (s.patchValue b size n x.2 p)) (t.cmds.getD x.1 0))

/-- The slots that a template's commands use relative to the start of the step: their number, and those a COMMIT
reports. -/
def Template.slotsUsed (t : Template) : Nat := t.cmds.foldl (fun a c => max a (cSlot c + 1)) 0
def Template.commitSlots (t : Template) : List Nat := (t.cmds.filter (fun c => flCommit (cFlags c))).map cSlot

/-- The templates of a part on a tile in segment order. -/
def State.templatesOf (s : State) (model kind part ti : Nat) : List Template :=
  match s.model? model with
  | none => []
  | some m =>
    let l := m.pkg.templates.filter (fun t => decide (t.kind = kind) && decide (t.part = part) && decide (t.ti = ti))
    (List.range 32).flatMap (fun g => l.filter (fun t => decide (t.seg = g)))

/-! ## Commit -/

/-- The bytes of an output slot, and whether one is poisoned (10 R312, 09 Table 9.4). -/
def State.outputOf (s : State) (b : Batch) (i : Nat) : List Nat × Bool :=
  let n := Config.outputLen b.id i % 65505
  let slot := Config.outputPage b.id i % 524288 * 0x200000 + outputVa b.id i % 0x200000
  let l := (List.range n).map (fun j => s.memBytes 0 .stack (slot + j) 1)
  (l.map (·.1), l.any (·.2))

/-- A member's step commits: progress, and its RESULT (10 R312, 11 R338); poisoned output ends the request. -/
def commitMember (s : State) (b : Batch) (i : Nat) (m : Member) : State :=
  match s.session? m.session with
  | none => s
  | some x =>
    match x.request with
    | none => noteDrop s m.session 4 s.round
    | some q =>
      match q.steps.find? (fun st => decide (st.num = m.step)) with
      | none => s
      | some st =>
        if q.reqId ≠ m.reqId then noteDrop s m.session 4 s.round
        else
          let out := if st.index = 0 then ([], false) else s.outputOf b i
          let steps := q.steps.map (fun y => if y.num = st.num then { y with state := .committed } else y)
          let last := steps.all (fun y => decide (y.state = .committed))
          let x1 := { x with committed := st.ctx, request := some { q with steps := steps } }
          if out.2 then endRequest (s.putSession x1) x.id stPoisoned
          else
            let rs := if st.index = 0 then x.results
              else x.results ++ [⟨stAccepted, q.reqId, st.index, last, s.round, st.ctx, out.1, none⟩]
            s.putSession { x1 with results := rs, request := if last then none else x1.request }

/-- The sequences of members whose request is gone return to COMMITTED_LEN; the others commit (06 R175, 10 R312). -/
def commitTile (s : State) (b : Batch) (ti slot : Nat) : State :=
  let gone := (b.members.filter (fun m => !s.memberLive m)).map (·.session)
  let ms := (s.tile ti).kvMarks.filter (fun m => decide (m.slot = slot) && gone.contains m.session)
  let s := ms.foldl (fun s m => restoreSeq s ti m) s
  let s := s.modTile ti (fun t => { t with kvMarks := t.kvMarks.filter (fun m => !(decide (m.slot = slot) && gone.contains m.session)) })
  startInPlace (commitKv s ti slot) ti slot

/-- The tiles that a batch step's kind uses. -/
def State.tilesOf (s : State) (b : Batch) : List Nat :=
  match s.kind? b.model b.kind with
  | none => []
  | some k => (k.parts.flatMap (fun p => p.tiles.map (·.ti))).eraseDups

/-- Marks of a batch step's earlier parts carry this number in place of a slot: slots end at 255. -/
def Batch.carried (b : Batch) : Nat := 256 + b.id

/-- At a boundary a batch step's part is done and another follows: its moved sequences keep their marks (06 R175). -/
def carryMarks (s : State) (b : Batch) : State :=
  b.need.foldl (fun s x => s.modTile x.1 (fun t => { t with
    kvMarks := t.kvMarks.map (fun m => if m.slot = x.2 then { m with slot := b.carried } else m) })) s

/-- Return the sequences that dropped work of a tile moved to COMMITTED_LEN: every mark but those of batch steps that
still run (06 R175). -/
def dropMarks (s : State) (ti : Nat) : State :=
  let live := s.sage.batches.map Batch.carried
  let ms := (s.tile ti).kvMarks.filter (fun m => !live.contains m.slot)
  let s := ms.foldl (fun s m => restoreSeq s ti m) s
  s.modTile ti (fun t => { t with kvMarks := t.kvMarks.filter (fun m => live.contains m.slot) })

/-- Commit a complete batch step (10 R311, R312). -/
def commitBatch (s : State) (b : Batch) : State :=
  let s := (s.tilesOf b).foldl (fun s ti => commitTile s b ti b.carried) s
  let s := b.need.foldl (fun s x => commitTile s b x.1 x.2) s
  let s := b.members.zipIdx.foldl (fun s x => commitMember s b x.2 x.1) s
  { s with sage := { s.sage with
    batches := s.sage.batches.map (fun x => if x.id = b.id then { x with committed := true, part := none, need := [], got := [], bases := b.bases } else x) } }

/-- PLAN_FREEZE (10 R291): 30 us before the next boundary the set of steps placed in its round is fixed; a step of a
session whose RESULT queue is full is not among them (11 R338). -/
def execPlanFreeze (s : State) : Host.Outcome State Fault Refusal :=
  let n := s.calendar / s.roundNs + 1
  let t := n * s.roundNs - 30000
  let s := { s with now := s.now + (t - s.calendar), sage := { s.sage with frozen := n } }
  let full := (s.client.sessions.filter (fun x => decide (256 ≤ x.results.length))).map (·.id)
  let ms := (s.sage.batches.filter (fun b => decide (b.round = n) && b.part.isNone && !b.committed)).flatMap (fun b =>
    b.members.filter (fun m => full.contains m.session))
  .next (ms.foldl (fun s m => (s.unseat m.session m.step).setStep m.session m.reqId m.step .waiting) s)

/-- The pace of one cluster read (10 R302): m_c is the lowest of the last 100 readings of 1 ms, p_c follows, and a change
across 0.80 Gst/s is recorded. -/
def readPace (s : State) (c v : Nat) : State :=
  let l := (v :: SMap.getD s.sage.readings c []).take 100
  let m := l.foldl min v
  let s := { s with sage := { s.sage with readings := SMap.put s.sage.readings c l } }
  let s := s.setFld (Reg.ADM_FLOOR + c) 15 0 m
  let p := s.planPace c s.round
  let s := s.setFld (Reg.ADM_FLOOR + c) 31 16 p
  let was := s.sage.belowFloor.contains c
  if p < 800 ∧ !was then recordEvent { s with sage := { s.sage with belowFloor := c :: s.sage.belowFloor } } 0x0604 0 c p 1
  else if 800 ≤ p ∧ was then
    recordEvent { s with sage := { s.sage with belowFloor := s.sage.belowFloor.filter (· ≠ c) } } 0x0604 0 c p 0
  else s

/-- PACE_MONITOR_READ (10 R302): one reading per cluster, in mGst/s. -/
def execPaceMonitorRead (readings : List Nat) (s : State) : Host.Outcome State Fault Refusal :=
  .next ((readings.take 144).zipIdx.foldl (fun s x => readPace s x.2 (x.1 % 65536)) s)

/-- Clear 0x0040-0x0044 (10 R317). -/
def clearAdm (s : State) : State := s.resetRegs ((List.range 5).map (· + Reg.ADM_ACCEPTED))

/-- ADM_COUNT_CLR (10 R317). -/
def execAdmCountClr (s : State) : Host.Outcome State Fault Refusal := .next (clearAdm s)

end Sys2Proof.Machine
end

