-- ==== Sys2Proof/Machine/Package.lean ====
section
/-! DEFINITION. Model packages: the reading of an image (11 R342-R344, 10 R300), its verification (R345), and the
supervisor's work in memory for packages and sessions (R343, 06 R168, R170). -/
namespace Sys2Proof.Machine

/-! ## Reading an image -/

def zerosAt (l : List Nat) (off n : Nat) : Bool := ((l.drop off).take n).all (· = 0)

/-- A triple of uint32. -/
def tripleAt (l : List Nat) (off : Nat) : Triple := ⟨leAt l off 4, leAt l (off + 4) 4, leAt l (off + 8) 4⟩

/-- A tile entry; none where a reserved field is not 0. -/
def tileCostAt (l : List Nat) (o : Nat) : Option TileCost :=
  if leAt l o 2 < 4096 ∧ zerosAt l (o + 2) 2 ∧ zerosAt l (o + 28) 4 then
    some ⟨leAt l o 2, tripleAt l (o + 4), tripleAt l (o + 16), 65536, 0⟩
  else none

/-- All of a list of options. -/
def allSome {α : Type} : List (Option α) → Option (List α)
  | [] => some []
  | none :: _ => none
  | some a :: r => (allSome r).map (a :: ·)

/-- `n` part records from an offset (Table 10.6). -/
def partsFrom (l : List Nat) : Nat → Nat → Option (List PartRec)
  | 0, _ => some []
  | n + 1, o =>
    let nt := leAt l o 2
    if l.length < o + 64 + 32 * nt ∨ !zerosAt l (o + 2) 2 ∨ !zerosAt l (o + 52) 12 then none
    else
      match allSome ((List.range nt).map (fun i => tileCostAt l (o + 64 + 32 * i))), partsFrom l n (o + 64 + 32 * nt) with
      | some ts, some r => some (⟨tripleAt l (o + 4), tripleAt l (o + 16), tripleAt l (o + 28), tripleAt l (o + 40), ts⟩ :: r)
      | _, _ => none

/-- A kind record (Table 10.5). -/
def kindAt (l : List Nat) (o : Nat) : Option KindRec :=
  let np := leAt l (o + 2) 1
  let bm := leAt l (o + 4) 2
  let tin := leAt l (o + 6) 2
  if leAt l o 1 < 255 ∧ leAt l (o + 1) 1 < 3 ∧ 1 ≤ np ∧ np ≤ 64 ∧ zerosAt l (o + 3) 1 ∧ 1 ≤ bm ∧ bm ≤ 4096 ∧ 1 ≤ tin ∧
      zerosAt l (o + 16) 16 then
    (partsFrom l np (leAt l (o + 8) 4)).map (fun ps => ⟨leAt l o 1, leAt l (o + 1) 1, bm, tin, leAt l (o + 12) 4, ps⟩)
  else none

/-- A cost table (Table 10.4): L_MIN, L_MAX, epoch and kinds. -/
def costOf (l : List Nat) : Option (Nat × Nat × Nat × List KindRec) :=
  let nk := leAt l 6 2
  if leAt l 0 4 ≠ 0x43544231 ∨ leAt l 4 2 ≠ 1 ∨ nk < 1 ∨ 64 < nk ∨ l.length < 64 + 32 * nk ∨ !zerosAt l 20 44 then none
  else
    match allSome ((List.range nk).map (fun i => kindAt l (64 + 32 * i))) with
    | none => none
    | some ks =>
      if (ks.map (·.id)).Nodup then some (leAt l 12 4, leAt l 16 4, leAt l 8 4, ks) else none

/-- A command of a template. -/
def cmdAt (l : List Nat) (o : Nat) : BitVec 512 := BitVec.ofNat 512 (leAt l o 64)

/-- A patch (Table 11.12). -/
def patchAt (l : List Nat) (o : Nat) : Option Patch :=
  let p : Patch := ⟨leAt l o 2, leAt l (o + 2) 1, leAt l (o + 3) 1, leAt l (o + 4) 1, leAt l (o + 5) 1⟩
  if [1, 2, 4, 6].contains p.size ∧ 8 ≤ p.offset ∧ p.offset + p.size ≤ 64 ∧ 1 ≤ p.source ∧ p.source ≤ 10 ∧
      (if p.source = 6 then decide (p.arg + p.size ≤ 32) else decide (p.arg = 0)) ∧ zerosAt l (o + 6) 2 then some p
  else none

/-- The template records of a TEMPLATES section; fuel bounds their number. -/
def templatesFrom : Nat → List Nat → Option (List Template)
  | 0, l => if l.isEmpty then some [] else none
  | fuel + 1, l =>
    if l.isEmpty then some []
    else
      let nc := leAt l 6 2
      let npa := leAt l 12 2
      let size := 16 + 64 * nc + 8 * npa
      if l.length < size ∨ nc = 0 ∨ !zerosAt l 14 2 then none
      else
        match allSome ((List.range npa).map (fun i => patchAt l (16 + 64 * nc + 8 * i))), templatesFrom fuel (l.drop size) with
        | some ps, some r =>
          some (⟨leAt l 0 2, leAt l 2 1, leAt l 3 1, leAt l 4 1, leAt l 5 1, leAt l 8 2, leAt l 10 2,
            (List.range nc).map (fun i => cmdAt l (16 + 64 * i)), ps⟩ :: r)
        | _, _ => none

/-- A WEIGHTS section: its record with the padded data. -/
def weightsFrom : Nat → List Nat → Option (List WeightsRec)
  | 0, l => if l.isEmpty then some [] else none
  | fuel + 1, l =>
    if l.isEmpty then some []
    else
      let len := leAt l 16 8
      let size := 24 + (len + 63) / 64 * 64
      if l.length < size ∨ !zerosAt l 4 4 then none
      else (weightsFrom fuel (l.drop size)).map (fun r =>
        ⟨leAt l 0 2, leAt l 2 1, leAt l 3 1, leAt l 8 8, (l.drop 24).take len⟩ :: r)

/-- Fixed-size records of 16 bytes. -/
def records16 {α : Type} (l : List Nat) (f : Nat → Option α) : Option (List α) :=
  if l.length % 16 ≠ 0 then none else allSome ((List.range (l.length / 16)).map (fun i => f (16 * i)))

def seedsOf (l : List Nat) : Option (List SeedRec) :=
  records16 l (fun o => if leAt l (o + 2) 1 < 2 ∧ zerosAt l (o + 3) 5 then some ⟨leAt l o 2, leAt l (o + 2) 1, leAt l (o + 8) 8⟩ else none)

def kvOf (l : List Nat) : Option (List KvRec) :=
  records16 l (fun o =>
    let fmtOk (c : Nat) := [1, 2, 7, 8].contains c
    let dim (n : Nat) := decide (32 ≤ n) && decide (n ≤ 256) && decide (n % 32 = 0)
    let r : KvRec := ⟨leAt l o 2, leAt l (o + 2) 2, leAt l (o + 4) 2, leAt l (o + 6) 1, leAt l (o + 7) 1, leAt l (o + 8) 2,
      leAt l (o + 10) 2, leAt l (o + 12) 1, leAt l (o + 13) 1⟩
    if fmtOk r.kfmt && fmtOk r.vfmt && dim r.dk && dim r.dv && decide (r.sink ≤ 16) && decide (1 ≤ r.recent) &&
        decide (r.recent ≤ 64) && zerosAt l (o + 14) 2 then some r else none)

def relocOf (l : List Nat) : Option (List RelocRec) :=
  records16 l (fun o => if zerosAt l (o + 12) 4 then some ⟨leAt l o 2, leAt l (o + 2) 2, leAt l (o + 4) 4, leAt l (o + 8) 4⟩ else none)

/-- A section entry of the manifest: type, offset, length, digest. -/
structure Section where
  kind : Nat
  off : Nat
  len : Nat
  digest : List Nat
deriving DecidableEq, Repr

def sectionAt (l : List Nat) (i : Nat) : Section :=
  let o := 64 + 64 * i
  ⟨leAt l o 1, leAt l (o + 16) 8, leAt l (o + 24) 8, (l.drop (o + 32)).take 32⟩

def sectionBytes (l : List Nat) (x : Section) : List Nat := (l.drop x.off).take x.len

/-- The manifest's structure (R345 step 2, R342). -/
def manifestOk (l : List Nat) (model : Nat) (secs : List Section) : Bool :=
  let n := leAt l 6 2
  decide (leAt l 0 4 = 0x484B5047) && decide (leAt l 4 2 = 1) && decide (1 ≤ n) && decide (n ≤ 16) && decide (leAt l 8 4 = model) &&
  decide (model ≠ 0) && decide (1 ≤ leAt l 16 4) && decide (leAt l 16 4 ≤ 4194304) && decide (leAt l 20 1 < 8) && zerosAt l 21 3 &&
  decide (leAt l 24 8 = l.length) && zerosAt l 32 32 && (List.range n).all (fun i => zerosAt l (65 + 64 * i) 15) &&
  secs.all (fun x => decide (1 ≤ x.kind) && decide (x.kind ≤ 6) && decide (x.off % 64 = 0) && decide (x.off + x.len ≤ l.length)) &&
  [2, 3, 4, 5, 6].all (fun k => decide ((secs.filter (fun x => decide (x.kind = k))).length = 1))

/-- A template meets R344 on a tile: the REPEAT run, the patches, and the checks of decode on the commands as stored
(fields that a patch writes are not checked). -/
def Template.ok (t : Template) (kinds : List KindRec) : Bool :=
  let n := t.cmds.length
  (kinds.any (fun k => decide (k.id = t.kind) && decide (t.part < k.parts.length))) && decide (t.seg < 32) && decide (t.space < 4) &&
  (decide (t.count = 0) || decide (t.first + t.count ≤ n - 1)) && decide (cClass (t.cmds.getLastD 0) = 0x1F) &&
  t.patches.all (fun p => decide (p.cmd < n)) &&
  t.cmds.zipIdx.all (fun x =>
    let ps := t.patches.filter (fun p => decide (p.cmd = x.2))
    let lo := ps.foldl (fun c p => patchBytes c p.offset p.size 0) x.1
    let hi := ps.foldl (fun c p => patchBytes c p.offset p.size (2 ^ 48 - 1)) x.1
    classCodes.contains (cClass x.1) && !reservedNonzero x.1 && !reservedNonzero hi && (fieldsOk x.1 || fieldsOk lo || fieldsOk hi))

/-- Every tile that a package's records name. -/
def Package.tiles (p : Package) : List Nat :=
  ((p.kinds.flatMap (fun k => k.parts.flatMap (fun r => r.tiles.map (·.ti)))) ++ p.templates.map (·.ti) ++
    (p.weights.map (·.ti)).filter (· ≠ 0x0FFF) ++ p.kv.map (·.ti) ++ p.seeds.map (·.ti)).eraseDups

/-- The contents of a package whose manifest is well formed; none is REASON 6. -/
def contentOf (l : List Nat) (secs : List Section) (cost : Nat × Nat × Nat × List KindRec) : Option Package :=
  let bytes (k : Nat) := match secs.find? (fun x => decide (x.kind = k)) with | some x => sectionBytes l x | none => []
  match templatesFrom l.length (bytes 2), relocOf (bytes 4), seedsOf (bytes 5), kvOf (bytes 6),
      allSome ((secs.filter (fun x => decide (x.kind = 1))).map (fun x => weightsFrom l.length (sectionBytes l x))) with
  | some ts, some rs, some sd, some kv, some ws =>
    some ⟨leAt l 8 4, l.take (64 + 64 * leAt l 6 2 + 384), leAt l 12 4, leAt l 16 4, secs.length, cost.2.2.2, ts, ws.flatten, kv, sd, rs⟩
  | _, _, _, _, _ => none

/-- A WEIGHTS record is well formed. -/
def WeightsRec.ok (w : WeightsRec) : Bool :=
  decide (w.ti < 4096) && decide (w.space < 4) && (decide (w.target = 0) || decide (w.target = 2)) &&
    decide (w.vaddr % 0x200000 = 0) && decide (w.vaddr < 2 ^ 48) && (decide (w.ti ≠ 0x0FFF) || decide (w.target = 2))

/-- Pages of a record. -/
def WeightsRec.pages (w : WeightsRec) : Nat := (w.data.length + 0x1FFFFF) / 0x200000

/-- The supervisor can allocate a package: each record's pages lie within the table and its tile's slice (R345 step 5). -/
def Package.allocates (p : Package) : Bool :=
  p.weights.all (fun w => decide (w.vaddr / 0x200000 + w.pages ≤ 2 ^ 20)) &&
    p.tiles.all (fun t => decide (((p.weights.filter (fun w => decide (w.ti = t) && decide (w.target = 0))).map WeightsRec.pages).foldl (· + ·) 0 ≤ 64))

/-- Verify a complete image in the order of R345: the package, or the REASON. -/
def verifyPackage (s : State) (model : Nat) (l : List Nat) : Except Nat Package :=
  let n := leAt l 6 2
  let m := 64 + 64 * n
  let sigOk := match SMap.get? s.trust.signers (leAt l 20 1) with
    | some key => decide (m + 384 ≤ l.length) && rsaVerify key (l.take m) ((l.drop m).take 384)
    | none => false
  let secs := (List.range n).map (sectionAt l)
  if !sigOk then .error 1
  else if !secs.all (fun x => decide (sha256 (sectionBytes l x) = x.digest)) then .error 2
  else
    let bytes3 := match secs.find? (fun x => decide (x.kind = 3)) with | some x => sectionBytes l x | none => []
    match (if manifestOk l model secs then costOf bytes3 else none) with
    | none => .error 6
    | some cost =>
      if leAt l 12 4 ≠ s.plan.epoch ∨ cost.2.2.1 ≠ s.plan.epoch then .error 3
      else if s.fld Reg.ADM_ROUND_LEN 15 0 < cost.1 ∨ cost.2.1 < s.fld Reg.ADM_ROUND_LEN 15 0 then .error 4
      else
        match contentOf l secs cost with
        | none => .error 6
        | some p =>
          if !(p.tiles.all s.usable && p.templates.all (fun t => t.ok p.kinds) && p.weights.all WeightsRec.ok &&
              p.reloc.all (fun r => decide (r.fromTi < 4096) && decide (r.toTi < 4096))) then .error 6
          else if !p.allocates then .error 5
          else if 16 ≤ (s.client.models.filter (fun x => decide (x.pkg.model ≠ model))).length then .error 7
          else .ok p

/-! ## The supervisor's writes -/

/-- Write a whole granule of a tier. -/
def writeGranule (s : State) (ti : Nat) (tier : Tier) (addr : Nat) (v : Nat) : State :=
  match tier with
  | .stack => writeStackGran s ti addr (BitVec.ofNat 256 v) (BitVec.allOnes 256) false
  | _ => writeBonded s ti ⟨tier, addr, BitVec.ofNat 256 v, BitVec.allOnes 256, false⟩

/-- Write bytes from a granule boundary of a tier, the last granule padded with zeros. -/
def writeTier (s : State) (ti : Nat) (tier : Tier) (addr : Nat) (l : List Nat) : State :=
  (List.range ((l.length + 31) / 32)).foldl (fun s i => writeGranule s ti tier (addr + 32 * i) (leAt l (32 * i) 32)) s

/-- Grow a translation table to `pages` entries, each new granule of entries initialised to 0 (05 R145). -/
def growTable (s : State) (ti space pages : Nat) : State :=
  let a := tileReg ti (Reg.LAY_XLT_LEN + space)
  let have_ := if s.fld a 31 31 = 1 then s.fld a 19 0 else 0
  if pages ≤ have_ then s
  else
    let s := if s.fld a 31 31 = 1 then s
      else s.setFld (tileReg ti (Reg.LAY_XLT_BASE + space)) 26 12 ((Config.tableBase ti space).toNat / 4096)
    let base := s.fld (tileReg ti (Reg.LAY_XLT_BASE + space)) 26 12 * 4096
    let s := (List.range ((pages + 3) / 4 - (have_ + 3) / 4)).foldl (fun s i =>
      match s.tableAddr ti base (32 * ((have_ + 3) / 4 + i)) with
      | some (tier, x) => writeGranule s ti tier x 0
      | none => s) s
    (s.setFld a 31 31 1).setFld a 19 0 pages

/-- Map a page of a space to a page of a tier. -/
def mapTo (s : State) (ti space page target ppn : Nat) (write : Bool) : State :=
  let s := growTable s ti space (page + 1)
  match s.tableAddr ti (s.fld (tileReg ti (Reg.LAY_XLT_BASE + space)) 26 12 * 4096) (8 * page) with
  | some (tier, x) => putBytes s ti tier x 8 (2 ^ 63 + 2 ^ 62 + (if write then 2 ^ 61 else 0) + target * 2 ^ 58 + ppn)
  | none => s

/-- Map a page of a space at a page the supervisor chooses (11 R343). -/
def mapPage (s : State) (ti space model owner va target : Nat) (write : Bool) : State :=
  let page := va / 0x200000
  mapTo s ti space page target (Config.supervisorPage model owner space page % (if target = 2 then 524288 else 64)) write

/-- Load one WEIGHTS record: its pages are mapped READ only, on every tile of the package where it is shared, and its
data written (11 R343). -/
def loadWeights (s : State) (p : Package) (w : WeightsRec) : State :=
  let tiles := if w.ti = 0x0FFF then p.tiles else [w.ti]
  let s := tiles.foldl (fun s ti => (List.range w.pages).foldl (fun s i =>
    mapPage s ti w.space p.model w.ti (w.vaddr + 0x200000 * i) w.target false) s) s
  let tier := if w.target = 2 then Tier.stack else Tier.own
  let ti := if w.ti = 0x0FFF then 0 else w.ti
  (List.range w.pages).foldl (fun s i =>
    let ppn := Config.supervisorPage p.model w.ti w.space (w.vaddr / 0x200000 + i) % (if w.target = 2 then 524288 else 64)
    writeTier s ti tier (ppn * 0x200000) ((w.data.drop (0x200000 * i)).take 0x200000)) s

/-- Sage writes the seeds of a package: live fields that take effect at the next boundary (04 R134). -/
def loadSeed (s : State) (x : SeedRec) : State :=
  let put (s : State) (a v : Nat) : State := { s with shadow := SMap.put s.shadow (tileReg x.ti a) (BitVec.ofNat 32 v) }
  put (put (put s Reg.LAY_SR_SEED_LO x.seed) Reg.LAY_SR_SEED_HI (x.seed / 2 ^ 32)) Reg.LAY_SR_CTRL x.roundMix

/-- Write a verified package into memory. -/
def writePackage (s : State) (p : Package) : State :=
  p.seeds.foldl loadSeed (p.weights.foldl (fun s w => loadWeights s p w) s)

/-! ## Sequences of a session -/

/-- The supervisor gives a tile a directory with every entry clear (06 R170). -/
def ensureDir (s : State) (ti : Nat) : State :=
  let a := tileReg ti Reg.ATN_DIR_LEN
  if s.fld a 31 31 = 1 then s
  else
    let s := s.setFld (tileReg ti Reg.ATN_DIR_BASE) 26 12 ((Config.tableBase ti 4).toNat / 4096)
    let base := s.fld (tileReg ti Reg.ATN_DIR_BASE) 26 12 * 4096
    let s := (List.range 1024).foldl (fun s i =>
      match s.tableAddr ti base (32 * i) with
      | some (tier, x) => writeGranule s ti tier x 0
      | none => s) s
    (s.setFld a 31 31 1).setFld a 10 0 1024

/-- The first free directory entry among those probed for a sequence. -/
def State.freeDir (s : State) (ti session layer hg : Nat) : Option Nat :=
  let len := s.fld (tileReg ti Reg.ATN_DIR_LEN) 10 0
  ((List.range 8).map (fun k => ((session * 31 + layer * 7 + hg) % len + k) % len)).find? (fun i =>
    match s.dirRead ti i with
    | some (v, _) => decide (v / 2 ^ 15 % 2 = 0)
    | none => false)

/-- Write bytes at a virtual address through a tile's translation. -/
def writeVa (s : State) (ti space va : Nat) (l : List Nat) : State :=
  (List.range ((l.length + 31) / 32)).foldl (fun s i =>
    match s.place ti space (va + 32 * i) false with
    | .mem tier a => writeGranule s ti tier a (leAt l (32 * i) 32)
    | _ => s) s

def leBytes (n v : Nat) : List Nat := (List.range n).map (fun i => v / 256 ^ i % 256)

/-- Map the pages that a range of virtual addresses touches. -/
def mapRange (s : State) (ti model va n target : Nat) : State :=
  (List.range ((va % 0x200000 + n + 0x1FFFFF) / 0x200000)).foldl (fun s i =>
    let a := va / 0x200000 * 0x200000 + 0x200000 * i
    match s.translate ti 0 a with
    | some _ => s
    | none => mapPage s ti 0 model ti a target true) s

/-- Build the sequence of a KV record for a session: page list, frames, directory entry (06 R168, R170). Space 0 and the
addresses are the supervisor's (log 24). None where the directory has no entry free. -/
def openSeq (s : State) (model session cap : Nat) (r : KvRec) : Option State :=
  let s := ensureDir s r.ti
  match s.freeDir r.ti session r.layer r.headGroup with
  | none => none
  | some i =>
    let list := (Config.pageListVa session r.ti r.layer r.headGroup).toNat / 64 * 64
    let sum := (Config.summaryVa session r.ti r.layer r.headGroup).toNat / 64 * 64
    let frame (p : Nat) := (Config.frameVa session r.ti r.layer r.headGroup p).toNat / 64 * 64
    let kb := if r.kfmt < 7 then 1 else 2
    let vb := if r.vfmt < 7 then 1 else 2
    let size := 64 + 64 * (r.dk * kb + r.dv * vb)
    let s := mapRange s r.ti model list (64 + 8 * cap) 2
    let s := mapRange s r.ti model sum (2 * r.dk * cap) 0
    let s := (List.range cap).foldl (fun s p => mapRange s r.ti model (frame p) size 2) s
    let hdr := leBytes 2 session ++ leBytes 2 r.layer ++ leBytes 2 r.headGroup ++ [r.kfmt, r.vfmt] ++ leBytes 2 r.dk ++
      leBytes 2 r.dv ++ leBytes 4 0 ++ leBytes 4 cap ++ [r.sink, r.recent, 0, 0] ++ leBytes 6 sum ++ List.replicate 34 0
    let entries := (List.range cap).flatMap (fun p => leBytes 8 (2 ^ 63 + frame p))
    let s := writeVa s r.ti 0 list (hdr ++ entries)
    let e := leBytes 2 (session + 2 ^ 15) ++ leBytes 2 r.layer ++ leBytes 2 r.headGroup ++ [0, 0] ++ leBytes 6 list ++ [0, 0] ++
      leBytes 4 (Config.stageAddr session r.ti r.layer r.headGroup).toNat ++ leBytes 4 0 ++ List.replicate 8 0
    let s := s.modTile r.ti (fun t => { t with kvSpace := SMap.put t.kvSpace session 0 })
    match s.tableAddr r.ti (s.fld (tileReg r.ti Reg.ATN_DIR_BASE) 26 12 * 4096) (32 * i) with
    | some (tier, a) => some (writeTier s r.ti tier a e)
    | none => none

/-- Build every sequence of a session; none where one finds no place. -/
def openSeqs (s : State) (model session cap : Nat) : List KvRec → Option State
  | [] => some s
  | r :: rest =>
    match openSeq s model session cap r with
    | none => none
    | some s1 => openSeqs s1 model session cap rest

end Sys2Proof.Machine
end

