-- ==== Sys2Proof/Machine/Segments.lean ====
section
/-! DEFINITION. The segments of a round as Sage puts them into memory: commands, input tokens and output slots where a tile's
translation reaches them (10 R293, R312, 11 R344). -/
namespace Sys2Proof.Machine

/-- The entry of a segment, within the reach of a translation table (log 40). -/
def segmentEntry (round ti seg : Nat) : Nat := (Config.segmentEntry round ti seg).toNat % 2 ^ 41 / 64 * 64

/-- Make the pages of a range readable on a tile: those that are not get pages the supervisor chooses. -/
def reachRead (s : State) (ti space va n : Nat) : State :=
  (List.range ((va % 0x200000 + n + 0x1FFFFF) / 0x200000)).foldl (fun s i =>
    let page := va / 0x200000 + i
    match s.translate ti space (page * 0x200000) with
    | some x => if x.read then s else mapPage s ti space 0 4096 (page * 0x200000) 2 false
    | none => mapPage s ti space 0 4096 (page * 0x200000) 2 false) s

/-- The commands of a segment lie in memory where its tile fetches them (10 R293, 02 R48). -/
def writeSegment (s : State) (g : BuiltSegment) : State :=
  let l := g.cmds.flatMap (fun c => leBytes 64 c.toNat)
  writeVa (reachRead s g.ti g.space g.entry l.length) g.ti g.space g.entry l

/-- The input tokens of a member's step: those of the request that its earlier steps do not take, as 32-bit words; a decode
step of an inference has none in the request (log 40). -/
def State.inputTokens (s : State) (m : Member) : List Nat :=
  match s.session? m.session with
  | none => []
  | some x =>
    match x.request with
    | none => []
    | some q =>
      match q.steps.find? (fun st => decide (st.num = m.step)) with
      | none => []
      | some st =>
        let before := ((q.steps.filter (fun y => decide (y.num < m.step))).map (·.ntok)).sum
        (((q.tokens.drop before).take st.ntok)).flatMap (leBytes 4)

/-- A member's output slot and input tokens lie in pages of the stack tier that its tiles reach in a space (10 R312,
Table 11.12). -/
def placeMember (s : State) (b : Batch) (ti space i : Nat) : State :=
  let s := mapTo s ti space (outputVa b.id i / 0x200000) 2 (Config.outputPage b.id i % 524288) true
  match b.members[i]? with
  | none => s
  | some m =>
    let l := s.inputTokens m
    if l.isEmpty then s
    else
      let ppn := Config.inputPage b.id i % 524288
      writeTier (mapTo s ti space (inputVa b.id i / 0x200000) 2 ppn false) ti .stack (ppn * 0x200000 + inputVa b.id i % 0x200000) l

/-- Load the segments of one batch step's part on one tile: its SLOT_BASE is the first slot that no earlier batch step
of the tile uses (DESIGN CHOICE, log 23). -/
def loadTilePart (s : State) (b : Batch) (size part n ti : Nat) : State :=
  let ts := s.templatesOf b.model b.kind part ti
  let used := ts.foldl (fun a t => max a t.slotsUsed) 1
  let base := (s.sage.batches.flatMap (fun x => x.bases.filter (fun y => decide (y.1 = ti)))).foldl (fun a y => max a (y.2.1 + y.2.2)) 0
  let k0 := (s.tile ti).segs.length
  let built := ts.mapIdx (fun i t =>
    BuiltSegment.mk ti (k0 + i) (segmentEntry n ti (k0 + i)) t.space (base % 256) (s.fill b size n t))
  let commits := (ts.flatMap Template.commitSlots).map (fun x => (ti, (x + base) % 256))
  let spaces := (ts.map (·.space)).eraseDups
  let s := spaces.foldl (fun s sp => (List.range size).foldl (fun s i => placeMember s b ti sp i) s) s
  let s := built.foldl writeSegment s
  let s := s.modTile ti (fun t => { t with segs := t.segs ++ built.map (fun g => ⟨g.entry, g.space, g.slotBase⟩) })
  { s with sage := { s.sage with
    segments := s.sage.segments ++ built
    batches := s.sage.batches.map (fun x =>
      if x.id = b.id then { x with need := x.need ++ commits.eraseDups, bases := x.bases ++ [(ti, base, used)] } else x) } }

/-- Load a batch step's part of round n on every tile of the part. -/
def loadBatch (s : State) (b : Batch) (n : Nat) : State :=
  match s.kind? b.model b.kind with
  | none => s
  | some k =>
    match b.partAt k.parts.length n with
    | none => s
    | some i =>
      match k.parts[i]? with
      | none => s
      | some pr =>
        let s := { s with sage := { s.sage with
          batches := s.sage.batches.map (fun x => if x.id = b.id then { x with part := some i, need := [], got := [], bases := [] } else x) } }
        let s := pr.tiles.foldl (fun s x => loadTilePart s b (max 1 b.members.length) i n x.ti) s
        pr.tiles.foldl (fun s x =>
          let a := Reg.STM_PART_MAP + x.ti / 8
          s.setFld a (4 * (x.ti % 8) + 3) (4 * (x.ti % 8)) b.opener) s

end Sys2Proof.Machine
end

