-- ==== Sys2Proof/Machine/Peers.lean ====
section
/-! DEFINITION. Peers and reliable delivery (11 R324-R329, R581): the checks of a datagram, acknowledgement and credit,
sequencing, assembly of messages, sending and retransmission. -/
namespace Sys2Proof.Machine

/-- Distance between sequence numbers modulo 2^32 (11 R326). -/
def seqSub (a b : Nat) : Nat := (a + 2 ^ 32 - b % 2 ^ 32) % 2 ^ 32
/-- a comes before b. -/
def seqLt (a b : Nat) : Bool := decide (0 < seqSub b a) && decide (seqSub b a < 2 ^ 31)
def seqAdd (a n : Nat) : Nat := (a + n) % 2 ^ 32

/-- The largest message body of a type (Table 11.3). -/
def bodyLimit (t : Nat) : Nat :=
  match t with
  | 0 => 0
  | 1 | 2 => 4096
  | 3 => 1048576
  | 9 => 16777216 + 24
  | _ => 65536

def respOf (d : Datagram) : Bool := decide (d.flags / 2 ^ 15 = 1)
def lastOf (d : Datagram) : Bool := decide (d.flags / 2 ^ 14 % 2 = 1)

/-- A datagram that R325 discards. -/
def badDg (d : Datagram) : Bool :=
  decide (d.magic ≠ 0x4859) || decide (d.version ≠ 1) || decide (0x0A < d.dtype) || decide (bodyLimit d.dtype < d.bodyLen) ||
    decide (d.bodyLen + 32 ≠ d.payload) || decide (d.bodyLen ≠ d.body.length)

def State.peer? (s : State) (i : Nat) : Option Peer := s.client.peers.find? (fun p => decide (p.id = i))
/-- The peer at an endpoint (11 R328). -/
def State.peerAt (s : State) (ip udp : Nat) : Option Peer :=
  s.client.peers.find? (fun p => decide (p.ip = ip) && decide (p.udp = udp))
/-- Replace a peer. -/
def State.putPeer (s : State) (p : Peer) : State :=
  { s with client := { s.client with peers := s.client.peers.map (fun q => if q.id = p.id then p else q) } }

def State.emit (s : State) (o : Output) : State := { s with out := s.out ++ [o] }

/-- A write that is refused is answered so, and logged (00 R16, 19 R536). -/
def refuse (s : State) (addr status : Nat) : State :=
  ({ s with mgmt := { s.mgmt with logged := s.mgmt.logged ++ [(addr, status)] } } : State).emit (.written addr status)

/-- CREDIT for a peer: the configured credit less the datagrams held for it (11 R326). -/
def State.creditOf (s : State) (p : Peer) : Nat :=
  (if p.operator then s.fld Reg.SES_CREDIT 31 16 else s.fld Reg.SES_CREDIT 15 0) - p.held.length

/-- SACK of a peer (Table 11.2). -/
def Peer.sackBits (p : Peer) : Nat :=
  (List.range 32).foldl (fun a i => if p.held.any (fun d => decide (d.seq = seqAdd p.rcvNext (1 + i))) then a + 2 ^ i else a) 0

/-- Transmit a datagram of a peer: it carries the acknowledgement. -/
def transmit (s : State) (pid : Nat) (g : OutDg) : State :=
  match s.peer? pid with
  | none => s
  | some p =>
    let c := s.creditOf p
    let p1 := { p with ackDue := false, rcvLimit := seqAdd p.rcvNext c }
    (s.putPeer p1).emit (.client ⟨p.port, p.ip, p.udp, p.id, p.cookie, g.dtype, g.response, g.lastFrag, g.seq, p.rcvNext,
      p.sackBits, c, g.frag, g.body⟩)

/-- Send an ACK datagram: it takes no sequence number (11 R325). -/
def sendAck (s : State) (pid : Nat) : State :=
  match s.peer? pid with
  | none => s
  | some p => transmit s pid ⟨p.sndNext, 0, false, 0, true, [], 0, 0⟩

/-- Send what the peer's credit allows, in order (11 R326). -/
def pumpList (s : State) (pid : Nat) : List OutDg → State
  | [] => s
  | g :: rest =>
    match s.peer? pid with
    | none => s
    | some p =>
      if seqLt g.seq p.limit then
        let g1 := { g with tries := 1, sentAt := s.now }
        let s := s.putPeer { p with queue := rest, unacked := p.unacked ++ [g1] }
        pumpList (transmit s pid g1) pid rest
      else s

def pump (s : State) (pid : Nat) : State :=
  match s.peer? pid with
  | none => s
  | some p => pumpList s pid p.queue

/-- Body bytes per datagram (11 R325). -/
def State.chunkSize (s : State) (p : Peer) : Nat := s.fld Reg.NET_MTU 13 0 - (if p.v6 then 80 else 60)

/-- Split a body into datagrams with consecutive FRAG values. -/
def splitBody (size : Nat) (l : List Nat) : List (List Nat) :=
  if l.isEmpty then [[]] else (List.range ((l.length + size - 1) / size)).map (fun i => (l.drop (size * i)).take size)

/-- Queue a message for a peer and send what credit allows; answers the sequence numbers it takes. -/
def sendMsg (s : State) (pid dtype : Nat) (response : Bool) (body : List Nat) : State × List Nat :=
  match s.peer? pid with
  | none => (s, [])
  | some p =>
    let cs := splitBody (s.chunkSize p) body
    let gs := cs.mapIdx (fun i c => OutDg.mk (seqAdd p.sndNext i) dtype response i (decide (i + 1 = cs.length)) c 0 0)
    let s := s.putPeer { p with sndNext := seqAdd p.sndNext cs.length, queue := p.queue ++ gs }
    (pump s pid, gs.map (·.seq))

/-- Answer a message: RESPONSE = 1 (11 R336). -/
def answer (s : State) (pid dtype : Nat) (body : List Nat) : State := (sendMsg s pid dtype true body).1

/-- An unasked STATUS report to a session's peer (11 R341, Table 11.9). -/
def report (s : State) (x : Session) (code v0 v1 : Nat) : State :=
  match x.peer with
  | none => s
  | some pid =>
    if x.state = .detached then s
    else (sendMsg s pid 7 false (beBytes 2 code ++ beBytes 2 x.id ++ [2, 0, 0, 0] ++ beBytes 8 v0 ++ beBytes 8 v1)).1

/-! ## Acknowledgement -/

/-- The round-trip estimate after a sample: gains 1/8 and 1/4 (Table 11.4), in whole ns (log 25). -/
def Peer.sample (p : Peer) (r : Nat) : Peer :=
  if p.sampled then
    let d := if r < p.srtt then p.srtt - r else r - p.srtt
    { p with rttvar := (3 * p.rttvar + d) / 4, srtt := (7 * p.srtt + r) / 8 }
  else { p with sampled := true, srtt := r, rttvar := r / 2 }

/-- The retransmission timeout of a datagram after `tries` transmissions (Table 11.4), ns. -/
def Peer.timeout (p : Peer) (tries : Nat) : Nat :=
  let base := if p.sampled then max 100000 (min 20000000 (p.srtt + 4 * p.rttvar)) else 1000000
  min 20000000 (base * 2 ^ (tries - 1))

/-- A datagram is acknowledged by ACK or SACK. -/
def ackedBy (ack sack seq : Nat) : Bool :=
  seqLt seq ack || (decide (1 ≤ seqSub seq ack) && decide (seqSub seq ack ≤ 32) && sack.testBit (seqSub seq ack - 1))

/-- A RESULT leaves its session's queue once its datagrams are acknowledged (11 R338). -/
def dropResults (s : State) (pid : Nat) : State :=
  match s.peer? pid with
  | none => s
  | some p =>
    let open_ := (p.queue ++ p.unacked).map (·.seq)
    { s with client := { s.client with sessions := s.client.sessions.map (fun x =>
      if x.peer = some pid then
        { x with results := x.results.filter (fun r => match r.seqs with | none => true | some l => l.any open_.contains) }
      else x) } }

/-- The acknowledgement, SACK and credit of a received header (11 R326). -/
def takeAck (s : State) (pid : Nat) (d : Datagram) : State :=
  match s.peer? pid with
  | none => s
  | some p =>
    let done := p.unacked.filter (fun g => ackedBy d.ack d.sack g.seq)
    let p1 := (done.filter (fun g => decide (g.tries = 1))).foldl (fun p g => p.sample (s.now - g.sentAt)) p
    let p2 := { p1 with
      heard := s.now
      limit := seqAdd d.ack d.credit
      unacked := p.unacked.filter (fun g => !ackedBy d.ack d.sack g.seq) }
    pump (dropResults (s.putPeer p2) pid) pid

/-! ## Detaching -/

/-- The sessions of a peer that goes are detached; their RESULTs wait unsent again (11 R328, R334). -/
def detach (s : State) (pid : Nat) : State :=
  { s with client := { s.client with sessions := s.client.sessions.map (fun x =>
    if x.peer = some pid then
      { x with
        peer := none
        state := if x.state = .closing then .closing else .detached
        results := x.results.map (fun r => { r with seqs := none }) }
    else x) } }

/-- Remove a peer. -/
def removePeer (s : State) (pid : Nat) : State :=
  let s := detach s pid
  { s with client := { s.client with peers := s.client.peers.filter (fun p => p.id ≠ pid) } }

def State.sessionsOf (s : State) (pid : Nat) : Nat := (s.client.sessions.filter (fun x => decide (x.peer = some pid))).length

/-- A number below n that is not in a list, found from a free value on (the choice is the module's). -/
def pickUnused (n v : Nat) (used : List Nat) : Nat :=
  ((List.range (used.length + 1)).map (fun i => (v + i) % n)).find? (fun i => !used.contains i) |>.getD 0

/-- Count a discarded datagram or message (Table 11.14). -/
def discard (s : State) : State := s.count Reg.SES_DISCARDED 1

end Sys2Proof.Machine
end

