-- ==== Sys2Proof/Machine/Sessions.lean ====
section
/-! DEFINITION. The messages of the request protocol (11 R328-R346), their delivery in sequence, the client ports and
their timers. -/
namespace Sys2Proof.Machine

/-! ## Tokens (11 R331, R332) -/

structure Token where
  operator : Bool
  partition : Nat
  classMask : Nat
  model : Nat
  maxContext : Nat
  tokenId : Nat
deriving DecidableEq, Repr

def tokenOf (l : List Nat) : Token :=
  ⟨decide (beAt l 2 2 % 2 = 1), beAt l 5 1 % 16, beAt l 6 1, beAt l 8 4, beAt l 12 4, beAt l 40 8⟩

/-- A token is valid (11 R332). -/
def State.tokenValid (s : State) (l : List Nat) : Bool :=
  let now := s.calendar
  decide (l.length = 432) && decide (beAt l 0 2 = 1) && decide (beAt l 2 2 < 2) && decide (beAt l 5 1 < 16) && decide (beAt l 7 1 = 0) &&
  (match SMap.get? s.trust.issuers (beAt l 4 1) with
   | some key => rsaVerify key (l.take 48) (l.drop 48)
   | none => false) &&
  !s.trust.revoked.contains (beAt l 40 8) && (decide (beAt l 32 8 = 0) || decide (beAt l 32 8 = Config.moduleId.toNat)) &&
  s.tb.isSet && decide (beAt l 16 8 ≤ now) && decide (now ≤ beAt l 24 8)

/-! ## HELLO (11 R328-R330) -/

/-- An answer that creates no peer (11 R329). -/
def helloRefused (s : State) (d : Datagram) (status : Nat) : State :=
  s.emit (.client ⟨d.port, d.ip, d.udp, 0xFFFF, 0, 1, true, true, 0, seqAdd d.seq 1, 0, 0, 0, beBytes 2 status ++ List.replicate 30 0⟩)

/-- A peer has a request in progress. -/
def State.peerBusy (s : State) (pid : Nat) : Bool :=
  s.client.sessions.any (fun x => decide (x.peer = some pid) && x.request.isSome)

/-- The peer that a full table gives up: the least recently heard with no request in progress (11 R329). -/
def State.evictable (s : State) : Option Peer :=
  (s.client.peers.filter (fun p => !s.peerBusy p.id)).foldl (fun a p =>
    match a with
    | none => some p
    | some q => if p.heard < q.heard then some p else a) none

/-- Add the peer of a HELLO and answer it. PEER_ID, COOKIE and the initial SEQ are free values. -/
def addPeer (s : State) (d : Datagram) (operator : Bool) : State :=
  let f1 := s.takeFree
  let f2 := f1.2.takeFree
  let s := f2.2
  let pid := pickUnused 0xFFFF f1.1.toNat (s.client.peers.map (·.id))
  let p : Peer := ⟨pid, d.port, d.ip, d.udp, d.v6, f2.1.toNat % 2 ^ 32, operator, s.now, seqAdd d.seq 1, 0, [], none, true,
    f2.1.toNat / 2 ^ 32, seqAdd d.ack d.credit, [], [], false, 0, 0⟩
  let s := { s with client := { s.client with peers := s.client.peers ++ [p] } }
  let s := recordEvent s 0x0701 0 pid d.port (if operator then 1 else 0)
  answer s pid 1 (beBytes 2 stAccepted ++ [0, 0] ++ beBytes 4 s.plan.epoch ++ beBytes 4 (s.fld Reg.ADM_ROUND_LEN 15 0) ++
    beBytes 8 Config.moduleId.toNat ++ beBytes 8 s.round ++ beBytes 2 (s.fld Reg.FAB_ADDR 13 0) ++ beBytes 2 (if operator then 1 else 0))

/-- A HELLO request. -/
def handleHello (s : State) (d : Datagram) : State :=
  if d.frag ≠ 0 ∨ !(lastOf d) then discard s
  else
    let n := beAt d.body 0 2
    if (n ≠ 0 ∧ n ≠ 432) ∨ d.body.length ≠ 4 + n ∨ beAt d.body 2 2 ≠ 0 then helloRefused s d stBadMessage
    else
      let tok := d.body.drop 4
      if n = 432 ∧ !s.tokenValid tok then helloRefused s d stNotAuthorised
      else
        let op := decide (n = 432) && (tokenOf tok).operator
        match s.peerAt d.ip d.udp with
        | some old => addPeer (removePeer s old.id) d op
        | none =>
          if s.client.peers.length < 4096 then addPeer s d op
          else
            match s.evictable with
            | none => helloRefused s d stTableFull
            | some v =>
              let s := recordEvent (s.count Reg.SES_EVICTIONS 1) 0x0702 0 v.id (s.sessionsOf v.id) 0
              addPeer (removePeer s v.id) d op

/-! ## OPEN (11 R333, R335) -/

def openAnswer (s : State) (pid status session cookie len cap : Nat) : State :=
  answer s pid 2 (beBytes 2 status ++ beBytes 2 session ++ beBytes 4 cookie ++ beBytes 4 len ++ beBytes 4 cap)

def openRefused (s : State) (pid status tokenId model : Nat) : State :=
  openAnswer (recordEvent (s.count Reg.SES_OPEN_REFUSED 1) 0x0704 0 status (tokenId % 2 ^ 32) model) pid status 0 0 0 0

/-- A RESUME (11 R335). -/
def resume (s : State) (pid : Nat) (l : List Nat) : State :=
  let tok := tokenOf (l.drop 16)
  let model := beAt l 0 4
  match s.session? (beAt l 10 2 % 16384) with
  | none => openRefused s pid stNoSession tok.tokenId model
  | some x =>
    if x.state = .closing then openRefused s pid stNoSession tok.tokenId model
    else if beAt l 12 4 ≠ x.cookie ∨ !s.tokenValid (l.drop 16) ∨ tok.partition ≠ x.partition ∨ (tok.model ≠ 0 ∧ tok.model ≠ x.model) then
      openRefused s pid stNotAuthorised tok.tokenId model
    else
      let s := if x.peer.isSome && decide (x.peer ≠ some pid) then report s x stNoSession 0 0 else s
      let s := s.putSession { x with peer := some pid, state := .opened, results := x.results.map (fun r => { r with seqs := none }) }
      openAnswer s pid stAccepted x.id x.cookie x.committed x.maxContext

/-- A new session (11 R333). -/
def openNew (s : State) (pid : Nat) (l : List Nat) : State :=
  let tok := tokenOf (l.drop 16)
  let model := beAt l 0 4
  let ask := beAt l 4 4
  let m := s.model? model
  let mLimit := match m with
    | some x => x.pkg.maxContext
    | none => 4194304
  let limit := if tok.maxContext ≠ 0 ∧ tok.maxContext < mLimit then tok.maxContext else mLimit
  let refuse (st : Nat) := openRefused s pid st tok.tokenId model
  if !s.tokenValid (l.drop 16) ∨ (tok.model ≠ 0 ∧ tok.model ≠ model) ∨ limit < ask then refuse stNotAuthorised
  else
    match m with
    | none => refuse stNoModel
    | some x =>
      if x.paused then refuse stFloorPlanChanged
      else if 16384 ≤ s.client.sessions.length then refuse stTableFull
      else
        let ctx := if ask = 0 then limit else ask
        let f := s.takeFree
        let sid := pickUnused 16384 f.1.toNat (s.client.sessions.map (·.id))
        match openSeqs f.2 model sid ((ctx + 63) / 64) x.pkg.kv with
        | none => refuse stTableFull
        | some s1 =>
          let cookie := f.1.toNat / 2 ^ 32
          let y : Session := ⟨sid, cookie, .opened, some pid, model, tok.partition, tok.classMask, ctx, 0, none, [], none, false⟩
          openAnswer { s1 with client := { s1.client with sessions := s1.client.sessions ++ [y] } } pid stAccepted sid cookie 0 ctx

def handleOpen (s : State) (pid : Nat) (l : List Nat) : State :=
  if l.length ≠ 448 ∨ 1 < beAt l 8 2 ∨ 4194304 < beAt l 4 4 then openAnswer s pid stBadMessage 0 0 0 0
  else if s.fuses.lifeCycle = 4 then openRefused s pid stNotAuthorised (tokenOf (l.drop 16)).tokenId (beAt l 0 4)
  else if beAt l 8 2 = 1 then resume s pid l
  else openNew s pid l

/-! ## SUBMIT, CANCEL, CLOSE (11 R337, R339, R340) -/

def submitAnswer (s : State) (pid status reqId first last : Nat) : State :=
  answer s pid 3 (beBytes 2 status ++ [0, 0] ++ beBytes 4 reqId ++ beBytes 8 first ++ beBytes 8 last)

/-- Whether an address of a tile is mapped to a stack of a half, its entry valid or not. -/
def State.inStacksOf (s : State) (ti space va : Nat) (h : Half) : Bool :=
  match s.xltRead ti space (va / 0x200000) with
  | some (e, _) => decide ((e.toNat >>> 58) % 8 = 2) && decide (h = (if e.toNat % 2 ^ 20 < 262144 then Half.west else Half.east))
  | none => false

/-- Whether a sequence's page list or a page frame lies in a half's stacks (13 R408). -/
def State.sequenceIn (s : State) (ti session : Nat) (e : DirEntry) (h : Half) : Bool :=
  let space := SMap.getD (s.tile ti).kvSpace session 0
  s.inStacksOf ti space e.pageList h ||
    (List.range ((e.nextPos + 63) / 64)).any (fun i =>
      match readFrame s ti space e.pageList i (i + 1) with
      | .ok f => s.inStacksOf ti space f h
      | .error _ => false)

/-- The halves that hold a session's state: a directory entry on a tile of the half, or a page list or frame in its memory
(11 R337, 13 R408). -/
def State.sessionOn (s : State) (x : Session) (h : Half) : Bool :=
  (match s.model? x.model with
   | none => false
   | some m => m.pkg.kv.any (fun r => decide (halfOf r.ti = h))) ||
  s.tiles.any (fun t => (s.dirOfSession t.1 x.id).any (fun e => decide (halfOf t.1 = h) || s.sequenceIn t.1 x.id e h))

def State.fenced (s : State) (h : Half) : Bool :=
  match h with
  | .west => decide (s.fld Reg.HLK_STATUS 28 28 = 1)
  | .east => decide (s.fld Reg.HLK_STATUS 29 29 = 1)

/-- The ensemble of a session's model was led here and is BROKEN (12 R387). -/
def State.ensBroken (s : State) (model : Nat) : Bool :=
  (s.leadsModel model).isNone &&
  (List.range 8).any (fun e => decide (s.fld (Reg.FAB_ENS_CTRL + 64 * e) 2 0 = 4) &&
    decide ((s.reg (Reg.FAB_ENS_MODEL + 64 * e)).toNat = model) &&
    decide (s.fld (Reg.FAB_ENS_LEADER + 64 * e) 13 0 = s.fld Reg.FAB_ADDR 13 0))

/-- Admission is open (10 Table 10.12): SERVING or HALF. -/
def State.admits (s : State) : Bool := [2, 3].contains (s.fld Reg.ADM_STATUS 2 0) && s.sage.draining.isNone

/-- What R337 refuses before Sage sees the request. -/
def submitRefusal (s : State) (pid : Nat) (x : Session) (cls kindId nin ngen : Nat) (kinds : List KindRec) (paused : Bool) : Option Nat :=
  let train := kinds.any (fun k => decide (k.id = kindId) && decide (k.role = 2))
  if x.state ≠ .opened ∨ x.peer ≠ some pid then some stNoSession
  else if x.request.isSome then some stSessionBusy
  else if paused then some stFloorPlanChanged
  else if !x.classMask.testBit cls then some stNotAuthorised
  else if !train ∧ x.maxContext < x.committed + nin + ngen then some stContextFull
  else if (s.sessionOn x .west && s.fenced .west) ∨ (s.sessionOn x .east && s.fenced .east) then some stHalfLost
  else none

/-- Sage's answer to a request (10 R307): the status with the deadlines. -/
def admitRequest (s : State) (x : Session) (kinds : List KindRec) (cls kindId reqId nin ngen : Nat) (params tokens : List Nat) : State × Nat × Nat × Nat :=
  let a := s.acceptRound
  match expand kinds kindId nin ngen a (s.classFirst cls) (s.classStep cls) x.committed with
  | none => (s, stBadMessage, 0, 0)
  | some steps =>
    if s.ensBroken x.model then (s, stEnsembleBroken, 0, 0)
    else if steps.any (fun st => decide (a + 16384 < st.deadline)) then (s, stRefused, 0, 0)
    else
      let refused := (s.count Reg.ADM_REFUSED_CAP 1, stRefusedCapacity, 0, 0)
      if !s.admits ∨ (s.leadsModel x.model).isSome ∧ s.fld Reg.ADM_STATUS 30 30 = 1 then refused
      else if (s.sessionOn x .west && s.sage.inResetW) || (s.sessionOn x .east && s.sage.inResetE) then refused
      else
        match s.placeAll (s.fld Reg.ADM_MARGIN 5 0) x reqId a steps with
        | none => refused
        | some (s1, l) =>
          let first := match l.find? (fun st => decide (st.index = 1)) with
            | some st => st.deadline
            | none => 0
          let last := match l.getLast? with
            | some st => st.deadline
            | none => 0
          let q : Request := ⟨reqId, cls, params, tokens, first, last, l⟩
          ((s1.count Reg.ADM_ACCEPTED 1).putSession { x with request := some q }, stAccepted, first, last)

def handleSubmit (s : State) (pid : Nat) (l : List Nat) : State :=
  let reqId := beAt l 4 4
  let nin := beAt l 8 4
  let ngen := beAt l 12 4
  if l.length < 48 ∨ l.length ≠ 48 + 4 * nin then submitAnswer s pid stBadMessage reqId 0 0
  else
    match s.session? (beAt l 0 2) with
    | none => submitAnswer s pid stNoSession reqId 0 0
    | some x =>
      let cls := beAt l 2 1
      let kindId := beAt l 3 1
      let kinds := match s.model? x.model with
        | some m => m.pkg.kinds
        | none => []
      let paused := match s.model? x.model with
        | some m => m.paused
        | none => true
      match submitRefusal s pid x cls kindId nin ngen kinds paused with
      | some st => submitAnswer s pid st reqId 0 0
      | none =>
        let toks := (List.range nin).map (fun i => beAt l (48 + 4 * i) 4)
        let r := admitRequest s x kinds cls kindId reqId nin ngen ((l.drop 16).take 32) toks
        submitAnswer r.1 pid r.2.1 reqId r.2.2.1 r.2.2.2

/-- The session a message names, opened on the sender. -/
def State.ownSession (s : State) (pid sid : Nat) : Option Session :=
  match s.session? sid with
  | none => none
  | some x => if x.state = .opened ∧ x.peer = some pid then some x else none

def handleCancel (s : State) (pid : Nat) (l : List Nat) : State :=
  let reply (s : State) (st n : Nat) := answer s pid 5 (beBytes 2 st ++ [0, 0] ++ beBytes 4 n)
  if l.length ≠ 8 ∨ beAt l 2 2 ≠ 0 then reply s stBadMessage 0
  else
    match s.ownSession pid (beAt l 0 2) with
    | none => reply s stNoSession 0
    | some x =>
      match x.request with
      | none => reply s stRefused 0
      | some q =>
        if q.reqId ≠ beAt l 4 4 then reply s stRefused 0
        else reply (endRequest s x.id stCancelled) stCancelled (s.releaseSteps x q).2

/-- A session becomes CLOSING, as CANCEL on its request (11 R340). -/
def startClose (s : State) (sid cause : Nat) (toPeer : Option Nat) : State :=
  let s := endRequest s sid stCancelled
  match s.session? sid with
  | none => s
  | some x => if x.state = .closing then s else s.putSession { x with state := .closing, closing := some ⟨cause, toPeer⟩ }

def handleClose (s : State) (pid : Nat) (l : List Nat) : State :=
  if l.length < 2 ∨ (l.drop 2).any (· ≠ 0) then answer s pid 6 (beBytes 2 stBadMessage ++ List.replicate 6 0)
  else
    match s.ownSession pid (beAt l 0 2) with
    | none => answer s pid 6 (beBytes 2 stNoSession ++ List.replicate 6 0)
    | some x => startClose s x.id 0 (some pid)

/-! ## STATUS, FLOOR_PLAN -/

def handleStatus (s : State) (pid : Nat) (l : List Nat) : State :=
  let reply (st sid kind v0 v1 : Nat) :=
    answer s pid 7 (beBytes 2 st ++ beBytes 2 sid ++ [kind, 0, 0, 0] ++ beBytes 8 v0 ++ beBytes 8 v1)
  if l.length ≠ 4 ∨ beAt l 1 1 ≠ 0 then reply stBadMessage 0 0 0 0
  else if beAt l 0 1 = 1 then
    reply stAccepted 0 1 s.round ((16384 - s.client.sessions.length) * 2 ^ 32 + s.plan.epoch)
  else if beAt l 0 1 = 0 then
    match s.ownSession pid (beAt l 2 2) with
    | none => reply stNoSession (beAt l 2 2) 0 0 0
    | some x => reply stAccepted x.id 0 x.committed (match x.request with | some q => q.reqId | none => 0xFFFFFFFF)
  else reply stBadMessage 0 0 0 0

/-- The bytes of a floor-plan record (11 Table 11.8). -/
def planBytes (r : PlanRec) : List Nat :=
  let tiles := (List.range 288).map (fun b => (List.range 8).foldl (fun a i => if r.down.contains (8 * b + i) then a else a + 2 ^ i) 0)
  let page (ti : Nat) := SMap.getD r.pages ti (if r.down.contains ti then 0 else 2 ^ 64 - 1)
  beBytes 4 r.epoch ++ beBytes 4 r.prev ++ beBytes 8 r.round ++ beBytes 8 Config.moduleId.toNat ++ beBytes 2 r.addr ++
    [(if r.fencedE then 2 else 0) + (if r.fencedW then 1 else 0), 0] ++ beBytes 4 r.stackW ++ beBytes 4 r.stackE ++
    List.replicate 28 0 ++ tiles ++ (List.range 2304).flatMap (fun ti => beBytes 8 (page ti))

/-- The record of an epoch, 0 for the one in force (11 R348). -/
def State.planOf (s : State) (epoch : Nat) : Option PlanRec :=
  match s.plan.current with
  | none => none
  | some r =>
    if epoch = 0 ∨ epoch = r.epoch then some r
    else
      match s.plan.previous with
      | some q => if q.epoch = epoch then some q else none
      | none => none

def handleFloorPlan (s : State) (pid : Nat) (l : List Nat) : State :=
  if l.length ≠ 4 then answer s pid 8 (beBytes 2 stBadMessage ++ [0, 0])
  else
    match s.planOf (beAt l 0 4) with
    | none => answer s pid 8 (beBytes 2 stRefused ++ [0, 0])
    | some r => answer s pid 8 (beBytes 2 stAccepted ++ [0, 0] ++ planBytes r)

/-! ## Packages (11 R345, R346) -/

def loadAnswer (s : State) (pid status reason received : Nat) : State :=
  answer s pid 9 (beBytes 2 status ++ beBytes 2 reason ++ List.replicate 4 0 ++ beBytes 8 received)

def State.load? (s : State) (model : Nat) : Option Load := s.client.loads.find? (fun x => decide (x.model = model))
def State.putLoad (s : State) (x : Load) : State :=
  { s with client := { s.client with loads := s.client.loads.filter (fun y => y.model ≠ x.model) ++ [x] } }
def State.dropLoad (s : State) (model : Nat) : State :=
  { s with client := { s.client with loads := s.client.loads.filter (fun y => y.model ≠ model) } }

def handleLoad (s : State) (pid : Nat) (operator : Bool) (l : List Nat) : State :=
  let model := beAt l 0 4
  let off := beAt l 8 8
  let total := beAt l 16 8
  let chunk := l.drop 24
  if !operator then loadAnswer s pid stNotAuthorised 0 0
  else if l.length < 24 ∨ beAt l 4 4 ≠ 0 ∨ total < off + chunk.length then loadAnswer s pid stBadMessage 0 0
  else
    match s.load? model with
    | none =>
      if (match s.model? model with | some m => !m.paused | none => false) then
        loadAnswer (recordEvent s 0x0708 0 model 0 0) pid stRefused 0 0
      else if off ≠ 0 ∨ 2 ≤ s.client.loads.length then loadAnswer s pid stRefused 0 0
      else
        let s := s.putLoad ⟨model, total, chunk, pid, none⟩
        if chunk.length = total then s else loadAnswer s pid stAccepted 0 chunk.length
    | some x =>
      if total ≠ x.total then loadAnswer s pid stBadMessage 0 x.bytes.length
      else if off ≠ x.bytes.length ∨ x.bytes.length = x.total then loadAnswer s pid stRefused 0 x.bytes.length
      else
        let y := { x with bytes := x.bytes ++ chunk, peer := pid }
        let s := s.putLoad y
        if y.bytes.length = total then s else loadAnswer s pid stAccepted 0 y.bytes.length

/-- PACKAGE_VERIFICATION_DONE (11 R345): the checks of a complete package end; one that passes is written to memory and
is answered at the next boundary. -/
def execPackageVerificationDone (model : Nat) (s : State) : Host.Outcome State Fault Refusal :=
  match s.load? model with
  | none => .next s
  | some x =>
    if x.bytes.length ≠ x.total ∨ x.ready.isSome then .next s
    else
      match verifyPackage s model x.bytes with
      | .error r =>
        let s := recordEvent (s.dropLoad model) 0x0708 0 model r (x.bytes.length % 2 ^ 32)
        .next (loadAnswer s x.peer stPackageInvalid r x.bytes.length)
      | .ok p => .next ((writePackage s p).putLoad { x with ready := some p })

/-- Put a model into the table, in the place of one of its MODEL_ID. -/
def State.putModel (s : State) (y : Model) : State :=
  let l : List Model := s.client.models.filter (fun m => decide (m.pkg.model ≠ y.pkg.model))
  { s with client := { s.client with models := l ++ [y] } }

/-- At a boundary a verified package enters service (11 R345, R346). -/
def acceptLoad (s : State) (x : Load) (p : Package) : State :=
  let old := s.model? x.model
  let s : State := match old with
    | some m => if m.pkg.kv = p.kv then s
        else (s.client.sessions.filter (fun y => decide (y.model = x.model))).foldl (fun s y => startClose s y.id 3 none) s
    | none => s
  let s := s.putModel ⟨p, false⟩
  let s := recordEvent (s.dropLoad x.model) 0x0707 0 x.model p.epoch p.sections
  loadAnswer s x.peer stAccepted 0 x.total

def handleUnload (s : State) (pid : Nat) (operator : Bool) (l : List Nat) : State :=
  let model := beAt l 0 4
  let reply (s : State) (st n : Nat) := answer s pid 0x0A (beBytes 2 st ++ [0, 0] ++ beBytes 4 n)
  if !operator then reply s stNotAuthorised 0
  else if l.length < 6 ∨ 1 < beAt l 4 2 ∨ (l.drop 6).any (· ≠ 0) then reply s stBadMessage 0
  else
    match s.model? model with
    | none => reply s stNoModel 0
    | some _ =>
      let xs := s.client.sessions.filter (fun x => decide (x.model = model) && decide (x.state ≠ .closing))
      if !xs.isEmpty ∧ beAt l 4 2 = 0 then reply s stSessionBusy 0
      else
        let s := xs.foldl (fun s x => startClose (report s x stNoModel model 0) x.id 2 none) s
        let s := { s with client := { s.client with models := s.client.models.filter (fun m => m.pkg.model ≠ model) } }
        reply (recordEvent s 0x0709 0 model xs.length 0) stAccepted xs.length

/-! ## Delivery in sequence (11 R326, R581) -/

/-- A complete message of a peer. -/
def handleMessage (s : State) (pid : Nat) (m : Assembly) : State :=
  match s.peer? pid with
  | none => s
  | some p =>
    if m.response then discard s
    else
      match m.dtype with
      | 2 => handleOpen s pid m.body
      | 3 => handleSubmit s pid m.body
      | 5 => handleCancel s pid m.body
      | 6 => handleClose s pid m.body
      | 7 => handleStatus s pid m.body
      | 8 => handleFloorPlan s pid m.body
      | 9 => handleLoad s pid p.operator m.body
      | 10 => handleUnload s pid p.operator m.body
      | _ => discard s

/-- Discard an incomplete message; a SUBMIT is answered REFUSED with the REQ_ID of its first datagram. -/
def dropMessage (s : State) (pid : Nat) (m : Assembly) : State :=
  let s := discard s
  if m.dtype = 3 ∧ !m.response then submitAnswer s pid stRefused (beAt m.body 4 4) 0 0 else s

def setAsm (s : State) (pid : Nat) (m : Option Assembly) : State :=
  match s.peer? pid with
  | none => s
  | some p => s.putPeer { p with asm := m }

/-- A message started or continued by a datagram: complete, too large, or in progress. -/
def advance (s : State) (pid : Nat) (m : Assembly) (last : Bool) : State :=
  if bodyLimit m.dtype < m.body.length then dropMessage (setAsm s pid none) pid m
  else if last then handleMessage (setAsm s pid none) pid m
  else setAsm s pid (some m)

/-- Take a delivered datagram into the message in progress (11 R581). -/
def assemble (s : State) (pid : Nat) (d : Datagram) : State :=
  match s.peer? pid with
  | none => s
  | some p =>
    let start : Assembly := ⟨d.dtype, (respOf d), 0, d.body⟩
    match p.asm with
    | none => if d.frag = 0 then advance s pid start (lastOf d) else discard s
    | some m =>
      if d.dtype = m.dtype ∧ d.frag = m.frag + 1 then
        advance s pid { m with frag := d.frag, body := m.body ++ d.body } (lastOf d)
      else
        let s := dropMessage (setAsm s pid none) pid m
        if d.frag = 0 then advance s pid start (lastOf d) else discard s

/-- Deliver held datagrams while the next one is there; fuel bounds their number. -/
def deliver (s : State) (pid : Nat) : Nat → State
  | 0 => s
  | n + 1 =>
    match s.peer? pid with
    | none => s
    | some p =>
      match p.held.find? (fun d => decide (d.seq = p.rcvNext)) with
      | none => s
      | some d =>
        let s := s.putPeer { p with rcvNext := seqAdd p.rcvNext 1, held := p.held.filter (fun x => x.seq ≠ d.seq) }
        deliver (assemble s pid d) pid n

/-- The request protocol is open: from the end of step 12 of the start (16 R470). -/
def State.opened (s : State) : Bool :=
  decide (s.fld Reg.MGT_START_STATUS 2 0 = 2) || decide (s.fld Reg.MGT_START_STATUS 2 0 = 4)

/-- Receive a datagram on a client port that is UP (11 R325-R328). -/
def receive (s : State) (d : Datagram) : State :=
  if s.fld (Reg.NET_PORT_STATUS + d.port) 2 0 ≠ 3 ∨ 4 ≤ d.port ∨ s.opened = false then s
  else if (badDg d) then discard s
  else if d.dtype = 1 ∧ !(respOf d) ∧ d.peerId = 0xFFFF ∧ d.cookie = 0 then handleHello s d
  else
    match s.peerAt d.ip d.udp with
    | none => discard s
    | some p =>
      if d.peerId ≠ p.id ∨ d.cookie ≠ p.cookie then discard s
      else
        let s := takeAck s p.id d
        if d.dtype = 0 then s
        else if seqLt d.seq p.rcvNext then sendAck (discard s) p.id
        else if !seqLt d.seq p.rcvLimit then discard s
        else
          match s.peer? p.id with
          | none => s
          | some q =>
            let held := if q.held.any (fun x => decide (x.seq = d.seq)) then q.held else q.held ++ [d]
            let s := s.putPeer { q with held := held, ackDue := true }
            deliver s p.id held.length

/-- A row of the protocol: a request of one TYPE arrives. -/
def clientRow (dtype : Nat) (d : Datagram) (s : State) : State :=
  if d.dtype = dtype ∧ !(respOf d) then receive s d else s

/-- ACK (11 R326). -/
def execAck (d : Datagram) (s : State) : Host.Outcome State Fault Refusal := .next (clientRow 0 d s)
/-- HELLO (11 R328). -/
def execHello (d : Datagram) (s : State) : Host.Outcome State Fault Refusal := .next (clientRow 1 d s)
/-- OPEN (11 R333). -/
def execOpen (d : Datagram) (s : State) : Host.Outcome State Fault Refusal := .next (clientRow 2 d s)
/-- SUBMIT (11 R337). -/
def execSubmit (d : Datagram) (s : State) : Host.Outcome State Fault Refusal := .next (clientRow 3 d s)
/-- CANCEL (11 R339). -/
def execCancel (d : Datagram) (s : State) : Host.Outcome State Fault Refusal := .next (clientRow 5 d s)
/-- CLOSE (11 R340). -/
def execClose (d : Datagram) (s : State) : Host.Outcome State Fault Refusal := .next (clientRow 6 d s)
/-- STATUS (11 R336). -/
def execStatus (d : Datagram) (s : State) : Host.Outcome State Fault Refusal := .next (clientRow 7 d s)
/-- FLOOR_PLAN (11 R348). -/
def execFloorPlan (d : Datagram) (s : State) : Host.Outcome State Fault Refusal := .next (clientRow 8 d s)
/-- LOAD_PACKAGE (11 R345). -/
def execLoadPackage (d : Datagram) (s : State) : Host.Outcome State Fault Refusal := .next (clientRow 9 d s)
/-- UNLOAD_PACKAGE (11 R346). -/
def execUnloadPackage (d : Datagram) (s : State) : Host.Outcome State Fault Refusal := .next (clientRow 10 d s)

/-- CLIENT_RESPONSE_DISCARD (11 R336): taken in sequence and acknowledged, then discarded and counted. -/
def execClientResponseDiscard (d : Datagram) (s : State) : Host.Outcome State Fault Refusal :=
  if (respOf d) ∨ d.dtype = 4 then .next (receive s d) else .next s

/-- DATAGRAM_DISCARDED (11 R323, R325, R328): the port's count or SES_DISCARDED. -/
def execDatagramDiscarded (x : Discarded) (s : State) : Host.Outcome State Fault Refusal :=
  match x with
  | .frame port => .next (if port < 4 then s.count (Reg.NET_RX_DISCARD + port) 1 else s)
  | .datagram d =>
    let known := match s.peerAt d.ip d.udp with
      | some p => decide (d.peerId = p.id) && decide (d.cookie = p.cookie)
      | none => decide (d.dtype = 1) && decide (d.peerId = 0xFFFF) && decide (d.cookie = 0)
    .next (if (badDg d) || !known then discard s else s)

/-! ## RESULT, close and timers -/

/-- The first unsent RESULT of an open session is sent when its peer's credit allows (11 R338). -/
def sendResult (s : State) (session : Nat) : State :=
  match s.session? session with
  | none => s
  | some x =>
    match x.peer, x.results.findIdx? (fun r => r.seqs.isNone) with
    | some pid, some i =>
      match s.peer? pid, x.results[i]? with
      | some p, some r =>
        if x.state = .detached ∨ !p.queue.isEmpty ∨ !seqLt p.sndNext p.limit then s
        else
          let body := beBytes 2 r.status ++ beBytes 2 x.id ++ beBytes 4 r.reqId ++ beBytes 4 r.index ++ beBytes 2 (if r.last then 1 else 0) ++
            beBytes 2 r.output.length ++ beBytes 8 r.round ++ beBytes 4 r.ctx ++ List.replicate 4 0 ++ r.output
          let q := sendMsg s pid 4 false body
          q.1.putSession { x with results := x.results.set i { r with seqs := some q.2 } }
      | _, _ => s
    | _, _ => s

/-- RESULT_SEND (11 R338). -/
def execResultSend (session : Nat) (s : State) : Host.Outcome State Fault Refusal := .next (sendResult s session)

/-- The session still has a step in a batch step that runs. -/
def State.sessionRuns (s : State) (sid : Nat) : Bool :=
  s.sage.batches.any (fun b => b.part.isSome && b.dropped.isNone && b.members.any (fun m => decide (m.session = sid)))

/-- A closing session whose last step has ended is FREE (11 R340): its sequences are flushed, the event is
recorded and the answer sent. -/
def completeClose (s : State) (session : Nat) : State :=
  match s.session? session with
  | none => s
  | some x =>
    match x.closing with
    | none => s
    | some c =>
      if s.sessionRuns session then s
      else
        let tiles := (s.tiles.filter (fun e => (SMap.get? e.2.kvSpace session).isSome)).map (·.1)
        let s := tiles.foldl (fun s ti => (closeSession s ti session).modTile ti (fun t => { t with kvSpace := SMap.del t.kvSpace session })) s
        let s := { s with client := { s.client with sessions := s.client.sessions.filter (fun y => y.id ≠ session) } }
        let s := recordEvent s 0x0705 0 session c.cause x.committed
        match c.answer with
        | none => s
        | some pid => answer s pid 6 (beBytes 2 stAccepted ++ [0, 0] ++ beBytes 4 x.committed)

/-- CLOSE_COMPLETE (11 R340). -/
def execCloseComplete (session : Nat) (s : State) : Host.Outcome State Fault Refusal := .next (completeClose s session)

/-- DETACH_TIMEOUT (11 R334). -/
def execDetachTimeout (session : Nat) (s : State) : Host.Outcome State Fault Refusal :=
  match s.session? session with
  | none => .next s
  | some x => if x.state = .detached then .next (startClose s session 1 none) else .next s

/-- ACK_TIMER (11 R327). -/
def execAckTimer (peer : Nat) (s : State) : Host.Outcome State Fault Refusal :=
  match s.peer? peer with
  | none => .next s
  | some p => if p.ackDue then .next (sendAck s peer) else .next s

/-- RETRANSMISSION_TIMEOUT (11 R327, Table 11.4): the datagram is sent again, or after 12 transmissions the peer is lost;
with no such datagram and credit 0, an ACK is sent (R326). -/
def execRetransmissionTimeout (peer seq : Nat) (s : State) : Host.Outcome State Fault Refusal :=
  match s.peer? peer with
  | none => .next s
  | some p =>
    match p.unacked.find? (fun g => decide (g.seq = seq)) with
    | none => if p.queue.isEmpty then .next s else .next (sendAck s peer)
    | some g =>
      if 12 ≤ g.tries then
        .next (removePeer (recordEvent s 0x0703 0 peer (s.sessionsOf peer) (p.timeout g.tries / 1000)) peer)
      else
        let g1 := { g with tries := g.tries + 1, sentAt := s.now }
        let s := (s.putPeer { p with unacked := p.unacked.map (fun x => if x.seq = seq then g1 else x) }).count Reg.SES_RETX 1
        .next (transmit s peer g1)

/-- SUBMIT_REASSEMBLY_TIMEOUT (11 R327). -/
def execSubmitReassemblyTimeout (peer : Nat) (s : State) : Host.Outcome State Fault Refusal :=
  match s.peer? peer with
  | none => .next s
  | some p =>
    match p.asm with
    | none => .next s
    | some m => if m.dtype = 3 then .next (dropMessage (setAsm s peer none) peer m) else .next s

/-! ## Client ports (11 R322, R323, R353) -/

/-- A port with an address record of the configuration image; another is not trained (17 R507). -/
def State.addressed (s : State) (port : Nat) : Bool :=
  (SMap.get? s.boot.records (0x0910 + port)).isSome || (SMap.get? s.boot.records (0x0920 + port)).isSome

/-- PORT_SIGNAL_DETECTED (11 R322): negotiation, then training; each start of training is an attempt. -/
def execPortSignalDetected (port : Nat) (s : State) : Host.Outcome State Fault Refusal :=
  let a := Reg.NET_PORT_STATUS + port
  if 4 ≤ port ∨ s.addressed port = false ∨ s.fld Reg.PWR_STATUS 2 0 ≠ 3 then .next s
  else if s.fld a 2 0 = 0 then .next (s.setFld a 2 0 1)
  else if s.fld a 2 0 = 1 ∨ s.fld a 2 0 = 2 then
    .next { s.setFld a 2 0 2 with client := { s.client with attempts := SMap.put s.client.attempts port (SMap.getD s.client.attempts port 0 + 1) } }
  else .next s

/-- PORT_UP (11 R322): a partner that offers neither 800GBASE-CR4 nor KR4 leaves the port DOWN. -/
def execPortUp (port phy : Nat) (s : State) : Host.Outcome State Fault Refusal :=
  let a := Reg.NET_PORT_STATUS + port
  if 4 ≤ port ∨ (s.fld a 2 0 ≠ 1 ∧ s.fld a 2 0 ≠ 2) then .next s
  else if phy ≠ 1 ∧ phy ≠ 2 then .next (s.setFld a 2 0 0)
  else
    let n := SMap.getD s.client.attempts port 0
    let s := (s.setFld a 2 0 3).setFld a 5 4 phy
    .next (recordEvent { s with client := { s.client with attempts := SMap.put s.client.attempts port 0 } } 0x0901 0 port phy n)

/-- Bring a client port down with a cause of Table 11.17. -/
def portDown (s : State) (port cause : Nat) : State :=
  let a := Reg.NET_PORT_STATUS + port
  let s := if cause = 1 then s.count (Reg.NET_FEC_UNCORR + port) 1 else s
  recordEvent ((s.setFld a 2 0 (if cause = 2 then 4 else 0)).setFld a 5 4 0) 0x0902 0 port cause 0

/-- PORT_DOWN (11 R353). -/
def execPortDown (port cause : Nat) (s : State) : Host.Outcome State Fault Refusal :=
  if 4 ≤ port ∨ 2 < cause ∨ s.fld (Reg.NET_PORT_STATUS + port) 2 0 ≠ 3 then .next s else .next (portDown s port cause)

/-- ICMP_ECHO_ARP_NS (11 R323). -/
def execIcmpEchoArpNs (port : Nat) (kind : EchoKind) (src : Nat) (s : State) : Host.Outcome State Fault Refusal :=
  if port < 4 ∧ s.fld (Reg.NET_PORT_STATUS + port) 2 0 = 3 then .next (s.emit (.echo port kind src)) else .next s

/-- Clear the counts of SES (11 R351). -/
def clearSes (s : State) : State := s.resetRegs ((List.range 4).map (· + Reg.SES_OPEN_REFUSED))

/-- SES_COUNT_CLR (11 R351). -/
def execSesCountClr (s : State) : Host.Outcome State Fault Refusal := .next (clearSes s)

/-- Clear the counts of NET (11 R351). -/
def clearNet (s : State) : State := s.resetRegs ((List.range 8).map (· + Reg.NET_RX_DISCARD))

/-- NET_COUNT_CLR (11 R351). -/
def execNetCountClr (s : State) : Host.Outcome State Fault Refusal := .next (clearNet s)

end Sys2Proof.Machine
end

