-- ==== Sys2Proof/Machine/Fabric.lean ====
section
/-! DEFINITION. The Walmin fabric (12): codewords and credits, ports, routing and the switch, discovery and maps. -/
namespace Sys2Proof.Machine

/-! ## Ports -/

def fpDown : Nat := 0
def fpTraining : Nat := 1
def fpInfo : Nat := 3
def fpUp : Nat := 4
def fpFenced : Nat := 5
def fpRejected : Nat := 6
def fpDisabled : Nat := 7

def State.fabAddr (s : State) : Nat := s.fld Reg.FAB_ADDR 13 0
def State.fport (s : State) (n : Nat) : FabPort := SMap.getD s.fab.ports n FabPort.init
def State.setFport (s : State) (n : Nat) (p : FabPort) : State := { s with fab := { s.fab with ports := SMap.put s.fab.ports n p } }
def State.fstate (s : State) (n : Nat) : Nat := s.fld (Reg.FAB_PORT_STATUS + n) 2 0
def State.setFstate (s : State) (n v : Nat) : State := s.setFld (Reg.FAB_PORT_STATUS + n) 2 0 v
/-- A port counts as up for routing: UP, its peer neither FENCED nor LEAVING (12 R355). -/
def State.fup (s : State) (n : Nat) : Bool :=
  decide (n < 12) && decide (s.fstate n = fpUp) && (match (s.fport n).peer with | some b => !b.leaving && !b.fenced | none => false)
/-- The half of a fabric port (12 R355). -/
def portHalf (n : Nat) : Half := if n < 6 then .west else .east
def State.upPorts (s : State) : List Nat := (List.range 12).filter s.fup
def State.peerAddr (s : State) (n : Nat) : Option Nat := match (s.fport n).peer with | some b => b.addr | none => none

/-- The number of this module among root candidates. -/
def selfId : Nat := Config.moduleId.toNat
def State.eligible (s : State) : Bool := decide (s.fld Reg.FAB_CTRL 31 31 = 1)

/-- The body of a LINK flit that a port sends now (12 Table 12.4). -/
def State.linkBody (s : State) (n : Nat) : LinkBody :=
  let p := s.fport n
  ⟨p.freed, if p.nakDue then some p.expected else none, selfId, n, s.fab.leaving, s.fenced (portHalf n), s.eligible,
    if s.fld Reg.FAB_ADDR 31 31 = 1 then some s.fabAddr else none, (s.reg Reg.FAB_FCN).toNat,
    match s.fab.cand with | some c => c.id | none => 2 ^ 64 - 1⟩

/-- Send a LINK flit (12 R360). -/
def sendLink (s : State) (n : Nat) : State :=
  let b := s.linkBody n
  let p := s.fport n
  (s.setFport n { p with nakDue := false, freedSent := p.freed }).emit (.linkFlit n b)

def sendCtrl (s : State) (port : Option Nat) (dst : Nat) (m : Ctrl) : State := s.emit (.ctrl port dst m)
/-- A message to the neighbours of every UP link. -/
def flood (s : State) (ports : List Nat) (m : Ctrl) : State := ports.foldl (fun s n => sendCtrl s (some n) 0 m) s

/-! ## Maps and routing (12 R371-R373) -/

def FabMap.entry? (m : FabMap) (a : Nat) : Option MapEntry := m.entries.find? (fun e => decide (e.addr = a))
/-- The link from u to v points up (12 R371). -/
def FabMap.up (m : FabMap) (u v : Nat) : Bool :=
  match m.entry? u, m.entry? v with
  | some a, some b => decide (b.level < a.level) || (decide (b.level = a.level) && decide (b.addr < a.addr))
  | _, _ => false

/-- The states (phase, module) reached in one more hop (12 R372). -/
def FabMap.hop (m : FabMap) (x : Nat × Nat) : List (Nat × Nat) :=
  match m.entry? x.2 with
  | none => []
  | some e => e.links.filterMap (fun l =>
      let nph := if m.up x.2 l.peer then 0 else 1
      if x.1 = 1 ∧ nph = 0 then none else some (nph, l.peer))

/-- Breadth-first distances over (phase, module); fuel bounds the distance. -/
def FabMap.bfs (m : FabMap) : Nat → Nat → List (Nat × Nat) → List ((Nat × Nat) × Nat) → List ((Nat × Nat) × Nat)
  | 0, _, _, acc => acc
  | fuel + 1, k, frontier, acc =>
    if frontier.isEmpty then acc
    else
      let acc := acc ++ frontier.map (fun x => (x, k))
      let next := ((frontier.flatMap m.hop).eraseDups).filter (fun x => !acc.any (fun y => decide (y.1 = x)))
      FabMap.bfs m fuel (k + 1) next acc

/-- legal_dist of 12 R372; 255 is no route. -/
def FabMap.dist (m : FabMap) (src ph t : Nat) : Nat :=
  let d := m.bfs (2 * m.entries.length + 1) 0 [(ph, src)] []
  (d.filter (fun x => decide (x.1.2 = t))).foldl (fun a x => min a x.2) 255

/-- Whether a port lies in MIN[phase][t] (true, true), EXTRA (true, false) or neither. -/
def State.portClass (s : State) (m : FabMap) (ph t n : Nat) : Bool × Bool :=
  match s.peerAddr n with
  | none => (false, false)
  | some w =>
    let up := m.up s.fabAddr w
    let here := m.dist s.fabAddr ph t
    let there := m.dist w (if up then 0 else 1) t
    if (ph = 0 ∨ !up) ∧ t ≠ s.fabAddr ∧ here ≠ 255 then (decide (there + 1 = here ∨ there = here), decide (there + 1 = here))
    else (false, false)

def State.minPorts (s : State) (ph t : Nat) : List Nat :=
  match s.fab.active with
  | none => []
  | some m => s.upPorts.filter (fun n => decide (s.portClass m ph t n = (true, true)))
def State.extraPorts (s : State) (ph t : Nat) : List Nat :=
  match s.fab.active with
  | none => []
  | some m => s.upPorts.filter (fun n => decide (s.portClass m ph t n = (true, false)))

/-- The ancestors of a module in the spanning tree, itself first; fuel bounds the depth. -/
def FabMap.chain (m : FabMap) : Nat → Nat → List MapEntry
  | 0, _ => []
  | fuel + 1, a =>
    match m.entry? a with
    | none => []
    | some e => e :: (match e.parent with | some p => FabMap.chain m fuel p | none => [])

/-- ESC[t]: the port to the child whose subtree holds t, and otherwise the parent port (12 R373). -/
def State.escPort (s : State) (t : Nat) : Option Nat :=
  match s.fab.active with
  | none => none
  | some m =>
    match m.entry? t with
    | none => none
    | some _ =>
      match (m.chain 64 t).find? (fun e => decide (e.parent = some s.fabAddr)) with
      | some c => (c.links.find? (fun l => decide (l.port = c.parentPort))).map (·.peerPort)
      | none =>
        match m.entry? s.fabAddr with
        | some e => if e.parent.isSome then some e.parentPort else none
        | none => none

/-! ## Sending on a port (12 R357, R358, R364) -/

/-- Receive buffers in flits (Table 12.7). -/
def vlBuffer (v : Nat) : Nat := [128, 128, 512, 64].getD v 0
/-- Flits of a packet (12 R361). -/
def flitsOf (p : FabPacket) : Nat := 1 + (p.plen - 96 + 119) / 120
def sub16 (a b : Nat) : Nat := (a + 65536 - b % 65536) % 65536
def bump16 (l : List Nat) (v n : Nat) : List Nat := l.modify v (fun x => (x + n) % 65536)

/-- Credits left on a VL of a port, in flits. -/
def FabPort.credits (p : FabPort) (v : Nat) : Nat := vlBuffer v - sub16 (p.sent.getD v 0) (p.peerFreed.getD v 0)
/-- A packet may start on a port: credits, and fewer than 256 codewords unacknowledged. -/
def FabPort.takes (p : FabPort) (x : FabPacket) : Bool := decide (flitsOf x ≤ p.credits x.vl) && decide (p.kept.length < 256)

/-- Send a packet on a port, in a codeword of its own (DESIGN CHOICE, log 26); a down hop sets PHASE. -/
def sendOn (s : State) (n : Nat) (x : FabPacket) : State :=
  let p := s.fport n
  let down := match s.fab.active, s.peerAddr n with
    | some m, some w => !m.up s.fabAddr w
    | _, _ => false
  let x := if down then { x with phase := 1 } else x
  let w : Codeword := ⟨true, true, p.nextSeq, p.expected, .head x :: List.replicate (flitsOf x - 1) (.data x.vl)⟩
  (s.setFport n { p with kept := p.kept ++ [w], nextSeq := (p.nextSeq + 1) % 512, sent := bump16 p.sent x.vl (flitsOf x) }).emit
    (.codeword n w)

/-- The port of a list with the most credits for a packet, then the lowest number. -/
def State.bestPort (s : State) (l : List Nat) (x : FabPacket) : Option Nat :=
  (l.filter (fun n => (s.fport n).takes x)).foldl (fun a n =>
    match a with
    | none => some n
    | some b => if (s.fport b).credits x.vl < (s.fport n).credits x.vl then some n else some b) none

/-- Record a dropped packet (12 R374, R378). -/
def fabDrop (s : State) (cause dst : Nat) : State :=
  let n := s.fab.dropsInRound + 1
  recordEvent ({ s with fab := { s.fab with dropsInRound := n } }.count Reg.FAB_DROPPED 1) 0x0807 0 cause dst n

/-- What becomes of a packet for another module: sent on a port, dropped, or waiting (12 R374 steps 1, 2, 4, 5). -/
inductive Hop where
  | send (port : Nat) (p : FabPacket)
  | escape (p : FabPacket)
  | drop
  | wait
deriving DecidableEq, Repr

def State.nextHop (s : State) (x : FabPacket) : Hop :=
  let onEsc (y : FabPacket) : Hop :=
    match s.escPort y.dst with
    | none => .drop
    | some n => if !s.fup n then .drop else if (s.fport n).takes y then .send n y else .wait
  if x.vl = 3 then onEsc x
  else
    let mn := s.minPorts x.phase x.dst
    match s.bestPort mn x with
    | some n => .send n x
    | none =>
      if mn.isEmpty && (s.extraPorts x.phase x.dst).isEmpty then
        match onEsc { x with vl := 3 } with
        | .drop => .drop
        | .send n y => .send n y
        | _ => .escape { x with vl := 3 }
      else .wait

/-! ## Delivery at this module (12 R365, R375) -/

/-- The NACK or acknowledgement of a WRITE. -/
def fabReply (s : State) (x : FabPacket) (ok : Bool) : FabPacket :=
  ⟨if ok then 2 else 3, 1, 0, 0, x.src, x.srcTi, s.fabAddr, x.dstTi, x.chan, 0, 0, 0, x.tag, [], false⟩

/-- The mesh writes of a fabric WRITE, of at most 256 bytes each. -/
def meshWrites (x : FabPacket) (id : Nat) : List Packet :=
  (List.range ((x.plen + 255) / 256)).map (fun k =>
    ⟨.write, 0, x.dstTi, 3, x.srcTi, x.addr + 256 * k, min 256 (x.plen - 256 * k), 0, x.chan, x.rtag,
      (x.pieces.filter (fun q => decide (q.idx / 8 = k))).map (fun q => { q with idx := q.idx % 8 }), false, id, some x.src, false, false⟩)

/-- A SEND's WRITE is answered at its source: acknowledgements count toward the SEND, a NACK refuses it (02 R72). -/
def finishRemote (s : State) (tag : Nat) (ok : Bool) : State :=
  match s.fab.outgoing.find? (fun r => decide (r.tag = tag)) with
  | none => s
  | some r =>
    let s := { s with fab := { s.fab with outgoing := s.fab.outgoing.filter (fun y => y.tag ≠ tag) } }
    match (s.tile r.ti).entry? r.ref with
    | none => s
    | some e =>
      if ok then s.setTile r.ti ((s.tile r.ti).putEntry { e with outstanding := e.outstanding - r.count })
      else tileFault s r.ti cSendRefused e.slot e.vaddr 0

/-- A packet for this module (12 R362, R363, R365, R375). -/
def deliverFab (s : State) (x : FabPacket) : State :=
  if x.crcBad then recordEvent s 0x080E 0 x.src x.dstTi 0
  else
    match x.ptype with
    | 1 =>
      let id := s.fab.nextTag
      let ws := meshWrites x id
      let s := { s with fab := { s.fab with nextTag := id + 1, inbound := s.fab.inbound ++ [RemoteInbound.mk id x ws.length false] } }
      s.sendAll ws
    | 2 => finishRemote s x.tag true
    | 3 => finishRemote s x.tag false
    | 4 =>
      if !s.usable x.dstTi then s
      else if x.rtag ≠ s.rtag then dropStale s x.dstTi
      else arriveSync s x.dstTi (x.addr % 2 ^ 16) (x.srcTi, some x.src)
    | 5 =>
      if !s.usable x.dstTi then s
      else if x.rtag ≠ s.rtag then dropStale s x.dstTi
      else releaseSync s x.dstTi x.tag
    | _ => s.count Reg.FAB_DROPPED 1

/-! ## The switch -/

/-- Count the flits of a packet freed on the port it came from, and report 16 more (12 R360). -/
def freeFlits (s : State) (n : Nat) (x : FabPacket) : State :=
  let p := s.fport n
  let p := { p with freed := bump16 p.freed x.vl (flitsOf x) }
  let s := s.setFport n p
  if 16 ≤ sub16 (p.freed.getD x.vl 0) (p.freedSent.getD x.vl 0) then sendLink s n else s

/-- Move a packet that waits at a port (none: at this module's own engines): answers whether it has left. A WRITE dropped
at its source is answered with NACK (12 R374 step 5). -/
def movePacket (s : State) (origin : Option Nat) (x : FabPacket) : State × Bool :=
  if x.dst = s.fabAddr then (deliverFab s x, true)
  else
    match s.nextHop x with
    | .send n y => (let s := if y.vl = 3 ∧ x.vl ≠ 3 then s.count Reg.FAB_ESCAPED 1 else s; (sendOn s n y, true))
    | .drop =>
      if origin.isNone ∧ x.ptype = 1 then (finishRemote s x.tag false, true) else (fabDrop s 0 x.dst, true)
    | .escape _ | .wait => (s, false)

/-- Put a packet into a port's buffer or the source queue, and move it on if it can go. -/
def switchPacket (s : State) (origin : Option Nat) (x : FabPacket) : State :=
  let r := movePacket s origin x
  if r.2 then
    match origin with
    | some n => freeFlits r.1 n x
    | none => r.1
  else
    match origin with
    | some n => s.setFport n { s.fport n with buffers := (s.fport n).buffers ++ [(x.vl, x)] }
    | none => { s with fab := { s.fab with transit := s.fab.transit ++ [x] } }

/-- Take a packet out of where it waits. -/
def unqueue (s : State) (x : FabPacket) : Option (State × Option Nat) :=
  if s.fab.transit.contains x then some ({ s with fab := { s.fab with transit := s.fab.transit.erase x } }, none)
  else
    match (List.range 12).find? (fun n => (s.fport n).buffers.any (fun y => decide (y.2 = x))) with
    | none => none
    | some n =>
      let p := s.fport n
      some (s.setFport n { p with buffers := p.buffers.eraseP (fun y => decide (y.2 = x)) }, some n)

/-- Try every waiting packet again. -/
def retryAll (s : State) : State :=
  let own := s.fab.transit
  let held := (List.range 12).flatMap (fun n => (s.fport n).buffers.map (·.2))
  (held ++ own).foldl (fun s x =>
    match unqueue s x with
    | none => s
    | some (s1, o) => switchPacket s1 o x) s

/-- A waiting packet leaves through a port with its new form. -/
def leaveBy (s : State) (x y : FabPacket) (n : Nat) : State :=
  match unqueue s x with
  | none => s
  | some (s1, o) =>
    let s2 := sendOn s1 n y
    match o with
    | some m => freeFlits s2 m x
    | none => s2

/-- MISROUTE_WAIT (12 R374 step 3): without credit on MIN, and fewer than two misroutes, the packet takes an EXTRA port. -/
def execMisrouteWait (p : FabPacket) (s : State) : Host.Outcome State Fault Refusal :=
  if (unqueue s p).isNone ∨ p.vl = 3 ∨ 2 ≤ p.misroute ∨ (s.bestPort (s.minPorts p.phase p.dst) p).isSome then .next s
  else
    match s.bestPort (s.extraPorts p.phase p.dst) p with
    | none => .next s
    | some n => .next ((leaveBy s p { p with misroute := p.misroute + 1 } n).count Reg.FAB_MISROUTED 1)

/-- ESCAPE_WAIT (12 R374 step 4): the packet moves to VL 3 on its escape route. -/
def execEscapeWait (p : FabPacket) (s : State) : Host.Outcome State Fault Refusal :=
  if (unqueue s p).isNone ∨ p.vl = 3 then .next s
  else
    let y := { p with vl := 3 }
    match s.nextHop y with
    | .send n z => .next ((leaveBy s p z n).count Reg.FAB_ESCAPED 1)
    | .drop =>
      match unqueue s p with
      | none => .next s
      | some (s1, o) =>
        .next (match o with
          | some m => freeFlits (fabDrop s1 0 p.dst) m p
          | none => if p.ptype = 1 then finishRemote s1 p.tag false else fabDrop s1 0 p.dst)
    | _ => .next s

/-- FABRIC_STALL (12 R383): the packets buffered on a VL of a port are discarded and their credits returned. -/
def execFabricStall (port vl : Nat) (s : State) : Host.Outcome State Fault Refusal :=
  let p := s.fport port
  let xs := p.buffers.filter (fun y => decide (y.1 = vl))
  if 12 ≤ port ∨ xs.isEmpty then .next s
  else
    let s := s.setFport port { p with buffers := p.buffers.filter (fun y => y.1 ≠ vl) }
    let s := xs.foldl (fun s y => freeFlits s port y.2) s
    .next (recordEvent s 0x0808 0 port vl xs.length)

/-- FAB_WRITE (12 R375). -/
def execFabWrite (p : FabPacket) (s : State) : Host.Outcome State Fault Refusal :=
  .next (if p.ptype = 1 then switchPacket s none p else s)
/-- FAB_WRITE_ACK (12 R362). -/
def execFabWriteAck (p : FabPacket) (s : State) : Host.Outcome State Fault Refusal :=
  .next (if p.ptype = 2 then switchPacket s none p else s)
/-- FAB_NACK (12 R362). -/
def execFabNack (p : FabPacket) (s : State) : Host.Outcome State Fault Refusal :=
  .next (if p.ptype = 3 then switchPacket s none p else s)
/-- FAB_SYNC (12 R375). -/
def execFabSync (p : FabPacket) (s : State) : Host.Outcome State Fault Refusal :=
  .next (if p.ptype = 4 then switchPacket s none p else s)
/-- FAB_SYNC_RELEASE (12 R362). -/
def execFabSyncRelease (p : FabPacket) (s : State) : Host.Outcome State Fault Refusal :=
  .next (if p.ptype = 5 then switchPacket s none p else s)

/-! ## PORT packets of the mesh (12 R375, 02 R72, R74) -/

/-- The WRITE of merged PORT packets of one SEND. -/
def mergedWrite (s : State) (ps : List Packet) : State :=
  match ps.head? with
  | none => s
  | some p =>
    let pieces := ps.flatMap (fun q => q.pieces.map (fun x => { x with idx := x.idx + (q.addr - p.addr) / 32 }))
    let plen := (ps.map (·.len)).foldl (· + ·) 0
    let tag := s.fab.nextTag
    let dst := p.remote.getD 0
    let x : FabPacket := ⟨1, 2, 0, 0, dst, p.tag % 4096, s.fabAddr, p.srcId, p.chan, p.rtag, plen, p.addr, tag, pieces, false⟩
    let s := { s with fab := { s.fab with merge := [], nextTag := tag + 1, outgoing := s.fab.outgoing ++ [⟨tag, p.srcId, p.ref, ps.length⟩] } }
    switchPacket s none x

/-- Whether a packet goes on from another: the same SEND, channel and contiguous addresses. -/
def continues (a b : Packet) : Bool :=
  decide (a.srcId = b.srcId) && decide (a.ref = b.ref) && decide (a.chan = b.chan) && decide (a.remote = b.remote) &&
    decide (a.tag = b.tag) && decide (b.addr = a.addr + a.len)

/-- PORT_PACKET (12 R375): SYNC arrivals and releases become packets of their type; data merges with the packets of its
SEND that follow it, into WRITEs of up to 576 bytes. -/
def execPortPacket (p : Packet) (s : State) : Host.Outcome State Fault Refusal :=
  let s := s.arrive p
  let dst := p.remote.getD 0
  if p.tag / 4096 = 1 then
    .next (switchPacket s none ⟨4, 0, 0, 0, dst, p.tag % 4096, s.fabAddr, p.srcId, 0, p.rtag, 0, p.len * 2 ^ 32 + p.addr % 2 ^ 16,
      p.addr % 2 ^ 16, [], false⟩)
  else if p.tag / 4096 = 2 then
    .next (switchPacket s none ⟨5, 1, 0, 0, dst, p.tag % 4096, s.fabAddr, p.srcId, 0, p.rtag, 0, 0, p.addr % 2 ^ 16, [], false⟩)
  else
    let held := s.fab.merge
    let size := (held.map (·.len)).foldl (· + ·) 0
    let joins := match held.getLast? with
      | some q => continues q p && decide (size + p.len ≤ 576)
      | none => false
    let s := if joins || held.isEmpty then s else mergedWrite s held
    let now := if joins then held ++ [p] else [p]
    let total := (now.map (·.len)).foldl (· + ·) 0
    let more := s.mesh.any (fun q => decide (q.ptype = .port) && continues p q && decide (total + q.len ≤ 576))
    if more then .next { s with fab := { s.fab with merge := now } } else .next (mergedWrite s now)

/-- An answer to a mesh write of a fabric WRITE reaches the port engine; the last one answers the WRITE (12 R375). -/
def remoteAck (s : State) (p : Packet) (ok : Bool) : State :=
  match s.fab.inbound.find? (fun x => decide (x.id = p.ref)) with
  | none => s
  | some x =>
    let y := { x with left := x.left - 1, refused := x.refused || !ok }
    let rest := s.fab.inbound.filter (fun z => z.id ≠ x.id)
    if y.left = 0 then switchPacket { s with fab := { s.fab with inbound := rest } } none (fabReply s x.pkt (!y.refused))
    else { s with fab := { s.fab with inbound := rest ++ [y] } }

/-- WRITE_ACK (02 R72): a write of a SEND has been acknowledged, or one that the fabric port made. -/
def execWriteAck (p : Packet) (s : State) : Host.Outcome State Fault Refusal :=
  let s := s.arrive p
  if p.dstKind = 3 then .next (remoteAck s p true)
  else
    let t := s.tile p.dstId
    match t.entry? p.ref with
    | none => .next s
    | some e => .next (s.setTile p.dstId (t.putEntry { e with outstanding := e.outstanding - 1 }))

/-- NOC_NACK (02 R72; 08 R236): a refused write makes its SEND raise SEND_REFUSED; a controller's NACK raises TRANSLATION at
the requester; the fabric port answers a refused WRITE with NACK. -/
def execNocNack (p : Packet) (s : State) : Host.Outcome State Fault Refusal :=
  let s := s.arrive p
  if p.dstKind = 3 then .next (remoteAck s p false)
  else
    match (s.tile p.dstId).entry? p.ref with
    | none => .next s
    | some e =>
      if e.cls = 0x0D then .next (tileFault s p.dstId cSendRefused e.slot e.vaddr (p.addr % 2 ^ 48))
      else .next (tileFault s p.dstId cTranslation e.slot e.vaddr (p.addr % 2 ^ 48))

/-! ## LINKS and link loss -/

/-- This module's UP ports (12 Table 12.9). -/
def State.linkRecs (s : State) : List LinkRec :=
  s.upPorts.filterMap (fun n => (s.fport n).peer.map (fun b => ⟨n, b.port, b.moduleId⟩))

/-- The parent port of this module. -/
def State.parentPort (s : State) : Option Nat :=
  match s.fab.active with
  | none => none
  | some m =>
    match m.entry? s.fabAddr with
    | none => none
    | some e => if e.parent.isSome then some e.parentPort else none

def State.isRoot (s : State) : Bool := decide (s.fld Reg.FAB_STATUS 31 31 = 1)

/-- The neighbours that an entry's LINKS name and the map does not hold, by port. -/
def newPeers (l : List RootEntry) (e : RootEntry) : List (Nat × LinkRec) :=
  match e.recs with
  | none => []
  | some rs => ((rs.filter (fun r => !l.any (fun x => decide (x.entry.moduleId = r.peerId)))).mergeSort (fun a b => decide (a.port ≤ b.port))).map
      (fun r => (e.entry.addr, r))

/-- Give addresses to new neighbours: in order of parent address and port, each the lowest free one (12 R369, R376); a
first discovery leaves no gap, so the lowest free one is the next. -/
def assignNew (l : List RootEntry) : List (Nat × LinkRec) → List RootEntry × List (Nat × MapEntry)
  | [] => (l, [])
  | (pa, r) :: rest =>
    if l.any (fun x => decide (x.entry.moduleId = r.peerId)) then assignNew l rest
    else
      let used := l.map (·.entry.addr)
      let a := ((List.range (used.length + 1)).find? (fun i => !used.contains i)).getD 0
      let lv := match l.find? (fun x => decide (x.entry.addr = pa)) with | some x => x.entry.level + 1 | none => 0
      let e : MapEntry := ⟨r.peerId, a, lv, true, false, false, some pa, r.peerPort, []⟩
      let q := assignNew (l ++ [⟨e, none⟩]) rest
      (q.1, (pa, e) :: q.2)

/-- The address of a module in the table a root builds. -/
def addrOf (l : List RootEntry) (id : Nat) : Option Nat := (l.find? (fun x => decide (x.entry.moduleId = id))).map (·.entry.addr)

/-- Levels and parents over the reported links: each module not yet reached joins at the next level under its
lowest-addressed neighbour, over that one's lowest-numbered link to it (12 R369). -/
def treeOf (l : List RootEntry) : Nat → List MapEntry → List MapEntry
  | 0, done => done
  | fuel + 1, done =>
    let top := (done.map (·.level)).foldl max 0
    let level := (done.filter (fun e => decide (e.level = top))).mergeSort (fun a b => decide (a.addr ≤ b.addr))
    let new := level.foldl (fun (acc : List MapEntry) p =>
      match l.find? (fun x => decide (x.entry.addr = p.addr)) with
      | some ⟨_, some rs⟩ => (rs.mergeSort (fun a b => decide (a.port ≤ b.port))).foldl (fun (acc : List MapEntry) r =>
          match l.find? (fun x => decide (x.entry.moduleId = r.peerId)) with
          | some y =>
            if done.any (fun e => decide (e.addr = y.entry.addr)) || acc.any (fun e => decide (e.addr = y.entry.addr)) then acc
            else acc ++ [{ y.entry with level := top + 1, parent := some p.addr, parentPort := r.peerPort }]
          | none => acc) acc
      | _ => acc) []
    if new.isEmpty then done else treeOf l fuel (done ++ new)

/-- The map of a root that has every module's LINKS (12 R369, R370). -/
def buildMap (root : Nat) (fcn : Nat) (l : List RootEntry) : FabMap :=
  match l.find? (fun x => decide (x.entry.moduleId = root)) with
  | none => ⟨fcn, []⟩
  | some r =>
    let es := treeOf l (l.length + 1) [{ r.entry with level := 0, parent := none, parentPort := 0 }]
    let links (e : MapEntry) : List MapLink :=
      match l.find? (fun x => decide (x.entry.addr = e.addr)) with
      | some ⟨_, some rs⟩ => rs.filterMap (fun x =>
          match addrOf l x.peerId with
          | some a => if es.any (fun y => decide (y.addr = a)) then some ⟨x.port, x.peerPort, a⟩ else none
          | none => none)
      | _ => []
    ⟨fcn, (es.map (fun e => { e with links := links e })).mergeSort (fun a b => decide (a.addr ≤ b.addr))⟩

/-- The root goes on with what it knows: new neighbours are addressed; with every LINKS in, the map is sent (12 R369,
R370, R376). -/
def rootStep (s : State) : State :=
  let l := s.fab.building
  let fresh := (l.mergeSort (fun a b => decide (a.entry.addr ≤ b.entry.addr))).flatMap (newPeers l)
  if l.any (fun e => e.recs.isNone) && fresh.isEmpty then s
  else
    let q := assignNew l fresh
    if !q.2.isEmpty then
      let s := { s with fab := { s.fab with building := q.1 } }
      q.2.foldl (fun s x => sendCtrl s none x.1 (.assign x.2.moduleId x.2.addr x.2.level x.2.parentPort)) s
    else
      let fcn := (match s.fab.next, s.fab.active with | some m, _ => m.fcn | none, some m => m.fcn | none, none => 0) + 1
      let m := buildMap selfId fcn l
      let keep := l.filter (fun e => m.entries.any (fun y => decide (y.addr = e.entry.addr)))
      let s := { s with fab := { s.fab with building := keep, next := some m, ready := [s.fabAddr] } }
      sendCtrl (s.setFld Reg.FAB_STATUS 29 29 1) none 0x3FFF (.map fcn m.entries)

/-- A module's LINKS as the root takes them. -/
def rootLinks (s : State) (src : Nat) (rs : List LinkRec) : State :=
  rootStep { s with fab := { s.fab with
    building := s.fab.building.map (fun e => if e.entry.addr = src then { e with recs := some rs } else e) } }

/-- Report this module's links: to the root, or as the root (12 R369, R378). -/
def reportLinks (s : State) : State :=
  if s.isRoot then rootLinks s s.fabAddr s.linkRecs
  else if s.fld Reg.FAB_ADDR 31 31 = 1 then sendCtrl s s.parentPort 0 (.links s.linkRecs)
  else s

/-- A port goes DOWN with a cause of Table 12.18: its buffered packets and replay buffer are lost, the loss recorded and
the links reported (12 R367, R378). -/
def linkDown (s : State) (n cause : Nat) : State :=
  let p := s.fport n
  let lost := p.buffers.map (·.2)
  let s := s.setFport n { FabPort.init with reversed := p.reversed }
  let s := (s.setFstate n fpDown).setFld (Reg.FAB_PORT_STATUS + n) 10 9 0
  let s := lost.foldl (fun s x => fabDrop s 2 x.dst) s
  reportLinks (recordEvent s 0x0802 0 n cause 0)

/-- PORT_EN takes effect on the ports (12 Table 12.3, R391): a port whose bit is clear is DISABLED, and one enabled again
is DOWN. A fenced port stays so. -/
def settlePort (s : State) (n : Nat) : State :=
  let on := (s.fld Reg.FAB_CTRL 11 0).testBit n
  let st := s.fstate n
  if on then (if st = fpDisabled then s.setFstate n fpDown else s)
  else if st = fpDisabled ∨ st = fpFenced then s
  else (if st = fpDown then s else linkDown s n 0).setFstate n fpDisabled

def settlePorts (s : State) : State := (List.range 12).foldl settlePort s

/-- FAB_LINK_DOWN (12 R378). -/
def execFabLinkDown (port cause : Nat) (s : State) : Host.Outcome State Fault Refusal :=
  if 12 ≤ port ∨ 4 < cause ∨ [fpDown, fpDisabled, fpFenced].contains (s.fstate port) then .next s else .next (linkDown s port cause)

/-- FAB_SIGNAL_DETECTED (12 R367). -/
def execFabSignalDetected (port : Nat) (s : State) : Host.Outcome State Fault Refusal :=
  if port < 12 ∧ s.fstate port = fpDown ∧ (s.fld Reg.FAB_CTRL 11 0).testBit port ∧ s.fld Reg.PWR_STATUS 2 0 = 3 then .next (s.setFstate port fpTraining) else .next s

/-- FAB_TRAINING_DONE (12 R367): ALIGNING and INFO follow, where the port sends its LINK flits; the peer's brings it UP or
REJECTED. -/
def execFabTrainingDone (port : Nat) (reversed : Bool) (s : State) : Host.Outcome State Fault Refusal :=
  if port < 12 ∧ s.fstate port = fpTraining then
    let s := (s.setFport port { FabPort.init with reversed := reversed }).setFld (Reg.FAB_PORT_STATUS + port) 11 11 (if reversed then 1 else 0)
    .next (sendLink (s.setFstate port fpInfo) port)
  else .next s

/-- The link pattern of Table 12.2 that a peer's information breaks (12 R356). -/
def State.brokenPattern (s : State) (n : Nat) (b : LinkBody) : Option Nat :=
  if b.moduleId = selfId then some 2
  else if 6 ≤ (s.upPorts.filter (fun m => decide (m ≠ n) && (match (s.fport m).peer with | some c => decide (c.moduleId = b.moduleId) | none => false))).length then some 3
  else if s.fld Reg.FAB_ADDR 31 31 = 1 ∧ 62 ≤ s.fld Reg.FAB_ADDR 21 16 ∧ b.addr.isNone then some 5
  else none

/-- A port in INFO hears its peer (12 R356, R367). -/
def linkInfo (s : State) (n : Nat) (b : LinkBody) : State :=
  match s.brokenPattern n b with
  | some k => recordEvent (s.setFstate n fpRejected) 0x0803 0 n k (b.moduleId % 2 ^ 32)
  | none =>
    let a := Reg.FAB_PORT_STATUS + n
    let s := ((s.setFld a 29 16 (b.addr.getD 0)).setFld a 15 12 b.port).setFstate n fpUp
    reportLinks (recordEvent s 0x0801 0 n (b.addr.getD 0) b.port)

/-- Replay codewords from a CW_SEQ on; the eighth replay without progress brings the port down (12 R358). -/
def replay (s : State) (n seq : Nat) : State :=
  let p := s.fport n
  let ws := p.kept.dropWhile (fun w => w.seq ≠ seq)
  if ws.isEmpty then s
  else
    let s := s.count (Reg.FAB_PORT_REPLAY + n) 1
    if 8 ≤ p.replays then linkDown s n 1
    else ws.foldl (fun s w => s.emit (.codeword n { w with ack := p.expected })) (s.setFport n { p with replays := p.replays + 1 })

/-- Drop the codewords that an ACK covers. -/
def takeCwAck (p : FabPort) (ack : Nat) : FabPort :=
  let rest := if ack = p.nextSeq then [] else p.kept.dropWhile (fun w => w.seq ≠ ack)
  if ack ≠ p.nextSeq ∧ rest.isEmpty then p
  else if rest.length < p.kept.length then { p with kept := rest, replays := 0 } else p

/-- A LINK flit (12 R360): credits, replay, the peer's information; LEAVING or FENCED brings the port down. -/
def takeLink (s : State) (n : Nat) (b : LinkBody) : State :=
  let st := s.fstate n
  if 12 ≤ n ∨ (st ≠ fpUp ∧ st ≠ fpInfo) then s
  else
    let s := s.setFport n { s.fport n with peerFreed := b.freed, peer := some b }
    if st = fpInfo then linkInfo s n b
    else if b.leaving || b.fenced then linkDown s n 3
    else
      let s := match b.nak with
        | some q => replay s n q
        | none => s
      retryAll (s.setFld (Reg.FAB_PORT_STATUS + n) 29 16 (b.addr.getD 0))

/-- LINK_FLIT (12 R360). -/
def execLinkFlit (port : Nat) (b : LinkBody) (s : State) : Host.Outcome State Fault Refusal := .next (takeLink s port b)

/-- LINK_FLIT_TIMER (12 R360). -/
def execLinkFlitTimer (port : Nat) (s : State) : Host.Outcome State Fault Refusal :=
  if port < 12 ∧ (s.fstate port = fpUp ∨ s.fstate port = fpInfo) then .next (sendLink s port) else .next s

/-- CODEWORD_REPLAY_TIMEOUT (12 R358). -/
def execCodewordReplayTimeout (port : Nat) (s : State) : Host.Outcome State Fault Refusal :=
  match (s.fport port).kept with
  | [] => .next s
  | w :: _ => .next (replay s port w.seq)

/-- Flits held in a VL's buffer. -/
def FabPort.held (p : FabPort) (v : Nat) : Nat :=
  ((p.buffers.filter (fun y => decide (y.1 = v))).map (fun y => flitsOf y.2)).foldl (· + ·) 0

/-- A flit of an accepted codeword: a HEAD brings its packet, which needs buffer room (12 R364, R366). -/
def takeFlit (s : State) (n : Nat) (f : Flit) : State :=
  if s.fstate n ≠ fpUp then s
  else
    match f with
    | .link _ | .data _ => s
    | .head x =>
      if vlBuffer x.vl < (s.fport n).held x.vl + flitsOf x then linkDown (recordEvent s 0x080D 0 n x.vl 0) n 4
      else if !([1, 2, 3, 4, 5, 0x10].contains x.ptype) then freeFlits (fabDrop s 3 x.dst) n x
      else switchPacket s (some n) x

/-- CODEWORD (12 R358): LINK flits act at once; NEW codewords are accepted in sequence, others NAKed; more than 16
uncorrectable in 1 ms bring the port down (R367). -/
def execCodeword (port : Nat) (w : Codeword) (s : State) : Host.Outcome State Fault Refusal :=
  let st := s.fstate port
  if 12 ≤ port ∨ (st ≠ fpUp ∧ st ≠ fpInfo) then .next s
  else
    let p := s.fport port
    if !w.ok then
      let recent := s.now :: p.uncorr.filter (fun t => decide (s.now < t + 1000000))
      let s := s.count (Reg.FAB_PORT_FEC_UNCORR + port) 1
      let s := s.setFport port { p with uncorr := recent, nakDue := true, discarding := true }
      if 16 < recent.length then .next (linkDown s port 2) else .next (sendLink s port)
    else
      let s := s.setFport port (takeCwAck p w.ack)
      let s := w.flits.foldl (fun s f => match f with | .link b => takeLink s port b | _ => s) s
      if !w.isNew then .next s
      else
        let p := s.fport port
        if w.seq = p.expected then
          let s := s.setFport port { p with expected := (p.expected + 1) % 512, discarding := false }
          .next (w.flits.foldl (fun s f => takeFlit s port f) s)
        else if p.discarding then .next s
        else .next (sendLink (s.setFport port { p with discarding := true, nakDue := true }) port)

/-! ## Roots -/

def setCand (s : State) (c : Option Candidate) : State := { s with fab := { s.fab with cand := c } }
/-- FCN of the map in force. -/
def State.fcn (s : State) : Nat := (s.reg Reg.FAB_FCN).toNat

/-- Announce the candidate on every UP link (12 R368). -/
def announce (s : State) : State :=
  match s.fab.cand with
  | none => s
  | some c => flood s s.upPorts (.rootAnnounce c.id s.fcn)

/-- NO_ROOT changes (12 R380). -/
def setNoRoot (s : State) (on : Bool) : State :=
  if decide (s.fld Reg.FAB_STATUS 30 30 = 1) = on then s
  else
    let n := match s.fab.active with | some m => m.entries.length | none => 1
    recordEvent (s.setFld Reg.FAB_STATUS 30 30 (if on then 1 else 0)) 0x080C 0 (if on then 1 else 0) n 0

/-- A candidate takes over: a root that hears a lower one stops acting. -/
def newCand (s : State) (id : Nat) : State :=
  let s := setCand s (some ⟨id⟩)
  let s := if s.isRoot && decide (id ≠ selfId) then s.setFld Reg.FAB_STATUS 31 31 0 else s
  announce (setNoRoot s false)

/-- ROOT_ANNOUNCE (12 R368): the candidate heard again starts its 30 ms afresh, which CANDIDATE_EXPIRY stands for. -/
def execRootAnnounce (port candidate _fcn : Nat) (s : State) : Host.Outcome State Fault Refusal :=
  if !s.fup port then .next s
  else
    match s.fab.cand with
    | none => .next (newCand s candidate)
    | some c =>
      if candidate < c.id then .next (newCand s candidate) else .next s

/-- ROOT_ANNOUNCE_TIMER (12 R368). -/
def execRootAnnounceTimer (s : State) : Host.Outcome State Fault Refusal := .next (announce s)

/-- CANDIDATE_EXPIRY (12 R368, R380): the module itself is the candidate where it is eligible; else there is none. -/
def execCandidateExpiry (s : State) : Host.Outcome State Fault Refusal :=
  match s.fab.cand with
  | none => .next s
  | some c =>
    if c.id = selfId then .next s
    else if s.eligible then .next (newCand s selfId)
    else .next (setNoRoot (setCand s none) true)

/-- An eligible module whose candidate is itself acts as root: it keeps the addresses
of a map it holds, and otherwise takes address 0 and starts to build one (12 R368, R369, R379). -/
def becomeRoot (s : State) : State :=
  match s.fab.cand with
  | none => s
  | some c =>
    if c.id ≠ selfId ∨ !s.eligible ∨ s.isRoot then s
    else
      let old := (s.reg Reg.FAB_ROOT_ID_LO).toNat
      let s := (s.setFld Reg.FAB_STATUS 31 31 1).setReg64 Reg.FAB_ROOT_ID_LO selfId
      let s := setNoRoot (recordEvent s 0x0804 0 (selfId % 2 ^ 32) old s.fcn) false
      match s.fab.active with
      | some m =>
        let keep (e : MapEntry) : RootEntry :=
          ⟨e, if e.addr = s.fabAddr then some s.linkRecs
              else some (e.links.filterMap (fun l => (m.entry? l.peer).map (fun x => ⟨l.port, l.peerPort, x.moduleId⟩)))⟩
        (rootStep { s with fab := { s.fab with building := m.entries.map keep } })
      | none =>
        let s := (s.setFld Reg.FAB_ADDR 31 31 1).setFld Reg.FAB_ADDR 21 0 0
        let e : MapEntry := ⟨selfId, 0, 0, true, s.fenced .west, s.fenced .east, none, 0, []⟩
        (rootStep { s with fab := { s.fab with building := [⟨e, some s.linkRecs⟩] } })

/-- ROOT_CHANGED (12 R368, R369, R379). -/
def execRootChanged (s : State) : Host.Outcome State Fault Refusal := .next (becomeRoot s)

/-! ## Maps -/

/-- MAP (12 R370): the module keeps the map, computes its tables and answers MAP_READY. -/
def execMap (fcn : Nat) (entries : List MapEntry) (s : State) : Host.Outcome State Fault Refusal :=
  if (match s.fab.active with | some m => decide (fcn ≤ m.fcn) | none => false) then .next s
  else
    let s := { s with fab := { s.fab with next := some ⟨fcn, entries⟩ } }
    .next (sendCtrl (s.setFld Reg.FAB_STATUS 29 29 1) s.parentPort 0 (.mapReady fcn))

/-- LINKS (12 R369): the root takes them; another module passes them on toward it. -/
def execLinks (src : Nat) (recs : List LinkRec) (s : State) : Host.Outcome State Fault Refusal :=
  if s.isRoot then .next (rootLinks s src recs) else .next (sendCtrl s s.parentPort src (.links recs))

/-- The cause of a new map (Table 12.18): 0 cold, 1 insertion, 2 removal, 3 failure, 4 merge. -/
def mapCause (old : Option FabMap) (m : FabMap) : Nat :=
  match old with
  | none => 0
  | some o =>
    let new := (m.entries.filter (fun e => !o.entries.any (fun x => decide (x.moduleId = e.moduleId)))).length
    let gone := (o.entries.filter (fun e => !m.entries.any (fun x => decide (x.moduleId = e.moduleId)))).length
    if 1 < new then 4 else if new = 1 then 1 else if 0 < gone then 2
    else if (o.entries.map (·.links.length)).foldl (· + ·) 0 ≤ (m.entries.map (·.links.length)).foldl (· + ·) 0 then 1 else 3

end Sys2Proof.Machine
end

