-- ==== Sys2Proof/Machine/Ensemble.lean ====
section
/-! DEFINITION. Ensembles (12 R384-R388, 10 R308, R316), and the changes of a fabric that end them: activation of a map,
addresses, removal. -/
namespace Sys2Proof.Machine

/-! ## Slots -/

def ensReg (base e : Nat) : Nat := base + 64 * e
def esFree : Nat := 0
def esForming : Nat := 1
def esLeader : Nat := 2
def esMember : Nat := 3
def esBroken : Nat := 4
def esFailed : Nat := 5

def State.ensState (s : State) (e : Nat) : Nat := s.fld (ensReg Reg.FAB_ENS_CTRL e) 2 0
def State.setEnsState (s : State) (e v : Nat) : State := s.setFld (ensReg Reg.FAB_ENS_CTRL e) 2 0 v
def State.ensId (s : State) (e : Nat) : Nat := s.fld (ensReg Reg.FAB_ENS_CTRL e) 23 16
def State.ensModel (s : State) (e : Nat) : Nat := (s.reg (ensReg Reg.FAB_ENS_MODEL e)).toNat
def State.ensLeader (s : State) (e : Nat) : Nat := s.fld (ensReg Reg.FAB_ENS_LEADER e) 13 0
/-- The member addresses of a slot. -/
def State.ensMembers (s : State) (e : Nat) : List Nat :=
  (List.range (s.fld (ensReg Reg.FAB_ENS_CTRL e) 14 8)).map (fun i =>
    s.fld (ensReg Reg.FAB_ENS_MEMBER e + i / 2) (if i % 2 = 0 then 13 else 29) (if i % 2 = 0 then 0 else 16))
def State.ensSlot (s : State) (e : Nat) : EnsSlot := SMap.getD s.fab.slots e EnsSlot.init
def State.setEnsSlot (s : State) (e : Nat) (x : EnsSlot) : State := { s with fab := { s.fab with slots := SMap.put s.fab.slots e x } }
/-- The slot of an ensemble in one of some states. -/
def State.slotOf (s : State) (states : List Nat) (p : Nat → Bool) : Option Nat :=
  (List.range 8).find? (fun e => states.contains (s.ensState e) && p e)

/-- Break an ensemble (12 R387): the slot is BROKEN, its reservation ends at the next boundary; the leader ends its
requests, reports to its sessions and tells its members. -/
def breakEns (s : State) (e cause member : Nat) : State :=
  let st := s.ensState e
  if st ≠ esLeader ∧ st ≠ esMember ∧ st ≠ esForming then s
  else
    let model := s.ensModel e
    let s := (s.setEnsState e esBroken).setEnsSlot e { s.ensSlot e with release := true, toLeader := false }
    let s := recordEvent s 0x080A 0 (s.ensId e) cause member
    if st = esMember then s
    else
      let s := (s.ensMembers e).foldl (fun s a => sendCtrl s none a (.ensEnd (s.ensId e) cause)) s
      (s.client.sessions.filter (fun x => decide (x.model = model))).foldl (fun s x =>
        report (endRequest s x.id stEnsembleBroken) x stEnsembleBroken s.fabAddr (s.round % 2 ^ 32)) s

/-- Every ensemble of this module (12 R377, R380). -/
def breakAll (s : State) (cause : Nat) : State := (List.range 8).foldl (fun s e => breakEns s e cause s.fabAddr) s

/-- End the requests of a model's sessions with a status, and report to them. -/
def pauseModel (s : State) (m : Model) (tile epoch : Nat) : State :=
  let s := recordEvent (s.putModel { m with paused := true }) 0x070B 0 m.pkg.model tile epoch
  let s := (s.client.sessions.filter (fun x => decide (x.model = m.pkg.model))).foldl (fun s x =>
    report (endRequest s x.id stFloorPlanChanged) x stFloorPlanChanged m.pkg.model epoch) s
  (List.range 8).foldl (fun s e => if s.ensModel e = m.pkg.model then breakEns s e 3 s.fabAddr else s) s

/-! ## Forming (12 R384) -/

/-- The refusal of a formation, by the list of R384 in order (log 27): 1 model, 2 round length, 3 lock, 4 slot,
5 reservation, 6 round trip. -/
def State.joinRefusal (s : State) (src model time power : Nat) (free : Option Nat) : Nat :=
  match s.model? model with
  | none => 1
  | some m =>
    let n := s.round
    let rounds := (s.sage.batches.map (fun b => b.round)).eraseDups
    let tiles := m.pkg.tiles
    let b := s.budget (s.fld Reg.ADM_MARGIN 5 0)
    let fits := rounds.all (fun r => tiles.all (fun ti =>
      decide (((List.range 16).map (fun q => s.used r ti q)).foldl (· + ·) 0 + s.granted b ti + b * time / 100 ≤ b)) &&
      [Half.west, Half.east].all (fun h => decide (s.power r h + power ≤ s.capNow h)))
    if m.paused then 1
    else if !Config.sameRoundLength src (s.fld Reg.ADM_ROUND_LEN 15 0) then 2
    else if s.fld Reg.ADM_STATUS 31 31 = 0 then 3
    else if free.isNone then 4
    else if !fits ∨ (s.capNow .west : Rat) < s.power n .west + power ∨ (s.capNow .east : Rat) < s.power n .east + power then 5
    else if 4000 < Config.beatRoundTrip src then 6
    else 0

/-- Write a slot's registers at a member. -/
def takeSlot (s : State) (e src ensId model time power : Nat) (members : List Nat) : State :=
  let s := s.setReg (ensReg Reg.FAB_ENS_CTRL e) (BitVec.ofNat 32 (ensId % 256 * 65536 + members.length % 128 * 256 + esMember))
  let s := s.setReg (ensReg Reg.FAB_ENS_MODEL e) (BitVec.ofNat 32 model)
  let s := s.setReg (ensReg Reg.FAB_ENS_RESERVE e) (BitVec.ofNat 32 (power % 2048 * 65536 + time % 128))
  let s := s.setFld (ensReg Reg.FAB_ENS_LEADER e) 13 0 src
  members.zipIdx.foldl (fun s x =>
    s.setFld (ensReg Reg.FAB_ENS_MEMBER e + x.2 / 2) (if x.2 % 2 = 0 then 13 else 29) (if x.2 % 2 = 0 then 0 else 16) x.1) s

/-- ENS_FORM (12 R384): the member accepts or refuses. -/
def execEnsForm (src ensId model time power : Nat) (members : List Nat) (s : State) : Host.Outcome State Fault Refusal :=
  let same := s.slotOf [esBroken, esFailed, esFree] (fun e => decide (s.ensState e ≠ esFree) && decide (s.ensId e = ensId))
  let free := match same with
    | some e => some e
    | none => s.slotOf [esFree] (fun _ => true)
  let r := s.joinRefusal src model time power free
  match free with
  | some e =>
    if r = 0 then
      let s := takeSlot s e src ensId model time power members
      let s := s.setEnsSlot e { EnsSlot.init with beats := SMap.put [] src s.now, toLeader := true }
      .next (sendCtrl s none src (.ensJoin ensId 0))
    else .next (sendCtrl s none src (.ensJoin ensId r))
  | none => .next (sendCtrl s none src (.ensJoin ensId r))

/-- A formation fails. -/
def failForm (s : State) (e member reason : Nat) : State :=
  recordEvent (s.setEnsState e esFailed) 0x080B 0 (s.ensId e) member reason

/-- The leader, which must have the model loaded, asks every member to form an ensemble (12 R384). -/
def formEns (s : State) (slot : Nat) : State :=
  if 8 ≤ slot ∨ !([esFree, esBroken, esFailed].contains (s.ensState slot)) then s
  else
    let s := (s.setEnsState slot esForming).setFld (ensReg Reg.FAB_ENS_LEADER slot) 13 0 s.fabAddr
    let s := s.setEnsSlot slot EnsSlot.init
    match s.model? (s.ensModel slot) with
    | none => failForm s slot s.fabAddr 1
    | some m =>
      if m.paused then failForm s slot s.fabAddr 1
      else
        let r := ensReg Reg.FAB_ENS_RESERVE slot
        (s.ensMembers slot).foldl (fun s a =>
          sendCtrl s none a (.ensForm (s.ensId slot) (s.ensModel slot) (s.fld r 6 0) (s.fld r 26 16) (s.ensMembers slot))) s

/-- ENS_CTRL_FORM (12 R384). -/
def execEnsCtrlForm (slot : Nat) (s : State) : Host.Outcome State Fault Refusal := .next (formEns s slot)

/-- ENS_JOIN (12 R384): the last acceptance makes the slot LEADER at the next boundary. -/
def execEnsJoin (src ensId reason : Nat) (s : State) : Host.Outcome State Fault Refusal :=
  match s.slotOf [esForming] (fun e => decide (s.ensId e = ensId) && (s.ensMembers e).contains src) with
  | none => .next s
  | some e =>
    if reason ≠ 0 then .next (failForm s e src reason)
    else
      let x := s.ensSlot e
      let acc := if x.accepted.contains src then x.accepted else x.accepted ++ [src]
      let all := (s.ensMembers e).all acc.contains
      .next (s.setEnsSlot e { x with accepted := acc, beats := SMap.put x.beats src s.now, toLeader := all })

/-- ENS_FORM_TIMEOUT (12 R384). -/
def execEnsFormTimeout (slot : Nat) (s : State) : Host.Outcome State Fault Refusal :=
  if s.ensState slot = esForming ∧ slot < 8 ∧ !(s.ensSlot slot).toLeader then
    .next (failForm s slot (((s.ensMembers slot).find? (fun a => !(s.ensSlot slot).accepted.contains a)).getD 0) 0)
  else .next s

/-- What a boundary does to the slots: LEADER, reservations granted and released (12 R384, R387). -/
def settleSlots (s : State) : State :=
  (List.range 8).foldl (fun s e =>
    let x := s.ensSlot e
    let s := if x.toLeader && decide (s.ensState e = esForming) then
        recordEvent (s.setEnsState e esLeader) 0x0809 0 (s.ensId e) (s.ensMembers e).length (s.ensModel e)
      else s
    s.setEnsSlot e { x with
      toLeader := false
      release := false
      reserved := if x.release then false else x.reserved || (x.toLeader && decide (s.ensState e = esMember)) }) s

/-! ## Rounds of an ensemble (10 R316, 12 R385) -/

/-- ENS_PLAN_SEND (12 R385): the parts of the coming round, to every member. -/
def execEnsPlanSend (slot : Nat) (s : State) : Host.Outcome State Fault Refusal :=
  if 8 ≤ slot ∨ s.ensState slot ≠ esLeader then .next s
  else
    let n := s.round + 1
    let parts := s.sage.batches.filterMap (fun b =>
      if b.ens = some slot ∧ b.holds ∧ !b.committed then
        (b.partAt (s.nparts b.model b.kind) n).map (fun k => PlanPart.mk b.id b.model b.kind k b.members.length)
      else none)
    let s := (s.ensMembers slot).foldl (fun s a => sendCtrl s none a (.ensPlan n parts)) s
    .next (s.setEnsSlot slot { s.ensSlot slot with planned := some n })

/-- ENS_PLAN (12 R385): a member takes the parts of a round before its plan freeze. `remote` of its batch step holds the
leader's number and size. -/
def execEnsPlan (src round : Nat) (parts : List PlanPart) (s : State) : Host.Outcome State Fault Refusal :=
  match s.slotOf [esMember] (fun e => decide (s.ensLeader e = src)) with
  | none => .next s
  | some e =>
    if round ≤ s.round ∨ round ≤ s.sage.frozen then .next s
    else
      .next (parts.foldl (fun s p =>
        if (s.model? p.model).isNone ∨ s.sage.batches.any (fun b => decide (b.leader = some src) && decide (b.remote = [p.batch, p.size])) then s
        else
          let b : Batch := ⟨s.sage.nextBatch, p.model, p.kind, round - p.part, 0, [], none, [], [], [], none, false, false, false,
            some src, some e, [p.batch, p.size], none⟩
          { s with sage := { s.sage with batches := s.sage.batches ++ [b], nextBatch := s.sage.nextBatch + 1 } }) s)

/-- BATCH_STEP_COMMIT (10 R311, R316): a complete batch step of this module alone commits; a member reports its part of
an ensemble's to the leader and holds it prepared; the leader's waits for the decision. -/
def execBatchStepCommit (batch : Nat) (s : State) : Host.Outcome State Fault Refusal :=
  match s.sage.batches.find? (fun b => decide (b.id = batch)) with
  | none => .next s
  | some b =>
    if b.dropped.isSome || b.committed || !b.complete (s.nparts b.model b.kind) then .next s
    else
      match b.leader with
      | some a => .next (sendCtrl s none a (.ensReport s.round (b.remote.take 1)))
      | none => if b.ens.isSome then .next s else .next (commitBatch s b)

/-- ENS_REPORT (10 R316). -/
def execEnsReport (src round : Nat) (batches : List Nat) (s : State) : Host.Outcome State Fault Refusal :=
  if round ≠ s.round then .next s
  else
    .next { s with sage := { s.sage with batches := s.sage.batches.map (fun b =>
      if b.ens.isSome && b.leader.isNone && batches.contains b.id && !b.remote.contains src then { b with remote := b.remote ++ [src] } else b) } }

/-- The leader's decision on a batch step: COMMIT only where it and every member are complete (10 R316). -/
def decideBatch (s : State) (b : Batch) (e : Nat) : State :=
  let ok := b.dropped.isNone && b.complete (s.nparts b.model b.kind) && (s.ensMembers e).all b.remote.contains
  let s := (s.ensMembers e).foldl (fun s a => sendCtrl s none a (.ensDecision s.round [⟨b.id, ok⟩])) s
  if ok then commitBatch s b
  else
    { s with sage := { s.sage with batches := s.sage.batches.map (fun x =>
      if x.id = b.id then { x with dropped := some (x.dropped.getD 0), decision := some false } else x) } }

/-- ENSEMBLE_DECISION (10 R316): at t1 the leader decides on the batch step's last part. -/
def execEnsembleDecision (batch : Nat) (s : State) : Host.Outcome State Fault Refusal :=
  match s.sage.batches.find? (fun b => decide (b.id = batch)) with
  | none => .next s
  | some b =>
    match b.ens, b.leader, b.part with
    | some e, none, some k =>
      if b.committed ∨ b.decision.isSome ∨ k + 1 ≠ s.nparts b.model b.kind then .next s else .next (decideBatch s b e)
    | _, _, _ => .next s

/-- ENS_DECISION (10 R316): a member commits or drops what it holds prepared. -/
def execEnsDecision (src round : Nat) (ds : List Decision) (s : State) : Host.Outcome State Fault Refusal :=
  if round ≠ s.round then .next s
  else
    .next (ds.foldl (fun s d =>
      match s.sage.batches.find? (fun b => decide (b.leader = some src) && decide (b.remote.head? = some d.batch) && !b.committed) with
      | none => s
      | some b =>
        if d.commit && b.dropped.isNone && b.complete (s.nparts b.model b.kind) then commitBatch s b
        else { s with sage := { s.sage with batches := s.sage.batches.map (fun x =>
          if x.id = b.id then { x with dropped := some (x.dropped.getD 0), decision := some false } else x) } }) s)

/-- ENSEMBLE_DECISION_LOST (10 R316, 12 R386): a member without a decision drops the prepared steps and ends the
ensemble. -/
def execEnsembleDecisionLost (slot : Nat) (s : State) : Host.Outcome State Fault Refusal :=
  let waits (b : Batch) : Bool := b.leader.isSome && decide (b.ens = some slot) && b.part.isSome && b.decision.isNone && !b.committed
  if 8 ≤ slot ∨ s.ensState slot ≠ esMember ∨ !s.sage.batches.any waits then .next s
  else
    let leader := s.ensLeader slot
    let s := { s with sage := { s.sage with batches := s.sage.batches.map (fun b => if waits b then { b with dropped := some 5 } else b) } }
    .next (breakEns (recordEvent s 0x0606 0 0 (s.round % 2 ^ 32) leader) slot 5 s.fabAddr)

/-! ## Heartbeats and the end (12 R386, R387) -/

/-- ENS_BEAT (12 R386): heard, with the round trip where this module's time is echoed. -/
def execEnsBeat (src ensId time echoed : Nat) (s : State) : Host.Outcome State Fault Refusal :=
  match s.slotOf [esForming, esLeader, esMember] (fun e => decide (s.ensId e = ensId) &&
      (decide (s.ensLeader e = src) || (s.ensMembers e).contains src)) with
  | none => .next s
  | some e =>
    let x := s.ensSlot e
    .next (s.setEnsSlot e { x with
      beats := SMap.put x.beats src s.now
      times := SMap.put x.times src time
      roundTrip := if echoed = 0 then x.roundTrip else some (s.calendar - echoed) })

/-- ENS_BEAT_TIMER (12 R386): a beat echoes the time of the last one heard from its receiver, 0 before any. -/
def execEnsBeatTimer (s : State) : Host.Outcome State Fault Refusal :=
  .next ((List.range 8).foldl (fun s e =>
    let t := s.calendar
    let echo (s : State) (a : Nat) : Nat := SMap.getD (s.ensSlot e).times a 0
    if s.ensState e = esLeader then (s.ensMembers e).foldl (fun s a => sendCtrl s none a (.ensBeat (s.ensId e) t (echo s a))) s
    else if s.ensState e = esMember then sendCtrl s none (s.ensLeader e) (.ensBeat (s.ensId e) t (echo s (s.ensLeader e)))
    else s) s)

/-- ENS_BEAT_LOSS (12 R386). -/
def execEnsBeatLoss (slot src : Nat) (s : State) : Host.Outcome State Fault Refusal :=
  if slot < 8 ∧ (s.ensState slot = esLeader ∨ s.ensState slot = esMember) then .next (breakEns s slot 2 src) else .next s

/-- ENS_END (12 R387). -/
def execEnsEnd (src ensId cause : Nat) (s : State) : Host.Outcome State Fault Refusal :=
  match s.slotOf [esForming, esLeader, esMember] (fun e => decide (s.ensId e = ensId) &&
      (decide (s.ensLeader e = src) || (s.ensMembers e).contains src)) with
  | none => .next s
  | some e => .next (breakEns s e cause src)

/-- ENS_CTRL_END (12 R386). -/
def execEnsCtrlEnd (slot : Nat) (s : State) : Host.Outcome State Fault Refusal :=
  if slot < 8 then .next (breakEns s slot 0 s.fabAddr) else .next s

/-! ## Floor plans on the fabric (12 R388) -/

/-- FAB_FLOOR_PLAN (12 R388): a peer's record is received. The spec gives the module no use of it. -/
def execFabFloorPlan (_src : Nat) (_record : List Nat) (s : State) : Host.Outcome State Fault Refusal := .next s

/-- FP_QUERY (12 R388): an epoch that is not kept is answered with an empty payload. -/
def execFpQuery (src epoch : Nat) (s : State) : Host.Outcome State Fault Refusal :=
  .next (sendCtrl s none src (.floorPlan (match s.planOf epoch with | some r => planBytes r | none => [])))

/-! ## Addresses and activation -/

/-- Take an address (12 R369, R380). -/
def takeAddr (s : State) (addr level : Nat) : State :=
  let old := s.fabAddr
  let had := decide (s.fld Reg.FAB_ADDR 31 31 = 1)
  let s := ((s.setFld Reg.FAB_ADDR 31 31 1).setFld Reg.FAB_ADDR 21 16 level).setFld Reg.FAB_ADDR 13 0 addr
  if had && decide (old ≠ addr) then breakAll (recordEvent s 0x0806 0 old addr s.fcn) 4 else s

/-- ASSIGN (12 R369): this module takes its address and answers LINKS along the tree; another's is passed on. -/
def execAssign (moduleId addr level parentPort : Nat) (s : State) : Host.Outcome State Fault Refusal :=
  if moduleId = selfId then
    let s := takeAddr s addr level
    .next (sendCtrl s (some parentPort) 0 (.links s.linkRecs))
  else
    match s.upPorts.find? (fun n => match (s.fport n).peer with | some b => decide (b.moduleId = moduleId) | none => false) with
    | some n => .next (sendCtrl s (some n) 0 (.assign moduleId addr level parentPort))
    | none => .next (flood s (s.upPorts.filter (fun n => decide (some n ≠ s.parentPort))) (.assign moduleId addr level parentPort))

/-- A VL 3 packet whose last hop was down while its new escape route goes up (12 Table 12.11 step 7). -/
def State.strandedBy (s : State) (m : FabMap) (x : FabPacket) : Bool :=
  decide (x.vl = 3) && decide (x.phase = 1) &&
    (match s.escPort x.dst with
     | some n => (match s.peerAddr n with | some w => m.up s.fabAddr w | none => false)
     | none => false)

/-- Switch to the new tables (12 R370, R378). -/
def activateMap (s : State) (m : FabMap) : State :=
  let cause := mapCause s.fab.active m
  let s := { s with fab := { s.fab with active := some m, next := none, ready := [], cause := cause } }
  let s := (s.setReg Reg.FAB_FCN (BitVec.ofNat 32 m.fcn)).setFld Reg.FAB_STATUS 29 29 0
  let s := s.setFld Reg.FAB_STATUS 14 0 m.entries.length
  let s : State := match m.entries.find? (fun e => decide (e.moduleId = selfId)) with
    | some e => takeAddr s e.addr e.level
    | none => s
  let root := match m.entries.find? (fun e => e.parent.isNone) with | some e => e.moduleId | none => 0
  let s := s.setReg64 Reg.FAB_ROOT_ID_LO root
  let s := s.upPorts.foldl (fun s n =>
    match s.peerAddr n with
    | none => s
    | some w =>
      let a := Reg.FAB_PORT_STATUS + n
      let tree := decide (s.parentPort = some n) || (match m.entry? w with
        | some e => decide (e.parent = some s.fabAddr) && e.links.any (fun l => decide (l.port = e.parentPort) && decide (l.peerPort = n))
        | none => false)
      (s.setFld a 10 10 (if m.up s.fabAddr w then 1 else 0)).setFld a 9 9 (if tree then 1 else 0)) s
  let s := recordEvent s 0x0805 0 m.fcn m.entries.length cause
  let stranded := ((List.range 12).flatMap (fun n => (s.fport n).buffers.map (·.2))).filter (s.strandedBy m)
  let s := stranded.foldl (fun s x =>
    match unqueue s x with
    | some (s1, o) => fabDrop (match o with | some n => freeFlits s1 n x | none => s1) 1 x.dst
    | none => s) s
  let gone (a : Nat) : Bool := (m.entry? a).isNone
  let s := (List.range 8).foldl (fun s e =>
    match (s.ensLeader e :: s.ensMembers e).find? gone with
    | some a => breakEns s e 1 a
    | none => s) s
  if s.fab.leaving ∧ !m.entries.any (fun e => decide (e.moduleId = selfId)) then
    (List.range 12).foldl (fun s n => if s.fstate n = fpUp then (sendLink s n).setFstate n fpDisabled else s) s
  else retryAll s

/-- ACTIVATE (12 R370). -/
def execActivate (fcn : Nat) (s : State) : Host.Outcome State Fault Refusal :=
  match s.fab.next with
  | none => .next s
  | some m => if m.fcn = fcn then .next (activateMap (flood s s.upPorts (.activate fcn)) m) else .next s

/-- The root floods ACTIVATE and switches itself (12 R370). -/
def floodActivate (s : State) : State :=
  match s.fab.next with
  | none => s
  | some m => if s.isRoot then activateMap (flood s s.upPorts (.activate m.fcn)) m else s

/-- MAP_READY (12 R370): with every module's answer the root activates. -/
def execMapReady (src fcn : Nat) (s : State) : Host.Outcome State Fault Refusal :=
  if !s.isRoot then .next (sendCtrl s s.parentPort src (.mapReady fcn))
  else
    match s.fab.next with
    | none => .next s
    | some m =>
      if m.fcn ≠ fcn then .next s
      else
        let r := if s.fab.ready.contains src then s.fab.ready else s.fab.ready ++ [src]
        let s := { s with fab := { s.fab with ready := r } }
        if m.entries.all (fun e => r.contains e.addr) then .next (floodActivate s) else .next s

/-- MAP_READY_TIMEOUT (12 R370). -/
def execMapReadyTimeout (s : State) : Host.Outcome State Fault Refusal := .next (floodActivate s)

/-- LEAVE (12 R377): the root makes a map without the module. -/
def execLeave (moduleId : Nat) (s : State) : Host.Outcome State Fault Refusal :=
  if !s.isRoot then .next (sendCtrl s s.parentPort 0 (.leave moduleId))
  else
    let l := s.fab.building.filter (fun e => e.entry.moduleId ≠ moduleId)
    let l := l.map (fun e => { e with recs := e.recs.map (fun rs => rs.filter (fun r => r.peerId ≠ moduleId)) })
    .next (rootStep { s with fab := { s.fab with building := l } })

/-- Start an orderly removal (12 R377). -/
def leaveFabric (s : State) : State :=
  let s := breakAll s 6
  let s := sendCtrl s s.parentPort 0 (.leave selfId)
  { s with fab := { s.fab with leaving := true } }

/-- FAB_CTRL_LEAVE (12 R377). -/
def execFabCtrlLeave (s : State) : Host.Outcome State Fault Refusal := .next (leaveFabric s)

/-- Clear 0x0020-0x0043 (12 R389). -/
def clearFab (s : State) : State := s.resetRegs ((List.range 36).map (· + Reg.FAB_PORT_REPLAY))

/-- FAB_COUNT_CLR (12 R389). -/
def execFabCountClr (s : State) : Host.Outcome State Fault Refusal := .next (clearFab s)

end Sys2Proof.Machine
end

