-- ==== Sys2Proof/Machine/Reset.lean ====
section
/-! DEFINITION. The compute reset of a half (16 R485-R488, 07 R221-R224): its request, the keeper's take-over of the
vertical ports, the truncation of staged sequences and the steps by which the half returns. -/
namespace Sys2Proof.Machine

/-- A half as the events number it: 0 West, 1 East. -/
def halfNo (h : Half) : Nat := match h with | .west => 0 | .east => 1
/-- The bit of a half in an event parameter that names halves. -/
def halfBit (h : Half) : Nat := match h with | .west => 1 | .east => 2

def State.halfReset (s : State) (h : Half) : HalfReset := match h with | .west => s.ctl.west | .east => s.ctl.east
def State.setHalfReset (s : State) (h : Half) (r : HalfReset) : State :=
  match h with
  | .west => { s with ctl := { s.ctl with west := r } }
  | .east => { s with ctl := { s.ctl with east := r } }
/-- Whether a half is between steps 1 and 8 of Table 16.5. -/
def State.inReset (s : State) (h : Half) : Bool := decide ((s.halfReset h).phase ≠ 0)

/-- The tiles of a half that are in use. -/
def State.halfTiles (s : State) (h : Half) : List Nat :=
  (List.range tileCount).filter (fun ti => decide (halfOf ti = h) && s.usable ti)

/-- Give or take a half's budget (10 R316). -/
def setBudget (s : State) (h : Half) (inReset : Bool) : State :=
  match h with
  | .west => { s with sage := { s.sage with inResetW := inReset } }
  | .east => { s with sage := { s.sage with inResetE := inReset } }

/-- ADM_STATUS.STATE while Sage serves: HALF with a half fenced or in compute reset, else SERVING (10 Table 10.12). -/
def settleAdm (s : State) : State :=
  if [2, 3].contains (s.fld Reg.ADM_STATUS 2 0) then
    s.setFld Reg.ADM_STATUS 2 0
      (if s.fenced .west || s.fenced .east || s.inReset .west || s.inReset .east then 3 else 2)
  else s

/-! ## Stopping a tile -/

/-- Units abandon their commands as at a fault, and the tile is not faulted (10 R314 step 3): bursts sent complete, memory
writes not accepted are discarded. -/
def abandonTile (s : State) (ti : Nat) : State :=
  let s := s.modTile ti (fun t => { t with
    queue := (t.queue.filter QEntry.committedInPlace).map (fun e => { e with ordinal := 0, banks := 0, unsent := [] })
    handover := none })
  let s := { s with mesh := s.mesh.filter (fun p => !memWriteOf p ti) }
  clearHeld s ti

/-! ## The keeper -/

/-- The pairs of a tile on which an in-bank operation runs. -/
def Tile.runningPairs (t : Tile) : List (Nat × Nat × QEntry) :=
  (List.range 8).flatMap (fun layer => (List.range 8).filterMap (fun pair =>
    (t.queue.find? (fun e => e.runsOn layer pair)).map (fun e => (layer, pair, e))))

/-- An entry joins a tile's cut list of 80 (07 R223). -/
def addCut (s : State) (ti : Nat) (c : CutEntry) : State :=
  s.modTile ti (fun t => { t with cut := (t.cut ++ [c]).take 80 })

/-- A running step completes and its IBU halts; an operation that had not finished is entered in the cut list
(Table 7.5 step 5). -/
def haltIbu (s : State) (ti cmd layer pair : Nat) (e : QEntry) : State :=
  match e.waits with
  | .ibu f left _ =>
    let n := ((left.find? (fun x => decide (x.1 = pair))).map (·.2)).getD 1
    let s := runStep s ti pair f n
    if n ≤ 1 then s
    else
      let done := (f.len + ibuStep f.op - 1) / ibuStep f.op - (n - 1)
      let base := if f.op = 0x30 then f.dst else f.srcA
      addCut s ti ⟨2, layer, pair, f.op, (base + done * ibuStep f.op) / 32 * 32, 0, cmd % 65536, f.inPlace⟩
  | _ => s

/-- A write burst that did not fully cross: its eight granules take the poison pattern (Table 7.5 step 4). -/
def cutBurst (s : State) (ti off : Nat) : State :=
  let base := off % sliceBytes / 256 * 256
  let m := sliceMap base (s.stripe ti)
  let s := (List.range 8).foldl (fun s i =>
    let k := sliceGranule (base + 32 * i) (s.stripe ti)
    s.putGranule ti k (granulePoison (bondedG ti k))) s
  addCut s ti ⟨1, m.1, m.2.1, 0, m.2.2, 8, 0, false⟩

/-- The registers of a tile page that a compute reset returns to their reset values (R82, R114, R162, R194, R231,
R283). -/
def resetsOnReset (off : Nat) : Bool :=
  decide (off < 0x800) && decide (off ≠ Reg.ATN_DIR_BASE) && decide (off ≠ Reg.ATN_DIR_LEN) ||
  decide (0xA00 ≤ off) && decide (off < 0xC00) && decide (off ≠ Reg.IBU_DISABLE_LO) && decide (off ≠ Reg.IBU_DISABLE_HI) ||
  decide (off = Reg.INT_STATUS)

/-- Whether an address is a translation register of a tile page. -/
def isXltReg (off : Nat) : Bool := decide (Reg.LAY_XLT_BASE ≤ off) && decide (off < Reg.LAY_XLT_LEN + 4)

/-- Return a tile's registers to reset; the supervisor keeps its translation registers to write them again. -/
def resetTileRegs (s : State) (ti : Nat) : State :=
  let mine (a : Nat) : Bool := decide (tileReg ti 0 ≤ a) && decide (a < tileReg ti 0x1000)
  let kept := s.regs.filter (fun e => mine e.1 && isXltReg (e.1 - tileReg ti 0))
  { s with
    regs := s.regs.filter (fun e => !(mine e.1 && resetsOnReset (e.1 - tileReg ti 0)))
    ctl := { s.ctl with bases := kept.foldl (fun m e => SMap.put m e.1 e.2) s.ctl.bases } }

/-- The tile logic of one tile in reset: queues empty, tokens clear, bank owners SEQ, SRAM check bits and written flags
invalid (02 case note, 09 R271, R273), the caches empty (05 R147, 06 R171), the arrival counts clear (02 R75). Committed
lengths and slice contents stay. -/
def resetTile (s : State) (ti : Nat) : State :=
  let cmd := (s.reg (tileReg ti Reg.TIL_CMD_COUNT_LO)).toNat
  let s := (s.tile ti).runningPairs.foldl (fun s x => haltIbu s ti cmd x.1 x.2.1 x.2.2) s
  let s := resetTileRegs s ti
  let s := s.modTile ti (fun t => { t with
    generation := t.generation + 1
    sram := []
    written := []
    segs := []
    queue := []
    handover := none
    ordinal := 0
    slots := []
    recv := []
    syncs := []
    eject := []
    held := none
    xlt := []
    dirCache := []
    attnRecs := []
    waiting := [] })
  let s := s.setTilState ti tilReset
  let s := s.setFld (tileReg ti Reg.BDM_STATUS) 2 0 bdmKeeper
  s.setFld (tileReg ti Reg.IBU_STATUS) 2 0 3

/-- A packet that the reset of a half takes out of the mesh: one that its tile logic sent, or an answer to it. -/
def lostInReset (h : Half) (p : Packet) : Bool :=
  decide (p.srcKind = 0) && decide (halfOf p.srcId = h) ||
  decide (p.dstKind = 0) && decide (halfOf p.dstId = h) && [PktType.readData, .writeAck, .nack].contains p.ptype

/-- Sage drops every step of the round that uses a tile of a half (10 R316, Table 10.15 cause). -/
def dropOnHalf (s : State) (h : Half) (cause : Nat) : State :=
  { s with sage := { s.sage with
    batches := s.sage.batches.map (fun b =>
      if b.dropped.isNone && !b.committed && b.need.any (fun x => decide (halfOf x.1 = h)) then { b with dropped := some cause }
      else b) } }

/-- A requested test on a tile of the half ends with RESULT FAIL and FAIL_COUNT 0, and the tile is released (18 R520). -/
def endTestIn (s : State) (h : Half) : State :=
  match s.bist.job with
  | none => s
  | some j =>
    if halfOf j.ti ≠ h then s
    else
      let s := s.setReg Reg.BST_TEST_STATUS (setBits 0 31 30 3)
      { s with bist := { s.bist with job := none, held := [], releasing := s.bist.releasing ++ s.bist.held } }

/-- Steps 1 and 2 of Table 16.5 on one half. -/
def resetHalf (s : State) (h : Half) (cause : Nat) (byPin : Bool) (cuts : List (Nat × Nat)) : State :=
  let s := dropOnHalf (setBudget s h true) h 3
  let ts := s.halfTiles h
  let s := cuts.foldl (fun s c => if ts.contains c.1 then cutBurst s c.1 c.2 else s) s
  let s := ts.foldl resetTile s
  let s := { s with
    mesh := s.mesh.filter (fun p => !lostInReset h p)
    ctl := { s.ctl with untrained := s.ctl.untrained.filter (fun ti => decide (halfOf ti ≠ h)) ++ ts } }
  settleAdm (endTestIn (s.setHalfReset h ⟨1, s.now, cause, byPin⟩) h)

/-- Whether a request starts the table for a half: not while it waits for step 4, nor on a fenced half but at its
rejoin (R487 and its case notes). -/
def State.takesReset (s : State) (h : Half) (cause : Nat) : Bool :=
  decide ((s.halfReset h).phase ≠ 1) && (!s.fenced h || decide (cause = 3))

/-- A reset by RESET_IN_N of a half already in reset holds its release (Table 16.5 step 4). -/
def holdByPin (s : State) (h : Half) (byPin : Bool) : State :=
  let r := s.halfReset h
  if byPin && decide (r.phase = 1) then s.setHalfReset h { r with byPin := true } else s

/-- A compute reset of halves takes effect (R485, R486) with event 0x0017. -/
def startReset (s : State) (hs : List Half) (cause : Nat) (byPin : Bool) (cuts : List (Nat × Nat)) : State :=
  let s := hs.foldl (fun s h => holdByPin s h byPin) s
  let go := hs.filter (fun h => s.takesReset h cause)
  if go.isEmpty then s
  else
    let s := go.foldl (fun s h => resetHalf s h cause byPin cuts) s
    recordEvent s 0x0017 0 ((go.map halfBit).foldl (· + ·) 0) cause (s.round % 2 ^ 32)

/-- The states of MGT_START_STATUS (Table 16.9). -/
def msAux : Nat := 0
def msStarting : Nat := 1
def msServing : Nat := 2
def msHalted : Nat := 3
def msRemoving : Nat := 4
def msReady : Nat := 5
def State.msState (s : State) : Nat := s.fld Reg.MGT_START_STATUS 2 0
def State.setMs (s : State) (v : Nat) : State := s.setFld Reg.MGT_START_STATUS 2 0 v

/-- Whether main power is on: PWR_STATUS.STATE is not one of those without it. -/
def State.mainOn (s : State) : Bool := decide (s.fld Reg.PWR_STATUS 2 0 = 3)

/-- A request for a compute reset: held until step 12 of the start ends, without effect where main power is off. -/
def requestReset (s : State) (hs : List Half) (cause : Nat) (byPin : Bool) (cuts : List (Nat × Nat)) : State :=
  if s.msState = msAux ∨ s.msState = msStarting then
    { s with ctl := { s.ctl with
      heldW := s.ctl.heldW || hs.contains .west
      heldE := s.ctl.heldE || hs.contains .east
      heldCause := cause } }
  else if !s.mainOn then s
  else startReset s hs cause byPin cuts

/-- An overflow of the pending list resets the halves that the lost entries name (09 R282). -/
def settleOverflow (s : State) : State :=
  let hs := (if s.sup.overflowResetW then [Half.west] else []) ++ (if s.sup.overflowResetE then [Half.east] else [])
  if hs.isEmpty then s
  else requestReset { s with sup := { s.sup with overflowResetW := false, overflowResetE := false } } hs 2 false []

/-! ## Release -/

/-- Tile logic leaves reset (Table 16.5 step 4). -/
def releaseHalf (s : State) (h : Half) : State :=
  let r := s.halfReset h
  if r.phase ≠ 1 ∨ r.byPin = true then s
  else
    (s.halfTiles h).foldl (fun s ti => s.setTilState ti tilIdle) (s.setHalfReset h { r with phase := 2 })

/-- A controller has trained its back-end and takes the ports back: the requests that waited are performed
(Table 7.5 step 7, Table 16.5 steps 5 and 6). -/
def takePorts (s : State) (ti : Nat) : State :=
  let s := s.setFld (tileReg ti Reg.BDM_STATUS) 2 0 bdmReady
  let s := s.setFld (tileReg ti Reg.IBU_STATUS) 2 0 1
  let s := { s with ctl := { s.ctl with untrained := s.ctl.untrained.filter (fun x => decide (x ≠ ti)) } }
  let w := (s.tile ti).waiting
  w.foldl bondedRequest (s.modTile ti (fun t => { t with waiting := [] }))

/-! ## Step 7 -/

/-- A sequence of a session: its tile and directory entry. -/
def State.sequencesOf (s : State) (session : Nat) : List (Nat × DirEntry) :=
  (s.tiles.map (·.1)).flatMap (fun ti => (s.dirOfSession ti session).map (fun e => (ti, e)))

/-- Shorten one sequence to a length: COMMITTED_LEN and NEXT_POS (06 case note); with its staging on the reset half the
event and the flag. -/
def truncateSeq (s : State) (h : Half) (session len ti : Nat) (e : DirEntry) : State :=
  let space := SMap.getD (s.tile ti).kvSpace session 0
  let s : State := match s.place ti space (e.pageList + 12) false with
    | .mem tier a => putBytes s ti tier a 4 len
    | _ => s
  let s := setNextPos s ti e len
  if halfOf ti = h then
    recordEvent (s.setFld (tileReg ti Reg.ATN_STATUS) 29 29 1) 0x2301 ti session (e.layer * 65536 + e.headGroup) len
  else s

/-- Treat one session after the reset of a half: affected when a partial page is staged there (06 case note, 11 case
note on truncation). -/
def truncateSession (s : State) (h : Half) (x : Session) : State :=
  let qs := s.sequencesOf x.id
  if x.committed % 64 = 0 ∨ !qs.any (fun q => decide (halfOf q.1 = h)) then s
  else
    let len := x.committed / 64 * 64
    let s := qs.foldl (fun s q => truncateSeq s h x.id len q.1 q.2) s
    let s := s.putSession { x with committed := len, truncated := x.request.isSome }
    report s x stContextTruncated len 0

/-- The supervisor writes the translation registers of a half again. -/
def reloadBases (s : State) (h : Half) : State :=
  let mine (a : Nat) : Bool := match tileOf a with | some (ti, _) => decide (halfOf ti = h) | none => false
  let s := (s.ctl.bases.filter (fun e => mine e.1)).foldl (fun s e => s.setReg e.1 e.2) s
  { s with ctl := { s.ctl with bases := s.ctl.bases.filter (fun e => !mine e.1) } }

/-- Whether a model's weights lie in the rest of a pair that a cut entry names. -/
def State.weightsIn (s : State) (m : Model) (ti : Nat) (c : CutEntry) : Bool :=
  m.pkg.weights.any (fun w => decide (w.ti = ti) && (List.range w.pages).any (fun i =>
    match s.xltRead ti w.space (w.vaddr / 0x200000 + i) with
    | some (e, false) =>
      e.getLsbD 63 && decide ((e.toNat >>> 58) % 8 = 0) && decide (e.toNat % 64 = c.layer * 8 + c.pair) &&
        decide (c.offset < min 0x200000 (w.data.length - i * 0x200000))
    | _ => false))

/-- Models whose weights a committed cut range holds pause (16 R488). -/
def pauseCut (s : State) (ti : Nat) (c : CutEntry) : State :=
  if !c.committed then s
  else
    s.client.models.foldl (fun s m =>
      if !m.paused && s.weightsIn m ti c then pauseModel s m ti s.plan.epoch else s) s

/-- The cut list of one tile: the event where an entry covers committed work, pauses, and the list is emptied
(07 R224, 16 R488). -/
def handleCuts (s : State) (ti : Nat) : State :=
  let l := (s.tile ti).cut
  let n (p : CutEntry → Bool) : Nat := (l.filter p).length
  let committed := n (fun c => c.committed)
  let s := if committed = 0 then s
    else recordEvent s 0x2407 ti (n (fun c => decide (c.kind = 1))) (n (fun c => decide (c.kind = 2))) committed
  (l.foldl (fun s c => pauseCut s ti c) s).modTile ti (fun t => { t with cut := [] })

/-- Whether a pending entry's source lies in tile logic of a half, so that a reset clears its state (09 R282). -/
def PendEntry.inLogic (e : PendEntry) (h : Half) : Bool :=
  decide (0x2000 ≤ e.code) && decide (halfOf e.source = h) &&
    !(decide (e.code / 256 = 0x24) || decide (e.code = 0x2608) || decide (e.code = 0x2601) ||
      (decide (e.code = 0x2603) && decide (e.p0 ≠ 0)))

/-- Step 7 of Table 16.5: cut lists, bases, dropped appends and truncation, the event. -/
def handleReset (s : State) (h : Half) : State :=
  let r := s.halfReset h
  if r.phase ≠ 2 ∨ s.ctl.untrained.any (fun ti => decide (halfOf ti = h)) = true then s
  else
    let ts := s.halfTiles h
    let cuts := (ts.map (fun ti => (s.tile ti).cut.length)).foldl (· + ·) 0
    let s := reloadBases s h
    let s := ts.foldl handleCuts s
    let s := ts.foldl dropKv s
    let s := s.client.sessions.foldl (fun s x => truncateSession s h x) s
    let s := if r.cause = 2 then
        { s with sup := { s.sup with list := s.sup.list.filter (fun e => !e.inLogic h) } }
      else s
    let s := s.setHalfReset h { r with phase := 3 }
    recordEvent s 0x0018 0 (halfBit h) cuts ((s.now - r.t0) / 1000)

/-- Step 8 at a boundary: Sage gives the half's tiles budget again; those of a fenced half have none before its epoch. -/
def endReset (s : State) (h : Half) : State :=
  if (s.halfReset h).phase = 3 then settleAdm (setBudget (s.setHalfReset h .none) h (s.fenced h)) else s

end Sys2Proof.Machine
end

