-- ==== Sys2Proof/Machine/HalfLink.lean ====
section
/-! DEFINITION. The half link (13): frames and replay, spares and row maps, the split of the halves and their rejoining. -/
namespace Sys2Proof.Machine

/-! ## Modules and positions -/

/-- States of HLK_MOD_STATUS (Table 13.7). -/
def hmTraining : Nat := 1
def hmActive : Nat := 2
def hmSpare : Nat := 3
def hmRetired : Nat := 4

def hmReg (m : Nat) : Nat := Reg.HLK_MOD_STATUS + m
def State.hmState (s : State) (m : Nat) : Nat := s.fld (hmReg m) 2 0
def State.hmWidth (s : State) (m : Nat) : Nat := s.fld (hmReg m) 5 4
def State.hmPos (s : State) (m : Nat) : Nat := s.fld (hmReg m) 15 8
def State.hlkMod (s : State) (m : Nat) : HlkModule := SMap.getD s.link.mods m HlkModule.init
def State.setHlkMod (s : State) (m : Nat) (x : HlkModule) : State := { s with link := { s.link with mods := SMap.put s.link.mods m x } }
/-- The spare module of a position's group, and the module that normally serves it (R396). -/
def spareOf (pos : Nat) : Nat := 9 * (pos / 8) + 8
def homeOf (pos : Nat) : Nat := 9 * (pos / 8) + pos % 8

/-- Positions of the gateway rows that a dark cluster of cx 8 or 9 takes away (01 R26, R404). -/
def State.darkPosition (s : State) (pos : Nat) : Bool :=
  s.plan.dark.contains (pos / 3 / 4 * 18 + 8) || s.plan.dark.contains (pos / 3 / 4 * 18 + 9)

/-- The positions that are not retired (R404). -/
def State.usablePositions (s : State) : List Nat :=
  (List.range 96).filter (fun p => !s.link.retired.contains p && !s.darkPosition p)

/-- The module that serves a position now, if it works. -/
def State.moduleAt (s : State) (pos : Nat) : Option Nat :=
  if s.link.retired.contains pos ∨ s.darkPosition pos = true then none
  else [homeOf pos, spareOf pos].find? (fun m => decide (s.hmState m = hmActive) && decide (s.hmPos m = pos))

/-- The working modules of a row with their weights (R397); a module just returned takes no flow before a boundary
(R402). -/
def State.rowModules (s : State) (row : Nat) (withReturning : Bool) : List (Nat × Nat) :=
  ([3 * row, 3 * row + 1, 3 * row + 2].filterMap s.moduleAt).filterMap (fun m =>
    if (s.hlkMod m).returning && !withReturning then none
    else some (m, if s.hmWidth m = 2 then 2 else 1))

/-- The module at a weighted place in a row. -/
def pickWeighted : List (Nat × Nat) → Nat → Option Nat
  | [], _ => none
  | (m, w) :: r, k => if k < w then some m else pickWeighted r (k - w)

/-- The module of a flow (R397, R402, R403). -/
def State.flowModule (s : State) (f : HlkFlow) : Option Nat :=
  let row := s.fld (Reg.HLK_ROW_MAP + f.row) 4 0
  let ms := s.rowModules row false
  let ms := if ms.isEmpty then s.rowModules row true else ms
  let total := (ms.map (·.2)).foldl (· + ·) 0
  if total = 0 then none else pickWeighted ms ((f.srcId ^^^ f.dstId) % total)

/-- Distance between rows. -/
def rowDist (a b : Nat) : Nat := if a ≤ b then b - a else a - b

/-- The row whose positions carry a row's traffic: its own, or the nearest with a working position, the lower on a tie
(R403); its own where none works. -/
def State.rowFor (s : State) (row : Nat) : Nat :=
  let works (r : Nat) : Bool := !(s.rowModules r true).isEmpty
  if works row then row
  else
    match (List.range 32).filter works with
    | [] => row
    | r :: rs => rs.foldl (fun a b => if rowDist row b < rowDist row a then b else a) r

/-- Bring U and the row maps up to date, with event 0x0A04 per row that changes (R403, R404). -/
def settleLink (s : State) : State :=
  let s := s.setFld Reg.HLK_STATUS 6 0 s.usablePositions.length
  (List.range 32).foldl (fun s r =>
    let now := s.rowFor r
    let a := Reg.HLK_ROW_MAP + r
    if s.fld a 4 0 = now then s
    else recordEvent (s.setFld a 4 0 now) 0x0A04 0 r now (if now = r then 0 else 1)) s

/-- Replays of a module in the last second (R401). -/
def State.recentReplays (s : State) (m : Nat) : List Nat :=
  (s.hlkMod m).replays.filter (fun t => decide (s.now < t + 1000000000))

/-- Start training a module for a position at a width: its engines begin afresh. -/
def trainModule (s : State) (m pos target : Nat) : State :=
  let s := s.setHlkMod m { HlkModule.init with target := target, replays := (s.hlkMod m).replays }
  ((s.setFld (hmReg m) 2 0 hmTraining).setFld (hmReg m) 5 4 0).setFld (hmReg m) 15 8 pos

/-- Retire a module; it never returns before the module restarts (R401). -/
def retireModule (s : State) (m : Nat) : State :=
  ((s.setFld (hmReg m) 2 0 hmRetired).setFld (hmReg m) 5 4 0).setFld (hmReg m) 15 8 0xFF

/-- Frames of a failing module that are not acknowledged are sent by its flows' next module: they are handed to it, so
that no packet is lost (R402). -/
def State.unacked (s : State) (m : Nat) : List (Bool × HlkFrame × HlkFlow) :=
  ((s.hlkMod m).west.kept.map (fun x => (true, x.1, x.2))) ++ ((s.hlkMod m).east.kept.map (fun x => (false, x.1, x.2)))

def HlkModule.ends (x : HlkModule) (toEast : Bool) : HlkEnd × HlkEnd := if toEast then (x.west, x.east) else (x.east, x.west)
def HlkModule.setEnds (x : HlkModule) (toEast : Bool) (snd rcv : HlkEnd) : HlkModule :=
  if toEast then { x with west := snd, east := rcv } else { x with east := snd, west := rcv }

/-- The plane's entry of a two-element list. -/
def planeAt (l : List Nat) (p : Nat) : Nat := l.getD (p % 2) 0

/-- Send a VALID frame on a module: kept until acknowledged, a credit of its plane used (R398, R399). -/
def sendFrame (s : State) (m : Nat) (toEast : Bool) (f : HlkFrame) (w : HlkFlow) : State :=
  let x := s.hlkMod m
  let e := (x.ends toEast).1
  let g := { f with seq := e.nextSeq }
  let e := { e with
    kept := e.kept ++ [(g, w)]
    nextSeq := (e.nextSeq + 1) % 256
    credits := e.credits.modify (f.plane % 2) (fun c => c - 1) }
  let s := s.setHlkMod m (x.setEnds toEast e (x.ends toEast).2)
  { s with link := { s.link with flows := (w, m) :: s.link.flows.filter (fun y => decide (y.1 ≠ w)) } }

/-- Hand over a module's unacknowledged frames to the modules of their flows. -/
def moveFrames (s : State) (l : List (Bool × HlkFrame × HlkFlow)) : State :=
  l.foldl (fun s x =>
    match s.flowModule x.2.2 with
    | none => s
    | some m =>
      let e := ((s.hlkMod m).ends x.1).1
      let s1 := sendFrame s m x.1 x.2.1 x.2.2
      s1.emit (.hlk m x.1 { x.2.1 with seq := e.nextSeq })) s

/-- A failing module: the first row of Table 13.2 that applies. -/
def moduleFailing (s : State) (m : Nat) : State :=
  let pos := s.hmPos m
  let wide := decide (s.hmWidth m = 2) || (decide (s.hmState m = hmTraining) && decide ((s.hlkMod m).target = 2))
  let sp := spareOf pos
  let frames := s.unacked m
  if 96 ≤ pos then settleLink (retireModule s m)
  else if wide && decide (sp ≠ m) && decide (s.hmState sp = hmSpare) then
    moveFrames (recordEvent (settleLink (trainModule (retireModule s m) sp pos 2)) 0x0A01 0 pos m sp) frames
  else if wide then
    moveFrames (recordEvent (settleLink (trainModule s m pos 1)) 0x0A02 0 pos m (s.recentReplays m).length) frames
  else
    let s := retireModule s m
    let s := settleLink { s with link := { s.link with retired := s.link.retired ++ [pos] } }
    moveFrames (recordEvent s 0x0A03 0 pos m (s.fld Reg.HLK_STATUS 6 0)) frames

/-! ## Frames -/

/-- A control frame of an end: ACK, NAK and the credits it returns. -/
def controlFrame (e : HlkEnd) (nak : Bool) : HlkFrame :=
  ⟨false, 0, 0, 0, false, true, 0, e.expected, nak, planeAt e.owed 0, planeAt e.owed 1⟩

/-- Replay from the oldest unacknowledged frame: counted, and the module fails beyond HLK_ERR_LIMIT in a second (R399,
R401). -/
def replayModule (s : State) (m : Nat) (toEast : Bool) : State :=
  let x := s.hlkMod m
  let s := ((x.ends toEast).1.kept).foldl (fun s f => s.emit (.hlk m toEast f.1)) s
  let s := s.count Reg.HLK_REPLAYS 1
  let rs := s.recentReplays m ++ [s.now]
  let s := (s.setHlkMod m { x with replays := rs }).setFld (hmReg m) 31 16 (min rs.length 65535)
  if s.fld Reg.HLK_ERR_LIMIT 15 0 < rs.length then moduleFailing s m else s


/-- Whether a new frame may leave on a module: it serves the flow, its former module has no frame of the flow left, a
credit is there and fewer than 128 frames are kept (R397-R399). -/
def State.maySend (s : State) (m : Nat) (toEast : Bool) (f : HlkFrame) (w : HlkFlow) : Bool :=
  let e := ((s.hlkMod m).ends toEast).1
  decide (s.flowModule w = some m) && decide (0 < planeAt e.credits f.plane) && decide (e.kept.length < 128) &&
    (match s.link.flows.find? (fun y => decide (y.1 = w)) with
     | none => true
     | some (_, old) => decide (old = m) || !((s.hlkMod old).ends toEast).1.kept.any (fun k => decide (k.2 = w)))

/-- A VALID frame at its receiver: accepted in sequence, else one NAK and discarding (R399). -/
def receiveValid (s : State) (m : Nat) (toEast : Bool) (f : HlkFrame) : State :=
  let x := s.hlkMod m
  let snd := (x.ends toEast).1
  let rcv := (x.ends toEast).2
  if f.crcOk ∧ f.seq = rcv.expected then
    let rcv := { rcv with
      expected := (rcv.expected + 1) % 256
      discarding := false
      owed := rcv.owed.modify (f.plane % 2) (· + 1) }
    s.setHlkMod m (x.setEnds toEast snd rcv)
  else if rcv.discarding then s
  else
    let s := s.setHlkMod m (x.setEnds toEast snd { rcv with discarding := true, owed := [0, 0] })
    s.emit (.hlk m (!toEast) (controlFrame rcv true))

/-- A control frame from the end `toEast` names as receiver's peer: it acknowledges what the receiving end sent, returns
credits, and a NAK makes that end replay. -/
def receiveControl (s : State) (m : Nat) (toEast : Bool) (f : HlkFrame) : State :=
  let x := s.hlkMod m
  let other := (x.ends toEast).1
  let me := (x.ends toEast).2
  let other := { other with owed := [planeAt other.owed 0 - f.reqCredits, planeAt other.owed 1 - f.rspCredits] }
  let acked := me.kept.filter (fun k => decide ((k.1.seq + 256 - f.ack) % 256 < 128))
  let me := { me with
    kept := acked
    credits := [min 64 (planeAt me.credits 0 + f.reqCredits), min 64 (planeAt me.credits 1 + f.rspCredits)] }
  let s := s.setHlkMod m (x.setEnds toEast other me)
  if f.nak then replayModule s m (!toEast) else s

/-- HLK_FRAME (R397-R399): a frame leaves one engine, if it is a new VALID frame, and reaches the other. -/
def execHlkFrame (module : Nat) (toEast : Bool) (frame : HlkFrame) (flow : HlkFlow) (s : State) : Host.Outcome State Fault Refusal :=
  if 108 ≤ module ∨ s.hmState module ≠ hmActive ∨ s.fld Reg.HLK_STATUS 31 31 = 1 then .next s
  else if frame.valid then
    let e := ((s.hlkMod module).ends toEast).1
    if frame.seq = e.nextSeq then
      if s.maySend module toEast frame flow then .next (receiveValid (sendFrame s module toEast frame flow) module toEast frame)
      else .next s
    else .next (receiveValid s module toEast frame)
  else if frame.crcOk then .next (receiveControl s module toEast frame)
  else .next s

/-- HLK_REPLAY_TIMEOUT (R399): 500 ns without progress of ACK. -/
def execHlkReplayTimeout (module : Nat) (fromWest : Bool) (s : State) : Host.Outcome State Fault Refusal :=
  if 108 ≤ module ∨ s.hmState module ≠ hmActive then .next s
  else if ((s.hlkMod module).ends fromWest).1.kept.isEmpty then .next s
  else .next (replayModule s module fromWest)

/-- HLK_MODULE_TRAINED (R401-R403, R410): a module reaches ACTIVE, or fails its training; across a split it starts the
rejoin of the fenced half, and a failed attempt is repeated. -/
def execHlkModuleTrained (module : Nat) (passed : Bool) (s : State) : Host.Outcome State Fault Refusal :=
  let split := decide (s.fld Reg.HLK_STATUS 31 31 = 1)
  if 108 ≤ module ∨ s.hmState module ≠ hmTraining then .next s
  else if passed then
    let x := s.hlkMod module
    let s := (s.setFld (hmReg module) 2 0 hmActive).setFld (hmReg module) 5 4 x.target
    let s := s.setHlkMod module { x with returning := true }
    let s := settleLink s
    let h := if s.fld Reg.HLK_STATUS 30 30 = 0 then Half.east else Half.west
    if split && s.fenced h && s.link.rejoin.isNone && !s.link.leaseLost then
      .next { s with link := { s.link with rejoin := some (h, 0) } }
    else .next s
  else if split then .next s
  else .next (moduleFailing s module)

/-- HLK_COUNT_CLR (R411). -/
def execHlkCountClr (s : State) : Host.Outcome State Fault Refusal := .next (s.resetRegs [Reg.HLK_REPLAYS])

/-- At a boundary the flows of a module that returned come back to it (R402). -/
def returnFlows (s : State) : State :=
  { s with link := { s.link with mods := s.link.mods.map (fun e => (e.1, { e.2 with returning := false })) } }

/-! ## The split -/

/-- The half that holds the authority lease (Table 13.6). -/
def State.leaseHalf (s : State) : Half := if s.fld Reg.HLK_STATUS 30 30 = 0 then .west else .east
def otherHalf (h : Half) : Half := match h with | .west => .east | .east => .west
/-- Client ports of a half (01 Table 1.7). -/
def clientHalf (port : Nat) : Half := if port < 2 then .west else .east

/-- Set or clear the FENCED bit of a half. -/
def setFenced (s : State) (h : Half) (b : Bool) : State :=
  s.setBit Reg.HLK_STATUS (match h with | .west => 28 | .east => 29) b

/-- A fabric port of the fenced half: what it holds is lost and its link information says FENCED (12 R355, R367). -/
def fencePort (s : State) (n : Nat) : State :=
  let lost := (s.fport n).buffers.map (·.2)
  let s := sendLink s n
  let s := (s.setFport n FabPort.init).setFstate n fpFenced
  lost.foldl (fun s x => fabDrop s 2 x.dst) s

/-- The half fences itself (Table 13.3 step 3): its tiles stop as at a round end, its ports go FENCED. -/
def fenceHalf (s : State) (h : Half) : State :=
  let s := setBudget (setFenced s h true) h true
  let s := (s.halfTiles h).foldl (fun s ti =>
    let s := abandonTile s ti
    let st := s.tilState ti
    (if st = tilRunning ∨ st = tilFaulted then s.setTilState ti tilIdle else s).modTile ti (fun t => { t with segs := [] })) s
  let s := ((List.range 12).filter (fun n => decide (portHalf n = h) && decide (s.fstate n ≠ fpDisabled))).foldl fencePort s
  let s := ((List.range 4).filter (fun n => decide (clientHalf n = h))).foldl (fun s n => portDown s n 2) s
  settleAdm { s with link := { s.link with splitDue := false } }

/-- Sessions whose state lies on a half, and their requests, end HALF_LOST with a report (Table 13.3 step 5, 10
Table 10.8). -/
def loseSessions (s : State) (h : Half) (l : List Session) : State :=
  l.foldl (fun s x => report (endRequest s x.id stHalfLost) x stHalfLost (halfNo h) 0) s

/-- The split is declared (R406, Table 13.3): the half without the lease fences itself, at once or when it leaves a
compute reset; the continuing half drops the steps that use the other half. -/
def declareSplit (s : State) : State :=
  let h := otherHalf s.leaseHalf
  let s := s.setBit Reg.HLK_STATUS 31 true
  let s := (List.range 108).foldl (fun s m =>
    if s.hmState m = hmActive then trainModule s m (s.hmPos m) (s.hmWidth m) else s) s
  let lost := s.client.sessions.filter (fun x => s.sessionOn x h)
  let s := recordEvent s 0x0A05 0 (halfNo s.leaseHalf) (s.round % 2 ^ 32) lost.length
  let s := dropOnHalf s h 0
  let s : State := if (s.halfReset h).phase = 1 then setBudget { s with link := { s.link with splitDue := true } } h true
    else fenceHalf s h
  let s := loseSessions s h lost
  { s with plan := { s.plan with due := true } }

/-- HALVES_SPLIT (R406, R487): 2 ms without an accepted frame; not while RESET_IN_N is asserted, and not where a start
or a loss of main power leaves no link. -/
def execHalvesSplit (s : State) : Host.Outcome State Fault Refusal :=
  if s.fld Reg.HLK_STATUS 31 31 = 1 ∨ s.fenced .west = true ∨ s.fenced .east = true ∨ s.fld Reg.MGT_SIGNALS 8 8 = 1 ∨ !s.mainOn then .next s
  else .next (declareSplit s)

/-- LEASE_PULSE (R405): the lease holder pulses LEASE. -/
def execLeasePulse (s : State) : Host.Outcome State Fault Refusal :=
  if s.mgmt.silent then .next s
  else .next (s.emit (.lease s.leaseHalf))

/-! ## Epochs and rejoining -/

/-- Clear VALID in every translation entry of a tile that names a page of a half's stacks (R407), remembering which. -/
def clearEntries (s : State) (ti : Nat) (h : Half) : State :=
  (List.range 4).foldl (fun s space =>
    (List.range (s.fld (tileReg ti (Reg.LAY_XLT_LEN + space)) 19 0)).foldl (fun s page =>
      match s.xltRead ti space page with
      | some (e, false) =>
        if e.getLsbD 63 && s.inStacksOf ti space (page * 0x200000) h then
          match s.tableAddr ti (s.fld (tileReg ti (Reg.LAY_XLT_BASE + space)) 26 12 * 4096) (8 * page) with
          | none => s
          | some (tier, a) =>
            let s := putBytes s ti tier a 8 (e.toNat % 2 ^ 63)
            { s with link := { s.link with cleared := s.link.cleared ++ [(ti, space, page)] } }
        else s
      | _ => s) s) s

/-- At the epoch of a split, the tiles of the continuing half lose the fenced half's pages. -/
def clearFenced (s : State) (h : Half) : State := (s.halfTiles (otherHalf h)).foldl (fun s ti => clearEntries s ti h) s

/-- Set VALID again in the entries that the split cleared. -/
def restoreEntries (s : State) : State :=
  let s := s.link.cleared.foldl (fun s x =>
    match s.xltRead x.1 x.2.1 x.2.2 with
    | some (e, false) =>
      match s.tableAddr x.1 (s.fld (tileReg x.1 (Reg.LAY_XLT_BASE + x.2.1)) 26 12 * 4096) (8 * x.2.2) with
      | none => s
      | some (tier, a) => putBytes s x.1 tier a 8 (e.toNat % 2 ^ 63 + 2 ^ 63)
    | _ => s) s
  { s with link := { s.link with cleared := [] } }

/-- Whether a model has a tile, or a page of its weights, on a fenced half (R408). -/
def State.fencedTile (s : State) (p : Package) : Option Nat :=
  match p.tiles.find? (fun ti => s.fenced (halfOf ti)) with
  | some ti => some ti
  | none =>
    (p.weights.find? (fun w => (List.range w.pages).any (fun i =>
      let va := w.vaddr + i * 0x200000
      (s.fenced .west && s.inStacksOf w.ti w.space va .west) || (s.fenced .east && s.inStacksOf w.ti w.space va .east)))).map (·.ti)

/-- The models that the split paused resume where the record lists every tile they use (Table 13.4). -/
def resumeModels (s : State) (epoch : Nat) : State :=
  let s := s.client.models.foldl (fun s m =>
    if m.paused && s.link.paused.contains m.pkg.model && m.pkg.tiles.all s.usable then
      s.putModel ⟨{ m.pkg with epoch := epoch }, false⟩
    else s) s
  { s with link := { s.link with paused := [] } }

/-- A half rejoins at the boundary that publishes its epoch (Table 13.4 step 5): fences open, entries valid again. -/
def openHalf (s : State) (h : Half) : State :=
  let s := (setFenced s h false).setBit Reg.HLK_STATUS 31 false
  let s := ((List.range 12).filter (fun n => decide (portHalf n = h) && decide (s.fstate n = fpFenced))).foldl (fun s n => settlePort (s.setFstate n fpDown) n) s
  let s := ((List.range 4).filter (fun n => decide (clientHalf n = h) && decide (s.fld (Reg.NET_PORT_STATUS + n) 2 0 = 4))).foldl
    (fun s n => s.setFld (Reg.NET_PORT_STATUS + n) 2 0 0) s
  let s := restoreEntries s
  settleAdm (setBudget { s with
    link := { s.link with rejoin := none }
    plan := { s.plan with due := true } } h false)

/-- The rejoin at a boundary: its reset is taken (step 2), or a half attested and handled returns (step 5). Answers the
half that returns. -/
def rejoinAtBoundary (s : State) : State × Option Half :=
  match s.link.rejoin with
  | some (h, 0) =>
    let s := startReset s [h] 3 false []
    let f := s.takeBytes 32
    let s := { f.2 with link := { f.2.link with rejoin := some (h, 1), nonce := f.1 } }
    (s.emit (.nonce h f.1), none)
  | some (h, 2) => if (s.halfReset h).phase = 0 ∨ (s.halfReset h).phase = 3 then (openHalf (endReset s h) h, some h) else (s, none)
  | _ => (s, none)

/-- The event of a rejoin, after its epoch is published. -/
def noteRejoin (s : State) (h : Half) : State :=
  recordEvent (resumeModels s s.plan.epoch) 0x0A06 0 (halfNo h) s.plan.epoch (s.fld Reg.HLK_STATUS 6 0)

end Sys2Proof.Machine
end

