-- ==== Sys2Proof/Machine/Health.lean ====
section
/-! DEFINITION. Health: spare bonds and rows, retirement of pages, layers, slices and tiles (07 R218-R220, 09 R278),
clusters going dark (14 R436) and the causes of a replacement request (18 R527, R528). -/
namespace Sys2Proof.Machine

/-! ## Moving pages -/

/-- A page that the supervisor picks in the stack tier (11 R343 leaves the place to it: a free value). -/
def State.pickPage (s : State) : Nat × State :=
  let f := s.takeFree
  (f.1.toNat % 524288, f.2)

/-- Copy one slice page to a stack page, granule by granule; what does not read is written in the poison pattern. Answers
whether the page held such a granule (Table 7.4 steps 2 and 3). -/
def copyToStack (s : State) (ti page ppn : Nat) : State × Bool :=
  (List.range 65536).foldl (fun (a : State × Bool) i =>
    let r := a.1.readCoded ti .own (page * 0x200000 + 32 * i)
    (writeStackGran a.1 ti (ppn * 0x200000 + 32 * i) r.2 (BitVec.allOnes 256) r.1.poisoned, a.2 || r.1.poisoned)) (s, false)

/-- The translation entries of a tile that map a page of a target: space and page number. -/
def State.entriesOf (s : State) (ti target ppn : Nat) : List (Nat × Nat) :=
  (List.range 4).flatMap (fun space =>
    ((List.range (s.fld (tileReg ti (Reg.LAY_XLT_LEN + space)) 19 0)).filter (fun page =>
      match s.xltRead ti space page with
      | some (e, _) => e.getLsbD 63 && decide ((e.toNat >>> 58) % 8 = target) && decide (e.toNat % 2 ^ 20 = ppn)
      | none => false)).map (fun page => (space, page)))

/-- Rewrite translation entries to name a page of the stack tier; the permissions stay. -/
def remapEntries (s : State) (ti ppn : Nat) (l : List (Nat × Nat)) : State :=
  l.foldl (fun s x =>
    match s.xltRead ti x.1 x.2, s.tableAddr ti (s.fld (tileReg ti (Reg.LAY_XLT_BASE + x.1)) 26 12 * 4096) (8 * x.2) with
    | some (e, _), some (tier, a) =>
      putBytes s ti tier a 8 (e.toNat / 2 ^ 61 * 2 ^ 61 + 2 * 2 ^ 58 + ppn)
    | _, _ => s) s

/-- Move one slice page out to the stack tier where a translation entry maps it; answers whether it was poisoned. -/
def evacuatePage (s : State) (ti page : Nat) : State × Bool :=
  let es := s.entriesOf ti 0 page
  if es.isEmpty then (s, false)
  else
    let p := s.pickPage
    let r := copyToStack p.2 ti page p.1
    (remapEntries r.1 ti p.1 es, r.2)

/-- Move pages out, counting the poisoned ones. -/
def evacuate (s : State) (ti : Nat) (pages : List Nat) : State × Nat :=
  pages.foldl (fun (a : State × Nat) p =>
    let r := evacuatePage a.1 ti p
    (r.1, a.2 + (if r.2 then 1 else 0))) (s, 0)

/-! ## Layers and slices -/

/-- Move a structure of a tile's tables to the home page: `n` granules from a slice offset to an offset in the page. -/
def moveTable (s : State) (ti home src dst n : Nat) : State :=
  (List.range n).foldl (fun s i =>
    let r := s.readCoded ti .own (src + 32 * i)
    writeStackGran s ti (home * 0x200000 + dst + 32 * i) r.2 (BitVec.allOnes 256) r.1.poisoned) s

/-- The tables of a tile: base register, bytes in use. -/
def State.tablesOf (s : State) (ti : Nat) : List (Nat × Nat) :=
  ((List.range 4).map (fun sp => (Reg.LAY_XLT_BASE + sp, 8 * s.fld (tileReg ti (Reg.LAY_XLT_LEN + sp)) 19 0))) ++
    [(Reg.ATN_DIR_BASE, 32 * s.fld (tileReg ti Reg.ATN_DIR_LEN) 10 0)]

/-- The whole slice is retired (R220): its pages move out, the tables go to a stack-tier home page, the IBUs are
disabled. -/
def retireSlice (s : State) (ti cause bond : Nat) : State :=
  if s.fld (tileReg ti Reg.BDM_STATUS) 15 15 = 1 then s
  else
    let s := (evacuate s ti (List.range 64)).1
    let p := s.pickPage
    let r := (p.2.tablesOf ti).foldl (fun (a : State × Nat) t =>
      let base := a.1.fld (tileReg ti t.1) 26 12 * 4096
      let s := moveTable a.1 ti p.1 base a.2 ((t.2 + 31) / 32)
      (s.setFld (tileReg ti t.1) 26 12 (a.2 / 4096), a.2 + (t.2 + 4095) / 4096 * 4096)) (p.2, 0)
    let s := r.1.setFld (tileReg ti Reg.BDM_HOME_PPN) 18 0 p.1
    let s := s.setFld (tileReg ti Reg.BDM_CTRL) 0 0 1
    let s := (s.setFld (tileReg ti Reg.BDM_STATUS) 15 15 1).setFld (tileReg ti Reg.BDM_STATUS) 2 0 4
    let s := s.setReg64 (tileReg ti Reg.IBU_DISABLE_LO) (2 ^ 64 - 1)
    let s := { s with plan := { s.plan with due := true } }
    recordEvent s 0x2404 ti cause bond s.plan.epoch

/-- STRIPE changes: no data moves, and the contents of each group that changes mode are undefined (07 R226). -/
def restripe (s : State) (ti new : Nat) : State :=
  let old := s.stripe ti
  if old = new then s
  else
    let s := s.setFld (tileReg ti Reg.BDM_CTRL) 15 8 new
    s.modTile ti (fun t => { t with
      sliceGen := t.sliceGen + 1
      slice := SMap.keep t.slice (fun k => decide (old.testBit (granulePair k) = new.testBit (granulePair k))) })

/-- A layer is retired (R219, Table 7.4 steps 2-5): its pages and every striped group move out, the groups return to pair
mode; a third layer retires the slice. -/
def retireLayer (s : State) (ti layer : Nat) : State :=
  let a := tileReg ti Reg.BDM_STATUS
  if s.fld a (16 + layer) (16 + layer) = 1 ∨ s.fld a 15 15 = 1 then s
  else
    let groups := (List.range 8).filter (fun g => (s.stripe ti).testBit g)
    let pages := (List.range 64).filter (fun p => decide (p / 8 = layer) || groups.contains (p % 8))
    let r := evacuate s ti pages
    let s := restripe r.1 ti 0
    let s := (s.setFld a (16 + layer) (16 + layer) 1).setFld (tileReg ti (Reg.BDM_BOND + layer)) 31 31 1
    let s := s.modTile ti (fun t => { t with
      failing := t.failing.filter (fun p => decide (p / 8 ≠ layer))
      bondSuspect := t.bondSuspect.filter (fun x => decide (x.1 ≠ layer)) })
    let s := { s with plan := { s.plan with due := true } }
    let s := recordEvent s 0x2403 ti layer r.2 s.plan.epoch
    if 3 ≤ ((List.range 8).filter (fun l => (s.fld a 23 16).testBit l)).length then retireSlice s ti 0 0 else s

/-- At a boundary a suspect bond is replaced by spares of its layer port (R218). -/
def spareBond (s : State) (ti : Nat) (x : Nat × Nat) : State :=
  let a := tileReg ti (Reg.BDM_BOND + x.1)
  let used := s.fld a 20 16 + sparesFor x.2
  let s := (s.setFld a 20 16 used).setFld a 7 0 (s.fld a 7 0 - 1)
  let s := s.modTile ti (fun t => { t with
    bondSuspect := t.bondSuspect.filter (fun y => decide (y ≠ x))
    bondErr := SMap.del t.bondErr (x.1 * 512 + x.2)
    spared := t.spared ++ [x] })
  recordEvent s 0x2401 ti x.1 x.2 (16 - used)

/-- A bonded row that fails with no spare left takes its page out of service (09 R278). -/
def losePage (s : State) (ti bankCode : Nat) : State :=
  let g := bankCode % 16 / 2
  let pages := if (s.stripe ti).testBit g then (List.range 8).map (fun l => l * 8 + g) else [bankCode / 16 * 8 + g]
  let s := (evacuate s ti pages).1
  s.modTile ti (fun t => { t with failing := t.failing ++ pages.filter (fun p => !t.failing.contains p) })

/-- Spare rows of a bank in use: switched in from the fuse maps, and soft (09 R277). -/
def State.spareRows (s : State) (ti kind bank : Nat) : Nat :=
  let fused := (if kind = 0 then s.fuses.sramRows else s.fuses.bondedRows).filter (fun y => decide (y.1 = ti) && decide (y.2.1 = bank))
  fused.length + ((s.tile ti).softSpares.filter (fun y => decide (y.1 = kind) && decide (y.2.1 = bank) && !fused.contains (ti, y.2))).length

/-- A word as a spare row takes it: the words of the row replaced are written back, poison staying poison. -/
def sparedWord (bank row : Nat) (e : Nat × BitVec 72) : BitVec 72 :=
  if e.1 / 16384 = bank ∧ Config.sramRow e.1 = row then
    let r := sramDecode e.2 e.1
    if r.1.poisoned then sramPoison e.1 else sramEncode r.2 e.1
  else e.2

/-- A soft spare row takes effect while its bank has one free (09 R277, R278); the row's correctable content is written
to the spare, what is not correctable as poison. -/
def takeSpare (s : State) (ti : Nat) (x : Nat × Nat × Nat) : State :=
  let t := s.tile ti
  let used := s.spareRows ti x.1 x.2.1
  if t.softSpares.contains x then s
  else if 8 ≤ used then (if x.1 = 1 then losePage s ti x.2.1 else s)
  else
    let s : State := if x.1 = 0 then
        s.modTile ti (fun t => { t with sram := t.sram.map (fun e => (e.1, sparedWord x.2.1 x.2.2 e)) })
      else
        (List.range 64).foldl (fun s i =>
          let k := granuleNo (x.2.1 / 16) (x.2.1 % 16) x.2.2 i
          let g := bondedG ti k
          let r := granuleDecode (s.rawGranule ti k) g
          s.putGranule ti k (if r.1.poisoned then granulePoison g else granuleEncode r.2 g)) s
    recordEvent (s.modTile ti (fun t => { t with softSpares := t.softSpares ++ [x] })) 0x2605 ti x.1 x.2.1 x.2.2

/-! ## Tiles and clusters -/

/-- A tile's logic is switched off: the sequencer OFF, nothing queued. -/
def offTile (s : State) (ti : Nat) : State :=
  let s := s.modTile ti (fun t => { t with queue := [], handover := none, segs := [], eject := [] })
  (clearHeld s ti).setTilState ti tilOff

/-- A tile is retired in service (09 Table 9.8, 16 R483): it runs nothing and a new epoch follows. -/
def retireTile (s : State) (ti : Nat) : State :=
  if !s.usable ti then s
  else
    let s := offTile (s.dropAt ti 0 false) ti
    { s with plan := { s.plan with retired := s.plan.retired ++ [ti], due := true } }

/-- The tiles of a cluster. -/
def clusterTiles (ci : Nat) : List Nat :=
  (List.range 16).map (fun i => tileAt (ci % 18 * 4 + i % 4) (ci / 18 * 4 + i / 4))

/-- Sage drops every step of the round that uses a cluster's tiles, as for a tile fault (14 R436, R438). -/
def dropCluster (s : State) (ci : Nat) : State := (clusterTiles ci).foldl (fun s ti => s.dropAt ti 0 false) s

/-! ## The saved state (17 R500) -/

/-- The slot of STATE with the highest SEQ. -/
def Card.saved (c : Card) : Option SaveRec :=
  match c.slot0, c.slot1 with
  | some a, some b => some (if a.seq < b.seq then b else a)
  | some a, none => some a
  | none, b => b

/-- Write the slot that does not hold the highest SEQ: the fatigue counts, the floor-plan record in force and the clearing
mark, a new one or the last; nothing where the card does not answer. -/
def saveState (s : State) (mark : Option (Nat × Nat × Nat)) : State :=
  if s.fld Reg.CFG_STATUS 31 31 = 0 then s
  else
    let last := s.card.saved
    let m := mark.getD ((last.map (fun r => (r.clearSeq, r.clearFirst, r.clearHead))).getD (0, 0, 0))
    let r : SaveRec := ⟨((last.map (·.seq)).getD 0) + 1, (List.range 144).map (fun c => (s.reg (Reg.THM_FATIGUE + c)).toNat),
      (s.reg Reg.THM_FATIGUE_TOTAL).toNat, (match s.plan.current with | some p => some p | none => last.bind (·.plan)),
      m.1, m.2.1, m.2.2⟩
    match s.card.slot0 with
    | some a => if some a = last then { s with card := { s.card with slot1 := some r } } else { s with card := { s.card with slot0 := some r } }
    | none => { s with card := { s.card with slot0 := some r } }

/-! ## Replacement (18 R527, R528) -/

/-- A signal of MGT_SIGNALS (20 Table 20.10). -/
def State.signal (s : State) (bit : Nat) : Bool := decide (s.fld Reg.MGT_SIGNALS bit bit = 1)
def setSignal (s : State) (bit : Nat) (v : Bool) : State := s.setBit Reg.MGT_SIGNALS bit v

/-- ALERT_N is asserted while one of its causes holds (20 R571). -/
def settleAlert (s : State) : State := setSignal s 3 (decide (s.fld Reg.MGT_SIGNALS 19 16 ≠ 0))
/-- Hold or release ALERT_N for a cause: 16 AUX_FALLBACK, 17 card, 18 reference, 19 removal. -/
def setAlert (s : State) (bit : Nat) (v : Bool) : State := settleAlert (setSignal s bit v)

/-- The states of PWR_CLn (14 Table 14.11). -/
def clOff : Nat := 0
def clDeferred : Nat := 1
def clSoft : Nat := 2
def clOn : Nat := 3
def clTwoPhase : Nat := 4
def clDark : Nat := 5
def State.clState (s : State) (ci : Nat) : Nat := s.fld (Reg.PWR_CL + ci) 31 29
def State.setCl (s : State) (ci v : Nat) : State := s.setFld (Reg.PWR_CL + ci) 31 29 v

/-- The usable tiles of a half in the record in force; a dark cluster's tiles are not counted as lost. -/
def State.listedTiles (s : State) (h : Half) : Nat :=
  let down := match s.plan.current with | some r => r.down | none => []
  1152 - (down.filter (fun ti => decide (halfOf ti = h) && !s.plan.dark.contains (clusterOf ti))).length

/-- The ones of a 64-bit word. -/
def popCount64 (v : Nat) : Nat := ((List.range 64).filter (fun i => v.testBit i)).length

/-- Bonded pages lost on tiles that the record lists as usable. -/
def State.lostPages (s : State) : Nat :=
  match s.plan.current with
  | none => 0
  | some r => ((r.pages.filter (fun e => !r.down.contains e.1)).map (fun e => 64 - popCount64 e.2)).foldl (· + ·) 0

/-- Working bus converters. -/
def State.converters (s : State) : Nat := ((List.range 5).filter (fun k => (s.fld Reg.PWR_STATUS 20 16).testBit k)).length

/-- A cause of Table 18.4: whether it holds, its measured value and its threshold. -/
def State.replaceCause (s : State) (bit : Nat) : Bool × Nat × Nat :=
  match bit with
  | 0 =>
    let hs := ([Half.west, Half.east].filter (fun h => !s.fenced h)).map s.listedTiles
    let m := hs.foldl min 1152
    let t := s.fld Reg.BST_THR_TILES 10 0
    (decide (m < t), m, t)
  | 1 => let t := s.fld Reg.BST_THR_BONDED 15 0; (decide (t ≤ s.lostPages), s.lostPages, t)
  | 2 => let u := s.fld Reg.HLK_STATUS 6 0; let t := s.fld Reg.BST_THR_HLK 6 0; (decide (u < t), u, t)
  | 3 =>
    let n := ((List.range 144).filter (fun c => decide (s.clState c = clTwoPhase))).length
    let t := s.fld Reg.BST_THR_PHASES 7 0
    (decide (t ≤ n), n, t)
  | 4 => let t := s.fld Reg.BST_THR_CONV 2 0; (decide (s.converters < t), s.converters, t)
  | 5 =>
    let m := ((List.range 144).map (fun c => (s.reg (Reg.THM_FATIGUE + c)).toNat)).foldl max 0
    let t := (s.reg Reg.BST_THR_FATIGUE).toNat
    (decide (t ≤ m), m, t)
  | 6 => let n := s.plan.dark.length; (decide (0 < n), n, 0)
  | 7 => let n := ((List.range 16).filter (fun k => decide (s.fld (Reg.STM_STACK_STATUS + k) 2 0 = stkOffline))).length; (decide (0 < n), n, 0)
  | _ => (s.link.leaseLost, if s.link.leaseLost then 1 else 0, 0)

/-- The report of a replacement cause to every peer (R528). -/
def reportPeers (s : State) (code v0 v1 : Nat) : State :=
  s.client.peers.foldl (fun s p =>
    (sendMsg s p.id 7 false (beBytes 2 code ++ [0, 0, 2, 0, 0, 0] ++ beBytes 8 v0 ++ beBytes 8 v1)).1) s

/-- Set or clear one cause with its events and reports. -/
def settleCause (s : State) (bit : Nat) : State :=
  let c := s.replaceCause bit
  let a := Reg.BST_REPLACE_STATUS
  let on := decide (s.fld a bit bit = 1)
  if c.1 && !on then
    let s := recordEvent (s.setFld a bit bit 1) 0x0C01 0 bit c.2.1 c.2.2
    let s := if bit = 2 then recordEvent s 0x0A07 0 c.2.1 c.2.2 0 else s
    reportPeers s 0x1A (s.fld a 8 0) s.plan.epoch
  else if !c.1 && on then recordEvent (s.setFld a bit bit 0) 0x0C02 0 bit c.2.1 c.2.2
  else s

/-- The health evaluation (R527, R528). -/
def settleReplace (s : State) : State :=
  let s := (List.range 9).foldl settleCause s
  let on := decide (s.fld Reg.BST_REPLACE_STATUS 8 0 ≠ 0)
  setSignal (s.setBit Reg.BST_REPLACE_STATUS 31 on) 6 on

/-- REPLACE_REQ_N is asserted at once by an event whose table says so. -/
def assertReplace (s : State) : State := setSignal (s.setBit Reg.BST_REPLACE_STATUS 31 true) 6 true

/-- A cluster goes dark (14 Table 14.7): cause 0 phases, 1 tie, 2 undervoltage. -/
def makeDark (s : State) (ci cause : Nat) : State :=
  if s.clState ci = clDark then s
  else
    let s := dropCluster s ci
    let s := s.setReg (Reg.PWR_CL + ci) (setBits 0 31 29 clDark)
    let s := recordEvent s 0x0409 0 ci cause s.plan.epoch
    let s := (clusterTiles ci).foldl (fun s ti =>
      let s := offTile s ti
      (s.setFld (tileReg ti Reg.BDM_STATUS) 15 15 1).setFld (tileReg ti Reg.BDM_STATUS) 2 0 4) s
    let s := { s with plan := { s.plan with dark := s.plan.dark ++ [ci], due := true } }
    settleLink (assertReplace s)

end Sys2Proof.Machine
end

