-- ==== Sys2Proof/Machine/Caps.lean ====
section
/-! DEFINITION. The caps of the compute stacks: how CAP_h is formed, and how it falls (15 R452, 14 R422, 10 case note on a cap
lowered by the operator). -/
namespace Sys2Proof.Machine

/-- The cap of Table 14.2 for the working converters. -/
def convCap (k : Nat) : Nat := if 4 ≤ k then 1400 else if k = 3 then 1000 else if k = 2 then 600 else 0

/-- States of THM_STATUS (Table 15.5). -/
def thNormal : Nat := 0
def thReduced : Nat := 1
def thLoss : Nat := 2
def thTripped : Nat := 3
def thCooldown : Nat := 4
def State.thState (s : State) : Nat := s.fld Reg.THM_STATUS 2 0
def State.setTh (s : State) (v : Nat) : State := s.setFld Reg.THM_STATUS 2 0 v

def State.idle (s : State) (h : Half) : Nat := Config.idlePower (match h with | .west => 0 | .east => 1) s.round

/-- The terms of R452 beside the configured one; while coolant is lost, P_idle,h (Table 15.3 step 2). -/
def State.capOther (s : State) (h : Half) : Rat :=
  let c := min (convCap s.converters : Rat) (1400 * s.thm.fcool)
  if s.thState = thLoss then min c (s.idle h) else c

/-- CAP_h as R452 gives it, before the slew limit of a rise; for the round in progress the configured term is at least what was
admitted. -/
def State.capTarget (s : State) (h : Half) : Rat :=
  let cfg := match h with | .west => s.fld Reg.THM_STACK_CAP 10 0 | .east => s.fld Reg.THM_STACK_CAP 26 16
  min (max (cfg : Rat) (s.power s.round h)) (s.capOther h)

def State.capOf (s : State) (h : Half) : Rat := match h with | .west => s.thm.capW | .east => s.thm.capE

/-- Set the cap in force and show it in THM_CAP_NOW, whole watts. -/
def setCap (s : State) (h : Half) (v : Rat) : State :=
  match h with
  | .west => { s.setFld Reg.THM_CAP_NOW 15 0 v.floor.toNat with thm := { s.thm with capW := v } }
  | .east => { s.setFld Reg.THM_CAP_NOW 31 16 v.floor.toNat with thm := { s.thm with capE := v } }

/-- A fall of a cap applies at once; one that coolant or converters cause makes Sage re-check its plan at the next boundary. -/
def lowerCap (s : State) (h : Half) : State :=
  if s.capTarget h < s.capOf h then
    let due := decide (s.capOther h < s.capOf h)
    let s := setCap s h (s.capTarget h)
    { s with sage := { s.sage with recheck := s.sage.recheck || due } }
  else s

def lowerCaps (s : State) : State := lowerCap (lowerCap s .west) .east

/-- A round already admitted fits its stack's cap (10 case note). -/
def State.capHolds (s : State) (n : Nat) (h : Half) : Bool :=
  decide (s.power n h ≤ s.capNow h) || decide (s.power n h ≤ s.capOther h)

end Sys2Proof.Machine
end

