-- ==== Sys2Proof/Machine/Boundary.lean ====
section
/-! DEFINITION. The round boundary (10 R291, R314): commit and drop, rollback, live writes, floor-plan epochs with relocation
and the re-check of the plan (11 R349, 16 R484), and the tiles' state at the start of a round (02 R49). -/
namespace Sys2Proof.Machine

/-! ## Live writes -/

/-- The bits of a register that hold live (RL) fields. -/
def liveMask (a : Nat) : Word :=
  match regDef? a with
  | none => 0
  | some d => d.fields.foldl (fun m f => if f.access = .rl then setBits m f.hi f.lo (2 ^ 32 - 1) else m) 0

/-- Apply the pending live writes together at the boundary of the round that begins (00 R14, 17 R508). -/
def applyLive (s : State) : State :=
  let n := s.shadow.length
  let s := if n = 0 then s else recordEvent s 0x0206 0 n (s.calendar / s.roundNs % 2 ^ 32) 0
  let s1 := s.shadow.foldl (fun s e =>
    let m := liveMask e.1
    s.setReg e.1 ((s.reg e.1 &&& ~~~m) ||| (e.2 &&& m))) s
  { s1 with shadow := [] }

/-! ## Tiles -/

/-- Committed in-place work that runs past a boundary (07 R216). -/
def noteOverrun (s : State) (ti n : Nat) : State :=
  ((s.tile ti).queue.filter QEntry.committedInPlace).foldl (fun s e =>
    match e.waits with
    | .ibu f left _ =>
      match left with
      | [] => s
      | (_, pair) :: _ =>
        recordEvent (s.setFld (tileReg ti Reg.IBU_STATUS) 30 30 1) 0x2502 ti (f.layer * 8 + pair) left.length (n % 2 ^ 32)
    | _ => s) s

/-- The state in which a tile enters round n, before its segments are loaded (02 R49, R75, 05 R147, 06 R171, 03 R103). -/
def enterRound (s : State) (ti n : Nat) : State :=
  let s := noteOverrun (abandonTile s ti) ti n
  let sp := (s.tile ti).pendingSpares
  let s := sp.foldl (fun s x => takeSpare s ti x) (s.modTile ti (fun t => { t with pendingSpares := [] }))
  let s := s.resetRegs ((List.range 12).map (fun b => tileReg ti (Reg.TIL_BANK_OWN + b)))
  let s := s.setTokens ti 0
  let s := s.modTile ti (fun t => { t with
    segs := []
    ordinal := 0
    slots := []
    recv := []
    syncs := []
    xlt := []
    dirCache := []
    starved := false
    oobEvent := false
    poisonEvent := false
    nocCrc := 0 })
  let st := s.tilState ti
  if st = tilRunning ∨ st = tilFaulted then s.setTilState ti tilIdle else s

/-- Start the first segment of a tile that has one (10 R314 step 6). -/
def startTile (s : State) (ti : Nat) : State :=
  let t := s.tile ti
  let s := s.setFld (tileReg ti Reg.TIL_STATUS) 13 8 t.segs.length
  match t.segs with
  | [] => s
  | g :: _ =>
    if s.tilState ti = tilIdle ∧ s.usable ti then (s.setTile ti { t with pc := g.entry }).setTilState ti tilRunning else s

/-! ## Floor-plan epochs -/

/-- The usable pages of a tile's own slice, one bit each (11 Table 11.8, 07 R219, R220, 09 R278). -/
def State.slicePages (s : State) (ti : Nat) : Nat :=
  let st := s.reg (tileReg ti Reg.BDM_STATUS)
  if getBits st 15 15 = 1 then 0
  else (List.range 64).foldl (fun a p =>
    if (getBits st 23 16).testBit (p / 8) || (s.tile ti).failing.contains p then a else a + 2 ^ p) 0

/-- Usable stack pages of a half. -/
def State.stackPages (s : State) (h : Half) : Nat :=
  if s.stackHalfUp h then
    262144 - (s.stm.retired.filter (fun r => decide (r.kind = 1) &&
      decide (h = (if r.ppn < 262144 then Half.west else Half.east)))).length
  else 0

/-- The record of the floor plan as it stands (11 R347, 16 R482). -/
def State.planNow (s : State) (epoch prev round : Nat) : PlanRec :=
  let down := (List.range tileCount).filter (fun ti => !s.usable ti || s.fenced (halfOf ti))
  let pages := (s.tiles.map (·.1)).foldl (fun m ti =>
    if down.contains ti then
      (if s.plan.fused.contains ti && decide (s.fld (tileReg (partner ti) Reg.BDM_STATUS) 14 14 = 1) then SMap.put m ti (s.slicePages ti) else m)
    else
      let v := s.slicePages ti
      if v = 2 ^ 64 - 1 then m else SMap.put m ti v) ([] : SMap Nat)
  ⟨epoch, prev, round, s.fabAddr, s.fenced .west, s.fenced .east, s.stackPages .west, s.stackPages .east, down, pages⟩

/-- Copy one page of a slice to another tile's slice, granule by granule; what does not read is written as poison
(11 R349, Table 7.4). -/
def copyPage (s : State) (src dst pageS pageD : Nat) : State :=
  (List.range 65536).foldl (fun s i =>
    let r := s.readCoded src .own (pageS * 0x200000 + 32 * i)
    writeBonded s dst ⟨.own, pageD * 0x200000 + 32 * i, r.2, BitVec.allOnes 256, r.1.poisoned⟩) s

/-- Copy what a tile's table of one space maps to its alternate: slice pages are copied, stack pages mapped as they are. -/
def copySpace (s : State) (model src dst space : Nat) : State :=
  let r := s.reg (tileReg src (Reg.LAY_XLT_LEN + space))
  if getBits r 31 31 = 0 then s
  else
    (List.range (getBits r 19 0)).foldl (fun s page =>
      match s.xltRead src space page with
      | none => s
      | some (e, poison) =>
        if poison || !e.getLsbD 63 then s
        else
          let own := decide ((e.toNat >>> 58) % 8 = 0)
          let ppn := Config.supervisorPage model dst space page % 64
          let s := if own then copyPage s src dst (e.toNat % 64) ppn else s
          let s := growTable s dst space (page + 1)
          match s.tableAddr dst (s.fld (tileReg dst (Reg.LAY_XLT_BASE + space)) 26 12 * 4096) (8 * page) with
          | some (tier, a) => putBytes s dst tier a 8 (if own then e.toNat / 2 ^ 20 * 2 ^ 20 + ppn else e.toNat)
          | none => s) s

/-- Move the sequences of a tile to its alternate: directory entries, and the staging buffers in SRAM. -/
def copySeqs (s : State) (src dst : Nat) : State :=
  let r := s.reg (tileReg src Reg.ATN_DIR_LEN)
  if getBits r 31 31 = 0 then s
  else
    (List.range (getBits r 10 0)).foldl (fun s i =>
      match s.dirRead src i with
      | some (v, false) =>
        if v / 2 ^ 15 % 2 = 0 then s
        else
          let e := dirOf v i
          let space := SMap.getD (s.tile src).kvSpace e.session 0
          let size := match readHdr s src space e.pageList with | .ok h => h.stageSize | .error _ => 0
          let ws := (List.range ((size + 7) / 8)).map (fun j =>
            let w := e.stageAddr / 8 + j
            let x := (s.tile src).readWord src w
            SramWrite.mk w x.2 (BitVec.allOnes 64) x.1.poisoned)
          let s := writeSram (ensureDir s dst) dst ws
          let s := s.modTile dst (fun t => { t with kvSpace := SMap.put t.kvSpace e.session space })
          match s.freeDir dst e.session e.layer e.headGroup with
          | none => s
          | some k =>
            match s.tableAddr dst (s.fld (tileReg dst Reg.ATN_DIR_BASE) 26 12 * 4096) (32 * k) with
            | some (tier, a) => writeGranule s dst tier a v
            | none => s
      | _ => s) s

/-- Rename a tile in a package, with the scaling of its RELOC entry (11 R349). -/
def Package.rename (p : Package) (r : RelocRec) : Package :=
  let f (t : Nat) : Nat := if t = r.fromTi then r.toTi else t
  { p with
    kinds := p.kinds.map (fun k => { k with parts := k.parts.map (fun q => { q with tiles := q.tiles.map (fun t =>
      if t.ti = r.fromTi then { t with ti := r.toTi, scale := r.scale, add := r.add } else t) }) })
    templates := p.templates.map (fun t => { t with ti := f t.ti })
    weights := p.weights.map (fun w => { w with ti := f w.ti })
    kv := p.kv.map (fun k => { k with ti := f k.ti })
    seeds := p.seeds.map (fun x => { x with ti := f x.ti }) }

/-- Relocate the tiles of a package that the record does not list; answers the first that has no alternate. -/
def relocate (s : State) (p : Package) : List Nat → State × Package × Option Nat
  | [] => (s, p, none)
  | ti :: rest =>
    match p.reloc.find? (fun r => decide (r.fromTi = ti) && s.usable r.toTi && !p.tiles.contains r.toTi) with
    | none => (s, p, some ti)
    | some r =>
      let s := (List.range 4).foldl (fun s sp => copySpace s p.model ti r.toTi sp) s
      let s := copySeqs s ti r.toTi
      relocate (recordEvent s 0x070A 0 p.model ti r.toTi) (p.rename r) rest

/-- A model's weights in stacks of a half that is offline: the tile whose table maps them (08 R236). -/
def State.offlineTile (s : State) (p : Package) : Option Nat :=
  (p.weights.find? (fun w => (List.range w.pages).any (fun i =>
    [Half.west, Half.east].any (fun h => !s.stackHalfUp h && s.inStacksOf w.ti w.space (w.vaddr + i * 0x200000) h)))).map (·.ti)

/-- Treat one model at a new epoch (11 R349, 13 R408). -/
def epochModel (s : State) (epoch : Nat) (m : Model) : State :=
  if m.paused then s
  else
    match s.fencedTile m.pkg with
    | some ti =>
      let s := pauseModel s m ti epoch
      { s with link := { s.link with paused := s.link.paused ++ [m.pkg.model] } }
    | none =>
    match s.offlineTile m.pkg with
    | some ti => pauseModel s m ti epoch
    | none =>
      let r := relocate s m.pkg (m.pkg.tiles.filter (fun ti => !s.usable ti))
      match r.2.2 with
      | some ti => pauseModel r.1 { m with pkg := r.2.1 } ti epoch
      | none => r.1.putModel ⟨{ r.2.1 with epoch := epoch }, false⟩

/-- A planned batch step that no longer fits: a tile of its parts is gone or over budget, its model is paused, or a stack
is over its cap (10 R316 case notes). -/
def State.unfit (s : State) (b : Batch) : Bool :=
  match s.model? b.model with
  | none => true
  | some m =>
    m.paused ||
    (match s.kind? b.model b.kind with
     | none => true
     | some k => k.parts.zipIdx.any (fun x =>
        let n := b.round + x.2
        x.1.tiles.any (fun t => !s.usable t.ti || s.fenced (halfOf t.ti) ||
          decide (s.budget 0 < ((List.range 16).map (fun q => s.used n t.ti q)).foldl (· + ·) 0)) ||
        !s.capHolds n .west || !s.capHolds n .east))

/-- Sage re-checks every planned round, the last opened batch step first (log 28), and re-places what it can; the event
records how many steps moved and how many requests ended. -/
def recheckPlan (s : State) (cause n : Nat) : State :=
  let bad := s.sage.batches.reverse.filter (fun b => b.holds && !b.committed && b.part.isNone)
  let r := bad.foldl (fun (a : State × Nat) b => if a.1.unfit b then (dropBatch a.1 b 6, a.2 + b.members.length) else a) (s, 0)
  let before := (r.1.client.sessions.filter (fun x => x.request.isSome)).length
  let s := settleRequests r.1 n
  let after := (s.client.sessions.filter (fun x => x.request.isSome)).length
  recordEvent s 0x0608 0 cause r.2 (before - after)

/-- A new epoch takes effect (16 R483, R484). -/
def publishEpoch (s : State) (n : Nat) : State :=
  let prev := s.plan.epoch
  let epoch := if prev = 0xFFFFFFFF then 1 else prev + 1
  let r := s.planNow epoch prev n
  let s := { s with plan := { s.plan with epoch := epoch, previous := s.plan.current, current := some r, due := false } }
  let s := s.setReg Reg.MGT_EPOCH (BitVec.ofNat 32 epoch)
  let s := s.client.models.foldl (fun s m => epochModel s epoch m) s
  let s := [Half.west, Half.east].foldl (fun s h =>
    if s.fenced h then clearFenced s h
    else if !s.stackHalfUp h then (s.halfTiles .west ++ s.halfTiles .east).foldl (fun s ti => clearEntries s ti h) s
    else s) s
  let s := saveState (recheckPlan s 0 n) none
  let s := recordEvent s 0x0019 0 epoch prev (tileCount - r.down.length)
  let s := s.client.peers.foldl (fun s p => (sendMsg s p.id 8 false (planBytes r)).1) s
  (List.range 8).foldl (fun s e =>
    if s.ensState e = esLeader then (s.ensMembers e).foldl (fun s a => sendCtrl s none a (.floorPlan (planBytes r))) s
    else if s.ensState e = esMember then
      (s.ensLeader e :: s.ensMembers e).foldl (fun s a => sendCtrl s none a (.floorPlan (planBytes r))) s
    else s) s

/-! ## The boundary -/

/-- Whether rounds run: main power is on and ADM_STATUS.STATE is SERVING, HALF or PAUSED (10 Table 10.12, 16 Table 16.1 step 12). -/
def State.roundsRun (s : State) : Bool := s.mainOn && [2, 3, 4].contains (s.fld Reg.ADM_STATUS 2 0)

/-- The low 32 bits of a signed number. -/
def low32 (z : Int) : Nat := (z % 2 ^ 32).toNat

/-- Calendar time is set (16 R476-R479): it becomes the time of the setting, or steps by it, with event 0x001A. -/
def applySetting (s : State) (x : TimeSetting) : State :=
  let d : Int := match x.target with
    | some t => (t : Int) - (s.now + s.tb.offset)
    | none => x.delta
  let s := { s with tb := { s.tb with offset := s.tb.offset + d, isSet := true, pending := none } }
  let s := (s.setFld Reg.MGT_TIME_STATUS 30 30 1).setFld Reg.MGT_TIME_STATUS 1 0 x.source
  recordEvent s 0x001A 0 x.source (low32 d) 0

/-- Set calendar time: at once before rounds run, else at the next boundary. -/
def setTime (s : State) (x : TimeSetting) : State :=
  if s.roundsRun then { s with tb := { s.tb with pending := some x } } else applySetting s x

/-- The setting that waits for this boundary. -/
def applyTime (s : State) : State :=
  match s.tb.pending with
  | none => s
  | some x => applySetting s x

/-- Commit what is complete at t1 and name what drops: running batch steps in their last part or with reports missing
(10 R314 steps 2, 3). -/
def State.falls (s : State) (b : Batch) : Bool :=
  match b.part with
  | none => b.dropped.isSome
  | some k => !b.committed && (b.dropped.isSome || !b.allReported || decide (k + 1 = s.nparts b.model b.kind))

def commitAtEnd (s : State) : State :=
  s.sage.batches.foldl (fun s b =>
    if b.dropped.isNone && !b.committed && b.ens.isNone && b.leader.isNone && b.complete (s.nparts b.model b.kind) then commitBatch s b
    else s) s

/-- A batch step whose part is done goes on to its next. -/
def carryOn (s : State) (b : Batch) : State :=
  if b.part.isSome && !b.committed then
    let s := carryMarks s b
    { s with sage := { s.sage with batches := s.sage.batches.map (fun x =>
      if x.id = b.id then { x with part := none, need := [], got := [], bases := [] } else x) } }
  else s

/-- Batch steps of past rounds whose IBU_POST reservation is over leave. -/
def expire (s : State) (n : Nat) : State :=
  { s with sage := { s.sage with batches := s.sage.batches.filter (fun b =>
    decide (n ≤ b.round + s.nparts b.model b.kind) || (!b.committed && b.leader.isNone && decide (n ≤ b.round))) } }

/-- The planning pace of every cluster with a reading, in ADM_FLOORn (10 R302, R320). -/
def refreshPace (s : State) : State :=
  s.sage.readings.foldl (fun s e => s.setFld (Reg.ADM_FLOOR + e.1) 31 16 (s.planPace e.1 s.round)) s

/-- The targets of round n, and ADM_STACK_W and _E (10 R306, Table 10.11). -/
def refreshPower (s : State) (n : Nat) : State :=
  let w := s.nextTarget n .west
  let e := s.nextTarget n .east
  let s := { s with sage := { s.sage with targetW := w, targetE := e } }
  let pack (t p : Rat) : Word := BitVec.ofNat 32 (t.floor.toNat % 65536 * 65536 + p.floor.toNat % 65536)
  (s.setReg Reg.ADM_STACK_W (pack w (s.power n .west))).setReg Reg.ADM_STACK_E (pack e (s.power n .east))

/-- The end of a round: commits, drops, rollback (10 R314 steps 2-4). -/
def endRound (s : State) : State :=
  let s := commitAtEnd s
  let falling := s.sage.batches.filter s.falls
  let s := (s.sage.batches.filter (fun b => !s.falls b)).foldl carryOn s
  let s := falling.foldl (fun s b => dropBatch s b (b.dropped.getD (if b.leader.isSome || b.ens.isSome then 5 else 0))) s
  let s := (s.tiles.map (·.1)).foldl (fun s ti => if s.inReset (halfOf ti) then s else dropMarks (abandonTile s ti) ti) s
  { s with
    mesh := s.mesh.filter (fun p => !(decide (p.ptype = .memWrite) && decide (p.srcKind = 0)))
    sage := { s.sage with reports := [], faults := [], segments := [] } }

/-! ## Work of other blocks between rounds -/

/-- Units that a tile runs in a pass of Thyme: eight of logic, bond and IBU each, and its sensor (18 Table 18.2). -/
def unitsOf (ti : Nat) : Nat := if 4 * (tileY ti % 4) + tileX ti % 4 ≤ 8 then 25 else 24

/-- Whether a cluster has run its units of the pass. -/
def State.passDone (s : State) (ci : Nat) : Bool :=
  (clusterTiles ci).all (fun ti => !s.usable ti || decide (unitsOf ti ≤ SMap.getD s.bist.done ti 0))

/-- A cluster whose pass has run longer than 24 h (18 R524). -/
def noteLate (s : State) : State :=
  let age := s.now - s.bist.passAt
  if age ≤ 86400000000000 then s
  else
    ((List.range 144).filter (fun ci => !s.bist.late.contains ci && !s.passDone ci)).foldl (fun s ci =>
      recordEvent { s with bist := { s.bist with late := s.bist.late ++ [ci] } } 0x0C06 0 ci (age / 3600000000000) 0) s

/-- Suspect bonds, layers and slices are treated between rounds (07 R218-R220). -/
def healthBoundary (s : State) : State :=
  let s := noteLate s
  let s := (s.tiles.map (fun e => (e.1, e.2.bondSuspect))).foldl (fun s e => e.2.foldl (fun s x => spareBond s e.1 x) s) s
  let ls := s.sup.layersDue
  let ss := s.sup.slicesDue
  let s := { s with sup := { s.sup with layersDue := [], slicesDue := [] } }
  let s := ls.foldl (fun s x => retireLayer s x.1 x.2) s
  ss.foldl (fun s x => retireSlice s x.1 x.2.1 x.2.2) s

/-- The tiles that a requested test holds (18 Table 18.3): a cluster for TEST 4. -/
def TestJob.tiles (j : TestJob) : List Nat := if j.test = 4 then clusterTiles (clusterOf j.ti) else [j.ti]

/-- Whether a tile has a planned part in a round. -/
def State.plannedOn (s : State) (n ti : Nat) : Bool := (s.partsAt n).any (fun x => x.2.tiles.any (fun t => decide (t.ti = ti)))

/-- A requested test takes its tiles from this boundary, and starts in the first round in which they have no planned part;
tiles of a test that has ended get budget again (18 R520). -/
def testBoundary (s : State) (n : Nat) : State :=
  let s := { s with bist := { s.bist with releasing := [] } }
  match s.bist.job with
  | none => s
  | some j =>
    if j.running then s
    else
      let go := !j.tiles.any (fun ti => s.plannedOn n ti)
      { s with bist := { s.bist with held := j.tiles, job := some { j with running := go } } }

/-- Clusters that are powered again get budget at a boundary (14 R438). -/
def powerBoundary (s : State) : State :=
  { s with pwr := { s.pwr with noBudget := s.pwr.noBudget.filter (fun c => decide (s.clState c ≠ clOn) && decide (s.clState c ≠ clTwoPhase)) } }

/-- Batch steps with a part in round n on a tile that has no budget are dropped, as for a tile fault. -/
def dropUnbudgeted (s : State) (n : Nat) : State :=
  let bad := (s.partsAt n).filter (fun x => !x.1.committed && x.2.tiles.any (fun t => s.usable t.ti && !s.givesBudget t.ti &&
    !s.bist.held.contains t.ti))
  bad.foldl (fun s x => dropBatch s x.1 (if x.2.tiles.any (fun t => s.inReset (halfOf t.ti)) then 3 else 1)) s

/-- Sage resumes admission at the boundary after coolant is restored (15 R463); BALLAST_SHORT is recorded once per round (R457). -/
def resumeAdmission (s : State) : State :=
  let s := { s with thm := { s.thm with shortRound := [] } }
  if s.fld Reg.ADM_STATUS 2 0 = 4 ∧ s.thState ≠ thLoss then settleAdm (s.setFld Reg.ADM_STATUS 2 0 2) else s

/-- A partition whose MIN was lowered keeps the MIN that an admitted round's plan needs (17 R508 case note). -/
def notePlanMin (s : State) (n : Nat) : State :=
  let need (p : Nat) (h : Half) : Nat := (s.traffic n p h * 1024 / ((s.windowNs : Rat) - 2000)).ceil.toNat
  let l := (List.range 16).flatMap (fun p => [(2 * p, need p .west), (2 * p + 1, need p .east)])
  { s with stm := { s.stm with planMin := l.filter (fun x => decide (0 < x.2)) } }

/-- The start of round n (10 R291, R314 steps 5, 6). -/
def beginRound (s : State) (n : Nat) : State :=
  let s := s.setReg64 Reg.ADM_ROUND_LO n
  let f := s.takeFree
  let s := { f.2 with
    sage := { f.2.sage with forecast := f.1.toNat }
    fab := { f.2.fab with dropsInRound := 0 } }
  let s := settleSlots s
  let s := (s.client.loads.filterMap (fun x => x.ready.map (fun p => (x, p)))).foldl (fun s x => acceptLoad s x.1 x.2) s
  let s := if s.plan.due then publishEpoch s n else s
  let s := notePlanMin (resumeAdmission (lowerCaps s)) n
  let s := if s.sage.recheck then recheckPlan { s with sage := { s.sage with recheck := false } } 1 n else s
  let s := settleRequests (dropUnbudgeted (expire s n) n) n
  let s := refreshPower (refreshPace s) n
  let s := (s.tiles.map (·.1)).foldl (fun s ti => enterRound s ti n) s
  let run := s.sage.batches.filter (fun b => b.dropped.isNone && !b.committed)
  let ends := match s.sage.draining with | none => true | some t => decide (s.now + s.roundNs ≤ t)
  let s := if ends then run.foldl (fun s b => loadBatch s b n) s else s
  (s.tiles.map (·.1)).foldl startTile s

/-- The boundary: the round that ends, live writes, time, the other blocks' work between rounds, and the round that starts. -/
def roundBoundary (s : State) : State :=
  let s := applyTime (applyLive (endRound s))
  let n := s.calendar / s.roundNs
  let r := rejoinAtBoundary (settleOverflow s)
  let s := endReset (endReset r.1 .west) .east
  let s := powerBoundary (testBoundary (healthBoundary (returnFlows s)) n)
  let s := beginRound s n
  let s := match r.2 with | some h => noteRejoin s h | none => s
  settleReplace s

/-- ROUND_BOUNDARY (10 R291, R314): calendar time reaches the boundary of the next round. Before rounds run nothing is done
at one (17 R508). -/
def execRoundBoundary (s : State) : Host.Outcome State Fault Refusal :=
  let n := s.calendar / s.roundNs + 1
  let s := { s with now := s.now + (n * s.roundNs - s.calendar) }
  if s.roundsRun then .next (roundBoundary s) else .next s

end Sys2Proof.Machine
end

