-- ==== Sys2Proof/Machine/ComputeReset.lean ====
section
/-! DEFINITION. The commands of a compute reset (16 R485-R488, R494): its requests and the steps of Table 16.5. -/
namespace Sys2Proof.Machine

/-- A write of RESET_W or RESET_E (R494): refused in HALTED, REMOVING and REMOVE_READY. -/
def resetWrite (s : State) (hs : List Half) (cuts : List (Nat × Nat)) : State :=
  if [msHalted, msRemoving, msReady].contains s.msState then refuse s Reg.MGT_RESET_CTRL stRefused
  else requestReset s hs 0 false cuts

/-- RESET_W (R485, R494). -/
def execResetW (cuts : List (Nat × Nat)) (s : State) : Host.Outcome State Fault Refusal := .next (resetWrite s [.west] cuts)

/-- RESET_E (R485, R494). -/
def execResetE (cuts : List (Nat × Nat)) (s : State) : Host.Outcome State Fault Refusal := .next (resetWrite s [.east] cuts)

/-- The release of RESET_IN_N lets the halves it holds be released (Table 16.5 step 4). -/
def releasePin (s : State) : State :=
  { s with ctl := { s.ctl with west := { s.ctl.west with byPin := false }, east := { s.ctl.east with byPin := false } } }

/-- RESET_IN_N (R485, R487): asserted for 1 us it resets both halves; its release ends the hold of step 4. -/
def execResetInN (asserted : Bool) (cuts : List (Nat × Nat)) (s : State) : Host.Outcome State Fault Refusal :=
  if asserted then .next (requestReset (setSignal s 8 true) [.west, .east] 1 true cuts)
  else .next (releasePin (setSignal s 8 false))

/-- COMPUTE_RESET_RELEASE (Table 16.5 step 4); a half whose split was declared in its reset fences itself now (13 R406). -/
def execComputeResetRelease (h : Half) (s : State) : Host.Outcome State Fault Refusal :=
  let r := releaseHalf s h
  if s.link.splitDue && decide (h = otherHalf s.leaseHalf) && decide ((r.halfReset h).phase = 2) then .next (fenceHalf r h) else .next r

/-- BACKEND_TRAINED (07 R222, Table 16.5 step 5): a tile's controller takes its ports back. -/
def execBackendTrained (ti : Nat) (s : State) : Host.Outcome State Fault Refusal :=
  if s.ctl.untrained.contains ti && decide ((s.halfReset (halfOf ti)).phase = 2) then .next (takePorts s ti) else .next s

/-- CUT_LIST_HANDLING (R488, Table 16.5 step 7). -/
def execCutListHandling (h : Half) (s : State) : Host.Outcome State Fault Refusal := .next (handleReset s h)

end Sys2Proof.Machine
end

