-- ==== Sys2Proof/Machine/Card.lean ====
section
/-! DEFINITION. The configuration card (17 R496-R517): its partitions and records as bytes, the check of a container
(Table 17.5), boot images (19 R544), and the commands that write and read it. -/
namespace Sys2Proof.Machine

/-! ## Partitions -/

def cardBootA : Nat := 0x20000
def cardBootB : Nat := 0x1020000
def cardBootSize : Nat := 0x1000000
def cardCfg0 : Nat := 0x2020000
def cardCfg1 : Nat := 0x2420000
def cardCfgSize : Nat := 0x400000
def cardCal : Nat := 0x2820000
def cardCalSize : Nat := 0x100000
def cardRetired : Nat := 0x2920000
def cardTrip : Nat := 0x29A0000
def cardState : Nat := 0x29B0000
def cardLog : Nat := 0x2AB0000

/-- A signed number in two's complement of `n` bytes, little-endian. -/
def leInt (n : Nat) (z : Int) : List Nat := leBytes n (z % (256 ^ n : Nat)).toNat

/-- An entry of the retired list (08 Table 8.5). -/
def retiredBytes (e : RetiredEntry) : List Nat :=
  let l := leBytes 4 e.seq ++ [e.kind, e.stack, e.chan, e.loc] ++ leBytes 4 e.ppn ++ leBytes 2 e.row ++ [0, 0] ++ leBytes 8 e.time ++
    [0, 0, 0, 0]
  l ++ leBytes 4 (crc32 l)

/-- A trip record (19 Table 19.12): the CRC is taken with STATE as 0xFF. -/
def tripBytes (r : TripRec) : List Nat :=
  let body (st : Nat) : List Nat :=
    leBytes 4 0x54524950 ++ leBytes 4 r.seq ++ leBytes 8 r.time ++ [r.kind, st] ++ leBytes 2 r.code ++
      leBytes 4 r.p0 ++ leBytes 4 r.p1 ++ leBytes 4 r.p2 ++ leBytes 8 r.round ++ leBytes 4 r.evtSeq ++ [0, 0, 0, 0] ++
      r.vmin.flatMap (leBytes 2) ++ [0, 0] ++ r.vminTime.flatMap (leBytes 8) ++ List.replicate 32 0 ++ r.temps.flatMap (leInt 2)
  body (if r.isOpen then 0xFF else 0) ++ leBytes 4 (crc32 (body 0xFF)) ++ [0, 0, 0, 0]

/-- A slot of STATE (R500); a record that does not exist yet is zeros. -/
def saveBytes (r : SaveRec) : List Nat :=
  let body := r.fatigue.flatMap (leBytes 4) ++ leBytes 4 r.total ++
    (match r.plan with | some p => planBytes p | none => List.replicate 18784 0) ++
    leBytes 4 r.clearSeq ++ leBytes 4 r.clearFirst ++ leBytes 4 r.clearHead
  leBytes 4 r.seq ++ leBytes 4 body.length ++ leBytes 4 (crc32 body) ++ [0, 0, 0, 0] ++ body

/-- The byte of a slotted list at an offset: slots of `n` bytes, erased behind the last. -/
def slotByte {α : Type} (enc : α → List Nat) (n : Nat) (l : List α) (off : Nat) : Nat :=
  match l[off / n]? with
  | none => 0xFF
  | some e => (enc e).getD (off % n) 0xFF

/-- A byte of the card that the module may read out (R512). -/
def State.cardByte (s : State) (a : Nat) : Nat :=
  if a < cardBootA ∨ cardCfg0 ≤ a ∧ a < cardRetired then SMap.getD s.card.bytes a 0xFF
  else if cardRetired ≤ a ∧ a < cardTrip then slotByte retiredBytes 32 (s.stm.retired.take 16384) (a - cardRetired)
  else if cardTrip ≤ a ∧ a < cardState then slotByte tripBytes 1024 s.card.trips (a - cardTrip)
  else if cardState ≤ a ∧ a < cardLog then
    match (if a < cardState + 0x80000 then s.card.slot0 else s.card.slot1) with
    | none => 0xFF
    | some r => (saveBytes r).getD ((a - cardState) % 0x80000) 0xFF
  else 0

/-- Bytes of HEADER, the boot copies, the configuration slots and CAL. -/
def Card.read (c : Card) (base n : Nat) : List Nat := (List.range n).map (fun i => SMap.getD c.bytes (base + i) 0xFF)

/-- The card header passes its checks (R499). -/
def Card.headerOk (c : Card) : Bool :=
  let h := c.read 0 64
  decide (leAt h 0 4 = 0x43445232) && decide (leAt h 4 2 = 1) && decide (leAt h 60 4 = crc32 (h.take 60))

/-! ## Containers (R501-R506) -/

/-- A failed check: cause of Table 17.5, field ID, offset of what fails. -/
structure Bad where
  cause : Nat
  field : Nat
  off : Nat
deriving DecidableEq, Repr

/-- A container that passes: SEQ, fields, whether its key is the owner's, its digest. -/
structure Container where
  seq : Nat
  fields : List (Nat × List Nat)
  owner : Bool
  digest : List Nat
deriving DecidableEq, Repr

/-- Fields of a calibration set with their sizes (Table 17.9). -/
def calSize (id : Nat) : Option Nat :=
  match id with
  | 1 => some 262144
  | 2 => some 5184
  | 3 => some 1280
  | 4 => some 2304
  | 5 => some 589824
  | _ => none

/-- The register that a configuration field loads (Table 17.6). -/
def cfgReg (id : Nat) : Option Nat :=
  if id = 0x0004 then some Reg.MGT_REMOVE_DRAIN
  else if id = 0x0501 then some Reg.THM_STACK_CAP
  else if id = 0x0502 then some Reg.THM_SLEW
  else if id = 0x0601 then some Reg.ADM_ROUND_LEN
  else if id = 0x0602 then some Reg.ADM_MARGIN
  else if id = 0x0603 then some Reg.ADM_RAMP_RESERVE
  else if 0x0610 ≤ id ∧ id ≤ 0x0617 then some (Reg.ADM_CLASS + (id - 0x0610))
  else if 0x0620 ≤ id ∧ id ≤ 0x062F then some (Reg.ADM_PART_SHARE + (id - 0x0620))
  else if id = 0x0701 then some Reg.SES_CREDIT
  else if id = 0x0702 then some Reg.SES_DETACH_TIMEOUT
  else if id = 0x0801 then some Reg.FAB_CTRL
  else if id = 0x0802 then some Reg.FAB_MISROUTE_WAIT
  else if id = 0x0803 then some Reg.FAB_ESCAPE_WAIT
  else if id = 0x0804 then some Reg.FAB_STALL_LIMIT
  else if id = 0x0902 then some Reg.NET_UDP_PORT
  else if id = 0x0903 then some Reg.NET_MTU
  else if id = 0x0A01 then some Reg.HLK_ERR_LIMIT
  else if id = 0x0B01 then some Reg.STM_SYS_RATE
  else if 0x0B10 ≤ id ∧ id ≤ 0x0B1F then some (Reg.STM_REG_MIN + (id - 0x0B10))
  else if 0x0B20 ≤ id ∧ id ≤ 0x0B2F then some (Reg.STM_REG_MAX + (id - 0x0B20))
  else if id = 0x0C01 then some Reg.BST_SCRUB_SRAM
  else if id = 0x0C02 then some Reg.BST_SCRUB_BONDED
  else if id = 0x0C03 then some Reg.BST_SCRUB_STACK
  else if 0x0C10 ≤ id ∧ id ≤ 0x0C16 then some (Reg.BST_THR_TILES + (id - 0x0C10))
  else if id = 0x0C18 then some Reg.BST_THYME_CTRL
  else none

/-- Every field that loads a register. -/
def cfgRegIds : List Nat :=
  [0x0004, 0x0501, 0x0502, 0x0601, 0x0602, 0x0603, 0x0701, 0x0702, 0x0801, 0x0802, 0x0803, 0x0804, 0x0902, 0x0903, 0x0A01, 0x0B01,
   0x0C01, 0x0C02, 0x0C03, 0x0C10, 0x0C11, 0x0C12, 0x0C13, 0x0C14, 0x0C15, 0x0C16, 0x0C18] ++
  (List.range 8).map (· + 0x0610) ++ (List.range 16).map (· + 0x0620) ++ (List.range 16).map (· + 0x0B10) ++
  (List.range 16).map (· + 0x0B20)

/-- Fields of a configuration image that load no register: whether a length is a size they take; none for an unknown ID. -/
def cfgSize (id n : Nat) : Option Bool :=
  if id = 1 ∨ id = 2 ∨ id = 3 then some (decide (n = 1))
  else if 0x0101 ≤ id ∧ id ≤ 0x0110 then some (decide (n = 388))
  else if id = 0x0111 then some (decide (n % 8 = 0) && decide (n ≤ 32768))
  else if id = 0x0901 then some (decide (n = 6))
  else if 0x0910 ≤ id ∧ id ≤ 0x0913 then some (decide (n = 48))
  else if 0x0920 ≤ id ∧ id ≤ 0x0923 then some (decide (n = 12))
  else if 0x0930 ≤ id ∧ id ≤ 0x0933 then some (decide (n = 2))
  else (cfgReg id).map (fun _ => decide (n = 4))

/-- Whether a word lies in the range of every field of a register, its reserved bits 0. -/
def wordOk (a : Nat) (w : BitVec 32) : Bool :=
  match regDef? a with
  | none => false
  | some d => decide (d.mask w = w) && d.fields.all (fun f => decide (f.min ≤ f.get w) && decide (f.get w ≤ f.max))

/-- Range and reserved bits of a field (cause 10; R506, R507). -/
def cfgValueOk (id : Nat) (v : List Nat) : Bool :=
  if id = 1 then decide (v.getD 0 0 ≤ 2)
  else if id = 2 then decide (v.getD 0 0 ≤ 127)
  else if id = 3 then decide (v.getD 0 0 ≤ 15)
  else if 0x0101 ≤ id ∧ id ≤ 0x0111 then true
  else if id = 0x0901 then decide (v.getD 0 0 % 2 = 0) && decide (v.getD 5 0 % 4 = 0)
  else if 0x0910 ≤ id ∧ id ≤ 0x0913 then decide (1 ≤ v.getD 40 0) && decide (v.getD 40 0 ≤ 128) && (v.drop 41).all (· = 0)
  else if 0x0920 ≤ id ∧ id ≤ 0x0923 then decide (1 ≤ v.getD 8 0) && decide (v.getD 8 0 ≤ 32) && (v.drop 9).all (· = 0)
  else if 0x0930 ≤ id ∧ id ≤ 0x0933 then decide (leNat v / 4096 % 2 = 0) && decide (leNat v % 4096 ≤ 4094)
  else
    match cfgReg id with
    | none => true
    | some a =>
      if a = Reg.FAB_CTRL then decide (leNat v % 2 ^ 31 = 0) else wordOk a (BitVec.ofNat 32 (leNat v))

/-- The records of a container: ID, LEN, offset, value. A calibration field has the size of Table 17.9, of which LEN holds
the low 16 bits. -/
def parseRecs (cal : Bool) : Nat → List Nat → Nat → Option (List (Nat × Nat × Nat × List Nat) × Nat)
  | 0, _, o => some ([], o)
  | n + 1, l, o =>
    let id := leAt l 0 2
    let len := leAt l 2 2
    let size := match (if cal then calSize id else none) with
      | some k => if k % 65536 = len then k else len
      | none => len
    let step := 8 + (size + 7) / 8 * 8
    if l.length < step then none
    else
      match parseRecs cal n (l.drop step) (o + step) with
      | none => none
      | some (rs, e) => some ((id, len, o, (l.drop 8).take size) :: rs, e)

/-- The word that a field gives a register, or its reset value. -/
def fieldWord (fs : List (Nat × List Nat)) (id : Nat) : BitVec 32 :=
  match cfgReg id with
  | none => 0
  | some a =>
    match fs.find? (fun f => decide (f.1 = id)) with
    | none => resetOf a
    | some f => if a = Reg.FAB_CTRL then setBits (resetOf a) 31 31 (leNat f.2 / 2 ^ 31) else BitVec.ofNat 32 (leNat f.2)

/-- Cause 11: the sums of GUAR and of MIN with SYS_RATE (10 R304, 08 R246). -/
def crossOk (guar : List Nat) (mins : List (BitVec 32)) (sys : Nat) : Bool :=
  let sum (l : List Nat) : Nat := l.foldl (· + ·) 0
  decide (sum guar ≤ 100) && decide (sum (mins.map (fun w => getBits w 14 0)) + sys ≤ 26542) &&
    decide (sum (mins.map (fun w => getBits w 30 16)) + sys ≤ 26542)

def cfgCrossOk (fs : List (Nat × List Nat)) : Bool :=
  crossOk ((List.range 16).map (fun i => getBits (fieldWord fs (0x0620 + i)) 6 0)) ((List.range 16).map (fun i => fieldWord fs (0x0B10 + i)))
    (getBits (fieldWord fs 0x0B01) 15 0)

/-- The check of Table 17.5 on the bytes of a partition; `above` is the SEQ that a written configuration image must exceed
(cause 13 speaks of a pair of partitions, which CAL is not). -/
def checkContainer (l : List Nat) (cal : Bool) (owner : Option (List Nat)) (vendor : List Nat) (above : Option Nat) : Except Bad Container :=
  let len := leAt l 12 4
  if leAt l 0 4 ≠ 0x4C494C31 ∨ leAt l 4 2 ≠ 1 ∨ leAt l 6 1 ≠ (if cal then 2 else 1) then .error ⟨2, 0, 0⟩
  else if l.length < len ∨ len < 64 then .error ⟨3, 0, 12⟩
  else
    match parseRecs cal (leAt l 16 2) ((l.take len).drop 64) 64 with
    | none => .error ⟨3, 0, 12⟩
    | some (rs, e) =>
      let t := (e + 63) / 64 * 64
      if len < t + 776 then .error ⟨3, 0, 12⟩
      else
        let tr := (l.drop t).take 776
        let key := (tr.drop 4).take 388
        let hash := keyHash key
        let isOwner := decide (some hash = owner)
        let known (id : Nat) : Bool := if cal then (calSize id).isSome else (cfgSize id 0).isSome
        let ids := rs.map (·.1)
        let bad (p : Nat × Nat × Nat × List Nat → Bool) (c : Nat) : Option Bad := (rs.find? p).map (fun r => ⟨c, r.1, r.2.2.1⟩)
        if leAt tr 0 4 ≠ crc32 (l.take t) then .error ⟨4, 0, t⟩
        else if !isOwner && !(cal && decide (hash = vendor)) then .error ⟨5, 0, t + 4⟩
        else if !rsaVerify key (l.take (t + 392)) (tr.drop 392) then .error ⟨6, 0, t + 392⟩
        else if leAt l 24 8 ≠ Config.moduleId.toNat ∧ (cal ∨ leAt l 24 8 ≠ 0) then .error ⟨7, 0, 24⟩
        else
          match bad (fun r => (known r.1 && decide (1 < (ids.filter (fun x => decide (x = r.1))).length)) || (!known r.1 && decide (r.1 < 0x8000))) 8 with
          | some b => .error b
          | none =>
            let rs := rs.filter (fun r => known r.1)
            let badIn (p : Nat × Nat × Nat × List Nat → Bool) (c : Nat) : Option Bad := (rs.find? p).map (fun r => ⟨c, r.1, r.2.2.1⟩)
            match badIn (fun r => if cal then decide (calSize r.1 ≠ some r.2.2.2.length) else decide (cfgSize r.1 r.2.1 ≠ some true)) 9 with
            | some b => .error b
            | none =>
              match badIn (fun r => !cal && !cfgValueOk r.1 r.2.2.2) 10 with
              | some b => .error b
              | none =>
                let fs := rs.map (fun r => (r.1, r.2.2.2))
                let has (id : Nat) : Bool := fs.any (fun f => decide (f.1 = id))
                if !cal && !cfgCrossOk fs then .error ⟨11, 0, 64⟩
                else
                  match (if cal then [1, 2, 3, 4, 5] else [0x0901]).find? (fun id => !has id) with
                  | some id => .error ⟨12, id, t⟩
                  | none =>
                    if (match above with | some q => decide (leAt l 8 4 ≤ q) | none => false) then .error ⟨13, 0, 8⟩
                    else .ok ⟨leAt l 8 4, fs, isOwner, sha256 (l.take (t + 776))⟩

/-- The owner key hash in force: the last owner slot used (19 R542, R547). -/
def Fuses.ownerHash (f : Fuses) : Option (List Nat) := f.owners.getLast?

/-- A boot image copy (19 R544, R545): SVN and digest of one that verifies; an error is its cause (0 read, 1 signature). -/
def checkBoot (f : Fuses) (l : List Nat) : Except Nat (Nat × List Nat) :=
  let len := leAt l 12 4
  let t := len - 776
  let tr := (l.drop t).take 776
  let key := (tr.drop 4).take 388
  let svn := leAt l 8 4
  if leAt l 0 4 ≠ 0x48424F54 ∨ leAt l 4 2 ≠ 1 ∨ l.length < len ∨ len < 840 ∨ t % 64 ≠ 0 ∨ keyHash key ≠ f.vendorHash ∨ 63 < svn ∨ svn < f.minSvn then
    .error 1
  else if rsaVerify key (l.take (t + 392)) (tr.drop 392) then .ok (svn, sha256 (l.take len)) else .error 1

/-! ## Writing the card (R510, R511) -/

def ccIdle : Nat := 0
def ccErasing : Nat := 1
def ccReceiving : Nat := 2
def ccChecking : Nat := 3
def ccDone : Nat := 4
def ccFailed : Nat := 5
def State.ccState (s : State) : Nat := s.fld Reg.CFG_CARD_CTRL 2 0
def State.setCc (s : State) (v : Nat) : State := s.setFld Reg.CFG_CARD_CTRL 2 0 v

/-- A request without its authorisation (19 R537): event 0x0102, the count, NOT_AUTHORISED. -/
def authFailed (s : State) (mtype cmd addr : Nat) : State :=
  recordEvent (s.count Reg.SEC_AUTH_FAILS 1) 0x0102 0 mtype cmd (addr % 2 ^ 24)

/-- The partition of a TARGET: base and size. -/
def State.cardTarget (s : State) (target : Nat) : Option (Nat × Nat) :=
  match target with
  | 1 => some (if s.fld Reg.CFG_STATUS 0 0 = 0 then cardCfg1 else cardCfg0, cardCfgSize)
  | 2 => some (cardCal, cardCalSize)
  | 3 => some (if s.fld Reg.MGT_START_STATUS 12 12 = 0 then cardBootB else cardBootA, cardBootSize)
  | _ => none

/-- Whether step 1 of the start has ended since auxiliary power came. -/
def State.pastStep1 (s : State) : Bool := !s.boot.bootHash.isEmpty || decide (s.msState = msHalted)

/-- START of a card write with TARGET and LEN as the registers hold them (R510, R511): the partition is erased at once. -/
def cardStart (s : State) (owner : Bool) : State :=
  let target := s.fld Reg.CFG_CARD_CTRL 7 4
  let len := (s.reg Reg.CFG_CARD_LEN).toNat
  if !owner then refuse (authFailed s 0x7F 2 Reg.CFG_CARD_CTRL) Reg.CFG_CARD_CTRL stNotAuthorised
  else if !s.pastStep1 || s.card.job.isSome then refuse s Reg.CFG_CARD_CTRL stRefused
  else
    match s.cardTarget target with
    | none => refuse s Reg.CFG_CARD_CTRL stRefused
    | some (base, size) =>
      if size < len then refuse s Reg.CFG_CARD_CTRL stRefused
      else
        let user := s.fld Reg.CFG_STATUS 30 30
        let s := if target = 2 then recordEvent s 0x0208 0 user (s.reg Reg.CFG_CAL_SEQ).toNat 0 else s
        let s := if target = 1 then s.setFld Reg.CFG_STATUS 29 29 0 else s
        let s := { s with card := { s.card with
          bytes := SMap.keep s.card.bytes (fun a => !(decide (base ≤ a) && decide (a < base + size)))
          job := some ⟨target, base, size, len, [], 0⟩ } }
        s.setCc ccErasing

/-- CFG_CARD_START (R511). -/
def execCfgCardStart (target len : Nat) (owner : Bool) (s : State) : Host.Outcome State Fault Refusal :=
  .next (cardStart ((s.setFld Reg.CFG_CARD_CTRL 7 4 target).setReg Reg.CFG_CARD_LEN (BitVec.ofNat 32 len)) owner)

/-- The write in progress ends FAILED with a cause and a field ID. -/
def cardFail (s : State) (cause field : Nat) : State :=
  match s.card.job with
  | none => s
  | some j =>
    let s := { s with card := { s.card with job := none } }
    recordEvent (s.setCc ccFailed) 0x0205 0 j.target cause field

/-- A write of ABORT: the job in progress fails with cause 0x100 (R511). -/
def cardAbort (s : State) : State := cardFail s 0x100 0
/-- CFG_CARD_ABORT (R511). -/
def execCfgCardAbort (s : State) : Host.Outcome State Fault Refusal := .next (cardAbort s)

/-- CARD_WRITE_TIMEOUT (R511): 60 s without a data write while receiving. -/
def execCardWriteTimeout (s : State) : Host.Outcome State Fault Refusal :=
  if s.ccState = ccReceiving then .next (cardFail s 0x101 0) else .next s

/-- CARD_ERASE_DONE (R511): reception starts; with LEN 0 the check follows. -/
def execCardEraseDone (s : State) : Host.Outcome State Fault Refusal :=
  match s.card.job with
  | none => .next s
  | some j => if s.ccState = ccErasing then .next (s.setCc (if j.len = 0 then ccChecking else ccReceiving)) else .next s

/-- CFG_CARD_DATA (R511): the next 4 bytes, up to LEN. -/
def cardData (s : State) (v : Word) : State :=
  match s.card.job with
  | none => s
  | some j =>
    if s.ccState ≠ ccReceiving then s
    else { s with card := { s.card with job := some { j with received := (j.received ++ leBytes 4 v.toNat).take j.len } } }
/-- CFG_CARD_DATA (R511): four bytes, the lowest first, while receiving. -/
def execCfgCardData (v : Word) (s : State) : Host.Outcome State Fault Refusal := .next (cardData s v)

/-- CARD_PROGRAM_DONE (R511): a completed 256 bytes, or the last bytes, are on the card; after LEN bytes the check
follows. -/
def execCardProgramDone (ok : Bool) (s : State) : Host.Outcome State Fault Refusal :=
  match s.card.job with
  | none => .next s
  | some j =>
    let n := min 256 (j.len - j.programmed)
    if s.ccState ≠ ccReceiving ∨ n = 0 ∨ j.received.length < j.programmed + n then .next s
    else if !ok then .next (cardFail s 0x102 0)
    else
      let bs := (j.received.drop j.programmed).take n
      let m := bs.zipIdx.foldl (fun m x => SMap.set m (j.base + j.programmed + x.2) x.1 0xFF) s.card.bytes
      let j := { j with programmed := j.programmed + n }
      let s := { s with card := { s.card with bytes := m, job := some j } }
      .next (if j.programmed = j.len then s.setCc ccChecking else s)

/-- Keep the last failed check in CFG_LAST_ERR (R504). -/
def noteBad (s : State) (b : Bad) : State := s.setReg Reg.CFG_LAST_ERR (BitVec.ofNat 32 (b.field * 65536 + b.cause))

/-- The check of a container in a partition of the card. -/
def State.checkCard (s : State) (base size : Nat) (cal : Bool) (above : Option Nat) : Except Bad Container :=
  checkContainer (s.card.read base size) cal s.fuses.ownerHash s.fuses.vendorHash above

/-- CARD_CHECK_DONE (R511 step 5 and 6): a container under Table 17.5, a boot copy by its signature. -/
def execCardCheckDone (s : State) : Host.Outcome State Fault Refusal :=
  match s.card.job with
  | none => .next s
  | some j =>
    if s.ccState ≠ ccChecking then .next s
    else
      let done (s : State) (seq : Nat) : State :=
        let s := { s with card := { s.card with job := none } }
        recordEvent (s.setCc ccDone) 0x0203 0 j.target j.len seq
      if j.target = 3 then
        match checkBoot s.fuses (s.card.read j.base j.size) with
        | .ok _ => .next (done s 0)
        | .error _ => .next (cardFail (noteBad s ⟨6, 0, 0⟩) 6 0)
      else
        let above := if j.target = 1 then some (s.reg Reg.CFG_IMAGE_SEQ).toNat else none
        match s.checkCard j.base j.size (decide (j.target = 2)) above with
        | .ok c => .next (done (if j.target = 1 then s.setFld Reg.CFG_STATUS 29 29 1 else s) c.seq)
        | .error b => .next (cardFail (noteBad s b) b.cause b.field)

/-- Four bytes at CFG_CARD_READ_ADDR (R512). -/
def State.cardWord (s : State) : Word :=
  let a := (s.reg Reg.CFG_CARD_READ_ADDR).toNat
  BitVec.ofNat 32 (leNat ((List.range 4).map (fun i => s.cardByte (a + i))))

/-- A read of CFG_CARD_READ_DATA advances the address by 4 (R512). -/
def advanceCard (s : State) : State := s.setReg Reg.CFG_CARD_READ_ADDR (s.reg Reg.CFG_CARD_READ_ADDR + 4)

/-- CFG_CARD_READ_DATA (R512). -/
def execCfgCardReadData (s : State) : Host.Outcome State Fault Refusal :=
  .next (advanceCard (s.emit (.word Reg.CFG_CARD_READ_DATA s.cardWord)))

end Sys2Proof.Machine
end

