-- ==== Sys2Proof/Machine/Counters.lean ====
section
/-! DEFINITION. The registers of a tile page and of the stack tier that clear counters and caches: the COUNT_CLR rows,
LAY_XLT_FLUSH and BDM_CUT_CLR. Each names the registers its rule lists. -/
namespace Sys2Proof.Machine

/-- `n` consecutive registers of a tile page from an offset. -/
def tileRange (ti off n : Nat) : List Nat := (List.range n).map (fun i => tileReg ti (off + i))
/-- `n` consecutive registers from an address. -/
def regRange (a n : Nat) : List Nat := (List.range n).map (fun i => a + i)

/-- A write to the page of a tile that is fused off, retired or dark is refused (00 R16); any other is carried out. -/
def onTile (s : State) (ti off : Nat) (f : State → State) : State :=
  if s.usable ti then f s else refuse s (tileReg ti off) stRefused

def clearTil (s : State) (ti : Nat) : State := s.resetRegs (tileRange ti Reg.TIL_CONFL 9 ++ tileRange ti Reg.TIL_STEAL_WAIT 3)
def clearMxa (s : State) (ti : Nat) : State := s.resetRegs (tileRange ti Reg.MXA_PASS_COUNT_LO 8)
def clearLay (s : State) (ti : Nat) : State := s.resetRegs (tileRange ti Reg.LAY_OOB_READS 5)
def clearAtn (s : State) (ti : Nat) : State := s.resetRegs (tileRange ti Reg.ATN_PAGES_VISITED 6)
def clearBdm (s : State) (ti : Nat) : State := s.resetRegs (tileRange ti Reg.BDM_CE_COUNT 4)
def clearIbu (s : State) (ti : Nat) : State := s.resetRegs (tileRange ti Reg.IBU_STEPS_LO 4)
def clearInt (s : State) (ti : Nat) : State := s.resetRegs (tileRange ti Reg.INT_SRAM_CE 6)
def clearStm (s : State) : State := s.resetRegs (Reg.STM_WCB_RMW :: regRange Reg.STM_CE_COUNT 32)
def flushXlt (s : State) (ti : Nat) : State := s.modTile ti (fun t => { t with xlt := [] })
def clearCut (s : State) (ti : Nat) : State := s.modTile ti (fun t => { t with cut := [] })

/-- TIL_COUNT_CLR (02 R82): TIL_CONFL0-8, TIL_STEAL_WAIT, TIL_STEAL_REFUSED, TIL_STALE_DROP. -/
def execTilCountClr (ti : Nat) (s : State) : Host.Outcome State Fault Refusal :=
  .next (onTile s ti Reg.TIL_COUNT_CLR (fun s => clearTil s ti))

/-- MXA_COUNT_CLR (03 R114): the four 64-bit counts. -/
def execMxaCountClr (ti : Nat) (s : State) : Host.Outcome State Fault Refusal :=
  .next (onTile s ti Reg.MXA_COUNT_CLR (fun s => clearMxa s ti))

/-- LAY_COUNT_CLR (05 R162): 0x401-0x405. -/
def execLayCountClr (ti : Nat) (s : State) : Host.Outcome State Fault Refusal :=
  .next (onTile s ti Reg.LAY_COUNT_CLR (fun s => clearLay s ti))

/-- ATN_COUNT_CLR (06 R194): 0x603-0x608. -/
def execAtnCountClr (ti : Nat) (s : State) : Host.Outcome State Fault Refusal :=
  .next (onTile s ti Reg.ATN_COUNT_CLR (fun s => clearAtn s ti))

/-- BDM_COUNT_CLR (07 R225): 0x814-0x817. -/
def execBdmCountClr (ti : Nat) (s : State) : Host.Outcome State Fault Refusal :=
  .next (onTile s ti Reg.BDM_COUNT_CLR (fun s => clearBdm s ti))

/-- IBU_COUNT_CLR (07 R231): 0xA05-0xA08. -/
def execIbuCountClr (ti : Nat) (s : State) : Host.Outcome State Fault Refusal :=
  .next (onTile s ti Reg.IBU_COUNT_CLR (fun s => clearIbu s ti))

/-- INT_COUNT_CLR (09 R283): 0xC01-0xC06. -/
def execIntCountClr (ti : Nat) (s : State) : Host.Outcome State Fault Refusal :=
  .next (onTile s ti Reg.INT_COUNT_CLR (fun s => clearInt s ti))

/-- STM_COUNT_CLR (08 R256): STM_WCB_RMW, STM_CE_COUNTn, STM_UE_COUNTn. -/
def execStmCountClr (s : State) : Host.Outcome State Fault Refusal := .next (clearStm s)

/-- LAY_XLT_FLUSH (05 R147): the translation cache is empty. -/
def execLayXltFlush (ti : Nat) (s : State) : Host.Outcome State Fault Refusal :=
  .next (onTile s ti Reg.LAY_XLT_FLUSH (fun s => flushXlt s ti))

/-- BDM_CUT_CLR (07 R223): the cut list is empty. -/
def execBdmCutClr (ti : Nat) (s : State) : Host.Outcome State Fault Refusal :=
  .next (onTile s ti Reg.BDM_CUT_CLR (fun s => clearCut s ti))

end Sys2Proof.Machine
end

