-- ==== Sys2Proof/Machine/Recorder.lean ====
section
/-! DEFINITION. Bay, the event recorder (19 R552-R558), the health supervisor's steps on its pending list (09 R279-R282, 08
Table 8.4), and the register triggers of the stack controllers (08 R241, R254, R255). -/
namespace Sys2Proof.Machine

/-! ## The log -/

/-- An event record as bytes (Table 19.11). -/
def eventBytes (e : EventRec) : List Nat :=
  let l := leBytes 4 e.seq ++ leBytes 8 e.time ++ leBytes 2 e.code ++ leBytes 2 e.source ++ leBytes 4 e.p0 ++ leBytes 4 e.p1 ++ leBytes 4 e.p2
  l ++ leBytes 4 (crc32 l)

/-- Word w of the record in a slot, from LOG or from staging; zero at or beyond HEAD - FIRST (R556). -/
def State.evtWord (s : State) (slot w : Nat) : Word :=
  match (s.evt.log ++ s.evt.staging)[slot]? with
  | none => 0
  | some e => if slot < s.evt.head - s.evt.first then BitVec.ofNat 32 (leAt (eventBytes e) (4 * w) 4) else 0

/-- Word w of the trip record in a slot (R559, Table 19.15); an erased slot reads as ones. -/
def State.tripWord (s : State) (slot w : Nat) : Word :=
  match s.card.trips[slot]? with
  | none => BitVec.allOnes 32
  | some r => BitVec.ofNat 32 (leAt (tripBytes r) (4 * w) 4)

/-- The card stops answering (17 R497): noted once, with ALERT_N. `part` is the partition by its row of Table 17.2. -/
def cardLost (s : State) (part addr : Nat) : State :=
  if s.fld Reg.CFG_STATUS 31 31 = 0 then s
  else setAlert (recordEvent (s.setFld Reg.CFG_STATUS 31 31 0) 0x0204 0 part addr 0) 17 true

/-- Once the staging buffer has room the events lost to it are recorded (R554). -/
def noteOverflow (s : State) : State :=
  if s.evt.overflowed = 0 ∨ 65536 ≤ s.evt.staging.length then s
  else
    let n := s.evt.overflowed
    recordEvent { s with evt := { s.evt with overflowed := 0 } } 0x0303 0 n 0 0

/-- LOG_PROGRAM (R554): up to 8 staged records are programmed in SEQ order; not during an erase. -/
def execLogProgram (answers : Bool) (s : State) : Host.Outcome State Fault Refusal :=
  if s.fld Reg.CFG_STATUS 31 31 = 0 ∨ s.evt.clearing = true ∨ s.mgmt.silent = true ∨ s.evt.staging = [] then .next s
  else if !answers then .next (cardLost s 9 (cardLog + 32 * s.evt.log.length))
  else .next (noteOverflow { s with evt := { s.evt with
    log := s.evt.log ++ s.evt.staging.take 8
    staging := s.evt.staging.drop 8 } })

/-- The life-cycle state (19 Table 19.7). -/
def State.lifeCycle (s : State) : Nat := if s.fuses.lifeCycle = 2 ∧ s.mgmt.diagnostic = true then 3 else s.fuses.lifeCycle

/-- The states that permit the DIAGNOSTIC operations: PROVISIONED, DIAGNOSTIC and RETURN (Table 19.7). -/
def State.diagnosing (s : State) : Bool := [1, 3, 4].contains s.lifeCycle

/-- A write of EVT_CLEAR (R557). -/
def clearLog (s : State) (v : Word) : State :=
  if s.evt.clearing ∨ v.toNat ≠ s.evt.head % 2 ^ 32 then refuse s Reg.EVT_CLEAR stRefused
  else
    let first := s.evt.first
    let head := s.evt.head
    let s := saveState s (some (v.toNat, first % 2 ^ 32, head % 2 ^ 32))
    let s := { s with evt := { s.evt with log := [], staging := [], first := head, full := false, clearing := true } }
    recordEvent s 0x0302 0 (first % 2 ^ 32) (head % 2 ^ 32) s.lifeCycle

/-- EVT_CLEAR (R557). -/
def execEvtClear (v : Word) (s : State) : Host.Outcome State Fault Refusal := .next (clearLog s v)

/-- LOG_ERASE_DONE (R557). -/
def execLogEraseDone (s : State) : Host.Outcome State Fault Refusal := .next { s with evt := { s.evt with clearing := false } }

/-- A read of EVT_WINDOW7 advances the cursor (R556). -/
def advanceCursor (s : State) : State := s.setFld Reg.EVT_CURSOR 16 0 (s.fld Reg.EVT_CURSOR 16 0 + 1)

/-- EVT_WINDOW7_READ (R556). -/
def execEvtWindow7Read (s : State) : Host.Outcome State Fault Refusal :=
  .next (advanceCursor (s.emit (.word (Reg.EVT_WINDOW + 7) (s.evtWord (s.fld Reg.EVT_CURSOR 16 0) 7))))

/-! ## The stack tier's list -/

/-- Append an entry to the retired list; a full list is recorded only (08 R251). -/
def appendRetired (s : State) (e : RetiredEntry) : State :=
  if 16384 ≤ s.stm.retired.length then recordEvent s 0x0B09 0 s.stm.retired.length 1 0
  else { s with stm := { s.stm with retired := s.stm.retired ++ [{ e with seq := s.stm.retired.length + 1 }] } }

/-- Copy one stack page to another, granule by granule, counting the 256-byte blocks that hold poison (Table 8.4 step 3). -/
def copyStackPage (s : State) (src dst : Nat) : State × Nat :=
  (List.range 8192).foldl (fun (a : State × Nat) b =>
    let r := (List.range 8).foldl (fun (a : State × Bool) i =>
      let off := 256 * b + 32 * i
      let r := a.1.readCoded 0 .stack (src * 0x200000 + off)
      (writeStackGran a.1 0 (dst * 0x200000 + off) r.2 (BitVec.allOnes 256) r.1.poisoned, a.2 || r.1.poisoned)) (a.1, false)
    (r.1, a.2 + (if r.2 then 1 else 0))) (s, 0)

/-- A failing stack page is moved, its entries rewritten, and it joins the retired list; its row is scheduled for soft repair
(Table 8.4 steps 3 to 5). `addr` is the address of the block that failed. -/
def retireStackPage (s : State) (addr : Nat) : State :=
  let ppn := addr / 0x200000
  let m := stackMap addr
  let p := s.pickPage
  let r := copyStackPage p.2 ppn p.1
  let s := (r.1.tiles.map (·.1)).foldl (fun s ti => remapEntries s ti p.1 (s.entriesOf ti 2 ppn)) r.1
  let s := appendRetired s ⟨0, 1, m.stack, m.chan * 2 + m.pch, m.sid * 16 + m.bg * 4 + m.bank, ppn, m.row, s.calendar⟩
  let s := s.count Reg.STM_RETIRED_COUNT 1
  (recordEvent s 0x0B05 m.stack ppn r.2 s.stm.retired.length).scheduleRepair m

/-- Write the poison pattern to the granules of a stack block that do not read (Table 8.4 step 2a). -/
def poisonBlock (s : State) (addr : Nat) : State :=
  (List.range 8).foldl (fun s i =>
    let a := addr / 256 * 256 + 32 * i
    let r := granuleDecode (s.rawStack (a / 32)) (stackG a)
    if r.1.poisoned then s.putStack (a / 32) (granulePoison (stackG a)) else s) s

/-- Write the poison pattern to a slice granule that does not read. -/
def poisonSlice (s : State) (ti off : Nat) : State :=
  let k := sliceGranule off (s.stripe ti)
  if (granuleDecode (s.rawGranule ti k) (bondedG ti k)).1.poisoned then s.putGranule ti k (granulePoison (bondedG ti k)) else s

/-! ## The pending list -/

/-- Take an entry out of the list. -/
def dropEntry (s : State) (e : PendEntry) : State :=
  { s with sup := { s.sup with list := s.sup.list.filter (fun x => decide (x.seq ≠ e.seq)), handling := none } }

/-- An entry goes on at a later step. -/
def keepEntry (s : State) (e : PendEntry) (step : Nat) : State :=
  { s with sup := { s.sup with
    list := s.sup.list.map (fun x => if x.seq = e.seq then { x with step := step } else x)
    handling := some e.seq } }

/-- Schedule a soft spare for the next boundary of a tile (09 R278). -/
def wantSpare (s : State) (ti : Nat) (x : Nat × Nat × Nat) : State :=
  s.modTile ti (fun t => if t.pendingSpares.contains x then t else { t with pendingSpares := t.pendingSpares ++ [x] })

/-- The row of a slice offset as takeSpare names it: layer * 16 + bank, row. -/
def State.bondedRow (s : State) (ti off : Nat) : Nat × Nat :=
  let k := sliceGranule off (s.stripe ti)
  (granuleLayer k * 16 + (k >>> 15) % 16, (k >>> 6) % 512)

/-- A step on an entry for a stack block (Table 8.4): the pattern test, then the retirement of a failing page. -/
def stackEntry (s : State) (e : PendEntry) (addr : Nat) (passed : Bool) : State :=
  let ppn := addr / 0x200000
  let m := stackMap addr
  if e.step = 1 then dropEntry (retireStackPage s addr) e
  else if passed then
    let s := poisonBlock s addr
    dropEntry (if e.code = 0x0B04 then recordEvent s 0x0B04 e.source e.p0 (m.chan * 2 + m.pch) 1 else s) e
  else
    let s := { s with stm := { s.stm with failing := if s.stm.failing.contains ppn then s.stm.failing else s.stm.failing ++ [ppn] } }
    keepEntry (if e.code = 0x0B04 then recordEvent s 0x0B04 e.source e.p0 (m.chan * 2 + m.pch) 2 else s) e 1

/-- A step on an entry for a slice granule: the pattern test, then a spare for its row (Table 8.4, 09 Table 9.7). -/
def bondedEntry (s : State) (e : PendEntry) (passed : Bool) : State :=
  let ti := e.source
  if passed then
    let s := poisonSlice s ti e.p0
    dropEntry (if e.code = 0x2608 then recordEvent s 0x2608 ti e.p0 e.p1 1 else s) e
  else
    let r := s.bondedRow ti e.p0
    let s := if e.code = 0x2608 then recordEvent s 0x2608 ti e.p0 e.p1 2 else s
    dropEntry (wantSpare s ti (1, r.1, r.2)) e

/-- A step on an address error of the stack tier: the supervisor knows the whole address that the event carries in part. -/
def suspectEntry (s : State) (e : PendEntry) (passed : Bool) : State :=
  let addr := (s.stm.suspects.find? (fun a => decide (a % 2 ^ 32 = e.p1))).getD e.p1
  let s := if passed || decide (e.step = 1) then { s with stm := { s.stm with suspects := s.stm.suspects.erase addr } } else s
  stackEntry s e addr passed

/-- One step on one entry (Table 9.8): what its event asks of the supervisor. -/
def entryStep (s : State) (e : PendEntry) (passed : Bool) : State :=
  match e.code with
  | 0x0B04 | 0x0B07 => stackEntry s e (e.p0 * 256) passed
  | 0x2608 | 0x2408 => bondedEntry s e passed
  | 0x2602 =>
    let w := e.p0 / 8
    dropEntry (if passed then s else wantSpare s e.source (0, bankOf (8 * w), Config.sramRow w)) e
  | 0x2601 => dropEntry (wantSpare s e.source (0, e.p0, e.p1)) e
  | 0x2402 => dropEntry { s with sup := { s.sup with layersDue := s.sup.layersDue ++ [(e.source, e.p0)] } } e
  | 0x2603 => if e.p0 = 2 then suspectEntry s e passed else dropEntry (retireTile s e.source) e
  | _ => dropEntry s e

/-- PENDING_ENTRY_STEP (R281): one step on the first entry, after the resets that an overflow owes (R282). -/
def execPendingEntryStep (passed : Bool) (s : State) : Host.Outcome State Fault Refusal :=
  let s := settleOverflow s
  match s.sup.list with
  | [] => .next s
  | e :: _ => .next (entryStep { s with sup := { s.sup with handling := some e.seq } } e passed)

/-! ## Triggers of the stack controllers -/

/-- WCB_FLUSH (08 R241). -/
def execWcbFlush (s : State) : Host.Outcome State Fault Refusal := .next (flushWcb s)

/-- A write of HPPR_ARM (08 R254): refused outside the states that permit it; armed, the listed soft repairs become fused. -/
def armRepair (s : State) (v : Word) : State :=
  if !v.getLsbD 1 then s.setFld Reg.STM_CTRL 1 1 0
  else if !s.diagnosing then refuse s Reg.STM_CTRL stRefused
  else
    let rows := (s.stm.retired.filter (fun r => decide (r.kind = 2))).map (fun r => (r.stack, r.chan, r.loc, r.row))
    let s := s.setFld Reg.STM_CTRL 1 1 1
    { s with stm := { s.stm with fusedRows := s.stm.fusedRows ++ rows.filter (fun r => !s.stm.fusedRows.contains r) } }

/-- HPPR_ARM (08 R254). -/
def execHpprArm (v : Word) (s : State) : Host.Outcome State Fault Refusal := .next (armRepair s v)

/-- A write of STM_LOOPBACK (08 R255): STACK is written; START runs on a READY stack in the states that permit it. -/
def startLoopback (s : State) (v : Word) : State :=
  let stack := getBits v 7 4
  let running := decide (s.fld Reg.STM_LOOPBACK 1 0 = 1)
  if !v.getLsbD 31 then (if running then s else s.setFld Reg.STM_LOOPBACK 7 4 stack)
  else if !s.diagnosing || running || decide (s.fld (Reg.STM_STACK_STATUS + stack) 2 0 ≠ stkReady) then refuse s Reg.STM_LOOPBACK stRefused
  else
    let s := (s.setFld Reg.STM_LOOPBACK 7 4 stack).setFld Reg.STM_LOOPBACK 1 0 1
    s.setFld (Reg.STM_STACK_STATUS + stack) 2 0 stkLoopback

/-- LOOPBACK_START (08 R255). -/
def execLoopbackStart (v : Word) (s : State) : Host.Outcome State Fault Refusal := .next (startLoopback s v)

end Sys2Proof.Machine
end

