-- ==== Sys2Proof/Machine/Power.lean ====
section
/-! DEFINITION. Power (14): the loss of main power, power-up and power-down, and the faults of the delivery. -/
namespace Sys2Proof.Machine

/-! ## Records -/

/-- A node's temperature in 0.1 C (R559). -/
def State.nodeTemp (s : State) (k : Nat) : Int := (SMap.getD s.thm.nodes k 0).floor

/-- The temperatures of a trip record (19 Table 19.12). -/
def State.tripTemps (s : State) : List Int :=
  ((List.range 144).flatMap (fun ci =>
    [s.nodeTemp (9 * ci), ((List.range 8).map (fun j => s.nodeTemp (9 * ci + 1 + j))).foldl max (s.nodeTemp (9 * ci + 1)), s.nodeTemp (1296 + ci)])) ++
  (List.range 20).map (fun i => s.nodeTemp (1440 + i))

/-- A domain's registers. -/
def domReg (d : Nat) : Nat := Reg.PWR_DOM_STATUS + 4 * d

/-- A sample lowers a domain's minimum record (R426). -/
def noteMin (s : State) (d v : Nat) : State :=
  if v < s.fld (domReg d) 31 16 then (s.setFld (domReg d) 31 16 v).setReg64 (domReg d + 1) s.calendar else s

/-- Write a record to TRIP in the next free slot (19 R559, R560). -/
def addTrip (s : State) (kind code p0 p1 p2 evtSeq : Nat) (isOpen : Bool) : State :=
  if s.fld Reg.CFG_STATUS 31 31 = 0 then s
  else
    let seq := match s.card.trips.getLast? with | some r => r.seq + 1 | none => 1
    let r : TripRec := ⟨seq, s.calendar, kind, isOpen, code, p0, p1, p2, s.round, evtSeq,
      [204, 205, 206].map (fun d => s.fld (domReg d) 31 16), [204, 205, 206].map (fun d => s.reg64 (domReg d + 1)), s.tripTemps⟩
    { s with card := { s.card with trips := (s.card.trips ++ [r]).take 64 } }

/-- An open trip record holds main power off (R560). -/
def State.tripOpen (s : State) : Bool := s.card.trips.any (fun r => r.isOpen)

/-! ## What a loss of main power takes -/

/-- Registers that a loss of main power returns to reset: those of tiles, of the clusters' domains, and of the blocks from ADM to
HLK but for the fields that the configuration image loads. -/
def lostWithMain (a : Nat) : Bool :=
  decide (tilePages ≤ a) || (decide (Reg.PWR_CL ≤ a) && decide (a < Reg.PWR_CL + 144)) ||
    (decide (Reg.ADM_STATUS ≤ a) && decide (a < Reg.BST_REPLACE_STATUS) &&
      (match regDef? a with
       | some d => !d.fields.any (fun f => decide (f.access = .rs) || decide (f.access = .rl))
       | none => true))

/-- What main power held is gone (R431, 16 case note): tile contents and state, slices, the stack tier, sessions and models, the
fabric and the half link; the retired list, the fuses and the card stay. -/
def wipeMain (s : State) : State :=
  let lease := s.fld Reg.HLK_STATUS 30 30
  let s := { s with
    regs := s.regs.filter (fun e => !lostWithMain e.1)
    tiles := s.tiles.map (fun (e : Nat × Tile) => (e.1, { Tile.init with generation := e.2.generation + 1, sliceGen := e.2.sliceGen + 1 }))
    mesh := []
    stm := { StackTier.init with generation := s.stm.generation + 1, retired := s.stm.retired, fusedRows := s.stm.fusedRows }
    sup := Supervisor.init
    plan := { s.plan with dark := [], failed := [], retired := s.fuses.burnTiles, due := false, current := none, previous := none }
    sage := Sage.init
    client := Client.init
    fab := Fabric.init
    link := Link.init
    ctl := ResetCtl.init
    bist := SelfTest.init
    ptp := PtpState.init
    tb := { s.tb with pending := none }
    thm := { s.thm with
      marks := [], episodes := [], agree := [], guardSpots := [], guard := [], unwell := [], throttled := [], allow := [], limit := [],
      shareW := 0, shareE := 0, stackRate := [], tref := [], capW := 0, capE := 0, lastW := 0, lastE := 0, shortRound := [] }
    pwr := { s.pwr with step := 0, wave := 0, deferred := [], undervolts := [], deadRegs := [], noBudget := [] } }
  let s := s.setFld Reg.HLK_STATUS 30 30 lease
  let s := (s.setFld Reg.PWR_STATUS 20 16 0).setFld Reg.PWR_STATUS 30 30 0
  let s := (s.setFld Reg.MGT_TIME_STATUS 31 31 0).setReg Reg.MGT_EPOCH 0
  let s := s.resetRegs [Reg.THM_CAP_NOW]
  let s := (s.regs.filter (fun e => decide (Reg.THM_SPOT ≤ e.1) && decide (e.1 < Reg.THM_SPOT + 1296))).foldl (fun s e => s.setFld e.1 31 28 0)
    (s.setFld Reg.THM_STATUS 30 30 0)
  setSignal s 7 false

/-- The removal preparation ends (16 Table 16.7 step 8). -/
def finishRemoval (s : State) (r : Removal) : State :=
  let s := (s.setMs msReady).setFld Reg.MGT_START_STATUS 11 8 0
  let s := { s with boot := { s.boot with removal := none }, pwr := { s.pwr with stayOff := true } }
  setAlert (recordEvent s 0x001C 0 r.closed r.ended ((s.now - r.t0) / 1000000)) 19 true

/-- Where the start stands once main power is off: waiting for its restart (R433), ready for removal, or halted as it was. -/
def afterOff (s : State) : State :=
  match s.boot.removal with
  | some r => finishRemoval s r
  | none => if s.msState = msHalted then s else (s.setMs msAux).setFld Reg.MGT_START_STATUS 11 8 0

def psAux : Nat := 0
def psCharging : Nat := 1
def psSeqUp : Nat := 2
def psOn : Nat := 3
def psSeqDown : Nat := 4
def psLocked : Nat := 6
def State.psState (s : State) : Nat := s.fld Reg.PWR_STATUS 2 0
def State.setPs (s : State) (v : Nat) : State := s.setFld Reg.PWR_STATUS 2 0 v

/-- Whether main power is enabled: charging, rising, on or falling. -/
def State.enabled (s : State) : Bool := decide (s.psState ≠ psAux) && decide (s.psState ≠ psLocked)

/-- Main power is off after a fault: locked out, or waiting (R433). -/
def offState (s : State) (lock : Bool) : State :=
  if lock then
    let s := (s.setPs psLocked).setFld Reg.PWR_STATUS 29 29 1
    { s with pwr := { s.pwr with lockedAt := s.now } }
  else s.setPs psAux

/-- The loss of main power (Table 14.6) with its event and its record in TRIP. -/
def loseMain (s : State) (code p0 p1 p2 : Nat) (lock : Bool) : State :=
  let seq := s.evt.head
  let s := addTrip (recordEvent s code 0 p0 p1 p2) 2 code p0 p1 p2 (seq % 2 ^ 32) false
  afterOff (offState (wipeMain s) lock)

/-- Whether the auxiliary input is valid (R431 event parameter). -/
def State.auxValid (s : State) : Bool := s.pwr.auxSince.isSome

/-- The loss that a rail or the converters cause: the input voltage at detection is not given, a free value. -/
def shedMain (s : State) : State :=
  let f := s.takeFree
  loseMain f.2 0x0402 (f.1.toNat % 2 ^ 16) (if s.auxValid then 1 else 0) (s.round % 2 ^ 32) false

/-! ## Enabling main power -/

/-- The conditions of R418, R433 and R465 on closing the switch; `waited` says that the 100 ms of valid auxiliary power have
passed. -/
def State.mayEnable (s : State) (waited : Bool) : Bool :=
  decide (s.msState = msStarting) && decide (s.fld Reg.MGT_START_STATUS 11 8 = 3) && decide (s.psState = psAux) &&
    s.signal 0 && s.signal 1 && (match s.pwr.auxSince with | some t => waited || decide (t + 100000000 ≤ s.now) | none => false) &&
    !s.pwr.stayOff && decide (s.fld Reg.PWR_STATUS 31 31 = 0) && !s.tripOpen && decide (s.lifeCycle ≠ 5)

/-- TRIP is erased before main power is enabled when 48 slots are used and none is open (19 R560). -/
def eraseTrips (s : State) : State :=
  let n := s.card.trips.length
  if n < 48 ∨ s.tripOpen ∨ s.fld Reg.CFG_STATUS 31 31 = 0 then s
  else recordEvent { s with card := { s.card with trips := [] } } 0x0304 0 n 0 0

/-- Close the hot-swap switch where R418 allows it: the bulk charges. -/
def tryEnable (s : State) (waited : Bool) : State :=
  if s.mayEnable waited then
    let s := (eraseTrips s).setPs psCharging
    { s with pwr := { s.pwr with step := 1 } }
  else s

/-- The start halts at a step (16 Table 16.2). -/
def haltStart (s : State) (step cause : Nat) : State :=
  let s := ((s.setMs msHalted).setFld Reg.MGT_START_STATUS 19 16 step).setFld Reg.MGT_START_STATUS 11 8 0
  recordEvent s 0x0014 0 step cause ((s.now - s.boot.stepAt) / 1000 % 2 ^ 32)

/-- A step of the power-up exceeds its bound (R429): main power is shed, STATE is LOCKED_OUT and the start halts. -/
def failUp (s : State) (step domain volts : Nat) : State :=
  let s := recordEvent s 0x040C 0 step domain volts
  haltStart (offState (wipeMain s) true) 3 0

/-- PRESENCE_MADE (20 R567). -/
def execPresenceMade (s : State) : Host.Outcome State Fault Refusal := .next (tryEnable (setSignal (setSignal s 0 true) 1 true) false)

/-- The main input is gone. -/
def mainGone (s : State) : State := { s with pwr := { s.pwr with mainIn := false } }

/-- PRESENCE_LOST (R420). -/
def execPresenceLost (volts : Nat) (s : State) : Host.Outcome State Fault Refusal :=
  let s := mainGone (setSignal (setSignal s 0 false) 1 false)
  if s.enabled then .next (loseMain s 0x0410 volts 0 0 false) else .next s

/-- BULK_CHARGED (R419): the bulk has reached the input, and the converters start. -/
def execBulkCharged (volts time : Nat) (s : State) : Host.Outcome State Fault Refusal :=
  let s := tryEnable s true
  if s.psState ≠ psCharging then .next s
  else
    let s := s.setPs psSeqUp
    .next { s with pwr := { s.pwr with mainIn := true, step := 2, volts := volts, chargeUs := time } }

/-- CHARGE_TIMEOUT (R419, R429): the bulk is not charged within 35 ms. -/
def execChargeTimeout (volts : Nat) (s : State) : Host.Outcome State Fault Refusal :=
  let s := tryEnable s true
  if s.psState ≠ psCharging then .next s else .next (failUp s 1 205 volts)

/-- The wave of a cluster (R428). -/
def waveOf (ci : Nat) : Nat := (ci % 18 + 3 * (ci / 18)) % 6

/-- Whether a cluster has a usable tile and so is powered. -/
def State.powered (s : State) (ci : Nat) : Bool := (clusterTiles ci).any s.usable

/-- A VCL domain is within tolerance: three phases at the nominal set-point, or two phases at code 50 (R435). -/
def clusterOn (s : State) (ci : Nat) : State :=
  let a := Reg.PWR_CL + ci
  let two := decide (s.clState ci = clTwoPhase)
  let s := if two then s else s.setFld a 26 24 7
  (s.setFld a 6 0 (if two then 50 else 60)).setCl ci (if two then clTwoPhase else clOn)

/-- A switch-on is deferred (R439): since when and why. -/
def deferOn (s : State) (d cause : Nat) : State :=
  let since := match SMap.get? s.pwr.deferred d with | some x => x.1 | none => s.now
  { s with pwr := { s.pwr with deferred := SMap.put s.pwr.deferred d (since, cause) } }

/-- The clusters of a wave come up but for those deferred. -/
def waveUp (s : State) (w : Nat) (deferred : List (Nat × Nat)) : State :=
  ((List.range 144).filter (fun ci => decide (waveOf ci = w) && s.powered ci && decide (s.clState ci ≠ clDark))).foldl (fun s ci =>
    match deferred.find? (fun x => decide (x.1 = ci)) with
    | some x => deferOn (s.setCl ci clDeferred) ci x.2
    | none => clusterOn s ci) s

/-- The power-up is complete: STATE ON, PWR_OK, event 0x0401. -/
def mainUp (s : State) : State :=
  let s := setSignal (s.setPs psOn) 7 true
  let s := { s with pwr := { s.pwr with step := 0, wave := 0 } }
  recordEvent s 0x0401 0 s.pwr.volts s.pwr.chargeUs s.converters

/-- POWER_UP_STEP_DONE (R427, R428): `converters` has a bit for each converter in regulation, `deferred` the clusters of the wave
whose switch-on is deferred. Step 9 begins with step 9 of the start. -/
def execPowerUpStepDone (converters : Nat) (deferred : List (Nat × Nat)) (s : State) : Host.Outcome State Fault Refusal :=
  if s.psState ≠ psSeqUp then .next s
  else if s.pwr.step = 2 then
    let s := s.setFld Reg.PWR_STATUS 20 16 converters
    if s.converters < 3 then
      let f := s.takeFree
      .next (failUp f.2 2 204 (f.1.toNat % 2 ^ 16))
    else .next { s with pwr := { s.pwr with step := 3 } }
  else if s.pwr.step < 9 then .next { s with pwr := { s.pwr with step := s.pwr.step + 1 } }
  else if s.fld Reg.MGT_START_STATUS 11 8 ≠ 9 then .next s
  else
    let s := waveUp s s.pwr.wave deferred
    if s.pwr.wave = 5 then .next (mainUp s) else .next { s with pwr := { s.pwr with wave := s.pwr.wave + 1 } }

/-- SEQ_TIMEOUT (R429); a VCL domain that stays out of tolerance in step 9 goes dark (16 Table 16.2). -/
def execSeqTimeout (domain volts : Nat) (s : State) : Host.Outcome State Fault Refusal :=
  if s.psState ≠ psSeqUp then .next s
  else if s.pwr.step = 9 ∧ domain < 144 then .next (makeDark s domain 2)
  else .next (failUp s s.pwr.step domain volts)

/-! ## Loss and restart -/

/-- MAIN_LOST (R431, Table 14.6). -/
def execMainLost (kind : LossKind) (s : State) : Host.Outcome State Fault Refusal :=
  if !s.enabled then .next s
  else
    match kind with
    | .input volts => .next (loseMain (mainGone s) 0x0402 volts (if s.auxValid then 1 else 0) (s.round % 2 ^ 32) false)
    | .overvoltage peak => .next (loseMain s 0x0404 peak 0 0 false)
    | .overcurrent peak fast => .next (loseMain s 0x0405 peak (if fast then 1 else 0) 0 true)

/-- INPUT_OUT_OF_ENVELOPE (R417). -/
def execInputOutOfEnvelope (entering : Bool) (volts : Nat) (s : State) : Host.Outcome State Fault Refusal :=
  if decide (s.fld Reg.PWR_STATUS 30 30 = 1) = entering then .next s
  else .next (recordEvent (s.setBit Reg.PWR_STATUS 30 entering) 0x0403 0 (if entering then 1 else 0) volts 0)

/-- The start is entered again at step 3 (R433). -/
def reenterStart (s : State) : State :=
  let s := ((s.setMs msStarting).setFld Reg.MGT_START_STATUS 11 8 3).setFld Reg.MGT_START_STATUS 19 16 0
  let s := s.setFld Reg.ADM_STATUS 2 0 1
  tryEnable { s with boot := { s.boot with stepAt := s.now } } false

/-- The main input returns: the cool-down check may name a failure again (15 R465). -/
def mainBack (s : State) : State :=
  if s.pwr.mainIn then s else { s with pwr := { s.pwr with mainIn := true }, thm := { s.thm with refused := false } }

/-- MAIN_RESTART (R433): the main input has been in range for 100 ms. -/
def execMainRestart (s : State) : Host.Outcome State Fault Refusal :=
  let s := mainBack s
  if s.msState = msAux ∧ s.psState = psAux ∧ s.boot.loaded = true ∧ s.pwr.stayOff = false ∧ s.fld Reg.PWR_STATUS 31 31 = 0 then .next (reenterStart s)
  else .next s

/-- A write of MAIN_RETRY (R433, R441): at least 1 s after the trip, three times in 24 h. -/
def mainRetry (s : State) : State :=
  let recent := s.pwr.retries.filter (fun t => decide (s.now < t + 86400000000000))
  if s.psState ≠ psLocked ∨ s.now < s.pwr.lockedAt + 1000000000 ∨ 3 ≤ recent.length ∨ s.fld Reg.PWR_STATUS 31 31 = 1 then
    refuse s Reg.PWR_CTRL stRefused
  else
    let s := { s with pwr := { s.pwr with retries := recent ++ [s.now] } }
    let s := (s.setFld Reg.PWR_RETRIES 1 0 (recent.length + 1)).setFld Reg.PWR_STATUS 29 29 0
    reenterStart (s.setPs psAux)

/-- MAIN_RETRY (R433). -/
def execMainRetry (s : State) : Host.Outcome State Fault Refusal := .next (mainRetry s)

/-- Sage drops every round in progress (R430, 10 R314 step 3). -/
def dropRound (s : State) : State :=
  let bs := s.sage.batches.filter (fun b => b.part.isSome && !b.committed)
  let s := bs.foldl (fun s b => dropBatch s b (b.dropped.getD 0)) s
  (s.tiles.map (·.1)).foldl (fun s ti => abandonTile s ti) s

/-- The orderly power-down begins (R430): PWR_OK released, rounds in progress dropped, the state saved (17 Table 17.2). -/
def powerDown (s : State) : State :=
  let s := setSignal (dropRound (saveState s none)) 7 false
  let s := { s.setPs psSeqDown with pwr := { s.pwr with step := 9, wave := 5, stayOff := true } }
  s.setFld Reg.ADM_STATUS 2 0 0

/-- A write of MAIN_OFF: ignored where STATE is not ON (R441). -/
def mainOff (s : State) : State := if s.psState = psOn then powerDown s else s

/-- MAIN_OFF (R430). -/
def execMainOff (s : State) : Host.Outcome State Fault Refusal := .next (mainOff s)

/-- POWER_DOWN_STEP_DONE (R430): the waves from 5 down to 0, then the steps in reverse; at the end main power is off. -/
def execPowerDownStepDone (s : State) : Host.Outcome State Fault Refusal :=
  if s.psState ≠ psSeqDown then .next s
  else if s.pwr.step = 9 then
    let w := s.pwr.wave
    let s := ((List.range 144).filter (fun ci => decide (waveOf ci = w))).foldl (fun s ci => s.setReg (Reg.PWR_CL + ci) 0) s
    if w = 0 then .next { s with pwr := { s.pwr with step := 8 } } else .next { s with pwr := { s.pwr with wave := w - 1 } }
  else if 1 < s.pwr.step then .next { s with pwr := { s.pwr with step := s.pwr.step - 1 } }
  else .next (afterOff ((wipeMain s).setPs psAux))

/-! ## Auxiliary power -/

/-- The start sequence begins (16 R470): t0 is now. -/
def beginStart (s : State) : State :=
  let s := ((s.setMs msStarting).setFld Reg.MGT_START_STATUS 11 8 1).setFld Reg.MGT_START_STATUS 19 16 0
  let s := s.setFld Reg.ADM_STATUS 2 0 1
  { s with boot := { s.boot with t0 := s.now, stepAt := s.now } }

/-- AUX_VALID (16 R470, R434): the auxiliary input is valid: the start begins, or a fall-back ends. -/
def execAuxValid (volts : Nat) (s : State) : Host.Outcome State Fault Refusal :=
  if !s.pwr.auxOn then
    .next (beginStart { s with
      pwr := { s.pwr with auxOn := true, auxSince := some s.now }
      tb := { s.tb with offset := -(s.now : Int) } })
  else if s.fld Reg.PWR_STATUS 31 31 = 1 then
    let s := { s with pwr := { s.pwr with auxSince := some s.now } }
    .next (tryEnable (setAlert (recordEvent (s.setBit Reg.PWR_STATUS 31 false) 0x0406 0 0 volts 0) 16 false) false)
  else .next (tryEnable s true)

/-- AUX_FALLBACK (R434): auxiliary power is lost with main power enabled. -/
def execAuxFallback (volts : Nat) (s : State) : Host.Outcome State Fault Refusal :=
  if !s.enabled ∨ s.fld Reg.PWR_STATUS 31 31 = 1 then .next s
  else
    let s := { s with pwr := { s.pwr with auxSince := none } }
    .next (setAlert (recordEvent (s.setBit Reg.PWR_STATUS 31 true) 0x0406 0 1 volts 0) 16 true)

/-- AUX_LOST (00 R40, 16 case note): the module is off. What the card and the fuses hold stays; staged records are lost; the
real-time clock loses calendar time. -/
def execAuxLost (s : State) : Host.Outcome State Fault Refusal :=
  let s := wipeMain s
  .next { State.reset with
    tiles := s.tiles
    stm := s.stm
    evt := { Recorder.init with log := s.evt.log, head := s.evt.head, first := s.evt.first, clearing := s.evt.clearing }
    card := { s.card with job := none }
    fuses := s.fuses
    plan := { Plan.init with fused := s.plan.fused }
    out := s.out
    now := s.now
    free := s.free
    pending := s.pending }

/-! ## Faults -/

/-- CONVERTER_FAILED (R421, R422). -/
def execConverterFailed (k : Nat) (s : State) : Host.Outcome State Fault Refusal :=
  if 5 ≤ k ∨ !s.enabled ∨ s.fld Reg.PWR_STATUS (16 + k) (16 + k) = 0 then .next s
  else
    let s := lowerCaps (s.setFld Reg.PWR_STATUS (16 + k) (16 + k) 0)
    let n := s.converters
    let s := recordEvent s 0x0407 0 k n (min (s.fld Reg.THM_CAP_NOW 15 0) (s.fld Reg.THM_CAP_NOW 31 16))
    if n < 2 then .next (shedMain s) else .next s

/-- PHASE_FAILED (R435, R436). -/
def execPhaseFailed (cluster phase : Nat) (s : State) : Host.Outcome State Fault Refusal :=
  let a := Reg.PWR_CL + cluster
  if 144 ≤ cluster ∨ 3 ≤ phase ∨ s.clState cluster = clDark ∨ s.fld a (24 + phase) (24 + phase) = 0 then .next s
  else
    let s := s.setFld a (24 + phase) (24 + phase) 0
    let n := ((List.range 3).filter (fun i => (s.fld a 26 24).testBit i)).length
    if n < 2 then .next (makeDark s cluster 0)
    else
      let s := (s.setCl cluster clTwoPhase).setFld a 6 0 (min 50 (s.fld a 6 0))
      .next (recordEvent s 0x0408 0 cluster phase n)

/-- The cluster whose in-die regulators tie to a cluster's (R437): (cx, cy xor 1). -/
def tiePartner (ci : Nat) : Nat := (ci / 18 ^^^ 1) * 18 + ci % 18

/-- DIE_REG_TIED (R437): the partner's regulator feeds both, or both clusters go dark. -/
def execDieRegTied (cluster rail : Nat) (s : State) : Host.Outcome State Fault Refusal :=
  let p := tiePartner cluster
  if 144 ≤ cluster ∨ 3 ≤ rail ∨ s.pwr.deadRegs.contains (cluster, rail) ∨ s.clState cluster = clDark then .next s
  else
    let s := { s with pwr := { s.pwr with deadRegs := s.pwr.deadRegs ++ [(cluster, rail)] } }
    if s.pwr.deadRegs.contains (p, rail) then .next (makeDark (makeDark s cluster 1) p 1)
    else
      let s := s.setFld (Reg.PWR_CL + cluster) (12 + rail) (12 + rail) 1
      .next (recordEvent s 0x040A 0 (208 + 3 * cluster + rail) (208 + 3 * p + rail) 0)

/-- A stack goes OFFLINE (08 R236): its half's stack tier leaves the floor plan. -/
def stackOffline (s : State) (k : Nat) : State :=
  if s.fld (Reg.STM_STACK_STATUS + k) 2 0 = stkOffline then s
  else
    let s := recordEvent (s.setFld (Reg.STM_STACK_STATUS + k) 2 0 stkOffline) 0x0B03 k k (halfNo (stackHalf k)) 0
    { s with plan := { s.plan with due := true } }

/-- RAIL_FAULT (R437). -/
def execRailFault (domain volts : Nat) (s : State) : Host.Outcome State Fault Refusal :=
  if !s.enabled then .next s
  else if 156 ≤ domain ∧ domain ≤ 203 then .next (stackOffline (recordEvent (noteMin s domain volts) 0x040F 0 domain volts 0) ((domain - 156) / 3))
  else if 144 ≤ domain ∧ domain ≤ 155 then .next (shedMain (recordEvent (noteMin s domain volts) 0x040F 0 domain volts 1))
  else .next s

/-- DOMAIN_UV (R438): the round's work of the cluster drops; a third within 24 h makes the cluster dark, else its domain restarts. -/
def execDomainUv (cluster volts duration : Nat) (s : State) : Host.Outcome State Fault Refusal :=
  if 144 ≤ cluster ∨ (s.clState cluster ≠ clOn ∧ s.clState cluster ≠ clTwoPhase) then .next s
  else
    let s := recordEvent (dropCluster (noteMin s cluster volts) cluster) 0x040D 0 cluster volts duration
    let l := (SMap.getD s.pwr.undervolts cluster []).filter (fun t => decide (s.now < t + 86400000000000)) ++ [s.now]
    let s := { s with pwr := { s.pwr with undervolts := SMap.put s.pwr.undervolts cluster l, noBudget := s.pwr.noBudget ++ [cluster] } }
    if 3 ≤ l.length then .next (makeDark s cluster 2) else .next (deferOn (s.setCl cluster clDeferred) cluster 0)

/-- SWITCH_ON_RECHECK (R439): both checks on a deferred domain. -/
def execSwitchOnRecheck (domain headroom : Nat) (neighbourPeak : Bool) (s : State) : Host.Outcome State Fault Refusal :=
  match SMap.get? s.pwr.deferred domain with
  | none => .next s
  | some (since, cause) =>
    if headroom < 20 then .next (deferOn s domain 0)
    else if neighbourPeak then .next (deferOn s domain 1)
    else
      let s := { s with pwr := { s.pwr with deferred := SMap.del s.pwr.deferred domain } }
      let s := if domain < 144 then clusterOn s domain else s
      if 10000000 < s.now - since then .next (recordEvent s 0x040B 0 domain ((s.now - since) / 1000 % 2 ^ 32) cause) else .next s

/-- SENSE_FAULT (R426). -/
def execSenseFault (domain : Nat) (s : State) : Host.Outcome State Fault Refusal :=
  if 640 ≤ domain ∨ s.pwr.localSense.contains domain then .next s
  else .next (recordEvent { s with pwr := { s.pwr with localSense := s.pwr.localSense ++ [domain] } } 0x040E 0 domain 1 0)

/-- SENSE_RESTORED (R426, R439): a VCL domain that was off may be switched on again. -/
def execSenseRestored (domain : Nat) (s : State) : Host.Outcome State Fault Refusal :=
  if !s.pwr.localSense.contains domain then .next s
  else
    let s := recordEvent { s with pwr := { s.pwr with localSense := s.pwr.localSense.filter (fun d => decide (d ≠ domain)) } } 0x040E 0 domain 0 0
    if domain < 144 && decide (s.psState = psOn) && decide (s.clState domain = clOff) && s.powered domain then
      .next (deferOn { s.setCl domain clDeferred with pwr := { s.pwr with noBudget := s.pwr.noBudget ++ [domain] } } domain 0)
    else .next s

/-- A write of PWR_DOM_CTRL.CLR (R443). -/
def clearDomain (s : State) (domain : Nat) : State :=
  if 640 ≤ domain then s else (s.setFld (domReg domain) 31 16 0xFFFF).setReg64 (domReg domain + 1) 0

/-- PWR_DOM_CLR (R443). -/
def execPwrDomClr (domain : Nat) (s : State) : Host.Outcome State Fault Refusal := .next (clearDomain s domain)

end Sys2Proof.Machine
end

