-- ==== Sys2Proof/Machine/Thermal.lean ====
section
/-! DEFINITION. The thermal manager (15): the model and its sensors, throttling, the coolant, the trip and its release. -/
namespace Sys2Proof.Machine

/-! ## Measured values -/

/-- A temperature register's 16-bit field as a signed value. -/
def signed16 (v : Nat) : Int := if v < 2 ^ 15 then v else (v : Int) - 2 ^ 16

/-- A temperature as a signed 16-bit field. -/
def field16 (t : Int) : Nat := (t % 2 ^ 16).toNat

def State.inlet (s : State) : Int := signed16 (s.fld Reg.THM_COOL_TEMP 15 0)
def State.outlet (s : State) : Int := signed16 (s.fld Reg.THM_COOL_TEMP 31 16)

/-- Q: the mean flow of the last 100 ms, 0.01 L/min. -/
def State.meanFlow (s : State) : Rat :=
  if s.thm.flows.length = 0 then 0 else ((s.thm.flows.foldl (· + ·) 0 : Nat) : Rat) / (s.thm.flows.length : Nat)

/-- Qfull, 0.01 L/min (R460). -/
def qFull (inlet : Int) : Rat :=
  if inlet ≤ 350 then 320 else if inlet ≤ 400 then 320 + 8 * ((inlet - 350 : Int) : Rat) / 5 else 400

/-- f_in (R460). -/
def inletFactor (inlet : Int) : Rat :=
  if inlet ≤ 400 then 1 else if inlet < 450 then ((450 - inlet : Int) : Rat) / 50 else 0

/-- f_cool (R460). -/
def coolFactor (q : Rat) (inlet : Int) : Rat := min 1 (q / qFull inlet) * inletFactor inlet

def inletGood (inlet : Int) : Bool := decide (180 ≤ inlet) && decide (inlet ≤ 400)

def State.pred (s : State) (n : Nat) : Rat := SMap.getD s.thm.predicted n 0
def State.usedOf (s : State) (n : Nat) : Rat := SMap.getD s.thm.used n 0

/-- The value compared with a limit: the higher of the model and the used sensor value (R445). -/
def State.hot (s : State) (n : Nat) : Rat := max (s.pred n) (s.usedOf n)

def State.dieTemp (s : State) (ci : Nat) : Rat := s.hot (9 * ci)
def State.layerTemp (s : State) (ci : Nat) : Rat := ((List.range 7).map (fun l => s.hot (9 * ci + 2 + l))).foldl max (s.hot (9 * ci + 1))
def State.stackTemp (s : State) (k : Nat) : Rat := s.hot (1440 + k)

/-! ## Choice of the used value (R449, R451) -/

/-- The choice for a spot: the row of Table 15.2, 5 for one diode that agrees with its neighbours, 6 for the cap of R451; U; the
diode marked suspect. -/
structure Choice where
  row : Nat
  used : Rat
  mark : Option Nat
deriving DecidableEq, Repr

def near (x y d : Rat) : Bool := decide (x - y ≤ d) && decide (y - x ≤ d)

/-- Table 15.2. -/
def chooseTwo (a b m : Rat) : Choice :=
  if near a b 30 then ⟨1, max a b, none⟩
  else
    match near a m 50, near b m 50 with
    | true, true => ⟨2, max a b, none⟩
    | true, false => ⟨3, a, some 1⟩
    | false, true => ⟨3, b, some 0⟩
    | false, false => ⟨4, max (max a b) m, none⟩

/-- One diode left (R451). -/
def chooseOne (r m m' : Rat) : Choice := if near r m' 50 then ⟨5, max r m, none⟩ else ⟨6, max (max r m) m' + 50, none⟩

/-- The choice for a spot with its diodes in service. -/
def choose (a b : Option Rat) (m m' : Rat) : Choice :=
  match a, b with
  | some a, some b => chooseTwo a b m
  | some r, none => chooseOne r m m'
  | none, some r => chooseOne r m m'
  | none, none => ⟨6, m + 50, none⟩

/-- Exclude a diode (R451). -/
def excludeDiode (s : State) (spot d : Nat) : State :=
  let a := Reg.THM_SPOT + spot
  if s.fld a (30 + d) (30 + d) = 1 then s
  else
    let s := s.setFld a (30 + d) (30 + d) 1
    recordEvent s 0x0502 0 spot d (2 - s.fld a 30 30 - s.fld a 31 31)

/-- Count a suspect mark of a diode: three in 24 h exclude it (R451). `note` is the event of the mark. -/
def countMark (s : State) (spot d : Nat) (note : State → State) : State :=
  let k := 2 * spot + d
  let l := (SMap.getD s.thm.marks k []).filter (fun t => decide (s.now < t + 86400000000000)) ++ [s.now]
  let s := { s with thm := { s.thm with marks := SMap.put s.thm.marks k l } }
  let s := note (s.setFld (Reg.THM_SPOT + spot) 29 28 (min 3 l.length))
  if l.length < 3 then s else excludeDiode s spot d

/-- A diode is marked suspect once for each episode (R449). -/
def markDiode (s : State) (spot d : Nat) (a b : Int) : State :=
  let k := 2 * spot + d
  if s.thm.episodes.contains k then s
  else
    countMark { s with thm := { s.thm with episodes := s.thm.episodes ++ [k] } } spot d
      (fun s => recordEvent s 0x0501 0 spot (tempParam a) (tempParam b))

/-- An episode ends when the diodes agree within 3 K for 1 s (R449). -/
def noteAgree (s : State) (spot : Nat) (agrees : Bool) : State :=
  if !agrees then { s with thm := { s.thm with agree := SMap.del s.thm.agree spot } }
  else
    match SMap.get? s.thm.agree spot with
    | none => { s with thm := { s.thm with agree := SMap.put s.thm.agree spot s.now } }
    | some t =>
      if s.now < t + 1000000000 then s
      else { s with thm := { s.thm with episodes := s.thm.episodes.filter (fun k => decide (k / 2 ≠ spot)) } }

/-- A cluster is capped at 70 % (R450); `event` names the fourth row of Table 15.2. -/
def capCluster (s : State) (spot : Nat) (event : Bool) (top m : Rat) : State :=
  let ci := spot / 9
  let first := !s.thm.guardSpots.contains spot
  let s := { s with thm := { s.thm with
    guardSpots := if first then s.thm.guardSpots ++ [spot] else s.thm.guardSpots
    guard := if s.thm.guard.contains ci then s.thm.guard else s.thm.guard ++ [ci] } }
  let s := s.setFld Reg.THM_STATUS 30 30 1
  if event && first then recordEvent s 0x0503 0 spot (tempParam top.floor) (tempParam m.floor) else s

/-- A temperature as a 12-bit field. -/
def field12 (x : Rat) : Nat := min 4095 x.floor.toNat

/-- One spot in a step (R447 steps 2 and 3). -/
def spotStep (s : State) (k spot : Nat) (x : Int × Int) : State :=
  let reg := Reg.THM_SPOT + spot
  let m := s.pred spot
  let a : Option Rat := if s.fld reg 30 30 = 1 then none else some (x.1 : Rat)
  let b : Option Rat := if s.fld reg 31 31 = 1 then none else some (x.2 : Rat)
  let m' := Config.thermalNeighbour k s.boot.cal s.thm.nodes s.thm.used spot
  let c := choose a b m m'
  let s := noteAgree s spot (decide (c.row = 1))
  let s := match c.mark with | some d => markDiode s spot d x.1 x.2 | none => s
  let s : State :=
    if c.row = 4 ∨ c.row = 6 then capCluster s spot (decide (c.row = 4)) (max (x.1 : Rat) (x.2 : Rat)) m
    else { s with thm := { s.thm with guardSpots := s.thm.guardSpots.filter (fun p => decide (p ≠ spot)) } }
  let ci := spot / 9
  let t := m + (c.used - m) / 4
  let s := { s with thm := { s.thm with
    unwell := if c.row ≤ 2 ∨ s.thm.unwell.contains ci then s.thm.unwell else s.thm.unwell ++ [ci]
    used := SMap.put s.thm.used spot c.used
    nodes := SMap.put s.thm.nodes spot t } }
  (s.setFld reg 23 12 (field12 t)).setFld reg 11 0 (field12 c.used)

/-- An HBM stack's node in a step, from the stack's own sensor. -/
def stackStep (s : State) (k : Nat) (t : Int) : State :=
  let m := s.pred (1440 + k)
  let x := m + ((t : Rat) - m) / 4
  let s := { s with thm := { s.thm with used := SMap.put s.thm.used (1440 + k) (t : Rat), nodes := SMap.put s.thm.nodes (1440 + k) x } }
  (s.setFld (Reg.THM_STACK_TEMP + k) 31 16 (field16 x.floor)).setFld (Reg.THM_STACK_TEMP + k) 15 0 (field16 t)

/-- The model advances by 1 ms (R446, R447). -/
def modelStep (s : State) (diodes : List (Int × Int)) (sensors : List Int) (powers : List Nat) : State :=
  let k := s.free
  let s := s.takeFree.2
  let p := (List.range 1460).map (fun n =>
    (n, Config.thermalPredict k s.boot.cal s.thm.nodes powers (s.fld Reg.THM_FLOW 15 0) s.inlet n))
  let s := { s with thm := { s.thm with predicted := p, nodes := p, unwell := [] } }
  let s := (diodes.take 1296).zipIdx.foldl (fun s x => spotStep s k x.2 x.1) s
  (sensors.take 16).zipIdx.foldl (fun s x => stackStep s x.2 x.1) s

/-! ## Holding the limits (R452-R458) -/

/-- Entry into a throttle range and leaving it (R455). Parts are numbered 3 x cluster + part and 432 + stack. -/
def noteThrottle (s : State) (key place part : Nat) (v : Rat) (inside : Bool) : State :=
  if inside then
    if s.thm.throttled.contains key then s
    else recordEvent { s with thm := { s.thm with throttled := s.thm.throttled ++ [key] } } 0x0504 0 place part (tempParam v.floor)
  else { s with thm := { s.thm with throttled := s.thm.throttled.filter (fun k => decide (k ≠ key)) } }

/-- A quantity that falls linearly from 1 at `lo` to 0 at `hi`. -/
def ramp (v lo hi : Rat) : Rat := if v ≤ lo then 1 else if hi ≤ v then 0 else (hi - v) / (hi - lo)

/-- The set-point of a cluster that nothing lowers (R424, R435). -/
def State.nominal (s : State) (ci : Nat) : Nat := if s.clState ci = clTwoPhase then 50 else 60

def State.vset (s : State) (ci : Nat) : Nat := s.fld (Reg.PWR_CL + ci) 6 0
def setVset (s : State) (ci v : Nat) : State := s.setFld (Reg.PWR_CL + ci) 6 0 v

/-- A cluster's VCL falls by at most 5 codes; by how many is left open (R454): a free value from 1 to 5. -/
def stepVset (s : State) (ci : Nat) : State :=
  let f := s.takeFree
  setVset f.2 ci (s.vset ci - (1 + f.1.toNat % 5))

/-- Whether a cluster draws from its VCL. -/
def State.drawing (s : State) (ci : Nat) : Bool := decide (s.clState ci = clOn) || decide (s.clState ci = clTwoPhase)

/-- A cluster is held to its throttle ranges (R455) and its 70 % cap (R450). `over` says that its stack is over its cap. -/
def holdCluster (s : State) (tooHot : Bool) (ci : Nat) : State :=
  let die := s.dieTemp ci
  let lay := s.layerTemp ci
  let s := noteThrottle s (3 * ci) ci 0 die (decide (950 ≤ die))
  let s := noteThrottle s (3 * ci + 1) ci 1 lay (decide (920 ≤ lay))
  let g : Rat := if s.thm.guard.contains ci then 7 / 10 else 1
  let tied : Rat := if s.pwr.deadRegs.any (fun x => decide (x.1 = ci) || decide (x.1 = tiePartner ci)) then 4 / 5 else 1
  let s := { s with thm := { s.thm with
    limit := SMap.set s.thm.limit ci (min g (ramp die 950 1050)) 1
    allow := SMap.set s.thm.allow ci (min (min g tied) (ramp lay 920 950)) 1 } }
  if !s.drawing ci ∨ s.thState = thLoss then s
  else if 1050 ≤ die then setVset s ci 20
  else if 950 ≤ lay then stepVset s ci
  else if tooHot then s
  else setVset s ci (s.nominal ci)

/-- An HBM stack is held to its throttle range: its served rate (R455). -/
def holdStack (s : State) (k : Nat) : State :=
  let v := s.stackTemp k
  let s := noteThrottle s (432 + k) (144 + k) 2 v (decide (920 ≤ v))
  let r : Rat := if 950 < v then 0 else 1 / 4 + 3 / 4 * ramp v 920 950
  { s with thm := { s.thm with stackRate := SMap.set s.thm.stackRate k r 1 } }

/-- The measured power of a compute stack in mW: its VCL, in-die, VSA and VKP domains. -/
def stackPower (powers : List Nat) (h : Half) : Nat :=
  let cs := (List.range 144).filter (fun ci => match h with | .west => decide (ci % 18 < 9) | .east => decide (9 ≤ ci % 18))
  let own := cs.map (fun ci => powers.getD ci 0 + powers.getD (208 + 3 * ci) 0 + powers.getD (209 + 3 * ci) 0 + powers.getD (210 + 3 * ci) 0)
  own.foldl (· + ·) 0 + powers.getD (144 + halfNo h) 0 + powers.getD (146 + halfNo h) 0

def State.lastPower (s : State) (h : Half) : Nat := match h with | .west => s.thm.lastW | .east => s.thm.lastE
def State.setLastPower (s : State) (h : Half) (v : Nat) : State :=
  match h with
  | .west => { s with thm := { s.thm with lastW := v } }
  | .east => { s with thm := { s.thm with lastE := v } }

/-- Ballast has not filled a fall of stack power (R457): SL in W/s is the fall in mW that 1 ms allows. -/
def noteShort (s : State) (h : Half) (p : Nat) : State :=
  let floor := s.lastPower h - s.fld Reg.THM_SLEW 11 0
  let s1 := s.setLastPower h p
  if p < floor ∧ s.psState = psOn then
    let s1 := s1.setFld Reg.THM_STATUS 28 28 1
    if s1.thm.shortRound.contains (halfNo h) then s1
    else recordEvent { s1 with thm := { s1.thm with shortRound := s1.thm.shortRound ++ [halfNo h] } } 0x050A 0 (halfNo h) ((floor - p) / 1000) (s1.round % 2 ^ 32)
  else s1

/-- The division of a cap (R453): what the planned arithmetic leaves is the bonded share. -/
def divideCap (s : State) (h : Half) : State :=
  let v := max 0 (s.capOf h - s.idle h - s.energy s.round h * 1000 / s.roundNs)
  match h with
  | .west => { s with thm := { s.thm with shareW := v } }
  | .east => { s with thm := { s.thm with shareE := v } }

/-- A rise of a cap at the slew limit, 1 ms of it (R452, R456). -/
def raiseCap (s : State) (h : Half) : State :=
  if s.capOf h < s.capTarget h ∧ s.roundsRun = true then
    setCap s h (min (s.capTarget h) (s.capOf h + (s.fld Reg.THM_SLEW 11 0 : Rat) / 1000))
  else s

/-- Bond fatigue (R458). -/
def noteFatigue (s : State) (ci : Nat) : State :=
  match SMap.get? s.thm.tref ci with
  | none => s
  | some t =>
    let v := s.dieTemp ci
    if near v t 200 then s
    else ({ s with thm := { s.thm with tref := SMap.put s.thm.tref ci v } }.count (Reg.THM_FATIGUE + ci) 1).count Reg.THM_FATIGUE_TOTAL 1

/-- Hold every limit after a model step. -/
def holdLimits (s : State) (powers : List Nat) : State :=
  let pw := stackPower powers .west
  let pe := stackPower powers .east
  let s := noteShort (noteShort s .west pw) .east pe
  let s := lowerCaps (raiseCap (raiseCap s .west) .east)
  let s := divideCap (divideCap s .west) .east
  let overW := decide (s.capOf .west * 1000 < pw)
  let overE := decide (s.capOf .east * 1000 < pe)
  let s := (List.range 144).foldl (fun s ci => holdCluster s (if ci % 18 < 9 then overW else overE) ci) s
  let s := (List.range 16).foldl holdStack s
  (List.range 144).foldl noteFatigue s

/-! ## Trip (R464, R465) -/

/-- A thermal trip: main power is shed, the record is written open, and what stands over is lost. While a trip holds, nothing
further happens. -/
def tripThermal (s : State) (place : Nat) (value : Int) : State :=
  if s.thState = thTripped ∨ s.thState = thCooldown then s
  else
    let s := (setSignal s 5 true).setTh thTripped
    let seq := s.evt.head
    let r := s.round % 2 ^ 32
    let s := recordEvent s 0x0507 0 place (tempParam value) r
    let s := addTrip s 1 0x0507 place (tempParam value) r (seq % 2 ^ 32) true
    let s := { s with
      thm := { s.thm with refused := false, restart := s.tripTemps.zipIdx.map (fun x => (x.2, (x.1 : Rat))) }
      boot := { s.boot with removal := none } }
    let s := if s.enabled then offState (wipeMain s) false else s
    afterOff (s.setFld Reg.ADM_STATUS 2 0 4)

/-- What reaches 115 C in a step: a spot, a stack, or another node of the model, whose number the event does not give (free). -/
def State.tripCause (s : State) (diodes : List (Int × Int)) (sensors : List Int) : Option (Nat × Int) :=
  let spot := ((diodes.take 1296).zipIdx).findSome? (fun x =>
    let reg := Reg.THM_SPOT + x.2
    let a : Int := if s.fld reg 30 30 = 1 then 0 else x.1.1
    let b : Int := if s.fld reg 31 31 = 1 then 0 else x.1.2
    let v := max (max a b) (s.pred x.2).floor
    if 1150 ≤ v then some (x.2, v) else none)
  let stack := (List.range 16).findSome? (fun k =>
    let v := max (sensors.getD k 0) (s.pred (1440 + k)).floor
    if 1150 ≤ v then some (1296 + k, v) else none)
  let other := (List.range 1460).findSome? (fun n =>
    let v := (s.pred n).floor
    if 1150 ≤ v then some (s.takeFree.1.toNat % 2 ^ 32, v) else none)
  match spot, stack with
  | some x, _ => some x
  | none, some x => some x
  | none, none => other

/-- THERMAL_MODEL_STEP (R447): diode pairs by spot and stack sensors in 0.1 C, powers by domain in mW. -/
def execThermalModelStep (diodes : List (Int × Int)) (sensors : List Int) (powers : List Nat) (s : State) : Host.Outcome State Fault Refusal :=
  if !s.pwr.auxOn then .next s
  else
    let s := holdLimits (modelStep s diodes sensors powers) powers
    match s.tripCause diodes sensors with
    | some x => .next (tripThermal s.takeFree.2 x.1 x.2)
    | none => .next s

/-- SPOT_GUARD_LIFT (R450): the cluster's spots have read well for 10 s. -/
def execSpotGuardLift (cluster : Nat) (s : State) : Host.Outcome State Fault Refusal :=
  if s.thm.guard.contains cluster && !s.thm.unwell.contains cluster then
    let s := { s with thm := { s.thm with guard := s.thm.guard.filter (fun c => decide (c ≠ cluster)) } }
    .next (s.setBit Reg.THM_STATUS 30 (!s.thm.guard.isEmpty))
  else .next s

/-- The hottest cluster of a stack whose VCL can fall (R454). -/
def State.hottest (s : State) (h : Half) : Option Nat :=
  (List.range 144).foldl (fun a ci =>
    let own := match h with | .west => decide (ci % 18 < 9) | .east => decide (9 ≤ ci % 18)
    if own && s.drawing ci && decide (0 < s.vset ci) then
      match a with
      | none => some ci
      | some c => if s.dieTemp c < s.dieTemp ci then some ci else a
    else a) none

/-- CAP_EXCEEDED (R454): the bonded share falls first, then the hottest cluster's VCL; power in W. -/
def execCapExceeded (h : Half) (power : Nat) (s : State) : Host.Outcome State Fault Refusal :=
  let excess := (power : Rat) - s.capOf h
  if excess ≤ 0 ∨ s.psState ≠ psOn then .next s
  else
    let share := match h with | .west => s.thm.shareW | .east => s.thm.shareE
    let left := max 0 (share - excess)
    let s : State := match h with
      | .west => { s with thm := { s.thm with shareW := left } }
      | .east => { s with thm := { s.thm with shareE := left } }
    if excess ≤ share then .next s
    else
      match s.hottest h with
      | some ci => .next (stepVset s ci)
      | none => .next s

/-! ## Coolant (R460-R463) -/

/-- The state that the coolant factor gives while nothing worse holds (R461). -/
def settleReduced (s : State) : State :=
  if s.thState = thNormal ∨ s.thState = thReduced then s.setTh (if s.thm.reduced then thReduced else thNormal) else s

/-- The loss of coolant (Table 15.3): trigger 0 mean flow, 1 flow stop, 2 temperature rise. -/
def loseCoolant (s : State) (trigger : Nat) : State :=
  let s := ((setSignal s 4 true).setFld Reg.THM_STATUS 31 31 1).setTh thLoss
  let s := recordEvent s 0x0506 0 trigger (s.fld Reg.THM_FLOW 15 0) (tempParam (s.outlet - s.inlet))
  let s := lowerCaps { s with thm := { s.thm with lossAt := s.now } }
  let s := if s.roundsRun then (dropRound s).setFld Reg.ADM_STATUS 2 0 4 else s
  ((List.range 144).filter (fun ci => s.drawing ci)).foldl (fun s ci => setVset s ci 20) s

/-- What loses the coolant (R462). -/
def State.lossTrigger (s : State) : Option Nat :=
  let d := s.outlet - s.inlet
  if s.meanFlow < 160 then some 0
  else if 30 ≤ s.thm.stopped then some 1
  else if s.thm.rises.any (fun x => decide (80 < d - x)) then some 2
  else none

/-- The last 100 of a list of readings, the new one at the end. -/
def window100 {α : Type} (l : List α) (x : α) : List α := (l ++ [x]).drop (l.length + 1 - 100)

/-- COOLANT_SAMPLE (R460-R462): flow in 0.01 L/min (an open sensor reads 0), temperatures in 0.1 C. -/
def execCoolantSample (flow : Nat) (inlet outlet : Int) (s : State) : Host.Outcome State Fault Refusal :=
  if !s.pwr.auxOn then .next s
  else
    let s := { s with thm := { s.thm with
      flows := window100 s.thm.flows flow
      rises := window100 s.thm.rises (outlet - inlet)
      stopped := if flow < 40 then s.thm.stopped + 1 else 0 } }
    let q := s.meanFlow
    let f := coolFactor q inlet
    let s := s.setReg Reg.THM_COOL_TEMP (BitVec.ofNat 32 (field16 outlet * 65536 + field16 inlet))
    let s := (s.setFld Reg.THM_FLOW 15 0 (min 65535 q.floor.toNat)).setFld Reg.THM_FLOW 25 16 (f * 1000).floor.toNat
    let out := !inletGood inlet
    let s : State := if decide (s.fld Reg.THM_STATUS 29 29 = 1) = out then s
      else recordEvent (s.setBit Reg.THM_STATUS 29 out) 0x050C 0 (if out then 1 else 0) (tempParam inlet) 0
    let low := decide (f < 1)
    let s : State := if s.thm.reduced = low then s
      else recordEvent { s with thm := { s.thm with reduced := low } } 0x0505 0 (if low then 1 else 0) (s.fld Reg.THM_FLOW 15 0) (s.fld Reg.THM_FLOW 25 16)
    let s := lowerCaps (settleReduced { s with thm := { s.thm with fcool := f } })
    if s.thState = thNormal ∨ s.thState = thReduced then
      match s.lossTrigger with
      | some t => .next (loseCoolant s t)
      | none => .next s
    else .next s

/-- Every part lies below its plan limit (Table 15.1). -/
def State.belowPlan (s : State) : Bool :=
  (List.range 144).all (fun ci => decide (s.dieTemp ci < 930) && decide (s.layerTemp ci < 900)) &&
    (List.range 16).all (fun k => decide (s.stackTemp k < 900))

/-- COOLANT_RESTORED (R463): the conditions have held for 1 s. -/
def execCoolantRestored (s : State) : Host.Outcome State Fault Refusal :=
  if s.thState ≠ thLoss ∨ s.meanFlow < qFull s.inlet ∨ inletGood s.inlet = false ∨ s.belowPlan = false then .next s
  else
    let s := settleReduced (((setSignal s 4 false).setFld Reg.THM_STATUS 31 31 0).setTh thNormal)
    .next (recordEvent s 0x050D 0 ((s.now - s.thm.lossAt) / 1000000 % 2 ^ 32) (s.fld Reg.THM_FLOW 15 0) (tempParam s.inlet))

/-! ## After a trip -/

/-- THERMAL_TRIP (R464): a comparator or the manager finds 115 C at a spot, or 1,296 + stack. -/
def execThermalTrip (place : Nat) (value : Int) (s : State) : Host.Outcome State Fault Refusal :=
  if !s.pwr.auxOn then .next s else .next (tripThermal s place value)

/-- TRIP_HOLD_END (R465): the main input has been below 53 V for 1 s. -/
def execTripHoldEnd (s : State) : Host.Outcome State Fault Refusal :=
  if s.thState = thTripped then .next (mainGone (s.setTh thCooldown)) else .next s

/-- The model of the cool-down check, restarted from the open record and advanced by 1 s without power (R465). -/
def coolModel (s : State) : State :=
  let start : SMap Rat := if s.thm.restart.isEmpty then
      match s.card.trips.find? (fun r => r.isOpen) with
      | some r => r.temps.zipIdx.map (fun x => (x.2, (x.1 : Rat)))
      | none => []
    else s.thm.restart
  { s with thm := { s.thm with
    restart := start.map (fun e => (e.1, Config.thermalCool s.boot.cal start (s.fld Reg.THM_FLOW 15 0) s.inlet e.1)) } }

def highest (l : List Int) : Int := l.foldl max (l.headD 0)

/-- The diodes in service of a list of readings by spot. -/
def State.inService (s : State) (diodes : List (Int × Int)) : List Int :=
  (diodes.zipIdx).flatMap (fun x =>
    let reg := Reg.THM_SPOT + x.2
    (if s.fld reg 30 30 = 1 then [] else [x.1.1]) ++ (if s.fld reg 31 31 = 1 then [] else [x.1.2]))

/-- The first condition of the cool-down check that fails, with its value; which value a coolant failure names is left open. -/
def State.cooldownFails (s : State) (node diode : Int) : Option (Nat × Nat) :=
  if s.thm.restart.any (fun e => decide (500 < e.2)) then some (0, tempParam node)
  else if 450 < diode then some (1, tempParam diode)
  else if s.meanFlow < qFull s.inlet ∨ inletGood s.inlet = false then some (2, s.takeFree.1.toNat % 2 ^ 32)
  else none

/-- The trip is over: its record is cleared and the start continues at step 3. -/
def clearTrip (s : State) (node diode : Int) : State :=
  let t := match s.card.trips.find? (fun r => r.isOpen) with | some r => r.time | none => s.calendar
  let s := { s with
    card := { s.card with trips := s.card.trips.map (fun r => { r with isOpen := false }) }
    thm := { s.thm with restart := [] } }
  let s := settleReduced ((setSignal s 5 false).setTh thNormal)
  let s := recordEvent s 0x0508 0 ((s.calendar - t) / 1000000000 % 2 ^ 32) (tempParam node) (tempParam diode)
  if s.boot.loaded && (decide (s.msState = msAux) || (decide (s.msState = msStarting) && decide (s.fld Reg.MGT_START_STATUS 11 8 = 3))) && decide (s.psState = psAux) && !s.pwr.stayOff
  then reenterStart s else s

/-- COOLDOWN_CHECK (R465): every 1 s while an open trip record exists and the trip no longer holds. -/
def execCooldownCheck (diodes : List (Int × Int)) (s : State) : Host.Outcome State Fault Refusal :=
  if !s.pwr.auxOn ∨ s.tripOpen = false ∨ s.thState = thTripped then .next s
  else
    let s := coolModel s
    let node := highest (s.thm.restart.map (fun e => e.2.floor))
    let diode := highest (s.inService diodes)
    match s.cooldownFails node diode with
    | none => .next (clearTrip s node diode)
    | some x =>
      if s.pwr.mainIn && !s.thm.refused then
        .next (recordEvent { s.takeFree.2 with thm := { s.thm with refused := true } } 0x0509 0 x.1 x.2 0)
      else .next s

/-- STATE_SAVE (17 R500): every 24 h. -/
def execStateSave (s : State) : Host.Outcome State Fault Refusal := if s.pwr.auxOn then .next (saveState s none) else .next s

end Sys2Proof.Machine
end

