-- ==== Sys2Proof/Machine/Start.lean ====
section
/-! DEFINITION. The start sequence (16 R470-R474, R482), calendar time (16 R475-R479) and removal preparation (16 R489-R491). -/
namespace Sys2Proof.Machine

/-! ## The sequence -/

/-- The step in progress. -/
def State.step (s : State) : Nat := s.fld Reg.MGT_START_STATUS 11 8

/-- The next step begins. -/
def nextStep (s : State) (k : Nat) : State :=
  let s := s.setFld Reg.MGT_START_STATUS 11 8 k
  { s with boot := { s.boot with stepAt := s.now } }

/-- The start halts; how a cause is coded is left open (R471): a free value. -/
def haltFree (s : State) (step : Nat) : State :=
  let f := s.takeFree
  haltStart f.2 step (f.1.toNat % 2 ^ 32)

/-! ### Step 1: fuses and boot images -/

/-- Bytes of a boot copy: as many as its header says. -/
def Card.bootBytes (c : Card) (base : Nat) : List Nat :=
  let h := c.read base 64
  if leAt h 0 4 = 0x48424F54 then c.read base (min cardBootSize (max 64 (leAt h 12 4))) else h

/-- Read and verify a boot copy (19 R544, R545): cause 0 where it does not read. -/
def State.bootCopy (s : State) (base : Nat) (readable : Bool) : Except Nat (Nat × List Nat) :=
  if readable then checkBoot s.fuses (s.card.bootBytes base) else .error 0

/-- The fuse maps as step 1 reads them (R480): tiles burnt in the field are fused off. -/
def readFuses (s : State) : State :=
  let off := s.fuses.tiles ++ s.fuses.burnTiles.filter (fun t => !s.fuses.tiles.contains t)
  let s := { s with plan := { s.plan with fused := off, retired := [] } }
  (List.range 72).foldl (fun s r =>
    s.setReg (Reg.MGT_FUSE_TILE + r) (BitVec.ofNat 32 (((List.range 32).filter (fun i => off.contains (32 * r + i))).map (2 ^ ·)).sum)) s

/-- The standby verifies its own copy; one that does not become ready is reported (R481, Table 19.16). -/
def readyStandby (s : State) (fusesOk : Bool) (digest : Option (List Nat)) : State :=
  let h := otherHalf s.leaseHalf
  let held := decide (s.fld Reg.MGT_CTRL_STATUS (match h with | .west => 29 | .east => 28) (match h with | .west => 29 | .east => 28) = 1)
  match digest with
  | some d => if fusesOk && !held then { s.setFld Reg.MGT_CTRL_STATUS 31 31 1 with boot := { s.boot with standbyHash := d } }
    else recordEvent s 0x0002 0 (halfNo h) 0 0
  | none => recordEvent s 0x0002 0 (halfNo h) 0 0

/-- Step 1 ends. -/
def endStep1 (s : State) (r : StartResult) : State :=
  let s := readFuses s
  let a := s.bootCopy cardBootA r.readA
  let b := s.bootCopy cardBootB r.readB
  let good := match a, b with
    | .ok x, _ => some x.2
    | .error _, .ok x => some x.2
    | .error _, .error _ => none
  let s := readyStandby s r.standbyFusesOk good
  if !r.fusesOk then
    let f := s.takeFree
    haltFree (recordEvent f.2 0x0012 0 (f.1.toNat % 2) (f.1.toNat / 2 % 2) 0) 1
  else
    let svn (x : Except Nat (Nat × List Nat)) : Option Nat := match x with | .ok y => some y.1 | .error _ => none
    let s := { s with boot := { s.boot with svnA := svn a, svnB := svn b } }
    match a, b with
    | .ok x, _ => nextStep { s.setFld Reg.MGT_START_STATUS 12 12 0 with boot := { s.boot with bootHash := x.2 } } 2
    | .error c, .ok x =>
      let s := recordEvent s 0x0011 0 0 c 0
      nextStep { s.setFld Reg.MGT_START_STATUS 12 12 1 with boot := { s.boot with bootHash := x.2 } } 2
    | .error c, .error d => haltFree (recordEvent s 0x0012 0 c d 0) 1

/-! ### Step 2: the card -/

/-- A permitted round length, in us (10 R288). -/
def roundOk (l : Nat) : Bool := decide (250 ≤ l) && decide (l ≤ 50000) && decide (1000000 % l = 0)

/-- Keys of a configuration image, by index. -/
def keysFrom (fs : List (Nat × List Nat)) (base : Nat) : SMap (List Nat) :=
  (List.range 8).filterMap (fun i => (fs.find? (fun (f : Nat × List Nat) => decide (f.1 = base + i))).map (fun f => (i, f.2)))

/-- The eight-byte numbers of a field. -/
def numbers8 (l : List Nat) : List Nat := (List.range (l.length / 8)).map (fun i => leAt l (8 * i) 8)

/-- Load the configuration image (17 R505, R506). -/
def loadImage (s : State) (slot : Nat) (c : Container) : State :=
  let s := cfgRegIds.foldl (fun s id => match cfgReg id with | some a => s.setReg a (fieldWord c.fields id) | none => s) s
  let len := s.fld Reg.ADM_ROUND_LEN 15 0
  let s := if roundOk len then s else recordEvent (s.setFld Reg.ADM_ROUND_LEN 15 0 2000) 0x0607 0 len 2000 0
  let fld (id d : Nat) : Nat := match c.fields.find? (fun f => decide (f.1 = id)) with | some f => f.2.getD 0 0 | none => d
  let other := c.fields.filter (fun (f : Nat × List Nat) => (cfgReg f.1).isNone)
  let s := { s with
    trust := ⟨keysFrom c.fields 0x0101, keysFrom c.fields 0x0109,
      match c.fields.find? (fun (f : Nat × List Nat) => decide (f.1 = 0x0111)) with | some f => numbers8 f.2 | none => []⟩
    boot := { s.boot with
      timeSource := fld 1 1
      ptpDomain := fld 2 0
      ptpPorts := fld 3 15
      records := other.foldl (fun (m : SMap (List Nat)) (f : Nat × List Nat) => SMap.put m f.1 f.2) []
      imageHash := c.digest } }
  let s := (s.setFld Reg.CFG_STATUS 0 0 slot).setFld Reg.CFG_STATUS 29 29 0
  recordEvent (s.setReg Reg.CFG_IMAGE_SEQ (BitVec.ofNat 32 c.seq)) 0x0201 0 slot c.seq c.fields.length

/-- Load the calibration set (17 R513, R514). -/
def loadCal (s : State) (c : Container) : State :=
  let s := (s.setBit Reg.CFG_STATUS 30 c.owner).setReg Reg.CFG_CAL_SEQ (BitVec.ofNat 32 c.seq)
  { s with boot := { s.boot with cal := c.fields.foldl (fun (m : SMap (List Nat)) (f : Nat × List Nat) => SMap.put m f.1 f.2) [], calHash := c.digest } }

def cfgBase (slot : Nat) : Nat := if slot = 0 then cardCfg0 else cardCfg1

/-- The configuration slots in decreasing SEQ (17 R511). -/
def State.slotOrder (s : State) : Nat × Nat :=
  let seq (slot : Nat) : Nat := leAt (s.card.read (cfgBase slot) 64) 8 4
  if seq 0 < seq 1 then (1, 0) else (0, 1)

/-- The slot tried last, as it was found: its image, or what fails in it. -/
def pickLast (s : State) (slot : Nat) (found : Except Bad Container) : State × Except Nat (Nat × Container) :=
  match found with
  | .ok c => (s, .ok (slot, c))
  | .error b => (noteBad s b, .error b.off)

/-- The slot tried first, as it was found: its image, or the event that names the slot, and the other slot. -/
def pickFirst (s : State) (slot other : Nat) (found : Except Bad Container) : State × Except Nat (Nat × Container) :=
  match found with
  | .ok c => (s, .ok (slot, c))
  | .error b =>
    let s := recordEvent (noteBad s b) 0x0202 0 slot b.cause b.field
    pickLast s other (s.checkCard (cfgBase other) cardCfgSize false none)

/-- The image to load: the first slot that passes, or what fails (17 R511): with both, the offset of the slot tried last. -/
def pickImage (s : State) : State × Except Nat (Nat × Container) :=
  let o := s.slotOrder
  pickFirst s o.1 o.2 (s.checkCard (cfgBase o.1) cardCfgSize false none)

/-- Records staged before a scan take the numbers that follow it (19 R554, R558). -/
def restage (s : State) (l : List EventRec) : State :=
  { s with evt := { s.evt with
    staging := s.evt.staging ++ l.zipIdx.map (fun x => { x.1 with seq := s.evt.head + x.2 })
    head := s.evt.head + l.length } }

/-- At a takeover the first number that follows the scan is that of CONTROLLER_TAKEOVER, which names the failed half and
CFG_MIRRORED (19 R558, Table 19.14). -/
def noteTakeover (s : State) (takeover : Option (Nat × Nat)) : State :=
  match takeover with
  | none => s
  | some x => recordEvent s 0x0001 0 (s.evt.head % 2 ^ 32) x.1 x.2

/-- The scan of LOG, or the completion of an interrupted clearing (19 R558). `n` records of LOG scan as valid. Records staged
before it take the numbers that follow. -/
def scanLog (s : State) (n : Nat) (takeover : Option (Nat × Nat)) : State :=
  let m := s.card.saved
  let log := s.evt.log.take n
  let staged := s.evt.staging
  let mark := match m with | some r => r.clearSeq | none => 0
  let cleared := match log with | e :: _ => decide (e.code = 0x0302) && decide (e.seq = mark) | [] => false
  if mark ≠ 0 ∧ cleared = false then
    let s := { s with evt := { s.evt with log := [], staging := [], first := mark, head := mark, full := false, clearing := true } }
    let s := recordEvent s 0x0302 0 (match m with | some r => r.clearFirst | none => 0) (match m with | some r => r.clearHead | none => 0) s.lifeCycle
    restage (noteTakeover s takeover) staged
  else
    let first := match log with | e :: _ => e.seq | [] => 1
    let head := match log.getLast? with | some e => e.seq + 1 | none => 1
    let s := { s with evt := { s.evt with log := log, staging := [], first := first, head := head, full := decide (131072 ≤ log.length) } }
    recordEvent (restage (noteTakeover s takeover) staged) 0x0305 0 (first % 2 ^ 32) (head % 2 ^ 32) (if takeover.isSome then 1 else 0)

/-- The slots of STATE whose CRC holds; with none the counts start at 0 (17 R500). -/
def loadSaved (s : State) (r : StartResult) : State :=
  let s := { s with card := { s.card with
    slot0 := if r.slot0Ok then s.card.slot0 else none
    slot1 := if r.slot1Ok then s.card.slot1 else none } }
  match s.card.saved with
  | none => recordEvent s 0x0209 0 0 0 0
  | some x =>
    let s := s.setReg Reg.THM_FATIGUE_TOTAL (BitVec.ofNat 32 x.total)
    (List.range 144).foldl (fun s c => s.setReg (Reg.THM_FATIGUE + c) (BitVec.ofNat 32 (x.fatigue.getD c 0))) s

/-- The retired list is read once; entries whose CRC fails are ignored (08 R251). -/
def loadRetired (s : State) (bad : List Nat) : State :=
  let s := { s with stm := { s.stm with retired := (s.stm.retired.zipIdx.filter (fun x => !bad.contains x.2)).map (·.1) } }
  bad.foldl (fun s i => recordEvent s 0x0B09 0 i 0 0) s

/-- The rest of step 2 with CAL as it was found: the calibration set, the saved state, the retired list and the scan of LOG. -/
def endCal (s : State) (r : StartResult) (found : Except Bad Container) : State :=
  match found with
  | .error b => haltFree (recordEvent (noteBad s b) 0x0013 0 1 b.off 0) 2
  | .ok k =>
    let s := loadRetired (loadSaved (loadCal s k) r) r.retiredBad
    let s := scanLog s r.logValid none
    let s : State := if s.tripOpen && decide (s.thState ≠ thTripped) then s.setTh thCooldown else s
    tryEnable (nextStep { s with boot := { s.boot with loaded := true } } 3) false

/-- Step 2 ends. -/
def endStep2 (s : State) (r : StartResult) : State :=
  if !r.cardAnswers || !s.card.headerOk then
    haltFree (recordEvent (setAlert (s.setFld Reg.CFG_STATUS 31 31 0) 17 true) 0x0013 0 0 0xFFFFFFFF 0) 2
  else
    let s := s.setFld Reg.CFG_STATUS 31 31 1
    let p := pickImage s
    match p.2 with
    | .error off => haltFree (recordEvent p.1 0x0013 0 0 off 0) 2
    | .ok (slot, c) =>
      let s := loadImage p.1 slot c
      endCal s r (s.checkCard cardCal cardCalSize true none)

/-! ### Steps 4 to 8 -/

/-- A module as the half-link fuse map leaves it before training (Table 16.3): 0 retired, otherwise x8. -/
def fusedModule (s : State) (m : Nat) : State :=
  let home := m / 9 * 8 + m % 9
  let spare := decide (m % 9 = 8)
  match s.fuses.halfLink.find? (fun x => decide (x.1 = m)) with
  | some (_, 0) => retireModule s m
  | some _ => if spare then s.setFld (hmReg m) 2 0 hmSpare else trainModule s m home 1
  | none => if spare then s.setFld (hmReg m) 2 0 hmSpare else trainModule s m home 2

/-- Step 4 ends: modules that do not fail are ACTIVE, and each failing one is handled (13 R401); with none working the
non-lease half is fenced. The standby then receives the configuration (19 R538). -/
def endStep4 (s : State) (failed : List Nat) : State :=
  let s := (List.range 108).foldl fusedModule s
  let s := (List.range 108).foldl (fun s m =>
    if s.hmState m ≠ hmTraining then s
    else if failed.contains m then moduleFailing s m
    else (s.setFld (hmReg m) 2 0 hmActive).setFld (hmReg m) 5 4 (s.hlkMod m).target) s
  let s := settleLink s
  let up := (List.range 108).any (fun m => decide (s.hmState m = hmActive))
  let s := if up then s
    else
      let f := s.takeFree
      let s := recordEvent f.2 0x0014 0 4 (f.1.toNat % 2 ^ 32) ((s.now - s.boot.stepAt) / 1000 % 2 ^ 32)
      fenceHalf (s.setFld Reg.HLK_STATUS 31 31 1) (otherHalf s.leaseHalf)
  let s : State := if s.fld Reg.MGT_CTRL_STATUS 31 31 = 1 && up then
      recordEvent (s.setFld Reg.MGT_CTRL_STATUS 30 30 1) 0x0003 0 (s.reg Reg.CFG_IMAGE_SEQ).toNat (s.reg Reg.CFG_CAL_SEQ).toNat 0
    else s
  nextStep s 5

/-- Trained rates in 0.1 Gb/s (08 R235). -/
def stackRates : List Nat := [144, 136, 128]

/-- The repairs of a stack that the retired list asks for and no hard repair has fused (08 R251, R252, R254). -/
def State.stackRepairs (s : State) (k : Nat) : Nat :=
  (s.stm.retired.filter (fun e => decide (e.kind = 2) && decide (e.stack = k) && !s.stm.fusedRows.contains (e.stack, e.chan, e.loc, e.row))).length

/-- A stack ends its training: `i` is its place among the rates, 3 for none. -/
def trainStack (s : State) (k i : Nat) : State :=
  match stackRates[i]? with
  | none => stackOffline (s.setFld (Reg.STM_STACK_STATUS + k) 15 8 0) k
  | some rate =>
    let s := (s.setFld (Reg.STM_STACK_STATUS + k) 15 8 rate).setFld (Reg.STM_STACK_STATUS + k) 2 0 stkReady
    let s := recordEvent s 0x0B01 k k rate (s.stackRepairs k)
    if i = 0 then s else recordEvent s 0x0B02 k k rate (i + 1)

/-- 90 % of a half's trained peak in GB/s (08 R246). -/
def State.regLimit (s : State) (h : Half) : Nat :=
  let base := match h with | .west => 0 | .east => 8
  ((List.range 8).map (fun i => s.fld (Reg.STM_STACK_STATUS + base + i) 15 8)).sum * 576 / 25

/-- Guarantees above the limit of a reduced rate are scaled down in proportion (08 R246). -/
def scaleMins (s : State) (h : Half) : State :=
  let lo := match h with | .west => 0 | .east => 16
  let mins := (List.range 16).map (fun p => s.fld (Reg.STM_REG_MIN + p) (lo + 14) lo)
  let sys := s.fld Reg.STM_SYS_RATE 15 0
  let total := mins.sum + sys
  let limit := s.regLimit h
  if total ≤ limit ∨ s.stackHalfUp h = false then s
  else
    let s := (List.range 16).foldl (fun s p => s.setFld (Reg.STM_REG_MIN + p) (lo + 14) lo (mins.getD p 0 * (limit - sys) / mins.sum)) s
    recordEvent s 0x0B08 0 (halfNo h) limit total

/-- Step 5 ends. -/
def endStep5 (s : State) (rates : List Nat) : State :=
  let s := (List.range 16).foldl (fun s k => trainStack s k (rates.getD k 3)) s
  nextStep (scaleMins (scaleMins s .west) .east) 6

/-- Bonds of the shared group whose loss is only logged: layer sensors, test and trim (07 Table 7.1, R220). -/
def sharedLogged (bond : Nat) : Bool := decide (109 ≤ bond)

/-- A bond that fails port training takes spares of its layer, or its layer or slice retires (07 R219, R220). -/
def failBond (s : State) (x : Nat × Nat × Nat) : State :=
  let ti := x.1
  if 8 ≤ x.2.1 then (if sharedLogged x.2.2 then s else retireSlice s ti 1 x.2.2)
  else if sparesFor x.2.2 ≤ 16 - s.fld (tileReg ti (Reg.BDM_BOND + x.2.1)) 20 16 then spareBond s ti x.2
  else retireLayer s ti x.2.1

/-- Step 6 ends: the bonded fuse map, then the ports (Table 16.1). -/
def endStep6 (s : State) (bonds : List (Nat × Nat × Nat)) : State :=
  let s := s.fuses.bonds.foldl (fun s x =>
    let a := tileReg x.1 (Reg.BDM_BOND + x.2.1)
    s.setFld a 20 16 (s.fld a 20 16 + sparesFor x.2.2)) s
  let s := s.fuses.burnLayers.foldl (fun s x =>
    (s.setFld (tileReg x.1 Reg.BDM_STATUS) (16 + x.2) (16 + x.2) 1).setFld (tileReg x.1 (Reg.BDM_BOND + x.2)) 31 31 1) s
  let s := ((List.range tileCount).filter s.usable).foldl takePorts s
  nextStep (bonds.foldl failBond s) 7

/-- Step 7 ends: the tile map; slices of fused tiles are adopted by usable partners (07 R217). -/
def endStep7 (s : State) : State :=
  let s := (List.range tileCount).foldl (fun s ti =>
    let s := s.setTile ti (s.tile ti)
    if s.usable ti then s
    else
      let s := s.setTilState ti tilOff
      if s.plan.fused.contains ti && s.usable (partner ti) then
        recordEvent (s.setFld (tileReg (partner ti) Reg.BDM_STATUS) 14 14 1) 0x2405 (partner ti) ti 0 0
      else s) s
  nextStep s 8

/-- A bank's failing rows take spare rows, or its tile fails the start (R473). -/
def failBank (s : State) (ti bank : Nat) (rows : List Nat) : State :=
  if 8 - s.spareRows ti 0 bank < rows.length then
    let s := { s with plan := { s.plan with failed := if s.plan.failed.contains ti then s.plan.failed else s.plan.failed ++ [ti] } }
    recordEvent s 0x0015 ti ti bank rows.length
  else rows.foldl (fun s r => takeSpare s ti (0, bank, r)) s

/-- Step 8 ends: failing rows as tile, bank, row. -/
def endStep8 (s : State) (march : List (Nat × Nat × Nat)) : State :=
  let l := march.filter (fun x => s.usable x.1 && decide (x.2.1 < 12))
  let banks := (l.map (fun x => (x.1, x.2.1))).eraseDups
  let s := banks.foldl (fun s b => failBank s b.1 b.2 ((l.filter (fun x => decide ((x.1, x.2.1) = b))).map (·.2.2)).eraseDups) s
  let s := s.plan.failed.foldl offTile s
  nextStep s 9

/-! ### Steps 9 to 12 -/

/-- Step 9 ends: the clusters are up. Step 10 begins: an eligible module is its own candidate (12 R368). -/
def endStep9 (s : State) : State :=
  let s := ((List.range tileCount).filter s.usable).foldl (fun s ti => s.setTilState ti tilIdle) s
  nextStep (if s.eligible && s.fab.cand.isNone then newCand s selfId else s) 10

/-- Step 10 ends: a module with no UP link forms a fabric of one (R474). -/
def endStep10 (s : State) : State :=
  let s := if (List.range 12).any s.fup then s
    else if s.eligible then becomeRoot s
    else setNoRoot s true
  nextStep s 11

/-- ENSEMBLE_HOLD follows the lock (10 case note on a calendar time base not locked). -/
def settleHold (s : State) : State := s.setFld Reg.ADM_STATUS 30 30 (if s.fld Reg.MGT_TIME_STATUS 31 31 = 1 then 0 else 1)

/-- The record of step 12 and its epoch (R482). -/
def publishStart (s : State) : State :=
  let n := s.calendar / s.roundNs + 1
  let saved := s.card.saved.bind (·.plan)
  let r := s.planNow 0 0 n
  let same (x : PlanRec) : Bool := decide ({ x with epoch := 0, prev := 0, round := n, addr := r.addr } = r)
  let e : Nat × Nat := match saved with
    | none => (1, 0)
    | some x => if same x then (x.epoch, x.prev) else (if x.epoch = 0xFFFFFFFF then 1 else x.epoch + 1, x.epoch)
  let rec' := { r with epoch := e.1, prev := e.2 }
  let s := { s with plan := { s.plan with
    epoch := e.1
    current := some rec'
    previous := match saved with | some x => if x.epoch = e.1 then none else some x | none => none
    due := false } }
  let s := saveState (s.setReg Reg.MGT_EPOCH (BitVec.ofNat 32 e.1)) none
  recordEvent s 0x0019 0 e.1 e.2 (tileCount - r.down.length)

/-- The fused minimum SVN rises to the lower of the copies' SVNs (19 R545). -/
def raiseSvn (s : State) : State :=
  match s.boot.svnA, s.boot.svnB with
  | some a, some b =>
    if s.fuses.minSvn < min a b then
      recordEvent { s with fuses := { s.fuses with minSvn := min a b } } 0x0104 0 s.fuses.minSvn (min a b) 0
    else s
  | _, _ => s

/-- Steps that admitted requests still have. -/
def State.admitted (s : State) : Nat :=
  (s.client.sessions.map (fun x =>
    match x.request with
    | some q => (q.steps.filter (fun st => decide (st.state ≠ .committed) && decide (st.state ≠ .released))).length
    | none => 0)).sum

/-- Removal preparation begins (Table 16.7 step 1); before step 12 has ended it is held. -/
def beginRemoval (s : State) (cause : Nat) : State :=
  if s.msState = msRemoving ∨ s.msState = msReady then s
  else if s.msState = msAux ∨ s.msState = msStarting then { s with boot := { s.boot with heldRemoval := some cause } }
  else
    let drain := s.fld Reg.MGT_REMOVE_DRAIN 15 0
    let n := s.admitted
    let s := s.setMs msRemoving
    let s := { s with
      boot := { s.boot with removal := some ⟨s.now, cause, 0, 0, false⟩, heldRemoval := none }
      sage := { s.sage with draining := some (s.now + drain * 1000000) } }
    recordEvent s 0x001B 0 cause drain n

/-- Requests held during the start act when step 12 ends. -/
def releaseHeld (s : State) : State :=
  let hs := (if s.ctl.heldW then [Half.west] else []) ++ (if s.ctl.heldE then [Half.east] else [])
  let c := s.ctl.heldCause
  let s := { s with ctl := { s.ctl with heldW := false, heldE := false, heldCause := 0 } }
  let s := if hs.isEmpty then s else requestReset s hs c (decide (c = 1) && s.signal 8) []
  match s.boot.heldRemoval with
  | some k => beginRemoval s k
  | none => if s.signal 9 then beginRemoval s 0 else s

/-- Step 12 ends: the floor plan is published, the request protocol opens and rounds begin at the next boundary. -/
def endStep12 (s : State) : State :=
  let s := publishStart s
  let w := s.listedTiles .west
  let e := s.listedTiles .east
  let s := s.setReg64 Reg.ADM_ROUND_LO (s.calendar / s.roundNs)
  let s := settleAdm (s.setFld Reg.ADM_STATUS 2 0 2)
  let s := settleHold (if s.thState = thLoss then s.setFld Reg.ADM_STATUS 2 0 4 else s)
  let s := (s.setFld Reg.ADM_STATUS 31 31 (s.fld Reg.MGT_TIME_STATUS 31 31))
  let s := setCap (setCap s .west (s.capTarget .west)) .east (s.capTarget .east)
  let s := { s with
    thm := { s.thm with tref := (List.range 144).map (fun c => (c, s.dieTemp c)) }
    bist := { s.bist with passAt := s.now } }
  let s := ((nextStep s 0).setMs msServing)
  let s := raiseSvn s
  let s := settleReplace s
  let s := if w < 1088 ∨ e < 1088 then assertReplace (recordEvent s 0x0016 0 w e s.plan.epoch) else s
  releaseHeld s

/-- A step of the start ends. -/
def endStep (s : State) (r : StartResult) : State :=
  if s.msState ≠ msStarting ∨ s.pwr.auxOn = false then s
  else
    match s.step with
    | 1 => endStep1 s r
    | 2 => endStep2 s r
    | 3 => if s.psState = psSeqUp ∧ s.pwr.step = 9 then nextStep s 4 else s
    | 4 => endStep4 s r.modulesFailed
    | 5 => endStep5 s r.rates
    | 6 => endStep6 s r.bonds
    | 7 => endStep7 s
    | 8 => endStep8 s r.march
    | 9 => if s.psState = psOn then endStep9 s else s
    | 10 => endStep10 s
    | 11 => if s.tb.isSet ∨ s.boot.timeSource = 0 then nextStep s 12 else s
    | 12 => endStep12 s
    | _ => s

/-- START_STEP_DONE (R470). -/
def execStartStepDone (r : StartResult) (s : State) : Host.Outcome State Fault Refusal := .next (endStep s r)

/-- The event of a step that could not complete (R471). -/
def noteTimeout (s : State) (cause : Nat) : State :=
  recordEvent s 0x0014 0 s.step cause ((s.now - s.boot.stepAt) / 1000 % 2 ^ 32)

/-- Clusters that are not up when step 9 runs out go dark (Table 16.2). -/
def darkRest (s : State) : State :=
  ((List.range 144).filter (fun c => s.powered c && decide (s.clState c ≠ clOn) && decide (s.clState c ≠ clTwoPhase) && decide (s.clState c ≠ clDark))).foldl
    (fun s c => makeDark s c 2) s

/-- A step reaches its bound (R471, Table 16.2): steps 1 and 2 halt, step 3 follows R429, and a later step ends with what has
not come up taken as failed. -/
def timeOut (s : State) (cause : Nat) : State :=
  if s.msState ≠ msStarting ∨ s.pwr.auxOn = false then s
  else
    match s.step with
    | 1 => haltStart s 1 cause
    | 2 => haltStart s 2 cause
    | 3 =>
      if s.enabled then
        let f := s.takeFree
        failUp f.2 s.pwr.step (f.1.toNat % 640) (f.1.toNat / 1024 % 65536)
      else s
    | 4 => endStep4 s (List.range 108)
    | 5 => endStep5 (noteTimeout s cause) []
    | 6 => endStep6 (noteTimeout s cause) []
    | 7 => endStep7 (noteTimeout s cause)
    | 8 => endStep8 (noteTimeout s cause) []
    | 9 =>
      let s := darkRest (noteTimeout s cause)
      endStep9 (if s.psState = psOn then s else mainUp s)
    | 10 =>
      let up := (List.range 12).any (fun n => decide (s.fstate n = fpUp)) || (List.range 4).any (fun n => decide (s.fld (Reg.NET_PORT_STATUS + n) 2 0 = 3))
      endStep10 (if up then s else noteTimeout s cause)
    | 11 => nextStep (if s.tb.isSet ∨ s.boot.timeSource = 0 then s else noteTimeout s cause) 12
    | 12 => endStep12 (noteTimeout s cause)
    | _ => s

/-- START_STEP_TIMEOUT (R471). -/
def execStartStepTimeout (cause : Nat) (s : State) : Host.Outcome State Fault Refusal := .next (timeOut s cause)

/-! ## Calendar time -/

/-- The lock of the time base changes (R476, 10 case note). -/
def setLock (s : State) (on : Bool) : State :=
  if decide (s.fld Reg.MGT_TIME_STATUS 31 31 = 1) = on then s
  else
    let s := (s.setBit Reg.MGT_TIME_STATUS 31 on).setBit Reg.ADM_STATUS 31 on
    recordEvent (settleHold s) 0x0605 0 (if on then 0 else 1) (s.reg Reg.MGT_TIME_OFFSET).toNat 0

/-- A measured offset in MGT_TIME_OFFSET, saturating. -/
def noteOffset (s : State) (o : Int) : State := s.setReg Reg.MGT_TIME_OFFSET (BitVec.ofInt 32 (max (-(2 ^ 31)) (min (2 ^ 31 - 1) o)))

/-- An offset from the source: the first sets calendar time; one above 750 ns unlocks the time base and is stepped (R476). -/
def takeOffset (s : State) (source : Nat) (o : Int) : State :=
  let s := noteOffset s o
  if !s.tb.isSet then setTime s ⟨source, none, -o⟩
  else if 750 < o ∨ o < -750 then setTime (setLock s false) ⟨source, none, -o⟩
  else s

/-- A client port that may carry PTP: UP and enabled in the image (Table 16.4). -/
def State.ptpUsable (s : State) (p : Nat) : Bool :=
  decide (p < 4) && s.boot.ptpPorts.testBit p && decide (s.fld (Reg.NET_PORT_STATUS + p) 2 0 = 3)

/-- PTP runs on the lowest such port while its own is not one. -/
def settlePtp (s : State) : State :=
  if s.ptpUsable (s.fld Reg.MGT_TIME_STATUS 9 8) then s
  else
    match (List.range 4).find? s.ptpUsable with
    | some p => { s.setFld Reg.MGT_TIME_STATUS 9 8 p with ptp := PtpState.init }
    | none => s

/-- The dataset comparison: the fields in order, then the way to the grandmaster. -/
def ptpKey (d : PtpDataset) : List Nat :=
  [d.priority1, d.clockClass, d.accuracy, d.variance, d.priority2, d.identity, d.steps, d.source]

def lexLt : List Nat → List Nat → Bool
  | x :: xs, y :: ys => decide (x < y) || (decide (x = y) && lexLt xs ys)
  | _, _ => false

def bestMaster : List PtpDataset → Option PtpDataset
  | [] => none
  | d :: ds => some (ds.foldl (fun a x => if lexLt (ptpKey x) (ptpKey a) then x else a) d)

/-- An Announce: the best foreign master of the PTP timescale is used. -/
def takeAnnounce (s : State) (d : PtpDataset) : State :=
  let l := s.ptp.masters.filter (fun x => decide (x.source ≠ d.source)) ++ (if d.ptpTimescale then [d] else [])
  let m := bestMaster l
  if m.map (·.source) = s.ptp.master.map (·.source) then { s with ptp := { s.ptp with masters := l, master := m } }
  else { s with ptp := ⟨l, m, none, none, none⟩ }

/-- Both time stamps of a Sync are known: the offset is (t2 - t1) - mean delay. -/
def ptpOffset (s : State) : State :=
  match s.ptp.t1, s.ptp.t2, s.ptp.delay with
  | some a, some b, some d => takeOffset s 1 (b - a - d)
  | _, _, _ => s

def State.fromMaster (s : State) (source : Nat) : Bool := match s.ptp.master with | some m => decide (m.source = source) | none => false

/-- A PTP message on the PTP port (R477). A Sync is answered with a Delay_Req. -/
def takePtp (s : State) (port : Nat) (m : PtpMsg) : State :=
  match m with
  | .announce d => takeAnnounce s d
  | .sync source t1 t2 =>
    if s.fromMaster source then
      let s := ({ s with ptp := { s.ptp with t1 := t1, t2 := some t2 } } : State).emit (.ptpDelayReq port source)
      if t1.isSome then ptpOffset s else s
    else s
  | .followUp source t1 => if s.fromMaster source then ptpOffset { s with ptp := { s.ptp with t1 := some t1 } } else s
  | .delayResp source t3 t4 =>
    match s.ptp.t1, s.ptp.t2 with
    | some a, some b =>
      if s.fromMaster source then
        let first := s.ptp.delay.isNone
        let s := { s with ptp := { s.ptp with delay := some (((b - a) + (t4 - t3)) / 2) } }
        if first then ptpOffset s else s
      else s
    | _, _ => s

/-- PTP_MESSAGE (R477). -/
def execPtpMessage (port domain : Nat) (msg : PtpMsg) (s : State) : Host.Outcome State Fault Refusal :=
  let s := settlePtp s
  if s.boot.timeSource = 1 ∧ domain = s.boot.ptpDomain ∧ s.ptpUsable port = true ∧ port = s.fld Reg.MGT_TIME_STATUS 9 8 then .next (takePtp s port msg)
  else .next s

/-- PTP_ANNOUNCE_TIMEOUT (Table 16.4): PTP moves to the next usable port. -/
def execPtpAnnounceTimeout (s : State) : Host.Outcome State Fault Refusal :=
  let p := s.fld Reg.MGT_TIME_STATUS 9 8
  if s.boot.timeSource ≠ 1 then .next s
  else
    match ([p + 1, p + 2, p + 3].map (· % 4)).find? s.ptpUsable with
    | some q => .next { s.setFld Reg.MGT_TIME_STATUS 9 8 q with ptp := PtpState.init }
    | none => .next { s with ptp := PtpState.init }

/-- PPS_EDGE (R478): the offset of the edge in ns. A written second applies at an edge more than 100 ms after its write. -/
def execPpsEdge (offset : Int) (s : State) : Host.Outcome State Fault Refusal :=
  if s.boot.timeSource ≠ 2 then .next s
  else
    let due := match s.tb.ppsSecond with | some x => if x.2 + 100000000 < s.now then some x.1 else none | none => none
    match due with
    | some sec =>
      let s := { s with tb := { s.tb with ppsSecond := none, edge := some s.now } }
      let d : Int := (sec : Int) * 1000000000 - s.calendar
      .next (if s.tb.isSet ∧ -750 ≤ d ∧ d ≤ 750 then noteOffset s (-d) else takeOffset s 2 (-d))
    | none =>
      if !s.tb.isSet then .next { s with tb := { s.tb with edge := some s.now } }
      else if 10000 < offset ∨ offset < -10000 then .next { s with tb := { s.tb with discarded := s.tb.discarded + 1 } }
      else .next (takeOffset { s with tb := { s.tb with edge := some s.now } } 2 offset)

/-- TIME_LOCK_CHANGE (R476); under TIME_SOURCE 0 the time base is never locked (R479). -/
def execTimeLockChange (locked : Bool) (s : State) : Host.Outcome State Fault Refusal :=
  if locked && (decide (s.boot.timeSource = 0) || !s.tb.isSet) then .next s else .next (setLock s locked)

/-- A write of MGT_TIME_SET_HI (R478, R479) with the second that both registers hold. -/
def setSecond (s : State) (sec : Nat) : State :=
  if s.boot.timeSource = 0 then setTime s ⟨3, some (sec * 1000000000), 0⟩
  else if s.boot.timeSource = 2 then { s with tb := { s.tb with ppsSecond := some (sec, s.now) } }
  else s

/-- MGT_TIME_SET (R478, R479). -/
def execMgtTimeSet (lo hi : Nat) (s : State) : Host.Outcome State Fault Refusal :=
  .next (setSecond ((s.setReg Reg.MGT_TIME_SET_LO (BitVec.ofNat 32 lo)).setReg Reg.MGT_TIME_SET_HI (BitVec.ofNat 32 hi))
    (hi % 2 ^ 32 * 2 ^ 32 + lo % 2 ^ 32))

/-! ## Removal -/

/-- REMOVE_REQ_N (R489, 20 R572). -/
def execRemoveReqN (s : State) : Host.Outcome State Fault Refusal := .next (beginRemoval (setSignal s 9 true) 0)

/-- MGT_REMOVE_START (R489). -/
def execMgtRemoveStart (s : State) : Host.Outcome State Fault Refusal := .next (beginRemoval s 1)

/-- A session is closed in a removal (Table 16.7 steps 3 and 4): its request ends with MODULE_REMOVAL, it hears the report, its
RESULTs go out as credit allows, and it is closed with cause 4. -/
def removeSession (s : State) (round : Nat) (x : Session) : State :=
  let s := report (endRequest s x.id 0x19) x 0x19 round 0
  let s := (List.range (x.results.length + 1)).foldl (fun s _ => sendResult s x.id) s
  completeClose (startClose s x.id 4 none) x.id

/-- Steps 3 to 7 of Table 16.7. -/
def drainEnd (s : State) (r : Removal) : State :=
  let round := s.round
  let n := s.admitted
  let s := dropRound s
  let k := s.client.sessions.length
  let s := s.client.sessions.foldl (fun s x => removeSession s round x) s
  let s := leaveFabric s
  let s := { s with boot := { s.boot with removal := some { r with closed := k, ended := n, drained := true } } }
  if s.psState = psOn then powerDown s
  else if s.enabled then s
  else afterOff (saveState s none)

/-- REMOVAL_DRAIN_END (R489): the first boundary after t0 + DRAIN. -/
def execRemovalDrainEnd (s : State) : Host.Outcome State Fault Refusal :=
  match s.boot.removal with
  | none => .next s
  | some r => if r.drained then .next s else .next (drainEnd s r)

/-- ALERT_PULSE_END (20 R571). -/
def execAlertPulseEnd (s : State) : Host.Outcome State Fault Refusal := .next (setAlert s 19 false)

end Sys2Proof.Machine
end

