-- ==== Sys2Proof/Machine/SelfTest.lean ====
section
/-! DEFINITION. Self-test (18): march and other requested tests, the slices of Thyme, the fuse burn. -/
namespace Sys2Proof.Machine

/-! ## Requested tests (R518-R520, R525, R532) -/

/-- Whether the life-cycle state permits a test (Table 18.3; PROVISIONED permits what DIAGNOSTIC permits). -/
def State.testAllowed (s : State) (test : Nat) : Bool := s.diagnosing || (decide (test ≤ 1) && decide (s.lifeCycle = 2))

/-- A write of BST_TEST_CTRL. -/
def writeTest (s : State) (v : Word) : State :=
  let test := getBits v 30 28
  let mask := getBits v 23 12
  let ti := getBits v 11 0
  let a := Reg.BST_TEST_CTRL
  let s1 := (s.setFld a 23 12 mask).setFld a 11 0 ti
  let s1 := if test = 7 then s1 else s1.setFld a 30 28 test
  if test = 7 then refuse s1 a stRefused
  else if !v.getLsbD 31 then s1
  else if s.bist.job.isSome || !s.testAllowed test || (decide (test ≤ 3) && decide (mask = 0)) || !s.usable ti then refuse s1 a stRefused
  else
    let s2 := s1.setReg Reg.BST_TEST_STATUS (setBits 0 31 30 1)
    { s2 with bist := { s2.bist with job := some ⟨test, ti, mask, false⟩ } }

/-- BST_TEST_START (R520). -/
def execBstTestStart (v : Word) (s : State) : Host.Outcome State Fault Refusal := .next (writeTest s v)

/-- What a transparent march writes back to a word: its data with valid check bits, or poison (R518). -/
def marchWord (ti w : Nat) (t : Tile) : Tile :=
  let r := sramDecode (t.raw ti w) w
  { t with sram := SMap.put t.sram w (if r.1.poisoned then sramPoison w else sramEncode r.2 w) }

/-- A transparent march writes back every word of the banks. -/
def transparent (s : State) (ti mask : Nat) : State :=
  s.modTile ti (fun t => ((List.range 12).filter (fun b => mask.testBit b)).foldl (fun t b =>
    (List.range 16384).foldl (fun t i => marchWord ti (16384 * b + i) t) t) t)

/-- A destructive march leaves the banks undefined (Table 18.1, 09 R271). -/
def destroyBanks (s : State) (ti mask : Nat) : State :=
  s.modTile ti (fun t => { t with
    generation := t.generation + 1
    sram := SMap.keep t.sram (fun w => !mask.testBit (w / 16384))
    written := SMap.keep t.written (fun l => !mask.testBit (l / 2048)) })

/-- Failing rows of a transparent march take spares; a bank without enough retires the tile (R519). -/
def marchBank (s : State) (ti bank : Nat) (rows : List Nat) : State :=
  if 8 - s.spareRows ti 0 bank < rows.length then
    if s.usable ti then recordEvent (retireTile s ti) 0x0C04 0 ti 1 s.plan.epoch else s
  else rows.foldl (fun s r => takeSpare s ti (0, bank, r)) s

/-- A bank of a destructive march in service; a tile that fails leaves the floor plan (R473). -/
def failInService (s : State) (ti bank : Nat) (rows : List Nat) : State :=
  let s := failBank s ti bank rows
  if s.plan.failed.contains ti then { offTile (s.dropAt ti 0 false) ti with plan := { s.plan with due := true } } else s

/-- The spare rows that failing rows take. -/
def State.sparesTaken (s : State) (ti : Nat) (banks : List (Nat × List Nat)) : Nat :=
  (banks.map (fun b => if 8 - s.spareRows ti 0 b.1 < b.2.length then 0 else b.2.length)).sum

/-- The test in progress ends; `rows` are its failing rows by bank, or its failing items by group or layer. -/
def endTest (s : State) (j : TestJob) (rows : List (Nat × Nat)) : State :=
  let items := if j.test ≤ 3 then rows.filter (fun x => j.mask.testBit x.1 && decide (x.1 < 12)) else rows
  let fails := (items.map (·.1)).eraseDups.foldl (fun m i => if i < 12 then m + 2 ^ i else m) 0
  let result := if items.isEmpty then 2 else 3
  let s := s.setReg Reg.BST_TEST_STATUS (setBits (setBits (setBits 0 31 30 result) 23 12 fails) 11 0 (min 4095 items.length))
  let banks := (items.map (·.1)).eraseDups.map (fun b => (b, ((items.filter (fun x => decide (x.1 = b))).map (·.2)).eraseDups))
  let s := if j.test ≤ 1 then transparent s j.ti j.mask
    else if j.test ≤ 3 then destroyBanks s j.ti j.mask
    else if j.test = 6 then s.modTile j.ti (fun t => { t with slice := [], sliceGen := t.sliceGen + 1 })
    else s
  let s := if j.test ≤ 3 then recordEvent s 0x0C07 0 j.ti (16 * j.test + result) (s.sparesTaken j.ti banks) else s
  let s := if j.test ≤ 1 then banks.foldl (fun s b => marchBank s j.ti b.1 b.2) s
    else if j.test ≤ 3 then banks.foldl (fun s b => failInService s j.ti b.1 b.2) s
    else s
  { s with bist := { s.bist with job := none, held := [], releasing := s.bist.releasing ++ s.bist.held } }

/-- MARCH_DONE (R519): the running test of the half ends. -/
def execMarchDone (h : Half) (rows : List (Nat × Nat)) (s : State) : Host.Outcome State Fault Refusal :=
  match s.bist.job with
  | none => .next s
  | some j => if j.running && decide (halfOf j.ti = h) then .next (endTest s j rows) else .next s

/-! ## Thyme (R521-R524) -/

/-- The event and count of a failed unit. -/
def unitFailed (s : State) (u : UnitResult) : State :=
  recordEvent ({ s with bist := { s.bist with fails := s.bist.fails + 1 } }.count Reg.BST_THYME_FAILS 1) 0x0C03 0 u.ti u.cls u.index

/-- The second failure of a logic unit retires the tile; that of an IBU unit disables its IBUs. -/
def secondFailure (s : State) (u : UnitResult) : State :=
  if u.cls = 0 then (if s.usable u.ti then recordEvent (retireTile s u.ti) 0x0C04 0 u.ti 0 s.plan.epoch else s)
  else
    u.ibus.foldl (fun s x =>
      let i := 8 * u.index + x.1
      let a := tileReg u.ti Reg.IBU_DISABLE_LO
      recordEvent (s.setReg64 a (s.reg64 a ||| 2 ^ i)) 0x2503 u.ti i x.2 0) s

/-- What a unit's result does (Table 18.2). -/
def takeUnit (s : State) (u : UnitResult) : State :=
  let key := (u.ti, 8 * u.cls + u.index)
  let again := s.bist.retest.contains key
  let s := if u.passed then s else unitFailed s u
  let s := if u.cls = 1 then u.bonds.foldl (fun s b => countBond s u.ti u.index b.1 (if b.2 then 8 else 1)) s else s
  let spot := 9 * clusterOf u.ti + (4 * (tileY u.ti % 4) + tileX u.ti % 4)
  let s := if u.cls = 3 then u.comparators.foldl (fun s d => excludeDiode s spot d) (u.diodes.foldl (fun s d => countMark s spot d (fun s => s)) s) else s
  let s : State := if again then { s with bist := { s.bist with retest := s.bist.retest.filter (fun k => decide (k ≠ key)) } }
    else { s with bist := { s.bist with done := SMap.put s.bist.done u.ti (SMap.getD s.bist.done u.ti 0 + 1) } }
  if u.passed ∨ (u.cls ≠ 0 ∧ u.cls ≠ 2) then s
  else if again then secondFailure s u
  else { s with bist := { s.bist with retest := s.bist.retest ++ [key] } }

/-- A pass is complete when every usable tile has run its units: the next begins. -/
def settlePass (s : State) : State :=
  if (List.range 144).all s.passDone && decide (s.bist.done ≠ []) then
    let n := (s.fld Reg.BST_THYME_STATUS 31 16 + 1) % 65536
    let s := recordEvent (s.setFld Reg.BST_THYME_STATUS 31 16 n) 0x0C05 0 n ((s.now - s.bist.passAt) / 1000000000) s.bist.fails
    { s with bist := { s.bist with passAt := s.now, done := [], fails := 0, late := [] } }
  else s

/-- One scheduled soft repair in a maintenance slot (08 R250, R253): the row's blocks are written back as they were read. -/
def softRepair (s : State) : State :=
  match s.stm.repairs with
  | [] => s
  | r :: rest =>
    let s := { s with stm := { s.stm with repairs := rest } }
    let used := (s.stm.retired.filter (fun e => decide (e.kind = 2) && decide ((e.stack, e.chan, e.loc) = (r.1, r.2.1, r.2.2.1)))).length
    if Config.stackSpareRows r.1 r.2.1 r.2.2.1 ≤ used then s
    else
      let s := appendRetired s ⟨0, 2, r.1, r.2.1, r.2.2.1, 0xFFFFFFFF, r.2.2.2, s.calendar⟩
      recordEvent s 0x0B06 r.1 r.2.1 r.2.2.1 r.2.2.2

/-- Whether a slice may run on a cluster (R523, R524). -/
def State.sliceAllowed (s : State) (ci : Nat) : Bool :=
  let h := if ci % 18 < 9 then Half.west else Half.east
  decide (s.fld Reg.BST_THYME_CTRL 31 31 = 1) && s.roundsRun && !s.fenced h && !s.inReset h && decide (s.fld Reg.ADM_STATUS 2 0 ≠ 4) &&
    !([thLoss, thTripped, thCooldown].contains s.thState) && (clusterTiles ci).all (fun ti => decide (s.tilState ti ≠ tilRunning))

/-- THYME_SLICE (R523): the units that ran in the slice, in their order. -/
def execThymeSlice (cluster : Nat) (units : List UnitResult) (s : State) : Host.Outcome State Fault Refusal :=
  if s.sliceAllowed cluster then
    let mine := units.filter (fun u => s.usable u.ti && decide (clusterOf u.ti = cluster))
    .next (softRepair (settlePass (mine.foldl takeUnit s)))
  else .next s

/-! ## Fuse burn (R526) -/

def burnIdle : Nat := 0
def burning : Nat := 1
def burnDone : Nat := 2
def burnFailed : Nat := 3

/-- A write of START to BST_BURN_CTRL. -/
def burnStart (s : State) (owner : Bool) : State :=
  let a := Reg.BST_BURN_CTRL
  if !owner then refuse (authFailed s 0x7F 2 a) a stNotAuthorised
  else if !s.diagnosing || decide (s.fld a 2 0 = burning) then refuse s a stRefused
  else s.setFld a 2 0 burning

/-- BST_BURN_START (R526). -/
def execBstBurnStart (owner : Bool) (s : State) : Host.Outcome State Fault Refusal := .next (burnStart s owner)

/-- An entry of the field burn map. -/
inductive BurnItem where
  | tile (ti : Nat)
  | layer (ti layer : Nat)
  | row (ti kind bank row : Nat)
deriving DecidableEq, Repr

/-- What a burn reaches: tiles retired, layers and slices retired, soft rows; entries burnt before are left out. -/
def State.burnMap (s : State) : List BurnItem :=
  let tiles := (s.plan.retired.filter (fun t => !s.fuses.burnTiles.contains t)).map BurnItem.tile
  let layersOf (ti : Nat) : List Nat := (List.range 8).filter (fun l =>
    (decide (s.fld (tileReg ti Reg.BDM_STATUS) (16 + l) (16 + l) = 1) || (decide (s.fld (tileReg ti Reg.BDM_STATUS) 15 15 = 1) && !s.plan.dark.contains (clusterOf ti))) &&
      !s.fuses.burnLayers.contains (ti, l))
  let layers := (s.tiles.map (·.1)).flatMap (fun ti => (layersOf ti).map (BurnItem.layer ti))
  let rows := s.tiles.flatMap (fun (e : Nat × Tile) => (e.2.softSpares.filter (fun x =>
    !(if x.1 = 0 then s.fuses.sramRows else s.fuses.bondedRows).contains (e.1, x.2))).map (fun x => BurnItem.row e.1 x.1 x.2.1 x.2.2))
  tiles ++ layers ++ rows

def Fuses.burn (f : Fuses) (i : BurnItem) : Fuses :=
  match i with
  | .tile t => { f with burnTiles := f.burnTiles ++ [t] }
  | .layer t l => { f with burnLayers := f.burnLayers ++ [(t, l)] }
  | .row t k b r => if k = 0 then { f with sramRows := f.sramRows ++ [(t, b, r)] } else { f with bondedRows := f.bondedRows ++ [(t, b, r)] }

def BurnItem.kind (i : BurnItem) : Nat := match i with | .tile _ => 0 | .layer _ _ => 1 | .row _ _ _ _ => 2

/-- BURN_DONE (R526): a burn that fails leaves the fuses it did not reach unburnt; how far it came is free. -/
def execBurnDone (ok : Bool) (s : State) : Host.Outcome State Fault Refusal :=
  if s.fld Reg.BST_BURN_CTRL 2 0 ≠ burning then .next s
  else
    let m := s.burnMap
    let n (k : Nat) : Nat := (m.filter (fun i => decide (i.kind = k))).length
    if ok then
      let s := { s with fuses := m.foldl Fuses.burn s.fuses }
      .next (recordEvent (s.setFld Reg.BST_BURN_CTRL 2 0 burnDone) 0x0C08 0 (n 0) (n 1) (n 2))
    else
      let f := s.takeFree
      let s := { f.2 with fuses := (m.take (f.1.toNat % (m.length + 1))).foldl Fuses.burn s.fuses }
      .next (s.setFld Reg.BST_BURN_CTRL 2 0 burnFailed)

end Sys2Proof.Machine
end

