-- ==== Sys2Proof/Machine/RegFile.lean ====
section
/-! DEFINITION. The register space as its port sees it (00 R10-R16, 17 R505-R508): the value a read returns, the write of a
register under the access type of each field, and the registers whose write acts. -/
namespace Sys2Proof.Machine

/-! ## Reading -/

/-- The bits set in a list of bit numbers. -/
def bitsOf (l : List Nat) : Word := BitVec.ofNat 32 (l.map (2 ^ ·)).sum

/-- A stored register as it reads: reserved bits and WO fields read 0 (00 R14, R15). -/
def State.storedWord (s : State) (d : RegDef) (a : Nat) : Word :=
  BitVec.ofNat 32 (d.fields.foldl (fun n f => if f.access = .wo then n else n + f.get (s.reg a) * 2 ^ f.lo) 0)

/-- A cut-list entry as 64 bits (07 Table 7.6). -/
def CutEntry.word (c : CutEntry) : Nat :=
  c.kind * 2 ^ 62 + c.layer * 2 ^ 59 + c.pair * 2 ^ 56 + c.op * 2 ^ 48 + c.offset % 2 ^ 21 * 2 ^ 24 + c.count * 2 ^ 16 + c.cmd % 2 ^ 16

/-- Whether a unit holds a command. -/
def Tile.holds (t : Tile) (us : List UnitId) : Bool := t.queue.any (fun e => us.contains e.unit)

/-- A register of a tile page that shows what the tile's units do; none where the stored content is what it shows. -/
def State.tileView (s : State) (ti off : Nat) : Option Word :=
  let t := s.tile ti
  let w := s.reg (tileReg ti off)
  let busy (us : List UnitId) (k : Nat) : Option Word :=
    if t.holds us then some (setBits w 2 0 (2 + (Config.busyState ti k s.now).val)) else none
  let pairs := t.runningPairs.map (fun x => 8 * x.1 + x.2.1)
  if off = Reg.MXA_STATUS then busy [.array] 0
  else if off = Reg.LAY_STATUS then busy [.layout, .gatherScatter] 1
  else if off = Reg.ATN_STATUS then busy [.attention] 2
  else if Reg.TIL_RAE_STAT ≤ off ∧ off < Reg.TIL_RAE_STAT + 4 then
    let q := t.queue.filter (fun e => decide (e.unit = .rae (off - Reg.TIL_RAE_STAT)))
    let sent := (q.map (fun e => e.outstanding - e.unsent.length)).sum
    some (BitVec.ofNat 32 (min sent 127 * 2 ^ 16 + min q.length 15 * 2 ^ 8 + (if q.isEmpty then 0 else 1)))
  else if off = Reg.BDM_CUT_STATUS then some (BitVec.ofNat 32 t.cut.length)
  else if Reg.BDM_CUT ≤ off ∧ off < Reg.BDM_CUT + 160 then
    let e := match t.cut[(off - Reg.BDM_CUT) / 2]? with | some c => c.word | none => 0
    some (BitVec.ofNat 32 (e / 2 ^ (32 * ((off - Reg.BDM_CUT) % 2))))
  else if off = Reg.IBU_BUSY_LO then some (bitsOf (pairs.filter (· < 32)))
  else if off = Reg.IBU_BUSY_HI then some (bitsOf ((pairs.filter (32 ≤ ·)).map (· - 32)))
  else if off = Reg.IBU_STATUS then (if pairs.isEmpty then none else some (setBits w 2 0 2))
  else if off = Reg.INT_STATUS then
    let run := if s.mainOn && s.usable ti && !s.inReset (halfOf ti) then 3 else 0
    some (setBits w 1 0 run)
  else none

/-- The bytes of a 32-byte hash as eight registers: word w is bytes 4w to 4w + 3. -/
def hashWord (h : List Nat) (w : Nat) : Word := BitVec.ofNat 32 (leAt h (4 * w) 4)

/-- The identity seed in force: that of the owner slot in force (19 Table 19.5). -/
def Fuses.seed (f : Fuses) : Option (List Nat) := f.seeds.getLast?

/-- The identity public key; none until it is derived, and none in BLANK (19 R543). -/
def State.identity (s : State) : Option (List Nat) :=
  if s.mgmt.derived && decide (s.fuses.lifeCycle ≠ 0) then s.fuses.seed.map Config.identityKey else none

/-- The key of a session has owner authorisation (19 R537): its hash is the owner key hash in force, or in RETURN the vendor root
key hash; in BLANK none has. -/
def State.ownerKey (s : State) (key : Option (List Nat)) : Bool :=
  match key with
  | none => false
  | some k => decide (some (keyHash k) = s.fuses.ownerHash) && decide (s.fuses.lifeCycle ≠ 0) ||
      decide (s.fuses.lifeCycle = 4) && decide (keyHash k = s.fuses.vendorHash)

/-- A module register that shows other state; none where the stored content is what it shows. -/
def State.moduleView (s : State) (a : Nat) : Option Word :=
  let w := s.reg a
  if a = Reg.MGT_VDM_IANA then some Config.iana
  else if a = Reg.MGT_RESET_CTRL then some (setBits (setBits 0 0 0 (if s.inReset .west then 1 else 0)) 1 1 (if s.inReset .east then 1 else 0))
  else if a = Reg.MGT_SIGNALS then
    let seen := match s.tb.edge with | some e => decide (s.now ≤ e + 2000000000) | none => false
    some (setBits w 10 10 (if seen then 1 else 0))
  else if a = Reg.SEC_LC_STATUS then some (BitVec.ofNat 32 (s.fuses.minSvn * 2 ^ 16 + s.fuses.owners.length * 2 ^ 8 + s.lifeCycle))
  else if Reg.SEC_ROOT_HASH ≤ a ∧ a < Reg.SEC_ROOT_HASH + 8 then some (hashWord s.fuses.vendorHash (a - Reg.SEC_ROOT_HASH))
  else if Reg.SEC_OWNER_HASH ≤ a ∧ a < Reg.SEC_OWNER_HASH + 8 then some (hashWord (s.fuses.ownerHash.getD []) (a - Reg.SEC_OWNER_HASH))
  else if Reg.SEC_ID_HASH ≤ a ∧ a < Reg.SEC_ID_HASH + 8 then
    some (match s.identity with | some k => hashWord (keyHash k) (a - Reg.SEC_ID_HASH) | none => 0)
  else if a = Reg.SEC_SESSIONS then
    let l := s.mgmt.sessions.filter (fun x => x.isOpen)
    some (BitVec.ofNat 32 (l.length * 16 + (l.filter (fun x => s.ownerKey x.key)).length))
  else if a = Reg.EVT_STATUS then
    some (BitVec.ofNat 32 ((if s.evt.full then 2 ^ 31 else 0) + (if s.evt.staging.isEmpty then 0 else 2 ^ 30) +
      (if s.evt.clearing then 2 ^ 29 else 0) + s.evt.staging.length))
  else if a = Reg.EVT_FIRST then some (BitVec.ofNat 32 s.evt.first)
  else if a = Reg.EVT_HEAD then some (BitVec.ofNat 32 s.evt.head)
  else if Reg.EVT_WINDOW ≤ a ∧ a < Reg.EVT_WINDOW + 8 then some (s.evtWord (s.fld Reg.EVT_CURSOR 16 0) (a - Reg.EVT_WINDOW))
  else if Reg.EVT_TRIP_WINDOW ≤ a ∧ a < Reg.EVT_TRIP_WINDOW + 256 then
    some (s.tripWord (s.fld Reg.EVT_TRIP_CURSOR 5 0) (a - Reg.EVT_TRIP_WINDOW))
  else if a = Reg.EVT_TRIP_STATUS then
    let opened := s.card.trips.findIdx? (fun r => r.isOpen)
    some (BitVec.ofNat 32 (s.card.trips.length * 2 ^ 8 + (match opened with | some k => 2 ^ 7 + k | none => 0)))
  else if a = Reg.PWR_INPUT ∨ a = Reg.PWR_AUX ∨ a = Reg.PWR_BUS ∨ a = Reg.PWR_ENERGY_LO ∨ a = Reg.PWR_ENERGY_HI then
    some (Config.measured a s.now)
  else if a = Reg.PWR_RETRIES then some (BitVec.ofNat 32 (s.pwr.retries.filter (fun t => decide (s.now < t + 86400000000000))).length)
  else if Reg.PWR_CL ≤ a ∧ a < Reg.PWR_CL + 144 then some (setBits w 23 16 (getBits (Config.measured a s.now) 23 16))
  else if Reg.PWR_DOM_STATUS ≤ a ∧ a < Reg.PWR_DOM_STATUS + 2560 ∧ (a - Reg.PWR_DOM_STATUS) % 4 = 0 then
    some (setBits w 15 0 (getBits (Config.measured a s.now) 15 0))
  else if a = Reg.BST_ERR_STATUS then
    let cur := match s.sup.handling with
      | some k => (match s.sup.list.find? (fun e => decide (e.seq = k)) with | some e => e.severity | none => 0)
      | none => 0
    some (setBits (setBits (setBits w 18 16 cur) 10 8 ((s.sup.list.map (fun e => e.severity)).foldl max 0)) 6 0 s.sup.list.length)
  else if a = Reg.BST_THYME_STATUS then some (setBits w 15 0 (min 65535 ((s.now - s.bist.passAt) / 60000000000)))
  else if a = Reg.SES_COUNTS then some (BitVec.ofNat 32 (s.client.sessions.length * 2 ^ 16 + s.client.peers.length))
  else if Reg.HLK_MOD_STATUS ≤ a ∧ a < Reg.HLK_MOD_STATUS + 108 then
    some (setBits w 31 16 (min 65535 (s.recentReplays (a - Reg.HLK_MOD_STATUS)).length))
  else if a = Reg.CFG_STATUS then some (setBits w 23 16 (min 255 s.shadow.length))
  else if a = Reg.CFG_CARD_READ_DATA then some s.cardWord
  else none

/-- The value that a read of an address returns: 0 where it holds no register or lies in the page of a tile that is fused off,
retired or dark (00 R14-R16). -/
def State.readReg (s : State) (a : Nat) : Word :=
  match regDef? a with
  | none => 0
  | some d =>
    match tileOf a with
    | some (ti, off) => if s.usable ti then (s.tileView ti off).getD (s.storedWord d a) else 0
    | none => (s.moduleView a).getD (s.storedWord d a)

/-- What a read changes: the cursor of the log window and the card address advance (19 R556, 17 R512). -/
def afterRead (s : State) (a : Nat) : State :=
  if a = Reg.EVT_WINDOW + 7 then advanceCursor s
  else if a = Reg.CFG_CARD_READ_DATA then advanceCard s
  else s

/-! ## Writing a field -/

/-- The word that a register will hold after the next boundary. -/
def State.pendingWord (s : State) (a : Nat) : Word := SMap.getD s.shadow a (s.reg a)

/-- The sum of a field over P0 to P15 as the pending writes leave it. -/
def State.pendingSum (s : State) (base hi lo : Nat) : Nat := ((List.range 16).map (fun p => getBits (s.pendingWord (base + p)) hi lo)).sum

/-- The limit of the regulators of a half in GB/s: 90 % of its trained peak; before its stacks are trained, that of the full rate
(08 R246, 17 Table 17.5). -/
def State.regCeiling (s : State) (h : Half) : Nat := if s.regLimit h = 0 then 26542 else s.regLimit h

/-- Guarantees and the system rate exceed a half's limit (08 R246). -/
def State.overCommitted (s : State) (h : Half) : Bool :=
  let lo := match h with | .west => 0 | .east => 16
  decide (s.regCeiling h < s.pendingSum Reg.STM_REG_MIN (lo + 14) lo + getBits (s.pendingWord Reg.STM_SYS_RATE) 15 0)

/-- Whether the pending writes break the cross-field rule that a field takes part in (17 Table 17.5, cause 11). -/
def State.crossBroken (s : State) (a lo : Nat) : Bool :=
  if Reg.ADM_PART_SHARE ≤ a ∧ a < Reg.ADM_PART_SHARE + 16 ∧ lo = 0 then decide (100 < s.pendingSum Reg.ADM_PART_SHARE 6 0)
  else if Reg.STM_REG_MIN ≤ a ∧ a < Reg.STM_REG_MIN + 16 then s.overCommitted (if lo = 0 then .west else .east)
  else if a = Reg.STM_SYS_RATE then s.overCommitted .west || s.overCommitted .east
  else false

/-- Why a field is refused (17 Table 17.13), or that it is no configuration field. -/
inductive Why where
  | startOnly | range | cross | plain
deriving DecidableEq, Repr

/-- A write reaches one field (00 R14 and its case note): what it changes, and why it is refused. The first refusal of a write is
the one kept. -/
def writeField (a : Nat) (w : Word) (r : State × Option Why) (f : RegField) : State × Option Why :=
  let s := r.1
  let v := f.get w
  let held := f.get (s.reg a)
  let fits := decide (f.min ≤ v) && decide (v ≤ f.max)
  let no (y : Why) : State × Option Why := (s, some (r.2.getD y))
  match f.access with
  | .ro | .wo => r
  | .rs => if v = held then r else no .startOnly
  | .w1c => (s.setFld a f.hi f.lo (held - (held &&& v)), r.2)
  | .rw => if fits || decide (v = held) then (s.setFld a f.hi f.lo v, r.2) else no .plain
  | .rl =>
    if !fits then no .range
    else
      let p := s.pendingWord a
      let s' : State := { s with shadow := SMap.put s.shadow a (setBits p f.hi f.lo v) }
      if v ≠ f.get p ∧ s'.crossBroken a f.lo then no .cross else (s', r.2)

/-- A write of a register under its fields' access types (00 R14, R16, 17 R508): a refusal of a configuration field is recorded. -/
def plainWrite (s : State) (a : Nat) (w : Word) : State :=
  match regDef? a with
  | none => refuse s a stRefused
  | some d =>
    let r := d.fields.foldl (writeField a w) (s, none)
    let note (k : Nat) : State := refuse (recordEvent r.1 0x0207 0 (a % 2 ^ 24) w.toNat k) a stRefused
    match r.2 with
    | none => r.1
    | some .startOnly => note 0
    | some .range => note 1
    | some .cross => note 2
    | some .plain => refuse r.1 a stRefused

/-! ## Registers whose write acts -/

/-- The registers of a tile page that management writes only while the tile is IDLE, FAULTED or RESET (02 R85, 05 R163, 06 R197,
07 R226). -/
def needsStopped (off : Nat) : Bool :=
  decide (Reg.TIL_BANK_OWN ≤ off) && decide (off < Reg.TIL_BANK_OWN + 12) ||
  decide (Reg.LAY_XLT_BASE ≤ off) && decide (off < Reg.LAY_XLT_LEN + 4) ||
  [Reg.ATN_DIR_BASE, Reg.ATN_DIR_LEN, Reg.BDM_CTRL, Reg.BDM_HOME_PPN, Reg.IBU_DISABLE_LO, Reg.IBU_DISABLE_HI].contains off ||
  decide (Reg.BDM_IBU_PERM ≤ off) && decide (off < Reg.BDM_IBU_PERM + 8)

/-- A write of bit 0 of a register that clears. -/
def ifBit0 (w : Word) (s t : State) : State := if w.getLsbD 0 then t else s

/-- A write to a register of a tile page in service. -/
def tileWrite (s : State) (ti off : Nat) (w : Word) : State :=
  let a := tileReg ti off
  if needsStopped off && !([tilIdle, tilFaulted, tilReset].contains (s.tilState ti)) then refuse s a stRefused
  else if off = Reg.TIL_COUNT_CLR then ifBit0 w s (clearTil s ti)
  else if off = Reg.MXA_COUNT_CLR then ifBit0 w s (clearMxa s ti)
  else if off = Reg.LAY_COUNT_CLR then ifBit0 w s (clearLay s ti)
  else if off = Reg.ATN_COUNT_CLR then ifBit0 w s (clearAtn s ti)
  else if off = Reg.BDM_COUNT_CLR then ifBit0 w s (clearBdm s ti)
  else if off = Reg.IBU_COUNT_CLR then ifBit0 w s (clearIbu s ti)
  else if off = Reg.INT_COUNT_CLR then ifBit0 w s (clearInt s ti)
  else if off = Reg.LAY_XLT_FLUSH then ifBit0 w s (flushXlt s ti)
  else if off = Reg.BDM_CUT_CLR then ifBit0 w s (clearCut s ti)
  else if off = Reg.TIL_FAULT then
    if w.getLsbD 31 then
      let s := s.setFld a 31 31 0
      (s.setFld a 23 16 0).resetRegs (tileRange ti Reg.TIL_FAULT_CMD_LO 4)
    else s
  else if off = Reg.BDM_CTRL then plainWrite (restripe s ti (getBits w 15 8)) a w
  else plainWrite s a w

/-- A write to an ensemble slot (12 R384, R386, R390, R393). -/
def ensWrite (s : State) (e a : Nat) (w : Word) : State :=
  let free := [esFree, esBroken, esFailed].contains (s.ensState e)
  if (a - Reg.FAB_ENS_CTRL) % 64 ≠ 0 then (if free then plainWrite s a w else refuse s a stRefused)
  else
    let changes := decide (getBits w 23 16 ≠ s.fld a 23 16) || decide (getBits w 14 8 ≠ s.fld a 14 8)
    let s := if free then plainWrite s a w else if changes then refuse s a stRefused else s
    let s := if w.getLsbD 31 then formEns s e else s
    if w.getLsbD 30 then breakEns s e 0 s.fabAddr else s

/-- A write to CFG_CARD_CTRL (17 R510, R511, Table 17.12). -/
def cardCtrlWrite (s : State) (w : Word) (owner : Bool) : State :=
  let a := Reg.CFG_CARD_CTRL
  let s' := if w.getLsbD 30 then cardAbort s else s
  let known := decide (1 ≤ getBits w 7 4) && decide (getBits w 7 4 ≤ 3)
  let t := plainWrite s' a w
  if w.getLsbD 31 && known then cardStart t owner else t

/-- The halves that a write of MGT_RESET_CTRL names (16 Table 16.10). -/
def resetHalves (w : Word) : List Half := (if w.getLsbD 30 then [Half.west] else []) ++ (if w.getLsbD 31 then [Half.east] else [])

/-- A write to a module register. -/
def moduleWrite (s : State) (a : Nat) (w : Word) (owner : Bool) : State :=
  if a = Reg.MGT_RESET_CTRL then (if (resetHalves w).isEmpty then s else resetWrite s (resetHalves w) [])
  else if a = Reg.MGT_REMOVE_CTRL then ifBit0 w s (beginRemoval s 1)
  else if a = Reg.MGT_TIME_SET_LO then s.setReg a w
  else if a = Reg.MGT_TIME_SET_HI then setSecond (s.setReg a w) (w.toNat * 2 ^ 32 + (s.reg Reg.MGT_TIME_SET_LO).toNat)
  else if a = Reg.CFG_CARD_CTRL then cardCtrlWrite s w owner
  else if a = Reg.CFG_CARD_DATA then cardData s w
  else if a = Reg.CFG_CARD_READ_ADDR then (if w.toNat % 4 = 0 then s.setReg a w else refuse s a stRefused)
  else if a = Reg.EVT_CLEAR then clearLog s w
  else if a = Reg.PWR_CTRL then
    let s := if w.getLsbD 31 then mainOff s else s
    if w.getLsbD 30 then mainRetry s else s
  else if Reg.PWR_DOM_STATUS ≤ a ∧ a < Reg.PWR_DOM_STATUS + 2560 then
    (if (a - Reg.PWR_DOM_STATUS) % 4 = 3 then ifBit0 w s (clearDomain s ((a - Reg.PWR_DOM_STATUS) / 4)) else s)
  else if a = Reg.ADM_COUNT_CLR then ifBit0 w s (clearAdm s)
  else if a = Reg.SES_COUNT_CLR then ifBit0 w s (clearSes s)
  else if a = Reg.NET_COUNT_CLR then ifBit0 w s (clearNet s)
  else if a = Reg.FAB_COUNT_CLR then ifBit0 w s (clearFab s)
  else if a = Reg.HLK_COUNT_CLR then ifBit0 w s (s.resetRegs [Reg.HLK_REPLAYS])
  else if a = Reg.STM_COUNT_CLR then ifBit0 w s (clearStm s)
  else if a = Reg.STM_CTRL then ifBit0 w (armRepair s w) (flushWcb (armRepair s w))
  else if a = Reg.STM_LOOPBACK then startLoopback s w
  else if a = Reg.BST_TEST_CTRL then writeTest s w
  else if a = Reg.BST_BURN_CTRL then (if w.getLsbD 31 then burnStart s owner else s)
  else if a = Reg.FAB_CTRL then
    let s := settlePorts (plainWrite s a w)
    if w.getLsbD 30 then leaveFabric s else s
  else if Reg.FAB_ENS_CTRL ≤ a ∧ a < Reg.FAB_ENS_CTRL + 512 then ensWrite s ((a - Reg.FAB_ENS_CTRL) / 64) a w
  else plainWrite s a w

/-- A write to an address of the register space (00 R14, R16): an address that holds no register, or lies in the page of a tile
that is fused off, retired or dark, refuses it. -/
def writeRegister (s : State) (a : Nat) (w : Word) (owner : Bool) : State :=
  match regDef? a with
  | none => refuse s a stRefused
  | some _ =>
    match tileOf a with
    | some (ti, off) => if s.usable ti then tileWrite s ti off w else refuse s a stRefused
    | none => moduleWrite s a w owner

/-- The status of a write: that of the refusal it logged, or ACCEPTED (19 R536). -/
def writeStatus (s t : State) : Nat :=
  if t.mgmt.logged.length ≤ s.mgmt.logged.length then 0 else ((t.mgmt.logged.drop s.mgmt.logged.length).head?.map (·.2)).getD 0

/-- REGISTER_WRITE (00 R14): a write that the management port has authorised. An accepted write is answered so; a refused one has
been answered where it was refused. -/
def execRegisterWrite (addr : Nat) (v : Word) (s : State) : Host.Outcome State Fault Refusal :=
  let t := writeRegister s addr v true
  .next (if writeStatus s t = 0 then t.emit (.written addr 0) else t)

end Sys2Proof.Machine
end

