-- ==== Sys2Proof/Machine/Mgmt.lean ====
section
/-! DEFINITION. The management port (19 R534-R537), the two controllers (R538-R541), keys and life cycle (R542-R548), attestation
(R549-R551), and the reference monitor (20 R574). -/
namespace Sys2Proof.Machine

/-! ## The port -/

/-- The management port answers: auxiliary power is there and a controller runs (R541). -/
def State.portAnswers (s : State) : Bool := s.pwr.auxOn && !s.mgmt.silent

/-- It takes requests other than READ and SPDM: not in RETIRED (Table 19.7). -/
def State.portServes (s : State) : Bool := s.portAnswers && decide (s.lifeCycle ≠ 5)

/-- Whether a secured session of an endpoint gives owner authorisation (R537). -/
def State.ownerSession (s : State) (ep : Nat) (session : Option Nat) : Bool :=
  match session with
  | none => false
  | some i => s.mgmt.sessions.any (fun x => decide (x.id = i) && decide (x.ep = ep) && x.isOpen && s.ownerKey x.key)

/-- The response to a vendor-defined request (R535): COMMAND with bit 7 set, TAG, STATUS, the body. -/
def respond (s : State) (ep command tag status : Nat) (body : List Nat) : State := s.emit (.vdm ep (command + 0x80) tag status body)

/-- VDM_READ (R536): one indivisible view of COUNT registers; the reads take effect in increasing address order. -/
def execVdmRead (ep tag addr count : Nat) (s : State) : Host.Outcome State Fault Refusal :=
  if !s.portAnswers then .next s
  else if count = 0 ∨ 64 < count then .next (respond s ep 1 tag stRefused [])
  else
    let as := (List.range count).map (fun i => (addr + i) % 2 ^ 32)
    let body := [0, 0] ++ as.flatMap (fun a => leBytes 4 (s.readReg a).toNat)
    .next (respond (as.foldl afterRead s) ep 1 tag 0 body)

/-- The registers of a WRITE in increasing address order: the state, DONE, the first status other than ACCEPTED (R536). -/
def writeAll (owner : Bool) : State → Nat → List Word → State × Nat × Nat
  | s, _, [] => (s, 0, 0)
  | s, a, w :: ws =>
    let t := writeRegister s (a % 2 ^ 32) w owner
    let st := writeStatus s t
    let r := writeAll owner t (a + 1) ws
    (r.1, (if st = 0 then 1 else 0) + r.2.1, if st = 0 then r.2.2 else st)

/-- VDM_WRITE (R536, R537). -/
def execVdmWrite (ep : Nat) (session : Option Nat) (tag addr : Nat) (values : List Word) (s : State) : Host.Outcome State Fault Refusal :=
  if !s.portServes then .next s
  else if values.isEmpty ∨ 64 < values.length then .next (respond s ep 2 tag stRefused (leBytes 2 0))
  else if !s.ownerSession ep session then .next (respond (authFailed s 0x7F 2 addr) ep 2 tag stNotAuthorised (leBytes 2 0))
  else
    let r := writeAll true s addr values
    .next (respond r.1 ep 2 tag r.2.2 (leBytes 2 r.2.1))

/-- OWNER_KEY (R537): the key last sent on the endpoint, in the form of Table 17.4. -/
def execOwnerKey (ep tag : Nat) (key : List Nat) (s : State) : Host.Outcome State Fault Refusal :=
  if !s.portServes then .next s
  else if key.length ≠ 388 then .next (respond s ep 0x10 tag stRefused [])
  else .next (respond { s with mgmt := { s.mgmt with ownerKeys := SMap.put s.mgmt.ownerKeys ep key } } ep 0x10 tag 0 [])

/-- EXPORT_ID (Table 19.2, R548): the module ID, a new nonce, the identity public key. -/
def execExportId (ep tag : Nat) (s : State) : Host.Outcome State Fault Refusal :=
  if !s.portServes then .next s
  else
    let f := s.takeBytes 16
    let key := s.identity.getD (List.replicate 388 0)
    .next (respond { f.2 with mgmt := { f.2.mgmt with nonce := some f.1 } } ep 0x11 tag 0 (leBytes 8 Config.moduleId.toNat ++ f.1 ++ key))

/-! ## Life cycle (R546-R548) -/

/-- The checks of a ticket in the order of R548: its KIND and OWNER_HASH, or the cause of Table 19.14. -/
def State.ticket (s : State) (l : List Nat) : Except Nat (Nat × List Nat) :=
  let key := (l.drop 64).take 388
  if l.length ≠ 836 ∨ keyHash key ≠ s.fuses.vendorHash then .error 0
  else if leAt l 0 4 ≠ 0x5449434B ∨ !rsaVerify key (l.take 452) (l.drop 452) then .error 1
  else if leAt l 8 8 ≠ Config.moduleId.toNat then .error 2
  else if s.mgmt.nonce ≠ some ((l.drop 48).take 16) then .error 3
  else .ok (leAt l 4 1, (l.drop 16).take 32)

/-- The owner slot in force, as the event gives it. -/
def Fuses.slot (f : Fuses) : Nat := f.owners.length - 1

/-- A transition takes effect and is recorded (R547). -/
def changeLife (s : State) (old new : Nat) : State :=
  let s := { s with
    fuses := if new = 3 then s.fuses else { s.fuses with lifeCycle := new }
    mgmt := { s.mgmt with diagnostic := decide (new = 3) } }
  recordEvent s 0x0103 0 old new s.fuses.slot

/-- PROVISIONED: the owner hash and a new seed go to the next slot; the identity is to be derived anew (R547, R543). -/
def provision (s : State) (old : Nat) (hash : List Nat) : State :=
  let f := s.takeBytes 32
  changeLife { f.2 with
    fuses := { f.2.fuses with owners := f.2.fuses.owners ++ [hash], seeds := f.2.fuses.seeds ++ [f.1] }
    mgmt := { f.2.mgmt with derived := false } } old 1

/-- RETIRED: the identity seed is overwritten with ones (R547). -/
def retireModuleLife (s : State) (old : Nat) : State :=
  changeLife { s with
    fuses := { s.fuses with seeds := s.fuses.seeds.map (fun x => List.replicate x.length 0xFF) }
    mgmt := { s.mgmt with derived := false } } old 5

/-- Transitions that the owner authorises (Table 19.8). -/
def ownerMay (old new : Nat) : Bool :=
  [(1, 2), (2, 3), (3, 2), (2, 4), (3, 4)].contains (old, new) || (decide (old ≠ 5) && decide (new = 5))

/-- LC_REQUEST authorised by a ticket (R547, R548): a ticket verifies at most once. -/
def ticketRequest (s : State) (ep tag target : Nat) (l : List Nat) : State :=
  let refused (s : State) (kind cause status : Nat) : State := respond (recordEvent s 0x0106 0 kind cause 0) ep 0x13 tag status []
  match s.ticket l with
  | .error c => refused (authFailed s 0x7F 0x13 0) (leAt l 4 1) c stNotAuthorised
  | .ok (kind, hash) =>
    let s := { s with mgmt := { s.mgmt with nonce := none } }
    let old := s.lifeCycle
    if kind = 1 ∧ target = 1 ∧ (old = 0 ∨ old = 4) then
      (if 4 ≤ s.fuses.owners.length then refused s 1 4 stRefused else respond (provision s old hash) ep 0x13 tag 0 [])
    else if kind = 2 ∧ target = 5 then respond (retireModuleLife s old) ep 0x13 tag 0 []
    else respond s ep 0x13 tag stRefused []

/-- LC_REQUEST (R547). -/
def execLcRequest (ep : Nat) (session : Option Nat) (tag target : Nat) (ticket : List Nat) (s : State) : Host.Outcome State Fault Refusal :=
  if !s.portServes then .next s
  else if !ticket.isEmpty then .next (ticketRequest s ep tag target ticket)
  else if !s.ownerSession ep session then .next (respond (authFailed s 0x7F 0x13 0) ep 0x13 tag stNotAuthorised [])
  else if !ownerMay s.lifeCycle target then .next (respond s ep 0x13 tag stRefused [])
  else if target = 5 then .next (respond (retireModuleLife s s.lifeCycle) ep 0x13 tag 0 [])
  else .next (respond (changeLife s s.lifeCycle target) ep 0x13 tag 0 [])

/-! ## SPDM (R543, R549, R550) -/

/-- The part of an answer that the DMTF standards give: free. -/
def standard (s : State) : List Nat × State := (Config.standardAnswer s.free, { s with free := s.free + 1 })

/-- Answer with a response code and a content that the standard gives behind what the rules give. -/
def spdmAnswer (s : State) (ep code : Nat) (body : List Nat) : State :=
  let f := standard s
  f.2.emit (.spdm ep code (body ++ f.1))

/-- An SPDM ERROR: Busy, or a request that the responder does not support. -/
def spdmError (s : State) (ep e : Nat) : State := s.emit (.spdm ep 0x7F [e])
def errBusy : Nat := 0x03
def errUnsupported : Nat := 0x07
def errInvalid : Nat := 0x01

/-- A request that needs the identity key: Busy until it is derived, unsupported in BLANK (R543, Table 19.7). -/
def withIdentity (s : State) (ep : Nat) (f : State → State) : State :=
  if s.fuses.lifeCycle = 0 then spdmError s ep errUnsupported
  else if s.identity.isNone then spdmError s ep errBusy
  else f s

/-- KEY_EXCHANGE: the fifth session is answered Busy (R549). -/
def openHandshake (s : State) (ep : Nat) : State :=
  if 4 ≤ s.mgmt.sessions.length then spdmError s ep errBusy
  else
    let i := s.mgmt.nextId
    spdmAnswer { s with mgmt := { s.mgmt with
      sessions := s.mgmt.sessions ++ [⟨i, ep, false, none, 0⟩]
      nextId := i + 1 } } ep 0x64 (leBytes 4 i)

/-- End a secured session. -/
def endSpdm (s : State) (i : Nat) : State :=
  { s with mgmt := { s.mgmt with sessions := s.mgmt.sessions.filter (fun x => decide (x.id ≠ i)) } }

/-- FINISH: the session opens, with the key that its requester proved where it is the one last sent in OWNER_KEY (R537, R549). -/
def finishHandshake (s : State) (ep i : Nat) (key : Option (List Nat)) (verified : Bool) (period : Nat) : State :=
  match s.mgmt.sessions.find? (fun x => decide (x.id = i) && decide (x.ep = ep) && !x.isOpen) with
  | none => spdmError s ep errInvalid
  | some x =>
    if !verified then spdmError (endSpdm s i) ep errInvalid
    else
      let k := match key with
        | some k => if SMap.get? s.mgmt.ownerKeys ep = some k then some k else none
        | none => none
      let y : SpdmSession := { x with isOpen := true, key := k, period := period }
      let s := { s with mgmt := { s.mgmt with sessions := s.mgmt.sessions.map (fun z => if z.id = i then y else z) } }
      let h := match key with | some k => leAt (keyHash k) 0 4 | none => 0
      spdmAnswer (recordEvent s 0x0101 0 i (if s.ownerKey k then 1 else 0) h) ep 0x65 []

/-- Whether an open session has an endpoint. -/
def State.openSession (s : State) (ep i : Nat) : Bool := s.mgmt.sessions.any (fun x => decide (x.id = i) && decide (x.ep = ep) && x.isOpen)

/-- SPDM_REQUEST (R549). -/
def execSpdmRequest (ep : Nat) (msg : SpdmMsg) (s : State) : Host.Outcome State Fault Refusal :=
  if !s.portAnswers then .next s
  else
    match msg with
    | .getVersion => .next (spdmAnswer s ep 0x04 [])
    | .getCapabilities => .next (spdmAnswer s ep 0x61 [])
    | .negotiateAlgorithms => .next (spdmAnswer s ep 0x63 [])
    | .challenge _ => .next (withIdentity s ep (fun s => spdmAnswer s ep 0x03 []))
    | .keyExchange _ _ => .next (withIdentity s ep (fun s => openHandshake s ep))
    | .finish i key verified period => .next (finishHandshake s ep i key verified period)
    | .heartbeat i => .next (if s.openSession ep i then s.emit (.spdm ep 0x68 []) else spdmError s ep errInvalid)
    | .endSession i => .next (if s.openSession ep i then (endSpdm s i).emit (.spdm ep 0x6C []) else spdmError s ep errInvalid)
    | .other _ => .next (spdmError s ep errUnsupported)

/-- SPDM_HEARTBEAT_TIMEOUT (R549): a session with a heartbeat period and no message for three of them ends. -/
def execSpdmHeartbeatTimeout (session : Nat) (s : State) : Host.Outcome State Fault Refusal :=
  if s.mgmt.sessions.any (fun x => decide (x.id = session) && x.isOpen && decide (x.period ≠ 0)) then .next (endSpdm s session) else .next s

/-- The fuses as numbers, for measurement 4. -/
def Fuses.numbers (f : Fuses) : List (List Nat) :=
  [f.vendorHash, [f.lifeCycle, f.minSvn], f.tiles, f.sramRows.flatMap (fun x => [x.1, x.2.1, x.2.2]), f.bondedRows.flatMap (fun x => [x.1, x.2.1, x.2.2]),
    f.bonds.flatMap (fun x => [x.1, x.2.1, x.2.2]), f.halfLink.flatMap (fun x => [x.1, x.2]), f.burnTiles, f.burnLayers.flatMap (fun x => [x.1, x.2])] ++
    f.owners ++ f.seeds

/-- A package into its place in increasing MODEL_ID. -/
def insertPkg (p : Package) : List Package → List Package
  | [] => [p]
  | q :: r => if p.model < q.model then p :: q :: r else q :: insertPkg p r

/-- A measurement (Table 19.10). -/
def State.measurement (s : State) (index : Nat) : List Nat :=
  let padded (h : List Nat) : List Nat := if h.isEmpty then List.replicate 32 0 else h
  match index with
  | 1 => padded s.boot.bootHash
  | 2 => padded s.boot.imageHash
  | 3 => padded s.boot.calHash
  | 4 => Config.fuseDigest s.fuses.numbers
  | 5 => [s.lifeCycle, s.fuses.slot, s.fuses.minSvn, 0]
  | 6 => match s.plan.current with | some r => sha256 (planBytes r) | none => List.replicate 32 0
  | 7 => sha256 (((s.client.models.map (·.pkg)).foldr insertPkg []).flatMap (fun p => p.manifest))
  | 8 => if s.fld Reg.MGT_CTRL_STATUS 31 31 = 1 then padded s.boot.standbyHash else List.replicate 32 0
  | _ => []

/-- GET_MEASUREMENTS (R550): index 0 asks for their number, 255 for every block; a nonce asks for a signature. -/
def execGetMeasurements (ep : Nat) (session : Option Nat) (index : Nat) (nonce : List Nat) (s : State) : Host.Outcome State Fault Refusal :=
  let inSession := match session with | some i => s.openSession ep i | none => true
  if !s.portAnswers then .next s
  else if !inSession ∨ (8 < index ∧ index ≠ 255) then .next (spdmError s ep errInvalid)
  else
    let blocks := if index = 0 then [8] else
      (if index = 255 then (List.range 8).map (· + 1) else [index]).flatMap (fun i => i :: s.measurement i)
    if nonce.isEmpty then .next (s.emit (.spdm ep 0x60 blocks))
    else .next (withIdentity s ep (fun s =>
      { s with free := s.free + 1 }.emit (.spdm ep 0x60 (blocks ++ Config.identitySign (s.fuses.seed.getD []) (blocks ++ nonce) s.free))))

/-- IDENTITY_DERIVED (R543). -/
def execIdentityDerived (s : State) : Host.Outcome State Fault Refusal :=
  if s.pwr.auxOn then .next { s with mgmt := { s.mgmt with derived := true } } else .next s

/-! ## Re-attestation (R551) -/

/-- The result code of an answer, none being a timeout. -/
def State.attest (s : State) (answer : Option Attestation) : Nat :=
  match answer with
  | none => 1
  | some a =>
    let good := match s.identity with
      | some key => rsaVerify key (s.link.nonce ++ a.m1 ++ a.m4 ++ a.m5) a.signature
      | none => false
    if !good then 2
    else if a.m1 ≠ s.measurement 1 then 3
    else if a.m4 ≠ s.measurement 4 ∨ a.m5 ≠ s.measurement 5 then 4
    else 0

/-- REATTEST_RESULT (R551, 13 Table 13.4 step 3): a pass goes on to step 4; a failure leaves the half fenced. -/
def execReattestResult (answer : Option Attestation) (s : State) : Host.Outcome State Fault Refusal :=
  match s.link.rejoin with
  | some (h, 1) =>
    let c := s.attest answer
    let s := recordEvent s 0x0105 0 (halfNo h) c 0
    if c = 0 then .next { s with link := { s.link with rejoin := some (h, 2) } }
    else .next (recordEvent { s with link := { s.link with rejoin := none } } 0x0A08 0 (halfNo h) c 0)
  | _ => .next s

/-! ## PLDM, MCTP and the bus (R534, R537) -/

/-- The highest used value of a half's spots in 0.1 C. -/
def State.highestUsed (s : State) (h : Half) : Nat :=
  ((List.range 1296).filter (fun k => decide (h = (if k / 9 % 18 < 9 then Half.west else Half.east)))).foldl
    (fun m k => max m (s.fld (Reg.THM_SPOT + k) 11 0)) 0

/-- A numeric sensor: the quantities of R537 in its order. -/
def State.sensor (s : State) (k : Nat) : Option Nat :=
  match k with
  | 0 => some (s.readReg Reg.PWR_INPUT).toNat
  | 1 => some (s.readReg Reg.PWR_AUX).toNat
  | 2 => some (s.fld Reg.THM_COOL_TEMP 15 0)
  | 3 => some (s.fld Reg.THM_COOL_TEMP 31 16)
  | 4 => some (s.fld Reg.THM_FLOW 15 0)
  | 5 => some (s.fld Reg.THM_FLOW 25 16)
  | 6 => some (s.fld Reg.THM_CAP_NOW 15 0)
  | 7 => some (s.fld Reg.THM_CAP_NOW 31 16)
  | 8 => some (s.highestUsed .west)
  | 9 => some (s.highestUsed .east)
  | k => if k < 26 then some (s.reg (Reg.THM_STACK_TEMP + (k - 10))).toNat else none

/-- A state sensor: the states of R537 in its order. -/
def State.stateSensor (s : State) (k : Nat) : Option Nat :=
  match k with
  | 0 => some s.psState
  | 1 => some s.thState
  | 2 => some s.msState
  | 3 => some s.lifeCycle
  | 4 => some (s.fld Reg.BST_REPLACE_STATUS 8 0)
  | _ => none

/-- PLDM completion codes: success; no such sensor or command. -/
def pldmAnswer (s : State) (ep : Nat) (v : Option Nat) : State :=
  s.emit (.pldm ep (match v with | some n => 0 :: leBytes 4 n | none => [5]))

/-- PLDM_REQUEST (R534, R537). -/
def execPldmRequest (ep : Nat) (msg : PldmMsg) (s : State) : Host.Outcome State Fault Refusal :=
  if !s.portServes then .next s
  else
    match msg with
    | .getTypes => .next (s.emit (.pldm ep [0, 0, 2]))
    | .getVersion t =>
      if t = 0 ∨ t = 2 then
        let f := standard s
        .next (f.2.emit (.pldm ep (0 :: f.1)))
      else .next (pldmAnswer s ep none)
    | .getPdr _ =>
      let f := standard s
      .next (f.2.emit (.pldm ep (0 :: f.1)))
    | .readSensor k => .next (pldmAnswer s ep (s.sensor k))
    | .readState k => .next (pldmAnswer s ep (s.stateSensor k))
    | .other _ _ => .next (pldmAnswer s ep none)

/-- MCTP_CONTROL (R534). -/
def execMctpControl (ep : Nat) (msg : MctpMsg) (s : State) : Host.Outcome State Fault Refusal :=
  if !s.portServes then .next s
  else
    match msg with
    | .setEndpointId eid =>
      if 8 ≤ eid ∧ eid < 255 then .next ({ s with mgmt := { s.mgmt with eid := eid } }.emit (.mctp ep [0, eid]))
      else .next (s.emit (.mctp ep [2]))
    | .getEndpointId => .next (s.emit (.mctp ep [0, s.mgmt.eid]))
    | .getVersion =>
      let f := standard s
      .next (f.2.emit (.mctp ep (0 :: f.1)))
    | .getMessageTypes => .next (s.emit (.mctp ep [0, 5, 0x00, 0x01, 0x05, 0x06, 0x7F]))
    | .other _ => .next (s.emit (.mctp ep [5]))

/-- ENTDAA_OR_SETDASA (R534): the dynamic address; SETDASA reaches the static address 0x3A. -/
def execEntdaaOrSetdasa (assign : I3cAssign) (s : State) : Host.Outcome State Fault Refusal :=
  let set (d : Nat) : State := if s.mgmt.dynAddr.isNone then { s with mgmt := { s.mgmt with dynAddr := some (d % 128) } } else s
  if !s.portAnswers then .next s
  else
    match assign with
    | .setdasa st d => .next (if st = 0x3A then set d else s)
    | .entdaa d => .next (set d)

/-! ## The two controllers (R538-R541) -/

/-- The half of the active controller (Table 19.16). -/
def State.activeHalf (s : State) : Half := if s.fld Reg.MGT_CTRL_STATUS 0 0 = 0 then .west else .east
/-- The bit that says a controller is held by its watchdog. -/
def wdBit (h : Half) : Nat := match h with | .west => 29 | .east => 28
def State.held (s : State) (h : Half) : Bool := decide (s.fld Reg.MGT_CTRL_STATUS (wdBit h) (wdBit h) = 1)

/-- The slot of the image in force as the new supervisor finds it: an image that differs from the one in force, or none, is
recorded. -/
def noteImage (s : State) (found : Except Bad Container) : State :=
  match found with
  | .ok c => if c.digest = s.boot.imageHash then s else recordEvent s 0x0202 0 (s.fld Reg.CFG_STATUS 0 0) 0 0
  | .error b => recordEvent (noteBad s b) 0x0202 0 (s.fld Reg.CFG_STATUS 0 0) b.cause b.field

/-- Steps 2 to 6 of Table 19.4: the standby takes the lease, ends a card write and the secured sessions, scans LOG, and reads the
configuration where it was not mirrored. -/
def takeOver (s : State) (failed : Half) (logValid : Nat) : State :=
  let new := otherHalf failed
  let mirrored := s.fld Reg.MGT_CTRL_STATUS 30 30
  let s := (s.setFld Reg.MGT_CTRL_STATUS 0 0 (halfNo new)).setFld Reg.MGT_CTRL_STATUS 31 31 0
  let s := { s with evt := { s.evt with staging := [] } }
  let s := cardAbort (s.setFld Reg.HLK_STATUS 30 30 (halfNo new))
  let s := { s with mgmt := { s.mgmt with sessions := [], takenOver := true } }
  let s := scanLog s logValid (some (halfNo failed, mirrored))
  if mirrored = 1 then s
  else
    noteImage s (s.checkCard (cfgBase (s.fld Reg.CFG_STATUS 0 0)) cardCfgSize false none)

/-- The watchdog block sheds main power with no controller left: no record is written, and the port stays silent (R541). -/
def shedSilent (s : State) : State :=
  let s := afterOff (offState (wipeMain s) false)
  { s with
    evt := { s.evt with staging := [] }
    pwr := { s.pwr with stayOff := true }
    mgmt := { s.mgmt with silent := true, sessions := [] } }

/-- The lease holder's controller fails while the other half is fenced (13 R409): the round is dropped, admission stops, the module
asks to be replaced. -/
def serveNothing (s : State) : State :=
  let s := (dropRound { s with link := { s.link with leaseLost := true } }).setFld Reg.ADM_STATUS 2 0 0
  let s := assertReplace s
  { s with
    evt := { s.evt with staging := [] }
    mgmt := { s.mgmt with silent := true, sessions := [] } }

/-- The standby takes over in the start sequence: main power is shed where it is enabled, and the start begins again (16 case
note). -/
def restartStart (s : State) : State :=
  beginStart (if s.enabled then shedMain s else s)

/-- WATCHDOG_EXPIRY (R539-R541). -/
def execWatchdogExpiry (h : Half) (logValid : Nat) (s : State) : Host.Outcome State Fault Refusal :=
  if s.held h ∨ s.pwr.auxOn = false then .next s
  else
    let ready := decide (s.fld Reg.MGT_CTRL_STATUS 31 31 = 1)
    let starting := decide (s.msState = msStarting)
    let t := s.setFld Reg.MGT_CTRL_STATUS (wdBit h) (wdBit h) 1
    if h ≠ s.activeHalf then .next (recordEvent (t.setFld Reg.MGT_CTRL_STATUS 31 31 0) 0x0002 0 (halfNo h) 0 0)
    else if s.fenced (otherHalf h) then .next (serveNothing t)
    else if ready && !s.mgmt.takenOver then
      let u := takeOver t h logValid
      .next (if starting then restartStart u else u)
    else .next (shedSilent t)

/-! ## References (20 R571, R574) -/

/-- REFCLK_CHECK (R574): a source is in tolerance when it agrees with at least one other. `ab`, `ac` and `bc` say which pairs of the
156.25 MHz reference, the 100 MHz reference and the crystal agree within 100 ppm. -/
def execRefclkCheck (ab ac bc : Bool) (s : State) : Host.Outcome State Fault Refusal :=
  let s := setSignal (setSignal (setSignal s 31 (ab || ac)) 30 (ab || bc)) 29 (ac || bc)
  .next (setAlert s 18 (!((ab || ac) && (ab || bc) && (ac || bc))))

end Sys2Proof.Machine
end

