-- ==== Sys2Proof/Machine/Dispatch.lean ====
section
/-! DEFINITION. The dispatch: one arm per command, each a direct call of its meaning. -/
namespace Sys2Proof.Machine

/-- The effect of a command on everything but the queue. -/
def exec (i : Instr) (s : State) : Host.Outcome State Fault Refusal :=
  match i with
  | .matmul c => Sys2Proof.Machine.execMatmul c s
  | .conv c => Sys2Proof.Machine.execConv c s
  | .load c => Sys2Proof.Machine.execLoad c s
  | .store c => Sys2Proof.Machine.execStore c s
  | .gather c => Sys2Proof.Machine.execGather c s
  | .scatter c => Sys2Proof.Machine.execScatter c s
  | .eltwise c => Sys2Proof.Machine.execEltwise c s
  | .reduce c => Sys2Proof.Machine.execReduce c s
  | .attnScore c => Sys2Proof.Machine.execAttnScore c s
  | .attnApply c => Sys2Proof.Machine.execAttnApply c s
  | .kvAppend c => Sys2Proof.Machine.execKvAppend c s
  | .ibuOp c => Sys2Proof.Machine.execIbuOp c s
  | .send c => Sys2Proof.Machine.execSend c s
  | .recv c => Sys2Proof.Machine.execRecv c s
  | .sync c => Sys2Proof.Machine.execSync c s
  | .handover c => Sys2Proof.Machine.execHandover c s
  | .end_ c => Sys2Proof.Machine.execEnd c s
  | .bankOwnerWrite ti => Sys2Proof.Machine.execBankOwnerWrite ti s
  | .commandComplete ti u => Sys2Proof.Machine.execCommandComplete ti u s
  | .stealStarved ti => Sys2Proof.Machine.execStealStarved ti s
  | .nocWrite p => Sys2Proof.Machine.execNocWrite p s
  | .inboundWritePerformed ti bank => Sys2Proof.Machine.execInboundWritePerformed ti bank s
  | .memRead p => Sys2Proof.Machine.execMemRead p s
  | .memWrite p => Sys2Proof.Machine.execMemWrite p s
  | .raeReadData p => Sys2Proof.Machine.execRaeReadData p s
  | .writeAck p => Sys2Proof.Machine.execWriteAck p s
  | .nocNack p => Sys2Proof.Machine.execNocNack p s
  | .syncArrival p => Sys2Proof.Machine.execSyncArrival p s
  | .syncRelease p => Sys2Proof.Machine.execSyncRelease p s
  | .portPacket p => Sys2Proof.Machine.execPortPacket p s
  | .escapeChannelMove p => Sys2Proof.Machine.execEscapeChannelMove p s
  | .bondedRefresh ti layer bank => Sys2Proof.Machine.execBondedRefresh ti layer bank s
  | .refreshIntervalChange ti layer temp => Sys2Proof.Machine.execRefreshIntervalChange ti layer temp s
  | .ibuStepDone ti layer pair => Sys2Proof.Machine.execIbuStepDone ti layer pair s
  | .resetW cuts => Sys2Proof.Machine.execResetW cuts s
  | .resetE cuts => Sys2Proof.Machine.execResetE cuts s
  | .resetInN asserted cuts => Sys2Proof.Machine.execResetInN asserted cuts s
  | .computeResetRelease h => Sys2Proof.Machine.execComputeResetRelease h s
  | .backendTrained ti => Sys2Proof.Machine.execBackendTrained ti s
  | .cutListHandling h => Sys2Proof.Machine.execCutListHandling h s
  | .wcbLineTimeout stack block => Sys2Proof.Machine.execWcbLineTimeout stack block s
  | .wcbFlush => Sys2Proof.Machine.execWcbFlush s
  | .hpprArm v => Sys2Proof.Machine.execHpprArm v s
  | .loopbackStart v => Sys2Proof.Machine.execLoopbackStart v s
  | .loopbackDone lanesFailed => Sys2Proof.Machine.execLoopbackDone lanesFailed s
  | .stackRefresh stack bank => Sys2Proof.Machine.execStackRefresh stack bank s
  | .stackTempRead stack temp => Sys2Proof.Machine.execStackTempRead stack temp s
  | .scrubAccess stack unit sram => Sys2Proof.Machine.execScrubAccess stack unit sram s
  | .pendingEntryStep passed => Sys2Proof.Machine.execPendingEntryStep passed s
  | .logProgram answers => Sys2Proof.Machine.execLogProgram answers s
  | .evtClear v => Sys2Proof.Machine.execEvtClear v s
  | .logEraseDone => Sys2Proof.Machine.execLogEraseDone s
  | .evtWindow7Read => Sys2Proof.Machine.execEvtWindow7Read s
  | .planFreeze => Sys2Proof.Machine.execPlanFreeze s
  | .roundBoundary => Sys2Proof.Machine.execRoundBoundary s
  | .batchStepCommit batch => Sys2Proof.Machine.execBatchStepCommit batch s
  | .paceMonitorRead readings => Sys2Proof.Machine.execPaceMonitorRead readings s
  | .ensembleDecision batch => Sys2Proof.Machine.execEnsembleDecision batch s
  | .ensembleDecisionLost slot => Sys2Proof.Machine.execEnsembleDecisionLost slot s
  | .ack d => Sys2Proof.Machine.execAck d s
  | .hello d => Sys2Proof.Machine.execHello d s
  | .open_ d => Sys2Proof.Machine.execOpen d s
  | .submit d => Sys2Proof.Machine.execSubmit d s
  | .clientResponseDiscard d => Sys2Proof.Machine.execClientResponseDiscard d s
  | .cancel d => Sys2Proof.Machine.execCancel d s
  | .close d => Sys2Proof.Machine.execClose d s
  | .closeComplete session => Sys2Proof.Machine.execCloseComplete session s
  | .status d => Sys2Proof.Machine.execStatus d s
  | .floorPlan d => Sys2Proof.Machine.execFloorPlan d s
  | .loadPackage d => Sys2Proof.Machine.execLoadPackage d s
  | .unloadPackage d => Sys2Proof.Machine.execUnloadPackage d s
  | .resultSend session => Sys2Proof.Machine.execResultSend session s
  | .ackTimer peer => Sys2Proof.Machine.execAckTimer peer s
  | .retransmissionTimeout peer seq => Sys2Proof.Machine.execRetransmissionTimeout peer seq s
  | .submitReassemblyTimeout peer => Sys2Proof.Machine.execSubmitReassemblyTimeout peer s
  | .detachTimeout session => Sys2Proof.Machine.execDetachTimeout session s
  | .codeword port w => Sys2Proof.Machine.execCodeword port w s
  | .linkFlit port b => Sys2Proof.Machine.execLinkFlit port b s
  | .linkFlitTimer port => Sys2Proof.Machine.execLinkFlitTimer port s
  | .codewordReplayTimeout port => Sys2Proof.Machine.execCodewordReplayTimeout port s
  | .fabSignalDetected port => Sys2Proof.Machine.execFabSignalDetected port s
  | .fabTrainingDone port reversed => Sys2Proof.Machine.execFabTrainingDone port reversed s
  | .fabLinkDown port cause => Sys2Proof.Machine.execFabLinkDown port cause s
  | .fabWrite p => Sys2Proof.Machine.execFabWrite p s
  | .fabWriteAck p => Sys2Proof.Machine.execFabWriteAck p s
  | .fabNack p => Sys2Proof.Machine.execFabNack p s
  | .fabSync p => Sys2Proof.Machine.execFabSync p s
  | .fabSyncRelease p => Sys2Proof.Machine.execFabSyncRelease p s
  | .misrouteWait p => Sys2Proof.Machine.execMisrouteWait p s
  | .escapeWait p => Sys2Proof.Machine.execEscapeWait p s
  | .fabricStall port vl => Sys2Proof.Machine.execFabricStall port vl s
  | .rootAnnounce port candidate fcn => Sys2Proof.Machine.execRootAnnounce port candidate fcn s
  | .rootAnnounceTimer => Sys2Proof.Machine.execRootAnnounceTimer s
  | .candidateExpiry => Sys2Proof.Machine.execCandidateExpiry s
  | .rootChanged => Sys2Proof.Machine.execRootChanged s
  | .assign moduleId addr level parentPort => Sys2Proof.Machine.execAssign moduleId addr level parentPort s
  | .links src recs => Sys2Proof.Machine.execLinks src recs s
  | .map fcn entries => Sys2Proof.Machine.execMap fcn entries s
  | .mapReady src fcn => Sys2Proof.Machine.execMapReady src fcn s
  | .mapReadyTimeout => Sys2Proof.Machine.execMapReadyTimeout s
  | .activate fcn => Sys2Proof.Machine.execActivate fcn s
  | .leave moduleId => Sys2Proof.Machine.execLeave moduleId s
  | .fabCtrlLeave => Sys2Proof.Machine.execFabCtrlLeave s
  | .ensForm src ensId model time power members => Sys2Proof.Machine.execEnsForm src ensId model time power members s
  | .ensJoin src ensId reason => Sys2Proof.Machine.execEnsJoin src ensId reason s
  | .ensFormTimeout slot => Sys2Proof.Machine.execEnsFormTimeout slot s
  | .ensPlan src round parts => Sys2Proof.Machine.execEnsPlan src round parts s
  | .ensPlanSend slot => Sys2Proof.Machine.execEnsPlanSend slot s
  | .ensReport src round batches => Sys2Proof.Machine.execEnsReport src round batches s
  | .ensDecision src round ds => Sys2Proof.Machine.execEnsDecision src round ds s
  | .ensBeat src ensId time echoed => Sys2Proof.Machine.execEnsBeat src ensId time echoed s
  | .ensBeatTimer => Sys2Proof.Machine.execEnsBeatTimer s
  | .ensBeatLoss slot src => Sys2Proof.Machine.execEnsBeatLoss slot src s
  | .ensEnd src ensId cause => Sys2Proof.Machine.execEnsEnd src ensId cause s
  | .ensCtrlForm slot => Sys2Proof.Machine.execEnsCtrlForm slot s
  | .ensCtrlEnd slot => Sys2Proof.Machine.execEnsCtrlEnd slot s
  | .fabFloorPlan src record => Sys2Proof.Machine.execFabFloorPlan src record s
  | .fpQuery src epoch => Sys2Proof.Machine.execFpQuery src epoch s
  | .hlkFrame module toEast frame flow => Sys2Proof.Machine.execHlkFrame module toEast frame flow s
  | .hlkReplayTimeout module fromWest => Sys2Proof.Machine.execHlkReplayTimeout module fromWest s
  | .hlkModuleTrained module passed => Sys2Proof.Machine.execHlkModuleTrained module passed s
  | .leasePulse => Sys2Proof.Machine.execLeasePulse s
  | .halvesSplit => Sys2Proof.Machine.execHalvesSplit s
  | .reattestResult answer => Sys2Proof.Machine.execReattestResult answer s
  | .auxValid volts => Sys2Proof.Machine.execAuxValid volts s
  | .auxFallback volts => Sys2Proof.Machine.execAuxFallback volts s
  | .presenceMade => Sys2Proof.Machine.execPresenceMade s
  | .presenceLost volts => Sys2Proof.Machine.execPresenceLost volts s
  | .mainLost kind => Sys2Proof.Machine.execMainLost kind s
  | .inputOutOfEnvelope entering volts => Sys2Proof.Machine.execInputOutOfEnvelope entering volts s
  | .mainRestart => Sys2Proof.Machine.execMainRestart s
  | .bulkCharged volts time => Sys2Proof.Machine.execBulkCharged volts time s
  | .chargeTimeout volts => Sys2Proof.Machine.execChargeTimeout volts s
  | .powerUpStepDone converters deferred => Sys2Proof.Machine.execPowerUpStepDone converters deferred s
  | .seqTimeout domain volts => Sys2Proof.Machine.execSeqTimeout domain volts s
  | .switchOnRecheck domain headroom neighbourPeak => Sys2Proof.Machine.execSwitchOnRecheck domain headroom neighbourPeak s
  | .converterFailed k => Sys2Proof.Machine.execConverterFailed k s
  | .phaseFailed cluster phase => Sys2Proof.Machine.execPhaseFailed cluster phase s
  | .dieRegTied cluster rail => Sys2Proof.Machine.execDieRegTied cluster rail s
  | .railFault domain volts => Sys2Proof.Machine.execRailFault domain volts s
  | .domainUv cluster volts duration => Sys2Proof.Machine.execDomainUv cluster volts duration s
  | .senseFault domain => Sys2Proof.Machine.execSenseFault domain s
  | .mainOff => Sys2Proof.Machine.execMainOff s
  | .mainRetry => Sys2Proof.Machine.execMainRetry s
  | .pwrDomClr domain => Sys2Proof.Machine.execPwrDomClr domain s
  | .thermalModelStep diodes sensors powers => Sys2Proof.Machine.execThermalModelStep diodes sensors powers s
  | .spotGuardLift cluster => Sys2Proof.Machine.execSpotGuardLift cluster s
  | .capExceeded h power => Sys2Proof.Machine.execCapExceeded h power s
  | .coolantSample flow inlet outlet => Sys2Proof.Machine.execCoolantSample flow inlet outlet s
  | .coolantRestored => Sys2Proof.Machine.execCoolantRestored s
  | .thermalTrip place value => Sys2Proof.Machine.execThermalTrip place value s
  | .tripHoldEnd => Sys2Proof.Machine.execTripHoldEnd s
  | .cooldownCheck diodes => Sys2Proof.Machine.execCooldownCheck diodes s
  | .stateSave => Sys2Proof.Machine.execStateSave s
  | .startStepDone r => Sys2Proof.Machine.execStartStepDone r s
  | .startStepTimeout cause => Sys2Proof.Machine.execStartStepTimeout cause s
  | .ptpMessage port domain msg => Sys2Proof.Machine.execPtpMessage port domain msg s
  | .ptpAnnounceTimeout => Sys2Proof.Machine.execPtpAnnounceTimeout s
  | .ppsEdge offset => Sys2Proof.Machine.execPpsEdge offset s
  | .timeLockChange locked => Sys2Proof.Machine.execTimeLockChange locked s
  | .mgtTimeSet lo hi => Sys2Proof.Machine.execMgtTimeSet lo hi s
  | .removeReqN => Sys2Proof.Machine.execRemoveReqN s
  | .mgtRemoveStart => Sys2Proof.Machine.execMgtRemoveStart s
  | .removalDrainEnd => Sys2Proof.Machine.execRemovalDrainEnd s
  | .alertPulseEnd => Sys2Proof.Machine.execAlertPulseEnd s
  | .cfgCardStart target len owner => Sys2Proof.Machine.execCfgCardStart target len owner s
  | .cfgCardAbort => Sys2Proof.Machine.execCfgCardAbort s
  | .cfgCardData v => Sys2Proof.Machine.execCfgCardData v s
  | .cardEraseDone => Sys2Proof.Machine.execCardEraseDone s
  | .cardProgramDone ok => Sys2Proof.Machine.execCardProgramDone ok s
  | .cardCheckDone => Sys2Proof.Machine.execCardCheckDone s
  | .cardWriteTimeout => Sys2Proof.Machine.execCardWriteTimeout s
  | .cfgCardReadData => Sys2Proof.Machine.execCfgCardReadData s
  | .bstTestStart v => Sys2Proof.Machine.execBstTestStart v s
  | .marchDone h rows => Sys2Proof.Machine.execMarchDone h rows s
  | .thymeSlice cluster units => Sys2Proof.Machine.execThymeSlice cluster units s
  | .bstBurnStart owner => Sys2Proof.Machine.execBstBurnStart owner s
  | .burnDone ok => Sys2Proof.Machine.execBurnDone ok s
  | .vdmRead ep tag addr count => Sys2Proof.Machine.execVdmRead ep tag addr count s
  | .vdmWrite ep session tag addr values => Sys2Proof.Machine.execVdmWrite ep session tag addr values s
  | .ownerKey ep tag key => Sys2Proof.Machine.execOwnerKey ep tag key s
  | .exportId ep tag => Sys2Proof.Machine.execExportId ep tag s
  | .lcRequest ep session tag target ticket => Sys2Proof.Machine.execLcRequest ep session tag target ticket s
  | .spdmRequest ep msg => Sys2Proof.Machine.execSpdmRequest ep msg s
  | .getMeasurements ep session index nonce => Sys2Proof.Machine.execGetMeasurements ep session index nonce s
  | .spdmHeartbeatTimeout session => Sys2Proof.Machine.execSpdmHeartbeatTimeout session s
  | .pldmRequest ep msg => Sys2Proof.Machine.execPldmRequest ep msg s
  | .mctpControl ep msg => Sys2Proof.Machine.execMctpControl ep msg s
  | .identityDerived => Sys2Proof.Machine.execIdentityDerived s
  | .watchdogExpiry h logValid => Sys2Proof.Machine.execWatchdogExpiry h logValid s
  | .refclkCheck ab ac bc => Sys2Proof.Machine.execRefclkCheck ab ac bc s
  | .layXltFlush ti => Sys2Proof.Machine.execLayXltFlush ti s
  | .bdmCutClr ti => Sys2Proof.Machine.execBdmCutClr ti s
  | .tilCountClr ti => Sys2Proof.Machine.execTilCountClr ti s
  | .mxaCountClr ti => Sys2Proof.Machine.execMxaCountClr ti s
  | .layCountClr ti => Sys2Proof.Machine.execLayCountClr ti s
  | .atnCountClr ti => Sys2Proof.Machine.execAtnCountClr ti s
  | .bdmCountClr ti => Sys2Proof.Machine.execBdmCountClr ti s
  | .ibuCountClr ti => Sys2Proof.Machine.execIbuCountClr ti s
  | .intCountClr ti => Sys2Proof.Machine.execIntCountClr ti s
  | .stmCountClr => Sys2Proof.Machine.execStmCountClr s
  | .admCountClr => Sys2Proof.Machine.execAdmCountClr s
  | .sesCountClr => Sys2Proof.Machine.execSesCountClr s
  | .netCountClr => Sys2Proof.Machine.execNetCountClr s
  | .fabCountClr => Sys2Proof.Machine.execFabCountClr s
  | .hlkCountClr => Sys2Proof.Machine.execHlkCountClr s
  | .registerWrite addr v => Sys2Proof.Machine.execRegisterWrite addr v s
  | .auxLost => Sys2Proof.Machine.execAuxLost s
  | .portSignalDetected port => Sys2Proof.Machine.execPortSignalDetected port s
  | .portUp port phy => Sys2Proof.Machine.execPortUp port phy s
  | .portDown port cause => Sys2Proof.Machine.execPortDown port cause s
  | .icmpEchoArpNs port kind src => Sys2Proof.Machine.execIcmpEchoArpNs port kind src s
  | .datagramDiscarded x => Sys2Proof.Machine.execDatagramDiscarded x s
  | .senseRestored domain => Sys2Proof.Machine.execSenseRestored domain s
  | .powerDownStepDone => Sys2Proof.Machine.execPowerDownStepDone s
  | .tokenBucketRefill stack part h => Sys2Proof.Machine.execTokenBucketRefill stack part h s
  | .readData p => Sys2Proof.Machine.execReadData p s
  | .packageVerificationDone model => Sys2Proof.Machine.execPackageVerificationDone model s
  | .entdaaOrSetdasa assign => Sys2Proof.Machine.execEntdaaOrSetdasa assign s

end Sys2Proof.Machine
end

