-- ==== Sys2Proof/Machine/Step.lean ====
section
/-! DEFINITION. One step of the block: the command at the front of the queue runs on the rest; on an empty queue the
module idles and calendar time moves on (log 3). -/
namespace Sys2Proof.Machine

/-- Idling: calendar time moves on by one nanosecond (16 R475: TAI in nanoseconds; DESIGN CHOICE, log 3). -/
def idle (s : State) : State := { s with now := s.now + 1 }

/-- Take the command at the front of the queue and run it on the state with the rest of the queue. -/
def step (s : State) : Host.Outcome State Fault Refusal :=
  match s.pending with
  | [] => .next (idle s)
  | i :: rest => exec i { s with pending := rest }

/-- The state with the command that a table word spells put at the front of the queue; unchanged where it spells
none. -/
def State.withFetchWord (s : State) (nbits w : Nat) : State :=
  match decodeTableWord nbits w with
  | some i => { s with pending := i :: s.pending }
  | none => s

end Sys2Proof.Machine
end

