-- ==== Sys2Proof/Safety.lean ====
section
/-! DEFINITION. What a run promises, in the terms statements use. -/
namespace Sys2Proof.Machine

/-- The memories of a tile are in canonical form: no word, granule or line listed twice, in rising order. -/
def Tile.wf (t : Tile) : Prop := SMap.wf t.sram = true ∧ SMap.wf t.slice = true ∧ SMap.wf t.written = true

/-- The canonical form of a state: registers, waiting scheduling words, tiles and memories are listed in rising order and none twice,
and no register is listed that holds its reset value. Equal register files are then equal lists. -/
structure State.wf (s : State) : Prop where
  regs : SMap.wf s.regs = true
  listed : ∀ e ∈ s.regs, e.2 ≠ resetOf e.1
  tiles : SMap.wf s.tiles = true
  tile : ∀ e ∈ s.tiles, e.2.wf
  shadow : SMap.wf s.shadow = true
  stack : SMap.wf s.stm.mem = true

/-- The registers that recording an event may write: the counts of lost events and of overflows of the pending list, and its status. -/
def eventRegs : List Nat := [Reg.EVT_LOST, Reg.BST_ERR_OVERFLOWS, Reg.BST_ERR_STATUS]

/-- Every register outside a list reads as before. -/
def State.RegsFrame (s t : State) (as : List Nat) : Prop := ∀ a, a ∉ as → t.reg a = s.reg a

/-- Registers of a list may change, and nothing else. -/
def State.RegsOnly (s t : State) (as : List Nat) : Prop := s.RegsFrame t as ∧ t = { s with regs := t.regs }

/-- Registers of a list and what recording an event touches may change, and nothing else: the registers of eventRegs, the recorder and
the pending list of the supervisor. -/
def State.RegsAndEvents (s t : State) (as : List Nat) : Prop :=
  s.RegsFrame t (as ++ eventRegs) ∧ t = { s with regs := t.regs, evt := t.evt, sup := t.sup }

/-- The recorder and the pending list have room for one more event (19 R554, R555, 09 R282). -/
def State.Room (s : State) : Prop :=
  s.evt.full = false ∧ s.evt.slot < 131071 ∧ s.evt.staging.length < 65536 ∧ s.sup.list.length < 64

/-- The record that an event gets in this state (19 R553, R554). -/
def State.record (s : State) (code source p0 p1 p2 : Nat) : EventRec :=
  ⟨s.evt.head, s.calendar, code, source, severityOf code, p0, p1, p2⟩

/-- One event is recorded between two states, where there is room for it: its record is staged under the next sequence number. -/
def State.Records (s t : State) (e : EventRec) : Prop :=
  s.Room → t.evt.staging = s.evt.staging ++ [e] ∧ t.evt.head = s.evt.head + 1

/-- A command answers a next state. -/
def Completes (i : Instr) (s : State) : Prop := ∃ t, exec i s = .next t

/-- The state that the work of a tile command reads when it issues: the fetch page in the translation cache, the reads of its descriptor
slots noted, and the writes of its unit's earlier commands done (02 R44). -/
def State.issueView (s : State) (c : TileCmd) : State :=
  let t := s.tile c.ti
  let b := t.effective c.bits
  let s := if inWindow t.pc then s else cachePage s c.ti t.space (t.pc / 0x200000)
  (noteSramReads s c.ti (s.readableSlots c.ti (diFields b))).view c.ti (unitOf b)

/-- The sequencer takes a command of a class and issues it at once: the tile runs, the fetch and the decoding find nothing wrong, and no
token, queue or fence holds it (02 R42-R52). -/
structure State.Takes (s : State) (c : TileCmd) (cls : Nat) : Prop where
  runs : s.canIssue c.ti = true
  ofClass : cClass ((s.tile c.ti).effective c.bits) = cls
  fetch : s.fetchCause c.ti = none
  clean : c.poison = false
  decodes : decodeCause ((s.tile c.ti).effective c.bits) = none
  slot : ((s.tile c.ti).slotAt (cSlot ((s.tile c.ti).effective c.bits))).inPlace = false ∨ cls = 0x0C
  free : s.holds c.ti ((s.tile c.ti).effective c.bits) = false

/-- A command has issued with its work: it stands last in the queue of its unit with the writes and the wait of that work, the position
and the counts have moved past it, its slot is the last issued, and CONSUME has cleared the tokens it waited for (02 R42-R46). -/
structure State.Issued (s t : State) (c : TileCmd) (w : Work) : Prop where
  queued : ∃ e : QEntry, (t.tile c.ti).queue = (s.tile c.ti).queue ++ [e] ∧
    e.serial = (s.tile c.ti).serial ∧ e.unit = unitOf ((s.tile c.ti).effective c.bits) ∧
    e.cls = cClass ((s.tile c.ti).effective c.bits) ∧ e.vaddr = (s.tile c.ti).pc ∧
    e.slot = cSlot ((s.tile c.ti).effective c.bits) ∧ e.setTok = cSet ((s.tile c.ti).effective c.bits) ∧
    e.swrites = w.writes.sram ∧ e.mwrites = w.writes.mem ∧ e.waits = w.waits ∧ e.banks = w.banks
  pc : (t.tile c.ti).pc = (s.tile c.ti).pc + 64
  serial : (t.tile c.ti).serial = (s.tile c.ti).serial + 1
  ordinal : (t.tile c.ti).ordinal = (s.tile c.ti).ordinal + 1
  last : t.fld (tileReg c.ti Reg.TIL_STATUS) 23 16 = cSlot ((s.tile c.ti).effective c.bits)
  consumed : flConsume (cFlags ((s.tile c.ti).effective c.bits)) = true →
    t.tokens c.ti &&& cWait ((s.tile c.ti).effective c.bits) = 0
  others : ∀ ti, ti ≠ c.ti → (t.tile ti).queue = (s.tile ti).queue

/-- A 32-bit saturating count has gone up by n between two states. -/
def State.Counted (s t : State) (a n : Nat) : Prop := (t.reg a).toNat = min ((s.reg a).toNat + n) (2 ^ 32 - 1)

/-- A packet for a tile is neither held in a compute reset nor for a tile that is not usable, and it belongs to the round (02 R75,
16 R486). -/
def State.Accepts (s : State) (p : Packet) : Prop :=
  s.detained p.dstId = false ∧ s.usable p.dstId = true ∧ stale s p = false

/-- The contents of every slice are the same in two states. -/
def State.SameSlices (s t : State) : Prop := ∀ ti k, t.rawGranule ti k = s.rawGranule ti k

/-- A request reaches a bonded controller whose ports serve, with no in-bank unit on its pair (07 R213, R222). -/
def State.BondedServes (s : State) (p : Packet) : Prop :=
  p.dstKind ≠ 1 ∧ s.usable p.dstId = true ∧ s.bdmHeld p.dstId = false ∧
    (p.adopted = true ∨ (s.tile p.dstId).pairBusy (s.packetPair p).1 (s.packetPair p).2 = false)

/-- A request reaches a stack controller that is up, on the sender's side of a split, out of loop-back, and within its partition's cap
(08 R236, R245, R255). -/
def State.StackServes (s : State) (p : Packet) : Prop :=
  p.dstKind = 1 ∧ s.stackHalfUp (stackHalf p.dstId) = true ∧
    (p.srcKind = 0 → s.fld Reg.HLK_STATUS 31 31 = 0 ∨ halfOf p.srcId = stackHalf p.dstId) ∧
    s.fld (Reg.STM_STACK_STATUS + p.dstId) 2 0 ≠ stkLoopback ∧
    (s.regMax (s.partOf p.srcId) (stackHalf p.dstId) = 0 ∨
      (p.len ≤ s.bucketLevel p.dstId 1 (s.partOf p.srcId) ∧ 32 * p.pieces.length ≤ s.bucketLevel p.dstId 1 (s.partOf p.srcId)))

/-- The answer to a read stands in the mesh: the data of the packet's granules as a reader of this state receives them (07 R207, 08 R242). -/
def State.AnswersRead (s t : State) (p : Packet) : Prop :=
  ∃ r ∈ t.mesh, r.ptype = .readData ∧ r.dstKind = p.srcKind ∧ r.dstId = p.srcId ∧ r.addr = p.addr ∧ r.len = p.len ∧ r.ref = p.ref ∧
    r.pieces = (packetGrans p).mapIdx (fun i g =>
      (⟨i, (s.readGran p.srcId (packetMem p) g).1, BitVec.allOnes 256, (s.readGran p.srcId (packetMem p) g).2⟩ : Piece))

/-- The sender's command has one request fewer outstanding (02 R45). -/
def State.Accepted (s t : State) (p : Packet) : Prop :=
  ∀ e, (s.tile p.srcId).entry? p.ref = some e → { e with outstanding := e.outstanding - 1 } ∈ (t.tile p.srcId).queue

/-- A datagram of a known peer arrives on a port that is up, and passes the checks of 11 R325 and R328. -/
def State.HearsFrom (s : State) (p : Peer) (d : Datagram) : Prop :=
  d.port < 4 ∧ s.fld (Reg.NET_PORT_STATUS + d.port) 2 0 = 3 ∧ s.opened = true ∧ badDg d = false ∧
    s.peerAt d.ip d.udp = some p ∧ s.peer? p.id = some p ∧ d.peerId = p.id ∧ d.cookie = p.cookie ∧
    (d.dtype = 1 → respOf d = true ∨ d.peerId ≠ 0xFFFF ∨ d.cookie ≠ 0)

/-- It is moreover the next datagram in sequence, within the peer's credit, and a whole message by itself, with none in assembly. -/
def State.Hears (s : State) (p : Peer) (d : Datagram) : Prop :=
  s.HearsFrom p d ∧ d.dtype ≠ 0 ∧ d.seq = p.rcvNext ∧ seqLt d.seq p.rcvLimit = true ∧ p.held = [] ∧ p.asm = none ∧ d.frag = 0 ∧
    lastOf d = true

/-- The state in which a message that arrives so is handled: its acknowledgement taken and the datagram delivered. -/
def State.heard (s : State) (p : Peer) (d : Datagram) : State :=
  let s1 := takeAck s p.id d
  match s1.peer? p.id with
  | none => s1
  | some q =>
    setAsm ((s1.putPeer { q with held := [d], ackDue := true }).putPeer
      { q with held := [], ackDue := true, rcvNext := seqAdd q.rcvNext 1 }) p.id none

/-- A message for a peer is sent, or queued until its credit allows: its datagrams stand last and carry its body (11 R325, R326). -/
def State.Sends (t : State) (pid dtype : Nat) (response : Bool) (body : List Nat) : Prop :=
  ∃ p pre gs, t.peer? pid = some p ∧ p.unacked ++ p.queue = pre ++ gs ∧ gs ≠ [] ∧
    (∀ g ∈ gs, g.dtype = dtype ∧ g.response = response) ∧ (gs.map OutDg.body).flatten = body

/-- The datagrams of a peer have room for a body. -/
def State.Fits (s : State) (p : Peer) : Prop := 0 < s.chunkSize p


/-- A compute reset of a half has begun (16 R485, Table 16.5 steps 1 and 2): its tiles in use are in reset with nothing queued and no
word of SRAM written, their ports with the keeper, and no step of the round that uses them will commit. -/
structure State.ResetBegun (s t : State) (h : Half) (cause : Nat) (byPin : Bool) : Prop where
  phase : t.halfReset h = ⟨1, s.now, cause, byPin⟩
  tiles : ∀ ti, halfOf ti = h → s.usable ti = true → t.tilState ti = tilReset ∧ (t.tile ti).queue = [] ∧ (t.tile ti).segs = [] ∧
    (t.tile ti).sram = [] ∧ t.fld (tileReg ti Reg.BDM_STATUS) 2 0 = bdmKeeper
  drops : ∀ b ∈ s.sage.batches, b.dropped = none → b.committed = false → b.need.any (fun x => decide (halfOf x.1 = h)) = true →
    ∃ b' ∈ t.sage.batches, b'.id = b.id ∧ b'.dropped = some 3

/-- A compute reset of a half is taken when requested: the module serves with main power, and the half is neither between steps 1 and 4
of a reset nor fenced. -/
def State.TakesReset (s : State) (h : Half) : Prop := s.mainOn = true ∧ s.msState = msServing ∧ (s.halfReset h).phase ≠ 1 ∧ s.fenced h = false


/-- Nothing waits for the boundary between rounds: no live write, setting of time, reset, epoch, re-check or test is due, no batch step
is held, no client holds a session, and no tile or link is to be repaired. -/
structure State.Quiet (s : State) : Prop where
  live : s.shadow = []
  time : s.tb.pending = none
  resets : (s.halfReset .west).phase ≠ 3 ∧ (s.halfReset .east).phase ≠ 3 ∧ s.sup.overflowResetW = false ∧ s.sup.overflowResetE = false
  rejoin : s.link.rejoin = none
  plan : s.plan.due = false ∧ s.sage.recheck = false ∧ s.bist.job = none
  work : s.sage.batches = [] ∧ s.client.sessions = [] ∧ s.client.loads = []
  repairs : s.sup.layersDue = [] ∧ s.sup.slicesDue = [] ∧
    ∀ e ∈ s.tiles, e.2.bondSuspect = [] ∧ e.2.pendingSpares = [] ∧ e.2.kvMarks = []

/-- Where there is room for it, a record of one event stands among those staged. -/
def State.Shows (s t : State) (e : EventRec) : Prop := s.Room → e ∈ t.evt.staging

/-- A packet leaves on a fabric port: one more codeword, of this packet, is sent and kept there until it is acknowledged. -/
def State.Leaves (s t : State) (n : Nat) (x : FabPacket) : Prop :=
  ∃ w : Codeword, ∃ y : FabPacket, .codeword n w ∈ t.out ∧ w ∈ (t.fport n).kept ∧ w.isNew = true ∧ w.seq = (s.fport n).nextSeq ∧
    w.flits.head? = some (.head y) ∧ (y = x ∨ y = { x with phase := 1 })

/-- The fabric holds no packet and no ensemble, and the module is not leaving. -/
def State.FabricIdle (s : State) : Prop :=
  s.fab.transit = [] ∧ (∀ n, (s.fport n).buffers = []) ∧ (∀ e, e < 8 → s.ensState e = esFree) ∧ s.fab.leaving = false

/-- The slot in which an ensemble would be formed: one that held it before, else a free one (12 R384, R387). -/
def State.formSlot (s : State) (ensId : Nat) : Option Nat :=
  match s.slotOf [esBroken, esFailed, esFree] (fun e => decide (s.ensState e ≠ esFree) && decide (s.ensId e = ensId)) with
  | some e => some e
  | none => s.slotOf [esFree] (fun _ => true)

/-- The slot of the ensemble of this ENS_ID that a module belongs to. -/
def State.slotWith (s : State) (states : List Nat) (ensId src : Nat) : Option Nat :=
  s.slotOf states (fun e => decide (s.ensId e = ensId) && (decide (s.ensLeader e = src) || (s.ensMembers e).contains src))

/-- An ensemble has ended (12 R387): its slot is BROKEN, its reservation goes at the next boundary, event 0x080A is recorded, and a leader
has told its members. -/
structure State.EnsembleEnded (s t : State) (e cause member : Nat) : Prop where
  broken : t.ensState e = esBroken
  release : (t.ensSlot e).release = true
  event : s.Shows t (s.record 0x080A 0 (s.ensId e) cause member)
  told : s.ensState e ≠ esMember → ∀ a ∈ s.ensMembers e, .ctrl none a (.ensEnd (s.ensId e) cause) ∈ t.out


/-- Main power is gone (14 R431, Table 14.6): STATE says that it is off, or locked out, no tile or slice holds anything, every packet and
session is gone, and the loss is recorded as an event and, while the card answers and TRIP has room, as a record. -/
structure State.MainGone (s t : State) (code p0 p1 p2 : Nat) (lock : Bool) : Prop where
  state : t.psState = if lock then psLocked else psAux
  tiles : ∀ ti, (t.tile ti).sram = [] ∧ (t.tile ti).slice = [] ∧ (t.tile ti).queue = [] ∧ (t.tile ti).segs = []
  packets : t.mesh = [] ∧ t.client.sessions = [] ∧ t.sage.batches = [] ∧ t.fab.active = none
  event : s.Shows t (s.record code 0 p0 p1 p2)
  trip : s.fld Reg.CFG_STATUS 31 31 = 1 → s.card.trips.length < 64 →
    ∃ r ∈ t.card.trips, r.kind = 2 ∧ r.code = code ∧ r.p0 = p0 ∧ r.p1 = p1 ∧ r.p2 = p2 ∧ r.isOpen = false

/-- The power-up has failed at a step (14 R429): main power is shed and locked out, the start halts in step 3, and event 0x040C names the
step, the domain and its voltage. -/
structure State.UpFailed (s t : State) (step domain volts : Nat) : Prop where
  state : t.psState = psLocked
  start : t.msState = msHalted ∧ t.fld Reg.MGT_START_STATUS 19 16 = 3
  event : s.Shows t (s.record 0x040C 0 step domain volts)

/-- A cluster has gone dark (14 R436, R438): no tile of it is usable, and its event names the cause. -/
structure State.GoneDark (s t : State) (ci cause : Nat) : Prop where
  state : t.clState ci = clDark
  plan : ci ∈ t.plan.dark ∧ t.plan.due = true
  event : s.Shows t (s.record 0x0409 0 ci cause s.plan.epoch)

/-- The state of the module is saved on the card (17 R500). -/
def State.Saved (s t : State) : Prop :=
  ∃ r : SaveRec, (t.card.slot0 = some r ∨ t.card.slot1 = some r) ∧ r.total = (s.reg Reg.THM_FATIGUE_TOTAL).toNat ∧
    r.fatigue = (List.range 144).map (fun c => (s.reg (Reg.THM_FATIGUE + c)).toNat)

/-- Removal preparation has begun (16 R489, Table 16.7 steps 1 and 2): admission ends with the drain, whose length and the steps still
admitted event 0x001B names. -/
structure State.RemovalBegun (s t : State) (cause : Nat) : Prop where
  state : t.msState = msRemoving
  removal : t.boot.removal = some ⟨s.now, cause, 0, 0, false⟩
  drain : t.sage.draining = some (s.now + s.fld Reg.MGT_REMOVE_DRAIN 15 0 * 1000000)
  event : s.Records t (s.record 0x001B 0 cause (s.fld Reg.MGT_REMOVE_DRAIN 15 0) s.admitted)

end Sys2Proof.Machine
end

