-- ==== Sys2Proof/Certificates/Slice0/Obligations.lean ====
section
/-! DEFINITION. The statements for the provers, by the kinds of state and the families of commands they speak of. -/
open Sys2Proof Sys2Proof.Machine

/-! ## The block -/

/-- The block takes its commands first in, first out: a step runs the command at the front with the rest of the queue. With no command
waiting one nanosecond passes, and nothing else happens (DESIGN CHOICE, log 3). Model choices it rests on, which are no rule of the spec:
log 1, 3. -/
def Obligations.StepRunsTheFrontCommand : Prop :=
  (∀ (c : Instr) (q : List Instr) (s : State), s.pending = c :: q → step s = exec c { s with pending := q }) ∧
    ∀ s : State, s.pending = [] → step s = .next { s with now := s.now + 1 }

/-- No command stops the block: every command answers a next state, and its meaning leaves the queue alone. Model choices it rests on, which
are no rule of the spec: log 1, 53. -/
def Obligations.EveryCommandAnswersANextState : Prop :=
  ∀ (c : Instr) (s : State), ∃ t, exec c s = .next t ∧ t.pending = s.pending

/-- Every step keeps the canonical form of the state, from every state that has it: registers, tiles and memories listed in rising order and
none twice, and no register listed at its reset value. Model choices it rests on, which are no rule of the spec: log 41, 114. -/
def Obligations.StepKeepsCanonicalForm : Prop :=
  ∀ s t : State, s.wf → step s = .next t → t.wf

/-- After reset the state is in canonical form, no supply is on, nothing runs, and the registers whose reset values the spec states read
them. Model choices it rests on, which are no rule of the spec: log 30, 113, 114. -/
def Obligations.ResetLeavesTheModuleOff : Prop :=
  State.reset.wf ∧ State.reset.pending = [] ∧ State.reset.pwr.auxOn = false ∧ State.reset.psState = psAux ∧
    State.reset.tilState 0 = tilReset ∧ State.reset.evt.head = 1 ∧ State.reset.evt.first = 1 ∧
    State.reset.reg Reg.ADM_CLASS = 0x00010003 ∧ State.reset.reg (Reg.ADM_CLASS + 7) = 0x00640FA0 ∧
    State.reset.reg (Reg.HLK_ROW_MAP + 31) = 31

/-- A 64-bit value occupies two consecutive registers, with the low word at the lower address (00 R10), and a field written reads as the
value written, while every field outside it and every other register reads as before. -/
def Obligations.RegistersHoldWhatIsWritten : Prop :=
  (∀ (s : State) (a v : Nat), (s.setReg64 a v).reg64 a = v % 2 ^ 64 ∧ ((s.setReg64 a v).reg a).toNat = v % 2 ^ 32 ∧
    s.RegsOnly (s.setReg64 a v) [a, a + 1]) ∧
  (∀ (s : State) (a hi lo v : Nat), lo ≤ hi → hi < 32 → (s.setFld a hi lo v).fld a hi lo = v % 2 ^ (hi + 1 - lo) ∧
    s.RegsOnly (s.setFld a hi lo v) [a] ∧
    ∀ hi' lo', hi' < lo ∨ hi < lo' → (s.setFld a hi lo v).fld a hi' lo' = s.fld a hi' lo') ∧
  ∀ (s : State) (a n : Nat), ((s.count a n).reg a).toNat = min ((s.reg a).toNat + n) (2 ^ 32 - 1)

/-- Bay records an event under the next sequence number, with its time, severity and parameters, while there is room (19 R554); with the
staging buffer full it counts it in EVT_LOST; once the last ordinary slot is used it counts the event in EVT_LOST, writes LOG_FULL in its
place and stops (R555). -/
def Obligations.EventsAreRecordedInOrder : Prop :=
  (∀ (s : State) (code source p0 p1 p2 : Nat), s.Records (recordEvent s code source p0 p1 p2) (s.record code source p0 p1 p2) ∧
    s.RegsAndEvents (recordEvent s code source p0 p1 p2) []) ∧
  (∀ (s : State) (code source p0 p1 p2 : Nat), s.evt.full = false → s.evt.slot = 131071 →
    (recordEvent s code source p0 p1 p2).evt.full = true ∧ (recordEvent s code source p0 p1 p2).evt.log = s.evt.log ∧
    (recordEvent s code source p0 p1 p2).evt.staging = s.evt.staging ++ [s.record 0x0301 0 code 0 0] ∧
    (recordEvent s code source p0 p1 p2).evt.head = s.evt.head + 1 ∧
    (s.sup.list.length < 64 →
      ((recordEvent s code source p0 p1 p2).reg Reg.EVT_LOST).toNat = min ((s.reg Reg.EVT_LOST).toNat + 1) (2 ^ 32 - 1))) ∧
  (∀ (s : State) (code source p0 p1 p2 : Nat), (s.evt.full = true ∨ (s.evt.slot < 131071 ∧ 65536 ≤ s.evt.staging.length)) →
    s.sup.list.length < 64 →
    (recordEvent s code source p0 p1 p2).evt.staging = s.evt.staging ∧ (recordEvent s code source p0 p1 p2).evt.head = s.evt.head ∧
    ((recordEvent s code source p0 p1 p2).reg Reg.EVT_LOST).toNat = min ((s.reg Reg.EVT_LOST).toNat + 1) (2 ^ 32 - 1))

/-- The pending list of the supervisor (09 R279, R281, R282): an event of severity 1 or more that merges with no entry enters it once,
behind the entries of its severity or higher; one of severity 0 does not; and a list of 64 takes no more, so that the halves named are due
for a reset. Model choices it rests on, which are no rule of the spec: log 85. -/
def Obligations.PendingListTakesEvents : Prop :=
  (∀ (s : State) (code source p0 p1 p2 : Nat), severityOf code = 0 → (recordEvent s code source p0 p1 p2).sup = s.sup) ∧
  (∀ (s : State) (code source p0 p1 p2 : Nat), severityOf code ≠ 0 → (mergeKey code source p0 p1 p2).1 = 0 → s.sup.list.length < 64 →
    ∃ e before after, (recordEvent s code source p0 p1 p2).sup.list = before ++ e :: after ∧ s.sup.list = before ++ after ∧
      e.seq = s.evt.head ∧ e.code = code ∧ e.source = source ∧ e.severity = severityOf code ∧
      (∀ x ∈ before, e.severity ≤ x.severity) ∧ ∀ x ∈ after.head?, x.severity < e.severity) ∧
  (∀ (s : State) (code source p0 p1 p2 : Nat), severityOf code ≠ 0 → (mergeKey code source p0 p1 p2).1 = 0 → s.sup.list.length = 64 →
    (recordEvent s code source p0 p1 p2).sup.list = s.sup.list ∧
    ((recordEvent s code source p0 p1 p2).sup.overflowResetW = (s.sup.overflowResetW || (eventHalves code source).1)) ∧
    ((recordEvent s code source p0 p1 p2).sup.overflowResetE = (s.sup.overflowResetE || (eventHalves code source).2)) ∧
    ((recordEvent s code source p0 p1 p2).reg Reg.BST_ERR_OVERFLOWS).toNat = min ((s.reg Reg.BST_ERR_OVERFLOWS).toNat + 1) (2 ^ 32 - 1))

/-! ## Codes and formats -/

/-- The code of an SRAM word (09 R263, R264, R268): a word stored reads clean at its address; with any one of its 72 bits turned over it
still delivers its data, not poisoned; and the poison pattern reads as poison. -/
def Obligations.SramWordsAreCorrected : Prop :=
  (∀ (d : BitVec 64) (w : Nat), sramDecode (sramEncode d w) w = (.clean, d)) ∧
  (∀ (d : BitVec 64) (w b : Nat), b < 72 →
    (sramDecode (sramEncode d w ^^^ (1#72 <<< b)) w).2 = d ∧ (sramDecode (sramEncode d w ^^^ (1#72 <<< b)) w).1.poisoned = false) ∧
  ∀ w : Nat, (sramDecode (sramPoison w) w).1 = .poison

/-- A word read at an address that differs in one bit from the one it was written at reads as an address error (09 R263, R264). -/
def Obligations.WrongSramAddressesAreFound : Prop :=
  ∀ (d : BitVec 64) (w b : Nat), w < 2 ^ 18 → b < 18 → (sramDecode (sramEncode d w) (w ^^^ 2 ^ b)).1 = .addressError b

/-- The code of a granule (09 R265-R268): a granule stored reads clean at its address value, the poison pattern reads as poison, and a
granule with one of its 32 check bits turned over still delivers its data. -/
def Obligations.GranulesReadBack : Prop :=
  (∀ (d : BitVec 256) (g : Nat), granuleDecode (granuleEncode d g) g = (.clean, d)) ∧
  (∀ g : Nat, (granuleDecode (granulePoison g) g).1 = .poison) ∧
  ∀ (d : BitVec 256) (g b : Nat), b < 32 → granuleDecode (granuleEncode d g ^^^ (1#288 <<< (256 + b))) g = (.checkCorrected, d)

/-- Every finite code of every element format but E8M0, which is no destination, converts to itself: no format is flushed to zero, so
subnormal codes read at their value and are produced again (04 R119, Tables 4.2, 4.6). -/
def Obligations.FiniteCodesConvertToThemselves : Prop :=
  ∀ (f : Fmt) (c : Nat) (neg : Bool) (m : Nat) (e : Int), f ≠ .e8m0 → c < 2 ^ f.width → f.value c = .fin neg m e →
    f.encode .rne (f.value c) = c

/-! ## Tile commands -/

/-- A command of the units, taken with nothing to hold it, issues: it stands last in its unit's queue with what its class reads and will
write, and the sequencer moves on (02 R42-R46). One clause for each class; a class's work is the one its chapter gives, on the state the
unit sees. Model choices it rests on, which are no rule of the spec: log 5, 8, 9, 15. -/
def Obligations.UnitCommandsIssue : Prop :=
  (∀ (s : State) (c : TileCmd) (w : Work), s.Takes c 0x01 → workMatmul (s.issueView c) c.ti ((s.tile c.ti).effective c.bits) = .ok w →
    ∃ t, exec (.matmul c) s = .next t ∧ s.Issued t c w) ∧
  (∀ (s : State) (c : TileCmd) (w : Work), s.Takes c 0x02 → workConv (s.issueView c) c.ti ((s.tile c.ti).effective c.bits) = .ok w →
    ∃ t, exec (.conv c) s = .next t ∧ s.Issued t c w) ∧
  (∀ (s : State) (c : TileCmd) (w : Work), s.Takes c 0x07 → workEltwise (s.issueView c) c.ti ((s.tile c.ti).effective c.bits) = .ok w →
    ∃ t, exec (.eltwise c) s = .next t ∧ s.Issued t c w) ∧
  (∀ (s : State) (c : TileCmd) (w : Work), s.Takes c 0x08 → workReduce (s.issueView c) c.ti ((s.tile c.ti).effective c.bits) = .ok w →
    ∃ t, exec (.reduce c) s = .next t ∧ s.Issued t c w) ∧
  ∀ (s : State) (c : TileCmd) (w : Work), s.Takes c 0x0C → workIbuOp (s.issueView c) c.ti ((s.tile c.ti).effective c.bits) = .ok w →
    ∃ t, exec (.ibuOp c) s = .next t ∧ s.Issued t c w

/-- The commands that move data between memory and SRAM issue in the same way (02 R66, 05 R148, R156, R159). Model choices it rests on,
which are no rule of the spec: log 8, 9, 11, 43. -/
def Obligations.TransferCommandsIssue : Prop :=
  (∀ (s : State) (c : TileCmd) (w : Work), s.Takes c 0x03 → workLoad (s.issueView c) c.ti ((s.tile c.ti).effective c.bits) = .ok w →
    ∃ t, exec (.load c) s = .next t ∧ s.Issued t c w) ∧
  (∀ (s : State) (c : TileCmd) (w : Work), s.Takes c 0x04 → workStore (s.issueView c) c.ti ((s.tile c.ti).effective c.bits) = .ok w →
    ∃ t, exec (.store c) s = .next t ∧ s.Issued t c w) ∧
  (∀ (s : State) (c : TileCmd) (w : Work), s.Takes c 0x05 → workGather (s.issueView c) c.ti ((s.tile c.ti).effective c.bits) = .ok w →
    ∃ t, exec (.gather c) s = .next t ∧ s.Issued t c w) ∧
  ∀ (s : State) (c : TileCmd) (w : Work), s.Takes c 0x06 → workScatter (s.issueView c) c.ti ((s.tile c.ti).effective c.bits) = .ok w →
    ∃ t, exec (.scatter c) s = .next t ∧ s.Issued t c w

/-- The attention commands issue in the same way (06 R172, R182, R185). Model choices it rests on, which are no rule of the spec: log 8, 9,
11, 16. -/
def Obligations.AttentionCommandsIssue : Prop :=
  (∀ (s : State) (c : TileCmd) (w : Work), s.Takes c 0x09 → workAttnScore (s.issueView c) c.ti ((s.tile c.ti).effective c.bits) = .ok w →
    ∃ t, exec (.attnScore c) s = .next t ∧ s.Issued t c w) ∧
  (∀ (s : State) (c : TileCmd) (w : Work), s.Takes c 0x0A → workAttnApply (s.issueView c) c.ti ((s.tile c.ti).effective c.bits) = .ok w →
    ∃ t, exec (.attnApply c) s = .next t ∧ s.Issued t c w) ∧
  ∀ (s : State) (c : TileCmd) (w : Work), s.Takes c 0x0B → workKvAppend (s.issueView c) c.ti ((s.tile c.ti).effective c.bits) = .ok w →
    ∃ t, exec (.kvAppend c) s = .next t ∧ s.Issued t c w

/-- SEND, RECV and SYNC issue (02 R72-R74): the packets of a SEND and the arrival of a SYNC are in the mesh, and RECV and SYNC wait for what
their operands name. Model choices it rests on, which are no rule of the spec: log 8, 9, 19. -/
def Obligations.NetworkCommandsIssue : Prop :=
  (∀ (s : State) (c : TileCmd) (w : Work), s.Takes c 0x0D → workSend (s.issueView c) c.ti ((s.tile c.ti).effective c.bits) = .ok w →
    ∃ t, exec (.send c) s = .next t ∧ s.Issued t c w ∧ ∀ p ∈ w.packets, { p with ref := (s.tile c.ti).serial } ∈ t.mesh) ∧
  (∀ (s : State) (c : TileCmd), s.Takes c 0x0E →
    ∃ t, exec (.recv c) s = .next t ∧ s.Issued t c { Work.none with
      waits := .recv (cf c.bits 8 2 % 4096) (remoteOf c.bits 10) (cf c.bits 12 1) (cf c.bits 16 4) }) ∧
  ∀ (s : State) (c : TileCmd), s.Takes c 0x0F →
    ∃ t, exec (.sync c) s = .next t ∧ s.Issued t c { Work.none with waits := .sync ⟨cf c.bits 8 2, cf c.bits 10 2, false⟩ } ∧
      syncPacket s c.ti c.bits ∈ t.mesh

/-- A command whose bytes decode to nothing faults with the cause its check names, in place of issuing (02 R50-R54, R58, R59): the tile is
FAULTED, TIL_FAULT holds the first cause since it was cleared, the units have abandoned their commands, Sage is told, and event 0x20nn is
recorded. Model choices it rests on, which are no rule of the spec: log 5, 8, 37, 38. -/
def Obligations.BadCommandsFault : Prop :=
  ∀ (s : State) (c : TileCmd) (cause : Nat), s.canIssue c.ti = true → s.fetchCause c.ti = none → inWindow (s.tile c.ti).pc = true →
    c.poison = false → decodeCause ((s.tile c.ti).effective c.bits) = some cause →
    (cClass ((s.tile c.ti).effective c.bits) = 0x01 ∨ classCodes.contains (cClass ((s.tile c.ti).effective c.bits)) = false) →
    ∃ t, exec (.matmul c) s = .next t ∧ t.tilState c.ti = tilFaulted ∧
      (s.fld (tileReg c.ti Reg.TIL_FAULT) 31 31 = 0 → t.fld (tileReg c.ti Reg.TIL_FAULT) 7 0 = cause % 256 ∧
        t.fld (tileReg c.ti Reg.TIL_FAULT) 31 31 = 1 ∧ t.reg64 (tileReg c.ti Reg.TIL_FAULT_CMD_LO) = (s.tile c.ti).pc % 2 ^ 48) ∧
      (t.tile c.ti).queue = (s.tile c.ti).queue.filter QEntry.committedInPlace ∧ (t.tile c.ti).segs = [] ∧
      FaultReport.mk c.ti cause (cSlot ((s.tile c.ti).effective c.bits)) ∈ t.sage.faults ∧
      s.Records t (s.record (0x2000 + cause) c.ti ((s.tile c.ti).pc % 2 ^ 32) ((s.tile c.ti).pc / 2 ^ 32 % 2 ^ 16) 0)

/-- HANDOVER (02 R61): it waits at the issue point with the banks, owner and permit it names, and blocks issue; BANK_OWNER_WRITE writes the
owner, and with APPLY the permit, of each named bank that no earlier command reaches, leaves every other bank, and completes the HANDOVER
with its last bank. Model choices it rests on, which are no rule of the spec: log 8. -/
def Obligations.HandoverWritesOwners : Prop :=
  (∀ (s : State) (c : TileCmd), s.Takes c 0x10 →
    ∃ t h, exec (.handover c) s = .next t ∧ (t.tile c.ti).handover = some h ∧ h.banks = BitVec.ofNat 12 (cf c.bits 8 2) ∧
      h.owner = cf c.bits 10 1 % 16 ∧ h.apply = bitOf (cf c.bits 11 1) 1 ∧ h.value = bitOf (cf c.bits 11 1) 0 ∧
      h.setTok = cSet c.bits ∧ (t.tile c.ti).pc = (s.tile c.ti).pc + 64 ∧ t.canIssue c.ti = false ∧
      ∀ e ∈ (t.tile c.ti).queue, e ∈ (s.tile c.ti).queue) ∧
  ∀ (s : State) (ti : Nat) (h : Handover), (s.tile ti).handover = some h →
    ∃ t, exec (.bankOwnerWrite ti) s = .next t ∧
      (∀ b, b < 12 → t.bankOwner ti b =
        if h.banks.getLsbD b = true ∧ (s.tile ti).reaches b = false then h.owner % 16 else s.bankOwner ti b) ∧
      (∀ b, b < 12 → t.stealPermit ti b =
        if h.banks.getLsbD b = true ∧ (s.tile ti).reaches b = false ∧ h.apply = true then h.value else s.stealPermit ti b) ∧
      ((∀ b, b < 12 → h.banks.getLsbD b = true → (s.tile ti).reaches b = false) →
        (t.tile ti).handover = none ∧
        t.reg64 (tileReg ti Reg.TIL_CMD_COUNT_LO) = (s.reg64 (tileReg ti Reg.TIL_CMD_COUNT_LO) + 1) % 2 ^ 64 ∧
        (128 ≤ h.setTok → (t.tokens ti).testBit (h.setTok % 16) = true)) ∧
      ((∃ b, b < 12 ∧ h.banks.getLsbD b = true ∧ (s.tile ti).reaches b = true) →
        ∃ g, (t.tile ti).handover = some g ∧ ∀ b, b < 12 → g.banks.getLsbD b = (h.banks.getLsbD b && (s.tile ti).reaches b)) ∧
      (t.tile ti).queue = (s.tile ti).queue

/-- END (02 R46, R47, R83): with every earlier command complete it ends the segment: the next one starts at its entry with all tokens clear,
and after the last the tile is IDLE. While an earlier command runs, END holds. Model choices it rests on, which are no rule of the spec: log
8. -/
def Obligations.EndStartsTheNextSegment : Prop :=
  (∀ (s : State) (c : TileCmd), s.Takes c 0x1F → (s.tile c.ti).live = [] →
    ∃ t, exec (.end_ c) s = .next t ∧ (t.tile c.ti).segs = (s.tile c.ti).segs.drop 1 ∧ t.tokens c.ti = 0 ∧
      (∀ g r, (s.tile c.ti).segs.drop 1 = g :: r → (t.tile c.ti).pc = g.entry ∧ t.tilState c.ti = tilRunning) ∧
      ((s.tile c.ti).segs.drop 1 = [] → t.tilState c.ti = tilIdle) ∧
      t.reg64 (tileReg c.ti Reg.TIL_CMD_COUNT_LO) = (s.reg64 (tileReg c.ti Reg.TIL_CMD_COUNT_LO) + 1) % 2 ^ 64 ∧
      (t.tile c.ti).queue = (s.tile c.ti).queue.filter (fun e => e.serial ≠ (s.tile c.ti).serial)) ∧
  ∀ (s : State) (c : TileCmd), s.Takes c 0x1F → (s.tile c.ti).live ≠ [] →
    ∃ t, exec (.end_ c) s = .next t ∧ s.RegsOnly t [tileReg c.ti Reg.TIL_STATUS]

/-- COMMAND_COMPLETE (02 R45, R46, R73): the oldest command of a unit with nothing outstanding leaves the queue; its writes and no others
are in SRAM, the count of completed commands goes up, its token is set, and a RECV takes its LEN from the bytes counted. A command that
still waits stays. Model choices it rests on, which are no rule of the spec: log 9. -/
def Obligations.CommandsComplete : Prop :=
  (∀ (s : State) (ti : Nat) (u : UnitId) (e : QEntry), (s.tile ti).readyHead u = some e →
    (e.cls = 0x03 → foreignWord s ti (raeOwner u) e.swrites = none) →
    ∃ t, exec (.commandComplete ti u) s = .next t ∧
      (t.tile ti).queue = (s.tile ti).queue.filter (fun x => x.serial ≠ e.serial) ∧
      t.reg64 (tileReg ti Reg.TIL_CMD_COUNT_LO) = (s.reg64 (tileReg ti Reg.TIL_CMD_COUNT_LO) + 1) % 2 ^ 64 ∧
      (128 ≤ e.setTok → (t.tokens ti).testBit (e.setTok % 16) = true) ∧
      (∀ src fab chan len, e.waits = .recv src fab chan len →
        (t.tile ti).recvCount src fab chan = (s.tile ti).recvCount src fab chan - len) ∧
      (∀ w, w ∉ e.swrites.map SramWrite.word → (t.tile ti).raw ti w = (s.tile ti).raw ti w) ∧
      ∀ x, e.swrites = [x] → x.poison = false → x.mask = BitVec.allOnes 64 →
        (t.tile ti).readWord ti x.word = (.clean, x.data)) ∧
  ∀ (s : State) (ti : Nat) (u : UnitId), (s.tile ti).readyHead u = none → exec (.commandComplete ti u) s = .next s

/-- An inbound write (02 R62, R64, R65, R72): NOC_WRITE joins the ejection queue of a tile whose bank permits it, and is performed in order
by INBOUND_WRITE_PERFORMED: written, acknowledged and counted for RECV, with no other word changed. Model choices it rests on, which are no
rule of the spec: log 42. -/
def Obligations.InboundWritesArrive : Prop :=
  (∀ (s : State) (p : Packet), s.Accepts p → (p.srcKind = 0 → s.crossesSplit (halfOf p.srcId) (halfOf p.dstId) = false) →
    p.addr + p.len ≤ sramBytes → s.stealPermit p.dstId (bankOf p.addr) = true → (s.tile p.dstId).eject.length < 16 →
    ∃ t, exec (.nocWrite p) s = .next t ∧ (t.tile p.dstId).eject = (s.tile p.dstId).eject ++ [⟨p, bankOf p.addr, false⟩] ∧
      t.mesh = s.mesh.erase p ∧ (t.tile p.dstId).sram = (s.tile p.dstId).sram) ∧
  (∀ (s : State) (ti bank : Nat) (x : Inbound), (s.tile ti).eject.find? (fun x => decide (x.bank = bank)) = some x →
    ∃ t, exec (.inboundWritePerformed ti bank) s = .next t ∧ (t.tile ti).eject = (s.tile ti).eject.erase x ∧
      (t.tile ti).recvCount x.pkt.srcId x.pkt.remote x.pkt.chan = (s.tile ti).recvCount x.pkt.srcId x.pkt.remote x.pkt.chan + x.pkt.len ∧
      t.mesh = s.mesh ++ [replyOf x.pkt true] ∧
      (∀ w, w ∉ (inboundWrites x.pkt).map SramWrite.word → (t.tile ti).raw ti w = (s.tile ti).raw ti w) ∧
      (x.waited = true → s.Counted t (tileReg ti Reg.TIL_STEAL_WAIT) 1) ∧
      s.RegsFrame t [tileReg ti Reg.TIL_STEAL_WAIT]) ∧
  ∀ (s : State) (ti : Nat) (x : Inbound) (r : List Inbound), (s.tile ti).eject = x :: r →
    ∃ t, exec (.stealStarved ti) s = .next t ∧ (t.tile ti).eject = { x with waited := true } :: r ∧ (t.tile ti).starved = true ∧
      s.Counted t (tileReg ti (Reg.TIL_CONFL + min (s.bankOwner ti x.bank) 8)) 1 ∧
      ((s.tile ti).starved = false → s.Records t (s.record 0x2020 ti x.bank (x.pkt.addr % 2 ^ 32) 0)) ∧
      ((s.tile ti).starved = true → t.evt = s.evt)

/-- A write that a tile refuses changes nothing in its SRAM (02 R62, R72, R75): one to a bank whose permit is clear is counted in
TIL_STEAL_REFUSED, answered by a NACK and faults the tile with STEAL_DENIED; one past the SRAM is counted and answered by a NACK; one of
another round is counted in TIL_STALE_DROP and acknowledged. Model choices it rests on, which are no rule of the spec: log 20, 38. -/
def Obligations.RefusedWritesChangeNothing : Prop :=
  (∀ (s : State) (p : Packet), s.Accepts p → (p.srcKind = 0 → s.crossesSplit (halfOf p.srcId) (halfOf p.dstId) = false) →
    p.addr + p.len ≤ sramBytes → s.stealPermit p.dstId (bankOf p.addr) = false →
    ∃ t, exec (.nocWrite p) s = .next t ∧ s.Counted t (tileReg p.dstId Reg.TIL_STEAL_REFUSED) 1 ∧ replyOf p false ∈ t.mesh ∧
      t.tilState p.dstId = tilFaulted ∧ FaultReport.mk p.dstId cStealDenied 0 ∈ t.sage.faults ∧
      (t.tile p.dstId).sram = (s.tile p.dstId).sram) ∧
  (∀ (s : State) (p : Packet), s.Accepts p → (p.srcKind = 0 → s.crossesSplit (halfOf p.srcId) (halfOf p.dstId) = false) →
    sramBytes < p.addr + p.len →
    ∃ t, exec (.nocWrite p) s = .next t ∧ s.Counted t (tileReg p.dstId Reg.TIL_STEAL_REFUSED) 1 ∧ replyOf p false ∈ t.mesh ∧
      (t.tile p.dstId).sram = (s.tile p.dstId).sram ∧ t.tilState p.dstId = s.tilState p.dstId) ∧
  ∀ (s : State) (p : Packet), s.detained p.dstId = false → s.usable p.dstId = true →
    (p.srcKind = 0 → s.crossesSplit (halfOf p.srcId) (halfOf p.dstId) = false) → stale s p = true →
    ∃ t, exec (.nocWrite p) s = .next t ∧ s.Counted t (tileReg p.dstId Reg.TIL_STALE_DROP) 1 ∧ replyOf p true ∈ t.mesh ∧
      (t.tile p.dstId).sram = (s.tile p.dstId).sram ∧ (t.tile p.dstId).eject = (s.tile p.dstId).eject

/-- SYNC (02 R74): an arrival that fills its group at the coordinator releases every member and clears the group; one that does not is
counted; and a release frees the oldest SYNC of its group. -/
def Obligations.GroupsSynchronise : Prop :=
  (∀ (s : State) (p : Packet) (n : Nat) (old : SyncArr), s.Accepts p → (s.tile p.dstId).syncNeed p.addr = some n →
    ((s.tile p.dstId).syncs.find? (fun a => a.group = p.addr)).getD ⟨p.addr, []⟩ = old → n ≤ old.members.length + 1 →
    ∃ t, exec (.syncArrival p) s = .next t ∧ (t.tile p.dstId).syncs.find? (fun a => a.group = p.addr) = none ∧
      ∀ r ∈ syncReleases s p.dstId p.addr (old.members ++ [(p.srcId, p.remote)]), r ∈ t.mesh) ∧
  (∀ (s : State) (p : Packet) (old : SyncArr), s.Accepts p →
    ((s.tile p.dstId).syncs.find? (fun a => a.group = p.addr)).getD ⟨p.addr, []⟩ = old →
    (∀ n, (s.tile p.dstId).syncNeed p.addr = some n → old.members.length + 1 < n) →
    ∃ t, exec (.syncArrival p) s = .next t ∧ t.mesh = s.mesh.erase p ∧
      (t.tile p.dstId).syncs.find? (fun a => a.group = p.addr) = some ⟨p.addr, old.members ++ [(p.srcId, p.remote)]⟩) ∧
  ∀ (s : State) (p : Packet) (e : QEntry) (w : SyncWait), s.Accepts p → (s.tile p.dstId).queue.find? (fun e =>
      match e.waits with
      | .sync w => decide (w.group = p.addr) && !w.released
      | _ => false) = some e → e.waits = .sync w →
    ∃ t, exec (.syncRelease p) s = .next t ∧ { e with waits := .sync { w with released := true } } ∈ (t.tile p.dstId).queue ∧
      (t.tile p.dstId).queue.length = (s.tile p.dstId).queue.length ∧ t.mesh = s.mesh.erase p

/-- The answers that reach a unit (02 R45, R67, R72, 05 R145): a WRITE_ACK and a packet of READ_DATA for a run-ahead engine each take one
request from what their command waits for, READ_DATA with the words of its elements and no others in SRAM; a NACK faults the tile with
SEND_REFUSED for a SEND and with TRANSLATION else. Model choices it rests on, which are no rule of the spec: log 11. -/
def Obligations.AnswersReachTheirCommands : Prop :=
  (∀ (s : State) (p : Packet) (e : QEntry), p.dstKind ≠ 3 → (s.tile p.dstId).entry? p.ref = some e →
    ∃ t, exec (.writeAck p) s = .next t ∧ { e with outstanding := e.outstanding - 1 } ∈ (t.tile p.dstId).queue ∧
      t.mesh = s.mesh.erase p ∧ (t.tile p.dstId).sram = (s.tile p.dstId).sram) ∧
  (∀ (s : State) (p : Packet) (e : QEntry), (s.tile p.dstId).entry? p.ref = some e → e.cls = 0x03 →
    e.unsent.length < e.outstanding → foreignWord s p.dstId (raeOwner e.unit) (loadWrites p e.loads) = none →
    ∃ t f, exec (.raeReadData p) s = .next t ∧ f ∈ (t.tile p.dstId).queue ∧ f.serial = e.serial ∧ f.outstanding = e.outstanding - 1 ∧
      ∀ w, w ∉ (loadWrites p e.loads).map SramWrite.word → (t.tile p.dstId).raw p.dstId w = (s.tile p.dstId).raw p.dstId w) ∧
  (∀ (s : State) (p : Packet) (e : QEntry), p.dstKind ≠ 3 → (s.tile p.dstId).entry? p.ref = some e →
    ∃ t, exec (.nocNack p) s = .next t ∧ t.tilState p.dstId = tilFaulted ∧
      FaultReport.mk p.dstId (if e.cls = 0x0D then cSendRefused else cTranslation) e.slot ∈ t.sage.faults) ∧
  (∀ (s : State) (p : Packet), p.crcBad = false → exec (.readData p) s = .next { s with mesh := s.mesh.erase p }) ∧
  (∀ (s : State) (p : Packet), p.crcBad = true →
    ∃ t, exec (.readData p) s = .next t ∧ t.mesh = s.mesh.erase p ∧ s.Counted t (tileReg (routerOf p) Reg.INT_NOC_CRC) 1) ∧
  ∀ (s : State) (p : Packet), p ∈ s.mesh → p.escape = false →
    ∃ t, exec (.escapeChannelMove p) s = .next t ∧ { p with escape := true } ∈ t.mesh ∧ p ∉ t.mesh ∧ t.mesh.length = s.mesh.length ∧
      t = { s with mesh := t.mesh }

/-! ## Memory -/

/-- The maps of the memory tiers lose no address: two slice offsets with one layer, pair and place within it are equal, in either mode of
their group (07 R202), and two stack-tier addresses with one location are equal (08 R238). -/
def Obligations.MemoryMapsAreOneToOne : Prop :=
  (∀ stripe o p : Nat, o < sliceBytes → p < sliceBytes → sliceMap o stripe = sliceMap p stripe → o = p) ∧
  ∀ a b : Nat, a < 2 ^ 40 → b < 2 ^ 40 → stackMap a = stackMap b → a = b

/-- A bonded controller (07 R204-R207, R213, R222): it answers a read with the data of its granules and changes no slice; a write of one
whole granule is read back, changes no other granule and is accepted; and a request for a pair on which an in-bank unit runs a step waits
and is counted in BDM_SB_WAIT. Model choices it rests on, which are no rule of the spec: log 11. -/
def Obligations.BondedControllersServe : Prop :=
  (∀ (s : State) (p : Packet), s.BondedServes p →
    ∃ t, exec (.memRead p) s = .next t ∧ s.AnswersRead t p ∧ s.SameSlices t ∧ t.stm.mem = s.stm.mem) ∧
  (∀ (s : State) (p : Packet) (x : Piece), s.BondedServes p → packetMem p = .own → p.pieces = [x] → x.poison = false →
    x.mask = BitVec.allOnes 256 →
    ∃ t, exec (.memWrite p) s = .next t ∧ t.readCoded p.dstId .own (p.addr / 32 * 32 + 32 * x.idx) = (.clean, x.data) ∧
      (∀ ti k, ti ≠ p.dstId ∨ k ≠ sliceGranule (p.addr / 32 * 32 + 32 * x.idx) (s.stripe p.dstId) → t.rawGranule ti k = s.rawGranule ti k) ∧
      s.Accepted t p) ∧
  ∀ (s : State) (p : Packet), p.dstKind ≠ 1 → s.usable p.dstId = true → s.bdmHeld p.dstId = false → p.adopted = false →
    (s.tile p.dstId).pairBusy (s.packetPair p).1 (s.packetPair p).2 = true →
    ∃ t, exec (.memRead p) s = .next t ∧ { p with ptype := .memRead } ∈ (t.tile p.dstId).waiting ∧
      s.Counted t (tileReg p.dstId Reg.BDM_SB_WAIT) 1 ∧ s.SameSlices t

/-- A stack controller (08 R240, R242, R245): it answers a read with the buffer's bytes over the stack's; a write of a whole block goes
straight to the stack, where each of its granules reads back, with no other block changed; and an access that waits for a partition's bucket
is served when TOKEN_BUCKET_REFILL reaches it. Model choices it rests on, which are no rule of the spec: log 11, 18, 53. -/
def Obligations.StackControllersServe : Prop :=
  (∀ (s : State) (p : Packet), s.StackServes p →
    ∃ t, exec (.memRead p) s = .next t ∧ s.AnswersRead t p ∧ t.stm.mem = s.stm.mem ∧ t.stm.wcb = s.stm.wcb) ∧
  (∀ (s : State) (p : Packet), s.StackServes p → wholeBlock p = true → (∀ x ∈ p.pieces, x.idx < 8) →
    (p.pieces.map Piece.idx).Nodup →
    ∃ t, exec (.memWrite p) s = .next t ∧
      (∀ x ∈ p.pieces, x.poison = false → t.readGran p.srcId .stack (p.addr + 32 * x.idx) = (x.data, false)) ∧
      (∀ x ∈ p.pieces, x.poison = true → (t.readGran p.srcId .stack (p.addr + 32 * x.idx)).2 = true) ∧
      (∀ k, k / 8 ≠ p.addr / 256 → t.rawStack k = s.rawStack k) ∧ s.Accepted t p) ∧
  ∀ (s : State) (p : Packet) (part : Nat), s.fld (Reg.STM_STACK_STATUS + p.dstId) 2 0 ≠ stkLoopback →
    s.stm.waiting.find? (fun q => decide (q.dstId = p.dstId) && decide (s.partOf q.srcId = part)) = some p → p.ptype = .memRead →
    p.dstKind = 1 →
    ∃ t, exec (.tokenBucketRefill p.dstId part (stackHalf p.dstId)) s = .next t ∧ t.stm.waiting = s.stm.waiting.erase p ∧
      s.AnswersRead t p ∧ t.stm.mem = s.stm.mem

/-- The write-combining buffer (08 R240-R242): a partial write enters it with its bytes valid, the stack unchanged, and a read of the
granule gives those bytes over the stack's; WCB_LINE_TIMEOUT writes out the line of its stack and block, and WCB_FLUSH every line, and
neither changes a block that had no line. Model choices it rests on, which are no rule of the spec: log 17, 53. -/
def Obligations.PartialWritesCombine : Prop :=
  (∀ (s : State) (p : Packet) (x : Piece), s.StackServes p → p.pieces = [x] → x.poison = false → byteWhole x.mask = true →
    x.idx + p.addr / 32 % 8 < 8 → s.wcbLine (p.addr / 256) = none →
    (s.stm.wcb.filter (fun l => l.stack = (stackMap p.addr).stack)).length < 1024 →
    ∃ t, exec (.memWrite p) s = .next t ∧ t.stm.mem = s.stm.mem ∧ (t.wcbLine (p.addr / 256)).isSome = true ∧ s.Accepted t p ∧
      (t.readGran p.srcId .stack (p.addr / 32 * 32 + 32 * x.idx)).1 =
        ((s.readCoded p.srcId .stack (p.addr / 32 * 32 + 32 * x.idx)).2 &&& ~~~x.mask) ||| (x.data &&& x.mask)) ∧
  (∀ (s : State) (stack block : Nat) (l : WcbLine), s.wcbLine block = some l → l.stack = stack →
    ∃ t, exec (.wcbLineTimeout stack block) s = .next t ∧ t.wcbLine block = none ∧
      (∀ b, b ≠ block → t.wcbLine b = s.wcbLine b) ∧ ∀ k, k / 8 ≠ block → t.rawStack k = s.rawStack k) ∧
  ∀ s : State, ∃ t, exec .wcbFlush s = .next t ∧ t.stm.wcb = [] ∧ ∀ k, s.wcbLine (k / 8) = none → t.rawStack k = s.rawStack k

/-- Refresh and temperature (07 R208, 08 R248): a refresh moves to the next row, of 512 in a bank of a layer and 16,384 in a stack's, and
changes nothing else; a bonded one waits for an in-bank unit's step. Above 85 C a region or a stack is marked hot, with event 0x2406 or
0x0B0A, and it stays hot until it has been below 83 C for 100 ms. Model choices it rests on, which are no rule of the spec: log 48, 53. -/
def Obligations.RefreshFollowsTemperature : Prop :=
  (∀ (s : State) (ti layer bank : Nat), (s.tile ti).pairBusy layer (bank / 2) = false →
    exec (.bondedRefresh ti layer bank) s = .next (s.modTile ti (fun t => { t with
      refreshRow := SMap.put t.refreshRow (layer * 16 + bank) ((SMap.getD t.refreshRow (layer * 16 + bank) 0 + 1) % 512) }))) ∧
  (∀ (s : State) (stack bank : Nat),
    ∃ t, exec (.stackRefresh stack bank) s = .next t ∧ t = { s with stm := { s.stm with refreshPos := t.stm.refreshPos } } ∧
      ∀ k, SMap.getD t.stm.refreshPos k 0 =
        if k = stack * 4096 + bank then (SMap.getD s.stm.refreshPos k 0 + 1) % 16384 else SMap.getD s.stm.refreshPos k 0) ∧
  (∀ (s : State) (ti layer : Nat) (temp : Int), layer < 8 → 850 < temp →
    ∃ t, exec (.refreshIntervalChange ti layer temp) s = .next t ∧
      t.fld (tileReg ti Reg.BDM_STATUS) (24 + layer) (24 + layer) = 1 ∧ SMap.get? (t.tile ti).coolSince layer = none ∧
      (s.fld (tileReg ti Reg.BDM_STATUS) (24 + layer) (24 + layer) = 0 → s.Records t (s.record 0x2406 ti layer 1 (tempParam temp)))) ∧
  (∀ (s : State) (ti layer t0 : Nat) (temp : Int), layer < 8 → temp < 830 →
    s.fld (tileReg ti Reg.BDM_STATUS) (24 + layer) (24 + layer) = 1 → SMap.get? (s.tile ti).coolSince layer = some t0 →
    ∃ t, exec (.refreshIntervalChange ti layer temp) s = .next t ∧
      t.fld (tileReg ti Reg.BDM_STATUS) (24 + layer) (24 + layer) = (if t0 + 100000000 ≤ s.now then 0 else 1) ∧
      (t0 + 100000000 ≤ s.now → s.Records t (s.record 0x2406 ti layer 0 (tempParam temp)))) ∧
  ∀ (s : State) (stack : Nat) (temp : Int), stack < 16 → 85 < temp →
    ∃ t, exec (.stackTempRead stack temp) s = .next t ∧ t.fld (Reg.STM_STACK_STATUS + stack) 31 31 = 1 ∧
      t.fld (Reg.STM_STACK_STATUS + stack) 23 16 = min temp.toNat 255 ∧
      (s.fld (Reg.STM_STACK_STATUS + stack) 31 31 = 0 → s.Records t (s.record 0x0B0A stack 1 (tempParam temp) 0)) ∧
      s.RegsFrame t ([Reg.STM_STACK_STATUS + stack] ++ eventRegs)

/-- The tools of the stack tier (08 R254, R255, R260): in the life-cycle states that permit diagnostics HPPR_ARM converts the listed soft
repairs into fused repairs, and START puts a READY stack into LOOPBACK until LOOPBACK_DONE reports the failing lanes and makes it READY; in
any other state both are refused and logged. Model choices it rests on, which are no rule of the spec: log 78, 98. -/
def Obligations.StackToolsRunInDiagnosticStates : Prop :=
  (∀ (s : State) (v : Word), v.getLsbD 1 = true → s.diagnosing = true →
    ∃ t, exec (.hpprArm v) s = .next t ∧ t.fld Reg.STM_CTRL 1 1 = 1 ∧ s.RegsFrame t [Reg.STM_CTRL] ∧
      ∀ r, r ∈ t.stm.fusedRows ↔ r ∈ s.stm.fusedRows ∨ ∃ e ∈ s.stm.retired, e.kind = 2 ∧ r = (e.stack, e.chan, e.loc, e.row)) ∧
  (∀ (s : State) (v : Word), v.getLsbD 31 = true → s.diagnosing = true → s.fld Reg.STM_LOOPBACK 1 0 ≠ 1 →
    s.fld (Reg.STM_STACK_STATUS + getBits v 7 4) 2 0 = stkReady →
    ∃ t, exec (.loopbackStart v) s = .next t ∧ t.fld Reg.STM_LOOPBACK 1 0 = 1 ∧ t.fld Reg.STM_LOOPBACK 7 4 = getBits v 7 4 ∧
      t.fld (Reg.STM_STACK_STATUS + getBits v 7 4) 2 0 = stkLoopback ∧
      s.RegsOnly t [Reg.STM_LOOPBACK, Reg.STM_STACK_STATUS + getBits v 7 4]) ∧
  (∀ (s : State) (n : Nat), s.fld Reg.STM_LOOPBACK 1 0 = 1 → s.stm.waiting = [] →
    ∃ t, exec (.loopbackDone n) s = .next t ∧ t.fld Reg.STM_LOOPBACK 1 0 = (if n = 0 then 2 else 3) ∧
      t.fld Reg.STM_LOOPBACK 23 16 = min n 255 ∧ t.fld (Reg.STM_STACK_STATUS + s.fld Reg.STM_LOOPBACK 7 4) 2 0 = stkReady ∧
      s.RegsOnly t [Reg.STM_LOOPBACK, Reg.STM_STACK_STATUS + s.fld Reg.STM_LOOPBACK 7 4]) ∧
  ∀ (s : State) (v : Word), v.getLsbD 1 = true → v.getLsbD 31 = true → s.diagnosing = false →
    exec (.hpprArm v) s = .next (refuse s Reg.STM_CTRL stRefused) ∧ exec (.loopbackStart v) s = .next (refuse s Reg.STM_LOOPBACK stRefused)

/-- The scrubber and the supervisor's steps (09 R274, R275, R281, Table 9.8): a scrub access goes on to the next word or granule and writes
a word that reads corrected back with new check bits; a step on an entry whose word passes its test takes the entry from the list, and on
one whose word fails it schedules a soft spare for its row. Model choices it rests on, which are no rule of the spec: log 47, 53, 119. -/
def Obligations.ScrubbingAndHandlingAdvance : Prop :=
  (∀ (s : State) (ti : Nat), s.fld Reg.PWR_STATUS 2 0 = 3 → s.usable ti = true → s.ctl.untrained.contains ti = false →
    s.fld (tileReg ti Reg.INT_SCRUB_SRAM_POS) 17 0 + 1 < sramWords →
    ∃ t, exec (.scrubAccess false ti true) s = .next t ∧
      t.fld (tileReg ti Reg.INT_SCRUB_SRAM_POS) 17 0 = s.fld (tileReg ti Reg.INT_SCRUB_SRAM_POS) 17 0 + 1 ∧
      (∀ w, w ≠ s.fld (tileReg ti Reg.INT_SCRUB_SRAM_POS) 17 0 → (t.tile ti).raw ti w = (s.tile ti).raw ti w) ∧
      ∀ i d, (s.tile ti).lineWritten (s.fld (tileReg ti Reg.INT_SCRUB_SRAM_POS) 17 0) = true →
        (s.tile ti).readWord ti (s.fld (tileReg ti Reg.INT_SCRUB_SRAM_POS) 17 0) = (.dataCorrected i, d) →
        (t.tile ti).readWord ti (s.fld (tileReg ti Reg.INT_SCRUB_SRAM_POS) 17 0) = (.clean, d)) ∧
  (∀ (s : State) (stack : Nat) (sram : Bool), s.fld Reg.PWR_STATUS 2 0 = 3 →
    ∃ t, exec (.scrubAccess true stack sram) s = .next t ∧
      SMap.getD t.stm.scrubPos stack 0 = (SMap.getD s.stm.scrubPos stack 0 + 1) % 2 ^ 31) ∧
  (∀ (s : State) (e : PendEntry) (r : List PendEntry), s.sup.overflowResetW = false → s.sup.overflowResetE = false →
    s.sup.list = e :: r → e.code = 0x2602 →
    ∃ t, exec (.pendingEntryStep true) s = .next t ∧ t.sup.list = (e :: r).filter (fun x => decide (x.seq ≠ e.seq)) ∧
      t = { s with sup := t.sup }) ∧
  ∀ (s : State) (e : PendEntry) (r : List PendEntry), s.sup.overflowResetW = false → s.sup.overflowResetE = false →
    s.sup.list = e :: r → e.code = 0x2602 →
    ∃ t, exec (.pendingEntryStep false) s = .next t ∧ t.sup.list = (e :: r).filter (fun x => decide (x.seq ≠ e.seq)) ∧
      (0, bankOf (8 * (e.p0 / 8)), Config.sramRow (e.p0 / 8)) ∈ (t.tile e.source).pendingSpares ∧ t.regs = s.regs

/-- A step of an in-bank unit (07 R213-R216): the oldest operation that runs on the pair has one step fewer to go there, IBU_STEPS counts
it, no other tile's slice changes, and the accesses that waited for the pair are served. Model choices it rests on, which are no rule of the
spec: log 53. -/
def Obligations.InBankUnitsStep : Prop :=
  ∀ (s : State) (ti layer pair : Nat) (e : QEntry) (f : IbuFields) (left : List (Nat × Nat)),
    (s.tile ti).queue.find? (fun e => e.runsOn layer pair) = some e → e.waits = .ibu f left true →
    ∃ t, exec (.ibuStepDone ti layer pair) s = .next t ∧
      (∃ g left', g ∈ (t.tile ti).queue ∧ g.serial = e.serial ∧ g.waits = .ibu f left' true ∧
        ∀ q n, (q, n) ∈ left' ↔ n ≠ 0 ∧ ∃ m, (q, m) ∈ left ∧ n = if q = pair then m - 1 else m) ∧
      ((s.tile ti).waiting = [] → ∀ tj k, tj ≠ ti → t.rawGranule tj k = s.rawGranule tj k) ∧
      t.reg64 (tileReg ti Reg.IBU_STEPS_LO) = (s.reg64 (tileReg ti Reg.IBU_STEPS_LO) + 1) % 2 ^ 64 ∧
      ∀ p ∈ (t.tile ti).waiting, ¬(p.adopted = false ∧ t.packetPair p = (layer, pair))

/-- A write of a COUNT_CLR register of a usable tile's page clears the counts its row lists to their reset values, and changes nothing else
(02 R82, 03 R114, 05 R162, 06 R194, 07 R225, R231, 09 R283); LAY_XLT_FLUSH empties the translation cache (05 R147) and BDM_CUT_CLR the cut
list (07 R223). On the page of a tile that is not usable the write is refused and logged (00 R16). -/
def Obligations.TileCountersClear : Prop :=
  ∀ (s : State) (ti : Nat), s.usable ti = true →
    (∀ (c : Instr) (l : List Nat), (c, l) ∈ [
        (Instr.tilCountClr ti, tileRange ti Reg.TIL_CONFL 9 ++ tileRange ti Reg.TIL_STEAL_WAIT 3),
        (.mxaCountClr ti, tileRange ti Reg.MXA_PASS_COUNT_LO 8), (.layCountClr ti, tileRange ti Reg.LAY_OOB_READS 5),
        (.atnCountClr ti, tileRange ti Reg.ATN_PAGES_VISITED 6), (.bdmCountClr ti, tileRange ti Reg.BDM_CE_COUNT 4),
        (.ibuCountClr ti, tileRange ti Reg.IBU_STEPS_LO 4), (.intCountClr ti, tileRange ti Reg.INT_SRAM_CE 6)] →
      ∃ t, exec c s = .next t ∧ s.RegsOnly t l ∧ ∀ a ∈ l, t.reg a = resetOf a) ∧
    (∃ t, exec (.layXltFlush ti) s = .next t ∧ (t.tile ti).xlt = [] ∧ t = s.modTile ti (fun x => { x with xlt := [] })) ∧
    ∃ t, exec (.bdmCutClr ti) s = .next t ∧ (t.tile ti).cut = [] ∧ t = s.modTile ti (fun x => { x with cut := [] })

/-- The COUNT_CLR registers outside the tile pages clear the counts their rows list, and change nothing else (08 R256, 10 Table 10.6, 11
Tables 11.17 and 11.18, 12 Table 12.15, 13 R402). -/
def Obligations.ModuleCountersClear : Prop :=
  ∀ (s : State) (c : Instr) (l : List Nat), (c, l) ∈ [
      (Instr.stmCountClr, Reg.STM_WCB_RMW :: regRange Reg.STM_CE_COUNT 32), (.admCountClr, regRange Reg.ADM_ACCEPTED 5),
      (.sesCountClr, regRange Reg.SES_OPEN_REFUSED 4), (.netCountClr, regRange Reg.NET_RX_DISCARD 8),
      (.fabCountClr, regRange Reg.FAB_PORT_REPLAY 36), (.hlkCountClr, [Reg.HLK_REPLAYS])] →
    ∃ t, exec c s = .next t ∧ s.RegsOnly t l ∧ ∀ a ∈ l, t.reg a = resetOf a

/-! ## Clients -/

/-- HELLO (11 R328, R329): a HELLO without a token from a new endpoint makes a peer with an identifier of its own, event 0x0701, and is
answered ACCEPTED with the floor-plan epoch, the round length, the module and the round; one whose body is not as its TOKEN_LEN says is
answered BAD_MESSAGE and leaves the peers as they are. Model choices it rests on, which are no rule of the spec: log 2, 52, 58. -/
def Obligations.HelloMakesAPeer : Prop :=
  (∀ (s : State) (d : Datagram), d.dtype = 1 → respOf d = false → d.peerId = 0xFFFF → d.cookie = 0 → d.port < 4 →
    s.fld (Reg.NET_PORT_STATUS + d.port) 2 0 = 3 → s.opened = true → badDg d = false → d.frag = 0 → lastOf d = true →
    d.body = [0, 0, 0, 0] → s.peerAt d.ip d.udp = none → s.client.peers.length < 4096 → 80 < s.fld Reg.NET_MTU 13 0 →
    ∃ t p, exec (.hello d) s = .next t ∧ t.peer? p.id = some p ∧ (∀ q ∈ s.client.peers, q.id ≠ p.id) ∧
      t.client.peers.length = s.client.peers.length + 1 ∧ p.ip = d.ip ∧ p.udp = d.udp ∧ p.port = d.port ∧ p.operator = false ∧
      p.rcvNext = seqAdd d.seq 1 ∧ s.Records t (s.record 0x0701 0 p.id d.port 0) ∧
      t.Sends p.id 1 true (beBytes 2 stAccepted ++ [0, 0] ++ beBytes 4 s.plan.epoch ++ beBytes 4 (s.fld Reg.ADM_ROUND_LEN 15 0) ++
        beBytes 8 Config.moduleId.toNat ++ beBytes 8 s.round ++ beBytes 2 (s.fld Reg.FAB_ADDR 13 0) ++ [0, 0])) ∧
  ∀ (s : State) (d : Datagram), d.dtype = 1 → respOf d = false → d.peerId = 0xFFFF → d.cookie = 0 → d.port < 4 →
    s.fld (Reg.NET_PORT_STATUS + d.port) 2 0 = 3 → s.opened = true → badDg d = false → d.frag = 0 → lastOf d = true →
    d.body.length ≠ 4 + beAt d.body 0 2 →
    ∃ t, exec (.hello d) s = .next t ∧ t.client = s.client ∧ t = { s with out := t.out } ∧
      ∃ x, t.out = s.out ++ [.client x] ∧ x.dtype = 1 ∧ x.response = true ∧ x.peerId = 0xFFFF ∧ x.body.take 2 = beBytes 2 stBadMessage

/-- OPEN (11 R333): with a valid token, a loaded model and a free session it makes a session, opened on the sender, of the token's partition
and class mask; with an invalid token it is refused NOT_AUTHORISED, counted in SES_OPEN_REFUSED and recorded as 0x0704. Model choices it
rests on, which are no rule of the spec: log 2, 24, 58. -/
def Obligations.OpenMakesASession : Prop :=
  (∀ (s : State) (p : Peer) (d : Datagram) (m : Model) (s1 : State), s.Hears p d → d.dtype = 2 → respOf d = false →
    d.body.length = 448 → beAt d.body 8 2 = 0 → beAt d.body 4 4 ≠ 0 → beAt d.body 4 4 ≤ m.pkg.maxContext → m.pkg.maxContext ≤ 4194304 →
    ((tokenOf (d.body.drop 16)).maxContext = 0 ∨ beAt d.body 4 4 ≤ (tokenOf (d.body.drop 16)).maxContext) →
    (s.heard p d).fuses.lifeCycle ≠ 4 → (s.heard p d).tokenValid (d.body.drop 16) = true →
    ((tokenOf (d.body.drop 16)).model = 0 ∨ (tokenOf (d.body.drop 16)).model = beAt d.body 0 4) →
    (s.heard p d).model? (beAt d.body 0 4) = some m → m.paused = false → (s.heard p d).client.sessions.length < 16384 →
    openSeqs (s.heard p d).takeFree.2 (beAt d.body 0 4)
      (pickUnused 16384 (s.heard p d).takeFree.1.toNat ((s.heard p d).client.sessions.map (·.id))) ((beAt d.body 4 4 + 63) / 64) m.pkg.kv =
      some s1 →
    ∃ t x, exec (.open_ d) s = .next t ∧ x ∈ t.client.sessions ∧ (∀ y ∈ (s.heard p d).client.sessions, y.id ≠ x.id) ∧
      x.state = .opened ∧ x.peer = some p.id ∧ x.model = beAt d.body 0 4 ∧ x.partition = (tokenOf (d.body.drop 16)).partition ∧
      x.classMask = (tokenOf (d.body.drop 16)).classMask ∧ x.maxContext = beAt d.body 4 4 ∧ x.committed = 0 ∧ x.request = none) ∧
  ∀ (s : State) (p : Peer) (d : Datagram), s.Hears p d → d.dtype = 2 → respOf d = false → s.Fits p →
    d.body.length = 448 → beAt d.body 8 2 = 0 → beAt d.body 4 4 ≤ 4194304 → (s.heard p d).tokenValid (d.body.drop 16) = false →
    ∃ t, exec (.open_ d) s = .next t ∧ (s.heard p d).Counted t Reg.SES_OPEN_REFUSED 1 ∧
      (s.heard p d).Records t ((s.heard p d).record 0x0704 0 stNotAuthorised ((tokenOf (d.body.drop 16)).tokenId % 2 ^ 32) (beAt d.body 0 4)) ∧
      t.client.sessions = (s.heard p d).client.sessions ∧
      t.Sends p.id 2 true (beBytes 2 stNotAuthorised ++ List.replicate 14 0)

/-- SUBMIT (10 R307, 11 R337): a request that R337 does not refuse and whose every step Sage places is ACCEPTED with its first and last
deadline rounds, and its session holds it; one that finds no place is answered REFUSED_CAPACITY, counted, and leaves session and plan as
they are. Model choices it rests on, which are no rule of the spec: log 23, 24, 51, 58. -/
def Obligations.SubmitAdmitsOrRefuses : Prop :=
  (∀ (s : State) (p : Peer) (d : Datagram) (x : Session) (m : Model) (steps l : List ReqStep) (s1 : State), s.Hears p d → d.dtype = 3 →
    respOf d = false → s.Fits p → 48 ≤ d.body.length → d.body.length = 48 + 4 * beAt d.body 8 4 →
    (s.heard p d).session? (beAt d.body 0 2) = some x → (s.heard p d).model? x.model = some m →
    submitRefusal (s.heard p d) p.id x (beAt d.body 2 1) (beAt d.body 3 1) (beAt d.body 8 4) (beAt d.body 12 4) m.pkg.kinds m.paused = none →
    expand m.pkg.kinds (beAt d.body 3 1) (beAt d.body 8 4) (beAt d.body 12 4) (s.heard p d).acceptRound
      ((s.heard p d).classFirst (beAt d.body 2 1)) ((s.heard p d).classStep (beAt d.body 2 1)) x.committed = some steps →
    (s.heard p d).ensBroken x.model = false → (∀ st ∈ steps, st.deadline ≤ (s.heard p d).acceptRound + 16384) →
    (s.heard p d).admits = true → (s.heard p d).leadsModel x.model = none → (s.heard p d).sage.inResetW = false →
    (s.heard p d).sage.inResetE = false →
    (s.heard p d).placeAll ((s.heard p d).fld Reg.ADM_MARGIN 5 0) x (beAt d.body 4 4) (s.heard p d).acceptRound steps = some (s1, l) →
    ∃ t y q first last, exec (.submit d) s = .next t ∧ t.session? x.id = some y ∧ y.request = some q ∧ q.reqId = beAt d.body 4 4 ∧
      q.steps = l ∧ t.sage = s1.sage ∧ (s.heard p d).Counted t Reg.ADM_ACCEPTED 1 ∧
      t.Sends p.id 3 true (beBytes 2 stAccepted ++ [0, 0] ++ beBytes 4 (beAt d.body 4 4) ++ beBytes 8 first ++ beBytes 8 last)) ∧
  (∀ (s : State) (p : Peer) (d : Datagram) (x : Session) (m : Model) (steps : List ReqStep), s.Hears p d → d.dtype = 3 →
    respOf d = false → s.Fits p → 48 ≤ d.body.length → d.body.length = 48 + 4 * beAt d.body 8 4 →
    (s.heard p d).session? (beAt d.body 0 2) = some x → (s.heard p d).model? x.model = some m →
    submitRefusal (s.heard p d) p.id x (beAt d.body 2 1) (beAt d.body 3 1) (beAt d.body 8 4) (beAt d.body 12 4) m.pkg.kinds m.paused = none →
    expand m.pkg.kinds (beAt d.body 3 1) (beAt d.body 8 4) (beAt d.body 12 4) (s.heard p d).acceptRound
      ((s.heard p d).classFirst (beAt d.body 2 1)) ((s.heard p d).classStep (beAt d.body 2 1)) x.committed = some steps →
    (s.heard p d).ensBroken x.model = false → (∀ st ∈ steps, st.deadline ≤ (s.heard p d).acceptRound + 16384) →
    (s.heard p d).placeAll ((s.heard p d).fld Reg.ADM_MARGIN 5 0) x (beAt d.body 4 4) (s.heard p d).acceptRound steps = none →
    ∃ t, exec (.submit d) s = .next t ∧ t.sage = (s.heard p d).sage ∧ t.client.sessions = (s.heard p d).client.sessions ∧
      (s.heard p d).Counted t Reg.ADM_REFUSED_CAP 1 ∧
      t.Sends p.id 3 true (beBytes 2 stRefusedCapacity ++ [0, 0] ++ beBytes 4 (beAt d.body 4 4) ++ List.replicate 16 0)) ∧
  ∀ (s : State) (p : Peer) (d : Datagram), s.Hears p d → d.dtype = 3 → respOf d = false → s.Fits p → 48 ≤ d.body.length →
    d.body.length = 48 + 4 * beAt d.body 8 4 → (s.heard p d).session? (beAt d.body 0 2) = none →
    ∃ t, exec (.submit d) s = .next t ∧ t.sage = (s.heard p d).sage ∧
      t.Sends p.id 3 true (beBytes 2 stNoSession ++ [0, 0] ++ beBytes 4 (beAt d.body 4 4) ++ List.replicate 16 0)

/-- The time guarantee of admission (10 R307): where Sage places the steps of a request, every step has a seat in a batch step of its own
kind's round, the rounds follow one another without overlap, and each step ends by its deadline round. -/
def Obligations.AdmittedStepsEndByTheirDeadlines : Prop :=
  ∀ (s s1 : State) (margin : Nat) (x : Session) (reqId prev : Nat) (steps l : List ReqStep),
    s.placeAll margin x reqId prev steps = some (s1, l) →
    ∃ rounds : List Nat, rounds.length = steps.length ∧ l.length = steps.length ∧
      (∀ (i : Nat) (r : Nat) (st st' : ReqStep), rounds[i]? = some r → steps[i]? = some st → l[i]? = some st' →
        prev < r ∧ r + st.nparts ≤ st.deadline + 1 ∧
        (∃ b ∈ s1.sage.batches, st' = { st with state := .placed b.id } ∧ b.round = r ∧ b.kind = st.kind ∧ b.model = x.model ∧
          ⟨x.id, reqId, st.num, x.partition, st.ctx⟩ ∈ b.members) ∧
        ∀ r', rounds[i + 1]? = some r' → r + st.nparts ≤ r') ∧
      s1.client = s.client

/-- CANCEL, CLOSE, CLOSE_COMPLETE and DETACH_TIMEOUT (10 R310, 11 R334, R339, R340): CANCEL ends the request in progress and is answered
CANCELLED with the number of steps released; CLOSE makes the session CLOSING with no request, and so does the end of a detachment; once its
last step has ended the session is FREE, with event 0x0705 and the answer to the CLOSE. Model choices it rests on, which are no rule of the
spec: log 50, 53, 58. -/
def Obligations.RequestsAndSessionsEnd : Prop :=
  (∀ (s : State) (p : Peer) (d : Datagram) (x : Session) (q : Request), s.Hears p d → d.dtype = 5 → respOf d = false → s.Fits p →
    d.body.length = 8 → beAt d.body 2 2 = 0 → (s.heard p d).ownSession p.id (beAt d.body 0 2) = some x → x.request = some q →
    q.reqId = beAt d.body 4 4 →
    ∃ t y, exec (.cancel d) s = .next t ∧ t.session? x.id = some y ∧ y.request = none ∧ y.results = x.results ∧ y.state = x.state ∧
      (s.heard p d).Records t ((s.heard p d).record 0x0602 0 x.id stCancelled (q.last % 2 ^ 32)) ∧
      t.Sends p.id 5 true (beBytes 2 stCancelled ++ [0, 0] ++ beBytes 4 ((s.heard p d).releaseSteps x q).2)) ∧
  (∀ (s : State) (p : Peer) (d : Datagram) (x : Session), s.Hears p d → d.dtype = 6 → respOf d = false → 2 ≤ d.body.length →
    (d.body.drop 2).any (· ≠ 0) = false → (s.heard p d).ownSession p.id (beAt d.body 0 2) = some x →
    ∃ t y, exec (.close d) s = .next t ∧ t.session? x.id = some y ∧ y.state = .closing ∧ y.request = none ∧
      y.closing = some ⟨0, some p.id⟩) ∧
  (∀ (s : State) (session : Nat) (x : Session), s.session? session = some x → x.state = .detached →
    ∃ t y, exec (.detachTimeout session) s = .next t ∧ t.session? session = some y ∧ y.state = .closing ∧ y.request = none ∧
      y.closing = some ⟨1, none⟩) ∧
  (∀ (s : State) (session : Nat) (x : Session) (c : Closing), s.session? session = some x → x.closing = some c →
    s.sessionRuns session = false →
    ∃ t, exec (.closeComplete session) s = .next t ∧ ∀ y ∈ t.client.sessions, y.id ≠ session) ∧
  ∀ (s : State) (session : Nat) (x : Session) (c : Closing) (p : Peer), s.session? session = some x → x.closing = some c →
    s.sessionRuns session = false → (∀ e ∈ s.tiles, SMap.get? e.2.kvSpace session = none) → c.answer = some p.id → s.peer? p.id = some p →
    s.Fits p →
    ∃ t, exec (.closeComplete session) s = .next t ∧ s.Records t (s.record 0x0705 0 session c.cause x.committed) ∧
      t.client.sessions = s.client.sessions.filter (fun y => y.id ≠ session) ∧
      t.Sends p.id 6 true (beBytes 2 stAccepted ++ [0, 0] ++ beBytes 4 x.committed)

/-- STATUS, FLOOR_PLAN and RESULT_SEND (11 R336, R338, R348): STATUS of the module is answered with the round, the free sessions and the
floor-plan epoch; FLOOR_PLAN with the record of the epoch asked for, or REFUSED where there is none; and the first RESULT not yet sent of a
session goes to its peer when its credit allows. Model choices it rests on, which are no rule of the spec: log 53, 54, 58. -/
def Obligations.ReportsReachTheClient : Prop :=
  (∀ (s : State) (p : Peer) (d : Datagram), s.Hears p d → d.dtype = 7 → respOf d = false → s.Fits p → d.body = [1, 0, 0, 0] →
    ∃ t, exec (.status d) s = .next t ∧ t.client.sessions = (s.heard p d).client.sessions ∧
      t.Sends p.id 7 true (beBytes 2 stAccepted ++ [0, 0] ++ [1, 0, 0, 0] ++ beBytes 8 s.round ++
        beBytes 8 ((16384 - s.client.sessions.length) * 2 ^ 32 + s.plan.epoch))) ∧
  (∀ (s : State) (p : Peer) (d : Datagram), s.Hears p d → d.dtype = 8 → respOf d = false → s.Fits p → d.body.length = 4 →
    ∃ t, exec (.floorPlan d) s = .next t ∧ t.client.sessions = (s.heard p d).client.sessions ∧
      t.Sends p.id 8 true (match s.planOf (beAt d.body 0 4) with
        | some r => beBytes 2 stAccepted ++ [0, 0] ++ planBytes r
        | none => beBytes 2 stRefused ++ [0, 0])) ∧
  ∀ (s : State) (session i : Nat) (x : Session) (p : Peer) (r : Result), s.session? session = some x → x.peer = some p.id →
    x.state ≠ .detached → x.results.findIdx? (fun r => r.seqs.isNone) = some i → x.results[i]? = some r → s.peer? p.id = some p →
    p.queue = [] → seqLt p.sndNext p.limit = true → s.Fits p →
    ∃ t y l, exec (.resultSend session) s = .next t ∧ t.session? session = some y ∧ y.results = x.results.set i { r with seqs := some l } ∧
      t.Sends p.id 4 false (beBytes 2 r.status ++ beBytes 2 x.id ++ beBytes 4 r.reqId ++ beBytes 4 r.index ++
        beBytes 2 (if r.last then 1 else 0) ++ beBytes 2 r.output.length ++ beBytes 8 r.round ++ beBytes 4 r.ctx ++
        List.replicate 4 0 ++ r.output)

/-- Packages (11 R345, R346): the first chunk of a LOAD_PACKAGE is held and answered with the bytes received; a package that fails its
verification is dropped with event 0x0708, and one that passes waits for the next boundary; UNLOAD_PACKAGE of a model without sessions
removes it with event 0x0709. Model choices it rests on, which are no rule of the spec: log 53, 55, 58. -/
def Obligations.PackagesLoadAndUnload : Prop :=
  (∀ (s : State) (p : Peer) (d : Datagram), s.Hears p d → d.dtype = 9 → respOf d = false → s.Fits p → p.operator = true →
    24 ≤ d.body.length → beAt d.body 4 4 = 0 → beAt d.body 8 8 = 0 → d.body.length - 24 < beAt d.body 16 8 →
    (s.heard p d).load? (beAt d.body 0 4) = none → (s.heard p d).model? (beAt d.body 0 4) = none →
    (s.heard p d).client.loads.length < 2 →
    ∃ t, exec (.loadPackage d) s = .next t ∧
      t.load? (beAt d.body 0 4) = some ⟨beAt d.body 0 4, beAt d.body 16 8, d.body.drop 24, p.id, none⟩ ∧
      t.Sends p.id 9 true (beBytes 2 stAccepted ++ beBytes 2 0 ++ List.replicate 4 0 ++ beBytes 8 (d.body.length - 24))) ∧
  (∀ (s : State) (model r : Nat) (x : Load), s.load? model = some x → x.bytes.length = x.total → x.ready = none →
    verifyPackage s model x.bytes = .error r →
    ∃ t, exec (.packageVerificationDone model) s = .next t ∧ t.load? model = none ∧ t.client.models = s.client.models ∧
      s.Records t (s.record 0x0708 0 model r (x.bytes.length % 2 ^ 32))) ∧
  (∀ (s : State) (model : Nat) (x : Load) (k : Package), s.load? model = some x → x.bytes.length = x.total → x.ready = none →
    verifyPackage s model x.bytes = .ok k →
    ∃ t, exec (.packageVerificationDone model) s = .next t ∧ t.load? model = some { x with ready := some k }) ∧
  ∀ (s : State) (p : Peer) (d : Datagram) (m : Model), s.Hears p d → d.dtype = 10 → respOf d = false → s.Fits p → p.operator = true →
    d.body.length = 6 → beAt d.body 4 2 ≤ 1 → (s.heard p d).model? (beAt d.body 0 4) = some m →
    (∀ x ∈ (s.heard p d).client.sessions, x.model = beAt d.body 0 4 → x.state = .closing) →
    ∃ t, exec (.unloadPackage d) s = .next t ∧ t.model? (beAt d.body 0 4) = none ∧
      (s.heard p d).Records t ((s.heard p d).record 0x0709 0 (beAt d.body 0 4) 0 0) ∧
      t.Sends p.id 10 true (beBytes 2 stAccepted ++ [0, 0] ++ beBytes 4 0)

/-- Reliable delivery (11 R325-R328, R336, R581): an ACK takes from a peer what it acknowledges and gives it credit; the acknowledgement
timer sends what is due; a datagram not acknowledged is sent again and counted, and after 12 transmissions its peer is lost with event
0x0703; a response is taken in sequence and discarded; a SUBMIT that does not complete is discarded and answered REFUSED. Model choices it
rests on, which are no rule of the spec: log 51, 53, 58. -/
def Obligations.DeliveryIsReliable : Prop :=
  (∀ (s : State) (p : Peer) (d : Datagram), s.HearsFrom p d → d.dtype = 0 → respOf d = false →
    ∃ t q, exec (.ack d) s = .next t ∧ t.peer? p.id = some q ∧ q.limit = seqAdd d.ack d.credit ∧ q.heard = s.now ∧
      q.rcvNext = p.rcvNext ∧
      ∀ g ∈ q.unacked, (g ∈ p.unacked ∧ ackedBy d.ack d.sack g.seq = false) ∨ ∃ g0 ∈ p.queue, g0.seq = g.seq) ∧
  (∀ (s : State) (p : Peer), s.peer? p.id = some p → p.ackDue = true →
    ∃ t x q, exec (.ackTimer p.id) s = .next t ∧ t.out = s.out ++ [.client x] ∧ x.dtype = 0 ∧ x.ack = p.rcvNext ∧ x.peerId = p.id ∧
      t.peer? p.id = some q ∧ q.ackDue = false ∧ q.sndNext = p.sndNext) ∧
  (∀ (s : State) (p : Peer) (g : OutDg), s.peer? p.id = some p → p.unacked.find? (fun x => decide (x.seq = g.seq)) = some g → g.tries < 12 →
    ∃ t x q, exec (.retransmissionTimeout p.id g.seq) s = .next t ∧ t.out = s.out ++ [.client x] ∧ x.seq = g.seq ∧ x.body = g.body ∧
      t.peer? p.id = some q ∧ { g with tries := g.tries + 1, sentAt := s.now } ∈ q.unacked ∧ s.Counted t Reg.SES_RETX 1) ∧
  (∀ (s : State) (p : Peer) (g : OutDg), s.peer? p.id = some p → p.unacked.find? (fun x => decide (x.seq = g.seq)) = some g → 12 ≤ g.tries →
    ∃ t, exec (.retransmissionTimeout p.id g.seq) s = .next t ∧ t.peer? p.id = none ∧ (∀ x ∈ t.client.sessions, x.peer ≠ some p.id) ∧
      s.Records t (s.record 0x0703 0 p.id (s.sessionsOf p.id) (p.timeout g.tries / 1000))) ∧
  (∀ (s : State) (p : Peer) (d : Datagram), s.Hears p d → respOf d = true ∨ d.dtype = 4 →
    ∃ t q, exec (.clientResponseDiscard d) s = .next t ∧ t.peer? p.id = some q ∧ q.rcvNext = seqAdd p.rcvNext 1 ∧ q.held = [] ∧
      (s.heard p d).Counted t Reg.SES_DISCARDED 1 ∧ t.client.sessions = (s.heard p d).client.sessions) ∧
  ∀ (s : State) (p : Peer) (m : Assembly), s.peer? p.id = some p → p.asm = some m → m.dtype = 3 → m.response = false → s.Fits p →
    ∃ t, exec (.submitReassemblyTimeout p.id) s = .next t ∧ s.Counted t Reg.SES_DISCARDED 1 ∧ t.client.sessions = s.client.sessions ∧
      t.Sends p.id 3 true (beBytes 2 stRefused ++ [0, 0] ++ beBytes 4 (beAt m.body 4 4) ++ List.replicate 16 0)

/-- Client ports (11 R322, R323, R353): with main power on and an address, a signal starts negotiation and then training; a partner of a
type the port knows brings it UP with event 0x0901, any other leaves it DOWN; a loss is recorded as 0x0902 with its cause and counted when
it is a FEC error; an UP port answers echo, ARP and neighbour requests; and a discarded frame or datagram is counted. Model choices it rests
on, which are no rule of the spec: log 53, 58. -/
def Obligations.ClientPortsFollowTheirLinks : Prop :=
  (∀ (s : State) (port : Nat), port < 4 → s.addressed port = true → s.fld Reg.PWR_STATUS 2 0 = 3 →
    s.fld (Reg.NET_PORT_STATUS + port) 2 0 < 3 →
    ∃ t, exec (.portSignalDetected port) s = .next t ∧
      t.fld (Reg.NET_PORT_STATUS + port) 2 0 = (if s.fld (Reg.NET_PORT_STATUS + port) 2 0 = 0 then 1 else 2) ∧
      s.RegsFrame t [Reg.NET_PORT_STATUS + port]) ∧
  (∀ (s : State) (port phy : Nat), port < 4 → s.fld (Reg.NET_PORT_STATUS + port) 2 0 = 1 ∨ s.fld (Reg.NET_PORT_STATUS + port) 2 0 = 2 →
    phy = 1 ∨ phy = 2 →
    ∃ t, exec (.portUp port phy) s = .next t ∧ t.fld (Reg.NET_PORT_STATUS + port) 2 0 = 3 ∧
      t.fld (Reg.NET_PORT_STATUS + port) 5 4 = phy ∧ s.Records t (s.record 0x0901 0 port phy (SMap.getD s.client.attempts port 0)) ∧
      s.RegsFrame t ([Reg.NET_PORT_STATUS + port] ++ eventRegs)) ∧
  (∀ (s : State) (port phy : Nat), port < 4 → s.fld (Reg.NET_PORT_STATUS + port) 2 0 = 1 ∨ s.fld (Reg.NET_PORT_STATUS + port) 2 0 = 2 →
    phy ≠ 1 → phy ≠ 2 →
    ∃ t, exec (.portUp port phy) s = .next t ∧ t.fld (Reg.NET_PORT_STATUS + port) 2 0 = 0 ∧ s.RegsOnly t [Reg.NET_PORT_STATUS + port]) ∧
  (∀ (s : State) (port cause : Nat), port < 4 → cause ≤ 2 → s.fld (Reg.NET_PORT_STATUS + port) 2 0 = 3 →
    ∃ t, exec (.portDown port cause) s = .next t ∧ t.fld (Reg.NET_PORT_STATUS + port) 2 0 = (if cause = 2 then 4 else 0) ∧
      (cause = 1 → s.Counted t (Reg.NET_FEC_UNCORR + port) 1) ∧ s.Records t (s.record 0x0902 0 port cause 0) ∧
      s.RegsAndEvents t [Reg.NET_PORT_STATUS + port, Reg.NET_FEC_UNCORR + port]) ∧
  (∀ (s : State) (port : Nat) (kind : EchoKind) (src : Nat), port < 4 → s.fld (Reg.NET_PORT_STATUS + port) 2 0 = 3 →
    exec (.icmpEchoArpNs port kind src) s = .next { s with out := s.out ++ [.echo port kind src] }) ∧
  (∀ (s : State) (port : Nat), port < 4 →
    ∃ t, exec (.datagramDiscarded (.frame port)) s = .next t ∧ s.Counted t (Reg.NET_RX_DISCARD + port) 1 ∧
      s.RegsOnly t [Reg.NET_RX_DISCARD + port]) ∧
  ∀ (s : State) (d : Datagram), badDg d = true ∨ (∀ p, s.peerAt d.ip d.udp = some p → d.peerId ≠ p.id) ∧ s.peerAt d.ip d.udp ≠ none →
    ∃ t, exec (.datagramDiscarded (.datagram d)) s = .next t ∧ s.Counted t Reg.SES_DISCARDED 1 ∧ s.RegsOnly t [Reg.SES_DISCARDED]


/-! ## Compute reset and the recorder -/

/-- Compute reset (16 R485-R488, Table 16.5): RESET_W, RESET_E and RESET_IN_N put the tile logic of their halves in reset and leave every
slice that no burst was crossing to and, for a reset of one half, every tile of the other; the reset ends with the release, the training of
each tile's back-end and the treatment of the cut lists, with event 0x0018. Model choices it rests on, which are no rule of the spec: log
53, 62, 115. -/
def Obligations.ComputeResetsHoldTheirHalves : Prop :=
  (∀ (s : State) (cuts : List (Nat × Nat)), s.TakesReset .west →
    ∃ t, exec (.resetW cuts) s = .next t ∧ s.ResetBegun t .west 0 false ∧
      ((∀ ti, (s.tile ti).queue = []) → (∀ ti, halfOf ti = .east → t.tile ti = s.tile ti) ∧
        (∀ ti k, (∀ c ∈ cuts, c.1 ≠ ti) → t.rawGranule ti k = s.rawGranule ti k) ∧
        s.Records t (s.record 0x0017 0 1 0 (s.round % 2 ^ 32)))) ∧
  (∀ (s : State) (cuts : List (Nat × Nat)), s.TakesReset .east →
    ∃ t, exec (.resetE cuts) s = .next t ∧ s.ResetBegun t .east 0 false ∧
      ((∀ ti, (s.tile ti).queue = []) → (∀ ti, halfOf ti = .west → t.tile ti = s.tile ti) ∧
        (∀ ti k, (∀ c ∈ cuts, c.1 ≠ ti) → t.rawGranule ti k = s.rawGranule ti k) ∧
        s.Records t (s.record 0x0017 0 2 0 (s.round % 2 ^ 32)))) ∧
  (∀ (s : State) (cuts : List (Nat × Nat)), s.TakesReset .west → s.TakesReset .east →
    ∃ t, exec (.resetInN true cuts) s = .next t ∧ s.ResetBegun t .west 1 true ∧ s.ResetBegun t .east 1 true ∧
      t.fld Reg.MGT_SIGNALS 8 8 = 1) ∧
  (∀ (s : State) (cuts : List (Nat × Nat)),
    ∃ t, exec (.resetInN false cuts) s = .next t ∧ t.halfReset .west = { s.halfReset .west with byPin := false } ∧
      t.halfReset .east = { s.halfReset .east with byPin := false } ∧ t.fld Reg.MGT_SIGNALS 8 8 = 0 ∧ s.RegsFrame t [Reg.MGT_SIGNALS]) ∧
  (∀ (s : State) (h : Half), (s.halfReset h).phase = 1 → (s.halfReset h).byPin = false → s.link.splitDue = false →
    ∃ t, exec (.computeResetRelease h) s = .next t ∧ (t.halfReset h).phase = 2 ∧ (∀ ti ∈ s.halfTiles h, t.tilState ti = tilIdle) ∧
      s.RegsFrame t ((s.halfTiles h).map (fun ti => tileReg ti Reg.TIL_STATUS))) ∧
  (∀ (s : State) (h : Half), (s.halfReset h).byPin = true → s.link.splitDue = false → exec (.computeResetRelease h) s = .next s) ∧
  (∀ (s : State) (ti : Nat), ti ∈ s.ctl.untrained → (s.halfReset (halfOf ti)).phase = 2 → (s.tile ti).waiting = [] →
    ∃ t, exec (.backendTrained ti) s = .next t ∧ t.fld (tileReg ti Reg.BDM_STATUS) 2 0 = bdmReady ∧
      t.fld (tileReg ti Reg.IBU_STATUS) 2 0 = 1 ∧ t.ctl.untrained = s.ctl.untrained.filter (fun x => x ≠ ti) ∧
      s.RegsFrame t [tileReg ti Reg.BDM_STATUS, tileReg ti Reg.IBU_STATUS]) ∧
  ∀ (s : State) (h : Half), (s.halfReset h).phase = 2 → (∀ ti ∈ s.ctl.untrained, halfOf ti ≠ h) →
    (∀ ti, (s.tile ti).cut = [] ∧ (s.tile ti).kvMarks = []) → s.client.sessions = [] → SMap.wf s.ctl.bases = true →
    ∃ t, exec (.cutListHandling h) s = .next t ∧ t.halfReset h = { s.halfReset h with phase := 3 } ∧
      (∀ e ∈ s.ctl.bases, (∃ ti off, tileOf e.1 = some (ti, off) ∧ halfOf ti = h) → t.reg e.1 = e.2) ∧
      s.Records t (s.record 0x0018 0 (halfBit h) 0 ((s.now - (s.halfReset h).t0) / 1000))

/-- The log (19 R554, R556, R557, 17 R497): LOG_PROGRAM moves up to eight staged records to the card in order, and a card that does not
answer is recorded as lost; EVT_CLEAR with the HEAD in force forgets what lies before it, saves the mark, starts the erase and records
0x0302, and with another value it is refused; and a read of EVT_WINDOW7 answers the last word of the record and moves the cursor on. Model
choices it rests on, which are no rule of the spec: log 53, 58, 76. -/
def Obligations.TheLogIsKept : Prop :=
  (∀ s : State, s.fld Reg.CFG_STATUS 31 31 = 1 → s.evt.clearing = false → s.mgmt.silent = false → s.evt.staging ≠ [] →
    s.evt.overflowed = 0 →
    exec (.logProgram true) s =
      .next { s with evt := { s.evt with log := s.evt.log ++ s.evt.staging.take 8, staging := s.evt.staging.drop 8 } }) ∧
  (∀ s : State, s.fld Reg.CFG_STATUS 31 31 = 1 → s.evt.clearing = false → s.mgmt.silent = false → s.evt.staging ≠ [] →
    ∃ t, exec (.logProgram false) s = .next t ∧ t.fld Reg.CFG_STATUS 31 31 = 0 ∧ t.evt.log = s.evt.log ∧
      s.Records t (s.record 0x0204 0 9 (cardLog + 32 * s.evt.log.length) 0)) ∧
  (∀ (s : State) (v : Word), s.evt.clearing = false → v.toNat = s.evt.head % 2 ^ 32 → s.sup.list.length < 64 →
    ∃ t, exec (.evtClear v) s = .next t ∧ t.evt.log = [] ∧
      t.evt.staging = [s.record 0x0302 0 (s.evt.first % 2 ^ 32) (s.evt.head % 2 ^ 32) s.lifeCycle] ∧
      t.evt.first = s.evt.head ∧ t.evt.head = s.evt.head + 1 ∧ t.evt.full = false ∧ t.evt.clearing = true ∧
      (s.fld Reg.CFG_STATUS 31 31 = 1 → ∃ r : SaveRec, (t.card.slot0 = some r ∨ t.card.slot1 = some r) ∧ r.clearSeq = v.toNat ∧
        r.clearFirst = s.evt.first % 2 ^ 32 ∧ r.clearHead = s.evt.head % 2 ^ 32)) ∧
  (∀ (s : State) (v : Word), v.toNat ≠ s.evt.head % 2 ^ 32 →
    ∃ t, exec (.evtClear v) s = .next t ∧ t.evt = s.evt ∧ t.out = s.out ++ [.written Reg.EVT_CLEAR stRefused] ∧ t.regs = s.regs) ∧
  (∀ s : State, exec .logEraseDone s = .next { s with evt := { s.evt with clearing := false } }) ∧
  ∀ s : State, ∃ t, exec .evtWindow7Read s = .next t ∧
    t.out = s.out ++ [.word (Reg.EVT_WINDOW + 7) (s.evtWord (s.fld Reg.EVT_CURSOR 16 0) 7)] ∧
    t.fld Reg.EVT_CURSOR 16 0 = (s.fld Reg.EVT_CURSOR 16 0 + 1) % 2 ^ 17 ∧ s.RegsFrame t [Reg.EVT_CURSOR] ∧ t.evt = s.evt


/-! ## Rounds -/

/-- The round (10 R291, R302, R311, R312, R314): PLAN_FREEZE comes 30 us before the next boundary and leaves no step of a session whose
RESULT queue is full; ROUND_BOUNDARY, while rounds run, makes the next round the one in force; a complete batch step commits, and its
request step's context with it; and a reading of pace joins the last 100 of its cluster, whose least is the pace. Model choices it rests on,
which are no rule of the spec: log 53, 117. -/
def Obligations.RoundsProceed : Prop :=
  (∀ s : State, 0 ≤ (s.now : Int) + s.tb.offset → s.calendar + 30000 ≤ (s.calendar / s.roundNs + 1) * s.roundNs →
    ∃ t, exec .planFreeze s = .next t ∧ t.sage.frozen = s.calendar / s.roundNs + 1 ∧
      t.calendar + 30000 = (s.calendar / s.roundNs + 1) * s.roundNs ∧
      ∀ b ∈ t.sage.batches, b.round = s.calendar / s.roundNs + 1 → b.part = none → b.committed = false → ∀ m ∈ b.members,
        ∀ x ∈ s.client.sessions, x.id = m.session → x.results.length < 256) ∧
  (∀ s : State, s.roundsRun = false →
    exec .roundBoundary s = .next { s with now := s.now + ((s.calendar / s.roundNs + 1) * s.roundNs - s.calendar) }) ∧
  (∀ s : State, s.roundsRun = true → s.Quiet → 0 < s.roundNs → 0 ≤ (s.now : Int) + s.tb.offset →
    (s.calendar / s.roundNs + 1) * s.roundNs < 2 ^ 64 →
    ∃ t, exec .roundBoundary s = .next t ∧ t.calendar = (s.calendar / s.roundNs + 1) * s.roundNs ∧
      t.round = s.calendar / s.roundNs + 1 ∧
      ∀ e ∈ s.tiles, (t.tile e.1).segs = [] ∧ (t.tile e.1).ordinal = 0 ∧ (t.tile e.1).handover = none ∧ t.tokens e.1 = 0) ∧
  (∀ (s : State) (batch : Nat) (b : Batch), s.sage.batches.find? (fun b => decide (b.id = batch)) = some b → b.dropped = none →
    b.committed = false → b.complete (s.nparts b.model b.kind) = true → b.leader = none → b.ens = none →
    ∃ t, exec (.batchStepCommit batch) s = .next t ∧ (∀ x ∈ t.sage.batches, x.id = batch → x.committed = true) ∧
      ∀ (m : Member) (x : Session) (q : Request) (st : ReqStep), b.members = [m] → s.session? m.session = some x → x.request = some q →
        q.reqId = m.reqId → q.steps.find? (fun y => decide (y.num = m.step)) = some st →
        ∃ y, t.session? m.session = some y ∧ y.committed = st.ctx) ∧
  ∀ (s : State) (readings : List Nat),
    ∃ t, exec (.paceMonitorRead readings) s = .next t ∧
      (∀ c, c < 144 → ∀ v, readings[c]? = some v →
        SMap.getD t.sage.readings c [] = (v % 65536 :: SMap.getD s.sage.readings c []).take 100 ∧
        t.fld (Reg.ADM_FLOOR + c) 15 0 = ((v % 65536 :: SMap.getD s.sage.readings c []).take 100).foldl min (v % 65536) % 65536 ∧
        (c ∈ t.sage.belowFloor ↔ t.fld (Reg.ADM_FLOOR + c) 31 16 < 800)) ∧
      s.RegsFrame t ((List.range 144).map (Reg.ADM_FLOOR + ·) ++ eventRegs)


/-! ## The fabric -/

/-- Fabric links (12 R356, R358, R360, R366, R367, R378): a signal on an enabled port starts training, training ends in INFO with the
module's LINK flit, the peer's information brings the port UP or REJECTED, and a loss brings it DOWN; a codeword in sequence is accepted and
hands on its packet, one that does not decode or is out of sequence is asked for again, and a codeword not acknowledged is sent again. Model
choices it rests on, which are no rule of the spec: log 26, 53, 58. -/
def Obligations.FabricLinksCarryCodewords : Prop :=
  (∀ (s : State) (port : Nat), port < 12 → s.fstate port = fpDown → (s.fld Reg.FAB_CTRL 11 0).testBit port = true →
    s.fld Reg.PWR_STATUS 2 0 = 3 →
    ∃ t, exec (.fabSignalDetected port) s = .next t ∧ t.fstate port = fpTraining ∧ s.RegsOnly t [Reg.FAB_PORT_STATUS + port]) ∧
  (∀ (s : State) (port : Nat) (reversed : Bool), port < 12 → s.fstate port = fpTraining →
    ∃ t b, exec (.fabTrainingDone port reversed) s = .next t ∧ t.fstate port = fpInfo ∧
      t.fld (Reg.FAB_PORT_STATUS + port) 11 11 = (if reversed then 1 else 0) ∧ (t.fport port).reversed = reversed ∧
      t.out = s.out ++ [.linkFlit port b] ∧ b.moduleId = selfId ∧ b.port = port ∧ s.RegsFrame t [Reg.FAB_PORT_STATUS + port]) ∧
  (∀ (s : State) (port : Nat) (b : LinkBody), port < 12 → s.fstate port = fpInfo → s.brokenPattern port b = none →
    ∃ t, exec (.linkFlit port b) s = .next t ∧ t.fstate port = fpUp ∧ (t.fport port).peer = some b ∧
      t.fld (Reg.FAB_PORT_STATUS + port) 29 16 = b.addr.getD 0 % 2 ^ 14 ∧ t.fld (Reg.FAB_PORT_STATUS + port) 15 12 = b.port % 16 ∧
      s.Records t (s.record 0x0801 0 port (b.addr.getD 0) b.port)) ∧
  (∀ (s : State) (port : Nat) (b : LinkBody) (k : Nat), port < 12 → s.fstate port = fpInfo → s.brokenPattern port b = some k →
    ∃ t, exec (.linkFlit port b) s = .next t ∧ t.fstate port = fpRejected ∧
      s.Records t (s.record 0x0803 0 port k (b.moduleId % 2 ^ 32)) ∧ s.RegsFrame t ([Reg.FAB_PORT_STATUS + port] ++ eventRegs)) ∧
  (∀ (s : State) (port : Nat), port < 12 → s.fstate port = fpUp ∨ s.fstate port = fpInfo →
    ∃ t, exec (.linkFlitTimer port) s = .next t ∧ t.out = s.out ++ [.linkFlit port (s.linkBody port)] ∧ t.regs = s.regs ∧
      (t.fport port).nakDue = false) ∧
  (∀ (s : State) (port cause : Nat), port < 12 → cause ≤ 4 → s.fstate port ≠ fpDown → s.fstate port ≠ fpDisabled →
    s.fstate port ≠ fpFenced →
    ∃ t, exec (.fabLinkDown port cause) s = .next t ∧ t.fstate port = fpDown ∧ (t.fport port).kept = [] ∧ (t.fport port).buffers = [] ∧
      (t.fport port).peer = none ∧ s.Counted t Reg.FAB_DROPPED (s.fport port).buffers.length ∧
      ((s.fport port).buffers = [] → s.Records t (s.record 0x0802 0 port cause 0))) ∧
  (∀ (s : State) (port : Nat) (w : Codeword) (x : FabPacket) (l : List Flit), port < 12 → s.fstate port = fpUp → w.ok = true →
    w.isNew = true → w.seq = (s.fport port).expected → w.flits = .head x :: l → (∀ f ∈ l, f = .data x.vl) →
    (s.fport port).held x.vl + flitsOf x ≤ vlBuffer x.vl → x.ptype = 1 → x.dst = s.fabAddr → x.crcBad = false →
    ∃ t, exec (.codeword port w) s = .next t ∧ (t.fport port).expected = ((s.fport port).expected + 1) % 512 ∧
      (t.fport port).freed = bump16 (s.fport port).freed x.vl (flitsOf x) ∧ t.mesh = s.mesh ++ meshWrites x s.fab.nextTag) ∧
  (∀ (s : State) (port : Nat) (w : Codeword), port < 12 → s.fstate port = fpUp → w.ok = false → (s.fport port).uncorr.length < 16 →
    ∃ t b, exec (.codeword port w) s = .next t ∧ (t.fport port).expected = (s.fport port).expected ∧
      s.Counted t (Reg.FAB_PORT_FEC_UNCORR + port) 1 ∧ t.out = s.out ++ [.linkFlit port b] ∧ b.nak = some (s.fport port).expected) ∧
  (∀ (s : State) (port : Nat) (w : Codeword), port < 12 → s.fstate port = fpUp → w.ok = true → w.isNew = true →
    w.seq ≠ (s.fport port).expected → w.flits = [] → (s.fport port).discarding = false →
    ∃ t b, exec (.codeword port w) s = .next t ∧ (t.fport port).expected = (s.fport port).expected ∧
      t.out = s.out ++ [.linkFlit port b] ∧ b.nak = some (s.fport port).expected ∧ t.regs = s.regs) ∧
  (∀ (s : State) (port : Nat) (w : Codeword) (l : List Codeword), port < 12 → (s.fport port).kept = w :: l → (s.fport port).replays < 8 →
    ∃ t, exec (.codewordReplayTimeout port) s = .next t ∧
      t.out = s.out ++ (w :: l).map (fun w => .codeword port { w with ack := (s.fport port).expected }) ∧
      s.Counted t (Reg.FAB_PORT_REPLAY + port) 1 ∧ (t.fport port).kept = w :: l ∧ (t.fport port).replays = (s.fport port).replays + 1) ∧
  ∀ (s : State) (port : Nat), port < 12 → (s.fport port).kept ≠ [] → 8 ≤ (s.fport port).replays →
    ∃ t, exec (.codewordReplayTimeout port) s = .next t ∧ t.fstate port = fpDown ∧ (t.fport port).kept = []

/-- Fabric packets (12 R362, R363, R374, R375, R383): a packet of the module's engines leaves on the port that routing picks, or waits for
one; a WRITE for this module becomes mesh writes and an acknowledgement ends the SEND's; a PORT packet of the mesh leaves as a WRITE; a
packet that has waited takes an extra port or the escape route and is counted; and a stall discards what a virtual lane holds. Model choices
it rests on, which are no rule of the spec: log 26, 53, 57, 58. -/
def Obligations.FabricPacketsTravel : Prop :=
  (∀ (s : State) (x : FabPacket) (i : Instr), (i = .fabWrite x ∧ x.ptype = 1) ∨ (i = .fabWriteAck x ∧ x.ptype = 2) ∨
      (i = .fabNack x ∧ x.ptype = 3) ∨ (i = .fabSync x ∧ x.ptype = 4) ∨ (i = .fabSyncRelease x ∧ x.ptype = 5) → x.dst ≠ s.fabAddr →
    (∀ n y, s.nextHop x = .send n y → ∃ t, exec i s = .next t ∧ s.Leaves t n y ∧ t.fab.transit = s.fab.transit ∧ t.mesh = s.mesh) ∧
    (s.nextHop x = .wait → ∃ t, exec i s = .next t ∧ t = { s with fab := { s.fab with transit := s.fab.transit ++ [x] } })) ∧
  (∀ (s : State) (x : FabPacket), x.ptype = 1 → x.dst = s.fabAddr → x.crcBad = false →
    ∃ t, exec (.fabWrite x) s = .next t ∧ t.mesh = s.mesh ++ meshWrites x s.fab.nextTag ∧ t.regs = s.regs ∧ t.tiles = s.tiles) ∧
  (∀ (s : State) (x : FabPacket) (r : RemoteWrite) (e : QEntry), x.ptype = 2 → x.dst = s.fabAddr → x.crcBad = false →
    s.fab.outgoing.find? (fun r => decide (r.tag = x.tag)) = some r → (s.tile r.ti).entry? r.ref = some e →
    ∃ t, exec (.fabWriteAck x) s = .next t ∧ { e with outstanding := e.outstanding - r.count } ∈ (t.tile r.ti).queue ∧
      ∀ y ∈ t.fab.outgoing, y.tag ≠ x.tag) ∧
  (∀ (s : State) (p : Packet) (dst n : Nat) (x y : FabPacket), p.crcBad = false → p.remote = some dst → p.tag < 4096 →
    dst ≠ s.fabAddr → s.fab.merge = [] → (∀ q ∈ s.mesh, q.ptype = .port → continues p q = false) →
    x = ⟨1, 2, 0, 0, dst, p.tag, s.fabAddr, p.srcId, p.chan, p.rtag, p.len, p.addr, s.fab.nextTag, p.pieces, false⟩ →
    s.nextHop x = .send n y →
    ∃ t, exec (.portPacket p) s = .next t ∧ s.Leaves t n y ∧ t.mesh = s.mesh.erase p ∧
      t.fab.outgoing = s.fab.outgoing ++ [⟨s.fab.nextTag, p.srcId, p.ref, 1⟩] ∧ t.fab.nextTag = s.fab.nextTag + 1) ∧
  (∀ (s : State) (x : FabPacket) (n : Nat), x ∈ s.fab.transit → x.vl ≠ 3 → x.misroute < 2 →
    s.bestPort (s.minPorts x.phase x.dst) x = none → s.bestPort (s.extraPorts x.phase x.dst) x = some n →
    ∃ t, exec (.misrouteWait x) s = .next t ∧ s.Leaves t n { x with misroute := x.misroute + 1 } ∧ s.Counted t Reg.FAB_MISROUTED 1 ∧
      t.fab.transit = s.fab.transit.erase x) ∧
  (∀ (s : State) (x y : FabPacket) (n : Nat), x ∈ s.fab.transit → x.vl ≠ 3 → s.nextHop { x with vl := 3 } = .send n y →
    ∃ t, exec (.escapeWait x) s = .next t ∧ s.Leaves t n y ∧ y.vl = 3 ∧ s.Counted t Reg.FAB_ESCAPED 1 ∧
      t.fab.transit = s.fab.transit.erase x) ∧
  ∀ (s : State) (port vl : Nat), port < 12 → (s.fport port).buffers.any (fun y => decide (y.1 = vl)) = true →
    ∃ t, exec (.fabricStall port vl) s = .next t ∧ (t.fport port).buffers = (s.fport port).buffers.filter (fun y => y.1 ≠ vl) ∧
      s.Records t (s.record 0x0808 0 port vl ((s.fport port).buffers.filter (fun y => decide (y.1 = vl))).length)

/-- Discovery (12 R368-R370, R377, R379, R380): a lower candidate is taken and announced, one that falls silent is replaced; the candidate
acts as root and takes address 0; LINKS go to the root, which addresses the modules; a map is kept and answered, and with every answer, or
when the wait ends, it is put in force; and LEAVE goes toward the root. Model choices it rests on, which are no rule of the spec: log 53,
56, 58, 89. -/
def Obligations.FabricsFindTheirMap : Prop :=
  (∀ (s : State) (port candidate fcn : Nat), s.fup port = true → (∀ c, s.fab.cand = some c → candidate < c.id) →
    ∃ t, exec (.rootAnnounce port candidate fcn) s = .next t ∧ t.fab.cand = some ⟨candidate⟩ ∧
      (∀ n ∈ s.upPorts, .ctrl (some n) 0 (.rootAnnounce candidate s.fcn) ∈ t.out) ∧ (candidate ≠ selfId → t.isRoot = false)) ∧
  (∀ (s : State) (port candidate fcn : Nat) (c : Candidate), s.fab.cand = some c → c.id ≤ candidate →
    exec (.rootAnnounce port candidate fcn) s = .next s) ∧
  (∀ (s : State) (c : Candidate), s.fab.cand = some c →
    exec .rootAnnounceTimer s = .next { s with out := s.out ++ s.upPorts.map (fun n => .ctrl (some n) 0 (.rootAnnounce c.id s.fcn)) }) ∧
  (∀ (s : State) (c : Candidate), s.fab.cand = some c → c.id ≠ selfId →
    ∃ t, exec .candidateExpiry s = .next t ∧ (s.eligible = true → t.fab.cand = some ⟨selfId⟩) ∧
      (s.eligible = false → t.fab.cand = none ∧ t.fld Reg.FAB_STATUS 30 30 = 1)) ∧
  (∀ s : State, s.fab.cand = some ⟨selfId⟩ → s.eligible = true → s.isRoot = false → s.fab.active = none →
    s.fld Reg.FAB_STATUS 30 30 = 0 →
    ∃ t, exec .rootChanged s = .next t ∧ t.isRoot = true ∧ t.fabAddr = 0 ∧ t.fld Reg.FAB_ADDR 31 31 = 1 ∧
      t.reg64 Reg.FAB_ROOT_ID_LO = selfId ∧
      s.Records t (s.record 0x0804 0 (selfId % 2 ^ 32) (s.reg Reg.FAB_ROOT_ID_LO).toNat s.fcn)) ∧
  (∀ (s : State) (src : Nat) (recs : List LinkRec), s.isRoot = false →
    exec (.links src recs) s = .next { s with out := s.out ++ [.ctrl s.parentPort src (.links recs)] }) ∧
  (∀ (s : State) (src : Nat) (recs : List LinkRec), s.isRoot = true → (∀ e ∈ s.fab.building, e.recs = none) →
    (∀ r ∈ recs, ∃ e ∈ s.fab.building, e.entry.moduleId = r.peerId) → (∃ e ∈ s.fab.building, e.entry.addr ≠ src) →
    ∃ t, exec (.links src recs) s = .next t ∧ t.out = s.out ∧
      t.fab.building = s.fab.building.map (fun e => if e.entry.addr = src then { e with recs := some recs } else e)) ∧
  (∀ (s : State) (fcn : Nat) (entries : List MapEntry), (∀ m, s.fab.active = some m → m.fcn < fcn) →
    ∃ t, exec (.map fcn entries) s = .next t ∧ t.fab.next = some ⟨fcn, entries⟩ ∧ t.fld Reg.FAB_STATUS 29 29 = 1 ∧
      t.out = s.out ++ [.ctrl s.parentPort 0 (.mapReady fcn)] ∧ t.fab.active = s.fab.active ∧ s.RegsFrame t [Reg.FAB_STATUS]) ∧
  (∀ (s : State) (addr level parentPort : Nat), s.fld Reg.FAB_ADDR 31 31 = 0 ∨ s.fabAddr = addr →
    ∃ t, exec (.assign selfId addr level parentPort) s = .next t ∧ t.fabAddr = addr % 2 ^ 14 ∧ t.fld Reg.FAB_ADDR 31 31 = 1 ∧
      t.fld Reg.FAB_ADDR 21 16 = level % 64 ∧ t.out = s.out ++ [.ctrl (some parentPort) 0 (.links s.linkRecs)] ∧
      s.RegsFrame t [Reg.FAB_ADDR]) ∧
  (∀ (s : State) (id addr level parentPort n : Nat), id ≠ selfId →
    s.upPorts.find? (fun n => match (s.fport n).peer with | some b => decide (b.moduleId = id) | none => false) = some n →
    exec (.assign id addr level parentPort) s = .next { s with out := s.out ++ [.ctrl (some n) 0 (.assign id addr level parentPort)] }) ∧
  (∀ (s : State) (m : FabMap) (src : Nat), s.isRoot = true → s.fab.next = some m →
    (∃ e ∈ m.entries, e.addr ≠ src ∧ e.addr ∉ s.fab.ready) →
    ∃ t, exec (.mapReady src m.fcn) s = .next t ∧ src ∈ t.fab.ready ∧ t.fab.active = s.fab.active ∧ t.regs = s.regs ∧ t.out = s.out) ∧
  (∀ (s : State) (m : FabMap) (i : Instr), s.FabricIdle → s.fab.next = some m →
    (i = .mapReadyTimeout ∧ s.isRoot = true) ∨ i = .activate m.fcn ∨
      (∃ src, i = .mapReady src m.fcn ∧ s.isRoot = true ∧ ∀ e ∈ m.entries, e.addr = src ∨ e.addr ∈ s.fab.ready) →
    ∃ t, exec i s = .next t ∧ t.fab.active = some m ∧ t.fab.next = none ∧ t.fcn = m.fcn % 2 ^ 32 ∧ t.fld Reg.FAB_STATUS 29 29 = 0 ∧
      t.fld Reg.FAB_STATUS 14 0 = m.entries.length % 2 ^ 15 ∧ ∀ n ∈ s.upPorts, .ctrl (some n) 0 (.activate m.fcn) ∈ t.out) ∧
  (∀ (s : State) (id : Nat), s.isRoot = false →
    exec (.leave id) s = .next { s with out := s.out ++ [.ctrl s.parentPort 0 (.leave id)] }) ∧
  (∀ (s : State) (id : Nat), s.isRoot = true →
    ∃ t, exec (.leave id) s = .next t ∧ ∀ e ∈ t.fab.building, e.entry.moduleId ≠ id) ∧
  ∀ s : State, s.FabricIdle →
    ∃ t, exec .fabCtrlLeave s = .next t ∧ t.fab.leaving = true ∧ t.out = s.out ++ [.ctrl s.parentPort 0 (.leave selfId)] ∧ t.regs = s.regs


/-! ## Ensembles -/

/-- Ensembles form (12 R384): FORM asks every member for the reservation, a member that can give it takes a slot and answers, and refuses
with the first reason otherwise; every acceptance makes the slot ready for LEADER at the next boundary; a refusal, or a member that does not
answer, fails the formation with event 0x080B. Model choices it rests on, which are no rule of the spec: log 27, 53, 58, 116. -/
def Obligations.EnsemblesForm : Prop :=
  (∀ (s : State) (slot : Nat) (m : Model), slot < 8 → s.ensState slot = esFree ∨ s.ensState slot = esBroken ∨ s.ensState slot = esFailed →
    s.model? (s.ensModel slot) = some m → m.paused = false →
    ∃ t, exec (.ensCtrlForm slot) s = .next t ∧ t.ensState slot = esForming ∧ t.ensLeader slot = s.fabAddr ∧
      t.out = s.out ++ (s.ensMembers slot).map (fun a => .ctrl none a (.ensForm (s.ensId slot) (s.ensModel slot)
        (s.fld (ensReg Reg.FAB_ENS_RESERVE slot) 6 0) (s.fld (ensReg Reg.FAB_ENS_RESERVE slot) 26 16) (s.ensMembers slot)))) ∧
  (∀ (s : State) (slot : Nat), slot < 8 → s.ensState slot = esFree ∨ s.ensState slot = esBroken ∨ s.ensState slot = esFailed →
    s.model? (s.ensModel slot) = none →
    ∃ t, exec (.ensCtrlForm slot) s = .next t ∧ t.ensState slot = esFailed ∧
      s.Records t (s.record 0x080B 0 (s.ensId slot) s.fabAddr 1)) ∧
  (∀ (s : State) (src ensId model time power e : Nat) (members : List Nat), s.formSlot ensId = some e →
    members.length ≤ 64 → (∀ a ∈ members, a < 2 ^ 14) →
    ∃ t, exec (.ensForm src ensId model time power members) s = .next t ∧
      (s.joinRefusal src model time power (some e) = 0 → t.ensState e = esMember ∧ t.ensId e = ensId % 256 ∧
        t.ensLeader e = src % 2 ^ 14 ∧ t.ensModel e = model % 2 ^ 32 ∧ t.ensMembers e = members ∧ (t.ensSlot e).toLeader = true ∧
        t.out = s.out ++ [.ctrl none src (.ensJoin ensId 0)]) ∧
      (s.joinRefusal src model time power (some e) ≠ 0 →
        t = { s with out := s.out ++ [.ctrl none src (.ensJoin ensId (s.joinRefusal src model time power (some e)))] })) ∧
  (∀ (s : State) (src ensId model time power : Nat) (members : List Nat), s.formSlot ensId = none →
    s.joinRefusal src model time power none ≠ 0 ∧ exec (.ensForm src ensId model time power members) s =
      .next { s with out := s.out ++ [.ctrl none src (.ensJoin ensId (s.joinRefusal src model time power none))] }) ∧
  (∀ (s : State) (src ensId e : Nat),
    s.slotOf [esForming] (fun e => decide (s.ensId e = ensId) && (s.ensMembers e).contains src) = some e →
    ∃ t, exec (.ensJoin src ensId 0) s = .next t ∧ src ∈ (t.ensSlot e).accepted ∧ (∀ a ∈ (s.ensSlot e).accepted, a ∈ (t.ensSlot e).accepted) ∧
      ((t.ensSlot e).toLeader = true ↔ ∀ a ∈ s.ensMembers e, a = src ∨ a ∈ (s.ensSlot e).accepted) ∧ t.regs = s.regs ∧ t.out = s.out) ∧
  (∀ (s : State) (src ensId e reason : Nat), reason ≠ 0 →
    s.slotOf [esForming] (fun e => decide (s.ensId e = ensId) && (s.ensMembers e).contains src) = some e →
    ∃ t, exec (.ensJoin src ensId reason) s = .next t ∧ t.ensState e = esFailed ∧ s.Records t (s.record 0x080B 0 (s.ensId e) src reason) ∧
      s.RegsFrame t ([ensReg Reg.FAB_ENS_CTRL e] ++ eventRegs)) ∧
  ∀ (s : State) (slot a : Nat), slot < 8 → s.ensState slot = esForming → (s.ensSlot slot).toLeader = false →
    (s.ensMembers slot).find? (fun a => !(s.ensSlot slot).accepted.contains a) = some a →
    ∃ t, exec (.ensFormTimeout slot) s = .next t ∧ t.ensState slot = esFailed ∧ s.Records t (s.record 0x080B 0 (s.ensId slot) a 0) ∧
      s.RegsFrame t ([ensReg Reg.FAB_ENS_CTRL slot] ++ eventRegs)

/-- Rounds of an ensemble (10 R316, 12 R385): the leader sends its members the parts of the next round, and a member takes them before its
plan freeze; a member's report joins the batch step; the leader commits a batch step that it and every member have complete and drops any
other, and tells the members, which do the same; and a member that gets no decision drops what it holds and ends the ensemble. Model choices
it rests on, which are no rule of the spec: log 53, 58, 116. -/
def Obligations.EnsemblesCommitTogether : Prop :=
  (∀ (s : State) (slot : Nat), slot < 8 → s.ensState slot = esLeader →
    ∃ t parts, exec (.ensPlanSend slot) s = .next t ∧ (t.ensSlot slot).planned = some (s.round + 1) ∧
      t.out = s.out ++ (s.ensMembers slot).map (fun a => .ctrl none a (.ensPlan (s.round + 1) parts)) ∧
      ∀ p, p ∈ parts ↔ ∃ b ∈ s.sage.batches, b.ens = some slot ∧ b.holds = true ∧ b.committed = false ∧ ∃ k,
        b.partAt (s.nparts b.model b.kind) (s.round + 1) = some k ∧ p = ⟨b.id, b.model, b.kind, k, b.members.length⟩) ∧
  (∀ (s : State) (src round e : Nat) (p : PlanPart), s.slotOf [esMember] (fun e => decide (s.ensLeader e = src)) = some e →
    s.round < round → s.sage.frozen < round → s.model? p.model ≠ none →
    (∀ b ∈ s.sage.batches, b.leader = some src → b.remote ≠ [p.batch, p.size]) →
    ∃ t b, exec (.ensPlan src round [p]) s = .next t ∧ t.sage.batches = s.sage.batches ++ [b] ∧ b.model = p.model ∧ b.kind = p.kind ∧
      b.round = round - p.part ∧ b.leader = some src ∧ b.ens = some e ∧ b.remote = [p.batch, p.size] ∧ t.regs = s.regs) ∧
  (∀ (s : State) (src : Nat) (batches : List Nat),
    ∃ t, exec (.ensReport src s.round batches) s = .next t ∧ t.regs = s.regs ∧ t.out = s.out ∧
      ∀ b ∈ s.sage.batches, b.ens ≠ none → b.leader = none → b.id ∈ batches →
        ∃ b' ∈ t.sage.batches, b'.id = b.id ∧ src ∈ b'.remote ∧ ∀ a ∈ b.remote, a ∈ b'.remote) ∧
  (∀ (s : State) (batch e k : Nat) (b : Batch), s.sage.batches.find? (fun b => decide (b.id = batch)) = some b → b.ens = some e →
    b.leader = none → b.part = some k → k + 1 = s.nparts b.model b.kind → b.committed = false → b.decision = none →
    (b.dropped = none → b.complete (s.nparts b.model b.kind) = true → (∀ a ∈ s.ensMembers e, a ∈ b.remote) →
      ∃ t, exec (.ensembleDecision batch) s = .next t ∧ (∀ x ∈ t.sage.batches, x.id = batch → x.committed = true) ∧
        ∀ a ∈ s.ensMembers e, .ctrl none a (.ensDecision s.round [⟨batch, true⟩]) ∈ t.out) ∧
    ((b.dropped ≠ none ∨ b.complete (s.nparts b.model b.kind) = false ∨ ∃ a ∈ s.ensMembers e, a ∉ b.remote) →
      ∃ t, exec (.ensembleDecision batch) s = .next t ∧
        (∀ x ∈ t.sage.batches, x.id = batch → x.dropped ≠ none ∧ x.decision = some false) ∧
        t.out = s.out ++ (s.ensMembers e).map (fun a => .ctrl none a (.ensDecision s.round [⟨batch, false⟩])))) ∧
  (∀ (s : State) (src : Nat) (d : Decision) (b : Batch),
    s.sage.batches.find? (fun b => decide (b.leader = some src) && decide (b.remote.head? = some d.batch) && !b.committed) = some b →
    ∃ t, exec (.ensDecision src s.round [d]) s = .next t ∧
      (d.commit = true → b.dropped = none → b.complete (s.nparts b.model b.kind) = true →
        ∀ x ∈ t.sage.batches, x.id = b.id → x.committed = true) ∧
      (d.commit = false → ∀ x ∈ t.sage.batches, x.id = b.id → x.dropped ≠ none ∧ x.decision = some false)) ∧
  ∀ (s : State) (slot : Nat), slot < 8 → s.ensState slot = esMember →
    (∃ b ∈ s.sage.batches, b.leader ≠ none ∧ b.ens = some slot ∧ b.part ≠ none ∧ b.decision = none ∧ b.committed = false) →
    ∃ t, exec (.ensembleDecisionLost slot) s = .next t ∧ t.ensState slot = esBroken ∧
      s.Shows t (s.record 0x0606 0 0 (s.round % 2 ^ 32) (s.ensLeader slot)) ∧
      ∀ b ∈ t.sage.batches, b.leader ≠ none → b.ens = some slot → b.part ≠ none → b.decision = none → b.committed = false →
        b.dropped = some 5

/-- Ensembles end (12 R386-R388): a beat is heard and answered in the next, which echoes it; a beat not heard, ENS_END, END and a lost
decision end the ensemble; a floor plan of a peer changes nothing; and a query for one is answered. Model choices it rests on, which are no
rule of the spec: log 53, 58, 91. -/
def Obligations.EnsemblesBeatAndEnd : Prop :=
  (∀ (s : State) (src ensId time echoed e : Nat), s.slotWith [esForming, esLeader, esMember] ensId src = some e →
    ∃ t, exec (.ensBeat src ensId time echoed) s = .next t ∧ SMap.get? (t.ensSlot e).beats src = some s.now ∧
      SMap.get? (t.ensSlot e).times src = some time ∧ (echoed ≠ 0 → (t.ensSlot e).roundTrip = some (s.calendar - echoed)) ∧
      t.regs = s.regs ∧ t.out = s.out) ∧
  (∀ s : State, ∃ t, exec .ensBeatTimer s = .next t ∧ t.regs = s.regs ∧ t.fab = s.fab ∧ ∀ e, e < 8 →
    (s.ensState e = esLeader → ∀ a ∈ s.ensMembers e,
      .ctrl none a (.ensBeat (s.ensId e) s.calendar (SMap.getD (s.ensSlot e).times a 0)) ∈ t.out) ∧
    (s.ensState e = esMember →
      .ctrl none (s.ensLeader e) (.ensBeat (s.ensId e) s.calendar (SMap.getD (s.ensSlot e).times (s.ensLeader e) 0)) ∈ t.out)) ∧
  (∀ (s : State) (slot src : Nat), slot < 8 → s.ensState slot = esLeader ∨ s.ensState slot = esMember →
    (∀ x ∈ s.client.sessions, x.model ≠ s.ensModel slot) →
    ∃ t, exec (.ensBeatLoss slot src) s = .next t ∧ s.EnsembleEnded t slot 2 src) ∧
  (∀ (s : State) (src ensId cause e : Nat), s.slotWith [esForming, esLeader, esMember] ensId src = some e →
    (∀ x ∈ s.client.sessions, x.model ≠ s.ensModel e) →
    ∃ t, exec (.ensEnd src ensId cause) s = .next t ∧ s.EnsembleEnded t e cause src) ∧
  (∀ (s : State) (slot : Nat), slot < 8 → s.ensState slot = esForming ∨ s.ensState slot = esLeader ∨ s.ensState slot = esMember →
    (∀ x ∈ s.client.sessions, x.model ≠ s.ensModel slot) →
    ∃ t, exec (.ensCtrlEnd slot) s = .next t ∧ s.EnsembleEnded t slot 0 s.fabAddr) ∧
  (∀ (s : State) (src : Nat) (record : List Nat), exec (.fabFloorPlan src record) s = .next s) ∧
  ∀ (s : State) (src epoch : Nat), exec (.fpQuery src epoch) s = .next { s with
    out := s.out ++ [.ctrl none src (.floorPlan (match s.planOf epoch with | some r => planBytes r | none => []))] }


/-! ## The half link -/

/-- The half link (13 R397-R399, R401-R406, R409): a new frame in sequence is kept by its sender and accepted by its receiver, one that is
not in sequence is asked for again, a control frame acknowledges and returns credits, and what is not acknowledged is sent again; a module
that has trained is ACTIVE, and one that cannot be replaced retires with its position; the lease holder pulses LEASE; the halves split, and
the half without the lease is fenced; and an attestation lets it return or ends its rejoin. Model choices it rests on, which are no rule of
the spec: log 53, 58, 66. -/
def Obligations.HalvesStayLinked : Prop :=
  (∀ (s : State) (module : Nat) (toEast : Bool) (frame : HlkFrame) (flow : HlkFlow) (snd rcv : HlkEnd), module < 108 →
    s.hmState module = hmActive → s.fld Reg.HLK_STATUS 31 31 = 0 → (s.hlkMod module).ends toEast = (snd, rcv) → frame.valid = true →
    frame.seq = snd.nextSeq → s.maySend module toEast frame flow = true → frame.crcOk = true → frame.seq = rcv.expected →
    ∃ t, exec (.hlkFrame module toEast frame flow) s = .next t ∧ t.regs = s.regs ∧ t.out = s.out ∧
      ((t.hlkMod module).ends toEast).1.kept = snd.kept ++ [(frame, flow)] ∧
      ((t.hlkMod module).ends toEast).1.nextSeq = (snd.nextSeq + 1) % 256 ∧
      ((t.hlkMod module).ends toEast).2.expected = (rcv.expected + 1) % 256) ∧
  (∀ (s : State) (module : Nat) (toEast : Bool) (frame : HlkFrame) (flow : HlkFlow) (snd rcv : HlkEnd), module < 108 →
    s.hmState module = hmActive → s.fld Reg.HLK_STATUS 31 31 = 0 → (s.hlkMod module).ends toEast = (snd, rcv) → frame.valid = true →
    frame.seq ≠ snd.nextSeq → frame.crcOk = false ∨ frame.seq ≠ rcv.expected → rcv.discarding = false →
    ∃ t, exec (.hlkFrame module toEast frame flow) s = .next t ∧ t.regs = s.regs ∧
      t.out = s.out ++ [.hlk module (!toEast) (controlFrame rcv true)] ∧ ((t.hlkMod module).ends toEast).1 = snd ∧
      ((t.hlkMod module).ends toEast).2.expected = rcv.expected ∧ ((t.hlkMod module).ends toEast).2.discarding = true) ∧
  (∀ (s : State) (module : Nat) (toEast : Bool) (frame : HlkFrame) (flow : HlkFlow) (snd rcv : HlkEnd), module < 108 →
    s.hmState module = hmActive → s.fld Reg.HLK_STATUS 31 31 = 0 → (s.hlkMod module).ends toEast = (snd, rcv) → frame.valid = false →
    frame.crcOk = true → frame.nak = false →
    ∃ t, exec (.hlkFrame module toEast frame flow) s = .next t ∧ t.regs = s.regs ∧ t.out = s.out ∧
      ((t.hlkMod module).ends toEast).2.kept = rcv.kept.filter (fun k => decide ((k.1.seq + 256 - frame.ack) % 256 < 128)) ∧
      ((t.hlkMod module).ends toEast).2.credits =
        [min 64 (planeAt rcv.credits 0 + frame.reqCredits), min 64 (planeAt rcv.credits 1 + frame.rspCredits)]) ∧
  (∀ (s : State) (module : Nat) (fromWest : Bool), module < 108 → s.hmState module = hmActive →
    ((s.hlkMod module).ends fromWest).1.kept ≠ [] → (s.recentReplays module).length < s.fld Reg.HLK_ERR_LIMIT 15 0 →
    ∃ t, exec (.hlkReplayTimeout module fromWest) s = .next t ∧
      t.out = s.out ++ ((s.hlkMod module).ends fromWest).1.kept.map (fun f => .hlk module fromWest f.1) ∧ s.Counted t Reg.HLK_REPLAYS 1 ∧
      (t.hlkMod module).replays = s.recentReplays module ++ [s.now] ∧ s.RegsFrame t [Reg.HLK_REPLAYS, hmReg module]) ∧
  (∀ (s : State) (module : Nat), module < 108 → s.hmState module = hmTraining →
    ∃ t, exec (.hlkModuleTrained module true) s = .next t ∧ t.hmState module = hmActive ∧
      t.hmWidth module = (s.hlkMod module).target % 4 ∧ (t.hlkMod module).returning = true ∧
      s.RegsFrame t ([hmReg module, Reg.HLK_STATUS] ++ (List.range 32).map (Reg.HLK_ROW_MAP + ·) ++ eventRegs)) ∧
  (∀ (s : State) (module : Nat), module < 108 → s.hmState module = hmTraining → s.fld Reg.HLK_STATUS 31 31 = 0 →
    s.hmPos module < 96 → s.hmWidth module ≠ 2 → (s.hlkMod module).target ≠ 2 →
    ∃ t, exec (.hlkModuleTrained module false) s = .next t ∧ t.hmState module = hmRetired ∧ t.hmPos module = 0xFF ∧
      s.hmPos module ∈ t.link.retired ∧ t.fld Reg.HLK_STATUS 6 0 = t.usablePositions.length % 128) ∧
  (∀ s : State, s.mgmt.silent = false → exec .leasePulse s = .next { s with out := s.out ++ [.lease s.leaseHalf] }) ∧
  (∀ s : State, s.fld Reg.HLK_STATUS 31 31 = 0 → s.fenced .west = false → s.fenced .east = false → s.fld Reg.MGT_SIGNALS 8 8 = 0 →
    s.mainOn = true →
    ∃ t, exec .halvesSplit s = .next t ∧ t.fld Reg.HLK_STATUS 31 31 = 1 ∧ t.leaseHalf = s.leaseHalf ∧ t.plan.due = true ∧
      t.fenced s.leaseHalf = false ∧
      ((s.halfReset (otherHalf s.leaseHalf)).phase ≠ 1 → t.fenced (otherHalf s.leaseHalf) = true ∧
        ∀ ti ∈ s.halfTiles (otherHalf s.leaseHalf), (t.tile ti).segs = [] ∧ t.tilState ti ≠ tilRunning) ∧
      ((s.halfReset (otherHalf s.leaseHalf)).phase = 1 → t.fenced (otherHalf s.leaseHalf) = false ∧ t.link.splitDue = true)) ∧
  ∀ (s : State) (h : Half) (answer : Option Attestation), s.link.rejoin = some (h, 1) →
    ∃ t, exec (.reattestResult answer) s = .next t ∧
      (s.attest answer = 0 → t.link.rejoin = some (h, 2) ∧ s.Records t (s.record 0x0105 0 (halfNo h) 0 0) ∧ s.RegsFrame t eventRegs) ∧
      (s.attest answer ≠ 0 → t.link.rejoin = none ∧ s.Shows t (s.record 0x0105 0 (halfNo h) (s.attest answer) 0) ∧ s.RegsFrame t eventRegs)


/-! ## Power -/

/-- Power-up (14 R418, R419, R427-R429, R433, R434, R439, 16 R470): valid auxiliary power starts the module at calendar time 0, or ends a
fall-back; with presence and the conditions of R418 the bulk charges; the converters, the sequence and the six waves follow, and with the
last wave main power is ON with event 0x0401; a step that exceeds its bound locks main power out and halts the start; after a loss the start
goes on at step 3 when the input returns, or when a retry is accepted; and a deferred domain is switched on once both checks pass. Model
choices it rests on, which are no rule of the spec: log 53, 75, 81, 84. -/
def Obligations.MainPowerComesUp : Prop :=
  (∀ (s : State) (volts : Nat), s.pwr.auxOn = false →
    ∃ t, exec (.auxValid volts) s = .next t ∧ t.pwr.auxOn = true ∧ t.pwr.auxSince = some s.now ∧ t.msState = msStarting ∧ t.step = 1 ∧
      t.fld Reg.ADM_STATUS 2 0 = 1 ∧ t.calendar = 0 ∧ t.boot.t0 = s.now ∧ s.RegsFrame t [Reg.MGT_START_STATUS, Reg.ADM_STATUS]) ∧
  (∀ (s : State) (volts : Nat), s.pwr.auxOn = true → s.fld Reg.PWR_STATUS 31 31 = 1 →
    ∃ t, exec (.auxValid volts) s = .next t ∧ t.fld Reg.PWR_STATUS 31 31 = 0 ∧ t.pwr.auxSince = some s.now ∧
      s.Shows t (s.record 0x0406 0 0 volts 0)) ∧
  (∀ (s : State) (volts : Nat), s.enabled = true → s.fld Reg.PWR_STATUS 31 31 = 0 →
    ∃ t, exec (.auxFallback volts) s = .next t ∧ t.fld Reg.PWR_STATUS 31 31 = 1 ∧ t.pwr.auxSince = none ∧ t.signal 16 = true ∧
      t.psState = s.psState ∧ s.Records t (s.record 0x0406 0 1 volts 0) ∧
      s.RegsFrame t ([Reg.PWR_STATUS, Reg.MGT_SIGNALS] ++ eventRegs)) ∧
  (∀ s : State, ∃ t, exec .presenceMade s = .next t ∧ t.signal 0 = true ∧ t.signal 1 = true ∧
    (s.msState = msStarting → s.step = 3 → s.psState = psAux → (∃ t0, s.pwr.auxSince = some t0 ∧ t0 + 100000000 ≤ s.now) →
      s.pwr.stayOff = false → s.fld Reg.PWR_STATUS 31 31 = 0 → s.tripOpen = false → s.lifeCycle ≠ 5 →
      t.psState = psCharging ∧ t.pwr.step = 1) ∧
    (s.psState ≠ psAux → t.psState = s.psState)) ∧
  (∀ (s : State) (volts time : Nat), s.psState = psCharging →
    ∃ t, exec (.bulkCharged volts time) s = .next t ∧ t.psState = psSeqUp ∧ t.pwr.step = 2 ∧ t.pwr.mainIn = true ∧
      t.pwr.volts = volts ∧ t.pwr.chargeUs = time ∧ s.RegsFrame t [Reg.PWR_STATUS]) ∧
  (∀ (s : State) (volts : Nat), s.psState = psCharging →
    ∃ t, exec (.chargeTimeout volts) s = .next t ∧ s.UpFailed t 1 205 volts) ∧
  (∀ (s : State) (converters : Nat) (deferred : List (Nat × Nat)), s.psState = psSeqUp → s.pwr.step = 2 →
    3 ≤ (s.setFld Reg.PWR_STATUS 20 16 converters).converters →
    ∃ t, exec (.powerUpStepDone converters deferred) s = .next t ∧ t.pwr.step = 3 ∧
      t.fld Reg.PWR_STATUS 20 16 = converters % 32 ∧ t.psState = psSeqUp ∧ s.RegsFrame t [Reg.PWR_STATUS]) ∧
  (∀ (s : State) (converters : Nat) (deferred : List (Nat × Nat)), s.psState = psSeqUp → 2 < s.pwr.step → s.pwr.step < 9 →
    exec (.powerUpStepDone converters deferred) s = .next { s with pwr := { s.pwr with step := s.pwr.step + 1 } }) ∧
  (∀ (s : State) (converters : Nat) (deferred : List (Nat × Nat)), s.psState = psSeqUp → s.pwr.step = 9 → s.step = 9 →
    ∃ t, exec (.powerUpStepDone converters deferred) s = .next t ∧
      (∀ ci, ci < 144 → waveOf ci = s.pwr.wave → s.powered ci = true → s.clState ci ≠ clDark →
        t.clState ci = if ∃ x ∈ deferred, x.1 = ci then clDeferred else if s.clState ci = clTwoPhase then clTwoPhase else clOn) ∧
      (s.pwr.wave ≠ 5 → t.pwr.wave = s.pwr.wave + 1 ∧ t.psState = psSeqUp) ∧
      (s.pwr.wave = 5 → t.psState = psOn ∧ t.signal 7 = true ∧
        s.Records t (s.record 0x0401 0 s.pwr.volts s.pwr.chargeUs s.converters))) ∧
  (∀ (s : State) (domain volts : Nat), s.psState = psSeqUp → s.pwr.step ≠ 9 ∨ 144 ≤ domain →
    ∃ t, exec (.seqTimeout domain volts) s = .next t ∧ s.UpFailed t s.pwr.step domain volts) ∧
  (∀ (s : State) (domain volts : Nat), s.psState = psSeqUp → s.pwr.step = 9 → domain < 144 → s.clState domain ≠ clDark →
    ∃ t, exec (.seqTimeout domain volts) s = .next t ∧ s.GoneDark t domain 2) ∧
  (∀ s : State, s.msState = msAux → s.psState = psAux → s.boot.loaded = true → s.pwr.stayOff = false → s.fld Reg.PWR_STATUS 31 31 = 0 →
    ∃ t, exec .mainRestart s = .next t ∧ t.msState = msStarting ∧ t.step = 3 ∧ t.fld Reg.ADM_STATUS 2 0 = 1 ∧ t.pwr.mainIn = true) ∧
  (∀ s : State, s.psState = psLocked → s.pwr.lockedAt + 1000000000 ≤ s.now →
    (s.pwr.retries.filter (fun t => decide (s.now < t + 86400000000000))).length < 3 → s.fld Reg.PWR_STATUS 31 31 = 0 →
    ∃ t, exec .mainRetry s = .next t ∧ t.psState ≠ psLocked ∧ t.fld Reg.PWR_STATUS 29 29 = 0 ∧ t.msState = msStarting ∧ t.step = 3 ∧
      t.fld Reg.PWR_RETRIES 1 0 = (s.pwr.retries.filter (fun t => decide (s.now < t + 86400000000000))).length + 1) ∧
  (∀ s : State, s.psState ≠ psLocked ∨ s.now < s.pwr.lockedAt + 1000000000 →
    ∃ t, exec .mainRetry s = .next t ∧ t.regs = s.regs ∧ t.pwr = s.pwr ∧ t.out = s.out ++ [.written Reg.PWR_CTRL stRefused]) ∧
  ∀ (s : State) (domain headroom : Nat) (neighbourPeak : Bool) (since cause : Nat), SMap.get? s.pwr.deferred domain = some (since, cause) →
    ∃ t, exec (.switchOnRecheck domain headroom neighbourPeak) s = .next t ∧
      (headroom < 20 → SMap.get? t.pwr.deferred domain = some (since, 0) ∧ t.regs = s.regs) ∧
      (20 ≤ headroom → neighbourPeak = true → SMap.get? t.pwr.deferred domain = some (since, 1) ∧ t.regs = s.regs) ∧
      (20 ≤ headroom → neighbourPeak = false → SMap.get? t.pwr.deferred domain = none ∧
        (domain < 144 → t.clState domain = if s.clState domain = clTwoPhase then clTwoPhase else clOn) ∧
        (10000000 < s.now - since → s.Records t (s.record 0x040B 0 domain ((s.now - since) / 1000 % 2 ^ 32) cause)))

/-- Loss of power and faults of the delivery (14 R417, R420-R422, R426, R430, R431, R435-R438, R443): presence, input and output losses shed
main power, MAIN_OFF takes it down in order, and without auxiliary power the module is off; a converter, a phase, an in-die regulator, a
rail and a domain that fails take what R421 to R438 say and record it; and a remote sense that fails is noted. Model choices it rests on,
which are no rule of the spec: log 53, 79, 81, 82, 84. -/
def Obligations.PowerFaultsAreContained : Prop :=
  (∀ (s : State) (volts : Nat), s.enabled = true →
    ∃ t, exec (.presenceLost volts) s = .next t ∧ s.MainGone t 0x0410 volts 0 0 false ∧ t.signal 0 = false ∧ t.signal 1 = false) ∧
  (∀ (s : State) (volts : Nat), s.enabled = true →
    ∃ t, exec (.mainLost (.input volts)) s = .next t ∧
      s.MainGone t 0x0402 volts (if s.auxValid then 1 else 0) (s.round % 2 ^ 32) false ∧ t.pwr.mainIn = false) ∧
  (∀ (s : State) (peak : Nat), s.enabled = true →
    ∃ t, exec (.mainLost (.overvoltage peak)) s = .next t ∧ s.MainGone t 0x0404 peak 0 0 false) ∧
  (∀ (s : State) (peak : Nat) (fast : Bool), s.enabled = true →
    ∃ t, exec (.mainLost (.overcurrent peak fast)) s = .next t ∧ s.MainGone t 0x0405 peak (if fast then 1 else 0) 0 true ∧
      t.pwr.lockedAt = s.now) ∧
  (∀ (s : State) (entering : Bool) (volts : Nat), s.fld Reg.PWR_STATUS 30 30 ≠ (if entering then 1 else 0) →
    ∃ t, exec (.inputOutOfEnvelope entering volts) s = .next t ∧ t.fld Reg.PWR_STATUS 30 30 = (if entering then 1 else 0) ∧
      s.Records t (s.record 0x0403 0 (if entering then 1 else 0) volts 0) ∧ s.RegsAndEvents t [Reg.PWR_STATUS]) ∧
  (∀ s : State, s.psState = psOn →
    ∃ t, exec .mainOff s = .next t ∧ t.psState = psSeqDown ∧ t.pwr.step = 9 ∧ t.pwr.wave = 5 ∧ t.pwr.stayOff = true ∧
      t.signal 7 = false ∧ t.fld Reg.ADM_STATUS 2 0 = 0) ∧
  (∀ s : State, s.psState ≠ psOn → exec .mainOff s = .next s) ∧
  (∀ s : State, s.psState = psSeqDown →
    ∃ t, exec .powerDownStepDone s = .next t ∧
      (s.pwr.step = 9 → (∀ ci, ci < 144 → waveOf ci = s.pwr.wave → t.reg (Reg.PWR_CL + ci) = 0) ∧
        (s.pwr.wave ≠ 0 → t.pwr.wave = s.pwr.wave - 1 ∧ t.pwr.step = 9) ∧ (s.pwr.wave = 0 → t.pwr.step = 8)) ∧
      (1 < s.pwr.step → s.pwr.step ≠ 9 → t = { s with pwr := { s.pwr with step := s.pwr.step - 1 } }) ∧
      (s.pwr.step ≤ 1 → t.psState = psAux ∧ ∀ ti, (t.tile ti).sram = [] ∧ (t.tile ti).slice = [])) ∧
  (∀ s : State, ∃ t, exec .auxLost s = .next t ∧ t.regs = [] ∧ t.pwr.auxOn = false ∧ t.evt.staging = [] ∧ t.evt.log = s.evt.log ∧
    t.card.trips = s.card.trips ∧ t.card.bytes = s.card.bytes ∧ t.fuses = s.fuses ∧ t.client = Client.init ∧
    ∀ ti, (t.tile ti).sram = [] ∧ (t.tile ti).slice = []) ∧
  (∀ (s : State) (k : Nat), k < 5 → s.enabled = true → s.fld Reg.PWR_STATUS (16 + k) (16 + k) = 1 →
    ∃ t, exec (.converterFailed k) s = .next t ∧ (2 < s.converters → t.fld Reg.PWR_STATUS (16 + k) (16 + k) = 0 ∧
        t.converters + 1 = s.converters ∧ s.Records t (s.record 0x0407 0 k t.converters (min (t.fld Reg.THM_CAP_NOW 15 0) (t.fld Reg.THM_CAP_NOW 31 16)))) ∧
      (s.converters ≤ 2 → t.psState = psAux ∧ ∀ ti, (t.tile ti).sram = [])) ∧
  (∀ (s : State) (cluster phase : Nat), cluster < 144 → phase < 3 → s.clState cluster ≠ clDark →
    s.fld (Reg.PWR_CL + cluster) (24 + phase) (24 + phase) = 1 →
    ∃ t, exec (.phaseFailed cluster phase) s = .next t ∧
      (s.fld (Reg.PWR_CL + cluster) 26 24 = 7 → t.clState cluster = clTwoPhase ∧
        t.fld (Reg.PWR_CL + cluster) 6 0 = min 50 (s.fld (Reg.PWR_CL + cluster) 6 0) ∧ s.Records t (s.record 0x0408 0 cluster phase 2) ∧
        s.RegsAndEvents t [Reg.PWR_CL + cluster]) ∧
      (s.fld (Reg.PWR_CL + cluster) 26 24 ≠ 7 → s.GoneDark t cluster 0)) ∧
  (∀ (s : State) (cluster rail : Nat), cluster < 144 → rail < 3 → (cluster, rail) ∉ s.pwr.deadRegs → s.clState cluster ≠ clDark →
    ∃ t, exec (.dieRegTied cluster rail) s = .next t ∧
      ((tiePartner cluster, rail) ∉ s.pwr.deadRegs → t.fld (Reg.PWR_CL + cluster) (12 + rail) (12 + rail) = 1 ∧
        t.pwr.deadRegs = s.pwr.deadRegs ++ [(cluster, rail)] ∧
        s.Records t (s.record 0x040A 0 (208 + 3 * cluster + rail) (208 + 3 * tiePartner cluster + rail) 0)) ∧
      ((tiePartner cluster, rail) ∈ s.pwr.deadRegs → t.clState cluster = clDark ∧ t.clState (tiePartner cluster) = clDark)) ∧
  (∀ (s : State) (domain volts : Nat), s.enabled = true →
    ∃ t, exec (.railFault domain volts) s = .next t ∧
      (156 ≤ domain → domain ≤ 203 → t.fld (Reg.STM_STACK_STATUS + (domain - 156) / 3) 2 0 = stkOffline ∧
        s.Shows t (s.record 0x040F 0 domain volts 0)) ∧
      (144 ≤ domain → domain ≤ 155 → t.psState = psAux ∧ s.Shows t (s.record 0x040F 0 domain volts 1))) ∧
  (∀ (s : State) (cluster volts duration : Nat), cluster < 144 → s.clState cluster = clOn ∨ s.clState cluster = clTwoPhase →
    ∃ t, exec (.domainUv cluster volts duration) s = .next t ∧ s.Shows t (s.record 0x040D 0 cluster volts duration) ∧
      cluster ∈ t.pwr.noBudget ∧
      (((SMap.getD s.pwr.undervolts cluster []).filter (fun t => decide (s.now < t + 86400000000000))).length < 2 →
        t.clState cluster = clDeferred ∧ SMap.get? t.pwr.deferred cluster ≠ none) ∧
      (2 ≤ ((SMap.getD s.pwr.undervolts cluster []).filter (fun t => decide (s.now < t + 86400000000000))).length →
        t.clState cluster = clDark ∧ cluster ∈ t.plan.dark)) ∧
  (∀ (s : State) (domain : Nat), domain < 640 → domain ∉ s.pwr.localSense →
    ∃ t, exec (.senseFault domain) s = .next t ∧ t.pwr.localSense = s.pwr.localSense ++ [domain] ∧
      s.Records t (s.record 0x040E 0 domain 1 0) ∧ s.RegsFrame t eventRegs) ∧
  (∀ (s : State) (domain : Nat), domain ∈ s.pwr.localSense →
    ∃ t, exec (.senseRestored domain) s = .next t ∧ t.pwr.localSense = s.pwr.localSense.filter (fun d => decide (d ≠ domain)) ∧
      s.Records t (s.record 0x040E 0 domain 0 0) ∧
      (domain < 144 → s.psState = psOn → s.clState domain = clOff → s.powered domain = true → t.clState domain = clDeferred)) ∧
  ∀ (s : State) (domain : Nat), domain < 640 →
    ∃ t, exec (.pwrDomClr domain) s = .next t ∧ t.fld (domReg domain) 31 16 = 0xFFFF ∧ t.reg64 (domReg domain + 1) = 0 ∧
      s.RegsOnly t [domReg domain, domReg domain + 1, domReg domain + 2]


/-! ## The thermal manager -/

/-- The thermal manager (15 R446-R450, R454, R460-R465, 17 R500): a step of the model predicts every node and corrects a spot whose diodes
agree, and a stack, by a quarter of the difference; a guard is lifted; a cap exceeded lowers the bonded share first and then the hottest
cluster; a sample of the coolant gives the factor, its loss stops the work and its return lets it go on; a trip sheds main power under an
open record, which the cool-down check closes; and the state is saved. Model choices it rests on, which are no rule of the spec: log 53, 79,
92, 93, 94. -/
def Obligations.HeatIsHeld : Prop :=
  (∀ (s : State) (diodes : List (Int × Int)) (sensors : List Int) (powers : List Nat), s.pwr.auxOn = true →
    ∃ t, exec (.thermalModelStep diodes sensors powers) s = .next t ∧
      (∀ n, n < 1460 → SMap.get? t.thm.predicted n =
        some (Config.thermalPredict s.free s.boot.cal s.thm.nodes powers (s.fld Reg.THM_FLOW 15 0) s.inlet n)) ∧
      (∀ (spot : Nat) (a b : Int), spot < 1296 → diodes[spot]? = some (a, b) → s.fld (Reg.THM_SPOT + spot) 30 30 = 0 →
        s.fld (Reg.THM_SPOT + spot) 31 31 = 0 → a - b ≤ 30 → b - a ≤ 30 →
        SMap.get? t.thm.used spot = some ((max a b : Int) : Rat) ∧
        SMap.get? t.thm.nodes spot = some (t.pred spot + (((max a b : Int) : Rat) - t.pred spot) / 4)) ∧
      ∀ (k : Nat) (v : Int), k < 16 → sensors[k]? = some v →
        SMap.get? t.thm.used (1440 + k) = some (v : Rat) ∧
        SMap.get? t.thm.nodes (1440 + k) = some (t.pred (1440 + k) + ((v : Rat) - t.pred (1440 + k)) / 4) ∧
        t.fld (Reg.THM_STACK_TEMP + k) 15 0 = field16 v) ∧
  (∀ (s : State) (cluster : Nat), cluster ∈ s.thm.guard → cluster ∉ s.thm.unwell →
    ∃ t, exec (.spotGuardLift cluster) s = .next t ∧ t.thm.guard = s.thm.guard.filter (fun c => decide (c ≠ cluster)) ∧
      t.fld Reg.THM_STATUS 30 30 = (if t.thm.guard = [] then 0 else 1) ∧ s.RegsFrame t [Reg.THM_STATUS]) ∧
  (∀ (s : State) (power : Nat), s.capOf .west < (power : Rat) → s.psState = psOn →
    ∃ t, exec (.capExceeded .west power) s = .next t ∧ t.thm.shareW = max 0 (s.thm.shareW - ((power : Rat) - s.capOf .west)) ∧
      t.thm.shareE = s.thm.shareE ∧ ((power : Rat) - s.capOf .west ≤ s.thm.shareW → t.regs = s.regs) ∧
      (s.thm.shareW < (power : Rat) - s.capOf .west → ∀ ci, s.hottest .west = some ci →
        t.vset ci < s.vset ci ∧ s.vset ci ≤ t.vset ci + 5 ∧ s.RegsFrame t [Reg.PWR_CL + ci])) ∧
  (∀ (s : State) (power : Nat), s.capOf .east < (power : Rat) → s.psState = psOn →
    ∃ t, exec (.capExceeded .east power) s = .next t ∧ t.thm.shareE = max 0 (s.thm.shareE - ((power : Rat) - s.capOf .east)) ∧
      t.thm.shareW = s.thm.shareW) ∧
  (∀ (s : State) (flow : Nat) (inlet outlet : Int), s.pwr.auxOn = true →
    ∃ t, exec (.coolantSample flow inlet outlet) s = .next t ∧ t.thm.flows = window100 s.thm.flows flow ∧
      t.thm.fcool = coolFactor t.meanFlow inlet ∧
      t.reg Reg.THM_COOL_TEMP = BitVec.ofNat 32 (field16 outlet * 65536 + field16 inlet) ∧
      t.fld Reg.THM_FLOW 15 0 = min 65535 t.meanFlow.floor.toNat ∧
      t.fld Reg.THM_STATUS 29 29 = (if inletGood inlet then 0 else 1) ∧
      (s.thState = thNormal ∨ s.thState = thReduced →
        (t.lossTrigger = none → t.thState = if t.thm.fcool < 1 then thReduced else thNormal) ∧
        (t.lossTrigger ≠ none → t.thState = thLoss ∧ t.signal 4 = true ∧ t.fld Reg.THM_STATUS 31 31 = 1))) ∧
  (∀ s : State, s.thState = thLoss → qFull s.inlet ≤ s.meanFlow → inletGood s.inlet = true → s.belowPlan = true →
    ∃ t, exec .coolantRestored s = .next t ∧ t.thState = (if s.thm.reduced then thReduced else thNormal) ∧ t.signal 4 = false ∧
      t.fld Reg.THM_STATUS 31 31 = 0 ∧
      s.Records t (s.record 0x050D 0 ((s.now - s.thm.lossAt) / 1000000 % 2 ^ 32) (s.fld Reg.THM_FLOW 15 0) (tempParam s.inlet)) ∧
      s.RegsAndEvents t [Reg.THM_STATUS, Reg.MGT_SIGNALS]) ∧
  (∀ (s : State) (place : Nat) (value : Int), s.pwr.auxOn = true → s.thState ≠ thTripped → s.thState ≠ thCooldown →
    ∃ t, exec (.thermalTrip place value) s = .next t ∧ t.thState = thTripped ∧ t.signal 5 = true ∧
      s.Shows t (s.record 0x0507 0 place (tempParam value) (s.round % 2 ^ 32)) ∧
      (s.fld Reg.CFG_STATUS 31 31 = 1 → s.card.trips.length < 64 → ∃ r ∈ t.card.trips, r.kind = 1 ∧ r.code = 0x0507 ∧ r.isOpen = true) ∧
      (s.enabled = true → t.psState = psAux ∧ ∀ ti, (t.tile ti).sram = [] ∧ (t.tile ti).slice = [])) ∧
  (∀ s : State, s.thState = thTripped →
    ∃ t, exec .tripHoldEnd s = .next t ∧ t.thState = thCooldown ∧ t.pwr.mainIn = false ∧ s.RegsFrame t [Reg.THM_STATUS]) ∧
  (∀ (s : State) (diodes : List (Int × Int)), s.pwr.auxOn = true → s.tripOpen = true → s.thState ≠ thTripped →
    ∃ t, exec (.cooldownCheck diodes) s = .next t ∧
      ((coolModel s).cooldownFails (highest ((coolModel s).thm.restart.map (fun e => e.2.floor))) (highest (s.inService diodes)) = none →
        t.tripOpen = false ∧ t.signal 5 = false ∧ t.thState = (if s.thm.reduced then thReduced else thNormal)) ∧
      (∀ c v, (coolModel s).cooldownFails (highest ((coolModel s).thm.restart.map (fun e => e.2.floor))) (highest (s.inService diodes)) =
          some (c, v) → t.tripOpen = true ∧ t.thState = s.thState ∧
        (s.pwr.mainIn = true → s.thm.refused = false → t.thm.refused = true ∧ s.Records t (s.record 0x0509 0 c v 0)))) ∧
  ∀ s : State, s.pwr.auxOn = true → s.fld Reg.CFG_STATUS 31 31 = 1 → ∃ t, exec .stateSave s = .next t ∧ s.Saved t ∧ t.regs = s.regs


/-! ## Start, time and removal -/

/-- Start, calendar time and removal (16 R470, R471, R473, R476-R479, R482, R489, 20 R571): a step of the start that ends makes the next
begin, the stacks train at the rates given, and step 12 opens the service; steps 1 and 2 halt the start at their bound; the source sets
calendar time, measures its offset and locks it; and removal drains, closes and powers down. Model choices it rests on, which are no rule of
the spec: log 53, 75, 88, 95, 96, 97. -/
def Obligations.TheModuleStartsAndLeaves : Prop :=
  (∀ (s : State) (r : StartResult), s.msState = msStarting → s.pwr.auxOn = true →
    ∃ t, exec (.startStepDone r) s = .next t ∧
      (s.step = 3 → s.psState = psSeqUp → s.pwr.step = 9 → t.step = 4 ∧ t.boot.stepAt = s.now ∧ s.RegsFrame t [Reg.MGT_START_STATUS]) ∧
      (s.step = 5 → t.step = 6 ∧ ∀ k i rate, k < 16 → r.rates[k]? = some i → stackRates[i]? = some rate →
        t.fld (Reg.STM_STACK_STATUS + k) 15 8 = rate ∧ t.fld (Reg.STM_STACK_STATUS + k) 2 0 = stkReady) ∧
      (s.step = 9 → s.psState = psOn → t.step = 10 ∧ ∀ ti, s.usable ti = true → t.tilState ti = tilIdle) ∧
      (s.step = 11 → s.tb.isSet = true ∨ s.boot.timeSource = 0 → t.step = 12 ∧ s.RegsFrame t [Reg.MGT_START_STATUS]) ∧
      (s.step = 12 → s.ctl.heldW = false → s.ctl.heldE = false → s.boot.heldRemoval = none → s.signal 9 = false →
        t.msState = msServing ∧ t.step = 0 ∧ t.round = s.calendar / s.roundNs % 2 ^ 64)) ∧
  (∀ (s : State) (cause : Nat), s.msState = msStarting → s.pwr.auxOn = true → s.step = 1 ∨ s.step = 2 →
    ∃ t, exec (.startStepTimeout cause) s = .next t ∧ t.msState = msHalted ∧ t.fld Reg.MGT_START_STATUS 19 16 = s.step ∧
      s.Records t (s.record 0x0014 0 s.step cause ((s.now - s.boot.stepAt) / 1000 % 2 ^ 32)) ∧
      s.RegsAndEvents t [Reg.MGT_START_STATUS]) ∧
  (∀ (s : State) (port source : Nat) (t2 : Int), s.boot.timeSource = 1 → s.ptpUsable port = true →
    port = s.fld Reg.MGT_TIME_STATUS 9 8 → s.fromMaster source = true →
    ∃ t, exec (.ptpMessage port s.boot.ptpDomain (.sync source none t2)) s = .next t ∧ t.ptp.t2 = some t2 ∧ t.ptp.t1 = none ∧
      t.out = s.out ++ [.ptpDelayReq port source] ∧ t.regs = s.regs) ∧
  (∀ (s : State) (port source : Nat) (t1 t2 d : Int), s.boot.timeSource = 1 → s.ptpUsable port = true →
    port = s.fld Reg.MGT_TIME_STATUS 9 8 → s.fromMaster source = true → s.ptp.t2 = some t2 → s.ptp.delay = some d → s.tb.isSet = true →
    -750 ≤ t2 - t1 - d → t2 - t1 - d ≤ 750 →
    ∃ t, exec (.ptpMessage port s.boot.ptpDomain (.followUp source t1)) s = .next t ∧ t.ptp.t1 = some t1 ∧
      t.reg Reg.MGT_TIME_OFFSET = BitVec.ofInt 32 (t2 - t1 - d) ∧ t.tb = s.tb ∧ s.RegsFrame t [Reg.MGT_TIME_OFFSET]) ∧
  (∀ (s : State) (q : Nat), s.boot.timeSource = 1 → (List.map (· % 4) [s.fld Reg.MGT_TIME_STATUS 9 8 + 1,
      s.fld Reg.MGT_TIME_STATUS 9 8 + 2, s.fld Reg.MGT_TIME_STATUS 9 8 + 3]).find? s.ptpUsable = some q →
    ∃ t, exec .ptpAnnounceTimeout s = .next t ∧ t.fld Reg.MGT_TIME_STATUS 9 8 = q ∧ t.ptp = PtpState.init ∧ t.tb = s.tb ∧
      s.RegsFrame t [Reg.MGT_TIME_STATUS]) ∧
  (∀ (s : State) (offset : Int), s.boot.timeSource = 2 → s.tb.ppsSecond = none → s.tb.isSet = true →
    ∃ t, exec (.ppsEdge offset) s = .next t ∧
      (-750 ≤ offset → offset ≤ 750 → t.reg Reg.MGT_TIME_OFFSET = BitVec.ofInt 32 offset ∧ t.tb = { s.tb with edge := some s.now } ∧
        s.RegsFrame t [Reg.MGT_TIME_OFFSET]) ∧
      (10000 < offset ∨ offset < -10000 → t = { s with tb := { s.tb with discarded := s.tb.discarded + 1 } })) ∧
  (∀ (s : State) (locked : Bool), (locked = true → s.boot.timeSource ≠ 0 ∧ s.tb.isSet = true) →
    s.fld Reg.MGT_TIME_STATUS 31 31 ≠ (if locked then 1 else 0) →
    ∃ t, exec (.timeLockChange locked) s = .next t ∧ t.fld Reg.MGT_TIME_STATUS 31 31 = (if locked then 1 else 0) ∧
      t.fld Reg.ADM_STATUS 31 31 = (if locked then 1 else 0) ∧ t.fld Reg.ADM_STATUS 30 30 = (if locked then 0 else 1) ∧
      s.Records t (s.record 0x0605 0 (if locked then 0 else 1) (s.reg Reg.MGT_TIME_OFFSET).toNat 0) ∧
      s.RegsAndEvents t [Reg.MGT_TIME_STATUS, Reg.ADM_STATUS]) ∧
  (∀ (s : State) (lo hi : Nat), lo < 2 ^ 32 → hi < 2 ^ 32 →
    ∃ t, exec (.mgtTimeSet lo hi) s = .next t ∧ (t.reg Reg.MGT_TIME_SET_LO).toNat = lo ∧ (t.reg Reg.MGT_TIME_SET_HI).toNat = hi ∧
      (s.boot.timeSource = 0 → s.roundsRun = false → t.calendar = (hi * 2 ^ 32 + lo) * 1000000000 ∧ t.tb.isSet = true) ∧
      (s.boot.timeSource = 0 → s.roundsRun = true → t.tb = { s.tb with pending := some ⟨3, some ((hi * 2 ^ 32 + lo) * 1000000000), 0⟩ }) ∧
      (s.boot.timeSource = 2 → t.tb = { s.tb with ppsSecond := some (hi * 2 ^ 32 + lo, s.now) })) ∧
  (∀ s : State, s.msState = msServing ∨ s.msState = msHalted →
    (∃ t, exec .removeReqN s = .next t ∧ s.RemovalBegun t 0 ∧ t.signal 9 = true) ∧
    ∃ t, exec .mgtRemoveStart s = .next t ∧ s.RemovalBegun t 1 ∧ s.RegsFrame t ([Reg.MGT_START_STATUS] ++ eventRegs)) ∧
  (∀ s : State, s.msState = msAux ∨ s.msState = msStarting →
    exec .mgtRemoveStart s = .next { s with boot := { s.boot with heldRemoval := some 1 } }) ∧
  (∀ (s : State) (r : Removal), s.boot.removal = some r → r.drained = false → s.psState = psOn → s.client.sessions = [] →
    ∃ t, exec .removalDrainEnd s = .next t ∧ t.boot.removal = some { r with closed := 0, ended := 0, drained := true } ∧
      t.fab.leaving = true ∧ t.psState = psSeqDown ∧ t.signal 7 = false ∧ t.pwr.stayOff = true) ∧
  ∀ s : State, ∃ t, exec .alertPulseEnd s = .next t ∧ t.signal 19 = false ∧
    t.signal 3 = decide (s.fld Reg.MGT_SIGNALS 18 16 ≠ 0) ∧ s.RegsOnly t [Reg.MGT_SIGNALS]


/-! ## Card and self-test -/

/-- The configuration card (17 R510-R512, Table 17.8): an authorised START erases the partition of its TARGET and keeps the others, one
without owner authorisation changes nothing on the card and is counted and recorded; the bytes are received up to LEN, programmed 256 at a
time and checked; ABORT, the bound of 60 s and a program that fails end the write FAILED with their cause; the check ends it DONE or FAILED;
and a read answers four bytes and moves the address on. Model choices it rests on, which are no rule of the spec: log 53, 73, 77. -/
def Obligations.CardWritesProceed : Prop :=
  (∀ (s : State) (target len base size : Nat), s.pastStep1 = true → s.card.job = none → s.cardTarget target = some (base, size) →
    len ≤ size →
    ∃ t, exec (.cfgCardStart target len true) s = .next t ∧ t.ccState = ccErasing ∧ t.card.job = some ⟨target, base, size, len, [], 0⟩ ∧
      (∀ a, base ≤ a → a < base + size → SMap.getD t.card.bytes a 0xFF = 0xFF) ∧
      (∀ a, a < base ∨ base + size ≤ a → SMap.getD t.card.bytes a 0xFF = SMap.getD s.card.bytes a 0xFF) ∧
      t.card.trips = s.card.trips ∧ t.card.slot0 = s.card.slot0 ∧ t.card.slot1 = s.card.slot1) ∧
  (∀ (s : State) (target len : Nat), ∃ t, exec (.cfgCardStart target len false) s = .next t ∧ t.card = s.card ∧
    s.Counted t Reg.SEC_AUTH_FAILS 1 ∧ s.Records t (s.record 0x0102 0 0x7F 2 (Reg.CFG_CARD_CTRL % 2 ^ 24)) ∧
    t.out = s.out ++ [.written Reg.CFG_CARD_CTRL stNotAuthorised]) ∧
  (∀ (s : State) (j : CardJob), s.card.job = some j → s.ccState = ccErasing →
    ∃ t, exec .cardEraseDone s = .next t ∧ t.ccState = (if j.len = 0 then ccChecking else ccReceiving) ∧
      s.RegsOnly t [Reg.CFG_CARD_CTRL]) ∧
  (∀ (s : State) (j : CardJob) (v : Word), s.card.job = some j → s.ccState = ccReceiving →
    exec (.cfgCardData v) s =
      .next { s with card := { s.card with job := some { j with received := (j.received ++ leBytes 4 v.toNat).take j.len } } }) ∧
  (∀ (s : State) (j : CardJob), s.card.job = some j → s.ccState = ccReceiving → SMap.wf s.card.bytes = true →
    (0 < min 256 (j.len - j.programmed) ∧ j.programmed + min 256 (j.len - j.programmed) ≤ j.received.length) →
    (∃ t, exec (.cardProgramDone true) s = .next t ∧
      t.card.job = some { j with programmed := j.programmed + min 256 (j.len - j.programmed) } ∧
      (∀ i b, i < min 256 (j.len - j.programmed) → j.received[j.programmed + i]? = some b →
        SMap.getD t.card.bytes (j.base + j.programmed + i) 0xFF = b) ∧
      (∀ a, a < j.base + j.programmed ∨ j.base + j.programmed + min 256 (j.len - j.programmed) ≤ a →
        SMap.getD t.card.bytes a 0xFF = SMap.getD s.card.bytes a 0xFF) ∧
      t.ccState = (if j.programmed + min 256 (j.len - j.programmed) = j.len then ccChecking else ccReceiving) ∧
      s.RegsFrame t [Reg.CFG_CARD_CTRL]) ∧
    ∃ t, exec (.cardProgramDone false) s = .next t ∧ t.ccState = ccFailed ∧ t.card = { s.card with job := none } ∧
      s.Records t (s.record 0x0205 0 j.target 0x102 0)) ∧
  (∀ (s : State) (j : CardJob), s.card.job = some j →
    ∃ t, exec .cfgCardAbort s = .next t ∧ t.ccState = ccFailed ∧ t.card = { s.card with job := none } ∧
      s.Records t (s.record 0x0205 0 j.target 0x100 0) ∧ s.RegsAndEvents { t with card := s.card } [Reg.CFG_CARD_CTRL]) ∧
  (∀ (s : State) (j : CardJob), s.card.job = some j → s.ccState = ccReceiving →
    ∃ t, exec .cardWriteTimeout s = .next t ∧ t.ccState = ccFailed ∧ t.card = { s.card with job := none } ∧
      s.Records t (s.record 0x0205 0 j.target 0x101 0) ∧ s.RegsAndEvents { t with card := s.card } [Reg.CFG_CARD_CTRL]) ∧
  (∀ (s : State) (j : CardJob) (c : Container), s.card.job = some j → s.ccState = ccChecking → j.target = 1 ∨ j.target = 2 →
    s.checkCard j.base j.size (decide (j.target = 2)) (if j.target = 1 then some (s.reg Reg.CFG_IMAGE_SEQ).toNat else none) = .ok c →
    ∃ t, exec .cardCheckDone s = .next t ∧ t.ccState = ccDone ∧ t.card = { s.card with job := none } ∧
      (j.target = 1 → t.fld Reg.CFG_STATUS 29 29 = 1) ∧ s.Records t (s.record 0x0203 0 j.target j.len c.seq)) ∧
  (∀ (s : State) (j : CardJob) (b : Bad), s.card.job = some j → s.ccState = ccChecking → j.target = 1 ∨ j.target = 2 →
    s.checkCard j.base j.size (decide (j.target = 2)) (if j.target = 1 then some (s.reg Reg.CFG_IMAGE_SEQ).toNat else none) = .error b →
    ∃ t, exec .cardCheckDone s = .next t ∧ t.ccState = ccFailed ∧ t.card = { s.card with job := none } ∧
      t.reg Reg.CFG_LAST_ERR = BitVec.ofNat 32 (b.field * 65536 + b.cause) ∧
      s.Records t (s.record 0x0205 0 j.target b.cause b.field)) ∧
  (∀ (s : State) (j : CardJob) (r : Nat × List Nat), s.card.job = some j → s.ccState = ccChecking → j.target = 3 →
    checkBoot s.fuses (s.card.read j.base j.size) = .ok r →
    ∃ t, exec .cardCheckDone s = .next t ∧ t.ccState = ccDone ∧ t.card = { s.card with job := none } ∧
      s.Records t (s.record 0x0203 0 3 j.len 0)) ∧
  ∀ s : State, ∃ t, exec .cfgCardReadData s = .next t ∧ t.out = s.out ++ [.word Reg.CFG_CARD_READ_DATA s.cardWord] ∧
    t.reg Reg.CFG_CARD_READ_ADDR = s.reg Reg.CFG_CARD_READ_ADDR + 4 ∧ t.card = s.card ∧ s.RegsFrame t [Reg.CFG_CARD_READ_ADDR]

/-- Self-test (18 R518-R526): START of a permitted test on a usable tile waits for the next boundary, and TEST 7 is refused; a march that
ends without failing rows reports PASSED and a transparent one leaves every readable word as it was; a failing row takes a spare; a slice of
Thyme counts the units that ran, and a logic unit that fails is recorded and runs again, a second failure retiring its tile; and an
authorised burn makes the fuses hold the burn map, with event 0x0C08. Model choices it rests on, which are no rule of the spec: log 58, 87,
98, 99, 100. -/
def Obligations.SelfTestsReport : Prop :=
  (∀ (s : State) (v : Word), v.getLsbD 31 = true → getBits v 30 28 ≠ 7 → s.bist.job = none → s.testAllowed (getBits v 30 28) = true →
    (getBits v 30 28 ≤ 3 → getBits v 23 12 ≠ 0) → s.usable (getBits v 11 0) = true →
    ∃ t, exec (.bstTestStart v) s = .next t ∧
      t.bist = { s.bist with job := some ⟨getBits v 30 28, getBits v 11 0, getBits v 23 12, false⟩ } ∧
      t.fld Reg.BST_TEST_STATUS 31 30 = 1 ∧ s.RegsFrame t [Reg.BST_TEST_CTRL, Reg.BST_TEST_STATUS] ∧ t.out = s.out) ∧
  (∀ (s : State) (v : Word), getBits v 30 28 = 7 →
    ∃ t, exec (.bstTestStart v) s = .next t ∧ t.bist = s.bist ∧ t.out = s.out ++ [.written Reg.BST_TEST_CTRL stRefused]) ∧
  (∀ (s : State) (j : TestJob), s.bist.job = some j → j.running = true →
    ∃ t, exec (.marchDone (halfOf j.ti) []) s = .next t ∧ t.bist.job = none ∧ t.bist.held = [] ∧
      t.fld Reg.BST_TEST_STATUS 31 30 = 2 ∧ t.fld Reg.BST_TEST_STATUS 23 12 = 0 ∧ t.fld Reg.BST_TEST_STATUS 11 0 = 0 ∧
      (j.test ≤ 3 → s.Records t (s.record 0x0C07 0 j.ti (16 * j.test + 2) 0)) ∧
      (j.test ≤ 1 → ∀ w, (sramDecode ((s.tile j.ti).raw j.ti w) w).1.poisoned = false →
        (sramDecode ((t.tile j.ti).raw j.ti w) w).2 = (sramDecode ((s.tile j.ti).raw j.ti w) w).2)) ∧
  (∀ (s : State) (j : TestJob) (bank row : Nat), s.bist.job = some j → j.running = true → j.test ≤ 1 → bank < 12 →
    j.mask.testBit bank = true →
    ∃ t, exec (.marchDone (halfOf j.ti) [(bank, row)]) s = .next t ∧ t.fld Reg.BST_TEST_STATUS 31 30 = 3 ∧
      t.fld Reg.BST_TEST_STATUS 23 12 = 2 ^ bank ∧ t.fld Reg.BST_TEST_STATUS 11 0 = 1 ∧
      (s.spareRows j.ti 0 bank < 8 → (0, bank, row) ∈ (t.tile j.ti).softSpares) ∧
      (8 ≤ s.spareRows j.ti 0 bank → s.usable j.ti = true → j.ti ∈ t.plan.retired ∧ t.plan.due = true)) ∧
  (∀ (s : State) (u : UnitResult), s.sliceAllowed (clusterOf u.ti) = true → s.usable u.ti = true → u.cls = 0 → u.passed = true →
    s.stm.repairs = [] → s.bist.retest.contains (u.ti, 8 * u.cls + u.index) = false →
    (∃ ci, ci < 144 ∧ ci ≠ clusterOf u.ti ∧ s.passDone ci = false) →
    exec (.thymeSlice (clusterOf u.ti) [u]) s =
      .next { s with bist := { s.bist with done := SMap.put s.bist.done u.ti (SMap.getD s.bist.done u.ti 0 + 1) } }) ∧
  (∀ (s : State) (u : UnitResult), s.sliceAllowed (clusterOf u.ti) = true → s.usable u.ti = true → u.cls = 0 → u.passed = false →
    s.stm.repairs = [] →
    ∃ t, exec (.thymeSlice (clusterOf u.ti) [u]) s = .next t ∧ s.Counted t Reg.BST_THYME_FAILS 1 ∧
      s.Shows t (s.record 0x0C03 0 u.ti u.cls u.index) ∧
      (s.bist.retest.contains (u.ti, 8 * u.cls + u.index) = false → (u.ti, 8 * u.cls + u.index) ∈ t.bist.retest) ∧
      (s.bist.retest.contains (u.ti, 8 * u.cls + u.index) = true →
        (u.ti, 8 * u.cls + u.index) ∉ t.bist.retest ∧ u.ti ∈ t.plan.retired ∧ t.plan.due = true)) ∧
  (∀ s : State, s.diagnosing = true → s.fld Reg.BST_BURN_CTRL 2 0 ≠ burning →
    ∃ t, exec (.bstBurnStart true) s = .next t ∧ t.fld Reg.BST_BURN_CTRL 2 0 = burning ∧ s.RegsOnly t [Reg.BST_BURN_CTRL]) ∧
  (∀ s : State, ∃ t, exec (.bstBurnStart false) s = .next t ∧ t.reg Reg.BST_BURN_CTRL = s.reg Reg.BST_BURN_CTRL ∧ t.fuses = s.fuses ∧
    t.out = s.out ++ [.written Reg.BST_BURN_CTRL stNotAuthorised]) ∧
  ∀ s : State, s.fld Reg.BST_BURN_CTRL 2 0 = burning →
    (∃ t, exec (.burnDone true) s = .next t ∧ t.fld Reg.BST_BURN_CTRL 2 0 = burnDone ∧
      t.fuses = s.burnMap.foldl Fuses.burn s.fuses ∧
      s.Records t (s.record 0x0C08 0 (s.burnMap.filter (fun i => decide (i.kind = 0))).length
        (s.burnMap.filter (fun i => decide (i.kind = 1))).length (s.burnMap.filter (fun i => decide (i.kind = 2))).length)) ∧
    ∃ t, exec (.burnDone false) s = .next t ∧ t.fld Reg.BST_BURN_CTRL 2 0 = burnFailed ∧
      ∃ n, t.fuses = (s.burnMap.take n).foldl Fuses.burn s.fuses


/-! ## Management and the register file -/

/-- The management port and the controllers (19 R534-R550, 20 R574): READ answers one view of its registers; WRITE needs an owner session,
without which it is counted and recorded; keys, identity and life cycle change as the requests say, with their events; SPDM opens, keeps and
ends sessions and reports measurements; PLDM, MCTP and the I3C address answer from the state; the standby takes over from an active
controller whose watchdog expires, and with none ready the port falls silent; and the monitor notes each reference out of tolerance. The
response codes of SPDM, PLDM and MCTP are the model's (the standards are not in the spec; assumption 60). Model choices it rests on, which
are no rule of the spec: log 2, 58, 60, 105 to 111, 118. -/
def Obligations.ManagementAnswers : Prop :=
  (∀ (s : State) (ep tag addr count : Nat), s.portAnswers = true → 0 < count → count ≤ 64 →
    ∃ t, exec (.vdmRead ep tag addr count) s = .next t ∧ t.out = s.out ++ [.vdm ep 0x81 tag 0 ([0, 0] ++
        (List.range count).flatMap (fun i => leBytes 4 (s.readReg ((addr + i) % 2 ^ 32)).toNat))] ∧
      s.RegsFrame t [Reg.EVT_CURSOR, Reg.CFG_CARD_READ_ADDR]) ∧
  (∀ (s : State) (ep i tag : Nat) (w : Word), s.portServes = true → s.ownerSession ep (some i) = true → w.toNat < 2 ^ 17 →
    ∃ t, exec (.vdmWrite ep (some i) tag Reg.EVT_CURSOR [w]) s = .next t ∧ t.fld Reg.EVT_CURSOR 16 0 = w.toNat ∧
      t.out = s.out ++ [.vdm ep 0x82 tag 0 [1, 0]] ∧ s.RegsFrame t [Reg.EVT_CURSOR]) ∧
  (∀ (s : State) (ep tag addr : Nat) (session : Option Nat) (values : List Word), s.portServes = true → values ≠ [] →
    values.length ≤ 64 → s.ownerSession ep session = false →
    ∃ t, exec (.vdmWrite ep session tag addr values) s = .next t ∧ s.Counted t Reg.SEC_AUTH_FAILS 1 ∧
      s.Records t (s.record 0x0102 0 0x7F 2 (addr % 2 ^ 24)) ∧ t.out = s.out ++ [.vdm ep 0x82 tag stNotAuthorised [0, 0]] ∧
      s.RegsFrame t (Reg.SEC_AUTH_FAILS :: eventRegs)) ∧
  (∀ (s : State) (ep tag : Nat) (key : List Nat), s.portServes = true → key.length = 388 →
    ∃ t, exec (.ownerKey ep tag key) s = .next t ∧ SMap.get? t.mgmt.ownerKeys ep = some key ∧ t.regs = s.regs ∧
      t.out = s.out ++ [.vdm ep 0x90 tag 0 []]) ∧
  (∀ (s : State) (ep tag : Nat), s.portServes = true →
    ∃ t nonce, exec (.exportId ep tag) s = .next t ∧ nonce.length = 16 ∧ t.mgmt.nonce = some nonce ∧ t.regs = s.regs ∧
      t.out = s.out ++ [.vdm ep 0x91 tag 0 (leBytes 8 Config.moduleId.toNat ++ nonce ++ s.identity.getD (List.replicate 388 0))]) ∧
  (∀ (s : State) (ep i tag target : Nat), s.portServes = true → s.ownerSession ep (some i) = true →
    (ownerMay s.lifeCycle target = true →
      ∃ t, exec (.lcRequest ep (some i) tag target []) s = .next t ∧ t.lifeCycle = target ∧
        s.Records t (s.record 0x0103 0 s.lifeCycle target s.fuses.slot) ∧ t.out = s.out ++ [.vdm ep 0x93 tag 0 []] ∧
        (target = 5 → ∀ x ∈ t.fuses.seeds, ∀ b ∈ x, b = 0xFF)) ∧
    (ownerMay s.lifeCycle target = false →
      exec (.lcRequest ep (some i) tag target []) s = .next (s.emit (.vdm ep 0x93 tag stRefused [])))) ∧
  (∀ (s : State) (ep tag : Nat) (session : Option Nat) (ticket hash : List Nat), s.portServes = true → ticket ≠ [] →
    s.ticket ticket = .ok (1, hash) → s.lifeCycle = 0 ∨ s.lifeCycle = 4 → s.fuses.owners.length < 4 →
    ∃ t, exec (.lcRequest ep session tag 1 ticket) s = .next t ∧ t.lifeCycle = 1 ∧ t.fuses.owners = s.fuses.owners ++ [hash] ∧
      t.mgmt.nonce = none ∧ s.Records t (s.record 0x0103 0 s.lifeCycle 1 s.fuses.owners.length) ∧
      t.out = s.out ++ [.vdm ep 0x93 tag 0 []]) ∧
  (∀ (s : State) (ep tag target cause : Nat) (session : Option Nat) (ticket : List Nat), s.portServes = true → ticket ≠ [] →
    s.ticket ticket = .error cause →
    ∃ t, exec (.lcRequest ep session tag target ticket) s = .next t ∧ t.fuses = s.fuses ∧ s.Counted t Reg.SEC_AUTH_FAILS 1 ∧
      s.Shows t (s.record 0x0102 0 0x7F 0x13 0) ∧ t.out = s.out ++ [.vdm ep 0x93 tag stNotAuthorised []]) ∧
  (∀ (s : State) (ep reqId : Nat) (x key : List Nat), s.portAnswers = true → s.identity = some key →
    (s.mgmt.sessions.length < 4 → ∃ t body, exec (.spdmRequest ep (.keyExchange reqId x)) s = .next t ∧
      t.mgmt.sessions = s.mgmt.sessions ++ [⟨s.mgmt.nextId, ep, false, none, 0⟩] ∧ t.mgmt.nextId = s.mgmt.nextId + 1 ∧
      t.out = s.out ++ [.spdm ep 0x64 body]) ∧
    (4 ≤ s.mgmt.sessions.length → exec (.spdmRequest ep (.keyExchange reqId x)) s = .next (s.emit (.spdm ep 0x7F [errBusy])))) ∧
  (∀ (s : State) (ep i period : Nat) (key : List Nat) (x : SpdmSession), s.portAnswers = true →
    s.mgmt.sessions.find? (fun y => decide (y.id = i) && decide (y.ep = ep) && !y.isOpen) = some x →
    SMap.get? s.mgmt.ownerKeys ep = some key → s.ownerKey (some key) = true →
    ∃ t, exec (.spdmRequest ep (.finish i (some key) true period)) s = .next t ∧ t.ownerSession ep (some i) = true ∧
      s.Records t (s.record 0x0101 0 i 1 (leAt (keyHash key) 0 4))) ∧
  (∀ (s : State) (ep i : Nat), s.portAnswers = true → s.openSession ep i = true →
    exec (.spdmRequest ep (.heartbeat i)) s = .next (s.emit (.spdm ep 0x68 [])) ∧
    ∃ t, exec (.spdmRequest ep (.endSession i)) s = .next t ∧ (∀ y ∈ t.mgmt.sessions, y.id ≠ i) ∧ t.regs = s.regs ∧
      t.out = s.out ++ [.spdm ep 0x6C []]) ∧
  (∀ (s : State) (i : Nat), s.mgmt.sessions.any (fun x => decide (x.id = i) && x.isOpen && decide (x.period ≠ 0)) = true →
    ∃ t, exec (.spdmHeartbeatTimeout i) s = .next t ∧ (∀ y ∈ t.mgmt.sessions, y.id ≠ i) ∧ t.regs = s.regs) ∧
  (∀ (s : State) (ep index : Nat), s.portAnswers = true → 1 ≤ index → index ≤ 8 →
    exec (.getMeasurements ep none index []) s = .next (s.emit (.spdm ep 0x60 (index :: s.measurement index)))) ∧
  (∀ (s : State) (ep index : Nat) (nonce key : List Nat), s.portAnswers = true → s.identity = some key → 1 ≤ index → index ≤ 8 →
    nonce ≠ [] → ∃ t sig, exec (.getMeasurements ep none index nonce) s = .next t ∧ t.regs = s.regs ∧
      t.out = s.out ++ [.spdm ep 0x60 (index :: s.measurement index ++ sig)]) ∧
  (∀ (s : State) (ep k n : Nat), s.portServes = true →
    (s.sensor k = some n → exec (.pldmRequest ep (.readSensor k)) s = .next (s.emit (.pldm ep (0 :: leBytes 4 n)))) ∧
    (s.stateSensor k = some n → exec (.pldmRequest ep (.readState k)) s = .next (s.emit (.pldm ep (0 :: leBytes 4 n))))) ∧
  (∀ (s : State) (ep eid : Nat), s.portServes = true →
    (8 ≤ eid → eid < 255 → exec (.mctpControl ep (.setEndpointId eid)) s =
      .next ({ s with mgmt := { s.mgmt with eid := eid } }.emit (.mctp ep [0, eid]))) ∧
    exec (.mctpControl ep .getEndpointId) s = .next (s.emit (.mctp ep [0, s.mgmt.eid]))) ∧
  (∀ s : State, s.pwr.auxOn = true → exec .identityDerived s = .next { s with mgmt := { s.mgmt with derived := true } }) ∧
  (∀ (s : State) (d : Nat), s.portAnswers = true → s.mgmt.dynAddr = none →
    exec (.entdaaOrSetdasa (.entdaa d)) s = .next { s with mgmt := { s.mgmt with dynAddr := some (d % 128) } } ∧
    exec (.entdaaOrSetdasa (.setdasa 0x3A d)) s = .next { s with mgmt := { s.mgmt with dynAddr := some (d % 128) } }) ∧
  (∀ (s : State) (h : Half) (logValid : Nat), s.pwr.auxOn = true → s.held h = false → h ≠ s.activeHalf →
    ∃ t, exec (.watchdogExpiry h logValid) s = .next t ∧ t.held h = true ∧ t.fld Reg.MGT_CTRL_STATUS 31 31 = 0 ∧
      s.Records t (s.record 0x0002 0 (halfNo h) 0 0) ∧ s.RegsAndEvents t [Reg.MGT_CTRL_STATUS]) ∧
  (∀ (s : State) (logValid : Nat), s.pwr.auxOn = true → s.held s.activeHalf = false → s.fenced (otherHalf s.activeHalf) = false →
    s.fld Reg.MGT_CTRL_STATUS 31 31 = 1 → s.mgmt.takenOver = false → s.msState ≠ msStarting →
    ∃ t, exec (.watchdogExpiry s.activeHalf logValid) s = .next t ∧ t.activeHalf = otherHalf s.activeHalf ∧
      t.held s.activeHalf = true ∧ t.fld Reg.HLK_STATUS 30 30 = halfNo (otherHalf s.activeHalf) ∧ t.mgmt.sessions = [] ∧
      t.card.job = none ∧ t.psState = s.psState) ∧
  (∀ (s : State) (logValid : Nat), s.pwr.auxOn = true → s.held s.activeHalf = false → s.fenced (otherHalf s.activeHalf) = false →
    s.fld Reg.MGT_CTRL_STATUS 31 31 = 0 →
    ∃ t, exec (.watchdogExpiry s.activeHalf logValid) s = .next t ∧ t.mgmt.silent = true ∧ t.psState = psAux ∧ t.evt.staging = [] ∧
      t.pwr.stayOff = true ∧ t.portAnswers = false) ∧
  (∀ (s : State) (logValid : Nat), s.pwr.auxOn = true → s.held s.activeHalf = false → s.fenced (otherHalf s.activeHalf) = true →
    ∃ t, exec (.watchdogExpiry s.activeHalf logValid) s = .next t ∧ t.mgmt.silent = true ∧ t.fld Reg.ADM_STATUS 2 0 = 0 ∧
      t.fld Reg.BST_REPLACE_STATUS 31 31 = 1 ∧ t.psState = s.psState) ∧
  ∀ (s : State) (ab ac bc : Bool), ∃ t, exec (.refclkCheck ab ac bc) s = .next t ∧ t.signal 31 = (ab || ac) ∧ t.signal 30 = (ab || bc) ∧
    t.signal 29 = (ac || bc) ∧ t.signal 18 = !((ab || ac) && (ab || bc) && (ac || bc)) ∧
    t.signal 3 = decide (t.fld Reg.MGT_SIGNALS 19 16 ≠ 0) ∧ s.RegsOnly t [Reg.MGT_SIGNALS]

/-- Writes of registers (00 R14, R16, 17 R508): an address that holds no register, or in the page of a tile out of service, reads 0 and
refuses and logs the write, which a management WRITE answers REFUSED and does not count in DONE; an RW field takes its value at once, an RL
field in range waits in the shadow copy, and one out of range or an RS field that would change is refused with event 0x0207, field by field.
R16 is stated whole in the first two clauses; the others rest on model choices too: log 58, 101, 102, 105. -/
def Obligations.WritesFollowAccessTypes : Prop :=
  (∀ (s : State) (a : Nat) (w : Word), regDef? a = none ∨ (∃ ti off, tileOf a = some (ti, off) ∧ s.usable ti = false) →
    s.readReg a = 0 ∧
    ∃ t, exec (.registerWrite a w) s = .next t ∧ t.regs = s.regs ∧ t.shadow = s.shadow ∧ t.evt = s.evt ∧
      t.mgmt.logged = s.mgmt.logged ++ [(a, stRefused)] ∧ t.out = s.out ++ [.written a stRefused]) ∧
  (∀ (s : State) (ep i tag a : Nat) (w : Word), regDef? a = none ∨ (∃ ti off, tileOf a = some (ti, off) ∧ s.usable ti = false) →
    a < 2 ^ 32 → s.portServes = true → s.ownerSession ep (some i) = true →
    ∃ t, exec (.vdmWrite ep (some i) tag a [w]) s = .next t ∧ t.regs = s.regs ∧ t.shadow = s.shadow ∧
      t.out = s.out ++ [.written a stRefused, .vdm ep 0x82 tag stRefused [0, 0]]) ∧
  (∀ (s : State) (w : Word), w.toNat < 2 ^ 17 →
    ∃ t, exec (.registerWrite Reg.EVT_CURSOR w) s = .next t ∧ t.fld Reg.EVT_CURSOR 16 0 = w.toNat ∧ s.RegsFrame t [Reg.EVT_CURSOR] ∧
      t.out = s.out ++ [.written Reg.EVT_CURSOR 0]) ∧
  (∀ (s : State) (w : Word), 100 ≤ getBits w 11 0 → getBits w 11 0 ≤ 2000 →
    ∃ t, exec (.registerWrite Reg.THM_SLEW w) s = .next t ∧ t.regs = s.regs ∧
      getBits (SMap.getD t.shadow Reg.THM_SLEW 0) 11 0 = getBits w 11 0 ∧ t.out = s.out ++ [.written Reg.THM_SLEW 0]) ∧
  (∀ (s : State) (w : Word), getBits w 11 0 < 100 ∨ 2000 < getBits w 11 0 →
    ∃ t, exec (.registerWrite Reg.THM_SLEW w) s = .next t ∧ t.shadow = s.shadow ∧ s.RegsFrame t eventRegs ∧
      s.Records t (s.record 0x0207 0 (Reg.THM_SLEW % 2 ^ 24) w.toNat 1) ∧ t.out = s.out ++ [.written Reg.THM_SLEW stRefused]) ∧
  (∀ (s : State) (w : Word), 1400 < getBits w 26 16 → getBits w 10 0 ≤ 1400 →
    ∃ t, exec (.registerWrite Reg.THM_STACK_CAP w) s = .next t ∧ s.RegsFrame t eventRegs ∧
      getBits (t.pendingWord Reg.THM_STACK_CAP) 26 16 = getBits (s.pendingWord Reg.THM_STACK_CAP) 26 16 ∧
      getBits (t.pendingWord Reg.THM_STACK_CAP) 10 0 = getBits w 10 0 ∧
      s.Records t (s.record 0x0207 0 (Reg.THM_STACK_CAP % 2 ^ 24) w.toNat 1) ∧
      t.out = s.out ++ [.written Reg.THM_STACK_CAP stRefused]) ∧
  ∀ (s : State) (w : Word),
    (getBits w 15 0 ≠ s.fld Reg.ADM_ROUND_LEN 15 0 →
      ∃ t, exec (.registerWrite Reg.ADM_ROUND_LEN w) s = .next t ∧ s.RegsFrame t eventRegs ∧ t.shadow = s.shadow ∧
        s.Records t (s.record 0x0207 0 (Reg.ADM_ROUND_LEN % 2 ^ 24) w.toNat 0) ∧
        t.out = s.out ++ [.written Reg.ADM_ROUND_LEN stRefused]) ∧
    (getBits w 15 0 = s.fld Reg.ADM_ROUND_LEN 15 0 →
      exec (.registerWrite Reg.ADM_ROUND_LEN w) s = .next (s.emit (.written Reg.ADM_ROUND_LEN 0)))
end

