-- ==== Sys2Proof/Laws/Crypto.lean ====
section
/-! SUPPORT. Signatures verify: a message padded as RSASSA-PSS asks is accepted under a key of exponent 1, whatever the message. The
tests make their signatures so. -/
set_option Elab.async false
namespace Sys2Proof.Machine

/-! ## Bytes of a number -/

theorem ofLe_digit (l : List Nat) (hl : ∀ b ∈ l, b < 256) (i : Nat) (hi : i < l.length) : ofLe l / 256 ^ i % 256 = l[i] := by
  induction l generalizing i with
  | nil => simp at hi
  | cons b r ih =>
    have hb : b < 256 := hl b (by simp)
    have hr : ∀ x ∈ r, x < 256 := fun x hx => hl x (by simp [hx])
    have e : ofLe (b :: r) = b % 256 + 256 * ofLe r := rfl
    rw [e]
    cases i with
    | zero => simp; omega
    | succ i =>
      have : (b % 256 + 256 * ofLe r) / 256 ^ (i + 1) = ofLe r / 256 ^ i := by
        rw [pow_succ', ← Nat.div_div_eq_div_mul]
        congr 1
        omega
      rw [this, List.getElem_cons_succ]
      exact ih hr i (by simpa using hi)

theorem ofLe_lt (l : List Nat) : ofLe l < 256 ^ l.length := by
  induction l with
  | nil => simp [ofLe]
  | cons b r ih =>
    have e : ofLe (b :: r) = b % 256 + 256 * ofLe r := rfl
    rw [e, List.length_cons, pow_succ']
    omega

theorem ofLe_append (a b : List Nat) : ofLe (a ++ b) = ofLe a + 256 ^ a.length * ofLe b := by
  induction a with
  | nil => simp [ofLe]
  | cons x r ih =>
    have e : ∀ l, ofLe (x :: l) = x % 256 + 256 * ofLe l := fun _ => rfl
    rw [List.cons_append, e, e, ih, List.length_cons, pow_succ']
    ring

/-- The big-endian bytes of the number whose little-endian bytes are those of a list reversed are the list. -/
theorem toBe_ofLe_reverse (l : List Nat) (hl : ∀ b ∈ l, b < 256) : toBe (ofLe l.reverse) l.length = l := by
  apply List.ext_getElem
  · simp [toBe]
  · intro i h1 h2
    have hr : ∀ b ∈ l.reverse, b < 256 := fun b hb => hl b (by simpa using hb)
    have := ofLe_digit l.reverse hr (l.length - 1 - i) (by simp; omega)
    simp only [toBe, List.getElem_map, List.getElem_range]
    rw [pow_mul]
    norm_num at this ⊢
    rw [this]
    congr 1
    omega

/-! ## The hash -/

theorem shaRound_length (v : List (BitVec 32)) (x : BitVec 32 × BitVec 32) (hv : v.length = 8) : (shaRound v x).length = 8 := by
  match v, hv with
  | [a, b, c, d, e, f, g, h], _ => rfl

theorem foldl_shaRound_length (l : List (BitVec 32 × BitVec 32)) (v : List (BitVec 32)) (hv : v.length = 8) :
    (l.foldl shaRound v).length = 8 := by
  induction l generalizing v with
  | nil => exact hv
  | cons x r ih => exact ih _ (shaRound_length v x hv)

theorem shaBlock_length (h : List (BitVec 32)) (b : List Nat) (hh : h.length = 8) : (shaBlock h b).length = 8 := by
  simp only [shaBlock, List.length_map, List.length_zip, hh, foldl_shaRound_length _ h hh, min_self]

theorem sha256_length (m : List Nat) : (sha256 m).length = 32 := by
  have : ∀ (l : List Nat) (h : List (BitVec 32)), h.length = 8 →
      (l.foldl (fun h i => shaBlock h (((shaPad m).drop (64 * i)).take 64)) h).length = 8 := by
    intro l
    induction l with
    | nil => intro h hh; exact hh
    | cons x r ih => intro h hh; exact ih _ (shaBlock_length _ _ hh)
  simp [sha256, List.length_flatMap, this _ shaInit rfl]

theorem sha256_byte (m : List Nat) : ∀ b ∈ sha256 m, b < 256 := by
  intro b hb
  simp only [sha256, List.mem_flatMap, List.mem_map] at hb
  obtain ⟨x, _, i, _, rfl⟩ := hb
  exact Nat.mod_lt _ (by decide)

theorem mgf1_length (seed : List Nat) : (mgf1 seed 351).length = 351 := by
  simp [mgf1, List.length_flatMap, sha256_length, List.length_take]

theorem mgf1_byte (seed : List Nat) (n : Nat) : ∀ b ∈ mgf1 seed n, b < 256 := by
  intro b hb
  have := List.mem_of_mem_take hb
  simp only [List.mem_flatMap] at this
  obtain ⟨i, _, h⟩ := this
  exact sha256_byte _ b h

/-! ## A signature -/

/-- A key of exponent 1 and the modulus 2 to the 3071. -/
def plainKey : List Nat := [1, 0, 0, 0] ++ List.replicate 383 0 ++ [128]

/-- The data block of the padding, with a salt of zeros. -/
def pssBlock : List Nat := List.replicate 318 0 ++ [1] ++ List.replicate 32 0

/-- The hash of the padding. -/
def pssHash (message : List Nat) : List Nat := sha256 (List.replicate 8 0 ++ sha256 message ++ List.replicate 32 0)

/-- The masked data block. -/
def pssMasked (message : List Nat) : List Nat :=
  ((pssBlock.zip (mgf1 (pssHash message) 351)).map (fun x => x.1 ^^^ x.2)).mapIdx (fun i b => if i = 0 then b % 128 else b)

/-- The padded message. -/
def pssPad (message : List Nat) : List Nat := pssMasked message ++ pssHash message ++ [0xBC]

/-- The signature of a message under plainKey. -/
def plainSign (message : List Nat) : List Nat := (toBe (ofLe (pssPad message).reverse) 384).reverse

theorem pssBlock_length : pssBlock.length = 351 := by decide +kernel

theorem pssMasked_length (m : List Nat) : (pssMasked m).length = 351 := by
  simp [pssMasked, pssBlock_length, mgf1_length]

theorem xor_lt (a b : Nat) (ha : a < 256) (hb : b < 256) : a ^^^ b < 256 := Nat.xor_lt_two_pow (n := 8) ha hb

theorem pssBlock_byte : ∀ b ∈ pssBlock, b < 2 := by decide +kernel

theorem pssMasked_getElem (m : List Nat) (i : Nat) (h : i < (pssMasked m).length) :
    (pssMasked m)[i] = if i = 0 then
        (pssBlock[i]'(by simpa [pssMasked_length, pssBlock_length] using h) ^^^ (mgf1 (pssHash m) 351)[i]'(by simpa [pssMasked_length, mgf1_length] using h)) % 128
      else pssBlock[i]'(by simpa [pssMasked_length, pssBlock_length] using h) ^^^ (mgf1 (pssHash m) 351)[i]'(by simpa [pssMasked_length, mgf1_length] using h) := by
  simp [pssMasked]

theorem pssMasked_byte (m : List Nat) : ∀ b ∈ pssMasked m, b < 256 := by
  intro b hb
  obtain ⟨i, hi, rfl⟩ := List.mem_iff_getElem.1 hb
  rw [pssMasked_getElem m i hi]
  have h1 : pssBlock[i]'(by simpa [pssMasked_length, pssBlock_length] using hi) < 256 := by
    have := pssBlock_byte _ (List.getElem_mem (l := pssBlock) (by simpa [pssMasked_length, pssBlock_length] using hi))
    omega
  have h2 : (mgf1 (pssHash m) 351)[i]'(by simpa [pssMasked_length, mgf1_length] using hi) < 256 := mgf1_byte _ _ _ (List.getElem_mem _)
  have := xor_lt _ _ h1 h2
  split
  · exact lt_of_lt_of_le (Nat.mod_lt _ (by decide)) (by decide)
  · exact this

theorem pssPad_length (m : List Nat) : (pssPad m).length = 384 := by
  simp [pssPad, pssMasked_length, pssHash, sha256_length]

theorem pssPad_byte (m : List Nat) : ∀ b ∈ pssPad m, b < 256 := by
  intro b hb
  simp only [pssPad, List.mem_append, List.mem_singleton] at hb
  rcases hb with (h | h) | h
  · exact pssMasked_byte m b h
  · exact sha256_byte _ b h
  · omega

theorem pssPad_head (m : List Nat) : (pssPad m)[0]'(by simp [pssPad_length]) < 128 := by
  have h : 0 < (pssMasked m).length := by simp [pssMasked_length]
  have : (pssPad m)[0]'(by simp [pssPad_length]) = (pssMasked m)[0]'h := by
    simp only [pssPad, List.append_assoc]
    rw [List.getElem_append_left h]
  rw [this, pssMasked_getElem m 0 h, if_pos rfl]
  exact Nat.mod_lt _ (by decide)

theorem plainSign_eq (m : List Nat) : plainSign m = (pssPad m).reverse := by
  have h := toBe_ofLe_reverse (pssPad m) (pssPad_byte m)
  rw [pssPad_length] at h
  rw [plainSign, h]

theorem plainSign_length (m : List Nat) : (plainSign m).length = 384 := by simp [plainSign_eq, pssPad_length]

theorem plainSign_lt (m : List Nat) : ofLe (plainSign m) < 2 ^ 3071 := by
  obtain ⟨x, r, e⟩ : ∃ x r, pssPad m = x :: r := by
    cases h : pssPad m with
    | nil => have := pssPad_length m; simp [h] at this
    | cons x r => exact ⟨x, r, rfl⟩
  have hx : x < 128 := by have := pssPad_head m; simpa [e] using this
  have hr : r.length = 383 := by have := pssPad_length m; simpa [e] using this
  have h1 := ofLe_lt r.reverse
  rw [List.length_reverse, hr] at h1
  have e1 : ofLe [x] = x := by simp [ofLe]; omega
  rw [plainSign_eq, e, List.reverse_cons, ofLe_append, List.length_reverse, hr, e1]
  have h2 : (2 : Nat) ^ 3071 = 256 ^ 383 * 128 := by rw [show (256 : Nat) = 2 ^ 8 from rfl, show (128 : Nat) = 2 ^ 7 from rfl, ← pow_mul, ← pow_add]
  rw [h2]
  calc ofLe r.reverse + 256 ^ 383 * x < 256 ^ 383 + 256 ^ 383 * x := by omega
    _ = 256 ^ 383 * (x + 1) := by ring
    _ ≤ 256 ^ 383 * 128 := Nat.mul_le_mul_left _ (by omega)

theorem plainKey_modulus : ofLe ((plainKey.drop 4).take 384) = 2 ^ 3071 := by decide +kernel
theorem plainKey_exponent : ofLe (plainKey.take 4) = 1 := by decide +kernel

theorem powMod_zero (n k b : Nat) (hn : 1 < n) : powMod n k b 0 = 1 := by
  induction k generalizing b with
  | zero => simp [powMod, Nat.mod_eq_of_lt hn]
  | succ k ih => simp [powMod, ih, Nat.mod_eq_of_lt hn]

theorem powMod_one (n b : Nat) (hn : 1 < n) (hb : b < n) : powMod n 32 b 1 = b := by
  rw [powMod]
  simp [powMod_zero n 31 _ hn, Nat.mod_eq_of_lt hb]

theorem unmask (m : List Nat) :
    (((pssMasked m).zip (mgf1 (pssHash m) 351)).map (fun x => x.1 ^^^ x.2)).mapIdx (fun i b => if i = 0 then b % 128 else b) = pssBlock := by
  apply List.ext_getElem
  · simp [pssMasked_length, mgf1_length, pssBlock_length]
  · intro i h1 h2
    have hm : i < (pssMasked m).length := by simpa [pssMasked_length, pssBlock_length] using h2
    simp only [List.getElem_mapIdx, List.getElem_map, List.getElem_zip, pssMasked_getElem m i hm]
    split
    · subst_vars
      have h0 : ∀ h : 0 < pssBlock.length, pssBlock[0]'h = 0 := by decide +kernel
      rw [h0]
      generalize (mgf1 (pssHash m) 351)[0]'_ = y
      rw [Nat.zero_xor]
      have : ∀ a b : Nat, (a ^^^ b) % 128 = a % 128 ^^^ b % 128 := fun a b => Nat.xor_mod_two_pow (n := 7)
      rw [this, Nat.mod_mod, Nat.xor_self]
    · rw [Nat.xor_assoc, Nat.xor_self, Nat.xor_zero]

/-- A signature made by plainSign verifies under plainKey, for every message. -/
theorem rsaVerify_plainSign (m : List Nat) : rsaVerify plainKey m (plainSign m) = true := by
  have hs : (plainSign m).take 384 = plainSign m := List.take_of_length_le (by simp [plainSign_length])
  have hlt := plainSign_lt m
  have hp : toBe (ofLe (plainSign m)) 384 = pssPad m := by
    have := toBe_ofLe_reverse (pssPad m) (pssPad_byte m)
    rwa [pssPad_length, ← plainSign_eq] at this
  have ht : (pssPad m).take 351 = pssMasked m := by
    rw [pssPad, List.append_assoc, List.take_append_of_le_length (by simp [pssMasked_length]), List.take_of_length_le (by simp [pssMasked_length])]
  have hd : ((pssPad m).drop 351).take 32 = pssHash m := by
    have e : (pssPad m).drop 351 = pssHash m ++ [0xBC] := by
      rw [pssPad, List.append_assoc, List.drop_append_of_le_length (by simp [pssMasked_length]),
        List.drop_eq_nil_of_le (by simp [pssMasked_length]), List.nil_append]
    rw [e, List.take_append_of_le_length (by simp [pssHash, sha256_length]), List.take_of_length_le (by simp [pssHash, sha256_length])]
  have hl : (pssPad m).getD 383 0 = 0xBC := by
    rw [pssPad, List.getD_eq_getElem?_getD, List.getElem?_append_right (by simp [pssMasked_length, pssHash, sha256_length])]
    simp [pssMasked_length, pssHash, sha256_length]
  have hh : (pssPad m).getD 0 0 < 128 := by
    rw [List.getD_eq_getElem?_getD, List.getElem?_eq_getElem (by simp [pssPad_length])]
    simpa using pssPad_head m
  have hk : plainKey.length = 388 := by decide +kernel
  have hb1 : pssBlock.take 319 = List.replicate 318 0 ++ [1] := by decide +kernel
  have hb2 : pssBlock.drop 319 = List.replicate 32 0 := by decide +kernel
  unfold rsaVerify
  simp only [plainKey_modulus, plainKey_exponent, hs, powMod_one (2 ^ 3071) _ (Nat.one_lt_two_pow (by decide)) hlt, hp, ht, hd, unmask, hl, hk, hb1, hb2,
    plainSign_length, hlt, hh, le_refl, decide_true, Bool.and_self]
  simp [pssHash]

end Sys2Proof.Machine
end

