-- ==== Sys2Proof/Laws/SMap.lean ====
section
/-! SUPPORT. What the operations on sparse maps do to a read, and that each keeps the canonical form. -/
set_option Elab.async false
namespace Sys2Proof.Machine

/-- The canonical form, as a statement about the keys. -/
theorem SMap.wf_iff {β : Type} (m : SMap β) : SMap.wf m = true ↔ (m.map Prod.fst).Pairwise (· < ·) := by
  induction m with
  | nil => simp [SMap.wf]
  | cons x r ih =>
    cases r with
    | nil => simp [SMap.wf]
    | cons y q =>
      simp only [SMap.wf, Bool.and_eq_true, decide_eq_true_eq, ih, List.map_cons, List.pairwise_cons]
      constructor
      · rintro ⟨h, k, l⟩
        refine ⟨?_, k, l⟩
        intro a ha
        rcases List.mem_cons.1 ha with rfl | ha
        · exact h
        · exact h.trans (k a ha)
      · rintro ⟨h, k, l⟩
        exact ⟨h _ (List.mem_cons_self ..), k, l⟩

/-- An entry put into a map is one of the new map's entries or was there before. -/
theorem SMap.mem_put {β : Type} {m : SMap β} {k : Nat} {v : β} {e : Nat × β} (h : e ∈ SMap.put m k v) :
    e = (k, v) ∨ e ∈ m := by
  induction m with
  | nil => simpa [SMap.put] using h
  | cons x r ih =>
    simp only [SMap.put] at h
    split at h
    · simpa using h
    · split at h
      · rcases List.mem_cons.1 h with h | h
        · exact .inl h
        · exact .inr (List.mem_cons_of_mem _ h)
      · rcases List.mem_cons.1 h with h | h
        · exact .inr (h ▸ List.mem_cons_self ..)
        · rcases ih h with h | h
          · exact .inl h
          · exact .inr (List.mem_cons_of_mem _ h)

/-- Putting an entry keeps the keys rising. -/
theorem SMap.put_wf {β : Type} {m : SMap β} (k : Nat) (v : β) (h : SMap.wf m = true) : SMap.wf (SMap.put m k v) = true := by
  rw [SMap.wf_iff] at *
  induction m with
  | nil => simp [SMap.put]
  | cons x r ih =>
    simp only [List.map_cons, List.pairwise_cons] at h
    simp only [SMap.put]
    split
    · rename_i hk
      simp only [List.map_cons, List.pairwise_cons]
      refine ⟨fun a ha => ?_, h⟩
      rcases List.mem_cons.1 ha with rfl | ha
      · exact hk
      · exact hk.trans (h.1 a ha)
    · split
      · rename_i hk
        subst hk
        simpa using h
      · simp only [List.map_cons, List.pairwise_cons]
        refine ⟨fun a ha => ?_, ih h.2⟩
        obtain ⟨e, he, rfl⟩ := List.mem_map.1 ha
        rcases SMap.mem_put he with rfl | he
        · show x.1 < k
          omega
        · exact h.1 _ (List.mem_map_of_mem he)

/-- Leaving entries out keeps the keys rising. -/
theorem SMap.filter_wf {β : Type} {m : SMap β} (p : Nat × β → Bool) (h : SMap.wf m = true) : SMap.wf (m.filter p) = true := by
  rw [SMap.wf_iff] at *
  exact h.sublist (List.filter_sublist.map _)

/-- Taking an entry out keeps the keys rising. -/
theorem SMap.del_wf {β : Type} {m : SMap β} (k : Nat) (h : SMap.wf m = true) : SMap.wf (SMap.del m k) = true :=
  SMap.filter_wf _ h

/-- Keeping some entries keeps the keys rising. -/
theorem SMap.keep_wf {β : Type} {m : SMap β} (p : Nat → Bool) (h : SMap.wf m = true) : SMap.wf (SMap.keep m p) = true :=
  SMap.filter_wf _ h

/-- Writing a value keeps the keys rising. -/
theorem SMap.set_wf {β : Type} [DecidableEq β] {m : SMap β} (k : Nat) (v d : β) (h : SMap.wf m = true) :
    SMap.wf (SMap.set m k v d) = true := by
  unfold SMap.set
  split
  · exact SMap.del_wf k h
  · exact SMap.put_wf k v h

/-- Changing the values of a map in place keeps the keys rising. -/
theorem SMap.map_wf {α β : Type} {m : SMap α} (f : Nat × α → β) (h : SMap.wf m = true) :
    SMap.wf (m.map (fun e => (e.1, f e)) : SMap β) = true := by
  rw [SMap.wf_iff] at *
  simpa [List.map_map, Function.comp_def] using h

/-- A read after a put: the entry put at its key, the old entry at every other. -/
theorem SMap.get?_put {β : Type} (m : SMap β) (k : Nat) (v : β) (j : Nat) :
    SMap.get? (SMap.put m k v) j = if j = k then some v else SMap.get? m j := by
  induction m with
  | nil => simp [SMap.put, SMap.get?]
  | cons x r ih =>
    simp only [SMap.put]
    split
    · rename_i hk
      simp only [SMap.get?]
    · split
      · rename_i hk
        subst hk
        simp only [SMap.get?]
        split <;> rfl
      · rename_i h1 h2
        simp only [SMap.get?, ih]
        split
        · rename_i hj
          rw [if_neg (by omega)]
        · rfl

/-- A read where only the keys of a set are kept. -/
theorem SMap.get?_filter {β : Type} (m : SMap β) (p : Nat → Bool) (j : Nat) :
    SMap.get? (m.filter (fun e => p e.1)) j = if p j then SMap.get? m j else none := by
  induction m with
  | nil => simp [SMap.get?]
  | cons x r ih =>
    by_cases hx : p x.1 = true
    · rw [List.filter_cons_of_pos (by simpa using hx)]
      simp only [SMap.get?, ih]
      by_cases hj : j = x.1
      · simp [hj, hx]
      · simp [hj]
    · rw [List.filter_cons_of_neg (by simpa using hx), ih]
      by_cases hj : j = x.1
      · simp [hj, hx]
      · simp [SMap.get?, hj]

/-- A read after an entry is taken out, in canonical form. -/
theorem SMap.get?_del {β : Type} (m : SMap β) (k j : Nat) :
    SMap.get? (SMap.del m k) j = if j = k then none else SMap.get? m j := by
  induction m with
  | nil => simp [SMap.del, SMap.get?]
  | cons x r ih =>
    simp only [SMap.del, List.filter_cons] at *
    split
    · rename_i hx
      have hx : x.1 ≠ k := by simpa using hx
      simp only [SMap.get?, ih]
      split
      · rename_i hj
        rw [if_neg (by omega)]
      · rfl
    · rename_i hx
      have hx : x.1 = k := by simpa using hx
      simp only [SMap.get?, ih]
      split
      · rfl
      · rename_i hj
        rw [if_neg (by omega)]

/-- A read with a default after a write with that default: the value written at its key, the old value at every other. -/
theorem SMap.getD_set {β : Type} [DecidableEq β] (m : SMap β) (k : Nat) (v d : β) (j : Nat) :
    SMap.getD (SMap.set m k v d) j d = if j = k then v else SMap.getD m j d := by
  by_cases hv : v = d
  · unfold SMap.set SMap.getD
    rw [if_pos hv, SMap.get?_del]
    by_cases hj : j = k <;> simp [hj, hv]
  · unfold SMap.set SMap.getD
    rw [if_neg hv, SMap.get?_put]
    by_cases hj : j = k <;> simp [hj]

/-- The read of another key does not depend on the default of the key written. -/
theorem SMap.getD_set_ne {β : Type} [DecidableEq β] (m : SMap β) {k j : Nat} (v d d' : β) (h : j ≠ k) :
    SMap.getD (SMap.set m k v d) j d' = SMap.getD m j d' := by
  by_cases hv : v = d
  · unfold SMap.set SMap.getD
    rw [if_pos hv, SMap.get?_del, if_neg h]
  · unfold SMap.set SMap.getD
    rw [if_neg hv, SMap.get?_put, if_neg h]

/-- A write lists no value that an unlisted key reads as. -/
theorem SMap.set_listed {β : Type} [DecidableEq β] {m : SMap β} {k : Nat} {v d : β} {r : Nat → β} (hd : d = r k)
    (h : ∀ e ∈ m, e.2 ≠ r e.1) : ∀ e ∈ SMap.set m k v d, e.2 ≠ r e.1 := by
  unfold SMap.set
  split
  · intro e he
    exact h e (List.mem_of_mem_filter he)
  · rename_i hv
    intro e he
    rcases SMap.mem_put he with rfl | he
    · exact hd ▸ hv
    · exact h e he

end Sys2Proof.Machine
end

