-- ==== Sys2Proof/Laws/Kept.lean ====
section
/-! SUPPORT. The relation that every operation and every command keeps between the state before it and the state after it, and the
operations that build a state from another. The files Kept<File> beside this one prove it, operation by operation and command by command,
for the file of the machine they name. -/
set_option Elab.async false
namespace Sys2Proof.Machine

/-- What every operation keeps: the queue as it was, and the canonical form. -/
structure Kept (s t : State) : Prop where
  queue : t.pending = s.pending
  form : s.wf → t.wf

theorem Kept.foldlPair {α β : Type} {g : State × β → α → State × β} {l : List α} {s : State} {t : State × β} (h : ∀ x a, Kept x.1 (g x a).1) (k : Kept s t.1) : Kept s (l.foldl g t).1 := by
  induction l generalizing t with
  | nil => exact k
  | cons a l ih => exact ih ⟨(h t a).queue.trans k.queue, fun w => (h t a).form (k.form w)⟩

/-- A command answers a next state, which keeps the queue and the canonical form. -/
def Answers (s : State) (o : Host.Outcome State Fault Refusal) : Prop := ∃ t, o = .next t ∧ Kept s t

theorem Answers.next {s t : State} (h : Kept s t) : Answers s (.next t) := ⟨t, rfl, h⟩

theorem Kept.refl (s : State) : Kept s s := ⟨rfl, id⟩

theorem Kept.trans {s t u : State} (h : Kept s t) (k : Kept t u) : Kept s u := ⟨k.queue.trans h.queue, fun w => k.form (h.form w)⟩

theorem Kept.upd {s t : State} {mesh stm sup evt plan trust sage client fab tb ptp ctl link pwr thm boot card fuses bist mgmt out now free}
   (h : Kept s t) (m : SMap.wf t.stm.mem = true → SMap.wf stm.mem = true := by exact fun h => h) :
   Kept s (State.mk t.regs t.shadow t.tiles mesh stm sup evt plan trust sage client fab tb ptp ctl link pwr thm boot card fuses bist mgmt out now free t.pending) :=
   ⟨h.queue, fun w => let k := h.form w; ⟨k.regs, k.listed, k.tiles, k.tile, k.shadow, m k.stack⟩⟩

theorem Kept.foldl {α : Type} {g : State → α → State} {l : List α} {s t : State} (h : ∀ x a, Kept x (g x a)) (k : Kept s t) : Kept s (l.foldl g t) := by
  induction l generalizing t with
  | nil => exact k
  | cons a l ih => exact ih (k.trans (h t a))

theorem State.setReg_kept {s : State} {a v} : Kept s (s.setReg a v) :=
  ⟨rfl, fun w => { w with regs := SMap.set_wf _ _ _ w.regs, listed := SMap.set_listed rfl w.listed }⟩

theorem Tile.init_wf : Tile.init.wf := ⟨rfl, rfl, rfl⟩

theorem SMap.getD_mem {β : Type} {m : SMap β} {k : Nat} {d : β} : SMap.getD m k d = d ∨ (k, SMap.getD m k d) ∈ m := by
  induction m with
  | nil => exact .inl rfl
  | cons x r ih =>
    unfold SMap.getD at *
    simp only [SMap.get?]
    split
    · rename_i h
      split at h
      · rename_i hk
        cases h
        exact .inr (hk ▸ List.mem_cons_self ..)
      · rename_i hk
        rw [h] at ih
        exact ih.imp id (List.mem_cons_of_mem _)
    · exact .inl rfl

theorem State.tile_wf {s : State} {ti} (w : s.wf) : (s.tile ti).wf := by
  rcases @SMap.getD_mem _ s.tiles ti Tile.init with h | h
  · unfold State.tile
    rw [h]
    exact Tile.init_wf
  · exact w.tile _ h

theorem State.setTile_kept {s : State} {a v} (h : s.wf → v.wf) : Kept s (s.setTile a v) :=
  ⟨rfl, fun w => { w with
    tiles := SMap.put_wf _ _ w.tiles
    tile := fun e he => by
      rcases SMap.mem_put he with rfl | he
      · exact h w
      · exact w.tile e he }⟩

theorem State.setTile_at {s t : State} {a v} (k : Kept s t) (h : s.wf → v.wf) : Kept s (t.setTile a v) :=
  ⟨k.queue, fun w => (State.setTile_kept (fun _ => h w)).form (k.form w)⟩

theorem State.modTile_kept {s : State} {a f} (h : ∀ t : Tile, t.wf → (f t).wf := by exact fun _ h => h) : Kept s (s.modTile a f) :=
  State.setTile_kept (fun w => h _ (State.tile_wf w))

theorem State.resetRegs_kept {s : State} {a} : Kept s (s.resetRegs a) :=
  ⟨rfl, fun w => { w with regs := SMap.filter_wf _ w.regs, listed := fun e he => w.listed e (List.mem_of_mem_filter he) }⟩

/-- A work that, where there is one, ends in an effect that keeps the queue and the canonical form. -/
def Calm (x : Except Flt Work) : Prop := ∀ w, x = .ok w → ∀ y, Kept y (w.after y)

theorem Calm.error (e : Flt) : Calm (.error e) := fun _ h => nomatch h

theorem Calm.ok {w : Work} (h : ∀ y, Kept y (w.after y)) : Calm (.ok w) := fun _ e => by cases e; exact h

theorem Kept.ite {c : Prop} [Decidable c] {s t u : State} (h : Kept s t) (k : Kept s u) : Kept s (if c then t else u) := by
  split
  · exact h
  · exact k

theorem Answers.ite {c : Prop} [Decidable c] {s : State} {t u : Host.Outcome State Fault Refusal} (h : Answers s t) (k : Answers s u) :
    Answers s (if c then t else u) := by
  split
  · exact h
  · exact k

theorem Calm.ite {c : Prop} [Decidable c] {t u : Except Flt Work} (h : Calm t) (k : Calm u) : Calm (if c then t else u) := by
  split
  · exact h
  · exact k

theorem fltPoison_kept {a : Nat} : Calm (fltPoison a) := Calm.error _

theorem flt_kept {c : Nat} : Calm (flt c) := Calm.error _

theorem fltAt_kept {c a : Nat} : Calm (fltAt c a) := Calm.error _

theorem badDesc_kept {d : Desc} : Calm (badDesc d) := Calm.error _
end Sys2Proof.Machine
end

