-- ==== Sys2Proof/Laws/KeptOps.lean ====
section
/-! SUPPORT. The definitions of Machine/Ops.lean keep the queue and the canonical form. -/
set_option Elab.async false
namespace Sys2Proof.Machine

theorem State.setFld_kept {s : State} {a hi lo v : Nat} : Kept s (State.setFld s a hi lo v) := by
  unfold State.setFld
  exact State.setReg_kept

theorem State.count_kept {s : State} {a n : Nat} : Kept s (State.count s a n) := by
  unfold State.count
  extract_lets v₁
  clear_value v₁
  exact State.setReg_kept

theorem State.setReg64_kept {s : State} {a v : Nat} : Kept s (State.setReg64 s a v) := by
  unfold State.setReg64
  exact Kept.trans State.setReg_kept State.setReg_kept

theorem State.takeFree_kept {s : State} : Kept s (State.takeFree s).2 := by
  unfold State.takeFree
  dsimp only
  exact Kept.upd (Kept.refl _)

theorem State.takeBytes_kept {s : State} {n : Nat} : Kept s (State.takeBytes s n).2 := by
  unfold State.takeBytes
  dsimp only
  exact Kept.upd (Kept.refl _)

theorem State.setTilState_kept {s : State} {ti st : Nat} : Kept s (State.setTilState s ti st) := by
  unfold State.setTilState
  exact State.setFld_kept

theorem State.send_kept {s : State} {p : Packet} : Kept s (State.send s p) := by
  unfold State.send
  exact Kept.upd (Kept.refl _)

theorem State.sendAll_kept {s : State} {ps : List Packet} : Kept s (State.sendAll s ps) := by
  unfold State.sendAll
  exact Kept.upd (Kept.refl _)

theorem recordEvent_kept {s : State} {code source p0 p1 p2 : Nat} : Kept s (recordEvent s code source p0 p1 p2) := by
  unfold recordEvent
  extract_lets st₁ seq₁ s₁ s₂ sev₁ hs₁ e₁ src₁ half₁ st₂ s₃ s₄
  clear_value st₁ seq₁
  have k_s₁ : Kept s s₁ := by
    exact Kept.upd (Kept.refl _)
  clear_value s₁
  have k_s₂ : Kept s s₂ := by
    unfold s₂
    refine Kept.ite ?_ ?_
    · assumption
    · refine Kept.trans ?_ State.count_kept
      assumption
  clear_value s₂ sev₁ hs₁ e₁ half₁ st₂
  have k_s₃ : Kept s s₃ := by
    refine Kept.upd ?_
    assumption
  clear_value s₃
  have k_s₄ : Kept s s₄ := by
    unfold s₄
    refine Kept.ite ?_ ?_
    · assumption
    · refine Kept.trans ?_ State.count_kept
      assumption
  clear_value s₄
  refine Kept.ite ?_ ?_
  · assumption
  · split
    · refine Kept.upd ?_
      assumption
    · refine Kept.ite ?_ ?_
      · refine Kept.upd ?_
        assumption
      · refine Kept.trans ?_ State.setFld_kept
        refine Kept.trans ?_ State.count_kept
        assumption

theorem reportCrc_kept {s : State} {p : Packet} : Kept s (reportCrc s p) := by
  unfold reportCrc
  extract_lets ti₁ f₁ n₁ s₁
  clear_value ti₁
  have k_f₁2 : Kept s f₁.2 := by
    exact State.takeFree_kept
  clear_value f₁ n₁
  have k_s₁ : Kept s s₁ := by
    refine Kept.trans ?_ State.modTile_kept
    refine Kept.trans ?_ State.count_kept
    assumption
  clear_value s₁
  refine Kept.trans ?_ recordEvent_kept
  assumption

theorem State.arrive_kept {s : State} {p : Packet} : Kept s (State.arrive s p) := by
  unfold State.arrive
  extract_lets s₁
  have k_s₁ : Kept s s₁ := by
    exact Kept.upd (Kept.refl _)
  clear_value s₁
  refine Kept.ite ?_ ?_
  · refine Kept.trans ?_ reportCrc_kept
    assumption
  · assumption

theorem noteFault_kept {s : State} {ti cause vaddr addr : Nat} : Kept s (noteFault s ti cause vaddr addr) := by
  unfold noteFault
  extract_lets a₁ n₁ s₁ s₂
  clear_value a₁ n₁
  have k_s₁ : Kept s s₁ := by
    exact State.setReg_kept
  clear_value s₁
  have k_s₂ : Kept s s₂ := by
    refine Kept.trans ?_ State.setReg64_kept
    assumption
  clear_value s₂
  refine Kept.ite ?_ ?_
  · exact State.setFld_kept
  · refine Kept.trans ?_ State.setReg64_kept
    assumption

theorem clearHeld_kept {s : State} {ti : Nat} : Kept s (clearHeld s ti) := by
  unfold clearHeld
  exact Kept.trans (Kept.trans State.modTile_kept State.setFld_kept) State.setReg_kept

theorem State.dropAt_kept {s : State} {ti slot : Nat} {poisoned : Bool} : Kept s (State.dropAt s ti slot poisoned) := by
  unfold State.dropAt
  extract_lets src₁
  exact Kept.upd (Kept.refl _)

theorem tileFault_kept {s : State} {ti cause slot vaddr addr : Nat} : Kept s (tileFault s ti cause slot vaddr addr) := by
  unfold tileFault
  extract_lets s₁ s₂ s₃ src₁ s₄ s₅
  have k_s₁ : Kept s s₁ := by
    exact noteFault_kept
  clear_value s₁
  have k_s₂ : Kept s s₂ := by
    refine Kept.trans ?_ State.modTile_kept
    assumption
  clear_value s₂
  have k_s₃ : Kept s s₃ := by
    refine Kept.trans ?_ clearHeld_kept
    refine Kept.trans ?_ State.setFld_kept
    assumption
  clear_value s₃
  have k_s₄ : Kept s s₄ := by
    refine Kept.upd ?_
    assumption
  clear_value s₄
  have k_s₅ : Kept s s₅ := by
    refine Kept.trans ?_ State.dropAt_kept
    refine Kept.trans ?_ State.setTilState_kept
    assumption
  clear_value s₅
  refine Kept.trans ?_ recordEvent_kept
  assumption

theorem poisonMet_kept {s : State} {ti consumer addr round : Nat} : Kept s (poisonMet s ti consumer addr round) := by
  unfold poisonMet
  extract_lets s₁ s₂
  have k_s₁ : Kept s s₁ := by
    exact State.count_kept
  clear_value s₁
  have k_s₂ : Kept s s₂ := by
    refine Kept.trans ?_ State.setFld_kept
    assumption
  clear_value s₂
  refine Kept.ite ?_ ?_
  · assumption
  · refine Kept.trans ?_ recordEvent_kept
    refine Kept.trans ?_ State.modTile_kept
    assumption

end Sys2Proof.Machine
end

