-- ==== Sys2Proof/Laws/KeptMem.lean ====
section
/-! SUPPORT. The definitions of Machine/Mem.lean keep the queue and the canonical form. -/
set_option Elab.async false
namespace Sys2Proof.Machine

theorem Tile.writeWord_wf {t : Tile} {ti : Nat} {x : SramWrite} (h : t.wf) : (t.writeWord ti x).wf := by
  unfold Tile.writeWord
  split
  · exact ⟨SMap.put_wf _ _ h.1, h.2⟩
  · split
    · exact ⟨SMap.put_wf _ _ h.1, h.2⟩
    · dsimp only
      split
      · exact ⟨SMap.put_wf _ _ h.1, h.2⟩
      · exact ⟨SMap.put_wf _ _ h.1, h.2⟩

theorem foldl_wf {α β : Type} {p : β → Prop} {f : β → α → β} {l : List α} {t : β} (h : ∀ t x, p t → p (f t x)) (k : p t) :
    p (l.foldl f t) := by
  induction l generalizing t with
  | nil => exact k
  | cons x l ih => exact ih (h t x k)

theorem Tile.writeWords_wf {t : Tile} {ti : Nat} {ws : List SramWrite} (h : t.wf) : (t.writeWords ti ws).wf := by
  unfold Tile.writeWords
  have k := foldl_wf (p := Tile.wf) (f := fun t x => t.writeWord ti x) (l := ws) (fun _ _ => Tile.writeWord_wf) h
  exact ⟨k.1, k.2.1, foldl_wf (p := fun m => SMap.wf m = true) (fun _ _ => SMap.put_wf _ _) k.2.2⟩

theorem noteSramRead_kept {s : State} {ti w : Nat} : Kept s (noteSramRead s ti w) := by
  unfold noteSramRead
  extract_lets t₁ s₁ bank₁ row₁ b₁ s₂ s₃ s₄
  have k_s₁ : Kept s s₁ := by
    exact State.count_kept
  clear_value s₁ bank₁ row₁ b₁
  have k_s₂ : Kept s s₂ := by
    refine State.setTile_at ?_ ?_
    · assumption
    · exact fun w => State.tile_wf w
  clear_value s₂
  have k_s₃ : Kept s s₃ := by
    exact State.count_kept
  clear_value s₃
  have k_s₄ : Kept s s₄ := by
    exact State.count_kept
  clear_value s₄
  split
  · refine Kept.ite ?_ ?_
    · refine Kept.trans ?_ recordEvent_kept
      assumption
    · assumption
  · refine Kept.ite ?_ ?_
    · refine Kept.trans ?_ recordEvent_kept
      refine Kept.trans ?_ State.setFld_kept
      assumption
    · exact State.count_kept
  · refine Kept.ite ?_ ?_
    · refine Kept.trans ?_ recordEvent_kept
      refine Kept.trans ?_ State.setFld_kept
      assumption
    · exact State.count_kept
  · exact Kept.refl _

theorem noteSramReads_kept {s : State} {ti : Nat} {ws : List Nat} : Kept s (noteSramReads s ti ws) := by
  unfold noteSramReads
  refine Kept.foldl ?_ ?_
  · intro x1 x2
    exact noteSramRead_kept
  · exact Kept.refl _

theorem State.putGranule_kept {s : State} {slice k : Nat} {c : BitVec 288} : Kept s (State.putGranule s slice k c) := by
  unfold State.putGranule
  refine Kept.trans ?_ (State.modTile_kept ?_)
  · exact Kept.refl _
  · exact fun _ h => ⟨h.1, SMap.put_wf _ _ h.2.1, h.2.2⟩

theorem State.putStack_kept {s : State} {k : Nat} {c : BitVec 288} : Kept s (State.putStack s k c) :=
  Kept.upd (Kept.refl _) (fun h => SMap.put_wf _ _ h)

theorem countBond_kept {s : State} {slice layer bond n : Nat} : Kept s (countBond s slice layer bond n) := by
  unfold countBond
  extract_lets t₁ k₁ l₁ sum₁ s₁ a₁
  clear_value k₁ l₁ sum₁
  have k_s₁ : Kept s s₁ := by
    refine Kept.trans ?_ (State.setTile_kept ?_)
    · exact Kept.refl _
    · exact fun w => State.tile_wf w
  clear_value s₁ a₁
  refine Kept.ite ?_ ?_
  · assumption
  · refine Kept.ite ?_ ?_
    · refine Kept.trans ?_ State.setFld_kept
      refine Kept.trans ?_ State.modTile_kept
      assumption
    · refine Kept.trans ?_ recordEvent_kept
      refine Kept.trans ?_ State.modTile_kept
      assumption

theorem noteBondedRead_kept {s : State} {ti : Nat} {tier : Tier} {addr : Nat} : Kept s (noteBondedRead s ti tier addr) := by
  unfold noteBondedRead
  extract_lets sl₁ k₁ c₁ syn₁ s₁ s₂ row₁ b₁ s₃ s₄ s₅
  clear_value sl₁ k₁ c₁ syn₁
  have k_s₁ : Kept s s₁ := by
    exact State.count_kept
  clear_value s₁
  have k_s₂ : Kept s s₂ := by
    refine Kept.foldl ?_ ?_
    · intro x1 x2
      exact countBond_kept
    · assumption
  clear_value s₂ row₁ b₁
  have k_s₃ : Kept s s₃ := by
    refine Kept.trans ?_ State.modTile_kept
    assumption
  clear_value s₃
  have k_s₄ : Kept s s₄ := by
    exact State.count_kept
  clear_value s₄
  have k_s₅ : Kept s s₅ := by
    exact State.count_kept
  clear_value s₅
  split
  · refine Kept.ite ?_ ?_
    · refine Kept.trans ?_ State.modTile_kept
      assumption
    · assumption
  · refine Kept.ite ?_ ?_
    · refine Kept.trans ?_ State.modTile_kept
      assumption
    · assumption
  · refine Kept.trans ?_ recordEvent_kept
    refine Kept.trans ?_ State.setFld_kept
    assumption
  · refine Kept.trans ?_ recordEvent_kept
    refine Kept.trans ?_ State.setFld_kept
    assumption
  · exact Kept.refl _

theorem State.scheduleRepair_kept {s : State} {m : StackLoc} : Kept s (State.scheduleRepair s m) := by
  unfold State.scheduleRepair
  extract_lets src₁
  exact Kept.upd (Kept.refl _)

theorem noteStackRead_kept {s : State} {ti addr : Nat} : Kept s (noteStackRead s ti addr) := by
  unfold noteStackRead
  extract_lets m₁ s₁ row₁ b₁ src₁ s₂ s₃ src₂ s₄
  clear_value m₁
  have k_s₁ : Kept s s₁ := by
    exact State.count_kept
  clear_value s₁ row₁ b₁
  have k_s₂ : Kept s s₂ := by
    refine Kept.upd ?_
    assumption
  clear_value s₂
  have k_s₃ : Kept s s₃ := by
    exact State.count_kept
  clear_value s₃
  have k_s₄ : Kept s s₄ := by
    exact Kept.upd (Kept.refl _)
  clear_value s₄
  split
  · refine Kept.ite ?_ ?_
    · refine Kept.trans ?_ State.scheduleRepair_kept
      assumption
    · assumption
  · refine Kept.ite ?_ ?_
    · refine Kept.trans ?_ State.scheduleRepair_kept
      assumption
    · assumption
  · refine Kept.trans ?_ recordEvent_kept
    assumption
  · refine Kept.trans ?_ recordEvent_kept
    refine Kept.trans ?_ State.count_kept
    assumption
  · exact Kept.refl _

theorem noteRead_kept {s : State} {ti : Nat} {tier : Tier} {addr : Nat} : Kept s (noteRead s ti tier addr) := by
  unfold noteRead
  split
  · exact noteStackRead_kept
  · exact noteBondedRead_kept

theorem writeBonded_kept {s : State} {ti : Nat} {x : MemWrite} : Kept s (writeBonded s ti x) := by
  unfold writeBonded
  extract_lets sl₁ k₁ g₁ s₁ r₁
  clear_value sl₁ k₁ g₁
  have k_s₁ : Kept s s₁ := by
    exact Kept.trans noteBondedRead_kept State.count_kept
  clear_value s₁ r₁
  refine Kept.ite ?_ ?_
  · exact State.putGranule_kept
  · refine Kept.ite ?_ ?_
    · exact State.putGranule_kept
    · refine Kept.ite ?_ ?_
      · refine Kept.trans ?_ recordEvent_kept
        refine Kept.trans ?_ State.putGranule_kept
        assumption
      · refine Kept.trans ?_ State.putGranule_kept
        assumption

theorem writeStackGran_kept {s : State} {ti addr : Nat} {data mask : BitVec 256} {poison : Bool} : Kept s (writeStackGran s ti addr data mask poison) := by
  unfold writeStackGran
  extract_lets k₁ g₁ s₁ r₁
  clear_value k₁ g₁
  have k_s₁ : Kept s s₁ := by
    exact Kept.trans noteStackRead_kept State.count_kept
  clear_value s₁ r₁
  refine Kept.ite ?_ ?_
  · exact State.putStack_kept
  · refine Kept.ite ?_ ?_
    · exact State.putStack_kept
    · refine Kept.ite ?_ ?_
      · refine Kept.trans ?_ recordEvent_kept
        refine Kept.trans ?_ State.putStack_kept
        assumption
      · refine Kept.trans ?_ State.putStack_kept
        assumption

theorem cachePage_kept {s : State} {ti space page : Nat} : Kept s (cachePage s ti space page) := by
  unfold cachePage
  extract_lets t₁
  refine Kept.ite ?_ ?_
  · exact Kept.refl _
  · extract_lets
    split
    · exact Kept.refl _
    · extract_lets l₁ s₁ s₂
      clear_value l₁
      have k_s₁ : Kept s s₁ := by
        refine Kept.trans ?_ (State.setTile_kept ?_)
        · exact Kept.refl _
        · exact fun w => State.tile_wf w
      clear_value s₁
      have k_s₂ : Kept s s₂ := by
        unfold s₂
        split
        · refine Kept.trans ?_ noteRead_kept
          assumption
        · assumption
      clear_value s₂
      refine Kept.ite ?_ ?_
      · refine Kept.trans ?_ poisonMet_kept
        assumption
      · assumption

end Sys2Proof.Machine
end

