-- ==== Sys2Proof/Laws/KeptIssue.lean ====
section
/-! SUPPORT. The definitions of Machine/Issue.lean keep the queue and the canonical form. -/
set_option Elab.async false
namespace Sys2Proof.Machine

theorem Tile.putSlot_wf {t : Tile} {x : SlotState} (h : t.wf) : (t.putSlot x).wf := by
  unfold Tile.putSlot
  exact h

theorem noteSlot_wf {t : Tile} {c : BitVec 512} {serial : Nat} {inPlace inexact : Bool} (h : t.wf) :
    (noteSlot t c serial inPlace inexact).wf := by
  unfold noteSlot
  dsimp only
  repeat' split
  all_goals exact h

theorem State.setTokens_kept {s : State} {ti v : Nat} : Kept s (State.setTokens s ti v) := by
  unfold State.setTokens
  exact State.setFld_kept

theorem reportSlots_kept {s : State} {ti : Nat} : Kept s (reportSlots s ti) := by
  unfold reportSlots
  extract_lets t₁ ready₁ src₁ src₂
  clear_value ready₁
  have k_src₁ : Kept s src₁ := by
    refine Kept.trans ?_ (State.setTile_kept ?_)
    · exact Kept.refl _
    · exact fun w => State.tile_wf w
  clear_value src₁
  refine Kept.upd ?_
  assumption

theorem finishCmd_kept {s : State} {ti setTok : Nat} : Kept s (finishCmd s ti setTok) := by
  unfold finishCmd
  extract_lets a₁ s₁ s₂
  clear_value a₁
  have k_s₁ : Kept s s₁ := by
    exact State.setReg64_kept
  clear_value s₁
  have k_s₂ : Kept s s₂ := by
    unfold s₂
    refine Kept.ite ?_ ?_
    · refine Kept.trans ?_ State.setTokens_kept
      assumption
    · assumption
  clear_value s₂
  refine Kept.trans ?_ reportSlots_kept
  assumption

theorem writeSideband_kept {s : State} {ti head ring : Nat} {record : Nat} : Kept s (writeSideband s ti head ring record) := by
  unfold writeSideband
  extract_lets n₁ wrapped₁ s₁ s₂
  clear_value n₁ wrapped₁
  have k_s₁ : Kept s s₁ := by
    refine Kept.foldl ?_ ?_
    · intro x1 x2
      exact State.setReg_kept
    · exact Kept.refl _
  clear_value s₁
  have k_s₂ : Kept s s₂ := by
    unfold s₂
    refine Kept.ite ?_ ?_
    · refine Kept.trans ?_ State.setFld_kept
      assumption
    · assumption
  clear_value s₂
  refine Kept.trans ?_ State.setFld_kept
  assumption

theorem writeSram_kept {s : State} {ti : Nat} {ws : List SramWrite} : Kept s (writeSram s ti ws) := by
  unfold writeSram
  refine Kept.ite ?_ ?_
  · exact Kept.refl _
  · refine Kept.trans ?_ (State.modTile_kept ?_)
    · exact Kept.refl _
    · exact fun _ h => Tile.writeWords_wf h

theorem State.view_kept {s : State} {ti : Nat} {u : UnitId} : Kept s (State.view s ti u) := by
  unfold State.view
  refine Kept.foldl ?_ ?_
  · intro x1 x2
    extract_lets s₁
    have k_s₁ : Kept x1 s₁ := by
      exact writeSram_kept
    clear_value s₁
    refine Kept.foldl ?_ ?_
    · intro x3 x4
      split
      · exact writeStackGran_kept
      · exact writeBonded_kept
    · assumption
  · exact Kept.refl _

theorem noteViews_kept {s : State} {ti space : Nat} {ds : List Desc} : Kept s (noteViews s ti space ds) := by
  unfold noteViews
  extract_lets p₁
  clear_value p₁
  refine Kept.foldl ?_ ?_
  · intro x1 x2
    exact noteRead_kept
  · exact noteSramReads_kept

theorem cacheViews_kept {s : State} {ti space : Nat} {ds : List Desc} : Kept s (cacheViews s ti space ds) := by
  unfold cacheViews
  refine Kept.foldl ?_ ?_
  · intro x1 x2
    exact cachePage_kept
  · exact Kept.refl _

theorem countOob_kept {s : State} {ti vaddr rd wr : Nat} : Kept s (countOob s ti vaddr rd wr) := by
  unfold countOob
  extract_lets s₁ s₂
  have k_s₁ : Kept s s₁ := by
    exact State.count_kept
  clear_value s₁
  have k_s₂ : Kept s s₂ := by
    refine Kept.trans ?_ State.setFld_kept
    refine Kept.trans ?_ State.count_kept
    assumption
  clear_value s₂
  refine Kept.ite ?_ ?_
  · assumption
  · refine Kept.ite ?_ ?_
    · assumption
    · refine Kept.trans ?_ recordEvent_kept
      refine Kept.trans ?_ State.modTile_kept
      assumption

theorem noteOverlap_kept {s : State} {ti vaddr slot : Nat} : Kept s (noteOverlap s ti vaddr slot) := by
  unfold noteOverlap
  extract_lets s₁ s₂
  have k_s₁ : Kept s s₁ := by
    exact Kept.trans State.count_kept State.setFld_kept
  clear_value s₁
  have k_s₂ : Kept s s₂ := by
    refine Kept.trans ?_ State.modTile_kept
    assumption
  clear_value s₂
  refine Kept.trans ?_ recordEvent_kept
  assumption

theorem passIssue_kept {s : State} {ti : Nat} {c : BitVec 512} : Kept s (passIssue s ti c) := by
  unfold passIssue
  extract_lets s₁ s₂
  have k_s₁ : Kept s s₁ := by
    unfold s₁
    refine Kept.ite ?_ ?_
    · exact State.setTokens_kept
    · exact Kept.refl _
  clear_value s₁
  have k_s₂ : Kept s s₂ := by
    refine Kept.trans ?_ State.setFld_kept
    assumption
  clear_value s₂
  refine Kept.trans ?_ State.modTile_kept
  assumption

theorem issueWork_kept {s : State} {ti : Nat} {c : BitVec 512} {w : Work} (h : ∀ x, Kept x (w.after x)) : Kept s (issueWork s ti c w) := by
  have k := fun x => @passIssue_kept x ti c
  unfold issueWork
  extract_lets t u serial pk room vaddr e inexact s1 s2 s3 s4 s5 s6 s7 s8
  have h1 : Kept s s1 := noteSramReads_kept
  have h2 : Kept s s2 := h1.trans noteViews_kept
  have h3 : Kept s s3 := h2.trans cacheViews_kept
  have h4 : Kept s s4 := h3.trans countOob_kept
  have h5 : Kept s s5 := h4.trans (h _)
  have h6 : Kept s s6 := h5.trans (k _)
  have h7 : Kept s s7 := h6.trans State.modTile_kept
  have h8 : Kept s s8 := by
    unfold s8
    split
    · exact h7.trans noteOverlap_kept
    · exact h7
  exact (h8.trans State.sendAll_kept).trans reportSlots_kept

theorem noteFailedXlt_kept {s : State} {ti cause addr : Nat} : Kept s (noteFailedXlt s ti cause addr) := by
  unfold noteFailedXlt
  refine Kept.ite ?_ ?_
  · exact cachePage_kept
  · exact Kept.refl _

theorem faultWith_kept {s : State} {ti slot vaddr : Nat} {e : Flt} : Kept s (faultWith s ti slot vaddr e) := by
  unfold faultWith
  extract_lets s₁ s₂
  have k_s₁ : Kept s s₁ := by
    exact noteFailedXlt_kept
  clear_value s₁
  have k_s₂ : Kept s s₂ := by
    unfold s₂
    split
    · refine Kept.trans ?_ poisonMet_kept
      assumption
    · assumption
  clear_value s₂
  refine Kept.trans ?_ tileFault_kept
  assumption

theorem issueCmd_kept {s : State} {c : TileCmd} {cls : Nat} {work : State → BitVec 512 → Except Flt Work}
    (h : ∀ x b, Calm (work x b)) : Kept s (issueCmd s c cls work) := by
  unfold issueCmd
  extract_lets ti t b s1 s2
  have h1 : Kept s s1 := by
    unfold s1
    split
    · exact Kept.refl _
    · exact cachePage_kept
  have h2 : Kept s s2 := h1.trans noteSramReads_kept
  split
  · exact Kept.refl _
  · split
    · exact noteFailedXlt_kept.trans tileFault_kept
    · split
      · exact h1.trans (poisonMet_kept.trans tileFault_kept)
      · split
        · exact h1.trans tileFault_kept
        · split
          · exact h1.trans tileFault_kept
          · split
            · exact h1.trans State.setFld_kept
            · split
              · exact h2.trans faultWith_kept
              · rename_i hw
                exact h2.trans (issueWork_kept (h _ _ _ hw))

end Sys2Proof.Machine
end

