-- ==== Sys2Proof/Laws/KeptArray.lean ====
section
/-! SUPPORT. The definitions of Machine/Array.lean keep the queue and the canonical form. -/
set_option Elab.async false
namespace Sys2Proof.Machine

theorem holdResults_kept {s : State} {ti m n : Nat} {wide : Bool} {accs : List Acc} : Kept s (holdResults s ti m n wide accs) := by
  unfold holdResults
  extract_lets s₁ s₂
  have k_s₁ : Kept s s₁ := by
    exact State.modTile_kept
  clear_value s₁
  have k_s₂ : Kept s s₂ := by
    refine Kept.trans ?_ State.setFld_kept
    assumption
  clear_value s₂
  refine Kept.trans ?_ State.setReg_kept
  assumption

theorem drainFlags_kept {s : State} {ti : Nat} {inexact poison : Bool} : Kept s (drainFlags s ti inexact poison) := by
  unfold drainFlags
  extract_lets s₁
  have k_s₁ : Kept s s₁ := by
    unfold s₁
    refine Kept.ite ?_ ?_
    · exact State.setFld_kept
    · exact Kept.refl _
  clear_value s₁
  refine Kept.ite ?_ ?_
  · refine Kept.trans ?_ State.setFld_kept
    assumption
  · assumption

theorem arrayWork_kept {s : State} {ti : Nat} {c : BitVec 512} {wide : Bool} {m n : Nat} {ops : List Operand} {bias : Option (Operand × List Elem)} {store : Option StoreBlk} {o : ArrayOut} : Calm (arrayWork s ti c wide m n ops bias store o) := by
  unfold arrayWork
  extract_lets reads₁ banks₁ views₁ links₁ oobR₁ cont₁ src₁ src₂ z₁ inex₁ pois₁
  clear_value reads₁ banks₁ views₁ links₁ oobR₁ cont₁ src₂ z₁ inex₁ pois₁
  split
  · refine Calm.ok (fun x => ?_)
    dsimp only
    exact holdResults_kept
  · extract_lets wbanks₁
    clear_value wbanks₁
    split
    · refine Calm.ok (fun x => ?_)
      exact Kept.refl _
    · split
      · exact Calm.error _
      · refine Calm.ok (fun x => ?_)
        dsimp only
        exact Kept.trans clearHeld_kept drainFlags_kept

theorem workMatmul_kept {s : State} {ti : Nat} {c : BitVec 512} : Calm (workMatmul s ti c) := by
  unfold workMatmul
  extract_lets m₁ n₁ k₁ ta₁ tb₁ passes₁
  clear_value m₁ n₁ k₁ ta₁ tb₁ passes₁
  split
  · exact Calm.error _
  · exact Calm.error _
  · extract_lets okA₁ okB₁ base₁
    clear_value okA₁ okB₁ base₁
    split
    · exact badDesc_kept
    · extract_lets wide₁
      clear_value wide₁
      refine Calm.ite ?_ ?_
      · exact badDesc_kept
      · extract_lets
        split
        · exact Calm.error _
        · exact Calm.error _
        · split
          · exact Calm.error _
          · exact Calm.error _
          · exact Calm.error _
          · extract_lets accs₁ vals₁
            clear_value accs₁ vals₁
            exact arrayWork_kept

theorem execMatmul_kept {c : TileCmd} {s : State} : Answers s (execMatmul c s) := by
  unfold execMatmul
  refine Answers.next ?_
  refine Kept.trans ?_ (issueCmd_kept ?_)
  · exact Kept.refl _
  · intro x1 x2
    exact workMatmul_kept

theorem workConv_kept {s : State} {ti : Nat} {c : BitVec 512} : Calm (workConv s ti c) := by
  unfold workConv
  extract_lets rr₁
  clear_value rr₁
  split
  · exact Calm.error _
  · exact Calm.error _
  · extract_lets mxOk₁ base₁
    clear_value mxOk₁ base₁
    split
    · extract_lets wide₁ cg₁ passes₁ order₁ count₁ shape₁ pos₁ at₁
      clear_value wide₁ cg₁ passes₁ order₁ count₁ shape₁ pos₁
      refine Calm.ite ?_ ?_
      · exact badDesc_kept
      · extract_lets
        refine Calm.ite ?_ ?_
        · exact flt_kept
        · extract_lets
          split
          · exact Calm.error _
          · exact Calm.error _
          · split
            · exact Calm.error _
            · exact Calm.error _
            · exact Calm.error _
            · extract_lets accs₁ vals₁
              clear_value accs₁ vals₁
              exact arrayWork_kept
    · exact badDesc_kept

theorem execConv_kept {c : TileCmd} {s : State} : Answers s (execConv c s) := by
  unfold execConv
  refine Answers.next ?_
  refine Kept.trans ?_ (issueCmd_kept ?_)
  · exact Kept.refl _
  · intro x1 x2
    exact workConv_kept

theorem finishArray_kept {s : State} {ti cls slot flags : Nat} {a : ArrayInfo} : Kept s (finishArray s ti cls slot flags a) := by
  unfold finishArray
  extract_lets f₁ f₂ f₃ bump₁ s₁
  have k_f₁2 : Kept s f₁.2 := by
    exact State.takeFree_kept
  clear_value f₁
  have k_f₂2 : Kept s f₂.2 := by
    refine Kept.trans ?_ State.takeFree_kept
    assumption
  clear_value f₂
  have k_f₃2 : Kept s f₃.2 := by
    refine Kept.trans ?_ State.takeFree_kept
    assumption
  clear_value f₃
  have k_s₁ : Kept s s₁ := by
    unfold s₁
    dsimp only [bump₁]
    refine Kept.trans ?_ State.setReg64_kept
    refine Kept.trans ?_ State.setReg64_kept
    refine Kept.trans ?_ State.setReg64_kept
    refine Kept.trans ?_ State.setReg64_kept
    assumption
  clear_value s₁
  refine Kept.ite ?_ ?_
  · refine Kept.trans ?_ writeSideband_kept
    assumption
  · assumption

end Sys2Proof.Machine
end

