-- ==== Sys2Proof/Laws/KeptTransfer.lean ====
section
/-! SUPPORT. The definitions of Machine/Transfer.lean keep the queue and the canonical form. -/
set_option Elab.async false
namespace Sys2Proof.Machine

theorem Tile.putEntry_wf {t : Tile} {e : QEntry} (h : t.wf) : (t.putEntry e).wf := h

theorem workLoad_kept {s : State} {ti : Nat} {c : BitVec 512} : Calm (workLoad s ti c) := by
  unfold workLoad
  extract_lets src₁
  split
  · exact Calm.error _
  · exact Calm.error _
  · refine Calm.ite ?_ ?_
    · exact badDesc_kept
    · extract_lets
      refine Calm.ite ?_ ?_
      · exact flt_kept
      · extract_lets
        split
        · exact Calm.error _
        · extract_lets ps₁ es₁ fills₁ bufs₁
          clear_value ps₁ es₁ fills₁ bufs₁
          refine Calm.ok (fun x => ?_)
          dsimp only
          exact cacheViews_kept

theorem execLoad_kept {c : TileCmd} {s : State} : Answers s (execLoad c s) := by
  unfold execLoad
  refine Answers.next ?_
  refine Kept.trans ?_ (issueCmd_kept ?_)
  · exact Kept.refl _
  · intro x1 x2
    exact workLoad_kept

theorem sendNext_kept {s : State} {ti : Nat} {u : UnitId} : Kept s (sendNext s ti u) := by
  unfold sendNext
  extract_lets t₁
  split
  · exact Kept.refl _
  · split
    · exact Kept.refl _
    · exact Kept.trans State.modTile_kept State.send_kept

theorem execRaeReadData_kept {p : Packet} {s : State} : Answers s (execRaeReadData p s) := by
  unfold execRaeReadData
  extract_lets s₁ ti₁
  have k_s₁ : Kept s s₁ := by
    exact State.arrive_kept
  clear_value s₁ ti₁
  split
  · refine Answers.next ?_
    assumption
  · extract_lets ws₁ s₂ s₃
    clear_value ws₁
    have k_s₂ : Kept s s₂ := by
      refine Kept.trans ?_ writeSram_kept
      assumption
    clear_value s₂
    have k_s₃ : Kept s s₃ := by
      refine Kept.trans ?_ State.modTile_kept
      assumption
    clear_value s₃
    refine Answers.ite ?_ ?_
    · refine Answers.next ?_
      assumption
    · split
      · refine Answers.next ?_
        refine Kept.trans ?_ tileFault_kept
        assumption
      · refine Answers.next ?_
        refine Kept.trans ?_ sendNext_kept
        assumption

theorem storeWork_kept {s : State} {ti : Nat} {b : StoreBlk} {isStore isElt : Bool} {ops : List Operand} {staged : Nat} {src : Source} : Calm (storeWork s ti b isStore isElt ops staged src) := by
  unfold storeWork
  extract_lets reads₁ banks₁ src₁
  clear_value reads₁ banks₁
  split
  · refine Calm.ok (fun x => ?_)
    exact Kept.refl _
  · refine Calm.ok (fun x => ?_)
    exact Kept.refl _
  · split
    · exact Calm.error _
    · refine Calm.ok (fun x => ?_)
      dsimp only
      exact cacheViews_kept

theorem workStore_kept {s : State} {ti : Nat} {c : BitVec 512} : Calm (workStore s ti c) := by
  unfold workStore
  split
  · exact Calm.error _
  · refine Calm.ite ?_ ?_
    · exact badDesc_kept
    · split
      · exact Calm.error _
      · split
        · exact Calm.error _
        · exact storeWork_kept

theorem execStore_kept {c : TileCmd} {s : State} : Answers s (execStore c s) := by
  unfold execStore
  refine Answers.next ?_
  refine Kept.trans ?_ (issueCmd_kept ?_)
  · exact Kept.refl _
  · intro x1 x2
    exact workStore_kept

theorem noteIndexPoison_kept {s : State} {ti n : Nat} : Kept s (noteIndexPoison s ti n) := by
  unfold noteIndexPoison
  refine Kept.foldl ?_ ?_
  · intro x1 x2
    exact poisonMet_kept
  · exact Kept.refl _

theorem workGather_kept {s : State} {ti : Nat} {c : BitVec 512} : Calm (workGather s ti c) := by
  unfold workGather
  extract_lets axis₁ wrap₁ src₁
  clear_value axis₁ wrap₁
  split
  · exact Calm.error _
  · exact Calm.error _
  · exact Calm.error _
  · extract_lets ni₁ prints₁ is₁ src₂
    clear_value ni₁ prints₁ is₁
    refine Calm.ite ?_ ?_
    · exact badDesc_kept
    · extract_lets
      refine Calm.ite ?_ ?_
      · refine Calm.ok (fun x => ?_)
        exact Kept.refl _
      · extract_lets
        split
        · exact Calm.error _
        · extract_lets fetches₁ outs₁ poisoned₁ fetched₁
          clear_value fetches₁ outs₁ poisoned₁ fetched₁
          split
          · exact Calm.error _
          · extract_lets elems₁
            clear_value elems₁
            split
            · exact Calm.error _
            · refine Calm.ok (fun x => ?_)
              dsimp only
              refine Kept.trans ?_ cacheViews_kept
              refine Kept.trans ?_ State.count_kept
              refine Kept.trans ?_ State.count_kept
              refine Kept.foldl ?_ ?_
              · intro x1 x2
                exact noteViews_kept
              · exact noteIndexPoison_kept

theorem execGather_kept {c : TileCmd} {s : State} : Answers s (execGather c s) := by
  unfold execGather
  refine Answers.next ?_
  refine Kept.trans ?_ (issueCmd_kept ?_)
  · exact Kept.refl _
  · intro x1 x2
    exact workGather_kept

theorem applyWrites_kept {s : State} {ti : Nat} {w : Writes} : Kept s (applyWrites s ti w) := by
  unfold applyWrites
  refine Kept.foldl ?_ ?_
  · intro x1 x2
    split
    · exact writeStackGran_kept
    · exact writeBonded_kept
  · exact writeSram_kept

theorem workScatter_kept {s : State} {ti : Nat} {c : BitVec 512} : Calm (workScatter s ti c) := by
  unfold workScatter
  extract_lets axis₁ op₁ wrap₁ src₁
  clear_value axis₁ op₁ wrap₁
  split
  · exact Calm.error _
  · exact Calm.error _
  · exact Calm.error _
  · extract_lets ni₁ prints₁ fmtOk₁ rowLen₁
    clear_value ni₁ prints₁ fmtOk₁ rowLen₁
    refine Calm.ite ?_ ?_
    · exact badDesc_kept
    · extract_lets
      refine Calm.ite ?_ ?_
      · refine Calm.ok (fun x => ?_)
        exact Kept.refl _
      · extract_lets
        split
        · exact Calm.error _
        · extract_lets num₁ dropped₁ poisoned₁ rowsW₁
          clear_value num₁ dropped₁ poisoned₁ rowsW₁
          split
          · exact Calm.error _
          · refine Calm.ok (fun x => ?_)
            dsimp only
            exact Kept.trans noteIndexPoison_kept cacheViews_kept

theorem execScatter_kept {c : TileCmd} {s : State} : Answers s (execScatter c s) := by
  unfold execScatter
  refine Answers.next ?_
  refine Kept.trans ?_ (issueCmd_kept ?_)
  · exact Kept.refl _
  · intro x1 x2
    exact workScatter_kept

end Sys2Proof.Machine
end

