-- ==== Sys2Proof/Laws/KeptVector.lean ====
section
/-! SUPPORT. The definitions of Machine/Vector.lean keep the queue and the canonical form. -/
set_option Elab.async false
namespace Sys2Proof.Machine

theorem workEltwise_kept {s : State} {ti : Nat} {c : BitVec 512} : Calm (workEltwise s ti c) := by
  unfold workEltwise
  extract_lets op₁ n₁
  clear_value op₁ n₁
  split
  · exact Calm.error _
  · exact flt_kept
  · extract_lets is₁
    clear_value is₁
    split
    · exact badDesc_kept
    · split
      · exact Calm.error _
      · split
        · exact Calm.error _
        · extract_lets col₁ vals₁
          clear_value vals₁
          exact storeWork_kept

theorem execEltwise_kept {c : TileCmd} {s : State} : Answers s (execEltwise c s) := by
  unfold execEltwise
  refine Answers.next ?_
  refine Kept.trans ?_ (issueCmd_kept ?_)
  · exact Kept.refl _
  · intro x1 x2
    exact workEltwise_kept

theorem workReduce_kept {s : State} {ti : Nat} {c : BitVec 512} : Calm (workReduce s ti c) := by
  unfold workReduce
  extract_lets op₁ axes₁
  clear_value op₁ axes₁
  split
  · exact Calm.error _
  · extract_lets shape₁
    clear_value shape₁
    refine Calm.ite ?_ ?_
    · exact badDesc_kept
    · extract_lets
      split
      · exact Calm.error _
      · split
        · exact Calm.error _
        · extract_lets vals₁
          clear_value vals₁
          exact storeWork_kept

theorem execReduce_kept {c : TileCmd} {s : State} : Answers s (execReduce c s) := by
  unfold execReduce
  refine Answers.next ?_
  refine Kept.trans ?_ (issueCmd_kept ?_)
  · exact Kept.refl _
  · intro x1 x2
    exact workReduce_kept

end Sys2Proof.Machine
end

