-- ==== Sys2Proof/Laws/KeptAttention.lean ====
section
/-! SUPPORT. The definitions of Machine/Attention.lean keep the queue and the canonical form. -/
set_option Elab.async false
namespace Sys2Proof.Machine

theorem cacheDir_kept {s : State} {ti : Nat} {e : DirEntry} : Kept s (cacheDir s ti e) := by
  unfold cacheDir
  exact State.modTile_kept

theorem putBytes_kept {s : State} {ti : Nat} {tier : Tier} {addr n v : Nat} : Kept s (putBytes s ti tier addr n v) := by
  unfold putBytes
  extract_lets off₁ x₁
  clear_value off₁ x₁
  split
  · exact writeStackGran_kept
  · exact writeBonded_kept

theorem setNextPos_kept {s : State} {ti : Nat} {e : DirEntry} {n : Nat} : Kept s (setNextPos s ti e n) := by
  unfold setNextPos
  extract_lets s₁
  have k_s₁ : Kept s s₁ := by
    exact State.modTile_kept
  clear_value s₁
  split
  · assumption
  · refine Kept.trans ?_ putBytes_kept
    assumption

theorem workKvAppend_kept {s : State} {ti : Nat} {c : BitVec 512} : Calm (workKvAppend s ti c) := by
  unfold workKvAppend
  extract_lets t₁ space₁ session₁ hg₁ layer₁ ntok₁ src₁
  clear_value space₁ session₁ hg₁ layer₁ ntok₁
  split
  · exact Calm.error _
  · exact Calm.error _
  · exact Calm.error _
  · extract_lets used₁ page₁ numbered₁ next₁
    clear_value used₁ page₁ next₁
    split
    · exact Calm.error _
    · extract_lets valBase₁ oldK₁ oldV₁
      clear_value valBase₁ oldK₁ oldV₁
      refine Calm.ite ?_ ?_
      · exact flt_kept
      · extract_lets
        refine Calm.ite ?_ ?_
        · exact badDesc_kept
        · extract_lets
          refine Calm.ite ?_ ?_
          · exact fltAt_kept
          · extract_lets
            split
            · exact Calm.error _
            · exact Calm.error _
            · extract_lets sw₁ flush₁
              clear_value sw₁ flush₁
              split
              · exact Calm.error _
              · refine Calm.ok (fun x => ?_)
                dsimp only
                refine Kept.trans ?_ State.modTile_kept
                refine Kept.ite ?_ ?_
                · exact Kept.trans (Kept.trans cachePage_kept cacheDir_kept) setNextPos_kept
                · exact Kept.trans (Kept.trans (Kept.trans cachePage_kept cacheDir_kept) setNextPos_kept) State.count_kept

theorem execKvAppend_kept {c : TileCmd} {s : State} : Answers s (execKvAppend c s) := by
  unfold execKvAppend
  refine Answers.next ?_
  refine Kept.trans ?_ (issueCmd_kept ?_)
  · exact Kept.refl _
  · intro x1 x2
    exact workKvAppend_kept

theorem commitKv_kept {s : State} {ti slot : Nat} : Kept s (commitKv s ti slot) := by
  unfold commitKv
  extract_lets ms₁ s₁
  clear_value ms₁
  have k_s₁ : Kept s s₁ := by
    refine Kept.foldl ?_ ?_
    · intro x1 x2
      split
      · exact putBytes_kept
      · exact Kept.refl _
    · exact Kept.refl _
  clear_value s₁
  refine Kept.trans ?_ State.modTile_kept
  assumption

theorem reloadStage_kept {s : State} {ti space : Nat} {e : DirEntry} {h : PageHdr} : Kept s (reloadStage s ti space e h) := by
  unfold reloadStage
  extract_lets row₁ n₁
  clear_value n₁
  split
  · exact Kept.refl _
  · extract_lets ks₁ vs₁
    clear_value ks₁ vs₁
    exact writeSram_kept

theorem restoreSeq_kept {s : State} {ti : Nat} {m : KvMark} : Kept s (restoreSeq s ti m) := by
  unfold restoreSeq
  split
  · extract_lets s₁
    have k_s₁ : Kept s s₁ := by
      unfold s₁
      refine Kept.ite ?_ ?_
      · exact reloadStage_kept
      · exact Kept.refl _
    clear_value s₁
    refine Kept.trans ?_ setNextPos_kept
    assumption
  · exact Kept.refl _

theorem dropKv_kept {s : State} {ti : Nat} : Kept s (dropKv s ti) := by
  unfold dropKv
  extract_lets ms₁ s₁
  clear_value ms₁
  have k_s₁ : Kept s s₁ := by
    refine Kept.foldl ?_ ?_
    · intro x1 x2
      exact restoreSeq_kept
    · exact Kept.refl _
  clear_value s₁
  refine Kept.trans ?_ State.modTile_kept
  assumption

theorem clearDir_kept {s : State} {ti : Nat} {e : DirEntry} : Kept s (clearDir s ti e) := by
  unfold clearDir
  extract_lets s₁
  have k_s₁ : Kept s s₁ := by
    exact State.modTile_kept
  clear_value s₁
  split
  · assumption
  · refine Kept.trans ?_ putBytes_kept
    assumption

theorem closeSeq_kept {s : State} {ti space : Nat} {e : DirEntry} : Kept s (closeSeq s ti space e) := by
  unfold closeSeq
  extract_lets n₁ t₁
  clear_value n₁
  split
  · exact clearDir_kept
  · extract_lets ks₁ vs₁
    clear_value ks₁ vs₁
    refine Kept.ite ?_ ?_
    · exact clearDir_kept
    · split
      · exact clearDir_kept
      · split
        · exact clearDir_kept
        · exact Kept.trans (Kept.trans applyWrites_kept State.count_kept) clearDir_kept

theorem closeSession_kept {s : State} {ti session : Nat} : Kept s (closeSession s ti session) := by
  unfold closeSession
  extract_lets space₁
  clear_value space₁
  refine Kept.foldl ?_ ?_
  · intro x1 x2
    exact closeSeq_kept
  · exact Kept.refl _

theorem workAttnScore_kept {s : State} {ti : Nat} {c : BitVec 512} : Calm (workAttnScore s ti c) := by
  unfold workAttnScore
  extract_lets t₁ space₁ session₁ hg₁ nq₁ qPos₁ mode₁ window₁ addr₁ src₁
  clear_value space₁ session₁ hg₁ nq₁ qPos₁ mode₁ window₁ addr₁
  split
  · exact Calm.error _
  · exact Calm.error _
  · extract_lets hq₁ nr₁
    clear_value hq₁ nr₁
    split
    · exact Calm.error _
    · extract_lets size₁ words₁
      clear_value size₁ words₁
      refine Calm.ite ?_ ?_
      · exact badDesc_kept
      · extract_lets
        split
        · exact Calm.error _
        · extract_lets nfull₁ cands₁
          clear_value nfull₁ cands₁
          refine Calm.ite ?_ ?_
          · exact fltAt_kept
          · extract_lets
            split
            · exact Calm.error _
            · extract_lets rows₁ visit₁
              clear_value rows₁ visit₁
              split
              · exact Calm.error _
              · extract_lets rec_₁
                clear_value rec_₁
                refine Calm.ite ?_ ?_
                · exact flt_kept
                · extract_lets
                  refine Calm.ok (fun x => ?_)
                  dsimp only
                  refine Kept.trans ?_ State.modTile_kept
                  refine Kept.foldl ?_ ?_
                  · intro x1 x2
                    exact poisonMet_kept
                  · refine Kept.trans ?_ State.count_kept
                    refine Kept.trans ?_ State.count_kept
                    refine Kept.upd ?_
                    exact Kept.trans cachePage_kept cacheDir_kept

theorem execAttnScore_kept {c : TileCmd} {s : State} : Answers s (execAttnScore c s) := by
  unfold execAttnScore
  refine Answers.next ?_
  refine Kept.trans ?_ (issueCmd_kept ?_)
  · exact Kept.refl _
  · intro x1 x2
    exact workAttnScore_kept

theorem workAttnApply_kept {s : State} {ti : Nat} {c : BitVec 512} : Calm (workAttnApply s ti c) := by
  unfold workAttnApply
  extract_lets t₁ space₁ session₁ hg₁ addr₁ src₁
  clear_value space₁ session₁ hg₁ addr₁
  split
  · exact Calm.error _
  · exact Calm.error _
  · split
    · exact flt_kept
    · extract_lets nr₁ rec_fp₁
      clear_value nr₁ rec_fp₁
      refine Calm.ite ?_ ?_
      · exact badDesc_kept
      · extract_lets
        refine Calm.ite ?_ ?_
        · exact fltAt_kept
        · extract_lets
          refine Calm.ite ?_ ?_
          · exact fltPoison_kept
          · extract_lets
            split
            · exact Calm.error _
            · exact Calm.error _
            · exact Calm.error _
            · extract_lets n₁ staged₁ stg_fp₁ frames₁ reads₁ banks₁
              clear_value n₁ staged₁ stg_fp₁ frames₁ reads₁ banks₁
              refine Calm.ite ?_ ?_
              · exact badDesc_kept
              · extract_lets
                refine Calm.ite ?_ ?_
                · exact fltAt_kept
                · extract_lets
                  split
                  · exact Calm.error _
                  · extract_lets outs₁ empties₁ inbank₁ anyEmpty₁ first₁ flags₁ src₂ lses₁
                    clear_value outs₁ empties₁ inbank₁ anyEmpty₁ first₁ flags₁ src₂ lses₁
                    split
                    · refine Calm.ok (fun x => ?_)
                      exact Kept.refl _
                    · split
                      · exact Calm.error _
                      · exact Calm.error _
                      · refine Calm.ok (fun x => ?_)
                        dsimp only
                        refine Kept.trans ?_ State.modTile_kept
                        refine Kept.ite ?_ ?_
                        · refine Kept.trans ?_ State.setFld_kept
                          refine Kept.ite ?_ ?_
                          · refine Kept.trans ?_ State.setFld_kept
                            refine Kept.trans ?_ State.count_kept
                            refine Kept.trans ?_ State.count_kept
                            refine Kept.trans ?_ State.count_kept
                            refine Kept.ite ?_ ?_
                            · exact Kept.refl _
                            · exact Kept.trans State.takeFree_kept State.setReg64_kept
                          · refine Kept.trans ?_ State.count_kept
                            refine Kept.trans ?_ State.count_kept
                            refine Kept.trans ?_ State.count_kept
                            refine Kept.ite ?_ ?_
                            · exact Kept.refl _
                            · exact Kept.trans State.takeFree_kept State.setReg64_kept
                        · refine Kept.ite ?_ ?_
                          · refine Kept.trans ?_ State.setFld_kept
                            refine Kept.trans ?_ State.count_kept
                            refine Kept.trans ?_ State.count_kept
                            refine Kept.trans ?_ State.count_kept
                            refine Kept.ite ?_ ?_
                            · exact Kept.refl _
                            · exact Kept.trans State.takeFree_kept State.setReg64_kept
                          · refine Kept.trans ?_ State.count_kept
                            refine Kept.trans ?_ State.count_kept
                            refine Kept.trans ?_ State.count_kept
                            refine Kept.ite ?_ ?_
                            · exact Kept.refl _
                            · exact Kept.trans State.takeFree_kept State.setReg64_kept

theorem execAttnApply_kept {c : TileCmd} {s : State} : Answers s (execAttnApply c s) := by
  unfold execAttnApply
  refine Answers.next ?_
  refine Kept.trans ?_ (issueCmd_kept ?_)
  · exact Kept.refl _
  · intro x1 x2
    exact workAttnApply_kept

theorem finishAttn_kept {s : State} {ti cls slot flags : Nat} {a : AttnInfo} : Kept s (finishAttn s ti cls slot flags a) := by
  unfold finishAttn
  refine Kept.ite ?_ ?_
  · exact writeSideband_kept
  · exact Kept.refl _

end Sys2Proof.Machine
end

