-- ==== Sys2Proof/Laws/KeptMemCtrl.lean ====
section
/-! SUPPORT. The definitions of Machine/MemCtrl.lean keep the queue and the canonical form. -/
set_option Elab.async false
namespace Sys2Proof.Machine

theorem answerRead_kept {s : State} {p : Packet} : Kept s (answerRead s p) := by
  unfold answerRead
  extract_lets ti₁ tier₁ gs₁ pieces₁ s₁
  clear_value ti₁ tier₁ gs₁ pieces₁
  have k_s₁ : Kept s s₁ := by
    refine Kept.foldl ?_ ?_
    · intro x1 x2
      exact noteRead_kept
    · exact Kept.refl _
  clear_value s₁
  refine Kept.trans ?_ State.send_kept
  assumption

theorem nackMem_kept {s : State} {p : Packet} : Kept s (nackMem s p) := by
  unfold nackMem
  exact State.send_kept

theorem acceptWrite_kept {s : State} {p : Packet} : Kept s (acceptWrite s p) := by
  unfold acceptWrite
  refine Kept.trans ?_ (State.modTile_kept ?_)
  · exact Kept.refl _
  · exact fun _ h => by split <;> exact h

theorem serveBonded_kept {s : State} {p : Packet} : Kept s (serveBonded s p) := by
  unfold serveBonded
  refine Kept.ite ?_ ?_
  · exact answerRead_kept
  · refine Kept.trans ?_ acceptWrite_kept
    refine Kept.foldl ?_ ?_
    · intro x1 x2
      exact writeBonded_kept
    · exact Kept.refl _

theorem bondedRequest_kept {s : State} {p : Packet} : Kept s (bondedRequest s p) := by
  unfold bondedRequest
  extract_lets ti₁ m₁
  clear_value ti₁ m₁
  refine Kept.ite ?_ ?_
  · exact nackMem_kept
  · refine Kept.ite ?_ ?_
    · exact State.modTile_kept
    · refine Kept.ite ?_ ?_
      · exact Kept.trans State.modTile_kept State.count_kept
      · exact serveBonded_kept

theorem serveWaiting_kept {s : State} {ti layer pair : Nat} : Kept s (serveWaiting s ti layer pair) := by
  unfold serveWaiting
  extract_lets ready₁ s₁
  clear_value ready₁
  have k_s₁ : Kept s s₁ := by
    exact State.modTile_kept
  clear_value s₁
  refine Kept.foldl ?_ ?_
  · intro x1 x2
    exact serveBonded_kept
  · assumption

theorem writeOut_kept {s : State} {l : WcbLine} : Kept s (writeOut s l) := by
  unfold writeOut
  extract_lets src₁ s₁
  have k_s₁ : Kept s s₁ := by
    exact Kept.upd (Kept.refl _)
  clear_value s₁
  refine Kept.foldl ?_ ?_
  · intro x1 x2
    extract_lets v₁ d₁
    clear_value v₁ d₁
    refine Kept.ite ?_ ?_
    · exact writeStackGran_kept
    · refine Kept.ite ?_ ?_
      · exact Kept.refl _
      · exact writeStackGran_kept
  · assumption

theorem makeRoom_kept {s : State} {stack : Nat} : Kept s (makeRoom s stack) := by
  unfold makeRoom
  extract_lets ls₁
  clear_value ls₁
  refine Kept.ite ?_ ?_
  · exact Kept.refl _
  · split
    · exact Kept.refl _
    · exact writeOut_kept

theorem bufferWrite_kept {s : State} {p : Packet} : Kept s (bufferWrite s p) := by
  unfold bufferWrite
  extract_lets block₁ stack₁ pieces₁ s₁ s₂ l₁ src₁ l₂ src₂ s₃
  clear_value block₁ stack₁ pieces₁
  have k_s₁ : Kept s s₁ := by
    unfold s₁
    split
    · exact writeOut_kept
    · exact Kept.refl _
  clear_value s₁
  have k_s₂ : Kept s s₂ := by
    unfold s₂
    split
    · exact Kept.refl _
    · exact makeRoom_kept
  clear_value s₂ l₁ l₂
  have k_s₃ : Kept s s₃ := by
    refine Kept.upd ?_
    assumption
  clear_value s₃
  refine Kept.ite ?_ ?_
  · refine Kept.foldl ?_ ?_
    · intro x1 x2
      exact writeStackGran_kept
    · assumption
  · refine Kept.ite ?_ ?_
    · refine Kept.trans ?_ writeOut_kept
      assumption
    · assumption

theorem drawBucket_kept {s : State} {stack kind part n : Nat} : Kept s (drawBucket s stack kind part n) := by
  unfold drawBucket
  extract_lets b₁ src₁
  clear_value b₁
  exact Kept.upd (Kept.refl _)

theorem serveStack_kept {s : State} {p : Packet} : Kept s (serveStack s p) := by
  unfold serveStack
  extract_lets part₁ n₁ s₁ src₁ s₂
  clear_value part₁ n₁
  have k_s₁ : Kept s s₁ := by
    exact Kept.trans drawBucket_kept drawBucket_kept
  clear_value s₁
  have k_s₂ : Kept s s₂ := by
    refine Kept.upd ?_
    assumption
  clear_value s₂
  refine Kept.ite ?_ ?_
  · refine Kept.trans ?_ answerRead_kept
    assumption
  · refine Kept.ite ?_ ?_
    · refine Kept.trans ?_ acceptWrite_kept
      refine Kept.foldl ?_ ?_
      · intro x1 x2
        exact writeStackGran_kept
      · assumption
    · refine Kept.trans ?_ acceptWrite_kept
      refine Kept.trans ?_ bufferWrite_kept
      assumption

theorem stackRequest_kept {s : State} {p : Packet} : Kept s (stackRequest s p) := by
  unfold stackRequest
  extract_lets h₁ part₁ src₁
  clear_value h₁ part₁
  refine Kept.ite ?_ ?_
  · exact nackMem_kept
  · refine Kept.ite ?_ ?_
    · exact Kept.upd (Kept.refl _)
    · exact serveStack_kept

theorem execMemRead_kept {p : Packet} {s : State} : Answers s (execMemRead p s) := by
  unfold execMemRead
  extract_lets q₁
  clear_value q₁
  refine Answers.next ?_
  refine Kept.ite ?_ ?_
  · exact Kept.trans State.arrive_kept stackRequest_kept
  · exact Kept.trans State.arrive_kept bondedRequest_kept

theorem execMemWrite_kept {p : Packet} {s : State} : Answers s (execMemWrite p s) := by
  unfold execMemWrite
  extract_lets q₁
  clear_value q₁
  refine Answers.next ?_
  refine Kept.ite ?_ ?_
  · exact Kept.trans State.arrive_kept stackRequest_kept
  · exact Kept.trans State.arrive_kept bondedRequest_kept

theorem execReadData_kept {p : Packet} {s : State} : Answers s (execReadData p s) := by
  unfold execReadData
  refine Answers.next ?_
  exact State.arrive_kept

theorem execTokenBucketRefill_kept {stack part : Nat} {h : Half} {s : State} : Answers s (execTokenBucketRefill stack part h s) := by
  unfold execTokenBucketRefill
  extract_lets mine₁ src₁
  refine Answers.ite ?_ ?_
  · exact Answers.next (Kept.refl _)
  · extract_lets
    split
    · exact Answers.next (Kept.refl _)
    · extract_lets n₁ b₁ s₁
      clear_value n₁ b₁
      have k_s₁ : Kept s s₁ := by
        exact Kept.upd (Kept.refl _)
      clear_value s₁
      refine Answers.next ?_
      refine Kept.trans ?_ serveStack_kept
      assumption

theorem execWcbLineTimeout_kept {stack block : Nat} {s : State} : Answers s (execWcbLineTimeout stack block s) := by
  unfold execWcbLineTimeout
  split
  · exact Answers.next (Kept.refl _)
  · refine Answers.next ?_
    refine Kept.ite ?_ ?_
    · exact writeOut_kept
    · exact Kept.refl _

theorem flushWcb_kept {s : State} : Kept s (flushWcb s) := by
  unfold flushWcb
  refine Kept.foldl ?_ ?_
  · intro x1 x2
    exact writeOut_kept
  · exact Kept.refl _

theorem serveStackWaiting_kept {s : State} {stack : Nat} : Kept s (serveStackWaiting s stack) := by
  unfold serveStackWaiting
  extract_lets ready₁ src₁ s₁
  clear_value ready₁
  have k_s₁ : Kept s s₁ := by
    exact Kept.upd (Kept.refl _)
  clear_value s₁
  refine Kept.foldl ?_ ?_
  · intro x1 x2
    exact stackRequest_kept
  · assumption

theorem execLoopbackDone_kept {lanesFailed : Nat} {s : State} : Answers s (execLoopbackDone lanesFailed s) := by
  unfold execLoopbackDone
  extract_lets stack₁ s₁ s₂ s₃
  clear_value stack₁
  have k_s₁ : Kept s s₁ := by
    exact State.setFld_kept
  clear_value s₁
  have k_s₂ : Kept s s₂ := by
    refine Kept.trans ?_ State.setFld_kept
    assumption
  clear_value s₂
  have k_s₃ : Kept s s₃ := by
    refine Kept.trans ?_ State.setFld_kept
    assumption
  clear_value s₃
  refine Answers.ite ?_ ?_
  · exact Answers.next (Kept.refl _)
  · refine Answers.next ?_
    refine Kept.trans ?_ serveStackWaiting_kept
    assumption

theorem execBondedRefresh_kept {ti layer bank : Nat} {s : State} : Answers s (execBondedRefresh ti layer bank s) := by
  unfold execBondedRefresh
  extract_lets k₁
  clear_value k₁
  refine Answers.ite ?_ ?_
  · exact Answers.next (Kept.refl _)
  · refine Answers.next ?_
    exact State.modTile_kept

theorem State.setBit_kept {s : State} {a i : Nat} {b : Bool} : Kept s (State.setBit s a i b) := by
  unfold State.setBit
  exact State.setFld_kept

theorem execRefreshIntervalChange_kept {ti layer : Nat} {temp : Int} {s : State} : Answers s (execRefreshIntervalChange ti layer temp s) := by
  unfold execRefreshIntervalChange
  extract_lets a₁ hot₁ r₁ s₁
  clear_value a₁ hot₁ r₁
  have k_s₁ : Kept s s₁ := by
    exact State.modTile_kept
  clear_value s₁
  refine Answers.ite ?_ ?_
  · refine Answers.next ?_
    assumption
  · refine Answers.next ?_
    refine Kept.trans ?_ recordEvent_kept
    refine Kept.trans ?_ State.setBit_kept
    assumption

theorem execStackRefresh_kept {stack bank : Nat} {s : State} : Answers s (execStackRefresh stack bank s) := by
  unfold execStackRefresh
  extract_lets k₁ src₁
  clear_value k₁
  refine Answers.next ?_
  exact Kept.upd (Kept.refl _)

theorem execStackTempRead_kept {stack : Nat} {temp : Int} {s : State} : Answers s (execStackTempRead stack temp s) := by
  unfold execStackTempRead
  extract_lets a₁ s₁ hot₁ r₁ src₁ s₂
  clear_value a₁
  have k_s₁ : Kept s s₁ := by
    exact State.setFld_kept
  clear_value s₁ hot₁ r₁
  have k_s₂ : Kept s s₂ := by
    refine Kept.upd ?_
    assumption
  clear_value s₂
  refine Answers.ite ?_ ?_
  · refine Answers.next ?_
    assumption
  · refine Answers.next ?_
    refine Kept.trans ?_ recordEvent_kept
    refine Kept.trans ?_ State.setBit_kept
    assumption

theorem scrubWord_kept {s : State} {ti w : Nat} : Kept s (scrubWord s ti w).1 := by
  unfold scrubWord
  extract_lets r₁ s₁
  clear_value r₁
  have k_s₁ : Kept s s₁ := by
    exact noteSramRead_kept
  clear_value s₁
  split
  · dsimp only
    exact Kept.refl _
  · split
    · dsimp only
      refine Kept.trans ?_ (State.modTile_kept ?_)
      · assumption
      · exact fun _ h => ⟨SMap.put_wf _ _ h.1, h.2⟩
    · dsimp only
      refine Kept.trans ?_ (State.modTile_kept ?_)
      · assumption
      · exact fun _ h => ⟨SMap.put_wf _ _ h.1, h.2⟩
    · assumption

theorem scrubGranule_kept {s : State} {ti : Nat} {tier : Tier} {k : Nat} : Kept s (scrubGranule s ti tier k).1 := by
  unfold scrubGranule
  extract_lets sl₁ g₁ r₁ s₁
  clear_value sl₁ g₁ r₁
  have k_s₁ : Kept s s₁ := by
    exact noteBondedRead_kept
  clear_value s₁
  split
  · dsimp only
    exact Kept.refl _
  · split
    · dsimp only
      refine Kept.trans ?_ State.putGranule_kept
      assumption
    · dsimp only
      refine Kept.trans ?_ State.putGranule_kept
      assumption
    · assumption

theorem scrubStackGran_kept {s : State} {stack k : Nat} : Kept s (scrubStackGran s stack k) := by
  unfold scrubStackGran
  extract_lets a₁ r₁ s₁
  clear_value a₁ r₁
  have k_s₁ : Kept s s₁ := by
    exact Kept.trans noteStackRead_kept drawBucket_kept
  clear_value s₁
  refine Kept.ite ?_ ?_
  · exact Kept.refl _
  · split
    · refine Kept.trans ?_ State.putStack_kept
      assumption
    · refine Kept.trans ?_ State.putStack_kept
      assumption
    · assumption

theorem scrubPass_kept {s : State} {ti engine start fixes : Nat} : Kept s (scrubPass s ti engine start fixes) := by
  unfold scrubPass
  extract_lets a₁ s₁
  clear_value a₁
  have k_s₁ : Kept s s₁ := by
    unfold s₁
    refine Kept.ite ?_ ?_
    · exact State.setFld_kept
    · exact State.setFld_kept
  clear_value s₁
  refine Kept.trans ?_ recordEvent_kept
  assumption

theorem execScrubAccess_kept {stack : Bool} {unit : Nat} {sram : Bool} {s : State} : Answers s (execScrubAccess stack unit sram s) := by
  unfold execScrubAccess
  extract_lets k₁ s₁ src₁ a₁ w₁ r₁ s₂ t₁ s₃ a₂ adopted₁ k₂ r₂ s₄ t₂ s₅
  clear_value k₁
  have k_s₁ : Kept s s₁ := by
    exact scrubStackGran_kept
  clear_value s₁ a₁ w₁
  have k_r₁1 : Kept s r₁.1 := by
    exact scrubWord_kept
  clear_value r₁
  have k_s₂ : Kept s s₂ := by
    unfold s₂
    refine Kept.ite ?_ ?_
    · refine Kept.trans ?_ State.modTile_kept
      assumption
    · assumption
  clear_value s₂
  have k_s₃ : Kept s s₃ := by
    refine Kept.trans ?_ scrubPass_kept
    refine Kept.trans ?_ State.setFld_kept
    assumption
  clear_value s₃ a₂ adopted₁ k₂
  have k_r₂1 : Kept s r₂.1 := by
    exact scrubGranule_kept
  clear_value r₂
  have k_s₄ : Kept s s₄ := by
    unfold s₄
    refine Kept.ite ?_ ?_
    · refine Kept.trans ?_ State.modTile_kept
      assumption
    · assumption
  clear_value s₄
  have k_s₅ : Kept s s₅ := by
    refine Kept.trans ?_ scrubPass_kept
    refine Kept.trans ?_ State.setFld_kept
    refine Kept.trans ?_ State.setFld_kept
    assumption
  clear_value s₅
  refine Answers.ite ?_ ?_
  · exact Answers.next (Kept.refl _)
  · refine Answers.ite ?_ ?_
    · refine Answers.next ?_
      refine Kept.upd ?_
      assumption
    · refine Answers.ite ?_ ?_
      · exact Answers.next (Kept.refl _)
      · refine Answers.ite ?_ ?_
        · refine Answers.ite ?_ ?_
          · refine Answers.next ?_
            refine Kept.trans ?_ State.setFld_kept
            assumption
          · refine Answers.next ?_
            refine Kept.trans ?_ State.modTile_kept
            assumption
        · refine Answers.ite ?_ ?_
          · refine Answers.next ?_
            refine Kept.trans ?_ State.setFld_kept
            assumption
          · refine Answers.ite ?_ ?_
            · refine Answers.next ?_
              refine Kept.trans ?_ State.setFld_kept
              refine Kept.trans ?_ State.setFld_kept
              assumption
            · refine Answers.next ?_
              refine Kept.trans ?_ State.modTile_kept
              assumption

end Sys2Proof.Machine
end

