-- ==== Sys2Proof/Laws/KeptIbu.lean ====
section
/-! SUPPORT. The definitions of Machine/Ibu.lean keep the queue and the canonical form. -/
set_option Elab.async false
namespace Sys2Proof.Machine

theorem workIbuOp_kept {s : State} {ti : Nat} {c : BitVec 512} : Calm (workIbuOp s ti c) := by
  unfold workIbuOp
  extract_lets f₁ inPlace₁ perm₁ steps₁ src₁
  clear_value f₁ inPlace₁ perm₁ steps₁
  refine Calm.ite ?_ ?_
  · exact flt_kept
  · extract_lets
    refine Calm.ite ?_ ?_
    · exact flt_kept
    · extract_lets
      refine Calm.ite ?_ ?_
      · exact flt_kept
      · extract_lets
        refine Calm.ite ?_ ?_
        · exact flt_kept
        · extract_lets
          split
          · exact Calm.error _
          · extract_lets n₁
            clear_value n₁
            refine Calm.ok (fun x => ?_)
            dsimp only
            refine Kept.ite ?_ ?_
            · exact Kept.refl _
            · exact noteSramReads_kept

theorem execIbuOp_kept {c : TileCmd} {s : State} : Answers s (execIbuOp c s) := by
  unfold execIbuOp
  refine Answers.next ?_
  refine Kept.trans ?_ (issueCmd_kept ?_)
  · exact Kept.refl _
  · intro x1 x2
    exact workIbuOp_kept

theorem writePair_kept {s : State} {ti layer pair : Nat} {outs : List IbuOut} : Kept s (writePair s ti layer pair outs).1 := by
  unfold writePair
  extract_lets bufs₁ s₁
  clear_value bufs₁
  have k_s₁ : Kept s s₁ := by
    refine Kept.foldl ?_ ?_
    · intro x1 x2
      extract_lets k₁ g₁ r₁
      clear_value k₁ g₁ r₁
      refine Kept.ite ?_ ?_
      · exact State.putGranule_kept
      · refine Kept.ite ?_ ?_
        · exact State.putGranule_kept
        · refine Kept.ite ?_ ?_
          · exact State.putGranule_kept
          · exact State.putGranule_kept
    · exact Kept.refl _
  clear_value s₁
  assumption

theorem runStep_kept {s : State} {ti pair : Nat} {f : IbuFields} {left : Nat} : Kept s (runStep s ti pair f left) := by
  unfold runStep
  extract_lets total₁ step₁ ce₁ r₁ s₁ a₁ s₂ s₃
  clear_value total₁ step₁ ce₁
  have k_r₁1 : Kept s r₁.1 := by
    exact writePair_kept
  clear_value r₁
  have k_s₁ : Kept s s₁ := by
    refine Kept.trans ?_ State.count_kept
    assumption
  clear_value s₁ a₁
  have k_s₂ : Kept s s₂ := by
    refine Kept.trans ?_ State.setReg64_kept
    assumption
  clear_value s₂
  have k_s₃ : Kept s s₃ := by
    refine Kept.trans ?_ State.setFld_kept
    refine Kept.trans ?_ State.count_kept
    assumption
  clear_value s₃
  split
  · assumption
  · refine Kept.trans ?_ recordEvent_kept
    assumption

theorem execIbuStepDone_kept {ti layer pair : Nat} {s : State} : Answers s (execIbuStepDone ti layer pair s) := by
  unfold execIbuStepDone
  extract_lets t₁
  split
  · refine Answers.next ?_
    exact serveWaiting_kept
  · split
    · extract_lets n₁ s₁ left'6_57_2 s₂
      clear_value n₁
      have k_s₁ : Kept s s₁ := by
        exact runStep_kept
      clear_value s₁ left'6_57_2
      have k_s₂ : Kept s s₂ := by
        refine Kept.trans ?_ State.modTile_kept
        assumption
      clear_value s₂
      refine Answers.next ?_
      refine Kept.trans ?_ serveWaiting_kept
      assumption
    · exact Answers.next (Kept.refl _)

theorem startInPlace_kept {s : State} {ti slot : Nat} : Kept s (startInPlace s ti slot) := by
  unfold startInPlace
  exact State.modTile_kept

end Sys2Proof.Machine
end

