-- ==== Sys2Proof/Laws/KeptNet.lean ====
section
/-! SUPPORT. The definitions of Machine/Net.lean keep the queue and the canonical form. -/
set_option Elab.async false
namespace Sys2Proof.Machine

theorem Tile.putRecv_wf {t : Tile} {src : Nat} {fab : Option Nat} {chan n : Nat} (h : t.wf) : (t.putRecv src fab chan n).wf := h

theorem workSend_kept {s : State} {ti : Nat} {c : BitVec 512} : Calm (workSend s ti c) := by
  unfold workSend
  extract_lets src₁
  split
  · exact Calm.error _
  · refine Calm.ite ?_ ?_
    · exact badDesc_kept
    · split
      · exact Calm.error _
      · refine Calm.ok (fun x => ?_)
        exact Kept.refl _

theorem execSend_kept {c : TileCmd} {s : State} : Answers s (execSend c s) := by
  unfold execSend
  refine Answers.next ?_
  refine Kept.trans ?_ (issueCmd_kept ?_)
  · exact Kept.refl _
  · intro x1 x2
    exact workSend_kept

theorem execRecv_kept {c : TileCmd} {s : State} : Answers s (execRecv c s) := by
  unfold execRecv
  extract_lets src₁
  refine Answers.next ?_
  refine Kept.trans ?_ (issueCmd_kept ?_)
  · exact Kept.refl _
  · intro x1 x2
    refine Calm.ok (fun x => ?_)
    exact Kept.refl _

theorem execSync_kept {c : TileCmd} {s : State} : Answers s (execSync c s) := by
  unfold execSync
  extract_lets src₁
  refine Answers.next ?_
  refine Kept.trans ?_ (issueCmd_kept ?_)
  · exact Kept.refl _
  · intro x1 x2
    refine Calm.ok (fun x => ?_)
    dsimp only
    exact State.send_kept

theorem arriveSync_kept {s : State} {ti group : Nat} {m : Nat × Option Nat} : Kept s (arriveSync s ti group m) := by
  unfold arriveSync
  extract_lets t₁ old₁ ms₁ rest₁
  clear_value old₁ ms₁ rest₁
  split
  · refine Kept.trans ?_ (State.setTile_kept ?_)
    · exact Kept.refl _
    · exact fun w => State.tile_wf w
  · refine Kept.ite ?_ ?_
    · refine Kept.trans ?_ (State.setTile_kept ?_)
      · exact Kept.refl _
      · exact fun w => State.tile_wf w
    · refine Kept.trans ?_ State.sendAll_kept
      refine Kept.trans ?_ (State.setTile_kept ?_)
      · exact Kept.refl _
      · exact fun w => State.tile_wf w

theorem dropStale_kept {s : State} {ti : Nat} : Kept s (dropStale s ti) := by
  unfold dropStale
  exact State.count_kept

theorem detain_kept {s : State} {p : Packet} : Kept s (detain s p) := by
  unfold detain
  refine Kept.ite ?_ ?_
  · exact Kept.refl _
  · exact State.send_kept

theorem execSyncArrival_kept {p : Packet} {s : State} : Answers s (execSyncArrival p s) := by
  unfold execSyncArrival
  extract_lets s₁
  have k_s₁ : Kept s s₁ := by
    exact State.arrive_kept
  clear_value s₁
  refine Answers.ite ?_ ?_
  · refine Answers.next ?_
    exact detain_kept
  · refine Answers.next ?_
    refine Kept.ite ?_ ?_
    · assumption
    · refine Kept.ite ?_ ?_
      · refine Kept.trans ?_ dropStale_kept
        assumption
      · refine Kept.trans ?_ arriveSync_kept
        assumption

theorem releaseSync_kept {s : State} {ti group : Nat} : Kept s (releaseSync s ti group) := by
  unfold releaseSync
  extract_lets t₁
  split
  · exact Kept.refl _
  · split
    · refine Kept.trans ?_ (State.setTile_kept ?_)
      · exact Kept.refl _
      · exact fun w => State.tile_wf w
    · exact Kept.refl _

theorem execSyncRelease_kept {p : Packet} {s : State} : Answers s (execSyncRelease p s) := by
  unfold execSyncRelease
  extract_lets s₁
  have k_s₁ : Kept s s₁ := by
    exact State.arrive_kept
  clear_value s₁
  refine Answers.ite ?_ ?_
  · refine Answers.next ?_
    exact detain_kept
  · refine Answers.next ?_
    refine Kept.ite ?_ ?_
    · assumption
    · refine Kept.ite ?_ ?_
      · refine Kept.trans ?_ dropStale_kept
        assumption
      · refine Kept.trans ?_ releaseSync_kept
        assumption

theorem execNocWrite_kept {p : Packet} {s : State} : Answers s (execNocWrite p s) := by
  unfold execNocWrite
  extract_lets ti₁ s₁ bank₁ s₂
  clear_value ti₁
  have k_s₁ : Kept s s₁ := by
    exact State.arrive_kept
  clear_value s₁ bank₁
  have k_s₂ : Kept s s₂ := by
    refine Kept.trans ?_ State.send_kept
    refine Kept.trans ?_ State.count_kept
    assumption
  clear_value s₂
  refine Answers.ite ?_ ?_
  · refine Answers.next ?_
    exact detain_kept
  · refine Answers.ite ?_ ?_
    · refine Answers.next ?_
      refine Kept.trans ?_ State.send_kept
      assumption
    · refine Answers.ite ?_ ?_
      · refine Answers.next ?_
        refine Kept.trans ?_ State.send_kept
        refine Kept.trans ?_ dropStale_kept
        assumption
      · refine Answers.ite ?_ ?_
        · refine Answers.next ?_
          refine Kept.trans ?_ State.send_kept
          refine Kept.trans ?_ State.count_kept
          assumption
        · refine Answers.ite ?_ ?_
          · refine Answers.next ?_
            refine Kept.trans ?_ tileFault_kept
            assumption
          · refine Answers.ite ?_ ?_
            · exact Answers.next (Kept.refl _)
            · refine Answers.next ?_
              refine Kept.trans ?_ State.modTile_kept
              assumption

theorem execInboundWritePerformed_kept {ti bank : Nat} {s : State} : Answers s (execInboundWritePerformed ti bank s) := by
  unfold execInboundWritePerformed
  extract_lets t₁
  split
  · exact Answers.next (Kept.refl _)
  · extract_lets s₁ s₂ src₁ n₁ s₃
    have k_s₁ : Kept s s₁ := by
      exact writeSram_kept
    clear_value s₁
    have k_s₂ : Kept s s₂ := by
      unfold s₂
      refine Kept.ite ?_ ?_
      · refine Kept.trans ?_ State.count_kept
        assumption
      · assumption
    clear_value s₂ src₁ n₁
    have k_s₃ : Kept s s₃ := by
      refine Kept.trans ?_ State.modTile_kept
      assumption
    clear_value s₃
    refine Answers.next ?_
    refine Kept.trans ?_ State.send_kept
    assumption

theorem execStealStarved_kept {ti : Nat} {s : State} : Answers s (execStealStarved ti s) := by
  unfold execStealStarved
  extract_lets t₁
  split
  · exact Answers.next (Kept.refl _)
  · extract_lets s₁ s₂
    have k_s₁ : Kept s s₁ := by
      exact State.count_kept
    clear_value s₁
    have k_s₂ : Kept s s₂ := by
      refine Kept.trans ?_ State.modTile_kept
      assumption
    clear_value s₂
    refine Answers.next ?_
    refine Kept.ite ?_ ?_
    · assumption
    · refine Kept.trans ?_ recordEvent_kept
      assumption

theorem execEscapeChannelMove_kept {p : Packet} {s : State} : Answers s (execEscapeChannelMove p s) := by
  unfold execEscapeChannelMove
  refine Answers.ite ?_ ?_
  · refine Answers.next ?_
    exact Kept.upd (Kept.refl _)
  · exact Answers.next (Kept.refl _)

theorem execHandover.dropSeq_kept {s : State} {ti serial : Nat} {b : BitVec 512} : Kept s (execHandover.dropSeq ti serial b s) := by
  unfold execHandover.dropSeq
  split
  · exact State.modTile_kept
  · exact Kept.refl _

theorem execHandover_kept {c : TileCmd} {s : State} : Answers s (execHandover c s) := by
  unfold execHandover
  refine Answers.next (Kept.trans (issueCmd_kept (fun _ _ => Calm.ok (fun _ => ?_))) execHandover.dropSeq_kept)
  dsimp only
  exact State.modTile_kept

theorem writeOwner_kept {s : State} {ti b : Nat} {h : Handover} : Kept s (writeOwner s ti b h) := by
  unfold writeOwner
  extract_lets a₁ s₁
  clear_value a₁
  have k_s₁ : Kept s s₁ := by
    exact State.setFld_kept
  clear_value s₁
  refine Kept.ite ?_ ?_
  · refine Kept.trans ?_ State.setBit_kept
    assumption
  · assumption

theorem execBankOwnerWrite_kept {ti : Nat} {s : State} : Answers s (execBankOwnerWrite ti s) := by
  unfold execBankOwnerWrite
  extract_lets t₁
  split
  · exact Answers.next (Kept.refl _)
  · extract_lets ready₁ left₁ s₁
    clear_value ready₁ left₁
    have k_s₁ : Kept s s₁ := by
      refine Kept.foldl ?_ ?_
      · intro x1 x2
        exact writeOwner_kept
      · exact Kept.refl _
    clear_value s₁
    refine Answers.ite ?_ ?_
    · refine Answers.next ?_
      refine Kept.trans ?_ finishCmd_kept
      refine Kept.trans ?_ State.modTile_kept
      assumption
    · refine Answers.next ?_
      refine Kept.trans ?_ State.modTile_kept
      assumption

theorem nextSegment_kept {s : State} {ti : Nat} : Kept s (nextSegment s ti) := by
  unfold nextSegment
  extract_lets t₁ rest₁ s₁ s₂
  clear_value rest₁
  have k_s₁ : Kept s s₁ := by
    refine Kept.trans ?_ (State.setTile_kept ?_)
    · exact Kept.refl _
    · exact fun w => State.tile_wf w
  clear_value s₁
  have k_s₂ : Kept s s₂ := by
    refine Kept.trans ?_ State.setFld_kept
    refine Kept.trans ?_ State.setTokens_kept
    assumption
  clear_value s₂
  refine Kept.ite ?_ ?_
  · refine Kept.trans ?_ State.setTilState_kept
    assumption
  · assumption

theorem execEnd_kept {c : TileCmd} {s : State} : Answers s (execEnd c s) := by
  unfold execEnd
  extract_lets ti₁ serial₁ s₁ t₁ s₂
  clear_value ti₁ serial₁
  have k_s₁ : Kept s s₁ := by
    refine Kept.trans ?_ (issueCmd_kept ?_)
    · exact Kept.refl _
    · intro x1 x2
      refine Calm.ok (fun x => ?_)
      exact Kept.refl _
  clear_value s₁
  have k_s₂ : Kept s s₂ := by
    refine Kept.trans ?_ (State.setTile_kept ?_)
    · assumption
    · exact fun w => State.tile_wf w
  clear_value s₂
  refine Answers.ite ?_ ?_
  · refine Answers.next ?_
    exact State.setFld_kept
  · split
    · refine Answers.next ?_
      assumption
    · refine Answers.next ?_
      refine Kept.trans ?_ nextSegment_kept
      refine Kept.trans ?_ finishCmd_kept
      assumption

theorem finishUnit_kept {s : State} {ti : Nat} {e : QEntry} : Kept s (finishUnit s ti e) := by
  unfold finishUnit
  extract_lets s₁ s₂
  have k_s₁ : Kept s s₁ := by
    unfold s₁
    split
    · exact finishArray_kept
    · exact Kept.refl _
  clear_value s₁
  have k_s₂ : Kept s s₂ := by
    unfold s₂
    split
    · refine Kept.trans ?_ finishAttn_kept
      assumption
    · assumption
  clear_value s₂
  split
  · refine Kept.trans ?_ State.modTile_kept
    assumption
  · assumption

theorem execCommandComplete_kept {ti : Nat} {u : UnitId} {s : State} : Answers s (execCommandComplete ti u s) := by
  unfold execCommandComplete
  extract_lets t₁
  split
  · exact Answers.next (Kept.refl _)
  · extract_lets s₁ s₂ s₃
    have k_s₁ : Kept s s₁ := by
      exact writeSram_kept
    clear_value s₁
    have k_s₂ : Kept s s₂ := by
      refine Kept.trans ?_ State.modTile_kept
      assumption
    clear_value s₂
    have k_s₃ : Kept s s₃ := by
      refine Kept.trans ?_ finishCmd_kept
      assumption
    clear_value s₃
    split
    · refine Answers.next ?_
      exact tileFault_kept
    · refine Answers.next ?_
      refine Kept.trans ?_ finishUnit_kept
      assumption

end Sys2Proof.Machine
end

