-- ==== Sys2Proof/Laws/KeptSage.lean ====
section
/-! SUPPORT. The definitions of Machine/Sage.lean keep the queue and the canonical form. -/
set_option Elab.async false
namespace Sys2Proof.Machine

theorem State.putSession_kept {s : State} {x : Session} : Kept s (State.putSession s x) := by
  unfold State.putSession
  extract_lets src₁
  exact Kept.upd (Kept.refl _)

theorem State.seat_kept {s : State} {model : Nat} {k : KindRec} {m : Member} {r : Nat} {seat : Option Nat} : Kept s (State.seat s model k m r seat).1 := by
  unfold State.seat
  extract_lets src₁ b₁
  clear_value b₁
  split
  · dsimp only
    exact Kept.upd (Kept.refl _)
  · dsimp only
    exact Kept.upd (Kept.refl _)

theorem State.placeStep_kept {s t : State} {margin : Nat} {x : Session} {reqId : Nat} {st : ReqStep} {lo a b : Nat}
    (h : State.placeStep s margin x reqId st lo = some (t, a, b)) : Kept s t := by
  unfold State.placeStep at h
  split at h
  · cases h
  · split at h
    · cases h
    · dsimp only at h
      split at h
      · cases h
      · cases h
        exact State.seat_kept

theorem State.placeAll_kept {s t : State} {margin : Nat} {x : Session} {reqId prev : Nat} {l l' : List ReqStep}
    (h : State.placeAll s margin x reqId prev l = some (t, l')) : Kept s t := by
  induction l generalizing s prev l' with
  | nil =>
    unfold State.placeAll at h
    cases h
    exact Kept.refl _
  | cons st rest ih =>
    unfold State.placeAll at h
    split at h
    · cases h
    · rename_i h1
      split at h
      · cases h
      · rename_i h2
        cases h
        exact (State.placeStep_kept h1).trans (ih h2)

theorem State.unseat_kept {s : State} {sid num : Nat} : Kept s (State.unseat s sid num) := by
  unfold State.unseat
  extract_lets bs₁ src₁
  clear_value bs₁
  exact Kept.upd (Kept.refl _)

theorem State.releaseSteps_kept {s : State} {x : Session} {q : Request} : Kept s (State.releaseSteps s x q).1 := by
  unfold State.releaseSteps
  extract_lets gone₁
  clear_value gone₁
  dsimp only
  refine Kept.foldl ?_ ?_
  · intro x1 x2
    exact State.unseat_kept
  · exact Kept.refl _

theorem endRequest_kept {s : State} {sid status : Nat} : Kept s (endRequest s sid status) := by
  unfold endRequest
  split
  · exact Kept.refl _
  · split
    · exact Kept.refl _
    · extract_lets s₁ s₂ s₃ rs₁
      have k_s₁ : Kept s s₁ := by
        exact recordEvent_kept
      clear_value s₁
      have k_s₂ : Kept s s₂ := by
        refine Kept.trans ?_ State.releaseSteps_kept
        assumption
      clear_value s₂
      have k_s₃ : Kept s s₃ := by
        unfold s₃
        refine Kept.ite ?_ ?_
        · refine Kept.trans ?_ State.count_kept
          assumption
        · assumption
      clear_value s₃ rs₁
      refine Kept.trans ?_ State.putSession_kept
      assumption

theorem State.setStep_kept {s : State} {sid reqId num : Nat} {v : StepState} : Kept s (State.setStep s sid reqId num v) := by
  unfold State.setStep
  split
  · exact Kept.refl _
  · split
    · exact Kept.refl _
    · refine Kept.ite ?_ ?_
      · exact Kept.refl _
      · exact State.putSession_kept

theorem noteDrop_kept {s : State} {sid cause round : Nat} : Kept s (noteDrop s sid cause round) := by
  unfold noteDrop
  exact Kept.trans State.count_kept recordEvent_kept

theorem dropBatch_kept {s : State} {b : Batch} {cause : Nat} : Kept s (dropBatch s b cause) := by
  unfold dropBatch
  extract_lets src₁ s₁
  have k_s₁ : Kept s s₁ := by
    exact Kept.upd (Kept.refl _)
  clear_value s₁
  refine Kept.foldl ?_ ?_
  · intro x1 x2
    extract_lets s₂ s₃
    have k_s₂ : Kept x1 s₂ := by
      exact noteDrop_kept
    clear_value s₂
    have k_s₃ : Kept x1 s₃ := by
      refine Kept.trans ?_ State.setStep_kept
      assumption
    clear_value s₃
    refine Kept.ite ?_ ?_
    · refine Kept.ite ?_ ?_
      · refine Kept.trans ?_ endRequest_kept
        assumption
      · refine Kept.ite ?_ ?_
        · refine Kept.trans ?_ endRequest_kept
          assumption
        · assumption
    · exact noteDrop_kept
  · assumption

theorem State.replaceSteps_kept {s : State} {x : Session} {q : Request} {prev : Nat} {l : List ReqStep} :
    Kept s (State.replaceSteps s x q prev l) := by
  induction l generalizing s prev with
  | nil =>
    unfold State.replaceSteps
    exact Kept.refl _
  | cons st rest ih =>
    unfold State.replaceSteps
    split
    · exact ih
    · exact ih
    · split
      · exact ih
      · split
        · exact ih
        · extract_lets s1
          have h1 : Kept s s1 := State.unseat_kept
          split
          · exact (h1.trans State.setStep_kept).trans ih
          · rename_i h2
            exact (((h1.trans (State.placeStep_kept h2)).trans (State.count_kept.trans recordEvent_kept)).trans
              State.setStep_kept).trans ih
    · split
      · exact ih
      · rename_i h2
        exact (((State.placeStep_kept h2).trans (State.count_kept.trans recordEvent_kept)).trans
          State.setStep_kept).trans ih

theorem settleRequests_kept {s : State} {n : Nat} : Kept s (settleRequests s n) := by
  unfold settleRequests
  refine Kept.foldl ?_ ?_
  · intro x1 x2
    split
    · exact Kept.refl _
    · split
      · exact Kept.refl _
      · refine Kept.ite ?_ ?_
        · exact Kept.refl _
        · refine Kept.ite ?_ ?_
          · exact Kept.trans State.putSession_kept endRequest_kept
          · exact State.replaceSteps_kept
  · exact Kept.refl _

theorem commitMember_kept {s : State} {b : Batch} {i : Nat} {m : Member} : Kept s (commitMember s b i m) := by
  unfold commitMember
  split
  · exact Kept.refl _
  · split
    · exact noteDrop_kept
    · split
      · exact Kept.refl _
      · extract_lets out₁ steps₁ last₁ x₁ rs₁
        clear_value out₁ steps₁ last₁ x₁ rs₁
        refine Kept.ite ?_ ?_
        · exact noteDrop_kept
        · refine Kept.ite ?_ ?_
          · exact Kept.trans State.putSession_kept endRequest_kept
          · exact State.putSession_kept

theorem commitTile_kept {s : State} {b : Batch} {ti slot : Nat} : Kept s (commitTile s b ti slot) := by
  unfold commitTile
  extract_lets gone₁ ms₁ s₁ s₂
  clear_value gone₁ ms₁
  have k_s₁ : Kept s s₁ := by
    refine Kept.foldl ?_ ?_
    · intro x1 x2
      exact restoreSeq_kept
    · exact Kept.refl _
  clear_value s₁
  have k_s₂ : Kept s s₂ := by
    refine Kept.trans ?_ State.modTile_kept
    assumption
  clear_value s₂
  refine Kept.trans ?_ startInPlace_kept
  refine Kept.trans ?_ commitKv_kept
  assumption

theorem carryMarks_kept {s : State} {b : Batch} : Kept s (carryMarks s b) := by
  unfold carryMarks
  refine Kept.foldl ?_ ?_
  · intro x1 x2
    exact State.modTile_kept
  · exact Kept.refl _

theorem dropMarks_kept {s : State} {ti : Nat} : Kept s (dropMarks s ti) := by
  unfold dropMarks
  extract_lets live₁ ms₁ s₁
  clear_value live₁ ms₁
  have k_s₁ : Kept s s₁ := by
    refine Kept.foldl ?_ ?_
    · intro x1 x2
      exact restoreSeq_kept
    · exact Kept.refl _
  clear_value s₁
  refine Kept.trans ?_ State.modTile_kept
  assumption

theorem commitBatch_kept {s : State} {b : Batch} : Kept s (commitBatch s b) := by
  unfold commitBatch
  extract_lets s₁ s₂ s₃ src₁
  have k_s₁ : Kept s s₁ := by
    refine Kept.foldl ?_ ?_
    · intro x1 x2
      exact commitTile_kept
    · exact Kept.refl _
  clear_value s₁
  have k_s₂ : Kept s s₂ := by
    refine Kept.foldl ?_ ?_
    · intro x1 x2
      exact commitTile_kept
    · assumption
  clear_value s₂
  have k_s₃ : Kept s s₃ := by
    refine Kept.foldl ?_ ?_
    · intro x1 x2
      exact commitMember_kept
    · assumption
  clear_value s₃
  refine Kept.upd ?_
  assumption

theorem execPlanFreeze_kept {s : State} : Answers s (execPlanFreeze s) := by
  unfold execPlanFreeze
  extract_lets n₁ t₁ src₁ s₁ full₁ ms₁
  clear_value n₁ t₁
  have k_s₁ : Kept s s₁ := by
    exact Kept.upd (Kept.refl _)
  clear_value s₁ full₁ ms₁
  refine Answers.next ?_
  refine Kept.foldl ?_ ?_
  · intro x1 x2
    exact Kept.trans State.unseat_kept State.setStep_kept
  · assumption

theorem readPace_kept {s : State} {c v : Nat} : Kept s (readPace s c v) := by
  unfold readPace
  extract_lets l₁ m₁ src₁ s₁ s₂ p₁ s₃ was₁ src₂
  have k_s₁ : Kept s s₁ := by
    exact Kept.upd (Kept.refl _)
  have k_s₂ : Kept s s₂ := by
    refine Kept.trans ?_ State.setFld_kept
    assumption
  have k_s₃ : Kept s s₃ := by
    refine Kept.trans ?_ State.setFld_kept
    assumption
  refine Kept.ite ?_ ?_
  · refine Kept.trans ?_ recordEvent_kept
    refine Kept.upd ?_
    assumption
  · refine Kept.ite ?_ ?_
    · refine Kept.trans ?_ recordEvent_kept
      refine Kept.upd ?_
      assumption
    · assumption

theorem execPaceMonitorRead_kept {readings : List Nat} {s : State} : Answers s (execPaceMonitorRead readings s) := by
  unfold execPaceMonitorRead
  refine Answers.next ?_
  refine Kept.foldl ?_ ?_
  · intro x1 x2
    exact readPace_kept
  · exact Kept.refl _

theorem clearAdm_kept {s : State} : Kept s (clearAdm s) := by
  unfold clearAdm
  exact State.resetRegs_kept

theorem execAdmCountClr_kept {s : State} : Answers s (execAdmCountClr s) := by
  unfold execAdmCountClr
  refine Answers.next ?_
  exact clearAdm_kept

end Sys2Proof.Machine
end

