-- ==== Sys2Proof/Laws/KeptPackage.lean ====
section
/-! SUPPORT. The definitions of Machine/Package.lean keep the queue and the canonical form. -/
set_option Elab.async false
namespace Sys2Proof.Machine

theorem writeGranule_kept {s : State} {ti : Nat} {tier : Tier} {addr : Nat} {v : Nat} : Kept s (writeGranule s ti tier addr v) := by
  unfold writeGranule
  split
  · exact writeStackGran_kept
  · exact writeBonded_kept

theorem writeTier_kept {s : State} {ti : Nat} {tier : Tier} {addr : Nat} {l : List Nat} : Kept s (writeTier s ti tier addr l) := by
  unfold writeTier
  refine Kept.foldl ?_ ?_
  · intro x1 x2
    exact writeGranule_kept
  · exact Kept.refl _

theorem growTable_kept {s : State} {ti space pages : Nat} : Kept s (growTable s ti space pages) := by
  unfold growTable
  extract_lets a₁ have_₁ s₁ base₁ s₂
  clear_value a₁ have_₁
  have k_s₁ : Kept s s₁ := by
    unfold s₁
    refine Kept.ite ?_ ?_
    · exact Kept.refl _
    · exact State.setFld_kept
  clear_value s₁ base₁
  have k_s₂ : Kept s s₂ := by
    refine Kept.foldl ?_ ?_
    · intro x1 x2
      split
      · exact writeGranule_kept
      · exact Kept.refl _
    · assumption
  clear_value s₂
  refine Kept.ite ?_ ?_
  · exact Kept.refl _
  · refine Kept.trans ?_ State.setFld_kept
    refine Kept.trans ?_ State.setFld_kept
    assumption

theorem mapTo_kept {s : State} {ti space page target ppn : Nat} {write : Bool} : Kept s (mapTo s ti space page target ppn write) := by
  unfold mapTo
  extract_lets s₁
  have k_s₁ : Kept s s₁ := by
    exact growTable_kept
  clear_value s₁
  split
  · refine Kept.trans ?_ putBytes_kept
    assumption
  · assumption

theorem mapPage_kept {s : State} {ti space model owner va target : Nat} {write : Bool} : Kept s (mapPage s ti space model owner va target write) := by
  unfold mapPage
  extract_lets page₁
  clear_value page₁
  exact mapTo_kept

theorem loadWeights_kept {s : State} {p : Package} {w : WeightsRec} : Kept s (loadWeights s p w) := by
  unfold loadWeights
  extract_lets tiles₁ s₁ tier₁ ti₁
  clear_value tiles₁
  have k_s₁ : Kept s s₁ := by
    refine Kept.foldl ?_ ?_
    · intro x1 x2
      refine Kept.foldl ?_ ?_
      · intro x3 x4
        exact mapPage_kept
      · exact Kept.refl _
    · exact Kept.refl _
  clear_value s₁ tier₁ ti₁
  refine Kept.foldl ?_ ?_
  · intro x5 x6
    extract_lets ppn₁
    clear_value ppn₁
    exact writeTier_kept
  · assumption

theorem loadSeed_kept {s : State} {x : SeedRec} : Kept s (loadSeed s x) :=
  ⟨rfl, fun w => { w with shadow := SMap.put_wf _ _ (SMap.put_wf _ _ (SMap.put_wf _ _ w.shadow)) }⟩

theorem writePackage_kept {s : State} {p : Package} : Kept s (writePackage s p) := by
  unfold writePackage
  refine Kept.foldl ?_ ?_
  · intro x1 x2
    exact loadSeed_kept
  · refine Kept.foldl ?_ ?_
    · intro x3 x4
      exact loadWeights_kept
    · exact Kept.refl _

theorem ensureDir_kept {s : State} {ti : Nat} : Kept s (ensureDir s ti) := by
  unfold ensureDir
  extract_lets a₁ s₁ base₁ s₂
  clear_value a₁
  have k_s₁ : Kept s s₁ := by
    exact State.setFld_kept
  clear_value s₁ base₁
  have k_s₂ : Kept s s₂ := by
    refine Kept.foldl ?_ ?_
    · intro x1 x2
      split
      · exact writeGranule_kept
      · exact Kept.refl _
    · assumption
  clear_value s₂
  refine Kept.ite ?_ ?_
  · exact Kept.refl _
  · refine Kept.trans ?_ State.setFld_kept
    refine Kept.trans ?_ State.setFld_kept
    assumption

theorem writeVa_kept {s : State} {ti space va : Nat} {l : List Nat} : Kept s (writeVa s ti space va l) := by
  unfold writeVa
  refine Kept.foldl ?_ ?_
  · intro x1 x2
    split
    · exact writeGranule_kept
    · exact Kept.refl _
  · exact Kept.refl _

theorem mapRange_kept {s : State} {ti model va n target : Nat} : Kept s (mapRange s ti model va n target) := by
  unfold mapRange
  refine Kept.foldl ?_ ?_
  · intro x1 x2
    extract_lets a₁
    clear_value a₁
    split
    · exact Kept.refl _
    · exact mapPage_kept
  · exact Kept.refl _

theorem openSeq_kept {s t : State} {model session cap : Nat} {r : KvRec} (h : openSeq s model session cap r = some t) :
    Kept s t := by
  unfold openSeq at h
  dsimp only at h
  split at h
  · cases h
  · split at h
    · cases h
      refine Kept.trans ?_ writeTier_kept
      refine Kept.trans ?_ State.modTile_kept
      refine Kept.trans ?_ writeVa_kept
      exact Kept.foldl (fun _ _ => mapRange_kept) ((ensureDir_kept.trans mapRange_kept).trans mapRange_kept)
    · cases h

theorem openSeqs_kept {s t : State} {model session cap : Nat} {l : List KvRec}
    (h : openSeqs s model session cap l = some t) : Kept s t := by
  induction l generalizing s with
  | nil =>
    unfold openSeqs at h
    cases h
    exact Kept.refl _
  | cons r rest ih =>
    unfold openSeqs at h
    split at h
    · cases h
    · rename_i h1
      exact (openSeq_kept h1).trans (ih h)

end Sys2Proof.Machine
end

