-- ==== Sys2Proof/Laws/KeptSegments.lean ====
section
/-! SUPPORT. The definitions of Machine/Segments.lean keep the queue and the canonical form. -/
set_option Elab.async false
namespace Sys2Proof.Machine

theorem reachRead_kept {s : State} {ti space va n : Nat} : Kept s (reachRead s ti space va n) := by
  unfold reachRead
  refine Kept.foldl ?_ ?_
  · intro x1 x2
    extract_lets page₁
    clear_value page₁
    split
    · refine Kept.ite ?_ ?_
      · exact Kept.refl _
      · exact mapPage_kept
    · exact mapPage_kept
  · exact Kept.refl _

theorem writeSegment_kept {s : State} {g : BuiltSegment} : Kept s (writeSegment s g) := by
  unfold writeSegment
  extract_lets l₁
  clear_value l₁
  exact Kept.trans reachRead_kept writeVa_kept

theorem placeMember_kept {s : State} {b : Batch} {ti space i : Nat} : Kept s (placeMember s b ti space i) := by
  unfold placeMember
  extract_lets s₁ ppn₁
  have k_s₁ : Kept s s₁ := by
    exact mapTo_kept
  clear_value s₁ ppn₁
  split
  · assumption
  · extract_lets l₁
    clear_value l₁
    refine Kept.ite ?_ ?_
    · assumption
    · refine Kept.trans ?_ writeTier_kept
      refine Kept.trans ?_ mapTo_kept
      assumption

theorem loadTilePart_kept {s : State} {b : Batch} {size part n ti : Nat} : Kept s (loadTilePart s b size part n ti) := by
  unfold loadTilePart
  extract_lets ts₁ used₁ base₁ k₁ built₁ commits₁ spaces₁ s₁ s₂ s₃ src₁
  clear_value ts₁ used₁ base₁ k₁ built₁ commits₁ spaces₁
  have k_s₁ : Kept s s₁ := by
    refine Kept.foldl ?_ ?_
    · intro x1 x2
      refine Kept.foldl ?_ ?_
      · intro x3 x4
        exact placeMember_kept
      · exact Kept.refl _
    · exact Kept.refl _
  clear_value s₁
  have k_s₂ : Kept s s₂ := by
    refine Kept.foldl ?_ ?_
    · intro x1 x2
      exact writeSegment_kept
    · assumption
  clear_value s₂
  have k_s₃ : Kept s s₃ := by
    refine Kept.trans ?_ State.modTile_kept
    assumption
  clear_value s₃
  refine Kept.upd ?_
  assumption

theorem loadBatch_kept {s : State} {b : Batch} {n : Nat} : Kept s (loadBatch s b n) := by
  unfold loadBatch
  extract_lets src₁
  split
  · exact Kept.refl _
  · split
    · exact Kept.refl _
    · extract_lets s₁
      have k_s₁ : Kept s s₁ := by
        exact Kept.upd (Kept.refl _)
      clear_value s₁
      split
      · exact Kept.refl _
      · extract_lets s₂
        have k_s₂ : Kept s s₂ := by
          refine Kept.foldl ?_ ?_
          · intro x1 x2
            exact loadTilePart_kept
          · assumption
        clear_value s₂
        refine Kept.foldl ?_ ?_
        · intro x3 x4
          extract_lets a₁
          clear_value a₁
          exact State.setFld_kept
        · assumption

end Sys2Proof.Machine
end

