-- ==== Sys2Proof/Laws/KeptPeers.lean ====
section
/-! SUPPORT. The definitions of Machine/Peers.lean keep the queue and the canonical form. -/
set_option Elab.async false
namespace Sys2Proof.Machine

theorem State.putPeer_kept {s : State} {p : Peer} : Kept s (State.putPeer s p) := by
  unfold State.putPeer
  extract_lets src₁
  exact Kept.upd (Kept.refl _)

theorem State.emit_kept {s : State} {o : Output} : Kept s (State.emit s o) := by
  unfold State.emit
  exact Kept.upd (Kept.refl _)

theorem refuse_kept {s : State} {addr status : Nat} : Kept s (refuse s addr status) := by
  unfold refuse
  extract_lets src₁
  refine Kept.trans ?_ State.emit_kept
  exact Kept.upd (Kept.refl _)

theorem transmit_kept {s : State} {pid : Nat} {g : OutDg} : Kept s (transmit s pid g) := by
  unfold transmit
  split
  · exact Kept.refl _
  · extract_lets c₁ p₁
    clear_value c₁ p₁
    exact Kept.trans State.putPeer_kept State.emit_kept

theorem sendAck_kept {s : State} {pid : Nat} : Kept s (sendAck s pid) := by
  unfold sendAck
  split
  · exact Kept.refl _
  · exact transmit_kept

theorem pumpList_kept {s : State} {pid : Nat} {l : List OutDg} : Kept s (pumpList s pid l) := by
  induction l generalizing s with
  | nil => exact Kept.refl _
  | cons g l ih =>
    unfold pumpList
    split
    · exact Kept.refl _
    · split
      · exact (State.putPeer_kept.trans transmit_kept).trans ih
      · exact Kept.refl _

theorem pump_kept {s : State} {pid : Nat} : Kept s (pump s pid) := by
  unfold pump
  split
  · exact Kept.refl _
  · exact pumpList_kept

theorem sendMsg_kept {s : State} {pid dtype : Nat} {response : Bool} {body : List Nat} : Kept s (sendMsg s pid dtype response body).1 := by
  unfold sendMsg
  split
  · dsimp only
    exact Kept.refl _
  · extract_lets cs₁ gs₁ s₁
    clear_value cs₁ gs₁
    have k_s₁ : Kept s s₁ := by
      exact State.putPeer_kept
    clear_value s₁
    dsimp only
    refine Kept.trans ?_ pump_kept
    assumption

theorem answer_kept {s : State} {pid dtype : Nat} {body : List Nat} : Kept s (answer s pid dtype body) := by
  unfold answer
  exact sendMsg_kept

theorem report_kept {s : State} {x : Session} {code v0 v1 : Nat} : Kept s (report s x code v0 v1) := by
  unfold report
  split
  · exact Kept.refl _
  · refine Kept.ite ?_ ?_
    · exact Kept.refl _
    · exact sendMsg_kept

theorem dropResults_kept {s : State} {pid : Nat} : Kept s (dropResults s pid) := by
  unfold dropResults
  extract_lets src₁
  split
  · exact Kept.refl _
  · extract_lets open_₁
    clear_value open_₁
    exact Kept.upd (Kept.refl _)

theorem takeAck_kept {s : State} {pid : Nat} {d : Datagram} : Kept s (takeAck s pid d) := by
  unfold takeAck
  split
  · exact Kept.refl _
  · extract_lets done₁ p₁ p₂
    clear_value done₁ p₁ p₂
    exact Kept.trans (Kept.trans State.putPeer_kept dropResults_kept) pump_kept

theorem detach_kept {s : State} {pid : Nat} : Kept s (detach s pid) := by
  unfold detach
  extract_lets src₁
  exact Kept.upd (Kept.refl _)

theorem removePeer_kept {s : State} {pid : Nat} : Kept s (removePeer s pid) := by
  unfold removePeer
  extract_lets s₁ src₁
  have k_s₁ : Kept s s₁ := by
    exact detach_kept
  clear_value s₁
  refine Kept.upd ?_
  assumption

theorem discard_kept {s : State} : Kept s (discard s) := by
  unfold discard
  exact State.count_kept

end Sys2Proof.Machine
end

