-- ==== Sys2Proof/Laws/KeptSessions.lean ====
section
/-! SUPPORT. The definitions of Machine/Sessions.lean keep the queue and the canonical form. -/
set_option Elab.async false
namespace Sys2Proof.Machine

theorem helloRefused_kept {s : State} {d : Datagram} {status : Nat} : Kept s (helloRefused s d status) := by
  unfold helloRefused
  exact State.emit_kept

theorem addPeer_kept {s : State} {d : Datagram} {operator : Bool} : Kept s (addPeer s d operator) := by
  unfold addPeer
  extract_lets f₁ f₂ s₁ pid₁ p₁ src₁ s₂ s₃
  have k_f₁2 : Kept s f₁.2 := by
    exact State.takeFree_kept
  clear_value f₁
  have k_f₂2 : Kept s f₂.2 := by
    refine Kept.trans ?_ State.takeFree_kept
    assumption
  clear_value f₂
  have k_s₁ : Kept s s₁ := by
    assumption
  clear_value s₁ pid₁ p₁
  have k_s₂ : Kept s s₂ := by
    refine Kept.upd ?_
    assumption
  clear_value s₂
  have k_s₃ : Kept s s₃ := by
    refine Kept.trans ?_ recordEvent_kept
    assumption
  clear_value s₃
  refine Kept.trans ?_ answer_kept
  assumption

theorem handleHello_kept {s : State} {d : Datagram} : Kept s (handleHello s d) := by
  unfold handleHello
  extract_lets n₁ tok₁ op₁
  clear_value n₁ tok₁ op₁
  refine Kept.ite ?_ ?_
  · exact discard_kept
  · extract_lets
    refine Kept.ite ?_ ?_
    · exact helloRefused_kept
    · extract_lets
      refine Kept.ite ?_ ?_
      · exact helloRefused_kept
      · extract_lets
        split
        · exact Kept.trans removePeer_kept addPeer_kept
        · refine Kept.ite ?_ ?_
          · exact addPeer_kept
          · extract_lets
            split
            · exact helloRefused_kept
            · extract_lets s₁
              have k_s₁ : Kept s s₁ := by
                exact Kept.trans State.count_kept recordEvent_kept
              clear_value s₁
              refine Kept.trans ?_ addPeer_kept
              refine Kept.trans ?_ removePeer_kept
              assumption

theorem openAnswer_kept {s : State} {pid status session cookie len cap : Nat} : Kept s (openAnswer s pid status session cookie len cap) := by
  unfold openAnswer
  exact answer_kept

theorem openRefused_kept {s : State} {pid status tokenId model : Nat} : Kept s (openRefused s pid status tokenId model) := by
  unfold openRefused
  exact Kept.trans (Kept.trans State.count_kept recordEvent_kept) openAnswer_kept

theorem resume_kept {s : State} {pid : Nat} {l : List Nat} : Kept s (resume s pid l) := by
  unfold resume
  extract_lets tok₁ model₁
  clear_value tok₁ model₁
  split
  · exact openRefused_kept
  · extract_lets s₁ s₂
    have k_s₁ : Kept s s₁ := by
      unfold s₁
      refine Kept.ite ?_ ?_
      · exact report_kept
      · exact Kept.refl _
    clear_value s₁
    have k_s₂ : Kept s s₂ := by
      refine Kept.trans ?_ State.putSession_kept
      assumption
    clear_value s₂
    refine Kept.ite ?_ ?_
    · exact openRefused_kept
    · refine Kept.ite ?_ ?_
      · exact openRefused_kept
      · refine Kept.trans ?_ openAnswer_kept
        assumption

theorem openNew_kept {s : State} {pid : Nat} {l : List Nat} : Kept s (openNew s pid l) := by
  unfold openNew
  extract_lets tok₁ model₁ ask₁ m₁ mLimit₁ limit₁ refuse₁ ctx₁ f₁ sid₁ cookie₁ y₁
  clear_value tok₁ model₁ ask₁ m₁ mLimit₁ limit₁ ctx₁
  have k_f₁2 : Kept s f₁.2 := by
    exact State.takeFree_kept
  clear_value f₁ sid₁ cookie₁ y₁
  refine Kept.ite ?_ ?_
  · dsimp only [refuse₁]
    exact openRefused_kept
  · extract_lets
    split
    · dsimp only [refuse₁]
      exact openRefused_kept
    · refine Kept.ite ?_ ?_
      · dsimp only [refuse₁]
        exact openRefused_kept
      · extract_lets
        refine Kept.ite ?_ ?_
        · dsimp only [refuse₁]
          exact openRefused_kept
        · extract_lets
          split
          · dsimp only [refuse₁]
            exact openRefused_kept
          · extract_lets src₁
            refine Kept.trans ?_ openAnswer_kept
            refine Kept.upd ?_
            rename_i e1
            refine Kept.trans ?_ (openSeqs_kept e1)
            assumption

theorem handleOpen_kept {s : State} {pid : Nat} {l : List Nat} : Kept s (handleOpen s pid l) := by
  unfold handleOpen
  refine Kept.ite ?_ ?_
  · exact openAnswer_kept
  · refine Kept.ite ?_ ?_
    · exact openRefused_kept
    · refine Kept.ite ?_ ?_
      · exact resume_kept
      · exact openNew_kept

theorem submitAnswer_kept {s : State} {pid status reqId first last : Nat} : Kept s (submitAnswer s pid status reqId first last) := by
  unfold submitAnswer
  exact answer_kept

theorem admitRequest_kept {s : State} {x : Session} {kinds : List KindRec} {cls kindId reqId nin ngen : Nat} {params tokens : List Nat} : Kept s (admitRequest s x kinds cls kindId reqId nin ngen params tokens).1 := by
  unfold admitRequest
  extract_lets a₁ refused₁
  clear_value a₁
  have k_refused₁1 : Kept s refused₁.1 := by
    dsimp only [refused₁]
    exact State.count_kept
  clear_value refused₁
  split
  · dsimp only
    exact Kept.refl _
  · split
    · dsimp only
      exact Kept.refl _
    · split
      · dsimp only
        exact Kept.refl _
      · split
        · assumption
        · split
          · assumption
          · split
            · assumption
            · extract_lets first₁ last₁ q₁
              clear_value first₁ last₁ q₁
              dsimp only
              refine Kept.trans ?_ State.putSession_kept
              refine Kept.trans ?_ State.count_kept
              rename_i e1
              refine Kept.trans ?_ (State.placeAll_kept e1)
              exact Kept.refl _

theorem handleSubmit_kept {s : State} {pid : Nat} {l : List Nat} : Kept s (handleSubmit s pid l) := by
  unfold handleSubmit
  extract_lets reqId₁ nin₁ ngen₁ cls₁ kindId₁ toks₁
  clear_value reqId₁ nin₁ ngen₁ cls₁ kindId₁ toks₁
  refine Kept.ite ?_ ?_
  · exact submitAnswer_kept
  · extract_lets
    split
    · exact submitAnswer_kept
    · extract_lets kinds₁ paused₁ r₁
      clear_value kinds₁ paused₁
      have k_r₁1 : Kept s r₁.1 := by
        exact admitRequest_kept
      clear_value r₁
      split
      · exact submitAnswer_kept
      · refine Kept.trans ?_ submitAnswer_kept
        assumption

theorem handleCancel_kept {s : State} {pid : Nat} {l : List Nat} : Kept s (handleCancel s pid l) := by
  unfold handleCancel
  extract_lets reply₁
  refine Kept.ite ?_ ?_
  · dsimp only [reply₁]
    exact answer_kept
  · split
    · dsimp only [reply₁]
      exact answer_kept
    · split
      · dsimp only [reply₁]
        exact answer_kept
      · refine Kept.ite ?_ ?_
        · dsimp only [reply₁]
          exact answer_kept
        · dsimp only [reply₁]
          exact Kept.trans endRequest_kept answer_kept

theorem startClose_kept {s : State} {sid cause : Nat} {toPeer : Option Nat} : Kept s (startClose s sid cause toPeer) := by
  unfold startClose
  extract_lets s₁
  have k_s₁ : Kept s s₁ := by
    exact endRequest_kept
  clear_value s₁
  split
  · assumption
  · refine Kept.ite ?_ ?_
    · assumption
    · refine Kept.trans ?_ State.putSession_kept
      assumption

theorem handleClose_kept {s : State} {pid : Nat} {l : List Nat} : Kept s (handleClose s pid l) := by
  unfold handleClose
  refine Kept.ite ?_ ?_
  · exact answer_kept
  · split
    · exact answer_kept
    · exact startClose_kept

theorem handleStatus_kept {s : State} {pid : Nat} {l : List Nat} : Kept s (handleStatus s pid l) := by
  unfold handleStatus
  extract_lets reply₁
  refine Kept.ite ?_ ?_
  · dsimp only [reply₁]
    exact answer_kept
  · refine Kept.ite ?_ ?_
    · dsimp only [reply₁]
      exact answer_kept
    · refine Kept.ite ?_ ?_
      · split
        · dsimp only [reply₁]
          exact answer_kept
        · dsimp only [reply₁]
          exact answer_kept
      · dsimp only [reply₁]
        exact answer_kept

theorem handleFloorPlan_kept {s : State} {pid : Nat} {l : List Nat} : Kept s (handleFloorPlan s pid l) := by
  unfold handleFloorPlan
  refine Kept.ite ?_ ?_
  · exact answer_kept
  · split
    · exact answer_kept
    · exact answer_kept

theorem loadAnswer_kept {s : State} {pid status reason received : Nat} : Kept s (loadAnswer s pid status reason received) := by
  unfold loadAnswer
  exact answer_kept

theorem State.putLoad_kept {s : State} {x : Load} : Kept s (State.putLoad s x) := by
  unfold State.putLoad
  extract_lets src₁
  exact Kept.upd (Kept.refl _)

theorem State.dropLoad_kept {s : State} {model : Nat} : Kept s (State.dropLoad s model) := by
  unfold State.dropLoad
  extract_lets src₁
  exact Kept.upd (Kept.refl _)

theorem handleLoad_kept {s : State} {pid : Nat} {operator : Bool} {l : List Nat} : Kept s (handleLoad s pid operator l) := by
  unfold handleLoad
  extract_lets model₁ off₁ total₁ chunk₁ s₁
  clear_value model₁ off₁ total₁ chunk₁
  have k_s₁ : Kept s s₁ := by
    exact State.putLoad_kept
  clear_value s₁
  refine Kept.ite ?_ ?_
  · exact loadAnswer_kept
  · extract_lets
    refine Kept.ite ?_ ?_
    · exact loadAnswer_kept
    · extract_lets
      split
      · refine Kept.ite ?_ ?_
        · exact Kept.trans recordEvent_kept loadAnswer_kept
        · refine Kept.ite ?_ ?_
          · exact loadAnswer_kept
          · refine Kept.ite ?_ ?_
            · assumption
            · refine Kept.trans ?_ loadAnswer_kept
              assumption
      · extract_lets y₁ s₂
        clear_value y₁
        have k_s₂ : Kept s s₂ := by
          exact State.putLoad_kept
        clear_value s₂
        refine Kept.ite ?_ ?_
        · exact loadAnswer_kept
        · refine Kept.ite ?_ ?_
          · exact loadAnswer_kept
          · refine Kept.ite ?_ ?_
            · assumption
            · refine Kept.trans ?_ loadAnswer_kept
              assumption

theorem execPackageVerificationDone_kept {model : Nat} {s : State} : Answers s (execPackageVerificationDone model s) := by
  unfold execPackageVerificationDone
  split
  · exact Answers.next (Kept.refl _)
  · refine Answers.ite ?_ ?_
    · exact Answers.next (Kept.refl _)
    · extract_lets
      split
      · extract_lets s₁
        have k_s₁ : Kept s s₁ := by
          exact Kept.trans State.dropLoad_kept recordEvent_kept
        clear_value s₁
        refine Answers.next ?_
        refine Kept.trans ?_ loadAnswer_kept
        assumption
      · refine Answers.next ?_
        exact Kept.trans writePackage_kept State.putLoad_kept

theorem State.putModel_kept {s : State} {y : Model} : Kept s (State.putModel s y) := by
  unfold State.putModel
  extract_lets l₁ src₁
  clear_value l₁
  exact Kept.upd (Kept.refl _)

theorem acceptLoad_kept {s : State} {x : Load} {p : Package} : Kept s (acceptLoad s x p) := by
  unfold acceptLoad
  extract_lets old₁ s₁ s₂ s₃
  clear_value old₁
  have k_s₁ : Kept s s₁ := by
    unfold s₁
    split
    · refine Kept.ite ?_ ?_
      · exact Kept.refl _
      · refine Kept.foldl ?_ ?_
        · intro x1 x2
          exact startClose_kept
        · exact Kept.refl _
    · exact Kept.refl _
  clear_value s₁
  have k_s₂ : Kept s s₂ := by
    refine Kept.trans ?_ State.putModel_kept
    assumption
  clear_value s₂
  have k_s₃ : Kept s s₃ := by
    refine Kept.trans ?_ recordEvent_kept
    refine Kept.trans ?_ State.dropLoad_kept
    assumption
  clear_value s₃
  refine Kept.trans ?_ loadAnswer_kept
  assumption

theorem handleUnload_kept {s : State} {pid : Nat} {operator : Bool} {l : List Nat} : Kept s (handleUnload s pid operator l) := by
  unfold handleUnload
  extract_lets model₁ reply₁ xs₁ s₁ src₁ s₂
  clear_value model₁ xs₁
  have k_s₁ : Kept s s₁ := by
    refine Kept.foldl ?_ ?_
    · intro x1 x2
      exact Kept.trans report_kept startClose_kept
    · exact Kept.refl _
  clear_value s₁
  have k_s₂ : Kept s s₂ := by
    refine Kept.upd ?_
    assumption
  clear_value s₂
  refine Kept.ite ?_ ?_
  · dsimp only [reply₁]
    exact answer_kept
  · refine Kept.ite ?_ ?_
    · dsimp only [reply₁]
      exact answer_kept
    · split
      · dsimp only [reply₁]
        exact answer_kept
      · refine Kept.ite ?_ ?_
        · dsimp only [reply₁]
          exact answer_kept
        · dsimp only [reply₁]
          refine Kept.trans ?_ answer_kept
          refine Kept.trans ?_ recordEvent_kept
          assumption

theorem handleMessage_kept {s : State} {pid : Nat} {m : Assembly} : Kept s (handleMessage s pid m) := by
  unfold handleMessage
  split
  · exact Kept.refl _
  · refine Kept.ite ?_ ?_
    · exact discard_kept
    · split
      · exact handleOpen_kept
      · exact handleSubmit_kept
      · exact handleCancel_kept
      · exact handleClose_kept
      · exact handleStatus_kept
      · exact handleFloorPlan_kept
      · exact handleLoad_kept
      · exact handleUnload_kept
      · exact discard_kept

theorem dropMessage_kept {s : State} {pid : Nat} {m : Assembly} : Kept s (dropMessage s pid m) := by
  unfold dropMessage
  extract_lets s₁
  have k_s₁ : Kept s s₁ := by
    exact discard_kept
  clear_value s₁
  refine Kept.ite ?_ ?_
  · refine Kept.trans ?_ submitAnswer_kept
    assumption
  · assumption

theorem setAsm_kept {s : State} {pid : Nat} {m : Option Assembly} : Kept s (setAsm s pid m) := by
  unfold setAsm
  split
  · exact Kept.refl _
  · exact State.putPeer_kept

theorem advance_kept {s : State} {pid : Nat} {m : Assembly} {last : Bool} : Kept s (advance s pid m last) := by
  unfold advance
  refine Kept.ite ?_ ?_
  · exact Kept.trans setAsm_kept dropMessage_kept
  · refine Kept.ite ?_ ?_
    · exact Kept.trans setAsm_kept handleMessage_kept
    · exact setAsm_kept

theorem assemble_kept {s : State} {pid : Nat} {d : Datagram} : Kept s (assemble s pid d) := by
  unfold assemble
  extract_lets start₁
  clear_value start₁
  split
  · exact Kept.refl _
  · split
    · refine Kept.ite ?_ ?_
      · exact advance_kept
      · exact discard_kept
    · extract_lets s₁
      have k_s₁ : Kept s s₁ := by
        exact Kept.trans setAsm_kept dropMessage_kept
      clear_value s₁
      refine Kept.ite ?_ ?_
      · exact advance_kept
      · refine Kept.ite ?_ ?_
        · refine Kept.trans ?_ advance_kept
          assumption
        · refine Kept.trans ?_ discard_kept
          assumption

theorem deliver_kept {s : State} {pid n : Nat} : Kept s (deliver s pid n) := by
  induction n generalizing s with
  | zero => exact Kept.refl _
  | succ n ih =>
    unfold deliver
    split
    · exact Kept.refl _
    · split
      · exact Kept.refl _
      · exact (State.putPeer_kept.trans assemble_kept).trans ih

theorem receive_kept {s : State} {d : Datagram} : Kept s (receive s d) := by
  unfold receive
  refine Kept.ite ?_ ?_
  · exact Kept.refl _
  · extract_lets
    refine Kept.ite ?_ ?_
    · exact discard_kept
    · extract_lets
      refine Kept.ite ?_ ?_
      · exact handleHello_kept
      · extract_lets
        split
        · exact discard_kept
        · extract_lets s₁
          have k_s₁ : Kept s s₁ := by
            exact takeAck_kept
          clear_value s₁
          refine Kept.ite ?_ ?_
          · exact discard_kept
          · extract_lets
            refine Kept.ite ?_ ?_
            · assumption
            · extract_lets
              refine Kept.ite ?_ ?_
              · refine Kept.trans ?_ sendAck_kept
                refine Kept.trans ?_ discard_kept
                assumption
              · extract_lets
                refine Kept.ite ?_ ?_
                · refine Kept.trans ?_ discard_kept
                  assumption
                · extract_lets
                  split
                  · assumption
                  · extract_lets held₁ s₂
                    clear_value held₁
                    have k_s₂ : Kept s s₂ := by
                      refine Kept.trans ?_ State.putPeer_kept
                      assumption
                    clear_value s₂
                    refine Kept.trans ?_ deliver_kept
                    assumption

theorem clientRow_kept {dtype : Nat} {d : Datagram} {s : State} : Kept s (clientRow dtype d s) := by
  unfold clientRow
  refine Kept.ite ?_ ?_
  · exact receive_kept
  · exact Kept.refl _

theorem execAck_kept {d : Datagram} {s : State} : Answers s (execAck d s) := by
  unfold execAck
  refine Answers.next ?_
  exact clientRow_kept

theorem execHello_kept {d : Datagram} {s : State} : Answers s (execHello d s) := by
  unfold execHello
  refine Answers.next ?_
  exact clientRow_kept

theorem execOpen_kept {d : Datagram} {s : State} : Answers s (execOpen d s) := by
  unfold execOpen
  refine Answers.next ?_
  exact clientRow_kept

theorem execSubmit_kept {d : Datagram} {s : State} : Answers s (execSubmit d s) := by
  unfold execSubmit
  refine Answers.next ?_
  exact clientRow_kept

theorem execCancel_kept {d : Datagram} {s : State} : Answers s (execCancel d s) := by
  unfold execCancel
  refine Answers.next ?_
  exact clientRow_kept

theorem execClose_kept {d : Datagram} {s : State} : Answers s (execClose d s) := by
  unfold execClose
  refine Answers.next ?_
  exact clientRow_kept

theorem execStatus_kept {d : Datagram} {s : State} : Answers s (execStatus d s) := by
  unfold execStatus
  refine Answers.next ?_
  exact clientRow_kept

theorem execFloorPlan_kept {d : Datagram} {s : State} : Answers s (execFloorPlan d s) := by
  unfold execFloorPlan
  refine Answers.next ?_
  exact clientRow_kept

theorem execLoadPackage_kept {d : Datagram} {s : State} : Answers s (execLoadPackage d s) := by
  unfold execLoadPackage
  refine Answers.next ?_
  exact clientRow_kept

theorem execUnloadPackage_kept {d : Datagram} {s : State} : Answers s (execUnloadPackage d s) := by
  unfold execUnloadPackage
  refine Answers.next ?_
  exact clientRow_kept

theorem execClientResponseDiscard_kept {d : Datagram} {s : State} : Answers s (execClientResponseDiscard d s) := by
  unfold execClientResponseDiscard
  refine Answers.ite ?_ ?_
  · refine Answers.next ?_
    exact receive_kept
  · exact Answers.next (Kept.refl _)

theorem execDatagramDiscarded_kept {x : Discarded} {s : State} : Answers s (execDatagramDiscarded x s) := by
  unfold execDatagramDiscarded
  split
  · refine Answers.next ?_
    refine Kept.ite ?_ ?_
    · exact State.count_kept
    · exact Kept.refl _
  · extract_lets known₁
    clear_value known₁
    refine Answers.next ?_
    refine Kept.ite ?_ ?_
    · exact discard_kept
    · exact Kept.refl _

theorem sendResult_kept {s : State} {session : Nat} : Kept s (sendResult s session) := by
  unfold sendResult
  split
  · exact Kept.refl _
  · split
    · split
      · extract_lets body₁ q₁
        clear_value body₁
        have k_q₁1 : Kept s q₁.1 := by
          exact sendMsg_kept
        clear_value q₁
        refine Kept.ite ?_ ?_
        · exact Kept.refl _
        · refine Kept.trans ?_ State.putSession_kept
          assumption
      · exact Kept.refl _
    · exact Kept.refl _

theorem execResultSend_kept {session : Nat} {s : State} : Answers s (execResultSend session s) := by
  unfold execResultSend
  refine Answers.next ?_
  exact sendResult_kept

theorem completeClose_kept {s : State} {session : Nat} : Kept s (completeClose s session) := by
  unfold completeClose
  extract_lets tiles₁ s₁ src₁ s₂
  clear_value tiles₁
  have k_s₁ : Kept s s₁ := by
    refine Kept.foldl ?_ ?_
    · intro x1 x2
      exact Kept.trans closeSession_kept State.modTile_kept
    · exact Kept.refl _
  clear_value s₁
  have k_s₂ : Kept s s₂ := by
    refine Kept.upd ?_
    assumption
  clear_value s₂
  split
  · exact Kept.refl _
  · split
    · exact Kept.refl _
    · extract_lets s₃
      have k_s₃ : Kept s s₃ := by
        refine Kept.trans ?_ recordEvent_kept
        assumption
      clear_value s₃
      refine Kept.ite ?_ ?_
      · exact Kept.refl _
      · split
        · assumption
        · refine Kept.trans ?_ answer_kept
          assumption

theorem execCloseComplete_kept {session : Nat} {s : State} : Answers s (execCloseComplete session s) := by
  unfold execCloseComplete
  refine Answers.next ?_
  exact completeClose_kept

theorem execDetachTimeout_kept {session : Nat} {s : State} : Answers s (execDetachTimeout session s) := by
  unfold execDetachTimeout
  split
  · exact Answers.next (Kept.refl _)
  · refine Answers.ite ?_ ?_
    · refine Answers.next ?_
      exact startClose_kept
    · exact Answers.next (Kept.refl _)

theorem execAckTimer_kept {peer : Nat} {s : State} : Answers s (execAckTimer peer s) := by
  unfold execAckTimer
  split
  · exact Answers.next (Kept.refl _)
  · refine Answers.ite ?_ ?_
    · refine Answers.next ?_
      exact sendAck_kept
    · exact Answers.next (Kept.refl _)

theorem execRetransmissionTimeout_kept {peer seq : Nat} {s : State} : Answers s (execRetransmissionTimeout peer seq s) := by
  unfold execRetransmissionTimeout
  split
  · exact Answers.next (Kept.refl _)
  · split
    · refine Answers.ite ?_ ?_
      · exact Answers.next (Kept.refl _)
      · refine Answers.next ?_
        exact sendAck_kept
    · extract_lets g₁ s₁
      clear_value g₁
      have k_s₁ : Kept s s₁ := by
        exact Kept.trans State.putPeer_kept State.count_kept
      clear_value s₁
      refine Answers.ite ?_ ?_
      · refine Answers.next ?_
        exact Kept.trans recordEvent_kept removePeer_kept
      · refine Answers.next ?_
        refine Kept.trans ?_ transmit_kept
        assumption

theorem execSubmitReassemblyTimeout_kept {peer : Nat} {s : State} : Answers s (execSubmitReassemblyTimeout peer s) := by
  unfold execSubmitReassemblyTimeout
  split
  · exact Answers.next (Kept.refl _)
  · split
    · exact Answers.next (Kept.refl _)
    · refine Answers.ite ?_ ?_
      · refine Answers.next ?_
        exact Kept.trans setAsm_kept dropMessage_kept
      · exact Answers.next (Kept.refl _)

theorem execPortSignalDetected_kept {port : Nat} {s : State} : Answers s (execPortSignalDetected port s) := by
  unfold execPortSignalDetected
  extract_lets a₁ src₁ src₂
  clear_value a₁
  have k_src₁ : Kept s src₁ := by
    exact State.setFld_kept
  clear_value src₁
  refine Answers.ite ?_ ?_
  · exact Answers.next (Kept.refl _)
  · refine Answers.ite ?_ ?_
    · refine Answers.next ?_
      exact State.setFld_kept
    · refine Answers.ite ?_ ?_
      · refine Answers.next ?_
        refine Kept.upd ?_
        assumption
      · exact Answers.next (Kept.refl _)

theorem execPortUp_kept {port phy : Nat} {s : State} : Answers s (execPortUp port phy s) := by
  unfold execPortUp
  extract_lets a₁ n₁ s₁ src₁
  clear_value a₁ n₁
  have k_s₁ : Kept s s₁ := by
    exact Kept.trans State.setFld_kept State.setFld_kept
  clear_value s₁
  refine Answers.ite ?_ ?_
  · exact Answers.next (Kept.refl _)
  · refine Answers.ite ?_ ?_
    · refine Answers.next ?_
      exact State.setFld_kept
    · refine Answers.next ?_
      refine Kept.trans ?_ recordEvent_kept
      refine Kept.upd ?_
      assumption

theorem portDown_kept {s : State} {port cause : Nat} : Kept s (portDown s port cause) := by
  unfold portDown
  extract_lets a₁ s₁
  clear_value a₁
  have k_s₁ : Kept s s₁ := by
    unfold s₁
    refine Kept.ite ?_ ?_
    · exact State.count_kept
    · exact Kept.refl _
  clear_value s₁
  refine Kept.trans ?_ recordEvent_kept
  refine Kept.trans ?_ State.setFld_kept
  refine Kept.trans ?_ State.setFld_kept
  assumption

theorem execPortDown_kept {port cause : Nat} {s : State} : Answers s (execPortDown port cause s) := by
  unfold execPortDown
  refine Answers.ite ?_ ?_
  · exact Answers.next (Kept.refl _)
  · refine Answers.next ?_
    exact portDown_kept

theorem execIcmpEchoArpNs_kept {port : Nat} {kind : EchoKind} {src : Nat} {s : State} : Answers s (execIcmpEchoArpNs port kind src s) := by
  unfold execIcmpEchoArpNs
  refine Answers.ite ?_ ?_
  · refine Answers.next ?_
    exact State.emit_kept
  · exact Answers.next (Kept.refl _)

theorem clearSes_kept {s : State} : Kept s (clearSes s) := by
  unfold clearSes
  exact State.resetRegs_kept

theorem execSesCountClr_kept {s : State} : Answers s (execSesCountClr s) := by
  unfold execSesCountClr
  refine Answers.next ?_
  exact clearSes_kept

theorem clearNet_kept {s : State} : Kept s (clearNet s) := by
  unfold clearNet
  exact State.resetRegs_kept

theorem execNetCountClr_kept {s : State} : Answers s (execNetCountClr s) := by
  unfold execNetCountClr
  refine Answers.next ?_
  exact clearNet_kept

end Sys2Proof.Machine
end

