-- ==== Sys2Proof/Laws/KeptFabric.lean ====
section
/-! SUPPORT. The definitions of Machine/Fabric.lean keep the queue and the canonical form. -/
set_option Elab.async false
namespace Sys2Proof.Machine

theorem State.setFport_kept {s : State} {n : Nat} {p : FabPort} : Kept s (State.setFport s n p) := by
  unfold State.setFport
  extract_lets src₁
  exact Kept.upd (Kept.refl _)

theorem State.setFstate_kept {s : State} {n v : Nat} : Kept s (State.setFstate s n v) := by
  unfold State.setFstate
  exact State.setFld_kept

theorem sendLink_kept {s : State} {n : Nat} : Kept s (sendLink s n) := by
  unfold sendLink
  extract_lets b₁ p₁
  clear_value b₁ p₁
  exact Kept.trans State.setFport_kept State.emit_kept

theorem sendCtrl_kept {s : State} {port : Option Nat} {dst : Nat} {m : Ctrl} : Kept s (sendCtrl s port dst m) := by
  unfold sendCtrl
  exact State.emit_kept

theorem flood_kept {s : State} {ports : List Nat} {m : Ctrl} : Kept s (flood s ports m) := by
  unfold flood
  refine Kept.foldl ?_ ?_
  · intro x1 x2
    exact sendCtrl_kept
  · exact Kept.refl _

theorem sendOn_kept {s : State} {n : Nat} {x : FabPacket} : Kept s (sendOn s n x) := by
  unfold sendOn
  extract_lets p₁ down₁ x₁ w₁
  clear_value p₁ down₁ x₁ w₁
  exact Kept.trans State.setFport_kept State.emit_kept

theorem fabDrop_kept {s : State} {cause dst : Nat} : Kept s (fabDrop s cause dst) := by
  unfold fabDrop
  extract_lets n₁ src₁
  clear_value n₁
  refine Kept.trans ?_ recordEvent_kept
  refine Kept.trans ?_ State.count_kept
  exact Kept.upd (Kept.refl _)

theorem finishRemote_kept {s : State} {tag : Nat} {ok : Bool} : Kept s (finishRemote s tag ok) := by
  unfold finishRemote
  extract_lets src₁ s₁
  have k_s₁ : Kept s s₁ := by
    exact Kept.upd (Kept.refl _)
  clear_value s₁
  split
  · exact Kept.refl _
  · split
    · assumption
    · refine Kept.ite ?_ ?_
      · refine Kept.trans ?_ (State.setTile_kept ?_)
        · assumption
        · exact fun w => State.tile_wf w
      · refine Kept.trans ?_ tileFault_kept
        assumption

theorem deliverFab_kept {s : State} {x : FabPacket} : Kept s (deliverFab s x) := by
  unfold deliverFab
  extract_lets id₁ ws₁ src₁ s₁
  clear_value id₁ ws₁
  have k_s₁ : Kept s s₁ := by
    exact Kept.upd (Kept.refl _)
  clear_value s₁
  refine Kept.ite ?_ ?_
  · exact recordEvent_kept
  · split
    · refine Kept.trans ?_ State.sendAll_kept
      assumption
    · exact finishRemote_kept
    · exact finishRemote_kept
    · refine Kept.ite ?_ ?_
      · exact Kept.refl _
      · refine Kept.ite ?_ ?_
        · exact dropStale_kept
        · exact arriveSync_kept
    · refine Kept.ite ?_ ?_
      · exact Kept.refl _
      · refine Kept.ite ?_ ?_
        · exact dropStale_kept
        · exact releaseSync_kept
    · exact State.count_kept

theorem freeFlits_kept {s : State} {n : Nat} {x : FabPacket} : Kept s (freeFlits s n x) := by
  unfold freeFlits
  extract_lets p₁ p₂ s₁
  clear_value p₁ p₂
  have k_s₁ : Kept s s₁ := by
    exact State.setFport_kept
  clear_value s₁
  refine Kept.ite ?_ ?_
  · refine Kept.trans ?_ sendLink_kept
    assumption
  · assumption

theorem movePacket_kept {s : State} {origin : Option Nat} {x : FabPacket} : Kept s (movePacket s origin x).1 := by
  unfold movePacket
  split
  · dsimp only
    exact deliverFab_kept
  · split
    · extract_lets s₁
      have k_s₁ : Kept s s₁ := by
        unfold s₁
        refine Kept.ite ?_ ?_
        · exact State.count_kept
        · exact Kept.refl _
      clear_value s₁
      dsimp only
      refine Kept.trans ?_ sendOn_kept
      assumption
    · split
      · dsimp only
        exact finishRemote_kept
      · dsimp only
        exact fabDrop_kept
    · dsimp only
      exact Kept.refl _
    · dsimp only
      exact Kept.refl _

theorem switchPacket_kept {s : State} {origin : Option Nat} {x : FabPacket} : Kept s (switchPacket s origin x) := by
  unfold switchPacket
  extract_lets r₁ src₁
  have k_r₁1 : Kept s r₁.1 := by
    exact movePacket_kept
  clear_value r₁
  refine Kept.ite ?_ ?_
  · split
    · refine Kept.trans ?_ freeFlits_kept
      assumption
    · assumption
  · extract_lets
    split
    · extract_lets src₂
      exact State.setFport_kept
    · exact Kept.upd (Kept.refl _)

theorem unqueue_kept {s t : State} {x : FabPacket} {o : Option Nat} (h : unqueue s x = some (t, o)) : Kept s t := by
  unfold unqueue at h
  split at h
  · cases h
    exact Kept.upd (Kept.refl _)
  · split at h
    · cases h
    · cases h
      exact State.setFport_kept

theorem retryAll_kept {s : State} : Kept s (retryAll s) := by
  unfold retryAll
  extract_lets own₁ held₁
  clear_value own₁ held₁
  refine Kept.foldl ?_ ?_
  · intro x1 x2
    split
    · exact Kept.refl _
    · refine Kept.trans ?_ switchPacket_kept
      rename_i e3
      refine Kept.trans ?_ (unqueue_kept e3)
      exact Kept.refl _
  · exact Kept.refl _

theorem leaveBy_kept {s : State} {x y : FabPacket} {n : Nat} : Kept s (leaveBy s x y n) := by
  unfold leaveBy
  split
  · exact Kept.refl _
  · extract_lets s₁
    have k_s₁ : Kept s s₁ := by
      refine Kept.trans ?_ sendOn_kept
      rename_i e1
      refine Kept.trans ?_ (unqueue_kept e1)
      exact Kept.refl _
    clear_value s₁
    split
    · refine Kept.trans ?_ freeFlits_kept
      assumption
    · assumption

theorem execMisrouteWait_kept {p : FabPacket} {s : State} : Answers s (execMisrouteWait p s) := by
  unfold execMisrouteWait
  refine Answers.ite ?_ ?_
  · exact Answers.next (Kept.refl _)
  · split
    · exact Answers.next (Kept.refl _)
    · refine Answers.next ?_
      exact Kept.trans leaveBy_kept State.count_kept

theorem execEscapeWait_kept {p : FabPacket} {s : State} : Answers s (execEscapeWait p s) := by
  unfold execEscapeWait
  extract_lets y₁
  clear_value y₁
  refine Answers.ite ?_ ?_
  · exact Answers.next (Kept.refl _)
  · split
    · refine Answers.next ?_
      exact Kept.trans leaveBy_kept State.count_kept
    · split
      · exact Answers.next (Kept.refl _)
      · refine Answers.next ?_
        split
        · refine Kept.trans ?_ freeFlits_kept
          refine Kept.trans ?_ fabDrop_kept
          rename_i e1
          refine Kept.trans ?_ (unqueue_kept e1)
          exact Kept.refl _
        · refine Kept.ite ?_ ?_
          · refine Kept.trans ?_ finishRemote_kept
            rename_i e2
            refine Kept.trans ?_ (unqueue_kept e2)
            exact Kept.refl _
          · refine Kept.trans ?_ fabDrop_kept
            rename_i e2
            refine Kept.trans ?_ (unqueue_kept e2)
            exact Kept.refl _
    · exact Answers.next (Kept.refl _)

theorem execFabricStall_kept {port vl : Nat} {s : State} : Answers s (execFabricStall port vl s) := by
  unfold execFabricStall
  extract_lets p₁ xs₁ s₁ s₂
  clear_value p₁ xs₁
  have k_s₁ : Kept s s₁ := by
    exact State.setFport_kept
  clear_value s₁
  have k_s₂ : Kept s s₂ := by
    refine Kept.foldl ?_ ?_
    · intro x1 x2
      exact freeFlits_kept
    · assumption
  clear_value s₂
  refine Answers.ite ?_ ?_
  · exact Answers.next (Kept.refl _)
  · refine Answers.next ?_
    refine Kept.trans ?_ recordEvent_kept
    assumption

theorem execFabWrite_kept {p : FabPacket} {s : State} : Answers s (execFabWrite p s) := by
  unfold execFabWrite
  refine Answers.next ?_
  refine Kept.ite ?_ ?_
  · exact switchPacket_kept
  · exact Kept.refl _

theorem execFabWriteAck_kept {p : FabPacket} {s : State} : Answers s (execFabWriteAck p s) := by
  unfold execFabWriteAck
  refine Answers.next ?_
  refine Kept.ite ?_ ?_
  · exact switchPacket_kept
  · exact Kept.refl _

theorem execFabNack_kept {p : FabPacket} {s : State} : Answers s (execFabNack p s) := by
  unfold execFabNack
  refine Answers.next ?_
  refine Kept.ite ?_ ?_
  · exact switchPacket_kept
  · exact Kept.refl _

theorem execFabSync_kept {p : FabPacket} {s : State} : Answers s (execFabSync p s) := by
  unfold execFabSync
  refine Answers.next ?_
  refine Kept.ite ?_ ?_
  · exact switchPacket_kept
  · exact Kept.refl _

theorem execFabSyncRelease_kept {p : FabPacket} {s : State} : Answers s (execFabSyncRelease p s) := by
  unfold execFabSyncRelease
  refine Answers.next ?_
  refine Kept.ite ?_ ?_
  · exact switchPacket_kept
  · exact Kept.refl _

theorem mergedWrite_kept {s : State} {ps : List Packet} : Kept s (mergedWrite s ps) := by
  unfold mergedWrite
  extract_lets plen₁ tag₁ src₁
  clear_value plen₁ tag₁
  split
  · exact Kept.refl _
  · extract_lets pieces₁ dst₁ x₁ s₁
    clear_value pieces₁ dst₁ x₁
    have k_s₁ : Kept s s₁ := by
      exact Kept.upd (Kept.refl _)
    clear_value s₁
    refine Kept.trans ?_ switchPacket_kept
    assumption

theorem execPortPacket_kept {p : Packet} {s : State} : Answers s (execPortPacket p s) := by
  unfold execPortPacket
  extract_lets s₁ dst₁ held₁ size₁ joins₁ s₂ now₁ total₁ more₁ src₁
  have k_s₁ : Kept s s₁ := by
    exact State.arrive_kept
  clear_value s₁ dst₁ held₁ size₁ joins₁
  have k_s₂ : Kept s s₂ := by
    unfold s₂
    refine Kept.ite ?_ ?_
    · assumption
    · refine Kept.trans ?_ mergedWrite_kept
      assumption
  clear_value s₂ now₁ total₁ more₁
  refine Answers.ite ?_ ?_
  · refine Answers.next ?_
    refine Kept.trans ?_ switchPacket_kept
    assumption
  · refine Answers.ite ?_ ?_
    · refine Answers.next ?_
      refine Kept.trans ?_ switchPacket_kept
      assumption
    · refine Answers.ite ?_ ?_
      · refine Answers.next ?_
        refine Kept.upd ?_
        assumption
      · refine Answers.next ?_
        refine Kept.trans ?_ mergedWrite_kept
        assumption

theorem remoteAck_kept {s : State} {p : Packet} {ok : Bool} : Kept s (remoteAck s p ok) := by
  unfold remoteAck
  extract_lets src₁
  split
  · exact Kept.refl _
  · extract_lets y₁ rest₁
    clear_value rest₁
    refine Kept.ite ?_ ?_
    · refine Kept.trans ?_ switchPacket_kept
      exact Kept.upd (Kept.refl _)
    · exact Kept.upd (Kept.refl _)

theorem execWriteAck_kept {p : Packet} {s : State} : Answers s (execWriteAck p s) := by
  unfold execWriteAck
  extract_lets s₁ t₁
  have k_s₁ : Kept s s₁ := by
    exact State.arrive_kept
  clear_value s₁
  refine Answers.ite ?_ ?_
  · refine Answers.next ?_
    refine Kept.trans ?_ remoteAck_kept
    assumption
  · split
    · refine Answers.next ?_
      assumption
    · refine Answers.next ?_
      refine Kept.trans ?_ (State.setTile_kept ?_)
      · assumption
      · exact fun w => State.tile_wf w

theorem execNocNack_kept {p : Packet} {s : State} : Answers s (execNocNack p s) := by
  unfold execNocNack
  extract_lets s₁
  have k_s₁ : Kept s s₁ := by
    exact State.arrive_kept
  clear_value s₁
  refine Answers.ite ?_ ?_
  · refine Answers.next ?_
    refine Kept.trans ?_ remoteAck_kept
    assumption
  · split
    · refine Answers.next ?_
      assumption
    · refine Answers.ite ?_ ?_
      · refine Answers.next ?_
        refine Kept.trans ?_ tileFault_kept
        assumption
      · refine Answers.next ?_
        refine Kept.trans ?_ tileFault_kept
        assumption

theorem rootStep_kept {s : State} : Kept s (rootStep s) := by
  unfold rootStep
  extract_lets l₁ fresh₁ q₁ src₁ s₁ fcn₁ m₁ keep₁ s₂
  clear_value l₁ fresh₁ q₁
  have k_s₁ : Kept s s₁ := by
    exact Kept.upd (Kept.refl _)
  clear_value s₁ fcn₁ m₁ keep₁
  have k_s₂ : Kept s s₂ := by
    exact Kept.upd (Kept.refl _)
  clear_value s₂
  refine Kept.ite ?_ ?_
  · exact Kept.refl _
  · refine Kept.ite ?_ ?_
    · refine Kept.foldl ?_ ?_
      · intro x1 x2
        exact sendCtrl_kept
      · assumption
    · refine Kept.trans ?_ sendCtrl_kept
      refine Kept.trans ?_ State.setFld_kept
      assumption

theorem rootLinks_kept {s : State} {src : Nat} {rs : List LinkRec} : Kept s (rootLinks s src rs) := by
  unfold rootLinks
  extract_lets src₁
  refine Kept.trans ?_ rootStep_kept
  exact Kept.upd (Kept.refl _)

theorem reportLinks_kept {s : State} : Kept s (reportLinks s) := by
  unfold reportLinks
  refine Kept.ite ?_ ?_
  · exact rootLinks_kept
  · refine Kept.ite ?_ ?_
    · exact sendCtrl_kept
    · exact Kept.refl _

theorem linkDown_kept {s : State} {n cause : Nat} : Kept s (linkDown s n cause) := by
  unfold linkDown
  extract_lets p₁ lost₁ src₁ s₁ s₂ s₃
  clear_value p₁ lost₁
  have k_s₁ : Kept s s₁ := by
    exact State.setFport_kept
  clear_value s₁
  have k_s₂ : Kept s s₂ := by
    refine Kept.trans ?_ State.setFld_kept
    refine Kept.trans ?_ State.setFstate_kept
    assumption
  clear_value s₂
  have k_s₃ : Kept s s₃ := by
    refine Kept.foldl ?_ ?_
    · intro x1 x2
      exact fabDrop_kept
    · assumption
  clear_value s₃
  refine Kept.trans ?_ reportLinks_kept
  refine Kept.trans ?_ recordEvent_kept
  assumption

theorem settlePort_kept {s : State} {n : Nat} : Kept s (settlePort s n) := by
  unfold settlePort
  extract_lets on₁ st₁
  clear_value on₁ st₁
  refine Kept.ite ?_ ?_
  · refine Kept.ite ?_ ?_
    · exact State.setFstate_kept
    · exact Kept.refl _
  · refine Kept.ite ?_ ?_
    · exact Kept.refl _
    · refine Kept.trans ?_ State.setFstate_kept
      refine Kept.ite ?_ ?_
      · exact Kept.refl _
      · exact linkDown_kept

theorem settlePorts_kept {s : State} : Kept s (settlePorts s) := by
  unfold settlePorts
  refine Kept.foldl ?_ ?_
  · intro x1 x2
    exact settlePort_kept
  · exact Kept.refl _

theorem execFabLinkDown_kept {port cause : Nat} {s : State} : Answers s (execFabLinkDown port cause s) := by
  unfold execFabLinkDown
  refine Answers.ite ?_ ?_
  · exact Answers.next (Kept.refl _)
  · refine Answers.next ?_
    exact linkDown_kept

theorem execFabSignalDetected_kept {port : Nat} {s : State} : Answers s (execFabSignalDetected port s) := by
  unfold execFabSignalDetected
  refine Answers.ite ?_ ?_
  · refine Answers.next ?_
    exact State.setFstate_kept
  · exact Answers.next (Kept.refl _)

theorem execFabTrainingDone_kept {port : Nat} {reversed : Bool} {s : State} : Answers s (execFabTrainingDone port reversed s) := by
  unfold execFabTrainingDone
  extract_lets src₁ s₁
  have k_s₁ : Kept s s₁ := by
    exact Kept.trans State.setFport_kept State.setFld_kept
  clear_value s₁
  refine Answers.ite ?_ ?_
  · refine Answers.next ?_
    refine Kept.trans ?_ sendLink_kept
    refine Kept.trans ?_ State.setFstate_kept
    assumption
  · exact Answers.next (Kept.refl _)

theorem linkInfo_kept {s : State} {n : Nat} {b : LinkBody} : Kept s (linkInfo s n b) := by
  unfold linkInfo
  extract_lets a₁ s₁
  clear_value a₁
  have k_s₁ : Kept s s₁ := by
    exact Kept.trans (Kept.trans State.setFld_kept State.setFld_kept) State.setFstate_kept
  clear_value s₁
  split
  · exact Kept.trans State.setFstate_kept recordEvent_kept
  · refine Kept.trans ?_ reportLinks_kept
    refine Kept.trans ?_ recordEvent_kept
    assumption

theorem replay_kept {s : State} {n seq : Nat} : Kept s (replay s n seq) := by
  unfold replay
  extract_lets p₁ ws₁ s₁
  clear_value p₁ ws₁
  have k_s₁ : Kept s s₁ := by
    exact State.count_kept
  clear_value s₁
  refine Kept.ite ?_ ?_
  · exact Kept.refl _
  · refine Kept.ite ?_ ?_
    · refine Kept.trans ?_ linkDown_kept
      assumption
    · refine Kept.foldl ?_ ?_
      · intro x1 x2
        exact State.emit_kept
      · refine Kept.trans ?_ State.setFport_kept
        assumption

theorem takeLink_kept {s : State} {n : Nat} {b : LinkBody} : Kept s (takeLink s n b) := by
  unfold takeLink
  extract_lets st₁ src₁ s₁ s₂
  clear_value st₁
  have k_s₁ : Kept s s₁ := by
    exact State.setFport_kept
  clear_value s₁
  have k_s₂ : Kept s s₂ := by
    unfold s₂
    split
    · refine Kept.trans ?_ replay_kept
      assumption
    · assumption
  clear_value s₂
  refine Kept.ite ?_ ?_
  · exact Kept.refl _
  · refine Kept.ite ?_ ?_
    · refine Kept.trans ?_ linkInfo_kept
      assumption
    · refine Kept.ite ?_ ?_
      · refine Kept.trans ?_ linkDown_kept
        assumption
      · refine Kept.trans ?_ retryAll_kept
        refine Kept.trans ?_ State.setFld_kept
        assumption

theorem execLinkFlit_kept {port : Nat} {b : LinkBody} {s : State} : Answers s (execLinkFlit port b s) := by
  unfold execLinkFlit
  refine Answers.next ?_
  exact takeLink_kept

theorem execLinkFlitTimer_kept {port : Nat} {s : State} : Answers s (execLinkFlitTimer port s) := by
  unfold execLinkFlitTimer
  refine Answers.ite ?_ ?_
  · refine Answers.next ?_
    exact sendLink_kept
  · exact Answers.next (Kept.refl _)

theorem execCodewordReplayTimeout_kept {port : Nat} {s : State} : Answers s (execCodewordReplayTimeout port s) := by
  unfold execCodewordReplayTimeout
  split
  · exact Answers.next (Kept.refl _)
  · refine Answers.next ?_
    exact replay_kept

theorem takeFlit_kept {s : State} {n : Nat} {f : Flit} : Kept s (takeFlit s n f) := by
  unfold takeFlit
  refine Kept.ite ?_ ?_
  · exact Kept.refl _
  · split
    · exact Kept.refl _
    · exact Kept.refl _
    · refine Kept.ite ?_ ?_
      · exact Kept.trans recordEvent_kept linkDown_kept
      · refine Kept.ite ?_ ?_
        · exact Kept.trans fabDrop_kept freeFlits_kept
        · exact switchPacket_kept

theorem execCodeword_kept {port : Nat} {w : Codeword} {s : State} : Answers s (execCodeword port w s) := by
  unfold execCodeword
  extract_lets st₁ p₁ recent₁ s₁ s₂ s₃ s₄ p₂ s₅
  clear_value st₁ p₁ recent₁
  have k_s₁ : Kept s s₁ := by
    exact State.count_kept
  clear_value s₁
  have k_s₂ : Kept s s₂ := by
    refine Kept.trans ?_ State.setFport_kept
    assumption
  clear_value s₂
  have k_s₃ : Kept s s₃ := by
    exact State.setFport_kept
  clear_value s₃
  have k_s₄ : Kept s s₄ := by
    refine Kept.foldl ?_ ?_
    · intro x1 x2
      split
      · exact takeLink_kept
      · exact Kept.refl _
    · assumption
  clear_value s₄ p₂
  have k_s₅ : Kept s s₅ := by
    refine Kept.trans ?_ State.setFport_kept
    assumption
  clear_value s₅
  refine Answers.ite ?_ ?_
  · exact Answers.next (Kept.refl _)
  · refine Answers.ite ?_ ?_
    · refine Answers.ite ?_ ?_
      · refine Answers.next ?_
        refine Kept.trans ?_ linkDown_kept
        assumption
      · refine Answers.next ?_
        refine Kept.trans ?_ sendLink_kept
        assumption
    · refine Answers.ite ?_ ?_
      · refine Answers.next ?_
        assumption
      · refine Answers.ite ?_ ?_
        · refine Answers.next ?_
          refine Kept.foldl ?_ ?_
          · intro x3 x4
            exact takeFlit_kept
          · assumption
        · refine Answers.ite ?_ ?_
          · refine Answers.next ?_
            assumption
          · refine Answers.next ?_
            refine Kept.trans ?_ sendLink_kept
            refine Kept.trans ?_ State.setFport_kept
            assumption

theorem setCand_kept {s : State} {c : Option Candidate} : Kept s (setCand s c) := by
  unfold setCand
  extract_lets src₁
  exact Kept.upd (Kept.refl _)

theorem announce_kept {s : State} : Kept s (announce s) := by
  unfold announce
  split
  · exact Kept.refl _
  · exact flood_kept

theorem setNoRoot_kept {s : State} {on : Bool} : Kept s (setNoRoot s on) := by
  unfold setNoRoot
  extract_lets n₁
  clear_value n₁
  refine Kept.ite ?_ ?_
  · exact Kept.refl _
  · exact Kept.trans State.setFld_kept recordEvent_kept

theorem newCand_kept {s : State} {id : Nat} : Kept s (newCand s id) := by
  unfold newCand
  extract_lets s₁ s₂
  have k_s₁ : Kept s s₁ := by
    exact setCand_kept
  clear_value s₁
  have k_s₂ : Kept s s₂ := by
    unfold s₂
    refine Kept.ite ?_ ?_
    · refine Kept.trans ?_ State.setFld_kept
      assumption
    · assumption
  clear_value s₂
  refine Kept.trans ?_ announce_kept
  refine Kept.trans ?_ setNoRoot_kept
  assumption

theorem execRootAnnounce_kept {port candidate _fcn : Nat} {s : State} : Answers s (execRootAnnounce port candidate _fcn s) := by
  unfold execRootAnnounce
  refine Answers.ite ?_ ?_
  · exact Answers.next (Kept.refl _)
  · split
    · refine Answers.next ?_
      exact newCand_kept
    · refine Answers.ite ?_ ?_
      · refine Answers.next ?_
        exact newCand_kept
      · exact Answers.next (Kept.refl _)

theorem execRootAnnounceTimer_kept {s : State} : Answers s (execRootAnnounceTimer s) := by
  unfold execRootAnnounceTimer
  refine Answers.next ?_
  exact announce_kept

theorem execCandidateExpiry_kept {s : State} : Answers s (execCandidateExpiry s) := by
  unfold execCandidateExpiry
  split
  · exact Answers.next (Kept.refl _)
  · refine Answers.ite ?_ ?_
    · exact Answers.next (Kept.refl _)
    · refine Answers.ite ?_ ?_
      · refine Answers.next ?_
        exact newCand_kept
      · refine Answers.next ?_
        exact Kept.trans setCand_kept setNoRoot_kept

theorem becomeRoot_kept {s : State} : Kept s (becomeRoot s) := by
  unfold becomeRoot
  extract_lets old₁ s₁ s₂ src₁ s₃ e₁ src₂
  clear_value old₁
  have k_s₁ : Kept s s₁ := by
    exact Kept.trans State.setFld_kept State.setReg64_kept
  clear_value s₁
  have k_s₂ : Kept s s₂ := by
    refine Kept.trans ?_ setNoRoot_kept
    refine Kept.trans ?_ recordEvent_kept
    assumption
  clear_value s₂
  have k_s₃ : Kept s s₃ := by
    refine Kept.trans ?_ State.setFld_kept
    refine Kept.trans ?_ State.setFld_kept
    assumption
  clear_value s₃ e₁
  split
  · exact Kept.refl _
  · refine Kept.ite ?_ ?_
    · exact Kept.refl _
    · extract_lets
      split
      · extract_lets keep₁
        refine Kept.trans ?_ rootStep_kept
        refine Kept.upd ?_
        assumption
      · refine Kept.trans ?_ rootStep_kept
        refine Kept.upd ?_
        assumption

theorem execRootChanged_kept {s : State} : Answers s (execRootChanged s) := by
  unfold execRootChanged
  refine Answers.next ?_
  exact becomeRoot_kept

theorem execMap_kept {fcn : Nat} {entries : List MapEntry} {s : State} : Answers s (execMap fcn entries s) := by
  unfold execMap
  extract_lets src₁ s₁
  have k_s₁ : Kept s s₁ := by
    exact Kept.upd (Kept.refl _)
  clear_value s₁
  refine Answers.ite ?_ ?_
  · exact Answers.next (Kept.refl _)
  · refine Answers.next ?_
    refine Kept.trans ?_ sendCtrl_kept
    refine Kept.trans ?_ State.setFld_kept
    assumption

theorem execLinks_kept {src : Nat} {recs : List LinkRec} {s : State} : Answers s (execLinks src recs s) := by
  unfold execLinks
  refine Answers.ite ?_ ?_
  · refine Answers.next ?_
    exact rootLinks_kept
  · refine Answers.next ?_
    exact sendCtrl_kept

end Sys2Proof.Machine
end

