-- ==== Sys2Proof/Laws/KeptEnsemble.lean ====
section
/-! SUPPORT. The definitions of Machine/Ensemble.lean keep the queue and the canonical form. -/
set_option Elab.async false
namespace Sys2Proof.Machine

theorem State.setEnsState_kept {s : State} {e v : Nat} : Kept s (State.setEnsState s e v) := by
  unfold State.setEnsState
  exact State.setFld_kept

theorem State.setEnsSlot_kept {s : State} {e : Nat} {x : EnsSlot} : Kept s (State.setEnsSlot s e x) := by
  unfold State.setEnsSlot
  extract_lets src₁
  exact Kept.upd (Kept.refl _)

theorem breakEns_kept {s : State} {e cause member : Nat} : Kept s (breakEns s e cause member) := by
  unfold breakEns
  extract_lets st₁ model₁ src₁ s₁ s₂ s₃
  clear_value st₁ model₁
  have k_s₁ : Kept s s₁ := by
    exact Kept.trans State.setEnsState_kept State.setEnsSlot_kept
  clear_value s₁
  have k_s₂ : Kept s s₂ := by
    refine Kept.trans ?_ recordEvent_kept
    assumption
  clear_value s₂
  have k_s₃ : Kept s s₃ := by
    refine Kept.foldl ?_ ?_
    · intro x1 x2
      exact sendCtrl_kept
    · assumption
  clear_value s₃
  refine Kept.ite ?_ ?_
  · exact Kept.refl _
  · refine Kept.ite ?_ ?_
    · assumption
    · refine Kept.foldl ?_ ?_
      · intro x3 x4
        exact Kept.trans endRequest_kept report_kept
      · assumption

theorem breakAll_kept {s : State} {cause : Nat} : Kept s (breakAll s cause) := by
  unfold breakAll
  refine Kept.foldl ?_ ?_
  · intro x1 x2
    exact breakEns_kept
  · exact Kept.refl _

theorem pauseModel_kept {s : State} {m : Model} {tile epoch : Nat} : Kept s (pauseModel s m tile epoch) := by
  unfold pauseModel
  extract_lets s₁ s₂
  have k_s₁ : Kept s s₁ := by
    exact Kept.trans State.putModel_kept recordEvent_kept
  clear_value s₁
  have k_s₂ : Kept s s₂ := by
    refine Kept.foldl ?_ ?_
    · intro x1 x2
      exact Kept.trans endRequest_kept report_kept
    · assumption
  clear_value s₂
  refine Kept.foldl ?_ ?_
  · intro x3 x4
    refine Kept.ite ?_ ?_
    · exact breakEns_kept
    · exact Kept.refl _
  · assumption

theorem takeSlot_kept {s : State} {e src ensId model time power : Nat} {members : List Nat} : Kept s (takeSlot s e src ensId model time power members) := by
  unfold takeSlot
  extract_lets s₁ s₂ s₃ s₄
  have k_s₁ : Kept s s₁ := by
    exact State.setReg_kept
  clear_value s₁
  have k_s₂ : Kept s s₂ := by
    refine Kept.trans ?_ State.setReg_kept
    assumption
  clear_value s₂
  have k_s₃ : Kept s s₃ := by
    refine Kept.trans ?_ State.setReg_kept
    assumption
  clear_value s₃
  have k_s₄ : Kept s s₄ := by
    refine Kept.trans ?_ State.setFld_kept
    assumption
  clear_value s₄
  refine Kept.foldl ?_ ?_
  · intro x1 x2
    exact State.setFld_kept
  · assumption

theorem execEnsForm_kept {src ensId model time power : Nat} {members : List Nat} {s : State} : Answers s (execEnsForm src ensId model time power members s) := by
  unfold execEnsForm
  extract_lets same₁ free₁ r₁ src₁
  clear_value same₁ free₁ r₁
  split
  · extract_lets s₁ s₂
    have k_s₁ : Kept s s₁ := by
      exact takeSlot_kept
    clear_value s₁
    have k_s₂ : Kept s s₂ := by
      refine Kept.trans ?_ State.setEnsSlot_kept
      assumption
    clear_value s₂
    refine Answers.ite ?_ ?_
    · refine Answers.next ?_
      refine Kept.trans ?_ sendCtrl_kept
      assumption
    · refine Answers.next ?_
      exact sendCtrl_kept
  · refine Answers.next ?_
    exact sendCtrl_kept

theorem failForm_kept {s : State} {e member reason : Nat} : Kept s (failForm s e member reason) := by
  unfold failForm
  exact Kept.trans State.setEnsState_kept recordEvent_kept

theorem formEns_kept {s : State} {slot : Nat} : Kept s (formEns s slot) := by
  unfold formEns
  extract_lets s₁ s₂ r₁
  have k_s₁ : Kept s s₁ := by
    exact Kept.trans State.setEnsState_kept State.setFld_kept
  clear_value s₁
  have k_s₂ : Kept s s₂ := by
    refine Kept.trans ?_ State.setEnsSlot_kept
    assumption
  clear_value s₂ r₁
  refine Kept.ite ?_ ?_
  · exact Kept.refl _
  · split
    · refine Kept.trans ?_ failForm_kept
      assumption
    · refine Kept.ite ?_ ?_
      · refine Kept.trans ?_ failForm_kept
        assumption
      · refine Kept.foldl ?_ ?_
        · intro x1 x2
          exact sendCtrl_kept
        · assumption

theorem execEnsCtrlForm_kept {slot : Nat} {s : State} : Answers s (execEnsCtrlForm slot s) := by
  unfold execEnsCtrlForm
  refine Answers.next ?_
  exact formEns_kept

theorem execEnsJoin_kept {src ensId reason : Nat} {s : State} : Answers s (execEnsJoin src ensId reason s) := by
  unfold execEnsJoin
  split
  · exact Answers.next (Kept.refl _)
  · extract_lets x₁ acc₁ all₁
    clear_value x₁ acc₁ all₁
    refine Answers.ite ?_ ?_
    · refine Answers.next ?_
      exact failForm_kept
    · refine Answers.next ?_
      exact State.setEnsSlot_kept

theorem execEnsFormTimeout_kept {slot : Nat} {s : State} : Answers s (execEnsFormTimeout slot s) := by
  unfold execEnsFormTimeout
  refine Answers.ite ?_ ?_
  · refine Answers.next ?_
    exact failForm_kept
  · exact Answers.next (Kept.refl _)

theorem settleSlots_kept {s : State} : Kept s (settleSlots s) := by
  unfold settleSlots
  refine Kept.foldl ?_ ?_
  · intro x1 x2
    extract_lets x₁ s₁
    clear_value x₁
    have k_s₁ : Kept x1 s₁ := by
      unfold s₁
      refine Kept.ite ?_ ?_
      · exact Kept.trans State.setEnsState_kept recordEvent_kept
      · exact Kept.refl _
    clear_value s₁
    refine Kept.trans ?_ State.setEnsSlot_kept
    assumption
  · exact Kept.refl _

theorem execEnsPlanSend_kept {slot : Nat} {s : State} : Answers s (execEnsPlanSend slot s) := by
  unfold execEnsPlanSend
  extract_lets n₁ parts₁ s₁ src₁
  clear_value n₁ parts₁
  have k_s₁ : Kept s s₁ := by
    refine Kept.foldl ?_ ?_
    · intro x1 x2
      exact sendCtrl_kept
    · exact Kept.refl _
  clear_value s₁
  refine Answers.ite ?_ ?_
  · exact Answers.next (Kept.refl _)
  · refine Answers.next ?_
    refine Kept.trans ?_ State.setEnsSlot_kept
    assumption

theorem execEnsPlan_kept {src round : Nat} {parts : List PlanPart} {s : State} : Answers s (execEnsPlan src round parts s) := by
  unfold execEnsPlan
  split
  · exact Answers.next (Kept.refl _)
  · refine Answers.ite ?_ ?_
    · exact Answers.next (Kept.refl _)
    · extract_lets
      refine Answers.next ?_
      refine Kept.foldl ?_ ?_
      · intro x1 x2
        extract_lets b₁ src₁
        clear_value b₁
        refine Kept.ite ?_ ?_
        · exact Kept.refl _
        · exact Kept.upd (Kept.refl _)
      · exact Kept.refl _

theorem execBatchStepCommit_kept {batch : Nat} {s : State} : Answers s (execBatchStepCommit batch s) := by
  unfold execBatchStepCommit
  split
  · exact Answers.next (Kept.refl _)
  · refine Answers.ite ?_ ?_
    · exact Answers.next (Kept.refl _)
    · split
      · refine Answers.next ?_
        exact sendCtrl_kept
      · refine Answers.ite ?_ ?_
        · exact Answers.next (Kept.refl _)
        · refine Answers.next ?_
          exact commitBatch_kept

theorem execEnsReport_kept {src round : Nat} {batches : List Nat} {s : State} : Answers s (execEnsReport src round batches s) := by
  unfold execEnsReport
  extract_lets src₁
  refine Answers.ite ?_ ?_
  · exact Answers.next (Kept.refl _)
  · refine Answers.next ?_
    exact Kept.upd (Kept.refl _)

theorem decideBatch_kept {s : State} {b : Batch} {e : Nat} : Kept s (decideBatch s b e) := by
  unfold decideBatch
  extract_lets ok₁ s₁ src₁
  clear_value ok₁
  have k_s₁ : Kept s s₁ := by
    refine Kept.foldl ?_ ?_
    · intro x1 x2
      exact sendCtrl_kept
    · exact Kept.refl _
  clear_value s₁
  refine Kept.ite ?_ ?_
  · refine Kept.trans ?_ commitBatch_kept
    assumption
  · refine Kept.upd ?_
    assumption

theorem execEnsembleDecision_kept {batch : Nat} {s : State} : Answers s (execEnsembleDecision batch s) := by
  unfold execEnsembleDecision
  split
  · exact Answers.next (Kept.refl _)
  · split
    · refine Answers.ite ?_ ?_
      · exact Answers.next (Kept.refl _)
      · refine Answers.next ?_
        exact decideBatch_kept
    · exact Answers.next (Kept.refl _)

theorem execEnsDecision_kept {src round : Nat} {ds : List Decision} {s : State} : Answers s (execEnsDecision src round ds s) := by
  unfold execEnsDecision
  refine Answers.ite ?_ ?_
  · exact Answers.next (Kept.refl _)
  · extract_lets
    refine Answers.next ?_
    refine Kept.foldl ?_ ?_
    · intro x1 x2
      extract_lets src₁
      split
      · exact Kept.refl _
      · refine Kept.ite ?_ ?_
        · exact commitBatch_kept
        · exact Kept.upd (Kept.refl _)
    · exact Kept.refl _

theorem execEnsembleDecisionLost_kept {slot : Nat} {s : State} : Answers s (execEnsembleDecisionLost slot s) := by
  unfold execEnsembleDecisionLost
  extract_lets waits₁ leader₁ src₁ s₁
  clear_value leader₁
  have k_s₁ : Kept s s₁ := by
    exact Kept.upd (Kept.refl _)
  clear_value s₁
  refine Answers.ite ?_ ?_
  · exact Answers.next (Kept.refl _)
  · refine Answers.next ?_
    refine Kept.trans ?_ breakEns_kept
    refine Kept.trans ?_ recordEvent_kept
    assumption

theorem execEnsBeat_kept {src ensId time echoed : Nat} {s : State} : Answers s (execEnsBeat src ensId time echoed s) := by
  unfold execEnsBeat
  split
  · exact Answers.next (Kept.refl _)
  · extract_lets x₁
    clear_value x₁
    refine Answers.next ?_
    exact State.setEnsSlot_kept

theorem execEnsBeatTimer_kept {s : State} : Answers s (execEnsBeatTimer s) := by
  unfold execEnsBeatTimer
  refine Answers.next ?_
  refine Kept.foldl ?_ ?_
  · intro x1 x2
    extract_lets t₁
    clear_value t₁
    refine Kept.ite ?_ ?_
    · refine Kept.foldl ?_ ?_
      · intro x3 x4
        exact sendCtrl_kept
      · exact Kept.refl _
    · refine Kept.ite ?_ ?_
      · exact sendCtrl_kept
      · exact Kept.refl _
  · exact Kept.refl _

theorem execEnsBeatLoss_kept {slot src : Nat} {s : State} : Answers s (execEnsBeatLoss slot src s) := by
  unfold execEnsBeatLoss
  refine Answers.ite ?_ ?_
  · refine Answers.next ?_
    exact breakEns_kept
  · exact Answers.next (Kept.refl _)

theorem execEnsEnd_kept {src ensId cause : Nat} {s : State} : Answers s (execEnsEnd src ensId cause s) := by
  unfold execEnsEnd
  split
  · exact Answers.next (Kept.refl _)
  · refine Answers.next ?_
    exact breakEns_kept

theorem execEnsCtrlEnd_kept {slot : Nat} {s : State} : Answers s (execEnsCtrlEnd slot s) := by
  unfold execEnsCtrlEnd
  refine Answers.ite ?_ ?_
  · refine Answers.next ?_
    exact breakEns_kept
  · exact Answers.next (Kept.refl _)

theorem execFabFloorPlan_kept {_src : Nat} {_record : List Nat} {s : State} : Answers s (execFabFloorPlan _src _record s) := by
  unfold execFabFloorPlan
  exact Answers.next (Kept.refl _)

theorem execFpQuery_kept {src epoch : Nat} {s : State} : Answers s (execFpQuery src epoch s) := by
  unfold execFpQuery
  refine Answers.next ?_
  exact sendCtrl_kept

theorem takeAddr_kept {s : State} {addr level : Nat} : Kept s (takeAddr s addr level) := by
  unfold takeAddr
  extract_lets old₁ had₁ s₁
  clear_value old₁ had₁
  have k_s₁ : Kept s s₁ := by
    exact Kept.trans (Kept.trans State.setFld_kept State.setFld_kept) State.setFld_kept
  clear_value s₁
  refine Kept.ite ?_ ?_
  · refine Kept.trans ?_ breakAll_kept
    refine Kept.trans ?_ recordEvent_kept
    assumption
  · assumption

theorem execAssign_kept {moduleId addr level parentPort : Nat} {s : State} : Answers s (execAssign moduleId addr level parentPort s) := by
  unfold execAssign
  extract_lets s₁
  have k_s₁ : Kept s s₁ := by
    exact takeAddr_kept
  clear_value s₁
  refine Answers.ite ?_ ?_
  · refine Answers.next ?_
    refine Kept.trans ?_ sendCtrl_kept
    assumption
  · split
    · refine Answers.next ?_
      exact sendCtrl_kept
    · refine Answers.next ?_
      exact flood_kept

theorem activateMap_kept {s : State} {m : FabMap} : Kept s (activateMap s m) := by
  unfold activateMap
  extract_lets cause₁ src₁ s₁ s₂ s₃ s₄ root₁ s₅ s₆ s₇ stranded₁ s₈ gone₁ s₉
  clear_value cause₁
  have k_s₁ : Kept s s₁ := by
    exact Kept.upd (Kept.refl _)
  clear_value s₁
  have k_s₂ : Kept s s₂ := by
    refine Kept.trans ?_ State.setFld_kept
    refine Kept.trans ?_ State.setReg_kept
    assumption
  clear_value s₂
  have k_s₃ : Kept s s₃ := by
    refine Kept.trans ?_ State.setFld_kept
    assumption
  clear_value s₃
  have k_s₄ : Kept s s₄ := by
    unfold s₄
    split
    · refine Kept.trans ?_ takeAddr_kept
      assumption
    · assumption
  clear_value s₄ root₁
  have k_s₅ : Kept s s₅ := by
    refine Kept.trans ?_ State.setReg64_kept
    assumption
  clear_value s₅
  have k_s₆ : Kept s s₆ := by
    refine Kept.foldl ?_ ?_
    · intro x1 x2
      extract_lets a₁
      clear_value a₁
      split
      · exact Kept.refl _
      · extract_lets tree₁
        clear_value tree₁
        exact Kept.trans State.setFld_kept State.setFld_kept
    · assumption
  clear_value s₆
  have k_s₇ : Kept s s₇ := by
    refine Kept.trans ?_ recordEvent_kept
    assumption
  clear_value s₇ stranded₁
  have k_s₈ : Kept s s₈ := by
    refine Kept.foldl ?_ ?_
    · intro x1 x2
      split
      · refine Kept.trans ?_ fabDrop_kept
        split
        · refine Kept.trans ?_ freeFlits_kept
          rename_i e3
          refine Kept.trans ?_ (unqueue_kept e3)
          exact Kept.refl _
        · rename_i e4
          refine Kept.trans ?_ (unqueue_kept e4)
          exact Kept.refl _
      · exact Kept.refl _
    · assumption
  clear_value s₈
  have k_s₉ : Kept s s₉ := by
    refine Kept.foldl ?_ ?_
    · intro x1 x2
      split
      · exact breakEns_kept
      · exact Kept.refl _
    · assumption
  clear_value s₉
  refine Kept.ite ?_ ?_
  · refine Kept.foldl ?_ ?_
    · intro x2 x5
      refine Kept.ite ?_ ?_
      · exact Kept.trans sendLink_kept State.setFstate_kept
      · exact Kept.refl _
    · assumption
  · refine Kept.trans ?_ retryAll_kept
    assumption

theorem execActivate_kept {fcn : Nat} {s : State} : Answers s (execActivate fcn s) := by
  unfold execActivate
  split
  · exact Answers.next (Kept.refl _)
  · refine Answers.ite ?_ ?_
    · refine Answers.next ?_
      exact Kept.trans flood_kept activateMap_kept
    · exact Answers.next (Kept.refl _)

theorem floodActivate_kept {s : State} : Kept s (floodActivate s) := by
  unfold floodActivate
  split
  · exact Kept.refl _
  · refine Kept.ite ?_ ?_
    · exact Kept.trans flood_kept activateMap_kept
    · exact Kept.refl _

theorem execMapReady_kept {src fcn : Nat} {s : State} : Answers s (execMapReady src fcn s) := by
  unfold execMapReady
  extract_lets r₁ src₁ s₁
  clear_value r₁
  have k_s₁ : Kept s s₁ := by
    exact Kept.upd (Kept.refl _)
  clear_value s₁
  refine Answers.ite ?_ ?_
  · refine Answers.next ?_
    exact sendCtrl_kept
  · split
    · exact Answers.next (Kept.refl _)
    · refine Answers.ite ?_ ?_
      · exact Answers.next (Kept.refl _)
      · refine Answers.ite ?_ ?_
        · refine Answers.next ?_
          refine Kept.trans ?_ floodActivate_kept
          assumption
        · refine Answers.next ?_
          assumption

theorem execMapReadyTimeout_kept {s : State} : Answers s (execMapReadyTimeout s) := by
  unfold execMapReadyTimeout
  refine Answers.next ?_
  exact floodActivate_kept

theorem execLeave_kept {moduleId : Nat} {s : State} : Answers s (execLeave moduleId s) := by
  unfold execLeave
  extract_lets l₁ l₂ src₁
  clear_value l₁ l₂
  refine Answers.ite ?_ ?_
  · refine Answers.next ?_
    exact sendCtrl_kept
  · refine Answers.next ?_
    refine Kept.trans ?_ rootStep_kept
    exact Kept.upd (Kept.refl _)

theorem leaveFabric_kept {s : State} : Kept s (leaveFabric s) := by
  unfold leaveFabric
  extract_lets s₁ s₂ src₁
  have k_s₁ : Kept s s₁ := by
    exact breakAll_kept
  clear_value s₁
  have k_s₂ : Kept s s₂ := by
    refine Kept.trans ?_ sendCtrl_kept
    assumption
  clear_value s₂
  refine Kept.upd ?_
  assumption

theorem execFabCtrlLeave_kept {s : State} : Answers s (execFabCtrlLeave s) := by
  unfold execFabCtrlLeave
  refine Answers.next ?_
  exact leaveFabric_kept

theorem clearFab_kept {s : State} : Kept s (clearFab s) := by
  unfold clearFab
  exact State.resetRegs_kept

theorem execFabCountClr_kept {s : State} : Answers s (execFabCountClr s) := by
  unfold execFabCountClr
  refine Answers.next ?_
  exact clearFab_kept

end Sys2Proof.Machine
end

