-- ==== Sys2Proof/Laws/KeptReset.lean ====
section
/-! SUPPORT. The definitions of Machine/Reset.lean keep the queue and the canonical form. -/
set_option Elab.async false
namespace Sys2Proof.Machine

theorem State.setHalfReset_kept {s : State} {h : Half} {r : HalfReset} : Kept s (State.setHalfReset s h r) := by
  unfold State.setHalfReset
  extract_lets src₁
  split
  · exact Kept.upd (Kept.refl _)
  · exact Kept.upd (Kept.refl _)

theorem setBudget_kept {s : State} {h : Half} {inReset : Bool} : Kept s (setBudget s h inReset) := by
  unfold setBudget
  extract_lets src₁
  split
  · exact Kept.upd (Kept.refl _)
  · exact Kept.upd (Kept.refl _)

theorem settleAdm_kept {s : State} : Kept s (settleAdm s) := by
  unfold settleAdm
  refine Kept.ite ?_ ?_
  · exact State.setFld_kept
  · exact Kept.refl _

theorem abandonTile_kept {s : State} {ti : Nat} : Kept s (abandonTile s ti) := by
  unfold abandonTile
  extract_lets s₁ s₂
  have k_s₁ : Kept s s₁ := by
    exact State.modTile_kept
  clear_value s₁
  have k_s₂ : Kept s s₂ := by
    refine Kept.upd ?_
    assumption
  clear_value s₂
  refine Kept.trans ?_ clearHeld_kept
  assumption

theorem addCut_kept {s : State} {ti : Nat} {c : CutEntry} : Kept s (addCut s ti c) := by
  unfold addCut
  exact State.modTile_kept

theorem haltIbu_kept {s : State} {ti cmd layer pair : Nat} {e : QEntry} : Kept s (haltIbu s ti cmd layer pair e) := by
  unfold haltIbu
  split
  · extract_lets n₁ s₁ done₁ base₁
    clear_value n₁
    have k_s₁ : Kept s s₁ := by
      exact runStep_kept
    clear_value s₁ done₁ base₁
    refine Kept.ite ?_ ?_
    · assumption
    · refine Kept.trans ?_ addCut_kept
      assumption
  · exact Kept.refl _

theorem cutBurst_kept {s : State} {ti off : Nat} : Kept s (cutBurst s ti off) := by
  unfold cutBurst
  extract_lets base₁ m₁ s₁
  clear_value base₁ m₁
  have k_s₁ : Kept s s₁ := by
    refine Kept.foldl ?_ ?_
    · intro x1 x2
      extract_lets k₁
      clear_value k₁
      exact State.putGranule_kept
    · exact Kept.refl _
  clear_value s₁
  refine Kept.trans ?_ addCut_kept
  assumption

theorem resetTileRegs_kept {s : State} {ti : Nat} : Kept s (resetTileRegs s ti) :=
  ⟨rfl, fun w => { w with regs := SMap.filter_wf _ w.regs, listed := fun e he => w.listed e (List.mem_of_mem_filter he) }⟩

theorem resetTile_kept {s : State} {ti : Nat} : Kept s (resetTile s ti) := by
  unfold resetTile
  extract_lets cmd₁ s₁ s₂ s₃ s₄ s₅
  clear_value cmd₁
  have k_s₁ : Kept s s₁ := by
    refine Kept.foldl ?_ ?_
    · intro x1 x2
      exact haltIbu_kept
    · exact Kept.refl _
  clear_value s₁
  have k_s₂ : Kept s s₂ := by
    refine Kept.trans ?_ resetTileRegs_kept
    assumption
  clear_value s₂
  have k_s₃ : Kept s s₃ := by
    refine Kept.trans ?_ (State.modTile_kept ?_)
    · assumption
    · exact fun _ h => ⟨rfl, h.2.1, rfl⟩
  clear_value s₃
  have k_s₄ : Kept s s₄ := by
    refine Kept.trans ?_ State.setTilState_kept
    assumption
  clear_value s₄
  have k_s₅ : Kept s s₅ := by
    refine Kept.trans ?_ State.setFld_kept
    assumption
  clear_value s₅
  refine Kept.trans ?_ State.setFld_kept
  assumption

theorem dropOnHalf_kept {s : State} {h : Half} {cause : Nat} : Kept s (dropOnHalf s h cause) := by
  unfold dropOnHalf
  extract_lets src₁
  exact Kept.upd (Kept.refl _)

theorem endTestIn_kept {s : State} {h : Half} : Kept s (endTestIn s h) := by
  unfold endTestIn
  extract_lets s₁ src₁
  have k_s₁ : Kept s s₁ := by
    exact State.setReg_kept
  clear_value s₁
  split
  · exact Kept.refl _
  · refine Kept.ite ?_ ?_
    · exact Kept.refl _
    · refine Kept.upd ?_
      assumption

theorem resetHalf_kept {s : State} {h : Half} {cause : Nat} {byPin : Bool} {cuts : List (Nat × Nat)} : Kept s (resetHalf s h cause byPin cuts) := by
  unfold resetHalf
  extract_lets s₁ ts₁ s₂ s₃ src₁ s₄
  have k_s₁ : Kept s s₁ := by
    exact Kept.trans setBudget_kept dropOnHalf_kept
  clear_value s₁ ts₁
  have k_s₂ : Kept s s₂ := by
    refine Kept.foldl ?_ ?_
    · intro x1 x2
      refine Kept.ite ?_ ?_
      · exact cutBurst_kept
      · exact Kept.refl _
    · assumption
  clear_value s₂
  have k_s₃ : Kept s s₃ := by
    refine Kept.foldl ?_ ?_
    · intro x1 x2
      exact resetTile_kept
    · assumption
  clear_value s₃
  have k_s₄ : Kept s s₄ := by
    refine Kept.upd ?_
    assumption
  clear_value s₄
  refine Kept.trans ?_ settleAdm_kept
  refine Kept.trans ?_ endTestIn_kept
  refine Kept.trans ?_ State.setHalfReset_kept
  assumption

theorem holdByPin_kept {s : State} {h : Half} {byPin : Bool} : Kept s (holdByPin s h byPin) := by
  unfold holdByPin
  extract_lets r₁
  clear_value r₁
  refine Kept.ite ?_ ?_
  · exact State.setHalfReset_kept
  · exact Kept.refl _

theorem startReset_kept {s : State} {hs : List Half} {cause : Nat} {byPin : Bool} {cuts : List (Nat × Nat)} : Kept s (startReset s hs cause byPin cuts) := by
  unfold startReset
  extract_lets s₁ go₁ s₂
  have k_s₁ : Kept s s₁ := by
    refine Kept.foldl ?_ ?_
    · intro x1 x2
      exact holdByPin_kept
    · exact Kept.refl _
  clear_value s₁ go₁
  have k_s₂ : Kept s s₂ := by
    refine Kept.foldl ?_ ?_
    · intro x1 x2
      exact resetHalf_kept
    · assumption
  clear_value s₂
  refine Kept.ite ?_ ?_
  · assumption
  · refine Kept.trans ?_ recordEvent_kept
    assumption

theorem State.setMs_kept {s : State} {v : Nat} : Kept s (State.setMs s v) := by
  unfold State.setMs
  exact State.setFld_kept

theorem requestReset_kept {s : State} {hs : List Half} {cause : Nat} {byPin : Bool} {cuts : List (Nat × Nat)} : Kept s (requestReset s hs cause byPin cuts) := by
  unfold requestReset
  extract_lets src₁
  refine Kept.ite ?_ ?_
  · exact Kept.upd (Kept.refl _)
  · refine Kept.ite ?_ ?_
    · exact Kept.refl _
    · exact startReset_kept

theorem settleOverflow_kept {s : State} : Kept s (settleOverflow s) := by
  unfold settleOverflow
  extract_lets hs₁ src₁
  clear_value hs₁
  refine Kept.ite ?_ ?_
  · exact Kept.refl _
  · refine Kept.trans ?_ requestReset_kept
    exact Kept.upd (Kept.refl _)

theorem releaseHalf_kept {s : State} {h : Half} : Kept s (releaseHalf s h) := by
  unfold releaseHalf
  extract_lets r₁
  clear_value r₁
  refine Kept.ite ?_ ?_
  · exact Kept.refl _
  · refine Kept.foldl ?_ ?_
    · intro x1 x2
      exact State.setTilState_kept
    · exact State.setHalfReset_kept

theorem takePorts_kept {s : State} {ti : Nat} : Kept s (takePorts s ti) := by
  unfold takePorts
  extract_lets s₁ s₂ src₁ s₃ w₁
  have k_s₁ : Kept s s₁ := by
    exact State.setFld_kept
  clear_value s₁
  have k_s₂ : Kept s s₂ := by
    refine Kept.trans ?_ State.setFld_kept
    assumption
  clear_value s₂
  have k_s₃ : Kept s s₃ := by
    refine Kept.upd ?_
    assumption
  clear_value s₃ w₁
  refine Kept.foldl ?_ ?_
  · intro x1 x2
    exact bondedRequest_kept
  · refine Kept.trans ?_ State.modTile_kept
    assumption

theorem truncateSeq_kept {s : State} {h : Half} {session len ti : Nat} {e : DirEntry} : Kept s (truncateSeq s h session len ti e) := by
  unfold truncateSeq
  extract_lets space₁ s₁ s₂
  clear_value space₁
  have k_s₁ : Kept s s₁ := by
    unfold s₁
    split
    · exact putBytes_kept
    · exact Kept.refl _
  clear_value s₁
  have k_s₂ : Kept s s₂ := by
    refine Kept.trans ?_ setNextPos_kept
    assumption
  clear_value s₂
  refine Kept.ite ?_ ?_
  · refine Kept.trans ?_ recordEvent_kept
    refine Kept.trans ?_ State.setFld_kept
    assumption
  · assumption

theorem truncateSession_kept {s : State} {h : Half} {x : Session} : Kept s (truncateSession s h x) := by
  unfold truncateSession
  extract_lets qs₁ len₁ s₁ s₂
  clear_value qs₁ len₁
  have k_s₁ : Kept s s₁ := by
    refine Kept.foldl ?_ ?_
    · intro x1 x2
      exact truncateSeq_kept
    · exact Kept.refl _
  clear_value s₁
  have k_s₂ : Kept s s₂ := by
    refine Kept.trans ?_ State.putSession_kept
    assumption
  clear_value s₂
  refine Kept.ite ?_ ?_
  · exact Kept.refl _
  · refine Kept.trans ?_ report_kept
    assumption

theorem reloadBases_kept {s : State} {h : Half} : Kept s (reloadBases s h) := by
  unfold reloadBases
  extract_lets mine₁ s₁ src₁
  have k_s₁ : Kept s s₁ := by
    refine Kept.foldl ?_ ?_
    · intro x1 x2
      exact State.setReg_kept
    · exact Kept.refl _
  clear_value s₁
  refine Kept.upd ?_
  assumption

theorem pauseCut_kept {s : State} {ti : Nat} {c : CutEntry} : Kept s (pauseCut s ti c) := by
  unfold pauseCut
  refine Kept.ite ?_ ?_
  · exact Kept.refl _
  · refine Kept.foldl ?_ ?_
    · intro x1 x2
      refine Kept.ite ?_ ?_
      · exact pauseModel_kept
      · exact Kept.refl _
    · exact Kept.refl _

theorem handleCuts_kept {s : State} {ti : Nat} : Kept s (handleCuts s ti) := by
  unfold handleCuts
  extract_lets l₁ n₁ committed₁ s₁
  clear_value l₁ committed₁
  have k_s₁ : Kept s s₁ := by
    unfold s₁
    refine Kept.ite ?_ ?_
    · exact Kept.refl _
    · exact recordEvent_kept
  clear_value s₁
  refine Kept.trans ?_ State.modTile_kept
  refine Kept.foldl ?_ ?_
  · intro x1 x2
    exact pauseCut_kept
  · assumption

theorem handleReset_kept {s : State} {h : Half} : Kept s (handleReset s h) := by
  unfold handleReset
  extract_lets r₁ ts₁ cuts₁ s₁ s₂ s₃ s₄ src₁ s₅ s₆
  clear_value r₁ ts₁ cuts₁
  have k_s₁ : Kept s s₁ := by
    exact reloadBases_kept
  clear_value s₁
  have k_s₂ : Kept s s₂ := by
    refine Kept.foldl ?_ ?_
    · intro x1 x2
      exact handleCuts_kept
    · assumption
  clear_value s₂
  have k_s₃ : Kept s s₃ := by
    refine Kept.foldl ?_ ?_
    · intro x1 x2
      exact dropKv_kept
    · assumption
  clear_value s₃
  have k_s₄ : Kept s s₄ := by
    refine Kept.foldl ?_ ?_
    · intro x1 x2
      exact truncateSession_kept
    · assumption
  clear_value s₄
  have k_s₅ : Kept s s₅ := by
    unfold s₅
    refine Kept.ite ?_ ?_
    · refine Kept.upd ?_
      assumption
    · assumption
  clear_value s₅
  have k_s₆ : Kept s s₆ := by
    refine Kept.trans ?_ State.setHalfReset_kept
    assumption
  clear_value s₆
  refine Kept.ite ?_ ?_
  · exact Kept.refl _
  · refine Kept.trans ?_ recordEvent_kept
    assumption

theorem endReset_kept {s : State} {h : Half} : Kept s (endReset s h) := by
  unfold endReset
  refine Kept.ite ?_ ?_
  · exact Kept.trans (Kept.trans State.setHalfReset_kept setBudget_kept) settleAdm_kept
  · exact Kept.refl _

end Sys2Proof.Machine
end

