-- ==== Sys2Proof/Laws/KeptHalfLink.lean ====
section
/-! SUPPORT. The definitions of Machine/HalfLink.lean keep the queue and the canonical form. -/
set_option Elab.async false
namespace Sys2Proof.Machine

theorem State.setHlkMod_kept {s : State} {m : Nat} {x : HlkModule} : Kept s (State.setHlkMod s m x) := by
  unfold State.setHlkMod
  extract_lets src₁
  exact Kept.upd (Kept.refl _)

theorem settleLink_kept {s : State} : Kept s (settleLink s) := by
  unfold settleLink
  extract_lets s₁
  have k_s₁ : Kept s s₁ := by
    exact State.setFld_kept
  clear_value s₁
  refine Kept.foldl ?_ ?_
  · intro x1 x2
    extract_lets now₁ a₁
    clear_value now₁ a₁
    refine Kept.ite ?_ ?_
    · exact Kept.refl _
    · exact Kept.trans State.setFld_kept recordEvent_kept
  · assumption

theorem trainModule_kept {s : State} {m pos target : Nat} : Kept s (trainModule s m pos target) := by
  unfold trainModule
  extract_lets src₁ s₁
  have k_s₁ : Kept s s₁ := by
    exact State.setHlkMod_kept
  clear_value s₁
  refine Kept.trans ?_ State.setFld_kept
  refine Kept.trans ?_ State.setFld_kept
  refine Kept.trans ?_ State.setFld_kept
  assumption

theorem retireModule_kept {s : State} {m : Nat} : Kept s (retireModule s m) := by
  unfold retireModule
  exact Kept.trans (Kept.trans State.setFld_kept State.setFld_kept) State.setFld_kept

theorem sendFrame_kept {s : State} {m : Nat} {toEast : Bool} {f : HlkFrame} {w : HlkFlow} : Kept s (sendFrame s m toEast f w) := by
  unfold sendFrame
  extract_lets x₁ e₁ g₁ e₂ s₁ src₁
  clear_value x₁ e₁ g₁ e₂
  have k_s₁ : Kept s s₁ := by
    exact State.setHlkMod_kept
  clear_value s₁
  refine Kept.upd ?_
  assumption

theorem moveFrames_kept {s : State} {l : List (Bool × HlkFrame × HlkFlow)} : Kept s (moveFrames s l) := by
  unfold moveFrames
  refine Kept.foldl ?_ ?_
  · intro x1 x2
    extract_lets src₁
    split
    · exact Kept.refl _
    · extract_lets e₁ s₁
      clear_value e₁
      have k_s₁ : Kept x1 s₁ := by
        exact sendFrame_kept
      clear_value s₁
      refine Kept.trans ?_ State.emit_kept
      assumption
  · exact Kept.refl _

theorem moduleFailing_kept {s : State} {m : Nat} : Kept s (moduleFailing s m) := by
  unfold moduleFailing
  extract_lets pos₁ wide₁ sp₁ frames₁ s₁ src₁ s₂
  clear_value pos₁ wide₁ sp₁ frames₁
  have k_s₁ : Kept s s₁ := by
    exact retireModule_kept
  clear_value s₁
  have k_s₂ : Kept s s₂ := by
    refine Kept.trans ?_ settleLink_kept
    refine Kept.upd ?_
    assumption
  clear_value s₂
  refine Kept.ite ?_ ?_
  · exact Kept.trans retireModule_kept settleLink_kept
  · refine Kept.ite ?_ ?_
    · exact Kept.trans (Kept.trans (Kept.trans (Kept.trans retireModule_kept trainModule_kept) settleLink_kept) recordEvent_kept) moveFrames_kept
    · refine Kept.ite ?_ ?_
      · exact Kept.trans (Kept.trans (Kept.trans trainModule_kept settleLink_kept) recordEvent_kept) moveFrames_kept
      · refine Kept.trans ?_ moveFrames_kept
        refine Kept.trans ?_ recordEvent_kept
        assumption

theorem replayModule_kept {s : State} {m : Nat} {toEast : Bool} : Kept s (replayModule s m toEast) := by
  unfold replayModule
  extract_lets x₁ s₁ s₂ rs₁ s₃
  clear_value x₁
  have k_s₁ : Kept s s₁ := by
    refine Kept.foldl ?_ ?_
    · intro x1 x2
      exact State.emit_kept
    · exact Kept.refl _
  clear_value s₁
  have k_s₂ : Kept s s₂ := by
    refine Kept.trans ?_ State.count_kept
    assumption
  clear_value s₂ rs₁
  have k_s₃ : Kept s s₃ := by
    refine Kept.trans ?_ State.setFld_kept
    refine Kept.trans ?_ State.setHlkMod_kept
    assumption
  clear_value s₃
  refine Kept.ite ?_ ?_
  · refine Kept.trans ?_ moduleFailing_kept
    assumption
  · assumption

theorem receiveValid_kept {s : State} {m : Nat} {toEast : Bool} {f : HlkFrame} : Kept s (receiveValid s m toEast f) := by
  unfold receiveValid
  extract_lets x₁ snd₁ rcv₁ rcv₂ s₁
  clear_value x₁ snd₁ rcv₁ rcv₂
  have k_s₁ : Kept s s₁ := by
    exact State.setHlkMod_kept
  clear_value s₁
  refine Kept.ite ?_ ?_
  · exact State.setHlkMod_kept
  · refine Kept.ite ?_ ?_
    · exact Kept.refl _
    · refine Kept.trans ?_ State.emit_kept
      assumption

theorem receiveControl_kept {s : State} {m : Nat} {toEast : Bool} {f : HlkFrame} : Kept s (receiveControl s m toEast f) := by
  unfold receiveControl
  extract_lets x₁ other₁ me₁ other₂ acked₁ me₂ s₁
  clear_value x₁ other₁ me₁ other₂ acked₁ me₂
  have k_s₁ : Kept s s₁ := by
    exact State.setHlkMod_kept
  clear_value s₁
  refine Kept.ite ?_ ?_
  · refine Kept.trans ?_ replayModule_kept
    assumption
  · assumption

theorem execHlkFrame_kept {module : Nat} {toEast : Bool} {frame : HlkFrame} {flow : HlkFlow} {s : State} : Answers s (execHlkFrame module toEast frame flow s) := by
  unfold execHlkFrame
  extract_lets e₁
  clear_value e₁
  refine Answers.ite ?_ ?_
  · exact Answers.next (Kept.refl _)
  · refine Answers.ite ?_ ?_
    · refine Answers.ite ?_ ?_
      · refine Answers.ite ?_ ?_
        · refine Answers.next ?_
          exact Kept.trans sendFrame_kept receiveValid_kept
        · exact Answers.next (Kept.refl _)
      · refine Answers.next ?_
        exact receiveValid_kept
    · refine Answers.ite ?_ ?_
      · refine Answers.next ?_
        exact receiveControl_kept
      · exact Answers.next (Kept.refl _)

theorem execHlkReplayTimeout_kept {module : Nat} {fromWest : Bool} {s : State} : Answers s (execHlkReplayTimeout module fromWest s) := by
  unfold execHlkReplayTimeout
  refine Answers.ite ?_ ?_
  · exact Answers.next (Kept.refl _)
  · refine Answers.ite ?_ ?_
    · exact Answers.next (Kept.refl _)
    · refine Answers.next ?_
      exact replayModule_kept

theorem execHlkModuleTrained_kept {module : Nat} {passed : Bool} {s : State} : Answers s (execHlkModuleTrained module passed s) := by
  unfold execHlkModuleTrained
  extract_lets split₁ x₁ s₁ s₂ s₃ h₁ src₁
  clear_value split₁ x₁
  have k_s₁ : Kept s s₁ := by
    exact Kept.trans State.setFld_kept State.setFld_kept
  clear_value s₁
  have k_s₂ : Kept s s₂ := by
    refine Kept.trans ?_ State.setHlkMod_kept
    assumption
  clear_value s₂
  have k_s₃ : Kept s s₃ := by
    refine Kept.trans ?_ settleLink_kept
    assumption
  clear_value s₃ h₁
  refine Answers.ite ?_ ?_
  · exact Answers.next (Kept.refl _)
  · refine Answers.ite ?_ ?_
    · refine Answers.ite ?_ ?_
      · refine Answers.next ?_
        refine Kept.upd ?_
        assumption
      · refine Answers.next ?_
        assumption
    · refine Answers.ite ?_ ?_
      · exact Answers.next (Kept.refl _)
      · refine Answers.next ?_
        exact moduleFailing_kept

theorem execHlkCountClr_kept {s : State} : Answers s (execHlkCountClr s) := by
  unfold execHlkCountClr
  refine Answers.next ?_
  exact State.resetRegs_kept

theorem returnFlows_kept {s : State} : Kept s (returnFlows s) := by
  unfold returnFlows
  extract_lets src₁
  exact Kept.upd (Kept.refl _)

theorem setFenced_kept {s : State} {h : Half} {b : Bool} : Kept s (setFenced s h b) := by
  unfold setFenced
  exact State.setBit_kept

theorem fencePort_kept {s : State} {n : Nat} : Kept s (fencePort s n) := by
  unfold fencePort
  extract_lets lost₁ s₁ s₂
  clear_value lost₁
  have k_s₁ : Kept s s₁ := by
    exact sendLink_kept
  clear_value s₁
  have k_s₂ : Kept s s₂ := by
    refine Kept.trans ?_ State.setFstate_kept
    refine Kept.trans ?_ State.setFport_kept
    assumption
  clear_value s₂
  refine Kept.foldl ?_ ?_
  · intro x1 x2
    exact fabDrop_kept
  · assumption

theorem fenceHalf_kept {s : State} {h : Half} : Kept s (fenceHalf s h) := by
  unfold fenceHalf
  extract_lets s₁ s₂ s₃ s₄ src₁
  have k_s₁ : Kept s s₁ := by
    exact Kept.trans setFenced_kept setBudget_kept
  clear_value s₁
  have k_s₂ : Kept s s₂ := by
    refine Kept.foldl ?_ ?_
    · intro x1 x2
      extract_lets s₅ st₁
      have k_s₅ : Kept x1 s₅ := by
        exact abandonTile_kept
      clear_value s₅ st₁
      refine Kept.trans ?_ State.modTile_kept
      refine Kept.ite ?_ ?_
      · refine Kept.trans ?_ State.setTilState_kept
        assumption
      · assumption
    · assumption
  clear_value s₂
  have k_s₃ : Kept s s₃ := by
    refine Kept.foldl ?_ ?_
    · intro x1 x2
      exact fencePort_kept
    · assumption
  clear_value s₃
  have k_s₄ : Kept s s₄ := by
    refine Kept.foldl ?_ ?_
    · intro x1 x2
      exact portDown_kept
    · assumption
  clear_value s₄
  refine Kept.trans ?_ settleAdm_kept
  refine Kept.upd ?_
  assumption

theorem loseSessions_kept {s : State} {h : Half} {l : List Session} : Kept s (loseSessions s h l) := by
  unfold loseSessions
  refine Kept.foldl ?_ ?_
  · intro x1 x2
    exact Kept.trans endRequest_kept report_kept
  · exact Kept.refl _

theorem declareSplit_kept {s : State} : Kept s (declareSplit s) := by
  unfold declareSplit
  extract_lets h₁ s₁ s₂ lost₁ s₃ s₄ src₁ s₅ s₆ src₂
  clear_value h₁
  have k_s₁ : Kept s s₁ := by
    exact State.setBit_kept
  clear_value s₁
  have k_s₂ : Kept s s₂ := by
    refine Kept.foldl ?_ ?_
    · intro x1 x2
      refine Kept.ite ?_ ?_
      · exact trainModule_kept
      · exact Kept.refl _
    · assumption
  clear_value s₂ lost₁
  have k_s₃ : Kept s s₃ := by
    refine Kept.trans ?_ recordEvent_kept
    assumption
  clear_value s₃
  have k_s₄ : Kept s s₄ := by
    refine Kept.trans ?_ dropOnHalf_kept
    assumption
  clear_value s₄
  have k_s₅ : Kept s s₅ := by
    unfold s₅
    refine Kept.ite ?_ ?_
    · refine Kept.trans ?_ setBudget_kept
      refine Kept.upd ?_
      assumption
    · refine Kept.trans ?_ fenceHalf_kept
      assumption
  clear_value s₅
  have k_s₆ : Kept s s₆ := by
    refine Kept.trans ?_ loseSessions_kept
    assumption
  clear_value s₆
  refine Kept.upd ?_
  assumption

theorem execHalvesSplit_kept {s : State} : Answers s (execHalvesSplit s) := by
  unfold execHalvesSplit
  refine Answers.ite ?_ ?_
  · exact Answers.next (Kept.refl _)
  · refine Answers.next ?_
    exact declareSplit_kept

theorem execLeasePulse_kept {s : State} : Answers s (execLeasePulse s) := by
  unfold execLeasePulse
  refine Answers.ite ?_ ?_
  · exact Answers.next (Kept.refl _)
  · refine Answers.next ?_
    exact State.emit_kept

theorem clearEntries_kept {s : State} {ti : Nat} {h : Half} : Kept s (clearEntries s ti h) := by
  unfold clearEntries
  refine Kept.foldl ?_ ?_
  · intro x1 x2
    refine Kept.foldl ?_ ?_
    · intro x3 x4
      split
      · refine Kept.ite ?_ ?_
        · extract_lets
          split
          · exact Kept.refl _
          · extract_lets s₁ src₁
            have k_s₁ : Kept x3 s₁ := by
              exact putBytes_kept
            clear_value s₁
            refine Kept.upd ?_
            assumption
        · exact Kept.refl _
      · exact Kept.refl _
    · exact Kept.refl _
  · exact Kept.refl _

theorem clearFenced_kept {s : State} {h : Half} : Kept s (clearFenced s h) := by
  unfold clearFenced
  refine Kept.foldl ?_ ?_
  · intro x1 x2
    exact clearEntries_kept
  · exact Kept.refl _

theorem restoreEntries_kept {s : State} : Kept s (restoreEntries s) := by
  unfold restoreEntries
  extract_lets s₁ src₁
  have k_s₁ : Kept s s₁ := by
    refine Kept.foldl ?_ ?_
    · intro x1 x2
      split
      · split
        · exact Kept.refl _
        · exact putBytes_kept
      · exact Kept.refl _
    · exact Kept.refl _
  clear_value s₁
  refine Kept.upd ?_
  assumption

theorem resumeModels_kept {s : State} {epoch : Nat} : Kept s (resumeModels s epoch) := by
  unfold resumeModels
  extract_lets s₁ src₁
  have k_s₁ : Kept s s₁ := by
    refine Kept.foldl ?_ ?_
    · intro x1 x2
      extract_lets src₂
      refine Kept.ite ?_ ?_
      · exact State.putModel_kept
      · exact Kept.refl _
    · exact Kept.refl _
  clear_value s₁
  refine Kept.upd ?_
  assumption

theorem openHalf_kept {s : State} {h : Half} : Kept s (openHalf s h) := by
  unfold openHalf
  extract_lets s₁ s₂ s₃ s₄ src₁ src₂
  have k_s₁ : Kept s s₁ := by
    exact Kept.trans setFenced_kept State.setBit_kept
  clear_value s₁
  have k_s₂ : Kept s s₂ := by
    refine Kept.foldl ?_ ?_
    · intro x1 x2
      exact Kept.trans State.setFstate_kept settlePort_kept
    · assumption
  clear_value s₂
  have k_s₃ : Kept s s₃ := by
    refine Kept.foldl ?_ ?_
    · intro x1 x2
      exact State.setFld_kept
    · assumption
  clear_value s₃
  have k_s₄ : Kept s s₄ := by
    refine Kept.trans ?_ restoreEntries_kept
    assumption
  clear_value s₄
  refine Kept.trans ?_ settleAdm_kept
  refine Kept.trans ?_ setBudget_kept
  refine Kept.upd ?_
  assumption

theorem rejoinAtBoundary_kept {s : State} : Kept s (rejoinAtBoundary s).1 := by
  unfold rejoinAtBoundary
  split
  · extract_lets s₁ f₁ src₁ src₂ s₂
    have k_s₁ : Kept s s₁ := by
      exact startReset_kept
    clear_value s₁
    have k_f₁2 : Kept s f₁.2 := by
      refine Kept.trans ?_ State.takeBytes_kept
      assumption
    clear_value f₁
    have k_src₁ : Kept s src₁ := by
      assumption
    clear_value src₁
    have k_s₂ : Kept s s₂ := by
      refine Kept.upd ?_
      assumption
    clear_value s₂
    dsimp only
    refine Kept.trans ?_ State.emit_kept
    assumption
  · split
    · dsimp only
      exact Kept.trans endReset_kept openHalf_kept
    · dsimp only
      exact Kept.refl _
  · dsimp only
    exact Kept.refl _

theorem noteRejoin_kept {s : State} {h : Half} : Kept s (noteRejoin s h) := by
  unfold noteRejoin
  exact Kept.trans resumeModels_kept recordEvent_kept

end Sys2Proof.Machine
end

