-- ==== Sys2Proof/Laws/KeptHealth.lean ====
section
/-! SUPPORT. The definitions of Machine/Health.lean keep the queue and the canonical form. -/
set_option Elab.async false
namespace Sys2Proof.Machine

theorem State.pickPage_kept {s : State} : Kept s (State.pickPage s).2 := by
  unfold State.pickPage
  extract_lets f₁
  have k_f₁2 : Kept s f₁.2 := by
    exact State.takeFree_kept
  clear_value f₁
  assumption

theorem copyToStack_kept {s : State} {ti page ppn : Nat} : Kept s (copyToStack s ti page ppn).1 := by
  unfold copyToStack
  refine Kept.foldlPair ?_ ?_
  · intro x1 x2
    extract_lets r₁
    clear_value r₁
    dsimp only
    exact writeStackGran_kept
  · dsimp only
    exact Kept.refl _

theorem remapEntries_kept {s : State} {ti ppn : Nat} {l : List (Nat × Nat)} : Kept s (remapEntries s ti ppn l) := by
  unfold remapEntries
  refine Kept.foldl ?_ ?_
  · intro x1 x2
    split
    · exact putBytes_kept
    · exact Kept.refl _
  · exact Kept.refl _

theorem evacuatePage_kept {s : State} {ti page : Nat} : Kept s (evacuatePage s ti page).1 := by
  unfold evacuatePage
  extract_lets es₁ p₁ r₁
  clear_value es₁
  have k_p₁2 : Kept s p₁.2 := by
    exact State.pickPage_kept
  clear_value p₁
  have k_r₁1 : Kept s r₁.1 := by
    refine Kept.trans ?_ copyToStack_kept
    assumption
  clear_value r₁
  split
  · dsimp only
    exact Kept.refl _
  · dsimp only
    refine Kept.trans ?_ remapEntries_kept
    assumption

theorem evacuate_kept {s : State} {ti : Nat} {pages : List Nat} : Kept s (evacuate s ti pages).1 := by
  unfold evacuate
  refine Kept.foldlPair ?_ ?_
  · intro x1 x2
    extract_lets r₁
    dsimp only
    exact evacuatePage_kept
  · dsimp only
    exact Kept.refl _

theorem moveTable_kept {s : State} {ti home src dst n : Nat} : Kept s (moveTable s ti home src dst n) := by
  unfold moveTable
  refine Kept.foldl ?_ ?_
  · intro x1 x2
    extract_lets r₁
    clear_value r₁
    exact writeStackGran_kept
  · exact Kept.refl _

theorem retireSlice_kept {s : State} {ti cause bond : Nat} : Kept s (retireSlice s ti cause bond) := by
  unfold retireSlice
  extract_lets s₁ p₁ r₁ s₂ s₃ s₄ s₅ src₁ s₆
  have k_s₁ : Kept s s₁ := by
    exact evacuate_kept
  clear_value s₁
  have k_p₁2 : Kept s p₁.2 := by
    refine Kept.trans ?_ State.pickPage_kept
    assumption
  clear_value p₁
  have k_r₁1 : Kept s r₁.1 := by
    refine Kept.foldlPair ?_ ?_
    · intro x1 x2
      extract_lets base₁ s₇
      clear_value base₁
      dsimp only
      exact Kept.trans moveTable_kept State.setFld_kept
    · assumption
  clear_value r₁
  have k_s₂ : Kept s s₂ := by
    refine Kept.trans ?_ State.setFld_kept
    assumption
  clear_value s₂
  have k_s₃ : Kept s s₃ := by
    refine Kept.trans ?_ State.setFld_kept
    assumption
  clear_value s₃
  have k_s₄ : Kept s s₄ := by
    refine Kept.trans ?_ State.setFld_kept
    refine Kept.trans ?_ State.setFld_kept
    assumption
  clear_value s₄
  have k_s₅ : Kept s s₅ := by
    refine Kept.trans ?_ State.setReg64_kept
    assumption
  clear_value s₅
  have k_s₆ : Kept s s₆ := by
    refine Kept.upd ?_
    assumption
  clear_value s₆
  refine Kept.ite ?_ ?_
  · exact Kept.refl _
  · refine Kept.trans ?_ recordEvent_kept
    assumption

theorem restripe_kept {s : State} {ti new : Nat} : Kept s (restripe s ti new) := by
  unfold restripe
  extract_lets old s1
  refine Kept.ite (Kept.refl _) (Kept.trans State.setFld_kept (State.modTile_kept (fun t h => ⟨h.1, ?_, h.2.2⟩)))
  exact SMap.filter_wf (β := BitVec 288) _ h.2.1

theorem retireLayer_kept {s : State} {ti layer : Nat} : Kept s (retireLayer s ti layer) := by
  unfold retireLayer
  extract_lets a₁ groups₁ pages₁ r₁ s₁ s₂ s₃ src₁ s₄ s₅
  clear_value a₁ groups₁ pages₁
  have k_r₁1 : Kept s r₁.1 := by
    exact evacuate_kept
  clear_value r₁
  have k_s₁ : Kept s s₁ := by
    refine Kept.trans ?_ restripe_kept
    assumption
  clear_value s₁
  have k_s₂ : Kept s s₂ := by
    refine Kept.trans ?_ State.setFld_kept
    refine Kept.trans ?_ State.setFld_kept
    assumption
  clear_value s₂
  have k_s₃ : Kept s s₃ := by
    refine Kept.trans ?_ State.modTile_kept
    assumption
  clear_value s₃
  have k_s₄ : Kept s s₄ := by
    refine Kept.upd ?_
    assumption
  clear_value s₄
  have k_s₅ : Kept s s₅ := by
    refine Kept.trans ?_ recordEvent_kept
    assumption
  clear_value s₅
  refine Kept.ite ?_ ?_
  · exact Kept.refl _
  · refine Kept.ite ?_ ?_
    · refine Kept.trans ?_ retireSlice_kept
      assumption
    · assumption

theorem spareBond_kept {s : State} {ti : Nat} {x : Nat × Nat} : Kept s (spareBond s ti x) := by
  unfold spareBond
  extract_lets a₁ used₁ s₁ s₂
  clear_value a₁ used₁
  have k_s₁ : Kept s s₁ := by
    exact Kept.trans State.setFld_kept State.setFld_kept
  clear_value s₁
  have k_s₂ : Kept s s₂ := by
    refine Kept.trans ?_ State.modTile_kept
    assumption
  clear_value s₂
  refine Kept.trans ?_ recordEvent_kept
  assumption

theorem losePage_kept {s : State} {ti bankCode : Nat} : Kept s (losePage s ti bankCode) := by
  unfold losePage
  extract_lets g₁ pages₁ s₁
  clear_value g₁ pages₁
  have k_s₁ : Kept s s₁ := by
    exact evacuate_kept
  clear_value s₁
  refine Kept.trans ?_ State.modTile_kept
  assumption

theorem takeSpare_kept {s : State} {ti : Nat} {x : Nat × Nat × Nat} : Kept s (takeSpare s ti x) := by
  unfold takeSpare
  extract_lets t₁ used₁ s₁
  clear_value used₁
  have k_s₁ : Kept s s₁ := by
    unfold s₁
    refine Kept.ite ?_ ?_
    · refine Kept.trans ?_ (State.modTile_kept ?_)
      · exact Kept.refl _
      · exact fun _ h => ⟨SMap.map_wf _ h.1, h.2⟩
    · extract_lets
      refine Kept.foldl ?_ ?_
      · intro x1 x2
        extract_lets k₁ g₁ r₁
        clear_value k₁ g₁ r₁
        exact State.putGranule_kept
      · exact Kept.refl _
  clear_value s₁
  refine Kept.ite ?_ ?_
  · exact Kept.refl _
  · refine Kept.ite ?_ ?_
    · refine Kept.ite ?_ ?_
      · exact losePage_kept
      · exact Kept.refl _
    · refine Kept.trans ?_ recordEvent_kept
      refine Kept.trans ?_ State.modTile_kept
      assumption

theorem offTile_kept {s : State} {ti : Nat} : Kept s (offTile s ti) := by
  unfold offTile
  extract_lets s₁
  have k_s₁ : Kept s s₁ := by
    exact State.modTile_kept
  clear_value s₁
  refine Kept.trans ?_ State.setTilState_kept
  refine Kept.trans ?_ clearHeld_kept
  assumption

theorem retireTile_kept {s : State} {ti : Nat} : Kept s (retireTile s ti) := by
  unfold retireTile
  extract_lets s₁ src₁
  have k_s₁ : Kept s s₁ := by
    exact Kept.trans State.dropAt_kept offTile_kept
  clear_value s₁
  refine Kept.ite ?_ ?_
  · exact Kept.refl _
  · refine Kept.upd ?_
    assumption

theorem dropCluster_kept {s : State} {ci : Nat} : Kept s (dropCluster s ci) := by
  unfold dropCluster
  refine Kept.foldl ?_ ?_
  · intro x1 x2
    exact State.dropAt_kept
  · exact Kept.refl _

theorem saveState_kept {s : State} {mark : Option (Nat × Nat × Nat)} : Kept s (saveState s mark) := by
  unfold saveState
  extract_lets last₁ m₁ r₁ src₁
  clear_value last₁ m₁ r₁
  refine Kept.ite ?_ ?_
  · exact Kept.refl _
  · split
    · refine Kept.ite ?_ ?_
      · exact Kept.upd (Kept.refl _)
      · exact Kept.upd (Kept.refl _)
    · exact Kept.upd (Kept.refl _)

theorem setSignal_kept {s : State} {bit : Nat} {v : Bool} : Kept s (setSignal s bit v) := by
  unfold setSignal
  exact State.setBit_kept

theorem settleAlert_kept {s : State} : Kept s (settleAlert s) := by
  unfold settleAlert
  exact setSignal_kept

theorem setAlert_kept {s : State} {bit : Nat} {v : Bool} : Kept s (setAlert s bit v) := by
  unfold setAlert
  exact Kept.trans setSignal_kept settleAlert_kept

theorem State.setCl_kept {s : State} {ci v : Nat} : Kept s (State.setCl s ci v) := by
  unfold State.setCl
  exact State.setFld_kept

theorem reportPeers_kept {s : State} {code v0 v1 : Nat} : Kept s (reportPeers s code v0 v1) := by
  unfold reportPeers
  refine Kept.foldl ?_ ?_
  · intro x1 x2
    exact sendMsg_kept
  · exact Kept.refl _

theorem settleCause_kept {s : State} {bit : Nat} : Kept s (settleCause s bit) := by
  unfold settleCause
  extract_lets c₁ a₁ on₁ s₁ s₂
  clear_value c₁ a₁ on₁
  have k_s₁ : Kept s s₁ := by
    exact Kept.trans State.setFld_kept recordEvent_kept
  clear_value s₁
  have k_s₂ : Kept s s₂ := by
    unfold s₂
    refine Kept.ite ?_ ?_
    · refine Kept.trans ?_ recordEvent_kept
      assumption
    · assumption
  clear_value s₂
  refine Kept.ite ?_ ?_
  · refine Kept.trans ?_ reportPeers_kept
    assumption
  · refine Kept.ite ?_ ?_
    · exact Kept.trans State.setFld_kept recordEvent_kept
    · exact Kept.refl _

theorem settleReplace_kept {s : State} : Kept s (settleReplace s) := by
  unfold settleReplace
  extract_lets s₁ on₁
  have k_s₁ : Kept s s₁ := by
    refine Kept.foldl ?_ ?_
    · intro x1 x2
      exact settleCause_kept
    · exact Kept.refl _
  clear_value s₁ on₁
  refine Kept.trans ?_ setSignal_kept
  refine Kept.trans ?_ State.setBit_kept
  assumption

theorem assertReplace_kept {s : State} : Kept s (assertReplace s) := by
  unfold assertReplace
  exact Kept.trans State.setBit_kept setSignal_kept

theorem makeDark_kept {s : State} {ci cause : Nat} : Kept s (makeDark s ci cause) := by
  unfold makeDark
  extract_lets s₁ s₂ s₃ s₄ src₁ s₅
  have k_s₁ : Kept s s₁ := by
    exact dropCluster_kept
  clear_value s₁
  have k_s₂ : Kept s s₂ := by
    refine Kept.trans ?_ State.setReg_kept
    assumption
  clear_value s₂
  have k_s₃ : Kept s s₃ := by
    refine Kept.trans ?_ recordEvent_kept
    assumption
  clear_value s₃
  have k_s₄ : Kept s s₄ := by
    refine Kept.foldl ?_ ?_
    · intro x1 x2
      extract_lets s₆
      have k_s₆ : Kept x1 s₆ := by
        exact offTile_kept
      clear_value s₆
      refine Kept.trans ?_ State.setFld_kept
      refine Kept.trans ?_ State.setFld_kept
      assumption
    · assumption
  clear_value s₄
  have k_s₅ : Kept s s₅ := by
    refine Kept.upd ?_
    assumption
  clear_value s₅
  refine Kept.ite ?_ ?_
  · exact Kept.refl _
  · refine Kept.trans ?_ settleLink_kept
    refine Kept.trans ?_ assertReplace_kept
    assumption

end Sys2Proof.Machine
end

