-- ==== Sys2Proof/Laws/KeptCaps.lean ====
section
/-! SUPPORT. The definitions of Machine/Caps.lean keep the queue and the canonical form. -/
set_option Elab.async false
namespace Sys2Proof.Machine

theorem State.setTh_kept {s : State} {v : Nat} : Kept s (State.setTh s v) := by
  unfold State.setTh
  exact State.setFld_kept

theorem setCap_kept {s : State} {h : Half} {v : Rat} : Kept s (setCap s h v) := by
  unfold setCap
  extract_lets src₁ src₂ src₃
  have k_src₁ : Kept s src₁ := by
    exact State.setFld_kept
  clear_value src₁
  have k_src₃ : Kept s src₃ := by
    exact State.setFld_kept
  clear_value src₃
  split
  · refine Kept.upd ?_
    assumption
  · refine Kept.upd ?_
    assumption

theorem lowerCap_kept {s : State} {h : Half} : Kept s (lowerCap s h) := by
  unfold lowerCap
  extract_lets due₁ s₁ src₁
  clear_value due₁
  have k_s₁ : Kept s s₁ := by
    exact setCap_kept
  clear_value s₁
  refine Kept.ite ?_ ?_
  · refine Kept.upd ?_
    assumption
  · exact Kept.refl _

theorem lowerCaps_kept {s : State} : Kept s (lowerCaps s) := by
  unfold lowerCaps
  exact Kept.trans lowerCap_kept lowerCap_kept

end Sys2Proof.Machine
end

