-- ==== Sys2Proof/Laws/KeptBoundary.lean ====
section
/-! SUPPORT. The definitions of Machine/Boundary.lean keep the queue and the canonical form. -/
set_option Elab.async false
namespace Sys2Proof.Machine

theorem applyLive_kept {s : State} : Kept s (applyLive s) := by
  unfold applyLive
  extract_lets n s1 s2
  have h1 : Kept s s1 := by
    unfold s1
    split
    · exact Kept.refl _
    · exact recordEvent_kept
  have h2 : Kept s s2 := Kept.foldl (fun _ _ => State.setReg_kept) h1
  exact ⟨h2.queue, fun w => { h2.form w with shadow := rfl }⟩

theorem noteOverrun_kept {s : State} {ti n : Nat} : Kept s (noteOverrun s ti n) := by
  unfold noteOverrun
  refine Kept.foldl ?_ ?_
  · intro x1 x2
    split
    · split
      · exact Kept.refl _
      · exact Kept.trans State.setFld_kept recordEvent_kept
    · exact Kept.refl _
  · exact Kept.refl _

theorem enterRound_kept {s : State} {ti n : Nat} : Kept s (enterRound s ti n) := by
  unfold enterRound
  extract_lets s₁ sp₁ s₂ s₃ s₄ s₅ st₁
  have k_s₁ : Kept s s₁ := by
    exact Kept.trans abandonTile_kept noteOverrun_kept
  clear_value s₁ sp₁
  have k_s₂ : Kept s s₂ := by
    refine Kept.foldl ?_ ?_
    · intro x1 x2
      exact takeSpare_kept
    · refine Kept.trans ?_ State.modTile_kept
      assumption
  clear_value s₂
  have k_s₃ : Kept s s₃ := by
    refine Kept.trans ?_ State.resetRegs_kept
    assumption
  clear_value s₃
  have k_s₄ : Kept s s₄ := by
    refine Kept.trans ?_ State.setTokens_kept
    assumption
  clear_value s₄
  have k_s₅ : Kept s s₅ := by
    refine Kept.trans ?_ State.modTile_kept
    assumption
  clear_value s₅ st₁
  refine Kept.ite ?_ ?_
  · refine Kept.trans ?_ State.setTilState_kept
    assumption
  · assumption

theorem startTile_kept {s : State} {ti : Nat} : Kept s (startTile s ti) := by
  unfold startTile
  extract_lets t₁ s₁
  have k_s₁ : Kept s s₁ := by
    exact State.setFld_kept
  clear_value s₁
  split
  · assumption
  · refine Kept.ite ?_ ?_
    · refine Kept.trans ?_ State.setTilState_kept
      refine State.setTile_at ?_ ?_
      · assumption
      · exact fun w => State.tile_wf w
    · assumption

theorem copyPage_kept {s : State} {src dst pageS pageD : Nat} : Kept s (copyPage s src dst pageS pageD) := by
  unfold copyPage
  refine Kept.foldl ?_ ?_
  · intro x1 x2
    extract_lets r₁
    clear_value r₁
    exact writeBonded_kept
  · exact Kept.refl _

theorem copySpace_kept {s : State} {model src dst space : Nat} : Kept s (copySpace s model src dst space) := by
  unfold copySpace
  extract_lets r₁
  clear_value r₁
  refine Kept.ite ?_ ?_
  · exact Kept.refl _
  · extract_lets
    refine Kept.foldl ?_ ?_
    · intro x1 x2
      extract_lets ppn₁
      clear_value ppn₁
      split
      · exact Kept.refl _
      · extract_lets own₁ s₁ s₂
        clear_value own₁
        have k_s₁ : Kept x1 s₁ := by
          unfold s₁
          refine Kept.ite ?_ ?_
          · exact copyPage_kept
          · exact Kept.refl _
        clear_value s₁
        have k_s₂ : Kept x1 s₂ := by
          refine Kept.trans ?_ growTable_kept
          assumption
        clear_value s₂
        refine Kept.ite ?_ ?_
        · exact Kept.refl _
        · split
          · refine Kept.trans ?_ putBytes_kept
            assumption
          · assumption
    · exact Kept.refl _

theorem copySeqs_kept {s : State} {src dst : Nat} : Kept s (copySeqs s src dst) := by
  unfold copySeqs
  extract_lets r₁
  clear_value r₁
  refine Kept.ite ?_ ?_
  · exact Kept.refl _
  · extract_lets
    refine Kept.foldl ?_ ?_
    · intro x1 x2
      split
      · extract_lets e₁ space₁ size₁ ws₁ s₁ s₂
        clear_value e₁ space₁ size₁ ws₁
        have k_s₁ : Kept x1 s₁ := by
          exact Kept.trans ensureDir_kept writeSram_kept
        clear_value s₁
        have k_s₂ : Kept x1 s₂ := by
          refine Kept.trans ?_ State.modTile_kept
          assumption
        clear_value s₂
        refine Kept.ite ?_ ?_
        · exact Kept.refl _
        · split
          · assumption
          · split
            · refine Kept.trans ?_ writeGranule_kept
              assumption
            · assumption
      · exact Kept.refl _
    · exact Kept.refl _

theorem relocate_kept {s : State} {p : Package} {l : List Nat} : Kept s (relocate s p l).1 := by
  induction l generalizing s p with
  | nil => exact Kept.refl _
  | cons ti rest ih =>
    unfold relocate
    split
    · exact Kept.refl _
    · exact Kept.trans ((Kept.foldl (fun _ _ => copySpace_kept) (Kept.refl _)).trans (copySeqs_kept.trans recordEvent_kept)) ih

theorem epochModel_kept {s : State} {epoch : Nat} {m : Model} : Kept s (epochModel s epoch m) := by
  unfold epochModel
  extract_lets r₁ src₁
  have k_r₁1 : Kept s r₁.1 := by
    exact relocate_kept
  clear_value r₁
  refine Kept.ite ?_ ?_
  · exact Kept.refl _
  · extract_lets
    split
    · extract_lets s₁ src₂
      have k_s₁ : Kept s s₁ := by
        exact pauseModel_kept
      clear_value s₁
      refine Kept.upd ?_
      assumption
    · split
      · exact pauseModel_kept
      · split
        · refine Kept.trans ?_ pauseModel_kept
          assumption
        · refine Kept.trans ?_ State.putModel_kept
          assumption

theorem recheckPlan_kept {s : State} {cause n : Nat} : Kept s (recheckPlan s cause n) := by
  unfold recheckPlan
  extract_lets bad₁ r₁ before₁ s₁ after₁
  clear_value bad₁
  have k_r₁1 : Kept s r₁.1 := by
    refine Kept.foldlPair ?_ ?_
    · intro x1 x2
      split
      · dsimp only
        exact dropBatch_kept
      · exact Kept.refl _
    · dsimp only
      exact Kept.refl _
  clear_value r₁ before₁
  have k_s₁ : Kept s s₁ := by
    refine Kept.trans ?_ settleRequests_kept
    assumption
  clear_value s₁ after₁
  refine Kept.trans ?_ recordEvent_kept
  assumption

theorem publishEpoch_kept {s : State} {n : Nat} : Kept s (publishEpoch s n) := by
  unfold publishEpoch
  extract_lets prev₁ epoch₁ r₁ src₁ s₁ s₂ s₃ s₄ s₅ s₆ s₇
  clear_value prev₁ epoch₁ r₁
  have k_s₁ : Kept s s₁ := by
    exact Kept.upd (Kept.refl _)
  clear_value s₁
  have k_s₂ : Kept s s₂ := by
    refine Kept.trans ?_ State.setReg_kept
    assumption
  clear_value s₂
  have k_s₃ : Kept s s₃ := by
    refine Kept.foldl ?_ ?_
    · intro x1 x2
      exact epochModel_kept
    · assumption
  clear_value s₃
  have k_s₄ : Kept s s₄ := by
    refine Kept.foldl ?_ ?_
    · intro x1 x2
      refine Kept.ite ?_ ?_
      · exact clearFenced_kept
      · refine Kept.ite ?_ ?_
        · refine Kept.foldl ?_ ?_
          · intro x3 x4
            exact clearEntries_kept
          · exact Kept.refl _
        · exact Kept.refl _
    · assumption
  clear_value s₄
  have k_s₅ : Kept s s₅ := by
    refine Kept.trans ?_ saveState_kept
    refine Kept.trans ?_ recheckPlan_kept
    assumption
  clear_value s₅
  have k_s₆ : Kept s s₆ := by
    refine Kept.trans ?_ recordEvent_kept
    assumption
  clear_value s₆
  have k_s₇ : Kept s s₇ := by
    refine Kept.foldl ?_ ?_
    · intro x1 x2
      exact sendMsg_kept
    · assumption
  clear_value s₇
  refine Kept.foldl ?_ ?_
  · intro x5 x6
    refine Kept.ite ?_ ?_
    · refine Kept.foldl ?_ ?_
      · intro x7 x8
        exact sendCtrl_kept
      · exact Kept.refl _
    · refine Kept.ite ?_ ?_
      · refine Kept.foldl ?_ ?_
        · intro x9 x10
          exact sendCtrl_kept
        · exact Kept.refl _
      · exact Kept.refl _
  · assumption

theorem applySetting_kept {s : State} {x : TimeSetting} : Kept s (applySetting s x) := by
  unfold applySetting
  extract_lets d₁ src₁ s₁ s₂
  clear_value d₁
  have k_s₁ : Kept s s₁ := by
    exact Kept.upd (Kept.refl _)
  clear_value s₁
  have k_s₂ : Kept s s₂ := by
    refine Kept.trans ?_ State.setFld_kept
    refine Kept.trans ?_ State.setFld_kept
    assumption
  clear_value s₂
  refine Kept.trans ?_ recordEvent_kept
  assumption

theorem setTime_kept {s : State} {x : TimeSetting} : Kept s (setTime s x) := by
  unfold setTime
  extract_lets src₁
  refine Kept.ite ?_ ?_
  · exact Kept.upd (Kept.refl _)
  · exact applySetting_kept

theorem applyTime_kept {s : State} : Kept s (applyTime s) := by
  unfold applyTime
  split
  · exact Kept.refl _
  · exact applySetting_kept

theorem commitAtEnd_kept {s : State} : Kept s (commitAtEnd s) := by
  unfold commitAtEnd
  refine Kept.foldl ?_ ?_
  · intro x1 x2
    refine Kept.ite ?_ ?_
    · exact commitBatch_kept
    · exact Kept.refl _
  · exact Kept.refl _

theorem carryOn_kept {s : State} {b : Batch} : Kept s (carryOn s b) := by
  unfold carryOn
  extract_lets s₁ src₁
  have k_s₁ : Kept s s₁ := by
    exact carryMarks_kept
  clear_value s₁
  refine Kept.ite ?_ ?_
  · refine Kept.upd ?_
    assumption
  · exact Kept.refl _

theorem expire_kept {s : State} {n : Nat} : Kept s (expire s n) := by
  unfold expire
  extract_lets src₁
  exact Kept.upd (Kept.refl _)

theorem refreshPace_kept {s : State} : Kept s (refreshPace s) := by
  unfold refreshPace
  refine Kept.foldl ?_ ?_
  · intro x1 x2
    exact State.setFld_kept
  · exact Kept.refl _

theorem refreshPower_kept {s : State} {n : Nat} : Kept s (refreshPower s n) := by
  unfold refreshPower
  extract_lets w₁ e₁ src₁ s₁ pack₁
  clear_value w₁ e₁
  have k_s₁ : Kept s s₁ := by
    exact Kept.upd (Kept.refl _)
  clear_value s₁
  refine Kept.trans ?_ State.setReg_kept
  refine Kept.trans ?_ State.setReg_kept
  assumption

theorem endRound_kept {s : State} : Kept s (endRound s) := by
  unfold endRound
  extract_lets s₁ falling₁ s₂ s₃ s₄ src₁
  have k_s₁ : Kept s s₁ := by
    exact commitAtEnd_kept
  clear_value s₁ falling₁
  have k_s₂ : Kept s s₂ := by
    refine Kept.foldl ?_ ?_
    · intro x1 x2
      exact carryOn_kept
    · assumption
  clear_value s₂
  have k_s₃ : Kept s s₃ := by
    refine Kept.foldl ?_ ?_
    · intro x1 x2
      exact dropBatch_kept
    · assumption
  clear_value s₃
  have k_s₄ : Kept s s₄ := by
    refine Kept.foldl ?_ ?_
    · intro x1 x2
      refine Kept.ite ?_ ?_
      · exact Kept.refl _
      · exact Kept.trans abandonTile_kept dropMarks_kept
    · assumption
  clear_value s₄
  refine Kept.upd ?_
  assumption

theorem noteLate_kept {s : State} : Kept s (noteLate s) := by
  unfold noteLate
  extract_lets age₁
  clear_value age₁
  refine Kept.ite ?_ ?_
  · exact Kept.refl _
  · extract_lets
    refine Kept.foldl ?_ ?_
    · intro x1 x2
      extract_lets src₁
      refine Kept.trans ?_ recordEvent_kept
      exact Kept.upd (Kept.refl _)
    · exact Kept.refl _

theorem healthBoundary_kept {s : State} : Kept s (healthBoundary s) := by
  unfold healthBoundary
  extract_lets s₁ s₂ ls₁ ss₁ src₁ s₃ s₄
  have k_s₁ : Kept s s₁ := by
    exact noteLate_kept
  clear_value s₁
  have k_s₂ : Kept s s₂ := by
    refine Kept.foldl ?_ ?_
    · intro x1 x2
      refine Kept.foldl ?_ ?_
      · intro x3 x4
        exact spareBond_kept
      · exact Kept.refl _
    · assumption
  clear_value s₂ ls₁ ss₁
  have k_s₃ : Kept s s₃ := by
    refine Kept.upd ?_
    assumption
  clear_value s₃
  have k_s₄ : Kept s s₄ := by
    refine Kept.foldl ?_ ?_
    · intro x1 x2
      exact retireLayer_kept
    · assumption
  clear_value s₄
  refine Kept.foldl ?_ ?_
  · intro x5 x6
    exact retireSlice_kept
  · assumption

theorem testBoundary_kept {s : State} {n : Nat} : Kept s (testBoundary s n) := by
  unfold testBoundary
  extract_lets src₁ s₁ src₂
  have k_s₁ : Kept s s₁ := by
    exact Kept.upd (Kept.refl _)
  clear_value s₁
  split
  · assumption
  · extract_lets go₁
    clear_value go₁
    refine Kept.ite ?_ ?_
    · assumption
    · refine Kept.upd ?_
      assumption

theorem powerBoundary_kept {s : State} : Kept s (powerBoundary s) := by
  unfold powerBoundary
  extract_lets src₁
  exact Kept.upd (Kept.refl _)

theorem dropUnbudgeted_kept {s : State} {n : Nat} : Kept s (dropUnbudgeted s n) := by
  unfold dropUnbudgeted
  extract_lets bad₁
  clear_value bad₁
  refine Kept.foldl ?_ ?_
  · intro x1 x2
    exact dropBatch_kept
  · exact Kept.refl _

theorem resumeAdmission_kept {s : State} : Kept s (resumeAdmission s) := by
  unfold resumeAdmission
  extract_lets src₁ s₁
  have k_s₁ : Kept s s₁ := by
    exact Kept.upd (Kept.refl _)
  refine Kept.ite ?_ ?_
  · refine Kept.trans ?_ settleAdm_kept
    refine Kept.trans ?_ State.setFld_kept
    assumption
  · assumption

theorem notePlanMin_kept {s : State} {n : Nat} : Kept s (notePlanMin s n) := by
  unfold notePlanMin
  extract_lets need₁ l₁ src₁
  clear_value l₁
  exact Kept.upd (Kept.refl _)

theorem beginRound_kept {s : State} {n : Nat} : Kept s (beginRound s n) := by
  unfold beginRound
  extract_lets s₁ f₁ src₁ src₂ src₃ s₂ s₃ s₄ s₅ s₆ src₄ s₇ s₈ s₉ s₁₀ run₁ ends₁ s₁₁
  have k_s₁ : Kept s s₁ := by
    exact State.setReg64_kept
  clear_value s₁
  have k_f₁2 : Kept s f₁.2 := by
    refine Kept.trans ?_ State.takeFree_kept
    assumption
  clear_value f₁
  have k_src₁ : Kept s src₁ := by
    assumption
  clear_value src₁
  have k_s₂ : Kept s s₂ := by
    refine Kept.upd ?_
    assumption
  clear_value s₂
  have k_s₃ : Kept s s₃ := by
    refine Kept.trans ?_ settleSlots_kept
    assumption
  clear_value s₃
  have k_s₄ : Kept s s₄ := by
    refine Kept.foldl ?_ ?_
    · intro x1 x2
      exact acceptLoad_kept
    · assumption
  clear_value s₄
  have k_s₅ : Kept s s₅ := by
    unfold s₅
    refine Kept.ite ?_ ?_
    · refine Kept.trans ?_ publishEpoch_kept
      assumption
    · assumption
  clear_value s₅
  have k_s₆ : Kept s s₆ := by
    refine Kept.trans ?_ notePlanMin_kept
    refine Kept.trans ?_ resumeAdmission_kept
    refine Kept.trans ?_ lowerCaps_kept
    assumption
  clear_value s₆
  have k_s₇ : Kept s s₇ := by
    unfold s₇
    refine Kept.ite ?_ ?_
    · refine Kept.trans ?_ recheckPlan_kept
      refine Kept.upd ?_
      assumption
    · assumption
  clear_value s₇
  have k_s₈ : Kept s s₈ := by
    refine Kept.trans ?_ settleRequests_kept
    refine Kept.trans ?_ dropUnbudgeted_kept
    refine Kept.trans ?_ expire_kept
    assumption
  clear_value s₈
  have k_s₉ : Kept s s₉ := by
    refine Kept.trans ?_ refreshPower_kept
    refine Kept.trans ?_ refreshPace_kept
    assumption
  clear_value s₉
  have k_s₁₀ : Kept s s₁₀ := by
    refine Kept.foldl ?_ ?_
    · intro x1 x2
      exact enterRound_kept
    · assumption
  clear_value s₁₀ run₁ ends₁
  have k_s₁₁ : Kept s s₁₁ := by
    unfold s₁₁
    refine Kept.ite ?_ ?_
    · refine Kept.foldl ?_ ?_
      · intro x3 x4
        exact loadBatch_kept
      · assumption
    · assumption
  clear_value s₁₁
  refine Kept.foldl ?_ ?_
  · intro x5 x6
    exact startTile_kept
  · assumption

theorem roundBoundary_kept {s : State} : Kept s (roundBoundary s) := by
  unfold roundBoundary
  extract_lets s₁ n₁ r₁ s₂ s₃ s₄ s₅
  have k_s₁ : Kept s s₁ := by
    exact Kept.trans (Kept.trans endRound_kept applyLive_kept) applyTime_kept
  clear_value s₁ n₁
  have k_r₁1 : Kept s r₁.1 := by
    refine Kept.trans ?_ rejoinAtBoundary_kept
    refine Kept.trans ?_ settleOverflow_kept
    assumption
  clear_value r₁
  have k_s₂ : Kept s s₂ := by
    refine Kept.trans ?_ endReset_kept
    refine Kept.trans ?_ endReset_kept
    assumption
  clear_value s₂
  have k_s₃ : Kept s s₃ := by
    refine Kept.trans ?_ powerBoundary_kept
    refine Kept.trans ?_ testBoundary_kept
    refine Kept.trans ?_ healthBoundary_kept
    refine Kept.trans ?_ returnFlows_kept
    assumption
  clear_value s₃
  have k_s₄ : Kept s s₄ := by
    refine Kept.trans ?_ beginRound_kept
    assumption
  clear_value s₄
  have k_s₅ : Kept s s₅ := by
    unfold s₅
    split
    · refine Kept.trans ?_ noteRejoin_kept
      assumption
    · assumption
  clear_value s₅
  refine Kept.trans ?_ settleReplace_kept
  assumption

theorem execRoundBoundary_kept {s : State} : Answers s (execRoundBoundary s) := by
  unfold execRoundBoundary
  extract_lets n₁ s₁
  clear_value n₁
  have k_s₁ : Kept s s₁ := by
    exact Kept.upd (Kept.refl _)
  clear_value s₁
  refine Answers.ite ?_ ?_
  · refine Answers.next ?_
    refine Kept.trans ?_ roundBoundary_kept
    assumption
  · refine Answers.next ?_
    assumption

end Sys2Proof.Machine
end

