-- ==== Sys2Proof/Laws/KeptComputeReset.lean ====
section
/-! SUPPORT. The definitions of Machine/ComputeReset.lean keep the queue and the canonical form. -/
set_option Elab.async false
namespace Sys2Proof.Machine

theorem resetWrite_kept {s : State} {hs : List Half} {cuts : List (Nat × Nat)} : Kept s (resetWrite s hs cuts) := by
  unfold resetWrite
  refine Kept.ite ?_ ?_
  · exact refuse_kept
  · exact requestReset_kept

theorem execResetW_kept {cuts : List (Nat × Nat)} {s : State} : Answers s (execResetW cuts s) := by
  unfold execResetW
  refine Answers.next ?_
  exact resetWrite_kept

theorem execResetE_kept {cuts : List (Nat × Nat)} {s : State} : Answers s (execResetE cuts s) := by
  unfold execResetE
  refine Answers.next ?_
  exact resetWrite_kept

theorem releasePin_kept {s : State} : Kept s (releasePin s) := by
  unfold releasePin
  extract_lets src₁ src₂ src₃
  exact Kept.upd (Kept.refl _)

theorem execResetInN_kept {asserted : Bool} {cuts : List (Nat × Nat)} {s : State} : Answers s (execResetInN asserted cuts s) := by
  unfold execResetInN
  refine Answers.ite ?_ ?_
  · refine Answers.next ?_
    exact Kept.trans setSignal_kept requestReset_kept
  · refine Answers.next ?_
    exact Kept.trans setSignal_kept releasePin_kept

theorem execComputeResetRelease_kept {h : Half} {s : State} : Answers s (execComputeResetRelease h s) := by
  unfold execComputeResetRelease
  extract_lets r₁
  have k_r₁ : Kept s r₁ := by
    exact releaseHalf_kept
  clear_value r₁
  refine Answers.ite ?_ ?_
  · refine Answers.next ?_
    refine Kept.trans ?_ fenceHalf_kept
    assumption
  · refine Answers.next ?_
    assumption

theorem execBackendTrained_kept {ti : Nat} {s : State} : Answers s (execBackendTrained ti s) := by
  unfold execBackendTrained
  refine Answers.ite ?_ ?_
  · refine Answers.next ?_
    exact takePorts_kept
  · exact Answers.next (Kept.refl _)

theorem execCutListHandling_kept {h : Half} {s : State} : Answers s (execCutListHandling h s) := by
  unfold execCutListHandling
  refine Answers.next ?_
  exact handleReset_kept

end Sys2Proof.Machine
end

