-- ==== Sys2Proof/Laws/KeptCard.lean ====
section
/-! SUPPORT. The definitions of Machine/Card.lean keep the queue and the canonical form. -/
set_option Elab.async false
namespace Sys2Proof.Machine

theorem State.setCc_kept {s : State} {v : Nat} : Kept s (State.setCc s v) := by
  unfold State.setCc
  exact State.setFld_kept

theorem authFailed_kept {s : State} {mtype cmd addr : Nat} : Kept s (authFailed s mtype cmd addr) := by
  unfold authFailed
  exact Kept.trans State.count_kept recordEvent_kept

theorem cardStart_kept {s : State} {owner : Bool} : Kept s (cardStart s owner) := by
  unfold cardStart
  extract_lets target₁ len₁ user₁ s₁ s₂ src₁
  clear_value target₁ len₁ user₁
  have k_s₁ : Kept s s₁ := by
    unfold s₁
    refine Kept.ite ?_ ?_
    · exact recordEvent_kept
    · exact Kept.refl _
  clear_value s₁
  have k_s₂ : Kept s s₂ := by
    unfold s₂
    refine Kept.ite ?_ ?_
    · refine Kept.trans ?_ State.setFld_kept
      assumption
    · assumption
  clear_value s₂
  refine Kept.ite ?_ ?_
  · exact Kept.trans authFailed_kept refuse_kept
  · extract_lets
    refine Kept.ite ?_ ?_
    · exact refuse_kept
    · extract_lets
      split
      · exact refuse_kept
      · extract_lets s₃
        have k_s₃ : Kept s s₃ := by
          refine Kept.upd ?_
          assumption
        clear_value s₃
        refine Kept.ite ?_ ?_
        · exact refuse_kept
        · refine Kept.trans ?_ State.setCc_kept
          assumption

theorem execCfgCardStart_kept {target len : Nat} {owner : Bool} {s : State} : Answers s (execCfgCardStart target len owner s) := by
  unfold execCfgCardStart
  refine Answers.next ?_
  exact Kept.trans (Kept.trans State.setFld_kept State.setReg_kept) cardStart_kept

theorem cardFail_kept {s : State} {cause field : Nat} : Kept s (cardFail s cause field) := by
  unfold cardFail
  extract_lets src₁ s₁
  have k_s₁ : Kept s s₁ := by
    exact Kept.upd (Kept.refl _)
  clear_value s₁
  split
  · exact Kept.refl _
  · refine Kept.trans ?_ recordEvent_kept
    refine Kept.trans ?_ State.setCc_kept
    assumption

theorem cardAbort_kept {s : State} : Kept s (cardAbort s) := by
  unfold cardAbort
  exact cardFail_kept

theorem execCfgCardAbort_kept {s : State} : Answers s (execCfgCardAbort s) := by
  unfold execCfgCardAbort
  refine Answers.next ?_
  exact cardAbort_kept

theorem execCardWriteTimeout_kept {s : State} : Answers s (execCardWriteTimeout s) := by
  unfold execCardWriteTimeout
  refine Answers.ite ?_ ?_
  · refine Answers.next ?_
    exact cardFail_kept
  · exact Answers.next (Kept.refl _)

theorem execCardEraseDone_kept {s : State} : Answers s (execCardEraseDone s) := by
  unfold execCardEraseDone
  split
  · exact Answers.next (Kept.refl _)
  · refine Answers.ite ?_ ?_
    · refine Answers.next ?_
      exact State.setCc_kept
    · exact Answers.next (Kept.refl _)

theorem cardData_kept {s : State} {v : Word} : Kept s (cardData s v) := by
  unfold cardData
  extract_lets src₁
  split
  · exact Kept.refl _
  · refine Kept.ite ?_ ?_
    · exact Kept.refl _
    · exact Kept.upd (Kept.refl _)

theorem execCfgCardData_kept {v : Word} {s : State} : Answers s (execCfgCardData v s) := by
  unfold execCfgCardData
  refine Answers.next ?_
  exact cardData_kept

theorem execCardProgramDone_kept {ok : Bool} {s : State} : Answers s (execCardProgramDone ok s) := by
  unfold execCardProgramDone
  extract_lets src₁
  split
  · exact Answers.next (Kept.refl _)
  · extract_lets n₁ bs₁ m₁ j₁ s₁
    clear_value bs₁ m₁
    have k_s₁ : Kept s s₁ := by
      exact Kept.upd (Kept.refl _)
    clear_value s₁
    refine Answers.ite ?_ ?_
    · exact Answers.next (Kept.refl _)
    · refine Answers.ite ?_ ?_
      · refine Answers.next ?_
        exact cardFail_kept
      · refine Answers.next ?_
        refine Kept.ite ?_ ?_
        · refine Kept.trans ?_ State.setCc_kept
          assumption
        · assumption

theorem noteBad_kept {s : State} {b : Bad} : Kept s (noteBad s b) := by
  unfold noteBad
  exact State.setReg_kept

theorem execCardCheckDone_kept {s : State} : Answers s (execCardCheckDone s) := by
  unfold execCardCheckDone
  split
  · exact Answers.next (Kept.refl _)
  · extract_lets done₁ above₁
    clear_value above₁
    refine Answers.ite ?_ ?_
    · exact Answers.next (Kept.refl _)
    · refine Answers.ite ?_ ?_
      · split
        · refine Answers.next ?_
          dsimp only [done₁]
          refine Kept.trans ?_ recordEvent_kept
          refine Kept.trans ?_ State.setCc_kept
          exact Kept.upd (Kept.refl _)
        · refine Answers.next ?_
          exact Kept.trans noteBad_kept cardFail_kept
      · split
        · refine Answers.next ?_
          dsimp only [done₁]
          refine Kept.trans ?_ recordEvent_kept
          refine Kept.trans ?_ State.setCc_kept
          refine Kept.upd ?_
          refine Kept.ite ?_ ?_
          · exact State.setFld_kept
          · exact Kept.refl _
        · refine Answers.next ?_
          exact Kept.trans noteBad_kept cardFail_kept

theorem advanceCard_kept {s : State} : Kept s (advanceCard s) := by
  unfold advanceCard
  exact State.setReg_kept

theorem execCfgCardReadData_kept {s : State} : Answers s (execCfgCardReadData s) := by
  unfold execCfgCardReadData
  refine Answers.next ?_
  exact Kept.trans State.emit_kept advanceCard_kept

end Sys2Proof.Machine
end

