-- ==== Sys2Proof/Laws/KeptCounters.lean ====
section
/-! SUPPORT. The definitions of Machine/Counters.lean keep the queue and the canonical form. -/
set_option Elab.async false
namespace Sys2Proof.Machine

theorem onTile_kept {s : State} {ti off : Nat} {f : State → State} (h : ∀ x, Kept x (f x)) : Kept s (onTile s ti off f) := by
  unfold onTile
  split
  · exact h s
  · exact refuse_kept

theorem clearTil_kept {s : State} {ti : Nat} : Kept s (clearTil s ti) := by
  unfold clearTil
  exact State.resetRegs_kept

theorem clearMxa_kept {s : State} {ti : Nat} : Kept s (clearMxa s ti) := by
  unfold clearMxa
  exact State.resetRegs_kept

theorem clearLay_kept {s : State} {ti : Nat} : Kept s (clearLay s ti) := by
  unfold clearLay
  exact State.resetRegs_kept

theorem clearAtn_kept {s : State} {ti : Nat} : Kept s (clearAtn s ti) := by
  unfold clearAtn
  exact State.resetRegs_kept

theorem clearBdm_kept {s : State} {ti : Nat} : Kept s (clearBdm s ti) := by
  unfold clearBdm
  exact State.resetRegs_kept

theorem clearIbu_kept {s : State} {ti : Nat} : Kept s (clearIbu s ti) := by
  unfold clearIbu
  exact State.resetRegs_kept

theorem clearInt_kept {s : State} {ti : Nat} : Kept s (clearInt s ti) := by
  unfold clearInt
  exact State.resetRegs_kept

theorem clearStm_kept {s : State} : Kept s (clearStm s) := by
  unfold clearStm
  exact State.resetRegs_kept

theorem flushXlt_kept {s : State} {ti : Nat} : Kept s (flushXlt s ti) := by
  unfold flushXlt
  exact State.modTile_kept

theorem clearCut_kept {s : State} {ti : Nat} : Kept s (clearCut s ti) := by
  unfold clearCut
  exact State.modTile_kept

theorem execTilCountClr_kept {ti : Nat} {s : State} : Answers s (execTilCountClr ti s) := by
  unfold execTilCountClr
  refine Answers.next ?_
  refine Kept.trans ?_ (onTile_kept ?_)
  · exact Kept.refl _
  · intro x1
    exact clearTil_kept

theorem execMxaCountClr_kept {ti : Nat} {s : State} : Answers s (execMxaCountClr ti s) := by
  unfold execMxaCountClr
  refine Answers.next ?_
  refine Kept.trans ?_ (onTile_kept ?_)
  · exact Kept.refl _
  · intro x1
    exact clearMxa_kept

theorem execLayCountClr_kept {ti : Nat} {s : State} : Answers s (execLayCountClr ti s) := by
  unfold execLayCountClr
  refine Answers.next ?_
  refine Kept.trans ?_ (onTile_kept ?_)
  · exact Kept.refl _
  · intro x1
    exact clearLay_kept

theorem execAtnCountClr_kept {ti : Nat} {s : State} : Answers s (execAtnCountClr ti s) := by
  unfold execAtnCountClr
  refine Answers.next ?_
  refine Kept.trans ?_ (onTile_kept ?_)
  · exact Kept.refl _
  · intro x1
    exact clearAtn_kept

theorem execBdmCountClr_kept {ti : Nat} {s : State} : Answers s (execBdmCountClr ti s) := by
  unfold execBdmCountClr
  refine Answers.next ?_
  refine Kept.trans ?_ (onTile_kept ?_)
  · exact Kept.refl _
  · intro x1
    exact clearBdm_kept

theorem execIbuCountClr_kept {ti : Nat} {s : State} : Answers s (execIbuCountClr ti s) := by
  unfold execIbuCountClr
  refine Answers.next ?_
  refine Kept.trans ?_ (onTile_kept ?_)
  · exact Kept.refl _
  · intro x1
    exact clearIbu_kept

theorem execIntCountClr_kept {ti : Nat} {s : State} : Answers s (execIntCountClr ti s) := by
  unfold execIntCountClr
  refine Answers.next ?_
  refine Kept.trans ?_ (onTile_kept ?_)
  · exact Kept.refl _
  · intro x1
    exact clearInt_kept

theorem execStmCountClr_kept {s : State} : Answers s (execStmCountClr s) := by
  unfold execStmCountClr
  refine Answers.next ?_
  exact clearStm_kept

theorem execLayXltFlush_kept {ti : Nat} {s : State} : Answers s (execLayXltFlush ti s) := by
  unfold execLayXltFlush
  refine Answers.next ?_
  refine Kept.trans ?_ (onTile_kept ?_)
  · exact Kept.refl _
  · intro x1
    exact flushXlt_kept

theorem execBdmCutClr_kept {ti : Nat} {s : State} : Answers s (execBdmCutClr ti s) := by
  unfold execBdmCutClr
  refine Answers.next ?_
  refine Kept.trans ?_ (onTile_kept ?_)
  · exact Kept.refl _
  · intro x1
    exact clearCut_kept

end Sys2Proof.Machine
end

