-- ==== Sys2Proof/Laws/KeptRecorder.lean ====
section
/-! SUPPORT. The definitions of Machine/Recorder.lean keep the queue and the canonical form. -/
set_option Elab.async false
namespace Sys2Proof.Machine

theorem cardLost_kept {s : State} {part addr : Nat} : Kept s (cardLost s part addr) := by
  unfold cardLost
  refine Kept.ite ?_ ?_
  · exact Kept.refl _
  · exact Kept.trans (Kept.trans State.setFld_kept recordEvent_kept) setAlert_kept

theorem noteOverflow_kept {s : State} : Kept s (noteOverflow s) := by
  unfold noteOverflow
  extract_lets n₁ src₁
  clear_value n₁
  refine Kept.ite ?_ ?_
  · exact Kept.refl _
  · refine Kept.trans ?_ recordEvent_kept
    exact Kept.upd (Kept.refl _)

theorem execLogProgram_kept {answers : Bool} {s : State} : Answers s (execLogProgram answers s) := by
  unfold execLogProgram
  extract_lets src₁
  refine Answers.ite ?_ ?_
  · exact Answers.next (Kept.refl _)
  · refine Answers.ite ?_ ?_
    · refine Answers.next ?_
      exact cardLost_kept
    · refine Answers.next ?_
      refine Kept.trans ?_ noteOverflow_kept
      exact Kept.upd (Kept.refl _)

theorem clearLog_kept {s : State} {v : Word} : Kept s (clearLog s v) := by
  unfold clearLog
  extract_lets first₁ head₁ s₁ src₁ s₂
  clear_value first₁ head₁
  have k_s₁ : Kept s s₁ := by
    exact saveState_kept
  clear_value s₁
  have k_s₂ : Kept s s₂ := by
    refine Kept.upd ?_
    assumption
  clear_value s₂
  refine Kept.ite ?_ ?_
  · exact refuse_kept
  · refine Kept.trans ?_ recordEvent_kept
    assumption

theorem execEvtClear_kept {v : Word} {s : State} : Answers s (execEvtClear v s) := by
  unfold execEvtClear
  refine Answers.next ?_
  exact clearLog_kept

theorem execLogEraseDone_kept {s : State} : Answers s (execLogEraseDone s) := by
  unfold execLogEraseDone
  extract_lets src₁
  refine Answers.next ?_
  exact Kept.upd (Kept.refl _)

theorem advanceCursor_kept {s : State} : Kept s (advanceCursor s) := by
  unfold advanceCursor
  exact State.setFld_kept

theorem execEvtWindow7Read_kept {s : State} : Answers s (execEvtWindow7Read s) := by
  unfold execEvtWindow7Read
  refine Answers.next ?_
  exact Kept.trans State.emit_kept advanceCursor_kept

theorem appendRetired_kept {s : State} {e : RetiredEntry} : Kept s (appendRetired s e) := by
  unfold appendRetired
  extract_lets src₁
  refine Kept.ite ?_ ?_
  · exact recordEvent_kept
  · exact Kept.upd (Kept.refl _)

theorem copyStackPage_kept {s : State} {src dst : Nat} : Kept s (copyStackPage s src dst).1 := by
  unfold copyStackPage
  refine Kept.foldlPair ?_ ?_
  · intro x1 x2
    extract_lets r₁
    dsimp only
    refine Kept.foldlPair ?_ ?_
    · intro x3 x4
      extract_lets off₁ r₂
      clear_value off₁ r₂
      dsimp only
      exact writeStackGran_kept
    · dsimp only
      exact Kept.refl _
  · dsimp only
    exact Kept.refl _

theorem retireStackPage_kept {s : State} {addr : Nat} : Kept s (retireStackPage s addr) := by
  unfold retireStackPage
  extract_lets ppn₁ m₁ p₁ r₁ s₁ s₂ s₃
  clear_value ppn₁ m₁
  have k_p₁2 : Kept s p₁.2 := by
    exact State.pickPage_kept
  clear_value p₁
  have k_r₁1 : Kept s r₁.1 := by
    refine Kept.trans ?_ copyStackPage_kept
    assumption
  clear_value r₁
  have k_s₁ : Kept s s₁ := by
    refine Kept.foldl ?_ ?_
    · intro x1 x2
      exact remapEntries_kept
    · assumption
  clear_value s₁
  have k_s₂ : Kept s s₂ := by
    refine Kept.trans ?_ appendRetired_kept
    assumption
  clear_value s₂
  have k_s₃ : Kept s s₃ := by
    refine Kept.trans ?_ State.count_kept
    assumption
  clear_value s₃
  refine Kept.trans ?_ State.scheduleRepair_kept
  refine Kept.trans ?_ recordEvent_kept
  assumption

theorem poisonBlock_kept {s : State} {addr : Nat} : Kept s (poisonBlock s addr) := by
  unfold poisonBlock
  refine Kept.foldl ?_ ?_
  · intro x1 x2
    extract_lets a₁ r₁
    clear_value a₁ r₁
    refine Kept.ite ?_ ?_
    · exact State.putStack_kept
    · exact Kept.refl _
  · exact Kept.refl _

theorem poisonSlice_kept {s : State} {ti off : Nat} : Kept s (poisonSlice s ti off) := by
  unfold poisonSlice
  extract_lets k₁
  clear_value k₁
  refine Kept.ite ?_ ?_
  · exact State.putGranule_kept
  · exact Kept.refl _

theorem dropEntry_kept {s : State} {e : PendEntry} : Kept s (dropEntry s e) := by
  unfold dropEntry
  extract_lets src₁
  exact Kept.upd (Kept.refl _)

theorem keepEntry_kept {s : State} {e : PendEntry} {step : Nat} : Kept s (keepEntry s e step) := by
  unfold keepEntry
  extract_lets src₁
  exact Kept.upd (Kept.refl _)

theorem wantSpare_kept {s : State} {ti : Nat} {x : Nat × Nat × Nat} : Kept s (wantSpare s ti x) := by
  unfold wantSpare
  refine Kept.trans ?_ (State.modTile_kept ?_)
  · exact Kept.refl _
  · exact fun _ h => by split <;> exact h

theorem stackEntry_kept {s : State} {e : PendEntry} {addr : Nat} {passed : Bool} : Kept s (stackEntry s e addr passed) := by
  unfold stackEntry
  extract_lets ppn₁ m₁ s₁ src₁ s₂
  clear_value ppn₁ m₁
  have k_s₁ : Kept s s₁ := by
    exact poisonBlock_kept
  clear_value s₁
  have k_s₂ : Kept s s₂ := by
    exact Kept.upd (Kept.refl _)
  clear_value s₂
  refine Kept.ite ?_ ?_
  · exact Kept.trans retireStackPage_kept dropEntry_kept
  · refine Kept.ite ?_ ?_
    · refine Kept.trans ?_ dropEntry_kept
      refine Kept.ite ?_ ?_
      · refine Kept.trans ?_ recordEvent_kept
        assumption
      · assumption
    · refine Kept.trans ?_ keepEntry_kept
      refine Kept.ite ?_ ?_
      · refine Kept.trans ?_ recordEvent_kept
        assumption
      · assumption

theorem bondedEntry_kept {s : State} {e : PendEntry} {passed : Bool} : Kept s (bondedEntry s e passed) := by
  unfold bondedEntry
  extract_lets ti₁ s₁ r₁ s₂
  clear_value ti₁
  have k_s₁ : Kept s s₁ := by
    exact poisonSlice_kept
  clear_value s₁ r₁
  have k_s₂ : Kept s s₂ := by
    unfold s₂
    refine Kept.ite ?_ ?_
    · exact recordEvent_kept
    · exact Kept.refl _
  clear_value s₂
  refine Kept.ite ?_ ?_
  · refine Kept.trans ?_ dropEntry_kept
    refine Kept.ite ?_ ?_
    · refine Kept.trans ?_ recordEvent_kept
      assumption
    · assumption
  · refine Kept.trans ?_ dropEntry_kept
    refine Kept.trans ?_ wantSpare_kept
    assumption

theorem suspectEntry_kept {s : State} {e : PendEntry} {passed : Bool} : Kept s (suspectEntry s e passed) := by
  unfold suspectEntry
  extract_lets addr₁ src₁ s₁
  clear_value addr₁
  have k_s₁ : Kept s s₁ := by
    unfold s₁
    refine Kept.ite ?_ ?_
    · exact Kept.upd (Kept.refl _)
    · exact Kept.refl _
  clear_value s₁
  refine Kept.trans ?_ stackEntry_kept
  assumption

theorem entryStep_kept {s : State} {e : PendEntry} {passed : Bool} : Kept s (entryStep s e passed) := by
  unfold entryStep
  extract_lets w₁ src₁
  clear_value w₁
  split
  · exact stackEntry_kept
  · exact stackEntry_kept
  · exact bondedEntry_kept
  · exact bondedEntry_kept
  · refine Kept.trans ?_ dropEntry_kept
    refine Kept.ite ?_ ?_
    · exact Kept.refl _
    · exact wantSpare_kept
  · exact Kept.trans wantSpare_kept dropEntry_kept
  · refine Kept.trans ?_ dropEntry_kept
    exact Kept.upd (Kept.refl _)
  · refine Kept.ite ?_ ?_
    · exact suspectEntry_kept
    · exact Kept.trans retireTile_kept dropEntry_kept
  · exact dropEntry_kept

theorem execPendingEntryStep_kept {passed : Bool} {s : State} : Answers s (execPendingEntryStep passed s) := by
  unfold execPendingEntryStep
  extract_lets s₁ src₁
  have k_s₁ : Kept s s₁ := by
    exact settleOverflow_kept
  clear_value s₁
  split
  · refine Answers.next ?_
    assumption
  · refine Answers.next ?_
    refine Kept.trans ?_ entryStep_kept
    refine Kept.upd ?_
    assumption

theorem execWcbFlush_kept {s : State} : Answers s (execWcbFlush s) := by
  unfold execWcbFlush
  refine Answers.next ?_
  exact flushWcb_kept

theorem armRepair_kept {s : State} {v : Word} : Kept s (armRepair s v) := by
  unfold armRepair
  extract_lets rows₁ s₁ src₁
  clear_value rows₁
  have k_s₁ : Kept s s₁ := by
    exact State.setFld_kept
  clear_value s₁
  refine Kept.ite ?_ ?_
  · exact State.setFld_kept
  · refine Kept.ite ?_ ?_
    · exact refuse_kept
    · refine Kept.upd ?_
      assumption

theorem execHpprArm_kept {v : Word} {s : State} : Answers s (execHpprArm v s) := by
  unfold execHpprArm
  refine Answers.next ?_
  exact armRepair_kept

theorem startLoopback_kept {s : State} {v : Word} : Kept s (startLoopback s v) := by
  unfold startLoopback
  extract_lets stack₁ running₁ s₁
  clear_value stack₁ running₁
  have k_s₁ : Kept s s₁ := by
    exact Kept.trans State.setFld_kept State.setFld_kept
  clear_value s₁
  refine Kept.ite ?_ ?_
  · refine Kept.ite ?_ ?_
    · exact Kept.refl _
    · exact State.setFld_kept
  · refine Kept.ite ?_ ?_
    · exact refuse_kept
    · refine Kept.trans ?_ State.setFld_kept
      assumption

theorem execLoopbackStart_kept {v : Word} {s : State} : Answers s (execLoopbackStart v s) := by
  unfold execLoopbackStart
  refine Answers.next ?_
  exact startLoopback_kept

end Sys2Proof.Machine
end

