-- ==== Sys2Proof/Laws/KeptPower.lean ====
section
/-! SUPPORT. The definitions of Machine/Power.lean keep the queue and the canonical form. -/
set_option Elab.async false
namespace Sys2Proof.Machine

theorem noteMin_kept {s : State} {d v : Nat} : Kept s (noteMin s d v) := by
  unfold noteMin
  refine Kept.ite ?_ ?_
  · exact Kept.trans State.setFld_kept State.setReg64_kept
  · exact Kept.refl _

theorem addTrip_kept {s : State} {kind code p0 p1 p2 evtSeq : Nat} {isOpen : Bool} : Kept s (addTrip s kind code p0 p1 p2 evtSeq isOpen) := by
  unfold addTrip
  extract_lets seq₁ r₁ src₁
  clear_value seq₁ r₁
  refine Kept.ite ?_ ?_
  · exact Kept.refl _
  · exact Kept.upd (Kept.refl _)

theorem wipeMain_kept {s : State} : Kept s (wipeMain s) := by
  unfold wipeMain
  extract_lets lease a1 a2 a3 a4 a5 a6 s1 s2 s3 s4 s5 s6
  have h1 : Kept s s1 := ⟨rfl, fun w => {
    regs := SMap.filter_wf _ w.regs
    listed := fun e he => w.listed e (List.mem_of_mem_filter he)
    tiles := SMap.map_wf _ w.tiles
    tile := fun e he => by
      obtain ⟨x, _, rfl⟩ := List.mem_map.1 he
      exact Tile.init_wf
    shadow := w.shadow
    stack := rfl }⟩
  clear_value s1
  have h2 : Kept s s2 := h1.trans State.setFld_kept
  have h3 : Kept s s3 := h2.trans (State.setFld_kept.trans State.setFld_kept)
  have h4 : Kept s s4 := h3.trans (State.setFld_kept.trans State.setReg_kept)
  have h5 : Kept s s5 := h4.trans State.resetRegs_kept
  have h6 : Kept s s6 := Kept.foldl (fun _ _ => State.setFld_kept) (h5.trans State.setFld_kept)
  exact h6.trans setSignal_kept

theorem finishRemoval_kept {s : State} {r : Removal} : Kept s (finishRemoval s r) := by
  unfold finishRemoval
  extract_lets s₁ src₁ src₂ s₂
  have k_s₁ : Kept s s₁ := by
    exact Kept.trans State.setMs_kept State.setFld_kept
  clear_value s₁
  have k_s₂ : Kept s s₂ := by
    refine Kept.upd ?_
    assumption
  clear_value s₂
  refine Kept.trans ?_ setAlert_kept
  refine Kept.trans ?_ recordEvent_kept
  assumption

theorem afterOff_kept {s : State} : Kept s (afterOff s) := by
  unfold afterOff
  split
  · exact finishRemoval_kept
  · refine Kept.ite ?_ ?_
    · exact Kept.refl _
    · exact Kept.trans State.setMs_kept State.setFld_kept

theorem State.setPs_kept {s : State} {v : Nat} : Kept s (State.setPs s v) := by
  unfold State.setPs
  exact State.setFld_kept

theorem offState_kept {s : State} {lock : Bool} : Kept s (offState s lock) := by
  unfold offState
  extract_lets s₁ src₁
  have k_s₁ : Kept s s₁ := by
    exact Kept.trans State.setPs_kept State.setFld_kept
  clear_value s₁
  refine Kept.ite ?_ ?_
  · refine Kept.upd ?_
    assumption
  · exact State.setPs_kept

theorem loseMain_kept {s : State} {code p0 p1 p2 : Nat} {lock : Bool} : Kept s (loseMain s code p0 p1 p2 lock) := by
  unfold loseMain
  extract_lets seq₁ s₁
  clear_value seq₁
  have k_s₁ : Kept s s₁ := by
    exact Kept.trans recordEvent_kept addTrip_kept
  clear_value s₁
  refine Kept.trans ?_ afterOff_kept
  refine Kept.trans ?_ offState_kept
  refine Kept.trans ?_ wipeMain_kept
  assumption

theorem shedMain_kept {s : State} : Kept s (shedMain s) := by
  unfold shedMain
  extract_lets f₁
  have k_f₁2 : Kept s f₁.2 := by
    exact State.takeFree_kept
  clear_value f₁
  refine Kept.trans ?_ loseMain_kept
  assumption

theorem eraseTrips_kept {s : State} : Kept s (eraseTrips s) := by
  unfold eraseTrips
  extract_lets n₁ src₁
  clear_value n₁
  refine Kept.ite ?_ ?_
  · exact Kept.refl _
  · refine Kept.trans ?_ recordEvent_kept
    exact Kept.upd (Kept.refl _)

theorem tryEnable_kept {s : State} {waited : Bool} : Kept s (tryEnable s waited) := by
  unfold tryEnable
  extract_lets s₁ src₁
  have k_s₁ : Kept s s₁ := by
    exact Kept.trans eraseTrips_kept State.setPs_kept
  clear_value s₁
  refine Kept.ite ?_ ?_
  · refine Kept.upd ?_
    assumption
  · exact Kept.refl _

theorem haltStart_kept {s : State} {step cause : Nat} : Kept s (haltStart s step cause) := by
  unfold haltStart
  extract_lets s₁
  have k_s₁ : Kept s s₁ := by
    exact Kept.trans (Kept.trans State.setMs_kept State.setFld_kept) State.setFld_kept
  clear_value s₁
  refine Kept.trans ?_ recordEvent_kept
  assumption

theorem failUp_kept {s : State} {step domain volts : Nat} : Kept s (failUp s step domain volts) := by
  unfold failUp
  extract_lets s₁
  have k_s₁ : Kept s s₁ := by
    exact recordEvent_kept
  clear_value s₁
  refine Kept.trans ?_ haltStart_kept
  refine Kept.trans ?_ offState_kept
  refine Kept.trans ?_ wipeMain_kept
  assumption

theorem execPresenceMade_kept {s : State} : Answers s (execPresenceMade s) := by
  unfold execPresenceMade
  refine Answers.next ?_
  exact Kept.trans (Kept.trans setSignal_kept setSignal_kept) tryEnable_kept

theorem mainGone_kept {s : State} : Kept s (mainGone s) := by
  unfold mainGone
  extract_lets src₁
  exact Kept.upd (Kept.refl _)

theorem execPresenceLost_kept {volts : Nat} {s : State} : Answers s (execPresenceLost volts s) := by
  unfold execPresenceLost
  extract_lets s₁
  have k_s₁ : Kept s s₁ := by
    exact Kept.trans (Kept.trans setSignal_kept setSignal_kept) mainGone_kept
  clear_value s₁
  refine Answers.ite ?_ ?_
  · refine Answers.next ?_
    refine Kept.trans ?_ loseMain_kept
    assumption
  · refine Answers.next ?_
    assumption

theorem execBulkCharged_kept {volts time : Nat} {s : State} : Answers s (execBulkCharged volts time s) := by
  unfold execBulkCharged
  extract_lets s₁ s₂ src₁
  have k_s₁ : Kept s s₁ := by
    exact tryEnable_kept
  clear_value s₁
  have k_s₂ : Kept s s₂ := by
    refine Kept.trans ?_ State.setPs_kept
    assumption
  clear_value s₂
  refine Answers.ite ?_ ?_
  · refine Answers.next ?_
    assumption
  · refine Answers.next ?_
    refine Kept.upd ?_
    assumption

theorem execChargeTimeout_kept {volts : Nat} {s : State} : Answers s (execChargeTimeout volts s) := by
  unfold execChargeTimeout
  extract_lets s₁
  have k_s₁ : Kept s s₁ := by
    exact tryEnable_kept
  clear_value s₁
  refine Answers.ite ?_ ?_
  · refine Answers.next ?_
    assumption
  · refine Answers.next ?_
    refine Kept.trans ?_ failUp_kept
    assumption

theorem clusterOn_kept {s : State} {ci : Nat} : Kept s (clusterOn s ci) := by
  unfold clusterOn
  extract_lets a₁ two₁ s₁
  clear_value a₁ two₁
  have k_s₁ : Kept s s₁ := by
    unfold s₁
    refine Kept.ite ?_ ?_
    · exact Kept.refl _
    · exact State.setFld_kept
  clear_value s₁
  refine Kept.trans ?_ State.setCl_kept
  refine Kept.trans ?_ State.setFld_kept
  assumption

theorem deferOn_kept {s : State} {d cause : Nat} : Kept s (deferOn s d cause) := by
  unfold deferOn
  extract_lets since₁ src₁
  clear_value since₁
  exact Kept.upd (Kept.refl _)

theorem waveUp_kept {s : State} {w : Nat} {deferred : List (Nat × Nat)} : Kept s (waveUp s w deferred) := by
  unfold waveUp
  refine Kept.foldl ?_ ?_
  · intro x1 x2
    split
    · exact Kept.trans State.setCl_kept deferOn_kept
    · exact clusterOn_kept
  · exact Kept.refl _

theorem mainUp_kept {s : State} : Kept s (mainUp s) := by
  unfold mainUp
  extract_lets s₁ src₁ s₂
  have k_s₁ : Kept s s₁ := by
    exact Kept.trans State.setPs_kept setSignal_kept
  clear_value s₁
  have k_s₂ : Kept s s₂ := by
    refine Kept.upd ?_
    assumption
  clear_value s₂
  refine Kept.trans ?_ recordEvent_kept
  assumption

theorem execPowerUpStepDone_kept {converters : Nat} {deferred : List (Nat × Nat)} {s : State} : Answers s (execPowerUpStepDone converters deferred s) := by
  unfold execPowerUpStepDone
  extract_lets s₁ f₁ src₁ src₂ s₂ src₃
  have k_s₁ : Kept s s₁ := by
    exact State.setFld_kept
  clear_value s₁
  have k_f₁2 : Kept s f₁.2 := by
    refine Kept.trans ?_ State.takeFree_kept
    assumption
  clear_value f₁
  have k_s₂ : Kept s s₂ := by
    exact waveUp_kept
  clear_value s₂
  refine Answers.ite ?_ ?_
  · exact Answers.next (Kept.refl _)
  · refine Answers.ite ?_ ?_
    · refine Answers.ite ?_ ?_
      · refine Answers.next ?_
        refine Kept.trans ?_ failUp_kept
        assumption
      · refine Answers.next ?_
        refine Kept.upd ?_
        assumption
    · refine Answers.ite ?_ ?_
      · refine Answers.next ?_
        exact Kept.upd (Kept.refl _)
      · refine Answers.ite ?_ ?_
        · exact Answers.next (Kept.refl _)
        · refine Answers.ite ?_ ?_
          · refine Answers.next ?_
            refine Kept.trans ?_ mainUp_kept
            assumption
          · refine Answers.next ?_
            refine Kept.upd ?_
            assumption

theorem execSeqTimeout_kept {domain volts : Nat} {s : State} : Answers s (execSeqTimeout domain volts s) := by
  unfold execSeqTimeout
  refine Answers.ite ?_ ?_
  · exact Answers.next (Kept.refl _)
  · refine Answers.ite ?_ ?_
    · refine Answers.next ?_
      exact makeDark_kept
    · refine Answers.next ?_
      exact failUp_kept

theorem execMainLost_kept {kind : LossKind} {s : State} : Answers s (execMainLost kind s) := by
  unfold execMainLost
  refine Answers.ite ?_ ?_
  · exact Answers.next (Kept.refl _)
  · split
    · refine Answers.next ?_
      exact Kept.trans mainGone_kept loseMain_kept
    · refine Answers.next ?_
      exact loseMain_kept
    · refine Answers.next ?_
      exact loseMain_kept

theorem execInputOutOfEnvelope_kept {entering : Bool} {volts : Nat} {s : State} : Answers s (execInputOutOfEnvelope entering volts s) := by
  unfold execInputOutOfEnvelope
  refine Answers.ite ?_ ?_
  · exact Answers.next (Kept.refl _)
  · refine Answers.next ?_
    exact Kept.trans State.setBit_kept recordEvent_kept

theorem reenterStart_kept {s : State} : Kept s (reenterStart s) := by
  unfold reenterStart
  extract_lets s₁ s₂ src₁
  have k_s₁ : Kept s s₁ := by
    exact Kept.trans (Kept.trans State.setMs_kept State.setFld_kept) State.setFld_kept
  clear_value s₁
  have k_s₂ : Kept s s₂ := by
    refine Kept.trans ?_ State.setFld_kept
    assumption
  clear_value s₂
  refine Kept.trans ?_ tryEnable_kept
  refine Kept.upd ?_
  assumption

theorem mainBack_kept {s : State} : Kept s (mainBack s) := by
  unfold mainBack
  extract_lets src₁ src₂
  refine Kept.ite ?_ ?_
  · exact Kept.refl _
  · exact Kept.upd (Kept.refl _)

theorem execMainRestart_kept {s : State} : Answers s (execMainRestart s) := by
  unfold execMainRestart
  extract_lets s₁
  have k_s₁ : Kept s s₁ := by
    exact mainBack_kept
  clear_value s₁
  refine Answers.ite ?_ ?_
  · refine Answers.next ?_
    refine Kept.trans ?_ reenterStart_kept
    assumption
  · refine Answers.next ?_
    assumption

theorem mainRetry_kept {s : State} : Kept s (mainRetry s) := by
  unfold mainRetry
  extract_lets recent₁ src₁ s₁ s₂
  clear_value recent₁
  have k_s₁ : Kept s s₁ := by
    exact Kept.upd (Kept.refl _)
  clear_value s₁
  have k_s₂ : Kept s s₂ := by
    refine Kept.trans ?_ State.setFld_kept
    refine Kept.trans ?_ State.setFld_kept
    assumption
  clear_value s₂
  refine Kept.ite ?_ ?_
  · exact refuse_kept
  · refine Kept.trans ?_ reenterStart_kept
    refine Kept.trans ?_ State.setPs_kept
    assumption

theorem execMainRetry_kept {s : State} : Answers s (execMainRetry s) := by
  unfold execMainRetry
  refine Answers.next ?_
  exact mainRetry_kept

theorem dropRound_kept {s : State} : Kept s (dropRound s) := by
  unfold dropRound
  extract_lets bs₁ s₁
  clear_value bs₁
  have k_s₁ : Kept s s₁ := by
    refine Kept.foldl ?_ ?_
    · intro x1 x2
      exact dropBatch_kept
    · exact Kept.refl _
  clear_value s₁
  refine Kept.foldl ?_ ?_
  · intro x3 x4
    exact abandonTile_kept
  · assumption

theorem powerDown_kept {s : State} : Kept s (powerDown s) := by
  unfold powerDown
  extract_lets s₁ src₁ src₂ s₂
  have k_s₁ : Kept s s₁ := by
    exact Kept.trans (Kept.trans saveState_kept dropRound_kept) setSignal_kept
  clear_value s₁
  have k_src₁ : Kept s src₁ := by
    refine Kept.trans ?_ State.setPs_kept
    assumption
  clear_value src₁
  have k_s₂ : Kept s s₂ := by
    refine Kept.upd ?_
    assumption
  clear_value s₂
  refine Kept.trans ?_ State.setFld_kept
  assumption

theorem mainOff_kept {s : State} : Kept s (mainOff s) := by
  unfold mainOff
  refine Kept.ite ?_ ?_
  · exact powerDown_kept
  · exact Kept.refl _

theorem execMainOff_kept {s : State} : Answers s (execMainOff s) := by
  unfold execMainOff
  refine Answers.next ?_
  exact mainOff_kept

theorem execPowerDownStepDone_kept {s : State} : Answers s (execPowerDownStepDone s) := by
  unfold execPowerDownStepDone
  extract_lets w₁ s₁ src₁ src₂
  clear_value w₁
  have k_s₁ : Kept s s₁ := by
    refine Kept.foldl ?_ ?_
    · intro x1 x2
      exact State.setReg_kept
    · exact Kept.refl _
  clear_value s₁
  refine Answers.ite ?_ ?_
  · exact Answers.next (Kept.refl _)
  · refine Answers.ite ?_ ?_
    · refine Answers.ite ?_ ?_
      · refine Answers.next ?_
        refine Kept.upd ?_
        assumption
      · refine Answers.next ?_
        refine Kept.upd ?_
        assumption
    · refine Answers.ite ?_ ?_
      · refine Answers.next ?_
        exact Kept.upd (Kept.refl _)
      · refine Answers.next ?_
        exact Kept.trans (Kept.trans wipeMain_kept State.setPs_kept) afterOff_kept

theorem beginStart_kept {s : State} : Kept s (beginStart s) := by
  unfold beginStart
  extract_lets s₁ s₂ src₁
  have k_s₁ : Kept s s₁ := by
    exact Kept.trans (Kept.trans State.setMs_kept State.setFld_kept) State.setFld_kept
  clear_value s₁
  have k_s₂ : Kept s s₂ := by
    refine Kept.trans ?_ State.setFld_kept
    assumption
  clear_value s₂
  refine Kept.upd ?_
  assumption

theorem execAuxValid_kept {volts : Nat} {s : State} : Answers s (execAuxValid volts s) := by
  unfold execAuxValid
  extract_lets src₁ src₂ s₁
  have k_s₁ : Kept s s₁ := by
    exact Kept.upd (Kept.refl _)
  clear_value s₁
  refine Answers.ite ?_ ?_
  · refine Answers.next ?_
    refine Kept.trans ?_ beginStart_kept
    exact Kept.upd (Kept.refl _)
  · refine Answers.ite ?_ ?_
    · refine Answers.next ?_
      refine Kept.trans ?_ tryEnable_kept
      refine Kept.trans ?_ setAlert_kept
      refine Kept.trans ?_ recordEvent_kept
      refine Kept.trans ?_ State.setBit_kept
      assumption
    · refine Answers.next ?_
      exact tryEnable_kept

theorem execAuxFallback_kept {volts : Nat} {s : State} : Answers s (execAuxFallback volts s) := by
  unfold execAuxFallback
  extract_lets src₁ s₁
  have k_s₁ : Kept s s₁ := by
    exact Kept.upd (Kept.refl _)
  clear_value s₁
  refine Answers.ite ?_ ?_
  · exact Answers.next (Kept.refl _)
  · refine Answers.next ?_
    refine Kept.trans ?_ setAlert_kept
    refine Kept.trans ?_ recordEvent_kept
    refine Kept.trans ?_ State.setBit_kept
    assumption

theorem Kept.cleared {s t : State} {mesh stm sup evt plan trust sage client fab tb ptp ctl link pwr thm boot card fuses bist mgmt
    out now free} (h : Kept s t)
    (m : SMap.wf t.stm.mem = true → SMap.wf stm.mem = true := by exact fun h => h) : Kept s (State.mk [] [] t.tiles mesh stm sup evt plan trust sage client fab tb ptp ctl link pwr thm boot
    card fuses bist mgmt out now free t.pending) :=
  ⟨h.queue, fun w => let k := h.form w; ⟨rfl, by simp, k.tiles, k.tile, rfl, m k.stack⟩⟩

theorem execAuxLost_kept {s : State} : Answers s (execAuxLost s) := by
  unfold execAuxLost
  exact Answers.next (Kept.cleared wipeMain_kept)

theorem execConverterFailed_kept {k : Nat} {s : State} : Answers s (execConverterFailed k s) := by
  unfold execConverterFailed
  extract_lets s₁ n₁ s₂
  have k_s₁ : Kept s s₁ := by
    exact Kept.trans State.setFld_kept lowerCaps_kept
  clear_value s₁ n₁
  have k_s₂ : Kept s s₂ := by
    refine Kept.trans ?_ recordEvent_kept
    assumption
  clear_value s₂
  refine Answers.ite ?_ ?_
  · exact Answers.next (Kept.refl _)
  · refine Answers.ite ?_ ?_
    · refine Answers.next ?_
      refine Kept.trans ?_ shedMain_kept
      assumption
    · refine Answers.next ?_
      assumption

theorem execPhaseFailed_kept {cluster phase : Nat} {s : State} : Answers s (execPhaseFailed cluster phase s) := by
  unfold execPhaseFailed
  extract_lets a₁ s₁ n₁ s₂
  clear_value a₁
  have k_s₁ : Kept s s₁ := by
    exact State.setFld_kept
  clear_value s₁ n₁
  have k_s₂ : Kept s s₂ := by
    refine Kept.trans ?_ State.setFld_kept
    refine Kept.trans ?_ State.setCl_kept
    assumption
  clear_value s₂
  refine Answers.ite ?_ ?_
  · exact Answers.next (Kept.refl _)
  · refine Answers.ite ?_ ?_
    · refine Answers.next ?_
      refine Kept.trans ?_ makeDark_kept
      assumption
    · refine Answers.next ?_
      refine Kept.trans ?_ recordEvent_kept
      assumption

theorem execDieRegTied_kept {cluster rail : Nat} {s : State} : Answers s (execDieRegTied cluster rail s) := by
  unfold execDieRegTied
  extract_lets p₁ src₁ s₁ s₂
  clear_value p₁
  have k_s₁ : Kept s s₁ := by
    exact Kept.upd (Kept.refl _)
  clear_value s₁
  have k_s₂ : Kept s s₂ := by
    refine Kept.trans ?_ State.setFld_kept
    assumption
  clear_value s₂
  refine Answers.ite ?_ ?_
  · exact Answers.next (Kept.refl _)
  · refine Answers.ite ?_ ?_
    · refine Answers.next ?_
      refine Kept.trans ?_ makeDark_kept
      refine Kept.trans ?_ makeDark_kept
      assumption
    · refine Answers.next ?_
      refine Kept.trans ?_ recordEvent_kept
      assumption

theorem stackOffline_kept {s : State} {k : Nat} : Kept s (stackOffline s k) := by
  unfold stackOffline
  extract_lets s₁ src₁
  have k_s₁ : Kept s s₁ := by
    exact Kept.trans State.setFld_kept recordEvent_kept
  clear_value s₁
  refine Kept.ite ?_ ?_
  · exact Kept.refl _
  · refine Kept.upd ?_
    assumption

theorem execRailFault_kept {domain volts : Nat} {s : State} : Answers s (execRailFault domain volts s) := by
  unfold execRailFault
  refine Answers.ite ?_ ?_
  · exact Answers.next (Kept.refl _)
  · refine Answers.ite ?_ ?_
    · refine Answers.next ?_
      exact Kept.trans (Kept.trans noteMin_kept recordEvent_kept) stackOffline_kept
    · refine Answers.ite ?_ ?_
      · refine Answers.next ?_
        exact Kept.trans (Kept.trans noteMin_kept recordEvent_kept) shedMain_kept
      · exact Answers.next (Kept.refl _)

theorem execDomainUv_kept {cluster volts duration : Nat} {s : State} : Answers s (execDomainUv cluster volts duration s) := by
  unfold execDomainUv
  extract_lets s₁ l₁ src₁ s₂
  have k_s₁ : Kept s s₁ := by
    exact Kept.trans (Kept.trans noteMin_kept dropCluster_kept) recordEvent_kept
  clear_value s₁ l₁
  have k_s₂ : Kept s s₂ := by
    refine Kept.upd ?_
    assumption
  clear_value s₂
  refine Answers.ite ?_ ?_
  · exact Answers.next (Kept.refl _)
  · refine Answers.ite ?_ ?_
    · refine Answers.next ?_
      refine Kept.trans ?_ makeDark_kept
      assumption
    · refine Answers.next ?_
      refine Kept.trans ?_ deferOn_kept
      refine Kept.trans ?_ State.setCl_kept
      assumption

theorem execSwitchOnRecheck_kept {domain headroom : Nat} {neighbourPeak : Bool} {s : State} : Answers s (execSwitchOnRecheck domain headroom neighbourPeak s) := by
  unfold execSwitchOnRecheck
  extract_lets src₁ s₁ s₂
  have k_s₁ : Kept s s₁ := by
    exact Kept.upd (Kept.refl _)
  clear_value s₁
  have k_s₂ : Kept s s₂ := by
    unfold s₂
    refine Kept.ite ?_ ?_
    · refine Kept.trans ?_ clusterOn_kept
      assumption
    · assumption
  clear_value s₂
  split
  · exact Answers.next (Kept.refl _)
  · refine Answers.ite ?_ ?_
    · refine Answers.next ?_
      exact deferOn_kept
    · refine Answers.ite ?_ ?_
      · refine Answers.next ?_
        exact deferOn_kept
      · refine Answers.ite ?_ ?_
        · refine Answers.next ?_
          refine Kept.trans ?_ recordEvent_kept
          assumption
        · refine Answers.next ?_
          assumption

theorem execSenseFault_kept {domain : Nat} {s : State} : Answers s (execSenseFault domain s) := by
  unfold execSenseFault
  extract_lets src₁
  refine Answers.ite ?_ ?_
  · exact Answers.next (Kept.refl _)
  · refine Answers.next ?_
    refine Kept.trans ?_ recordEvent_kept
    exact Kept.upd (Kept.refl _)

theorem execSenseRestored_kept {domain : Nat} {s : State} : Answers s (execSenseRestored domain s) := by
  unfold execSenseRestored
  extract_lets src₁ s₁ src₂ src₃
  have k_s₁ : Kept s s₁ := by
    refine Kept.trans ?_ recordEvent_kept
    exact Kept.upd (Kept.refl _)
  clear_value s₁
  have k_src₂ : Kept s src₂ := by
    refine Kept.trans ?_ State.setCl_kept
    assumption
  clear_value src₂
  refine Answers.ite ?_ ?_
  · exact Answers.next (Kept.refl _)
  · refine Answers.ite ?_ ?_
    · refine Answers.next ?_
      refine Kept.trans ?_ deferOn_kept
      refine Kept.upd ?_
      assumption
    · refine Answers.next ?_
      assumption

theorem clearDomain_kept {s : State} {domain : Nat} : Kept s (clearDomain s domain) := by
  unfold clearDomain
  refine Kept.ite ?_ ?_
  · exact Kept.refl _
  · exact Kept.trans State.setFld_kept State.setReg64_kept

theorem execPwrDomClr_kept {domain : Nat} {s : State} : Answers s (execPwrDomClr domain s) := by
  unfold execPwrDomClr
  refine Answers.next ?_
  exact clearDomain_kept

end Sys2Proof.Machine
end

