-- ==== Sys2Proof/Laws/KeptThermal.lean ====
section
/-! SUPPORT. The definitions of Machine/Thermal.lean keep the queue and the canonical form. -/
set_option Elab.async false
namespace Sys2Proof.Machine

theorem excludeDiode_kept {s : State} {spot d : Nat} : Kept s (excludeDiode s spot d) := by
  unfold excludeDiode
  extract_lets a₁ s₁
  clear_value a₁
  have k_s₁ : Kept s s₁ := by
    exact State.setFld_kept
  clear_value s₁
  refine Kept.ite ?_ ?_
  · exact Kept.refl _
  · refine Kept.trans ?_ recordEvent_kept
    assumption

theorem countMark_kept {s : State} {spot d : Nat} {note : State → State} (h : ∀ x, Kept x (note x)) :
    Kept s (countMark s spot d note) := by
  unfold countMark
  extract_lets k l src s1 s2
  have h1 : Kept s s1 := Kept.upd (Kept.refl _)
  have h2 : Kept s s2 := (h1.trans State.setFld_kept).trans (h _)
  exact Kept.ite h2 (h2.trans excludeDiode_kept)

theorem markDiode_kept {s : State} {spot d : Nat} {a b : Int} : Kept s (markDiode s spot d a b) := by
  unfold markDiode
  extract_lets k₁ src₁
  clear_value k₁
  refine Kept.ite ?_ ?_
  · exact Kept.refl _
  · refine Kept.trans ?_ (countMark_kept ?_)
    · exact Kept.upd (Kept.refl _)
    · intro x1
      exact recordEvent_kept

theorem noteAgree_kept {s : State} {spot : Nat} {agrees : Bool} : Kept s (noteAgree s spot agrees) := by
  unfold noteAgree
  extract_lets src₁
  refine Kept.ite ?_ ?_
  · exact Kept.upd (Kept.refl _)
  · split
    · exact Kept.upd (Kept.refl _)
    · refine Kept.ite ?_ ?_
      · exact Kept.refl _
      · exact Kept.upd (Kept.refl _)

theorem capCluster_kept {s : State} {spot : Nat} {event : Bool} {top m : Rat} : Kept s (capCluster s spot event top m) := by
  unfold capCluster
  extract_lets ci₁ first₁ src₁ s₁ s₂
  clear_value ci₁ first₁
  have k_s₁ : Kept s s₁ := by
    exact Kept.upd (Kept.refl _)
  clear_value s₁
  have k_s₂ : Kept s s₂ := by
    refine Kept.trans ?_ State.setFld_kept
    assumption
  clear_value s₂
  refine Kept.ite ?_ ?_
  · refine Kept.trans ?_ recordEvent_kept
    assumption
  · assumption

theorem spotStep_kept {s : State} {k spot : Nat} {x : Int × Int} : Kept s (spotStep s k spot x) := by
  unfold spotStep
  extract_lets reg₁ m₁ a₁ b₁ m'2_60_4 c₁ s₁ s₂ src₁ s₃ ci₁ t₁ src₂ s₄
  clear_value reg₁ m₁ a₁ b₁ m'2_60_4 c₁
  have k_s₁ : Kept s s₁ := by
    exact noteAgree_kept
  clear_value s₁
  have k_s₂ : Kept s s₂ := by
    unfold s₂
    split
    · refine Kept.trans ?_ markDiode_kept
      assumption
    · assumption
  clear_value s₂
  have k_s₃ : Kept s s₃ := by
    unfold s₃
    refine Kept.ite ?_ ?_
    · refine Kept.trans ?_ capCluster_kept
      assumption
    · refine Kept.upd ?_
      assumption
  clear_value s₃ ci₁ t₁
  have k_s₄ : Kept s s₄ := by
    refine Kept.upd ?_
    assumption
  clear_value s₄
  refine Kept.trans ?_ State.setFld_kept
  refine Kept.trans ?_ State.setFld_kept
  assumption

theorem stackStep_kept {s : State} {k : Nat} {t : Int} : Kept s (stackStep s k t) := by
  unfold stackStep
  extract_lets m₁ x₁ src₁ s₁
  clear_value m₁ x₁
  have k_s₁ : Kept s s₁ := by
    exact Kept.upd (Kept.refl _)
  clear_value s₁
  refine Kept.trans ?_ State.setFld_kept
  refine Kept.trans ?_ State.setFld_kept
  assumption

theorem modelStep_kept {s : State} {diodes : List (Int × Int)} {sensors : List Int} {powers : List Nat} : Kept s (modelStep s diodes sensors powers) := by
  unfold modelStep
  extract_lets k₁ s₁ p₁ src₁ s₂ s₃
  clear_value k₁
  have k_s₁ : Kept s s₁ := by
    exact State.takeFree_kept
  clear_value s₁ p₁
  have k_s₂ : Kept s s₂ := by
    refine Kept.upd ?_
    assumption
  clear_value s₂
  have k_s₃ : Kept s s₃ := by
    refine Kept.foldl ?_ ?_
    · intro x1 x2
      exact spotStep_kept
    · assumption
  clear_value s₃
  refine Kept.foldl ?_ ?_
  · intro x3 x4
    exact stackStep_kept
  · assumption

theorem noteThrottle_kept {s : State} {key place part : Nat} {v : Rat} {inside : Bool} : Kept s (noteThrottle s key place part v inside) := by
  unfold noteThrottle
  extract_lets src₁
  refine Kept.ite ?_ ?_
  · refine Kept.ite ?_ ?_
    · exact Kept.refl _
    · refine Kept.trans ?_ recordEvent_kept
      exact Kept.upd (Kept.refl _)
  · exact Kept.upd (Kept.refl _)

theorem setVset_kept {s : State} {ci v : Nat} : Kept s (setVset s ci v) := by
  unfold setVset
  exact State.setFld_kept

theorem stepVset_kept {s : State} {ci : Nat} : Kept s (stepVset s ci) := by
  unfold stepVset
  extract_lets f₁
  have k_f₁2 : Kept s f₁.2 := by
    exact State.takeFree_kept
  clear_value f₁
  refine Kept.trans ?_ setVset_kept
  assumption

theorem holdCluster_kept {s : State} {tooHot : Bool} {ci : Nat} : Kept s (holdCluster s tooHot ci) := by
  unfold holdCluster
  extract_lets die₁ lay₁ s₁ s₂ g₁ tied₁ src₁ s₃
  clear_value die₁ lay₁
  have k_s₁ : Kept s s₁ := by
    exact noteThrottle_kept
  clear_value s₁
  have k_s₂ : Kept s s₂ := by
    refine Kept.trans ?_ noteThrottle_kept
    assumption
  clear_value s₂ g₁ tied₁
  have k_s₃ : Kept s s₃ := by
    refine Kept.upd ?_
    assumption
  clear_value s₃
  refine Kept.ite ?_ ?_
  · assumption
  · refine Kept.ite ?_ ?_
    · refine Kept.trans ?_ setVset_kept
      assumption
    · refine Kept.ite ?_ ?_
      · refine Kept.trans ?_ stepVset_kept
        assumption
      · refine Kept.ite ?_ ?_
        · assumption
        · refine Kept.trans ?_ setVset_kept
          assumption

theorem holdStack_kept {s : State} {k : Nat} : Kept s (holdStack s k) := by
  unfold holdStack
  extract_lets v₁ s₁ r₁ src₁
  clear_value v₁
  have k_s₁ : Kept s s₁ := by
    exact noteThrottle_kept
  clear_value s₁ r₁
  refine Kept.upd ?_
  assumption

theorem State.setLastPower_kept {s : State} {h : Half} {v : Nat} : Kept s (State.setLastPower s h v) := by
  unfold State.setLastPower
  extract_lets src₁
  split
  · exact Kept.upd (Kept.refl _)
  · exact Kept.upd (Kept.refl _)

theorem noteShort_kept {s : State} {h : Half} {p : Nat} : Kept s (noteShort s h p) := by
  unfold noteShort
  extract_lets floor₁ s₁ s₂ src₁
  clear_value floor₁
  have k_s₁ : Kept s s₁ := by
    exact State.setLastPower_kept
  clear_value s₁
  have k_s₂ : Kept s s₂ := by
    refine Kept.trans ?_ State.setFld_kept
    assumption
  clear_value s₂
  refine Kept.ite ?_ ?_
  · refine Kept.ite ?_ ?_
    · assumption
    · refine Kept.trans ?_ recordEvent_kept
      refine Kept.upd ?_
      assumption
  · assumption

theorem divideCap_kept {s : State} {h : Half} : Kept s (divideCap s h) := by
  unfold divideCap
  extract_lets v₁ src₁
  clear_value v₁
  split
  · exact Kept.upd (Kept.refl _)
  · exact Kept.upd (Kept.refl _)

theorem raiseCap_kept {s : State} {h : Half} : Kept s (raiseCap s h) := by
  unfold raiseCap
  refine Kept.ite ?_ ?_
  · exact setCap_kept
  · exact Kept.refl _

theorem noteFatigue_kept {s : State} {ci : Nat} : Kept s (noteFatigue s ci) := by
  unfold noteFatigue
  extract_lets v₁ src₁
  clear_value v₁
  split
  · exact Kept.refl _
  · refine Kept.ite ?_ ?_
    · exact Kept.refl _
    · refine Kept.trans ?_ State.count_kept
      refine Kept.trans ?_ State.count_kept
      exact Kept.upd (Kept.refl _)

theorem holdLimits_kept {s : State} {powers : List Nat} : Kept s (holdLimits s powers) := by
  unfold holdLimits
  extract_lets pw₁ pe₁ s₁ s₂ s₃ overW₁ overE₁ s₄ s₅
  clear_value pw₁ pe₁
  have k_s₁ : Kept s s₁ := by
    exact Kept.trans noteShort_kept noteShort_kept
  clear_value s₁
  have k_s₂ : Kept s s₂ := by
    refine Kept.trans ?_ lowerCaps_kept
    refine Kept.trans ?_ raiseCap_kept
    refine Kept.trans ?_ raiseCap_kept
    assumption
  clear_value s₂
  have k_s₃ : Kept s s₃ := by
    refine Kept.trans ?_ divideCap_kept
    refine Kept.trans ?_ divideCap_kept
    assumption
  clear_value s₃ overW₁ overE₁
  have k_s₄ : Kept s s₄ := by
    refine Kept.foldl ?_ ?_
    · intro x1 x2
      exact holdCluster_kept
    · assumption
  clear_value s₄
  have k_s₅ : Kept s s₅ := by
    refine Kept.foldl ?_ ?_
    · intro x1 x2
      exact holdStack_kept
    · assumption
  clear_value s₅
  refine Kept.foldl ?_ ?_
  · intro x3 x4
    exact noteFatigue_kept
  · assumption

theorem tripThermal_kept {s : State} {place : Nat} {value : Int} : Kept s (tripThermal s place value) := by
  unfold tripThermal
  extract_lets s₁ seq₁ r₁ s₂ s₃ src₁ src₂ s₄ s₅
  have k_s₁ : Kept s s₁ := by
    exact Kept.trans setSignal_kept State.setTh_kept
  clear_value s₁ seq₁ r₁
  have k_s₂ : Kept s s₂ := by
    refine Kept.trans ?_ recordEvent_kept
    assumption
  clear_value s₂
  have k_s₃ : Kept s s₃ := by
    refine Kept.trans ?_ addTrip_kept
    assumption
  clear_value s₃
  have k_s₄ : Kept s s₄ := by
    refine Kept.upd ?_
    assumption
  clear_value s₄
  have k_s₅ : Kept s s₅ := by
    unfold s₅
    refine Kept.ite ?_ ?_
    · refine Kept.trans ?_ offState_kept
      refine Kept.trans ?_ wipeMain_kept
      assumption
    · assumption
  clear_value s₅
  refine Kept.ite ?_ ?_
  · exact Kept.refl _
  · refine Kept.trans ?_ afterOff_kept
    refine Kept.trans ?_ State.setFld_kept
    assumption

theorem execThermalModelStep_kept {diodes : List (Int × Int)} {sensors : List Int} {powers : List Nat} {s : State} : Answers s (execThermalModelStep diodes sensors powers s) := by
  unfold execThermalModelStep
  extract_lets s₁
  have k_s₁ : Kept s s₁ := by
    exact Kept.trans modelStep_kept holdLimits_kept
  clear_value s₁
  refine Answers.ite ?_ ?_
  · exact Answers.next (Kept.refl _)
  · split
    · refine Answers.next ?_
      refine Kept.trans ?_ tripThermal_kept
      refine Kept.trans ?_ State.takeFree_kept
      assumption
    · refine Answers.next ?_
      assumption

theorem execSpotGuardLift_kept {cluster : Nat} {s : State} : Answers s (execSpotGuardLift cluster s) := by
  unfold execSpotGuardLift
  extract_lets src₁ s₁
  have k_s₁ : Kept s s₁ := by
    exact Kept.upd (Kept.refl _)
  clear_value s₁
  refine Answers.ite ?_ ?_
  · refine Answers.next ?_
    refine Kept.trans ?_ State.setBit_kept
    assumption
  · exact Answers.next (Kept.refl _)

theorem execCapExceeded_kept {h : Half} {power : Nat} {s : State} : Answers s (execCapExceeded h power s) := by
  unfold execCapExceeded
  extract_lets excess₁ share₁ left₁ src₁ s₁
  clear_value excess₁ share₁ left₁
  have k_s₁ : Kept s s₁ := by
    unfold s₁
    split
    · exact Kept.upd (Kept.refl _)
    · exact Kept.upd (Kept.refl _)
  clear_value s₁
  refine Answers.ite ?_ ?_
  · exact Answers.next (Kept.refl _)
  · refine Answers.ite ?_ ?_
    · refine Answers.next ?_
      assumption
    · split
      · refine Answers.next ?_
        refine Kept.trans ?_ stepVset_kept
        assumption
      · refine Answers.next ?_
        assumption

theorem settleReduced_kept {s : State} : Kept s (settleReduced s) := by
  unfold settleReduced
  refine Kept.ite ?_ ?_
  · exact State.setTh_kept
  · exact Kept.refl _

theorem loseCoolant_kept {s : State} {trigger : Nat} : Kept s (loseCoolant s trigger) := by
  unfold loseCoolant
  extract_lets s₁ s₂ src₁ s₃ s₄
  have k_s₁ : Kept s s₁ := by
    exact Kept.trans (Kept.trans setSignal_kept State.setFld_kept) State.setTh_kept
  clear_value s₁
  have k_s₂ : Kept s s₂ := by
    refine Kept.trans ?_ recordEvent_kept
    assumption
  clear_value s₂
  have k_s₃ : Kept s s₃ := by
    refine Kept.trans ?_ lowerCaps_kept
    refine Kept.upd ?_
    assumption
  clear_value s₃
  have k_s₄ : Kept s s₄ := by
    unfold s₄
    refine Kept.ite ?_ ?_
    · refine Kept.trans ?_ State.setFld_kept
      refine Kept.trans ?_ dropRound_kept
      assumption
    · assumption
  clear_value s₄
  refine Kept.foldl ?_ ?_
  · intro x1 x2
    exact setVset_kept
  · assumption

theorem execCoolantSample_kept {flow : Nat} {inlet outlet : Int} {s : State} : Answers s (execCoolantSample flow inlet outlet s) := by
  unfold execCoolantSample
  extract_lets src₁ s₁ q₁ f₁ s₂ s₃ out₁ s₄ low₁ src₂ s₅ src₃ s₆
  have k_s₁ : Kept s s₁ := by
    exact Kept.upd (Kept.refl _)
  clear_value s₁ q₁ f₁
  have k_s₂ : Kept s s₂ := by
    refine Kept.trans ?_ State.setReg_kept
    assumption
  clear_value s₂
  have k_s₃ : Kept s s₃ := by
    refine Kept.trans ?_ State.setFld_kept
    refine Kept.trans ?_ State.setFld_kept
    assumption
  clear_value s₃ out₁
  have k_s₄ : Kept s s₄ := by
    unfold s₄
    refine Kept.ite ?_ ?_
    · assumption
    · refine Kept.trans ?_ recordEvent_kept
      refine Kept.trans ?_ State.setBit_kept
      assumption
  clear_value s₄ low₁
  have k_s₅ : Kept s s₅ := by
    unfold s₅
    refine Kept.ite ?_ ?_
    · assumption
    · refine Kept.trans ?_ recordEvent_kept
      refine Kept.upd ?_
      assumption
  clear_value s₅
  have k_s₆ : Kept s s₆ := by
    refine Kept.trans ?_ lowerCaps_kept
    refine Kept.trans ?_ settleReduced_kept
    refine Kept.upd ?_
    assumption
  clear_value s₆
  refine Answers.ite ?_ ?_
  · exact Answers.next (Kept.refl _)
  · refine Answers.ite ?_ ?_
    · split
      · refine Answers.next ?_
        refine Kept.trans ?_ loseCoolant_kept
        assumption
      · refine Answers.next ?_
        assumption
    · refine Answers.next ?_
      assumption

theorem execCoolantRestored_kept {s : State} : Answers s (execCoolantRestored s) := by
  unfold execCoolantRestored
  extract_lets s₁
  have k_s₁ : Kept s s₁ := by
    exact Kept.trans (Kept.trans (Kept.trans setSignal_kept State.setFld_kept) State.setTh_kept) settleReduced_kept
  clear_value s₁
  refine Answers.ite ?_ ?_
  · exact Answers.next (Kept.refl _)
  · refine Answers.next ?_
    refine Kept.trans ?_ recordEvent_kept
    assumption

theorem execThermalTrip_kept {place : Nat} {value : Int} {s : State} : Answers s (execThermalTrip place value s) := by
  unfold execThermalTrip
  refine Answers.ite ?_ ?_
  · exact Answers.next (Kept.refl _)
  · refine Answers.next ?_
    exact tripThermal_kept

theorem execTripHoldEnd_kept {s : State} : Answers s (execTripHoldEnd s) := by
  unfold execTripHoldEnd
  refine Answers.ite ?_ ?_
  · refine Answers.next ?_
    exact Kept.trans State.setTh_kept mainGone_kept
  · exact Answers.next (Kept.refl _)

theorem coolModel_kept {s : State} : Kept s (coolModel s) := by
  unfold coolModel
  extract_lets start₁ src₁
  clear_value start₁
  exact Kept.upd (Kept.refl _)

theorem clearTrip_kept {s : State} {node diode : Int} : Kept s (clearTrip s node diode) := by
  unfold clearTrip
  extract_lets t₁ src₁ src₂ s₁ s₂ s₃
  clear_value t₁
  have k_s₁ : Kept s s₁ := by
    exact Kept.upd (Kept.refl _)
  clear_value s₁
  have k_s₂ : Kept s s₂ := by
    refine Kept.trans ?_ settleReduced_kept
    refine Kept.trans ?_ State.setTh_kept
    refine Kept.trans ?_ setSignal_kept
    assumption
  clear_value s₂
  have k_s₃ : Kept s s₃ := by
    refine Kept.trans ?_ recordEvent_kept
    assumption
  clear_value s₃
  refine Kept.ite ?_ ?_
  · refine Kept.trans ?_ reenterStart_kept
    assumption
  · assumption

theorem execCooldownCheck_kept {diodes : List (Int × Int)} {s : State} : Answers s (execCooldownCheck diodes s) := by
  unfold execCooldownCheck
  extract_lets s₁ node₁ diode₁ src₁ src₂
  have k_s₁ : Kept s s₁ := by
    exact coolModel_kept
  clear_value s₁ node₁ diode₁
  have k_src₁ : Kept s src₁ := by
    refine Kept.trans ?_ State.takeFree_kept
    assumption
  clear_value src₁
  refine Answers.ite ?_ ?_
  · exact Answers.next (Kept.refl _)
  · split
    · refine Answers.next ?_
      refine Kept.trans ?_ clearTrip_kept
      assumption
    · refine Answers.ite ?_ ?_
      · refine Answers.next ?_
        refine Kept.trans ?_ recordEvent_kept
        refine Kept.upd ?_
        assumption
      · refine Answers.next ?_
        assumption

theorem execStateSave_kept {s : State} : Answers s (execStateSave s) := by
  unfold execStateSave
  refine Answers.ite ?_ ?_
  · refine Answers.next ?_
    exact saveState_kept
  · exact Answers.next (Kept.refl _)

end Sys2Proof.Machine
end

