-- ==== Sys2Proof/Laws/KeptStart.lean ====
section
/-! SUPPORT. The definitions of Machine/Start.lean keep the queue and the canonical form. -/
set_option Elab.async false
namespace Sys2Proof.Machine

theorem nextStep_kept {s : State} {k : Nat} : Kept s (nextStep s k) := by
  unfold nextStep
  extract_lets s₁ src₁
  have k_s₁ : Kept s s₁ := by
    exact State.setFld_kept
  clear_value s₁
  refine Kept.upd ?_
  assumption

theorem haltFree_kept {s : State} {step : Nat} : Kept s (haltFree s step) := by
  unfold haltFree
  extract_lets f₁
  have k_f₁2 : Kept s f₁.2 := by
    exact State.takeFree_kept
  clear_value f₁
  refine Kept.trans ?_ haltStart_kept
  assumption

theorem readFuses_kept {s : State} : Kept s (readFuses s) := by
  unfold readFuses
  extract_lets off₁ src₁ s₁
  clear_value off₁
  have k_s₁ : Kept s s₁ := by
    exact Kept.upd (Kept.refl _)
  clear_value s₁
  refine Kept.foldl ?_ ?_
  · intro x1 x2
    exact State.setReg_kept
  · assumption

theorem readyStandby_kept {s : State} {fusesOk : Bool} {digest : Option (List Nat)} : Kept s (readyStandby s fusesOk digest) := by
  unfold readyStandby
  extract_lets h₁ held₁ src₁ src₂
  clear_value h₁ held₁
  have k_src₁ : Kept s src₁ := by
    exact State.setFld_kept
  clear_value src₁
  split
  · refine Kept.ite ?_ ?_
    · refine Kept.upd ?_
      assumption
    · exact recordEvent_kept
  · exact recordEvent_kept

theorem endStep1_kept {s : State} {r : StartResult} : Kept s (endStep1 s r) := by
  unfold endStep1
  extract_lets s₁ a₁ b₁ good₁ s₂ f₁ svn₁ src₁ s₃ src₂ src₃
  have k_s₁ : Kept s s₁ := by
    exact readFuses_kept
  clear_value s₁ a₁ b₁ good₁
  have k_s₂ : Kept s s₂ := by
    refine Kept.trans ?_ readyStandby_kept
    assumption
  clear_value s₂
  have k_f₁2 : Kept s f₁.2 := by
    refine Kept.trans ?_ State.takeFree_kept
    assumption
  clear_value f₁
  have k_s₃ : Kept s s₃ := by
    refine Kept.upd ?_
    assumption
  clear_value s₃
  have k_src₂ : Kept s src₂ := by
    refine Kept.trans ?_ State.setFld_kept
    assumption
  clear_value src₂
  refine Kept.ite ?_ ?_
  · refine Kept.trans ?_ haltFree_kept
    refine Kept.trans ?_ recordEvent_kept
    assumption
  · extract_lets
    split
    · refine Kept.trans ?_ nextStep_kept
      refine Kept.upd ?_
      assumption
    · extract_lets s₄ src₄ src₅
      have k_s₄ : Kept s s₄ := by
        refine Kept.trans ?_ recordEvent_kept
        assumption
      clear_value s₄
      have k_src₄ : Kept s src₄ := by
        refine Kept.trans ?_ State.setFld_kept
        assumption
      clear_value src₄
      refine Kept.trans ?_ nextStep_kept
      refine Kept.upd ?_
      assumption
    · refine Kept.trans ?_ haltFree_kept
      refine Kept.trans ?_ recordEvent_kept
      assumption

theorem loadImage_kept {s : State} {slot : Nat} {c : Container} : Kept s (loadImage s slot c) := by
  unfold loadImage
  extract_lets s₁ len₁ s₂ fld₁ other₁ src₁ s₃ s₄
  have k_s₁ : Kept s s₁ := by
    refine Kept.foldl ?_ ?_
    · intro x1 x2
      split
      · exact State.setReg_kept
      · exact Kept.refl _
    · exact Kept.refl _
  clear_value s₁ len₁
  have k_s₂ : Kept s s₂ := by
    unfold s₂
    refine Kept.ite ?_ ?_
    · assumption
    · refine Kept.trans ?_ recordEvent_kept
      refine Kept.trans ?_ State.setFld_kept
      assumption
  clear_value s₂ other₁
  have k_s₃ : Kept s s₃ := by
    refine Kept.upd ?_
    assumption
  clear_value s₃
  have k_s₄ : Kept s s₄ := by
    refine Kept.trans ?_ State.setFld_kept
    refine Kept.trans ?_ State.setFld_kept
    assumption
  clear_value s₄
  refine Kept.trans ?_ recordEvent_kept
  refine Kept.trans ?_ State.setReg_kept
  assumption

theorem loadCal_kept {s : State} {c : Container} : Kept s (loadCal s c) := by
  unfold loadCal
  extract_lets s₁ src₁
  have k_s₁ : Kept s s₁ := by
    exact Kept.trans State.setBit_kept State.setReg_kept
  clear_value s₁
  refine Kept.upd ?_
  assumption

theorem pickLast_kept {s : State} {slot : Nat} {found : Except Bad Container} : Kept s (pickLast s slot found).1 := by
  unfold pickLast
  split
  · dsimp only
    exact Kept.refl _
  · dsimp only
    exact noteBad_kept

theorem pickFirst_kept {s : State} {slot other : Nat} {found : Except Bad Container} : Kept s (pickFirst s slot other found).1 := by
  unfold pickFirst
  split
  · dsimp only
    exact Kept.refl _
  · extract_lets s₁
    have k_s₁ : Kept s s₁ := by
      exact Kept.trans noteBad_kept recordEvent_kept
    clear_value s₁
    refine Kept.trans ?_ pickLast_kept
    assumption

theorem pickImage_kept {s : State} : Kept s (pickImage s).1 := by
  unfold pickImage
  extract_lets o₁
  clear_value o₁
  exact pickFirst_kept

theorem restage_kept {s : State} {l : List EventRec} : Kept s (restage s l) := by
  unfold restage
  extract_lets src₁
  exact Kept.upd (Kept.refl _)

theorem noteTakeover_kept {s : State} {takeover : Option (Nat × Nat)} : Kept s (noteTakeover s takeover) := by
  unfold noteTakeover
  split
  · exact Kept.refl _
  · exact recordEvent_kept

theorem scanLog_kept {s : State} {n : Nat} {takeover : Option (Nat × Nat)} : Kept s (scanLog s n takeover) := by
  unfold scanLog
  extract_lets m log staged mark cleared src s1 s2 first head s3
  refine Kept.ite ?_ ?_
  · have h1 : Kept s s1 := Kept.upd (Kept.refl _)
    exact ((h1.trans recordEvent_kept).trans noteTakeover_kept).trans restage_kept
  · have h3 : Kept s s3 := Kept.upd (Kept.refl _)
    exact ((h3.trans noteTakeover_kept).trans restage_kept).trans recordEvent_kept

theorem loadSaved_kept {s : State} {r : StartResult} : Kept s (loadSaved s r) := by
  unfold loadSaved
  extract_lets src₁ s₁
  have k_s₁ : Kept s s₁ := by
    exact Kept.upd (Kept.refl _)
  clear_value s₁
  split
  · refine Kept.trans ?_ recordEvent_kept
    assumption
  · extract_lets s₂
    have k_s₂ : Kept s s₂ := by
      refine Kept.trans ?_ State.setReg_kept
      assumption
    clear_value s₂
    refine Kept.foldl ?_ ?_
    · intro x1 x2
      exact State.setReg_kept
    · assumption

theorem loadRetired_kept {s : State} {bad : List Nat} : Kept s (loadRetired s bad) := by
  unfold loadRetired
  extract_lets src₁ s₁
  have k_s₁ : Kept s s₁ := by
    exact Kept.upd (Kept.refl _)
  clear_value s₁
  refine Kept.foldl ?_ ?_
  · intro x1 x2
    exact recordEvent_kept
  · assumption

theorem endCal_kept {s : State} {r : StartResult} {found : Except Bad Container} : Kept s (endCal s r found) := by
  unfold endCal
  split
  · exact Kept.trans (Kept.trans noteBad_kept recordEvent_kept) haltFree_kept
  · extract_lets s₁ s₂ s₃ src₁
    have k_s₁ : Kept s s₁ := by
      exact Kept.trans (Kept.trans loadCal_kept loadSaved_kept) loadRetired_kept
    clear_value s₁
    have k_s₂ : Kept s s₂ := by
      refine Kept.trans ?_ scanLog_kept
      assumption
    clear_value s₂
    have k_s₃ : Kept s s₃ := by
      unfold s₃
      refine Kept.ite ?_ ?_
      · refine Kept.trans ?_ State.setTh_kept
        assumption
      · assumption
    clear_value s₃
    refine Kept.trans ?_ tryEnable_kept
    refine Kept.trans ?_ nextStep_kept
    refine Kept.upd ?_
    assumption

theorem endStep2_kept {s : State} {r : StartResult} : Kept s (endStep2 s r) := by
  unfold endStep2
  extract_lets s₁ p₁
  have k_s₁ : Kept s s₁ := by
    exact State.setFld_kept
  clear_value s₁
  have k_p₁1 : Kept s p₁.1 := by
    refine Kept.trans ?_ pickImage_kept
    assumption
  clear_value p₁
  refine Kept.ite ?_ ?_
  · exact Kept.trans (Kept.trans (Kept.trans State.setFld_kept setAlert_kept) recordEvent_kept) haltFree_kept
  · extract_lets
    split
    · refine Kept.trans ?_ haltFree_kept
      refine Kept.trans ?_ recordEvent_kept
      assumption
    · extract_lets s₂
      have k_s₂ : Kept s s₂ := by
        refine Kept.trans ?_ loadImage_kept
        assumption
      clear_value s₂
      refine Kept.trans ?_ endCal_kept
      assumption

theorem fusedModule_kept {s : State} {m : Nat} : Kept s (fusedModule s m) := by
  unfold fusedModule
  extract_lets home₁ spare₁
  clear_value home₁ spare₁
  split
  · exact retireModule_kept
  · refine Kept.ite ?_ ?_
    · exact State.setFld_kept
    · exact trainModule_kept
  · refine Kept.ite ?_ ?_
    · exact State.setFld_kept
    · exact trainModule_kept

theorem endStep4_kept {s : State} {failed : List Nat} : Kept s (endStep4 s failed) := by
  unfold endStep4
  extract_lets s₁ s₂ s₃ up₁ f₁ s₄ s₅ s₆
  have k_s₁ : Kept s s₁ := by
    refine Kept.foldl ?_ ?_
    · intro x1 x2
      exact fusedModule_kept
    · exact Kept.refl _
  clear_value s₁
  have k_s₂ : Kept s s₂ := by
    refine Kept.foldl ?_ ?_
    · intro x1 x2
      refine Kept.ite ?_ ?_
      · exact Kept.refl _
      · refine Kept.ite ?_ ?_
        · exact moduleFailing_kept
        · exact Kept.trans State.setFld_kept State.setFld_kept
    · assumption
  clear_value s₂
  have k_s₃ : Kept s s₃ := by
    refine Kept.trans ?_ settleLink_kept
    assumption
  clear_value s₃ up₁
  have k_f₁2 : Kept s f₁.2 := by
    refine Kept.trans ?_ State.takeFree_kept
    assumption
  clear_value f₁
  have k_s₄ : Kept s s₄ := by
    refine Kept.trans ?_ recordEvent_kept
    assumption
  clear_value s₄
  have k_s₅ : Kept s s₅ := by
    unfold s₅
    refine Kept.ite ?_ ?_
    · assumption
    · refine Kept.trans ?_ fenceHalf_kept
      refine Kept.trans ?_ State.setFld_kept
      assumption
  clear_value s₅
  have k_s₆ : Kept s s₆ := by
    unfold s₆
    refine Kept.ite ?_ ?_
    · refine Kept.trans ?_ recordEvent_kept
      refine Kept.trans ?_ State.setFld_kept
      assumption
    · assumption
  clear_value s₆
  refine Kept.trans ?_ nextStep_kept
  assumption

theorem trainStack_kept {s : State} {k i : Nat} : Kept s (trainStack s k i) := by
  unfold trainStack
  split
  · exact Kept.trans State.setFld_kept stackOffline_kept
  · extract_lets s₁ s₂
    have k_s₁ : Kept s s₁ := by
      exact Kept.trans State.setFld_kept State.setFld_kept
    clear_value s₁
    have k_s₂ : Kept s s₂ := by
      refine Kept.trans ?_ recordEvent_kept
      assumption
    clear_value s₂
    refine Kept.ite ?_ ?_
    · assumption
    · refine Kept.trans ?_ recordEvent_kept
      assumption

theorem scaleMins_kept {s : State} {h : Half} : Kept s (scaleMins s h) := by
  unfold scaleMins
  extract_lets lo₁ mins₁ sys₁ total₁ limit₁ s₁
  clear_value lo₁ mins₁ sys₁ total₁ limit₁
  have k_s₁ : Kept s s₁ := by
    refine Kept.foldl ?_ ?_
    · intro x1 x2
      exact State.setFld_kept
    · exact Kept.refl _
  clear_value s₁
  refine Kept.ite ?_ ?_
  · exact Kept.refl _
  · refine Kept.trans ?_ recordEvent_kept
    assumption

theorem endStep5_kept {s : State} {rates : List Nat} : Kept s (endStep5 s rates) := by
  unfold endStep5
  extract_lets s₁
  have k_s₁ : Kept s s₁ := by
    refine Kept.foldl ?_ ?_
    · intro x1 x2
      exact trainStack_kept
    · exact Kept.refl _
  clear_value s₁
  refine Kept.trans ?_ nextStep_kept
  refine Kept.trans ?_ scaleMins_kept
  refine Kept.trans ?_ scaleMins_kept
  assumption

theorem failBond_kept {s : State} {x : Nat × Nat × Nat} : Kept s (failBond s x) := by
  unfold failBond
  extract_lets ti₁
  clear_value ti₁
  refine Kept.ite ?_ ?_
  · refine Kept.ite ?_ ?_
    · exact Kept.refl _
    · exact retireSlice_kept
  · refine Kept.ite ?_ ?_
    · exact spareBond_kept
    · exact retireLayer_kept

theorem endStep6_kept {s : State} {bonds : List (Nat × Nat × Nat)} : Kept s (endStep6 s bonds) := by
  unfold endStep6
  extract_lets s₁ s₂ s₃
  have k_s₁ : Kept s s₁ := by
    refine Kept.foldl ?_ ?_
    · intro x1 x2
      extract_lets a₁
      clear_value a₁
      exact State.setFld_kept
    · exact Kept.refl _
  clear_value s₁
  have k_s₂ : Kept s s₂ := by
    refine Kept.foldl ?_ ?_
    · intro x1 x2
      exact Kept.trans State.setFld_kept State.setFld_kept
    · assumption
  clear_value s₂
  have k_s₃ : Kept s s₃ := by
    refine Kept.foldl ?_ ?_
    · intro x1 x2
      exact takePorts_kept
    · assumption
  clear_value s₃
  refine Kept.trans ?_ nextStep_kept
  refine Kept.foldl ?_ ?_
  · intro x3 x4
    exact failBond_kept
  · assumption

theorem endStep7_kept {s : State} : Kept s (endStep7 s) := by
  unfold endStep7
  extract_lets s₁
  have k_s₁ : Kept s s₁ := by
    refine Kept.foldl ?_ ?_
    · intro x1 x2
      extract_lets s₂ s₃
      have k_s₂ : Kept x1 s₂ := by
        refine Kept.trans ?_ (State.setTile_kept ?_)
        · exact Kept.refl _
        · exact fun w => State.tile_wf w
      clear_value s₂
      have k_s₃ : Kept x1 s₃ := by
        refine Kept.trans ?_ State.setTilState_kept
        assumption
      clear_value s₃
      refine Kept.ite ?_ ?_
      · assumption
      · refine Kept.ite ?_ ?_
        · refine Kept.trans ?_ recordEvent_kept
          refine Kept.trans ?_ State.setFld_kept
          assumption
        · assumption
    · exact Kept.refl _
  clear_value s₁
  refine Kept.trans ?_ nextStep_kept
  assumption

theorem failBank_kept {s : State} {ti bank : Nat} {rows : List Nat} : Kept s (failBank s ti bank rows) := by
  unfold failBank
  extract_lets src₁ s₁
  have k_s₁ : Kept s s₁ := by
    exact Kept.upd (Kept.refl _)
  clear_value s₁
  refine Kept.ite ?_ ?_
  · refine Kept.trans ?_ recordEvent_kept
    assumption
  · refine Kept.foldl ?_ ?_
    · intro x1 x2
      exact takeSpare_kept
    · exact Kept.refl _

theorem endStep8_kept {s : State} {march : List (Nat × Nat × Nat)} : Kept s (endStep8 s march) := by
  unfold endStep8
  extract_lets l₁ banks₁ s₁ s₂
  clear_value l₁ banks₁
  have k_s₁ : Kept s s₁ := by
    refine Kept.foldl ?_ ?_
    · intro x1 x2
      exact failBank_kept
    · exact Kept.refl _
  clear_value s₁
  have k_s₂ : Kept s s₂ := by
    refine Kept.foldl ?_ ?_
    · intro x1 x2
      exact offTile_kept
    · assumption
  clear_value s₂
  refine Kept.trans ?_ nextStep_kept
  assumption

theorem endStep9_kept {s : State} : Kept s (endStep9 s) := by
  unfold endStep9
  extract_lets s₁
  have k_s₁ : Kept s s₁ := by
    refine Kept.foldl ?_ ?_
    · intro x1 x2
      exact State.setTilState_kept
    · exact Kept.refl _
  clear_value s₁
  refine Kept.trans ?_ nextStep_kept
  refine Kept.ite ?_ ?_
  · refine Kept.trans ?_ newCand_kept
    assumption
  · assumption

theorem endStep10_kept {s : State} : Kept s (endStep10 s) := by
  unfold endStep10
  extract_lets s₁
  have k_s₁ : Kept s s₁ := by
    unfold s₁
    refine Kept.ite ?_ ?_
    · exact Kept.refl _
    · refine Kept.ite ?_ ?_
      · exact becomeRoot_kept
      · exact setNoRoot_kept
  clear_value s₁
  refine Kept.trans ?_ nextStep_kept
  assumption

theorem settleHold_kept {s : State} : Kept s (settleHold s) := by
  unfold settleHold
  exact State.setFld_kept

theorem publishStart_kept {s : State} : Kept s (publishStart s) := by
  unfold publishStart
  extract_lets n₁ saved₁ r₁ same₁ e₁ rec'2_60_5 src₁ s₁ s₂
  clear_value n₁ saved₁ r₁ e₁ rec'2_60_5
  have k_s₁ : Kept s s₁ := by
    exact Kept.upd (Kept.refl _)
  clear_value s₁
  have k_s₂ : Kept s s₂ := by
    refine Kept.trans ?_ saveState_kept
    refine Kept.trans ?_ State.setReg_kept
    assumption
  clear_value s₂
  refine Kept.trans ?_ recordEvent_kept
  assumption

theorem raiseSvn_kept {s : State} : Kept s (raiseSvn s) := by
  unfold raiseSvn
  extract_lets src₁
  split
  · refine Kept.ite ?_ ?_
    · refine Kept.trans ?_ recordEvent_kept
      exact Kept.upd (Kept.refl _)
    · exact Kept.refl _
  · exact Kept.refl _

theorem beginRemoval_kept {s : State} {cause : Nat} : Kept s (beginRemoval s cause) := by
  unfold beginRemoval
  extract_lets src₁ drain₁ n₁ s₁ src₂ src₃ s₂
  clear_value drain₁ n₁
  have k_s₁ : Kept s s₁ := by
    exact State.setMs_kept
  clear_value s₁
  have k_s₂ : Kept s s₂ := by
    refine Kept.upd ?_
    assumption
  clear_value s₂
  refine Kept.ite ?_ ?_
  · exact Kept.refl _
  · refine Kept.ite ?_ ?_
    · exact Kept.upd (Kept.refl _)
    · refine Kept.trans ?_ recordEvent_kept
      assumption

theorem releaseHeld_kept {s : State} : Kept s (releaseHeld s) := by
  unfold releaseHeld
  extract_lets hs₁ c₁ src₁ s₁ s₂
  clear_value hs₁ c₁
  have k_s₁ : Kept s s₁ := by
    exact Kept.upd (Kept.refl _)
  clear_value s₁
  have k_s₂ : Kept s s₂ := by
    unfold s₂
    refine Kept.ite ?_ ?_
    · assumption
    · refine Kept.trans ?_ requestReset_kept
      assumption
  clear_value s₂
  split
  · refine Kept.trans ?_ beginRemoval_kept
    assumption
  · refine Kept.ite ?_ ?_
    · refine Kept.trans ?_ beginRemoval_kept
      assumption
    · assumption

theorem endStep12_kept {s : State} : Kept s (endStep12 s) := by
  unfold endStep12
  extract_lets s₁ w₁ e₁ s₂ s₃ s₄ s₅ s₆ src₁ src₂ s₇ s₈ s₉ s₁₀ s₁₁
  have k_s₁ : Kept s s₁ := by
    exact publishStart_kept
  clear_value s₁ w₁ e₁
  have k_s₂ : Kept s s₂ := by
    refine Kept.trans ?_ State.setReg64_kept
    assumption
  clear_value s₂
  have k_s₃ : Kept s s₃ := by
    refine Kept.trans ?_ settleAdm_kept
    refine Kept.trans ?_ State.setFld_kept
    assumption
  clear_value s₃
  have k_s₄ : Kept s s₄ := by
    refine Kept.trans ?_ settleHold_kept
    refine Kept.ite ?_ ?_
    · refine Kept.trans ?_ State.setFld_kept
      assumption
    · assumption
  clear_value s₄
  have k_s₅ : Kept s s₅ := by
    refine Kept.trans ?_ State.setFld_kept
    assumption
  clear_value s₅
  have k_s₆ : Kept s s₆ := by
    refine Kept.trans ?_ setCap_kept
    refine Kept.trans ?_ setCap_kept
    assumption
  clear_value s₆
  have k_s₇ : Kept s s₇ := by
    refine Kept.upd ?_
    assumption
  clear_value s₇
  have k_s₈ : Kept s s₈ := by
    refine Kept.trans ?_ State.setMs_kept
    refine Kept.trans ?_ nextStep_kept
    assumption
  clear_value s₈
  have k_s₉ : Kept s s₉ := by
    refine Kept.trans ?_ raiseSvn_kept
    assumption
  clear_value s₉
  have k_s₁₀ : Kept s s₁₀ := by
    refine Kept.trans ?_ settleReplace_kept
    assumption
  clear_value s₁₀
  have k_s₁₁ : Kept s s₁₁ := by
    unfold s₁₁
    refine Kept.ite ?_ ?_
    · refine Kept.trans ?_ assertReplace_kept
      refine Kept.trans ?_ recordEvent_kept
      assumption
    · assumption
  clear_value s₁₁
  refine Kept.trans ?_ releaseHeld_kept
  assumption

theorem endStep_kept {s : State} {r : StartResult} : Kept s (endStep s r) := by
  unfold endStep
  refine Kept.ite ?_ ?_
  · exact Kept.refl _
  · split
    · exact endStep1_kept
    · exact endStep2_kept
    · refine Kept.ite ?_ ?_
      · exact nextStep_kept
      · exact Kept.refl _
    · exact endStep4_kept
    · exact endStep5_kept
    · exact endStep6_kept
    · exact endStep7_kept
    · exact endStep8_kept
    · refine Kept.ite ?_ ?_
      · exact endStep9_kept
      · exact Kept.refl _
    · exact endStep10_kept
    · refine Kept.ite ?_ ?_
      · exact nextStep_kept
      · exact Kept.refl _
    · exact endStep12_kept
    · exact Kept.refl _

theorem execStartStepDone_kept {r : StartResult} {s : State} : Answers s (execStartStepDone r s) := by
  unfold execStartStepDone
  refine Answers.next ?_
  exact endStep_kept

theorem noteTimeout_kept {s : State} {cause : Nat} : Kept s (noteTimeout s cause) := by
  unfold noteTimeout
  exact recordEvent_kept

theorem darkRest_kept {s : State} : Kept s (darkRest s) := by
  unfold darkRest
  refine Kept.foldl ?_ ?_
  · intro x1 x2
    exact makeDark_kept
  · exact Kept.refl _

theorem timeOut_kept {s : State} {cause : Nat} : Kept s (timeOut s cause) := by
  unfold timeOut
  extract_lets f₁ s₁ up₁
  have k_f₁2 : Kept s f₁.2 := by
    exact State.takeFree_kept
  clear_value f₁
  have k_s₁ : Kept s s₁ := by
    exact Kept.trans noteTimeout_kept darkRest_kept
  clear_value s₁ up₁
  refine Kept.ite ?_ ?_
  · exact Kept.refl _
  · split
    · exact haltStart_kept
    · exact haltStart_kept
    · refine Kept.ite ?_ ?_
      · refine Kept.trans ?_ failUp_kept
        assumption
      · exact Kept.refl _
    · exact endStep4_kept
    · exact Kept.trans noteTimeout_kept endStep5_kept
    · exact Kept.trans noteTimeout_kept endStep6_kept
    · exact Kept.trans noteTimeout_kept endStep7_kept
    · exact Kept.trans noteTimeout_kept endStep8_kept
    · refine Kept.trans ?_ endStep9_kept
      refine Kept.ite ?_ ?_
      · assumption
      · refine Kept.trans ?_ mainUp_kept
        assumption
    · refine Kept.trans ?_ endStep10_kept
      refine Kept.ite ?_ ?_
      · exact Kept.refl _
      · exact noteTimeout_kept
    · refine Kept.trans ?_ nextStep_kept
      refine Kept.ite ?_ ?_
      · exact Kept.refl _
      · exact noteTimeout_kept
    · exact Kept.trans noteTimeout_kept endStep12_kept
    · exact Kept.refl _

theorem execStartStepTimeout_kept {cause : Nat} {s : State} : Answers s (execStartStepTimeout cause s) := by
  unfold execStartStepTimeout
  refine Answers.next ?_
  exact timeOut_kept

theorem setLock_kept {s : State} {on : Bool} : Kept s (setLock s on) := by
  unfold setLock
  extract_lets s₁
  have k_s₁ : Kept s s₁ := by
    exact Kept.trans State.setBit_kept State.setBit_kept
  clear_value s₁
  refine Kept.ite ?_ ?_
  · exact Kept.refl _
  · refine Kept.trans ?_ recordEvent_kept
    refine Kept.trans ?_ settleHold_kept
    assumption

theorem noteOffset_kept {s : State} {o : Int} : Kept s (noteOffset s o) := by
  unfold noteOffset
  exact State.setReg_kept

theorem takeOffset_kept {s : State} {source : Nat} {o : Int} : Kept s (takeOffset s source o) := by
  unfold takeOffset
  extract_lets s₁
  have k_s₁ : Kept s s₁ := by
    exact noteOffset_kept
  clear_value s₁
  refine Kept.ite ?_ ?_
  · refine Kept.trans ?_ setTime_kept
    assumption
  · refine Kept.ite ?_ ?_
    · refine Kept.trans ?_ setTime_kept
      refine Kept.trans ?_ setLock_kept
      assumption
    · assumption

theorem settlePtp_kept {s : State} : Kept s (settlePtp s) := by
  unfold settlePtp
  refine Kept.ite ?_ ?_
  · exact Kept.refl _
  · extract_lets
    split
    · extract_lets src₁
      have k_src₁ : Kept s src₁ := by
        exact State.setFld_kept
      clear_value src₁
      refine Kept.upd ?_
      assumption
    · exact Kept.refl _

theorem takeAnnounce_kept {s : State} {d : PtpDataset} : Kept s (takeAnnounce s d) := by
  unfold takeAnnounce
  extract_lets l₁ m₁ src₁
  clear_value l₁ m₁
  refine Kept.ite ?_ ?_
  · exact Kept.upd (Kept.refl _)
  · exact Kept.upd (Kept.refl _)

theorem ptpOffset_kept {s : State} : Kept s (ptpOffset s) := by
  unfold ptpOffset
  split
  · exact takeOffset_kept
  · exact Kept.refl _

theorem takePtp_kept {s : State} {port : Nat} {m : PtpMsg} : Kept s (takePtp s port m) := by
  unfold takePtp
  extract_lets src₁ first₁
  clear_value first₁
  split
  · exact takeAnnounce_kept
  · extract_lets s₁
    have k_s₁ : Kept s s₁ := by
      refine Kept.trans ?_ State.emit_kept
      exact Kept.upd (Kept.refl _)
    clear_value s₁
    refine Kept.ite ?_ ?_
    · refine Kept.ite ?_ ?_
      · refine Kept.trans ?_ ptpOffset_kept
        assumption
      · assumption
    · exact Kept.refl _
  · refine Kept.ite ?_ ?_
    · refine Kept.trans ?_ ptpOffset_kept
      exact Kept.upd (Kept.refl _)
    · exact Kept.refl _
  · split
    · extract_lets s₂
      have k_s₂ : Kept s s₂ := by
        exact Kept.upd (Kept.refl _)
      clear_value s₂
      refine Kept.ite ?_ ?_
      · refine Kept.ite ?_ ?_
        · refine Kept.trans ?_ ptpOffset_kept
          assumption
        · assumption
      · exact Kept.refl _
    · exact Kept.refl _

theorem execPtpMessage_kept {port domain : Nat} {msg : PtpMsg} {s : State} : Answers s (execPtpMessage port domain msg s) := by
  unfold execPtpMessage
  extract_lets s₁
  have k_s₁ : Kept s s₁ := by
    exact settlePtp_kept
  clear_value s₁
  refine Answers.ite ?_ ?_
  · refine Answers.next ?_
    refine Kept.trans ?_ takePtp_kept
    assumption
  · refine Answers.next ?_
    assumption

theorem execPtpAnnounceTimeout_kept {s : State} : Answers s (execPtpAnnounceTimeout s) := by
  unfold execPtpAnnounceTimeout
  extract_lets p₁
  clear_value p₁
  refine Answers.ite ?_ ?_
  · exact Answers.next (Kept.refl _)
  · extract_lets
    split
    · extract_lets src₁
      have k_src₁ : Kept s src₁ := by
        exact State.setFld_kept
      clear_value src₁
      refine Answers.next ?_
      refine Kept.upd ?_
      assumption
    · refine Answers.next ?_
      exact Kept.upd (Kept.refl _)

theorem execPpsEdge_kept {offset : Int} {s : State} : Answers s (execPpsEdge offset s) := by
  unfold execPpsEdge
  extract_lets due₁ src₁ s₁
  clear_value due₁
  have k_s₁ : Kept s s₁ := by
    exact Kept.upd (Kept.refl _)
  clear_value s₁
  refine Answers.ite ?_ ?_
  · exact Answers.next (Kept.refl _)
  · extract_lets
    split
    · extract_lets d₁
      clear_value d₁
      refine Answers.next ?_
      refine Kept.ite ?_ ?_
      · refine Kept.trans ?_ noteOffset_kept
        assumption
      · refine Kept.trans ?_ takeOffset_kept
        assumption
    · refine Answers.ite ?_ ?_
      · refine Answers.next ?_
        exact Kept.upd (Kept.refl _)
      · refine Answers.ite ?_ ?_
        · refine Answers.next ?_
          exact Kept.upd (Kept.refl _)
        · refine Answers.next ?_
          refine Kept.trans ?_ takeOffset_kept
          exact Kept.upd (Kept.refl _)

theorem execTimeLockChange_kept {locked : Bool} {s : State} : Answers s (execTimeLockChange locked s) := by
  unfold execTimeLockChange
  refine Answers.ite ?_ ?_
  · exact Answers.next (Kept.refl _)
  · refine Answers.next ?_
    exact setLock_kept

theorem setSecond_kept {s : State} {sec : Nat} : Kept s (setSecond s sec) := by
  unfold setSecond
  extract_lets src₁
  refine Kept.ite ?_ ?_
  · exact setTime_kept
  · refine Kept.ite ?_ ?_
    · exact Kept.upd (Kept.refl _)
    · exact Kept.refl _

theorem execMgtTimeSet_kept {lo hi : Nat} {s : State} : Answers s (execMgtTimeSet lo hi s) := by
  unfold execMgtTimeSet
  refine Answers.next ?_
  exact Kept.trans (Kept.trans State.setReg_kept State.setReg_kept) setSecond_kept

theorem execRemoveReqN_kept {s : State} : Answers s (execRemoveReqN s) := by
  unfold execRemoveReqN
  refine Answers.next ?_
  exact Kept.trans setSignal_kept beginRemoval_kept

theorem execMgtRemoveStart_kept {s : State} : Answers s (execMgtRemoveStart s) := by
  unfold execMgtRemoveStart
  refine Answers.next ?_
  exact beginRemoval_kept

theorem removeSession_kept {s : State} {round : Nat} {x : Session} : Kept s (removeSession s round x) := by
  unfold removeSession
  extract_lets s₁ s₂
  have k_s₁ : Kept s s₁ := by
    exact Kept.trans endRequest_kept report_kept
  clear_value s₁
  have k_s₂ : Kept s s₂ := by
    refine Kept.foldl ?_ ?_
    · intro x1 x2
      exact sendResult_kept
    · assumption
  clear_value s₂
  refine Kept.trans ?_ completeClose_kept
  refine Kept.trans ?_ startClose_kept
  assumption

theorem drainEnd_kept {s : State} {r : Removal} : Kept s (drainEnd s r) := by
  unfold drainEnd
  extract_lets round₁ n₁ s₁ k₁ s₂ s₃ src₁ s₄
  clear_value round₁ n₁
  have k_s₁ : Kept s s₁ := by
    exact dropRound_kept
  clear_value s₁ k₁
  have k_s₂ : Kept s s₂ := by
    refine Kept.foldl ?_ ?_
    · intro x1 x2
      exact removeSession_kept
    · assumption
  clear_value s₂
  have k_s₃ : Kept s s₃ := by
    refine Kept.trans ?_ leaveFabric_kept
    assumption
  clear_value s₃
  have k_s₄ : Kept s s₄ := by
    refine Kept.upd ?_
    assumption
  clear_value s₄
  refine Kept.ite ?_ ?_
  · refine Kept.trans ?_ powerDown_kept
    assumption
  · refine Kept.ite ?_ ?_
    · assumption
    · refine Kept.trans ?_ afterOff_kept
      refine Kept.trans ?_ saveState_kept
      assumption

theorem execRemovalDrainEnd_kept {s : State} : Answers s (execRemovalDrainEnd s) := by
  unfold execRemovalDrainEnd
  split
  · exact Answers.next (Kept.refl _)
  · refine Answers.ite ?_ ?_
    · exact Answers.next (Kept.refl _)
    · refine Answers.next ?_
      exact drainEnd_kept

theorem execAlertPulseEnd_kept {s : State} : Answers s (execAlertPulseEnd s) := by
  unfold execAlertPulseEnd
  refine Answers.next ?_
  exact setAlert_kept

end Sys2Proof.Machine
end

