-- ==== Sys2Proof/Laws/KeptSelfTest.lean ====
section
/-! SUPPORT. The definitions of Machine/SelfTest.lean keep the queue and the canonical form. -/
set_option Elab.async false
namespace Sys2Proof.Machine

theorem writeTest_kept {s : State} {v : Word} : Kept s (writeTest s v) := by
  unfold writeTest
  extract_lets test₁ mask₁ ti₁ a₁ s₁ s₂ s₃ src₁
  clear_value test₁ mask₁ ti₁ a₁
  have k_s₁ : Kept s s₁ := by
    exact Kept.trans State.setFld_kept State.setFld_kept
  clear_value s₁
  have k_s₂ : Kept s s₂ := by
    unfold s₂
    refine Kept.ite ?_ ?_
    · assumption
    · refine Kept.trans ?_ State.setFld_kept
      assumption
  clear_value s₂
  have k_s₃ : Kept s s₃ := by
    refine Kept.trans ?_ State.setReg_kept
    assumption
  clear_value s₃
  refine Kept.ite ?_ ?_
  · refine Kept.trans ?_ refuse_kept
    assumption
  · refine Kept.ite ?_ ?_
    · assumption
    · refine Kept.ite ?_ ?_
      · refine Kept.trans ?_ refuse_kept
        assumption
      · refine Kept.upd ?_
        assumption

theorem execBstTestStart_kept {v : Word} {s : State} : Answers s (execBstTestStart v s) := by
  unfold execBstTestStart
  refine Answers.next ?_
  exact writeTest_kept

theorem marchWord_wf {ti w : Nat} {t : Tile} (h : t.wf) : (marchWord ti w t).wf := ⟨SMap.put_wf _ _ h.1, h.2⟩

theorem transparent_kept {s : State} {ti mask : Nat} : Kept s (transparent s ti mask) := by
  refine State.modTile_kept (fun t h => ?_)
  exact foldl_wf (p := Tile.wf) (fun _ _ h => foldl_wf (p := Tile.wf) (fun _ _ h => marchWord_wf h) h) h

theorem destroyBanks_kept {s : State} {ti mask : Nat} : Kept s (destroyBanks s ti mask) := by
  refine State.modTile_kept (fun t h => ⟨?_, h.2.1, ?_⟩)
  · exact SMap.filter_wf (β := BitVec 72) _ h.1
  · exact SMap.filter_wf (β := Bool) _ h.2.2

theorem marchBank_kept {s : State} {ti bank : Nat} {rows : List Nat} : Kept s (marchBank s ti bank rows) := by
  unfold marchBank
  refine Kept.ite ?_ ?_
  · refine Kept.ite ?_ ?_
    · exact Kept.trans retireTile_kept recordEvent_kept
    · exact Kept.refl _
  · refine Kept.foldl ?_ ?_
    · intro x1 x2
      exact takeSpare_kept
    · exact Kept.refl _

theorem failInService_kept {s : State} {ti bank : Nat} {rows : List Nat} : Kept s (failInService s ti bank rows) := by
  unfold failInService
  extract_lets s₁ src₁ src₂
  have k_s₁ : Kept s s₁ := by
    exact failBank_kept
  clear_value s₁
  have k_src₁ : Kept s src₁ := by
    refine Kept.trans ?_ offTile_kept
    refine Kept.trans ?_ State.dropAt_kept
    assumption
  clear_value src₁
  refine Kept.ite ?_ ?_
  · refine Kept.upd ?_
    assumption
  · assumption

theorem endTest_kept {s : State} {j : TestJob} {rows : List (Nat × Nat)} : Kept s (endTest s j rows) := by
  unfold endTest
  extract_lets items₁ fails₁ result₁ s₁ banks₁ s₂ s₃ s₄ src₁
  clear_value items₁ fails₁ result₁
  have k_s₁ : Kept s s₁ := by
    exact State.setReg_kept
  clear_value s₁ banks₁
  have k_s₂ : Kept s s₂ := by
    unfold s₂
    refine Kept.ite ?_ ?_
    · refine Kept.trans ?_ transparent_kept
      assumption
    · refine Kept.ite ?_ ?_
      · refine Kept.trans ?_ destroyBanks_kept
        assumption
      · refine Kept.ite ?_ ?_
        · refine Kept.trans ?_ (State.modTile_kept ?_)
          · assumption
          · exact fun _ h => ⟨h.1, rfl, h.2.2⟩
        · assumption
  clear_value s₂
  have k_s₃ : Kept s s₃ := by
    unfold s₃
    refine Kept.ite ?_ ?_
    · refine Kept.trans ?_ recordEvent_kept
      assumption
    · assumption
  clear_value s₃
  have k_s₄ : Kept s s₄ := by
    unfold s₄
    refine Kept.ite ?_ ?_
    · refine Kept.foldl ?_ ?_
      · intro x1 x2
        exact marchBank_kept
      · assumption
    · refine Kept.ite ?_ ?_
      · refine Kept.foldl ?_ ?_
        · intro x3 x4
          exact failInService_kept
        · assumption
      · assumption
  clear_value s₄
  refine Kept.upd ?_
  assumption

theorem execMarchDone_kept {h : Half} {rows : List (Nat × Nat)} {s : State} : Answers s (execMarchDone h rows s) := by
  unfold execMarchDone
  split
  · exact Answers.next (Kept.refl _)
  · refine Answers.ite ?_ ?_
    · refine Answers.next ?_
      exact endTest_kept
    · exact Answers.next (Kept.refl _)

theorem unitFailed_kept {s : State} {u : UnitResult} : Kept s (unitFailed s u) := by
  unfold unitFailed
  extract_lets src₁
  refine Kept.trans ?_ recordEvent_kept
  refine Kept.trans ?_ State.count_kept
  exact Kept.upd (Kept.refl _)

theorem secondFailure_kept {s : State} {u : UnitResult} : Kept s (secondFailure s u) := by
  unfold secondFailure
  extract_lets a₁
  clear_value a₁
  refine Kept.ite ?_ ?_
  · refine Kept.ite ?_ ?_
    · exact Kept.trans retireTile_kept recordEvent_kept
    · exact Kept.refl _
  · extract_lets
    refine Kept.foldl ?_ ?_
    · intro x1 x2
      extract_lets i₁
      clear_value i₁
      exact Kept.trans State.setReg64_kept recordEvent_kept
    · exact Kept.refl _

theorem takeUnit_kept {s : State} {u : UnitResult} : Kept s (takeUnit s u) := by
  unfold takeUnit
  extract_lets key₁ again₁ s₁ s₂ spot₁ s₃ src₁ s₄ src₂
  clear_value key₁ again₁
  have k_s₁ : Kept s s₁ := by
    unfold s₁
    refine Kept.ite ?_ ?_
    · exact Kept.refl _
    · exact unitFailed_kept
  clear_value s₁
  have k_s₂ : Kept s s₂ := by
    unfold s₂
    refine Kept.ite ?_ ?_
    · refine Kept.foldl ?_ ?_
      · intro x1 x2
        exact countBond_kept
      · assumption
    · assumption
  clear_value s₂ spot₁
  have k_s₃ : Kept s s₃ := by
    unfold s₃
    refine Kept.ite ?_ ?_
    · refine Kept.foldl ?_ ?_
      · intro x1 x2
        exact excludeDiode_kept
      · refine Kept.foldl ?_ ?_
        · intro x3 x4
          refine Kept.trans ?_ (countMark_kept ?_)
          · exact Kept.refl _
          · intro x5
            exact Kept.refl _
        · assumption
    · assumption
  clear_value s₃
  have k_s₄ : Kept s s₄ := by
    unfold s₄
    refine Kept.ite ?_ ?_
    · refine Kept.upd ?_
      assumption
    · refine Kept.upd ?_
      assumption
  clear_value s₄
  refine Kept.ite ?_ ?_
  · assumption
  · refine Kept.ite ?_ ?_
    · refine Kept.trans ?_ secondFailure_kept
      assumption
    · refine Kept.upd ?_
      assumption

theorem settlePass_kept {s : State} : Kept s (settlePass s) := by
  unfold settlePass
  extract_lets n₁ s₁ src₁
  clear_value n₁
  have k_s₁ : Kept s s₁ := by
    exact Kept.trans State.setFld_kept recordEvent_kept
  clear_value s₁
  refine Kept.ite ?_ ?_
  · refine Kept.upd ?_
    assumption
  · exact Kept.refl _

theorem softRepair_kept {s : State} : Kept s (softRepair s) := by
  unfold softRepair
  extract_lets src₁
  split
  · exact Kept.refl _
  · extract_lets s₁ used₁ s₂
    have k_s₁ : Kept s s₁ := by
      exact Kept.upd (Kept.refl _)
    clear_value s₁ used₁
    have k_s₂ : Kept s s₂ := by
      refine Kept.trans ?_ appendRetired_kept
      assumption
    clear_value s₂
    refine Kept.ite ?_ ?_
    · assumption
    · refine Kept.trans ?_ recordEvent_kept
      assumption

theorem execThymeSlice_kept {cluster : Nat} {units : List UnitResult} {s : State} : Answers s (execThymeSlice cluster units s) := by
  unfold execThymeSlice
  extract_lets mine₁
  clear_value mine₁
  refine Answers.ite ?_ ?_
  · refine Answers.next ?_
    refine Kept.trans ?_ softRepair_kept
    refine Kept.trans ?_ settlePass_kept
    refine Kept.foldl ?_ ?_
    · intro x1 x2
      exact takeUnit_kept
    · exact Kept.refl _
  · exact Answers.next (Kept.refl _)

theorem burnStart_kept {s : State} {owner : Bool} : Kept s (burnStart s owner) := by
  unfold burnStart
  extract_lets a₁
  clear_value a₁
  refine Kept.ite ?_ ?_
  · exact Kept.trans authFailed_kept refuse_kept
  · refine Kept.ite ?_ ?_
    · exact refuse_kept
    · exact State.setFld_kept

theorem execBstBurnStart_kept {owner : Bool} {s : State} : Answers s (execBstBurnStart owner s) := by
  unfold execBstBurnStart
  refine Answers.next ?_
  exact burnStart_kept

theorem execBurnDone_kept {ok : Bool} {s : State} : Answers s (execBurnDone ok s) := by
  unfold execBurnDone
  extract_lets m₁ n₁ s₁ f₁ src₁ s₂
  clear_value m₁
  have k_s₁ : Kept s s₁ := by
    exact Kept.upd (Kept.refl _)
  clear_value s₁
  have k_f₁2 : Kept s f₁.2 := by
    exact State.takeFree_kept
  clear_value f₁
  have k_src₁ : Kept s src₁ := by
    assumption
  clear_value src₁
  have k_s₂ : Kept s s₂ := by
    refine Kept.upd ?_
    assumption
  clear_value s₂
  refine Answers.ite ?_ ?_
  · exact Answers.next (Kept.refl _)
  · refine Answers.ite ?_ ?_
    · refine Answers.next ?_
      refine Kept.trans ?_ recordEvent_kept
      refine Kept.trans ?_ State.setFld_kept
      assumption
    · refine Answers.next ?_
      refine Kept.trans ?_ State.setFld_kept
      assumption

end Sys2Proof.Machine
end

