-- ==== Sys2Proof/Laws/KeptRegFile.lean ====
section
/-! SUPPORT. The definitions of Machine/RegFile.lean keep the queue and the canonical form. -/
set_option Elab.async false
namespace Sys2Proof.Machine

theorem afterRead_kept {s : State} {a : Nat} : Kept s (afterRead s a) := by
  unfold afterRead
  refine Kept.ite ?_ ?_
  · exact advanceCursor_kept
  · refine Kept.ite ?_ ?_
    · exact advanceCard_kept
    · exact Kept.refl _

theorem writeField_kept {a : Nat} {w : Word} {r : State × Option Why} {f : RegField} : Kept r.1 (writeField a w r f).1 := by
  unfold writeField
  extract_lets s v held fits no
  split
  · exact Kept.refl _
  · exact Kept.refl _
  · split
    · exact Kept.refl _
    · exact Kept.refl _
  · exact State.setFld_kept
  · split
    · exact State.setFld_kept
    · exact Kept.refl _
  · split
    · exact Kept.refl _
    · split
      · exact Kept.refl _
      · exact ⟨rfl, fun h => { h with shadow := SMap.put_wf _ _ h.shadow }⟩

theorem plainWrite_kept {s : State} {a : Nat} {w : Word} : Kept s (plainWrite s a w) := by
  unfold plainWrite
  split
  · exact refuse_kept
  · extract_lets r₁ note₁
    have k_r₁1 : Kept s r₁.1 := by
      refine Kept.foldlPair ?_ ?_
      · intro x1 x2
        exact writeField_kept
      · dsimp only
        exact Kept.refl _
    clear_value r₁
    split
    · assumption
    · dsimp only [note₁]
      refine Kept.trans ?_ refuse_kept
      refine Kept.trans ?_ recordEvent_kept
      assumption
    · dsimp only [note₁]
      refine Kept.trans ?_ refuse_kept
      refine Kept.trans ?_ recordEvent_kept
      assumption
    · dsimp only [note₁]
      refine Kept.trans ?_ refuse_kept
      refine Kept.trans ?_ recordEvent_kept
      assumption
    · refine Kept.trans ?_ refuse_kept
      assumption

theorem ifBit0_kept {w : Word} {r s t : State} (h : Kept r s) (k : Kept r t) : Kept r (ifBit0 w s t) := Kept.ite k h

theorem tileWrite_kept {s : State} {ti off : Nat} {w : Word} : Kept s (tileWrite s ti off w) := by
  unfold tileWrite
  extract_lets a₁ s₁
  clear_value a₁
  have k_s₁ : Kept s s₁ := by
    exact State.setFld_kept
  clear_value s₁
  refine Kept.ite ?_ ?_
  · exact refuse_kept
  · refine Kept.ite ?_ ?_
    · refine ifBit0_kept ?_ ?_
      · exact Kept.refl _
      · exact clearTil_kept
    · refine Kept.ite ?_ ?_
      · refine ifBit0_kept ?_ ?_
        · exact Kept.refl _
        · exact clearMxa_kept
      · refine Kept.ite ?_ ?_
        · refine ifBit0_kept ?_ ?_
          · exact Kept.refl _
          · exact clearLay_kept
        · refine Kept.ite ?_ ?_
          · refine ifBit0_kept ?_ ?_
            · exact Kept.refl _
            · exact clearAtn_kept
          · refine Kept.ite ?_ ?_
            · refine ifBit0_kept ?_ ?_
              · exact Kept.refl _
              · exact clearBdm_kept
            · refine Kept.ite ?_ ?_
              · refine ifBit0_kept ?_ ?_
                · exact Kept.refl _
                · exact clearIbu_kept
              · refine Kept.ite ?_ ?_
                · refine ifBit0_kept ?_ ?_
                  · exact Kept.refl _
                  · exact clearInt_kept
                · refine Kept.ite ?_ ?_
                  · refine ifBit0_kept ?_ ?_
                    · exact Kept.refl _
                    · exact flushXlt_kept
                  · refine Kept.ite ?_ ?_
                    · refine ifBit0_kept ?_ ?_
                      · exact Kept.refl _
                      · exact clearCut_kept
                    · refine Kept.ite ?_ ?_
                      · refine Kept.ite ?_ ?_
                        · refine Kept.trans ?_ State.resetRegs_kept
                          refine Kept.trans ?_ State.setFld_kept
                          assumption
                        · exact Kept.refl _
                      · refine Kept.ite ?_ ?_
                        · exact Kept.trans restripe_kept plainWrite_kept
                        · exact plainWrite_kept

theorem ensWrite_kept {s : State} {e a : Nat} {w : Word} : Kept s (ensWrite s e a w) := by
  unfold ensWrite
  extract_lets free₁ changes₁ s₁ s₂
  clear_value free₁ changes₁
  have k_s₁ : Kept s s₁ := by
    unfold s₁
    refine Kept.ite ?_ ?_
    · exact plainWrite_kept
    · refine Kept.ite ?_ ?_
      · exact refuse_kept
      · exact Kept.refl _
  clear_value s₁
  have k_s₂ : Kept s s₂ := by
    unfold s₂
    refine Kept.ite ?_ ?_
    · refine Kept.trans ?_ formEns_kept
      assumption
    · assumption
  clear_value s₂
  refine Kept.ite ?_ ?_
  · refine Kept.ite ?_ ?_
    · exact plainWrite_kept
    · exact refuse_kept
  · refine Kept.ite ?_ ?_
    · refine Kept.trans ?_ breakEns_kept
      assumption
    · assumption

theorem cardCtrlWrite_kept {s : State} {w : Word} {owner : Bool} : Kept s (cardCtrlWrite s w owner) := by
  unfold cardCtrlWrite
  extract_lets a₁ s'2_60_1 known₁ t₁
  clear_value a₁
  have h_s'2_60_1 : Kept s s'2_60_1 := by
    unfold s'2_60_1
    refine Kept.ite ?_ ?_
    · exact cardAbort_kept
    · exact Kept.refl _
  clear_value s'2_60_1 known₁
  have k_t₁ : Kept s t₁ := by
    refine Kept.trans ?_ plainWrite_kept
    assumption
  clear_value t₁
  refine Kept.ite ?_ ?_
  · refine Kept.trans ?_ cardStart_kept
    assumption
  · assumption

theorem moduleWrite_kept {s : State} {a : Nat} {w : Word} {owner : Bool} : Kept s (moduleWrite s a w owner) := by
  unfold moduleWrite
  extract_lets s₁ s₂
  have k_s₁ : Kept s s₁ := by
    unfold s₁
    refine Kept.ite ?_ ?_
    · exact mainOff_kept
    · exact Kept.refl _
  clear_value s₁
  have k_s₂ : Kept s s₂ := by
    exact Kept.trans plainWrite_kept settlePorts_kept
  clear_value s₂
  refine Kept.ite ?_ ?_
  · refine Kept.ite ?_ ?_
    · exact Kept.refl _
    · exact resetWrite_kept
  · refine Kept.ite ?_ ?_
    · refine ifBit0_kept ?_ ?_
      · exact Kept.refl _
      · exact beginRemoval_kept
    · refine Kept.ite ?_ ?_
      · exact State.setReg_kept
      · refine Kept.ite ?_ ?_
        · exact Kept.trans State.setReg_kept setSecond_kept
        · refine Kept.ite ?_ ?_
          · exact cardCtrlWrite_kept
          · refine Kept.ite ?_ ?_
            · exact cardData_kept
            · refine Kept.ite ?_ ?_
              · refine Kept.ite ?_ ?_
                · exact State.setReg_kept
                · exact refuse_kept
              · refine Kept.ite ?_ ?_
                · exact clearLog_kept
                · refine Kept.ite ?_ ?_
                  · refine Kept.ite ?_ ?_
                    · refine Kept.trans ?_ mainRetry_kept
                      assumption
                    · assumption
                  · refine Kept.ite ?_ ?_
                    · refine Kept.ite ?_ ?_
                      · refine ifBit0_kept ?_ ?_
                        · exact Kept.refl _
                        · exact clearDomain_kept
                      · exact Kept.refl _
                    · refine Kept.ite ?_ ?_
                      · refine ifBit0_kept ?_ ?_
                        · exact Kept.refl _
                        · exact clearAdm_kept
                      · refine Kept.ite ?_ ?_
                        · refine ifBit0_kept ?_ ?_
                          · exact Kept.refl _
                          · exact clearSes_kept
                        · refine Kept.ite ?_ ?_
                          · refine ifBit0_kept ?_ ?_
                            · exact Kept.refl _
                            · exact clearNet_kept
                          · refine Kept.ite ?_ ?_
                            · refine ifBit0_kept ?_ ?_
                              · exact Kept.refl _
                              · exact clearFab_kept
                            · refine Kept.ite ?_ ?_
                              · refine ifBit0_kept ?_ ?_
                                · exact Kept.refl _
                                · exact State.resetRegs_kept
                              · refine Kept.ite ?_ ?_
                                · refine ifBit0_kept ?_ ?_
                                  · exact Kept.refl _
                                  · exact clearStm_kept
                                · refine Kept.ite ?_ ?_
                                  · refine ifBit0_kept ?_ ?_
                                    · exact armRepair_kept
                                    · exact Kept.trans armRepair_kept flushWcb_kept
                                  · refine Kept.ite ?_ ?_
                                    · exact startLoopback_kept
                                    · refine Kept.ite ?_ ?_
                                      · exact writeTest_kept
                                      · refine Kept.ite ?_ ?_
                                        · refine Kept.ite ?_ ?_
                                          · exact burnStart_kept
                                          · exact Kept.refl _
                                        · refine Kept.ite ?_ ?_
                                          · refine Kept.ite ?_ ?_
                                            · refine Kept.trans ?_ leaveFabric_kept
                                              assumption
                                            · assumption
                                          · refine Kept.ite ?_ ?_
                                            · exact ensWrite_kept
                                            · exact plainWrite_kept

theorem writeRegister_kept {s : State} {a : Nat} {w : Word} {owner : Bool} : Kept s (writeRegister s a w owner) := by
  unfold writeRegister
  split
  · exact refuse_kept
  · split
    · refine Kept.ite ?_ ?_
      · exact tileWrite_kept
      · exact refuse_kept
    · exact moduleWrite_kept

theorem execRegisterWrite_kept {addr : Nat} {v : Word} {s : State} : Answers s (execRegisterWrite addr v s) := by
  unfold execRegisterWrite
  extract_lets t₁
  have k_t₁ : Kept s t₁ := by
    exact writeRegister_kept
  clear_value t₁
  refine Answers.next ?_
  refine Kept.ite ?_ ?_
  · refine Kept.trans ?_ State.emit_kept
    assumption
  · assumption

end Sys2Proof.Machine
end

