-- ==== Sys2Proof/Laws/KeptMgmt.lean ====
section
/-! SUPPORT. The definitions of Machine/Mgmt.lean keep the queue and the canonical form. -/
set_option Elab.async false
namespace Sys2Proof.Machine

theorem respond_kept {s : State} {ep command tag status : Nat} {body : List Nat} : Kept s (respond s ep command tag status body) := by
  unfold respond
  exact State.emit_kept

theorem execVdmRead_kept {ep tag addr count : Nat} {s : State} : Answers s (execVdmRead ep tag addr count s) := by
  unfold execVdmRead
  extract_lets as₁ body₁
  clear_value as₁ body₁
  refine Answers.ite ?_ ?_
  · exact Answers.next (Kept.refl _)
  · refine Answers.ite ?_ ?_
    · refine Answers.next ?_
      exact respond_kept
    · refine Answers.next ?_
      refine Kept.trans ?_ respond_kept
      refine Kept.foldl ?_ ?_
      · intro x1 x2
        exact afterRead_kept
      · exact Kept.refl _

theorem writeAll_kept {owner : Bool} {s : State} {a : Nat} {l : List Word} : Kept s (writeAll owner s a l).1 := by
  induction l generalizing s a with
  | nil => exact Kept.refl _
  | cons w ws ih =>
    unfold writeAll
    exact writeRegister_kept.trans ih

theorem execVdmWrite_kept {ep : Nat} {session : Option Nat} {tag addr : Nat} {values : List Word} {s : State} : Answers s (execVdmWrite ep session tag addr values s) := by
  unfold execVdmWrite
  extract_lets r₁
  have k_r₁1 : Kept s r₁.1 := by
    exact writeAll_kept
  clear_value r₁
  refine Answers.ite ?_ ?_
  · exact Answers.next (Kept.refl _)
  · refine Answers.ite ?_ ?_
    · refine Answers.next ?_
      exact respond_kept
    · refine Answers.ite ?_ ?_
      · refine Answers.next ?_
        exact Kept.trans authFailed_kept respond_kept
      · refine Answers.next ?_
        refine Kept.trans ?_ respond_kept
        assumption

theorem execOwnerKey_kept {ep tag : Nat} {key : List Nat} {s : State} : Answers s (execOwnerKey ep tag key s) := by
  unfold execOwnerKey
  extract_lets src₁
  refine Answers.ite ?_ ?_
  · exact Answers.next (Kept.refl _)
  · refine Answers.ite ?_ ?_
    · refine Answers.next ?_
      exact respond_kept
    · refine Answers.next ?_
      refine Kept.trans ?_ respond_kept
      exact Kept.upd (Kept.refl _)

theorem execExportId_kept {ep tag : Nat} {s : State} : Answers s (execExportId ep tag s) := by
  unfold execExportId
  extract_lets f₁ key₁ src₁ src₂
  have k_f₁2 : Kept s f₁.2 := by
    exact State.takeBytes_kept
  clear_value f₁ key₁
  have k_src₁ : Kept s src₁ := by
    assumption
  clear_value src₁
  refine Answers.ite ?_ ?_
  · exact Answers.next (Kept.refl _)
  · refine Answers.next ?_
    refine Kept.trans ?_ respond_kept
    refine Kept.upd ?_
    assumption

theorem changeLife_kept {s : State} {old new : Nat} : Kept s (changeLife s old new) := by
  unfold changeLife
  extract_lets src₁ src₂ s₁
  have k_s₁ : Kept s s₁ := by
    exact Kept.upd (Kept.refl _)
  clear_value s₁
  refine Kept.trans ?_ recordEvent_kept
  assumption

theorem provision_kept {s : State} {old : Nat} {hash : List Nat} : Kept s (provision s old hash) := by
  unfold provision
  extract_lets f₁ src₁ src₂ src₃
  have k_f₁2 : Kept s f₁.2 := by
    exact State.takeBytes_kept
  clear_value f₁
  have k_src₁ : Kept s src₁ := by
    assumption
  clear_value src₁
  refine Kept.trans ?_ changeLife_kept
  refine Kept.upd ?_
  assumption

theorem retireModuleLife_kept {s : State} {old : Nat} : Kept s (retireModuleLife s old) := by
  unfold retireModuleLife
  extract_lets src₁ src₂
  refine Kept.trans ?_ changeLife_kept
  exact Kept.upd (Kept.refl _)

theorem ticketRequest_kept {s : State} {ep tag target : Nat} {l : List Nat} : Kept s (ticketRequest s ep tag target l) := by
  unfold ticketRequest
  extract_lets refused₁ src₁ s₁ old₁
  have k_s₁ : Kept s s₁ := by
    exact Kept.upd (Kept.refl _)
  clear_value old₁
  split
  · dsimp only [refused₁]
    exact Kept.trans (Kept.trans authFailed_kept recordEvent_kept) respond_kept
  · refine Kept.ite ?_ ?_
    · extract_lets
      refine Kept.ite ?_ ?_
      · dsimp only [refused₁]
        refine Kept.trans ?_ respond_kept
        refine Kept.trans ?_ recordEvent_kept
        assumption
      · refine Kept.trans ?_ respond_kept
        refine Kept.trans ?_ provision_kept
        assumption
    · refine Kept.ite ?_ ?_
      · refine Kept.trans ?_ respond_kept
        refine Kept.trans ?_ retireModuleLife_kept
        assumption
      · refine Kept.trans ?_ respond_kept
        assumption

theorem execLcRequest_kept {ep : Nat} {session : Option Nat} {tag target : Nat} {ticket : List Nat} {s : State} : Answers s (execLcRequest ep session tag target ticket s) := by
  unfold execLcRequest
  refine Answers.ite ?_ ?_
  · exact Answers.next (Kept.refl _)
  · refine Answers.ite ?_ ?_
    · refine Answers.next ?_
      exact ticketRequest_kept
    · refine Answers.ite ?_ ?_
      · refine Answers.next ?_
        exact Kept.trans authFailed_kept respond_kept
      · refine Answers.ite ?_ ?_
        · refine Answers.next ?_
          exact respond_kept
        · refine Answers.ite ?_ ?_
          · refine Answers.next ?_
            exact Kept.trans retireModuleLife_kept respond_kept
          · refine Answers.next ?_
            exact Kept.trans changeLife_kept respond_kept

theorem standard_kept {s : State} : Kept s (standard s).2 := by
  unfold standard
  dsimp only
  exact Kept.upd (Kept.refl _)

theorem spdmAnswer_kept {s : State} {ep code : Nat} {body : List Nat} : Kept s (spdmAnswer s ep code body) := by
  unfold spdmAnswer
  extract_lets f₁
  have k_f₁2 : Kept s f₁.2 := by
    exact standard_kept
  clear_value f₁
  refine Kept.trans ?_ State.emit_kept
  assumption

theorem spdmError_kept {s : State} {ep e : Nat} : Kept s (spdmError s ep e) := by
  unfold spdmError
  exact State.emit_kept

theorem withIdentity_kept {s : State} {ep : Nat} {f : State → State} (h : ∀ x, Kept x (f x)) : Kept s (withIdentity s ep f) := by
  unfold withIdentity
  split
  · exact spdmError_kept
  · split
    · exact spdmError_kept
    · exact h s

theorem openHandshake_kept {s : State} {ep : Nat} : Kept s (openHandshake s ep) := by
  unfold openHandshake
  extract_lets i₁ src₁
  clear_value i₁
  refine Kept.ite ?_ ?_
  · exact spdmError_kept
  · refine Kept.trans ?_ spdmAnswer_kept
    exact Kept.upd (Kept.refl _)

theorem endSpdm_kept {s : State} {i : Nat} : Kept s (endSpdm s i) := by
  unfold endSpdm
  extract_lets src₁
  exact Kept.upd (Kept.refl _)

theorem finishHandshake_kept {s : State} {ep i : Nat} {key : Option (List Nat)} {verified : Bool} {period : Nat} : Kept s (finishHandshake s ep i key verified period) := by
  unfold finishHandshake
  extract_lets k₁ src₁ h₁
  clear_value k₁ h₁
  split
  · exact spdmError_kept
  · extract_lets y₁ s₁
    clear_value y₁
    have k_s₁ : Kept s s₁ := by
      exact Kept.upd (Kept.refl _)
    clear_value s₁
    refine Kept.ite ?_ ?_
    · exact Kept.trans endSpdm_kept spdmError_kept
    · refine Kept.trans ?_ spdmAnswer_kept
      refine Kept.trans ?_ recordEvent_kept
      assumption

theorem execSpdmRequest_kept {ep : Nat} {msg : SpdmMsg} {s : State} : Answers s (execSpdmRequest ep msg s) := by
  unfold execSpdmRequest
  refine Answers.ite ?_ ?_
  · exact Answers.next (Kept.refl _)
  · split
    · refine Answers.next ?_
      exact spdmAnswer_kept
    · refine Answers.next ?_
      exact spdmAnswer_kept
    · refine Answers.next ?_
      exact spdmAnswer_kept
    · refine Answers.next ?_
      refine Kept.trans ?_ (withIdentity_kept ?_)
      · exact Kept.refl _
      · intro x1
        exact spdmAnswer_kept
    · refine Answers.next ?_
      refine Kept.trans ?_ (withIdentity_kept ?_)
      · exact Kept.refl _
      · intro x1
        exact openHandshake_kept
    · refine Answers.next ?_
      exact finishHandshake_kept
    · refine Answers.next ?_
      refine Kept.ite ?_ ?_
      · exact State.emit_kept
      · exact spdmError_kept
    · refine Answers.next ?_
      refine Kept.ite ?_ ?_
      · exact Kept.trans endSpdm_kept State.emit_kept
      · exact spdmError_kept
    · refine Answers.next ?_
      exact spdmError_kept

theorem execSpdmHeartbeatTimeout_kept {session : Nat} {s : State} : Answers s (execSpdmHeartbeatTimeout session s) := by
  unfold execSpdmHeartbeatTimeout
  refine Answers.ite ?_ ?_
  · refine Answers.next ?_
    exact endSpdm_kept
  · exact Answers.next (Kept.refl _)

theorem execGetMeasurements_kept {ep : Nat} {session : Option Nat} {index : Nat} {nonce : List Nat} {s : State} : Answers s (execGetMeasurements ep session index nonce s) := by
  unfold execGetMeasurements
  extract_lets inSession₁ blocks₁
  clear_value inSession₁ blocks₁
  refine Answers.ite ?_ ?_
  · exact Answers.next (Kept.refl _)
  · refine Answers.ite ?_ ?_
    · refine Answers.next ?_
      exact spdmError_kept
    · refine Answers.ite ?_ ?_
      · refine Answers.next ?_
        exact State.emit_kept
      · refine Answers.next ?_
        refine Kept.trans ?_ (withIdentity_kept ?_)
        · exact Kept.refl _
        · intro x1
          refine Kept.trans ?_ State.emit_kept
          exact Kept.upd (Kept.refl _)

theorem execIdentityDerived_kept {s : State} : Answers s (execIdentityDerived s) := by
  unfold execIdentityDerived
  extract_lets src₁
  refine Answers.ite ?_ ?_
  · refine Answers.next ?_
    exact Kept.upd (Kept.refl _)
  · exact Answers.next (Kept.refl _)

theorem execReattestResult_kept {answer : Option Attestation} {s : State} : Answers s (execReattestResult answer s) := by
  unfold execReattestResult
  extract_lets c₁
  clear_value c₁
  split
  · extract_lets s₁ src₁
    have k_s₁ : Kept s s₁ := by
      exact recordEvent_kept
    clear_value s₁
    refine Answers.ite ?_ ?_
    · refine Answers.next ?_
      refine Kept.upd ?_
      assumption
    · refine Answers.next ?_
      refine Kept.trans ?_ recordEvent_kept
      refine Kept.upd ?_
      assumption
  · exact Answers.next (Kept.refl _)

theorem pldmAnswer_kept {s : State} {ep : Nat} {v : Option Nat} : Kept s (pldmAnswer s ep v) := by
  unfold pldmAnswer
  exact State.emit_kept

theorem execPldmRequest_kept {ep : Nat} {msg : PldmMsg} {s : State} : Answers s (execPldmRequest ep msg s) := by
  unfold execPldmRequest
  extract_lets f₁
  have k_f₁2 : Kept s f₁.2 := by
    exact standard_kept
  clear_value f₁
  refine Answers.ite ?_ ?_
  · exact Answers.next (Kept.refl _)
  · split
    · refine Answers.next ?_
      exact State.emit_kept
    · refine Answers.ite ?_ ?_
      · refine Answers.next ?_
        refine Kept.trans ?_ State.emit_kept
        assumption
      · refine Answers.next ?_
        exact pldmAnswer_kept
    · refine Answers.next ?_
      refine Kept.trans ?_ State.emit_kept
      assumption
    · refine Answers.next ?_
      exact pldmAnswer_kept
    · refine Answers.next ?_
      exact pldmAnswer_kept
    · refine Answers.next ?_
      exact pldmAnswer_kept

theorem execMctpControl_kept {ep : Nat} {msg : MctpMsg} {s : State} : Answers s (execMctpControl ep msg s) := by
  unfold execMctpControl
  extract_lets src₁ f₁
  have k_f₁2 : Kept s f₁.2 := by
    exact standard_kept
  clear_value f₁
  refine Answers.ite ?_ ?_
  · exact Answers.next (Kept.refl _)
  · split
    · refine Answers.ite ?_ ?_
      · refine Answers.next ?_
        refine Kept.trans ?_ State.emit_kept
        exact Kept.upd (Kept.refl _)
      · refine Answers.next ?_
        exact State.emit_kept
    · refine Answers.next ?_
      exact State.emit_kept
    · refine Answers.next ?_
      refine Kept.trans ?_ State.emit_kept
      assumption
    · refine Answers.next ?_
      exact State.emit_kept
    · refine Answers.next ?_
      exact State.emit_kept

theorem execEntdaaOrSetdasa_kept {assign : I3cAssign} {s : State} : Answers s (execEntdaaOrSetdasa assign s) := by
  unfold execEntdaaOrSetdasa
  extract_lets src₁ set₁
  refine Answers.ite ?_ ?_
  · exact Answers.next (Kept.refl _)
  · split
    · refine Answers.next ?_
      refine Kept.ite ?_ ?_
      · dsimp only [set₁]
        refine Kept.ite ?_ ?_
        · exact Kept.upd (Kept.refl _)
        · exact Kept.refl _
      · exact Kept.refl _
    · refine Answers.next ?_
      dsimp only [set₁]
      refine Kept.ite ?_ ?_
      · exact Kept.upd (Kept.refl _)
      · exact Kept.refl _

theorem noteImage_kept {s : State} {found : Except Bad Container} : Kept s (noteImage s found) := by
  unfold noteImage
  split
  · refine Kept.ite ?_ ?_
    · exact Kept.refl _
    · exact recordEvent_kept
  · exact Kept.trans noteBad_kept recordEvent_kept

theorem takeOver_kept {s : State} {failed : Half} {logValid : Nat} : Kept s (takeOver s failed logValid) := by
  unfold takeOver
  extract_lets new₁ mirrored₁ s₁ src₁ s₂ s₃ src₂ s₄ s₅
  clear_value new₁ mirrored₁
  have k_s₁ : Kept s s₁ := by
    exact Kept.trans State.setFld_kept State.setFld_kept
  clear_value s₁
  have k_s₂ : Kept s s₂ := by
    refine Kept.upd ?_
    assumption
  clear_value s₂
  have k_s₃ : Kept s s₃ := by
    refine Kept.trans ?_ cardAbort_kept
    refine Kept.trans ?_ State.setFld_kept
    assumption
  clear_value s₃
  have k_s₄ : Kept s s₄ := by
    refine Kept.upd ?_
    assumption
  clear_value s₄
  have k_s₅ : Kept s s₅ := by
    refine Kept.trans ?_ scanLog_kept
    assumption
  clear_value s₅
  refine Kept.ite ?_ ?_
  · assumption
  · refine Kept.trans ?_ noteImage_kept
    assumption

theorem shedSilent_kept {s : State} : Kept s (shedSilent s) := by
  unfold shedSilent
  extract_lets s₁ src₁ src₂ src₃
  have k_s₁ : Kept s s₁ := by
    exact Kept.trans (Kept.trans wipeMain_kept offState_kept) afterOff_kept
  clear_value s₁
  refine Kept.upd ?_
  assumption

theorem serveNothing_kept {s : State} : Kept s (serveNothing s) := by
  unfold serveNothing
  extract_lets src₁ s₁ s₂ src₂ src₃
  have k_s₁ : Kept s s₁ := by
    refine Kept.trans ?_ State.setFld_kept
    refine Kept.trans ?_ dropRound_kept
    exact Kept.upd (Kept.refl _)
  clear_value s₁
  have k_s₂ : Kept s s₂ := by
    refine Kept.trans ?_ assertReplace_kept
    assumption
  clear_value s₂
  refine Kept.upd ?_
  assumption

theorem restartStart_kept {s : State} : Kept s (restartStart s) := by
  unfold restartStart
  refine Kept.trans ?_ beginStart_kept
  refine Kept.ite ?_ ?_
  · exact shedMain_kept
  · exact Kept.refl _

theorem execWatchdogExpiry_kept {h : Half} {logValid : Nat} {s : State} : Answers s (execWatchdogExpiry h logValid s) := by
  unfold execWatchdogExpiry
  extract_lets ready₁ starting₁ t₁ u₁
  clear_value ready₁ starting₁
  have k_t₁ : Kept s t₁ := by
    exact State.setFld_kept
  clear_value t₁
  have k_u₁ : Kept s u₁ := by
    refine Kept.trans ?_ takeOver_kept
    assumption
  clear_value u₁
  refine Answers.ite ?_ ?_
  · exact Answers.next (Kept.refl _)
  · refine Answers.ite ?_ ?_
    · refine Answers.next ?_
      refine Kept.trans ?_ recordEvent_kept
      refine Kept.trans ?_ State.setFld_kept
      assumption
    · refine Answers.ite ?_ ?_
      · refine Answers.next ?_
        refine Kept.trans ?_ serveNothing_kept
        assumption
      · refine Answers.ite ?_ ?_
        · refine Answers.next ?_
          refine Kept.ite ?_ ?_
          · refine Kept.trans ?_ restartStart_kept
            assumption
          · assumption
        · refine Answers.next ?_
          refine Kept.trans ?_ shedSilent_kept
          assumption

theorem execRefclkCheck_kept {ab ac bc : Bool} {s : State} : Answers s (execRefclkCheck ab ac bc s) := by
  unfold execRefclkCheck
  extract_lets s₁
  have k_s₁ : Kept s s₁ := by
    exact Kept.trans (Kept.trans setSignal_kept setSignal_kept) setSignal_kept
  clear_value s₁
  refine Answers.next ?_
  refine Kept.trans ?_ setAlert_kept
  assumption

end Sys2Proof.Machine
end

