-- ==== Sys2Proof/Laws/State.lean ====
section
/-! SUPPORT. What each basic update of the state leaves as it was: one lemma for each field and update, so that no proof unfolds an
update. -/
set_option Elab.async false
namespace Sys2Proof.Machine

variable (s : State)

@[simp] theorem State.setReg_shadow (a : Nat) (v : Word) : (s.setReg a v).shadow = s.shadow := rfl
@[simp] theorem State.setReg_tiles (a : Nat) (v : Word) : (s.setReg a v).tiles = s.tiles := rfl
@[simp] theorem State.setReg_mesh (a : Nat) (v : Word) : (s.setReg a v).mesh = s.mesh := rfl
@[simp] theorem State.setReg_stm (a : Nat) (v : Word) : (s.setReg a v).stm = s.stm := rfl
@[simp] theorem State.setReg_sup (a : Nat) (v : Word) : (s.setReg a v).sup = s.sup := rfl
@[simp] theorem State.setReg_evt (a : Nat) (v : Word) : (s.setReg a v).evt = s.evt := rfl
@[simp] theorem State.setReg_plan (a : Nat) (v : Word) : (s.setReg a v).plan = s.plan := rfl
@[simp] theorem State.setReg_trust (a : Nat) (v : Word) : (s.setReg a v).trust = s.trust := rfl
@[simp] theorem State.setReg_sage (a : Nat) (v : Word) : (s.setReg a v).sage = s.sage := rfl
@[simp] theorem State.setReg_client (a : Nat) (v : Word) : (s.setReg a v).client = s.client := rfl
@[simp] theorem State.setReg_fab (a : Nat) (v : Word) : (s.setReg a v).fab = s.fab := rfl
@[simp] theorem State.setReg_tb (a : Nat) (v : Word) : (s.setReg a v).tb = s.tb := rfl
@[simp] theorem State.setReg_ptp (a : Nat) (v : Word) : (s.setReg a v).ptp = s.ptp := rfl
@[simp] theorem State.setReg_ctl (a : Nat) (v : Word) : (s.setReg a v).ctl = s.ctl := rfl
@[simp] theorem State.setReg_link (a : Nat) (v : Word) : (s.setReg a v).link = s.link := rfl
@[simp] theorem State.setReg_pwr (a : Nat) (v : Word) : (s.setReg a v).pwr = s.pwr := rfl
@[simp] theorem State.setReg_thm (a : Nat) (v : Word) : (s.setReg a v).thm = s.thm := rfl
@[simp] theorem State.setReg_boot (a : Nat) (v : Word) : (s.setReg a v).boot = s.boot := rfl
@[simp] theorem State.setReg_card (a : Nat) (v : Word) : (s.setReg a v).card = s.card := rfl
@[simp] theorem State.setReg_fuses (a : Nat) (v : Word) : (s.setReg a v).fuses = s.fuses := rfl
@[simp] theorem State.setReg_bist (a : Nat) (v : Word) : (s.setReg a v).bist = s.bist := rfl
@[simp] theorem State.setReg_mgmt (a : Nat) (v : Word) : (s.setReg a v).mgmt = s.mgmt := rfl
@[simp] theorem State.setReg_out (a : Nat) (v : Word) : (s.setReg a v).out = s.out := rfl
@[simp] theorem State.setReg_now (a : Nat) (v : Word) : (s.setReg a v).now = s.now := rfl
@[simp] theorem State.setReg_free (a : Nat) (v : Word) : (s.setReg a v).free = s.free := rfl
@[simp] theorem State.setReg_pending (a : Nat) (v : Word) : (s.setReg a v).pending = s.pending := rfl

@[simp] theorem State.setFld_shadow (a hi lo v : Nat) : (s.setFld a hi lo v).shadow = s.shadow := rfl
@[simp] theorem State.setFld_tiles (a hi lo v : Nat) : (s.setFld a hi lo v).tiles = s.tiles := rfl
@[simp] theorem State.setFld_mesh (a hi lo v : Nat) : (s.setFld a hi lo v).mesh = s.mesh := rfl
@[simp] theorem State.setFld_stm (a hi lo v : Nat) : (s.setFld a hi lo v).stm = s.stm := rfl
@[simp] theorem State.setFld_sup (a hi lo v : Nat) : (s.setFld a hi lo v).sup = s.sup := rfl
@[simp] theorem State.setFld_evt (a hi lo v : Nat) : (s.setFld a hi lo v).evt = s.evt := rfl
@[simp] theorem State.setFld_plan (a hi lo v : Nat) : (s.setFld a hi lo v).plan = s.plan := rfl
@[simp] theorem State.setFld_trust (a hi lo v : Nat) : (s.setFld a hi lo v).trust = s.trust := rfl
@[simp] theorem State.setFld_sage (a hi lo v : Nat) : (s.setFld a hi lo v).sage = s.sage := rfl
@[simp] theorem State.setFld_client (a hi lo v : Nat) : (s.setFld a hi lo v).client = s.client := rfl
@[simp] theorem State.setFld_fab (a hi lo v : Nat) : (s.setFld a hi lo v).fab = s.fab := rfl
@[simp] theorem State.setFld_tb (a hi lo v : Nat) : (s.setFld a hi lo v).tb = s.tb := rfl
@[simp] theorem State.setFld_ptp (a hi lo v : Nat) : (s.setFld a hi lo v).ptp = s.ptp := rfl
@[simp] theorem State.setFld_ctl (a hi lo v : Nat) : (s.setFld a hi lo v).ctl = s.ctl := rfl
@[simp] theorem State.setFld_link (a hi lo v : Nat) : (s.setFld a hi lo v).link = s.link := rfl
@[simp] theorem State.setFld_pwr (a hi lo v : Nat) : (s.setFld a hi lo v).pwr = s.pwr := rfl
@[simp] theorem State.setFld_thm (a hi lo v : Nat) : (s.setFld a hi lo v).thm = s.thm := rfl
@[simp] theorem State.setFld_boot (a hi lo v : Nat) : (s.setFld a hi lo v).boot = s.boot := rfl
@[simp] theorem State.setFld_card (a hi lo v : Nat) : (s.setFld a hi lo v).card = s.card := rfl
@[simp] theorem State.setFld_fuses (a hi lo v : Nat) : (s.setFld a hi lo v).fuses = s.fuses := rfl
@[simp] theorem State.setFld_bist (a hi lo v : Nat) : (s.setFld a hi lo v).bist = s.bist := rfl
@[simp] theorem State.setFld_mgmt (a hi lo v : Nat) : (s.setFld a hi lo v).mgmt = s.mgmt := rfl
@[simp] theorem State.setFld_out (a hi lo v : Nat) : (s.setFld a hi lo v).out = s.out := rfl
@[simp] theorem State.setFld_now (a hi lo v : Nat) : (s.setFld a hi lo v).now = s.now := rfl
@[simp] theorem State.setFld_free (a hi lo v : Nat) : (s.setFld a hi lo v).free = s.free := rfl
@[simp] theorem State.setFld_pending (a hi lo v : Nat) : (s.setFld a hi lo v).pending = s.pending := rfl

@[simp] theorem State.setBit_shadow (a i : Nat) (b : Bool) : (s.setBit a i b).shadow = s.shadow := rfl
@[simp] theorem State.setBit_tiles (a i : Nat) (b : Bool) : (s.setBit a i b).tiles = s.tiles := rfl
@[simp] theorem State.setBit_mesh (a i : Nat) (b : Bool) : (s.setBit a i b).mesh = s.mesh := rfl
@[simp] theorem State.setBit_stm (a i : Nat) (b : Bool) : (s.setBit a i b).stm = s.stm := rfl
@[simp] theorem State.setBit_sup (a i : Nat) (b : Bool) : (s.setBit a i b).sup = s.sup := rfl
@[simp] theorem State.setBit_evt (a i : Nat) (b : Bool) : (s.setBit a i b).evt = s.evt := rfl
@[simp] theorem State.setBit_plan (a i : Nat) (b : Bool) : (s.setBit a i b).plan = s.plan := rfl
@[simp] theorem State.setBit_trust (a i : Nat) (b : Bool) : (s.setBit a i b).trust = s.trust := rfl
@[simp] theorem State.setBit_sage (a i : Nat) (b : Bool) : (s.setBit a i b).sage = s.sage := rfl
@[simp] theorem State.setBit_client (a i : Nat) (b : Bool) : (s.setBit a i b).client = s.client := rfl
@[simp] theorem State.setBit_fab (a i : Nat) (b : Bool) : (s.setBit a i b).fab = s.fab := rfl
@[simp] theorem State.setBit_tb (a i : Nat) (b : Bool) : (s.setBit a i b).tb = s.tb := rfl
@[simp] theorem State.setBit_ptp (a i : Nat) (b : Bool) : (s.setBit a i b).ptp = s.ptp := rfl
@[simp] theorem State.setBit_ctl (a i : Nat) (b : Bool) : (s.setBit a i b).ctl = s.ctl := rfl
@[simp] theorem State.setBit_link (a i : Nat) (b : Bool) : (s.setBit a i b).link = s.link := rfl
@[simp] theorem State.setBit_pwr (a i : Nat) (b : Bool) : (s.setBit a i b).pwr = s.pwr := rfl
@[simp] theorem State.setBit_thm (a i : Nat) (b : Bool) : (s.setBit a i b).thm = s.thm := rfl
@[simp] theorem State.setBit_boot (a i : Nat) (b : Bool) : (s.setBit a i b).boot = s.boot := rfl
@[simp] theorem State.setBit_card (a i : Nat) (b : Bool) : (s.setBit a i b).card = s.card := rfl
@[simp] theorem State.setBit_fuses (a i : Nat) (b : Bool) : (s.setBit a i b).fuses = s.fuses := rfl
@[simp] theorem State.setBit_bist (a i : Nat) (b : Bool) : (s.setBit a i b).bist = s.bist := rfl
@[simp] theorem State.setBit_mgmt (a i : Nat) (b : Bool) : (s.setBit a i b).mgmt = s.mgmt := rfl
@[simp] theorem State.setBit_out (a i : Nat) (b : Bool) : (s.setBit a i b).out = s.out := rfl
@[simp] theorem State.setBit_now (a i : Nat) (b : Bool) : (s.setBit a i b).now = s.now := rfl
@[simp] theorem State.setBit_free (a i : Nat) (b : Bool) : (s.setBit a i b).free = s.free := rfl
@[simp] theorem State.setBit_pending (a i : Nat) (b : Bool) : (s.setBit a i b).pending = s.pending := rfl

@[simp] theorem State.setReg64_shadow (a v : Nat) : (s.setReg64 a v).shadow = s.shadow := rfl
@[simp] theorem State.setReg64_tiles (a v : Nat) : (s.setReg64 a v).tiles = s.tiles := rfl
@[simp] theorem State.setReg64_mesh (a v : Nat) : (s.setReg64 a v).mesh = s.mesh := rfl
@[simp] theorem State.setReg64_stm (a v : Nat) : (s.setReg64 a v).stm = s.stm := rfl
@[simp] theorem State.setReg64_sup (a v : Nat) : (s.setReg64 a v).sup = s.sup := rfl
@[simp] theorem State.setReg64_evt (a v : Nat) : (s.setReg64 a v).evt = s.evt := rfl
@[simp] theorem State.setReg64_plan (a v : Nat) : (s.setReg64 a v).plan = s.plan := rfl
@[simp] theorem State.setReg64_trust (a v : Nat) : (s.setReg64 a v).trust = s.trust := rfl
@[simp] theorem State.setReg64_sage (a v : Nat) : (s.setReg64 a v).sage = s.sage := rfl
@[simp] theorem State.setReg64_client (a v : Nat) : (s.setReg64 a v).client = s.client := rfl
@[simp] theorem State.setReg64_fab (a v : Nat) : (s.setReg64 a v).fab = s.fab := rfl
@[simp] theorem State.setReg64_tb (a v : Nat) : (s.setReg64 a v).tb = s.tb := rfl
@[simp] theorem State.setReg64_ptp (a v : Nat) : (s.setReg64 a v).ptp = s.ptp := rfl
@[simp] theorem State.setReg64_ctl (a v : Nat) : (s.setReg64 a v).ctl = s.ctl := rfl
@[simp] theorem State.setReg64_link (a v : Nat) : (s.setReg64 a v).link = s.link := rfl
@[simp] theorem State.setReg64_pwr (a v : Nat) : (s.setReg64 a v).pwr = s.pwr := rfl
@[simp] theorem State.setReg64_thm (a v : Nat) : (s.setReg64 a v).thm = s.thm := rfl
@[simp] theorem State.setReg64_boot (a v : Nat) : (s.setReg64 a v).boot = s.boot := rfl
@[simp] theorem State.setReg64_card (a v : Nat) : (s.setReg64 a v).card = s.card := rfl
@[simp] theorem State.setReg64_fuses (a v : Nat) : (s.setReg64 a v).fuses = s.fuses := rfl
@[simp] theorem State.setReg64_bist (a v : Nat) : (s.setReg64 a v).bist = s.bist := rfl
@[simp] theorem State.setReg64_mgmt (a v : Nat) : (s.setReg64 a v).mgmt = s.mgmt := rfl
@[simp] theorem State.setReg64_out (a v : Nat) : (s.setReg64 a v).out = s.out := rfl
@[simp] theorem State.setReg64_now (a v : Nat) : (s.setReg64 a v).now = s.now := rfl
@[simp] theorem State.setReg64_free (a v : Nat) : (s.setReg64 a v).free = s.free := rfl
@[simp] theorem State.setReg64_pending (a v : Nat) : (s.setReg64 a v).pending = s.pending := rfl

@[simp] theorem State.count_shadow (a n : Nat) : (s.count a n).shadow = s.shadow := rfl
@[simp] theorem State.count_tiles (a n : Nat) : (s.count a n).tiles = s.tiles := rfl
@[simp] theorem State.count_mesh (a n : Nat) : (s.count a n).mesh = s.mesh := rfl
@[simp] theorem State.count_stm (a n : Nat) : (s.count a n).stm = s.stm := rfl
@[simp] theorem State.count_sup (a n : Nat) : (s.count a n).sup = s.sup := rfl
@[simp] theorem State.count_evt (a n : Nat) : (s.count a n).evt = s.evt := rfl
@[simp] theorem State.count_plan (a n : Nat) : (s.count a n).plan = s.plan := rfl
@[simp] theorem State.count_trust (a n : Nat) : (s.count a n).trust = s.trust := rfl
@[simp] theorem State.count_sage (a n : Nat) : (s.count a n).sage = s.sage := rfl
@[simp] theorem State.count_client (a n : Nat) : (s.count a n).client = s.client := rfl
@[simp] theorem State.count_fab (a n : Nat) : (s.count a n).fab = s.fab := rfl
@[simp] theorem State.count_tb (a n : Nat) : (s.count a n).tb = s.tb := rfl
@[simp] theorem State.count_ptp (a n : Nat) : (s.count a n).ptp = s.ptp := rfl
@[simp] theorem State.count_ctl (a n : Nat) : (s.count a n).ctl = s.ctl := rfl
@[simp] theorem State.count_link (a n : Nat) : (s.count a n).link = s.link := rfl
@[simp] theorem State.count_pwr (a n : Nat) : (s.count a n).pwr = s.pwr := rfl
@[simp] theorem State.count_thm (a n : Nat) : (s.count a n).thm = s.thm := rfl
@[simp] theorem State.count_boot (a n : Nat) : (s.count a n).boot = s.boot := rfl
@[simp] theorem State.count_card (a n : Nat) : (s.count a n).card = s.card := rfl
@[simp] theorem State.count_fuses (a n : Nat) : (s.count a n).fuses = s.fuses := rfl
@[simp] theorem State.count_bist (a n : Nat) : (s.count a n).bist = s.bist := rfl
@[simp] theorem State.count_mgmt (a n : Nat) : (s.count a n).mgmt = s.mgmt := rfl
@[simp] theorem State.count_out (a n : Nat) : (s.count a n).out = s.out := rfl
@[simp] theorem State.count_now (a n : Nat) : (s.count a n).now = s.now := rfl
@[simp] theorem State.count_free (a n : Nat) : (s.count a n).free = s.free := rfl
@[simp] theorem State.count_pending (a n : Nat) : (s.count a n).pending = s.pending := rfl

@[simp] theorem State.resetRegs_shadow (l : List Nat) : (s.resetRegs l).shadow = s.shadow := rfl
@[simp] theorem State.resetRegs_tiles (l : List Nat) : (s.resetRegs l).tiles = s.tiles := rfl
@[simp] theorem State.resetRegs_mesh (l : List Nat) : (s.resetRegs l).mesh = s.mesh := rfl
@[simp] theorem State.resetRegs_stm (l : List Nat) : (s.resetRegs l).stm = s.stm := rfl
@[simp] theorem State.resetRegs_sup (l : List Nat) : (s.resetRegs l).sup = s.sup := rfl
@[simp] theorem State.resetRegs_evt (l : List Nat) : (s.resetRegs l).evt = s.evt := rfl
@[simp] theorem State.resetRegs_plan (l : List Nat) : (s.resetRegs l).plan = s.plan := rfl
@[simp] theorem State.resetRegs_trust (l : List Nat) : (s.resetRegs l).trust = s.trust := rfl
@[simp] theorem State.resetRegs_sage (l : List Nat) : (s.resetRegs l).sage = s.sage := rfl
@[simp] theorem State.resetRegs_client (l : List Nat) : (s.resetRegs l).client = s.client := rfl
@[simp] theorem State.resetRegs_fab (l : List Nat) : (s.resetRegs l).fab = s.fab := rfl
@[simp] theorem State.resetRegs_tb (l : List Nat) : (s.resetRegs l).tb = s.tb := rfl
@[simp] theorem State.resetRegs_ptp (l : List Nat) : (s.resetRegs l).ptp = s.ptp := rfl
@[simp] theorem State.resetRegs_ctl (l : List Nat) : (s.resetRegs l).ctl = s.ctl := rfl
@[simp] theorem State.resetRegs_link (l : List Nat) : (s.resetRegs l).link = s.link := rfl
@[simp] theorem State.resetRegs_pwr (l : List Nat) : (s.resetRegs l).pwr = s.pwr := rfl
@[simp] theorem State.resetRegs_thm (l : List Nat) : (s.resetRegs l).thm = s.thm := rfl
@[simp] theorem State.resetRegs_boot (l : List Nat) : (s.resetRegs l).boot = s.boot := rfl
@[simp] theorem State.resetRegs_card (l : List Nat) : (s.resetRegs l).card = s.card := rfl
@[simp] theorem State.resetRegs_fuses (l : List Nat) : (s.resetRegs l).fuses = s.fuses := rfl
@[simp] theorem State.resetRegs_bist (l : List Nat) : (s.resetRegs l).bist = s.bist := rfl
@[simp] theorem State.resetRegs_mgmt (l : List Nat) : (s.resetRegs l).mgmt = s.mgmt := rfl
@[simp] theorem State.resetRegs_out (l : List Nat) : (s.resetRegs l).out = s.out := rfl
@[simp] theorem State.resetRegs_now (l : List Nat) : (s.resetRegs l).now = s.now := rfl
@[simp] theorem State.resetRegs_free (l : List Nat) : (s.resetRegs l).free = s.free := rfl
@[simp] theorem State.resetRegs_pending (l : List Nat) : (s.resetRegs l).pending = s.pending := rfl

@[simp] theorem State.setTilState_shadow (ti v : Nat) : (s.setTilState ti v).shadow = s.shadow := rfl
@[simp] theorem State.setTilState_tiles (ti v : Nat) : (s.setTilState ti v).tiles = s.tiles := rfl
@[simp] theorem State.setTilState_mesh (ti v : Nat) : (s.setTilState ti v).mesh = s.mesh := rfl
@[simp] theorem State.setTilState_stm (ti v : Nat) : (s.setTilState ti v).stm = s.stm := rfl
@[simp] theorem State.setTilState_sup (ti v : Nat) : (s.setTilState ti v).sup = s.sup := rfl
@[simp] theorem State.setTilState_evt (ti v : Nat) : (s.setTilState ti v).evt = s.evt := rfl
@[simp] theorem State.setTilState_plan (ti v : Nat) : (s.setTilState ti v).plan = s.plan := rfl
@[simp] theorem State.setTilState_trust (ti v : Nat) : (s.setTilState ti v).trust = s.trust := rfl
@[simp] theorem State.setTilState_sage (ti v : Nat) : (s.setTilState ti v).sage = s.sage := rfl
@[simp] theorem State.setTilState_client (ti v : Nat) : (s.setTilState ti v).client = s.client := rfl
@[simp] theorem State.setTilState_fab (ti v : Nat) : (s.setTilState ti v).fab = s.fab := rfl
@[simp] theorem State.setTilState_tb (ti v : Nat) : (s.setTilState ti v).tb = s.tb := rfl
@[simp] theorem State.setTilState_ptp (ti v : Nat) : (s.setTilState ti v).ptp = s.ptp := rfl
@[simp] theorem State.setTilState_ctl (ti v : Nat) : (s.setTilState ti v).ctl = s.ctl := rfl
@[simp] theorem State.setTilState_link (ti v : Nat) : (s.setTilState ti v).link = s.link := rfl
@[simp] theorem State.setTilState_pwr (ti v : Nat) : (s.setTilState ti v).pwr = s.pwr := rfl
@[simp] theorem State.setTilState_thm (ti v : Nat) : (s.setTilState ti v).thm = s.thm := rfl
@[simp] theorem State.setTilState_boot (ti v : Nat) : (s.setTilState ti v).boot = s.boot := rfl
@[simp] theorem State.setTilState_card (ti v : Nat) : (s.setTilState ti v).card = s.card := rfl
@[simp] theorem State.setTilState_fuses (ti v : Nat) : (s.setTilState ti v).fuses = s.fuses := rfl
@[simp] theorem State.setTilState_bist (ti v : Nat) : (s.setTilState ti v).bist = s.bist := rfl
@[simp] theorem State.setTilState_mgmt (ti v : Nat) : (s.setTilState ti v).mgmt = s.mgmt := rfl
@[simp] theorem State.setTilState_out (ti v : Nat) : (s.setTilState ti v).out = s.out := rfl
@[simp] theorem State.setTilState_now (ti v : Nat) : (s.setTilState ti v).now = s.now := rfl
@[simp] theorem State.setTilState_free (ti v : Nat) : (s.setTilState ti v).free = s.free := rfl
@[simp] theorem State.setTilState_pending (ti v : Nat) : (s.setTilState ti v).pending = s.pending := rfl

@[simp] theorem State.setTile_regs (ti : Nat) (t : Tile) : (s.setTile ti t).regs = s.regs := rfl
@[simp] theorem State.setTile_shadow (ti : Nat) (t : Tile) : (s.setTile ti t).shadow = s.shadow := rfl
@[simp] theorem State.setTile_mesh (ti : Nat) (t : Tile) : (s.setTile ti t).mesh = s.mesh := rfl
@[simp] theorem State.setTile_stm (ti : Nat) (t : Tile) : (s.setTile ti t).stm = s.stm := rfl
@[simp] theorem State.setTile_sup (ti : Nat) (t : Tile) : (s.setTile ti t).sup = s.sup := rfl
@[simp] theorem State.setTile_evt (ti : Nat) (t : Tile) : (s.setTile ti t).evt = s.evt := rfl
@[simp] theorem State.setTile_plan (ti : Nat) (t : Tile) : (s.setTile ti t).plan = s.plan := rfl
@[simp] theorem State.setTile_trust (ti : Nat) (t : Tile) : (s.setTile ti t).trust = s.trust := rfl
@[simp] theorem State.setTile_sage (ti : Nat) (t : Tile) : (s.setTile ti t).sage = s.sage := rfl
@[simp] theorem State.setTile_client (ti : Nat) (t : Tile) : (s.setTile ti t).client = s.client := rfl
@[simp] theorem State.setTile_fab (ti : Nat) (t : Tile) : (s.setTile ti t).fab = s.fab := rfl
@[simp] theorem State.setTile_tb (ti : Nat) (t : Tile) : (s.setTile ti t).tb = s.tb := rfl
@[simp] theorem State.setTile_ptp (ti : Nat) (t : Tile) : (s.setTile ti t).ptp = s.ptp := rfl
@[simp] theorem State.setTile_ctl (ti : Nat) (t : Tile) : (s.setTile ti t).ctl = s.ctl := rfl
@[simp] theorem State.setTile_link (ti : Nat) (t : Tile) : (s.setTile ti t).link = s.link := rfl
@[simp] theorem State.setTile_pwr (ti : Nat) (t : Tile) : (s.setTile ti t).pwr = s.pwr := rfl
@[simp] theorem State.setTile_thm (ti : Nat) (t : Tile) : (s.setTile ti t).thm = s.thm := rfl
@[simp] theorem State.setTile_boot (ti : Nat) (t : Tile) : (s.setTile ti t).boot = s.boot := rfl
@[simp] theorem State.setTile_card (ti : Nat) (t : Tile) : (s.setTile ti t).card = s.card := rfl
@[simp] theorem State.setTile_fuses (ti : Nat) (t : Tile) : (s.setTile ti t).fuses = s.fuses := rfl
@[simp] theorem State.setTile_bist (ti : Nat) (t : Tile) : (s.setTile ti t).bist = s.bist := rfl
@[simp] theorem State.setTile_mgmt (ti : Nat) (t : Tile) : (s.setTile ti t).mgmt = s.mgmt := rfl
@[simp] theorem State.setTile_out (ti : Nat) (t : Tile) : (s.setTile ti t).out = s.out := rfl
@[simp] theorem State.setTile_now (ti : Nat) (t : Tile) : (s.setTile ti t).now = s.now := rfl
@[simp] theorem State.setTile_free (ti : Nat) (t : Tile) : (s.setTile ti t).free = s.free := rfl
@[simp] theorem State.setTile_pending (ti : Nat) (t : Tile) : (s.setTile ti t).pending = s.pending := rfl

@[simp] theorem State.modTile_regs (ti : Nat) (f : Tile → Tile) : (s.modTile ti f).regs = s.regs := rfl
@[simp] theorem State.modTile_shadow (ti : Nat) (f : Tile → Tile) : (s.modTile ti f).shadow = s.shadow := rfl
@[simp] theorem State.modTile_mesh (ti : Nat) (f : Tile → Tile) : (s.modTile ti f).mesh = s.mesh := rfl
@[simp] theorem State.modTile_stm (ti : Nat) (f : Tile → Tile) : (s.modTile ti f).stm = s.stm := rfl
@[simp] theorem State.modTile_sup (ti : Nat) (f : Tile → Tile) : (s.modTile ti f).sup = s.sup := rfl
@[simp] theorem State.modTile_evt (ti : Nat) (f : Tile → Tile) : (s.modTile ti f).evt = s.evt := rfl
@[simp] theorem State.modTile_plan (ti : Nat) (f : Tile → Tile) : (s.modTile ti f).plan = s.plan := rfl
@[simp] theorem State.modTile_trust (ti : Nat) (f : Tile → Tile) : (s.modTile ti f).trust = s.trust := rfl
@[simp] theorem State.modTile_sage (ti : Nat) (f : Tile → Tile) : (s.modTile ti f).sage = s.sage := rfl
@[simp] theorem State.modTile_client (ti : Nat) (f : Tile → Tile) : (s.modTile ti f).client = s.client := rfl
@[simp] theorem State.modTile_fab (ti : Nat) (f : Tile → Tile) : (s.modTile ti f).fab = s.fab := rfl
@[simp] theorem State.modTile_tb (ti : Nat) (f : Tile → Tile) : (s.modTile ti f).tb = s.tb := rfl
@[simp] theorem State.modTile_ptp (ti : Nat) (f : Tile → Tile) : (s.modTile ti f).ptp = s.ptp := rfl
@[simp] theorem State.modTile_ctl (ti : Nat) (f : Tile → Tile) : (s.modTile ti f).ctl = s.ctl := rfl
@[simp] theorem State.modTile_link (ti : Nat) (f : Tile → Tile) : (s.modTile ti f).link = s.link := rfl
@[simp] theorem State.modTile_pwr (ti : Nat) (f : Tile → Tile) : (s.modTile ti f).pwr = s.pwr := rfl
@[simp] theorem State.modTile_thm (ti : Nat) (f : Tile → Tile) : (s.modTile ti f).thm = s.thm := rfl
@[simp] theorem State.modTile_boot (ti : Nat) (f : Tile → Tile) : (s.modTile ti f).boot = s.boot := rfl
@[simp] theorem State.modTile_card (ti : Nat) (f : Tile → Tile) : (s.modTile ti f).card = s.card := rfl
@[simp] theorem State.modTile_fuses (ti : Nat) (f : Tile → Tile) : (s.modTile ti f).fuses = s.fuses := rfl
@[simp] theorem State.modTile_bist (ti : Nat) (f : Tile → Tile) : (s.modTile ti f).bist = s.bist := rfl
@[simp] theorem State.modTile_mgmt (ti : Nat) (f : Tile → Tile) : (s.modTile ti f).mgmt = s.mgmt := rfl
@[simp] theorem State.modTile_out (ti : Nat) (f : Tile → Tile) : (s.modTile ti f).out = s.out := rfl
@[simp] theorem State.modTile_now (ti : Nat) (f : Tile → Tile) : (s.modTile ti f).now = s.now := rfl
@[simp] theorem State.modTile_free (ti : Nat) (f : Tile → Tile) : (s.modTile ti f).free = s.free := rfl
@[simp] theorem State.modTile_pending (ti : Nat) (f : Tile → Tile) : (s.modTile ti f).pending = s.pending := rfl

@[simp] theorem State.send_regs (p : Packet) : (s.send p).regs = s.regs := rfl
@[simp] theorem State.send_shadow (p : Packet) : (s.send p).shadow = s.shadow := rfl
@[simp] theorem State.send_tiles (p : Packet) : (s.send p).tiles = s.tiles := rfl
@[simp] theorem State.send_stm (p : Packet) : (s.send p).stm = s.stm := rfl
@[simp] theorem State.send_sup (p : Packet) : (s.send p).sup = s.sup := rfl
@[simp] theorem State.send_evt (p : Packet) : (s.send p).evt = s.evt := rfl
@[simp] theorem State.send_plan (p : Packet) : (s.send p).plan = s.plan := rfl
@[simp] theorem State.send_trust (p : Packet) : (s.send p).trust = s.trust := rfl
@[simp] theorem State.send_sage (p : Packet) : (s.send p).sage = s.sage := rfl
@[simp] theorem State.send_client (p : Packet) : (s.send p).client = s.client := rfl
@[simp] theorem State.send_fab (p : Packet) : (s.send p).fab = s.fab := rfl
@[simp] theorem State.send_tb (p : Packet) : (s.send p).tb = s.tb := rfl
@[simp] theorem State.send_ptp (p : Packet) : (s.send p).ptp = s.ptp := rfl
@[simp] theorem State.send_ctl (p : Packet) : (s.send p).ctl = s.ctl := rfl
@[simp] theorem State.send_link (p : Packet) : (s.send p).link = s.link := rfl
@[simp] theorem State.send_pwr (p : Packet) : (s.send p).pwr = s.pwr := rfl
@[simp] theorem State.send_thm (p : Packet) : (s.send p).thm = s.thm := rfl
@[simp] theorem State.send_boot (p : Packet) : (s.send p).boot = s.boot := rfl
@[simp] theorem State.send_card (p : Packet) : (s.send p).card = s.card := rfl
@[simp] theorem State.send_fuses (p : Packet) : (s.send p).fuses = s.fuses := rfl
@[simp] theorem State.send_bist (p : Packet) : (s.send p).bist = s.bist := rfl
@[simp] theorem State.send_mgmt (p : Packet) : (s.send p).mgmt = s.mgmt := rfl
@[simp] theorem State.send_out (p : Packet) : (s.send p).out = s.out := rfl
@[simp] theorem State.send_now (p : Packet) : (s.send p).now = s.now := rfl
@[simp] theorem State.send_free (p : Packet) : (s.send p).free = s.free := rfl
@[simp] theorem State.send_pending (p : Packet) : (s.send p).pending = s.pending := rfl

@[simp] theorem State.emit_regs (o : Output) : (s.emit o).regs = s.regs := rfl
@[simp] theorem State.emit_shadow (o : Output) : (s.emit o).shadow = s.shadow := rfl
@[simp] theorem State.emit_tiles (o : Output) : (s.emit o).tiles = s.tiles := rfl
@[simp] theorem State.emit_mesh (o : Output) : (s.emit o).mesh = s.mesh := rfl
@[simp] theorem State.emit_stm (o : Output) : (s.emit o).stm = s.stm := rfl
@[simp] theorem State.emit_sup (o : Output) : (s.emit o).sup = s.sup := rfl
@[simp] theorem State.emit_evt (o : Output) : (s.emit o).evt = s.evt := rfl
@[simp] theorem State.emit_plan (o : Output) : (s.emit o).plan = s.plan := rfl
@[simp] theorem State.emit_trust (o : Output) : (s.emit o).trust = s.trust := rfl
@[simp] theorem State.emit_sage (o : Output) : (s.emit o).sage = s.sage := rfl
@[simp] theorem State.emit_client (o : Output) : (s.emit o).client = s.client := rfl
@[simp] theorem State.emit_fab (o : Output) : (s.emit o).fab = s.fab := rfl
@[simp] theorem State.emit_tb (o : Output) : (s.emit o).tb = s.tb := rfl
@[simp] theorem State.emit_ptp (o : Output) : (s.emit o).ptp = s.ptp := rfl
@[simp] theorem State.emit_ctl (o : Output) : (s.emit o).ctl = s.ctl := rfl
@[simp] theorem State.emit_link (o : Output) : (s.emit o).link = s.link := rfl
@[simp] theorem State.emit_pwr (o : Output) : (s.emit o).pwr = s.pwr := rfl
@[simp] theorem State.emit_thm (o : Output) : (s.emit o).thm = s.thm := rfl
@[simp] theorem State.emit_boot (o : Output) : (s.emit o).boot = s.boot := rfl
@[simp] theorem State.emit_card (o : Output) : (s.emit o).card = s.card := rfl
@[simp] theorem State.emit_fuses (o : Output) : (s.emit o).fuses = s.fuses := rfl
@[simp] theorem State.emit_bist (o : Output) : (s.emit o).bist = s.bist := rfl
@[simp] theorem State.emit_mgmt (o : Output) : (s.emit o).mgmt = s.mgmt := rfl
@[simp] theorem State.emit_now (o : Output) : (s.emit o).now = s.now := rfl
@[simp] theorem State.emit_free (o : Output) : (s.emit o).free = s.free := rfl
@[simp] theorem State.emit_pending (o : Output) : (s.emit o).pending = s.pending := rfl

@[simp] theorem setSignal_shadow (i : Nat) (b : Bool) : (setSignal s i b).shadow = s.shadow := rfl
@[simp] theorem setSignal_tiles (i : Nat) (b : Bool) : (setSignal s i b).tiles = s.tiles := rfl
@[simp] theorem setSignal_mesh (i : Nat) (b : Bool) : (setSignal s i b).mesh = s.mesh := rfl
@[simp] theorem setSignal_stm (i : Nat) (b : Bool) : (setSignal s i b).stm = s.stm := rfl
@[simp] theorem setSignal_sup (i : Nat) (b : Bool) : (setSignal s i b).sup = s.sup := rfl
@[simp] theorem setSignal_evt (i : Nat) (b : Bool) : (setSignal s i b).evt = s.evt := rfl
@[simp] theorem setSignal_plan (i : Nat) (b : Bool) : (setSignal s i b).plan = s.plan := rfl
@[simp] theorem setSignal_trust (i : Nat) (b : Bool) : (setSignal s i b).trust = s.trust := rfl
@[simp] theorem setSignal_sage (i : Nat) (b : Bool) : (setSignal s i b).sage = s.sage := rfl
@[simp] theorem setSignal_client (i : Nat) (b : Bool) : (setSignal s i b).client = s.client := rfl
@[simp] theorem setSignal_fab (i : Nat) (b : Bool) : (setSignal s i b).fab = s.fab := rfl
@[simp] theorem setSignal_tb (i : Nat) (b : Bool) : (setSignal s i b).tb = s.tb := rfl
@[simp] theorem setSignal_ptp (i : Nat) (b : Bool) : (setSignal s i b).ptp = s.ptp := rfl
@[simp] theorem setSignal_ctl (i : Nat) (b : Bool) : (setSignal s i b).ctl = s.ctl := rfl
@[simp] theorem setSignal_link (i : Nat) (b : Bool) : (setSignal s i b).link = s.link := rfl
@[simp] theorem setSignal_pwr (i : Nat) (b : Bool) : (setSignal s i b).pwr = s.pwr := rfl
@[simp] theorem setSignal_thm (i : Nat) (b : Bool) : (setSignal s i b).thm = s.thm := rfl
@[simp] theorem setSignal_boot (i : Nat) (b : Bool) : (setSignal s i b).boot = s.boot := rfl
@[simp] theorem setSignal_card (i : Nat) (b : Bool) : (setSignal s i b).card = s.card := rfl
@[simp] theorem setSignal_fuses (i : Nat) (b : Bool) : (setSignal s i b).fuses = s.fuses := rfl
@[simp] theorem setSignal_bist (i : Nat) (b : Bool) : (setSignal s i b).bist = s.bist := rfl
@[simp] theorem setSignal_mgmt (i : Nat) (b : Bool) : (setSignal s i b).mgmt = s.mgmt := rfl
@[simp] theorem setSignal_out (i : Nat) (b : Bool) : (setSignal s i b).out = s.out := rfl
@[simp] theorem setSignal_now (i : Nat) (b : Bool) : (setSignal s i b).now = s.now := rfl
@[simp] theorem setSignal_free (i : Nat) (b : Bool) : (setSignal s i b).free = s.free := rfl
@[simp] theorem setSignal_pending (i : Nat) (b : Bool) : (setSignal s i b).pending = s.pending := rfl

@[simp] theorem setAlert_shadow (i : Nat) (b : Bool) : (setAlert s i b).shadow = s.shadow := rfl
@[simp] theorem setAlert_tiles (i : Nat) (b : Bool) : (setAlert s i b).tiles = s.tiles := rfl
@[simp] theorem setAlert_mesh (i : Nat) (b : Bool) : (setAlert s i b).mesh = s.mesh := rfl
@[simp] theorem setAlert_stm (i : Nat) (b : Bool) : (setAlert s i b).stm = s.stm := rfl
@[simp] theorem setAlert_sup (i : Nat) (b : Bool) : (setAlert s i b).sup = s.sup := rfl
@[simp] theorem setAlert_evt (i : Nat) (b : Bool) : (setAlert s i b).evt = s.evt := rfl
@[simp] theorem setAlert_plan (i : Nat) (b : Bool) : (setAlert s i b).plan = s.plan := rfl
@[simp] theorem setAlert_trust (i : Nat) (b : Bool) : (setAlert s i b).trust = s.trust := rfl
@[simp] theorem setAlert_sage (i : Nat) (b : Bool) : (setAlert s i b).sage = s.sage := rfl
@[simp] theorem setAlert_client (i : Nat) (b : Bool) : (setAlert s i b).client = s.client := rfl
@[simp] theorem setAlert_fab (i : Nat) (b : Bool) : (setAlert s i b).fab = s.fab := rfl
@[simp] theorem setAlert_tb (i : Nat) (b : Bool) : (setAlert s i b).tb = s.tb := rfl
@[simp] theorem setAlert_ptp (i : Nat) (b : Bool) : (setAlert s i b).ptp = s.ptp := rfl
@[simp] theorem setAlert_ctl (i : Nat) (b : Bool) : (setAlert s i b).ctl = s.ctl := rfl
@[simp] theorem setAlert_link (i : Nat) (b : Bool) : (setAlert s i b).link = s.link := rfl
@[simp] theorem setAlert_pwr (i : Nat) (b : Bool) : (setAlert s i b).pwr = s.pwr := rfl
@[simp] theorem setAlert_thm (i : Nat) (b : Bool) : (setAlert s i b).thm = s.thm := rfl
@[simp] theorem setAlert_boot (i : Nat) (b : Bool) : (setAlert s i b).boot = s.boot := rfl
@[simp] theorem setAlert_card (i : Nat) (b : Bool) : (setAlert s i b).card = s.card := rfl
@[simp] theorem setAlert_fuses (i : Nat) (b : Bool) : (setAlert s i b).fuses = s.fuses := rfl
@[simp] theorem setAlert_bist (i : Nat) (b : Bool) : (setAlert s i b).bist = s.bist := rfl
@[simp] theorem setAlert_mgmt (i : Nat) (b : Bool) : (setAlert s i b).mgmt = s.mgmt := rfl
@[simp] theorem setAlert_out (i : Nat) (b : Bool) : (setAlert s i b).out = s.out := rfl
@[simp] theorem setAlert_now (i : Nat) (b : Bool) : (setAlert s i b).now = s.now := rfl
@[simp] theorem setAlert_free (i : Nat) (b : Bool) : (setAlert s i b).free = s.free := rfl
@[simp] theorem setAlert_pending (i : Nat) (b : Bool) : (setAlert s i b).pending = s.pending := rfl

@[simp] theorem refuse_regs (a st : Nat) : (refuse s a st).regs = s.regs := rfl
@[simp] theorem refuse_shadow (a st : Nat) : (refuse s a st).shadow = s.shadow := rfl
@[simp] theorem refuse_tiles (a st : Nat) : (refuse s a st).tiles = s.tiles := rfl
@[simp] theorem refuse_mesh (a st : Nat) : (refuse s a st).mesh = s.mesh := rfl
@[simp] theorem refuse_stm (a st : Nat) : (refuse s a st).stm = s.stm := rfl
@[simp] theorem refuse_sup (a st : Nat) : (refuse s a st).sup = s.sup := rfl
@[simp] theorem refuse_evt (a st : Nat) : (refuse s a st).evt = s.evt := rfl
@[simp] theorem refuse_plan (a st : Nat) : (refuse s a st).plan = s.plan := rfl
@[simp] theorem refuse_trust (a st : Nat) : (refuse s a st).trust = s.trust := rfl
@[simp] theorem refuse_sage (a st : Nat) : (refuse s a st).sage = s.sage := rfl
@[simp] theorem refuse_client (a st : Nat) : (refuse s a st).client = s.client := rfl
@[simp] theorem refuse_fab (a st : Nat) : (refuse s a st).fab = s.fab := rfl
@[simp] theorem refuse_tb (a st : Nat) : (refuse s a st).tb = s.tb := rfl
@[simp] theorem refuse_ptp (a st : Nat) : (refuse s a st).ptp = s.ptp := rfl
@[simp] theorem refuse_ctl (a st : Nat) : (refuse s a st).ctl = s.ctl := rfl
@[simp] theorem refuse_link (a st : Nat) : (refuse s a st).link = s.link := rfl
@[simp] theorem refuse_pwr (a st : Nat) : (refuse s a st).pwr = s.pwr := rfl
@[simp] theorem refuse_thm (a st : Nat) : (refuse s a st).thm = s.thm := rfl
@[simp] theorem refuse_boot (a st : Nat) : (refuse s a st).boot = s.boot := rfl
@[simp] theorem refuse_card (a st : Nat) : (refuse s a st).card = s.card := rfl
@[simp] theorem refuse_fuses (a st : Nat) : (refuse s a st).fuses = s.fuses := rfl
@[simp] theorem refuse_bist (a st : Nat) : (refuse s a st).bist = s.bist := rfl
@[simp] theorem refuse_now (a st : Nat) : (refuse s a st).now = s.now := rfl
@[simp] theorem refuse_free (a st : Nat) : (refuse s a st).free = s.free := rfl
@[simp] theorem refuse_pending (a st : Nat) : (refuse s a st).pending = s.pending := rfl

end Sys2Proof.Machine
end

