-- ==== Sys2Proof/Laws/Ops.lean ====
section
/-! SUPPORT. What the operations that the meanings share do: reading a register or a field after a write, and recording an event. -/
set_option Elab.async false
namespace Sys2Proof.Machine

/-- A word with a field written, as the sum of what lies above the field, the field and what lies below it. -/
theorem setBits_toNat (w : Word) {hi lo : Nat} (v : Nat) (h : lo ≤ hi) (k : hi < 32) :
    (setBits w hi lo v).toNat = 2 ^ (hi + 1) * (w.toNat / 2 ^ (hi + 1)) + 2 ^ lo * (v % 2 ^ (hi + 1 - lo)) + w.toNat % 2 ^ lo := by
  have hw := w.isLt
  obtain ⟨n, hn⟩ : ∃ n, hi + 1 - lo = n := ⟨_, rfl⟩
  have e : hi + 1 = lo + n := by omega
  have hvn : v % 2 ^ n < 2 ^ n := Nat.mod_lt _ (by positivity)
  have hl : w.toNat % 2 ^ lo < 2 ^ lo := Nat.mod_lt _ (by positivity)
  have hA : w.toNat / 2 ^ (lo + n) < 2 ^ (32 - (lo + n)) := by
    rw [Nat.div_lt_iff_lt_mul (by positivity), ← Nat.pow_add]
    have : 32 - (lo + n) + (lo + n) = 32 := by omega
    rwa [this]
  have split : w.toNat = 2 ^ (lo + n) * (w.toNat / 2 ^ (lo + n)) + 2 ^ lo * (w.toNat / 2 ^ lo % 2 ^ n) + w.toNat % 2 ^ lo := by
    have h1 := Nat.div_add_mod w.toNat (2 ^ lo)
    have h2 := Nat.div_add_mod (w.toNat / 2 ^ lo) (2 ^ n)
    rw [Nat.pow_add, ← Nat.div_div_eq_div_mul, Nat.mul_assoc, ← Nat.mul_add, h2, h1]
  have hb : 2 ^ (lo + n) * (w.toNat / 2 ^ (lo + n)) + 2 ^ lo * (v % 2 ^ n) + w.toNat % 2 ^ lo < 2 ^ 32 := by
    have h1 : 2 ^ lo * (v % 2 ^ n + 1) ≤ 2 ^ lo * 2 ^ n := Nat.mul_le_mul_left _ hvn
    have h2 : 2 ^ (lo + n) * (w.toNat / 2 ^ (lo + n) + 1) ≤ 2 ^ (lo + n) * 2 ^ (32 - (lo + n)) := Nat.mul_le_mul_left _ hA
    have h3 : lo + n + (32 - (lo + n)) = 32 := by omega
    rw [← Nat.pow_add, h3] at h2
    rw [← Nat.pow_add] at h1
    rw [Nat.mul_add, Nat.mul_one] at h1 h2
    omega
  unfold setBits
  rw [hn, e]
  simp only [Nat.shiftRight_eq_div_pow, BitVec.toNat_ofNat]
  have hs : w.toNat - w.toNat / 2 ^ lo % 2 ^ n * 2 ^ lo + v % 2 ^ n * 2 ^ lo =
      2 ^ (lo + n) * (w.toNat / 2 ^ (lo + n)) + 2 ^ lo * (v % 2 ^ n) + w.toNat % 2 ^ lo := by
    rw [Nat.mul_comm _ (2 ^ lo), Nat.mul_comm _ (2 ^ lo)]
    omega
  rw [hs, Nat.mod_eq_of_lt hb]

/-- A field written reads as the value, cut to the field's width. -/
theorem getBits_setBits (w : Word) {hi lo : Nat} (v : Nat) (h : lo ≤ hi) (k : hi < 32) :
    getBits (setBits w hi lo v) hi lo = v % 2 ^ (hi + 1 - lo) := by
  have hl : w.toNat % 2 ^ lo < 2 ^ lo := Nat.mod_lt _ (by positivity)
  have e : hi + 1 = lo + (hi + 1 - lo) := by omega
  unfold getBits
  rw [setBits_toNat w v h k, Nat.shiftRight_eq_div_pow]
  generalize hi + 1 - lo = n at *
  rw [e, Nat.pow_add, Nat.mul_assoc, ← Nat.mul_add, Nat.add_comm, Nat.add_mul_div_left _ _ (by positivity), Nat.div_eq_of_lt hl,
    Nat.zero_add, Nat.mul_add_mod, Nat.mod_mod]

/-- Bits outside a field written read as before. -/
theorem getBits_setBits_of_disjoint (w : Word) {hi lo hi' lo' : Nat} (v : Nat) (h : lo ≤ hi) (k : hi < 32)
    (d : hi' < lo ∨ hi < lo') : getBits (setBits w hi lo v) hi' lo' = getBits w hi' lo' := by
  have hl : w.toNat % 2 ^ lo < 2 ^ lo := Nat.mod_lt _ (by positivity)
  unfold getBits
  rw [setBits_toNat w v h k]
  simp only [Nat.shiftRight_eq_div_pow]
  rcases d with d | d
  · have hx : (2 ^ (hi + 1) * (w.toNat / 2 ^ (hi + 1)) + 2 ^ lo * (v % 2 ^ (hi + 1 - lo)) + w.toNat % 2 ^ lo) % 2 ^ lo = w.toNat % 2 ^ lo := by
      have e2 : hi + 1 = lo + (hi + 1 - lo) := by omega
      generalize hi + 1 - lo = i at *
      rw [e2, Nat.pow_add, Nat.mul_assoc, ← Nat.mul_add, Nat.mul_add_mod, Nat.mod_mod]
    generalize 2 ^ (hi + 1) * (w.toNat / 2 ^ (hi + 1)) + 2 ^ lo * (v % 2 ^ (hi + 1 - lo)) + w.toNat % 2 ^ lo = x at *
    by_cases hc : lo' ≤ hi'
    · have hd : 2 ^ (lo' + (hi' + 1 - lo')) ∣ 2 ^ lo := Nat.pow_dvd_pow 2 (by omega)
      rw [← Nat.mod_mul_right_div_self, ← Nat.mod_mul_right_div_self, ← Nat.pow_add, ← Nat.mod_mod_of_dvd x hd, hx, Nat.mod_mod_of_dvd _ hd]
    · have : hi' + 1 - lo' = 0 := by omega
      simp [this, Nat.mod_one]
  · have e : lo' = (hi + 1) + (lo' - (hi + 1)) := by omega
    have e2 : hi + 1 = lo + (hi + 1 - lo) := by omega
    have hv : v % 2 ^ (hi + 1 - lo) < 2 ^ (hi + 1 - lo) := Nat.mod_lt _ (by positivity)
    have hlt : 2 ^ lo * (v % 2 ^ (hi + 1 - lo)) + w.toNat % 2 ^ lo < 2 ^ (hi + 1) := by
      have h1 : 2 ^ lo * (v % 2 ^ (hi + 1 - lo) + 1) ≤ 2 ^ lo * 2 ^ (hi + 1 - lo) := Nat.mul_le_mul_left _ hv
      rw [← Nat.pow_add, ← e2, Nat.mul_add, Nat.mul_one] at h1
      omega
    generalize lo' - (hi + 1) = j at *
    generalize 2 ^ lo * (v % 2 ^ (hi + 1 - lo)) = x at *
    generalize w.toNat % 2 ^ lo = y at *
    subst e
    rw [Nat.pow_add (n := j), ← Nat.div_div_eq_div_mul, ← Nat.div_div_eq_div_mul, Nat.add_assoc, Nat.add_comm,
      Nat.add_mul_div_left _ _ (by positivity), Nat.div_eq_of_lt hlt, Nat.zero_add]

/-! ## Registers -/

/-- A read after a write of a register. -/
theorem State.reg_setReg (s : State) (a b : Nat) (v : Word) : (s.setReg a v).reg b = if b = a then v else s.reg b := by
  unfold State.reg State.setReg
  by_cases h : b = a
  · subst h
    simp [SMap.getD_set]
  · rw [if_neg h]
    exact SMap.getD_set_ne _ _ _ _ h

@[simp] theorem State.reg_setReg_same (s : State) (a : Nat) (v : Word) : (s.setReg a v).reg a = v := by simp [State.reg_setReg]

theorem State.reg_setReg_ne (s : State) {a b : Nat} (v : Word) (h : b ≠ a) : (s.setReg a v).reg b = s.reg b := by simp [State.reg_setReg, h]

theorem State.fld_setReg_ne (s : State) {a b : Nat} (v : Word) (hi lo : Nat) (h : b ≠ a) : (s.setReg a v).fld b hi lo = s.fld b hi lo := by
  simp [State.fld, State.reg_setReg, h]

@[simp] theorem State.fld_setReg_same (s : State) (a : Nat) (v : Word) (hi lo : Nat) : (s.setReg a v).fld a hi lo = getBits v hi lo := by
  simp [State.fld]

/-- Writing a field leaves every other register. -/
theorem State.reg_setFld_ne (s : State) {a b : Nat} (hi lo v : Nat) (h : b ≠ a) : (s.setFld a hi lo v).reg b = s.reg b :=
  s.reg_setReg_ne _ h

/-- A field written reads as the value, cut to its width. -/
theorem State.fld_setFld_same (s : State) (a : Nat) {hi lo : Nat} (v : Nat) (h : lo ≤ hi) (k : hi < 32) :
    (s.setFld a hi lo v).fld a hi lo = v % 2 ^ (hi + 1 - lo) := by
  simp [State.fld, State.setFld, getBits_setBits _ v h k]

/-- Writing a field leaves the fields of every other register. -/
theorem State.fld_setFld_ne (s : State) {a b : Nat} (hi lo v hi' lo' : Nat) (h : b ≠ a) : (s.setFld a hi lo v).fld b hi' lo' = s.fld b hi' lo' :=
  s.fld_setReg_ne _ _ _ h

/-- Writing a field leaves the other fields of its register. -/
theorem State.fld_setFld_disjoint (s : State) (a : Nat) {hi lo hi' lo' : Nat} (v : Nat) (h : lo ≤ hi) (k : hi < 32)
    (d : hi' < lo ∨ hi < lo') : (s.setFld a hi lo v).fld a hi' lo' = s.fld a hi' lo' := by
  simp [State.fld, State.setFld, getBits_setBits_of_disjoint _ v h k d]

/-- A register put back reads its reset value, every other as before. -/
theorem State.reg_resetRegs (s : State) (l : List Nat) (a : Nat) : (s.resetRegs l).reg a = if a ∈ l then resetOf a else s.reg a := by
  unfold State.reg State.resetRegs SMap.getD
  dsimp only
  rw [SMap.get?_filter _ (fun k => !l.contains k)]
  by_cases h : a ∈ l <;> simp [h]

/-- A tile set reads as what was set, every other tile as before. -/
theorem State.tile_setTile (s : State) (a b : Nat) (t : Tile) : (s.setTile a t).tile b = if b = a then t else s.tile b := by
  unfold State.tile State.setTile SMap.getD
  dsimp only
  rw [SMap.get?_put]
  by_cases h : b = a <;> simp [h]

@[simp] theorem State.tile_setTile_same (s : State) (a : Nat) (t : Tile) : (s.setTile a t).tile a = t := by simp [State.tile_setTile]

theorem State.tile_modTile (s : State) (a b : Nat) (f : Tile → Tile) : (s.modTile a f).tile b = if b = a then f (s.tile a) else s.tile b := by
  unfold State.modTile
  rw [State.tile_setTile]

@[simp] theorem State.tile_modTile_same (s : State) (a : Nat) (f : Tile → Tile) : (s.modTile a f).tile a = f (s.tile a) := by
  simp [State.tile_modTile]

/-! Registers are not touched by the updates of anything else. -/

@[simp] theorem State.reg_setTile (s : State) (a b : Nat) (t : Tile) : (s.setTile a t).reg b = s.reg b := rfl
@[simp] theorem State.fld_setTile (s : State) (a b hi lo : Nat) (t : Tile) : (s.setTile a t).fld b hi lo = s.fld b hi lo := rfl
@[simp] theorem State.reg_modTile (s : State) (a b : Nat) (f : Tile → Tile) : (s.modTile a f).reg b = s.reg b := rfl
@[simp] theorem State.fld_modTile (s : State) (a b hi lo : Nat) (f : Tile → Tile) : (s.modTile a f).fld b hi lo = s.fld b hi lo := rfl
@[simp] theorem State.reg_emit (s : State) (b : Nat) (o : Output) : (s.emit o).reg b = s.reg b := rfl
@[simp] theorem State.fld_emit (s : State) (b hi lo : Nat) (o : Output) : (s.emit o).fld b hi lo = s.fld b hi lo := rfl
@[simp] theorem State.reg_send (s : State) (b : Nat) (p : Packet) : (s.send p).reg b = s.reg b := rfl
@[simp] theorem State.fld_send (s : State) (b hi lo : Nat) (p : Packet) : (s.send p).fld b hi lo = s.fld b hi lo := rfl
@[simp] theorem State.tile_setReg (s : State) (a b : Nat) (v : Word) : (s.setReg a v).tile b = s.tile b := rfl
@[simp] theorem State.tile_setFld (s : State) (a hi lo v b : Nat) : (s.setFld a hi lo v).tile b = s.tile b := rfl

/-! ## Frames -/

theorem State.RegsFrame.refl (s : State) (l : List Nat) : s.RegsFrame s l := fun _ _ => rfl

theorem State.RegsFrame.trans {s t u : State} {l : List Nat} (h : s.RegsFrame t l) (k : t.RegsFrame u l) : s.RegsFrame u l :=
  fun a ha => (k a ha).trans (h a ha)

theorem State.RegsFrame.mono {s t : State} {l m : List Nat} (h : s.RegsFrame t l) (k : l ⊆ m) : s.RegsFrame t m :=
  fun a ha => h a (fun x => ha (k x))

theorem State.setReg_regsOnly (s : State) {a : Nat} {v : Word} {l : List Nat} (h : a ∈ l) : s.RegsOnly (s.setReg a v) l :=
  ⟨fun _ hb => s.reg_setReg_ne v (fun e => hb (e ▸ h)), rfl⟩

theorem State.RegsOnly.trans {s t u : State} {l : List Nat} (h : s.RegsOnly t l) (k : t.RegsOnly u l) : s.RegsOnly u l := by
  refine ⟨h.1.trans k.1, ?_⟩
  rw [k.2, h.2]

theorem State.RegsAndEvents.trans {s t u : State} {l : List Nat} (h : s.RegsAndEvents t l) (k : t.RegsAndEvents u l) : s.RegsAndEvents u l := by
  refine ⟨h.1.trans k.1, ?_⟩
  rw [k.2, h.2]

theorem State.RegsOnly.events {s t : State} {l : List Nat} (h : s.RegsOnly t l) : s.RegsAndEvents t l := by
  refine ⟨h.1.mono (by simp), ?_⟩
  rw [h.2]

/-! ## Events -/

/-- Counting writes one register. -/
theorem State.count_regsOnly (s : State) {a n : Nat} {l : List Nat} (h : a ∈ l) : s.RegsOnly (s.count a n) l :=
  s.setReg_regsOnly h

/-- What recording an event may change. -/
theorem recordEvent_frame (s : State) (code source p0 p1 p2 : Nat) (l : List Nat) :
    s.RegsAndEvents (recordEvent s code source p0 p1 p2) l := by
  have up : ∀ (x : State) (r : Recorder) (u : Supervisor), x.RegsAndEvents { x with evt := r, sup := u } l := fun x r u => ⟨fun _ _ => rfl, rfl⟩
  have hc : ∀ (x : State) {a n : Nat}, a ∈ eventRegs → x.RegsAndEvents (x.count a n) l :=
    fun x {a n} h => ⟨fun _ hb => x.reg_setReg_ne _ (fun e => hb (e ▸ List.mem_append_right _ h)), rfl⟩
  have hf : ∀ (x : State) {a hi lo n : Nat}, a ∈ eventRegs → x.RegsAndEvents (x.setFld a hi lo n) l :=
    fun x {a hi lo n} h => ⟨fun _ hb => x.reg_setFld_ne _ _ _ (fun e => hb (e ▸ List.mem_append_right _ h)), rfl⟩
  have it : ∀ {c : Prop} [Decidable c] {x t u : State}, x.RegsAndEvents t l → x.RegsAndEvents u l → x.RegsAndEvents (if c then t else u) l := by
    intro c _ x t u h k
    split <;> assumption
  have h0 : s.RegsAndEvents s l := ⟨fun _ _ => rfl, rfl⟩
  have h1 : ∀ st : Recorder × Bool × Nat, s.RegsAndEvents { s with evt := st.1 } l := fun st => up s st.1 s.sup
  unfold recordEvent
  extract_lets st seq s1 s2 sev hs e src half st2 s3 s4
  clear_value seq hs e half sev
  have k1 : s.RegsAndEvents s1 l := h1 st
  have k2 : s.RegsAndEvents s2 l := by
    unfold s2
    exact it k1 (k1.trans (hc _ (by simp [eventRegs])))
  clear_value s2
  have k3 : s.RegsAndEvents s3 l := k2.trans (up s2 _ _)
  clear_value s3
  have k4 : s.RegsAndEvents s4 l := by
    unfold s4
    exact it k3 (k3.trans (hc _ (by simp [eventRegs])))
  clear_value s4
  refine it k2 ?_
  split
  · exact k2.trans (up s2 s2.evt _)
  · exact it (k2.trans (up s2 s2.evt _)) ((k4.trans (hc _ (by simp [eventRegs]))).trans (hf _ (by simp [eventRegs])))

/-- With room for it, an event is staged under the next sequence number. -/
theorem recordEvent_records (s : State) (code source p0 p1 p2 : Nat) :
    s.Records (recordEvent s code source p0 p1 p2) (s.record code source p0 p1 p2) := by
  rintro ⟨h1, h2, h3, h4⟩
  have hs : s.evt.stage s.calendar code source p0 p1 p2 =
      ({ s.evt with staging := s.evt.staging ++ [s.record code source p0 p1 p2], head := s.evt.head + 1 }, true, 0) := by
    unfold Recorder.stage
    rw [if_neg (by simp [h1]), if_neg (by omega), if_neg (by omega)]
    rfl
  unfold recordEvent
  simp only [hs, ite_true, h4]
  split
  · exact ⟨rfl, rfl⟩
  · split <;> exact ⟨rfl, rfl⟩

/-- A register that recording an event does not write reads as before. -/
theorem recordEvent_reg (s : State) (code source p0 p1 p2 : Nat) {a : Nat} (h : a ∉ eventRegs) :
    (recordEvent s code source p0 p1 p2).reg a = s.reg a :=
  (recordEvent_frame s code source p0 p1 p2 []).1 a (by simpa using h)

theorem recordEvent_fld (s : State) (code source p0 p1 p2 : Nat) {a : Nat} (hi lo : Nat) (h : a ∉ eventRegs) :
    (recordEvent s code source p0 p1 p2).fld a hi lo = s.fld a hi lo := by
  unfold State.fld
  rw [recordEvent_reg s code source p0 p1 p2 h]

@[simp] theorem recordEvent_shadow (s : State) (code source p0 p1 p2 : Nat) : (recordEvent s code source p0 p1 p2).shadow = s.shadow := by rw [(recordEvent_frame s code source p0 p1 p2 []).2]
@[simp] theorem recordEvent_tiles (s : State) (code source p0 p1 p2 : Nat) : (recordEvent s code source p0 p1 p2).tiles = s.tiles := by rw [(recordEvent_frame s code source p0 p1 p2 []).2]
@[simp] theorem recordEvent_mesh (s : State) (code source p0 p1 p2 : Nat) : (recordEvent s code source p0 p1 p2).mesh = s.mesh := by rw [(recordEvent_frame s code source p0 p1 p2 []).2]
@[simp] theorem recordEvent_stm (s : State) (code source p0 p1 p2 : Nat) : (recordEvent s code source p0 p1 p2).stm = s.stm := by rw [(recordEvent_frame s code source p0 p1 p2 []).2]
@[simp] theorem recordEvent_plan (s : State) (code source p0 p1 p2 : Nat) : (recordEvent s code source p0 p1 p2).plan = s.plan := by rw [(recordEvent_frame s code source p0 p1 p2 []).2]
@[simp] theorem recordEvent_trust (s : State) (code source p0 p1 p2 : Nat) : (recordEvent s code source p0 p1 p2).trust = s.trust := by rw [(recordEvent_frame s code source p0 p1 p2 []).2]
@[simp] theorem recordEvent_sage (s : State) (code source p0 p1 p2 : Nat) : (recordEvent s code source p0 p1 p2).sage = s.sage := by rw [(recordEvent_frame s code source p0 p1 p2 []).2]
@[simp] theorem recordEvent_client (s : State) (code source p0 p1 p2 : Nat) : (recordEvent s code source p0 p1 p2).client = s.client := by rw [(recordEvent_frame s code source p0 p1 p2 []).2]
@[simp] theorem recordEvent_fab (s : State) (code source p0 p1 p2 : Nat) : (recordEvent s code source p0 p1 p2).fab = s.fab := by rw [(recordEvent_frame s code source p0 p1 p2 []).2]
@[simp] theorem recordEvent_tb (s : State) (code source p0 p1 p2 : Nat) : (recordEvent s code source p0 p1 p2).tb = s.tb := by rw [(recordEvent_frame s code source p0 p1 p2 []).2]
@[simp] theorem recordEvent_ptp (s : State) (code source p0 p1 p2 : Nat) : (recordEvent s code source p0 p1 p2).ptp = s.ptp := by rw [(recordEvent_frame s code source p0 p1 p2 []).2]
@[simp] theorem recordEvent_ctl (s : State) (code source p0 p1 p2 : Nat) : (recordEvent s code source p0 p1 p2).ctl = s.ctl := by rw [(recordEvent_frame s code source p0 p1 p2 []).2]
@[simp] theorem recordEvent_link (s : State) (code source p0 p1 p2 : Nat) : (recordEvent s code source p0 p1 p2).link = s.link := by rw [(recordEvent_frame s code source p0 p1 p2 []).2]
@[simp] theorem recordEvent_pwr (s : State) (code source p0 p1 p2 : Nat) : (recordEvent s code source p0 p1 p2).pwr = s.pwr := by rw [(recordEvent_frame s code source p0 p1 p2 []).2]
@[simp] theorem recordEvent_thm (s : State) (code source p0 p1 p2 : Nat) : (recordEvent s code source p0 p1 p2).thm = s.thm := by rw [(recordEvent_frame s code source p0 p1 p2 []).2]
@[simp] theorem recordEvent_boot (s : State) (code source p0 p1 p2 : Nat) : (recordEvent s code source p0 p1 p2).boot = s.boot := by rw [(recordEvent_frame s code source p0 p1 p2 []).2]
@[simp] theorem recordEvent_card (s : State) (code source p0 p1 p2 : Nat) : (recordEvent s code source p0 p1 p2).card = s.card := by rw [(recordEvent_frame s code source p0 p1 p2 []).2]
@[simp] theorem recordEvent_fuses (s : State) (code source p0 p1 p2 : Nat) : (recordEvent s code source p0 p1 p2).fuses = s.fuses := by rw [(recordEvent_frame s code source p0 p1 p2 []).2]
@[simp] theorem recordEvent_bist (s : State) (code source p0 p1 p2 : Nat) : (recordEvent s code source p0 p1 p2).bist = s.bist := by rw [(recordEvent_frame s code source p0 p1 p2 []).2]
@[simp] theorem recordEvent_mgmt (s : State) (code source p0 p1 p2 : Nat) : (recordEvent s code source p0 p1 p2).mgmt = s.mgmt := by rw [(recordEvent_frame s code source p0 p1 p2 []).2]
@[simp] theorem recordEvent_out (s : State) (code source p0 p1 p2 : Nat) : (recordEvent s code source p0 p1 p2).out = s.out := by rw [(recordEvent_frame s code source p0 p1 p2 []).2]
@[simp] theorem recordEvent_now (s : State) (code source p0 p1 p2 : Nat) : (recordEvent s code source p0 p1 p2).now = s.now := by rw [(recordEvent_frame s code source p0 p1 p2 []).2]
@[simp] theorem recordEvent_free (s : State) (code source p0 p1 p2 : Nat) : (recordEvent s code source p0 p1 p2).free = s.free := by rw [(recordEvent_frame s code source p0 p1 p2 []).2]
@[simp] theorem recordEvent_pending (s : State) (code source p0 p1 p2 : Nat) : (recordEvent s code source p0 p1 p2).pending = s.pending := by rw [(recordEvent_frame s code source p0 p1 p2 []).2]

end Sys2Proof.Machine
end

