-- ==== Sys2Proof/WellFormed.lean ====
section
/-! DEFINITION. Well-formed commands: the operands lie in the ranges that the spec gives their fields and numbers (00 Table 0.4, 02 Table
2.11, 11 Table 11.2, 12 Table 12.3 and 12.10, 13 Table 13.1). The meanings do not need it: a command outside it runs too, as its rule's
checks say. -/
namespace Sys2Proof


/-- A tile index (00 Table 0.4). -/
def tileOk (ti : Nat) : Bool := decide (ti < 2304)
/-- A stack, a client port, a fabric port, a cluster, a power domain, an ensemble slot or a layer, a session (00 Table 0.4, 14, 12 R384). -/
def stackOk (n : Nat) : Bool := decide (n < 16)
def portOk (n : Nat) : Bool := decide (n < 4)
def fabPortOk (n : Nat) : Bool := decide (n < 12)
def clusterOk (n : Nat) : Bool := decide (n < 144)
def domainOk (n : Nat) : Bool := decide (n < 640)
def slotOk (n : Nat) : Bool := decide (n < 8)
def sessionOk (n : Nat) : Bool := decide (n < 16384)
/-- A number of n bits. -/
def bitsOk (w n : Nat) : Bool := decide (n < 2 ^ w)
/-- Bytes. -/
def bytesOk (l : List Nat) : Bool := l.all (bitsOk 8)

/-- A piece of a packet: one of at most eight granules, its place within the packet (02 R77). -/
def Piece.ok (p : Piece) : Bool := decide (p.idx < 8)

/-- A packet of Table 2.11: its ends, its length of up to 256 bytes, its tags. -/
def Packet.ok (p : Packet) : Bool :=
  bitsOk 2 p.dstKind && bitsOk 12 p.dstId && bitsOk 2 p.srcKind && bitsOk 12 p.srcId && bitsOk 48 p.addr && decide (p.len ≤ 256) &&
    bitsOk 4 p.chan && bitsOk 8 p.rtag && p.pieces.all Piece.ok

/-- A datagram: the fields of Table 11.2. -/
def Datagram.ok (d : Datagram) : Bool :=
  portOk d.port && bitsOk 16 d.magic && bitsOk 8 d.version && bitsOk 8 d.dtype && bitsOk 16 d.flags && bitsOk 16 d.peerId && bitsOk 32 d.cookie &&
    bitsOk 32 d.seq && bitsOk 32 d.ack && bitsOk 32 d.sack && bitsOk 16 d.credit && bytesOk d.body

/-- What a port discards comes from a port. -/
def Discarded.ok : Discarded → Bool
  | .frame port => portOk port
  | .datagram d => d.ok

/-- A fabric packet: the fields of its HEAD (12 Table 12.3). -/
def FabPacket.ok (p : FabPacket) : Bool :=
  decide (p.vl < 4) && bitsOk 1 p.phase && decide (p.misroute ≤ 2) && bitsOk 14 p.dst && bitsOk 12 p.dstTi && bitsOk 14 p.src && bitsOk 12 p.srcTi && bitsOk 4 p.chan && bitsOk 8 p.rtag && bitsOk 48 p.addr &&
    p.pieces.all Piece.ok

/-- The body of a LINK flit (12 Table 12.4). -/
def LinkBody.ok (b : LinkBody) : Bool :=
  bitsOk 64 b.moduleId && fabPortOk b.port && bitsOk 32 b.fcn && bitsOk 64 b.rootId && (match b.addr with | some a => bitsOk 14 a | none => true)

/-- A flit and a codeword (12 R357). -/
def Flit.ok : Flit → Bool
  | .head p => p.ok
  | .data vl => decide (vl < 4)
  | .link b => b.ok
def Codeword.fits (w : Codeword) : Bool := bitsOk 9 w.seq && bitsOk 9 w.ack && w.flits.all Flit.ok

/-- A record of LINKS and an entry of a map (12 Tables 12.9 and 12.10). -/
def LinkRec.ok (r : LinkRec) : Bool := fabPortOk r.port && fabPortOk r.peerPort && bitsOk 64 r.peerId
def MapEntry.ok (e : MapEntry) : Bool :=
  bitsOk 64 e.moduleId && bitsOk 14 e.addr && fabPortOk e.parentPort && e.links.all (fun l => fabPortOk l.port && fabPortOk l.peerPort)

/-- A frame of the half link (13 Table 13.1). -/
def HlkFrame.ok (f : HlkFrame) : Bool := bitsOk 8 f.seq && bitsOk 8 f.ack && bitsOk 1 f.plane && bitsOk 2 f.poison

/-- A result of a self-test unit (18 Table 18.2). -/
def UnitResult.ok (u : UnitResult) : Bool := tileOk u.ti && decide (u.cls < 4) && decide (u.index < 8)

/-- The operands of every command lie in their ranges. -/
def Instr.wellFormed (i : Instr) : Bool :=
  match i with
  | .matmul c | .conv c | .load c | .store c | .gather c | .scatter c | .eltwise c | .reduce c | .attnScore c | .attnApply c | .kvAppend c
  | .ibuOp c | .send c | .recv c | .sync c | .handover c | .end_ c => tileOk c.ti
  | .bankOwnerWrite ti | .stealStarved ti | .backendTrained ti | .layXltFlush ti | .bdmCutClr ti | .tilCountClr ti | .mxaCountClr ti
  | .layCountClr ti | .atnCountClr ti | .bdmCountClr ti | .ibuCountClr ti | .intCountClr ti => tileOk ti
  | .commandComplete ti u => tileOk ti && (match u with
    | .rae n => decide (n < 4)
    | .array | .vector | .layout | .gatherScatter | .attention | .bonded | .network | .sequencer => true)
  | .inboundWritePerformed ti bank => tileOk ti && decide (bank < 12)
  | .nocWrite p | .memRead p | .memWrite p | .raeReadData p | .writeAck p | .nocNack p | .syncArrival p | .syncRelease p | .portPacket p
  | .escapeChannelMove p | .readData p => p.ok
  | .bondedRefresh ti layer bank => tileOk ti && slotOk layer && decide (bank < 16)
  | .refreshIntervalChange ti layer _ => tileOk ti && slotOk layer
  | .ibuStepDone ti layer pair => tileOk ti && slotOk layer && slotOk pair
  | .resetW cuts | .resetE cuts | .resetInN _ cuts => cuts.all (fun c => tileOk c.1)
  | .computeResetRelease _ | .cutListHandling _ => true
  | .wcbLineTimeout stack _ | .stackRefresh stack _ | .stackTempRead stack _ => stackOk stack
  | .wcbFlush | .hpprArm _ | .loopbackStart _ | .loopbackDone _ => true
  | .scrubAccess stack unit _ => if stack then stackOk unit else tileOk unit
  | .pendingEntryStep _ | .logProgram _ | .evtClear _ | .logEraseDone | .evtWindow7Read | .planFreeze | .roundBoundary | .batchStepCommit _
  | .ensembleDecision _ => true
  | .paceMonitorRead readings => decide (readings.length = 144)
  | .ensembleDecisionLost slot | .ensFormTimeout slot | .ensPlanSend slot | .ensCtrlForm slot | .ensCtrlEnd slot => slotOk slot
  | .ack d | .hello d | .open_ d | .submit d | .clientResponseDiscard d | .cancel d | .close d | .status d | .floorPlan d | .loadPackage d
  | .unloadPackage d => d.ok
  | .closeComplete session | .resultSend session | .detachTimeout session => sessionOk session
  | .ackTimer peer | .submitReassemblyTimeout peer => decide (peer < 0xFFFF)
  | .retransmissionTimeout peer seq => decide (peer < 0xFFFF) && bitsOk 32 seq
  | .codeword port w => fabPortOk port && w.fits
  | .linkFlit port b => fabPortOk port && b.ok
  | .linkFlitTimer port | .codewordReplayTimeout port | .fabSignalDetected port | .fabTrainingDone port _ => fabPortOk port
  | .fabLinkDown port cause => fabPortOk port && decide (cause < 8)
  | .fabWrite p | .fabWriteAck p | .fabNack p | .fabSync p | .fabSyncRelease p | .misrouteWait p | .escapeWait p => p.ok
  | .fabricStall port vl => fabPortOk port && decide (vl < 4)
  | .rootAnnounce port candidate fcn => fabPortOk port && bitsOk 64 candidate && bitsOk 32 fcn
  | .rootAnnounceTimer | .candidateExpiry | .rootChanged | .mapReadyTimeout | .fabCtrlLeave | .ensBeatTimer => true
  | .assign moduleId addr _ parentPort => bitsOk 64 moduleId && bitsOk 14 addr && fabPortOk parentPort
  | .links src recs => bitsOk 14 src && recs.all LinkRec.ok
  | .map fcn entries => bitsOk 32 fcn && entries.all MapEntry.ok
  | .mapReady src fcn => bitsOk 14 src && bitsOk 32 fcn
  | .activate fcn => bitsOk 32 fcn
  | .leave moduleId => bitsOk 64 moduleId
  | .ensForm src ensId model time _ members => bitsOk 14 src && bitsOk 32 ensId && bitsOk 32 model && decide (time ≤ 100) && members.all (bitsOk 14)
  | .ensJoin src ensId _ | .ensEnd src ensId _ => bitsOk 14 src && bitsOk 32 ensId
  | .ensBeat src ensId _ _ => bitsOk 14 src && bitsOk 32 ensId
  | .ensBeatLoss slot src => slotOk slot && bitsOk 14 src
  | .ensPlan src round _ | .ensDecision src round _ => bitsOk 14 src && bitsOk 64 round
  | .ensReport src round _ => bitsOk 14 src && bitsOk 64 round
  | .fabFloorPlan src record => bitsOk 14 src && bytesOk record
  | .fpQuery src epoch => bitsOk 14 src && bitsOk 32 epoch
  | .hlkFrame module _ frame _ => decide (module < 108) && frame.ok
  | .hlkReplayTimeout module _ | .hlkModuleTrained module _ => decide (module < 108)
  | .leasePulse | .halvesSplit | .reattestResult _ => true
  | .auxValid _ | .auxFallback _ | .presenceMade | .presenceLost _ | .mainLost _ | .inputOutOfEnvelope _ _ | .mainRestart | .bulkCharged _ _
  | .chargeTimeout _ | .powerDownStepDone | .mainOff | .mainRetry | .auxLost => true
  | .powerUpStepDone converters deferred => bitsOk 5 converters && deferred.all (fun x => domainOk x.1)
  | .seqTimeout domain _ | .switchOnRecheck domain _ _ | .railFault domain _ | .senseFault domain | .senseRestored domain
  | .pwrDomClr domain => domainOk domain
  | .converterFailed k => decide (k < 5)
  | .phaseFailed cluster phase => clusterOk cluster && decide (phase < 3)
  | .dieRegTied cluster rail => clusterOk cluster && decide (rail < 3)
  | .domainUv cluster _ _ | .spotGuardLift cluster => clusterOk cluster
  | .thermalModelStep diodes _ powers => decide (diodes.length = 1296) && powers.all (bitsOk 32)
  | .cooldownCheck diodes => decide (diodes.length = 1296)
  | .capExceeded _ _ | .coolantSample _ _ _ | .coolantRestored | .tripHoldEnd | .stateSave => true
  | .thermalTrip place _ => bitsOk 16 place
  | .startStepDone r => r.rates.all (fun i => decide (i < 4)) && r.bonds.all (fun b => tileOk b.1) && r.march.all (fun b => tileOk b.1)
  | .startStepTimeout _ | .ptpAnnounceTimeout | .ppsEdge _ | .timeLockChange _ | .removeReqN | .mgtRemoveStart | .removalDrainEnd
  | .alertPulseEnd => true
  | .ptpMessage port _ _ => portOk port
  | .mgtTimeSet lo hi => bitsOk 32 lo && bitsOk 32 hi
  | .cfgCardStart target len _ => bitsOk 4 target && bitsOk 32 len
  | .cfgCardAbort | .cfgCardData _ | .cardEraseDone | .cardProgramDone _ | .cardCheckDone | .cardWriteTimeout | .cfgCardReadData => true
  | .bstTestStart _ | .bstBurnStart _ | .burnDone _ | .identityDerived | .watchdogExpiry _ _ | .refclkCheck _ _ _ => true
  | .marchDone _ rows => rows.all (fun x => bitsOk 12 x.1)
  | .thymeSlice cluster units => clusterOk cluster && units.all UnitResult.ok
  | .vdmRead _ tag addr count => bitsOk 8 tag && bitsOk 32 addr && bitsOk 16 count
  | .vdmWrite _ _ tag addr _ => bitsOk 8 tag && bitsOk 32 addr
  | .ownerKey _ tag key => bitsOk 8 tag && bytesOk key
  | .exportId _ tag => bitsOk 8 tag
  | .lcRequest _ _ tag target ticket => bitsOk 8 tag && bitsOk 8 target && bytesOk ticket
  | .getMeasurements _ _ index nonce => bitsOk 8 index && bytesOk nonce
  | .spdmRequest _ _ | .spdmHeartbeatTimeout _ | .pldmRequest _ _ | .mctpControl _ _ | .entdaaOrSetdasa _ => true
  | .stmCountClr | .admCountClr | .sesCountClr | .netCountClr | .fabCountClr | .hlkCountClr => true
  | .registerWrite addr _ => bitsOk 32 addr
  | .portSignalDetected port => portOk port
  | .portUp port phy => portOk port && bitsOk 2 phy
  | .portDown port cause => portOk port && decide (cause < 3)
  | .icmpEchoArpNs port _ _ => portOk port
  | .datagramDiscarded x => x.ok
  | .tokenBucketRefill stack part _ => stackOk stack && decide (part < 17)
  | .packageVerificationDone model => bitsOk 32 model

end Sys2Proof
end

