-- ==== Sys2Proof/Tests/Slice0.lean ====
section
/-! SUPPORT. Tests: worked examples of the spec, ill-formed commands, and for each statement with premises states and operands that meet
them, clause by clause. -/

namespace Sys2Proof.Tests
set_option Elab.async false
open Sys2Proof.Machine

/-! ## Small states and commands -/

/-- A register field of a tile's page is set. -/
def tset (s : State) (off hi lo v : Nat) : State := s.setFld (tileReg 0 off) hi lo v

/-- A descriptor slot (05 Table 5.1): the format, the base, and the dimensions as (SIZE, STRIDE, BOUND). -/
def slotNum (fmt base : Nat) (dims : List (Nat × Nat × Nat)) : Nat :=
  fmt + dims.length * 2 ^ 8 + 0xFFFF * 2 ^ 32 + base * 2 ^ 64 +
    ((dims.mapIdx (fun i d => (d.1 + d.2.1 * 2 ^ 32 + d.2.2 * 2 ^ 112) * 2 ^ (160 + 144 * i))).foldl (· + ·) 0)

/-- Bytes of SRAM, given as one number from a word on. -/
def sramOf (w n v : Nat) : SMap (BitVec 72) :=
  (List.range n).map (fun i => (w + i, sramEncode (BitVec.ofNat 64 (v >>> (64 * i))) (w + i)))

/-- A command of a class with the rest of its bytes as one number from byte 8 on. -/
def cmd (cls mode body : Nat) : TileCmd := ⟨0, BitVec.ofNat 512 (cls + mode * 2 ^ 8 + body * 2 ^ 64), false⟩

/-- A body of a command: the fields as (byte of the command, value). -/
def body (l : List (Nat × Nat)) : Nat := (l.map (fun x => x.2 * 2 ^ (8 * (x.1 - 8)))).foldl (· + ·) 0

/-- Tile 0 runs a segment whose commands lie in bank 8, with the descriptor slots given. -/
def tileRun (slots : List Nat) : Tile := { Tile.init with
  segs := [⟨sramWindow + 0x100000, 0, 0⟩], pc := sramWindow + 0x100000
  sram := (slots.mapIdx (fun i v => sramOf (16 * i) 16 v)).flatten }

/-- A module with that tile. -/
def running (t : Tile) : State := tset { State.reset with tiles := [(0, t)] } Reg.TIL_STATUS 2 0 tilRunning

/-- A view of one element, which lies out of bounds and so reads as its fill. -/
def one (fmt base : Nat) : Nat := slotNum fmt base [(1, 0, 0)]

/-- An entry of a unit's queue. -/
def entry (serial : Nat) (u : UnitId) (cls : Nat) (w : Waits) : QEntry :=
  ⟨serial, u, cls, 0, 0, 0, 0x81, 1, 0, [], [], 0, false, w, none, none, [], []⟩

/-- A packet of 32 bytes from tile 1 to an address of tile 0. -/
def packet (t : PktType) (addr : Nat) : Packet :=
  ⟨t, 0, 0, 0, 1, addr, 32, 0, 0, 0, [⟨0, 5, BitVec.allOnes 256, false⟩], false, 0, none, false, false⟩

/-- The module after reset with a tile 0. -/
def withTile (t : Tile) : State := { State.reset with tiles := [(0, t)] }

/-- Main power is on and auxiliary power valid. -/
def powered : State := { State.reset.setFld Reg.PWR_STATUS 2 0 3 with pwr := { PowerState.init with auxOn := true, mainIn := true } }

/-- The module serves and rounds run. -/
def serving : State := (powered.setFld Reg.MGT_START_STATUS 2 0 2).setFld Reg.ADM_STATUS 2 0 2

/-- A tile whose operands lie out of bounds: two sources at the start of SRAM and a destination in bank 1. -/
def sArray : State := running (tileRun [one 6 sramWindow, one 6 sramWindow, one 6 (sramWindow + 0x20000)])
/-- The same with a page of bonded memory that in-bank units may write. -/
def sIbu : State := sArray.setReg64 (tileReg 0 Reg.BDM_IBU_PERM) 1
/-- A source in memory and a destination in SRAM. -/
def sLoad : State := running (tileRun [one 6 0, one 6 (sramWindow + 0x20000)])
/-- A table, an index and a destination. -/
def sGather : State := running (tileRun [one 6 sramWindow, one 10 sramWindow, one 6 (sramWindow + 0x20000)])

def cMatmul : TileCmd := cmd 0x01 0 (body [(8, 1), (10, 1), (12, 1), (16, 0), (18, 1), (20, 0xFFFF)])
def cConv : TileCmd := cmd 0x02 0 (body [(8, 1), (9, 1), (10, 1), (11, 1), (12, 1), (13, 1), (18, 0), (20, 1), (22, 0xFFFF), (24, 1)])
def cLoad : TileCmd := cmd 0x03 0 (body [(8, 0), (10, 1)])
def cStore : TileCmd := cmd 0x04 0 (body [(8, 0), (48, 2), (56, 0xFFFF)])
def cGather : TileCmd := cmd 0x05 0 (body [(8, 0), (10, 1), (12, 2)])
def cScatter : TileCmd := cmd 0x06 0 (body [(8, 0), (10, 1), (12, 2)])
def cEltwise : TileCmd := cmd 0x07 0 (body [(8, 1), (10, 0), (12, 1), (14, 0xFFFF), (48, 2), (56, 0xFFFF)])
def cReduce : TileCmd := cmd 0x08 0 (body [(8, 1), (9, 1), (10, 0), (48, 2), (56, 0xFFFF)])
def cScore : TileCmd := cmd 0x09 0 (body [(8, 0), (10, 1), (20, 1), (28, 0x3F800000), (32, 0x68000)])
def cApply : TileCmd := cmd 0x0A 0 (body [(8, 1), (14, 3), (16, 0x68000), (48, 2), (56, 0xFFFF)])
def cAppend : TileCmd := cmd 0x0B 0 (body [(8, 0), (10, 0), (18, 1)])
def cFill : TileCmd := cmd 0x0C 0 (body [(8, 0x30), (10, 1), (24, 32), (28, 0xFFFFFFFF), (32, 0x3F800000)])
def cSend : TileCmd := cmd 0x0D 0 (body [(8, 1), (12, 0), (14, 0), (16, 0)])
def cRecv : TileCmd := cmd 0x0E 0 (body [(8, 1), (16, 64)])
def cSync : TileCmd := cmd 0x0F 0 (body [(8, 1), (10, 2), (12, 0)])
def cHandover : TileCmd := cmd 0x10 0 (body [(8, 1), (10, 1)])
def cEnd : TileCmd := cmd 0x1F 0 0

/-- A tile of the attention controller: a page list, a cached sequence and a scored state record in bank 3. -/
def tAttention : Tile :=
  let t := tileRun [slotNum 1 sramWindow [(32, 0, 0), (1, 0, 0)], slotNum 1 (sramWindow + 0x60000) [(1, 0, 0)],
    slotNum 9 (sramWindow + 0x20000) [(32, 0, 0)], slotNum 9 (sramWindow + 0x20000) [(1, 0, 0)]]
  { t with
    sram := t.sram ++ sramOf 0xC000 4 (2 ^ 48 + 2 ^ 56 + 32 * 2 ^ 64 + 32 * 2 ^ 80 + 4 * 2 ^ 128) ++ sramOf 0xD000 1 0
    dirCache := [⟨0, 0, 0, sramWindow + 0x60000, 0x61000, 0, 0⟩]
    attnRecs := [⟨0x68000, 8, 0, 0, 0, sramWindow + 0x60000, 0, 0, 1, 1, 32, 32, 0, 0, 0x3F800000, [], [], 0, false, false⟩] }
/-- A module with that tile. -/
def sAttention : State := tset (running tAttention) (Reg.TIL_BANK_OWN + 3) 3 0 7

theorem work_of_isOk {e : Except Flt Work} (h : e.isOk = true) : ∃ w, e = .ok w := by
  cases e with
  | ok w => exact ⟨w, rfl⟩
  | error => simp [Except.isOk, Except.toBool] at h

theorem some_of_isSome {α : Type} {x : Option α} (h : x.isSome = true) : ∃ a, x = some a := Option.isSome_iff_exists.1 h

/-- An entry of the pending list of the highest severity. -/
def pendEntry : PendEntry := ⟨1, 5, 0x0507, 0, true, true, (0, 0, 0), 0, 0, 0, 0⟩

/-- The back-end of tile 0 serves. -/
def bonded (t : Tile) : State := tset (withTile t) Reg.BDM_STATUS 2 0 bdmReady

/-- An operation of in-bank units on pair 0 of layer 0. -/
def ibuFill : IbuFields := ⟨0x30, 0, 1, 0, 0, 0, 32, 0x3F800000, 0, 0, 0, 0, 0, [], false⟩

/-- A read and a write at the stack tier, of whole granules from tile 1. -/
def stackRead : Packet := { packet .memRead 0 with dstKind := 1, pieces := [] }
def stackWrite : Packet := { packet .memWrite 0x100 with
  dstKind := 1
  len := 256
  pieces := (List.range 8).map (fun i => ⟨i, 7, BitVec.allOnes 256, decide (i = 7)⟩) }
/-- A write of one byte at the stack tier. -/
def stackByte : Packet := { packet .memWrite 0xE0 with dstKind := 1, pieces := [⟨0, 0xAB, 0xFF, false⟩] }
/-- A line of the write-combining buffer. -/
def wcbLine0 : WcbLine := ⟨0, 3, 1, 1, 0, 0⟩

/-- The life cycle permits diagnostics. -/
def diagnosing : State := { State.reset with fuses := { Fuses.init with lifeCycle := 3 } }

/-- A peer of a client. -/
def peer0 : Peer := ⟨7, 0, 0x0A000002, 5000, false, 99, true, 0, 10, 20, [], none, false, 0, 100, [], [], false, 0, 0⟩

/-- A datagram of that peer: the next in sequence, one fragment. -/
def dg (dtype flags : Nat) (body : List Nat) : Datagram :=
  ⟨0, 0x0A000002, 5000, false, body.length + 32, 0x4859, 1, dtype, flags, 7, 99, 10, 0, 0, 100, 0, body.length, body⟩

/-- A HELLO of an endpoint that is no peer. -/
def helloDg (body : List Nat) : Datagram := { dg 1 0x4000 body with ip := 1, peerId := 0xFFFF, cookie := 0 }

/-- A model with one kind of decode step that takes no tile. -/
def package0 : Package := ⟨1, [], 0, 4096, 0, [⟨1, 1, 4, 1, 0, [⟨⟨0, 0, 0⟩, ⟨0, 0, 0⟩, ⟨0, 0, 0⟩, ⟨0, 0, 0⟩, []⟩]⟩], [], [], [], [], []⟩

/-- A session of the peer. -/
def session0 : Session := ⟨3, 0, .opened, some 7, 1, 0, 255, 4096, 0, none, [], none, false⟩
/-- A request in progress, with one step not placed. -/
def request0 : Request := ⟨5, 0, [], [], 1, 9, [⟨0, 1, 1, 9, 1, 1, 1, 1, .waiting⟩]⟩
/-- A RESULT. -/
def result0 : Result := ⟨0, 5, 0, true, 1, 64, [1, 2], none⟩

/-- A model is loaded, a port is up, and a client's peer is known. -/
def clientState (peers : List Peer) (sessions : List Session) : State :=
  { ((serving.setFld Reg.NET_PORT_STATUS 2 0 3).setFld Reg.NET_MTU 13 0 1500).setFld Reg.ADM_ROUND_LEN 15 0 1000 with
    client := { Client.init with peers := peers, sessions := sessions, models := [⟨package0, false⟩] } }

/-- A SUBMIT of one generated token for the session. -/
def submitBody : List Nat := [0, 3, 0, 0xFF] ++ beBytes 4 5 ++ beBytes 4 0 ++ beBytes 4 1 ++ List.replicate 32 0
/-- The steps it expands to. -/
def submitSteps (s : State) : List ReqStep :=
  (expand package0.kinds 0xFF 0 1 s.acceptRound (s.classFirst 0) (s.classStep 0) 0).getD []

/-- A token for any model, valid at any time, signed under the plain key. -/
def tokenHead : List Nat := [0, 1, 0, 0, 0, 0, 255, 0] ++ List.replicate 16 0 ++ List.replicate 8 255 ++ List.replicate 16 0
def openBody : List Nat := (beBytes 4 1 ++ beBytes 4 64 ++ List.replicate 8 0) ++ (tokenHead ++ plainSign tokenHead)
/-- The issuer's key is known and time is set. -/
def openState (s : State) : State := { s with trust := { Trust.init with issuers := [(0, plainKey)] }, tb := { TimeBase.init with isSet := true } }

/-- A package of one kind, with its cost table alone. -/
def costTable : List Nat := leBytes 4 0x43544231 ++ leBytes 2 1 ++ leBytes 2 1 ++ leBytes 4 0 ++ leBytes 4 500 ++ leBytes 4 4000 ++
  List.replicate 44 0 ++ [1, 1, 1, 0] ++ leBytes 2 1 ++ leBytes 2 1 ++ leBytes 4 96 ++ List.replicate 84 0
def packageHead : List Nat := leBytes 4 0x484B5047 ++ leBytes 2 1 ++ leBytes 2 5 ++ leBytes 4 9 ++ leBytes 4 0 ++ leBytes 4 64 ++
  [0, 0, 0, 0] ++ leBytes 8 928 ++ List.replicate 32 0 ++ [2, 3, 4, 5, 6].flatMap (fun k => [k] ++ List.replicate 15 0 ++ leBytes 8 768 ++
    (if k = 3 then leBytes 8 160 ++ beBytes 32 0x7e3f7ac7baa7bdfd113ca7eed45c014ac2d33527019d0d4714ccbd01f3ab57e2 else leBytes 8 0 ++ beBytes 32 0xe3b0c44298fc1c149afbf4c8996fb92427ae41e4649b934ca495991b7852b855))
def packageBytes : List Nat := packageHead ++ (plainSign packageHead ++ costTable)
/-- That package is loaded whole; its signer's key is known. -/
def loadState (bytes : List Nat) : State :=
  { clientState [peer0] [] with
    trust := { Trust.init with signers := [(0, plainKey)] }
    client := { Client.init with loads := [⟨9, bytes.length, bytes, 7, none⟩] } }

/-- A datagram sent and not yet acknowledged. -/
def sentDg (tries : Nat) : OutDg := ⟨4, 7, true, 0, true, [1, 2], tries, 0⟩

theorem pair_of_isSome {α β : Type} {x : Option (α × β)} (h : x.isSome = true) : ∃ b a, x = some (a, b) := by
  obtain ⟨⟨a, b⟩, e⟩ := Option.isSome_iff_exists.1 h
  exact ⟨b, a, e⟩

theorem okPackage_of_isOk {e : Except Nat Package} (h : e.isOk = true) : ∃ w, e = .ok w := by
  cases e with
  | ok w => exact ⟨w, rfl⟩
  | error => simp [Except.isOk, Except.toBool] at h

theorem package_verified : ∃ k, verifyPackage (loadState packageBytes) 9 packageBytes = .ok k := by
  have h0 : packageHead.length = 384 := by decide +kernel
  have e1 : 64 + 64 * leAt packageBytes 6 2 = 384 := by decide +kernel
  have h1 : SMap.get? (loadState packageBytes).trust.signers (leAt packageBytes 20 1) = some plainKey := by decide +kernel
  have h2 : packageBytes.take 384 = packageHead := List.take_left' h0
  have h3 : (packageBytes.drop 384).take 384 = plainSign packageHead := by
    rw [packageBytes, List.drop_left' h0, List.take_left' (plainSign_length _)]
  have h4 : decide (384 + 384 ≤ packageBytes.length) = true := by decide +kernel
  apply okPackage_of_isOk
  unfold verifyPackage
  simp only [e1, h1, h2, h3, h4, rsaVerify_plainSign]
  decide +kernel

theorem open_token :
    ((openState (clientState [peer0] [])).heard peer0 (dg 2 0x4000 openBody)).tokenValid ((dg 2 0x4000 openBody).body.drop 16) = true := by
  have h0 : tokenHead.length = 48 := by decide +kernel
  have e : (dg 2 0x4000 openBody).body.drop 16 = tokenHead ++ plainSign tokenHead := List.drop_left' (by decide +kernel)
  have h1 : SMap.get? ((openState (clientState [peer0] [])).heard peer0 (dg 2 0x4000 openBody)).trust.issuers
      (beAt (tokenHead ++ plainSign tokenHead) 4 1) = some plainKey := by decide +kernel
  have h2 : (tokenHead ++ plainSign tokenHead).take 48 = tokenHead := List.take_left' h0
  have h3 : (tokenHead ++ plainSign tokenHead).drop 48 = plainSign tokenHead := List.drop_left' h0
  rw [e]
  unfold State.tokenValid
  simp only [h1, h2, h3, rsaVerify_plainSign]
  decide +kernel

theorem loadState_load (b : List Nat) : (loadState b).load? 9 = some ⟨9, b.length, b, 7, none⟩ := rfl

/-- A record of an event, staged. -/
def eventRec : EventRec := ⟨1, 0, 5, 0, 1, 0, 0, 0⟩
/-- The card answers and an event is staged. -/
def carded : State := { State.reset.setFld Reg.CFG_STATUS 31 31 1 with evt := { Recorder.init with staging := [eventRec] } }

/-- A batch step whose last part every tile has reported. -/
def batch0 : Batch := ⟨4, 1, 1, 1, 0, [⟨3, 5, 0, 0, 9⟩], some 0, [(0, 1)], [(0, 1)], [], none, false, false, false, none, none, [], none⟩
/-- A request whose step is the batch step's member. -/
def batchState (b : Batch) : State :=
  { clientState [peer0] [{ session0 with request := some request0 }] with sage := { Sage.init with batches := [b] } }

/-- A fabric packet to an address. -/
def fabPkt (ptype dst : Nat) : FabPacket := ⟨ptype, 0, 0, 0, dst, 0, 9, 0, 0, 0, 128, 0, 7, [], false⟩
/-- What a peer says of itself. -/
def peerBody (id addr : Nat) : LinkBody := ⟨[0, 0, 0, 0], none, id, 0, false, false, true, some addr, 0, 0⟩
/-- Fabric port 11 in a state, and what it holds. -/
def port11 (v : Nat) (p : FabPort) : State :=
  { State.reset.setFld (Reg.FAB_PORT_STATUS + 11) 2 0 v with fab := { Fabric.init with ports := [(11, p)] } }
/-- A codeword kept for replay. -/
def codeword0 : Codeword := ⟨true, true, 5, 0, [.head (fabPkt 1 0), .data 0]⟩

/-- A map of four modules: this one is the root; of its children 1 and 2 the second has the child 3, and 1 and 2 are neighbours. -/
def fabMap : FabMap := ⟨5, [
  ⟨10, 0, 0, true, false, false, none, 0, [⟨1, 0, 2⟩, ⟨2, 0, 1⟩]⟩,
  ⟨11, 1, 1, true, false, false, some 0, 0, [⟨0, 2, 0⟩, ⟨1, 2, 2⟩]⟩,
  ⟨12, 2, 1, true, false, false, some 0, 0, [⟨0, 1, 0⟩, ⟨1, 0, 3⟩, ⟨2, 1, 1⟩]⟩,
  ⟨13, 3, 2, true, false, false, some 2, 0, [⟨0, 1, 2⟩]⟩]⟩
/-- Two ports are up; on port 1 a number of flits is not acknowledged. -/
def fabState (sent : Nat) (transit : List FabPacket) : State :=
  { (State.reset.setFld (Reg.FAB_PORT_STATUS + 1) 2 0 4).setFld (Reg.FAB_PORT_STATUS + 2) 2 0 4 with
    fab := { Fabric.init with
      active := some fabMap
      transit := transit
      ports := [(1, { FabPort.init with peer := some (peerBody 12 2), sent := [sent, 0, 0, 0] }), (2, { FabPort.init with peer := some (peerBody 11 1) })] } }
/-- The root, with a map on its way and addresses that are ready. -/
def rootState (ready : List Nat) : State :=
  { State.reset.setFld Reg.FAB_STATUS 31 31 1 with
    fab := { Fabric.init with
      next := some fabMap
      ready := ready
      building := [⟨⟨10, 0, 0, true, false, false, none, 0, []⟩, none⟩, ⟨⟨12, 2, 1, true, false, false, some 0, 0, []⟩, none⟩] } }
/-- A candidate is known. -/
def candState (s : State) (id : Nat) : State := { s with fab := { s.fab with cand := some ⟨id⟩ } }

/-- Ensemble slot 7 in a state: ensemble 5 of model 1, one member and leader at address 9. -/
def ensIn (s : State) (v : Nat) : State :=
  ((((((s.setFld (ensReg Reg.FAB_ENS_CTRL 7) 2 0 v).setFld (ensReg Reg.FAB_ENS_CTRL 7) 14 8 1).setFld (ensReg Reg.FAB_ENS_CTRL 7) 23 16 5).setFld
    (ensReg Reg.FAB_ENS_MEMBER 7) 13 0 9).setFld (ensReg Reg.FAB_ENS_LEADER 7) 13 0 9).setReg (ensReg Reg.FAB_ENS_MODEL 7) 1)
/-- Every ensemble slot leads. -/
def slotsTaken : State := (List.range 8).foldl (fun s e => s.setFld (ensReg Reg.FAB_ENS_CTRL e) 2 0 2) State.reset
/-- A half-link module is in a state at position 0 with its full width. -/
def hlk (m v : Nat) (l : Link) : State :=
  { (((serving.setFld (hmReg m) 2 0 v).setFld (hmReg m) 15 8 0).setFld (hmReg m) 5 4 2) with link := l }
/-- A frame and its flow. -/
def frame0 : HlkFrame := ⟨true, 0, 0, 0, false, true, 7, 0, false, 0, 0⟩
def flow0 : HlkFlow := ⟨0, 0, 0, 0, 0⟩
/-- Power in a state and a step of Table 14.5. -/
def powerIn (v step : Nat) : State := { powered.setFld Reg.PWR_STATUS 2 0 v with pwr := { PowerState.init with auxOn := true, mainIn := true, step := step } }
/-- A cluster in a state. -/
def clIn (s : State) (ci v : Nat) : State := (s.setFld (Reg.PWR_CL + ci) 31 29 v).setFld (Reg.PWR_CL + ci) 26 24 7

/-- A record of an open trip. -/
def trip0 : TripRec := ⟨1, 0, 1, true, 0x0507, 0, 0, 0, 0, 1, [], [], []⟩
/-- Coolant flows well at an inlet of 30 C. -/
def cooled (v : Nat) : State :=
  { (powered.setFld Reg.THM_COOL_TEMP 15 0 300).setFld Reg.THM_STATUS 2 0 v with
    thm := { Thermal.init with flows := [400] }
    card := { Card.init with trips := [trip0] } }

/-- A step of the start sequence. -/
def starting (n : Nat) : State := (powered.setFld Reg.MGT_START_STATUS 2 0 1).setFld Reg.MGT_START_STATUS 11 8 n
/-- What the hardware reports when all is well. -/
def startGood : StartResult := ⟨true, true, true, true, true, 0, true, true, [], [], [0, 1, 2], [], []⟩
/-- Time comes from PTP on a port that is up, from a master. -/
def ptpState (port : Nat) : State :=
  { (State.reset.setFld (Reg.NET_PORT_STATUS + port) 2 0 3).setFld Reg.MGT_TIME_STATUS 9 8 port with
    tb := { TimeBase.init with isSet := true }
    ptp := ⟨[], some ⟨0, 0, 0, 0, 0, 0, 0, 77, true⟩, none, some 1000, some 50⟩ }
/-- Time comes from another source. -/
def timeFrom (s : State) (source : Nat) : State := { s with boot := { s.boot with timeSource := source }, tb := { TimeBase.init with isSet := true } }

/-- A configuration image of one record, without its signature; its CRC-32 is that of the first 128 bytes. -/
def containerHead : List Nat := leBytes 4 0x4C494C31 ++ leBytes 2 1 ++ [1, 0] ++ leBytes 4 1 ++ leBytes 4 904 ++ leBytes 4 1 ++
  List.replicate 44 0 ++ leBytes 2 0x0901 ++ leBytes 2 6 ++ List.replicate 60 0 ++ leBytes 4 0xbded0e7b ++ plainKey
def containerBytes : List Nat := containerHead ++ plainSign containerHead
/-- A boot copy, without its signature. -/
def bootHead : List Nat := leBytes 4 0x48424F54 ++ leBytes 2 1 ++ List.replicate 6 0 ++ leBytes 4 840 ++ List.replicate 52 0 ++ plainKey
def bootBytes : List Nat := bootHead ++ plainSign bootHead
/-- Bytes on the card from address 0 on. -/
def cardBytes (l : List Nat) : SMap Nat := l.zipIdx.map (fun x => (x.2, x.1))
/-- A card write in a state, its bytes already on the card. -/
def cardJob (target : Nat) (l : List Nat) : CardJob := ⟨target, 0, l.length, l.length, l, l.length⟩
def cardIn (v : Nat) (j : CardJob) (l hash : List Nat) : State :=
  { State.reset.setFld Reg.CFG_CARD_CTRL 2 0 v with
    card := { Card.init with bytes := cardBytes l, job := some j }
    fuses := { Fuses.init with owners := [hash], vendorHash := hash } }

theorem cardBytes_get (l : List Nat) (k i : Nat) : SMap.get? ((l.zipIdx k).map (fun x => (x.2, x.1))) (k + i) = l[i]? := by
  induction l generalizing k i with
  | nil => rfl
  | cons b r ih =>
    rw [List.zipIdx_cons, List.map_cons, SMap.get?]
    cases i with
    | zero => simp
    | succ i =>
      rw [if_neg (by simp), show k + (i + 1) = k + 1 + i by omega, ih, List.getElem?_cons_succ]

theorem cardIn_read (v : Nat) (j : CardJob) (l hash : List Nat) : (cardIn v j l hash).card.read 0 l.length = l := by
  apply List.ext_getElem?
  intro i
  have h := cardBytes_get l 0 i
  simp only [Nat.zero_add] at h
  show ((List.range l.length).map (fun i => SMap.getD (cardBytes l) (0 + i) 0xFF))[i]? = l[i]?
  rw [List.getElem?_map]
  by_cases hi : i < l.length
  · rw [List.getElem?_range hi, List.getElem?_eq_getElem hi] at *
    simp [SMap.getD, cardBytes, h]
  · rw [List.getElem?_eq_none (by simpa using hi), List.getElem?_eq_none (by simpa using hi)]
    rfl

theorem ok_of_isOk {ε α : Type} {e : Except ε α} (h : e.isOk = true) : ∃ w, e = .ok w := by
  cases e with
  | ok w => exact ⟨w, rfl⟩
  | error => simp [Except.isOk, Except.toBool] at h

theorem some_pair {α β : Type} {o : Option (α × β)} {x : α} {y : β} (a : o.map Prod.fst = some x) (b : o.map Prod.snd = some y) : o = some (x, y) := by
  cases o with
  | none => simp at a
  | some p => simp at a b; rw [← a, ← b]

theorem container_ok : ∃ c, checkContainer containerBytes false (some (keyHash plainKey)) (keyHash plainKey) (some 0) = .ok c := by
  have h0 : containerHead.length = 520 := by decide +kernel
  have e1 : leAt containerBytes 12 4 = 904 := by decide +kernel
  have e2 : leAt containerBytes 16 2 = 1 := by decide +kernel
  have e3 : parseRecs false 1 ((containerBytes.take 904).drop 64) 64 = some ([(0x0901, 6, 64, [0, 0, 0, 0, 0, 0])], 80) := by
    have a : (parseRecs false 1 ((containerBytes.take 904).drop 64) 64).map Prod.fst = some [(0x0901, 6, 64, [0, 0, 0, 0, 0, 0])] := by decide +kernel
    have b : (parseRecs false 1 ((containerBytes.take 904).drop 64) 64).map Prod.snd = some 80 := by decide +kernel
    exact some_pair a b
  have e4 : containerBytes.length = 904 := by rw [containerBytes, List.length_append, h0, plainSign_length]
  have h2 : containerBytes.take 520 = containerHead := List.take_left' h0
  have h3 : (containerBytes.drop 128).take 776 = containerBytes.drop 128 := List.take_of_length_le (by rw [List.length_drop, e4])
  have h4 : (containerBytes.drop 128).drop 392 = plainSign containerHead := by rw [List.drop_drop]; exact List.drop_left' h0
  have h5 : ((containerBytes.drop 128).drop 4).take 388 = plainKey := by decide +kernel
  set_option maxRecDepth 20000 in
  have h6 : leAt (containerBytes.drop 128) 0 4 = crc32 (containerBytes.take 128) := by decide +kernel
  have h7 : leAt containerBytes 24 8 = 0 := by decide +kernel
  have h8 : ¬(0 ≠ Config.moduleId.toNat ∧ (false = true ∨ 0 ≠ 0)) := by simp
  apply ok_of_isOk
  unfold checkContainer
  simp only [e1, e2, e4, e3, Nat.reduceAdd, Nat.reduceDiv, Nat.reduceMul, h2, h3, h4, h5, h6, h7, h8, if_false, rsaVerify_plainSign]
  decide +kernel

theorem boot_ok (f : Fuses) (hf : f.vendorHash = keyHash plainKey) (hs : f.minSvn = 0) : ∃ r, checkBoot f bootBytes = .ok r := by
  have h0 : bootHead.length = 456 := by decide +kernel
  have e1 : leAt bootBytes 12 4 = 840 := by decide +kernel
  have e2 : leAt bootBytes 8 4 = 0 := by decide +kernel
  have e3 : leAt bootBytes 0 4 = 0x48424F54 := by decide +kernel
  have e5 : leAt bootBytes 4 2 = 1 := by decide +kernel
  have e4 : bootBytes.length = 840 := by rw [bootBytes, List.length_append, h0, plainSign_length]
  have h2 : bootBytes.take 456 = bootHead := List.take_left' h0
  have h3 : (bootBytes.drop 64).take 776 = bootBytes.drop 64 := List.take_of_length_le (by rw [List.length_drop, e4])
  have h4 : (bootBytes.drop 64).drop 392 = plainSign bootHead := by rw [List.drop_drop]; exact List.drop_left' h0
  have h5 : ((bootBytes.drop 64).drop 4).take 388 = plainKey := by decide +kernel
  apply ok_of_isOk
  unfold checkBoot
  simp only [e1, e2, e3, e4, e5, hf, hs, Nat.reduceSub, Nat.reduceAdd, h2, h3, h4, h5, rsaVerify_plainSign]
  decide +kernel

theorem cardIn_vendor (v : Nat) (j : CardJob) (l hash : List Nat) : (cardIn v j l hash).fuses.vendorHash = hash := rfl

theorem cardIn_check (v target : Nat) (cal : Bool) (l hash : List Nat) (above : Option Nat) :
    (cardIn v (cardJob target l) l hash).checkCard 0 l.length cal above = checkContainer l cal (some hash) hash above := by
  unfold State.checkCard
  rw [cardIn_read]
  rfl

/-- The card holds the image, or the boot copy, that the job has written. -/
theorem image_ok : ∃ c, (cardIn 3 (cardJob 1 containerBytes) containerBytes (keyHash plainKey)).checkCard 0 containerBytes.length (decide (1 = 2))
    (if (1 : Nat) = 1 then some ((cardIn 3 (cardJob 1 containerBytes) containerBytes (keyHash plainKey)).reg Reg.CFG_IMAGE_SEQ).toNat else none) = .ok c := by
  rw [cardIn_check]
  exact container_ok
theorem bootCopy_ok : ∃ r, checkBoot (cardIn 3 (cardJob 3 bootBytes) bootBytes (keyHash plainKey)).fuses
    ((cardIn 3 (cardJob 3 bootBytes) bootBytes (keyHash plainKey)).card.read 0 bootBytes.length) = .ok r := by
  rw [cardIn_read]
  exact boot_ok _ (cardIn_vendor _ _ _ _) rfl

/-- An owner's session is open on endpoint 5. -/
def owned : State := { powered with
  fuses := { Fuses.init with owners := [keyHash plainKey], seeds := [[1]], lifeCycle := 2 }
  mgmt := { Mgmt.init with sessions := [⟨3, 5, true, some plainKey, 0⟩], ownerKeys := [(5, plainKey)], derived := true } }

/-- A ticket of this module, without its signature: a new owner for the life cycle's state 1. -/
def ticketHead : List Nat := [0x4B, 0x43, 0x49, 0x54, 1, 0, 0, 0] ++ (leBytes 8 Config.moduleId.toNat ++ (List.replicate 48 0 ++ plainKey))
def ticketBytes : List Nat := ticketHead ++ plainSign ticketHead
/-- A module in the hands of its vendor that has answered EXPORT_ID. -/
def vendored (hash : List Nat) : State := { powered with
  fuses := { Fuses.init with vendorHash := hash, lifeCycle := 4 }
  mgmt := { Mgmt.init with nonce := some (List.replicate 16 0) } }

theorem leNat_leBytes (n v : Nat) : leNat (leBytes n v) = v % 256 ^ n := by
  induction n generalizing v with
  | zero => simp [leBytes, leNat, Nat.mod_one]
  | succ n ih =>
    have e : leBytes (n + 1) v = v % 256 :: leBytes n (v / 256) := by
      simp only [leBytes, List.range_succ_eq_map, List.map_cons, List.map_map, pow_zero, Nat.div_one]
      congr 1
      apply List.map_congr_left
      intro i _
      simp [Function.comp, pow_succ', Nat.div_div_eq_div_mul]
    have e2 : leNat (v % 256 :: leBytes n (v / 256)) = v % 256 + 256 * leNat (leBytes n (v / 256)) := rfl
    rw [e, e2, ih, pow_succ', Nat.mod_mul]

theorem vendored_hash (hash : List Nat) : (vendored hash).fuses.vendorHash = hash := rfl

theorem ticket_ok : (vendored (keyHash plainKey)).ticket ticketBytes = .ok (1, List.replicate 32 0) := by
  have hl : (leBytes 8 Config.moduleId.toNat).length = 8 := by simp [leBytes]
  have h0 : ticketHead.length = 452 := by decide +kernel
  have e1 : leAt ticketBytes 0 4 = 0x5449434B := by decide +kernel
  have e2 : leAt ticketBytes 8 8 = Config.moduleId.toNat := by
    have h : (ticketBytes.drop 8).take 8 = leBytes 8 Config.moduleId.toNat := by
      rw [ticketBytes, ticketHead, List.append_assoc, List.drop_left' (by rfl), List.append_assoc, List.take_left' hl]
    rw [leAt, h, leNat_leBytes]
    exact Nat.mod_eq_of_lt (lt_of_lt_of_le Config.moduleId.isLt (by decide))
  have e3 : leAt ticketBytes 4 1 = 1 := by decide +kernel
  have e4 : ticketBytes.length = 836 := by rw [ticketBytes, List.length_append, h0, plainSign_length]
  have h1 : (ticketBytes.drop 64).take 388 = plainKey := by decide +kernel
  have h2 : ticketBytes.take 452 = ticketHead := List.take_left' h0
  have h3 : ticketBytes.drop 452 = plainSign ticketHead := List.drop_left' h0
  have h4 : (ticketBytes.drop 48).take 16 = List.replicate 16 0 := by decide +kernel
  have h5 : (ticketBytes.drop 16).take 32 = List.replicate 32 0 := by decide +kernel
  unfold State.ticket
  have hv := vendored_hash (keyHash plainKey)
  have hn : (vendored (keyHash plainKey)).mgmt.nonce = some (List.replicate 16 0) := rfl
  simp only [e1, e2, e3, e4, h1, h2, h3, h4, h5, hv, hn, rsaVerify_plainSign, ne_eq, not_true_eq_false, or_false, if_false, Bool.not_true, Bool.false_eq_true]

/-! ## Worked examples of the spec -/

/-- 00, the example after R16: the tile at (41, 9). -/
theorem test_tile_at_41_9 :
    9 * 72 + 41 = 689 ∧ tileX 689 = 41 ∧ tileY 689 = 9 ∧ halfOf 689 = .east ∧ clusterOf 689 = 46 ∧ tileReg 689 0x200 = 0x012B1200 := by decide

/-- 19 R552: the check value of CRC-32 over "123456789". -/
theorem test_crc32_check_value : crc32 [0x31, 0x32, 0x33, 0x34, 0x35, 0x36, 0x37, 0x38, 0x39] = 0xCBF43926 := by decide +kernel

/-- SHA-256 of "abc" (FIPS 180-4, which 19 names). -/
theorem test_sha256_abc : beNat (sha256 [0x61, 0x62, 0x63]) =
    0xBA7816BF8F01CFEA414140DE5DAE2223B00361A396177A9CB410FF61F20015AD := by decide +kernel

/-- 09, the example after Table 9.2: the word 1 at W = 8 is stored with 0x60, and a flipped bit 0 is corrected. -/
theorem test_sram_word_at_8 :
    sramEncode 1 8 = 0x60#8 ++ 1#64 ∧ sramDecode (sramEncode 1 8) 8 = (.clean, 1) ∧
    sramDecode (sramEncode 1 8 ^^^ 1) 8 = (.dataCorrected 0, 1) := by decide +kernel

/-- The same example: read at W = 0 the word is an address error, and poison at W = 8 is stored with 0x18. -/
theorem test_sram_address_error_and_poison :
    (sramDecode (sramEncode 1 8) 0).1 = .addressError 3 ∧ sramPoison 8 = 0x18#8 ++ 0#64 ∧ (sramDecode (sramPoison 8) 8).1 = .poison := by decide +kernel

/-- 07, the example after R203: offset 0x36B_4A60 in pair mode. -/
theorem test_slice_offset_pair :
    sliceMap 0x36B4A60 0 = (3, 3, 0x0B4A60) ∧ bankRowCol 3 0x0B4A60 = (6, 180, 1376) := by decide +kernel

/-- The same offset in striped mode. -/
theorem test_slice_offset_striped :
    sliceMap 0x36B4A60 8 = (2, 3, 0x0D6960) ∧ bankRowCol 3 0x0D6960 = (7, 214, 1120) := by decide +kernel

/-- 08, the example after R238: address 0x80_0012_3400 and the next block. -/
theorem test_stack_address :
    stackMap 0x8000123400 = ⟨13, 7, 0, 0, 2, 0, 0, 256⟩ ∧ (stackMap 0x8000123500).stack = 12 := by decide +kernel

/-- 04, the example after R134: 1.3125 to E2M1 with the draws 7,000,000 and 12,000,000. -/
theorem test_stochastic_drain :
    fmtE2M1.magCode (.stochastic 7000000) false 21 (-4) = 3 ∧ fmtE2M1.magCode (.stochastic 12000000) false 21 (-4) = 2 := by decide +kernel

/-- 15, the example after R451: diodes at 87.2 and 94.6 C, the model at 88.0 C. -/
theorem test_spot_with_a_suspect_diode : chooseTwo 872 946 880 = ⟨3, 872, some 1⟩ := by decide +kernel

/-! ## Ill-formed commands are refused -/

/-- One command for each check, each with one operand out of its range. -/
def illFormed : List Instr := [
  .matmul ⟨2304, 0, false⟩, .bankOwnerWrite 2304, .commandComplete 0 (.rae 4), .inboundWritePerformed 0 12,
  .nocWrite { packet .memRead 0 with len := 257 }, .nocWrite { packet .memRead 0 with addr := 2 ^ 48 },
  .nocWrite { packet .memRead 0 with pieces := [⟨8, 0, 0, false⟩] }, .bondedRefresh 0 8 0, .bondedRefresh 0 0 16,
  .resetW [(2304, 0)], .stackRefresh 16 0, .paceMonitorRead [], .ensPlanSend 8, .hello { helloDg [] with port := 4 },
  .hello (helloDg [256]), .datagramDiscarded (.frame 4), .closeComplete 16384, .ackTimer 0xFFFF, .retransmissionTimeout 0 (2 ^ 32),
  .codeword 12 codeword0, .codeword 0 { codeword0 with seq := 512 }, .codeword 0 { codeword0 with flits := [.data 4] },
  .linkFlit 0 (peerBody (2 ^ 64) 0), .linkFlit 0 (peerBody 0 (2 ^ 14)), .fabWrite { fabPkt 1 0 with vl := 4 },
  .fabWrite (fabPkt 1 (2 ^ 14)), .fabricStall 0 4, .fabLinkDown 0 8, .links 0 [⟨12, 0, 0⟩],
  .map 0 [⟨0, 2 ^ 14, 0, false, false, false, none, 0, []⟩], .mapReady (2 ^ 14) 0, .activate (2 ^ 32), .leave (2 ^ 64),
  .ensForm 0 0 0 101 0 [], .ensForm 0 0 0 0 0 [2 ^ 14], .hlkFrame 108 true frame0 flow0, .hlkFrame 0 true { frame0 with plane := 2 } flow0,
  .powerUpStepDone 32 [], .seqTimeout 640 0, .converterFailed 5, .phaseFailed 144 0, .phaseFailed 0 3, .dieRegTied 0 3,
  .cooldownCheck [], .startStepDone { startGood with rates := [4] }, .ptpMessage 4 0 (.sync 0 none 0), .mgtTimeSet (2 ^ 32) 0,
  .cfgCardStart 16 0 true, .thymeSlice 0 [⟨0, 4, 0, true, [], [], [], []⟩], .vdmRead 0 256 0 1, .lcRequest 0 none 0 0 [256],
  .registerWrite (2 ^ 32) 0, .portUp 0 4, .portDown 0 3, .tokenBucketRefill 0 17 .west, .packageVerificationDone (2 ^ 32)]

theorem test_ill_formed_refused : illFormed.all (fun i => !i.wellFormed) = true := by decide +kernel

theorem test_well_formed_accepted :
    [Instr.matmul cMatmul, .nocWrite (packet .memRead 0), .hello (helloDg []), .codeword 11 codeword0, .fabWrite (fabPkt 1 0),
      .hlkFrame 107 true frame0 flow0, .startStepDone startGood, .registerWrite 0 0].all Instr.wellFormed = true := by decide +kernel

/-! ## The premises of the statements can be met -/

/-- States and operands that meet the premises of StepRunsTheFrontCommand, clause by clause. -/
theorem test_premises_step_runs_the_front_command :
    (∃ (c : Instr) (q : List Instr) (s : State), s.pending = c :: q) ∧
    (∃ (s : State), s.pending = []) :=
  ⟨⟨Instr.leasePulse, [Instr.mainOff], { State.reset with pending := [Instr.leasePulse, Instr.mainOff] }, by decide +kernel⟩,
    ⟨State.reset, by decide +kernel⟩⟩

/-- States and operands that meet the premises of StepKeepsCanonicalForm, clause by clause. -/
theorem test_premises_step_keeps_canonical_form :
    (∃ s t : State, s.wf ∧ step s = .next t) :=
    ⟨{ State.reset with now := 5 }, { State.reset with now := 6 }, ⟨rfl, (fun _ h => nomatch h), rfl, (fun _ h => nomatch h), rfl, rfl⟩,
      rfl⟩

/-- States and operands that meet the premises of RegistersHoldWhatIsWritten, clause by clause. -/
theorem test_premises_registers_hold_what_is_written :
    (∃ hi lo hi' lo' : Nat, lo ≤ hi ∧ hi < 32 ∧ (hi' < lo ∨ hi < lo')) :=
    ⟨30, 0, 31, 31, by decide⟩

/-- States and operands that meet the premises of EventsAreRecordedInOrder, clause by clause. -/
theorem test_premises_events_are_recorded_in_order :
    (∃ (s : State), s.evt.full = false ∧ s.evt.slot = 131071 ∧ s.sup.list.length < 64) ∧
    (∃ (s : State), (s.evt.full = true ∨ (s.evt.slot < 131071 ∧ 65536 ≤ s.evt.staging.length)) ∧ s.sup.list.length < 64) ∧
    (∃ (s : State), (s.evt.full = true ∨ (s.evt.slot < 131071 ∧ 65536 ≤ s.evt.staging.length)) ∧ s.sup.list.length < 64) :=
  ⟨⟨{ State.reset with evt := { Recorder.init with head := 131072 } }, by decide +kernel, by decide +kernel, by decide +kernel⟩,
    ⟨{ State.reset with evt := { Recorder.init with full := true } }, by decide +kernel, by decide +kernel⟩,
    ⟨{ State.reset with evt := { Recorder.init with staging := List.replicate 65536 ⟨1, 0, 0, 0, 0, 0, 0, 0⟩ } }, Or.inr ⟨by decide +kernel,
      le_of_eq List.length_replicate.symm⟩, by decide +kernel⟩⟩

/-- States and operands that meet the premises of PendingListTakesEvents, clause by clause. -/
theorem test_premises_pending_list_takes_events :
    (∃ (code : Nat), severityOf code = 0) ∧
    (∃ (s : State) (code : Nat) (source : Nat) (p0 : Nat) (p1 : Nat) (p2 : Nat), severityOf code ≠ 0 ∧ (mergeKey code source p0 p1 p2).1 = 0
      ∧ s.sup.list.length < 64) ∧
    (∃ (s : State) (code : Nat) (source : Nat) (p0 : Nat) (p1 : Nat) (p2 : Nat), severityOf code ≠ 0 ∧ (mergeKey code source p0 p1 p2).1 = 0
      ∧ s.sup.list.length = 64) :=
  ⟨⟨0x0101, by decide +kernel⟩,
    ⟨State.reset, 0x0507, 0, 0, 0, 0, by decide +kernel, by decide +kernel, by decide +kernel⟩,
    ⟨{ State.reset with sup := { Supervisor.init with list := List.replicate 64 pendEntry } }, 0x0507, 0, 0, 0, 0, by decide +kernel,
      by decide +kernel, by decide +kernel⟩⟩

/-- States and operands that meet the premises of SramWordsAreCorrected, clause by clause. -/
theorem test_premises_sram_words_are_corrected :
    (∃ (b : Nat), b < 72) :=
    ⟨71, (by decide)⟩

/-- States and operands that meet the premises of WrongSramAddressesAreFound, clause by clause. -/
theorem test_premises_wrong_sram_addresses_are_found :
    (∃ (w : Nat) (b : Nat), w < 2 ^ 18 ∧ b < 18) :=
    ⟨2 ^ 18 - 1, 17, (by decide), (by decide)⟩

/-- States and operands that meet the premises of GranulesReadBack, clause by clause. -/
theorem test_premises_granules_read_back :
    (∃ (b : Nat), b < 32) :=
    ⟨31, (by decide)⟩

/-- States and operands that meet the premises of FiniteCodesConvertToThemselves, clause by clause. -/
theorem test_premises_finite_codes_convert_to_themselves :
    (∃ (f : Fmt) (c : Nat) (neg : Bool) (m : Nat) (e : Int), f ≠ .e8m0 ∧ c < 2 ^ f.width ∧ f.value c = .fin neg m e) :=
    ⟨.e5m2, 1, false, 1, -16, by decide +kernel, by decide +kernel, by decide +kernel⟩

/-- States and operands that meet the premises of UnitCommandsIssue, clause by clause. -/
theorem test_premises_unit_commands_issue :
    (∃ (s : State) (c : TileCmd), s.Takes c 0x01 ∧ ∃ (w : Work), workMatmul (s.issueView c) c.ti ((s.tile c.ti).effective c.bits) = .ok w) ∧
    (∃ (s : State) (c : TileCmd), s.Takes c 0x02 ∧ ∃ (w : Work), workConv (s.issueView c) c.ti ((s.tile c.ti).effective c.bits) = .ok w) ∧
    (∃ (s : State) (c : TileCmd), s.Takes c 0x07 ∧ ∃ (w : Work), workEltwise (s.issueView c) c.ti ((s.tile c.ti).effective c.bits) = .ok w) ∧
    (∃ (s : State) (c : TileCmd), s.Takes c 0x08 ∧ ∃ (w : Work), workReduce (s.issueView c) c.ti ((s.tile c.ti).effective c.bits) = .ok w) ∧
    (∃ (s : State) (c : TileCmd), s.Takes c 0x0C ∧ ∃ (w : Work), workIbuOp (s.issueView c) c.ti ((s.tile c.ti).effective c.bits) = .ok w) :=
  ⟨⟨sArray, cMatmul, by constructor <;> decide +kernel, work_of_isOk (by decide +kernel)⟩,
    ⟨sArray, cConv, by constructor <;> decide +kernel, work_of_isOk (by decide +kernel)⟩,
    ⟨sArray, cEltwise, by constructor <;> decide +kernel, work_of_isOk (by decide +kernel)⟩,
    ⟨sArray, cReduce, by constructor <;> decide +kernel, work_of_isOk (by decide +kernel)⟩,
    ⟨sIbu, cFill, by constructor <;> decide +kernel, work_of_isOk (by decide +kernel)⟩⟩

/-- States and operands that meet the premises of TransferCommandsIssue, clause by clause. -/
theorem test_premises_transfer_commands_issue :
    (∃ (s : State) (c : TileCmd), s.Takes c 0x03 ∧ ∃ (w : Work), workLoad (s.issueView c) c.ti ((s.tile c.ti).effective c.bits) = .ok w) ∧
    (∃ (s : State) (c : TileCmd), s.Takes c 0x04 ∧ ∃ (w : Work), workStore (s.issueView c) c.ti ((s.tile c.ti).effective c.bits) = .ok w) ∧
    (∃ (s : State) (c : TileCmd), s.Takes c 0x05 ∧ ∃ (w : Work), workGather (s.issueView c) c.ti ((s.tile c.ti).effective c.bits) = .ok w) ∧
    (∃ (s : State) (c : TileCmd), s.Takes c 0x06 ∧ ∃ (w : Work), workScatter (s.issueView c) c.ti ((s.tile c.ti).effective c.bits) = .ok w) :=
  ⟨⟨sLoad, cLoad, by constructor <;> decide +kernel, work_of_isOk (by decide +kernel)⟩,
    ⟨sArray, cStore, by constructor <;> decide +kernel, work_of_isOk (by decide +kernel)⟩,
    ⟨sGather, cGather, by constructor <;> decide +kernel, work_of_isOk (by decide +kernel)⟩,
    ⟨sGather, cScatter, by constructor <;> decide +kernel, work_of_isOk (by decide +kernel)⟩⟩

/-- States and operands that meet the premises of AttentionCommandsIssue, clause by clause. -/
theorem test_premises_attention_commands_issue :
    (∃ (s : State) (c : TileCmd), s.Takes c 0x09 ∧ ∃ (w : Work), workAttnScore (s.issueView c) c.ti ((s.tile c.ti).effective c.bits) = .ok
      w) ∧
    (∃ (s : State) (c : TileCmd), s.Takes c 0x0A ∧ ∃ (w : Work), workAttnApply (s.issueView c) c.ti ((s.tile c.ti).effective c.bits) = .ok
      w) ∧
    (∃ (s : State) (c : TileCmd), s.Takes c 0x0B ∧ ∃ (w : Work), workKvAppend (s.issueView c) c.ti ((s.tile c.ti).effective c.bits) = .ok w) :=
  ⟨⟨sAttention, cScore, by constructor <;> decide +kernel, work_of_isOk (by decide +kernel)⟩,
    ⟨sAttention, cApply, by constructor <;> decide +kernel, work_of_isOk (by decide +kernel)⟩,
    ⟨sAttention, cAppend, by constructor <;> decide +kernel, work_of_isOk (by decide +kernel)⟩⟩

/-- States and operands that meet the premises of NetworkCommandsIssue, clause by clause. -/
theorem test_premises_network_commands_issue :
    (∃ (s : State) (c : TileCmd), s.Takes c 0x0D ∧ ∃ (w : Work), workSend (s.issueView c) c.ti ((s.tile c.ti).effective c.bits) = .ok w) ∧
    (∃ (s : State) (c : TileCmd), s.Takes c 0x0E) ∧
    (∃ (s : State) (c : TileCmd), s.Takes c 0x0F) :=
  ⟨⟨sArray, cSend, by constructor <;> decide +kernel, work_of_isOk (by decide +kernel)⟩,
    ⟨sArray, cRecv, by constructor <;> decide +kernel⟩,
    ⟨sArray, cSync, by constructor <;> decide +kernel⟩⟩

/-- States and operands that meet the premises of BadCommandsFault, clause by clause. -/
theorem test_premises_bad_commands_fault :
    (∃ (s : State) (c : TileCmd) (cause : Nat), s.canIssue c.ti = true ∧ s.fetchCause c.ti = none ∧ inWindow (s.tile c.ti).pc = true ∧
      c.poison = false ∧ decodeCause ((s.tile c.ti).effective c.bits) = some cause ∧ (cClass ((s.tile c.ti).effective c.bits) = 0x01 ∨
      classCodes.contains (cClass ((s.tile c.ti).effective c.bits)) = false) ∧ s.fld (tileReg c.ti Reg.TIL_FAULT) 31 31 = 0) ∧
    (∃ (s : State) (c : TileCmd) (cause : Nat), s.canIssue c.ti = true ∧ s.fetchCause c.ti = none ∧ inWindow (s.tile c.ti).pc = true ∧
      c.poison = false ∧ decodeCause ((s.tile c.ti).effective c.bits) = some cause ∧ (cClass ((s.tile c.ti).effective c.bits) = 0x01 ∨
      classCodes.contains (cClass ((s.tile c.ti).effective c.bits)) = false) ∧ s.fld (tileReg c.ti Reg.TIL_FAULT) 31 31 = 0) :=
  ⟨⟨sArray, cmd 0x00 0 0, cIllegalClass, by decide +kernel, by decide +kernel, by decide +kernel, by decide +kernel, by decide +kernel,
      by decide +kernel, by decide +kernel⟩,
    ⟨sArray, cmd 0x01 0x80 0, cReserved, by decide +kernel, by decide +kernel, by decide +kernel, by decide +kernel, by decide +kernel,
      by decide +kernel, by decide +kernel⟩⟩

/-- States and operands that meet the premises of HandoverWritesOwners, clause by clause. -/
theorem test_premises_handover_writes_owners :
    (∃ (s : State) (c : TileCmd), s.Takes c 0x10) ∧
    (∃ (s : State) (ti : Nat) (h : Handover), (s.tile ti).handover = some h ∧ (∀ b, b < 12 → h.banks.getLsbD b = true → (s.tile ti).reaches
      b = false) ∧ 128 ≤ h.setTok) ∧
    (∃ (s : State) (ti : Nat) (h : Handover), (s.tile ti).handover = some h ∧ (∃ b, b < 12 ∧ h.banks.getLsbD b = true ∧ (s.tile ti).reaches
      b = true)) :=
  ⟨⟨sArray, cHandover, by constructor <;> decide +kernel⟩,
    ⟨withTile { Tile.init with handover := some ⟨0, 0, 0, 0, 0x81, 3, 1, true, true⟩ }, 0, ⟨0, 0, 0, 0, 0x81, 3, 1, true, true⟩,
      by decide +kernel, by decide +kernel, by decide +kernel⟩,
    ⟨withTile { Tile.init with handover := some ⟨0, 0, 0, 0, 0x81, 3, 1, true, true⟩, queue := [{ entry 0 .array 1 .none with banks := 1 }]
      }, 0, ⟨0, 0, 0, 0, 0x81, 3, 1, true, true⟩, by decide +kernel, ⟨0, by decide +kernel⟩⟩⟩

/-- States and operands that meet the premises of EndStartsTheNextSegment, clause by clause. -/
theorem test_premises_end_starts_the_next_segment :
    (∃ (s : State) (c : TileCmd), s.Takes c 0x1F ∧ (s.tile c.ti).live = [] ∧ (s.tile c.ti).segs.drop 1 ≠ []) ∧
    (∃ (s : State) (c : TileCmd), s.Takes c 0x1F ∧ (s.tile c.ti).live = [] ∧ (s.tile c.ti).segs.drop 1 = []) ∧
    (∃ (s : State) (c : TileCmd), s.Takes c 0x1F ∧ (s.tile c.ti).live ≠ []) :=
  ⟨⟨running { tileRun [] with segs := [⟨sramWindow + 0x100000, 0, 0⟩, ⟨sramWindow + 0x110000, 0, 0⟩] }, cEnd,
      by constructor <;> decide +kernel, by decide +kernel, by decide +kernel⟩,
    ⟨sArray, cEnd, by constructor <;> decide +kernel, by decide +kernel, by decide +kernel⟩,
    ⟨running { tileRun [] with queue := [entry 0 .array 1 .none] }, cEnd, by constructor <;> decide +kernel, by decide +kernel⟩⟩

/-- States and operands that meet the premises of CommandsComplete, clause by clause. -/
theorem test_premises_commands_complete :
    (∃ (s : State) (ti : Nat) (u : UnitId) (e : QEntry), (s.tile ti).readyHead u = some e ∧ (e.cls = 0x03 → foreignWord s ti (raeOwner u)
      e.swrites = none) ∧ 128 ≤ e.setTok) ∧
    (∃ (s : State) (ti : Nat) (u : UnitId) (e : QEntry), (s.tile ti).readyHead u = some e ∧ (e.cls = 0x03 → foreignWord s ti (raeOwner u)
      e.swrites = none)) ∧
    (∃ (s : State) (ti : Nat) (u : UnitId) (e : QEntry), (s.tile ti).readyHead u = some e ∧ (e.cls = 0x03 → foreignWord s ti (raeOwner u)
      e.swrites = none)) ∧
    (∃ (s : State) (ti : Nat) (u : UnitId), (s.tile ti).readyHead u = none) :=
  ⟨⟨withTile { Tile.init with queue := [{ entry 0 .vector 0x07 .none with swrites := [⟨0, 9, BitVec.allOnes 64, false⟩] }] }, 0, .vector,
      { entry 0 .vector 0x07 .none with swrites := [⟨0, 9, BitVec.allOnes 64, false⟩] }, by decide +kernel, by decide +kernel,
      by decide +kernel⟩,
    ⟨withTile { Tile.init with queue := [entry 0 (.rae 0) 0x03 .none] }, 0, (.rae 0), entry 0 (.rae 0) 0x03 .none, by decide +kernel,
      by decide +kernel⟩,
    ⟨withTile { Tile.init with queue := [entry 0 .network 0x0E (.recv 1 none 0 64)], recv := [(1, none, 0, 64)] }, 0, .network, entry 0
      .network 0x0E (.recv 1 none 0 64), by decide +kernel, by decide +kernel⟩,
    ⟨withTile { Tile.init with queue := [entry 0 .network 0x0E (.recv 1 none 0 64)], recv := [(1, none, 0, 63)] }, 0, .network,
      by decide +kernel⟩⟩

/-- States and operands that meet the premises of InboundWritesArrive, clause by clause. -/
theorem test_premises_inbound_writes_arrive :
    (∃ (s : State) (p : Packet), s.Accepts p ∧ (p.srcKind = 0 → s.crossesSplit (halfOf p.srcId) (halfOf p.dstId) = false) ∧ p.addr + p.len ≤
      sramBytes ∧ s.stealPermit p.dstId (bankOf p.addr) = true ∧ (s.tile p.dstId).eject.length < 16) ∧
    (∃ (s : State) (ti : Nat) (bank : Nat) (x : Inbound), (s.tile ti).eject.find? (fun x => decide (x.bank = bank)) = some x ∧ x.waited =
      true) ∧
    (∃ (s : State) (ti : Nat) (x : Inbound) (r : List Inbound), (s.tile ti).eject = x :: r ∧ (s.tile ti).starved = false) ∧
    (∃ (s : State) (ti : Nat) (x : Inbound) (r : List Inbound), (s.tile ti).eject = x :: r ∧ (s.tile ti).starved = true) :=
  ⟨⟨tset State.reset (Reg.TIL_BANK_OWN + 11) 8 8 1, packet .write 0x17FFE0, (by refine ⟨?_, ?_, ?_⟩ <;> decide +kernel), by decide +kernel,
      by decide +kernel, by decide +kernel, by decide +kernel⟩,
    ⟨withTile { Tile.init with eject := [⟨packet .write 0x17FFE0, 11, true⟩] }, 0, 11, ⟨packet .write 0x17FFE0, 11, true⟩,
      by decide +kernel, by decide +kernel⟩,
    ⟨withTile { Tile.init with eject := [⟨packet .write 0x17FFE0, 11, true⟩] }, 0, ⟨packet .write 0x17FFE0, 11, true⟩, [],
      by decide +kernel, by decide +kernel⟩,
    ⟨withTile { Tile.init with eject := [⟨packet .write 0x17FFE0, 11, true⟩], starved := true }, 0, ⟨packet .write 0x17FFE0, 11, true⟩, [],
      by decide +kernel, by decide +kernel⟩⟩

/-- States and operands that meet the premises of RefusedWritesChangeNothing, clause by clause. -/
theorem test_premises_refused_writes_change_nothing :
    (∃ (s : State) (p : Packet), s.Accepts p ∧ (p.srcKind = 0 → s.crossesSplit (halfOf p.srcId) (halfOf p.dstId) = false) ∧ p.addr + p.len ≤
      sramBytes ∧ s.stealPermit p.dstId (bankOf p.addr) = false) ∧
    (∃ (s : State) (p : Packet), s.Accepts p ∧ (p.srcKind = 0 → s.crossesSplit (halfOf p.srcId) (halfOf p.dstId) = false) ∧ sramBytes <
      p.addr + p.len) ∧
    (∃ (s : State) (p : Packet), s.detained p.dstId = false ∧ s.usable p.dstId = true ∧ (p.srcKind = 0 → s.crossesSplit (halfOf p.srcId)
      (halfOf p.dstId) = false) ∧ stale s p = true) :=
  ⟨⟨State.reset, packet .write 0x17FFE0, (by refine ⟨?_, ?_, ?_⟩ <;> decide +kernel), by decide +kernel, by decide +kernel,
      by decide +kernel⟩,
    ⟨tset State.reset (Reg.TIL_BANK_OWN + 11) 8 8 1, packet .write 0x17FFE1, (by refine ⟨?_, ?_, ?_⟩ <;> decide +kernel), by decide +kernel,
      by decide +kernel⟩,
    ⟨State.reset, { packet .write 0 with rtag := 1 }, by decide +kernel, by decide +kernel, by decide +kernel, by decide +kernel⟩⟩

/-- States and operands that meet the premises of GroupsSynchronise, clause by clause. -/
theorem test_premises_groups_synchronise :
    (∃ (s : State) (p : Packet) (n : Nat) (old : SyncArr), s.Accepts p ∧ (s.tile p.dstId).syncNeed p.addr = some n ∧ ((s.tile
      p.dstId).syncs.find? (fun a => a.group = p.addr)).getD ⟨p.addr, []⟩ = old ∧ n ≤ old.members.length + 1) ∧
    (∃ (s : State) (p : Packet) (old : SyncArr), s.Accepts p ∧ ((s.tile p.dstId).syncs.find? (fun a => a.group = p.addr)).getD ⟨p.addr, []⟩
      = old ∧ (∀ n, (s.tile p.dstId).syncNeed p.addr = some n → old.members.length + 1 < n)) ∧
    (∃ (s : State) (p : Packet) (e : QEntry) (w : SyncWait), s.Accepts p ∧ (s.tile p.dstId).queue.find? (fun e => match e.waits with
      | .sync w => decide (w.group = p.addr) && !w.released | _ => false) = some e ∧ e.waits = .sync w) :=
  ⟨⟨withTile { Tile.init with queue := [entry 0 .network 0x0F (.sync ⟨7, 2, false⟩)], syncs := [⟨7, [(2, none)]⟩] }, packet .sync 7, 2, ⟨7,
      [(2, none)]⟩, (by refine ⟨?_, ?_, ?_⟩ <;> decide +kernel), by decide +kernel, by decide +kernel, by decide +kernel⟩,
    ⟨withTile { Tile.init with queue := [entry 0 .network 0x0F (.sync ⟨7, 2, false⟩)] }, packet .sync 7, ⟨7, []⟩,
      (by refine ⟨?_, ?_, ?_⟩ <;> decide +kernel), by decide +kernel,
      (by intro n h; have e : (2 : Nat) = n := Option.some.inj (Eq.trans (by decide +kernel) h); subst e; decide)⟩,
    ⟨withTile { Tile.init with queue := [entry 0 .network 0x0F (.sync ⟨7, 2, false⟩)] }, packet .syncRelease 7, entry 0 .network 0x0F (.sync
      ⟨7, 2, false⟩), ⟨7, 2, false⟩, (by refine ⟨?_, ?_, ?_⟩ <;> decide +kernel), by decide +kernel, by decide +kernel⟩⟩

/-- States and operands that meet the premises of AnswersReachTheirCommands, clause by clause. -/
theorem test_premises_answers_reach_their_commands :
    (∃ (s : State) (p : Packet) (e : QEntry), p.dstKind ≠ 3 ∧ (s.tile p.dstId).entry? p.ref = some e) ∧
    (∃ (s : State) (p : Packet) (e : QEntry), (s.tile p.dstId).entry? p.ref = some e ∧ e.cls = 0x03 ∧ e.unsent.length < e.outstanding ∧
      foreignWord s p.dstId (raeOwner e.unit) (loadWrites p e.loads) = none) ∧
    (∃ (s : State) (p : Packet) (e : QEntry), p.dstKind ≠ 3 ∧ (s.tile p.dstId).entry? p.ref = some e) ∧
    (∃ (s : State) (p : Packet) (e : QEntry), p.dstKind ≠ 3 ∧ (s.tile p.dstId).entry? p.ref = some e ∧ e.cls = 0x0D) ∧
    (∃ (p : Packet), p.crcBad = false) ∧
    (∃ (p : Packet), p.crcBad = true) ∧
    (∃ (s : State) (p : Packet), p ∈ s.mesh ∧ p.escape = false) :=
  ⟨⟨withTile { Tile.init with queue := [{ entry 0 (.rae 0) 0x03 .none with outstanding := 1 }] }, packet .writeAck 0,
      { entry 0 (.rae 0) 0x03 .none with outstanding := 1 }, by decide +kernel, by decide +kernel⟩,
    ⟨withTile { Tile.init with queue := [{ entry 0 (.rae 0) 0x03 .none with outstanding := 1 }] }, packet .readData 0,
      { entry 0 (.rae 0) 0x03 .none with outstanding := 1 }, by decide +kernel, by decide +kernel, by decide +kernel, by decide +kernel⟩,
    ⟨withTile { Tile.init with queue := [{ entry 0 (.rae 0) 0x03 .none with outstanding := 1 }] }, packet .nack 0,
      { entry 0 (.rae 0) 0x03 .none with outstanding := 1 }, by decide +kernel, by decide +kernel⟩,
    ⟨withTile { Tile.init with queue := [entry 0 .network 0x0D .none] }, packet .nack 0, entry 0 .network 0x0D .none, by decide +kernel,
      by decide +kernel, by decide +kernel⟩,
    ⟨packet .readData 0, by decide +kernel⟩,
    ⟨{ packet .readData 0 with crcBad := true }, by decide +kernel⟩,
    ⟨{ State.reset with mesh := [packet .write 0] }, packet .write 0, by decide +kernel, by decide +kernel⟩⟩

/-- States and operands that meet the premises of MemoryMapsAreOneToOne, clause by clause. -/
theorem test_premises_memory_maps_are_one_to_one :
    (∃ (stripe : Nat) (o : Nat) (p : Nat), o < sliceBytes ∧ p < sliceBytes ∧ sliceMap o stripe = sliceMap p stripe) ∧
    (∃ (a : Nat) (b : Nat), a < 2 ^ 40 ∧ b < 2 ^ 40 ∧ stackMap a = stackMap b) :=
  ⟨⟨0, sliceBytes - 1, sliceBytes - 1, by decide +kernel, by decide +kernel, rfl⟩,
    ⟨2 ^ 40 - 1, 2 ^ 40 - 1, by decide +kernel, by decide +kernel, rfl⟩⟩

/-- States and operands that meet the premises of BondedControllersServe, clause by clause. -/
theorem test_premises_bonded_controllers_serve :
    (∃ (s : State) (p : Packet), s.BondedServes p) ∧
    (∃ (s : State) (p : Packet) (x : Piece), s.BondedServes p ∧ packetMem p = .own ∧ p.pieces = [x] ∧ x.poison = false ∧ x.mask =
      BitVec.allOnes 256) ∧
    (∃ (s : State) (p : Packet), p.dstKind ≠ 1 ∧ s.usable p.dstId = true ∧ s.bdmHeld p.dstId = false ∧ p.adopted = false ∧ (s.tile
      p.dstId).pairBusy (s.packetPair p).1 (s.packetPair p).2 = true) :=
  ⟨⟨bonded Tile.init, packet .memRead 0, (by refine ⟨?_, ?_, ?_, ?_⟩ <;> decide +kernel)⟩,
    ⟨bonded Tile.init, packet .memWrite 0, ⟨0, 5, BitVec.allOnes 256, false⟩, (by refine ⟨?_, ?_, ?_, ?_⟩ <;> decide +kernel),
      by decide +kernel, by decide +kernel, by decide +kernel, by decide +kernel⟩,
    ⟨bonded { Tile.init with queue := [entry 0 .bonded 0x0C (.ibu ibuFill [(0, 1)] true)] }, packet .memRead 0, by decide +kernel,
      by decide +kernel, by decide +kernel, by decide +kernel, by decide +kernel⟩⟩

/-- States and operands that meet the premises of StackControllersServe, clause by clause. -/
theorem test_premises_stack_controllers_serve :
    (∃ (s : State) (p : Packet), s.StackServes p) ∧
    (∃ (s : State) (p : Packet), s.StackServes p ∧ wholeBlock p = true ∧ (∀ x ∈ p.pieces, x.idx < 8) ∧ (p.pieces.map Piece.idx).Nodup) ∧
    (∃ (s : State) (p : Packet) (part : Nat), s.fld (Reg.STM_STACK_STATUS + p.dstId) 2 0 ≠ stkLoopback ∧ s.stm.waiting.find? (fun q =>
      decide (q.dstId = p.dstId) && decide (s.partOf q.srcId = part)) = some p ∧ p.ptype = .memRead ∧ p.dstKind = 1) :=
  ⟨⟨State.reset, stackRead, (by refine ⟨?_, ?_, ?_, ?_, ?_⟩ <;> decide +kernel)⟩,
    ⟨State.reset, stackWrite, (by refine ⟨?_, ?_, ?_, ?_, ?_⟩ <;> decide +kernel), by decide +kernel, by decide +kernel, by decide +kernel⟩,
    ⟨{ State.reset with stm := { StackTier.init with waiting := [stackRead] } }, stackRead, 0, by decide +kernel, by decide +kernel,
      by decide +kernel, by decide +kernel⟩⟩

/-- States and operands that meet the premises of PartialWritesCombine, clause by clause. -/
theorem test_premises_partial_writes_combine :
    (∃ (s : State) (p : Packet) (x : Piece), s.StackServes p ∧ p.pieces = [x] ∧ x.poison = false ∧ byteWhole x.mask = true ∧ x.idx + p.addr
      / 32 % 8 < 8 ∧ s.wcbLine (p.addr / 256) = none ∧ (s.stm.wcb.filter (fun l => l.stack = (stackMap p.addr).stack)).length < 1024) ∧
    (∃ (s : State) (stack : Nat) (block : Nat) (l : WcbLine), s.wcbLine block = some l ∧ l.stack = stack) :=
  ⟨⟨State.reset, stackByte, ⟨0, 0xAB, 0xFF, false⟩, (by refine ⟨?_, ?_, ?_, ?_, ?_⟩ <;> decide +kernel), by decide +kernel,
      by decide +kernel, by decide +kernel, by decide +kernel, by decide +kernel, by decide +kernel⟩,
    ⟨{ State.reset with stm := { StackTier.init with wcb := [wcbLine0] } }, 0, 3, wcbLine0, by decide +kernel, by decide +kernel⟩⟩

/-- States and operands that meet the premises of RefreshFollowsTemperature, clause by clause. -/
theorem test_premises_refresh_follows_temperature :
    (∃ (s : State) (ti : Nat) (layer : Nat) (bank : Nat), (s.tile ti).pairBusy layer (bank / 2) = false) ∧
    (∃ (s : State) (ti : Nat) (layer : Nat) (temp : Int), layer < 8 ∧ 850 < temp ∧ s.fld (tileReg ti Reg.BDM_STATUS) (24 + layer) (24 +
      layer) = 0) ∧
    (∃ (s : State) (ti : Nat) (layer : Nat) (t0 : Nat) (temp : Int), layer < 8 ∧ temp < 830 ∧ s.fld (tileReg ti Reg.BDM_STATUS) (24 + layer)
      (24 + layer) = 1 ∧ SMap.get? (s.tile ti).coolSince layer = some t0 ∧ t0 + 100000000 ≤ s.now) ∧
    (∃ (s : State) (ti : Nat) (layer : Nat) (t0 : Nat) (temp : Int), layer < 8 ∧ temp < 830 ∧ s.fld (tileReg ti Reg.BDM_STATUS) (24 + layer)
      (24 + layer) = 1 ∧ SMap.get? (s.tile ti).coolSince layer = some t0 ∧ ¬ (t0 + 100000000 ≤ s.now)) ∧
    (∃ (s : State) (stack : Nat) (temp : Int), stack < 16 ∧ 85 < temp ∧ s.fld (Reg.STM_STACK_STATUS + stack) 31 31 = 0) :=
  ⟨⟨State.reset, 0, 7, 15, by decide +kernel⟩,
    ⟨State.reset, 0, 7, 851, by decide +kernel, by decide +kernel, by decide +kernel⟩,
    ⟨{ tset State.reset Reg.BDM_STATUS 31 31 1 with now := 100000005, tiles := [(0, { Tile.init with coolSince := [(7, 5)] })] }, 0, 7, 5,
      829, by decide +kernel, by decide +kernel, by decide +kernel, by decide +kernel, by decide +kernel⟩,
    ⟨{ tset State.reset Reg.BDM_STATUS 31 31 1 with now := 100000004, tiles := [(0, { Tile.init with coolSince := [(7, 5)] })] }, 0, 7, 5,
      829, by decide +kernel, by decide +kernel, by decide +kernel, by decide +kernel, by decide +kernel⟩,
    ⟨State.reset, 15, 86, by decide +kernel, by decide +kernel, by decide +kernel⟩⟩

/-- States and operands that meet the premises of StackToolsRunInDiagnosticStates, clause by clause. -/
theorem test_premises_stack_tools_run_in_diagnostic_states :
    (∃ (s : State) (v : Word), v.getLsbD 1 = true ∧ s.diagnosing = true) ∧
    (∃ (s : State) (v : Word), v.getLsbD 31 = true ∧ s.diagnosing = true ∧ s.fld Reg.STM_LOOPBACK 1 0 ≠ 1 ∧ s.fld (Reg.STM_STACK_STATUS +
      getBits v 7 4) 2 0 = stkReady) ∧
    (∃ (s : State), s.fld Reg.STM_LOOPBACK 1 0 = 1 ∧ s.stm.waiting = []) ∧
    (∃ (s : State) (v : Word), v.getLsbD 1 = true ∧ v.getLsbD 31 = true ∧ s.diagnosing = false) :=
  ⟨⟨diagnosing, 2, by decide +kernel, by decide +kernel⟩,
    ⟨diagnosing.setFld (Reg.STM_STACK_STATUS + 15) 2 0 stkReady, 0x800000F0, by decide +kernel, by decide +kernel, by decide +kernel,
      by decide +kernel⟩,
    ⟨State.reset.setFld Reg.STM_LOOPBACK 1 0 1, by decide +kernel, by decide +kernel⟩,
    ⟨State.reset, 0x80000002, by decide +kernel, by decide +kernel, by decide +kernel⟩⟩

/-- States and operands that meet the premises of ScrubbingAndHandlingAdvance, clause by clause. -/
theorem test_premises_scrubbing_and_handling_advance :
    (∃ (s : State) (ti : Nat), s.fld Reg.PWR_STATUS 2 0 = 3 ∧ s.usable ti = true ∧ s.ctl.untrained.contains ti = false ∧ s.fld (tileReg ti
      Reg.INT_SCRUB_SRAM_POS) 17 0 + 1 < sramWords ∧ (s.tile ti).lineWritten (s.fld (tileReg ti Reg.INT_SCRUB_SRAM_POS) 17 0) = true ∧ (∃ i,
      (s.tile ti).readWord ti (s.fld (tileReg ti Reg.INT_SCRUB_SRAM_POS) 17 0) = (.dataCorrected i, 5))) ∧
    (∃ (s : State), s.fld Reg.PWR_STATUS 2 0 = 3) ∧
    (∃ (s : State) (e : PendEntry) (r : List PendEntry), s.sup.overflowResetW = false ∧ s.sup.overflowResetE = false ∧ s.sup.list = e :: r ∧
      e.code = 0x2602) ∧
    (∃ (s : State) (e : PendEntry) (r : List PendEntry), s.sup.overflowResetW = false ∧ s.sup.overflowResetE = false ∧ s.sup.list = e :: r ∧
      e.code = 0x2602) :=
  ⟨⟨tset { powered with tiles := [(0, { Tile.init with sram := [(196606, sramEncode 5 196606 ^^^ (1#72 <<< 3))], written := [(24575, true)]
      })] } Reg.INT_SCRUB_SRAM_POS 17 0 196606, 0, by decide +kernel, by decide +kernel, by decide +kernel, by decide +kernel,
      by decide +kernel, ⟨3, by decide +kernel⟩⟩,
    ⟨powered, by decide +kernel⟩,
    ⟨{ State.reset with sup := { Supervisor.init with list := [⟨1, 2, 0x2602, 0, true, false, (5, 0, 8), 0, 8, 0, 0⟩] } }, ⟨1, 2, 0x2602, 0,
      true, false, (5, 0, 8), 0, 8, 0, 0⟩, [], by decide +kernel, by decide +kernel, by decide +kernel, by decide +kernel⟩,
    ⟨{ State.reset with sup := { Supervisor.init with list := [⟨1, 2, 0x2602, 0, true, false, (5, 0, 8), 0, 8, 0, 0⟩] } }, ⟨1, 2, 0x2602, 0,
      true, false, (5, 0, 8), 0, 8, 0, 0⟩, [], by decide +kernel, by decide +kernel, by decide +kernel, by decide +kernel⟩⟩

/-- States and operands that meet the premises of InBankUnitsStep, clause by clause. -/
theorem test_premises_in_bank_units_step :
    (∃ (s : State) (ti : Nat) (layer : Nat) (pair : Nat) (e : QEntry) (f : IbuFields) (left : List (Nat × Nat)), (s.tile ti).queue.find?
      (fun e => e.runsOn layer pair) = some e ∧ e.waits = .ibu f left true ∧ (s.tile ti).waiting = []) :=
    ⟨bonded { Tile.init with queue := [entry 0 .bonded 0x0C (.ibu ibuFill [(0, 1)] true)] }, 0, 0, 0, entry 0 .bonded 0x0C (.ibu ibuFill
      [(0, 1)] true), ibuFill, [(0, 1)], by decide +kernel, by decide +kernel, by decide +kernel⟩

/-- States and operands that meet the premises of TileCountersClear, clause by clause. -/
theorem test_premises_tile_counters_clear :
    (∃ (s : State) (ti : Nat), s.usable ti = true) :=
    ⟨State.reset, tileCount - 1, by decide +kernel⟩

/-- States and operands that meet the premises of ModuleCountersClear, clause by clause. -/
theorem test_premises_module_counters_clear :
    (∃ (c : Instr) (l : List Nat), (c, l) ∈ [ (Instr.stmCountClr, Reg.STM_WCB_RMW :: regRange Reg.STM_CE_COUNT 32), (.admCountClr, regRange
      Reg.ADM_ACCEPTED 5), (.sesCountClr, regRange Reg.SES_OPEN_REFUSED 4), (.netCountClr, regRange Reg.NET_RX_DISCARD 8), (.fabCountClr,
      regRange Reg.FAB_PORT_REPLAY 36), (.hlkCountClr, [Reg.HLK_REPLAYS])]) ∧
    (∃ (c : Instr) (l : List Nat), (c, l) ∈ [ (Instr.stmCountClr, Reg.STM_WCB_RMW :: regRange Reg.STM_CE_COUNT 32), (.admCountClr, regRange
      Reg.ADM_ACCEPTED 5), (.sesCountClr, regRange Reg.SES_OPEN_REFUSED 4), (.netCountClr, regRange Reg.NET_RX_DISCARD 8), (.fabCountClr,
      regRange Reg.FAB_PORT_REPLAY 36), (.hlkCountClr, [Reg.HLK_REPLAYS])]) :=
  ⟨⟨.stmCountClr, Reg.STM_WCB_RMW :: regRange Reg.STM_CE_COUNT 32, by decide +kernel⟩,
    ⟨.hlkCountClr, [Reg.HLK_REPLAYS], by decide +kernel⟩⟩

/-- States and operands that meet the premises of HelloMakesAPeer, clause by clause. -/
theorem test_premises_hello_makes_a_peer :
    (∃ (s : State) (d : Datagram), d.dtype = 1 ∧ respOf d = false ∧ d.peerId = 0xFFFF ∧ d.cookie = 0 ∧ d.port < 4 ∧ s.fld
      (Reg.NET_PORT_STATUS + d.port) 2 0 = 3 ∧ s.opened = true ∧ badDg d = false ∧ d.frag = 0 ∧ lastOf d = true ∧ d.body = [0, 0, 0, 0] ∧
      s.peerAt d.ip d.udp = none ∧ s.client.peers.length < 4096 ∧ 80 < s.fld Reg.NET_MTU 13 0) ∧
    (∃ (s : State) (d : Datagram), d.dtype = 1 ∧ respOf d = false ∧ d.peerId = 0xFFFF ∧ d.cookie = 0 ∧ d.port < 4 ∧ s.fld
      (Reg.NET_PORT_STATUS + d.port) 2 0 = 3 ∧ s.opened = true ∧ badDg d = false ∧ d.frag = 0 ∧ lastOf d = true ∧ d.body.length ≠ 4 + beAt
      d.body 0 2) :=
  ⟨⟨(clientState [peer0] []).setFld Reg.NET_MTU 13 0 81, helloDg [0, 0, 0, 0], by decide +kernel, by decide +kernel, by decide +kernel,
      by decide +kernel, by decide +kernel, by decide +kernel, by decide +kernel, by decide +kernel, by decide +kernel, by decide +kernel,
      by decide +kernel, by decide +kernel, by decide +kernel, by decide +kernel⟩,
    ⟨clientState [peer0] [], helloDg [0, 1, 0, 0], by decide +kernel, by decide +kernel, by decide +kernel, by decide +kernel,
      by decide +kernel, by decide +kernel, by decide +kernel, by decide +kernel, by decide +kernel, by decide +kernel, by decide +kernel⟩⟩

/-- States and operands that meet the premises of OpenMakesASession, clause by clause. -/
theorem test_premises_open_makes_a_session :
    (∃ (s : State) (p : Peer) (d : Datagram) (m : Model), s.Hears p d ∧ d.dtype = 2 ∧ respOf d = false ∧ d.body.length = 448 ∧ beAt d.body 8
      2 = 0 ∧ beAt d.body 4 4 ≠ 0 ∧ beAt d.body 4 4 ≤ m.pkg.maxContext ∧ m.pkg.maxContext ≤ 4194304 ∧ ((tokenOf (d.body.drop 16)).maxContext
      = 0 ∨ beAt d.body 4 4 ≤ (tokenOf (d.body.drop 16)).maxContext) ∧ (s.heard p d).fuses.lifeCycle ≠ 4 ∧ (s.heard p d).tokenValid
      (d.body.drop 16) = true ∧ ((tokenOf (d.body.drop 16)).model = 0 ∨ (tokenOf (d.body.drop 16)).model = beAt d.body 0 4) ∧ (s.heard p
      d).model? (beAt d.body 0 4) = some m ∧ m.paused = false ∧ (s.heard p d).client.sessions.length < 16384 ∧ ∃ (s1 : State), openSeqs
      (s.heard p d).takeFree.2 (beAt d.body 0 4) (pickUnused 16384 (s.heard p d).takeFree.1.toNat ((s.heard p d).client.sessions.map
      (·.id))) ((beAt d.body 4 4 + 63) / 64) m.pkg.kv = some s1) ∧
    (∃ (s : State) (p : Peer) (d : Datagram), s.Hears p d ∧ d.dtype = 2 ∧ respOf d = false ∧ s.Fits p ∧ d.body.length = 448 ∧ beAt d.body 8
      2 = 0 ∧ beAt d.body 4 4 ≤ 4194304 ∧ (s.heard p d).tokenValid (d.body.drop 16) = false) :=
  ⟨⟨openState (clientState [peer0] []), peer0, dg 2 0x4000 openBody, ⟨package0, false⟩,
      (by unfold State.Hears State.HearsFrom; decide +kernel), by decide +kernel, by decide +kernel, by decide +kernel, by decide +kernel,
      by decide +kernel, by decide +kernel, by decide +kernel, by decide +kernel, by decide +kernel, open_token, by decide +kernel,
      by decide +kernel, by decide +kernel, by decide +kernel, ⟨_, rfl⟩⟩,
    ⟨clientState [peer0] [], peer0, dg 2 0x4000 openBody, (by unfold State.Hears State.HearsFrom; decide +kernel), by decide +kernel,
      by decide +kernel, (by unfold State.Fits; decide +kernel), by decide +kernel, by decide +kernel, by decide +kernel, by decide +kernel⟩⟩

/-- States and operands that meet the premises of SubmitAdmitsOrRefuses, clause by clause. -/
theorem test_premises_submit_admits_or_refuses :
    (∃ (s : State) (p : Peer) (d : Datagram) (x : Session) (m : Model) (steps : List ReqStep), s.Hears p d ∧ d.dtype = 3 ∧ respOf d = false
      ∧ s.Fits p ∧ 48 ≤ d.body.length ∧ d.body.length = 48 + 4 * beAt d.body 8 4 ∧ (s.heard p d).session? (beAt d.body 0 2) = some x ∧
      (s.heard p d).model? x.model = some m ∧ submitRefusal (s.heard p d) p.id x (beAt d.body 2 1) (beAt d.body 3 1) (beAt d.body 8 4) (beAt
      d.body 12 4) m.pkg.kinds m.paused = none ∧ expand m.pkg.kinds (beAt d.body 3 1) (beAt d.body 8 4) (beAt d.body 12 4) (s.heard p
      d).acceptRound ((s.heard p d).classFirst (beAt d.body 2 1)) ((s.heard p d).classStep (beAt d.body 2 1)) x.committed = some steps ∧
      (s.heard p d).ensBroken x.model = false ∧ (∀ st ∈ steps, st.deadline ≤ (s.heard p d).acceptRound + 16384) ∧ (s.heard p d).admits =
      true ∧ (s.heard p d).leadsModel x.model = none ∧ (s.heard p d).sage.inResetW = false ∧ (s.heard p d).sage.inResetE = false ∧ ∃ (l :
      List ReqStep) (s1 : State), (s.heard p d).placeAll ((s.heard p d).fld Reg.ADM_MARGIN 5 0) x (beAt d.body 4 4) (s.heard p
      d).acceptRound steps = some (s1, l)) ∧
    (∃ (s : State) (p : Peer) (d : Datagram) (x : Session) (m : Model) (steps : List ReqStep), s.Hears p d ∧ d.dtype = 3 ∧ respOf d = false
      ∧ s.Fits p ∧ 48 ≤ d.body.length ∧ d.body.length = 48 + 4 * beAt d.body 8 4 ∧ (s.heard p d).session? (beAt d.body 0 2) = some x ∧
      (s.heard p d).model? x.model = some m ∧ submitRefusal (s.heard p d) p.id x (beAt d.body 2 1) (beAt d.body 3 1) (beAt d.body 8 4) (beAt
      d.body 12 4) m.pkg.kinds m.paused = none ∧ expand m.pkg.kinds (beAt d.body 3 1) (beAt d.body 8 4) (beAt d.body 12 4) (s.heard p
      d).acceptRound ((s.heard p d).classFirst (beAt d.body 2 1)) ((s.heard p d).classStep (beAt d.body 2 1)) x.committed = some steps ∧
      (s.heard p d).ensBroken x.model = false ∧ (∀ st ∈ steps, st.deadline ≤ (s.heard p d).acceptRound + 16384) ∧ (s.heard p d).placeAll
      ((s.heard p d).fld Reg.ADM_MARGIN 5 0) x (beAt d.body 4 4) (s.heard p d).acceptRound steps = none) ∧
    (∃ (s : State) (p : Peer) (d : Datagram), s.Hears p d ∧ d.dtype = 3 ∧ respOf d = false ∧ s.Fits p ∧ 48 ≤ d.body.length ∧ d.body.length =
      48 + 4 * beAt d.body 8 4 ∧ (s.heard p d).session? (beAt d.body 0 2) = none) :=
  ⟨⟨clientState [peer0] [session0], peer0, dg 3 0x4000 submitBody, session0, ⟨package0, false⟩, submitSteps ((clientState [peer0]
      [session0]).heard peer0 (dg 3 0x4000 submitBody)), (by unfold State.Hears State.HearsFrom; decide +kernel), by decide +kernel,
      by decide +kernel, (by unfold State.Fits; decide +kernel), by decide +kernel, by decide +kernel, by decide +kernel, by decide +kernel,
      by decide +kernel, by decide +kernel, by decide +kernel, by decide +kernel, by decide +kernel, by decide +kernel, by decide +kernel,
      by decide +kernel, pair_of_isSome (by decide +kernel)⟩,
    ⟨clientState [peer0] [{ session0 with results := List.replicate 256 result0 }], peer0, dg 3 0x4000 submitBody,
      { session0 with results := List.replicate 256 result0 }, ⟨package0, false⟩, submitSteps ((clientState [peer0]
      [{ session0 with results := List.replicate 256 result0 }]).heard peer0 (dg 3 0x4000 submitBody)),
      (by unfold State.Hears State.HearsFrom; decide +kernel), by decide +kernel, by decide +kernel, (by unfold State.Fits; decide +kernel),
      by decide +kernel, by decide +kernel, by decide +kernel, by decide +kernel, by decide +kernel, by decide +kernel, by decide +kernel,
      by decide +kernel, by decide +kernel⟩,
    ⟨clientState [peer0] [], peer0, dg 3 0x4000 submitBody, (by unfold State.Hears State.HearsFrom; decide +kernel), by decide +kernel,
      by decide +kernel, (by unfold State.Fits; decide +kernel), by decide +kernel, by decide +kernel, by decide +kernel⟩⟩

/-- States and operands that meet the premises of AdmittedStepsEndByTheirDeadlines, clause by clause. -/
theorem test_premises_admitted_steps_end_by_their_deadlines :
    (∃ (s : State) (margin : Nat) (x : Session) (reqId : Nat) (prev : Nat) (steps : List ReqStep), steps ≠ [] ∧ ∃ (s1 : State) (l : List
      ReqStep), s.placeAll margin x reqId prev steps = some (s1, l)) :=
    ⟨clientState [peer0] [session0], 63, session0, 5, 0, submitSteps (clientState [peer0] [session0]), by decide +kernel,
      (by obtain ⟨b, a, h⟩ := pair_of_isSome (x := (clientState [peer0] [session0]).placeAll 63 session0 5 0 (submitSteps (clientState
      [peer0] [session0]))) (by decide +kernel); exact ⟨a, b, h⟩)⟩

/-- States and operands that meet the premises of RequestsAndSessionsEnd, clause by clause. -/
theorem test_premises_requests_and_sessions_end :
    (∃ (s : State) (p : Peer) (d : Datagram) (x : Session) (q : Request), s.Hears p d ∧ d.dtype = 5 ∧ respOf d = false ∧ s.Fits p ∧
      d.body.length = 8 ∧ beAt d.body 2 2 = 0 ∧ (s.heard p d).ownSession p.id (beAt d.body 0 2) = some x ∧ x.request = some q ∧ q.reqId =
      beAt d.body 4 4) ∧
    (∃ (s : State) (p : Peer) (d : Datagram) (x : Session), s.Hears p d ∧ d.dtype = 6 ∧ respOf d = false ∧ 2 ≤ d.body.length ∧ (d.body.drop
      2).any (· ≠ 0) = false ∧ (s.heard p d).ownSession p.id (beAt d.body 0 2) = some x) ∧
    (∃ (s : State) (session : Nat) (x : Session), s.session? session = some x ∧ x.state = .detached) ∧
    (∃ (s : State) (session : Nat) (x : Session) (c : Closing), s.session? session = some x ∧ x.closing = some c ∧ s.sessionRuns session =
      false) ∧
    (∃ (s : State) (session : Nat) (x : Session) (c : Closing) (p : Peer), s.session? session = some x ∧ x.closing = some c ∧ s.sessionRuns
      session = false ∧ (∀ e ∈ s.tiles, SMap.get? e.2.kvSpace session = none) ∧ c.answer = some p.id ∧ s.peer? p.id = some p ∧ s.Fits p) :=
  ⟨⟨clientState [peer0] [{ session0 with request := some request0 }], peer0, dg 5 0x4000 ([0, 3, 0, 0] ++ beBytes 4 5),
      { session0 with request := some request0 }, request0, (by unfold State.Hears State.HearsFrom; decide +kernel), by decide +kernel,
      by decide +kernel, (by unfold State.Fits; decide +kernel), by decide +kernel, by decide +kernel, by decide +kernel, by decide +kernel,
      by decide +kernel⟩,
    ⟨clientState [peer0] [session0], peer0, dg 6 0x4000 [0, 3], session0, (by unfold State.Hears State.HearsFrom; decide +kernel),
      by decide +kernel, by decide +kernel, by decide +kernel, by decide +kernel, by decide +kernel⟩,
    ⟨clientState [peer0] [{ session0 with state := .detached }], 3, { session0 with state := .detached }, by decide +kernel,
      by decide +kernel⟩,
    ⟨clientState [peer0] [{ session0 with state := .closing, closing := some ⟨0, some 7⟩ }], 3,
      { session0 with state := .closing, closing := some ⟨0, some 7⟩ }, ⟨0, some 7⟩, by decide +kernel, by decide +kernel,
      by decide +kernel⟩,
    ⟨clientState [peer0] [{ session0 with state := .closing, closing := some ⟨0, some 7⟩ }], 3,
      { session0 with state := .closing, closing := some ⟨0, some 7⟩ }, ⟨0, some 7⟩, peer0, by decide +kernel, by decide +kernel,
      by decide +kernel, by decide +kernel, by decide +kernel, by decide +kernel, (by unfold State.Fits; decide +kernel)⟩⟩

/-- States and operands that meet the premises of ReportsReachTheClient, clause by clause. -/
theorem test_premises_reports_reach_the_client :
    (∃ (s : State) (p : Peer) (d : Datagram), s.Hears p d ∧ d.dtype = 7 ∧ respOf d = false ∧ s.Fits p ∧ d.body = [1, 0, 0, 0]) ∧
    (∃ (s : State) (p : Peer) (d : Datagram), s.Hears p d ∧ d.dtype = 8 ∧ respOf d = false ∧ s.Fits p ∧ d.body.length = 4) ∧
    (∃ (s : State) (session : Nat) (i : Nat) (x : Session) (p : Peer) (r : Result), s.session? session = some x ∧ x.peer = some p.id ∧
      x.state ≠ .detached ∧ x.results.findIdx? (fun r => r.seqs.isNone) = some i ∧ x.results[i]? = some r ∧ s.peer? p.id = some p ∧ p.queue
      = [] ∧ seqLt p.sndNext p.limit = true ∧ s.Fits p) :=
  ⟨⟨clientState [peer0] [session0], peer0, dg 7 0x4000 [1, 0, 0, 0], (by unfold State.Hears State.HearsFrom; decide +kernel),
      by decide +kernel, by decide +kernel, (by unfold State.Fits; decide +kernel), by decide +kernel⟩,
    ⟨clientState [peer0] [session0], peer0, dg 8 0x4000 [0, 0, 0, 9], (by unfold State.Hears State.HearsFrom; decide +kernel),
      by decide +kernel, by decide +kernel, (by unfold State.Fits; decide +kernel), by decide +kernel⟩,
    ⟨clientState [peer0] [{ session0 with results := [{ result0 with seqs := some [] }, result0] }], 3, 1, { session0 with results :=
      [{ result0 with seqs := some [] }, result0] }, peer0, result0, by decide +kernel, by decide +kernel, by decide +kernel,
      by decide +kernel, by decide +kernel, by decide +kernel, by decide +kernel, by decide +kernel, (by unfold State.Fits; decide +kernel)⟩⟩

/-- States and operands that meet the premises of PackagesLoadAndUnload, clause by clause. -/
theorem test_premises_packages_load_and_unload :
    (∃ (s : State) (p : Peer) (d : Datagram), s.Hears p d ∧ d.dtype = 9 ∧ respOf d = false ∧ s.Fits p ∧ p.operator = true ∧ 24 ≤
      d.body.length ∧ beAt d.body 4 4 = 0 ∧ beAt d.body 8 8 = 0 ∧ d.body.length - 24 < beAt d.body 16 8 ∧ (s.heard p d).load? (beAt d.body 0
      4) = none ∧ (s.heard p d).model? (beAt d.body 0 4) = none ∧ (s.heard p d).client.loads.length < 2) ∧
    (∃ (s : State) (model : Nat) (r : Nat) (x : Load), s.load? model = some x ∧ x.bytes.length = x.total ∧ x.ready = none ∧ verifyPackage s
      model x.bytes = .error r) ∧
    (∃ (s : State) (model : Nat) (x : Load), s.load? model = some x ∧ x.bytes.length = x.total ∧ x.ready = none ∧ ∃ (k : Package),
      verifyPackage s model x.bytes = .ok k) ∧
    (∃ (s : State) (p : Peer) (d : Datagram) (m : Model), s.Hears p d ∧ d.dtype = 10 ∧ respOf d = false ∧ s.Fits p ∧ p.operator = true ∧
      d.body.length = 6 ∧ beAt d.body 4 2 ≤ 1 ∧ (s.heard p d).model? (beAt d.body 0 4) = some m ∧ (∀ x ∈ (s.heard p d).client.sessions,
      x.model = beAt d.body 0 4 → x.state = .closing)) :=
  ⟨⟨clientState [peer0] [], peer0, dg 9 0x4000 (beBytes 4 9 ++ List.replicate 12 0 ++ beBytes 8 11 ++ List.replicate 10 1),
      (by unfold State.Hears State.HearsFrom; decide +kernel), by decide +kernel, by decide +kernel, (by unfold State.Fits; decide +kernel),
      by decide +kernel, by decide +kernel, by decide +kernel, by decide +kernel, by decide +kernel, by decide +kernel, by decide +kernel,
      by decide +kernel⟩,
    ⟨loadState [], 9, 1, ⟨9, 0, [], 7, none⟩, by decide +kernel, by decide +kernel, by decide +kernel, (by decide +kernel)⟩,
    ⟨loadState packageBytes, 9, ⟨9, packageBytes.length, packageBytes, 7, none⟩, loadState_load _, rfl, by decide +kernel, package_verified⟩,
    ⟨clientState [peer0] [{ session0 with state := .closing }], peer0, dg 10 0x4000 (beBytes 4 1 ++ [0, 1]), ⟨package0, false⟩,
      (by unfold State.Hears State.HearsFrom; decide +kernel), by decide +kernel, by decide +kernel, (by unfold State.Fits; decide +kernel),
      by decide +kernel, by decide +kernel, by decide +kernel, by decide +kernel, by decide +kernel⟩⟩

/-- States and operands that meet the premises of DeliveryIsReliable, clause by clause. -/
theorem test_premises_delivery_is_reliable :
    (∃ (s : State) (p : Peer) (d : Datagram), s.HearsFrom p d ∧ d.dtype = 0 ∧ respOf d = false) ∧
    (∃ (s : State) (p : Peer), s.peer? p.id = some p ∧ p.ackDue = true) ∧
    (∃ (s : State) (p : Peer) (g : OutDg), s.peer? p.id = some p ∧ p.unacked.find? (fun x => decide (x.seq = g.seq)) = some g ∧ g.tries <
      12) ∧
    (∃ (s : State) (p : Peer) (g : OutDg), s.peer? p.id = some p ∧ p.unacked.find? (fun x => decide (x.seq = g.seq)) = some g ∧ 12 ≤
      g.tries) ∧
    (∃ (s : State) (p : Peer) (d : Datagram), s.Hears p d ∧ (respOf d = true ∨ d.dtype = 4)) ∧
    (∃ (s : State) (p : Peer) (d : Datagram), s.Hears p d ∧ (respOf d = true ∨ d.dtype = 4)) ∧
    (∃ (s : State) (p : Peer) (m : Assembly), s.peer? p.id = some p ∧ p.asm = some m ∧ m.dtype = 3 ∧ m.response = false ∧ s.Fits p) :=
  ⟨⟨clientState [peer0] [], peer0, dg 0 0 [], (by unfold State.HearsFrom; decide +kernel), by decide +kernel, by decide +kernel⟩,
    ⟨clientState [{ peer0 with ackDue := true }] [], { peer0 with ackDue := true }, by decide +kernel, by decide +kernel⟩,
    ⟨clientState [{ peer0 with unacked := [sentDg 11] }] [], { peer0 with unacked := [sentDg 11] }, sentDg 11, by decide +kernel,
      by decide +kernel, by decide +kernel⟩,
    ⟨clientState [{ peer0 with unacked := [sentDg 12] }] [], { peer0 with unacked := [sentDg 12] }, sentDg 12, by decide +kernel,
      by decide +kernel, by decide +kernel⟩,
    ⟨clientState [peer0] [session0], peer0, dg 7 0xC000 [], (by unfold State.Hears State.HearsFrom; decide +kernel), by decide +kernel⟩,
    ⟨clientState [peer0] [session0], peer0, dg 4 0x4000 [], (by unfold State.Hears State.HearsFrom; decide +kernel), by decide +kernel⟩,
    ⟨clientState [{ peer0 with asm := some ⟨3, false, 1, [0, 3, 0, 0, 0, 0, 0, 5]⟩ }] [],
      { peer0 with asm := some ⟨3, false, 1, [0, 3, 0, 0, 0, 0, 0, 5]⟩ }, ⟨3, false, 1, [0, 3, 0, 0, 0, 0, 0, 5]⟩, by decide +kernel,
      by decide +kernel, by decide +kernel, by decide +kernel, (by unfold State.Fits; decide +kernel)⟩⟩

/-- States and operands that meet the premises of ClientPortsFollowTheirLinks, clause by clause. -/
theorem test_premises_client_ports_follow_their_links :
    (∃ (s : State) (port : Nat), port < 4 ∧ s.addressed port = true ∧ s.fld Reg.PWR_STATUS 2 0 = 3 ∧ s.fld (Reg.NET_PORT_STATUS + port) 2 0
      < 3) ∧
    (∃ (s : State) (port : Nat), port < 4 ∧ s.addressed port = true ∧ s.fld Reg.PWR_STATUS 2 0 = 3 ∧ s.fld (Reg.NET_PORT_STATUS + port) 2 0
      < 3 ∧ s.fld (Reg.NET_PORT_STATUS + port) 2 0 ≠ 0) ∧
    (∃ (s : State) (port : Nat) (phy : Nat), port < 4 ∧ (s.fld (Reg.NET_PORT_STATUS + port) 2 0 = 1 ∨ s.fld (Reg.NET_PORT_STATUS + port) 2 0
      = 2) ∧ (phy = 1 ∨ phy = 2)) ∧
    (∃ (s : State) (port : Nat) (phy : Nat), port < 4 ∧ (s.fld (Reg.NET_PORT_STATUS + port) 2 0 = 1 ∨ s.fld (Reg.NET_PORT_STATUS + port) 2 0
      = 2) ∧ phy ≠ 1 ∧ phy ≠ 2) ∧
    (∃ (s : State) (port : Nat) (cause : Nat), port < 4 ∧ cause ≤ 2 ∧ s.fld (Reg.NET_PORT_STATUS + port) 2 0 = 3) ∧
    (∃ (s : State) (port : Nat) (cause : Nat), port < 4 ∧ cause ≤ 2 ∧ s.fld (Reg.NET_PORT_STATUS + port) 2 0 = 3) ∧
    (∃ (s : State) (port : Nat), port < 4 ∧ s.fld (Reg.NET_PORT_STATUS + port) 2 0 = 3) ∧
    (∃ (port : Nat), port < 4) ∧
    (∃ (s : State) (d : Datagram), (badDg d = true ∨ (∀ p, s.peerAt d.ip d.udp = some p → d.peerId ≠ p.id) ∧ s.peerAt d.ip d.udp ≠ none)) ∧
    (∃ (s : State) (d : Datagram), (badDg d = true ∨ (∀ p, s.peerAt d.ip d.udp = some p → d.peerId ≠ p.id) ∧ s.peerAt d.ip d.udp ≠ none)) :=
  ⟨⟨{ powered with boot := { StartState.init with records := [(0x0913, [])] } }, 3, by decide +kernel, by decide +kernel,
      by decide +kernel, by decide +kernel⟩,
    ⟨({ powered with boot := { StartState.init with records := [(0x0913, [])] } }).setFld (Reg.NET_PORT_STATUS + 3) 2 0 2, 3,
      by decide +kernel, by decide +kernel, by decide +kernel, by decide +kernel, by decide +kernel⟩,
    ⟨State.reset.setFld (Reg.NET_PORT_STATUS + 3) 2 0 2, 3, 2, by decide +kernel, by decide +kernel, by decide +kernel⟩,
    ⟨State.reset.setFld (Reg.NET_PORT_STATUS + 3) 2 0 2, 3, 3, by decide +kernel, by decide +kernel, by decide +kernel, by decide +kernel⟩,
    ⟨State.reset.setFld (Reg.NET_PORT_STATUS + 3) 2 0 3, 3, 2, by decide +kernel, by decide +kernel, by decide +kernel⟩,
    ⟨State.reset.setFld (Reg.NET_PORT_STATUS + 3) 2 0 3, 3, 1, by decide +kernel, by decide +kernel, by decide +kernel⟩,
    ⟨State.reset.setFld (Reg.NET_PORT_STATUS + 3) 2 0 3, 3, by decide +kernel, by decide +kernel⟩,
    ⟨3, by decide +kernel⟩,
    ⟨State.reset, { dg 7 0x4000 [] with magic := 0 }, Or.inl (by decide +kernel)⟩,
    ⟨clientState [peer0] [], { dg 7 0x4000 [] with peerId := 8 }, Or.inr
      ⟨(by intro q h; have e : peer0 = q := Option.some.inj (Eq.trans (by decide +kernel) h); subst e; decide), by decide +kernel⟩⟩⟩

/-- States and operands that meet the premises of ComputeResetsHoldTheirHalves, clause by clause. -/
theorem test_premises_compute_resets_hold_their_halves :
    (∃ (s : State), s.TakesReset .west ∧ (∀ ti, (s.tile ti).queue = [])) ∧
    (∃ (s : State), s.TakesReset .east ∧ (∀ ti, (s.tile ti).queue = [])) ∧
    (∃ (s : State), s.TakesReset .west ∧ s.TakesReset .east) ∧
    (∃ (s : State) (h : Half), (s.halfReset h).phase = 1 ∧ (s.halfReset h).byPin = false ∧ s.link.splitDue = false) ∧
    (∃ (s : State) (h : Half), (s.halfReset h).byPin = true ∧ s.link.splitDue = false) ∧
    (∃ (s : State) (ti : Nat), ti ∈ s.ctl.untrained ∧ (s.halfReset (halfOf ti)).phase = 2 ∧ (s.tile ti).waiting = []) ∧
    (∃ (s : State) (h : Half), (s.halfReset h).phase = 2 ∧ (∀ ti ∈ s.ctl.untrained, halfOf ti ≠ h) ∧ (∀ ti, (s.tile ti).cut = [] ∧ (s.tile
      ti).kvMarks = []) ∧ s.client.sessions = [] ∧ SMap.wf s.ctl.bases = true ∧ (∃ e ∈ s.ctl.bases, ∃ ti off, tileOf e.1 = some (ti, off) ∧
      halfOf ti = h)) :=
  ⟨⟨serving, (by refine ⟨?_, ?_, ?_, ?_⟩ <;> decide +kernel), fun _ => rfl⟩,
    ⟨serving, (by refine ⟨?_, ?_, ?_, ?_⟩ <;> decide +kernel), fun _ => rfl⟩,
    ⟨serving, (by refine ⟨?_, ?_, ?_, ?_⟩ <;> decide +kernel), (by refine ⟨?_, ?_, ?_, ?_⟩ <;> decide +kernel)⟩,
    ⟨{ serving with ctl := { ResetCtl.init with west := ⟨1, 5, 2, false⟩ } }, .west, by decide +kernel, by decide +kernel,
      by decide +kernel⟩,
    ⟨{ serving with ctl := { ResetCtl.init with east := ⟨1, 5, 3, true⟩ } }, .east, by decide +kernel, by decide +kernel⟩,
    ⟨{ serving with ctl := { ResetCtl.init with west := ⟨2, 5, 2, false⟩, untrained := [0] } }, 0, by decide +kernel, by decide +kernel,
      by decide +kernel⟩,
    ⟨{ serving with ctl := { ResetCtl.init with east := ⟨2, 5, 2, false⟩, untrained := [0], bases := [(tileReg (tileCount - 1) 0, 5)] } },
      .east, by decide +kernel, by decide +kernel, fun _ => ⟨rfl, rfl⟩, by decide +kernel, by decide +kernel, ⟨_, List.Mem.head _, tileCount
      - 1, 0, by decide +kernel, by decide +kernel⟩⟩⟩

/-- States and operands that meet the premises of TheLogIsKept, clause by clause. -/
theorem test_premises_the_log_is_kept :
    (∃ (s : State), s.fld Reg.CFG_STATUS 31 31 = 1 ∧ s.evt.clearing = false ∧ s.mgmt.silent = false ∧ s.evt.staging ≠ [] ∧ s.evt.overflowed
      = 0) ∧
    (∃ (s : State), s.fld Reg.CFG_STATUS 31 31 = 1 ∧ s.evt.clearing = false ∧ s.mgmt.silent = false ∧ s.evt.staging ≠ []) ∧
    (∃ (s : State) (v : Word), s.evt.clearing = false ∧ v.toNat = s.evt.head % 2 ^ 32 ∧ s.sup.list.length < 64 ∧ s.fld Reg.CFG_STATUS 31 31
      = 1) ∧
    (∃ (s : State) (v : Word), v.toNat ≠ s.evt.head % 2 ^ 32) :=
  ⟨⟨carded, by decide +kernel, by decide +kernel, by decide +kernel, by decide +kernel, by decide +kernel⟩,
    ⟨carded, by decide +kernel, by decide +kernel, by decide +kernel, by decide +kernel⟩,
    ⟨carded, 1, by decide +kernel, by decide +kernel, by decide +kernel, by decide +kernel⟩,
    ⟨carded, 0, by decide +kernel⟩⟩

/-- States and operands that meet the premises of RoundsProceed, clause by clause. -/
theorem test_premises_rounds_proceed :
    (∃ (s : State), 0 ≤ (s.now : Int) + s.tb.offset ∧ s.calendar + 30000 ≤ (s.calendar / s.roundNs + 1) * s.roundNs) ∧
    (∃ (s : State), s.roundsRun = false) ∧
    (∃ (s : State), s.roundsRun = true ∧ s.Quiet ∧ 0 < s.roundNs ∧ 0 ≤ (s.now : Int) + s.tb.offset ∧ (s.calendar / s.roundNs + 1) *
      s.roundNs < 2 ^ 64) ∧
    (∃ (s : State) (batch : Nat) (b : Batch) (m : Member) (x : Session) (q : Request) (st : ReqStep), s.sage.batches.find? (fun b => decide
      (b.id = batch)) = some b ∧ b.dropped = none ∧ b.committed = false ∧ b.complete (s.nparts b.model b.kind) = true ∧ b.leader = none ∧
      b.ens = none ∧ b.members = [m] ∧ s.session? m.session = some x ∧ x.request = some q ∧ q.reqId = m.reqId ∧ q.steps.find? (fun y =>
      decide (y.num = m.step)) = some st) :=
  ⟨⟨{ clientState [] [] with now := 970000 }, by decide +kernel, by decide +kernel⟩,
    ⟨State.reset, by decide +kernel⟩,
    ⟨clientState [] [], by decide +kernel, (by refine ⟨?_, ?_, ?_, ?_, ?_, ?_, ?_⟩ <;> decide +kernel), by decide +kernel,
      by decide +kernel, by decide +kernel⟩,
    ⟨batchState batch0, 4, batch0, ⟨3, 5, 0, 0, 9⟩, { session0 with request := some request0 }, request0, ⟨0, 1, 1, 9, 1, 1, 1, 1,
      .waiting⟩, by decide +kernel, by decide +kernel, by decide +kernel, by decide +kernel, by decide +kernel, by decide +kernel,
      by decide +kernel, by decide +kernel, by decide +kernel, by decide +kernel, by decide +kernel⟩⟩

/-- States and operands that meet the premises of FabricLinksCarryCodewords, clause by clause. -/
theorem test_premises_fabric_links_carry_codewords :
    (∃ (s : State) (port : Nat), port < 12 ∧ s.fstate port = fpDown ∧ (s.fld Reg.FAB_CTRL 11 0).testBit port = true ∧ s.fld Reg.PWR_STATUS 2
      0 = 3) ∧
    (∃ (s : State) (port : Nat), port < 12 ∧ s.fstate port = fpTraining) ∧
    (∃ (s : State) (port : Nat) (b : LinkBody), port < 12 ∧ s.fstate port = fpInfo ∧ s.brokenPattern port b = none) ∧
    (∃ (s : State) (port : Nat) (b : LinkBody) (k : Nat), port < 12 ∧ s.fstate port = fpInfo ∧ s.brokenPattern port b = some k) ∧
    (∃ (s : State) (port : Nat) (b : LinkBody) (k : Nat), port < 12 ∧ s.fstate port = fpInfo ∧ s.brokenPattern port b = some k) ∧
    (∃ (s : State) (port : Nat), port < 12 ∧ (s.fstate port = fpUp ∨ s.fstate port = fpInfo)) ∧
    (∃ (s : State) (port : Nat), port < 12 ∧ (s.fstate port = fpUp ∨ s.fstate port = fpInfo)) ∧
    (∃ (s : State) (port : Nat) (cause : Nat), port < 12 ∧ cause ≤ 4 ∧ s.fstate port ≠ fpDown ∧ s.fstate port ≠ fpDisabled ∧ s.fstate port ≠
      fpFenced ∧ (s.fport port).buffers = []) ∧
    (∃ (s : State) (port : Nat) (w : Codeword) (x : FabPacket) (l : List Flit), port < 12 ∧ s.fstate port = fpUp ∧ w.ok = true ∧ w.isNew =
      true ∧ w.seq = (s.fport port).expected ∧ w.flits = .head x :: l ∧ (∀ f ∈ l, f = .data x.vl) ∧ (s.fport port).held x.vl + flitsOf x ≤
      vlBuffer x.vl ∧ x.ptype = 1 ∧ x.dst = s.fabAddr ∧ x.crcBad = false) ∧
    (∃ (s : State) (port : Nat) (w : Codeword), port < 12 ∧ s.fstate port = fpUp ∧ w.ok = false ∧ (s.fport port).uncorr.length < 16) ∧
    (∃ (s : State) (port : Nat) (w : Codeword), port < 12 ∧ s.fstate port = fpUp ∧ w.ok = true ∧ w.isNew = true ∧ w.seq ≠ (s.fport
      port).expected ∧ w.flits = [] ∧ (s.fport port).discarding = false) ∧
    (∃ (s : State) (port : Nat) (w : Codeword) (l : List Codeword), port < 12 ∧ (s.fport port).kept = w :: l ∧ (s.fport port).replays < 8) ∧
    (∃ (s : State) (port : Nat), port < 12 ∧ (s.fport port).kept ≠ [] ∧ 8 ≤ (s.fport port).replays) :=
  ⟨⟨powered.setFld Reg.FAB_CTRL 11 0 0x800, 11, by decide +kernel, by decide +kernel, by decide +kernel, by decide +kernel⟩,
    ⟨port11 1 FabPort.init, 11, by decide +kernel, by decide +kernel⟩,
    ⟨port11 3 FabPort.init, 11, { peerBody (selfId + 1) 0 with addr := none }, by decide +kernel, by decide +kernel,
      (by unfold State.brokenPattern; exact (if_neg (Nat.succ_ne_self selfId)).trans (by decide +kernel))⟩,
    ⟨port11 3 FabPort.init, 11, peerBody selfId 0, 2, by decide +kernel, by decide +kernel, if_pos rfl⟩,
    ⟨((port11 3 FabPort.init).setFld Reg.FAB_ADDR 31 31 1).setFld Reg.FAB_ADDR 21 16 62, 11, { peerBody (selfId + 1) 0 with addr := none },
      5, by decide +kernel, by decide +kernel,
      (by unfold State.brokenPattern; exact (if_neg (Nat.succ_ne_self selfId)).trans (by decide +kernel))⟩,
    ⟨port11 4 FabPort.init, 11, by decide +kernel, by decide +kernel⟩,
    ⟨port11 3 FabPort.init, 11, by decide +kernel, by decide +kernel⟩,
    ⟨port11 4 FabPort.init, 11, 4, by decide +kernel, by decide +kernel, by decide +kernel, by decide +kernel, by decide +kernel,
      by decide +kernel⟩,
    ⟨port11 4 { FabPort.init with expected := 5 }, 11, codeword0, fabPkt 1 0, [.data 0], by decide +kernel, by decide +kernel,
      by decide +kernel, by decide +kernel, by decide +kernel, by decide +kernel, by decide +kernel, by decide +kernel, by decide +kernel,
      by decide +kernel, by decide +kernel⟩,
    ⟨port11 4 FabPort.init, 11, { codeword0 with ok := false }, by decide +kernel, by decide +kernel, by decide +kernel, by decide +kernel⟩,
    ⟨port11 4 FabPort.init, 11, { codeword0 with flits := [] }, by decide +kernel, by decide +kernel, by decide +kernel, by decide +kernel,
      by decide +kernel, by decide +kernel, by decide +kernel⟩,
    ⟨port11 4 { FabPort.init with kept := [codeword0], replays := 7 }, 11, codeword0, [], by decide +kernel, by decide +kernel,
      by decide +kernel⟩,
    ⟨port11 4 { FabPort.init with kept := [codeword0], replays := 8 }, 11, by decide +kernel, by decide +kernel, by decide +kernel⟩⟩

/-- States and operands that meet the premises of FabricPacketsTravel, clause by clause. -/
theorem test_premises_fabric_packets_travel :
    (∃ (s : State) (x : FabPacket) (i : Instr) (n : Nat) (y : FabPacket), ((i = .fabWrite x ∧ x.ptype = 1) ∨ (i = .fabWriteAck x ∧ x.ptype =
      2) ∨ (i = .fabNack x ∧ x.ptype = 3) ∨ (i = .fabSync x ∧ x.ptype = 4) ∨ (i = .fabSyncRelease x ∧ x.ptype = 5)) ∧ x.dst ≠ s.fabAddr ∧
      s.nextHop x = .send n y) ∧
    (∃ (s : State) (x : FabPacket) (i : Instr), ((i = .fabWrite x ∧ x.ptype = 1) ∨ (i = .fabWriteAck x ∧ x.ptype = 2) ∨ (i = .fabNack x ∧
      x.ptype = 3) ∨ (i = .fabSync x ∧ x.ptype = 4) ∨ (i = .fabSyncRelease x ∧ x.ptype = 5)) ∧ x.dst ≠ s.fabAddr ∧ s.nextHop x = .wait) ∧
    (∃ (s : State) (x : FabPacket) (i : Instr) (n : Nat) (y : FabPacket), ((i = .fabWrite x ∧ x.ptype = 1) ∨ (i = .fabWriteAck x ∧ x.ptype =
      2) ∨ (i = .fabNack x ∧ x.ptype = 3) ∨ (i = .fabSync x ∧ x.ptype = 4) ∨ (i = .fabSyncRelease x ∧ x.ptype = 5)) ∧ x.dst ≠ s.fabAddr ∧
      s.nextHop x = .send n y) ∧
    (∃ (s : State) (x : FabPacket) (i : Instr) (n : Nat) (y : FabPacket), ((i = .fabWrite x ∧ x.ptype = 1) ∨ (i = .fabWriteAck x ∧ x.ptype =
      2) ∨ (i = .fabNack x ∧ x.ptype = 3) ∨ (i = .fabSync x ∧ x.ptype = 4) ∨ (i = .fabSyncRelease x ∧ x.ptype = 5)) ∧ x.dst ≠ s.fabAddr ∧
      s.nextHop x = .send n y) ∧
    (∃ (s : State) (x : FabPacket) (i : Instr) (n : Nat) (y : FabPacket), ((i = .fabWrite x ∧ x.ptype = 1) ∨ (i = .fabWriteAck x ∧ x.ptype =
      2) ∨ (i = .fabNack x ∧ x.ptype = 3) ∨ (i = .fabSync x ∧ x.ptype = 4) ∨ (i = .fabSyncRelease x ∧ x.ptype = 5)) ∧ x.dst ≠ s.fabAddr ∧
      s.nextHop x = .send n y) ∧
    (∃ (s : State) (x : FabPacket) (i : Instr) (n : Nat) (y : FabPacket), ((i = .fabWrite x ∧ x.ptype = 1) ∨ (i = .fabWriteAck x ∧ x.ptype =
      2) ∨ (i = .fabNack x ∧ x.ptype = 3) ∨ (i = .fabSync x ∧ x.ptype = 4) ∨ (i = .fabSyncRelease x ∧ x.ptype = 5)) ∧ x.dst ≠ s.fabAddr ∧
      s.nextHop x = .send n y) ∧
    (∃ (s : State) (x : FabPacket), x.ptype = 1 ∧ x.dst = s.fabAddr ∧ x.crcBad = false) ∧
    (∃ (s : State) (x : FabPacket) (r : RemoteWrite) (e : QEntry), x.ptype = 2 ∧ x.dst = s.fabAddr ∧ x.crcBad = false ∧ s.fab.outgoing.find?
      (fun r => decide (r.tag = x.tag)) = some r ∧ (s.tile r.ti).entry? r.ref = some e) ∧
    (∃ (s : State) (p : Packet) (dst : Nat) (n : Nat) (x : FabPacket) (y : FabPacket), p.crcBad = false ∧ p.remote = some dst ∧ p.tag < 4096
      ∧ dst ≠ s.fabAddr ∧ s.fab.merge = [] ∧ (∀ q ∈ s.mesh, q.ptype = .port → continues p q = false) ∧ x = ⟨1, 2, 0, 0, dst, p.tag,
      s.fabAddr, p.srcId, p.chan, p.rtag, p.len, p.addr, s.fab.nextTag, p.pieces, false⟩ ∧ s.nextHop x = .send n y) ∧
    (∃ (s : State) (x : FabPacket) (n : Nat), x ∈ s.fab.transit ∧ x.vl ≠ 3 ∧ x.misroute < 2 ∧ s.bestPort (s.minPorts x.phase x.dst) x = none
      ∧ s.bestPort (s.extraPorts x.phase x.dst) x = some n) ∧
    (∃ (s : State) (x : FabPacket) (y : FabPacket) (n : Nat), x ∈ s.fab.transit ∧ x.vl ≠ 3 ∧ s.nextHop { x with vl := 3 } = .send n y) ∧
    (∃ (s : State) (port : Nat) (vl : Nat), port < 12 ∧ (s.fport port).buffers.any (fun y => decide (y.1 = vl)) = true) :=
  ⟨⟨fabState 126 [], fabPkt 1 3, .fabWrite (fabPkt 1 3), 1, fabPkt 1 3, .inl ⟨rfl, rfl⟩, by decide +kernel, by decide +kernel⟩,
    ⟨fabState 127 [], fabPkt 1 3, .fabWrite (fabPkt 1 3), .inl ⟨rfl, rfl⟩, by decide +kernel, by decide +kernel⟩,
    ⟨fabState 126 [], fabPkt 2 3, .fabWriteAck (fabPkt 2 3), 1, fabPkt 2 3, .inr (.inl ⟨rfl, rfl⟩), by decide +kernel, by decide +kernel⟩,
    ⟨fabState 126 [], fabPkt 3 3, .fabNack (fabPkt 3 3), 1, fabPkt 3 3, .inr (.inr (.inl ⟨rfl, rfl⟩)), by decide +kernel, by decide +kernel⟩,
    ⟨fabState 126 [], fabPkt 4 3, .fabSync (fabPkt 4 3), 1, fabPkt 4 3, .inr (.inr (.inr (.inl ⟨rfl, rfl⟩))), by decide +kernel,
      by decide +kernel⟩,
    ⟨fabState 126 [], fabPkt 5 3, .fabSyncRelease (fabPkt 5 3), 1, fabPkt 5 3, .inr (.inr (.inr (.inr ⟨rfl, rfl⟩))), by decide +kernel,
      by decide +kernel⟩,
    ⟨State.reset, fabPkt 1 0, by decide +kernel, by decide +kernel, by decide +kernel⟩,
    ⟨{ withTile { Tile.init with queue := [entry 3 .network 0x0D .none] } with fab := { Fabric.init with outgoing := [⟨7, 0, 3, 1⟩] } },
      fabPkt 2 0, ⟨7, 0, 3, 1⟩, entry 3 .network 0x0D .none, by decide +kernel, by decide +kernel, by decide +kernel, by decide +kernel,
      by decide +kernel⟩,
    ⟨fabState 0 [], { packet .port 0 with remote := some 3, tag := 4095 }, 3, 1, ⟨1, 2, 0, 0, 3, 4095, 0, 1, 0, 0, 32, 0, 0, [⟨0, 5,
      BitVec.allOnes 256, false⟩], false⟩, ⟨1, 2, 0, 0, 3, 4095, 0, 1, 0, 0, 32, 0, 0, [⟨0, 5, BitVec.allOnes 256, false⟩], false⟩,
      by decide +kernel, by decide +kernel, by decide +kernel, by decide +kernel, by decide +kernel, by decide +kernel, by decide +kernel,
      by decide +kernel⟩,
    ⟨fabState 127 [fabPkt 1 3], fabPkt 1 3, 2, by decide +kernel, by decide +kernel, by decide +kernel, by decide +kernel,
      by decide +kernel⟩,
    ⟨fabState 127 [fabPkt 1 3], fabPkt 1 3, { fabPkt 1 3 with vl := 3 }, 1, by decide +kernel, by decide +kernel, by decide +kernel⟩,
    ⟨port11 4 { FabPort.init with buffers := [(2, fabPkt 1 3)] }, 11, 2, by decide +kernel, by decide +kernel⟩⟩

/-- States and operands that meet the premises of FabricsFindTheirMap, clause by clause. -/
theorem test_premises_fabrics_find_their_map :
    (∃ (s : State) (port : Nat) (candidate : Nat), s.fup port = true ∧ (∀ c, s.fab.cand = some c → candidate < c.id) ∧ candidate ≠ selfId) ∧
    (∃ (s : State) (candidate : Nat) (c : Candidate), s.fab.cand = some c ∧ c.id ≤ candidate) ∧
    (∃ (s : State) (c : Candidate), s.fab.cand = some c) ∧
    (∃ (s : State) (c : Candidate), s.fab.cand = some c ∧ c.id ≠ selfId ∧ s.eligible = false) ∧
    (∃ (s : State) (c : Candidate), s.fab.cand = some c ∧ c.id ≠ selfId ∧ s.eligible = true) ∧
    (∃ (s : State), s.fab.cand = some ⟨selfId⟩ ∧ s.eligible = true ∧ s.isRoot = false ∧ s.fab.active = none ∧ s.fld Reg.FAB_STATUS 30 30 =
      0) ∧
    (∃ (s : State), s.isRoot = false) ∧
    (∃ (s : State) (src : Nat) (recs : List LinkRec), s.isRoot = true ∧ (∀ e ∈ s.fab.building, e.recs = none) ∧ (∀ r ∈ recs, ∃ e ∈
      s.fab.building, e.entry.moduleId = r.peerId) ∧ (∃ e ∈ s.fab.building, e.entry.addr ≠ src)) ∧
    (∃ (s : State) (fcn : Nat), (∀ m, s.fab.active = some m → m.fcn < fcn)) ∧
    (∃ (s : State) (addr : Nat), (s.fld Reg.FAB_ADDR 31 31 = 0 ∨ s.fabAddr = addr)) ∧
    (∃ (s : State) (addr : Nat), (s.fld Reg.FAB_ADDR 31 31 = 0 ∨ s.fabAddr = addr)) ∧
    (∃ (s : State) (id : Nat) (n : Nat), id ≠ selfId ∧ s.upPorts.find?
      (fun n => match (s.fport n).peer with | some b => decide (b.moduleId = id) | none => false) = some n) ∧
    (∃ (s : State) (m : FabMap) (src : Nat), s.isRoot = true ∧ s.fab.next = some m ∧ (∃ e ∈ m.entries, e.addr ≠ src ∧ e.addr ∉ s.fab.ready)) ∧
    (∃ (s : State) (m : FabMap) (i : Instr), s.FabricIdle ∧ s.fab.next = some m ∧ ((i = .mapReadyTimeout ∧ s.isRoot = true) ∨ i = .activate
      m.fcn ∨ (∃ src, i = .mapReady src m.fcn ∧ s.isRoot = true ∧ ∀ e ∈ m.entries, e.addr = src ∨ e.addr ∈ s.fab.ready))) ∧
    (∃ (s : State) (m : FabMap) (i : Instr), s.FabricIdle ∧ s.fab.next = some m ∧ ((i = .mapReadyTimeout ∧ s.isRoot = true) ∨ i = .activate
      m.fcn ∨ (∃ src, i = .mapReady src m.fcn ∧ s.isRoot = true ∧ ∀ e ∈ m.entries, e.addr = src ∨ e.addr ∈ s.fab.ready))) ∧
    (∃ (s : State) (m : FabMap) (i : Instr), s.FabricIdle ∧ s.fab.next = some m ∧ ((i = .mapReadyTimeout ∧ s.isRoot = true) ∨ i = .activate
      m.fcn ∨ (∃ src, i = .mapReady src m.fcn ∧ s.isRoot = true ∧ ∀ e ∈ m.entries, e.addr = src ∨ e.addr ∈ s.fab.ready))) ∧
    (∃ (s : State), s.isRoot = false) ∧
    (∃ (s : State), s.isRoot = true) ∧
    (∃ (s : State), s.FabricIdle) :=
  ⟨⟨candState (port11 4 { FabPort.init with peer := some (peerBody 5 2) }) (selfId + 2), 11, selfId + 1, by decide +kernel, fun c h =>
      Option.some.inj h ▸ Nat.lt_succ_self _, Nat.succ_ne_self _⟩,
    ⟨candState State.reset 6, 6, ⟨6⟩, by decide +kernel, by decide +kernel⟩,
    ⟨candState State.reset 6, ⟨6⟩, by decide +kernel⟩,
    ⟨candState (State.reset.setFld Reg.FAB_CTRL 31 31 0) (selfId + 1), ⟨selfId + 1⟩, rfl, Nat.succ_ne_self _, by decide +kernel⟩,
    ⟨candState (State.reset.setFld Reg.FAB_CTRL 31 31 1) (selfId + 1), ⟨selfId + 1⟩, rfl, Nat.succ_ne_self _, by decide +kernel⟩,
    ⟨candState (State.reset.setFld Reg.FAB_CTRL 31 31 1) selfId, rfl, by decide +kernel, by decide +kernel, by decide +kernel,
      by decide +kernel⟩,
    ⟨State.reset, by decide +kernel⟩,
    ⟨rootState [], 0, [⟨1, 0, 12⟩], by decide +kernel, by decide +kernel, by decide +kernel, by decide +kernel⟩,
    ⟨fabState 0 [], 6, fun m h => Option.some.inj h ▸ Nat.lt_succ_self 5⟩,
    ⟨State.reset, 4, Or.inl (by decide +kernel)⟩,
    ⟨State.reset.setFld Reg.FAB_ADDR 31 31 1, 0, Or.inr (by decide +kernel)⟩,
    ⟨port11 4 { FabPort.init with peer := some (peerBody (selfId + 1) 2) }, selfId + 1, 11, Nat.succ_ne_self _, (congrArg (List.find? _)
      (by decide +kernel : (port11 4 { FabPort.init with peer := some (peerBody (selfId + 1) 2) }).upPorts = [11])).trans
      (List.find?_cons_of_pos (decide_eq_true rfl))⟩,
    ⟨rootState [0], fabMap, 1, by decide +kernel, by decide +kernel, by decide +kernel⟩,
    ⟨rootState [], fabMap, .mapReadyTimeout, (by refine ⟨?_, fun _ => rfl, ?_, ?_⟩ <;> decide +kernel), by decide +kernel, .inl ⟨rfl,
      by decide +kernel⟩⟩,
    ⟨rootState [], fabMap, .activate 5, (by refine ⟨?_, fun _ => rfl, ?_, ?_⟩ <;> decide +kernel), by decide +kernel, .inr (.inl rfl)⟩,
    ⟨rootState [0, 1, 2], fabMap, .mapReady 3 5, (by refine ⟨?_, fun _ => rfl, ?_, ?_⟩ <;> decide +kernel), by decide +kernel, .inr (.inr
      ⟨3, rfl, by decide +kernel, by decide +kernel⟩)⟩,
    ⟨State.reset, by decide +kernel⟩,
    ⟨rootState [], by decide +kernel⟩,
    ⟨State.reset, (by refine ⟨?_, fun _ => rfl, ?_, ?_⟩ <;> decide +kernel)⟩⟩

/-- States and operands that meet the premises of EnsemblesForm, clause by clause. -/
theorem test_premises_ensembles_form :
    (∃ (s : State) (slot : Nat) (m : Model), slot < 8 ∧ (s.ensState slot = esFree ∨ s.ensState slot = esBroken ∨ s.ensState slot = esFailed)
      ∧ s.model? (s.ensModel slot) = some m ∧ m.paused = false) ∧
    (∃ (s : State) (slot : Nat) (m : Model), slot < 8 ∧ (s.ensState slot = esFree ∨ s.ensState slot = esBroken ∨ s.ensState slot = esFailed)
      ∧ s.model? (s.ensModel slot) = some m ∧ m.paused = false) ∧
    (∃ (s : State) (slot : Nat) (m : Model), slot < 8 ∧ (s.ensState slot = esFree ∨ s.ensState slot = esBroken ∨ s.ensState slot = esFailed)
      ∧ s.model? (s.ensModel slot) = some m ∧ m.paused = false) ∧
    (∃ (s : State) (slot : Nat), slot < 8 ∧ (s.ensState slot = esFree ∨ s.ensState slot = esBroken ∨ s.ensState slot = esFailed) ∧ s.model?
      (s.ensModel slot) = none) ∧
    (∃ (s : State) (slot : Nat), slot < 8 ∧ (s.ensState slot = esFree ∨ s.ensState slot = esBroken ∨ s.ensState slot = esFailed) ∧ s.model?
      (s.ensModel slot) = none) ∧
    (∃ (s : State) (slot : Nat), slot < 8 ∧ (s.ensState slot = esFree ∨ s.ensState slot = esBroken ∨ s.ensState slot = esFailed) ∧ s.model?
      (s.ensModel slot) = none) ∧
    (∃ (s : State) (ensId : Nat) (e : Nat) (members : List Nat), s.formSlot ensId = some e ∧ members.length ≤ 64 ∧ (∀ a ∈ members, a < 2 ^
      14)) ∧
    (∃ (s : State) (ensId : Nat) (e : Nat) (members : List Nat), s.formSlot ensId = some e ∧ members.length ≤ 64 ∧ (∀ a ∈ members, a < 2 ^
      14)) ∧
    (∃ (s : State) (ensId : Nat), s.formSlot ensId = none) ∧
    (∃ (s : State) (src : Nat) (ensId : Nat) (e : Nat), s.slotOf [esForming] (fun e => decide (s.ensId e = ensId) && (s.ensMembers
      e).contains src) = some e) ∧
    (∃ (s : State) (src : Nat) (ensId : Nat) (e : Nat) (reason : Nat), reason ≠ 0 ∧ s.slotOf [esForming] (fun e => decide (s.ensId e =
      ensId) && (s.ensMembers e).contains src) = some e) ∧
    (∃ (s : State) (slot : Nat) (a : Nat), slot < 8 ∧ s.ensState slot = esForming ∧ (s.ensSlot slot).toLeader = false ∧ (s.ensMembers
      slot).find? (fun a => !(s.ensSlot slot).accepted.contains a) = some a) :=
  ⟨⟨ensIn (clientState [] []) 0, 7, ⟨package0, false⟩, by decide +kernel, by decide +kernel, by decide +kernel, by decide +kernel⟩,
    ⟨ensIn (clientState [] []) 4, 7, ⟨package0, false⟩, by decide +kernel, by decide +kernel, by decide +kernel, by decide +kernel⟩,
    ⟨ensIn (clientState [] []) 5, 7, ⟨package0, false⟩, by decide +kernel, by decide +kernel, by decide +kernel, by decide +kernel⟩,
    ⟨ensIn State.reset 0, 7, by decide +kernel, by decide +kernel, by decide +kernel⟩,
    ⟨ensIn State.reset 4, 7, by decide +kernel, by decide +kernel, by decide +kernel⟩,
    ⟨ensIn State.reset 5, 7, by decide +kernel, by decide +kernel, by decide +kernel⟩,
    ⟨State.reset, 255, 0, List.replicate 64 16383, by decide +kernel, by decide +kernel, by decide +kernel⟩,
    ⟨ensIn State.reset 5, 5, 7, [], by decide +kernel, by decide +kernel, by decide +kernel⟩,
    ⟨slotsTaken, 5, by decide +kernel⟩,
    ⟨ensIn State.reset 1, 9, 5, 7, by decide +kernel⟩,
    ⟨ensIn State.reset 1, 9, 5, 7, 6, by decide +kernel, by decide +kernel⟩,
    ⟨ensIn State.reset 1, 7, 9, by decide +kernel, by decide +kernel, by decide +kernel, by decide +kernel⟩⟩

/-- States and operands that meet the premises of EnsemblesCommitTogether, clause by clause. -/
theorem test_premises_ensembles_commit_together :
    (∃ (s : State) (slot : Nat), slot < 8 ∧ s.ensState slot = esLeader) ∧
    (∃ (s : State) (src : Nat) (round : Nat) (e : Nat) (p : PlanPart), s.slotOf [esMember] (fun e => decide (s.ensLeader e = src)) = some e
      ∧ s.round < round ∧ s.sage.frozen < round ∧ s.model? p.model ≠ none ∧ (∀ b ∈ s.sage.batches, b.leader = some src → b.remote ≠
      [p.batch, p.size])) ∧
    (∃ (s : State) (batches : List Nat), (∃ b ∈ s.sage.batches, b.ens ≠ none ∧ b.leader = none ∧ b.id ∈ batches)) ∧
    (∃ (s : State) (batch : Nat) (e : Nat) (k : Nat) (b : Batch), s.sage.batches.find? (fun b => decide (b.id = batch)) = some b ∧ b.ens =
      some e ∧ b.leader = none ∧ b.part = some k ∧ k + 1 = s.nparts b.model b.kind ∧ b.committed = false ∧ b.decision = none ∧ b.dropped =
      none ∧ b.complete (s.nparts b.model b.kind) = true ∧ (∀ a ∈ s.ensMembers e, a ∈ b.remote)) ∧
    (∃ (s : State) (batch : Nat) (e : Nat) (k : Nat) (b : Batch), s.sage.batches.find? (fun b => decide (b.id = batch)) = some b ∧ b.ens =
      some e ∧ b.leader = none ∧ b.part = some k ∧ k + 1 = s.nparts b.model b.kind ∧ b.committed = false ∧ b.decision = none ∧ b.dropped =
      none ∧ (∃ a ∈ s.ensMembers e, a ∉ b.remote)) ∧
    (∃ (s : State) (batch : Nat) (e : Nat) (k : Nat) (b : Batch), s.sage.batches.find? (fun b => decide (b.id = batch)) = some b ∧ b.ens =
      some e ∧ b.leader = none ∧ b.part = some k ∧ k + 1 = s.nparts b.model b.kind ∧ b.committed = false ∧ b.decision = none ∧ b.complete
      (s.nparts b.model b.kind) = false) ∧
    (∃ (s : State) (batch : Nat) (e : Nat) (k : Nat) (b : Batch), s.sage.batches.find? (fun b => decide (b.id = batch)) = some b ∧ b.ens =
      some e ∧ b.leader = none ∧ b.part = some k ∧ k + 1 = s.nparts b.model b.kind ∧ b.committed = false ∧ b.decision = none ∧ b.dropped ≠
      none) ∧
    (∃ (s : State) (src : Nat) (d : Decision) (b : Batch), s.sage.batches.find? (fun b => decide (b.leader = some src) && decide
      (b.remote.head? = some d.batch) && !b.committed) = some b ∧ d.commit = true ∧ b.dropped = none ∧ b.complete (s.nparts b.model b.kind)
      = true) ∧
    (∃ (s : State) (src : Nat) (d : Decision) (b : Batch), s.sage.batches.find? (fun b => decide (b.leader = some src) && decide
      (b.remote.head? = some d.batch) && !b.committed) = some b ∧ d.commit = false) ∧
    (∃ (s : State) (slot : Nat), slot < 8 ∧ s.ensState slot = esMember ∧ (∃ b ∈ s.sage.batches, b.leader ≠ none ∧ b.ens = some slot ∧ b.part
      ≠ none ∧ b.decision = none ∧ b.committed = false)) :=
  ⟨⟨ensIn State.reset 2, 7, by decide +kernel, by decide +kernel⟩,
    ⟨ensIn (clientState [] []) 3, 9, 1, 7, ⟨4, 1, 1, 0, 1⟩, by decide +kernel, by decide +kernel, by decide +kernel, by decide +kernel,
      by decide +kernel⟩,
    ⟨batchState ({ batch0 with ens := some 7 }), [4], by decide +kernel⟩,
    ⟨ensIn (batchState { batch0 with ens := some 7, remote := [9] }) 2, 4, 7, 0, { batch0 with ens := some 7, remote := [9] },
      by decide +kernel, by decide +kernel, by decide +kernel, by decide +kernel, by decide +kernel, by decide +kernel, by decide +kernel,
      by decide +kernel, by decide +kernel, by decide +kernel⟩,
    ⟨ensIn (batchState { batch0 with ens := some 7 }) 2, 4, 7, 0, { batch0 with ens := some 7 }, by decide +kernel, by decide +kernel,
      by decide +kernel, by decide +kernel, by decide +kernel, by decide +kernel, by decide +kernel, by decide +kernel, by decide +kernel⟩,
    ⟨ensIn (batchState { batch0 with ens := some 7, remote := [9], got := [] }) 2, 4, 7, 0,
      { batch0 with ens := some 7, remote := [9], got := [] }, by decide +kernel, by decide +kernel, by decide +kernel, by decide +kernel,
      by decide +kernel, by decide +kernel, by decide +kernel, by decide +kernel⟩,
    ⟨ensIn (batchState { batch0 with ens := some 7, remote := [9], dropped := some 3 }) 2, 4, 7, 0,
      { batch0 with ens := some 7, remote := [9], dropped := some 3 }, by decide +kernel, by decide +kernel, by decide +kernel,
      by decide +kernel, by decide +kernel, by decide +kernel, by decide +kernel, by decide +kernel⟩,
    ⟨batchState { batch0 with ens := some 7, leader := some 9, remote := [4] }, 9, ⟨4, true⟩,
      { batch0 with ens := some 7, leader := some 9, remote := [4] }, by decide +kernel, by decide +kernel, by decide +kernel,
      by decide +kernel⟩,
    ⟨batchState { batch0 with ens := some 7, leader := some 9, remote := [4] }, 9, ⟨4, false⟩,
      { batch0 with ens := some 7, leader := some 9, remote := [4] }, by decide +kernel, by decide +kernel⟩,
    ⟨ensIn (batchState { batch0 with ens := some 7, leader := some 9, remote := [4] }) 3, 7, by decide +kernel, by decide +kernel,
      by decide +kernel⟩⟩

/-- States and operands that meet the premises of EnsemblesBeatAndEnd, clause by clause. -/
theorem test_premises_ensembles_beat_and_end :
    (∃ (s : State) (src : Nat) (ensId : Nat) (echoed : Nat) (e : Nat), s.slotWith [esForming, esLeader, esMember] ensId src = some e ∧
      echoed ≠ 0) ∧
    (∃ (s : State) (src : Nat) (ensId : Nat) (echoed : Nat) (e : Nat), s.slotWith [esForming, esLeader, esMember] ensId src = some e ∧
      echoed ≠ 0) ∧
    (∃ (s : State) (src : Nat) (ensId : Nat) (echoed : Nat) (e : Nat), s.slotWith [esForming, esLeader, esMember] ensId src = some e ∧
      echoed ≠ 0) ∧
    (∃ (s : State) (slot : Nat), slot < 8 ∧ (s.ensState slot = esLeader ∨ s.ensState slot = esMember) ∧ (∀ x ∈ s.client.sessions, x.model ≠
      s.ensModel slot)) ∧
    (∃ (s : State) (slot : Nat), slot < 8 ∧ (s.ensState slot = esLeader ∨ s.ensState slot = esMember) ∧ (∀ x ∈ s.client.sessions, x.model ≠
      s.ensModel slot)) ∧
    (∃ (s : State) (src : Nat) (ensId : Nat) (e : Nat), s.slotWith [esForming, esLeader, esMember] ensId src = some e ∧ (∀ x ∈
      s.client.sessions, x.model ≠ s.ensModel e)) ∧
    (∃ (s : State) (src : Nat) (ensId : Nat) (e : Nat), s.slotWith [esForming, esLeader, esMember] ensId src = some e ∧ (∀ x ∈
      s.client.sessions, x.model ≠ s.ensModel e)) ∧
    (∃ (s : State) (slot : Nat), slot < 8 ∧ (s.ensState slot = esForming ∨ s.ensState slot = esLeader ∨ s.ensState slot = esMember) ∧ (∀ x ∈
      s.client.sessions, x.model ≠ s.ensModel slot)) ∧
    (∃ (s : State) (slot : Nat), slot < 8 ∧ (s.ensState slot = esForming ∨ s.ensState slot = esLeader ∨ s.ensState slot = esMember) ∧ (∀ x ∈
      s.client.sessions, x.model ≠ s.ensModel slot)) ∧
    (∃ (s : State) (slot : Nat), slot < 8 ∧ (s.ensState slot = esForming ∨ s.ensState slot = esLeader ∨ s.ensState slot = esMember) ∧ (∀ x ∈
      s.client.sessions, x.model ≠ s.ensModel slot)) :=
  ⟨⟨ensIn State.reset 1, 9, 5, 1, 7, by decide +kernel, by decide +kernel⟩,
    ⟨ensIn State.reset 2, 9, 5, 1, 7, by decide +kernel, by decide +kernel⟩,
    ⟨ensIn State.reset 3, 9, 5, 1, 7, by decide +kernel, by decide +kernel⟩,
    ⟨ensIn State.reset 2, 7, by decide +kernel, by decide +kernel, by decide +kernel⟩,
    ⟨ensIn State.reset 3, 7, by decide +kernel, by decide +kernel, by decide +kernel⟩,
    ⟨ensIn State.reset 1, 9, 5, 7, by decide +kernel, by decide +kernel⟩,
    ⟨ensIn State.reset 3, 9, 5, 7, by decide +kernel, by decide +kernel⟩,
    ⟨ensIn State.reset 1, 7, by decide +kernel, by decide +kernel, by decide +kernel⟩,
    ⟨ensIn State.reset 2, 7, by decide +kernel, by decide +kernel, by decide +kernel⟩,
    ⟨ensIn State.reset 3, 7, by decide +kernel, by decide +kernel, by decide +kernel⟩⟩

/-- States and operands that meet the premises of HalvesStayLinked, clause by clause. -/
theorem test_premises_halves_stay_linked :
    (∃ (s : State) (module : Nat) (toEast : Bool) (frame : HlkFrame) (flow : HlkFlow) (snd : HlkEnd) (rcv : HlkEnd), module < 108 ∧
      s.hmState module = hmActive ∧ s.fld Reg.HLK_STATUS 31 31 = 0 ∧ (s.hlkMod module).ends toEast = (snd, rcv) ∧ frame.valid = true ∧
      frame.seq = snd.nextSeq ∧ s.maySend module toEast frame flow = true ∧ frame.crcOk = true ∧ frame.seq = rcv.expected) ∧
    (∃ (s : State) (module : Nat) (toEast : Bool) (frame : HlkFrame) (flow : HlkFlow) (snd : HlkEnd) (rcv : HlkEnd), module < 108 ∧
      s.hmState module = hmActive ∧ s.fld Reg.HLK_STATUS 31 31 = 0 ∧ (s.hlkMod module).ends toEast = (snd, rcv) ∧ frame.valid = true ∧
      frame.seq = snd.nextSeq ∧ s.maySend module toEast frame flow = true ∧ frame.crcOk = true ∧ frame.seq = rcv.expected) ∧
    (∃ (s : State) (module : Nat) (toEast : Bool) (frame : HlkFrame) (snd : HlkEnd) (rcv : HlkEnd), module < 108 ∧ s.hmState module =
      hmActive ∧ s.fld Reg.HLK_STATUS 31 31 = 0 ∧ (s.hlkMod module).ends toEast = (snd, rcv) ∧ frame.valid = true ∧ frame.seq ≠ snd.nextSeq
      ∧ (frame.crcOk = false ∨ frame.seq ≠ rcv.expected) ∧ rcv.discarding = false) ∧
    (∃ (s : State) (module : Nat) (toEast : Bool) (frame : HlkFrame) (snd : HlkEnd) (rcv : HlkEnd), module < 108 ∧ s.hmState module =
      hmActive ∧ s.fld Reg.HLK_STATUS 31 31 = 0 ∧ (s.hlkMod module).ends toEast = (snd, rcv) ∧ frame.valid = true ∧ frame.seq ≠ snd.nextSeq
      ∧ (frame.crcOk = false ∨ frame.seq ≠ rcv.expected) ∧ rcv.discarding = false) ∧
    (∃ (s : State) (module : Nat) (toEast : Bool) (frame : HlkFrame) (snd : HlkEnd) (rcv : HlkEnd), module < 108 ∧ s.hmState module =
      hmActive ∧ s.fld Reg.HLK_STATUS 31 31 = 0 ∧ (s.hlkMod module).ends toEast = (snd, rcv) ∧ frame.valid = false ∧ frame.crcOk = true ∧
      frame.nak = false) ∧
    (∃ (s : State) (module : Nat) (fromWest : Bool), module < 108 ∧ s.hmState module = hmActive ∧ ((s.hlkMod module).ends fromWest).1.kept ≠
      [] ∧ (s.recentReplays module).length < s.fld Reg.HLK_ERR_LIMIT 15 0) ∧
    (∃ (s : State) (module : Nat), module < 108 ∧ s.hmState module = hmTraining) ∧
    (∃ (s : State) (module : Nat), module < 108 ∧ s.hmState module = hmTraining ∧ s.fld Reg.HLK_STATUS 31 31 = 0 ∧ s.hmPos module < 96 ∧
      s.hmWidth module ≠ 2 ∧ (s.hlkMod module).target ≠ 2) ∧
    (∃ (s : State), s.mgmt.silent = false) ∧
    (∃ (s : State), s.fld Reg.HLK_STATUS 31 31 = 0 ∧ s.fenced .west = false ∧ s.fenced .east = false ∧ s.fld Reg.MGT_SIGNALS 8 8 = 0 ∧
      s.mainOn = true ∧ (s.halfReset (otherHalf s.leaseHalf)).phase ≠ 1) ∧
    (∃ (s : State), s.fld Reg.HLK_STATUS 31 31 = 0 ∧ s.fenced .west = false ∧ s.fenced .east = false ∧ s.fld Reg.MGT_SIGNALS 8 8 = 0 ∧
      s.mainOn = true ∧ (s.halfReset (otherHalf s.leaseHalf)).phase = 1) ∧
    (∃ (s : State) (h : Half) (answer : Option Attestation), s.link.rejoin = some (h, 1) ∧ s.attest answer ≠ 0) :=
  ⟨⟨hlk (homeOf 0) 2 Link.init, homeOf 0, true, frame0, flow0, HlkEnd.init, HlkEnd.init, by decide +kernel, by decide +kernel,
      by decide +kernel, by decide +kernel, by decide +kernel, by decide +kernel, by decide +kernel, by decide +kernel, by decide +kernel⟩,
    ⟨hlk (homeOf 0) 2 Link.init, homeOf 0, false, frame0, flow0, HlkEnd.init, HlkEnd.init, by decide +kernel, by decide +kernel,
      by decide +kernel, by decide +kernel, by decide +kernel, by decide +kernel, by decide +kernel, by decide +kernel, by decide +kernel⟩,
    ⟨hlk 107 2 Link.init, 107, true, { frame0 with seq := 1 }, HlkEnd.init, HlkEnd.init, by decide +kernel, by decide +kernel,
      by decide +kernel, by decide +kernel, by decide +kernel, by decide +kernel, by decide +kernel, by decide +kernel⟩,
    ⟨hlk 107 2 Link.init, 107, true, { frame0 with seq := 1, crcOk := false }, HlkEnd.init, HlkEnd.init, by decide +kernel,
      by decide +kernel, by decide +kernel, by decide +kernel, by decide +kernel, by decide +kernel, by decide +kernel, by decide +kernel⟩,
    ⟨hlk 107 2 Link.init, 107, true, { frame0 with valid := false }, HlkEnd.init, HlkEnd.init, by decide +kernel, by decide +kernel,
      by decide +kernel, by decide +kernel, by decide +kernel, by decide +kernel, by decide +kernel⟩,
    ⟨hlk 107 2 { Link.init with mods := [(107, { HlkModule.init with west := { HlkEnd.init with kept := [(frame0, flow0)] } })] }, 107,
      true, by decide +kernel, by decide +kernel, by decide +kernel, by decide +kernel⟩,
    ⟨hlk 107 1 Link.init, 107, by decide +kernel, by decide +kernel⟩,
    ⟨((hlk 107 1 Link.init).setFld (hmReg 107) 15 8 95).setFld (hmReg 107) 5 4 1, 107, by decide +kernel, by decide +kernel,
      by decide +kernel, by decide +kernel, by decide +kernel, by decide +kernel⟩,
    ⟨State.reset, by decide +kernel⟩,
    ⟨serving, by decide +kernel, by decide +kernel, by decide +kernel, by decide +kernel, by decide +kernel, by decide +kernel⟩,
    ⟨{ serving with ctl := { ResetCtl.init with east := ⟨1, 5, 2, false⟩ } }, by decide +kernel, by decide +kernel, by decide +kernel,
      by decide +kernel, by decide +kernel, by decide +kernel⟩,
    ⟨{ serving with link := { Link.init with rejoin := some (.east, 1) } }, .east, none, by decide +kernel, by decide +kernel⟩⟩

/-- States and operands that meet the premises of MainPowerComesUp, clause by clause. -/
theorem test_premises_main_power_comes_up :
    (∃ (s : State), s.pwr.auxOn = false) ∧
    (∃ (s : State), s.pwr.auxOn = true ∧ s.fld Reg.PWR_STATUS 31 31 = 1) ∧
    (∃ (s : State), s.enabled = true ∧ s.fld Reg.PWR_STATUS 31 31 = 0) ∧
    (∃ (s : State), s.msState = msStarting ∧ s.step = 3 ∧ s.psState = psAux ∧ (∃ t0, s.pwr.auxSince = some t0 ∧ t0 + 100000000 ≤ s.now) ∧
      s.pwr.stayOff = false ∧ s.fld Reg.PWR_STATUS 31 31 = 0 ∧ s.tripOpen = false ∧ s.lifeCycle ≠ 5) ∧
    (∃ (s : State), s.psState ≠ psAux) ∧
    (∃ (s : State), s.psState = psCharging) ∧
    (∃ (s : State), s.psState = psCharging) ∧
    (∃ (s : State) (converters : Nat), s.psState = psSeqUp ∧ s.pwr.step = 2 ∧ 3 ≤ (s.setFld Reg.PWR_STATUS 20 16 converters).converters) ∧
    (∃ (s : State), s.psState = psSeqUp ∧ 2 < s.pwr.step ∧ s.pwr.step < 9) ∧
    (∃ (s : State), s.psState = psSeqUp ∧ 2 < s.pwr.step ∧ s.pwr.step < 9) ∧
    (∃ (s : State), s.psState = psSeqUp ∧ s.pwr.step = 9 ∧ s.step = 9 ∧ s.pwr.wave ≠ 5) ∧
    (∃ (s : State), s.psState = psSeqUp ∧ s.pwr.step = 9 ∧ s.step = 9 ∧ s.pwr.wave = 5) ∧
    (∃ (s : State) (domain : Nat), s.psState = psSeqUp ∧ (s.pwr.step ≠ 9 ∨ 144 ≤ domain)) ∧
    (∃ (s : State) (domain : Nat), s.psState = psSeqUp ∧ (s.pwr.step ≠ 9 ∨ 144 ≤ domain)) ∧
    (∃ (s : State) (domain : Nat), s.psState = psSeqUp ∧ s.pwr.step = 9 ∧ domain < 144 ∧ s.clState domain ≠ clDark) ∧
    (∃ (s : State), s.msState = msAux ∧ s.psState = psAux ∧ s.boot.loaded = true ∧ s.pwr.stayOff = false ∧ s.fld Reg.PWR_STATUS 31 31 = 0) ∧
    (∃ (s : State), s.psState = psLocked ∧ s.pwr.lockedAt + 1000000000 ≤ s.now ∧ (s.pwr.retries.filter (fun t => decide (s.now < t +
      86400000000000))).length < 3 ∧ s.fld Reg.PWR_STATUS 31 31 = 0) ∧
    (∃ (s : State), (s.psState ≠ psLocked ∨ s.now < s.pwr.lockedAt + 1000000000)) ∧
    (∃ (s : State), (s.psState ≠ psLocked ∨ s.now < s.pwr.lockedAt + 1000000000)) ∧
    (∃ (s : State) (domain : Nat) (headroom : Nat) (since : Nat) (cause : Nat), SMap.get? s.pwr.deferred domain = some (since, cause) ∧
      headroom < 20) ∧
    (∃ (s : State) (domain : Nat) (headroom : Nat) (neighbourPeak : Bool) (since : Nat) (cause : Nat), SMap.get? s.pwr.deferred domain =
      some (since, cause) ∧ 20 ≤ headroom ∧ neighbourPeak = true) ∧
    (∃ (s : State) (domain : Nat) (headroom : Nat) (neighbourPeak : Bool) (since : Nat) (cause : Nat), SMap.get? s.pwr.deferred domain =
      some (since, cause) ∧ 20 ≤ headroom ∧ neighbourPeak = false ∧ domain < 144 ∧ 10000000 < s.now - since) :=
  ⟨⟨State.reset, by decide +kernel⟩,
    ⟨powered.setFld Reg.PWR_STATUS 31 31 1, by decide +kernel, by decide +kernel⟩,
    ⟨powered, by decide +kernel, by decide +kernel⟩,
    ⟨{ (powerIn 0 0).setFld Reg.MGT_START_STATUS 2 0 1 |>.setFld Reg.MGT_START_STATUS 11 8 3 with now := 100000005, pwr :=
      { PowerState.init with auxOn := true, auxSince := some 5 } }, by decide +kernel, by decide +kernel, by decide +kernel, ⟨5, rfl,
      by decide +kernel⟩, by decide +kernel, by decide +kernel, by decide +kernel, by decide +kernel⟩,
    ⟨powered, by decide +kernel⟩,
    ⟨powerIn 1 1, by decide +kernel⟩,
    ⟨powerIn 1 1, by decide +kernel⟩,
    ⟨powerIn 2 2, 7, by decide +kernel, by decide +kernel, by decide +kernel⟩,
    ⟨powerIn 2 3, by decide +kernel, by decide +kernel, by decide +kernel⟩,
    ⟨powerIn 2 8, by decide +kernel, by decide +kernel, by decide +kernel⟩,
    ⟨(powerIn 2 9).setFld Reg.MGT_START_STATUS 11 8 9, by decide +kernel, by decide +kernel, by decide +kernel, by decide +kernel⟩,
    ⟨{ (powerIn 2 9).setFld Reg.MGT_START_STATUS 11 8 9 with pwr := { PowerState.init with auxOn := true, step := 9, wave := 5 } },
      by decide +kernel, by decide +kernel, by decide +kernel, by decide +kernel⟩,
    ⟨powerIn 2 3, 0, by decide +kernel, by decide +kernel⟩,
    ⟨powerIn 2 9, 144, by decide +kernel, by decide +kernel⟩,
    ⟨powerIn 2 9, 143, by decide +kernel, by decide +kernel, by decide +kernel, by decide +kernel⟩,
    ⟨{ powerIn 0 0 with boot := { StartState.init with loaded := true } }, by decide +kernel, by decide +kernel, by decide +kernel,
      by decide +kernel, by decide +kernel⟩,
    ⟨{ powerIn 6 0 with now := 1000000005, pwr := { PowerState.init with auxOn := true, lockedAt := 5, retries := [7, 8] } },
      by decide +kernel, by decide +kernel, by decide +kernel, by decide +kernel⟩,
    ⟨powered, by decide +kernel⟩,
    ⟨{ powerIn 6 0 with now := 1000000004, pwr := { PowerState.init with auxOn := true, lockedAt := 5 } }, by decide +kernel⟩,
    ⟨{ powered with now := 10000006, pwr := { PowerState.init with deferred := [(143, 5, 0)] } }, 143, 19, 5, 0, by decide +kernel,
      by decide +kernel⟩,
    ⟨{ powered with now := 10000006, pwr := { PowerState.init with deferred := [(143, 5, 0)] } }, 143, 20, true, 5, 0, by decide +kernel,
      by decide +kernel, by decide +kernel⟩,
    ⟨{ powered with now := 10000006, pwr := { PowerState.init with deferred := [(143, 5, 0)] } }, 143, 20, false, 5, 0, by decide +kernel,
      by decide +kernel, by decide +kernel, by decide +kernel, by decide +kernel⟩⟩

/-- States and operands that meet the premises of PowerFaultsAreContained, clause by clause. -/
theorem test_premises_power_faults_are_contained :
    (∃ (s : State), s.enabled = true) ∧
    (∃ (s : State), s.enabled = true) ∧
    (∃ (s : State), s.enabled = true) ∧
    (∃ (s : State), s.enabled = true) ∧
    (∃ (s : State) (entering : Bool), s.fld Reg.PWR_STATUS 30 30 ≠ (if entering then 1 else 0)) ∧
    (∃ (s : State) (entering : Bool), s.fld Reg.PWR_STATUS 30 30 ≠ (if entering then 1 else 0)) ∧
    (∃ (s : State), s.psState = psOn) ∧
    (∃ (s : State), s.psState ≠ psOn) ∧
    (∃ (s : State), s.psState = psSeqDown ∧ s.pwr.step = 9 ∧ s.pwr.wave ≠ 0) ∧
    (∃ (s : State), s.psState = psSeqDown ∧ s.pwr.step = 9 ∧ s.pwr.wave = 0) ∧
    (∃ (s : State), s.psState = psSeqDown ∧ 1 < s.pwr.step ∧ s.pwr.step ≠ 9) ∧
    (∃ (s : State), s.psState = psSeqDown ∧ s.pwr.step ≤ 1) ∧
    (∃ (s : State) (k : Nat), k < 5 ∧ s.enabled = true ∧ s.fld Reg.PWR_STATUS (16 + k) (16 + k) = 1 ∧ 2 < s.converters) ∧
    (∃ (s : State) (k : Nat), k < 5 ∧ s.enabled = true ∧ s.fld Reg.PWR_STATUS (16 + k) (16 + k) = 1 ∧ s.converters ≤ 2) ∧
    (∃ (s : State) (cluster : Nat) (phase : Nat), cluster < 144 ∧ phase < 3 ∧ s.clState cluster ≠ clDark ∧ s.fld (Reg.PWR_CL + cluster) (24
      + phase) (24 + phase) = 1 ∧ s.fld (Reg.PWR_CL + cluster) 26 24 = 7) ∧
    (∃ (s : State) (cluster : Nat) (phase : Nat), cluster < 144 ∧ phase < 3 ∧ s.clState cluster ≠ clDark ∧ s.fld (Reg.PWR_CL + cluster) (24
      + phase) (24 + phase) = 1 ∧ s.fld (Reg.PWR_CL + cluster) 26 24 ≠ 7) ∧
    (∃ (s : State) (cluster : Nat) (rail : Nat), cluster < 144 ∧ rail < 3 ∧ (cluster, rail) ∉ s.pwr.deadRegs ∧ s.clState cluster ≠ clDark ∧
      (tiePartner cluster, rail) ∉ s.pwr.deadRegs) ∧
    (∃ (s : State) (cluster : Nat) (rail : Nat), cluster < 144 ∧ rail < 3 ∧ (cluster, rail) ∉ s.pwr.deadRegs ∧ s.clState cluster ≠ clDark ∧
      (tiePartner cluster, rail) ∈ s.pwr.deadRegs) ∧
    (∃ (s : State) (domain : Nat), s.enabled = true ∧ 156 ≤ domain ∧ domain ≤ 203) ∧
    (∃ (s : State) (domain : Nat), s.enabled = true ∧ 156 ≤ domain ∧ domain ≤ 203) ∧
    (∃ (s : State) (domain : Nat), s.enabled = true ∧ 144 ≤ domain ∧ domain ≤ 155) ∧
    (∃ (s : State) (cluster : Nat), cluster < 144 ∧ (s.clState cluster = clOn ∨ s.clState cluster = clTwoPhase) ∧ ((SMap.getD
      s.pwr.undervolts cluster []).filter (fun t => decide (s.now < t + 86400000000000))).length < 2) ∧
    (∃ (s : State) (cluster : Nat), cluster < 144 ∧ (s.clState cluster = clOn ∨ s.clState cluster = clTwoPhase) ∧ 2 ≤ ((SMap.getD
      s.pwr.undervolts cluster []).filter (fun t => decide (s.now < t + 86400000000000))).length) ∧
    (∃ (s : State) (domain : Nat), domain < 640 ∧ domain ∉ s.pwr.localSense) ∧
    (∃ (s : State) (domain : Nat), domain ∈ s.pwr.localSense ∧ domain < 144 ∧ s.psState = psOn ∧ s.clState domain = clOff ∧ s.powered domain
      = true) ∧
    (∃ (domain : Nat), domain < 640) :=
  ⟨⟨powered, by decide +kernel⟩,
    ⟨powered, by decide +kernel⟩,
    ⟨powered, by decide +kernel⟩,
    ⟨powered, by decide +kernel⟩,
    ⟨powered, true, by decide +kernel⟩,
    ⟨powered.setFld Reg.PWR_STATUS 30 30 1, false, by decide +kernel⟩,
    ⟨powered, by decide +kernel⟩,
    ⟨powerIn 2 3, by decide +kernel⟩,
    ⟨{ powerIn 4 9 with pwr := { PowerState.init with step := 9, wave := 5 } }, by decide +kernel, by decide +kernel, by decide +kernel⟩,
    ⟨{ powerIn 4 9 with pwr := { PowerState.init with step := 9, wave := 0 } }, by decide +kernel, by decide +kernel, by decide +kernel⟩,
    ⟨powerIn 4 2, by decide +kernel, by decide +kernel, by decide +kernel⟩,
    ⟨powerIn 4 1, by decide +kernel, by decide +kernel⟩,
    ⟨powered.setFld Reg.PWR_STATUS 20 16 0x13, 4, by decide +kernel, by decide +kernel, by decide +kernel, by decide +kernel⟩,
    ⟨powered.setFld Reg.PWR_STATUS 20 16 0x11, 4, by decide +kernel, by decide +kernel, by decide +kernel, by decide +kernel⟩,
    ⟨clIn powered 143 3, 143, 2, by decide +kernel, by decide +kernel, by decide +kernel, by decide +kernel, by decide +kernel⟩,
    ⟨(clIn powered 143 3).setFld (Reg.PWR_CL + 143) 26 24 4, 143, 2, by decide +kernel, by decide +kernel, by decide +kernel,
      by decide +kernel, by decide +kernel⟩,
    ⟨clIn powered 143 3, 143, 2, by decide +kernel, by decide +kernel, by decide +kernel, by decide +kernel, by decide +kernel⟩,
    ⟨{ clIn powered 143 3 with pwr := { PowerState.init with deadRegs := [(tiePartner 143, 2)] } }, 143, 2, by decide +kernel,
      by decide +kernel, by decide +kernel, by decide +kernel, by decide +kernel⟩,
    ⟨powered, 203, by decide +kernel, by decide +kernel, by decide +kernel⟩,
    ⟨powered, 156, by decide +kernel, by decide +kernel, by decide +kernel⟩,
    ⟨powered, 155, by decide +kernel, by decide +kernel, by decide +kernel⟩,
    ⟨clIn powered 143 3, 143, by decide +kernel, by decide +kernel, by decide +kernel⟩,
    ⟨{ clIn powered 143 4 with now := 86400000000004, pwr := { PowerState.init with undervolts := [(143, [5, 5])] } }, 143,
      by decide +kernel, by decide +kernel, by decide +kernel⟩,
    ⟨powered, 639, by decide +kernel, by decide +kernel⟩,
    ⟨{ clIn powered 143 0 with pwr := { PowerState.init with localSense := [143] } }, 143, by decide +kernel, by decide +kernel,
      by decide +kernel, by decide +kernel, by decide +kernel⟩,
    ⟨639, by decide +kernel⟩⟩

/-- States and operands that meet the premises of HeatIsHeld, clause by clause. -/
theorem test_premises_heat_is_held :
    (∃ (s : State) (diodes : List (Int × Int)) (sensors : List Int) (spot : Nat) (a : Int) (b : Int) (k : Nat) (v : Int), s.pwr.auxOn = true
      ∧ spot < 1296 ∧ diodes[spot]? = some (a, b) ∧ s.fld (Reg.THM_SPOT + spot) 30 30 = 0 ∧ s.fld (Reg.THM_SPOT + spot) 31 31 = 0 ∧ a - b ≤
      30 ∧ b - a ≤ 30 ∧ k < 16 ∧ sensors[k]? = some v) ∧
    (∃ (s : State) (cluster : Nat), cluster ∈ s.thm.guard ∧ cluster ∉ s.thm.unwell) ∧
    (∃ (s : State) (power : Nat), s.capOf .west < (power : Rat) ∧ s.psState = psOn) ∧
    (∃ (s : State) (power : Nat) (ci : Nat), s.capOf .west < (power : Rat) ∧ s.psState = psOn ∧ s.thm.shareW < (power : Rat) - s.capOf .west
      ∧ s.hottest .west = some ci) ∧
    (∃ (s : State) (power : Nat), s.capOf .east < (power : Rat) ∧ s.psState = psOn) ∧
    (∃ (s : State) (power : Nat) (ci : Nat), s.capOf .east < (power : Rat) ∧ s.psState = psOn ∧ s.thm.shareE < (power : Rat) - s.capOf .east
      ∧ s.hottest .east = some ci) ∧
    (∃ (s : State), s.pwr.auxOn = true ∧ s.thState = thNormal) ∧
    (∃ (s : State), s.thState = thLoss ∧ qFull s.inlet ≤ s.meanFlow ∧ inletGood s.inlet = true ∧ s.belowPlan = true) ∧
    (∃ (s : State), s.pwr.auxOn = true ∧ s.thState ≠ thTripped ∧ s.thState ≠ thCooldown ∧ s.fld Reg.CFG_STATUS 31 31 = 1 ∧
      s.card.trips.length < 64 ∧ s.enabled = true) ∧
    (∃ (s : State), s.thState = thTripped) ∧
    (∃ (s : State) (diodes : List (Int × Int)), s.pwr.auxOn = true ∧ s.tripOpen = true ∧ s.thState ≠ thTripped ∧ (coolModel s).cooldownFails
      (highest ((coolModel s).thm.restart.map (fun e => e.2.floor))) (highest (s.inService diodes)) = none) ∧
    (∃ (s : State) (diodes : List (Int × Int)) (c : Nat) (v : Nat), s.pwr.auxOn = true ∧ s.tripOpen = true ∧ s.thState ≠ thTripped ∧
      (coolModel s).cooldownFails (highest ((coolModel s).thm.restart.map (fun e => e.2.floor))) (highest (s.inService diodes)) = some (c,
      v)) ∧
    (∃ (s : State), s.pwr.auxOn = true ∧ s.fld Reg.CFG_STATUS 31 31 = 1) :=
  ⟨⟨powered, [(450, 480)], [500], 0, 450, 480, 0, 500, by decide +kernel, by decide +kernel, by decide +kernel, by decide +kernel,
      by decide +kernel, by decide +kernel, by decide +kernel, by decide +kernel, by decide +kernel⟩,
    ⟨{ powered with thm := { Thermal.init with guard := [143] } }, 143, by decide +kernel, by decide +kernel⟩,
    ⟨{ powered with thm := { Thermal.init with shareW := 1, shareE := 1 } }, 1, by decide +kernel, by decide +kernel⟩,
    ⟨((clIn powered 0 3).setFld (Reg.PWR_CL + 0) 6 0 50), 1, 0, by decide +kernel, by decide +kernel, by decide +kernel, by decide +kernel⟩,
    ⟨{ powered with thm := { Thermal.init with shareW := 1, shareE := 1 } }, 1, by decide +kernel, by decide +kernel⟩,
    ⟨((clIn powered 17 3).setFld (Reg.PWR_CL + 17) 6 0 50), 1, 17, by decide +kernel, by decide +kernel, by decide +kernel,
      by decide +kernel⟩,
    ⟨powered, by decide +kernel, by decide +kernel⟩,
    ⟨cooled 2, by decide +kernel, by decide +kernel, by decide +kernel, by decide +kernel⟩,
    ⟨powered.setFld Reg.CFG_STATUS 31 31 1, by decide +kernel, by decide +kernel, by decide +kernel, by decide +kernel, by decide +kernel,
      by decide +kernel⟩,
    ⟨cooled 3, by decide +kernel⟩,
    ⟨cooled 4, [(450, 450)], by decide +kernel, by decide +kernel, by decide +kernel, by decide +kernel⟩,
    ⟨cooled 4, [(450, 451)], 1, tempParam 451, by decide +kernel, by decide +kernel, by decide +kernel, by decide +kernel⟩,
    ⟨powered.setFld Reg.CFG_STATUS 31 31 1, by decide +kernel, by decide +kernel⟩⟩

/-- States and operands that meet the premises of TheModuleStartsAndLeaves, clause by clause. -/
theorem test_premises_the_module_starts_and_leaves :
    (∃ (s : State), s.msState = msStarting ∧ s.pwr.auxOn = true ∧ s.step = 3 ∧ s.psState = psSeqUp ∧ s.pwr.step = 9) ∧
    (∃ (s : State) (r : StartResult) (k : Nat) (i : Nat) (rate : Nat), s.msState = msStarting ∧ s.pwr.auxOn = true ∧ s.step = 5 ∧ k < 16 ∧
      r.rates[k]? = some i ∧ stackRates[i]? = some rate) ∧
    (∃ (s : State), s.msState = msStarting ∧ s.pwr.auxOn = true ∧ s.step = 9 ∧ s.psState = psOn) ∧
    (∃ (s : State), s.msState = msStarting ∧ s.pwr.auxOn = true ∧ s.step = 11 ∧ (s.tb.isSet = true ∨ s.boot.timeSource = 0)) ∧
    (∃ (s : State), s.msState = msStarting ∧ s.pwr.auxOn = true ∧ s.step = 12 ∧ s.ctl.heldW = false ∧ s.ctl.heldE = false ∧
      s.boot.heldRemoval = none ∧ s.signal 9 = false) ∧
    (∃ (s : State), s.msState = msStarting ∧ s.pwr.auxOn = true ∧ (s.step = 1 ∨ s.step = 2)) ∧
    (∃ (s : State), s.msState = msStarting ∧ s.pwr.auxOn = true ∧ (s.step = 1 ∨ s.step = 2)) ∧
    (∃ (s : State) (port : Nat) (source : Nat), s.boot.timeSource = 1 ∧ s.ptpUsable port = true ∧ port = s.fld Reg.MGT_TIME_STATUS 9 8 ∧
      s.fromMaster source = true) ∧
    (∃ (s : State) (port : Nat) (source : Nat) (t1 : Int) (t2 : Int) (d : Int), s.boot.timeSource = 1 ∧ s.ptpUsable port = true ∧ port =
      s.fld Reg.MGT_TIME_STATUS 9 8 ∧ s.fromMaster source = true ∧ s.ptp.t2 = some t2 ∧ s.ptp.delay = some d ∧ s.tb.isSet = true ∧ -750 ≤ t2
      - t1 - d ∧ t2 - t1 - d ≤ 750) ∧
    (∃ (s : State) (port : Nat) (source : Nat) (t1 : Int) (t2 : Int) (d : Int), s.boot.timeSource = 1 ∧ s.ptpUsable port = true ∧ port =
      s.fld Reg.MGT_TIME_STATUS 9 8 ∧ s.fromMaster source = true ∧ s.ptp.t2 = some t2 ∧ s.ptp.delay = some d ∧ s.tb.isSet = true ∧ -750 ≤ t2
      - t1 - d ∧ t2 - t1 - d ≤ 750) ∧
    (∃ (s : State) (q : Nat), s.boot.timeSource = 1 ∧ (List.map (· % 4) [s.fld Reg.MGT_TIME_STATUS 9 8 + 1, s.fld Reg.MGT_TIME_STATUS 9 8 +
      2, s.fld Reg.MGT_TIME_STATUS 9 8 + 3]).find? s.ptpUsable = some q) ∧
    (∃ (s : State) (offset : Int), s.boot.timeSource = 2 ∧ s.tb.ppsSecond = none ∧ s.tb.isSet = true ∧ -750 ≤ offset ∧ offset ≤ 750) ∧
    (∃ (s : State) (offset : Int), s.boot.timeSource = 2 ∧ s.tb.ppsSecond = none ∧ s.tb.isSet = true ∧ -750 ≤ offset ∧ offset ≤ 750) ∧
    (∃ (s : State) (offset : Int), s.boot.timeSource = 2 ∧ s.tb.ppsSecond = none ∧ s.tb.isSet = true ∧ (10000 < offset ∨ offset < -10000)) ∧
    (∃ (s : State) (offset : Int), s.boot.timeSource = 2 ∧ s.tb.ppsSecond = none ∧ s.tb.isSet = true ∧ (10000 < offset ∨ offset < -10000)) ∧
    (∃ (s : State) (locked : Bool), (locked = true → s.boot.timeSource ≠ 0 ∧ s.tb.isSet = true) ∧ s.fld Reg.MGT_TIME_STATUS 31 31 ≠ (if
      locked then 1 else 0)) ∧
    (∃ (s : State) (locked : Bool), (locked = true → s.boot.timeSource ≠ 0 ∧ s.tb.isSet = true) ∧ s.fld Reg.MGT_TIME_STATUS 31 31 ≠ (if
      locked then 1 else 0)) ∧
    (∃ (s : State) (lo : Nat) (hi : Nat), lo < 2 ^ 32 ∧ hi < 2 ^ 32 ∧ s.boot.timeSource = 0 ∧ s.roundsRun = false) ∧
    (∃ (s : State) (lo : Nat) (hi : Nat), lo < 2 ^ 32 ∧ hi < 2 ^ 32 ∧ s.boot.timeSource = 0 ∧ s.roundsRun = true) ∧
    (∃ (s : State) (lo : Nat) (hi : Nat), lo < 2 ^ 32 ∧ hi < 2 ^ 32 ∧ s.boot.timeSource = 2) ∧
    (∃ (s : State), (s.msState = msServing ∨ s.msState = msHalted)) ∧
    (∃ (s : State), (s.msState = msServing ∨ s.msState = msHalted)) ∧
    (∃ (s : State), (s.msState = msAux ∨ s.msState = msStarting)) ∧
    (∃ (s : State), (s.msState = msAux ∨ s.msState = msStarting)) ∧
    (∃ (s : State) (r : Removal), s.boot.removal = some r ∧ r.drained = false ∧ s.psState = psOn ∧ s.client.sessions = []) :=
  ⟨⟨((powerIn 2 9).setFld Reg.MGT_START_STATUS 2 0 1).setFld Reg.MGT_START_STATUS 11 8 3, by decide +kernel, by decide +kernel,
      by decide +kernel, by decide +kernel, by decide +kernel⟩,
    ⟨starting 5, startGood, 2, 2, 128, by decide +kernel, by decide +kernel, by decide +kernel, by decide +kernel, by decide +kernel,
      by decide +kernel⟩,
    ⟨starting 9, by decide +kernel, by decide +kernel, by decide +kernel, by decide +kernel⟩,
    ⟨timeFrom (starting 11) 1, by decide +kernel, by decide +kernel, by decide +kernel, by decide +kernel⟩,
    ⟨starting 12, by decide +kernel, by decide +kernel, by decide +kernel, by decide +kernel, by decide +kernel, by decide +kernel,
      by decide +kernel⟩,
    ⟨starting 1, by decide +kernel, by decide +kernel, by decide +kernel⟩,
    ⟨starting 2, by decide +kernel, by decide +kernel, by decide +kernel⟩,
    ⟨ptpState 3, 3, 77, by decide +kernel, by decide +kernel, by decide +kernel, by decide +kernel⟩,
    ⟨ptpState 3, 3, 77, 200, 1000, 50, by decide +kernel, by decide +kernel, by decide +kernel, by decide +kernel, by decide +kernel,
      by decide +kernel, by decide +kernel, by decide +kernel, by decide +kernel⟩,
    ⟨ptpState 3, 3, 77, 1700, 1000, 50, by decide +kernel, by decide +kernel, by decide +kernel, by decide +kernel, by decide +kernel,
      by decide +kernel, by decide +kernel, by decide +kernel, by decide +kernel⟩,
    ⟨(ptpState 3).setFld Reg.MGT_TIME_STATUS 9 8 0, 3, by decide +kernel, by decide +kernel⟩,
    ⟨timeFrom State.reset 2, 750, by decide +kernel, by decide +kernel, by decide +kernel, by decide +kernel, by decide +kernel⟩,
    ⟨timeFrom State.reset 2, -750, by decide +kernel, by decide +kernel, by decide +kernel, by decide +kernel, by decide +kernel⟩,
    ⟨timeFrom State.reset 2, 10001, by decide +kernel, by decide +kernel, by decide +kernel, by decide +kernel⟩,
    ⟨timeFrom State.reset 2, -10001, by decide +kernel, by decide +kernel, by decide +kernel, by decide +kernel⟩,
    ⟨timeFrom State.reset 1, true, by decide +kernel, by decide +kernel⟩,
    ⟨State.reset.setFld Reg.MGT_TIME_STATUS 31 31 1, false, by decide +kernel, by decide +kernel⟩,
    ⟨timeFrom State.reset 0, 2 ^ 32 - 1, 0, by decide +kernel, by decide +kernel, by decide +kernel, by decide +kernel⟩,
    ⟨timeFrom serving 0, 2 ^ 32 - 1, 0, by decide +kernel, by decide +kernel, by decide +kernel, by decide +kernel⟩,
    ⟨timeFrom State.reset 2, 2 ^ 32 - 1, 0, by decide +kernel, by decide +kernel, by decide +kernel⟩,
    ⟨powered.setFld Reg.MGT_START_STATUS 2 0 2, by decide +kernel⟩,
    ⟨powered.setFld Reg.MGT_START_STATUS 2 0 3, by decide +kernel⟩,
    ⟨powered.setFld Reg.MGT_START_STATUS 2 0 0, by decide +kernel⟩,
    ⟨powered.setFld Reg.MGT_START_STATUS 2 0 1, by decide +kernel⟩,
    ⟨{ powered with boot := { StartState.init with removal := some ⟨0, 1, 0, 0, false⟩ } }, ⟨0, 1, 0, 0, false⟩, by decide +kernel,
      by decide +kernel, by decide +kernel, by decide +kernel⟩⟩

/-- States and operands that meet the premises of CardWritesProceed, clause by clause. -/
theorem test_premises_card_writes_proceed :
    (∃ (s : State) (target : Nat) (len : Nat) (base : Nat) (size : Nat), s.pastStep1 = true ∧ s.card.job = none ∧ s.cardTarget target = some
      (base, size) ∧ len ≤ size) ∧
    (∃ (s : State) (target : Nat) (len : Nat) (base : Nat) (size : Nat), s.pastStep1 = true ∧ s.card.job = none ∧ s.cardTarget target = some
      (base, size) ∧ len ≤ size) ∧
    (∃ (s : State) (target : Nat) (len : Nat) (base : Nat) (size : Nat), s.pastStep1 = true ∧ s.card.job = none ∧ s.cardTarget target = some
      (base, size) ∧ len ≤ size) ∧
    (∃ (s : State) (j : CardJob), s.card.job = some j ∧ s.ccState = ccErasing) ∧
    (∃ (s : State) (j : CardJob), s.card.job = some j ∧ s.ccState = ccErasing) ∧
    (∃ (s : State) (j : CardJob), s.card.job = some j ∧ s.ccState = ccReceiving) ∧
    (∃ (s : State) (j : CardJob), s.card.job = some j ∧ s.ccState = ccReceiving ∧ SMap.wf s.card.bytes = true ∧ (0 < min 256 (j.len -
      j.programmed) ∧ j.programmed + min 256 (j.len - j.programmed) ≤ j.received.length)) ∧
    (∃ (s : State) (j : CardJob), s.card.job = some j ∧ s.ccState = ccReceiving ∧ SMap.wf s.card.bytes = true ∧ (0 < min 256 (j.len -
      j.programmed) ∧ j.programmed + min 256 (j.len - j.programmed) ≤ j.received.length)) ∧
    (∃ (s : State) (j : CardJob), s.card.job = some j) ∧
    (∃ (s : State) (j : CardJob), s.card.job = some j ∧ s.ccState = ccReceiving) ∧
    (∃ (s : State) (j : CardJob), s.card.job = some j ∧ s.ccState = ccChecking ∧ (j.target = 1 ∨ j.target = 2) ∧ ∃ (c : Container),
      s.checkCard j.base j.size (decide (j.target = 2)) (if j.target = 1 then some (s.reg Reg.CFG_IMAGE_SEQ).toNat else none) = .ok c) ∧
    (∃ (s : State) (j : CardJob) (b : Bad), s.card.job = some j ∧ s.ccState = ccChecking ∧ (j.target = 1 ∨ j.target = 2) ∧ s.checkCard
      j.base j.size (decide (j.target = 2)) (if j.target = 1 then some (s.reg Reg.CFG_IMAGE_SEQ).toNat else none) = .error b) ∧
    (∃ (s : State) (j : CardJob), s.card.job = some j ∧ s.ccState = ccChecking ∧ j.target = 3 ∧ ∃ (r : Nat × List Nat), checkBoot s.fuses
      (s.card.read j.base j.size) = .ok r) :=
  ⟨⟨{ State.reset with boot := { StartState.init with bootHash := [1] } }, 1, cardCfgSize, cardCfg1, cardCfgSize, by decide +kernel,
      by decide +kernel, by decide +kernel, by decide +kernel⟩,
    ⟨{ State.reset with boot := { StartState.init with bootHash := [1] } }, 2, cardCalSize, cardCal, cardCalSize, by decide +kernel,
      by decide +kernel, by decide +kernel, by decide +kernel⟩,
    ⟨{ State.reset with boot := { StartState.init with bootHash := [1] } }, 3, cardBootSize, cardBootB, cardBootSize, by decide +kernel,
      by decide +kernel, by decide +kernel, by decide +kernel⟩,
    ⟨{ State.reset.setFld Reg.CFG_CARD_CTRL 2 0 1 with card := { Card.init with job := some ⟨1, 64, 512, 300, [], 0⟩ } }, ⟨1, 64, 512, 300,
      [], 0⟩, by decide +kernel, by decide +kernel⟩,
    ⟨{ State.reset.setFld Reg.CFG_CARD_CTRL 2 0 1 with card := { Card.init with job := some ⟨1, 64, 512, 0, [], 0⟩ } }, ⟨1, 64, 512, 0, [],
      0⟩, by decide +kernel, by decide +kernel⟩,
    ⟨{ State.reset.setFld Reg.CFG_CARD_CTRL 2 0 2 with card := { Card.init with job := some ⟨1, 64, 512, 300, [], 0⟩ } }, ⟨1, 64, 512, 300,
      [], 0⟩, by decide +kernel, by decide +kernel⟩,
    ⟨{ State.reset.setFld Reg.CFG_CARD_CTRL 2 0 2 with card := { Card.init with job := some ⟨1, 64, 512, 300, List.replicate 256 7, 0⟩ } },
      ⟨1, 64, 512, 300, List.replicate 256 7, 0⟩, by decide +kernel, by decide +kernel, by decide +kernel, by decide +kernel⟩,
    ⟨{ State.reset.setFld Reg.CFG_CARD_CTRL 2 0 2 with card := { Card.init with job := some ⟨1, 64, 512, 300, List.replicate 300 7, 256⟩ }
      }, ⟨1, 64, 512, 300, List.replicate 300 7, 256⟩, by decide +kernel, by decide +kernel, by decide +kernel, by decide +kernel⟩,
    ⟨{ State.reset.setFld Reg.CFG_CARD_CTRL 2 0 2 with card := { Card.init with job := some ⟨1, 64, 512, 300, [], 0⟩ } }, ⟨1, 64, 512, 300,
      [], 0⟩, by decide +kernel⟩,
    ⟨{ State.reset.setFld Reg.CFG_CARD_CTRL 2 0 2 with card := { Card.init with job := some ⟨1, 64, 512, 300, [], 0⟩ } }, ⟨1, 64, 512, 300,
      [], 0⟩, by decide +kernel, by decide +kernel⟩,
    ⟨cardIn 3 (cardJob 1 containerBytes) containerBytes (keyHash plainKey), cardJob 1 containerBytes, rfl, rfl, Or.inl rfl, image_ok⟩,
    ⟨cardIn 3 (cardJob 2 []) [] [], cardJob 2 [], ⟨2, 0, 0⟩, rfl, by decide +kernel, by decide +kernel, rfl⟩,
    ⟨cardIn 3 (cardJob 3 bootBytes) bootBytes (keyHash plainKey), cardJob 3 bootBytes, rfl, rfl, rfl, bootCopy_ok⟩⟩

/-- States and operands that meet the premises of SelfTestsReport, clause by clause. -/
theorem test_premises_self_tests_report :
    (∃ (s : State) (v : Word), v.getLsbD 31 = true ∧ getBits v 30 28 ≠ 7 ∧ s.bist.job = none ∧ s.testAllowed (getBits v 30 28) = true ∧
      (getBits v 30 28 ≤ 3 → getBits v 23 12 ≠ 0) ∧ s.usable (getBits v 11 0) = true) ∧
    (∃ (s : State) (v : Word), v.getLsbD 31 = true ∧ getBits v 30 28 ≠ 7 ∧ s.bist.job = none ∧ s.testAllowed (getBits v 30 28) = true ∧
      (getBits v 30 28 ≤ 3 → getBits v 23 12 ≠ 0) ∧ s.usable (getBits v 11 0) = true) ∧
    (∃ (s : State) (v : Word), v.getLsbD 31 = true ∧ getBits v 30 28 ≠ 7 ∧ s.bist.job = none ∧ s.testAllowed (getBits v 30 28) = true ∧
      (getBits v 30 28 ≤ 3 → getBits v 23 12 ≠ 0) ∧ s.usable (getBits v 11 0) = true) ∧
    (∃ (v : Word), getBits v 30 28 = 7) ∧
    (∃ (s : State) (j : TestJob), s.bist.job = some j ∧ j.running = true ∧ j.test ≤ 1) ∧
    (∃ (s : State) (j : TestJob), s.bist.job = some j ∧ j.running = true ∧ j.test ≤ 3) ∧
    (∃ (s : State) (j : TestJob) (bank : Nat), s.bist.job = some j ∧ j.running = true ∧ j.test ≤ 1 ∧ bank < 12 ∧ j.mask.testBit bank = true
      ∧ s.spareRows j.ti 0 bank < 8) ∧
    (∃ (s : State) (j : TestJob) (bank : Nat), s.bist.job = some j ∧ j.running = true ∧ j.test ≤ 1 ∧ bank < 12 ∧ j.mask.testBit bank = true
      ∧ 8 ≤ s.spareRows j.ti 0 bank ∧ s.usable j.ti = true) ∧
    (∃ (s : State) (u : UnitResult), s.sliceAllowed (clusterOf u.ti) = true ∧ s.usable u.ti = true ∧ u.cls = 0 ∧ u.passed = true ∧
      s.stm.repairs = [] ∧ s.bist.retest.contains (u.ti, 8 * u.cls + u.index) = false ∧ (∃ ci, ci < 144 ∧ ci ≠ clusterOf u.ti ∧ s.passDone
      ci = false)) ∧
    (∃ (s : State) (u : UnitResult), s.sliceAllowed (clusterOf u.ti) = true ∧ s.usable u.ti = true ∧ u.cls = 0 ∧ u.passed = false ∧
      s.stm.repairs = [] ∧ s.bist.retest.contains (u.ti, 8 * u.cls + u.index) = false) ∧
    (∃ (s : State) (u : UnitResult), s.sliceAllowed (clusterOf u.ti) = true ∧ s.usable u.ti = true ∧ u.cls = 0 ∧ u.passed = false ∧
      s.stm.repairs = [] ∧ s.bist.retest.contains (u.ti, 8 * u.cls + u.index) = true) ∧
    (∃ (s : State), s.diagnosing = true ∧ s.fld Reg.BST_BURN_CTRL 2 0 ≠ burning) ∧
    (∃ (s : State), s.fld Reg.BST_BURN_CTRL 2 0 = burning) :=
  ⟨⟨diagnosing, 0xB0FFF8FF, by decide +kernel, by decide +kernel, by decide +kernel, by decide +kernel, by decide +kernel,
      by decide +kernel⟩,
    ⟨diagnosing, 0xC0000000, by decide +kernel, by decide +kernel, by decide +kernel, by decide +kernel, by decide +kernel,
      by decide +kernel⟩,
    ⟨{ State.reset with fuses := { Fuses.init with lifeCycle := 2 } }, 0x90001000, by decide +kernel, by decide +kernel, by decide +kernel,
      by decide +kernel, by decide +kernel, by decide +kernel⟩,
    ⟨0x70000000, by decide +kernel⟩,
    ⟨{ diagnosing with bist := { SelfTest.init with job := some ⟨1, 2303, 0xFFF, true⟩ } }, ⟨1, 2303, 0xFFF, true⟩, by decide +kernel,
      by decide +kernel, by decide +kernel⟩,
    ⟨{ diagnosing with bist := { SelfTest.init with job := some ⟨3, 0, 0xFFF, true⟩ } }, ⟨3, 0, 0xFFF, true⟩, by decide +kernel,
      by decide +kernel, by decide +kernel⟩,
    ⟨{ diagnosing with bist := { SelfTest.init with job := some ⟨1, 0, 0xFFF, true⟩ } }, ⟨1, 0, 0xFFF, true⟩, 11, by decide +kernel,
      by decide +kernel, by decide +kernel, by decide +kernel, by decide +kernel, by decide +kernel⟩,
    ⟨{ diagnosing with bist := { SelfTest.init with job := some ⟨1, 0, 0xFFF, true⟩ }, fuses :=
      { Fuses.init with sramRows := (List.range 8).map (fun i => (0, 11, i)) } }, ⟨1, 0, 0xFFF, true⟩, 11, by decide +kernel,
      by decide +kernel, by decide +kernel, by decide +kernel, by decide +kernel, by decide +kernel, by decide +kernel⟩,
    ⟨serving.setFld Reg.BST_THYME_CTRL 31 31 1, ⟨0, 0, 0, true, [], [], [], []⟩, by decide +kernel, by decide +kernel, by decide +kernel,
      by decide +kernel, by decide +kernel, by decide +kernel, ⟨143, by decide +kernel, by decide +kernel, by decide +kernel⟩⟩,
    ⟨serving.setFld Reg.BST_THYME_CTRL 31 31 1, ⟨0, 0, 0, false, [], [], [], []⟩, by decide +kernel, by decide +kernel, by decide +kernel,
      by decide +kernel, by decide +kernel, by decide +kernel⟩,
    ⟨{ serving.setFld Reg.BST_THYME_CTRL 31 31 1 with bist := { SelfTest.init with retest := [(0, 0)] } }, ⟨0, 0, 0, false, [], [], [], []⟩,
      by decide +kernel, by decide +kernel, by decide +kernel, by decide +kernel, by decide +kernel, by decide +kernel⟩,
    ⟨diagnosing, by decide +kernel, by decide +kernel⟩,
    ⟨diagnosing.setFld Reg.BST_BURN_CTRL 2 0 1, by decide +kernel⟩⟩

/-- States and operands that meet the premises of ManagementAnswers, clause by clause. -/
theorem test_premises_management_answers :
    (∃ (s : State) (count : Nat), s.portAnswers = true ∧ 0 < count ∧ count ≤ 64) ∧
    (∃ (s : State) (count : Nat), s.portAnswers = true ∧ 0 < count ∧ count ≤ 64) ∧
    (∃ (s : State) (ep : Nat) (i : Nat) (w : Word), s.portServes = true ∧ s.ownerSession ep (some i) = true ∧ w.toNat < 2 ^ 17) ∧
    (∃ (s : State) (ep : Nat) (session : Option Nat) (values : List Word), s.portServes = true ∧ values ≠ [] ∧ values.length ≤ 64 ∧
      s.ownerSession ep session = false) ∧
    (∃ (s : State) (key : List Nat), s.portServes = true ∧ key.length = 388) ∧
    (∃ (s : State), s.portServes = true) ∧
    (∃ (s : State) (ep : Nat) (i : Nat) (target : Nat), s.portServes = true ∧ s.ownerSession ep (some i) = true ∧ ownerMay s.lifeCycle
      target = true) ∧
    (∃ (s : State) (ep : Nat) (i : Nat) (target : Nat), s.portServes = true ∧ s.ownerSession ep (some i) = true ∧ ownerMay s.lifeCycle
      target = false) ∧
    (∃ (s : State) (ticket : List Nat) (hash : List Nat), s.portServes = true ∧ ticket ≠ [] ∧ s.ticket ticket = .ok (1, hash) ∧ (s.lifeCycle
      = 0 ∨ s.lifeCycle = 4) ∧ s.fuses.owners.length < 4) ∧
    (∃ (s : State) (cause : Nat) (ticket : List Nat), s.portServes = true ∧ ticket ≠ [] ∧ s.ticket ticket = .error cause) ∧
    (∃ (s : State) (key : List Nat), s.portAnswers = true ∧ s.identity = some key ∧ s.mgmt.sessions.length < 4) ∧
    (∃ (s : State) (key : List Nat), s.portAnswers = true ∧ s.identity = some key ∧ 4 ≤ s.mgmt.sessions.length) ∧
    (∃ (s : State) (ep : Nat) (i : Nat) (key : List Nat) (x : SpdmSession), s.portAnswers = true ∧ s.mgmt.sessions.find? (fun y => decide
      (y.id = i) && decide (y.ep = ep) && !y.isOpen) = some x ∧ SMap.get? s.mgmt.ownerKeys ep = some key ∧ s.ownerKey (some key) = true) ∧
    (∃ (s : State) (ep : Nat) (i : Nat), s.portAnswers = true ∧ s.openSession ep i = true) ∧
    (∃ (s : State) (i : Nat), s.mgmt.sessions.any (fun x => decide (x.id = i) && x.isOpen && decide (x.period ≠ 0)) = true) ∧
    (∃ (s : State) (index : Nat), s.portAnswers = true ∧ 1 ≤ index ∧ index ≤ 8) ∧
    (∃ (s : State) (index : Nat), s.portAnswers = true ∧ 1 ≤ index ∧ index ≤ 8) ∧
    (∃ (s : State) (index : Nat) (nonce : List Nat) (key : List Nat), s.portAnswers = true ∧ s.identity = some key ∧ 1 ≤ index ∧ index ≤ 8 ∧
      nonce ≠ []) ∧
    (∃ (s : State) (k : Nat) (n : Nat), s.portServes = true ∧ s.sensor k = some n) ∧
    (∃ (s : State) (k : Nat) (n : Nat), s.portServes = true ∧ s.stateSensor k = some n) ∧
    (∃ (s : State) (eid : Nat), s.portServes = true ∧ 8 ≤ eid ∧ eid < 255) ∧
    (∃ (s : State) (eid : Nat), s.portServes = true ∧ 8 ≤ eid ∧ eid < 255) ∧
    (∃ (s : State), s.pwr.auxOn = true) ∧
    (∃ (s : State), s.portAnswers = true ∧ s.mgmt.dynAddr = none) ∧
    (∃ (s : State) (h : Half), s.pwr.auxOn = true ∧ s.held h = false ∧ h ≠ s.activeHalf) ∧
    (∃ (s : State), s.pwr.auxOn = true ∧ s.held s.activeHalf = false ∧ s.fenced (otherHalf s.activeHalf) = false ∧ s.fld Reg.MGT_CTRL_STATUS
      31 31 = 1 ∧ s.mgmt.takenOver = false ∧ s.msState ≠ msStarting) ∧
    (∃ (s : State), s.pwr.auxOn = true ∧ s.held s.activeHalf = false ∧ s.fenced (otherHalf s.activeHalf) = false ∧ s.fld Reg.MGT_CTRL_STATUS
      31 31 = 0) ∧
    (∃ (s : State), s.pwr.auxOn = true ∧ s.held s.activeHalf = false ∧ s.fenced (otherHalf s.activeHalf) = true) :=
  ⟨⟨powered, 1, by decide +kernel, by decide +kernel, by decide +kernel⟩,
    ⟨powered, 64, by decide +kernel, by decide +kernel, by decide +kernel⟩,
    ⟨owned, 5, 3, 0x1FFFF, by decide +kernel, by decide +kernel, by decide +kernel⟩,
    ⟨owned, 6, some 3, List.replicate 64 1, by decide +kernel, by decide +kernel, by decide +kernel, by decide +kernel⟩,
    ⟨powered, plainKey, by decide +kernel, by decide +kernel⟩,
    ⟨powered, by decide +kernel⟩,
    ⟨owned, 5, 3, 5, by decide +kernel, by decide +kernel, by decide +kernel⟩,
    ⟨owned, 5, 3, 1, by decide +kernel, by decide +kernel, by decide +kernel⟩,
    ⟨vendored (keyHash plainKey), ticketBytes, List.replicate 32 0, by decide +kernel, List.append_ne_nil_of_left_ne_nil (by decide +kernel)
      _, ticket_ok, by decide +kernel, by decide +kernel⟩,
    ⟨powered, 0, [1], by decide +kernel, by decide +kernel, by decide +kernel⟩,
    ⟨owned, Config.identityKey [1], by decide +kernel, rfl, by decide +kernel⟩,
    ⟨{ owned with mgmt := { Mgmt.init with derived := true, sessions := List.replicate 4 ⟨3, 5, true, none, 0⟩ } }, Config.identityKey [1],
      by decide +kernel, rfl, by decide +kernel⟩,
    ⟨{ owned with mgmt := { Mgmt.init with sessions := [⟨3, 5, false, none, 0⟩], ownerKeys := [(5, plainKey)] } }, 5, 3, plainKey, ⟨3, 5,
      false, none, 0⟩, by decide +kernel, by decide +kernel, by decide +kernel, by decide +kernel⟩,
    ⟨owned, 5, 3, by decide +kernel, by decide +kernel⟩,
    ⟨{ owned with mgmt := { Mgmt.init with sessions := [⟨3, 5, true, none, 100⟩] } }, 3, by decide +kernel⟩,
    ⟨powered, 1, by decide +kernel, by decide +kernel, by decide +kernel⟩,
    ⟨powered, 8, by decide +kernel, by decide +kernel, by decide +kernel⟩,
    ⟨owned, 8, [1], Config.identityKey [1], by decide +kernel, rfl, by decide +kernel, by decide +kernel, by decide +kernel⟩,
    ⟨powered, 25, 0, by decide +kernel, by decide +kernel⟩,
    ⟨powered, 0, 3, by decide +kernel, by decide +kernel⟩,
    ⟨powered, 8, by decide +kernel, by decide +kernel, by decide +kernel⟩,
    ⟨powered, 254, by decide +kernel, by decide +kernel, by decide +kernel⟩,
    ⟨powered, by decide +kernel⟩,
    ⟨powered, by decide +kernel, by decide +kernel⟩,
    ⟨powered, .east, by decide +kernel, by decide +kernel, by decide +kernel⟩,
    ⟨serving.setFld Reg.MGT_CTRL_STATUS 31 31 1, by decide +kernel, by decide +kernel, by decide +kernel, by decide +kernel,
      by decide +kernel, by decide +kernel⟩,
    ⟨serving, by decide +kernel, by decide +kernel, by decide +kernel, by decide +kernel⟩,
    ⟨serving.setFld Reg.HLK_STATUS 29 29 1, by decide +kernel, by decide +kernel, by decide +kernel⟩⟩

/-- States and operands that meet the premises of WritesFollowAccessTypes, clause by clause. -/
theorem test_premises_writes_follow_access_types :
    (∃ (s : State) (a : Nat), (regDef? a = none ∨ (∃ ti off, tileOf a = some (ti, off) ∧ s.usable ti = false))) ∧
    (∃ (s : State) (a : Nat), (regDef? a = none ∨ (∃ ti off, tileOf a = some (ti, off) ∧ s.usable ti = false))) ∧
    (∃ (s : State) (ep : Nat) (i : Nat) (a : Nat), (regDef? a = none ∨ (∃ ti off, tileOf a = some (ti, off) ∧ s.usable ti = false)) ∧ a < 2
      ^ 32 ∧ s.portServes = true ∧ s.ownerSession ep (some i) = true) ∧
    (∃ (s : State) (ep : Nat) (i : Nat) (a : Nat), (regDef? a = none ∨ (∃ ti off, tileOf a = some (ti, off) ∧ s.usable ti = false)) ∧ a < 2
      ^ 32 ∧ s.portServes = true ∧ s.ownerSession ep (some i) = true) ∧
    (∃ (w : Word), w.toNat < 2 ^ 17) ∧
    (∃ (w : Word), 100 ≤ getBits w 11 0 ∧ getBits w 11 0 ≤ 2000) ∧
    (∃ (w : Word), 100 ≤ getBits w 11 0 ∧ getBits w 11 0 ≤ 2000) ∧
    (∃ (w : Word), (getBits w 11 0 < 100 ∨ 2000 < getBits w 11 0)) ∧
    (∃ (w : Word), (getBits w 11 0 < 100 ∨ 2000 < getBits w 11 0)) ∧
    (∃ (w : Word), 1400 < getBits w 26 16 ∧ getBits w 10 0 ≤ 1400) ∧
    (∃ (s : State) (w : Word), getBits w 15 0 ≠ s.fld Reg.ADM_ROUND_LEN 15 0) ∧
    (∃ (s : State) (w : Word), getBits w 15 0 = s.fld Reg.ADM_ROUND_LEN 15 0) :=
  ⟨⟨State.reset, 4294967295, Or.inl (by decide +kernel)⟩,
    ⟨{ State.reset with plan := { Plan.init with fused := [0] } }, tileReg 0 0, Or.inr ⟨0, 0, by decide +kernel, by decide +kernel⟩⟩,
    ⟨owned, 5, 3, 4294967295, Or.inl (by decide +kernel), by decide +kernel, by decide +kernel, by decide +kernel⟩,
    ⟨{ owned with plan := { Plan.init with fused := [0] } }, 5, 3, tileReg 0 0, Or.inr ⟨0, 0, by decide +kernel, by decide +kernel⟩,
      by decide +kernel, by decide +kernel, by decide +kernel⟩,
    ⟨0x1FFFF, by decide +kernel⟩,
    ⟨100, by decide +kernel, by decide +kernel⟩,
    ⟨2000, by decide +kernel, by decide +kernel⟩,
    ⟨99, by decide +kernel⟩,
    ⟨2001, by decide +kernel⟩,
    ⟨0x05790578, by decide +kernel, by decide +kernel⟩,
    ⟨State.reset.setFld Reg.ADM_ROUND_LEN 15 0 999, 1000, by decide +kernel⟩,
    ⟨State.reset.setFld Reg.ADM_ROUND_LEN 15 0 999, 999, by decide +kernel⟩⟩

end Sys2Proof.Tests
end

namespace Sys2Proof.Machine

/-! ## Every command and every step keeps the canonical form -/

/-- Every arm of the dispatch answers a next state that keeps the queue and the canonical form. -/
theorem exec_answers : ∀ (c : Instr) (s : State), Answers s (exec c s)
  | .matmul _, _ => execMatmul_kept
  | .conv _, _ => execConv_kept
  | .load _, _ => execLoad_kept
  | .store _, _ => execStore_kept
  | .gather _, _ => execGather_kept
  | .scatter _, _ => execScatter_kept
  | .eltwise _, _ => execEltwise_kept
  | .reduce _, _ => execReduce_kept
  | .attnScore _, _ => execAttnScore_kept
  | .attnApply _, _ => execAttnApply_kept
  | .kvAppend _, _ => execKvAppend_kept
  | .ibuOp _, _ => execIbuOp_kept
  | .send _, _ => execSend_kept
  | .recv _, _ => execRecv_kept
  | .sync _, _ => execSync_kept
  | .handover _, _ => execHandover_kept
  | .end_ _, _ => execEnd_kept
  | .bankOwnerWrite _, _ => execBankOwnerWrite_kept
  | .commandComplete _ _, _ => execCommandComplete_kept
  | .stealStarved _, _ => execStealStarved_kept
  | .nocWrite _, _ => execNocWrite_kept
  | .inboundWritePerformed _ _, _ => execInboundWritePerformed_kept
  | .memRead _, _ => execMemRead_kept
  | .memWrite _, _ => execMemWrite_kept
  | .raeReadData _, _ => execRaeReadData_kept
  | .writeAck _, _ => execWriteAck_kept
  | .nocNack _, _ => execNocNack_kept
  | .syncArrival _, _ => execSyncArrival_kept
  | .syncRelease _, _ => execSyncRelease_kept
  | .portPacket _, _ => execPortPacket_kept
  | .escapeChannelMove _, _ => execEscapeChannelMove_kept
  | .bondedRefresh _ _ _, _ => execBondedRefresh_kept
  | .refreshIntervalChange _ _ _, _ => execRefreshIntervalChange_kept
  | .ibuStepDone _ _ _, _ => execIbuStepDone_kept
  | .resetW _, _ => execResetW_kept
  | .resetE _, _ => execResetE_kept
  | .resetInN _ _, _ => execResetInN_kept
  | .computeResetRelease _, _ => execComputeResetRelease_kept
  | .backendTrained _, _ => execBackendTrained_kept
  | .cutListHandling _, _ => execCutListHandling_kept
  | .wcbLineTimeout _ _, _ => execWcbLineTimeout_kept
  | .wcbFlush, _ => execWcbFlush_kept
  | .hpprArm _, _ => execHpprArm_kept
  | .loopbackStart _, _ => execLoopbackStart_kept
  | .loopbackDone _, _ => execLoopbackDone_kept
  | .stackRefresh _ _, _ => execStackRefresh_kept
  | .stackTempRead _ _, _ => execStackTempRead_kept
  | .scrubAccess _ _ _, _ => execScrubAccess_kept
  | .pendingEntryStep _, _ => execPendingEntryStep_kept
  | .logProgram _, _ => execLogProgram_kept
  | .evtClear _, _ => execEvtClear_kept
  | .logEraseDone, _ => execLogEraseDone_kept
  | .evtWindow7Read, _ => execEvtWindow7Read_kept
  | .planFreeze, _ => execPlanFreeze_kept
  | .roundBoundary, _ => execRoundBoundary_kept
  | .batchStepCommit _, _ => execBatchStepCommit_kept
  | .paceMonitorRead _, _ => execPaceMonitorRead_kept
  | .ensembleDecision _, _ => execEnsembleDecision_kept
  | .ensembleDecisionLost _, _ => execEnsembleDecisionLost_kept
  | .ack _, _ => execAck_kept
  | .hello _, _ => execHello_kept
  | .open_ _, _ => execOpen_kept
  | .submit _, _ => execSubmit_kept
  | .clientResponseDiscard _, _ => execClientResponseDiscard_kept
  | .cancel _, _ => execCancel_kept
  | .close _, _ => execClose_kept
  | .closeComplete _, _ => execCloseComplete_kept
  | .status _, _ => execStatus_kept
  | .floorPlan _, _ => execFloorPlan_kept
  | .loadPackage _, _ => execLoadPackage_kept
  | .unloadPackage _, _ => execUnloadPackage_kept
  | .resultSend _, _ => execResultSend_kept
  | .ackTimer _, _ => execAckTimer_kept
  | .retransmissionTimeout _ _, _ => execRetransmissionTimeout_kept
  | .submitReassemblyTimeout _, _ => execSubmitReassemblyTimeout_kept
  | .detachTimeout _, _ => execDetachTimeout_kept
  | .codeword _ _, _ => execCodeword_kept
  | .linkFlit _ _, _ => execLinkFlit_kept
  | .linkFlitTimer _, _ => execLinkFlitTimer_kept
  | .codewordReplayTimeout _, _ => execCodewordReplayTimeout_kept
  | .fabSignalDetected _, _ => execFabSignalDetected_kept
  | .fabTrainingDone _ _, _ => execFabTrainingDone_kept
  | .fabLinkDown _ _, _ => execFabLinkDown_kept
  | .fabWrite _, _ => execFabWrite_kept
  | .fabWriteAck _, _ => execFabWriteAck_kept
  | .fabNack _, _ => execFabNack_kept
  | .fabSync _, _ => execFabSync_kept
  | .fabSyncRelease _, _ => execFabSyncRelease_kept
  | .misrouteWait _, _ => execMisrouteWait_kept
  | .escapeWait _, _ => execEscapeWait_kept
  | .fabricStall _ _, _ => execFabricStall_kept
  | .rootAnnounce _ _ fcn, _ => execRootAnnounce_kept (_fcn := fcn)
  | .rootAnnounceTimer, _ => execRootAnnounceTimer_kept
  | .candidateExpiry, _ => execCandidateExpiry_kept
  | .rootChanged, _ => execRootChanged_kept
  | .assign _ _ _ _, _ => execAssign_kept
  | .links _ _, _ => execLinks_kept
  | .map _ _, _ => execMap_kept
  | .mapReady _ _, _ => execMapReady_kept
  | .mapReadyTimeout, _ => execMapReadyTimeout_kept
  | .activate _, _ => execActivate_kept
  | .leave _, _ => execLeave_kept
  | .fabCtrlLeave, _ => execFabCtrlLeave_kept
  | .ensForm _ _ _ _ _ _, _ => execEnsForm_kept
  | .ensJoin _ _ _, _ => execEnsJoin_kept
  | .ensFormTimeout _, _ => execEnsFormTimeout_kept
  | .ensPlan _ _ _, _ => execEnsPlan_kept
  | .ensPlanSend _, _ => execEnsPlanSend_kept
  | .ensReport _ _ _, _ => execEnsReport_kept
  | .ensDecision _ _ _, _ => execEnsDecision_kept
  | .ensBeat _ _ _ _, _ => execEnsBeat_kept
  | .ensBeatTimer, _ => execEnsBeatTimer_kept
  | .ensBeatLoss _ _, _ => execEnsBeatLoss_kept
  | .ensEnd _ _ _, _ => execEnsEnd_kept
  | .ensCtrlForm _, _ => execEnsCtrlForm_kept
  | .ensCtrlEnd _, _ => execEnsCtrlEnd_kept
  | .fabFloorPlan src record, _ => execFabFloorPlan_kept (_src := src) (_record := record)
  | .fpQuery _ _, _ => execFpQuery_kept
  | .hlkFrame _ _ _ _, _ => execHlkFrame_kept
  | .hlkReplayTimeout _ _, _ => execHlkReplayTimeout_kept
  | .hlkModuleTrained _ _, _ => execHlkModuleTrained_kept
  | .leasePulse, _ => execLeasePulse_kept
  | .halvesSplit, _ => execHalvesSplit_kept
  | .reattestResult _, _ => execReattestResult_kept
  | .auxValid _, _ => execAuxValid_kept
  | .auxFallback _, _ => execAuxFallback_kept
  | .presenceMade, _ => execPresenceMade_kept
  | .presenceLost _, _ => execPresenceLost_kept
  | .mainLost _, _ => execMainLost_kept
  | .inputOutOfEnvelope _ _, _ => execInputOutOfEnvelope_kept
  | .mainRestart, _ => execMainRestart_kept
  | .bulkCharged _ _, _ => execBulkCharged_kept
  | .chargeTimeout _, _ => execChargeTimeout_kept
  | .powerUpStepDone _ _, _ => execPowerUpStepDone_kept
  | .seqTimeout _ _, _ => execSeqTimeout_kept
  | .switchOnRecheck _ _ _, _ => execSwitchOnRecheck_kept
  | .converterFailed _, _ => execConverterFailed_kept
  | .phaseFailed _ _, _ => execPhaseFailed_kept
  | .dieRegTied _ _, _ => execDieRegTied_kept
  | .railFault _ _, _ => execRailFault_kept
  | .domainUv _ _ _, _ => execDomainUv_kept
  | .senseFault _, _ => execSenseFault_kept
  | .mainOff, _ => execMainOff_kept
  | .mainRetry, _ => execMainRetry_kept
  | .pwrDomClr _, _ => execPwrDomClr_kept
  | .thermalModelStep _ _ _, _ => execThermalModelStep_kept
  | .spotGuardLift _, _ => execSpotGuardLift_kept
  | .capExceeded _ _, _ => execCapExceeded_kept
  | .coolantSample _ _ _, _ => execCoolantSample_kept
  | .coolantRestored, _ => execCoolantRestored_kept
  | .thermalTrip _ _, _ => execThermalTrip_kept
  | .tripHoldEnd, _ => execTripHoldEnd_kept
  | .cooldownCheck _, _ => execCooldownCheck_kept
  | .stateSave, _ => execStateSave_kept
  | .startStepDone _, _ => execStartStepDone_kept
  | .startStepTimeout _, _ => execStartStepTimeout_kept
  | .ptpMessage _ _ _, _ => execPtpMessage_kept
  | .ptpAnnounceTimeout, _ => execPtpAnnounceTimeout_kept
  | .ppsEdge _, _ => execPpsEdge_kept
  | .timeLockChange _, _ => execTimeLockChange_kept
  | .mgtTimeSet _ _, _ => execMgtTimeSet_kept
  | .removeReqN, _ => execRemoveReqN_kept
  | .mgtRemoveStart, _ => execMgtRemoveStart_kept
  | .removalDrainEnd, _ => execRemovalDrainEnd_kept
  | .alertPulseEnd, _ => execAlertPulseEnd_kept
  | .cfgCardStart _ _ _, _ => execCfgCardStart_kept
  | .cfgCardAbort, _ => execCfgCardAbort_kept
  | .cfgCardData _, _ => execCfgCardData_kept
  | .cardEraseDone, _ => execCardEraseDone_kept
  | .cardProgramDone _, _ => execCardProgramDone_kept
  | .cardCheckDone, _ => execCardCheckDone_kept
  | .cardWriteTimeout, _ => execCardWriteTimeout_kept
  | .cfgCardReadData, _ => execCfgCardReadData_kept
  | .bstTestStart _, _ => execBstTestStart_kept
  | .marchDone _ _, _ => execMarchDone_kept
  | .thymeSlice _ _, _ => execThymeSlice_kept
  | .bstBurnStart _, _ => execBstBurnStart_kept
  | .burnDone _, _ => execBurnDone_kept
  | .vdmRead _ _ _ _, _ => execVdmRead_kept
  | .vdmWrite _ _ _ _ _, _ => execVdmWrite_kept
  | .ownerKey _ _ _, _ => execOwnerKey_kept
  | .exportId _ _, _ => execExportId_kept
  | .lcRequest _ _ _ _ _, _ => execLcRequest_kept
  | .spdmRequest _ _, _ => execSpdmRequest_kept
  | .getMeasurements _ _ _ _, _ => execGetMeasurements_kept
  | .spdmHeartbeatTimeout _, _ => execSpdmHeartbeatTimeout_kept
  | .pldmRequest _ _, _ => execPldmRequest_kept
  | .mctpControl _ _, _ => execMctpControl_kept
  | .identityDerived, _ => execIdentityDerived_kept
  | .watchdogExpiry _ _, _ => execWatchdogExpiry_kept
  | .refclkCheck _ _ _, _ => execRefclkCheck_kept
  | .layXltFlush _, _ => execLayXltFlush_kept
  | .bdmCutClr _, _ => execBdmCutClr_kept
  | .tilCountClr _, _ => execTilCountClr_kept
  | .mxaCountClr _, _ => execMxaCountClr_kept
  | .layCountClr _, _ => execLayCountClr_kept
  | .atnCountClr _, _ => execAtnCountClr_kept
  | .bdmCountClr _, _ => execBdmCountClr_kept
  | .ibuCountClr _, _ => execIbuCountClr_kept
  | .intCountClr _, _ => execIntCountClr_kept
  | .stmCountClr, _ => execStmCountClr_kept
  | .admCountClr, _ => execAdmCountClr_kept
  | .sesCountClr, _ => execSesCountClr_kept
  | .netCountClr, _ => execNetCountClr_kept
  | .fabCountClr, _ => execFabCountClr_kept
  | .hlkCountClr, _ => execHlkCountClr_kept
  | .registerWrite _ _, _ => execRegisterWrite_kept
  | .auxLost, _ => execAuxLost_kept
  | .portSignalDetected _, _ => execPortSignalDetected_kept
  | .portUp _ _, _ => execPortUp_kept
  | .portDown _ _, _ => execPortDown_kept
  | .icmpEchoArpNs _ _ _, _ => execIcmpEchoArpNs_kept
  | .datagramDiscarded _, _ => execDatagramDiscarded_kept
  | .senseRestored _, _ => execSenseRestored_kept
  | .powerDownStepDone, _ => execPowerDownStepDone_kept
  | .tokenBucketRefill _ _ _, _ => execTokenBucketRefill_kept
  | .readData _, _ => execReadData_kept
  | .packageVerificationDone _, _ => execPackageVerificationDone_kept
  | .entdaaOrSetdasa _, _ => execEntdaaOrSetdasa_kept

/-- The canonical form says nothing of the queue. -/
theorem State.wf.withPending {s : State} (w : s.wf) (q : List Instr) : State.wf { s with pending := q } :=
  ⟨w.regs, w.listed, w.tiles, w.tile, w.shadow, w.stack⟩

/-- Idling changes calendar time alone. -/
theorem idle_kept {s : State} : Kept s (idle s) := Kept.upd (Kept.refl s)

/-- A command that answers a next state keeps the queue and the canonical form. -/
theorem exec_kept {c : Instr} {s t : State} (h : exec c s = .next t) : Kept s t := by
  obtain ⟨u, hu, hk⟩ := exec_answers c s
  obtain rfl : u = t := Host.Outcome.next.inj (hu.symm.trans h)
  exact hk

/-- What a step can do: idle on an empty queue, else run the front command on the rest of the queue. -/
theorem step_cases {s t : State} (h : step s = .next t) :
    (s.pending = [] ∧ t = idle s) ∨ ∃ c q, s.pending = c :: q ∧ exec c { s with pending := q } = .next t := by
  unfold step at h
  cases hp : s.pending with
  | nil =>
    simp only [hp] at h
    exact .inl ⟨rfl, (Host.Outcome.next.inj h).symm⟩
  | cons c q =>
    simp only [hp] at h
    exact .inr ⟨c, q, rfl, h⟩

/-- Settles O3: a step idles or runs one command, and each keeps the canonical form. -/
theorem stepKeepsCanonicalForm : Obligations.StepKeepsCanonicalForm := by
  intro s t w h
  obtain ⟨-, rfl⟩ | ⟨c, q, -, he⟩ := step_cases h
  · exact idle_kept.form w
  · exact (exec_kept he).form (w.withPending q)

/-- Settles O2: the answer of each arm of the dispatch. -/
theorem everyCommandAnswersANextState : Obligations.EveryCommandAnswersANextState := by
  intro c s
  obtain ⟨t, ht, hk⟩ := exec_answers c s
  exact ⟨t, ht, hk.queue⟩

/-! ## Registers hold what is written (00 R10) -/

theorem State.reg_setReg64_low (s : State) (a v : Nat) : (s.setReg64 a v).reg a = BitVec.ofNat 32 v := by
  simp [State.setReg64, State.reg_setReg]

theorem State.reg_setReg64_high (s : State) (a v : Nat) : (s.setReg64 a v).reg (a + 1) = BitVec.ofNat 32 (v / 2 ^ 32) := by
  simp [State.setReg64]

/-- The two words of a 64-bit value make the value again, cut to 64 bits. -/
theorem State.reg64_setReg64 (s : State) (a v : Nat) : (s.setReg64 a v).reg64 a = v % 2 ^ 64 := by
  unfold State.reg64
  rw [s.reg_setReg64_low, s.reg_setReg64_high, BitVec.toNat_ofNat, BitVec.toNat_ofNat]
  omega

theorem State.setReg64_regsOnly (s : State) (a v : Nat) : s.RegsOnly (s.setReg64 a v) [a, a + 1] :=
  (s.setReg_regsOnly (List.mem_cons_self ..)).trans (State.setReg_regsOnly _ (by simp))

/-- A count stops at the largest word. -/
theorem State.toNat_reg_count (s : State) (a n : Nat) :
    ((s.count a n).reg a).toNat = min ((s.reg a).toNat + n) (2 ^ 32 - 1) := by
  unfold State.count
  rw [State.reg_setReg_same, BitVec.toNat_ofNat]
  split <;> omega

/-- Settles O5: from the rules of a read after a write of a register, a field and a count. -/
theorem registersHoldWhatIsWritten : Obligations.RegistersHoldWhatIsWritten := by
  refine ⟨fun s a v => ⟨s.reg64_setReg64 a v, ?_, s.setReg64_regsOnly a v⟩, fun s a hi lo v h k => ⟨?_, ?_, ?_⟩,
    fun s a n => s.toNat_reg_count a n⟩
  · rw [s.reg_setReg64_low, BitVec.toNat_ofNat]
  · exact s.fld_setFld_same a v h k
  · exact s.setReg_regsOnly (List.mem_singleton_self a)
  · exact fun hi' lo' d => s.fld_setFld_disjoint a v h k d

/-! ## Writes of registers (00 R14, R16, 17 R508) -/

theorem SMap.getD_put_same {β : Type} (m : SMap β) (k : Nat) (v d : β) : SMap.getD (SMap.put m k v) k d = v := by
  simp [SMap.getD, SMap.get?_put]

/-- A word that the shadow copy lists is the one that the register will hold. -/
theorem State.pendingWord_of_shadow {t : State} {m : SMap Word} {a : Nat} {v : Word} (h : t.shadow = SMap.put m a v) :
    t.pendingWord a = v := by
  unfold State.pendingWord
  rw [h, SMap.getD_put_same]

theorem getBits_lt (w : Word) (hi lo : Nat) : getBits w hi lo < 2 ^ (hi + 1 - lo) := Nat.mod_lt _ (by positivity)

/-- A field written with a field of the same bits reads as that field. -/
theorem getBits_setBits_getBits (w v : Word) {hi lo : Nat} (h : lo ≤ hi) (k : hi < 32) :
    getBits (setBits w hi lo (getBits v hi lo)) hi lo = getBits v hi lo := by
  rw [getBits_setBits w _ h k, Nat.mod_eq_of_lt (getBits_lt v hi lo)]

/-- An address that takes no write: it holds no register, or lies in the page of a tile out of service (00 R16). -/
def State.Unserved (s : State) (a : Nat) : Prop := regDef? a = none ∨ ∃ ti off, tileOf a = some (ti, off) ∧ s.usable ti = false

theorem State.Unserved.readReg {s : State} {a : Nat} (h : s.Unserved a) : s.readReg a = 0 := by
  unfold State.readReg
  cases hd : regDef? a with
  | none => rfl
  | some d =>
    obtain hn | ⟨ti, off, ht, hu⟩ := h
    · exact absurd (hd.symm.trans hn) (by simp)
    · simp [ht, hu]

theorem State.Unserved.writeRegister {s : State} {a : Nat} (h : s.Unserved a) (w : Word) (owner : Bool) :
    writeRegister s a w owner = refuse s a stRefused := by
  unfold Machine.writeRegister
  cases hd : regDef? a with
  | none => rfl
  | some d =>
    obtain hn | ⟨ti, off, ht, hu⟩ := h
    · exact absurd (hd.symm.trans hn) (by simp)
    · simp [ht, hu]

@[simp] theorem refuse_logged (s : State) (a st : Nat) : (refuse s a st).mgmt.logged = s.mgmt.logged ++ [(a, st)] := rfl

@[simp] theorem refuse_out (s : State) (a st : Nat) : (refuse s a st).out = s.out ++ [.written a st] := rfl

@[simp] theorem refuse_reg (s : State) (a st b : Nat) : (refuse s a st).reg b = s.reg b := rfl

/-- A write that logged no refusal is ACCEPTED. -/
theorem writeStatus_accepted {s t : State} (h : t.mgmt = s.mgmt) : writeStatus s t = 0 := by
  simp [writeStatus, h]

/-- A write whose one refusal was logged last has its status. -/
theorem writeStatus_refuse {s t : State} (h : t.mgmt = s.mgmt) (a st : Nat) : writeStatus s (refuse t a st) = st := by
  simp [writeStatus, h]

theorem exec_registerWrite_accepted {s t : State} {a : Nat} {w : Word} (h : writeRegister s a w true = t) (k : t.mgmt = s.mgmt) :
    exec (.registerWrite a w) s = .next (t.emit (.written a 0)) := by
  show execRegisterWrite a w s = _
  simp [execRegisterWrite, h, writeStatus_accepted k]

theorem exec_registerWrite_refused {s t : State} {a : Nat} {w : Word} (h : writeRegister s a w true = refuse t a stRefused)
    (k : t.mgmt = s.mgmt) : exec (.registerWrite a w) s = .next (refuse t a stRefused) := by
  show execRegisterWrite a w s = _
  simp [execRegisterWrite, h, writeStatus_refuse k, stRefused]

/-! ### The access types of a field (00 R14) -/

section
variable {a : Nat} {w : Word} {s : State} {r : Option Why} {f : RegField}

/-- An RW field takes a value in its range at once. -/
theorem writeField_rw (hf : f.access = .rw) (h : f.min ≤ f.get w) (k : f.get w ≤ f.max) :
    writeField a w (s, r) f = (s.setFld a f.hi f.lo (f.get w), r) := by
  simp [writeField, hf, h, k]

/-- An RL field outside the cross-field rules puts a value in its range into the shadow copy. -/
theorem writeField_rl (hf : f.access = .rl) (h : f.min ≤ f.get w) (k : f.get w ≤ f.max) (c : ∀ t : State, t.crossBroken a f.lo = false) :
    writeField a w (s, r) f = ({ s with shadow := SMap.put s.shadow a (setBits (s.pendingWord a) f.hi f.lo (f.get w)) }, r) := by
  simp [writeField, hf, h, k, c]

/-- A value out of the range of an RL field is refused, and the state stays. -/
theorem writeField_rl_range (hf : f.access = .rl) (h : f.get w < f.min ∨ f.max < f.get w) :
    writeField a w (s, r) f = (s, some (r.getD .range)) := by
  have : ¬ (f.min ≤ f.get w ∧ f.get w ≤ f.max) := by omega
  simp [writeField, hf, this]

theorem writeField_rs_held (hf : f.access = .rs) (h : f.get w = f.get (s.reg a)) : writeField a w (s, r) f = (s, r) := by
  simp [writeField, hf, h]

/-- A change of an RS field is refused, and the state stays. -/
theorem writeField_rs_changed (hf : f.access = .rs) (h : f.get w ≠ f.get (s.reg a)) :
    writeField a w (s, r) f = (s, some (r.getD .startOnly)) := by
  simp [writeField, hf, h]

end

/-- The refusal of a configuration field: event 0x0207 with the address, the word and the reason, and the answer REFUSED. -/
def State.refuseField (s : State) (a : Nat) (w : Word) (reason : Nat) : State :=
  refuse (recordEvent s 0x0207 0 (a % 2 ^ 24) w.toNat reason) a stRefused

section
variable {s t : State} {a : Nat} {w : Word} {d : RegDef}

theorem plainWrite_accepted (hd : regDef? a = some d) (h : d.fields.foldl (writeField a w) (s, none) = (t, none)) :
    plainWrite s a w = t := by
  simp [plainWrite, hd, h]

theorem plainWrite_range (hd : regDef? a = some d) (h : d.fields.foldl (writeField a w) (s, none) = (t, some .range)) :
    plainWrite s a w = t.refuseField a w 1 := by
  simp [plainWrite, hd, h, State.refuseField]

theorem plainWrite_startOnly (hd : regDef? a = some d) (h : d.fields.foldl (writeField a w) (s, none) = (t, some .startOnly)) :
    plainWrite s a w = t.refuseField a w 0 := by
  simp [plainWrite, hd, h, State.refuseField]

/-- What a write refused for a field leaves: the event and its registers, and the answer, beside what its other fields took. -/
theorem exec_registerWrite_refuseField {k : Nat} (h : writeRegister s a w true = t.refuseField a w k) (hm : t.mgmt = s.mgmt) :
    exec (.registerWrite a w) s = .next (t.refuseField a w k) :=
  exec_registerWrite_refused h (by simp [hm])

end

@[simp] theorem State.refuseField_shadow (s : State) (a : Nat) (w : Word) (k : Nat) : (s.refuseField a w k).shadow = s.shadow := by
  simp [State.refuseField]

@[simp] theorem State.refuseField_out (s : State) (a : Nat) (w : Word) (k : Nat) :
    (s.refuseField a w k).out = s.out ++ [.written a stRefused] := by
  simp [State.refuseField]

theorem State.refuseField_reg (s : State) (a : Nat) (w : Word) (k : Nat) {b : Nat} (h : b ∉ eventRegs) :
    (s.refuseField a w k).reg b = s.reg b := by
  simp [State.refuseField, recordEvent_reg _ _ _ _ _ _ h]

theorem State.refuseField_records (s : State) (a : Nat) (w : Word) (k : Nat) :
    s.Records (s.refuseField a w k) (s.record 0x0207 0 (a % 2 ^ 24) w.toNat k) :=
  recordEvent_records s _ _ _ _ _

/-! ### Four registers that stand for the access types -/

theorem regDef_EVT_CURSOR : regDef? Reg.EVT_CURSOR = some ⟨"EVT_CURSOR", 0x30003, 1, 1, 1, [⟨16, 0, .rw, 0, 0, 131071⟩]⟩ := by
  decide +kernel

theorem regDef_THM_SLEW : regDef? Reg.THM_SLEW = some ⟨"THM_SLEW", 0x50002, 1, 1, 1, [⟨11, 0, .rl, 400, 100, 2000⟩]⟩ := by
  decide +kernel

theorem regDef_THM_STACK_CAP :
    regDef? Reg.THM_STACK_CAP = some ⟨"THM_STACK_CAP", 0x50001, 1, 1, 1, [⟨26, 16, .rl, 1400, 0, 1400⟩, ⟨10, 0, .rl, 1400, 0, 1400⟩]⟩ := by
  decide +kernel

theorem regDef_ADM_ROUND_LEN :
    regDef? Reg.ADM_ROUND_LEN = some ⟨"ADM_ROUND_LEN", 0x60001, 1, 1, 1, [⟨15, 0, .rs, 2000, 0, 65535⟩]⟩ := by
  decide +kernel

/-- A register outside the tile pages whose write does not act is written under the access types of its fields. -/
theorem writeRegister_plain {s : State} {a : Nat} {w : Word} {owner : Bool} {d : RegDef} (hd : regDef? a = some d) (ht : tileOf a = none)
    (hm : moduleWrite s a w owner = plainWrite s a w) : writeRegister s a w owner = plainWrite s a w := by
  simp [writeRegister, hd, ht, hm]

theorem writeRegister_EVT_CURSOR (s : State) (w : Word) (owner : Bool) :
    writeRegister s Reg.EVT_CURSOR w owner = plainWrite s Reg.EVT_CURSOR w :=
  writeRegister_plain regDef_EVT_CURSOR rfl rfl

theorem writeRegister_THM_SLEW (s : State) (w : Word) (owner : Bool) :
    writeRegister s Reg.THM_SLEW w owner = plainWrite s Reg.THM_SLEW w :=
  writeRegister_plain regDef_THM_SLEW rfl rfl

theorem writeRegister_THM_STACK_CAP (s : State) (w : Word) (owner : Bool) :
    writeRegister s Reg.THM_STACK_CAP w owner = plainWrite s Reg.THM_STACK_CAP w :=
  writeRegister_plain regDef_THM_STACK_CAP rfl rfl

theorem writeRegister_ADM_ROUND_LEN (s : State) (w : Word) (owner : Bool) :
    writeRegister s Reg.ADM_ROUND_LEN w owner = plainWrite s Reg.ADM_ROUND_LEN w :=
  writeRegister_plain regDef_ADM_ROUND_LEN rfl rfl

/-! ### What each write answers -/

/-- A write of a word that no register takes is answered REFUSED and logged, and changes nothing else. -/
theorem exec_registerWrite_unserved {s : State} {a : Nat} (h : s.Unserved a) (w : Word) :
    exec (.registerWrite a w) s = .next (refuse s a stRefused) :=
  exec_registerWrite_refused (h.writeRegister w true) rfl

/-- A management WRITE of one word that no register takes is answered REFUSED with DONE 0 (19 R536). -/
theorem exec_vdmWrite_unserved {s : State} {a ep i : Nat} (h : s.Unserved a) (tag : Nat) (w : Word) (ha : a < 2 ^ 32)
    (hp : s.portServes = true) (ho : s.ownerSession ep (some i) = true) :
    exec (.vdmWrite ep (some i) tag a [w]) s = .next (respond (refuse s a stRefused) ep 2 tag stRefused [0, 0]) := by
  have hall : writeAll true s a [w] = (refuse s a stRefused, 0, stRefused) := by
    simp only [writeAll, Nat.mod_eq_of_lt ha, h.writeRegister, writeStatus_refuse (t := s) rfl]
    rfl
  show execVdmWrite ep (some i) tag a [w] s = _
  simp [execVdmWrite, hp, ho, hall, leBytes, List.range_succ]

/-- EVT_CURSOR is RW: a cursor that fits is held at once. -/
theorem exec_registerWrite_EVT_CURSOR (s : State) (w : Word) (h : w.toNat < 2 ^ 17) :
    exec (.registerWrite Reg.EVT_CURSOR w) s =
      .next ((s.setFld Reg.EVT_CURSOR 16 0 w.toNat).emit (.written Reg.EVT_CURSOR 0)) := by
  have hv : getBits w 16 0 = w.toNat := Nat.mod_eq_of_lt h
  refine exec_registerWrite_accepted ?_ rfl
  rw [writeRegister_EVT_CURSOR]
  rw [← hv] at h ⊢
  refine plainWrite_accepted regDef_EVT_CURSOR ?_
  rw [List.foldl_cons, List.foldl_nil]
  exact writeField_rw rfl (Nat.zero_le _) (Nat.le_of_lt_succ h)

/-- THM_SLEW is RL: a slew in its range waits in the shadow copy. -/
theorem exec_registerWrite_THM_SLEW (s : State) (w : Word) (h : 100 ≤ getBits w 11 0) (k : getBits w 11 0 ≤ 2000) :
    exec (.registerWrite Reg.THM_SLEW w) s =
      .next (State.emit { s with shadow := SMap.put s.shadow Reg.THM_SLEW (setBits (s.pendingWord Reg.THM_SLEW) 11 0 (getBits w 11 0)) }
        (.written Reg.THM_SLEW 0)) := by
  refine exec_registerWrite_accepted ?_ rfl
  rw [writeRegister_THM_SLEW]
  refine plainWrite_accepted regDef_THM_SLEW ?_
  rw [List.foldl_cons, List.foldl_nil]
  exact writeField_rl rfl h k fun _ => rfl

theorem exec_registerWrite_THM_SLEW_range (s : State) (w : Word) (h : getBits w 11 0 < 100 ∨ 2000 < getBits w 11 0) :
    exec (.registerWrite Reg.THM_SLEW w) s = .next (s.refuseField Reg.THM_SLEW w 1) := by
  refine exec_registerWrite_refuseField ?_ rfl
  rw [writeRegister_THM_SLEW]
  refine plainWrite_range regDef_THM_SLEW ?_
  rw [List.foldl_cons, List.foldl_nil]
  exact writeField_rl_range rfl h

/-- Field by field: THM_STACK_CAP refuses the eastern cap out of range and takes the western one into the shadow copy. -/
theorem exec_registerWrite_THM_STACK_CAP_range (s : State) (w : Word) (h : 1400 < getBits w 26 16) (k : getBits w 10 0 ≤ 1400) :
    exec (.registerWrite Reg.THM_STACK_CAP w) s =
      .next (State.refuseField
        { s with shadow := SMap.put s.shadow Reg.THM_STACK_CAP (setBits (s.pendingWord Reg.THM_STACK_CAP) 10 0 (getBits w 10 0)) }
        Reg.THM_STACK_CAP w 1) := by
  refine exec_registerWrite_refuseField ?_ rfl
  rw [writeRegister_THM_STACK_CAP]
  have hEast : writeField Reg.THM_STACK_CAP w (s, none) ⟨26, 16, .rl, 1400, 0, 1400⟩ = (s, some .range) :=
    writeField_rl_range rfl (.inr h)
  refine plainWrite_range regDef_THM_STACK_CAP ?_
  rw [List.foldl_cons, hEast, List.foldl_cons, List.foldl_nil]
  exact writeField_rl rfl (Nat.zero_le _) k fun _ => rfl

/-- ADM_ROUND_LEN is RS: a write of another length is refused with reason 0. -/
theorem exec_registerWrite_ADM_ROUND_LEN_changed (s : State) (w : Word) (h : getBits w 15 0 ≠ s.fld Reg.ADM_ROUND_LEN 15 0) :
    exec (.registerWrite Reg.ADM_ROUND_LEN w) s = .next (s.refuseField Reg.ADM_ROUND_LEN w 0) := by
  refine exec_registerWrite_refuseField ?_ rfl
  rw [writeRegister_ADM_ROUND_LEN]
  refine plainWrite_startOnly regDef_ADM_ROUND_LEN ?_
  rw [List.foldl_cons, List.foldl_nil]
  exact writeField_rs_changed rfl h

/-- The length that ADM_ROUND_LEN holds is accepted, and nothing changes. -/
theorem exec_registerWrite_ADM_ROUND_LEN_held (s : State) (w : Word) (h : getBits w 15 0 = s.fld Reg.ADM_ROUND_LEN 15 0) :
    exec (.registerWrite Reg.ADM_ROUND_LEN w) s = .next (s.emit (.written Reg.ADM_ROUND_LEN 0)) := by
  refine exec_registerWrite_accepted ?_ rfl
  rw [writeRegister_ADM_ROUND_LEN]
  refine plainWrite_accepted regDef_ADM_ROUND_LEN ?_
  rw [List.foldl_cons, List.foldl_nil]
  exact writeField_rs_held rfl h

/-- Settles O60: the seven kinds of write, each from the state that its exec lemma names. -/
theorem writesFollowAccessTypes : Obligations.WritesFollowAccessTypes := by
  refine ⟨?unserved, ?vdm, ?rw, ?rl, ?rlRange, ?fieldByField, fun s w => ⟨?rsChanged, ?rsHeld⟩⟩
  case unserved =>
    intro s a w h
    have hu : s.Unserved a := h
    exact ⟨hu.readReg, _, exec_registerWrite_unserved hu w, rfl, rfl, rfl, rfl, rfl⟩
  case vdm =>
    intro s ep i tag a w h ha hp ho
    exact ⟨_, exec_vdmWrite_unserved h tag w ha hp ho, rfl, rfl, List.append_assoc ..⟩
  case rw =>
    intro s w h
    refine ⟨_, exec_registerWrite_EVT_CURSOR s w h, ?_, ?_, rfl⟩
    · rw [State.fld_emit, s.fld_setFld_same _ _ (by decide) (by decide), Nat.mod_eq_of_lt h]
    · exact (s.setReg_regsOnly (List.mem_singleton_self _)).1
  case rl =>
    intro s w h k
    refine ⟨_, exec_registerWrite_THM_SLEW s w h k, rfl, ?_, rfl⟩
    rw [State.emit_shadow, SMap.getD_put_same, getBits_setBits_getBits _ _ (by decide) (by decide)]
  case rlRange =>
    intro s w h
    exact ⟨_, exec_registerWrite_THM_SLEW_range s w h, by simp, fun _ => s.refuseField_reg _ _ _, s.refuseField_records _ _ _, by simp⟩
  case fieldByField =>
    intro s w h k
    refine ⟨_, exec_registerWrite_THM_STACK_CAP_range s w h k, fun _ hb => State.refuseField_reg _ _ _ _ hb, ?_, ?_,
      fun room => State.refuseField_records _ _ _ _ room, by simp⟩
    · rw [State.pendingWord_of_shadow (State.refuseField_shadow ..), getBits_setBits_of_disjoint _ _ (by decide) (by decide) (.inr (by decide))]
    · rw [State.pendingWord_of_shadow (State.refuseField_shadow ..), getBits_setBits_getBits _ _ (by decide) (by decide)]
  case rsChanged =>
    intro h
    exact ⟨_, exec_registerWrite_ADM_ROUND_LEN_changed s w h, fun _ => s.refuseField_reg _ _ _, by simp, s.refuseField_records _ _ _, by simp⟩
  case rsHeld => exact exec_registerWrite_ADM_ROUND_LEN_held s w

end Sys2Proof.Machine

namespace Sys2Proof.Machine

/-! ## Counts of a tile clear (02 R82) -/

theorem State.resetRegs_regsOnly (s : State) (l : List Nat) : s.RegsOnly (s.resetRegs l) l :=
  ⟨fun a ha => by rw [s.reg_resetRegs, if_neg ha], rfl⟩

/-- On a usable tile a write that acts does its work. -/
theorem onTile_usable {s : State} {ti : Nat} (h : s.usable ti = true) (off : Nat) (f : State → State) : onTile s ti off f = f s :=
  if_pos h

/-- Settles O32: each register of the list puts its own counts back, and the two others empty their list. -/
theorem tileCountersClear : Obligations.TileCountersClear := by
  intro s ti hu
  have clears (c : Instr) (off : Nat) (l : List Nat) (h : exec c s = .next (onTile s ti off fun s => s.resetRegs l)) :
      ∃ t, exec c s = .next t ∧ s.RegsOnly t l ∧ ∀ a ∈ l, t.reg a = resetOf a :=
    ⟨_, h.trans (congrArg _ (onTile_usable hu off _)), s.resetRegs_regsOnly l, fun a ha => by rw [s.reg_resetRegs, if_pos ha]⟩
  have flushes : exec (.layXltFlush ti) s = .next (flushXlt s ti) := congrArg Host.Outcome.next (onTile_usable hu _ _)
  have cuts : exec (.bdmCutClr ti) s = .next (clearCut s ti) := congrArg Host.Outcome.next (onTile_usable hu _ _)
  refine ⟨fun c l hc => ?_, ⟨_, flushes, by simp [flushXlt], rfl⟩, _, cuts, by simp [clearCut], rfl⟩
  simp only [List.mem_cons, Prod.mk.injEq, List.not_mem_nil, or_false] at hc
  obtain ⟨rfl, rfl⟩ | ⟨rfl, rfl⟩ | ⟨rfl, rfl⟩ | ⟨rfl, rfl⟩ | ⟨rfl, rfl⟩ | ⟨rfl, rfl⟩ | ⟨rfl, rfl⟩ := hc
  all_goals exact clears _ _ _ rfl

end Sys2Proof.Machine

namespace Sys2Proof.Machine

/-! ## Effects that stay aside of the sequencer

Reading memory, translating and a unit's own effects count, record and cache. None of it touches what the sequencer runs on: the queue,
the position and the counts of a tile, the registers 0x000 to 0x1FF of its page, and the number of the round. -/

/-- A register of the sequencer in a tile page, or the number of the round. -/
def SeqReg (a : Nat) : Prop :=
  a = Reg.ADM_ROUND_LO ∨ a = Reg.ADM_ROUND_HI ∨ (tilePages ≤ a ∧ (a - tilePages) % 0x1000 < 0x200)

theorem seqReg_tileReg (ti : Nat) {off : Nat} (h : off < 0x200) : SeqReg (tileReg ti off) := by
  unfold SeqReg tileReg
  omega

theorem not_seqReg_tileReg (ti : Nat) {off : Nat} (h : 0x200 ≤ off ∧ off < 0x1000) : ¬ SeqReg (tileReg ti off) := by
  unfold SeqReg tileReg Reg.ADM_ROUND_LO Reg.ADM_ROUND_HI tilePages
  omega

/-- The registers outside the tile pages, but for the number of the round. -/
theorem not_seqReg_module {a : Nat} (h : 0x60005 < a ∧ a < tilePages ∨ a < 0x60004) : ¬ SeqReg a := by
  unfold SeqReg Reg.ADM_ROUND_LO Reg.ADM_ROUND_HI
  unfold tilePages at *
  omega

theorem SeqReg.not_event {a : Nat} (h : SeqReg a) : a ∉ eventRegs := by
  have hne (b : Nat) (hb : 0x60005 < b ∧ b < tilePages ∨ b < 0x60004) : a ≠ b := fun e => not_seqReg_module hb (e ▸ h)
  simp only [eventRegs, List.mem_cons, List.not_mem_nil, or_false, not_or]
  exact ⟨hne _ (by decide), hne _ (by decide), hne _ (by decide)⟩

/-- What the sequencer keeps of a tile. -/
def Tile.seqView (t : Tile) : Tile :=
  { Tile.init with queue := t.queue, segs := t.segs, pc := t.pc, serial := t.serial, ordinal := t.ordinal }

/-- Between two states nothing changed but what lies aside of the sequencer. -/
structure State.Aside (s t : State) : Prop where
  regs : ∀ a, SeqReg a → t.reg a = s.reg a
  tiles : ∀ ti, (t.tile ti).seqView = (s.tile ti).seqView

namespace State.Aside
variable {s t u : State} {ti : Nat}

theorem refl (s : State) : s.Aside s := ⟨fun _ _ => rfl, fun _ => rfl⟩

theorem trans (h : s.Aside t) (k : t.Aside u) : s.Aside u :=
  ⟨fun a ha => (k.regs a ha).trans (h.regs a ha), fun ti => (k.tiles ti).trans (h.tiles ti)⟩

theorem queue (h : s.Aside t) (ti : Nat) : (t.tile ti).queue = (s.tile ti).queue := (congrArg Tile.queue (h.tiles ti) :)
theorem segs (h : s.Aside t) (ti : Nat) : (t.tile ti).segs = (s.tile ti).segs := (congrArg Tile.segs (h.tiles ti) :)
theorem pc (h : s.Aside t) (ti : Nat) : (t.tile ti).pc = (s.tile ti).pc := (congrArg Tile.pc (h.tiles ti) :)
theorem serial (h : s.Aside t) (ti : Nat) : (t.tile ti).serial = (s.tile ti).serial := (congrArg Tile.serial (h.tiles ti) :)
theorem ordinal (h : s.Aside t) (ti : Nat) : (t.tile ti).ordinal = (s.tile ti).ordinal := (congrArg Tile.ordinal (h.tiles ti) :)

theorem fld (h : s.Aside t) (ti : Nat) {off : Nat} (k : off < 0x200) (hi lo : Nat) :
    t.fld (tileReg ti off) hi lo = s.fld (tileReg ti off) hi lo := by
  unfold State.fld
  rw [h.regs _ (seqReg_tileReg ti k)]

theorem tokens (h : s.Aside t) (ti : Nat) : t.tokens ti = s.tokens ti := h.fld ti (by decide) 15 0

theorem round (h : s.Aside t) : t.round = s.round := by
  unfold State.round State.reg64
  rw [h.regs _ (.inl rfl), h.regs (Reg.ADM_ROUND_LO + 1) (.inr (.inl rfl))]

/-! ### The updates that stay aside -/

theorem upd (h : s.Aside t) (hr : u.regs = t.regs := by rfl) (ht : u.tiles = t.tiles := by rfl) : s.Aside u :=
  h.trans ⟨fun a _ => by unfold State.reg; rw [hr], fun ti => by unfold State.tile; rw [ht]⟩

theorem setReg (h : s.Aside t) {a : Nat} {v : Word} (k : ¬ SeqReg a) : s.Aside (t.setReg a v) :=
  h.trans ⟨fun _ hb => t.reg_setReg_ne v (fun e => k (e ▸ hb)), fun _ => rfl⟩

theorem setFld (h : s.Aside t) {a hi lo v : Nat} (k : ¬ SeqReg a) : s.Aside (t.setFld a hi lo v) := h.setReg k

theorem count (h : s.Aside t) {a n : Nat} (k : ¬ SeqReg a) : s.Aside (t.count a n) := h.setReg k

theorem setReg64 (h : s.Aside t) {a v : Nat} (k : ¬ SeqReg a) (l : ¬ SeqReg (a + 1)) : s.Aside (t.setReg64 a v) := (h.setReg k).setReg l

/-- Registers 0x200 and up of a tile page. -/
theorem setTileReg (h : s.Aside t) {off : Nat} {v : Word} (k : 0x200 ≤ off ∧ off < 0x1000 := by decide) :
    s.Aside (t.setReg (tileReg ti off) v) := h.setReg (not_seqReg_tileReg ti k)

theorem setTileFld (h : s.Aside t) {off hi lo v : Nat} (k : 0x200 ≤ off ∧ off < 0x1000 := by decide) :
    s.Aside (t.setFld (tileReg ti off) hi lo v) := h.setTileReg k

theorem countTile (h : s.Aside t) {off n : Nat} (k : 0x200 ≤ off ∧ off < 0x1000 := by decide) :
    s.Aside (t.count (tileReg ti off) n) := h.setTileReg k

theorem setTileReg64 (h : s.Aside t) {off v : Nat} (k : 0x200 ≤ off ∧ off < 0xFFF := by decide) :
    s.Aside (t.setReg64 (tileReg ti off) v) :=
  (h.setTileReg ⟨k.1, by omega⟩).setTileReg (off := off + 1) ⟨by omega, by omega⟩

theorem setTile (h : s.Aside t) {x : Tile} (k : x.seqView = (t.tile ti).seqView) : s.Aside (t.setTile ti x) := by
  refine h.trans ⟨fun _ _ => rfl, fun j => ?_⟩
  rw [State.tile_setTile]
  split
  · rename_i hj
    rw [k, hj]
  · rfl

theorem modTile (h : s.Aside t) {f : Tile → Tile} (k : ∀ x, (f x).seqView = x.seqView := by exact fun _ => rfl) : s.Aside (t.modTile ti f) :=
  h.setTile (k _)

theorem foldl {α : Type} {g : State → α → State} {l : List α} (h : s.Aside t) (k : ∀ (x : State) (a : α), a ∈ l → x.Aside (g x a)) : s.Aside (l.foldl g t) := by
  induction l generalizing t with
  | nil => exact h
  | cons a l ih => exact ih (h.trans (k t a List.mem_cons_self)) (fun x b hb => k x b (List.mem_cons_of_mem _ hb))

theorem ite {c : Prop} [Decidable c] (h : s.Aside t) (k : s.Aside u) : s.Aside (if c then t else u) := by
  split
  · exact h
  · exact k

theorem recordEvent (h : s.Aside t) (code source p0 p1 p2 : Nat) : s.Aside (recordEvent t code source p0 p1 p2) :=
  h.trans ⟨fun _ ha => recordEvent_reg _ _ _ _ _ _ ha.not_event, fun ti => by unfold State.tile; rw [recordEvent_tiles]⟩

end State.Aside

/-! ### Reads of memory -/

theorem poisonMet_aside (s : State) (ti consumer addr round : Nat) : s.Aside (poisonMet s ti consumer addr round) := by
  have h : s.Aside ((s.count (tileReg ti Reg.INT_POISON_READ) 1).setFld (tileReg ti Reg.INT_STATUS) 29 29 1) :=
    (State.Aside.refl s).countTile.setTileFld
  exact h.ite (h.modTile.recordEvent ..)

theorem noteSramRead_aside (s : State) (ti w : Nat) : s.Aside (noteSramRead s ti w) := by
  have h := State.Aside.refl s
  unfold noteSramRead
  extract_lets t s1 bank row b s2 s3 s4
  have h1 : s.Aside s1 := h.countTile
  have h2 : s.Aside s2 := h1.setTile (h1.tiles ti).symm
  split
  · exact .ite (h2.recordEvent ..) h2
  · exact (h.countTile.setTileFld.recordEvent ..).ite h.countTile
  · exact (h.countTile.setTileFld.recordEvent ..).ite h.countTile
  · exact h

theorem noteSramReads_aside (s : State) (ti : Nat) (ws : List Nat) : s.Aside (noteSramReads s ti ws) :=
  (State.Aside.refl s).foldl fun x w _ => noteSramRead_aside x ti w

/-- slice_map names one of eight layers, one of eight pairs and an offset within the pair (07 R202). -/
theorem sliceMap_bounds (o stripe : Nat) : (sliceMap o stripe).1 < 8 ∧ (sliceMap o stripe).2.1 < 8 ∧ (sliceMap o stripe).2.2 < 2 ^ 21 := by
  unfold sliceMap
  simp only [Nat.shiftLeft_eq, Nat.shiftRight_eq_div_pow]
  split
  · dsimp only
    omega
  · dsimp only
    omega

/-- A granule of a slice lies in one of the eight layers. -/
theorem granuleLayer_sliceGranule (o stripe : Nat) : granuleLayer (sliceGranule o stripe) < 8 := by
  obtain ⟨hl, hp, ho⟩ := sliceMap_bounds o stripe
  unfold sliceGranule granuleLayer pairGranule bankRowCol granuleNo
  generalize sliceMap o stripe = m at *
  simp only [Nat.shiftLeft_eq, Nat.shiftRight_eq_div_pow]
  omega

theorem countBond_aside (s : State) {layer : Nat} (hl : layer < 8) (slice bond n : Nat) : s.Aside (countBond s slice layer bond n) := by
  unfold countBond
  extract_lets t k l sum s1 a
  have h1 : s.Aside s1 := (State.Aside.refl s).setTile rfl
  have hb : 0x200 ≤ Reg.BDM_BOND + layer ∧ Reg.BDM_BOND + layer < 0x1000 := by
    unfold Reg.BDM_BOND
    omega
  exact h1.ite ((h1.modTile.setTileFld hb).ite (h1.modTile.recordEvent ..))

theorem noteBondedRead_aside (s : State) (ti : Nat) (tier : Tier) (addr : Nat) : s.Aside (noteBondedRead s ti tier addr) := by
  have h := State.Aside.refl s
  unfold noteBondedRead
  extract_lets sl k c syn s1 s2 row b s3 s4 s5
  have h1 : s.Aside s1 := h.countTile
  have h2 : s.Aside s2 := h1.foldl fun x b _ => countBond_aside x (granuleLayer_sliceGranule _ _) _ b 1
  have h3 : s.Aside s3 := h2.modTile
  split
  · exact .ite h3.modTile h3
  · exact .ite h3.modTile h3
  · exact h.countTile.setTileFld.recordEvent ..
  · exact h.countTile.setTileFld.recordEvent ..
  · exact h

/-- stack_map names one of sixteen stacks (08 R238). -/
theorem stackMap_stack_lt (a : Nat) : (stackMap a).stack < 16 := by
  unfold stackMap
  dsimp only
  omega

theorem noteStackRead_aside (s : State) (ti addr : Nat) : s.Aside (noteStackRead s ti addr) := by
  have h := State.Aside.refl s
  have hs := stackMap_stack_lt addr
  have hc (b : Nat) (hb : 0x60005 < b ∧ b + 16 < tilePages) : s.Aside (s.count (b + (stackMap addr).stack) 1) :=
    h.count (not_seqReg_module (.inl (by omega)))
  unfold noteStackRead
  extract_lets m s1 row b q s2 s3 q' s4
  have h1 : s.Aside s1 := hc _ (by decide)
  have h2 : s.Aside s2 := h1.upd
  have hce : s.Aside (if b.2 = 16 then s2.scheduleRepair m else s2) := (State.Aside.upd h2).ite h2
  split
  · exact hce
  · exact hce
  · exact (hc _ (by decide)).recordEvent ..
  · exact (State.Aside.upd h).countTile.recordEvent ..
  · exact h

theorem noteRead_aside (s : State) (ti : Nat) (tier : Tier) (addr : Nat) : s.Aside (noteRead s ti tier addr) := by
  unfold noteRead
  split
  · exact noteStackRead_aside s ti addr
  · exact noteBondedRead_aside s ti _ addr

theorem cachePage_aside (s : State) (ti space page : Nat) : s.Aside (cachePage s ti space page) := by
  have h := State.Aside.refl s
  unfold cachePage
  extract_lets t
  refine h.ite ?_
  split
  · exact h
  · rename_i bits poison _
    extract_lets l s1 s2
    have h1 : s.Aside s1 := h.setTile rfl
    have h2 : s.Aside s2 := by
      unfold s2
      split
      · exact h1.trans (noteRead_aside _ _ _ _)
      · exact h1
    exact (h2.trans (poisonMet_aside _ _ _ _ _)).ite h2

theorem noteViews_aside (s : State) (ti space : Nat) (ds : List Desc) : s.Aside (noteViews s ti space ds) :=
  (noteSramReads_aside s ti _).foldl fun x a _ => noteRead_aside x ti a.1 a.2

theorem cacheViews_aside (s : State) (ti space : Nat) (ds : List Desc) : s.Aside (cacheViews s ti space ds) :=
  (State.Aside.refl s).foldl fun x p _ => cachePage_aside x ti space p

/-! ### Writes to memory -/

theorem writeBonded_aside (s : State) (ti : Nat) (x : MemWrite) : s.Aside (writeBonded s ti x) := by
  have h := State.Aside.refl s
  have hr : s.Aside ((noteBondedRead s ti x.tier x.addr).count (tileReg ti Reg.BDM_RMW_COUNT) 1) :=
    (noteBondedRead_aside s ti x.tier x.addr).countTile
  exact .ite (.modTile h) (.ite (.modTile h) (.ite (.recordEvent (.modTile hr) ..) (.modTile hr)))

theorem writeStackGran_aside (s : State) (ti addr : Nat) (data mask : BitVec 256) (poison : Bool) :
    s.Aside (writeStackGran s ti addr data mask poison) := by
  have h := State.Aside.refl s
  have hr : s.Aside ((noteStackRead s ti addr).count Reg.STM_WCB_RMW 1) :=
    (noteStackRead_aside s ti addr).count (not_seqReg_module (by decide))
  exact .ite (.upd h) (.ite (.upd h) (.ite (.recordEvent (.upd hr) ..) (.upd hr)))

theorem Tile.writeWord_seqView (t : Tile) (ti : Nat) (x : SramWrite) : (t.writeWord ti x).seqView = t.seqView := by
  unfold Tile.writeWord
  dsimp only
  split_ifs <;> rfl

theorem Tile.writeWords_seqView (t : Tile) (ti : Nat) (ws : List SramWrite) : (t.writeWords ti ws).seqView = t.seqView := by
  have h : (ws.foldl (fun t x => t.writeWord ti x) t).seqView = t.seqView := by
    induction ws generalizing t with
    | nil => rfl
    | cons x ws ih => exact (ih _).trans (t.writeWord_seqView ti x)
  exact h

theorem writeSram_aside (s : State) (ti : Nat) (ws : List SramWrite) : s.Aside (writeSram s ti ws) :=
  (State.Aside.refl s).ite ((State.Aside.refl s).modTile fun x => x.writeWords_seqView ti ws)

theorem view_aside (s : State) (ti : Nat) (u : UnitId) : s.Aside (s.view ti u) := by
  refine (State.Aside.refl s).foldl fun x e _ => (writeSram_aside x ti e.swrites).foldl fun y w _ => ?_
  split
  · exact writeStackGran_aside y ti _ _ _ _
  · exact writeBonded_aside y ti w

/-! ### What a command notes at issue -/

theorem countOob_aside (s : State) (ti vaddr rd wr : Nat) : s.Aside (countOob s ti vaddr rd wr) := by
  have h : s.Aside (s.count (tileReg ti Reg.LAY_OOB_READS) rd) := (State.Aside.refl s).countTile
  have hw : s.Aside ((State.count _ (tileReg ti Reg.LAY_OOB_WRITES) wr).setFld (tileReg ti Reg.LAY_STATUS) 30 30 1) := h.countTile.setTileFld
  exact .ite h (.ite hw (.recordEvent (.modTile hw) ..))

theorem noteOverlap_aside (s : State) (ti vaddr slot : Nat) : s.Aside (noteOverlap s ti vaddr slot) := by
  unfold noteOverlap
  exact .recordEvent (.modTile (.setTileFld (.countTile (.refl s)))) ..

theorem reportSlots_aside (s : State) (ti : Nat) : s.Aside (reportSlots s ti) := by
  unfold reportSlots
  extract_lets t ready reported sage
  have h : s.Aside reported := .setTile (.refl s) rfl
  exact h.upd

theorem arrive_aside (s : State) (p : Packet) : s.Aside (s.arrive p) := by
  have h : s.Aside { s with mesh := s.mesh.erase p } := (State.Aside.refl s).upd
  have hc : s.Aside (reportCrc { s with mesh := s.mesh.erase p } p) := by
    unfold reportCrc
    exact .recordEvent (.modTile (.countTile (.upd h))) ..
  exact .ite hc h

end Sys2Proof.Machine

namespace Sys2Proof.Machine

/-! ### The effects that units have at issue -/

/-- A work that, where there is one, has its effect at issue aside of the sequencer. -/
structure AfterAside (x : Except Flt Work) : Prop where
  aside : ∀ w, x = .ok w → ∀ s : State, s.Aside (w.after s)

namespace AfterAside

theorem error (e : Flt) : AfterAside (.error e) := ⟨fun _ h => nomatch h⟩

theorem ok {w : Work} (h : ∀ s : State, s.Aside (w.after s)) : AfterAside (.ok w) := ⟨fun _ e => by cases e; exact h⟩

theorem ite {c : Prop} [Decidable c] {x y : Except Flt Work} (h : AfterAside x) (k : AfterAside y) : AfterAside (if c then x else y) := by
  split
  · exact h
  · exact k

/-- A work without an effect of its own at issue. -/
theorem idle {w : Work} (h : w.after = id := by rfl) : AfterAside (.ok w) := ok fun s => h ▸ .refl s

end AfterAside

theorem clearHeld_aside (s : State) (ti : Nat) : s.Aside (clearHeld s ti) := .setTileReg (.setTileFld (.modTile (.refl s)))

theorem holdResults_aside (s : State) (ti m n : Nat) (wide : Bool) (accs : List Acc) : s.Aside (holdResults s ti m n wide accs) :=
  .setTileReg (.setTileFld (.modTile (.refl s)))

theorem drainFlags_aside (s : State) (ti : Nat) (inexact poison : Bool) : s.Aside (drainFlags s ti inexact poison) := by
  have h : s.Aside (if inexact then s.setFld (tileReg ti Reg.MXA_STATUS) 31 31 1 else s) := .ite (.setTileFld (.refl s)) (.refl s)
  exact .ite h.setTileFld h

theorem noteIndexPoison_aside (s : State) (ti n : Nat) : s.Aside (noteIndexPoison s ti n) :=
  (State.Aside.refl s).foldl fun x _ _ => poisonMet_aside x ti 6 0 x.round

section
variable (s : State) (ti : Nat) (c : BitVec 512)

theorem arrayWork_aside (wide : Bool) (m n : Nat) (ops : List Operand) (bias : Option (Operand × List Elem)) (store : Option StoreBlk)
    (o : ArrayOut) : AfterAside (arrayWork s ti c wide m n ops bias store o) := by
  unfold arrayWork
  extract_lets
  split
  · exact .ok fun x => holdResults_aside x ti m n wide o.accs
  · extract_lets
    split
    · exact .idle
    · split
      · exact .error _
      · exact .ok fun x => (clearHeld_aside x ti).trans (drainFlags_aside _ ti _ _)

theorem workMatmul_aside : AfterAside (workMatmul s ti c) := by
  unfold workMatmul
  split
  · exact .error _
  · exact .error _
  · extract_lets
    split
    · exact .error _
    · refine .ite (.error _) ?_
      split
      · exact .error _
      · exact .error _
      · split
        · exact .error _
        · exact .error _
        · exact .error _
        · exact arrayWork_aside ..

theorem workConv_aside : AfterAside (workConv s ti c) := by
  unfold workConv
  split
  · exact .error _
  · exact .error _
  · split
    · refine .ite (.error _) (.ite (.error _) ?_)
      split
      · exact .error _
      · exact .error _
      · extract_lets
        split
        · exact .error _
        · exact .error _
        · exact .error _
        · exact arrayWork_aside ..
    · exact .error _

theorem workLoad_aside : AfterAside (workLoad s ti c) := by
  unfold workLoad
  split
  · exact .error _
  · exact .error _
  · refine .ite (.error _) (.ite (.error _) ?_)
    split
    · exact .error _
    · exact .ok fun x => cacheViews_aside x ti _ _

theorem storeWork_aside (b : StoreBlk) (isStore isElt : Bool) (ops : List Operand) (staged : Nat) (src : Source) :
    AfterAside (storeWork s ti b isStore isElt ops staged src) := by
  unfold storeWork
  extract_lets
  split
  · exact .idle
  · exact .idle
  · split
    · exact .error _
    · exact .ok fun x => cacheViews_aside x ti _ _

theorem workStore_aside : AfterAside (workStore s ti c) := by
  unfold workStore
  split
  · exact .error _
  · refine .ite (.error _) ?_
    split
    · exact .error _
    · split
      · exact .error _
      · exact storeWork_aside ..

theorem workGather_aside : AfterAside (workGather s ti c) := by
  unfold workGather
  split
  · exact .error _
  · exact .error _
  · exact .error _
  · refine .ite (.error _) (.ite .idle ?_)
    split
    · exact .error _
    · split
      · exact .error _
      · extract_lets
        split
        · exact .error _
        · exact .ok fun x =>
            .trans (.countTile (.countTile (.foldl (noteIndexPoison_aside x ti _) fun y _ _ => noteViews_aside y ti _ _))) (cacheViews_aside _ ti _ _)

theorem workScatter_aside : AfterAside (workScatter s ti c) := by
  unfold workScatter
  split
  · exact .error _
  · exact .error _
  · exact .error _
  · refine .ite (.error _) (.ite .idle ?_)
    split
    · exact .error _
    · extract_lets
      split
      · exact .error _
      · exact .ok fun x => (noteIndexPoison_aside x ti _).trans (cacheViews_aside _ ti _ _)

theorem workEltwise_aside : AfterAside (workEltwise s ti c) := by
  unfold workEltwise
  extract_lets
  split
  · exact .error _
  · exact .error _
  · split
    · exact .error _
    · split
      · exact .error _
      · extract_lets
        split
        · exact .error _
        · exact storeWork_aside ..

theorem workReduce_aside : AfterAside (workReduce s ti c) := by
  unfold workReduce
  split
  · exact .error _
  · refine .ite (.error _) ?_
    split
    · exact .error _
    · split
      · exact .error _
      · exact storeWork_aside ..

theorem workIbuOp_aside : AfterAside (workIbuOp s ti c) := by
  unfold workIbuOp
  refine .ite (.error _) (.ite (.error _) (.ite (.error _) (.ite (.error _) ?_)))
  split
  · exact .error _
  · exact .ok fun x => .ite (.refl x) (noteSramReads_aside x ti _)

theorem workSend_aside : AfterAside (workSend s ti c) := by
  unfold workSend
  split
  · exact .error _
  · refine .ite (.error _) ?_
    split
    · exact .error _
    · exact .idle

end

end Sys2Proof.Machine

namespace Sys2Proof.Machine

/-! ## A command that issues (02 R42-R46) -/

/-- The sequencer has read a command: its page is cached, and the reads of its descriptor slots are noted. -/
def State.issueNoted (s : State) (c : TileCmd) : State :=
  let t := s.tile c.ti
  let f := if inWindow t.pc then s else cachePage s c.ti t.space (t.pc / 0x200000)
  noteSramReads f c.ti (f.readableSlots c.ti (diFields (t.effective c.bits)))

theorem State.issueView_eq (s : State) (c : TileCmd) :
    s.issueView c = (s.issueNoted c).view c.ti (unitOf ((s.tile c.ti).effective c.bits)) := rfl

theorem State.fetched_aside (s : State) (ti space pc : Nat) :
    s.Aside (if inWindow pc then s else cachePage s ti space (pc / 0x200000)) :=
  .ite (.refl s) (cachePage_aside s ti space _)

theorem State.issueNoted_aside (s : State) (c : TileCmd) : s.Aside (s.issueNoted c) :=
  (s.fetched_aside _ _ _).trans (noteSramReads_aside _ _ _)

theorem State.Aside.holds {s t : State} (h : s.Aside t) (ti : Nat) (c : BitVec 512) : t.holds ti c = s.holds ti c := by
  unfold State.holds Tile.live
  dsimp only
  rw [h.tokens, h.queue]

/-- A command that the sequencer takes is handed to its unit with its work. -/
theorem State.Takes.issueCmd_eq {s : State} {c : TileCmd} {cls : Nat} {work : State → BitVec 512 → Except Flt Work} {w : Work}
    (h : s.Takes c cls) (hw : work (s.issueView c) ((s.tile c.ti).effective c.bits) = .ok w) :
    issueCmd s c cls work = issueWork (s.issueNoted c) c.ti ((s.tile c.ti).effective c.bits) w := by
  have hfree := ((s.fetched_aside c.ti (s.tile c.ti).space (s.tile c.ti).pc).holds c.ti _).trans h.free
  rw [State.issueView_eq] at hw
  unfold State.issueNoted at hw ⊢
  have hslot : (((s.tile c.ti).slotAt (cSlot ((s.tile c.ti).effective c.bits))).inPlace && decide (cls ≠ 0x0C)) = false := by
    obtain h | h := h.slot
    · simp [h]
    · simp [h]
  unfold issueCmd
  simp only [h.runs, h.ofClass, h.fetch, h.clean, h.decodes, hslot, hfree, hw, ne_eq, not_true_eq_false, decide_false, Bool.and_false,
    Bool.not_true, Bool.or_false, Bool.false_eq_true, if_false]

/-- What a work notes at issue beside its own effect: the reads of its links and views, and its elements out of bounds. -/
def State.workNoted (s : State) (ti : Nat) (w : Work) : State :=
  let t := s.tile ti
  countOob (cacheViews (noteViews (noteSramReads s ti (s.readableSlots ti w.links)) ti t.space w.views) ti t.space w.views) ti t.pc
    w.oobReads w.oobWrites

theorem State.workNoted_aside (s : State) (ti : Nat) (w : Work) : s.Aside (s.workNoted ti w) :=
  (((noteSramReads_aside s ti _).trans (noteViews_aside _ ti _ _)).trans (cacheViews_aside _ ti _ _)).trans (countOob_aside _ ti _ _ _)

/-- Queue an entry: its slot is noted, a refusal counted, its packets sent and the slots that are ready reported. -/
def enqueue (s : State) (ti : Nat) (c : BitVec 512) (e : QEntry) (inexact refused : Bool) (ps : List Packet) : State :=
  let s := s.modTile ti (fun t => noteSlot { t with queue := t.queue ++ [e] } c e.serial e.inPlace inexact)
  let s := if refused then noteOverlap s ti e.vaddr (cSlot c) else s
  reportSlots (s.sendAll ps) ti

/-- The entry of a command with its work, on a tile that stands at it. -/
structure QEntry.IsFor (e : QEntry) (t : Tile) (c : BitVec 512) (w : Work) : Prop where
  serial : e.serial = t.serial
  unit : e.unit = unitOf c
  cls : e.cls = cClass c
  vaddr : e.vaddr = t.pc
  slot : e.slot = cSlot c
  setTok : e.setTok = cSet c
  swrites : e.swrites = w.writes.sram
  mwrites : e.mwrites = w.writes.mem
  waits : e.waits = w.waits
  banks : e.banks = w.banks

/-- Issue notes what the work reads, has its effect, passes the command and queues its entry. -/
theorem issueWork_eq (s : State) (ti : Nat) (c : BitVec 512) (w : Work) :
    ∃ e inexact ps, issueWork s ti c w = enqueue (passIssue (w.after (s.workNoted ti w)) ti c) ti c e inexact w.refused ps ∧
      e.IsFor (s.tile ti) c w ∧
      ((∀ n, unitOf c ≠ .rae n) → ∀ p ∈ w.packets, { p with ref := (s.tile ti).serial } ∈ ps) := by
  refine ⟨_, _, _, rfl, ⟨rfl, rfl, rfl, rfl, rfl, rfl, rfl, rfl, rfl, rfl⟩, fun hu p hp => ?_⟩
  have hmem : { p with ref := (s.tile ti).serial } ∈
      (w.packets ++ memPackets ti (s.tile ti).serial w.writes.mem).map (fun p => { p with ref := (s.tile ti).serial }) :=
    List.mem_map_of_mem (List.mem_append_left _ hp)
  split
  · rename_i n hn
    exact absurd hn (hu n)
  · rwa [List.take_length]

/-! ### Queueing an entry -/

theorem modTile_aside_modTile (s : State) (ti : Nat) {f g : Tile → Tile} (h : ∀ x, (g x).seqView = (f x).seqView) :
    (s.modTile ti f).Aside (s.modTile ti g) := by
  refine ⟨fun _ _ => rfl, fun j => ?_⟩
  rw [State.tile_modTile, State.tile_modTile]
  split
  · exact h _
  · rfl

theorem Tile.putSlot_seqView (t : Tile) (x : SlotState) : (t.putSlot x).seqView = t.seqView := rfl

theorem noteSlot_seqView (t : Tile) (c : BitVec 512) (serial : Nat) (inPlace inexact : Bool) :
    (noteSlot t c serial inPlace inexact).seqView = t.seqView := t.putSlot_seqView _

section
variable (s : State) (ti : Nat) (c : BitVec 512) (e : QEntry) (inexact refused : Bool) (ps : List Packet)

/-- But for its entry, queueing stays aside of the sequencer. -/
theorem enqueue_aside : (s.modTile ti (fun t => { t with queue := t.queue ++ [e] })).Aside (enqueue s ti c e inexact refused ps) := by
  unfold enqueue
  extract_lets s1 s2
  have h1 : (s.modTile ti (fun t => { t with queue := t.queue ++ [e] })).Aside s1 :=
    modTile_aside_modTile s ti fun x => noteSlot_seqView _ c _ _ _
  have h2 : (s.modTile ti (fun t => { t with queue := t.queue ++ [e] })).Aside s2 := .ite (h1.trans (noteOverlap_aside s1 ti _ _)) h1
  have h3 : State.Aside (s.modTile ti fun t => { t with queue := t.queue ++ [e] }) (s2.sendAll ps) := h2.upd
  exact h3.trans (reportSlots_aside _ ti)

@[simp] theorem State.sendAll_mesh : (s.sendAll ps).mesh = s.mesh ++ ps := rfl

@[simp] theorem reportSlots_mesh : (reportSlots s ti).mesh = s.mesh := rfl

@[simp] theorem noteOverlap_mesh (vaddr slot : Nat) : (noteOverlap s ti vaddr slot).mesh = s.mesh := by
  unfold noteOverlap
  rw [recordEvent_mesh, State.modTile_mesh, State.setFld_mesh, State.count_mesh]

/-- The packets of a command are in the mesh. -/
theorem enqueue_mesh : (enqueue s ti c e inexact refused ps).mesh = s.mesh ++ ps := by
  unfold enqueue
  dsimp only
  rw [reportSlots_mesh, State.sendAll_mesh]
  split
  · rw [noteOverlap_mesh, State.modTile_mesh]
  · rw [State.modTile_mesh]

/-! ### Passing a command -/

theorem passIssue_tile (j : Nat) : (passIssue s ti c).tile j =
    if j = ti then { s.tile ti with pc := (s.tile ti).pc + 64, ordinal := (s.tile ti).ordinal + 1, serial := (s.tile ti).serial + 1 }
    else s.tile j := by
  have h (v k : Nat) : State.tile (if flConsume (cFlags c) then s.setTokens ti v else s) k = s.tile k := by
    split <;> [exact State.tile_setFld ..; rfl]
  unfold passIssue
  dsimp only
  rw [State.tile_modTile, State.tile_setFld, State.tile_setFld, h, h]

@[simp] theorem passIssue_mesh : (passIssue s ti c).mesh = s.mesh := by
  unfold passIssue
  dsimp only
  rw [State.modTile_mesh, State.setFld_mesh]
  split <;> [rw [State.setTokens, State.setFld_mesh]; rfl]

end

theorem cf_lt (c : BitVec 512) (off n : Nat) : cf c off n < 2 ^ (8 * n) := Nat.mod_lt _ (by positivity)

theorem tileReg_inj (ti : Nat) {x y : Nat} (h : x ≠ y) : tileReg ti x ≠ tileReg ti y := by
  unfold tileReg
  omega

/-- Passing writes the tokens and the status of its tile alone. -/
theorem passIssue_reg (s : State) (ti : Nat) (c : BitVec 512) {a : Nat} (h1 : a ≠ tileReg ti Reg.TIL_TOKENS)
    (h2 : a ≠ tileReg ti Reg.TIL_STATUS) : (passIssue s ti c).reg a = s.reg a := by
  unfold passIssue
  rw [State.reg_modTile, State.reg_setFld_ne _ _ _ _ h2]
  split
  · exact s.reg_setFld_ne _ _ _ h1
  · rfl

/-- The slot of the command passed is the last issued. -/
theorem passIssue_last (s : State) (ti : Nat) (c : BitVec 512) : (passIssue s ti c).fld (tileReg ti Reg.TIL_STATUS) 23 16 = cSlot c := by
  unfold passIssue
  rw [State.fld_modTile, State.fld_setFld_same _ _ _ (by decide) (by decide)]
  exact Nat.mod_eq_of_lt (cf_lt c 7 1)

/-- Passing leaves the other fields of the status. -/
theorem passIssue_tilState (s : State) (ti : Nat) (c : BitVec 512) : (passIssue s ti c).tilState ti = s.tilState ti := by
  unfold passIssue State.tilState
  rw [State.fld_modTile, State.fld_setFld_disjoint _ _ _ (by decide) (by decide) (by decide)]
  split
  · exact s.fld_setFld_ne _ _ _ _ _ (tileReg_inj ti (by decide))
  · rfl

/-- A mask of 16 bits with the bits of another taken out shares none with it. -/
theorem masked_and_mask (x m : Nat) : (x &&& (65535 ^^^ m)) % 2 ^ 16 &&& m = 0 := by
  refine Nat.eq_of_testBit_eq fun i => ?_
  have h : Nat.testBit 65535 i = decide (i < 16) := Nat.testBit_two_pow_sub_one 16 i
  simp only [Nat.testBit_and, Nat.testBit_mod_two_pow, Nat.testBit_xor, h, Nat.zero_testBit]
  cases decide (i < 16) <;> cases m.testBit i <;> simp

/-- CONSUME clears the tokens that the command waited for (02 R46). -/
theorem passIssue_consumed (s : State) (ti : Nat) (c : BitVec 512) (h : flConsume (cFlags c) = true) :
    (passIssue s ti c).tokens ti &&& cWait c = 0 := by
  unfold passIssue State.tokens
  rw [State.fld_modTile, State.fld_setFld_ne _ _ _ _ _ _ (tileReg_inj ti (by decide)), if_pos h]
  unfold State.setTokens
  rw [State.fld_setFld_same _ _ _ (by decide) (by decide)]
  exact masked_and_mask _ _

/-! ### The state after issue -/

/-- What the sequencer and the unit note of a command before its own effect. -/
def State.beforeIssue (s : State) (c : TileCmd) (w : Work) : State := (s.issueNoted c).workNoted c.ti w

theorem State.beforeIssue_aside (s : State) (c : TileCmd) (w : Work) : s.Aside (s.beforeIssue c w) :=
  (s.issueNoted_aside c).trans ((s.issueNoted c).workNoted_aside c.ti w)

section
variable {s : State} {c : TileCmd} {cls : Nat} {work : State → BitVec 512 → Except Flt Work} {w : Work}

/-- A command that the sequencer takes: what is noted, the effect of its work, the command passed and its entry queued. -/
theorem State.Takes.enqueues (h : s.Takes c cls) (hw : work (s.issueView c) ((s.tile c.ti).effective c.bits) = .ok w) :
    ∃ e inexact ps, issueCmd s c cls work =
        enqueue (passIssue (w.after (s.beforeIssue c w)) c.ti ((s.tile c.ti).effective c.bits)) c.ti ((s.tile c.ti).effective c.bits) e
          inexact w.refused ps ∧
      e.IsFor (s.tile c.ti) ((s.tile c.ti).effective c.bits) w ∧
      ((∀ n, unitOf ((s.tile c.ti).effective c.bits) ≠ .rae n) → ∀ p ∈ w.packets, { p with ref := (s.tile c.ti).serial } ∈ ps) := by
  obtain ⟨e, inexact, ps, heq, he, hp⟩ := issueWork_eq (s.issueNoted c) c.ti ((s.tile c.ti).effective c.bits) w
  have hserial := (s.issueNoted_aside c).serial c.ti
  refine ⟨e, inexact, ps, (h.issueCmd_eq hw).trans heq, { he with serial := ?_, vaddr := ?_ }, fun hu p hm => ?_⟩
  · exact he.serial.trans hserial
  · exact he.vaddr.trans ((s.issueNoted_aside c).pc c.ti)
  · exact hserial ▸ hp hu p hm

/-- The state after a command is passed and queued, where the work's effect stays aside of the sequencer. -/
theorem issued_of_enqueue {x : State} (hx : s.Aside x) {b : BitVec 512} (hb : b = (s.tile c.ti).effective c.bits) {e : QEntry}
    {inexact refused : Bool} {ps : List Packet} (he : e.IsFor (s.tile c.ti) b w) :
    s.Issued (enqueue (passIssue x c.ti b) c.ti b e inexact refused ps) c w := by
  have ha := enqueue_aside (passIssue x c.ti b) c.ti b e inexact refused ps
  generalize enqueue (passIssue x c.ti b) c.ti b e inexact refused ps = t at *
  have hfld (off hi lo : Nat) (ho : off < 0x200) : t.fld (tileReg c.ti off) hi lo = (passIssue x c.ti b).fld (tileReg c.ti off) hi lo :=
    (ha.fld c.ti ho hi lo).trans (State.fld_modTile ..)
  refine ⟨⟨e, ?_, he.serial, hb ▸ he.unit, hb ▸ he.cls, he.vaddr, hb ▸ he.slot, hb ▸ he.setTok,
    he.swrites, he.mwrites, he.waits, he.banks⟩, ?_, ?_, ?_, ?_,
    fun hc => ?_, fun j hj => ?_⟩
  · rw [ha.queue, State.tile_modTile_same, passIssue_tile, if_pos rfl, hx.queue]
  · rw [ha.pc, State.tile_modTile_same, passIssue_tile, if_pos rfl, hx.pc]
  · rw [ha.serial, State.tile_modTile_same, passIssue_tile, if_pos rfl, hx.serial]
  · rw [ha.ordinal, State.tile_modTile_same, passIssue_tile, if_pos rfl, hx.ordinal]
  · exact (hfld _ 23 16 (by decide)).trans (hb ▸ passIssue_last x c.ti b)
  · rw [State.tokens, hfld _ 15 0 (by decide)]
    exact hb ▸ passIssue_consumed x c.ti b (hb ▸ hc)
  · rw [ha.queue, State.tile_modTile, if_neg hj, passIssue_tile, if_neg hj, hx.queue]

/-- A command that the sequencer takes issues with its work, where the work's effect stays aside of the sequencer. -/
theorem State.Takes.issues (h : s.Takes c cls) (hw : work (s.issueView c) ((s.tile c.ti).effective c.bits) = .ok w)
    (ha : AfterAside (work (s.issueView c) ((s.tile c.ti).effective c.bits))) : s.Issued (issueCmd s c cls work) c w := by
  obtain ⟨e, inexact, ps, heq, he, -⟩ := h.enqueues hw
  rw [heq]
  exact issued_of_enqueue ((s.beforeIssue_aside c w).trans (ha.aside w hw _)) rfl he

end

/-- Settles O12: each class hands its own work to its unit. -/
theorem unitCommandsIssue : Obligations.UnitCommandsIssue :=
  ⟨fun _ _ _ h hw => ⟨_, rfl, h.issues hw (workMatmul_aside ..)⟩, fun _ _ _ h hw => ⟨_, rfl, h.issues hw (workConv_aside ..)⟩,
    fun _ _ _ h hw => ⟨_, rfl, h.issues hw (workEltwise_aside ..)⟩, fun _ _ _ h hw => ⟨_, rfl, h.issues hw (workReduce_aside ..)⟩,
    fun _ _ _ h hw => ⟨_, rfl, h.issues hw (workIbuOp_aside ..)⟩⟩

/-- Settles O13: each class hands its own work to its unit. -/
theorem transferCommandsIssue : Obligations.TransferCommandsIssue :=
  ⟨fun _ _ _ h hw => ⟨_, rfl, h.issues hw (workLoad_aside ..)⟩, fun _ _ _ h hw => ⟨_, rfl, h.issues hw (workStore_aside ..)⟩,
    fun _ _ _ h hw => ⟨_, rfl, h.issues hw (workGather_aside ..)⟩, fun _ _ _ h hw => ⟨_, rfl, h.issues hw (workScatter_aside ..)⟩⟩

end Sys2Proof.Machine

namespace Sys2Proof.Machine

/-! ## SEND, RECV and SYNC issue (02 R72-R74) -/

theorem testBit_cf (c : BitVec 512) (off n i : Nat) : (cf c off n).testBit i = (decide (i < 8 * n) && c.getLsbD (8 * off + i)) := by
  unfold cf
  rw [Nat.testBit_mod_two_pow, Nat.testBit_shiftRight]
  rfl

/-- Relocation touches no bit outside the STEP_SLOT byte. -/
theorem getLsbD_effective (t : Tile) (c : BitVec 512) {i : Nat} (h : i < 56 ∨ 64 ≤ i) : (t.effective c).getLsbD i = c.getLsbD i := by
  have hslot (v : Nat) (hv : v < 256) : (BitVec.ofNat 512 (v * 2 ^ 56)).getLsbD i = false := by
    rw [BitVec.getLsbD_ofNat, Nat.testBit_mul_two_pow]
    by_cases h56 : 56 ≤ i
    · have hp : 2 ^ 8 ≤ 2 ^ (i - 56) := Nat.pow_le_pow_right (by decide) (by omega)
      simp [Nat.testBit_lt_two_pow (hv.trans_le hp)]
    · simp [h56]
  unfold Tile.effective
  dsimp only
  rw [BitVec.getLsbD_or, BitVec.getLsbD_and, BitVec.getLsbD_not, hslot 0xFF (by decide), hslot _ (Nat.mod_lt _ (by decide))]
  by_cases hi : i < 512
  · simp [hi]
  · simp [hi, BitVec.getLsbD_of_ge c i (by omega)]

/-- Fields outside the STEP_SLOT byte are the command's own. -/
theorem cf_effective (t : Tile) (c : BitVec 512) {off n : Nat} (h : off + n ≤ 7 ∨ 8 ≤ off) : cf (t.effective c) off n = cf c off n := by
  refine Nat.eq_of_testBit_eq fun i => ?_
  rw [testBit_cf, testBit_cf]
  by_cases hi : i < 8 * n
  · rw [getLsbD_effective t c (by omega)]
  · simp [hi]

section
variable (t : Tile) (c : BitVec 512)

@[simp] theorem cClass_effective : cClass (t.effective c) = cClass c := cf_effective t c (.inl (by decide))
@[simp] theorem cMode_effective : cMode (t.effective c) = cMode c := cf_effective t c (.inl (by decide))
@[simp] theorem cFlags_effective : cFlags (t.effective c) = cFlags c := cf_effective t c (.inl (by decide))
@[simp] theorem cSet_effective : cSet (t.effective c) = cSet c := cf_effective t c (.inl (by decide))

theorem remoteOf_effective {off : Nat} (h : 8 ≤ off) : remoteOf (t.effective c) off = remoteOf c off := by
  unfold remoteOf
  rw [cMode_effective, cf_effective t c (.inr h)]

/-- The arrival of a SYNC depends on the state through the number of the round alone, and on no relocated field. -/
theorem syncPacket_effective {s u : State} (h : u.round = s.round) (ti : Nat) : syncPacket u ti (t.effective c) = syncPacket s ti c := by
  unfold syncPacket State.rtag
  rw [remoteOf_effective t c (by decide), h, cf_effective t c (off := 8) (.inr (by decide)), cf_effective t c (off := 10) (.inr (by decide)),
    cf_effective t c (off := 12) (.inr (by decide))]

end

/-- What a work writes, waits for and reaches is all that its issue shows. -/
theorem State.Issued.congr {s t : State} {c : TileCmd} {w v : Work} (h : s.Issued t c w) (h1 : v.writes = w.writes) (h2 : v.waits = w.waits)
    (h3 : v.banks = w.banks) : s.Issued t c v := by
  obtain ⟨hq, hpc, hs, ho, hl, hc, hj⟩ := h
  rw [← h1, ← h2, ← h3] at hq
  exact ⟨hq, hpc, hs, ho, hl, hc, hj⟩

section
variable {s : State} {c : TileCmd} {cls : Nat} {work : State → BitVec 512 → Except Flt Work} {w : Work}

/-- What the effect of a work has sent is in the mesh after issue. -/
theorem State.Takes.keepsSent (h : s.Takes c cls) (hw : work (s.issueView c) ((s.tile c.ti).effective c.bits) = .ok w) :
    ∀ p ∈ (w.after (s.beforeIssue c w)).mesh, p ∈ (issueCmd s c cls work).mesh := by
  obtain ⟨e, inexact, ps, heq, -, -⟩ := h.enqueues hw
  rw [heq, enqueue_mesh, passIssue_mesh]
  exact fun p hp => List.mem_append_left _ hp

/-- The packets of a command that goes to no run-ahead engine are all sent at issue. -/
theorem State.Takes.sends (h : s.Takes c cls) (hw : work (s.issueView c) ((s.tile c.ti).effective c.bits) = .ok w)
    (hu : ∀ n, unitOf ((s.tile c.ti).effective c.bits) ≠ .rae n) :
    ∀ p ∈ w.packets, { p with ref := (s.tile c.ti).serial } ∈ (issueCmd s c cls work).mesh := by
  obtain ⟨e, inexact, ps, heq, -, hp⟩ := h.enqueues hw
  rw [heq, enqueue_mesh]
  exact fun p hm => List.mem_append_right _ (hp hu p hm)

end

/-- Settles O15: the packets of SEND and SYNC are in the mesh, and no field that RECV and SYNC name is relocated. -/
theorem networkCommandsIssue : Obligations.NetworkCommandsIssue := by
  refine ⟨fun s c w h hw => ⟨_, rfl, h.issues hw (workSend_aside ..), h.sends hw fun n => ?unit⟩, fun s c h => ⟨_, rfl, ?recv⟩,
    fun s c h => ⟨_, rfl, ?sync, h.keepsSent rfl _ ?arrival⟩⟩
  case unit => simp [unitOf, h.ofClass]
  case recv =>
    rw [← cf_effective (s.tile c.ti) c.bits (off := 8) (.inr (by decide)), ← cf_effective (s.tile c.ti) c.bits (off := 12) (.inr (by decide)),
      ← cf_effective (s.tile c.ti) c.bits (off := 16) (.inr (by decide)), ← remoteOf_effective (s.tile c.ti) c.bits (by decide)]
    exact h.issues rfl .idle
  case sync =>
    rw [← cf_effective (s.tile c.ti) c.bits (off := 8) (.inr (by decide)), ← cf_effective (s.tile c.ti) c.bits (off := 10) (.inr (by decide))]
    refine State.Issued.congr (h.issues rfl (.ok fun x => .upd (.refl x))) rfl rfl rfl
  case arrival =>
    have hround : (s.issueView c).round = s.round := ((s.issueNoted_aside c).trans (view_aside _ _ _)).round
    exact List.mem_append_right _ (List.mem_singleton.2 (syncPacket_effective _ _ hround c.ti).symm)

end Sys2Proof.Machine

namespace Sys2Proof.Machine

/-! ## Completing a command (02 R45, R46, R51) -/

section
variable (s : State) (ti : Nat)

/-- Reporting a slot changes the slots of a tile alone. -/
theorem reportSlots_tile (j : Nat) : ∃ l, (reportSlots s ti).tile j = { s.tile j with slots := l } := by
  have h : (reportSlots s ti).tile j = (s.setTile ti { s.tile ti with
      slots := (s.tile ti).slots.map (fun x => if (s.tile ti).slotReady x then { x with reported := true } else x) }).tile j := rfl
  rw [h, State.tile_setTile]
  split
  · rename_i hj
    exact ⟨_, by rw [hj]⟩
  · exact ⟨_, rfl⟩

@[simp] theorem reportSlots_reg (a : Nat) : (reportSlots s ti).reg a = s.reg a := rfl

/-- The tokens after a command completes that sets one. -/
def State.setToken (s : State) (ti setTok : Nat) : State :=
  if setTok ≥ 128 then s.setTokens ti (s.tokens ti ||| (1 <<< (setTok % 16))) else s

theorem finishCmd_eq (setTok : Nat) : finishCmd s ti setTok =
    reportSlots (State.setToken (s.setReg64 (tileReg ti Reg.TIL_CMD_COUNT_LO) ((s.reg64 (tileReg ti Reg.TIL_CMD_COUNT_LO) + 1) % 2 ^ 64)) ti setTok)
      ti := rfl

theorem State.tile_setToken (setTok j : Nat) : (s.setToken ti setTok).tile j = s.tile j := by
  unfold State.setToken
  split <;> [exact State.tile_setFld ..; rfl]

theorem State.reg_setToken (setTok : Nat) {a : Nat} (h : a ≠ tileReg ti Reg.TIL_TOKENS) : (s.setToken ti setTok).reg a = s.reg a := by
  unfold State.setToken
  split <;> [exact s.reg_setFld_ne _ _ _ h; rfl]

theorem finishCmd_tile (setTok j : Nat) : ∃ l, (finishCmd s ti setTok).tile j = { s.tile j with slots := l } := by
  rw [finishCmd_eq]
  obtain ⟨l, hl⟩ := reportSlots_tile (State.setToken (s.setReg64 (tileReg ti Reg.TIL_CMD_COUNT_LO) _) ti setTok) ti j
  exact ⟨l, by rw [hl, State.tile_setToken, State.setReg64, State.tile_setReg, State.tile_setReg]⟩

/-- Completing a command writes the count of its tile's commands and the tokens alone. -/
theorem finishCmd_reg (setTok : Nat) {off : Nat} (h1 : off ≠ Reg.TIL_CMD_COUNT_LO) (h2 : off ≠ Reg.TIL_CMD_COUNT_HI)
    (h3 : off ≠ Reg.TIL_TOKENS) : (finishCmd s ti setTok).reg (tileReg ti off) = s.reg (tileReg ti off) := by
  rw [finishCmd_eq, reportSlots_reg, State.reg_setToken _ _ _ (tileReg_inj ti h3), State.setReg64, State.reg_setReg_ne, State.reg_setReg_ne]
  · exact tileReg_inj ti h1
  · exact tileReg_inj ti h2

theorem finishCmd_fld (setTok : Nat) {off : Nat} (h1 : off ≠ Reg.TIL_CMD_COUNT_LO) (h2 : off ≠ Reg.TIL_CMD_COUNT_HI)
    (h3 : off ≠ Reg.TIL_TOKENS) (hi lo : Nat) : (finishCmd s ti setTok).fld (tileReg ti off) hi lo = s.fld (tileReg ti off) hi lo := by
  rw [State.fld, finishCmd_reg s ti setTok h1 h2 h3, State.fld]

theorem finishCmd_count (setTok : Nat) : (finishCmd s ti setTok).reg64 (tileReg ti Reg.TIL_CMD_COUNT_LO) =
    (s.reg64 (tileReg ti Reg.TIL_CMD_COUNT_LO) + 1) % 2 ^ 64 := by
  rw [finishCmd_eq, State.reg64, reportSlots_reg, reportSlots_reg, State.reg_setToken _ _ _ (tileReg_inj ti (by decide)),
    State.reg_setToken (a := tileReg ti Reg.TIL_CMD_COUNT_LO + 1) _ _ _ (tileReg_inj ti (x := Reg.TIL_CMD_COUNT_HI) (by decide)),
    ← State.reg64, State.reg64_setReg64, Nat.mod_mod]

/-- The token that a command sets is set when it completes. -/
theorem finishCmd_token {setTok : Nat} (h : 128 ≤ setTok) : ((finishCmd s ti setTok).tokens ti).testBit (setTok % 16) = true := by
  have hlt : setTok % 16 < 16 := Nat.mod_lt _ (by decide)
  rw [finishCmd_eq, State.tokens, State.fld, reportSlots_reg, ← State.fld, State.setToken, if_pos h, State.setTokens,
    State.fld_setFld_same _ _ _ (by decide) (by decide), Nat.testBit_mod_two_pow, Nat.testBit_or, Nat.testBit_shiftLeft]
  simp [hlt]

end

/-! ## HANDOVER (02 R61) -/

section
variable (s : State) (ti : Nat) (h : Handover)

theorem State.fld_setBit_same (s : State) (a : Nat) {i : Nat} (hi : i < 32) (b : Bool) : decide ((s.setBit a i b).fld a i i = 1) = b := by
  rw [State.setBit, State.fld_setFld_same _ _ _ le_rfl hi]
  have : i + 1 - i = 1 := by omega
  cases b <;> simp [this]

theorem bankReg_inj {a b : Nat} (hab : a ≠ b) : tileReg ti (Reg.TIL_BANK_OWN + a) ≠ tileReg ti (Reg.TIL_BANK_OWN + b) :=
  tileReg_inj ti (by omega)

/-- Writing the owner of a bank writes its register alone. -/
theorem writeOwner_reg (b : Nat) {a : Nat} (ha : a ≠ tileReg ti (Reg.TIL_BANK_OWN + b)) : (writeOwner s ti b h).reg a = s.reg a := by
  unfold writeOwner
  dsimp only
  split
  · rw [State.setBit, State.reg_setFld_ne _ _ _ _ ha, State.reg_setFld_ne _ _ _ _ ha]
  · exact s.reg_setFld_ne _ _ _ ha

theorem writeOwner_tile (b j : Nat) : (writeOwner s ti b h).tile j = s.tile j := by
  unfold writeOwner
  dsimp only
  split
  · rw [State.setBit, State.tile_setFld, State.tile_setFld]
  · rw [State.tile_setFld]

theorem writeOwner_bankOwner (a b : Nat) : (writeOwner s ti a h).bankOwner ti b = if b = a then h.owner % 16 else s.bankOwner ti b := by
  split
  · rename_i hb
    subst hb
    unfold writeOwner State.bankOwner
    dsimp only
    split
    · rw [State.setBit, State.fld_setFld_disjoint _ _ _ (by decide) (by decide) (by decide)]
      exact State.fld_setFld_same _ _ _ (by decide) (by decide)
    · exact State.fld_setFld_same _ _ _ (by decide) (by decide)
  · rename_i hb
    rw [State.bankOwner, State.fld, writeOwner_reg s ti h a (bankReg_inj ti hb), ← State.fld, ← State.bankOwner]

theorem writeOwner_stealPermit (a b : Nat) :
    (writeOwner s ti a h).stealPermit ti b = if b = a ∧ h.apply = true then h.value else s.stealPermit ti b := by
  by_cases hb : b = a
  · subst hb
    unfold writeOwner State.stealPermit
    dsimp only
    cases h.apply
    · simp [s.fld_setFld_disjoint (hi := 3) (lo := 0) (hi' := 8) (lo' := 8) _ _ (by decide) (by decide) (.inr (by decide))]
    · simpa using State.fld_setBit_same _ _ (by decide) _
  · rw [if_neg (fun k => hb k.1), State.stealPermit, State.fld, writeOwner_reg s ti h a (bankReg_inj ti hb), ← State.fld, ← State.stealPermit]

/-- The owners of a list of banks, written. -/
def writeOwners (s : State) (ti : Nat) (h : Handover) (l : List Nat) : State := l.foldl (fun s b => writeOwner s ti b h) s

theorem writeOwners_tile (l : List Nat) (j : Nat) : (writeOwners s ti h l).tile j = s.tile j := by
  induction l generalizing s with
  | nil => rfl
  | cons a l ih => exact (ih _).trans (writeOwner_tile s ti h a j)

theorem writeOwners_reg (l : List Nat) {a : Nat} (ha : ∀ b ∈ l, a ≠ tileReg ti (Reg.TIL_BANK_OWN + b)) :
    (writeOwners s ti h l).reg a = s.reg a := by
  induction l generalizing s with
  | nil => rfl
  | cons b l ih =>
    exact (ih _ fun c hc => ha c (List.mem_cons_of_mem _ hc)).trans (writeOwner_reg s ti h b (ha b List.mem_cons_self))

theorem writeOwners_bankOwner (l : List Nat) (b : Nat) :
    (writeOwners s ti h l).bankOwner ti b = if b ∈ l then h.owner % 16 else s.bankOwner ti b := by
  induction l generalizing s with
  | nil => simp [writeOwners]
  | cons a l ih =>
    refine (ih (writeOwner s ti a h)).trans ?_
    rw [writeOwner_bankOwner]
    by_cases hb : b ∈ l <;> simp [hb]

theorem writeOwners_stealPermit (l : List Nat) (b : Nat) :
    (writeOwners s ti h l).stealPermit ti b = if b ∈ l ∧ h.apply = true then h.value else s.stealPermit ti b := by
  induction l generalizing s with
  | nil => simp [writeOwners]
  | cons a l ih =>
    refine (ih (writeOwner s ti a h)).trans ?_
    rw [writeOwner_stealPermit]
    by_cases hb : b ∈ l <;> by_cases ha : h.apply = true <;> simp [hb, ha]

end

/-- The mask of a HANDOVER without the banks of a list. -/
def dropBanks (m : BitVec 12) (l : List Nat) : BitVec 12 := l.foldl (fun m b => m &&& ~~~(1#12 <<< b)) m

theorem getLsbD_dropBanks (m : BitVec 12) (l : List Nat) {b : Nat} (hb : b < 12) :
    (dropBanks m l).getLsbD b = (m.getLsbD b && decide (b ∉ l)) := by
  induction l generalizing m with
  | nil => simp [dropBanks]
  | cons a l ih =>
    refine (ih (m &&& ~~~(1#12 <<< a))).trans ?_
    have ha : (~~~(1#12 <<< a)).getLsbD b = decide (b ≠ a) := by
      rw [BitVec.getLsbD_not, BitVec.getLsbD_shiftLeft, BitVec.getLsbD_one]
      by_cases h : b < a
      · simp [hb, h, show b ≠ a by omega]
      · rcases eq_or_ne b a with rfl | h'
        · simp [hb]
        · simp [hb, h, h', show b - a ≠ 0 by omega]
    rw [BitVec.getLsbD_and, ha]
    simp [Bool.and_assoc, not_or]

/-- The banks of a waiting HANDOVER that no earlier command reaches (02 R61). -/
def Tile.freeBanks (t : Tile) (h : Handover) : List Nat := (List.range 12).filter (fun b => h.banks.getLsbD b && !t.reaches b)

theorem Tile.mem_freeBanks (t : Tile) (h : Handover) {b : Nat} (hb : b < 12) :
    b ∈ t.freeBanks h ↔ h.banks.getLsbD b = true ∧ t.reaches b = false := by
  simp [Tile.freeBanks, hb]

/-- The banks left are those that an earlier command reaches. -/
theorem getLsbD_dropBanks_freeBanks (t : Tile) (h : Handover) {b : Nat} (hb : b < 12) :
    (dropBanks h.banks (t.freeBanks h)).getLsbD b = (h.banks.getLsbD b && t.reaches b) := by
  rw [getLsbD_dropBanks _ _ hb]
  cases hm : h.banks.getLsbD b <;> cases hr : t.reaches b <;> simp [t.mem_freeBanks h hb, hm, hr]

/-- No bank is left when no earlier command reaches one that the HANDOVER names. -/
theorem dropBanks_freeBanks_eq_zero (t : Tile) (h : Handover) :
    dropBanks h.banks (t.freeBanks h) = 0 ↔ ∀ b, b < 12 → h.banks.getLsbD b = true → t.reaches b = false := by
  constructor
  · intro h0 b hb hm
    have := getLsbD_dropBanks_freeBanks t h hb
    rw [h0, hm] at this
    simpa using this.symm
  · intro hall
    refine BitVec.eq_of_getLsbD_eq fun b hb => ?_
    rw [getLsbD_dropBanks_freeBanks t h hb, show (0 : BitVec 12).getLsbD b = false from BitVec.getLsbD_zero]
    cases hm : h.banks.getLsbD b
    · rfl
    · simp [hall b hb hm]

theorem exec_bankOwnerWrite {s : State} {ti : Nat} {h : Handover} (hh : (s.tile ti).handover = some h) :
    exec (.bankOwnerWrite ti) s = .next (
      if dropBanks h.banks ((s.tile ti).freeBanks h) = 0 then
        finishCmd ((writeOwners s ti h ((s.tile ti).freeBanks h)).modTile ti (fun t => { t with handover := none })) ti h.setTok
      else (writeOwners s ti h ((s.tile ti).freeBanks h)).modTile ti (fun t =>
        { t with handover := some { h with banks := dropBanks h.banks ((s.tile ti).freeBanks h) } })) := by
  show execBankOwnerWrite ti s = _
  unfold execBankOwnerWrite
  dsimp only
  rw [hh]
  exact (apply_ite Host.Outcome.next ..).symm

end Sys2Proof.Machine

namespace Sys2Proof.Machine

@[simp] theorem State.reg64_modTile (s : State) (ti : Nat) (f : Tile → Tile) (a : Nat) : (s.modTile ti f).reg64 a = s.reg64 a := rfl

theorem State.reg64_congr {s t : State} {a : Nat} (h : t.reg a = s.reg a) (k : t.reg (a + 1) = s.reg (a + 1)) : t.reg64 a = s.reg64 a := by
  rw [State.reg64, h, k, State.reg64]

section
variable {s : State} {ti : Nat} {h : Handover}

/-- The state that writing the free banks of a HANDOVER leaves for its end. -/
theorem bankOwnerWrite_done (hleft : ∀ b, b < 12 → h.banks.getLsbD b = true → (s.tile ti).reaches b = false)
    (hh : (s.tile ti).handover = some h) : exec (.bankOwnerWrite ti) s = .next
      (finishCmd ((writeOwners s ti h ((s.tile ti).freeBanks h)).modTile ti (fun t => { t with handover := none })) ti h.setTok) := by
  rw [exec_bankOwnerWrite hh, if_pos ((dropBanks_freeBanks_eq_zero _ h).2 hleft)]

theorem bankOwnerWrite_waits (hleft : ¬ ∀ b, b < 12 → h.banks.getLsbD b = true → (s.tile ti).reaches b = false)
    (hh : (s.tile ti).handover = some h) : exec (.bankOwnerWrite ti) s = .next
      ((writeOwners s ti h ((s.tile ti).freeBanks h)).modTile ti (fun t =>
        { t with handover := some { h with banks := dropBanks h.banks ((s.tile ti).freeBanks h) } })) := by
  rw [exec_bankOwnerWrite hh, if_neg (fun e => hleft ((dropBanks_freeBanks_eq_zero _ h).1 e))]

theorem finishCmd_bankFld (s : State) (setTok : Nat) {b : Nat} (hb : b < 12) (hi lo : Nat) :
    (finishCmd s ti setTok).fld (tileReg ti (Reg.TIL_BANK_OWN + b)) hi lo = s.fld (tileReg ti (Reg.TIL_BANK_OWN + b)) hi lo := by
  refine finishCmd_fld s ti setTok ?_ ?_ ?_ hi lo
  all_goals unfold Reg.TIL_BANK_OWN
  · unfold Reg.TIL_CMD_COUNT_LO; omega
  · unfold Reg.TIL_CMD_COUNT_HI; omega
  · unfold Reg.TIL_TOKENS; omega

theorem finishCmd_bankOwner (s : State) (setTok : Nat) {b : Nat} (hb : b < 12) :
    (finishCmd s ti setTok).bankOwner ti b = s.bankOwner ti b := finishCmd_bankFld s setTok hb 3 0

theorem finishCmd_stealPermit (s : State) (setTok : Nat) {b : Nat} (hb : b < 12) :
    (finishCmd s ti setTok).stealPermit ti b = s.stealPermit ti b := by
  rw [State.stealPermit, finishCmd_bankFld s setTok hb 8 8, State.stealPermit]

@[simp] theorem State.bankOwner_modTile (s : State) (ti : Nat) (f : Tile → Tile) (j b : Nat) :
    (s.modTile ti f).bankOwner j b = s.bankOwner j b := State.fld_modTile ..

@[simp] theorem State.stealPermit_modTile (s : State) (ti : Nat) (f : Tile → Tile) (j b : Nat) :
    (s.modTile ti f).stealPermit j b = s.stealPermit j b := by
  rw [State.stealPermit, State.fld_modTile, State.stealPermit]

theorem freeBanks_bankOwner {b : Nat} (hb : b < 12) : (writeOwners s ti h ((s.tile ti).freeBanks h)).bankOwner ti b =
    if h.banks.getLsbD b = true ∧ (s.tile ti).reaches b = false then h.owner % 16 else s.bankOwner ti b := by
  rw [writeOwners_bankOwner]
  exact if_congr ((s.tile ti).mem_freeBanks h hb) rfl rfl

theorem freeBanks_stealPermit {b : Nat} (hb : b < 12) : (writeOwners s ti h ((s.tile ti).freeBanks h)).stealPermit ti b =
    if h.banks.getLsbD b = true ∧ (s.tile ti).reaches b = false ∧ h.apply = true then h.value else s.stealPermit ti b := by
  rw [writeOwners_stealPermit]
  exact if_congr (by rw [(s.tile ti).mem_freeBanks h hb, and_assoc]) rfl rfl

/-- The registers of a tile that are no bank's are left. -/
theorem freeBanks_reg {off : Nat} (ho : off < Reg.TIL_BANK_OWN ∨ Reg.TIL_BANK_OWN + 12 ≤ off) :
    (writeOwners s ti h ((s.tile ti).freeBanks h)).reg (tileReg ti off) = s.reg (tileReg ti off) := by
  refine writeOwners_reg s ti h _ fun b hb => tileReg_inj ti ?_
  have : b < 12 := List.mem_range.1 (List.mem_of_mem_filter hb)
  omega

end

/-- BANK_OWNER_WRITE on a waiting HANDOVER (02 R61). -/
theorem bankOwnerWrite_writes (s : State) (ti : Nat) (h : Handover) (hh : (s.tile ti).handover = some h) :
    ∃ t, exec (.bankOwnerWrite ti) s = .next t ∧
      (∀ b, b < 12 → t.bankOwner ti b =
        if h.banks.getLsbD b = true ∧ (s.tile ti).reaches b = false then h.owner % 16 else s.bankOwner ti b) ∧
      (∀ b, b < 12 → t.stealPermit ti b =
        if h.banks.getLsbD b = true ∧ (s.tile ti).reaches b = false ∧ h.apply = true then h.value else s.stealPermit ti b) ∧
      ((∀ b, b < 12 → h.banks.getLsbD b = true → (s.tile ti).reaches b = false) →
        (t.tile ti).handover = none ∧
        t.reg64 (tileReg ti Reg.TIL_CMD_COUNT_LO) = (s.reg64 (tileReg ti Reg.TIL_CMD_COUNT_LO) + 1) % 2 ^ 64 ∧
        (128 ≤ h.setTok → (t.tokens ti).testBit (h.setTok % 16) = true)) ∧
      ((∃ b, b < 12 ∧ h.banks.getLsbD b = true ∧ (s.tile ti).reaches b = true) →
        ∃ g, (t.tile ti).handover = some g ∧ ∀ b, b < 12 → g.banks.getLsbD b = (h.banks.getLsbD b && (s.tile ti).reaches b)) ∧
      (t.tile ti).queue = (s.tile ti).queue := by
  by_cases hleft : ∀ b, b < 12 → h.banks.getLsbD b = true → (s.tile ti).reaches b = false
  · refine ⟨_, bankOwnerWrite_done hleft hh, fun b hb => ?_, fun b hb => ?_, fun _ => ⟨?_, ?_, finishCmd_token _ ti⟩, fun ⟨b, hb, hm, hr⟩ => ?_, ?_⟩
    · rw [finishCmd_bankOwner _ _ hb, State.bankOwner_modTile, freeBanks_bankOwner hb]
    · rw [finishCmd_stealPermit _ _ hb, State.stealPermit_modTile, freeBanks_stealPermit hb]
    · obtain ⟨l, hl⟩ := finishCmd_tile ((writeOwners s ti h ((s.tile ti).freeBanks h)).modTile ti _) ti h.setTok ti
      rw [hl, State.tile_modTile_same]
    · have hlo := freeBanks_reg (s := s) (ti := ti) (h := h) (off := Reg.TIL_CMD_COUNT_LO) (by decide)
      have hhi := freeBanks_reg (s := s) (ti := ti) (h := h) (off := Reg.TIL_CMD_COUNT_HI) (by decide)
      rw [finishCmd_count, State.reg64_modTile, State.reg64_congr hlo hhi]
    · exact absurd (hleft b hb hm) (by simp [hr])
    · obtain ⟨l, hl⟩ := finishCmd_tile ((writeOwners s ti h ((s.tile ti).freeBanks h)).modTile ti _) ti h.setTok ti
      rw [hl, State.tile_modTile_same, writeOwners_tile]
  · refine ⟨_, bankOwnerWrite_waits hleft hh, fun b hb => ?_, fun b hb => ?_, fun k => absurd k hleft,
      fun _ => ⟨{ h with banks := dropBanks h.banks ((s.tile ti).freeBanks h) }, ?_, fun b hb => ?_⟩, ?_⟩
    · rw [State.bankOwner_modTile, freeBanks_bankOwner hb]
    · rw [State.stealPermit_modTile, freeBanks_stealPermit hb]
    · rw [State.tile_modTile_same]
    · exact getLsbD_dropBanks_freeBanks _ h hb
    · rw [State.tile_modTile_same, writeOwners_tile]

/-! ### The issue of a HANDOVER -/

@[simp] theorem State.tile_sendAll (s : State) (ps : List Packet) (j : Nat) : (s.sendAll ps).tile j = s.tile j := rfl

theorem noteSlot_handover (t : Tile) (c : BitVec 512) (serial : Nat) (inPlace inexact : Bool) :
    (noteSlot t c serial inPlace inexact).handover = t.handover := rfl

/-- Queueing a command that is not refused leaves the HANDOVER of the tile. -/
theorem enqueue_handover (s : State) (ti : Nat) (c : BitVec 512) (e : QEntry) (inexact : Bool) (ps : List Packet) :
    ((enqueue s ti c e inexact false ps).tile ti).handover = (s.tile ti).handover := by
  obtain ⟨l, hl⟩ := reportSlots_tile (State.sendAll (s.modTile ti (fun t =>
    noteSlot { t with queue := t.queue ++ [e] } c e.serial e.inPlace inexact)) ps) ti ti
  unfold enqueue
  dsimp only
  rw [if_neg Bool.false_ne_true, hl]
  dsimp only
  rw [State.tile_sendAll, State.tile_modTile_same, noteSlot_handover]

/-- The HANDOVER that the bytes of a command name. -/
def handoverOf (b : BitVec 512) (serial vaddr : Nat) : Handover :=
  ⟨serial, vaddr, cSlot b, cFlags b, cSet b, BitVec.ofNat 12 (cf b 8 2), cf b 10 1 % 16, bitOf (cf b 11 1) 1, bitOf (cf b 11 1) 0⟩

/-- The work of a HANDOVER is to wait in the tile. -/
def handoverWork (ti : Nat) (s0 : State) (b : BitVec 512) : Work :=
  { Work.none with
    refused := false
    after := fun s => s.modTile ti (fun t => { t with handover := some (handoverOf b (s0.tile ti).serial t.pc) }) }

theorem handoverWork_after (ti : Nat) (s0 x : State) (b : BitVec 512) : (handoverWork ti s0 b).after x =
    x.modTile ti (fun t => { t with handover := some (handoverOf b (s0.tile ti).serial t.pc) }) := rfl

theorem handoverWork_aside (ti : Nat) (s0 : State) (b : BitVec 512) : AfterAside (.ok (handoverWork ti s0 b)) := by
  refine .ok fun x => ?_
  rw [handoverWork_after]
  exact .modTile (.refl x)

theorem exec_handover (c : TileCmd) (s : State) : exec (.handover c) s =
    .next (execHandover.dropSeq c.ti (s.tile c.ti).serial c.bits (issueCmd s c 0x10 (fun s0 b => .ok (handoverWork c.ti s0 b)))) := rfl

section
variable {s : State} {c : TileCmd}

theorem State.Takes.handover_issued (h : s.Takes c 0x10) : s.Issued (issueCmd s c 0x10 (fun s0 b => .ok (handoverWork c.ti s0 b))) c
    (handoverWork c.ti (s.issueView c) ((s.tile c.ti).effective c.bits)) :=
  h.issues rfl (handoverWork_aside ..)

theorem State.Takes.handover_set (h : s.Takes c 0x10) : ∃ x y,
    ((issueCmd s c 0x10 (fun s0 b => .ok (handoverWork c.ti s0 b))).tile c.ti).handover =
      some (handoverOf ((s.tile c.ti).effective c.bits) x y) := by
  obtain ⟨e, inexact, ps, heq, -⟩ := h.enqueues (work := fun s0 b => .ok (handoverWork c.ti s0 b)) rfl
  refine ⟨((s.issueView c).tile c.ti).serial,
    ((s.beforeIssue c (handoverWork c.ti (s.issueView c) ((s.tile c.ti).effective c.bits))).tile c.ti).pc, ?_⟩
  rw [heq]
  refine (enqueue_handover ..).trans ?_
  rw [passIssue_tile, if_pos rfl, handoverWork_after, State.tile_modTile_same]

/-- A HANDOVER that the sequencer takes waits at the issue point, and is in no queue. -/
theorem State.Takes.handover (h : s.Takes c 0x10) :
    ∃ t x y, exec (.handover c) s = .next t ∧ (t.tile c.ti).handover = some (handoverOf ((s.tile c.ti).effective c.bits) x y) ∧
      (t.tile c.ti).pc = (s.tile c.ti).pc + 64 ∧ ∀ e ∈ (t.tile c.ti).queue, e ∈ (s.tile c.ti).queue := by
  have hcls : cClass c.bits = 0x10 := (cClass_effective _ _).symm.trans h.ofClass
  have hissued := h.handover_issued
  obtain ⟨x, y, hset⟩ := h.handover_set
  rw [exec_handover, execHandover.dropSeq, if_pos hcls]
  refine ⟨_, x, y, rfl, ?_, ?_, fun x hx => ?_⟩
  · rw [State.tile_modTile_same]
    exact hset
  · rw [State.tile_modTile_same]
    exact hissued.pc
  · rw [State.tile_modTile_same] at hx
    obtain ⟨f, hq, hserial, -, hf, -⟩ := hissued.queued
    obtain ⟨hm, hne⟩ := List.mem_filter.1 hx
    rw [hq, List.mem_append, List.mem_singleton] at hm
    refine hm.resolve_right fun hxf => ?_
    rw [hxf, hserial, hf, h.ofClass] at hne
    simp at hne

end

/-- Settles O17: the HANDOVER waits with what its bytes name, and BANK_OWNER_WRITE writes the banks that are free. -/
theorem handoverWritesOwners : Obligations.HandoverWritesOwners := by
  refine ⟨fun s c h => ?_, bankOwnerWrite_writes⟩
  obtain ⟨t, x, y, ht, hw, hpc, hq⟩ := h.handover
  refine ⟨t, _, ht, hw, ?_, ?_, ?_, ?_, ?_, hpc, ?_, hq⟩
  · exact congrArg (BitVec.ofNat 12) (cf_effective _ _ (.inr (by decide)))
  · exact congrArg (· % 16) (cf_effective _ _ (.inr (by decide)))
  · exact congrArg (bitOf · 1) (cf_effective _ _ (.inr (by decide)))
  · exact congrArg (bitOf · 0) (cf_effective _ _ (.inr (by decide)))
  · exact cSet_effective _ _
  · simp [State.canIssue, hw]

end Sys2Proof.Machine

namespace Sys2Proof.Machine

/-! ## END (02 R46, R47, R83) -/

/-- What decode finds wrong with an END does not depend on its relocated slot. -/
theorem decodeCause_effective_end (t : Tile) {c : BitVec 512} (h : cClass c = 0x1F) : decodeCause (t.effective c) = decodeCause c := by
  have hbody : zeroBytes (t.effective c) 8 56 = zeroBytes c 8 56 := by
    unfold zeroBytes
    rw [cf_effective t c (.inr le_rfl)]
  have hres : reservedNonzero (t.effective c) = reservedNonzero c := by
    simp [reservedNonzero, h, reservedBytes, partBits, hasStore, hbody]
  have hfields : fieldsOk (t.effective c) = fieldsOk c := by simp [fieldsOk, h]
  simp only [decodeCause, cClass_effective, hres, hfields]

/-- An END holds while an earlier command runs. -/
theorem exec_end_holds {s : State} {c : TileCmd} (h : s.Takes c 0x1F) (hl : (s.tile c.ti).live ≠ []) :
    exec (.end_ c) s = .next (s.setFld (tileReg c.ti Reg.TIL_STATUS) 23 16 (cSlot ((s.tile c.ti).effective c.bits))) := by
  have hcls : cClass c.bits = 0x1F := (cClass_effective _ _).symm.trans h.ofClass
  have hdec : decodeCause c.bits = none := (decodeCause_effective_end (s.tile c.ti) hcls).symm.trans h.decodes
  show execEnd c s = _
  unfold execEnd
  exact if_pos (by simp [h.runs, hcls, h.fetch, h.clean, hdec, hl])

section
variable (s : State) (ti : Nat)

/-- The first segment leaves its tile, which stands at the entry of the next one. -/
theorem nextSegment_tile : ∃ p, (nextSegment s ti).tile ti = { s.tile ti with segs := (s.tile ti).segs.drop 1, pc := p } ∧
    ∀ g r, (s.tile ti).segs.drop 1 = g :: r → p = g.entry := by
  cases hr : (s.tile ti).segs.drop 1 with
  | nil =>
    refine ⟨(s.tile ti).pc, ?_, fun _ _ h => nomatch h⟩
    simp only [nextSegment, hr, List.isEmpty_nil, if_true]
    rw [State.setTilState, State.tile_setFld, State.tile_setFld, State.setTokens, State.tile_setFld, State.tile_setTile_same]
  | cons g r =>
    refine ⟨g.entry, ?_, fun _ _ h => by cases h; rfl⟩
    simp only [nextSegment, hr, List.isEmpty_cons, Bool.false_eq_true, if_false]
    rw [State.tile_setFld, State.setTokens, State.tile_setFld, State.tile_setTile_same]

/-- Moving on writes the tokens and the status of the tile alone. -/
theorem nextSegment_reg {off : Nat} (h1 : off ≠ Reg.TIL_TOKENS) (h2 : off ≠ Reg.TIL_STATUS) :
    (nextSegment s ti).reg (tileReg ti off) = s.reg (tileReg ti off) := by
  have hx (x : State) (v n : Nat) : ((x.setTokens ti v).setFld (tileReg ti Reg.TIL_STATUS) 13 8 n).reg (tileReg ti off) = x.reg (tileReg ti off) := by
    rw [State.reg_setFld_ne _ _ _ _ (tileReg_inj ti h2), State.setTokens, State.reg_setFld_ne _ _ _ _ (tileReg_inj ti h1)]
  unfold nextSegment
  dsimp only
  split
  · rw [State.setTilState, State.reg_setFld_ne _ _ _ _ (tileReg_inj ti h2), hx, State.reg_setTile]
  · rw [hx, State.reg_setTile]

theorem nextSegment_tokens : (nextSegment s ti).tokens ti = 0 := by
  have hx (x : State) (n : Nat) : ((x.setTokens ti 0).setFld (tileReg ti Reg.TIL_STATUS) 13 8 n).fld (tileReg ti Reg.TIL_TOKENS) 15 0 = 0 := by
    rw [State.fld_setFld_ne _ _ _ _ _ _ (tileReg_inj ti (by decide)), State.setTokens, State.fld_setFld_same _ _ _ (by decide) (by decide)]
    rfl
  unfold nextSegment State.tokens
  dsimp only
  split
  · rw [State.setTilState, State.fld_setFld_ne _ _ _ _ _ _ (tileReg_inj ti (by decide)), hx]
  · rw [hx]

/-- After the last segment the tile is IDLE (02 R83). -/
theorem nextSegment_tilState : (nextSegment s ti).tilState ti = if (s.tile ti).segs.drop 1 = [] then tilIdle else s.tilState ti := by
  unfold nextSegment State.tilState State.setTilState
  dsimp only
  simp only [List.isEmpty_iff]
  split
  · exact State.fld_setFld_same _ _ _ (by decide) (by decide)
  · rw [State.fld_setFld_disjoint _ _ _ (by decide) (by decide) (by decide), State.setTokens,
      State.fld_setFld_ne _ _ _ _ _ _ (tileReg_inj ti (by decide)), State.fld_setTile]

end

section
variable {s : State} {c : TileCmd}

/-- The state in which an END that the sequencer takes stands in the queue. -/
def State.endIssued (s : State) (c : TileCmd) : State := issueCmd s c 0x1F (fun _ _ => .ok Work.none)

theorem State.Takes.endIssued (h : s.Takes c 0x1F) : s.Issued (s.endIssued c) c Work.none := h.issues rfl .idle

/-- But for its entry, the END and its position, the tile and its registers are as before. -/
theorem State.Takes.endIssued_frame (h : s.Takes c 0x1F) : ((s.endIssued c).tile c.ti).segs = (s.tile c.ti).segs ∧
    (s.endIssued c).tilState c.ti = s.tilState c.ti ∧
    (s.endIssued c).reg64 (tileReg c.ti Reg.TIL_CMD_COUNT_LO) = s.reg64 (tileReg c.ti Reg.TIL_CMD_COUNT_LO) := by
  obtain ⟨e, inexact, ps, heq, -⟩ := h.enqueues (work := fun _ _ => .ok Work.none) rfl
  have hb := s.beforeIssue_aside c Work.none
  have hreg {off : Nat} (ho : off < 0x200) (h1 : off ≠ Reg.TIL_TOKENS) (h2 : off ≠ Reg.TIL_STATUS) :
      (s.endIssued c).reg (tileReg c.ti off) = s.reg (tileReg c.ti off) := by
    rw [State.endIssued, heq, (enqueue_aside ..).regs _ (seqReg_tileReg _ ho), State.reg_modTile,
      passIssue_reg _ _ _ (tileReg_inj _ h1) (tileReg_inj _ h2)]
    exact hb.regs _ (seqReg_tileReg _ ho)
  refine ⟨?_, ?_, State.reg64_congr (hreg (by decide) (by decide) (by decide)) (hreg (off := Reg.TIL_CMD_COUNT_HI) (by decide) (by decide) (by decide))⟩
  · rw [State.endIssued, heq, (enqueue_aside ..).segs, State.tile_modTile_same, passIssue_tile, if_pos rfl]
    exact hb.segs c.ti
  · rw [State.endIssued, heq, State.tilState, (enqueue_aside ..).fld _ (by decide), State.fld_modTile]
    exact (passIssue_tilState ..).trans (hb.fld _ (by decide) 2 0)

/-- The END has completed and left the queue. -/
def State.ended (s : State) (c : TileCmd) (setTok : Nat) : State :=
  finishCmd ((s.endIssued c).modTile c.ti (fun t => { t with queue := t.queue.filter (fun x => x.serial ≠ (s.tile c.ti).serial) })) c.ti setTok

/-- An END with every earlier command complete completes and moves its tile on. -/
theorem exec_end_moves (h : s.Takes c 0x1F) (hl : (s.tile c.ti).live = []) :
    ∃ setTok, exec (.end_ c) s = .next (nextSegment (s.ended c setTok) c.ti) := by
  obtain ⟨e, hq, hserial, -⟩ := h.endIssued.queued
  have hfound : (((s.endIssued c).tile c.ti).entry? (s.tile c.ti).serial).isSome = true := by
    rw [Tile.entry?, List.find?_isSome]
    exact ⟨e, hq ▸ List.mem_append_right _ (List.mem_singleton_self e), by simpa using hserial⟩
  obtain ⟨f, hf⟩ := Option.isSome_iff_exists.1 hfound
  refine ⟨f.setTok, ?_⟩
  show execEnd c s = _
  unfold execEnd
  rw [if_neg (by simp [hl])]
  unfold State.endIssued at hf
  dsimp only
  rw [hf]
  rfl

section
variable (h : s.Takes c 0x1F) (setTok : Nat)
include h

theorem State.Takes.ended_segs : ((s.ended c setTok).tile c.ti).segs = (s.tile c.ti).segs := by
  obtain ⟨l, hl⟩ := finishCmd_tile ((s.endIssued c).modTile c.ti _) c.ti setTok c.ti
  rw [State.ended, hl, State.tile_modTile_same]
  exact h.endIssued_frame.1

theorem State.Takes.ended_queue :
    ((s.ended c setTok).tile c.ti).queue = (s.tile c.ti).queue.filter (fun e => e.serial ≠ (s.tile c.ti).serial) := by
  obtain ⟨l, hl⟩ := finishCmd_tile ((s.endIssued c).modTile c.ti _) c.ti setTok c.ti
  obtain ⟨f, hq, hserial, -⟩ := h.endIssued.queued
  rw [State.ended, hl, State.tile_modTile_same]
  dsimp only
  rw [hq, List.filter_append, List.filter_singleton]
  simp [hserial]

theorem State.Takes.ended_tilState : (s.ended c setTok).tilState c.ti = tilRunning := by
  have hruns := h.runs
  simp only [State.canIssue, Bool.and_eq_true, decide_eq_true_eq] at hruns
  obtain ⟨⟨⟨-, hrunning⟩, -⟩, -⟩ := hruns
  rw [State.ended, State.tilState, finishCmd_fld _ _ _ (by decide) (by decide) (by decide), State.fld_modTile, ← State.tilState,
    h.endIssued_frame.2.1, hrunning]

theorem State.Takes.ended_count : (s.ended c setTok).reg64 (tileReg c.ti Reg.TIL_CMD_COUNT_LO) =
    (s.reg64 (tileReg c.ti Reg.TIL_CMD_COUNT_LO) + 1) % 2 ^ 64 := by
  rw [State.ended, finishCmd_count, State.reg64_modTile, h.endIssued_frame.2.2]

end

end

/-- Settles O18: an END holds, or completes and moves its tile on. -/
theorem endStartsTheNextSegment : Obligations.EndStartsTheNextSegment := by
  refine ⟨fun s c h hl => ?_, fun s c h hl => ⟨_, exec_end_holds h hl, s.setReg_regsOnly (List.mem_singleton_self _)⟩⟩
  obtain ⟨setTok, heq⟩ := exec_end_moves h hl
  obtain ⟨p, hp, hentry⟩ := nextSegment_tile (s.ended c setTok) c.ti
  have hstate := nextSegment_tilState (s.ended c setTok) c.ti
  have hcount := State.reg64_congr (nextSegment_reg (s.ended c setTok) c.ti (off := Reg.TIL_CMD_COUNT_LO) (by decide) (by decide))
    (nextSegment_reg (s.ended c setTok) c.ti (off := Reg.TIL_CMD_COUNT_HI) (by decide) (by decide))
  rw [h.ended_segs, h.ended_tilState] at hstate
  rw [h.ended_segs] at hp hentry
  refine ⟨_, heq, by rw [hp], nextSegment_tokens .., fun g r hg => ⟨by rw [hp, hentry g r hg], ?_⟩, fun hn => ?_,
    hcount.trans (h.ended_count setTok), by rw [hp]; exact h.ended_queue setTok⟩
  · rw [hstate, hg, if_neg (List.cons_ne_nil g r)]
  · rw [hstate, if_pos hn]

end Sys2Proof.Machine

namespace Sys2Proof.Machine

/-! ## Words written to SRAM (02 R45, 09 R263, R268) -/

/-- A coded word reads clean at its own address. -/
theorem sramDecode_sramEncode (d : BitVec 64) (w : Nat) : sramDecode (sramEncode d w) w = (.clean, d) := by
  have hd : (sramEncode d w).extractLsb' 0 64 = d := by
    unfold sramEncode
    exact BitVec.extractLsb'_append_eq_right
  have hc : (sramEncode d w).extractLsb' 64 8 = sramCheck d w false := by
    unfold sramEncode
    exact BitVec.extractLsb'_append_eq_left
  have hs : sramSyndrome (sramEncode d w) w = 0 := by
    rw [sramSyndrome, hd, hc, BitVec.xor_self]
    rfl
  unfold sramDecode
  dsimp only
  rw [hs, hd]
  rfl

section
variable (t : Tile) (ti : Nat) (x : SramWrite)

/-- A word write touches the SRAM alone. -/
theorem Tile.writeWord_frame : ∃ c, t.writeWord ti x = { t with sram := SMap.put t.sram x.word c } := by
  unfold Tile.writeWord
  dsimp only
  split_ifs
  all_goals exact ⟨_, rfl⟩

theorem Tile.raw_put (c : BitVec 72) (w : Nat) (l : SMap Bool) :
    ({ t with sram := SMap.put t.sram x.word c, written := l } : Tile).raw ti w = if w = x.word then c else t.raw ti w := by
  unfold Tile.raw
  dsimp only
  rw [SMap.get?_put]
  by_cases h : w = x.word
  · rw [if_pos h, if_pos h]
  · rw [if_neg h, if_neg h]

theorem Tile.writeWord_raw {w : Nat} (h : w ≠ x.word) : (t.writeWord ti x).raw ti w = t.raw ti w := by
  obtain ⟨c, hc⟩ := t.writeWord_frame ti x
  rw [hc]
  exact (t.raw_put ti x c w _).trans (if_neg h)

/-- Words written through the write port change no other word. -/
theorem Tile.writeWords_raw (ws : List SramWrite) {w : Nat} (h : w ∉ ws.map SramWrite.word) : (t.writeWords ti ws).raw ti w = t.raw ti w := by
  have hfold : (ws.foldl (fun t x => t.writeWord ti x) t).raw ti w = t.raw ti w := by
    induction ws generalizing t with
    | nil => rfl
    | cons x ws ih =>
      rw [List.map_cons, List.mem_cons, not_or] at h
      exact (ih _ h.2).trans (t.writeWord_raw ti x h.1)
  exact hfold

/-- A whole word written reads back clean. -/
theorem Tile.writeWords_readWord (hp : x.poison = false) (hm : x.mask = BitVec.allOnes 64) :
    (t.writeWords ti [x]).readWord ti x.word = (.clean, x.data) := by
  have hw : t.writeWord ti x = { t with sram := SMap.put t.sram x.word (sramEncode x.data x.word) } := by
    rw [Tile.writeWord, if_neg (by simp [hp]), if_pos hm]
  have hraw : (t.writeWords ti [x]).raw ti x.word = sramEncode x.data x.word := by
    unfold Tile.writeWords
    rw [List.foldl_cons, List.foldl_nil, hw]
    exact (t.raw_put ti x _ _ _).trans (if_pos rfl)
  rw [Tile.readWord, hraw, sramDecode_sramEncode]

end

/-- The write port of a tile touches its SRAM and its written flags alone. -/
theorem Tile.writeWords_frame (t : Tile) (ti : Nat) (ws : List SramWrite) :
    ∃ m l, t.writeWords ti ws = { t with sram := m, written := l } := by
  have hfold : ∃ m, ws.foldl (fun t x => t.writeWord ti x) t = { t with sram := m } := by
    induction ws generalizing t with
    | nil => exact ⟨_, rfl⟩
    | cons x ws ih =>
      obtain ⟨c, hc⟩ := t.writeWord_frame ti x
      obtain ⟨m, hm⟩ := ih (t.writeWord ti x)
      exact ⟨m, by rw [List.foldl_cons, hm, hc]⟩
  obtain ⟨m, hm⟩ := hfold
  unfold Tile.writeWords
  rw [hm]
  exact ⟨_, _, rfl⟩

/-- Nothing written leaves the tile's words. -/
theorem writeSram_raw (s : State) (ti : Nat) (ws : List SramWrite) {w : Nat} (h : w ∉ ws.map SramWrite.word) :
    ((writeSram s ti ws).tile ti).raw ti w = (s.tile ti).raw ti w := by
  unfold writeSram
  split
  · rfl
  · rw [State.tile_modTile_same]
    exact (s.tile ti).writeWords_raw ti ws h

theorem writeSram_frame (s : State) (ti : Nat) (ws : List SramWrite) :
    ∃ m l, (writeSram s ti ws).tile ti = { s.tile ti with sram := m, written := l } := by
  unfold writeSram
  split
  · exact ⟨_, _, rfl⟩
  · rw [State.tile_modTile_same]
    exact (s.tile ti).writeWords_frame ti ws

@[simp] theorem writeSram_reg (s : State) (ti : Nat) (ws : List SramWrite) (a : Nat) : (writeSram s ti ws).reg a = s.reg a := by
  unfold writeSram
  split <;> rfl

@[simp] theorem writeSram_mesh (s : State) (ti : Nat) (ws : List SramWrite) : (writeSram s ti ws).mesh = s.mesh := by
  unfold writeSram
  split <;> rfl

/-! ## COMMAND_COMPLETE (02 R45, R46, R73) -/

theorem Tile.recvCount_putRecv (t : Tile) (src : Nat) (fab : Option Nat) (chan n : Nat) :
    (t.putRecv src fab chan n).recvCount src fab chan = n := by
  simp [Tile.putRecv, Tile.recvCount]

/-- A side-band record goes to registers 0x200 and up. -/
theorem writeSideband_aside (s : State) (ti record : Nat) {head ring : Nat} (hh : 0x200 ≤ head ∧ head < 0x1000)
    (hr : 0x200 ≤ ring ∧ ring + 256 ≤ 0x1000) : s.Aside (writeSideband s ti head ring record) := by
  unfold writeSideband
  extract_lets n wrapped s1 s2
  have hn : n < 32 := getBits_lt _ 4 0
  have h1 : s.Aside s1 := (State.Aside.refl s).foldl fun x i hi => by
    have hi8 := List.mem_range.1 hi
    exact .setTileReg (.refl x) ⟨by omega, by omega⟩
  have h2 : s.Aside s2 := .ite (h1.setTileFld hh) h1
  exact h2.setTileFld hh

theorem writeSideband_tiles (s : State) (ti head ring record : Nat) : (writeSideband s ti head ring record).tiles = s.tiles := by
  unfold writeSideband
  extract_lets n wrapped s1 s2
  have h1 : s1.tiles = s.tiles := List.foldlRecOn (motive := fun x : State => x.tiles = s.tiles) _ _ rfl fun _ hx _ _ => hx
  rw [State.setFld_tiles]
  unfold s2
  split
  · rw [State.setFld_tiles, h1]
  · exact h1

theorem State.takeFree_tiles (s : State) : s.takeFree.2.tiles = s.tiles := rfl

theorem State.takeFree_aside (s : State) : s.Aside s.takeFree.2 := .upd (.refl s)

/-- The completion of an array command writes its registers and free values alone. -/
theorem finishArray_aside (s : State) (ti cls slot flags : Nat) (a : ArrayInfo) :
    s.Aside (finishArray s ti cls slot flags a) ∧ (finishArray s ti cls slot flags a).tiles = s.tiles := by
  unfold finishArray
  extract_lets f1 f2 f3 bump s1
  have hf : s.Aside f3.2 := (s.takeFree_aside.trans f1.2.takeFree_aside).trans f2.2.takeFree_aside
  have h1 : s.Aside s1 := .setTileReg64 (.setTileReg64 (.setTileReg64 (.setTileReg64 hf)))
  have t1 : s1.tiles = s.tiles := by
    unfold s1 bump
    rw [State.setReg64_tiles, State.setReg64_tiles, State.setReg64_tiles, State.setReg64_tiles, State.takeFree_tiles,
      State.takeFree_tiles, State.takeFree_tiles]
  split
  · exact ⟨h1.trans (writeSideband_aside _ _ _ (by decide) (by decide)), (writeSideband_tiles ..).trans t1⟩
  · exact ⟨h1, t1⟩

theorem finishAttn_aside (s : State) (ti cls slot flags : Nat) (a : AttnInfo) :
    s.Aside (finishAttn s ti cls slot flags a) ∧ (finishAttn s ti cls slot flags a).tiles = s.tiles := by
  unfold finishAttn
  split
  · exact ⟨writeSideband_aside _ _ _ (by decide) (by decide), writeSideband_tiles ..⟩
  · exact ⟨.refl s, rfl⟩

/-- What a unit adds at completion but for the count of a RECV. -/
def finishRecords (s : State) (ti : Nat) (e : QEntry) : State :=
  let s := e.array.elim s (finishArray s ti e.cls e.slot e.flags)
  e.attn.elim s (finishAttn s ti e.cls e.slot e.flags)

theorem finishRecords_aside (s : State) (ti : Nat) (e : QEntry) :
    s.Aside (finishRecords s ti e) ∧ (finishRecords s ti e).tiles = s.tiles := by
  have harray : s.Aside (e.array.elim s (finishArray s ti e.cls e.slot e.flags)) ∧
      (e.array.elim s (finishArray s ti e.cls e.slot e.flags)).tiles = s.tiles := by
    cases e.array with
    | none => exact ⟨.refl s, rfl⟩
    | some a => exact finishArray_aside s ti _ _ _ a
  unfold finishRecords
  cases e.attn with
  | none => exact harray
  | some a =>
    obtain ⟨ha, ht⟩ := finishAttn_aside (e.array.elim s (finishArray s ti e.cls e.slot e.flags)) ti e.cls e.slot e.flags a
    exact ⟨harray.1.trans ha, ht.trans harray.2⟩

theorem finishUnit_recv {e : QEntry} {src chan len : Nat} {fab : Option Nat} (s : State) (ti : Nat) (h : e.waits = .recv src fab chan len) :
    finishUnit s ti e =
      (finishRecords s ti e).modTile ti (fun t => t.putRecv src fab chan (t.recvCount src fab chan - len)) := by
  unfold finishUnit finishRecords
  rw [h]
  cases e.array <;> cases e.attn <;> rfl

theorem finishUnit_other {e : QEntry} (s : State) (ti : Nat) (h : ∀ src fab chan len, e.waits ≠ .recv src fab chan len) :
    finishUnit s ti e = finishRecords s ti e := by
  unfold finishUnit finishRecords
  cases hw : e.waits with
  | recv src fab chan len => exact absurd hw (h _ _ _ _)
  | none => cases e.array <;> cases e.attn <;> rfl
  | reads n => cases e.array <;> cases e.attn <;> rfl
  | sync w => cases e.array <;> cases e.attn <;> rfl
  | ibu f l b => cases e.array <;> cases e.attn <;> rfl

/-- A unit's completion leaves the sequencer, and of the tile all but the counts of a RECV. -/
theorem finishUnit_frame (s : State) (ti : Nat) (e : QEntry) :
    s.Aside (finishUnit s ti e) ∧ ∃ l, (finishUnit s ti e).tile ti = { s.tile ti with recv := l } := by
  obtain ⟨ha, ht⟩ := finishRecords_aside s ti e
  have htile : (finishRecords s ti e).tile ti = s.tile ti := by
    unfold State.tile
    rw [ht]
  by_cases h : ∃ src fab chan len, e.waits = .recv src fab chan len
  · obtain ⟨src, fab, chan, len, hw⟩ := h
    rw [finishUnit_recv s ti hw]
    exact ⟨ha.modTile, _, by rw [State.tile_modTile_same, htile]; rfl⟩
  · rw [finishUnit_other s ti fun _ _ _ _ hw => h ⟨_, _, _, _, hw⟩]
    exact ⟨ha, _, htile⟩

/-- The state after the oldest command of a unit has completed (02 R45). -/
def State.completed (s : State) (ti : Nat) (e : QEntry) : State :=
  finishUnit (finishCmd ((writeSram s ti e.swrites).modTile ti (fun t =>
    { t with queue := t.queue.filter (fun x => x.serial ≠ e.serial) })) ti e.setTok) ti e

theorem exec_commandComplete {s : State} {ti : Nat} {u : UnitId} {e : QEntry} (h : (s.tile ti).readyHead u = some e)
    (hf : e.cls = 0x03 → foreignWord s ti (raeOwner u) e.swrites = none) : exec (.commandComplete ti u) s = .next (s.completed ti e) := by
  have hnone : (if e.cls = 0x03 then foreignWord s ti (raeOwner u) e.swrites else none) = none := by
    split
    · exact hf ‹_›
    · rfl
  show execCommandComplete ti u s = _
  unfold execCommandComplete
  dsimp only
  rw [h]
  dsimp only
  rw [hnone]
  rfl

section
variable (s : State) (ti : Nat) (e : QEntry)

/-- The tile of a completed command: its entry gone, its words written. -/
theorem State.completed_tile : ∃ r l, (s.completed ti e).tile ti = { (writeSram s ti e.swrites).tile ti with
    queue := (s.tile ti).queue.filter (fun x => x.serial ≠ e.serial), recv := r, slots := l } := by
  obtain ⟨m, w, hw⟩ := writeSram_frame s ti e.swrites
  obtain ⟨l, hl⟩ := finishCmd_tile ((writeSram s ti e.swrites).modTile ti _) ti e.setTok ti
  obtain ⟨-, r, hr⟩ := finishUnit_frame (finishCmd ((writeSram s ti e.swrites).modTile ti (fun t =>
    { t with queue := t.queue.filter (fun x => x.serial ≠ e.serial) })) ti e.setTok) ti e
  refine ⟨r, l, ?_⟩
  rw [State.completed, hr, hl, State.tile_modTile_same, hw]

theorem State.completed_count : (s.completed ti e).reg64 (tileReg ti Reg.TIL_CMD_COUNT_LO) =
    (s.reg64 (tileReg ti Reg.TIL_CMD_COUNT_LO) + 1) % 2 ^ 64 := by
  obtain ⟨ha, -⟩ := finishUnit_frame (finishCmd ((writeSram s ti e.swrites).modTile ti (fun t =>
    { t with queue := t.queue.filter (fun x => x.serial ≠ e.serial) })) ti e.setTok) ti e
  have hlo := ha.regs _ (seqReg_tileReg ti (off := Reg.TIL_CMD_COUNT_LO) (by decide))
  have hhi := ha.regs _ (seqReg_tileReg ti (off := Reg.TIL_CMD_COUNT_HI) (by decide))
  rw [State.completed]
  refine (State.reg64_congr hlo hhi).trans ?_
  rw [finishCmd_count, State.reg64_modTile, State.reg64_congr (writeSram_reg ..) (writeSram_reg ..)]

theorem State.completed_token (h : 128 ≤ e.setTok) : ((s.completed ti e).tokens ti).testBit (e.setTok % 16) = true := by
  rw [State.completed, (finishUnit_frame _ ti e).1.tokens]
  exact finishCmd_token _ ti h

theorem State.completed_recv {src chan len : Nat} {fab : Option Nat} (h : e.waits = .recv src fab chan len) :
    ((s.completed ti e).tile ti).recvCount src fab chan = (s.tile ti).recvCount src fab chan - len := by
  obtain ⟨m, w, hw⟩ := writeSram_frame s ti e.swrites
  obtain ⟨l, hl⟩ := finishCmd_tile ((writeSram s ti e.swrites).modTile ti _) ti e.setTok ti
  have htile (x : State) : (finishRecords x ti e).tile ti = x.tile ti := by
    unfold State.tile
    rw [(finishRecords_aside x ti e).2]
  rw [State.completed, finishUnit_recv _ ti h, State.tile_modTile_same, Tile.recvCount_putRecv, htile, hl, State.tile_modTile_same, hw]
  rfl

end

/-- Settles O19: each clause reads the state after completion. -/
theorem commandsComplete : Obligations.CommandsComplete := by
  refine ⟨fun s ti u e h hf => ⟨_, exec_commandComplete h hf, ?queue, s.completed_count ti e, s.completed_token ti e,
    fun src fab chan len hw => s.completed_recv ti e hw, fun w hw => ?others, fun x hx hp hm => ?written⟩, fun s ti u h => ?waits⟩
  case queue =>
    obtain ⟨r, l, ht⟩ := s.completed_tile ti e
    rw [ht]
  case others =>
    obtain ⟨r, l, ht⟩ := s.completed_tile ti e
    rw [ht]
    exact writeSram_raw s ti _ hw
  case written =>
    obtain ⟨r, l, ht⟩ := s.completed_tile ti e
    rw [ht, hx]
    have hr : ((writeSram s ti [x]).tile ti).readWord ti x.word = (.clean, x.data) := by
      rw [writeSram, if_neg (List.cons_ne_nil _ _), State.tile_modTile_same]
      exact (s.tile ti).writeWords_readWord ti x hp hm
    exact hr
  case waits =>
    show execCommandComplete ti u s = _
    unfold execCommandComplete
    dsimp only
    rw [h]

end Sys2Proof.Machine

namespace Sys2Proof.Machine

/-! ## A packet that has arrived (02 R76) -/

section
variable (s : State) (p : Packet)

theorem reportCrc_mesh : (reportCrc s p).mesh = s.mesh := by
  unfold reportCrc
  dsimp only
  rw [recordEvent_mesh, State.modTile_mesh, State.count_mesh]
  exact rfl

theorem reportCrc_plan : (reportCrc s p).plan = s.plan := by
  unfold reportCrc
  dsimp only
  rw [recordEvent_plan, State.modTile_plan, State.count_plan]
  exact rfl

/-- A bad CRC is counted in the tile of the router (02 R78). -/
theorem reportCrc_tile (j : Nat) : ∃ n, (reportCrc s p).tile j = { s.tile j with nocCrc := n } := by
  unfold reportCrc
  extract_lets ti f n s1
  rw [State.tile, recordEvent_tiles]
  change ∃ m, s1.tile j = _
  have hcount (i : Nat) : (f.2.count (tileReg ti Reg.INT_NOC_CRC) 1).tile i = s.tile i := by
    rw [State.tile, State.count_tiles, s.takeFree_tiles, State.tile]
  unfold s1
  rw [State.tile_modTile, hcount, hcount]
  split
  · rename_i hj
    subst hj
    exact ⟨n, rfl⟩
  · exact ⟨_, rfl⟩

@[simp] theorem State.arrive_mesh : (s.arrive p).mesh = s.mesh.erase p := by
  unfold State.arrive
  dsimp only
  split
  · rw [reportCrc_mesh]
  · rfl

theorem State.arrive_tile (j : Nat) : ∃ n, (s.arrive p).tile j = { s.tile j with nocCrc := n } := by
  unfold State.arrive
  dsimp only
  split
  · exact reportCrc_tile { s with mesh := s.mesh.erase p } p j
  · exact ⟨_, rfl⟩

@[simp] theorem State.arrive_usable (ti : Nat) : (s.arrive p).usable ti = s.usable ti := by
  have h : (s.arrive p).plan = s.plan := by
    unfold State.arrive
    dsimp only
    split
    · rw [reportCrc_plan]
    · rfl
  rw [State.usable, h, State.usable]

@[simp] theorem State.arrive_rtag : (s.arrive p).rtag = s.rtag := by
  rw [State.rtag, (arrive_aside s p).round, State.rtag]

@[simp] theorem stale_arrive (q : Packet) : stale (s.arrive p) q = stale s q := by
  rw [stale, State.arrive_rtag, stale]

/-! ## SYNC (02 R74) -/

/-- What a tile's groups hold and need is what they did before the packet arrived. -/
theorem State.arrive_groups (j : Nat) : ((s.arrive p).tile j).syncs = (s.tile j).syncs ∧
    (∀ g, ((s.arrive p).tile j).syncNeed g = (s.tile j).syncNeed g) ∧ ((s.arrive p).tile j).queue = (s.tile j).queue := by
  obtain ⟨n, h⟩ := s.arrive_tile p j
  rw [h]
  exact ⟨rfl, fun _ => rfl, rfl⟩

end

section
variable {s : State} {p : Packet} (h : s.Accepts p)
include h

theorem exec_syncArrival : exec (.syncArrival p) s = .next (arriveSync (s.arrive p) p.dstId p.addr (p.srcId, p.remote)) := by
  obtain ⟨hd, hu, hst⟩ := h
  show execSyncArrival p s = _
  simp [execSyncArrival, hd, hu, hst]

theorem exec_syncRelease : exec (.syncRelease p) s = .next (releaseSync (s.arrive p) p.dstId p.addr) := by
  obtain ⟨hd, hu, hst⟩ := h
  show execSyncRelease p s = _
  simp [execSyncRelease, hd, hu, hst]

end

section
variable (s : State) (ti g : Nat) (m : Nat × Option Nat) (old : SyncArr)
variable (hold : ((s.tile ti).syncs.find? (fun a => a.group = g)).getD ⟨g, []⟩ = old)
include hold

/-- An arrival that fills its group clears it and sends the releases. -/
theorem arriveSync_full {n : Nat} (hn : (s.tile ti).syncNeed g = some n) (hf : n ≤ old.members.length + 1) :
    arriveSync s ti g m = (s.setTile ti { s.tile ti with syncs := (s.tile ti).syncs.filter (fun a => a.group ≠ g) }).sendAll
      (syncReleases s ti g (old.members ++ [m])) := by
  subst hold
  unfold arriveSync
  simp only [hn]
  rw [if_neg]
  rw [List.length_append, List.length_singleton]
  omega

/-- Any other arrival joins the members of its group. -/
theorem arriveSync_joins (hn : ∀ n, (s.tile ti).syncNeed g = some n → old.members.length + 1 < n) :
    arriveSync s ti g m = s.setTile ti { s.tile ti with
      syncs := ⟨g, old.members ++ [m]⟩ :: (s.tile ti).syncs.filter (fun a => a.group ≠ g) } := by
  subst hold
  unfold arriveSync
  cases hneed : (s.tile ti).syncNeed g with
  | none => simp only [hneed]
  | some n =>
    have hlt := hn n hneed
    simp only [hneed]
    rw [if_pos]
    rw [List.length_append, List.length_singleton]
    exact hlt

end

theorem syncReleases_congr {s t : State} (h : t.rtag = s.rtag) (ti g : Nat) (ms : List (Nat × Option Nat)) :
    syncReleases t ti g ms = syncReleases s ti g ms := by
  unfold syncReleases
  rw [h]

/-- An entry put back under its serial stands in the queue. -/
theorem Tile.mem_putEntry {t : Tile} {e f : QEntry} (he : e ∈ t.queue) (hs : e.serial = f.serial) : f ∈ (t.putEntry f).queue :=
  List.mem_map.2 ⟨e, he, if_pos hs⟩

/-- Settles O22: each clause after the packet has arrived. -/
theorem groupsSynchronise : Obligations.GroupsSynchronise := by
  refine ⟨fun s p n old h hn hold hf => ⟨_, exec_syncArrival h, ?_⟩, fun s p old h hold hn => ⟨_, exec_syncArrival h, ?_⟩,
    fun s p e w h hfind hw => ⟨_, exec_syncRelease h, ?_⟩⟩
  · obtain ⟨hsyncs, hneed, -⟩ := s.arrive_groups p p.dstId
    rw [arriveSync_full (s.arrive p) p.dstId p.addr _ old (by rw [hsyncs]; exact hold) ((hneed _).trans hn) hf]
    refine ⟨?_, fun r hr => ?_⟩
    · rw [State.tile_sendAll, State.tile_setTile_same, List.find?_eq_none]
      intro a ha
      simpa using (List.mem_filter.1 ha).2
    · rw [State.sendAll_mesh, syncReleases_congr (s.arrive_rtag p)]
      exact List.mem_append_right _ hr
  · obtain ⟨hsyncs, hneed, -⟩ := s.arrive_groups p p.dstId
    rw [arriveSync_joins (s.arrive p) p.dstId p.addr _ old (by rw [hsyncs]; exact hold) fun n k => hn n ((hneed _).symm.trans k),
      State.setTile_mesh, State.arrive_mesh, State.tile_setTile_same]
    exact ⟨rfl, List.find?_cons_of_pos (by simp)⟩
  · obtain ⟨-, -, hqueue⟩ := s.arrive_groups p p.dstId
    have hrel : releaseSync (s.arrive p) p.dstId p.addr = (s.arrive p).setTile p.dstId
        (((s.arrive p).tile p.dstId).putEntry { e with waits := .sync { w with released := true } }) := by
      unfold releaseSync
      dsimp only
      rw [hqueue]
      split
      next hnone => exact absurd (hnone.symm.trans hfind) nofun
      next f hsome =>
        obtain rfl : f = e := Option.some.inj (hsome.symm.trans hfind)
        rw [hw]
    have hmem : e ∈ ((s.arrive p).tile p.dstId).queue := hqueue ▸ List.mem_of_find?_eq_some hfind
    rw [hrel, State.tile_setTile_same, State.setTile_mesh, State.arrive_mesh]
    refine ⟨Tile.mem_putEntry hmem rfl, ?_, rfl⟩
    rw [Tile.putEntry, List.length_map, hqueue]

end Sys2Proof.Machine

namespace Sys2Proof.Machine

/-! ## A tile that faults (02 R75, R77) -/

/-- The registers of a tile page that its fault writes. -/
def faultOffsets : List Nat :=
  [Reg.TIL_STATUS, Reg.TIL_FAULT, Reg.TIL_FAULT_CMD_LO, Reg.TIL_FAULT_CMD_LO + 1, Reg.TIL_FAULT_ADDR_LO, Reg.TIL_FAULT_ADDR_LO + 1,
    Reg.MXA_STATUS, Reg.MXA_HELD]

def faultRegs (ti : Nat) : List Nat := faultOffsets.map (tileReg ti)

theorem tileReg_mem_faultRegs (ti : Nat) {off : Nat} (h : off ∈ faultOffsets) : tileReg ti off ∈ faultRegs ti := List.mem_map_of_mem h

theorem tileReg_not_mem_faultRegs (ti : Nat) {off : Nat} (h : off ∉ faultOffsets) : tileReg ti off ∉ faultRegs ti := by
  intro hm
  obtain ⟨x, hx, he⟩ := List.mem_map.1 hm
  exact tileReg_inj ti (fun e : x = off => h (e ▸ hx)) he

theorem State.dropAt_regs (s : State) (ti slot : Nat) (b : Bool) : (s.dropAt ti slot b).regs = s.regs := rfl
theorem State.dropAt_tiles (s : State) (ti slot : Nat) (b : Bool) : (s.dropAt ti slot b).tiles = s.tiles := rfl
theorem State.dropAt_mesh (s : State) (ti slot : Nat) (b : Bool) : (s.dropAt ti slot b).mesh = s.mesh := rfl
theorem State.dropAt_faults (s : State) (ti slot : Nat) (b : Bool) : (s.dropAt ti slot b).sage.faults = s.sage.faults := rfl

theorem State.RegsFrame.upd {s t u : State} {l : List Nat} (h : s.RegsFrame t l) (k : u.regs = t.regs := by rfl) : s.RegsFrame u l :=
  fun a ha => by rw [State.reg, k]; exact h a ha

/-- What a tile's fault leaves: the tile FAULTED with no segment, HANDOVER or held operand and the commands that commit in place alone in
its queue, its writes to memory out of the mesh, and its report with Sage. -/
structure State.TileFaulted (s t : State) (ti cause slot : Nat) : Prop where
  regs : s.RegsFrame t (faultRegs ti ++ eventRegs)
  state : t.tilState ti = tilFaulted
  tile : t.tile ti = { s.tile ti with
    queue := (s.tile ti).queue.filter QEntry.committedInPlace, handover := none, segs := [], held := none }
  mesh : t.mesh = s.mesh.filter (fun p => !memWriteOf p ti)
  faults : t.sage.faults = s.sage.faults ++ [FaultReport.mk ti cause slot]

section
variable (s : State) (ti cause slot vaddr addr : Nat)

/-- Noting a fault's cause writes registers of the tile's page alone. -/
theorem noteFault_regsOnly : s.RegsOnly (noteFault s ti cause vaddr addr) (faultRegs ti) := by
  have hset (x : State) (off : Nat) (v : Word) (h : off ∈ faultOffsets) : x.RegsOnly (x.setReg (tileReg ti off) v) (faultRegs ti) :=
    x.setReg_regsOnly (tileReg_mem_faultRegs ti h)
  unfold noteFault
  extract_lets a n s1 s2
  split
  · exact hset _ Reg.TIL_FAULT _ (by decide)
  · have h1 : s.RegsOnly s1 (faultRegs ti) := hset _ Reg.TIL_FAULT _ (by decide)
    have h2 : s1.RegsOnly s2 (faultRegs ti) :=
      (hset _ Reg.TIL_FAULT_CMD_LO _ (by decide)).trans (hset _ (Reg.TIL_FAULT_CMD_LO + 1) _ (by decide))
    exact (h1.trans h2).trans
      ((hset _ Reg.TIL_FAULT_ADDR_LO _ (by decide)).trans (hset _ (Reg.TIL_FAULT_ADDR_LO + 1) _ (by decide)))

theorem tileFault_faulted : s.TileFaulted (tileFault s ti cause slot vaddr addr) ti cause slot := by
  unfold tileFault
  extract_lets s1 s2 s3 sage s4 s5
  obtain ⟨r1, e1⟩ := noteFault_regsOnly s ti cause vaddr addr
  have hset (x : State) (off : Nat) (v : Word) (h : off ∈ faultOffsets) : x.RegsFrame (x.setReg (tileReg ti off) v) (faultRegs ti) :=
    (x.setReg_regsOnly (tileReg_mem_faultRegs ti h)).1
  have r2 : s.RegsFrame s2 (faultRegs ti) := r1
  have r3 : s.RegsFrame s3 (faultRegs ti) := ((r2.trans (hset _ Reg.TIL_STATUS _ (by decide))).trans
    (hset _ Reg.MXA_STATUS _ (by decide))).trans (hset _ Reg.MXA_HELD _ (by decide))
  have t1 : s1.tile ti = s.tile ti := by
    unfold s1 State.tile
    rw [e1]
  have t3 : s3.tile ti = { s.tile ti with
      queue := (s.tile ti).queue.filter QEntry.committedInPlace, handover := none, segs := [], held := none } := by
    unfold s3 clearHeld s2
    rw [State.tile_setReg, State.tile_setFld, State.tile_modTile_same, State.tile_setFld, State.tile_modTile_same, t1]
  have m3 : s3.mesh = s.mesh := by
    unfold s3 clearHeld s2 s1
    rw [State.setReg_mesh, State.setFld_mesh, State.modTile_mesh, State.setFld_mesh, State.modTile_mesh, e1]
  have g3 : s3.sage = s.sage := by
    unfold s3 clearHeld s2 s1
    rw [State.setReg_sage, State.setFld_sage, State.modTile_sage, State.setFld_sage, State.modTile_sage, e1]
  clear_value s3
  have r4 : s.RegsFrame s4 (faultRegs ti) := r3.upd
  have r5 : s.RegsFrame s5 (faultRegs ti) := (r4.trans (hset s4 Reg.TIL_STATUS _ (by decide))).upd (State.dropAt_regs ..)
  constructor
  case regs => exact (r5.mono (List.subset_append_left ..)).trans fun a ha => recordEvent_reg s5 _ _ _ _ _ fun h => ha (List.mem_append_right _ h)
  case state =>
    rw [State.tilState, recordEvent_fld s5 _ _ _ _ _ 2 0 (seqReg_tileReg ti (by decide)).not_event]
    exact s4.fld_setFld_same _ _ (by decide) (by decide)
  case tile =>
    have ht : (recordEvent s5 (0x2000 + cause) ti (vaddr % 2 ^ 32) (vaddr / 2 ^ 32 % 2 ^ 16) (addr % 2 ^ 32)).tiles = s3.tiles := by
      rw [recordEvent_tiles]
      unfold s5 s4
      rw [State.dropAt_tiles, State.setTilState, State.setFld_tiles]
    rw [State.tile, ht, ← State.tile, t3]
  case mesh =>
    rw [recordEvent_mesh]
    unfold s5 s4
    rw [State.dropAt_mesh, State.setTilState, State.setFld_mesh, m3]
  case faults =>
    rw [recordEvent_sage]
    unfold s5 s4 sage
    rw [State.dropAt_faults, State.setTilState, State.setFld_sage, g3]

end
end Sys2Proof.Machine

namespace Sys2Proof.Machine

/-! ## NOC_WRITE that a tile refuses (02 R62, R72, R75) -/

section
variable {s : State} {p : Packet} (hd : s.detained p.dstId = false) (hu : s.usable p.dstId = true)
variable (hx : p.srcKind = 0 → s.crossesSplit (halfOf p.srcId) (halfOf p.dstId) = false)
include hd hu hx

omit hd in
/-- The tile serves, and the packet does not cross the split. -/
theorem nocWrite_reaches : (!s.usable p.dstId || (decide (p.srcKind = 0) && s.crossesSplit (halfOf p.srcId) (halfOf p.dstId))) = false := by
  rw [hu]
  by_cases hk : p.srcKind = 0
  · rw [hx hk, Bool.and_false]
    rfl
  · simp [hk]

theorem exec_nocWrite_stale (h : stale s p = true) : exec (.nocWrite p) s =
    .next (((s.arrive p).count (tileReg p.dstId Reg.TIL_STALE_DROP) 1).send (replyOf p true)) := by
  show execNocWrite p s = _
  unfold execNocWrite
  simp only [hd, nocWrite_reaches hu hx, h, Bool.false_eq_true, if_false, if_true, dropStale]

theorem exec_nocWrite_past (h : stale s p = false) (hp : sramBytes < p.addr + p.len) : exec (.nocWrite p) s =
    .next (((s.arrive p).count (tileReg p.dstId Reg.TIL_STEAL_REFUSED) 1).send (replyOf p false)) := by
  show execNocWrite p s = _
  unfold execNocWrite
  simp only [hd, nocWrite_reaches hu hx, h, hp, Bool.false_eq_true, if_false, if_true]

theorem exec_nocWrite_denied (h : stale s p = false) (hp : p.addr + p.len ≤ sramBytes) (hb : s.stealPermit p.dstId (bankOf p.addr) = false) :
    exec (.nocWrite p) s = .next (tileFault (((s.arrive p).count (tileReg p.dstId Reg.TIL_STEAL_REFUSED) 1).send (replyOf p false))
      p.dstId 0x06 0 0 p.addr) := by
  show execNocWrite p s = _
  unfold execNocWrite
  simp only [hd, nocWrite_reaches hu hx, h, Nat.not_lt.2 hp, hb, Bool.false_eq_true, Bool.not_false, if_false, if_true]

end

/-- A packet counted and answered: the count goes up, the answer is in the mesh, the tile keeps its SRAM, queue of writes and state. -/
theorem State.arrive_counts (s : State) (p q : Packet) (ti off : Nat) (h : off < 0x200) (k : off ≠ Reg.TIL_STATUS) :
    s.Counted (((s.arrive p).count (tileReg ti off) 1).send q) (tileReg ti off) 1 ∧
    q ∈ (((s.arrive p).count (tileReg ti off) 1).send q).mesh ∧
    (∃ n, (((s.arrive p).count (tileReg ti off) 1).send q).tile ti = { s.tile ti with nocCrc := n }) ∧
    (((s.arrive p).count (tileReg ti off) 1).send q).tilState ti = s.tilState ti := by
  have ha := arrive_aside s p
  refine ⟨?count, List.mem_append_right _ (List.mem_singleton_self q), ?tile, ?state⟩
  case count =>
    rw [State.Counted, State.reg_send, State.toNat_reg_count, ha.regs _ (seqReg_tileReg ti h)]
  case tile =>
    obtain ⟨n, hn⟩ := s.arrive_tile p ti
    exact ⟨n, by rw [State.tile, State.send_tiles, State.count_tiles, ← State.tile, hn]⟩
  case state =>
    rw [State.tilState, State.fld_send, State.count, State.fld_setReg_ne _ _ _ _ (tileReg_inj ti k.symm), ha.fld ti (by decide), State.tilState]

/-- Settles O21: the three refusals one by one. -/
theorem refusedWritesChangeNothing : Obligations.RefusedWritesChangeNothing := by
  refine ⟨fun s p h hx hp hb => ?denied, fun s p h hx hp => ?past, fun s p hd hu hx hst => ?stale⟩
  case denied =>
    obtain ⟨hd, hu, hst⟩ := h
    refine ⟨_, exec_nocWrite_denied hd hu hx hst hp hb, ?_⟩
    obtain ⟨hcount, hmem, ⟨n, htile⟩, -⟩ := s.arrive_counts p (replyOf p false) p.dstId Reg.TIL_STEAL_REFUSED (by decide) (by decide)
    have hf := tileFault_faulted (((s.arrive p).count (tileReg p.dstId Reg.TIL_STEAL_REFUSED) 1).send (replyOf p false)) p.dstId 0x06 0 0 p.addr
    have hreg := hf.regs (tileReg p.dstId Reg.TIL_STEAL_REFUSED) (by
      rw [List.mem_append, not_or]
      exact ⟨tileReg_not_mem_faultRegs _ (by decide), (seqReg_tileReg _ (by decide)).not_event⟩)
    refine ⟨?_, ?_, hf.state, ?_, ?_⟩
    · rw [State.Counted, hreg]
      exact hcount
    · rw [hf.mesh]
      exact List.mem_filter.2 ⟨hmem, rfl⟩
    · rw [hf.faults]
      exact List.mem_append_right _ (List.mem_singleton_self _)
    · rw [hf.tile, htile]
  case past =>
    obtain ⟨hd, hu, hst⟩ := h
    obtain ⟨hcount, hmem, ⟨n, htile⟩, hstate⟩ := s.arrive_counts p (replyOf p false) p.dstId Reg.TIL_STEAL_REFUSED (by decide) (by decide)
    exact ⟨_, exec_nocWrite_past hd hu hx hst hp, hcount, hmem, by rw [htile], hstate⟩
  case stale =>
    obtain ⟨hcount, hmem, ⟨n, htile⟩, -⟩ := s.arrive_counts p (replyOf p true) p.dstId Reg.TIL_STALE_DROP (by decide) (by decide)
    exact ⟨_, exec_nocWrite_stale hd hu hx hst, hcount, hmem, by rw [htile], by rw [htile]⟩

end Sys2Proof.Machine

namespace Sys2Proof.Machine

/-! ## Inbound writes (02 R62, R64, R65) -/

theorem exec_nocWrite_joins {s : State} {p : Packet} (ha : s.Accepts p)
    (hx : p.srcKind = 0 → s.crossesSplit (halfOf p.srcId) (halfOf p.dstId) = false) (hp : p.addr + p.len ≤ sramBytes)
    (hb : s.stealPermit p.dstId (bankOf p.addr) = true) (hl : (s.tile p.dstId).eject.length < 16) : exec (.nocWrite p) s =
    .next ((s.arrive p).modTile p.dstId (fun t => { t with eject := t.eject ++ [⟨p, bankOf p.addr, false⟩] })) := by
  obtain ⟨hd, hu, hst⟩ := ha
  show execNocWrite p s = _
  unfold execNocWrite
  simp only [hd, nocWrite_reaches hu hx, hst, Nat.not_lt.2 hp, hb, Nat.not_le.2 hl, Bool.false_eq_true, Bool.not_true, if_false]

/-- The state in which the words of a queued write stand in SRAM, and its wait is counted. -/
def State.inboundWritten (s : State) (ti : Nat) (x : Inbound) : State :=
  if x.waited then (writeSram s ti (inboundWrites x.pkt)).count (tileReg ti Reg.TIL_STEAL_WAIT) 1 else writeSram s ti (inboundWrites x.pkt)

/-- The state in which a queued write is performed: counted for RECV, out of the queue and acknowledged. -/
def State.inboundPerformed (s : State) (ti : Nat) (x : Inbound) : State :=
  ((s.inboundWritten ti x).modTile ti (fun t => { t.putRecv x.pkt.srcId x.pkt.remote x.pkt.chan
    (((s.inboundWritten ti x).tile ti).recvCount x.pkt.srcId x.pkt.remote x.pkt.chan + x.pkt.len) with
      eject := t.eject.erase x })).send (replyOf x.pkt true)

theorem exec_inboundWritePerformed {s : State} {ti bank : Nat} {x : Inbound}
    (h : (s.tile ti).eject.find? (fun x => decide (x.bank = bank)) = some x) :
    exec (.inboundWritePerformed ti bank) s = .next (s.inboundPerformed ti x) := by
  show execInboundWritePerformed ti bank s = _
  unfold execInboundWritePerformed
  dsimp only
  rw [h]
  rfl

section
variable (s : State) (ti : Nat) (x : Inbound)

theorem State.inboundWritten_tile : (s.inboundWritten ti x).tile ti = (writeSram s ti (inboundWrites x.pkt)).tile ti := by
  unfold State.inboundWritten
  split
  · rw [State.tile, State.count_tiles, State.tile]
  · rfl

theorem State.inboundWritten_mesh : (s.inboundWritten ti x).mesh = s.mesh := by
  unfold State.inboundWritten
  split
  · rw [State.count_mesh, writeSram_mesh]
  · rw [writeSram_mesh]

theorem State.inboundWritten_frame : s.RegsFrame (s.inboundWritten ti x) [tileReg ti Reg.TIL_STEAL_WAIT] := by
  have hw : s.RegsFrame (writeSram s ti (inboundWrites x.pkt)) [tileReg ti Reg.TIL_STEAL_WAIT] := fun a _ => writeSram_reg s ti _ a
  unfold State.inboundWritten
  split
  · exact hw.trans (State.count_regsOnly _ (List.mem_singleton_self _)).1
  · exact hw

theorem State.inboundWritten_counted (h : x.waited = true) : s.Counted (s.inboundWritten ti x) (tileReg ti Reg.TIL_STEAL_WAIT) 1 := by
  rw [State.inboundWritten, if_pos h, State.Counted, State.toNat_reg_count, writeSram_reg]

/-- The tile after a write is performed: its words written, its bytes counted, and the write out of the queue. -/
theorem State.inboundPerformed_tile : (s.inboundPerformed ti x).tile ti =
    { ((writeSram s ti (inboundWrites x.pkt)).tile ti).putRecv x.pkt.srcId x.pkt.remote x.pkt.chan
        ((s.tile ti).recvCount x.pkt.srcId x.pkt.remote x.pkt.chan + x.pkt.len) with eject := (s.tile ti).eject.erase x } := by
  obtain ⟨m, l, hw⟩ := writeSram_frame s ti (inboundWrites x.pkt)
  have hr : ((writeSram s ti (inboundWrites x.pkt)).tile ti).recvCount x.pkt.srcId x.pkt.remote x.pkt.chan =
      (s.tile ti).recvCount x.pkt.srcId x.pkt.remote x.pkt.chan := by
    rw [hw]
    rfl
  rw [State.inboundPerformed, State.tile, State.send_tiles, ← State.tile, State.tile_modTile_same, State.inboundWritten_tile, hr]
  rw [hw]

theorem State.inboundPerformed_reg (a : Nat) : (s.inboundPerformed ti x).reg a = (s.inboundWritten ti x).reg a := by
  rw [State.inboundPerformed, State.reg_send, State.reg_modTile]

end

/-! ### STEAL_STARVED (02 R65) -/

/-- The state in which the oldest queued write is starved, before its event. -/
def State.starvedAt (s : State) (ti : Nat) (x : Inbound) (r : List Inbound) : State :=
  (s.count (tileReg ti (Reg.TIL_CONFL + min (s.bankOwner ti x.bank) 8)) 1).modTile ti
    (fun t => { t with eject := { x with waited := true } :: r, starved := true })

theorem exec_stealStarved {s : State} {ti : Nat} {x : Inbound} {r : List Inbound} (h : (s.tile ti).eject = x :: r) :
    exec (.stealStarved ti) s = .next (if (s.tile ti).starved then s.starvedAt ti x r
      else recordEvent (s.starvedAt ti x r) 0x2020 ti x.bank (x.pkt.addr % 2 ^ 32) 0) := by
  show execStealStarved ti s = _
  unfold execStealStarved
  dsimp only
  rw [h]
  rfl

/-- A state with the recorder, the pending list and the clock of another records the same event. -/
theorem State.records_congr {s u t : State} (he : u.evt = s.evt) (hs : u.sup = s.sup) (hn : u.now = s.now) (hb : u.tb = s.tb)
    {code source p0 p1 p2 : Nat} (h : u.Records t (u.record code source p0 p1 p2)) : s.Records t (s.record code source p0 p1 p2) := by
  unfold State.Records State.Room State.record State.calendar at *
  rwa [he, hs, hn, hb] at h

/-- Recording an event keeps what was counted in a register of a tile's sequencer. -/
theorem State.Counted.recordEvent {s t : State} {a n : Nat} (h : s.Counted t a n) (ha : SeqReg a) (code source p0 p1 p2 : Nat) :
    s.Counted (recordEvent t code source p0 p1 p2) a n := by
  rw [State.Counted, recordEvent_reg t _ _ _ _ _ ha.not_event]
  exact h

section
variable (s : State) (ti : Nat) (x : Inbound) (r : List Inbound)

theorem State.starvedAt_tile : (s.starvedAt ti x r).tile ti = { s.tile ti with eject := { x with waited := true } :: r, starved := true } := by
  rw [State.starvedAt, State.tile_modTile_same, State.tile, State.count_tiles, State.tile]

theorem State.starvedAt_counted : s.Counted (s.starvedAt ti x r) (tileReg ti (Reg.TIL_CONFL + min (s.bankOwner ti x.bank) 8)) 1 := by
  rw [State.starvedAt, State.Counted, State.reg_modTile, State.toNat_reg_count]

theorem State.starvedAt_records : s.Records (recordEvent (s.starvedAt ti x r) 0x2020 ti x.bank (x.pkt.addr % 2 ^ 32) 0)
    (s.record 0x2020 ti x.bank (x.pkt.addr % 2 ^ 32) 0) := by
  refine State.records_congr ?_ ?_ ?_ ?_ (recordEvent_records (s.starvedAt ti x r) _ _ _ _ _)
  · rw [State.starvedAt, State.modTile_evt, State.count_evt]
  · rw [State.starvedAt, State.modTile_sup, State.count_sup]
  · rw [State.starvedAt, State.modTile_now, State.count_now]
  · rw [State.starvedAt, State.modTile_tb, State.count_tb]

end

/-- Settles O20: a write joins, is performed, and starves. -/
theorem inboundWritesArrive : Obligations.InboundWritesArrive := by
  refine ⟨fun s p ha hx hp hb hl => ⟨_, exec_nocWrite_joins ha hx hp hb hl, ?_⟩,
    fun s ti bank x h => ⟨_, exec_inboundWritePerformed h, ?_⟩, fun s ti x r h => ⟨_, exec_stealStarved h, ?_⟩⟩
  · obtain ⟨n, hn⟩ := s.arrive_tile p p.dstId
    rw [State.tile_modTile_same, State.modTile_mesh, State.arrive_mesh, hn]
    exact ⟨rfl, rfl, rfl⟩
  · refine ⟨?eject, ?recv, ?mesh, fun w hw => ?raw, fun hwait => ?counted, fun a ha => ?frame⟩
    case eject => rw [s.inboundPerformed_tile]
    case recv =>
      rw [s.inboundPerformed_tile]
      exact Tile.recvCount_putRecv ..
    case mesh =>
      rw [State.inboundPerformed, State.send, State.modTile_mesh, State.inboundWritten_mesh]
    case raw =>
      rw [s.inboundPerformed_tile]
      exact writeSram_raw s ti _ hw
    case counted =>
      rw [State.Counted, s.inboundPerformed_reg]
      exact s.inboundWritten_counted ti x hwait
    case frame => rw [s.inboundPerformed_reg, s.inboundWritten_frame ti x a ha]
  · cases hst : (s.tile ti).starved with
    | true =>
      rw [if_pos rfl, s.starvedAt_tile]
      refine ⟨rfl, rfl, s.starvedAt_counted ti x r, nofun, fun _ => ?_⟩
      rw [State.starvedAt, State.modTile_evt, State.count_evt]
    | false =>
      have hoff : Reg.TIL_CONFL + min (s.bankOwner ti x.bank) 8 < 0x200 := by
        unfold Reg.TIL_CONFL
        omega
      rw [if_neg Bool.false_ne_true, State.tile, recordEvent_tiles, ← State.tile, s.starvedAt_tile]
      exact ⟨rfl, rfl, (s.starvedAt_counted ti x r).recordEvent (seqReg_tileReg ti hoff) .., fun _ => s.starvedAt_records ti x r, nofun⟩

end Sys2Proof.Machine

namespace Sys2Proof.Machine

/-! ## The order of nonnegative values -/

/-- Two nonnegative finite values compare as their mantissas do over the smaller exponent. -/
theorem Num.lt_fin_false (m n : Nat) (e k : Int) : (Num.fin false m e).lt (.fin false n k) =
    decide (m <<< (e - Min.min e k).toNat < n <<< (k - Min.min e k).toNat) := by
  by_cases hz : m = 0 ∧ n = 0
  · obtain ⟨rfl, rfl⟩ := hz
    simp [Num.lt]
  · have hlt : (Num.fin false m e).lt (.fin false n k) = (Num.fin false m e).ltTotal (.fin false n k) := by
      unfold Num.lt
      split
      next h₁ h₂ => cases h₁; cases h₂; exact absurd ⟨rfl, rfl⟩ hz
      next => rw [if_neg (by simp)]
    rw [hlt]
    simp only [Num.ltTotal, if_neg hz, ← min_def, sgn, Bool.false_eq_true, if_false, Nat.cast_lt]

/-! ## Codes of the floating formats: the mantissa and the binade of a magnitude (04 R119, Table 4.2) -/

/-- How many steps the exponent of a magnitude code stands above that of the subnormals; they share theirs with the first normals. -/
def FloatFmt.binade (f : FloatFmt) (mag : Nat) : Nat := mag / 2 ^ f.mb - 1

/-- The mantissa of a magnitude code, with the leading bit of a normal. -/
def FloatFmt.mant (f : FloatFmt) (mag : Nat) : Nat := mag - f.binade mag * 2 ^ f.mb

section
variable (f : FloatFmt)

theorem FloatFmt.binade_add_mant (mag : Nat) : f.binade mag * 2 ^ f.mb + f.mant mag = mag := by
  have h : f.binade mag * 2 ^ f.mb ≤ mag :=
    (Nat.mul_le_mul_right _ (Nat.sub_le _ 1)).trans (Nat.div_mul_le_self mag _)
  exact Nat.add_sub_cancel' h

theorem FloatFmt.binade_mant_of_subnormal {mag : Nat} (h : mag / 2 ^ f.mb = 0) : f.binade mag = 0 ∧ f.mant mag = mag % 2 ^ f.mb := by
  have hb : f.binade mag = 0 := by rw [FloatFmt.binade, h]
  refine ⟨hb, ?_⟩
  rw [FloatFmt.mant, hb, zero_mul, Nat.sub_zero]
  exact (Nat.mod_eq_of_lt ((Nat.div_eq_zero_iff_lt (Nat.two_pow_pos _)).1 h)).symm

theorem FloatFmt.binade_mant_of_normal {mag : Nat} (h : mag / 2 ^ f.mb ≠ 0) : f.binade mag + 1 = mag / 2 ^ f.mb ∧
    f.mant mag = 2 ^ f.mb + mag % 2 ^ f.mb := by
  have hb : f.binade mag + 1 = mag / 2 ^ f.mb := Nat.sub_add_cancel (Nat.pos_of_ne_zero h)
  refine ⟨hb, ?_⟩
  have hsum := f.binade_add_mant mag
  have hdiv := Nat.div_add_mod' mag (2 ^ f.mb)
  rw [← hb, Nat.add_mul] at hdiv
  omega

theorem FloatFmt.mant_lt (mag : Nat) : f.mant mag < 2 ^ (f.mb + 1) := by
  have hfr := Nat.mod_lt mag (Nat.two_pow_pos f.mb)
  rw [Nat.pow_succ]
  by_cases h : mag / 2 ^ f.mb = 0
  · rw [(f.binade_mant_of_subnormal h).2]; omega
  · rw [(f.binade_mant_of_normal h).2]; omega

/-- Only the lowest binade holds mantissas without the leading bit. -/
theorem FloatFmt.binade_of_mant_lt {mag : Nat} (h : f.mant mag < 2 ^ f.mb) : f.binade mag = 0 := by
  by_cases hs : mag / 2 ^ f.mb = 0
  · exact (f.binade_mant_of_subnormal hs).1
  · rw [(f.binade_mant_of_normal hs).2] at h; omega

theorem FloatFmt.finite_eq (neg : Bool) (mag : Nat) : f.finite neg mag = .fin neg (f.mant mag) (f.ulpMin + f.binade mag) := by
  unfold FloatFmt.finite
  rw [Nat.shiftRight_eq_div_pow]
  by_cases h : mag / 2 ^ f.mb = 0
  · obtain ⟨hb, hm⟩ := f.binade_mant_of_subnormal h
    simp only [if_pos h, hb, hm, Nat.cast_zero, add_zero]
  · obtain ⟨hb, hm⟩ := f.binade_mant_of_normal h
    rw [if_neg h, hm, ← hb, Nat.cast_succ, ← add_assoc, add_sub_cancel_right]

/-- No magnitude code reads above a greater one. -/
theorem FloatFmt.finite_not_lt {mag top : Nat} (h : mag ≤ top) :
    (f.finite false top).lt (f.finite false mag) = false := by
  have hb : f.binade mag ≤ f.binade top := Nat.sub_le_sub_right (Nat.div_le_div_right h) 1
  have hmant : f.mant mag ≤ f.mant top * 2 ^ (f.binade top - f.binade mag) := by
    obtain heq | hlt := hb.eq_or_lt
    · rw [heq, Nat.sub_self, pow_zero, mul_one, FloatFmt.mant, FloatFmt.mant, heq]
      exact Nat.sub_le_sub_right h _
    · have hlead : 2 ^ f.mb ≤ f.mant top := Nat.le_of_not_lt fun hsub => by
        have := f.binade_of_mant_lt hsub
        omega
      calc f.mant mag ≤ 2 ^ f.mb * 2 ^ 1 := (f.mant_lt mag).le
        _ ≤ _ := Nat.mul_le_mul hlead (Nat.pow_le_pow_right (by decide) (by omega))
  rw [f.finite_eq, f.finite_eq, Num.lt_fin_false, min_eq_right (by omega), sub_self, Nat.shiftLeft_eq, Nat.shiftLeft_eq,
    show (f.ulpMin + f.binade top - (f.ulpMin + f.binade mag) : Int).toNat = f.binade top - f.binade mag by omega]
  simpa using hmant

/-- Rounding leaves a value of the format where it is: its last place is already the exponent it reads with. -/
theorem FloatFmt.magCode_mant (neg : Bool) (mag : Nat) :
    f.magCode .rne neg (f.mant mag) (f.ulpMin + f.binade mag) = mag := by
  have hsum := f.binade_add_mant mag
  by_cases hz : f.mant mag = 0
  · rw [hz, f.binade_of_mant_lt (hz ▸ Nat.two_pow_pos _)] at hsum
    rw [FloatFmt.magCode, if_pos hz, ← hsum, zero_mul]
  · have hlog : (f.mant mag).log2 < f.mb + 1 := (Nat.log2_lt hz).2 (f.mant_lt mag)
    have hq : (if f.ulpMin ≤ ((f.mant mag).log2 : Int) + (f.ulpMin + f.binade mag) - f.mb
        then ((f.mant mag).log2 : Int) + (f.ulpMin + f.binade mag) - f.mb else f.ulpMin) = f.ulpMin + f.binade mag := by
      by_cases hsub : f.mant mag < 2 ^ f.mb
      · have := f.binade_of_mant_lt hsub
        split <;> omega
      · have hlead : f.mb ≤ (f.mant mag).log2 := (Nat.le_log2 hz).2 (Nat.le_of_not_lt hsub)
        rw [if_pos (by omega)]
        omega
    simp only [FloatFmt.magCode, if_neg hz, hq, roundMag, le_refl, if_true, sub_self, Int.toNat_zero, Nat.shiftLeft_zero,
      add_sub_cancel_left, Int.toNat_natCast, Nat.shiftLeft_eq (f.binade mag), hsum]
    split
    next hsub => simpa [f.binade_of_mant_lt hsub] using hsum
    next => rfl

/-- The sign bit over the magnitude makes the code again. -/
theorem FloatFmt.signed_of_lt {c : Nat} (hc : c < 2 ^ (f.eb + f.mb + 1)) :
    f.signed (decide (2 ^ (f.eb + f.mb) ≤ c)) (c % 2 ^ (f.eb + f.mb)) = c := by
  rw [Nat.pow_succ] at hc
  simp only [FloatFmt.signed, decide_eq_true_eq]
  split
  next h => rw [Nat.mod_eq_sub_mod h, Nat.mod_eq_of_lt (by omega)]; omega
  next h => rw [Nat.mod_eq_of_lt (by omega), zero_add]

/-- The sign bit that a decoding reads. -/
theorem FloatFmt.signBit_of_lt {c : Nat} (hc : c < 2 ^ (f.eb + f.mb + 1)) :
    decide (c >>> (f.eb + f.mb) % 2 = 1) = decide (2 ^ (f.eb + f.mb) ≤ c) := by
  have hq : c / 2 ^ (f.eb + f.mb) < 2 := Nat.div_lt_of_lt_mul hc
  have hpos : 1 ≤ c / 2 ^ (f.eb + f.mb) ↔ 2 ^ (f.eb + f.mb) ≤ c := Nat.one_le_div_iff (Nat.two_pow_pos _)
  rw [Nat.shiftRight_eq_div_pow, decide_eq_decide, ← hpos, Nat.mod_eq_of_lt hq]
  omega

variable {f} {c m : Nat} {neg : Bool} {e : Int}

/-- Saturation gives back every code up to the largest finite one. -/
theorem FloatFmt.encodeSat_finite {maxMag : Nat} (hc : c < 2 ^ (f.eb + f.mb + 1)) (hmax : c % 2 ^ (f.eb + f.mb) ≤ maxMag)
    (hv : f.finite (decide (2 ^ (f.eb + f.mb) ≤ c % 2 ^ (f.eb + f.mb + 1))) (c % 2 ^ (f.eb + f.mb)) = .fin neg m e) :
    f.encodeSat maxMag .rne neg m e = c := by
  have hle := f.finite_not_lt hmax
  rw [f.finite_eq false (c % _)] at hle
  rw [Nat.mod_eq_of_lt hc, f.finite_eq] at hv
  cases hv
  rw [FloatFmt.encodeSat, hle, if_neg Bool.false_ne_true, f.magCode_mant, f.signed_of_lt hc]

/-- A finite code of a format with IEEE specials stands below its infinity. -/
theorem FloatFmt.finite_of_decodeIeee (hc : c < 2 ^ (f.eb + f.mb + 1)) (hv : f.decodeIeee (c % 2 ^ (f.eb + f.mb + 1)) = .fin neg m e) :
    c % 2 ^ (f.eb + f.mb) < f.infMag ∧
      f.finite (decide (2 ^ (f.eb + f.mb) ≤ c % 2 ^ (f.eb + f.mb + 1))) (c % 2 ^ (f.eb + f.mb)) = .fin neg m e := by
  rw [Nat.mod_eq_of_lt hc] at hv ⊢
  simp only [FloatFmt.decodeIeee, f.signBit_of_lt hc] at hv
  split at hv
  next h => exact ⟨h, hv⟩
  next => split at hv <;> cases hv

/-- Encoding with IEEE overflow gives back every finite code. -/
theorem FloatFmt.encodeIeee_decodeIeee (hc : c < 2 ^ (f.eb + f.mb + 1)) (hv : f.decodeIeee (c % 2 ^ (f.eb + f.mb + 1)) = .fin neg m e) :
    f.encodeIeee .rne (.fin neg m e) = c := by
  obtain ⟨hinf, hfin⟩ := FloatFmt.finite_of_decodeIeee hc hv
  rw [Nat.mod_eq_of_lt hc, f.finite_eq] at hfin
  cases hfin
  simp only [FloatFmt.encodeIeee, f.magCode_mant, if_neg (Nat.not_le.2 hinf), f.signed_of_lt hc]

end

/-! ## Codes of the integer formats -/

/-- A magnitude within the range of its sign is neither rounded nor saturated. -/
theorem encodeIntSat_fin {w n : Nat} (q : Int) (neg : Bool) (h : n ≤ if neg then 2 ^ (w - 1) else 2 ^ (w - 1) - 1) :
    encodeIntSat w q .rne (.fin neg n q) = if neg then (2 ^ w - n) % 2 ^ w else n := by
  have hlt : (Num.fin false (if neg then 2 ^ (w - 1) else 2 ^ (w - 1) - 1) q).lt (.fin false n q) = false := by
    rw [Num.lt_fin_false]
    simpa using h
  simp only [encodeIntSat, hlt, roundMag, le_refl, if_true, sub_self, Int.toNat_zero, Nat.shiftLeft_zero, Bool.false_eq_true, if_false]
  cases neg with
  | false => simp only [Bool.false_eq_true, if_false] at h ⊢; rw [if_neg (Nat.not_lt.2 h)]
  | true => simp only [if_true] at h ⊢; rw [if_neg (Nat.not_lt.2 h)]

/-- The integers' zero stands at exponent 0, which need not be that of the format. -/
theorem encodeIntSat_zero (w : Nat) {q : Int} (hq : q ≤ 0) : encodeIntSat w q .rne (.fin false 0 0) = 0 := by
  simp [encodeIntSat, Num.lt_fin_false, roundMag, hq]

/-- Every two's-complement code is encoded again from its value. -/
theorem encodeIntSat_toSigned {w c : Nat} {q : Int} (hw : 0 < w) (hq : q ≤ 0) (hc : c < 2 ^ w) :
    encodeIntSat w q .rne (Num.ofInt (toSigned w (c % 2 ^ w)) q false) = c := by
  have hhalf : 2 ^ w = 2 * 2 ^ (w - 1) := (mul_pow_sub_one hw.ne' 2).symm
  rw [Nat.mod_eq_of_lt hc, toSigned]
  split
  next hlow =>
    obtain rfl | hpos := Nat.eq_zero_or_pos c
    · exact encodeIntSat_zero w hq
    · have hv : Num.ofInt c q false = .fin false c q := by
        rw [Num.ofInt, if_neg (by omega), decide_eq_false (by omega), Int.natAbs_natCast]
      rw [hv, encodeIntSat_fin q false (Nat.le_sub_one_of_lt hlow), if_neg Bool.false_ne_true]
  next hhigh =>
    have hcast : ((2 : Int) ^ w) = (2 ^ w : Nat) := (Nat.cast_pow 2 w).symm
    have hv : Num.ofInt ((c : Int) - 2 ^ w) q false = .fin true (2 ^ w - c) q := by
      rw [Num.ofInt, hcast, if_neg (by omega), decide_eq_true (by omega), show ((c : Int) - (2 ^ w : Nat)).natAbs = 2 ^ w - c by omega]
    have hmag : 2 ^ w - c ≤ 2 ^ (w - 1) := by omega
    rw [hv, encodeIntSat_fin q true hmag, if_pos rfl, Nat.sub_sub_self hc.le, Nat.mod_eq_of_lt hc]

/-! ## Every format -/

/-- Settles O11: each format is one of three kinds, integer, IEEE or saturating, whose own lemma gives the code back. -/
theorem finiteCodesConvertToThemselves : Obligations.FiniteCodesConvertToThemselves := by
  intro f c neg m e hf hc hv
  cases f with
  | e8m0 => exact absurd rfl hf
  | int8 | mxint8 | int32 => exact encodeIntSat_toSigned (by decide) (by decide) hc
  | bf16 | fp16 | fp32 =>
    rw [hv]
    exact FloatFmt.encodeIeee_decodeIeee hc hv
  | e5m2 | mxE5m2 =>
    rw [hv]
    obtain ⟨hinf, hfin⟩ := FloatFmt.finite_of_decodeIeee (f := fmtE5M2) hc hv
    exact FloatFmt.encodeSat_finite hc (Nat.le_sub_one_of_lt hinf) hfin
  | e4m3 | mxE4m3 =>
    rw [hv]
    rw [Fmt.value] at hv
    split at hv
    next => cases hv
    next hnan => exact FloatFmt.encodeSat_finite hc (show c % 128 ≤ 126 by omega) hv
  | e2m3 | mxE2m3 | e3m2 | mxE3m2 | e2m1 | mxfp4 =>
    rw [hv]
    exact FloatFmt.encodeSat_finite hc (Nat.le_sub_one_of_lt (Nat.mod_lt c (Nat.two_pow_pos _))) hv

end Sys2Proof.Machine

namespace Sys2Proof.Machine

/-! ## The attention commands issue (06 R172, R182, R185) -/

theorem cacheDir_aside (s : State) (ti : Nat) (e : DirEntry) : s.Aside (cacheDir s ti e) := .modTile (.refl s)

theorem putBytes_aside (s : State) (ti : Nat) (tier : Tier) (addr n v : Nat) : s.Aside (putBytes s ti tier addr n v) := by
  unfold putBytes
  extract_lets off x
  split
  · exact writeStackGran_aside s ti _ _ _ _
  · exact writeBonded_aside s ti x

theorem setNextPos_aside (s : State) (ti : Nat) (e : DirEntry) (n : Nat) : s.Aside (setNextPos s ti e n) := by
  unfold setNextPos
  extract_lets cached
  have h : s.Aside cached := .modTile (.refl s)
  split
  · exact h
  · exact h.trans (putBytes_aside _ ti _ _ _ _)

/-- A flag set in registers 0x200 and up of a tile page where a condition holds. -/
theorem State.Aside.flagTile {s t : State} {p : Prop} [Decidable p] {ti off hi lo v : Nat} (h : s.Aside t)
    (k : 0x200 ≤ off ∧ off < 0x1000 := by decide) : s.Aside (if p then t.setFld (tileReg ti off) hi lo v else t) :=
  .ite (h.setTileFld k) h

section
variable (s : State) (ti : Nat) (c : BitVec 512)

/-- KV_APPEND caches its page list and directory entry, moves the entry on, counts a flush and marks the tile. -/
theorem workKvAppend_aside : AfterAside (workKvAppend s ti c) := by
  unfold workKvAppend
  extract_lets
  split
  · exact .error _
  · exact .error _
  · exact .error _
  · split
    · exact .error _
    · refine .ite (.error _) (.ite (.error _) (.ite (.error _) ?_))
      split
      · exact .error _
      · exact .error _
      · extract_lets used page valBase oldK oldV numbered staged flush
        clear_value flush
        split
        · exact .error _
        · refine .ok fun x => ?_
          dsimp -zeta only
          extract_lets paged moved flushed
          have hmoved : x.Aside moved :=
            ((cachePage_aside x ti _ _).trans (cacheDir_aside paged ti _)).trans (setNextPos_aside _ ti _ _)
          have hflushed : x.Aside flushed := hmoved.ite hmoved.countTile
          exact hflushed.modTile

/-- ATTN_SCORE caches its page list and directory entry, counts skipped and poisoned pages and keeps its record with the tile. -/
theorem workAttnScore_aside : AfterAside (workAttnScore s ti c) := by
  unfold workAttnScore
  extract_lets
  split
  · exact .error _
  · exact .error _
  · split
    · exact .error _
    · refine .ite (.error _) ?_
      split
      · exact .error _
      · refine .ite (.error _) ?_
        split
        · exact .error _
        · extract_lets rows visit
          clear_value visit
          split
          · exact .error _
          · refine .ite (.error _) (.ok fun x => ?_)
            dsimp -zeta only
            extract_lets paged cached drawn skipped poisoned met
            have hcached : x.Aside cached := (cachePage_aside x ti _ _).trans (cacheDir_aside paged ti _)
            have hdrawn : x.Aside drawn := hcached.upd
            have hpoisoned : x.Aside poisoned := hdrawn.countTile.countTile
            have hmet : x.Aside met := hpoisoned.foldl fun y _ _ => poisonMet_aside y ti 5 _ _
            exact hmet.modTile

/-- ATTN_APPLY counts the IBUs' steps, the visited pages and the empty rows, flags them and consumes its record; a refused one has no
effect. -/
theorem workAttnApply_aside : AfterAside (workAttnApply s ti c) := by
  unfold workAttnApply
  extract_lets
  split
  · exact .error _
  · exact .error _
  · split
    · exact .error _
    · refine .ite (.error _) (.ite (.error _) (.ite (.error _) ?_))
      split
      · exact .error _
      · exact .error _
      · exact .error _
      · refine .ite (.error _) (.ite (.error _) ?_)
        extract_lets
        split
        · exact .error _
        · extract_lets
          split
          · exact .idle
          · split
            · exact .error _
            · exact .error _
            · refine .ok fun x => ?_
              dsimp -zeta only
              extract_lets taken stepped visited inBank counted empty poisoned
              have htaken : x.Aside taken.2 := State.Aside.upd (.refl x)
              have hstepped : x.Aside stepped := .ite (.refl x) htaken.setTileReg64
              have hcounted : x.Aside counted := hstepped.countTile.countTile.countTile
              have hpoisoned : x.Aside poisoned := hcounted.flagTile.flagTile
              exact hpoisoned.modTile

end

/-- Settles O14: the effects of the three works at issue stay aside of the sequencer, so each class hands its own work to its unit. -/
theorem attentionCommandsIssue : Obligations.AttentionCommandsIssue :=
  ⟨fun _ _ _ h hw => ⟨_, rfl, h.issues hw (workAttnScore_aside ..)⟩, fun _ _ _ h hw => ⟨_, rfl, h.issues hw (workAttnApply_aside ..)⟩,
    fun _ _ _ h hw => ⟨_, rfl, h.issues hw (workKvAppend_aside ..)⟩⟩

end Sys2Proof.Machine

namespace Sys2Proof.Machine

/-! ## The maps of the memory tiers are one to one (07 R202, 08 R238) -/

/-- In pair mode the layer is the top of the offset. -/
theorem sliceMap_pair {o stripe : Nat} (h : (stripe >>> ((o >>> 21) % 8)) % 2 = 0) :
    sliceMap o stripe = ((o >>> 24) % 8, (o >>> 21) % 8, o % 2 ^ 21) := if_pos h

/-- In stripe mode the layer is in the middle of the offset. -/
theorem sliceMap_striped {o stripe : Nat} (h : (stripe >>> ((o >>> 21) % 8)) % 2 ≠ 0) :
    sliceMap o stripe =
      ((o >>> 8) % 8, (o >>> 21) % 8, (((o >>> 24) % 8) <<< 18) + (((o >>> 11) % 1024) <<< 8) + o % 256) := if_neg h

/-- The pair of an offset is the number of its group, in either mode. -/
theorem sliceMap_group (o stripe : Nat) : (sliceMap o stripe).2.1 = (o >>> 21) % 8 := by
  unfold sliceMap
  dsimp only
  split <;> rfl

theorem sliceMap_injective {o p stripe : Nat} (ho : o < sliceBytes) (hp : p < sliceBytes)
    (h : sliceMap o stripe = sliceMap p stripe) : o = p := by
  have hg : (o >>> 21) % 8 = (p >>> 21) % 8 := by rw [← sliceMap_group o stripe, h, sliceMap_group]
  unfold sliceBytes at ho hp
  by_cases hm : (stripe >>> ((o >>> 21) % 8)) % 2 = 0
  · rw [sliceMap_pair hm, sliceMap_pair (hg ▸ hm)] at h
    simp only [Prod.mk.injEq, Nat.shiftRight_eq_div_pow] at h
    omega
  · rw [sliceMap_striped hm, sliceMap_striped (hg ▸ hm)] at h
    simp only [Prod.mk.injEq, Nat.shiftLeft_eq, Nat.shiftRight_eq_div_pow] at h
    omega

/-- The address bits above the low 17, folded to nine bits. -/
def stackFold (l : Nat) : Nat := (l % 512) ^^^ ((l / 2 ^ 9) % 512) ^^^ ((l / 2 ^ 18) % 16)

/-- The number of the pseudo-channel of an address within its half: nine address bits with the higher ones folded in. -/
def stackChannel (a : Nat) : Nat := (a / 2 ^ 8 % 512) ^^^ stackFold (a / 2 ^ 17)

theorem stackChannel_lt (a : Nat) : stackChannel a < 512 :=
  Nat.xor_lt_two_pow (n := 9) (by omega)
    (Nat.xor_lt_two_pow (Nat.xor_lt_two_pow (by omega) (by omega)) (by omega))

/-- stack_map by quotients and remainders, the channel numbers through one number of the pseudo-channel. -/
theorem stackMap_eq (a : Nat) : stackMap a =
    { stack := 8 * (a / 2 ^ 39 % 2) + stackChannel (a % 2 ^ 39) % 8
      chan := stackChannel (a % 2 ^ 39) / 2 ^ 3 % 32
      pch := stackChannel (a % 2 ^ 39) / 2 ^ 8 % 2
      sid := a % 2 ^ 39 / 2 ^ 17 / 2 ^ 6 % 4
      bg := a % 2 ^ 39 / 2 ^ 17 / 2 ^ 2 % 4
      bank := a % 2 ^ 39 / 2 ^ 17 / 2 ^ 4 % 4
      row := a % 2 ^ 39 / 2 ^ 17 / 2 ^ 8
      col := a % 2 ^ 39 / 2 ^ 17 % 4 * 256 + a % 2 ^ 39 % 256 } := by
  simp only [stackMap, stackChannel, stackFold, Nat.shiftRight_eq_div_pow, Nat.div_div_eq_div_mul, ← Nat.pow_add]

/-- A number is made of its four lowest pairs of bits and what is above them. -/
theorem eq_of_bit_pairs {l m : Nat} (h0 : l % 4 = m % 4) (h2 : l / 2 ^ 2 % 4 = m / 2 ^ 2 % 4) (h4 : l / 2 ^ 4 % 4 = m / 2 ^ 4 % 4)
    (h6 : l / 2 ^ 6 % 4 = m / 2 ^ 6 % 4) (h8 : l / 2 ^ 8 = m / 2 ^ 8) : l = m := by
  omega

theorem stackMap_injective {a b : Nat} (ha : a < 2 ^ 40) (hb : b < 2 ^ 40) (h : stackMap a = stackMap b) : a = b := by
  have hca := stackChannel_lt (a % 2 ^ 39)
  have hcb := stackChannel_lt (b % 2 ^ 39)
  simp only [stackMap_eq, StackLoc.mk.injEq] at h
  obtain ⟨hstack, hchan, hpch, hsid, hbg, hbank, hrow, hcol⟩ := h
  have hhalf : a / 2 ^ 39 = b / 2 ^ 39 := by omega
  have hhigh : a % 2 ^ 39 / 2 ^ 17 = b % 2 ^ 39 / 2 ^ 17 := eq_of_bit_pairs (by omega) hbg hbank hsid hrow
  have hchannel : stackChannel (a % 2 ^ 39) = stackChannel (b % 2 ^ 39) := by omega
  have hmid : a % 2 ^ 39 / 2 ^ 8 % 512 = b % 2 ^ 39 / 2 ^ 8 % 512 := by
    unfold stackChannel at hchannel
    rw [hhigh] at hchannel
    exact Nat.xor_left_injective hchannel
  omega

/-- Settles O24: each map gives back the fields of the address. -/
theorem memoryMapsAreOneToOne : Obligations.MemoryMapsAreOneToOne :=
  ⟨fun _ _ _ => sliceMap_injective, fun _ _ => stackMap_injective⟩

end Sys2Proof.Machine

namespace Sys2Proof.Machine

/-! ## What accesses of memory leave as it was (07 R204-R207)

An access counts, records and writes granules. It does not touch the registers that steer a bonded controller, the commands of a tile or
the accesses that wait, nor the slices that it does not write. -/

/-- The registers of a tile page that steer a bonded controller, or count its waits and the steps of its in-bank units. -/
def bondedOffsets : List Nat := [Reg.BDM_STATUS, Reg.BDM_CTRL, Reg.BDM_SB_WAIT, Reg.IBU_STEPS_LO, Reg.IBU_STEPS_HI]

def BondedReg (a : Nat) : Prop := tilePages ≤ a ∧ (a - tilePages) % 0x1000 ∈ bondedOffsets

theorem tileReg_offset (ti : Nat) {off : Nat} (h : off < 0x1000) : (tileReg ti off - tilePages) % 0x1000 = off := by
  unfold tileReg
  omega

theorem bondedReg_tileReg (ti : Nat) {off : Nat} (h : off ∈ bondedOffsets) : BondedReg (tileReg ti off) := by
  have hlt : ∀ x ∈ bondedOffsets, x < 0x1000 := by decide
  exact ⟨by unfold tileReg; omega, by rwa [tileReg_offset ti (hlt off h)]⟩

theorem not_bondedReg_tileReg (ti : Nat) {off : Nat} (h : off < 0x1000 ∧ off ∉ bondedOffsets) : ¬ BondedReg (tileReg ti off) :=
  fun k => h.2 (tileReg_offset ti h.1 ▸ k.2)

theorem not_bondedReg_module {a : Nat} (h : a < tilePages) : ¬ BondedReg a := fun k => absurd k.1 (Nat.not_le.2 h)

theorem BondedReg.not_event {a : Nat} (h : BondedReg a) : a ∉ eventRegs := by
  have hlt : ∀ x ∈ eventRegs, x < tilePages := by decide
  exact fun hm => not_bondedReg_module (hlt a hm) h

/-- Between two states of a tile its commands and the accesses that wait are the same, and where `p` holds its slice too. -/
structure Tile.Spared (p : Prop) (x y : Tile) : Prop where
  queue : y.queue = x.queue := by rfl
  waiting : y.waiting = x.waiting := by rfl
  slice : p → y.slice = x.slice ∧ y.sliceGen = x.sliceGen := by exact fun _ => ⟨rfl, rfl⟩

theorem Tile.Spared.trans {p : Prop} {x y z : Tile} (h : x.Spared p y) (k : y.Spared p z) : x.Spared p z where
  queue := k.queue.trans h.queue
  waiting := k.waiting.trans h.waiting
  slice hp := ⟨(k.slice hp).1.trans (h.slice hp).1, (k.slice hp).2.trans (h.slice hp).2⟩

/-- Between two states accesses of memory were performed, none of which wrote a slice of the tiles in `P`, or the stacks. -/
structure State.Spares (P : Nat → Prop) (s t : State) : Prop where
  regs : ∀ a, BondedReg a → t.reg a = s.reg a
  mem : t.stm.mem = s.stm.mem
  tiles : ∀ ti, (s.tile ti).Spared (P ti) (t.tile ti)

theorem State.rawGranule_congr {s t : State} {ti : Nat} (hs : (t.tile ti).slice = (s.tile ti).slice)
    (hg : (t.tile ti).sliceGen = (s.tile ti).sliceGen) (k : Nat) : t.rawGranule ti k = s.rawGranule ti k := by
  unfold State.rawGranule
  rw [hs, hg]

/-- A change of a tile that leaves its slice leaves every granule. -/
theorem State.rawGranule_modTile {s : State} {tj ti k : Nat} {f : Tile → Tile}
    (h : (f (s.tile tj)).slice = (s.tile tj).slice ∧ (f (s.tile tj)).sliceGen = (s.tile tj).sliceGen) :
    (s.modTile tj f).rawGranule ti k = s.rawGranule ti k := by
  have htile : ((s.modTile tj f).tile ti).slice = (s.tile ti).slice ∧ ((s.modTile tj f).tile ti).sliceGen = (s.tile ti).sliceGen := by
    rw [State.tile_modTile]
    split
    · rename_i hti
      rwa [hti]
    · exact ⟨rfl, rfl⟩
  exact State.rawGranule_congr htile.1 htile.2 k

namespace State.Spares
variable {P : Nat → Prop} {s t u : State} {ti : Nat}

theorem refl (s : State) : s.Spares P s := ⟨fun _ _ => rfl, rfl, fun _ => {}⟩

theorem trans (h : s.Spares P t) (k : t.Spares P u) : s.Spares P u :=
  ⟨fun a ha => (k.regs a ha).trans (h.regs a ha), k.mem.trans h.mem, fun ti => (h.tiles ti).trans (k.tiles ti)⟩

/-! ### The updates that do so -/

theorem upd (h : s.Spares P t) (hr : u.regs = t.regs := by rfl) (hm : u.stm.mem = t.stm.mem := by rfl)
    (ht : u.tiles = t.tiles := by rfl) : s.Spares P u :=
  h.trans ⟨fun a _ => by unfold State.reg; rw [hr], hm, fun ti => by unfold State.tile; rw [ht]; exact {}⟩

theorem setReg (h : s.Spares P t) {a : Nat} {v : Word} (k : ¬ BondedReg a) : s.Spares P (t.setReg a v) :=
  h.trans ⟨fun _ hb => t.reg_setReg_ne v (fun e => k (e ▸ hb)), rfl, fun _ => {}⟩

theorem count (h : s.Spares P t) {a n : Nat} (k : ¬ BondedReg a) : s.Spares P (t.count a n) := h.setReg k

theorem countTile (h : s.Spares P t) {off n : Nat} (k : off < 0x1000 ∧ off ∉ bondedOffsets := by decide) :
    s.Spares P (t.count (tileReg ti off) n) := h.setReg (not_bondedReg_tileReg ti k)

theorem setTileFld (h : s.Spares P t) {off hi lo v : Nat} (k : off < 0x1000 ∧ off ∉ bondedOffsets := by decide) :
    s.Spares P (t.setFld (tileReg ti off) hi lo v) := h.setReg (not_bondedReg_tileReg ti k)

theorem setTile (h : s.Spares P t) {x : Tile} (k : (t.tile ti).Spared (P ti) x := by exact {}) : s.Spares P (t.setTile ti x) := by
  refine h.trans ⟨fun _ _ => rfl, rfl, fun j => ?_⟩
  rw [State.tile_setTile]
  split
  · rename_i hj
    exact hj ▸ k
  · exact {}

theorem modTile (h : s.Spares P t) {f : Tile → Tile} (k : ∀ x : Tile, x.Spared (P ti) (f x) := by exact fun _ => {}) :
    s.Spares P (t.modTile ti f) := h.setTile (k _)

/-- Granules are written where `P` does not hold. -/
theorem putGranule (h : s.Spares P t) {k : Nat} {c : BitVec 288} (hP : ¬ P ti) : s.Spares P (t.putGranule ti k c) :=
  h.modTile fun _ => { slice := fun hp => absurd hp hP }

theorem recordEvent (h : s.Spares P t) (code source p0 p1 p2 : Nat) : s.Spares P (recordEvent t code source p0 p1 p2) :=
  h.trans ⟨fun _ ha => recordEvent_reg _ _ _ _ _ _ ha.not_event, by rw [recordEvent_stm],
    fun ti => by unfold State.tile; rw [recordEvent_tiles]; exact {}⟩

theorem ite {c : Prop} [Decidable c] (h : s.Spares P t) (k : s.Spares P u) : s.Spares P (if c then t else u) := by
  split
  · exact h
  · exact k

theorem foldl {α : Type} {g : State → α → State} {l : List α} (h : s.Spares P t) (k : ∀ (x : State) (a : α), x.Spares P (g x a)) :
    s.Spares P (l.foldl g t) :=
  List.foldlRecOn (motive := s.Spares P) l g h fun x hx a _ => hx.trans (k x a)

/-! ### What it gives -/

theorem queue (h : s.Spares P t) (ti : Nat) : (t.tile ti).queue = (s.tile ti).queue := (h.tiles ti).queue

theorem fld (h : s.Spares P t) (ti : Nat) {off : Nat} (k : off ∈ bondedOffsets) (hi lo : Nat) :
    t.fld (tileReg ti off) hi lo = s.fld (tileReg ti off) hi lo := by
  unfold State.fld
  rw [h.regs _ (bondedReg_tileReg ti k)]

theorem rawGranule (h : s.Spares P t) (hp : P ti) (k : Nat) : t.rawGranule ti k = s.rawGranule ti k := by
  obtain ⟨hs, hg⟩ := (h.tiles ti).slice hp
  exact State.rawGranule_congr hs hg k

theorem sameSlices (h : s.Spares (fun _ => True) t) : s.SameSlices t := fun _ k => h.rawGranule trivial k

end State.Spares

/-- The mapping that a slice runs in is steered by BDM_CTRL alone (Table 7.9). -/
theorem State.sliceOf_congr {s t : State} (h : ∀ a, BondedReg a → t.reg a = s.reg a) (ti : Nat) (tier : Tier) :
    t.sliceOf ti tier = s.sliceOf ti tier := by
  unfold State.sliceOf State.stripe State.fld
  rw [h _ (bondedReg_tileReg ti (by decide))]

theorem State.packetPair_congr {s t : State} (h : ∀ a, BondedReg a → t.reg a = s.reg a) (p : Packet) :
    t.packetPair p = s.packetPair p := by
  unfold State.packetPair
  rw [State.sliceOf_congr h]

/-- A reader of a slice receives the same data where no slice was written. -/
theorem State.Spares.readGran {s t : State} (h : s.Spares (fun _ => True) t) {tier : Tier} (ht : tier ≠ .stack) (ti addr : Nat) :
    t.readGran ti tier addr = s.readGran ti tier addr := by
  have hc : t.readCoded ti tier addr = s.readCoded ti tier addr := by
    cases tier with
    | stack => exact absurd rfl ht
    | own | adopted =>
      simp only [State.readCoded]
      rw [State.sliceOf_congr h.regs, h.rawGranule trivial]
  cases tier with
  | stack => exact absurd rfl ht
  | own | adopted =>
    simp only [State.readGran]
    rw [hc]

/-! ### Reads and writes of granules -/

section
variable {P : Nat → Prop}

theorem countBond_spares (s : State) {layer : Nat} (hl : layer < 8) (slice bond n : Nat) : s.Spares P (countBond s slice layer bond n) := by
  unfold countBond
  extract_lets t k l sum s1 a
  have h1 : s.Spares P s1 := (State.Spares.refl s).setTile
  have hb : ∀ l < 8, Reg.BDM_BOND + l < 0x1000 ∧ Reg.BDM_BOND + l ∉ bondedOffsets := by decide
  exact h1.ite ((h1.modTile.setTileFld (hb layer hl)).ite (h1.modTile.recordEvent ..))

theorem noteBondedRead_spares (s : State) (ti : Nat) (tier : Tier) (addr : Nat) : s.Spares P (noteBondedRead s ti tier addr) := by
  have h : s.Spares P s := State.Spares.refl s
  unfold noteBondedRead
  extract_lets sl k c syn s1 s2 row b s3 s4 s5
  have h1 : s.Spares P s1 := h.countTile
  have h2 : s.Spares P s2 := h1.foldl fun x b => countBond_spares x (granuleLayer_sliceGranule _ _) _ b 1
  have h3 : s.Spares P s3 := h2.modTile
  split
  · exact .ite h3.modTile h3
  · exact .ite h3.modTile h3
  · exact h.countTile.setTileFld.recordEvent ..
  · exact h.countTile.setTileFld.recordEvent ..
  · exact h

theorem noteStackRead_spares (s : State) (ti addr : Nat) : s.Spares P (noteStackRead s ti addr) := by
  have h : s.Spares P s := State.Spares.refl s
  have hs := stackMap_stack_lt addr
  have hc (b : Nat) (hb : b + 16 < tilePages) : s.Spares P (s.count (b + (stackMap addr).stack) 1) :=
    h.count (not_bondedReg_module (by omega))
  unfold noteStackRead
  extract_lets m s1 row b q s2 s3 q' s4
  have h2 : s.Spares P s2 := (hc Reg.STM_CE_COUNT (by decide)).upd
  have hce : s.Spares P (if b.2 = 16 then s2.scheduleRepair m else s2) := h2.upd.ite h2
  split
  · exact hce
  · exact hce
  · exact (hc _ (by decide)).recordEvent ..
  · exact h.upd.countTile.recordEvent ..
  · exact h

theorem noteRead_spares (s : State) (ti : Nat) (tier : Tier) (addr : Nat) : s.Spares P (noteRead s ti tier addr) := by
  unfold noteRead
  split
  · exact noteStackRead_spares s ti addr
  · exact noteBondedRead_spares s ti _ addr

/-- A write of a granule changes the slice it names, and no other. -/
theorem writeBonded_spares (s : State) (ti : Nat) {x : MemWrite} (hP : ¬ P (s.sliceOf ti x.tier).1) :
    s.Spares P (writeBonded s ti x) := by
  have h : s.Spares P s := State.Spares.refl s
  have hr : s.Spares P ((noteBondedRead s ti x.tier x.addr).count (tileReg ti Reg.BDM_RMW_COUNT) 1) :=
    (noteBondedRead_spares s ti x.tier x.addr).countTile
  exact .ite (h.putGranule hP) (.ite (h.putGranule hP) (.ite (.recordEvent (hr.putGranule hP) ..) (hr.putGranule hP)))

theorem answerRead_spares (s : State) (p : Packet) : s.Spares P (answerRead s p) :=
  ((State.Spares.refl s).foldl fun x g => noteRead_spares x p.srcId (packetMem p) g).upd

/-- The arrival of a packet reports its CRC at most. -/
theorem arrive_spares (s : State) (p : Packet) : s.Spares P (s.arrive p) := by
  have h : s.Spares P { s with mesh := s.mesh.erase p } := (State.Spares.refl s).upd
  have hc : s.Spares P (reportCrc { s with mesh := s.mesh.erase p } p) := by
    unfold reportCrc
    exact .recordEvent (.modTile (.countTile h.upd)) ..
  exact hc.ite h

end

end Sys2Proof.Machine

namespace Sys2Proof.Machine

/-! ## The bonded controller serves (07 R204-R207, R213, R222) -/

theorem granuleDecode_granuleEncode (d : BitVec 256) (g : Nat) : granuleDecode (granuleEncode d g) g = (.clean, d) := by
  have hd : (granuleEncode d g).extractLsb' 0 256 = d := by
    unfold granuleEncode
    exact BitVec.extractLsb'_append_eq_right
  have hc : (granuleEncode d g).extractLsb' 256 32 = granuleCheck d g false := by
    unfold granuleEncode
    exact BitVec.extractLsb'_append_eq_left
  unfold granuleDecode
  dsimp only
  rw [hd, hc, BitVec.xor_self]
  rfl

/-- A granule stored reads back, and every other granule as before. -/
theorem State.rawGranule_putGranule (s : State) (slice k ti j : Nat) (c : BitVec 288) :
    (s.putGranule slice k c).rawGranule ti j = if ti = slice ∧ j = k then c else s.rawGranule ti j := by
  unfold State.rawGranule State.putGranule
  rw [State.tile_modTile]
  by_cases ht : ti = slice
  · subst ht
    rw [if_pos rfl]
    dsimp only
    rw [SMap.get?_put]
    by_cases hj : j = k <;> simp [hj]
  · simp [ht]

section
variable {s : State} {p : Packet}

theorem packetMem_ne_stack (h : p.dstKind ≠ 1) : packetMem p ≠ .stack := by
  unfold packetMem
  rw [if_neg h]
  split <;> decide

theorem exec_memRead_bonded (h : p.dstKind ≠ 1) :
    exec (.memRead p) s = .next (bondedRequest (s.arrive p) { p with ptype := .memRead }) := by
  show execMemRead p s = _
  unfold execMemRead
  dsimp only
  rw [if_neg h]

theorem exec_memWrite_bonded (h : p.dstKind ≠ 1) :
    exec (.memWrite p) s = .next (bondedRequest (s.arrive p) { p with ptype := .memWrite }) := by
  show execMemWrite p s = _
  unfold execMemWrite
  dsimp only
  rw [if_neg h]

/-- A controller that a request has reached asks of the state before its arrival whether to serve it. -/
theorem bondedRequest_arrive (t : PktType) : bondedRequest (s.arrive p) { p with ptype := t } =
    if !s.usable p.dstId then nackMem (s.arrive p) { p with ptype := t }
    else if s.bdmHeld p.dstId then (s.arrive p).modTile p.dstId (fun x => { x with waiting := x.waiting ++ [{ p with ptype := t }] })
    else if !p.adopted && (s.tile p.dstId).pairBusy (s.packetPair p).1 (s.packetPair p).2 then
      ((s.arrive p).modTile p.dstId (fun x => { x with waiting := x.waiting ++ [{ p with ptype := t }] })).count
        (tileReg p.dstId Reg.BDM_SB_WAIT) 1
    else serveBonded (s.arrive p) { p with ptype := t } := by
  have h : s.Spares (fun _ => True) (s.arrive p) := arrive_spares s p
  have hpair : (s.arrive p).packetPair { p with ptype := t } = s.packetPair p := State.packetPair_congr h.regs _
  have hheld : (s.arrive p).bdmHeld p.dstId = s.bdmHeld p.dstId := by
    unfold State.bdmHeld
    rw [h.fld p.dstId (by decide)]
  have hbusy (layer pair : Nat) : ((s.arrive p).tile p.dstId).pairBusy layer pair = (s.tile p.dstId).pairBusy layer pair := by
    unfold Tile.pairBusy
    rw [h.queue]
  unfold bondedRequest
  dsimp only
  rw [hpair, hheld, hbusy, State.arrive_usable]

theorem bondedRequest_serves (h : s.BondedServes p) (t : PktType) :
    bondedRequest (s.arrive p) { p with ptype := t } = serveBonded (s.arrive p) { p with ptype := t } := by
  obtain ⟨-, hu, hh, hb⟩ := h
  have hbusy : (!p.adopted && (s.tile p.dstId).pairBusy (s.packetPair p).1 (s.packetPair p).2) = false := by
    rcases hb with hb | hb <;> simp [hb]
  rw [bondedRequest_arrive, hu, hh, hbusy]
  rfl

theorem bondedRequest_waits (hu : s.usable p.dstId = true) (hh : s.bdmHeld p.dstId = false) (ha : p.adopted = false)
    (hb : (s.tile p.dstId).pairBusy (s.packetPair p).1 (s.packetPair p).2 = true) (t : PktType) :
    bondedRequest (s.arrive p) { p with ptype := t } =
      ((s.arrive p).modTile p.dstId (fun x => { x with waiting := x.waiting ++ [{ p with ptype := t }] })).count
        (tileReg p.dstId Reg.BDM_SB_WAIT) 1 := by
  rw [bondedRequest_arrive, hu, hh, ha, hb]
  rfl

/-- The answer to a read carries the data that its granules read as. -/
theorem answerRead_answers {u : State} (h : s.Spares (fun _ => True) u) (hm : packetMem p ≠ .stack) :
    s.AnswersRead (answerRead u p) p := by
  refine ⟨_, List.mem_append_right _ (List.mem_singleton_self _), rfl, rfl, rfl, rfl, rfl, rfl, ?_⟩
  simp only [h.readGran hm]

end

/-! ### The acceptance of a write (02 R45) -/

section
variable (s : State) (p : Packet)

theorem acceptWrite_reg (a : Nat) : (acceptWrite s p).reg a = s.reg a := rfl

/-- Acceptance changes the queue of the sender's tile alone. -/
theorem acceptWrite_tile (ti : Nat) : ∃ q, (acceptWrite s p).tile ti = { s.tile ti with queue := q } := by
  unfold acceptWrite
  rw [State.tile_modTile]
  split
  · rename_i hj
    subst hj
    split
    · exact ⟨_, rfl⟩
    · exact ⟨_, rfl⟩
  · exact ⟨_, rfl⟩

theorem acceptWrite_rawGranule (ti k : Nat) : (acceptWrite s p).rawGranule ti k = s.rawGranule ti k := by
  obtain ⟨q, h⟩ := acceptWrite_tile s p ti
  exact State.rawGranule_congr (by rw [h]) (by rw [h]) k

theorem acceptWrite_accepted : s.Accepted (acceptWrite s p) p := by
  intro e he
  unfold acceptWrite
  rw [State.tile_modTile_same]
  simp only [he]
  exact Tile.mem_putEntry (List.mem_of_find?_eq_some he) rfl

end

/-- The acceptance is the same where the commands of the sender's tile are. -/
theorem State.Accepted.of_spares {P : Nat → Prop} {s u t : State} {p : Packet} (h : s.Spares P u) (k : u.Accepted t p) : s.Accepted t p := by
  intro e he
  refine k e ?_
  unfold Tile.entry? at he ⊢
  rw [h.queue, he]

/-- A whole granule is stored without a read. -/
theorem writeBonded_whole {s : State} {ti : Nat} {x : MemWrite} (hp : x.poison = false) (hm : x.mask = BitVec.allOnes 256) :
    writeBonded s ti x = s.putGranule (s.sliceOf ti x.tier).1 (sliceGranule x.addr (s.sliceOf ti x.tier).2)
      (granuleEncode x.data (bondedG (s.sliceOf ti x.tier).1 (sliceGranule x.addr (s.sliceOf ti x.tier).2))) := by
  unfold writeBonded
  dsimp only
  rw [hp, if_neg Bool.false_ne_true, if_pos hm]

/-- A write of one whole granule of the own slice stores it and accepts the write. -/
theorem serveBonded_whole {s : State} {p : Packet} {x : Piece} (hw : p.ptype ≠ .memRead) (hown : packetMem p = .own)
    (hx : p.pieces = [x]) (hp : x.poison = false) (hm : x.mask = BitVec.allOnes 256) {k : Nat}
    (hk : sliceGranule (p.addr / 32 * 32 + 32 * x.idx) (s.stripe p.dstId) = k) :
    serveBonded s p = acceptWrite (s.putGranule p.dstId k (granuleEncode x.data (bondedG p.dstId k))) p := by
  subst hk
  rw [serveBonded, if_neg hw, hx, List.foldl_cons, List.foldl_nil, writeBonded_whole hp hm, hown]
  rfl

theorem State.stripe_putGranule (s : State) (slice k ti : Nat) (c : BitVec 288) : (s.putGranule slice k c).stripe ti = s.stripe ti := rfl
theorem acceptWrite_stripe (s : State) (p : Packet) (ti : Nat) : (acceptWrite s p).stripe ti = s.stripe ti := rfl
theorem State.rawGranule_count (s : State) (a n ti k : Nat) : (s.count a n).rawGranule ti k = s.rawGranule ti k := rfl

theorem State.readCoded_own {s : State} {ti addr k : Nat} (hk : sliceGranule addr (s.stripe ti) = k) :
    s.readCoded ti .own addr = granuleDecode (s.rawGranule ti k) (bondedG ti k) := by
  subst hk
  rfl

/-- Settles O25: the arrival of the request changes nothing that the controller asks or serves, so each clause is what the controller does
with it: an answer, a granule stored, or a place among the waiting accesses. -/
theorem bondedControllersServe : Obligations.BondedControllersServe := by
  refine ⟨fun s p h => ⟨_, exec_memRead_bonded h.1, ?_⟩, fun s p x h hown hx hpoison hmask => ⟨_, exec_memWrite_bonded h.1, ?_⟩,
    fun s p hd hu hh ha hb => ⟨_, exec_memRead_bonded hd, ?_⟩⟩
  · rw [bondedRequest_serves h]
    have hin : s.Spares (fun _ => True) (s.arrive p) := arrive_spares s p
    have hout := hin.trans (answerRead_spares (s.arrive p) { p with ptype := .memRead })
    exact ⟨answerRead_answers (p := { p with ptype := .memRead }) hin (packetMem_ne_stack h.1), hout.sameSlices, hout.mem⟩
  · rw [bondedRequest_serves h]
    have hin : s.Spares (fun _ => True) (s.arrive p) := arrive_spares s p
    have hstripe : (s.arrive p).stripe p.dstId = s.stripe p.dstId := hin.fld p.dstId (by decide) 15 8
    generalize hk : sliceGranule (p.addr / 32 * 32 + 32 * x.idx) (s.stripe p.dstId) = k
    rw [← hstripe] at hk
    have hserve : serveBonded (s.arrive p) { p with ptype := .memWrite } =
        acceptWrite ((s.arrive p).putGranule p.dstId k (granuleEncode x.data (bondedG p.dstId k))) { p with ptype := .memWrite } :=
      serveBonded_whole (p := { p with ptype := .memWrite }) nofun hown hx hpoison hmask hk
    rw [hserve]
    refine ⟨?_, fun ti j hne => ?_, ?_⟩
    · rw [State.readCoded_own (by rw [acceptWrite_stripe, State.stripe_putGranule, hk]), acceptWrite_rawGranule,
        State.rawGranule_putGranule, if_pos ⟨rfl, rfl⟩, granuleDecode_granuleEncode]
    · rw [acceptWrite_rawGranule, State.rawGranule_putGranule, if_neg (by tauto), hin.rawGranule trivial]
    · have hput : s.Spares (fun _ => False) ((s.arrive p).putGranule p.dstId k (granuleEncode x.data (bondedG p.dstId k))) :=
        (arrive_spares s p).putGranule id
      exact .of_spares hput (acceptWrite_accepted _ _)
  · rw [bondedRequest_waits hu hh ha hb]
    have hin : s.Spares (fun _ => True) (s.arrive p) := arrive_spares s p
    refine ⟨?_, ?_, ?_⟩
    · rw [State.tile, State.count_tiles, ← State.tile, State.tile_modTile_same]
      exact List.mem_append_right _ (List.mem_singleton_self _)
    · rw [State.Counted, State.toNat_reg_count, State.reg_modTile, hin.regs _ (bondedReg_tileReg p.dstId (by decide))]
    · intro ti k
      rw [State.rawGranule_count, State.rawGranule_modTile ⟨rfl, rfl⟩, hin.rawGranule trivial]

end Sys2Proof.Machine

namespace Sys2Proof.Machine

/-! ## A step of an in-bank unit (07 R213-R216) -/

/-- The count of steps is kept where the registers of the bonded controllers are. -/
theorem State.steps_congr {s t : State} (h : ∀ a, BondedReg a → t.reg a = s.reg a) (ti : Nat) :
    t.reg64 (tileReg ti Reg.IBU_STEPS_LO) = s.reg64 (tileReg ti Reg.IBU_STEPS_LO) :=
  State.reg64_congr (h _ (bondedReg_tileReg ti (by decide))) (h _ (bondedReg_tileReg ti (off := Reg.IBU_STEPS_HI) (by decide)))

/-- The commands of a tile under a serial are there, and all of them wait for one thing. -/
def Tile.Awaits (t : Tile) (serial : Nat) (w : Waits) : Prop :=
  (∃ e ∈ t.queue, e.serial = serial) ∧ ∀ e ∈ t.queue, e.serial = serial → e.waits = w

/-- An entry put back stands for every command under its serial. -/
theorem Tile.awaits_putEntry {t : Tile} {e f : QEntry} (he : e ∈ t.queue) (hs : e.serial = f.serial) :
    (t.putEntry f).Awaits f.serial f.waits := by
  refine ⟨⟨f, Tile.mem_putEntry he hs, rfl⟩, fun g hg hgs => ?_⟩
  obtain ⟨x, -, rfl⟩ := List.mem_map.1 hg
  by_cases hx : x.serial = f.serial
  · rw [if_pos hx]
  · rw [if_neg hx] at hgs
    exact absurd hgs hx

/-- An entry put back with what it waited for leaves what the commands of the tile wait for. -/
theorem Tile.Awaits.putEntry {t : Tile} {n : Nat} {w : Waits} (h : t.Awaits n w) {e f : QEntry} (he : e ∈ t.queue)
    (hs : f.serial = e.serial) (hw : f.waits = e.waits) : (t.putEntry f).Awaits n w := by
  obtain ⟨⟨a, ha, han⟩, hall⟩ := h
  refine ⟨⟨_, List.mem_map_of_mem ha, ?_⟩, fun g hg hgn => ?_⟩
  · split <;> simp_all
  · obtain ⟨x, hx, rfl⟩ := List.mem_map.1 hg
    by_cases hxf : x.serial = f.serial
    · rw [if_pos hxf] at hgn ⊢
      rw [hw, hall e he (hs ▸ hgn)]
    · rw [if_neg hxf] at hgn ⊢
      exact hall x hx hgn

/-- Between two states requests were served: the controllers are steered alike, the same accesses wait, and the commands that wait for a
thing still do. -/
structure State.Serves (s t : State) : Prop where
  regs : ∀ a, BondedReg a → t.reg a = s.reg a
  waiting : ∀ ti, (t.tile ti).waiting = (s.tile ti).waiting
  awaits : ∀ ti n w, (s.tile ti).Awaits n w → (t.tile ti).Awaits n w

namespace State.Serves
variable {s t u : State}

theorem refl (s : State) : s.Serves s := ⟨fun _ _ => rfl, fun _ => rfl, fun _ _ _ h => h⟩

theorem trans (h : s.Serves t) (k : t.Serves u) : s.Serves u :=
  ⟨fun a ha => (k.regs a ha).trans (h.regs a ha), fun ti => (k.waiting ti).trans (h.waiting ti),
    fun ti n w hw => k.awaits ti n w (h.awaits ti n w hw)⟩

end State.Serves

theorem State.Spares.serves {P : Nat → Prop} {s t : State} (h : s.Spares P t) : s.Serves t where
  regs := h.regs
  waiting ti := (h.tiles ti).waiting
  awaits ti n w hw := by
    unfold Tile.Awaits at hw ⊢
    rwa [h.queue]

theorem acceptWrite_serves (s : State) (p : Packet) : s.Serves (acceptWrite s p) where
  regs a _ := acceptWrite_reg s p a
  waiting ti := by
    obtain ⟨q, h⟩ := acceptWrite_tile s p ti
    rw [h]
  awaits ti n w hw := by
    unfold acceptWrite
    rw [State.tile_modTile]
    split
    · rename_i hti
      subst hti
      split
      · exact hw
      · rename_i e he
        exact hw.putEntry (List.mem_of_find?_eq_some he) rfl rfl
    · exact hw

theorem serveBonded_serves (s : State) (p : Packet) : s.Serves (serveBonded s p) := by
  unfold serveBonded
  split
  · exact (answerRead_spares (P := fun _ => True) s p).serves
  · have hwritten : s.Spares (fun _ => False) (p.pieces.foldl (fun s x =>
        writeBonded s p.dstId ⟨packetMem p, p.addr / 32 * 32 + 32 * x.idx, x.data, x.mask, x.poison⟩) s) :=
      (State.Spares.refl s).foldl fun x _ => writeBonded_spares x p.dstId id
    exact hwritten.serves.trans (acceptWrite_serves _ p)

/-- An access waits for a pair of the own slice (07 R213). -/
def State.waitsFor (s : State) (layer pair : Nat) (p : Packet) : Bool :=
  decide (s.packetPair p = (layer, pair)) && !p.adopted

/-- The state in which the accesses that waited for a pair are taken up. -/
def State.takenUp (s : State) (ti layer pair : Nat) : State :=
  s.modTile ti (fun t => { t with waiting := t.waiting.filter (fun p => !s.waitsFor layer pair p) })

theorem serveWaiting_eq (s : State) (ti layer pair : Nat) :
    serveWaiting s ti layer pair = ((s.tile ti).waiting.filter (s.waitsFor layer pair)).foldl serveBonded (s.takenUp ti layer pair) := rfl

theorem serveWaiting_serves (s : State) (ti layer pair : Nat) : (s.takenUp ti layer pair).Serves (serveWaiting s ti layer pair) :=
  List.foldlRecOn (motive := (s.takenUp ti layer pair).Serves) _ _ (.refl _) fun x hx p _ => hx.trans (serveBonded_serves x p)

section
variable {s : State} {ti layer pair : Nat}

theorem serveWaiting_reg {a : Nat} (h : BondedReg a) : (serveWaiting s ti layer pair).reg a = s.reg a :=
  (serveWaiting_serves s ti layer pair).regs a h

/-- Serving the waiting accesses leaves what the commands of the tiles wait for. -/
theorem serveWaiting_awaits {n : Nat} {w : Waits} (h : (s.tile ti).Awaits n w) : ((serveWaiting s ti layer pair).tile ti).Awaits n w := by
  refine (serveWaiting_serves s ti layer pair).awaits ti n w ?_
  rw [State.takenUp, State.tile_modTile_same]
  exact h

/-- No access of the own slice waits for the pair any more. -/
theorem serveWaiting_none_waits {p : Packet} (h : p ∈ ((serveWaiting s ti layer pair).tile ti).waiting) :
    ¬ (p.adopted = false ∧ (serveWaiting s ti layer pair).packetPair p = (layer, pair)) := by
  have hserves := serveWaiting_serves s ti layer pair
  rw [hserves.waiting, State.takenUp, State.tile_modTile_same] at h
  have hp := (List.mem_filter.1 h).2
  rw [State.packetPair_congr hserves.regs]
  rintro ⟨ha, hpair⟩
  have hs : s.packetPair p = (layer, pair) := hpair
  simp [State.waitsFor, ha, hs] at hp

theorem serveWaiting_rawGranule (h : (s.tile ti).waiting = []) (tj k : Nat) :
    (serveWaiting s ti layer pair).rawGranule tj k = s.rawGranule tj k := by
  rw [serveWaiting_eq, h, List.filter_nil, List.foldl_nil]
  exact State.rawGranule_modTile ⟨rfl, rfl⟩

end

/-! ### The step itself -/

theorem writePair_spares (s : State) (ti layer pair : Nat) (outs : List IbuOut) : s.Spares (· ≠ ti) (writePair s ti layer pair outs).1 := by
  unfold writePair
  refine (State.Spares.refl s).foldl fun x b => ?_
  have hput (k : Nat) (c : BitVec 288) : x.Spares (· ≠ ti) (x.putGranule ti k c) := (State.Spares.refl x).putGranule (fun h => h rfl)
  exact .ite (hput ..) (.ite (hput ..) (.ite (hput ..) (hput ..)))

theorem State.tile_setReg64 (s : State) (a v j : Nat) : (s.setReg64 a v).tile j = s.tile j := rfl

/-- A step writes its results, counts itself, and reports the poison it stored. -/
theorem runStep_cases (s : State) (ti pair : Nat) (f : IbuFields) (left : Nat) :
    ∃ u, s.Spares (· ≠ ti) u ∧
      (u.setReg64 (tileReg ti Reg.IBU_STEPS_LO) ((u.reg64 (tileReg ti Reg.IBU_STEPS_LO) + 1) % 2 ^ 64)).Spares (· ≠ ti)
        (runStep s ti pair f left) := by
  unfold runStep
  extract_lets total step ce r s1 a s2 s3
  refine ⟨s1, (writePair_spares ..).countTile, ?_⟩
  split
  · exact .refl _
  · exact ((State.Spares.refl s2).countTile.setTileFld).recordEvent ..

section
variable (s : State) (ti pair : Nat) (f : IbuFields) (left : Nat)

theorem runStep_steps : (runStep s ti pair f left).reg64 (tileReg ti Reg.IBU_STEPS_LO) =
    (s.reg64 (tileReg ti Reg.IBU_STEPS_LO) + 1) % 2 ^ 64 := by
  obtain ⟨u, hu, ht⟩ := runStep_cases s ti pair f left
  rw [State.steps_congr ht.regs, State.reg64_setReg64, State.steps_congr hu.regs, Nat.mod_mod]

/-- A step changes no command, no waiting access, and no slice but its tile's. -/
theorem runStep_tile (j : Nat) : (s.tile j).Spared (j ≠ ti) ((runStep s ti pair f left).tile j) := by
  obtain ⟨u, hu, ht⟩ := runStep_cases s ti pair f left
  have hlast := ht.tiles j
  rw [State.tile_setReg64] at hlast
  exact (hu.tiles j).trans hlast

end

/-- The steps left on each pair after one of them ends a step: a pair with none left is done. -/
def stepsLeft (left : List (Nat × Nat)) (pair : Nat) : List (Nat × Nat) :=
  (left.map (fun x => if x.1 = pair then (x.1, x.2 - 1) else x)).filter (fun x => decide (x.2 ≠ 0))

theorem mem_stepsLeft {left : List (Nat × Nat)} {pair q n : Nat} :
    (q, n) ∈ stepsLeft left pair ↔ n ≠ 0 ∧ ∃ m, (q, m) ∈ left ∧ n = if q = pair then m - 1 else m := by
  have hstep (x : Nat × Nat) : (if x.1 = pair then (x.1, x.2 - 1) else x) = (x.1, if x.1 = pair then x.2 - 1 else x.2) := by
    split <;> rfl
  simp only [stepsLeft, hstep, List.mem_filter, List.mem_map, Prod.mk.injEq, decide_eq_true_eq, Prod.exists]
  constructor
  · rintro ⟨⟨q, m, hm, rfl, rfl⟩, hn⟩
    exact ⟨hn, m, hm, rfl⟩
  · rintro ⟨hn, m, hm, rfl⟩
    exact ⟨⟨q, m, hm, rfl, rfl⟩, hn⟩

/-- The steps left on a pair before it ends one. -/
def stepsOn (left : List (Nat × Nat)) (pair : Nat) : Nat := ((left.find? (fun x => decide (x.1 = pair))).map (·.2)).getD 1

/-- The state after a step of a command, before the waiting accesses are served. -/
def State.stepped (s : State) (ti pair : Nat) (e : QEntry) (f : IbuFields) (left : List (Nat × Nat)) : State :=
  (runStep s ti pair f (stepsOn left pair)).modTile ti
    (fun t => t.putEntry { e with waits := .ibu f (stepsLeft left pair) true })

theorem exec_ibuStepDone {s : State} {ti layer pair : Nat} {e : QEntry} {f : IbuFields} {left : List (Nat × Nat)}
    (h : (s.tile ti).queue.find? (fun e => e.runsOn layer pair) = some e) (hw : e.waits = .ibu f left true) :
    exec (.ibuStepDone ti layer pair) s = .next (serveWaiting (s.stepped ti pair e f left) ti layer pair) := by
  show execIbuStepDone ti layer pair s = _
  unfold execIbuStepDone
  simp only [h, hw]
  rfl

section
variable {s : State} {ti pair : Nat} {e : QEntry} {f : IbuFields} {left : List (Nat × Nat)}

theorem State.stepped_tile : (s.stepped ti pair e f left).tile ti =
    ((runStep s ti pair f (stepsOn left pair)).tile ti).putEntry
      { e with waits := .ibu f (stepsLeft left pair) true } :=
  State.tile_modTile_same ..

theorem State.stepped_awaits (h : e ∈ (s.tile ti).queue) :
    ((s.stepped ti pair e f left).tile ti).Awaits e.serial (.ibu f (stepsLeft left pair) true) := by
  rw [State.stepped_tile]
  refine Tile.awaits_putEntry (e := e) ?_ rfl
  rwa [(runStep_tile ..).queue]

theorem State.stepped_waiting : ((s.stepped ti pair e f left).tile ti).waiting = (s.tile ti).waiting := by
  rw [State.stepped_tile]
  exact (runStep_tile ..).waiting

theorem State.stepped_rawGranule {tj : Nat} (h : tj ≠ ti) (k : Nat) : (s.stepped ti pair e f left).rawGranule tj k = s.rawGranule tj k := by
  obtain ⟨hslice, hgen⟩ := (runStep_tile s ti pair f (stepsOn left pair) tj).slice h
  exact (State.rawGranule_modTile ⟨rfl, rfl⟩).trans (State.rawGranule_congr hslice hgen k)

end

/-- Settles O31: the step takes one from the pair's steps in the entry it puts back and counts itself, and serving the accesses that waited
leaves both. -/
theorem inBankUnitsStep : Obligations.InBankUnitsStep := by
  intro s ti layer pair e f left h hw
  refine ⟨_, exec_ibuStepDone h hw, ?_, fun hwait tj k hne => ?_, ?_, fun p => serveWaiting_none_waits⟩
  · have hstepped := State.stepped_awaits (pair := pair) (f := f) (left := left) (List.mem_of_find?_eq_some h)
    obtain ⟨⟨g, hg, hserial⟩, hall⟩ := serveWaiting_awaits (layer := layer) (pair := pair) hstepped
    exact ⟨g, _, hg, hserial, hall g hg hserial, fun q n => mem_stepsLeft⟩
  · rw [serveWaiting_rawGranule (State.stepped_waiting.trans hwait), State.stepped_rawGranule hne]
  · rw [State.steps_congr fun _ => serveWaiting_reg, State.stepped, State.reg64_modTile, runStep_steps]

end Sys2Proof.Machine

namespace Sys2Proof.Machine

/-! ## Counts outside the tile pages clear (08 R256, 10 R317, 11 R351, 12 R389, 13 R411) -/

/-- A row of consecutive registers, listed by the offset or by the address. -/
theorem State.resetRegs_regRange (s : State) (a n : Nat) : s.resetRegs ((List.range n).map (· + a)) = s.resetRegs (regRange a n) := by
  simp only [regRange, Nat.add_comm a]

/-- Settles O33: each register puts back the counts that its row lists. -/
theorem moduleCountersClear : Obligations.ModuleCountersClear := by
  intro s c l hc
  have clears (h : exec c s = .next (s.resetRegs l)) : ∃ t, exec c s = .next t ∧ s.RegsOnly t l ∧ ∀ a ∈ l, t.reg a = resetOf a :=
    ⟨_, h, s.resetRegs_regsOnly l, fun a ha => by rw [s.reg_resetRegs, if_pos ha]⟩
  have range (a n : Nat) := congrArg (Host.Outcome.next (φ := Fault) (ρ := Refusal)) (s.resetRegs_regRange a n)
  simp only [List.mem_cons, Prod.mk.injEq, List.not_mem_nil, or_false] at hc
  obtain ⟨rfl, rfl⟩ | ⟨rfl, rfl⟩ | ⟨rfl, rfl⟩ | ⟨rfl, rfl⟩ | ⟨rfl, rfl⟩ | ⟨rfl, rfl⟩ := hc
  case inl | inr.inr.inr.inr.inr => exact clears rfl
  all_goals exact clears (range _ _)

end Sys2Proof.Machine

namespace Sys2Proof.Machine

/-! ## The poison pattern of a granule (09 R265, R268) -/

/-- The locator after a run of symbols depends on their number alone. -/
theorem checkNibbles_locator (n v w : Nat) (x : BitVec 8) (c d : Check4) : (checkNibbles n v x c).2 = (checkNibbles n w x d).2 := by
  induction n generalizing v w x c d with
  | zero => rfl
  | succ n ih => exact ih ..

/-- The check bytes of data and address, and the locator of the marker. -/
def unmarkedCheck (d : BitVec 256) (g : Nat) : Check4 × BitVec 8 :=
  checkNibbles 10 g (checkNibbles 64 d.toNat 1 ⟨0, 0, 0, 0⟩).2 (checkNibbles 64 d.toNat 1 ⟨0, 0, 0, 0⟩).1

theorem unmarkedCheck_locator (d : BitVec 256) (g : Nat) : (unmarkedCheck d g).2 = (unmarkedCheck 0 0).2 := by
  unfold unmarkedCheck
  rw [checkNibbles_locator 64 d.toNat (0 : BitVec 256).toNat 1 ⟨0, 0, 0, 0⟩ ⟨0, 0, 0, 0⟩]
  exact checkNibbles_locator ..

/-- The four check bytes as a word, C1 lowest. -/
def Check4.word (c : Check4) : BitVec 32 := c.c4 ++ c.c3 ++ c.c2 ++ c.c1

theorem granuleCheck_eq (d : BitVec 256) (g : Nat) (poison : Bool) : granuleCheck d g poison =
    ((unmarkedCheck d g).1.acc (phi ((if poison then 1 else 0) % 16)) (unmarkedCheck d g).2).word := rfl

theorem Check4.word_xor (c d : Check4) :
    c.word ^^^ d.word = Check4.word ⟨c.c1 ^^^ d.c1, c.c2 ^^^ d.c2, c.c3 ^^^ d.c3, c.c4 ^^^ d.c4⟩ := by
  have h : (c.c4 ++ c.c3 ++ c.c2 ++ c.c1) ^^^ (d.c4 ++ d.c3 ++ d.c2 ++ d.c1) =
      (c.c4 ^^^ d.c4) ++ (c.c3 ^^^ d.c3) ++ (c.c2 ^^^ d.c2) ++ (c.c1 ^^^ d.c1) := by
    simp only [BitVec.xor_append]
  exact h

/-- Between two symbols with one locator the check bytes before them drop out. -/
theorem Check4.acc_word_xor (c d : Check4) (t u x : BitVec 8) :
    (c.acc t x).word ^^^ (c.acc u x).word = (d.acc t x).word ^^^ (d.acc u x).word := by
  have hbyte (a v w : BitVec 8) : (a ^^^ v) ^^^ (a ^^^ w) = v ^^^ w := by
    rw [BitVec.xor_comm a v, BitVec.xor_assoc, ← BitVec.xor_assoc a, BitVec.xor_self, BitVec.zero_xor]
  simp only [Check4.word_xor, Check4.acc, hbyte]

/-- The marker changes the check bits in the same way whatever the data and the address. -/
theorem granuleCheck_marker (d : BitVec 256) (g : Nat) :
    granuleCheck d g true ^^^ granuleCheck d g false = granuleCheck 0 0 true ^^^ granuleCheck 0 0 false := by
  simp only [granuleCheck_eq, unmarkedCheck_locator d g]
  exact Check4.acc_word_xor ..

theorem granuleClass_marker : granuleClass (granuleCheck 0 0 true ^^^ granuleCheck 0 0 false) = (.poison, 1) := by decide +kernel

theorem granuleDecode_granulePoison (g : Nat) : (granuleDecode (granulePoison g) g).1 = .poison := by
  have hd : (granulePoison g).extractLsb' 0 256 = 0 := by
    unfold granulePoison
    exact BitVec.extractLsb'_append_eq_right
  have hc : (granulePoison g).extractLsb' 256 32 = granuleCheck 0 g true := by
    unfold granulePoison
    exact BitVec.extractLsb'_append_eq_left
  unfold granuleDecode
  dsimp only
  rw [hd, hc, granuleCheck_marker, granuleClass_marker]

/-! ## Masks of whole bytes (08 R240) -/

theorem getLsbD_byteMask (v : Nat) {n : Nat} (hn : n ≤ 32) (i : Nat) :
    (byteMask v n).getLsbD i = (decide (i < 8 * n) && v.testBit (i / 8)) := by
  induction n generalizing v i with
  | zero => simp [byteMask]
  | succ n ih =>
    have hlow : (if v % 2 = 1 then 0xFF#256 else 0).getLsbD i = (decide (i < 8) && v.testBit 0) := by
      have hff : (0xFF#256).getLsbD i = decide (i < 8) := by
        rw [BitVec.getLsbD_ofNat, show (255 : Nat) = 2 ^ 8 - 1 from rfl, Nat.testBit_two_pow_sub_one]
        by_cases hi : i < 8
        · simp [hi, show i < 256 by omega]
        · simp [hi]
      rw [Nat.testBit_zero]
      by_cases hv : v % 2 = 1
      · simp [hv, hff]
      · simp [hv]
    have hmask : byteMask v (n + 1) = byteMask (v / 2) n <<< 8 ||| if v % 2 = 1 then 0xFF#256 else 0 := rfl
    rw [hmask, BitVec.getLsbD_or, BitVec.getLsbD_shiftLeft, ih (v / 2) (by omega), hlow]
    by_cases hi : i < 8
    · simp [hi, Nat.div_eq_of_lt hi, show i < 8 * (n + 1) by omega]
    · rw [Nat.testBit_div_two, show (i - 8) / 8 + 1 = i / 8 by omega]
      by_cases hin : i < 8 * (n + 1)
      · simp [hi, hin, show i < 256 by omega, show i - 8 < 8 * n by omega]
      · simp [hi, hin, show ¬ i - 8 < 8 * n by omega]

/-- Bits of a mask gathered from the lowest bit of each byte. -/
def gatherBits (m : BitVec 256) (n : Nat) : Nat := (List.range n).foldl (fun v i => if m.getLsbD (8 * i) then v + 2 ^ i else v) 0

theorem gatherBits_succ (m : BitVec 256) (n : Nat) :
    gatherBits m (n + 1) = if m.getLsbD (8 * n) then gatherBits m n + 2 ^ n else gatherBits m n := by
  unfold gatherBits
  rw [List.range_succ, List.foldl_append, List.foldl_cons, List.foldl_nil]

theorem gatherBits_lt (m : BitVec 256) (n : Nat) : gatherBits m n < 2 ^ n := by
  induction n with
  | zero => exact Nat.one_pos
  | succ n ih =>
    rw [gatherBits_succ, Nat.pow_succ]
    split <;> omega

theorem testBit_gatherBits (m : BitVec 256) (n j : Nat) : (gatherBits m n).testBit j = (decide (j < n) && m.getLsbD (8 * j)) := by
  induction n with
  | zero => simp [gatherBits]
  | succ n ih =>
    have hlt := gatherBits_lt m n
    rw [gatherBits_succ]
    obtain hj | rfl | hj := Nat.lt_trichotomy j n
    · have hset : (gatherBits m n + 2 ^ n).testBit j = (gatherBits m n).testBit j := by
        rw [Nat.add_comm, Nat.testBit_two_pow_add_gt hj]
      rw [apply_ite (Nat.testBit · j), hset, ite_self, ih]
      simp [hj, show j < n + 1 by omega]
    · have hset : (gatherBits m j + 2 ^ j).testBit j = true := by
        rw [Nat.add_comm, Nat.testBit_two_pow_add_eq, Nat.testBit_lt_two_pow hlt, Bool.not_false]
      rw [apply_ite (Nat.testBit · j), hset, Nat.testBit_lt_two_pow hlt]
      simp
    · have hle : 2 ^ (n + 1) ≤ 2 ^ j := Nat.pow_le_pow_right (by omega) hj
      have hnext := gatherBits_lt m (n + 1)
      rw [gatherBits_succ] at hnext
      rw [Nat.testBit_lt_two_pow (by omega), decide_eq_false (by omega), Bool.false_and]

theorem validBits_eq (m : BitVec 256) : validBits m = gatherBits m 32 := rfl

theorem validBits_lt (m : BitVec 256) : validBits m < 2 ^ 32 := gatherBits_lt m 32

/-- A mask of whole bytes is the mask of its valid bits. -/
theorem byteMask_validBits {m : BitVec 256} (h : byteWhole m = true) : byteMask (validBits m) 32 = m := by
  have hbyte : ∀ b < 32, ∀ j < 8, m.getLsbD (8 * b + j) = m.getLsbD (8 * b) := by
    intro b hb j hj
    have hbit (j : Nat) (hj : j < 8) : m.getLsbD (8 * b + j) = (m.extractLsb' (8 * b) 8).getLsbD j := by
      rw [BitVec.getLsbD_extractLsb', decide_eq_true hj, Bool.true_and]
    have hone := hbit j hj
    have hzero := hbit 0 (by omega)
    have hall := List.all_eq_true.1 h b (List.mem_range.2 hb)
    simp only [Bool.or_eq_true, decide_eq_true_eq] at hall
    rw [Nat.add_zero] at hzero
    rw [hone, hzero]
    obtain hnone | hfull := hall
    · rw [hnone, show (0 : BitVec 8) = 0#8 from rfl, BitVec.getLsbD_zero, BitVec.getLsbD_zero]
    · rw [hfull, show (255 : BitVec 8) = BitVec.allOnes 8 from rfl, BitVec.getLsbD_allOnes, BitVec.getLsbD_allOnes, decide_eq_true hj]
      rfl
  refine BitVec.eq_of_getLsbD_eq fun i hi => ?_
  have hwhole := hbyte (i / 8) (by omega) (i % 8) (by omega)
  rw [Nat.div_add_mod] at hwhole
  rw [getLsbD_byteMask _ (by omega), validBits_eq, testBit_gatherBits, hwhole]
  simp [hi, show i / 8 < 32 by omega]

theorem validBits_allOnes : validBits (BitVec.allOnes 256) = 2 ^ 32 - 1 := by decide +kernel

/-- A mask of whole bytes that are all valid is full. -/
theorem eq_allOnes_of_validBits {m : BitVec 256} (h : byteWhole m = true) (hv : validBits m = 2 ^ 32 - 1) : m = BitVec.allOnes 256 := by
  have hfull : byteWhole (BitVec.allOnes 256) = true := by decide +kernel
  rw [← byteMask_validBits h, ← byteMask_validBits hfull, hv, validBits_allOnes]

end Sys2Proof.Machine

namespace Sys2Proof.Machine

/-! ## What accesses of the stack tier leave as it was (08 R240-R242) -/

/-- A reader of the stack tier sees the same in two states. -/
structure StackTier.ReadsAs (x y : StackTier) : Prop where
  generation : y.generation = x.generation := by rfl
  mem : y.mem = x.mem := by rfl
  wcb : y.wcb = x.wcb := by rfl

/-- Moreover the same accesses wait: reads were counted at most. -/
structure StackTier.Noted (x y : StackTier) : Prop extends x.ReadsAs y where
  waiting : y.waiting = x.waiting := by rfl

theorem StackTier.ReadsAs.trans {x y z : StackTier} (h : x.ReadsAs y) (k : y.ReadsAs z) : x.ReadsAs z :=
  ⟨k.generation.trans h.generation, k.mem.trans h.mem, k.wcb.trans h.wcb⟩

theorem StackTier.Noted.trans {x y z : StackTier} (h : x.Noted y) (k : y.Noted z) : x.Noted z :=
  ⟨h.toReadsAs.trans k.toReadsAs, k.waiting.trans h.waiting⟩

section
variable {s t : State}

theorem State.rawStack_congr (h : s.stm.ReadsAs t.stm) (k : Nat) : t.rawStack k = s.rawStack k := by
  unfold State.rawStack
  rw [h.mem, h.generation]

theorem State.wcbLine_congr (h : s.stm.wcb = t.stm.wcb) (block : Nat) : t.wcbLine block = s.wcbLine block := by
  unfold State.wcbLine
  rw [h]

theorem State.readGran_stack_congr (h : s.stm.ReadsAs t.stm) (ti addr : Nat) : t.readGran ti .stack addr = s.readGran ti .stack addr := by
  simp only [State.readGran, State.readCoded]
  rw [State.rawStack_congr h, State.wcbLine_congr h.wcb.symm]

/-- A granule stored reads back, and every other granule as before. -/
theorem State.rawStack_putStack (s : State) (k j : Nat) (c : BitVec 288) :
    (s.putStack k c).rawStack j = if j = k then c else s.rawStack j := by
  unfold State.rawStack State.putStack
  dsimp only
  rw [SMap.get?_put]
  by_cases hj : j = k <;> simp [hj]

theorem noteStackRead_noted (s : State) (ti addr : Nat) : s.stm.Noted (noteStackRead s ti addr).stm := by
  unfold noteStackRead
  extract_lets m s1 row b q s2 s3 q' s4
  have hce : s.stm.Noted (if b.2 = 16 then s2.scheduleRepair m else s2).stm := by
    split
    · exact {}
    · exact {}
  split
  · exact hce
  · exact hce
  · rw [recordEvent_stm]
    exact {}
  · rw [recordEvent_stm]
    exact {}
  · exact {}

theorem answerRead_noted (s : State) {p : Packet} (hm : packetMem p = .stack) : s.stm.Noted (answerRead s p).stm := by
  have hfold : s.stm.Noted ((packetGrans p).foldl (fun s g => noteRead s p.srcId (packetMem p) g) s).stm := by
    rw [hm]
    exact List.foldlRecOn (motive := fun x : State => s.stm.Noted x.stm) _ _ {} fun x hx g _ => hx.trans (noteStackRead_noted x p.srcId g)
  exact hfold

/-- A write past the buffer stores one granule, and counts at most besides. -/
theorem writeStackGran_noted (s : State) (ti addr : Nat) (data mask : BitVec 256) (poison : Bool) :
    ∃ c, (s.putStack (addr / 32) c).stm.Noted (writeStackGran s ti addr data mask poison).stm := by
  have hnote (c : BitVec 288) : (s.putStack (addr / 32) c).stm.Noted
      (((noteStackRead s ti addr).count Reg.STM_WCB_RMW 1).putStack (addr / 32) c).stm := by
    have h := noteStackRead_noted s ti addr
    refine ⟨⟨h.generation, ?_, h.wcb⟩, h.waiting⟩
    show SMap.put (noteStackRead s ti addr).stm.mem _ _ = SMap.put s.stm.mem _ _
    rw [h.mem]
  unfold writeStackGran
  extract_lets k g s1 r
  split_ifs
  · exact ⟨_, {}⟩
  · exact ⟨_, {}⟩
  · rw [recordEvent_stm]
    exact ⟨_, hnote _⟩
  · exact ⟨_, hnote _⟩

section
variable (s : State) (ti addr : Nat) (data mask : BitVec 256) (poison : Bool)

theorem writeStackGran_wcb : (writeStackGran s ti addr data mask poison).stm.wcb = s.stm.wcb := by
  obtain ⟨c, h⟩ := writeStackGran_noted s ti addr data mask poison
  exact h.wcb

theorem writeStackGran_rawStack_ne {k : Nat} (hk : k ≠ addr / 32) :
    (writeStackGran s ti addr data mask poison).rawStack k = s.rawStack k := by
  obtain ⟨c, h⟩ := writeStackGran_noted s ti addr data mask poison
  rw [State.rawStack_congr h.toReadsAs, State.rawStack_putStack, if_neg hk]

end

end

/-! ## The write-combining buffer is written out (08 R241) -/

/-- Between two states lines of one block were written out: the lines of the other blocks and their granules are as before. -/
structure State.WroteBlock (block : Nat) (s t : State) : Prop where
  wcb : t.stm.wcb = s.stm.wcb.filter (fun x => x.block ≠ block)
  other : ∀ k, k / 8 ≠ block → t.rawStack k = s.rawStack k

theorem writeOut_wroteBlock (s : State) (l : WcbLine) : s.WroteBlock l.block (writeOut s l) := by
  have hstep (x : State) (g : Nat) (hg : g < 8) (d m : BitVec 256) (poison : Bool) (hx : s.WroteBlock l.block x) :
      s.WroteBlock l.block (writeStackGran x 0 (256 * l.block + 32 * g) d m poison) :=
    ⟨by rw [writeStackGran_wcb, hx.wcb], fun k hk => by rw [writeStackGran_rawStack_ne _ _ _ _ _ _ (by omega), hx.other k hk]⟩
  unfold writeOut
  refine List.foldlRecOn (motive := s.WroteBlock l.block) _ _ ⟨rfl, fun _ _ => rfl⟩ fun x hx g hg => ?_
  rw [List.mem_range] at hg
  dsimp only
  split_ifs
  · exact hstep x g hg _ _ _ hx
  · exact hx
  · exact hstep x g hg _ _ _ hx

section
variable {s t : State} {block : Nat} (h : s.WroteBlock block t)
include h

theorem State.WroteBlock.closed : t.wcbLine block = none := by
  unfold State.wcbLine
  rw [h.wcb, List.find?_eq_none]
  intro x hx
  simpa using (List.mem_filter.1 hx).2

theorem State.WroteBlock.line {b : Nat} (hb : b ≠ block) : t.wcbLine b = s.wcbLine b := by
  unfold State.wcbLine
  rw [h.wcb, List.find?_filter]
  congr 1
  funext x
  by_cases hx : x.block = b
  · simp [hx, hb]
  · simp [hx]

end

theorem State.wcbLine_block {s : State} {block : Nat} {l : WcbLine} (h : s.wcbLine block = some l) : l.block = block := by
  simpa using List.find?_some h

/-- Lines written out one after another leave the lines of the other blocks, and their granules. -/
theorem foldl_writeOut (ls : List WcbLine) (s : State) :
    (∀ x ∈ (ls.foldl writeOut s).stm.wcb, x ∈ s.stm.wcb ∧ ∀ l ∈ ls, x.block ≠ l.block) ∧
    ∀ k, (∀ l ∈ ls, k / 8 ≠ l.block) → (ls.foldl writeOut s).rawStack k = s.rawStack k := by
  induction ls generalizing s with
  | nil => exact ⟨fun x hx => ⟨hx, by simp⟩, fun _ _ => rfl⟩
  | cons l ls ih =>
    have hout := writeOut_wroteBlock s l
    obtain ⟨hlines, hraw⟩ := ih (writeOut s l)
    refine ⟨fun x hx => ?_, fun k hk => ?_⟩
    · obtain ⟨hmem, hne⟩ := hlines x hx
      rw [hout.wcb, List.mem_filter, decide_eq_true_eq] at hmem
      exact ⟨hmem.1, List.forall_mem_cons.2 ⟨hmem.2, hne⟩⟩
    · obtain ⟨hl, hls⟩ := List.forall_mem_cons.1 hk
      exact (hraw k hls).trans (hout.other k hl)

theorem flushWcb_wcb (s : State) : (flushWcb s).stm.wcb = [] := by
  refine List.eq_nil_iff_forall_not_mem.2 fun x hx => ?_
  obtain ⟨hmem, hne⟩ := (foldl_writeOut s.stm.wcb s).1 x hx
  exact hne x hmem rfl

theorem flushWcb_rawStack {s : State} {k : Nat} (h : s.wcbLine (k / 8) = none) : (flushWcb s).rawStack k = s.rawStack k := by
  refine (foldl_writeOut s.stm.wcb s).2 k fun l hl heq => ?_
  have hno := List.find?_eq_none.1 h l hl
  simp [heq] at hno

/-- The second clause of O27, as it stands. -/
theorem wcbLineTimeout_writesOut {s : State} {stack block : Nat} {l : WcbLine} (h : s.wcbLine block = some l) (hl : l.stack = stack) :
    ∃ t, exec (.wcbLineTimeout stack block) s = .next t ∧ t.wcbLine block = none ∧
      (∀ b, b ≠ block → t.wcbLine b = s.wcbLine b) ∧ ∀ k, k / 8 ≠ block → t.rawStack k = s.rawStack k := by
  have hexec : exec (.wcbLineTimeout stack block) s = .next (writeOut s l) := by
    show execWcbLineTimeout stack block s = _
    unfold execWcbLineTimeout
    rw [h]
    dsimp only
    rw [if_pos hl]
  have hout := State.wcbLine_block h ▸ writeOut_wroteBlock s l
  exact ⟨_, hexec, hout.closed, fun _ => hout.line, hout.other⟩

/-- The third clause of O27, as it stands. -/
theorem wcbFlush_writesOut (s : State) :
    ∃ t, exec .wcbFlush s = .next t ∧ t.stm.wcb = [] ∧ ∀ k, s.wcbLine (k / 8) = none → t.rawStack k = s.rawStack k :=
  ⟨_, rfl, flushWcb_wcb s, fun _ => flushWcb_rawStack⟩

end Sys2Proof.Machine

namespace Sys2Proof.Machine

/-! ## A request that a stack controller serves (08 R236, R245, R255) -/

section
variable {s : State} {p : Packet}

theorem exec_memRead_stack (h : p.dstKind = 1) :
    exec (.memRead p) s = .next (stackRequest (s.arrive p) { p with ptype := .memRead }) := by
  show execMemRead p s = _
  unfold execMemRead
  dsimp only
  rw [if_pos h]

theorem exec_memWrite_stack (h : p.dstKind = 1) :
    exec (.memWrite p) s = .next (stackRequest (s.arrive p) { p with ptype := .memWrite }) := by
  show execMemWrite p s = _
  unfold execMemWrite
  dsimp only
  rw [if_pos h]

end

theorem reportCrc_stm (s : State) (p : Packet) : (reportCrc s p).stm = s.stm := by
  unfold reportCrc
  dsimp only
  rw [recordEvent_stm, State.modTile_stm, State.count_stm]
  exact rfl

@[simp] theorem State.arrive_stm (s : State) (p : Packet) : (s.arrive p).stm = s.stm := by
  unfold State.arrive
  dsimp only
  split
  · rw [reportCrc_stm]
  · rfl

/-- The registers that a stack controller asks: those of the stack tier, and the status of the half link. -/
def StackReg (a : Nat) : Prop := 0xb0000 ≤ a ∧ a < 0xc0000 ∨ a = Reg.HLK_STATUS

theorem stackReg_add (a : Nat) {n b : Nat} (hn : n < b) (ha : 0xb0000 ≤ a ∧ a + b ≤ 0xc0000) : StackReg (a + n) :=
  .inl ⟨by omega, by omega⟩

theorem StackReg.below_tiles {a : Nat} (h : StackReg a) : a < tilePages := by
  unfold StackReg Reg.HLK_STATUS at h
  unfold tilePages
  omega

theorem StackReg.not_event {a : Nat} (h : StackReg a) : a ∉ eventRegs := by
  have hne : ∀ b ∈ eventRegs, ¬ (0xb0000 ≤ b ∧ b < 0xc0000) ∧ b ≠ Reg.HLK_STATUS := by decide
  intro ha
  obtain ⟨hpage, hlink⟩ := hne a ha
  exact h.elim hpage hlink

/-- Two states are alike to a stack controller. -/
structure State.SameStack (s t : State) : Prop where
  regs : ∀ a, StackReg a → t.reg a = s.reg a
  stm : t.stm = s.stm
  now : t.now = s.now

theorem State.reg_arrive (s : State) (p : Packet) {a : Nat} (h : a < tilePages) (he : a ∉ eventRegs) : (s.arrive p).reg a = s.reg a := by
  unfold State.arrive reportCrc
  dsimp only
  split
  · rw [recordEvent_reg _ _ _ _ _ _ he, State.reg_modTile, State.count, State.reg_setReg_ne _ _ (by unfold tileReg; omega)]
    rfl
  · rfl

theorem State.arrive_now (s : State) (p : Packet) : (s.arrive p).now = s.now := by
  unfold State.arrive reportCrc
  dsimp only
  split
  · rw [recordEvent_now, State.modTile_now, State.count_now]
    exact rfl
  · rfl

theorem arrive_sameStack (s : State) (p : Packet) : s.SameStack (s.arrive p) :=
  ⟨fun _ ha => s.reg_arrive p ha.below_tiles ha.not_event, s.arrive_stm p, s.arrive_now p⟩

theorem State.partOf_lt (s : State) (ti : Nat) : s.partOf ti < 16 := by
  have h := getBits_lt (s.reg (Reg.STM_PART_MAP + ti / 8)) (4 * (ti % 8) + 3) (4 * (ti % 8))
  rwa [show 4 * (ti % 8) + 3 + 1 - 4 * (ti % 8) = 4 by omega] at h

namespace State.SameStack
variable {s t : State} (h : s.SameStack t)
include h

theorem fld {a : Nat} (ha : StackReg a) (hi lo : Nat) : t.fld a hi lo = s.fld a hi lo := by
  unfold State.fld
  rw [h.regs a ha]

theorem stackHalfUp (hf : Half) : t.stackHalfUp hf = s.stackHalfUp hf := by
  have hstatus : ∀ i < 16, t.fld (Reg.STM_STACK_STATUS + i) 2 0 = s.fld (Reg.STM_STACK_STATUS + i) 2 0 :=
    fun i hi => h.fld (stackReg_add _ hi (by decide)) ..
  have hall {f : Nat → Nat} (hf : ∀ i < 8, f i < 16) :
      (List.range 8).all (fun i => t.fld (Reg.STM_STACK_STATUS + f i) 2 0 ≠ 4) =
        (List.range 8).all (fun i => s.fld (Reg.STM_STACK_STATUS + f i) 2 0 ≠ 4) := by
    rw [Bool.eq_iff_iff, List.all_eq_true, List.all_eq_true]
    refine forall₂_congr fun i hi => ?_
    rw [hstatus _ (hf i (List.mem_range.1 hi))]
  unfold State.stackHalfUp
  cases hf with
  | west => exact congrArg₂ _ (hall (f := fun i => i) fun i hi => by omega) (by dsimp only; rw [h.fld (.inr rfl)])
  | east => exact congrArg₂ _ (hall (f := fun i => 8 + i) fun i hi => by omega) (by dsimp only; rw [h.fld (.inr rfl)])

theorem partOf {ti : Nat} (hti : ti < 2 ^ 12) : t.partOf ti = s.partOf ti :=
  h.fld (stackReg_add _ (b := 0x200) (by omega) (by decide)) ..

theorem regMin {part : Nat} (hp : part < 16) (hf : Half) : t.regMin part hf = s.regMin part hf := by
  unfold State.regMin
  rw [h.stm]
  cases hf <;> simp only [h.fld (stackReg_add Reg.STM_REG_MIN hp (by decide))]

theorem regMax {part : Nat} (hp : part < 16) (hf : Half) : t.regMax part hf = s.regMax part hf := by
  unfold State.regMax
  rw [h.regMin hp]
  cases hf <;> simp only [h.fld (stackReg_add Reg.STM_REG_MAX hp (by decide))]

theorem bucketLevel {part : Nat} (hp : part < 16) (stack : Nat) : t.bucketLevel stack 1 part = s.bucketLevel stack 1 part := by
  have hrate : t.bucketRate 1 part (stackHalf stack) = s.bucketRate 1 part (stackHalf stack) := h.regMax hp _
  unfold State.bucketLevel
  dsimp only
  rw [h.stm, h.now, hrate]

end State.SameStack

theorem Packet.ok_ids {p : Packet} (h : p.ok = true) : p.dstId < 2 ^ 12 ∧ p.srcId < 2 ^ 12 := by
  simp only [Packet.ok, bitsOk, Bool.and_eq_true, decide_eq_true_eq] at h
  tauto

/-- A controller that a request has reached serves it if it would have before its arrival. -/
theorem stackRequest_serves {s : State} {p : Packet} (hok : p.ok = true) (h : s.StackServes p) (t : PktType) :
    stackRequest (s.arrive p) { p with ptype := t } = serveStack (s.arrive p) { p with ptype := t } := by
  obtain ⟨hdst, hsrc⟩ := Packet.ok_ids hok
  obtain ⟨-, hup, hlink, hloop, hcap⟩ := h
  have hin := arrive_sameStack s p
  have hpart := s.partOf_lt p.srcId
  have hrefuse : ¬ ((!s.stackHalfUp (stackHalf p.dstId) || (decide (p.srcKind = 0) &&
      (decide (s.fld Reg.HLK_STATUS 31 31 = 1) && decide (halfOf p.srcId ≠ stackHalf p.dstId)))) = true) := by
    simp only [hup, Bool.not_true, Bool.false_or, Bool.and_eq_true, decide_eq_true_eq]
    rintro ⟨hk, hsplit, hhalf⟩
    rcases hlink hk with h0 | h0
    · omega
    · exact hhalf h0
  have hbytes : packetBytes { p with ptype := t } = p.len ∨ packetBytes { p with ptype := t } = 32 * p.pieces.length := by
    unfold packetBytes
    split
    · exact .inl rfl
    · exact .inr rfl
  have hwait : ¬ (s.fld (Reg.STM_STACK_STATUS + p.dstId) 2 0 = stkLoopback ∨ (s.regMax (s.partOf p.srcId) (stackHalf p.dstId) ≠ 0 ∧
      s.bucketLevel p.dstId 1 (s.partOf p.srcId) < packetBytes { p with ptype := t })) := by
    rintro (hl | ⟨hmax, hlow⟩)
    · exact hloop hl
    · obtain hzero | ⟨hlen, hpieces⟩ := hcap
      · exact hmax hzero
      · omega
  unfold stackRequest
  dsimp only
  rw [hin.stackHalfUp, hin.fld (.inr rfl), hin.partOf hsrc, hin.regMax hpart, hin.bucketLevel hpart,
    hin.fld (stackReg_add _ hdst (by decide)), if_neg hrefuse, if_neg hwait]

/-! ### Serving a request -/

theorem arrive_noted (s : State) (p : Packet) : s.stm.Noted (s.arrive p).stm := by
  rw [State.arrive_stm]
  exact {}

/-- The state in which a served request has been drawn from the buckets of its partition (08 R245). -/
def State.drawn (s : State) (p : Packet) : State :=
  drawBucket (drawBucket s p.dstId 0 (s.partOf p.srcId) (packetBytes p)) p.dstId 1 (s.partOf p.srcId) (packetBytes p)

section
variable (s : State) (p : Packet)

theorem State.drawn_noted : s.stm.Noted (s.drawn p).stm := {}

theorem State.drawn_aside : s.Aside (s.drawn p) := .upd (.refl s)

end

section
variable {s u : State} {p : Packet}

theorem serveStack_read (h : p.ptype = .memRead) : serveStack s p = answerRead (s.drawn p) p := if_pos h

/-- A read is answered with what its granules read as. -/
theorem serveStack_answers (h : p.ptype = .memRead) (hd : p.dstKind = 1) (hin : s.stm.ReadsAs u.stm) :
    s.AnswersRead (serveStack u p) p := by
  have hm : packetMem p = .stack := if_pos hd
  have hdrawn := hin.trans (u.drawn_noted p).toReadsAs
  rw [serveStack_read h]
  refine ⟨_, List.mem_append_right _ (List.mem_singleton_self _), rfl, rfl, rfl, rfl, rfl, rfl, ?_⟩
  simp only [hm, State.readGran_stack_congr hdrawn]

/-- A read leaves what the next one reads as. -/
theorem serveStack_noted (h : p.ptype = .memRead) (hd : p.dstKind = 1) : s.stm.Noted (serveStack s p).stm := by
  rw [serveStack_read h]
  exact (s.drawn_noted p).trans (answerRead_noted _ (if_pos hd))

end

section
variable {s : State} {p : Packet} (hok : p.ok = true) (h : s.StackServes p)
include hok h

theorem exec_memRead_serves : exec (.memRead p) s = .next (serveStack (s.arrive p) { p with ptype := .memRead }) := by
  rw [exec_memRead_stack h.1, stackRequest_serves hok h]

theorem exec_memWrite_serves : exec (.memWrite p) s = .next (serveStack (s.arrive p) { p with ptype := .memWrite }) := by
  rw [exec_memWrite_stack h.1, stackRequest_serves hok h]

/-- The first clause of O26 for a packet whose fields have their widths (Packet.ok). -/
theorem memRead_stack_answers :
    ∃ t, exec (.memRead p) s = .next t ∧ s.AnswersRead t p ∧ t.stm.mem = s.stm.mem ∧ t.stm.wcb = s.stm.wcb := by
  have harrive := arrive_noted s p
  have hserve := harrive.trans (serveStack_noted (s := s.arrive p) (p := { p with ptype := .memRead }) rfl h.1)
  exact ⟨_, exec_memRead_serves hok h, serveStack_answers (p := { p with ptype := .memRead }) rfl h.1 harrive.toReadsAs,
    hserve.mem, hserve.wcb⟩

end

/-- The state in which the refilled bucket of a partition holds enough for an access that waited, and it waits no longer (08 R245). -/
def State.refilled (s : State) (p : Packet) (part : Nat) : State :=
  { s with stm := { s.stm with
    waiting := s.stm.waiting.erase p
    buckets := ⟨p.dstId, 1, part, stackHalf p.dstId, max (packetBytes p) (s.bucketLevel p.dstId 1 part), s.now⟩ ::
      s.stm.buckets.filter (fun x => !(decide (x.stack = p.dstId) && decide (x.kind = 1) && decide (x.part = part))) } }

theorem exec_tokenBucketRefill {s : State} {p : Packet} {part : Nat} (hloop : s.fld (Reg.STM_STACK_STATUS + p.dstId) 2 0 ≠ stkLoopback)
    (hfind : s.stm.waiting.find? (fun q => decide (q.dstId = p.dstId) && decide (s.partOf q.srcId = part)) = some p) :
    exec (.tokenBucketRefill p.dstId part (stackHalf p.dstId)) s = .next (serveStack (s.refilled p part) p) := by
  show execTokenBucketRefill p.dstId part (stackHalf p.dstId) s = _
  unfold execTokenBucketRefill
  extract_lets mine
  rw [if_neg (by simpa using hloop), hfind]
  rfl

/-- The third clause of O26, as it stands. -/
theorem tokenBucketRefill_answers {s : State} {p : Packet} {part : Nat} (hloop : s.fld (Reg.STM_STACK_STATUS + p.dstId) 2 0 ≠ stkLoopback)
    (hfind : s.stm.waiting.find? (fun q => decide (q.dstId = p.dstId) && decide (s.partOf q.srcId = part)) = some p)
    (hread : p.ptype = .memRead) (hd : p.dstKind = 1) :
    ∃ t, exec (.tokenBucketRefill p.dstId part (stackHalf p.dstId)) s = .next t ∧ t.stm.waiting = s.stm.waiting.erase p ∧
      s.AnswersRead t p ∧ t.stm.mem = s.stm.mem := by
  have hserve := serveStack_noted (s := s.refilled p part) hread hd
  exact ⟨_, exec_tokenBucketRefill hloop hfind, hserve.waiting, serveStack_answers hread hd {}, hserve.mem⟩

end Sys2Proof.Machine

namespace Sys2Proof.Machine

/-! ## A write of a whole block (08 R240) -/

/-- The coded granule that a piece with all its bytes, or in poison, stores. -/
def pieceGranule (x : Piece) (k : Nat) : BitVec 288 :=
  if x.poison then granulePoison (stackG (k * 32)) else granuleEncode x.data (stackG (k * 32))

theorem granuleDecode_pieceGranule {x : Piece} (h : x.poison = false) (k : Nat) :
    granuleDecode (pieceGranule x k) (stackG (k * 32)) = (.clean, x.data) := by
  unfold pieceGranule
  rw [h, if_neg Bool.false_ne_true, granuleDecode_granuleEncode]

theorem granuleDecode_pieceGranule_poison {x : Piece} (h : x.poison = true) (k : Nat) :
    (granuleDecode (pieceGranule x k) (stackG (k * 32))).1 = .poison := by
  unfold pieceGranule
  rw [if_pos h, granuleDecode_granulePoison]

/-- A piece that needs no merge: every byte of it is valid, or it is poison. -/
def FullPiece (x : Piece) : Prop := x.poison = true ∨ x.mask = BitVec.allOnes 256

theorem writeStackGran_full {x : Piece} (h : FullPiece x) (s : State) (ti addr : Nat) :
    writeStackGran s ti addr x.data x.mask x.poison = s.putStack (addr / 32) (pieceGranule x (addr / 32)) := by
  unfold writeStackGran pieceGranule
  dsimp only
  cases hp : x.poison with
  | true => rfl
  | false => rw [if_neg Bool.false_ne_true, if_neg Bool.false_ne_true, if_pos (h.resolve_left (by simp [hp]))]

/-- A granule of the stack with no line in the buffer is read from the stack alone. -/
theorem State.readGran_stack_unbuffered {s : State} {ti addr : Nat} (h : s.wcbLine (addr / 256) = none) :
    s.readGran ti .stack addr = ((s.readCoded ti .stack addr).2, (s.readCoded ti .stack addr).1.poisoned) := by
  simp only [State.readGran, h]

/-- The pieces of a write of a whole block at an address, stored one after another. -/
def storePieces (s : State) (ti addr : Nat) (l : List Piece) : State :=
  l.foldl (fun s x => writeStackGran s ti (addr + 32 * x.idx) x.data x.mask x.poison) s

section
variable {ti addr : Nat} {l : List Piece}

theorem storePieces_wcb (s : State) : (storePieces s ti addr l).stm.wcb = s.stm.wcb :=
  List.foldlRecOn (motive := fun t : State => t.stm.wcb = s.stm.wcb) _ _ rfl fun t ht x _ =>
    (writeStackGran_wcb t ti (addr + 32 * x.idx) x.data x.mask x.poison).trans ht

theorem storePieces_aside (s : State) : s.Aside (storePieces s ti addr l) :=
  (State.Aside.refl s).foldl fun t x _ => writeStackGran_aside t ti (addr + 32 * x.idx) x.data x.mask x.poison

theorem storePieces_other (s : State) {k : Nat} (h : ∀ x ∈ l, k ≠ (addr + 32 * x.idx) / 32) :
    (storePieces s ti addr l).rawStack k = s.rawStack k :=
  List.foldlRecOn (motive := fun t : State => t.rawStack k = s.rawStack k) _ _ rfl fun t ht x hx =>
    (writeStackGran_rawStack_ne t ti (addr + 32 * x.idx) x.data x.mask x.poison (h x hx)).trans ht

/-- Each piece is found where it was stored: no later one has its place. -/
theorem storePieces_stored (s : State) (hfull : ∀ x ∈ l, FullPiece x) (hnodup : (l.map Piece.idx).Nodup) {x : Piece} (hx : x ∈ l) :
    (storePieces s ti addr l).rawStack ((addr + 32 * x.idx) / 32) = pieceGranule x ((addr + 32 * x.idx) / 32) := by
  induction l generalizing s with
  | nil => cases hx
  | cons y l ih =>
    obtain ⟨hy, hl⟩ := List.forall_mem_cons.1 hfull
    obtain ⟨hnot, hrest⟩ := List.nodup_cons.1 hnodup
    obtain rfl | hmem := List.mem_cons.1 hx
    · have hother : ∀ z ∈ l, (addr + 32 * x.idx) / 32 ≠ (addr + 32 * z.idx) / 32 := by
        intro z hz heq
        have hidx : z.idx = x.idx := by omega
        exact hnot (hidx ▸ List.mem_map_of_mem hz)
      have hfirst := storePieces_other (ti := ti) (writeStackGran s ti (addr + 32 * x.idx) x.data x.mask x.poison) hother
      refine hfirst.trans ?_
      rw [writeStackGran_full hy, State.rawStack_putStack, if_pos rfl]
    · exact ih _ hl hrest hmem

/-- A reader of a block with no line in the buffer sees the pieces as they were stored. -/
theorem storePieces_readGran {s : State} (hline : s.wcbLine (addr / 256) = none) (halign : addr % 256 = 0)
    (hfull : ∀ x ∈ l, FullPiece x) (hnodup : (l.map Piece.idx).Nodup) {x : Piece} (hx : x ∈ l) (hidx : x.idx < 8) (tj : Nat) :
    (storePieces s ti addr l).readGran tj .stack (addr + 32 * x.idx) =
      ((granuleDecode (pieceGranule x ((addr + 32 * x.idx) / 32)) (stackG ((addr + 32 * x.idx) / 32 * 32))).2,
        (granuleDecode (pieceGranule x ((addr + 32 * x.idx) / 32)) (stackG ((addr + 32 * x.idx) / 32 * 32))).1.poisoned) := by
  have hnone : (storePieces s ti addr l).wcbLine ((addr + 32 * x.idx) / 256) = none := by
    rw [State.wcbLine_congr (storePieces_wcb s).symm, show (addr + 32 * x.idx) / 256 = addr / 256 by omega, hline]
  rw [State.readGran_stack_unbuffered hnone]
  simp only [State.readCoded, storePieces_stored s hfull hnodup hx]

end

/-- A piece of a whole block with the place of none other needs no merge. -/
theorem fullPiece_of_wholeBlock {p : Packet} (hw : wholeBlock p = true) (hidx : ∀ x ∈ p.pieces, x.idx < 8)
    (hnodup : (p.pieces.map Piece.idx).Nodup) : ∀ x ∈ p.pieces, FullPiece x := by
  intro x hx
  have hall := List.all_eq_true.1 (Bool.and_eq_true_iff.1 hw).2 x.idx (List.mem_range.2 (hidx x hx))
  obtain ⟨y, hy, hyx⟩ := List.any_eq_true.1 hall
  simp only [Bool.and_eq_true, Bool.or_eq_true, decide_eq_true_eq] at hyx
  obtain ⟨heq, hfull⟩ := hyx
  rwa [List.inj_on_of_nodup_map hnodup hy hx heq] at hfull

theorem wholeBlock_aligned {p : Packet} (hw : wholeBlock p = true) : p.addr % 256 = 0 :=
  of_decide_eq_true (Bool.and_eq_true_iff.1 hw).1

/-- The state in which a write of a whole block goes past the buffer: no line of its block is open. -/
def State.bypassed (s : State) (p : Packet) : State :=
  { s.drawn p with stm := { (s.drawn p).stm with wcb := (s.drawn p).stm.wcb.filter (fun x => x.block ≠ p.addr / 256) } }

section
variable {s : State} {p : Packet}

theorem serveStack_wholeBlock (ht : p.ptype ≠ .memRead) (hw : wholeBlock p = true) :
    serveStack s p = acceptWrite (storePieces (s.bypassed p) p.srcId p.addr p.pieces) p :=
  (if_neg ht).trans (if_pos hw)

theorem State.bypassed_aside : s.Aside (s.bypassed p) := .upd (.refl s)

theorem State.bypassed_wcbLine {block : Nat} (h : block = p.addr / 256) : (s.bypassed p).wcbLine block = none := by
  subst h
  refine List.find?_eq_none.2 fun x hx => ?_
  simpa using (List.mem_filter.1 hx).2

theorem acceptWrite_noted (s : State) (p : Packet) : s.stm.Noted (acceptWrite s p).stm := {}

/-- The acceptance is the same where the commands of the sender's tile are. -/
theorem State.Accepted.of_aside {u t : State} (h : s.Aside u) (k : u.Accepted t p) : s.Accepted t p := by
  intro e he
  refine k e ?_
  unfold Tile.entry? at he ⊢
  rw [h.queue, he]

end

/-- A whole block goes past the buffer: each of its granules reads back, and no other block changes. -/
theorem serveStack_wholeBlock_stores {s : State} {p : Packet} (ht : p.ptype ≠ .memRead) (hw : wholeBlock p = true)
    (hidx : ∀ x ∈ p.pieces, x.idx < 8) (hnodup : (p.pieces.map Piece.idx).Nodup) :
    (∀ x ∈ p.pieces, x.poison = false → (serveStack s p).readGran p.srcId .stack (p.addr + 32 * x.idx) = (x.data, false)) ∧
    (∀ x ∈ p.pieces, x.poison = true → ((serveStack s p).readGran p.srcId .stack (p.addr + 32 * x.idx)).2 = true) ∧
    (∀ k, k / 8 ≠ p.addr / 256 → (serveStack s p).rawStack k = s.rawStack k) ∧ s.Accepted (serveStack s p) p := by
  have hfull := fullPiece_of_wholeBlock hw hidx hnodup
  have halign := wholeBlock_aligned hw
  have hread {x : Piece} (hx : x ∈ p.pieces) :=
    storePieces_readGran (ti := p.srcId) (State.bypassed_wcbLine (s := s) rfl) halign hfull hnodup hx (hidx x hx) p.srcId
  have haccept := (acceptWrite_noted (storePieces (s.bypassed p) p.srcId p.addr p.pieces) p).toReadsAs
  rw [serveStack_wholeBlock ht hw]
  refine ⟨fun x hx hp => ?_, fun x hx hp => ?_, fun k hk => ?_, ?_⟩
  · rw [State.readGran_stack_congr haccept, hread hx, granuleDecode_pieceGranule hp]
    rfl
  · rw [State.readGran_stack_congr haccept, hread hx, granuleDecode_pieceGranule_poison hp]
    rfl
  · have hother : ∀ x ∈ p.pieces, k ≠ (p.addr + 32 * x.idx) / 32 := by
      intro x hx
      have hlt := hidx x hx
      omega
    rw [State.rawStack_congr haccept, storePieces_other _ hother]
    rfl
  · exact .of_aside (State.bypassed_aside.trans (storePieces_aside _)) (acceptWrite_accepted _ _)

/-- The second clause of O26 for a packet whose fields have their widths (Packet.ok). -/
theorem memWrite_wholeBlock_stores {s : State} {p : Packet} (hok : p.ok = true) (h : s.StackServes p) (hw : wholeBlock p = true)
    (hidx : ∀ x ∈ p.pieces, x.idx < 8) (hnodup : (p.pieces.map Piece.idx).Nodup) :
    ∃ t, exec (.memWrite p) s = .next t ∧
      (∀ x ∈ p.pieces, x.poison = false → t.readGran p.srcId .stack (p.addr + 32 * x.idx) = (x.data, false)) ∧
      (∀ x ∈ p.pieces, x.poison = true → (t.readGran p.srcId .stack (p.addr + 32 * x.idx)).2 = true) ∧
      (∀ k, k / 8 ≠ p.addr / 256 → t.rawStack k = s.rawStack k) ∧ s.Accepted t p := by
  obtain ⟨hdata, hpoison, hother, haccept⟩ :=
    serveStack_wholeBlock_stores (s := s.arrive p) (p := { p with ptype := .memWrite }) nofun hw hidx hnodup
  exact ⟨_, exec_memWrite_serves hok h, hdata, hpoison,
    fun k hk => (hother k hk).trans (State.rawStack_congr (arrive_noted s p).toReadsAs k), .of_aside (arrive_aside s p) haccept⟩

end Sys2Proof.Machine

namespace Sys2Proof.Machine

/-! ## A partial write into a free line (08 R240-R242) -/

/-- A line as it is opened: no byte valid. -/
def freshLine (stack block now : Nat) : WcbLine := ⟨stack, block, 0#256, 0#2048, 0#8, now⟩

/-- The valid bytes of a granule of a line, as its reader takes them. -/
def WcbLine.validOf (l : WcbLine) (g : Nat) : Nat := (l.valid.toNat >>> (32 * g)) % 2 ^ 32

/-- Bits at the place of a granule lie below the top of the line. -/
theorem mul_granuleShift_le (v i : Nat) : v * 2 ^ (32 * (i % 8)) ≤ v * 2 ^ 224 :=
  Nat.mul_le_mul_left _ (Nat.pow_le_pow_right (by omega) (by omega))

section
variable {x : Piece} {stack block now : Nat}

theorem mergePiece_fresh_data :
    (mergePiece (freshLine stack block now) x).data.extractLsb' (256 * (x.idx % 8)) 256 = x.data &&& x.mask := by
  refine BitVec.eq_of_getLsbD_eq fun i hi => ?_
  have hplace : 256 * (x.idx % 8) + i < 2048 := by omega
  simp [mergePiece, freshLine, hi, hplace]

variable (hp : x.poison = false)
include hp

theorem mergePiece_fresh_poison (g : Nat) : (mergePiece (freshLine stack block now) x).poison.getLsbD g = false := by
  simp [mergePiece, freshLine, hp]

theorem mergePiece_fresh_valid : (mergePiece (freshLine stack block now) x).valid.toNat = validBits x.mask * 2 ^ (32 * (x.idx % 8)) := by
  have hwhole : (if decide (x.mask = BitVec.allOnes 256) = true then 2 ^ 32 - 1 else validBits x.mask) = validBits x.mask := by
    split
    · rename_i hm
      rw [of_decide_eq_true hm, validBits_allOnes]
    · rfl
  have hvalid : (mergePiece (freshLine stack block now) x).valid = BitVec.ofNat 256 (validBits x.mask) <<< (32 * (x.idx % 8)) := by
    simp only [mergePiece, freshLine, hp, Bool.false_or, hwhole, BitVec.zero_or]
  have hv := validBits_lt x.mask
  have hle := mul_granuleShift_le (validBits x.mask) x.idx
  rw [hvalid, BitVec.toNat_shiftLeft, BitVec.toNat_ofNat, Nat.mod_eq_of_lt (by omega : validBits x.mask < 2 ^ 256), Nat.shiftLeft_eq,
    Nat.mod_eq_of_lt (by omega)]

/-- One granule does not fill a line. -/
theorem mergePiece_fresh_not_full : (mergePiece (freshLine stack block now) x).valid ≠ BitVec.allOnes 256 := by
  intro h
  have hv := validBits_lt x.mask
  have hle := mul_granuleShift_le (validBits x.mask) x.idx
  have hnat := congrArg BitVec.toNat h
  rw [mergePiece_fresh_valid hp, BitVec.toNat_allOnes] at hnat
  omega

theorem mergePiece_fresh_validOf : (mergePiece (freshLine stack block now) x).validOf (x.idx % 8) = validBits x.mask := by
  rw [WcbLine.validOf, mergePiece_fresh_valid hp, Nat.shiftRight_eq_div_pow, Nat.mul_div_cancel _ (by positivity),
    Nat.mod_eq_of_lt (validBits_lt x.mask)]

end

section
variable {s : State} {l : WcbLine} {p : Packet} {x : Piece}

/-- A granule with a line in the buffer that marks no poison gives the line's valid bytes over the stack's (08 R242). -/
theorem State.readGran_stack_buffered {ti addr : Nat} (h : s.wcbLine (addr / 256) = some l)
    (hp : l.poison.getLsbD (addr / 32 % 8) = false) :
    (s.readGran ti .stack addr).1 =
      if l.validOf (addr / 32 % 8) = 2 ^ 32 - 1 then l.data.extractLsb' (256 * (addr / 32 % 8)) 256
      else ((s.readCoded ti .stack addr).2 &&& ~~~byteMask (l.validOf (addr / 32 % 8)) 32) |||
        (l.data.extractLsb' (256 * (addr / 32 % 8)) 256 &&& byteMask (l.validOf (addr / 32 % 8)) 32) := by
  simp only [State.readGran, h, hp, WcbLine.validOf, Bool.false_eq_true, if_false]
  exact apply_ite Prod.fst ..

/-- The piece of a packet at its place in the block. -/
def placed (p : Packet) (x : Piece) : Piece := { x with idx := x.idx + p.addr / 32 % 8 }

/-- The line that a write of one piece opens. -/
def openedLine (s : State) (p : Packet) (x : Piece) : WcbLine :=
  mergePiece (freshLine (stackMap p.addr).stack (p.addr / 256) s.now) (placed p x)

/-- The state in which a line is open besides those of the other blocks. -/
def State.withLine (s : State) (l : WcbLine) : State :=
  { s with stm := { s.stm with wcb := s.stm.wcb.filter (fun x => x.block ≠ l.block) ++ [l] } }

theorem State.withLine_wcbLine (s : State) (l : WcbLine) : (s.withLine l).wcbLine l.block = some l := by
  have hnone : (s.stm.wcb.filter (fun x => x.block ≠ l.block)).find? (fun x => x.block = l.block) = none := by
    refine List.find?_eq_none.2 fun x hx => ?_
    simpa using (List.mem_filter.1 hx).2
  unfold State.wcbLine State.withLine
  dsimp only
  rw [List.find?_append, hnone]
  simp

theorem makeRoom_room {stack : Nat} (h : (s.stm.wcb.filter (fun l => l.stack = stack)).length < 1024) : makeRoom s stack = s := if_pos h

/-- A write of one piece of whole bytes opens a line where none is and there is room. -/
theorem bufferWrite_opens (hx : p.pieces = [x]) (hp : x.poison = false) (hb : byteWhole x.mask = true)
    (hline : s.wcbLine (p.addr / 256) = none) (hroom : (s.stm.wcb.filter (fun l => l.stack = (stackMap p.addr).stack)).length < 1024) :
    bufferWrite s p = s.withLine (openedLine s p x) := by
  have hpart : (openedLine s p x).valid ≠ BitVec.allOnes 256 := mergePiece_fresh_not_full hp
  have hroom' : makeRoom s (stackMap p.addr).stack = s := makeRoom_room hroom
  obtain ⟨idx, data, mask, poison⟩ := x
  obtain rfl : poison = false := hp
  unfold bufferWrite
  simp only [hx, List.map_cons, List.map_nil, List.any_cons, List.any_nil, hb, Bool.not_false, Bool.not_true, Bool.and_false,
    Bool.or_false, Bool.false_eq_true, if_false, hline, hroom', Option.getD_none, List.foldl_cons, List.foldl_nil]
  exact if_neg hpart

/-- A reader takes the piece's bytes over the stack's from the line that it opened. -/
theorem openedLine_readGran {u : State} {ti addr : Nat} (hl : u.wcbLine (addr / 256) = some (openedLine s p x)) (hp : x.poison = false)
    (hb : byteWhole x.mask = true) (hplace : addr / 32 % 8 = (placed p x).idx % 8) :
    (u.readGran ti .stack addr).1 = ((u.readCoded ti .stack addr).2 &&& ~~~x.mask) ||| (x.data &&& x.mask) := by
  have hvalid : (openedLine s p x).validOf ((placed p x).idx % 8) = validBits x.mask := mergePiece_fresh_validOf hp
  have hdata : (openedLine s p x).data.extractLsb' (256 * ((placed p x).idx % 8)) 256 = x.data &&& x.mask := mergePiece_fresh_data
  have hpoison : (openedLine s p x).poison.getLsbD (addr / 32 % 8) = false := mergePiece_fresh_poison (x := placed p x) hp _
  rw [State.readGran_stack_buffered hl hpoison, hplace, hvalid, hdata, byteMask_validBits hb]
  split
  · rename_i hfull
    rw [eq_allOnes_of_validBits hb hfull]
    simp
  · rw [BitVec.and_assoc, BitVec.and_self]

theorem wholeBlock_single (h : p.pieces = [x]) : wholeBlock p = false := by
  by_contra hw
  have hall := List.all_eq_true.1 (Bool.and_eq_true_iff.1 (Bool.not_eq_false _ ▸ hw)).2
  have hfirst := hall 0 (by decide)
  have hsecond := hall 1 (by decide)
  simp only [h, List.any_cons, List.any_nil, Bool.or_false, Bool.and_eq_true, decide_eq_true_eq] at hfirst hsecond
  omega

theorem serveStack_partial (ht : p.ptype ≠ .memRead) (hw : wholeBlock p = false) :
    serveStack s p = acceptWrite (bufferWrite (s.drawn p) p) p :=
  (if_neg ht).trans (if_neg (by rw [hw]; exact Bool.false_ne_true))

theorem State.withLine_aside : s.Aside (s.withLine l) := .upd (.refl s)

end

section
variable {s : State} {p : Packet} {x : Piece} (hx : p.pieces = [x]) (hp : x.poison = false) (hb : byteWhole x.mask = true)
  (hfit : x.idx + p.addr / 32 % 8 < 8) (hline : s.wcbLine (p.addr / 256) = none)
  (hroom : (s.stm.wcb.filter (fun l => l.stack = (stackMap p.addr).stack)).length < 1024)
include hx hp hb hfit hline hroom

/-- A partial write opens a line and leaves the stack; its bytes are read over the stack's. -/
theorem serveStack_partial_combines (ht : p.ptype ≠ .memRead) :
    (serveStack s p).stm.mem = s.stm.mem ∧ ((serveStack s p).wcbLine (p.addr / 256)).isSome = true ∧ s.Accepted (serveStack s p) p ∧
    ((serveStack s p).readGran p.srcId .stack (p.addr / 32 * 32 + 32 * x.idx)).1 =
      ((s.readCoded p.srcId .stack (p.addr / 32 * 32 + 32 * x.idx)).2 &&& ~~~x.mask) ||| (x.data &&& x.mask) := by
  have hopens : bufferWrite (s.drawn p) p = (s.drawn p).withLine (openedLine (s.drawn p) p x) := bufferWrite_opens hx hp hb hline hroom
  rw [serveStack_partial ht (wholeBlock_single hx), hopens]
  generalize hu : (s.drawn p).withLine (openedLine (s.drawn p) p x) = u
  have hopen : u.wcbLine (p.addr / 256) = some (openedLine (s.drawn p) p x) := hu ▸ State.withLine_wcbLine ..
  have haside : s.Aside u := hu ▸ (s.drawn_aside p).trans State.withLine_aside
  have hmem : u.stm.mem = s.stm.mem := hu ▸ rfl
  have hcoded (addr : Nat) : u.readCoded p.srcId .stack addr = s.readCoded p.srcId .stack addr := hu ▸ rfl
  have haccept := (acceptWrite_noted u p).toReadsAs
  refine ⟨hmem, ?_, .of_aside haside (acceptWrite_accepted u p), ?_⟩
  · rw [State.wcbLine_congr haccept.wcb.symm, hopen]
    rfl
  · have hblock : (p.addr / 32 * 32 + 32 * x.idx) / 256 = p.addr / 256 := by omega
    have hplace : (p.addr / 32 * 32 + 32 * x.idx) / 32 % 8 = (x.idx + p.addr / 32 % 8) % 8 := by omega
    rw [State.readGran_stack_congr haccept, openedLine_readGran (hblock ▸ hopen) hp hb hplace, hcoded]

/-- The first clause of O27 for a packet whose fields have their widths (Packet.ok). -/
theorem memWrite_partial_combines (hok : p.ok = true) (h : s.StackServes p) :
    ∃ t, exec (.memWrite p) s = .next t ∧ t.stm.mem = s.stm.mem ∧ (t.wcbLine (p.addr / 256)).isSome = true ∧ s.Accepted t p ∧
      (t.readGran p.srcId .stack (p.addr / 32 * 32 + 32 * x.idx)).1 =
        ((s.readCoded p.srcId .stack (p.addr / 32 * 32 + 32 * x.idx)).2 &&& ~~~x.mask) ||| (x.data &&& x.mask) := by
  have hstm := s.arrive_stm p
  have harrive := (arrive_noted s p).toReadsAs
  obtain ⟨hmem, hopen, haccept, hread⟩ := serveStack_partial_combines (s := s.arrive p) (p := { p with ptype := .memWrite }) hx hp hb hfit
    ((State.wcbLine_congr harrive.wcb.symm _).trans hline) (by rw [hstm]; exact hroom) nofun
  have hcoded : (s.arrive p).readCoded p.srcId .stack (p.addr / 32 * 32 + 32 * x.idx) =
      s.readCoded p.srcId .stack (p.addr / 32 * 32 + 32 * x.idx) := congrArg (granuleDecode · _) (State.rawStack_congr harrive _)
  exact ⟨_, exec_memWrite_serves hok h, hmem.trans harrive.mem, hopen, .of_aside (arrive_aside s p) haccept, hcoded ▸ hread⟩

end

end Sys2Proof.Machine

namespace Sys2Proof.Machine

/-! ## A stack number of more than twelve bits

The status of stack n is the register STM_STACK_STATUS + n. For a number that no packet can carry (Packet.ok) that register may be one of a
tile page, and there the arrival of a packet with a bad CRC counts. -/

/-- In loop-back a request waits (08 R255). -/
theorem stackRequest_loopback {s : State} {p : Packet} (hup : s.stackHalfUp (stackHalf p.dstId) = true)
    (hlink : s.fld Reg.HLK_STATUS 31 31 = 0) (hloop : s.fld (Reg.STM_STACK_STATUS + p.dstId) 2 0 = stkLoopback) :
    stackRequest s p = { s with stm := { s.stm with waiting := s.stm.waiting ++ [p] } } := by
  unfold stackRequest
  dsimp only
  rw [hup, hlink, if_neg (by simp), if_pos (.inl hloop)]

/-- The count of bad CRCs of tile 0 stands at 2. -/
def crcTwice : State := State.reset.setReg (tileReg 0 Reg.INT_NOC_CRC) 2

/-- A packet of one byte with a bad CRC, for the number whose status register is that count. -/
def strayPacket : Packet where
  ptype := .memWrite
  dstKind := 1
  dstId := tileReg 0 Reg.INT_NOC_CRC - Reg.STM_STACK_STATUS
  srcKind := 0
  srcId := 0
  addr := 0
  len := 32
  tag := 1
  chan := 0
  rtag := 0
  pieces := [⟨0, 0xAB, 0xFF, false⟩]
  adopted := false
  ref := 0
  remote := none
  crcBad := true
  escape := false

theorem crcTwice_stackServes : crcTwice.StackServes strayPacket := by
  refine ⟨?_, ?_, ?_, ?_, ?_⟩ <;> decide +kernel

/-- Its arrival makes the count 3, which reads as loop-back. -/
theorem stackRequest_strayPacket (t : PktType) :
    stackRequest (crcTwice.arrive strayPacket) { strayPacket with ptype := t } =
      { crcTwice.arrive strayPacket with stm := { StackTier.init with waiting := [{ strayPacket with ptype := t }] } } := by
  have hup : (crcTwice.arrive strayPacket).stackHalfUp (stackHalf strayPacket.dstId) = true := by decide +kernel
  have hlink : (crcTwice.arrive strayPacket).fld Reg.HLK_STATUS 31 31 = 0 := by decide +kernel
  have hloop : (crcTwice.arrive strayPacket).fld (Reg.STM_STACK_STATUS + strayPacket.dstId) 2 0 = stkLoopback := by decide +kernel
  rw [stackRequest_loopback (p := { strayPacket with ptype := t }) hup hlink hloop, State.arrive_stm]
  rfl

/-- Refutes O26: the premises do not bound the stack number. On arrival the read of strayPacket waits, and nothing answers it. For packets of
Packet.ok each clause holds: memRead_stack_answers, memWrite_wholeBlock_stores, tokenBucketRefill_answers. -/
theorem not_stackControllersServe : ¬ Obligations.StackControllersServe := by
  rintro ⟨hread, -, -⟩
  obtain ⟨t, ht, ⟨r, hr, -⟩, -⟩ := hread crcTwice strayPacket crcTwice_stackServes
  rw [exec_memRead_stack rfl, stackRequest_strayPacket, Host.Outcome.next.injEq] at ht
  subst ht
  have hmesh : (crcTwice.arrive strayPacket).mesh = [] := by
    rw [State.arrive_mesh]
    rfl
  rw [hmesh] at hr
  exact List.not_mem_nil hr

/-- Refutes O27: the premises do not bound the stack number. On arrival the write of strayPacket waits, and no line is open. For packets of
Packet.ok each clause holds: memWrite_partial_combines, wcbLineTimeout_writesOut, wcbFlush_writesOut. -/
theorem not_partialWritesCombine : ¬ Obligations.PartialWritesCombine := by
  rintro ⟨hwrite, -, -⟩
  obtain ⟨t, ht, -, hline, -⟩ := hwrite crcTwice strayPacket _ crcTwice_stackServes rfl rfl (by decide +kernel) (by decide +kernel)
    (by decide +kernel) (by decide +kernel)
  rw [exec_memWrite_stack rfl, stackRequest_strayPacket, Host.Outcome.next.injEq] at ht
  subst ht
  cases hline

end Sys2Proof.Machine

namespace Sys2Proof.Machine

/-! ## The code of an SRAM word (09 R263, R264, R268)

The check bits are linear in the data, the address and the poison marker. So the syndrome of a word depends on what was turned over and on
the difference of the addresses alone, and every statement about one error is a statement about that error in the word of zeros. -/

theorem xorColumns_xor (cs : List Nat) (v w : Nat) : xorColumns cs (v ^^^ w) = xorColumns cs v ^^^ xorColumns cs w := by
  induction cs generalizing v w with
  | nil => exact (Nat.xor_self 0).symm
  | cons c cs ih =>
    have hhead : (if (v ^^^ w) % 2 = 1 then c else 0) = (if v % 2 = 1 then c else 0) ^^^ (if w % 2 = 1 then c else 0) := by
      rw [Nat.xor_mod_two_eq]
      obtain hv | hv := Nat.mod_two_eq_zero_or_one v
      · simp [hv, Nat.add_mod]
      · obtain hw | hw := Nat.mod_two_eq_zero_or_one w
        · simp [hv, hw, Nat.add_mod]
        · simp [hv, hw, Nat.add_mod]
    rw [xorColumns, xorColumns, xorColumns, hhead, Nat.xor_div_two, ih]
    ac_rfl

theorem sramCheck_xor (d e : BitVec 64) (v w : Nat) (p : Bool) :
    sramCheck (d ^^^ e) (v ^^^ w) p = sramCheck d v p ^^^ sramCheck e w false := by
  unfold sramCheck
  rw [BitVec.toNat_xor, xorColumns_xor, xorColumns_xor, ← BitVec.ofNat_xor, if_neg Bool.false_ne_true, Nat.xor_zero]
  congr 1
  ac_rfl

/-- What was turned over in a coded word reads as it would in the word of zeros, at the difference of the two addresses. -/
theorem sramDecode_xor (d : BitVec 64) (w v : Nat) (x : BitVec 72) :
    sramDecode (sramEncode d w ^^^ x) v = ((sramDecode x (w ^^^ v)).1, d ^^^ (sramDecode x (w ^^^ v)).2) := by
  have hd : (sramEncode d w ^^^ x).extractLsb' 0 64 = d ^^^ x.extractLsb' 0 64 := by
    rw [BitVec.extractLsb'_xor, sramEncode, BitVec.extractLsb'_append_eq_right]
  have hc : (sramEncode d w ^^^ x).extractLsb' 64 8 = sramCheck d w false ^^^ x.extractLsb' 64 8 := by
    rw [BitVec.extractLsb'_xor, sramEncode, BitVec.extractLsb'_append_eq_left]
  have hv : v = w ^^^ (w ^^^ v) := by rw [← Nat.xor_assoc, Nat.xor_self, Nat.zero_xor]
  have hs : sramSyndrome (sramEncode d w ^^^ x) v = sramSyndrome x (w ^^^ v) := by
    have hcheck := sramCheck_xor d (x.extractLsb' 0 64) w (w ^^^ v) false
    rw [← hv] at hcheck
    rw [sramSyndrome, sramSyndrome, hd, hc, hcheck]
    calc sramCheck d w false ^^^ x.extractLsb' 64 8 ^^^ (sramCheck d w false ^^^ sramCheck (x.extractLsb' 0 64) (w ^^^ v) false)
        = (sramCheck d w false ^^^ sramCheck d w false) ^^^ (x.extractLsb' 64 8 ^^^ sramCheck (x.extractLsb' 0 64) (w ^^^ v) false) := by ac_rfl
      _ = _ := by rw [BitVec.xor_self, BitVec.zero_xor]
  unfold sramDecode
  dsimp only
  rw [hs, hd]
  split
  · rw [BitVec.xor_assoc]
  · rfl

/-- The poison pattern is a coded word of zeros with the marker's column in its check bits. -/
theorem sramPoison_eq (w : Nat) : sramPoison w = sramEncode 0 w ^^^ (BitVec.ofNat 8 poisonColumn ++ 0#64) := by
  have hmark : sramCheck 0 w true = sramCheck 0 w false ^^^ BitVec.ofNat 8 poisonColumn := by
    unfold sramCheck
    rw [← BitVec.ofNat_xor, if_pos rfl, if_neg Bool.false_ne_true, Nat.xor_zero]
  rw [sramPoison, sramEncode, hmark, BitVec.xor_append]
  rfl

/-- One bit turned over in the word of zeros reads as zeros (Table 9.2). -/
theorem sramDecode_oneBit : ∀ b < 72, (sramDecode (1#72 <<< b) 0).2 = 0 ∧ (sramDecode (1#72 <<< b) 0).1.poisoned = false := by
  decide +kernel

theorem sramDecode_poisonColumn : (sramDecode (BitVec.ofNat 8 poisonColumn ++ 0#64) 0).1 = .poison := by decide +kernel

/-- The word of zeros of address 0, read at an address of one bit. -/
theorem sramDecode_addressBit : ∀ b < 18, (sramDecode 0 (2 ^ b)).1 = .addressError b := by decide +kernel

/-- Settles O8: what is turned over reads as it does in the word of zeros. -/
theorem sramWordsAreCorrected : Obligations.SramWordsAreCorrected := by
  refine ⟨sramDecode_sramEncode, fun d w b hb => ?_, fun w => ?_⟩
  · obtain ⟨hdata, hkind⟩ := sramDecode_oneBit b hb
    rw [sramDecode_xor, Nat.xor_self]
    exact ⟨by rw [hdata]; exact BitVec.xor_zero, hkind⟩
  · rw [sramPoison_eq, sramDecode_xor, Nat.xor_self]
    exact sramDecode_poisonColumn

/-- Settles O9: the word with nothing turned over reads as the word of zeros does at the bit in which the addresses differ. -/
theorem wrongSramAddressesAreFound : Obligations.WrongSramAddressesAreFound := by
  intro d w b _ hb
  have hword : sramEncode d w = sramEncode d w ^^^ 0 := BitVec.xor_zero.symm
  rw [hword, sramDecode_xor, ← Nat.xor_assoc, Nat.xor_self, Nat.zero_xor]
  exact sramDecode_addressBit b hb

end Sys2Proof.Machine

namespace Sys2Proof.Machine

/-! ## The check bits of a granule (09 R265-R268) -/

/-- What was turned over in the check bits alone is the syndrome, and the data stand. -/
theorem granuleDecode_checkError (d : BitVec 256) (g : Nat) {k : BitVec 32} (hk : granuleClass k = (.checkCorrected, 0)) :
    granuleDecode (granuleEncode d g ^^^ (k ++ 0#256)) g = (.checkCorrected, d) := by
  have hword : granuleEncode d g ^^^ (k ++ 0#256) = (granuleCheck d g false ^^^ k) ++ d := by
    rw [granuleEncode, BitVec.xor_append, BitVec.xor_zero]
  have hsyn : granuleCheck d g false ^^^ k ^^^ granuleCheck d g false = k := by
    rw [BitVec.xor_comm, ← BitVec.xor_assoc, BitVec.xor_self, BitVec.zero_xor]
  unfold granuleDecode
  dsimp only
  rw [hword, BitVec.extractLsb'_append_eq_right, BitVec.extractLsb'_append_eq_left, hsyn, hk]

/-- One check bit is one symbol of the check bits (R267). -/
theorem granuleClass_checkBit : ∀ b < 32, granuleClass (1#32 <<< b) = (.checkCorrected, 0) := by decide +kernel

theorem checkBit_eq : ∀ b < 32, 1#288 <<< (256 + b) = (1#32 <<< b) ++ 0#256 := by decide +kernel

/-- Settles O10: data stored and the poison pattern read as the code says, and one check bit turned over leaves the data. -/
theorem granulesReadBack : Obligations.GranulesReadBack := by
  refine ⟨granuleDecode_granuleEncode, granuleDecode_granulePoison, fun d g b hb => ?_⟩
  rw [checkBit_eq b hb]
  exact granuleDecode_checkError d g (granuleClass_checkBit b hb)

end Sys2Proof.Machine

namespace Sys2Proof.Machine

/-! ## The pending list of the supervisor (09 R279, R281, R282) -/

/-- An entry goes in behind the entries of its severity or higher. -/
theorem insertEntry_split (e : PendEntry) (l : List PendEntry) : ∃ before after, insertEntry e l = before ++ e :: after ∧
    l = before ++ after ∧ (∀ x ∈ before, e.severity ≤ x.severity) ∧ ∀ x ∈ after.head?, x.severity < e.severity := by
  induction l with
  | nil => exact ⟨[], [], rfl, rfl, by simp, by simp⟩
  | cons y l ih =>
    by_cases hy : y.severity < e.severity
    · refine ⟨[], y :: l, if_pos hy, rfl, by simp, ?_⟩
      intro x hx
      obtain rfl : y = x := by simpa using hx
      exact hy
    · obtain ⟨before, after, hins, rfl, hbefore, hafter⟩ := ih
      refine ⟨y :: before, after, ?_, rfl, List.forall_mem_cons.2 ⟨Nat.le_of_not_lt hy, hbefore⟩, hafter⟩
      rw [insertEntry, if_neg hy, hins, List.cons_append]

/-- An entry that names no page, row or layer merges with none. -/
theorem mergeEntry_unkeyed {e : PendEntry} (h : e.key.1 = 0) (l : List PendEntry) : mergeEntry e l = none := if_pos h

/-- The entry that an event makes (R281). -/
def pendEntryOf (seq code source p0 p1 p2 : Nat) : PendEntry :=
  ⟨seq, severityOf code, code, source, (eventHalves code source).1, (eventHalves code source).2, mergeKey code source p0 p1 p2, 0, p0, p1, p2⟩

/-- The state once the recorder has staged an event or counted its loss. -/
def State.staged (s : State) (code source p0 p1 p2 : Nat) : State :=
  let st := s.evt.stage s.calendar code source p0 p1 p2
  if st.2.2 = 0 then { s with evt := st.1 } else State.count { s with evt := st.1 } Reg.EVT_LOST st.2.2

section
variable (s : State) (code source p0 p1 p2 : Nat)

@[simp] theorem State.staged_sup : (s.staged code source p0 p1 p2).sup = s.sup := by
  unfold State.staged
  dsimp only
  split <;> rfl

theorem State.staged_reg {a : Nat} (h : a ≠ Reg.EVT_LOST) : (s.staged code source p0 p1 p2).reg a = s.reg a := by
  unfold State.staged
  dsimp only
  split
  · rfl
  · exact State.reg_setReg_ne _ _ h

theorem recordEvent_unpended (h : severityOf code = 0) : recordEvent s code source p0 p1 p2 = s.staged code source p0 p1 p2 := if_pos h

/-- The halves of the entry lost to a full list become due, and the loss is recorded and counted (R282). -/
def State.overflowed (s : State) (code source lost : Nat) : State :=
  let half := if (eventHalves code source).1 && (eventHalves code source).2 then 2 else if (eventHalves code source).1 then 0 else 1
  let due : State := { s with sup := { s.sup with
    overflowResetW := s.sup.overflowResetW || (eventHalves code source).1
    overflowResetE := s.sup.overflowResetE || (eventHalves code source).2 } }
  ((due.staged 0x0C40 0 lost half s.sup.list.length).count Reg.BST_ERR_OVERFLOWS 1).setFld Reg.BST_ERR_STATUS 31 31 1

/-- An event that merges with no entry is pended, or lost to a full list. -/
theorem recordEvent_unmerged (h : severityOf code ≠ 0) (hkey : (mergeKey code source p0 p1 p2).1 = 0) :
    recordEvent s code source p0 p1 p2 =
      let t := s.staged code source p0 p1 p2
      if t.sup.list.length < 64 then
        { t with sup := { t.sup with list := insertEntry (pendEntryOf s.evt.head code source p0 p1 p2) t.sup.list } }
      else t.overflowed code source s.evt.head := by
  have hmerge (l : List PendEntry) : mergeEntry (pendEntryOf s.evt.head code source p0 p1 p2) l = none := mergeEntry_unkeyed hkey l
  unfold recordEvent
  extract_lets st seq s1 s2 sev hs e
  rw [if_neg h, show mergeEntry e s2.sup.list = none from hmerge _]
  rfl

theorem State.overflowed_sup (lost : Nat) : (s.overflowed code source lost).sup = { s.sup with
    overflowResetW := s.sup.overflowResetW || (eventHalves code source).1
    overflowResetE := s.sup.overflowResetE || (eventHalves code source).2 } := by
  unfold State.overflowed
  rw [State.setFld_sup, State.count_sup, State.staged_sup]

theorem State.toNat_reg_overflowed (lost : Nat) : ((s.overflowed code source lost).reg Reg.BST_ERR_OVERFLOWS).toNat =
    min ((s.reg Reg.BST_ERR_OVERFLOWS).toNat + 1) (2 ^ 32 - 1) := by
  unfold State.overflowed
  rw [State.reg_setFld_ne _ _ _ _ (by decide), State.toNat_reg_count, State.staged_reg _ _ _ _ _ _ (by decide)]
  rfl

end

/-- Settles O7: the event is staged, and then its severity and the length of the list say what the list does. -/
theorem pendingListTakesEvents : Obligations.PendingListTakesEvents := by
  refine ⟨fun s code source p0 p1 p2 h => ?_, fun s code source p0 p1 p2 h hkey hlen => ?_, fun s code source p0 p1 p2 h hkey hlen => ?_⟩
  · rw [recordEvent_unpended s code source p0 p1 p2 h, State.staged_sup]
  · obtain ⟨before, after, hins, hlist, hbefore, hafter⟩ := insertEntry_split (pendEntryOf s.evt.head code source p0 p1 p2) s.sup.list
    refine ⟨pendEntryOf s.evt.head code source p0 p1 p2, before, after, ?_, hlist, rfl, rfl, rfl, rfl, hbefore, hafter⟩
    rw [recordEvent_unmerged s code source p0 p1 p2 h hkey]
    dsimp only
    rw [State.staged_sup, if_pos hlen, hins]
  · rw [recordEvent_unmerged s code source p0 p1 p2 h hkey]
    dsimp only
    rw [State.staged_sup, if_neg (by omega), State.overflowed_sup, State.toNat_reg_overflowed, State.staged_sup,
      State.staged_reg _ _ _ _ _ _ (by decide)]
    exact ⟨rfl, rfl, rfl, rfl⟩

end Sys2Proof.Machine

namespace Sys2Proof.Machine

/-! ## The scrubber (09 R274, R275, Table 9.5) -/

/-- A word stored reads back, and every other word as before. -/
theorem Tile.raw_putWord (t : Tile) (ti w j : Nat) (c : BitVec 72) :
    ({ t with sram := SMap.put t.sram w c } : Tile).raw ti j = if j = w then c else t.raw ti j :=
  t.raw_put ti ⟨w, 0, 0, false⟩ c j t.written

section
variable (s : State) (ti w : Nat)

/-- Noting a read changes nothing of the tile but the counts of its rows (R277). -/
theorem noteSramRead_tile : ∃ m, (noteSramRead s ti w).tile ti = { s.tile ti with rowCe := m } := by
  have hrec (x : State) (code source p0 p1 p2 : Nat) : (recordEvent x code source p0 p1 p2).tile ti = x.tile ti := by
    unfold State.tile
    rw [recordEvent_tiles]
  have hcount (a n : Nat) : (s.count a n).tile ti = s.tile ti := rfl
  unfold noteSramRead
  extract_lets t s1 bank row b s2 s3 s4
  split
  · refine ⟨b.1, ?_⟩
    rw [apply_ite (State.tile · ti), hrec, ite_self]
    exact State.tile_setTile_same ..
  · refine ⟨t.rowCe, ?_⟩
    rw [apply_ite (State.tile · ti), hrec, State.tile_setFld, hcount, hcount, ite_self]
  · refine ⟨t.rowCe, ?_⟩
    rw [apply_ite (State.tile · ti), hrec, State.tile_setFld, hcount, hcount, ite_self]
  · exact ⟨t.rowCe, rfl⟩

theorem noteSramRead_raw (j : Nat) : ((noteSramRead s ti w).tile ti).raw ti j = (s.tile ti).raw ti j := by
  obtain ⟨m, hm⟩ := noteSramRead_tile s ti w
  rw [hm]
  rfl

/-- The scrubber changes a word only where it answers that it corrected it, and to new check bits over the data it read. -/
theorem scrubWord_raw (j : Nat) : ((scrubWord s ti w).1.tile ti).raw ti j =
    if (scrubWord s ti w).2 = true ∧ j = w then sramEncode ((s.tile ti).readWord ti w).2 w else (s.tile ti).raw ti j := by
  have hput : (((noteSramRead s ti w).modTile ti fun t => { t with
      sram := SMap.put t.sram w (sramEncode ((s.tile ti).readWord ti w).2 w) }).tile ti).raw ti j =
      if j = w then sramEncode ((s.tile ti).readWord ti w).2 w else (s.tile ti).raw ti j := by
    rw [State.tile_modTile_same, Tile.raw_putWord, noteSramRead_raw]
  unfold scrubWord
  dsimp only
  split
  · simp
  · split
    · simpa using hput
    · simpa using hput
    · simpa using noteSramRead_raw s ti w j

theorem scrubWord_corrects {i : Nat} {d : BitVec 64} (hl : (s.tile ti).lineWritten w = true)
    (hr : (s.tile ti).readWord ti w = (.dataCorrected i, d)) : (scrubWord s ti w).2 = true := by
  unfold scrubWord
  rw [hl, hr]
  rfl

/-- The state after the scrubber's turn at a word, with the correction counted for its pass (R275). -/
def State.scrubbed (s : State) (ti w : Nat) : State :=
  let r := scrubWord s ti w
  if r.2 then r.1.modTile ti (fun t => { t with scrubFixes := (t.scrubFixes.1 + 1, t.scrubFixes.2) }) else r.1

theorem State.scrubbed_raw (j : Nat) : ((s.scrubbed ti w).tile ti).raw ti j = ((scrubWord s ti w).1.tile ti).raw ti j := by
  unfold State.scrubbed
  dsimp only
  split
  · rw [State.tile_modTile_same]
    rfl
  · rfl

/-- A word that read corrected reads clean after the scrubber's turn. -/
theorem State.scrubbed_readWord {i : Nat} {d : BitVec 64} (hl : (s.tile ti).lineWritten w = true)
    (hr : (s.tile ti).readWord ti w = (.dataCorrected i, d)) : ((s.scrubbed ti w).tile ti).readWord ti w = (.clean, d) := by
  rw [Tile.readWord, State.scrubbed_raw, scrubWord_raw, if_pos ⟨scrubWord_corrects s ti w hl hr, rfl⟩, hr, sramDecode_sramEncode]

/-- Every other word stays. -/
theorem State.scrubbed_raw_ne {j : Nat} (h : j ≠ w) : ((s.scrubbed ti w).tile ti).raw ti j = (s.tile ti).raw ti j := by
  rw [State.scrubbed_raw, scrubWord_raw, if_neg fun hw => h hw.2]

/-- An SRAM engine within its pass: its turn at the word of its position, and the next position. -/
theorem exec_scrubAccess_sram (hp : s.fld Reg.PWR_STATUS 2 0 = 3) (hu : s.usable ti = true) (hc : s.ctl.untrained.contains ti = false)
    (hw : s.fld (tileReg ti Reg.INT_SCRUB_SRAM_POS) 17 0 = w) (hlt : w + 1 < sramWords) :
    exec (.scrubAccess false ti true) s = .next ((s.scrubbed ti w).setFld (tileReg ti Reg.INT_SCRUB_SRAM_POS) 17 0 (w + 1)) := by
  show execScrubAccess false ti true s = _
  unfold execScrubAccess
  rw [if_neg (by simp [hp]), if_neg Bool.false_ne_true, if_neg (by simp only [hu, hc]; decide), if_pos rfl]
  dsimp only
  rw [hw, if_pos hlt]
  rfl

/-- A stack's engine: its turn at the granule of its position, and the next position. -/
theorem exec_scrubAccess_stack (stack : Nat) (sram : Bool) (hp : s.fld Reg.PWR_STATUS 2 0 = 3) :
    ∃ t : State, exec (.scrubAccess true stack sram) s =
      .next { t with stm := { t.stm with scrubPos := SMap.put t.stm.scrubPos stack ((SMap.getD s.stm.scrubPos stack 0 + 1) % 2 ^ 31) } } := by
  refine ⟨scrubStackGran s stack (SMap.getD s.stm.scrubPos stack 0), ?_⟩
  show execScrubAccess true stack sram s = _
  unfold execScrubAccess
  rw [if_neg (by simp [hp]), if_pos rfl]

end

/-! ## A step on an uncorrectable SRAM word (09 R281, Table 9.8) -/

theorem settleOverflow_of_none {s : State} (hw : s.sup.overflowResetW = false) (he : s.sup.overflowResetE = false) : settleOverflow s = s := by
  unfold settleOverflow
  rw [hw, he]
  rfl

theorem entryStep_sramWord {e : PendEntry} (hcode : e.code = 0x2602) (s : State) (passed : Bool) : entryStep s e passed =
    dropEntry (if passed then s else wantSpare s e.source (0, bankOf (8 * (e.p0 / 8)), Config.sramRow (e.p0 / 8))) e := by
  unfold entryStep
  rw [hcode]
  rfl

/-- The pattern test decides whether the row of the word wants a spare; the entry goes either way. -/
theorem exec_pendingEntryStep_sramWord {s : State} {e : PendEntry} {r : List PendEntry} (hw : s.sup.overflowResetW = false)
    (he : s.sup.overflowResetE = false) (hl : s.sup.list = e :: r) (hcode : e.code = 0x2602) (passed : Bool) :
    exec (.pendingEntryStep passed) s =
      let h : State := { s with sup := { s.sup with handling := some e.seq } }
      .next (dropEntry (if passed then h else wantSpare h e.source (0, bankOf (8 * (e.p0 / 8)), Config.sramRow (e.p0 / 8))) e) := by
  show execPendingEntryStep passed s = _
  unfold execPendingEntryStep
  dsimp only
  rw [settleOverflow_of_none hw he, hl]
  dsimp only
  rw [entryStep_sramWord hcode]

theorem mem_pendingSpares_wantSpare (s : State) (ti : Nat) (x : Nat × Nat × Nat) : x ∈ ((wantSpare s ti x).tile ti).pendingSpares := by
  unfold wantSpare
  rw [State.tile_modTile_same]
  split
  · rename_i h
    exact List.contains_iff_mem.1 h
  · exact List.mem_append_right _ (List.mem_singleton_self x)

/-- Settles O30: the scrubber's turns, and the step on the first entry with and without its test passed. -/
theorem scrubbingAndHandlingAdvance : Obligations.ScrubbingAndHandlingAdvance := by
  refine ⟨fun s ti hp hu hc hlt => ?sram, fun s stack sram hp => ?stack, fun s e r hw he hl hcode => ?passed,
    fun s e r hw he hl hcode => ?failed⟩
  case sram =>
    generalize hpos : s.fld (tileReg ti Reg.INT_SCRUB_SRAM_POS) 17 0 = w at *
    refine ⟨_, exec_scrubAccess_sram s ti w hp hu hc hpos hlt, ?_, ?_⟩
    · rw [State.fld_setFld_same _ _ _ (by decide) (by decide)]
      unfold sramWords at hlt
      omega
    · rw [State.tile_setFld]
      exact ⟨fun j hj => s.scrubbed_raw_ne ti w hj, fun i d hl hr => s.scrubbed_readWord ti w hl hr⟩
  case stack =>
    obtain ⟨t, ht⟩ := exec_scrubAccess_stack s stack sram hp
    refine ⟨_, ht, ?_⟩
    dsimp only
    rw [SMap.getD_put_same]
  case passed =>
    refine ⟨_, exec_pendingEntryStep_sramWord hw he hl hcode true, ?_, rfl⟩
    rw [← hl]
    rfl
  case failed =>
    refine ⟨_, exec_pendingEntryStep_sramWord hw he hl hcode false, ?_, ?_, rfl⟩
    · rw [← hl]
      rfl
    · exact mem_pendingSpares_wantSpare ..

end Sys2Proof.Machine

namespace Sys2Proof.Machine

/-! ## Lists in which one number names one element -/

/-- The element put in place of those of its number is found under that number. -/
theorem find?_replace {α : Type} (key : α → Nat) (a : α) {b : α} {l : List α} (h : l.find? (fun y => decide (key y = key a)) = some b) :
    (l.map (fun y => if key y = key a then a else y)).find? (fun y => decide (key y = key a)) = some a := by
  have hk : (fun y => decide (key y = key a)) ∘ (fun y => if key y = key a then a else y) = fun y => decide (key y = key a) := by
    funext y
    by_cases hy : key y = key a <;> simp [hy]
  have hb : key b = key a := of_decide_eq_true (List.find?_some h :)
  rw [List.find?_map, hk, h, Option.map_some, if_pos hb]

theorem State.peer?_id {s : State} {i : Nat} {p : Peer} (h : s.peer? i = some p) : p.id = i := of_decide_eq_true (List.find?_some h :)

theorem State.peer?_putPeer {s : State} {pid : Nat} {p q : Peer} (h : s.peer? pid = some q) (hid : p.id = q.id := by rfl) :
    (s.putPeer p).peer? pid = some p := by
  have hp : p.id = pid := hid.trans (State.peer?_id h)
  subst hp
  exact find?_replace Peer.id p h

theorem State.session?_id {s : State} {i : Nat} {x : Session} (h : s.session? i = some x) : x.id = i := of_decide_eq_true (List.find?_some h :)

theorem State.session?_putSession {s : State} {i : Nat} {x y : Session} (h : s.session? i = some y) (hid : x.id = y.id := by rfl) :
    (s.putSession x).session? i = some x := by
  have hx : x.id = i := hid.trans (State.session?_id h)
  subst hx
  exact find?_replace Session.id x h

/-! ## Datagrams leave for a peer (11 R325-R327) -/

/-- A peer but for what its traffic moves: its acknowledgements, its credit, its datagrams and their times. -/
def Peer.steady (p : Peer) : Peer :=
  { p with heard := 0, rcvLimit := 0, ackDue := false, limit := 0, queue := [], unacked := [], sampled := false, srtt := 0, rttvar := 0 }

/-- A datagram but for its transmissions. -/
def OutDg.unsent (g : OutDg) : OutDg := { g with tries := 0, sentAt := 0 }

/-- The datagrams that a peer has not acknowledged, sent or not, in order. -/
def Peer.owed (p : Peer) : List OutDg := (p.unacked ++ p.queue).map OutDg.unsent

/-- Datagrams of one peer have left: the same ones are owed to it. -/
structure State.Pumps (s t : State) (pid : Nat) : Prop where
  frame : t = { s with client := { s.client with peers := t.client.peers }, out := t.out }
  peer : ∀ p, s.peer? pid = some p → ∃ q, t.peer? pid = some q ∧ q.steady = p.steady ∧ q.owed = p.owed

theorem State.Pumps.refl (s : State) (pid : Nat) : s.Pumps s pid := ⟨rfl, fun p h => ⟨p, h, rfl, rfl⟩⟩

theorem State.Pumps.trans {s t u : State} {pid : Nat} (h : s.Pumps t pid) (k : t.Pumps u pid) : s.Pumps u pid := by
  refine ⟨?_, fun p hp => ?_⟩
  · rw [k.frame, h.frame]
  · obtain ⟨q, hq, hs, ho⟩ := h.peer p hp
    obtain ⟨r, hr, ks, ko⟩ := k.peer q hq
    exact ⟨r, hr, ks.trans hs, ko.trans ho⟩

theorem State.putPeer_pumps {s : State} {pid : Nat} {p q : Peer} (hp : s.peer? pid = some p) (hs : q.steady = p.steady)
    (ho : q.owed = p.owed) : s.Pumps (s.putPeer q) pid := by
  refine ⟨rfl, fun p' hp' => ⟨q, State.peer?_putPeer hp (congrArg Peer.id hs :), ?_⟩⟩
  rw [hp] at hp'
  cases hp'
  exact ⟨hs, ho⟩

theorem State.emit_pumps (s : State) (o : Output) (pid : Nat) : s.Pumps (s.emit o) pid := ⟨rfl, fun q hq => ⟨q, hq, rfl, rfl⟩⟩

/-- A peer to which its acknowledgement and credit have just been sent. -/
def Peer.acknowledged (p : Peer) (credit : Nat) : Peer := { p with ackDue := false, rcvLimit := seqAdd p.rcvNext credit }

theorem transmit_peer {s : State} {pid : Nat} {p : Peer} (hp : s.peer? pid = some p) (g : OutDg) :
    s.Pumps (transmit s pid g) pid ∧ (transmit s pid g).peer? pid = some (p.acknowledged (s.creditOf p)) := by
  have ht : ∃ o, transmit s pid g = (s.putPeer (p.acknowledged (s.creditOf p))).emit o := by
    unfold transmit
    rw [hp]
    exact ⟨_, rfl⟩
  obtain ⟨o, ht⟩ := ht
  rw [ht]
  exact ⟨(State.putPeer_pumps (q := p.acknowledged _) hp rfl rfl).trans (State.emit_pumps ..), State.peer?_putPeer hp⟩

/-- A datagram as it stands once it is transmitted. -/
def OutDg.sent (g : OutDg) (now : Nat) : OutDg := { g with tries := 1, sentAt := now }

/-- A peer whose first datagram in the queue has been transmitted. -/
def Peer.moved (p : Peer) (g : OutDg) (rest : List OutDg) (now : Nat) : Peer :=
  { p with queue := rest, unacked := p.unacked ++ [g.sent now] }

theorem pumpList_pumps (pid : Nat) (l : List OutDg) : ∀ {s : State} {p : Peer}, s.peer? pid = some p → p.queue = l →
    s.Pumps (pumpList s pid l) pid := by
  induction l with
  | nil => exact fun _ _ => .refl _ pid
  | cons g rest ih =>
    intro s p hp hl
    have hmoved : (p.moved g rest s.now).owed = p.owed := by simp [Peer.owed, Peer.moved, OutDg.sent, OutDg.unsent, hl]
    have h1 : s.Pumps (s.putPeer (p.moved g rest s.now)) pid := State.putPeer_pumps hp rfl hmoved
    obtain ⟨h2, hq⟩ := transmit_peer (State.peer?_putPeer hp (p := p.moved g rest s.now)) (g.sent s.now)
    have hall := h1.trans (h2.trans (ih hq rfl))
    unfold pumpList
    rw [hp]
    dsimp only
    split
    · exact hall
    · exact .refl s pid

theorem pump_pumps {s : State} {pid : Nat} {p : Peer} (hp : s.peer? pid = some p) : s.Pumps (pump s pid) pid := by
  unfold pump
  rw [hp]
  exact pumpList_pumps pid _ hp rfl

/-- The parts of a body, one to a datagram, are the body (11 R325). -/
theorem splitBody_flatten {size : Nat} (h : 0 < size) (l : List Nat) : (splitBody size l).flatten = l := by
  have parts (n : Nat) : ((List.range n).map (fun i => (l.drop (size * i)).take size)).flatten = l.take (size * n) := by
    induction n with
    | zero => simp
    | succ n ih => rw [List.range_succ, List.map_append, List.flatten_append, ih, Nat.mul_succ, List.take_add]; simp
  unfold splitBody
  split
  · rename_i hl
    simp [List.isEmpty_iff.1 hl]
  · rw [parts, List.take_of_length_le]
    have := Nat.div_add_mod (l.length + size - 1) size
    have := Nat.mod_lt (l.length + size - 1) h
    omega

theorem splitBody_ne_nil {size : Nat} (h : 0 < size) (l : List Nat) : splitBody size l ≠ [] := by
  intro he
  have hl : l = [] := by rw [← splitBody_flatten h l, he]; rfl
  rw [hl] at he
  exact absurd he (by simp [splitBody])

/-- The peers and what has left the module may change, and nothing else. -/
def State.Mails (s t : State) : Prop := t = { s with client := { s.client with peers := t.client.peers }, out := t.out }

/-- The datagrams of a message to a peer. -/
def State.datagrams (s : State) (p : Peer) (dtype : Nat) (response : Bool) (body : List Nat) : List OutDg :=
  (splitBody (s.chunkSize p) body).mapIdx (fun i c => OutDg.mk (seqAdd p.sndNext i) dtype response i
    (decide (i + 1 = (splitBody (s.chunkSize p) body).length)) c 0 0)

theorem State.datagrams_body (s : State) (p : Peer) (dtype : Nat) (response : Bool) (body : List Nat) :
    (s.datagrams p dtype response body).map OutDg.body = splitBody (s.chunkSize p) body := by
  refine List.ext_getElem (by simp [State.datagrams]) fun i hi _ => ?_
  simp [State.datagrams]

theorem State.mem_datagrams {s : State} {p : Peer} {dtype : Nat} {response : Bool} {body : List Nat} {g : OutDg}
    (h : g ∈ s.datagrams p dtype response body) : g.dtype = dtype ∧ g.response = response := by
  obtain ⟨i, hi, rfl⟩ := List.mem_mapIdx.1 h
  exact ⟨rfl, rfl⟩

/-- A peer with a message queued behind what it is owed. -/
def Peer.queued (p : Peer) (gs : List OutDg) : Peer := { p with sndNext := seqAdd p.sndNext gs.length, queue := p.queue ++ gs }

theorem sendMsg_eq {s : State} {pid : Nat} {p : Peer} (hp : s.peer? pid = some p) (dtype : Nat) (response : Bool) (body : List Nat) :
    (sendMsg s pid dtype response body).1 = pump (s.putPeer (p.queued (s.datagrams p dtype response body))) pid := by
  unfold sendMsg
  rw [hp]
  simp [Peer.queued, State.datagrams]

theorem sendMsg_mails (s : State) (pid dtype : Nat) (response : Bool) (body : List Nat) : s.Mails (sendMsg s pid dtype response body).1 := by
  cases hp : s.peer? pid with
  | none =>
    unfold sendMsg
    rw [hp]
    rfl
  | some p =>
    rw [sendMsg_eq hp]
    exact (pump_pumps (State.peer?_putPeer hp)).frame

/-- A message to a peer that has room for one stands last among the datagrams owed to it (11 R325, R326). -/
theorem sendMsg_sends {s : State} {pid : Nat} {p : Peer} (hp : s.peer? pid = some p) (hfit : s.Fits p) (dtype : Nat) (response : Bool)
    (body : List Nat) : (sendMsg s pid dtype response body).1.Sends pid dtype response body := by
  have hput := State.peer?_putPeer hp (p := p.queued (s.datagrams p dtype response body))
  obtain ⟨q, hq, -, howed⟩ := (pump_pumps hput).peer _ hput
  have hnew : q.owed = p.owed ++ (s.datagrams p dtype response body).map OutDg.unsent := by simpa [Peer.owed, Peer.queued] using howed
  obtain ⟨pre, new, hsplit, -, hmap⟩ := List.map_eq_append_iff.1 hnew
  have hbody : new.map OutDg.body = splitBody (s.chunkSize p) body := by
    rw [← s.datagrams_body p dtype response body]
    simpa [Function.comp_def, OutDg.unsent] using congrArg (List.map OutDg.body) hmap
  rw [sendMsg_eq hp]
  refine ⟨q, pre, new, hq, hsplit, fun hn => splitBody_ne_nil hfit body ?_, fun g hg => ?_, ?_⟩
  · rw [← hbody, hn, List.map_nil]
  · obtain ⟨g0, hg0, he⟩ := List.mem_map.1 (hmap ▸ List.mem_map_of_mem (f := OutDg.unsent) hg)
    obtain ⟨ht, hr⟩ := State.mem_datagrams hg0
    exact ⟨(congrArg OutDg.dtype he.symm :).trans ht, (congrArg OutDg.response he.symm :).trans hr⟩
  · rw [hbody, splitBody_flatten hfit]

end Sys2Proof.Machine

namespace Sys2Proof.Machine

/-! ## A message arrives (11 R325, R326, R581) -/

theorem Peer.sample_steady (p : Peer) (r : Nat) : (p.sample r).steady = p.steady := by
  unfold Peer.sample
  split <;> rfl

theorem Peer.samples_steady (p : Peer) (f : OutDg → Nat) (l : List OutDg) : (l.foldl (fun p g => p.sample (f g)) p).steady = p.steady := by
  induction l generalizing p with
  | nil => rfl
  | cons g l ih => exact (ih _).trans (p.sample_steady _)

/-- A peer from which an acknowledgement has come (11 R326). -/
def Peer.takesAck (p : Peer) (d : Datagram) (now : Nat) : Peer :=
  { ((p.unacked.filter (fun g => ackedBy d.ack d.sack g.seq)).filter (fun g => decide (g.tries = 1))).foldl
      (fun p g => p.sample (now - g.sentAt)) p with
    heard := now
    limit := seqAdd d.ack d.credit
    unacked := p.unacked.filter (fun g => !ackedBy d.ack d.sack g.seq) }

theorem Peer.takesAck_steady (p : Peer) (d : Datagram) (now : Nat) : (p.takesAck d now).steady = p.steady := p.samples_steady _ _

/-- Taking an acknowledgement leaves the registers, and of its peer all but what its traffic moves. -/
theorem takeAck_peer {s : State} {pid : Nat} {p : Peer} (hp : s.peer? pid = some p) (d : Datagram) :
    (takeAck s pid d).regs = s.regs ∧ ∃ q, (takeAck s pid d).peer? pid = some q ∧ q.steady = p.steady := by
  have hs := p.takesAck_steady d s.now
  have hput : (s.putPeer (p.takesAck d s.now)).peer? pid = some (p.takesAck d s.now) := State.peer?_putPeer hp (congrArg Peer.id hs :)
  obtain ⟨hregs, hpeer⟩ : (dropResults (s.putPeer (p.takesAck d s.now)) pid).regs = s.regs ∧
      (dropResults (s.putPeer (p.takesAck d s.now)) pid).peer? pid = some (p.takesAck d s.now) := by
    unfold dropResults
    rw [hput]
    exact ⟨rfl, hput⟩
  have hack : takeAck s pid d = pump (dropResults (s.putPeer (p.takesAck d s.now)) pid) pid := by
    unfold takeAck
    rw [hp]
    rfl
  obtain ⟨q, hq, hqs, -⟩ := (pump_pumps hpeer).peer _ hpeer
  rw [hack]
  refine ⟨?_, q, hq, hqs.trans hs⟩
  rw [(pump_pumps hpeer).frame]
  exact hregs

/-- A peer that holds one datagram, to be acknowledged. -/
def Peer.holding (p : Peer) (d : Datagram) : Peer := { p with held := [d], ackDue := true }

/-- A peer whose one datagram held is delivered. -/
def Peer.delivered (p : Peer) : Peer := { p with rcvNext := seqAdd p.rcvNext 1, held := [] }

/-- A peer with no message in assembly. -/
def Peer.assembled (p : Peer) : Peer := { p with asm := none }

theorem deliver_held {s : State} {pid : Nat} {p : Peer} {d : Datagram} (hp : s.peer? pid = some p) (hheld : p.held = [d])
    (hseq : d.seq = p.rcvNext) : deliver s pid 1 = assemble (s.putPeer p.delivered) pid d := by
  unfold deliver
  simp [hp, hheld, hseq, deliver, Peer.delivered]

theorem setAsm_none {s : State} {pid : Nat} {p : Peer} (hp : s.peer? pid = some p) : setAsm s pid none = s.putPeer p.assembled := by
  unfold setAsm
  rw [hp]
  rfl

/-- A datagram that is a whole message by itself is handled (11 R581). -/
theorem assemble_whole {s : State} {pid : Nat} {p : Peer} {d : Datagram} (hp : s.peer? pid = some p) (hasm : p.asm = none)
    (hfrag : d.frag = 0) (hlast : lastOf d = true) (hbody : ¬ bodyLimit d.dtype < d.body.length) :
    assemble s pid d = handleMessage (setAsm s pid none) pid ⟨d.dtype, respOf d, 0, d.body⟩ := by
  unfold assemble
  simp [hp, hasm, hfrag, hlast, hbody, advance]

/-- Before the datagram of a peer's next number comes no other. -/
theorem seqLt_self (a : Nat) : seqLt a a = false := by
  have : seqSub a a = 0 := by
    unfold seqSub
    omega
  simp [seqLt, this]

/-- The state in which a message is handled, by the peer as it stands once its acknowledgement is taken. -/
theorem State.heard_eq {s : State} {p q : Peer} {d : Datagram} (hq : (takeAck s p.id d).peer? p.id = some q) :
    s.heard p d = (((takeAck s p.id d).putPeer (q.holding d)).putPeer (q.holding d).delivered).putPeer (q.holding d).delivered.assembled := by
  rw [← setAsm_none (pid := p.id) (State.peer?_putPeer (State.peer?_putPeer hq (p := q.holding d)))]
  unfold State.heard
  dsimp only
  rw [hq]
  rfl

section
variable {s : State} {p : Peer} {d : Datagram}

theorem State.heard_regs (hp : s.peer? p.id = some p) : (s.heard p d).regs = s.regs := by
  obtain ⟨hregs, q, hq, -⟩ := takeAck_peer hp d
  rw [State.heard_eq hq]
  exact hregs

theorem State.heard_peer {q : Peer} (hq : (takeAck s p.id d).peer? p.id = some q) :
    (s.heard p d).peer? p.id = some (q.holding d).delivered.assembled := by
  rw [State.heard_eq hq]
  exact State.peer?_putPeer (State.peer?_putPeer (p := (q.holding d).delivered) (State.peer?_putPeer hq (p := q.holding d)))

/-- The peer of a message that is handled, and its datagrams' room. -/
theorem State.Hears.peer (h : s.Hears p d) : ∃ q, (s.heard p d).peer? p.id = some q ∧ (s.Fits p → (s.heard p d).Fits q) := by
  obtain ⟨⟨-, -, -, -, -, hp, -⟩, -⟩ := h
  obtain ⟨-, q, hq, hs⟩ := takeAck_peer hp d
  refine ⟨_, State.heard_peer hq, fun hfit => ?_⟩
  have hv6 : (q.holding d).delivered.assembled.v6 = p.v6 := (congrArg Peer.v6 hs :)
  unfold State.Fits State.chunkSize State.fld State.reg at *
  rwa [State.heard_regs hp, hv6]

/-- A datagram that comes next and within its peer's credit is delivered. -/
theorem State.Hears.received {q : Peer} (h : s.Hears p d) (hq : (takeAck s p.id d).peer? p.id = some q) (hheld : q.held = []) :
    receive s d = deliver ((takeAck s p.id d).putPeer (q.holding d)) p.id 1 := by
  obtain ⟨⟨hport, hup, hopen, hgood, hat, -, hid, hcookie, hhello⟩, hack, hseq, hlimit, -⟩ := h
  have hother : ¬ (d.dtype = 1 ∧ !respOf d ∧ d.peerId = 0xFFFF ∧ d.cookie = 0) := by
    rintro ⟨htype, hresp, h3, h4⟩
    rcases hhello htype with h | h | h <;> simp_all
  unfold receive
  rw [if_neg (by simp [hup, hopen]; omega), if_neg (by simp [hgood]), if_neg hother, hat]
  dsimp only
  rw [if_neg (by simp [hid, hcookie]), if_neg hack, if_neg (by simp [hseq, seqLt_self]), if_neg (by simp [hlimit]), hq]
  simp [hheld, Peer.holding]

/-- A whole message that comes next is handled in the state that has heard it. -/
theorem State.Hears.handled (h : s.Hears p d) : receive s d = handleMessage (s.heard p d) p.id ⟨d.dtype, respOf d, 0, d.body⟩ := by
  obtain ⟨⟨-, -, -, hgood, -, hp, -⟩, -, hseq, -, hheld, hasm, hfrag, hlast⟩ := id h
  obtain ⟨-, q, hq, hs⟩ := takeAck_peer hp d
  have hqheld : q.held = [] := (congrArg Peer.held hs :).trans hheld
  have hqasm : q.asm = none := (congrArg Peer.asm hs :).trans hasm
  have hqnext : d.seq = q.rcvNext := hseq.trans (congrArg Peer.rcvNext hs.symm :)
  have hbody : ¬ bodyLimit d.dtype < d.body.length := by
    simp only [badDg, Bool.or_eq_false_iff, decide_eq_false_iff_not, not_not] at hgood
    omega
  have hput := State.peer?_putPeer hq (p := q.holding d)
  have hnext := State.peer?_putPeer hput (p := (q.holding d).delivered)
  rw [h.received hq hqheld, deliver_held hput rfl hqnext, assemble_whole hnext hqasm hfrag hlast hbody, setAsm_none hnext,
    State.heard_eq hq]
end

end Sys2Proof.Machine

namespace Sys2Proof.Machine

/-! ## The seats of a request's steps (10 R299, R307) -/

/-- The batch step stands in the plan still, its members with others perhaps. -/
def State.HoldsBatch (s : State) (b : Batch) : Prop :=
  ∃ b' ∈ s.sage.batches, b'.id = b.id ∧ b'.round = b.round ∧ b'.kind = b.kind ∧ b'.model = b.model ∧ b.members ⊆ b'.members

/-- Nothing but the plan changes between two states, and no batch step is lost from it. -/
structure State.Plans (s t : State) : Prop where
  frame : t = { s with sage := t.sage }
  batches : ∀ b ∈ s.sage.batches, t.HoldsBatch b

theorem State.Plans.refl (s : State) : s.Plans s := ⟨rfl, fun b hb => ⟨b, hb, rfl, rfl, rfl, rfl, List.Subset.refl _⟩⟩

theorem State.Plans.client {s t : State} (h : s.Plans t) : t.client = s.client := by
  rw [h.frame]

theorem State.Plans.holdsBatch {s t : State} {b : Batch} (h : s.Plans t) (hb : s.HoldsBatch b) : t.HoldsBatch b := by
  obtain ⟨b1, hb1, hid, hround, hkind, hmodel, hmem⟩ := hb
  obtain ⟨b2, hb2, jid, jround, jkind, jmodel, jmem⟩ := h.batches b1 hb1
  exact ⟨b2, hb2, jid.trans hid, jround.trans hround, jkind.trans hkind, jmodel.trans hmodel, List.Subset.trans hmem jmem⟩

theorem State.Plans.trans {s t u : State} (h : s.Plans t) (k : t.Plans u) : s.Plans u :=
  ⟨by rw [k.frame, h.frame], fun b hb => k.holdsBatch (h.batches b hb)⟩

theorem State.seat_plans (s : State) (model : Nat) (k : KindRec) (m : Member) (r : Nat) (seat : Option Nat) :
    s.Plans (s.seat model k m r seat).1 := by
  cases seat with
  | none => exact ⟨rfl, fun b hb => ⟨b, List.mem_append_left _ hb, rfl, rfl, rfl, rfl, List.Subset.refl _⟩⟩
  | some i =>
    refine ⟨rfl, fun b hb => ⟨_, List.mem_map_of_mem hb, ?_⟩⟩
    split <;> simp

/-- The batch step in which a member has its seat: of its kind and model, beginning in its round. -/
def State.Seats (s : State) (id model kind r : Nat) (m : Member) : Prop :=
  ∃ b ∈ s.sage.batches, b.id = id ∧ b.round = r ∧ b.kind = kind ∧ b.model = model ∧ m ∈ b.members

theorem State.Plans.seats {s t : State} {id model kind r : Nat} {m : Member} (h : s.Plans t) (hs : s.Seats id model kind r m) :
    t.Seats id model kind r m := by
  obtain ⟨b, hb, hid, hround, hkind, hmodel, hm⟩ := hs
  obtain ⟨b', hb', jid, jround, jkind, jmodel, jmem⟩ := h.batches b hb
  exact ⟨b', hb', jid.trans hid, jround.trans hround, jkind.trans hkind, jmodel.trans hmodel, jmem hm⟩

/-- A seat that is joined lies in a batch step of the kind that begins in the round. -/
theorem State.seatAt_joined {s : State} {margin sid model p ctx r i : Nat} {k : KindRec}
    (h : s.seatAt margin sid model k p ctx r = some (some i)) :
    ∃ b ∈ s.sage.batches, b.id = i ∧ b.round = r ∧ b.kind = k.id ∧ b.model = model := by
  unfold State.seatAt at h
  split at h
  · rename_i b hb
    have ht := List.find?_some hb
    simp only [Bool.and_eq_true, decide_eq_true_eq] at ht
    obtain ⟨⟨⟨⟨⟨⟨-, hmodel⟩, hkind⟩, hround⟩, -⟩, -⟩, -⟩ := ht
    cases h
    exact ⟨b, List.mem_of_find?_eq_some hb, rfl, hround, hkind, hmodel⟩
  · split at h <;> cases h

theorem State.seat_seats {s : State} {margin sid model p ctx r : Nat} {k : KindRec} {seat : Option Nat}
    (h : s.seatAt margin sid model k p ctx r = some seat) (m : Member) :
    (s.seat model k m r seat).1.Seats (s.seat model k m r seat).2 model k.id r m := by
  cases seat with
  | none => exact ⟨_, List.mem_append_right _ (List.mem_singleton_self _), rfl, rfl, rfl, rfl, List.mem_singleton_self m⟩
  | some i =>
    obtain ⟨b, hb, rfl, hround, hkind, hmodel⟩ := State.seatAt_joined h
    refine ⟨_, List.mem_map_of_mem hb, ?_⟩
    rw [if_pos rfl]
    exact ⟨rfl, hround, hkind, hmodel, List.mem_append_right _ (List.mem_singleton_self m)⟩

theorem State.kind?_id {s : State} {model kind : Nat} {k : KindRec} (h : s.kind? model kind = some k) : k.id = kind := by
  unfold State.kind? at h
  split at h
  · cases h
  · exact of_decide_eq_true (List.find?_some h :)

/-- The member that a step of a session's request makes. -/
def memberOf (x : Session) (reqId : Nat) (st : ReqStep) : Member := ⟨x.id, reqId, st.num, x.partition, st.ctx⟩

/-- A step that finds its place begins no earlier than it may, ends by its deadline, and has its seat (10 R307). -/
theorem State.placeStep_placed {s t : State} {margin reqId lo r id : Nat} {x : Session} {st : ReqStep}
    (h : s.placeStep margin x reqId st lo = some (t, r, id)) :
    lo ≤ r ∧ r + st.nparts ≤ st.deadline + 1 ∧ s.Plans t ∧ t.Seats id x.model st.kind r (memberOf x reqId st) := by
  unfold State.placeStep at h
  split at h
  · cases h
  · rename_i k hk
    split at h
    · cases h
    · extract_lets rounds at h
      split at h
      · cases h
      · rename_i r' seat hr
        obtain ⟨n, hn, hseat⟩ := List.exists_of_findSome?_eq_some hr
        obtain ⟨seat', hs, he⟩ := Option.map_eq_some_iff.1 hseat
        cases he
        cases h
        obtain ⟨i, hi, rfl⟩ := List.mem_map.1 hn
        have hi := List.mem_range.1 hi
        rw [← State.kind?_id hk]
        exact ⟨by omega, by omega, s.seat_plans .., State.seat_seats hs _⟩

/-- Where all steps find their places, those follow one another (10 R307). -/
theorem State.placeAll_placed {margin reqId : Nat} {x : Session} {steps : List ReqStep} : ∀ {s t : State} {prev : Nat} {l : List ReqStep},
    s.placeAll margin x reqId prev steps = some (t, l) → s.Plans t ∧
    ∃ rounds : List Nat, rounds.length = steps.length ∧ l.length = steps.length ∧
      ∀ (i r : Nat) (st st' : ReqStep), rounds[i]? = some r → steps[i]? = some st → l[i]? = some st' →
        prev < r ∧ r + st.nparts ≤ st.deadline + 1 ∧
        (∃ id, st' = { st with state := .placed id } ∧ t.Seats id x.model st.kind r (memberOf x reqId st)) ∧
        ∀ r', rounds[i + 1]? = some r' → r + st.nparts ≤ r' := by
  induction steps with
  | nil =>
    intro s t prev l h
    cases h
    exact ⟨.refl _, [], rfl, rfl, by simp⟩
  | cons st rest ih =>
    intro s t prev l h
    unfold State.placeAll at h
    split at h
    · cases h
    · rename_i s1 r id hp
      split at h
      · cases h
      · rename_i s2 l' hrest
        cases h
        obtain ⟨hlo, hend, hplans, hseat⟩ := State.placeStep_placed hp
        obtain ⟨hplans', rounds, hlen, hlen', hall⟩ := ih hrest
        have later {i r' : Nat} (hi : rounds[i]? = some r') : r + st.nparts ≤ r' := by
          have hlt := (List.getElem?_eq_some_iff.1 hi).1
          have := (hall i r' _ _ hi (List.getElem?_eq_getElem (hlen ▸ hlt)) (List.getElem?_eq_getElem (by omega))).1
          omega
        refine ⟨hplans.trans hplans', r :: rounds, by simp [hlen], by simp [hlen'], ?_⟩
        rintro (_ | i) r1 st1 st1' hr hst hst'
        · cases hr
          cases hst
          cases hst'
          exact ⟨hlo, hend, ⟨id, rfl, hplans'.seats hseat⟩, fun r' hr' => later hr'⟩
        · have hr : rounds[i]? = some r1 := hr
          obtain ⟨-, hend1, hseat1, hnext⟩ := hall i r1 st1 st1' hr hst hst'
          have := later hr
          exact ⟨by omega, hend1, hseat1, hnext⟩

/-- Settles O37, by induction on the steps of the request: what is placed later takes no seat away. -/
theorem admittedStepsEndByTheirDeadlines : Obligations.AdmittedStepsEndByTheirDeadlines := by
  intro s t margin x reqId prev steps l h
  obtain ⟨hplans, rounds, hlen, hlen', hall⟩ := State.placeAll_placed h
  refine ⟨rounds, hlen, hlen', fun i r st st' hr hst hst' => ?_, hplans.client⟩
  obtain ⟨hprev, hend, ⟨id, hst', b, hb, rfl, hround, hkind, hmodel, hm⟩, hnext⟩ := hall i r st st' hr hst hst'
  exact ⟨hprev, hend, ⟨b, hb, hst', hround, hkind, hmodel, hm⟩, hnext⟩

end Sys2Proof.Machine

namespace Sys2Proof.Machine

/-! ## SUBMIT (10 R307, 11 R337) -/

/-- A row of the protocol that hears its message answers as its handler does. -/
theorem clientRow_hears {s t : State} {p : Peer} {d : Datagram} {dtype : Nat} (h : s.Hears p d) (ht : d.dtype = dtype)
    (hr : respOf d = false)
    (hf : ∀ q, (s.heard p d).peer? p.id = some q → handleMessage (s.heard p d) p.id ⟨dtype, false, 0, d.body⟩ = t) :
    clientRow dtype d s = t := by
  obtain ⟨q, hq, -⟩ := h.peer
  unfold clientRow
  rw [if_pos ⟨ht, by simp [hr]⟩, h.handled, ht, hr, hf q hq]

section
variable {s : State} {p : Peer} {d : Datagram} (h : s.Hears p d) (hr : respOf d = false)
include h hr

theorem exec_submit (ht : d.dtype = 3) : exec (.submit d) s = .next (handleSubmit (s.heard p d) p.id d.body) :=
  congrArg Host.Outcome.next (clientRow_hears h ht hr fun q hq => by simp [handleMessage, hq])

theorem exec_cancel (ht : d.dtype = 5) : exec (.cancel d) s = .next (handleCancel (s.heard p d) p.id d.body) :=
  congrArg Host.Outcome.next (clientRow_hears h ht hr fun q hq => by simp [handleMessage, hq])

theorem exec_close (ht : d.dtype = 6) : exec (.close d) s = .next (handleClose (s.heard p d) p.id d.body) :=
  congrArg Host.Outcome.next (clientRow_hears h ht hr fun q hq => by simp [handleMessage, hq])
end

/-- A state that has a peer and its room as another does sends it an answer. -/
theorem answer_sends {s t : State} {pid : Nat} {q : Peer} (hq : s.peer? pid = some q) (hfit : s.Fits q)
    (hp : t.client.peers = s.client.peers) (hr : t.reg Reg.NET_MTU = s.reg Reg.NET_MTU) (dtype : Nat) (body : List Nat) :
    (answer t pid dtype body).Sends pid dtype true body := by
  refine sendMsg_sends (p := q) ?_ ?_ dtype true body
  · unfold State.peer?
    rw [hp]
    exact hq
  · unfold State.Fits State.chunkSize State.fld at *
    rwa [hr]

theorem answer_mails (s : State) (pid dtype : Nat) (body : List Nat) : s.Mails (answer s pid dtype body) := sendMsg_mails ..

/-- The answer to a request that is not accepted names no rounds. -/
theorem submitAnswer_refused (s : State) (pid st reqId : Nat) : submitAnswer s pid st reqId 0 0 =
    answer s pid 3 (beBytes 2 st ++ [0, 0] ++ beBytes 4 reqId ++ List.replicate 16 0) := by
  have h : beBytes 8 0 ++ beBytes 8 0 = List.replicate 16 0 := by decide
  unfold submitAnswer
  rw [List.append_assoc, h]

namespace State.Mails
variable {s t : State} (h : s.Mails t)
include h

theorem regs : t.regs = s.regs := by rw [h]
theorem sage : t.sage = s.sage := by rw [h]
theorem evt : t.evt = s.evt := by rw [h]
theorem sessions : t.client.sessions = s.client.sessions := by rw [h]

theorem session? (i : Nat) : t.session? i = s.session? i := by
  unfold State.session?
  rw [h.sessions]

theorem counted {u : State} {a n : Nat} (k : u.Counted s a n) : u.Counted t a n := by
  unfold State.Counted State.reg at *
  rwa [h.regs]

end State.Mails

theorem State.count_counted {s t : State} (h : t.regs = s.regs) (a n : Nat) : s.Counted (t.count a n) a n := by
  unfold State.Counted
  rw [State.toNat_reg_count]
  unfold State.reg
  rw [h]

section
variable {s : State} {pid : Nat} {l : List Nat} {x : Session}

theorem handleSubmit_noSession (h1 : 48 ≤ l.length) (h2 : l.length = 48 + 4 * beAt l 8 4) (hx : s.session? (beAt l 0 2) = none) :
    handleSubmit s pid l = submitAnswer s pid stNoSession (beAt l 4 4) 0 0 := by
  unfold handleSubmit
  rw [hx]
  exact if_neg (by omega)

/-- Sage's answer to the body of a SUBMIT on a session of a model. -/
def State.sageAnswer (s : State) (x : Session) (m : Model) (l : List Nat) : State × Nat × Nat × Nat :=
  admitRequest s x m.pkg.kinds (beAt l 2 1) (beAt l 3 1) (beAt l 4 4) (beAt l 8 4) (beAt l 12 4) ((l.drop 16).take 32)
    ((List.range (beAt l 8 4)).map (fun i => beAt l (48 + 4 * i) 4))

/-- A request that R337 does not refuse goes to Sage. -/
theorem handleSubmit_admits {m : Model} {r : State × Nat × Nat × Nat} (h1 : 48 ≤ l.length) (h2 : l.length = 48 + 4 * beAt l 8 4)
    (hx : s.session? (beAt l 0 2) = some x) (hm : s.model? x.model = some m)
    (href : submitRefusal s pid x (beAt l 2 1) (beAt l 3 1) (beAt l 8 4) (beAt l 12 4) m.pkg.kinds m.paused = none)
    (hr : s.sageAnswer x m l = r) : handleSubmit s pid l = submitAnswer r.1 pid r.2.1 (beAt l 4 4) r.2.2.1 r.2.2.2 := by
  subst hr
  unfold handleSubmit
  rw [hx]
  dsimp only
  rw [hm]
  dsimp only
  rw [href]
  exact if_neg (by omega)
end

section
variable {s : State} {x : Session} {kinds : List KindRec} {cls kindId reqId nin ngen : Nat} {params tokens : List Nat}
  {steps l : List ReqStep}

/-- A request whose every step is placed is accepted, and its session holds it (10 R307). -/
theorem admitRequest_placed {s1 : State}
    (hexp : expand kinds kindId nin ngen s.acceptRound (s.classFirst cls) (s.classStep cls) x.committed = some steps)
    (hens : s.ensBroken x.model = false) (hfar : ∀ st ∈ steps, st.deadline ≤ s.acceptRound + 16384) (hadm : s.admits = true)
    (hlead : s.leadsModel x.model = none) (hw : s.sage.inResetW = false) (he : s.sage.inResetE = false)
    (hplace : s.placeAll (s.fld Reg.ADM_MARGIN 5 0) x reqId s.acceptRound steps = some (s1, l)) :
    ∃ q first last, q.reqId = reqId ∧ q.steps = l ∧ admitRequest s x kinds cls kindId reqId nin ngen params tokens =
      ((s1.count Reg.ADM_ACCEPTED 1).putSession { x with request := some q }, stAccepted, first, last) := by
  have hnear : steps.any (fun st => decide (s.acceptRound + 16384 < st.deadline)) = false := by
    simpa using hfar
  unfold admitRequest
  simp only [hexp, hens, hnear, hadm, hlead, hw, he, hplace, Bool.false_eq_true, Bool.not_true, Option.isSome_none, false_and, or_self,
    Bool.and_false, Bool.or_false, ite_false]
  exact ⟨_, _, _, rfl, rfl, rfl⟩

/-- A request whose steps find no place is refused for capacity. -/
theorem admitRequest_unplaced
    (hexp : expand kinds kindId nin ngen s.acceptRound (s.classFirst cls) (s.classStep cls) x.committed = some steps)
    (hens : s.ensBroken x.model = false) (hfar : ∀ st ∈ steps, st.deadline ≤ s.acceptRound + 16384)
    (hplace : s.placeAll (s.fld Reg.ADM_MARGIN 5 0) x reqId s.acceptRound steps = none) :
    admitRequest s x kinds cls kindId reqId nin ngen params tokens = (s.count Reg.ADM_REFUSED_CAP 1, stRefusedCapacity, 0, 0) := by
  have hnear : steps.any (fun st => decide (s.acceptRound + 16384 < st.deadline)) = false := by
    simpa using hfar
  unfold admitRequest
  simp only [hexp, hens, hnear, hplace]
  split
  · contradiction
  · split_ifs <;> rfl
end

/-- Settles O36: what Sage answers to a request, and the answer that leaves for its peer. -/
theorem submitAdmitsOrRefuses : Obligations.SubmitAdmitsOrRefuses := by
  refine ⟨fun s p d x m steps l s1 h ht hr hfit h1 h2 hx hm href hexp hens hfar hadm hlead hw he hplace => ?accepted,
    fun s p d x m steps h ht hr hfit h1 h2 hx hm href hexp hens hfar hplace => ?capacity,
    fun s p d h ht hr hfit h1 h2 hx => ?noSession⟩
  all_goals obtain ⟨q, hq, hfit'⟩ := h.peer
  case accepted =>
    obtain ⟨req, first, last, hid, hsteps, hadmit⟩ := admitRequest_placed hexp hens hfar hadm hlead hw he hplace
    have hs1 := (State.placeAll_placed hplace).1
    have hx1 : (s1.count Reg.ADM_ACCEPTED 1).session? x.id = some x := by
      rw [State.session?_id hx, ← hx]
      exact congrArg (fun c : Client => c.sessions.find? _) hs1.client
    have hmails := answer_mails ((s1.count Reg.ADM_ACCEPTED 1).putSession { x with request := some req }) p.id 3
    rw [exec_submit h hr ht, handleSubmit_admits h1 h2 hx hm href hadmit]
    refine ⟨_, { x with request := some req }, req, first, last, rfl, ?_, rfl, hid, hsteps, (hmails _).sage, (hmails _).counted ?_, ?_⟩
    · exact ((hmails _).session? _).trans (State.session?_putSession hx1)
    · exact State.count_counted (by rw [hs1.frame]) _ _
    · refine answer_sends hq (hfit' hfit) (by rw [State.putSession, State.count, State.setReg, hs1.frame]) ?_ 3 _
      refine (State.reg_setReg_ne _ _ (by decide)).trans ?_
      rw [hs1.frame]
      rfl
  case capacity =>
    have hmails := answer_mails ((s.heard p d).count Reg.ADM_REFUSED_CAP 1) p.id 3
    rw [exec_submit h hr ht, handleSubmit_admits h1 h2 hx hm href (admitRequest_unplaced hexp hens hfar hplace),
      submitAnswer_refused]
    exact ⟨_, rfl, (hmails _).sage, (hmails _).sessions, (hmails _).counted (State.count_counted rfl _ _),
      answer_sends (t := (s.heard p d).count Reg.ADM_REFUSED_CAP 1) hq (hfit' hfit) rfl (State.reg_setReg_ne _ _ (by decide)) 3 _⟩
  case noSession =>
    rw [exec_submit h hr ht, handleSubmit_noSession h1 h2 hx, submitAnswer_refused]
    exact ⟨_, rfl, (answer_mails ..).sage, answer_sends hq (hfit' hfit) rfl rfl 3 _⟩

end Sys2Proof.Machine

namespace Sys2Proof.Machine

/-! ## A request ends (10 R310) -/

theorem State.Records.congr {s t u : State} {e : EventRec} (h : s.Records t e) (k : u.evt = t.evt) : s.Records u e := by
  unfold State.Records at *
  rwa [k]

/-- Taking members out of batch steps changes the plan only. -/
theorem foldl_unseat_frame (sid : Nat) (l : List ReqStep) (s : State) :
    l.foldl (fun s st => s.unseat sid st.num) s = { s with sage := (l.foldl (fun s st => s.unseat sid st.num) s).sage } := by
  induction l generalizing s with
  | nil => rfl
  | cons st l ih =>
    rw [List.foldl_cons, ih]
    rfl

theorem State.releaseSteps_frame (s : State) (x : Session) (q : Request) :
    (s.releaseSteps x q).1 = { s with sage := (s.releaseSteps x q).1.sage } := foldl_unseat_frame ..

/-- The steps of a request released, with the event of its end and the count of a drop. -/
def State.requestEnded (s : State) (x : Session) (q : Request) (status : Nat) : State :=
  let t := ((recordEvent s 0x0602 0 x.id status (q.last % 2 ^ 32)).releaseSteps x q).1
  if status = stLateDropped then t.count Reg.ADM_LATE_DROPPED 1 else t

section
variable (s : State) (x : Session) (q : Request) (status : Nat)

theorem State.requestEnded_frame : s.requestEnded x q status =
    { recordEvent s 0x0602 0 x.id status (q.last % 2 ^ 32) with
      sage := (s.requestEnded x q status).sage, regs := (s.requestEnded x q status).regs } := by
  unfold State.requestEnded
  dsimp only
  split
  · unfold State.count State.setReg
    rw [State.releaseSteps_frame]
  · rw [State.releaseSteps_frame]

theorem State.requestEnded_client : (s.requestEnded x q status).client = s.client := by
  rw [s.requestEnded_frame x q status, recordEvent_client]

theorem State.requestEnded_session? (i : Nat) : (s.requestEnded x q status).session? i = s.session? i := by
  unfold State.session?
  rw [State.requestEnded_client]

theorem State.requestEnded_out : (s.requestEnded x q status).out = s.out := by
  rw [s.requestEnded_frame x q status, recordEvent_out]

theorem State.requestEnded_records : s.Records (s.requestEnded x q status) (s.record 0x0602 0 x.id status (q.last % 2 ^ 32)) := by
  refine State.Records.congr (recordEvent_records s _ _ _ _ _) ?_
  rw [s.requestEnded_frame x q status]

theorem State.requestEnded_reg {a : Nat} (he : a ∉ eventRegs) (ha : a ≠ Reg.ADM_LATE_DROPPED) :
    (s.requestEnded x q status).reg a = s.reg a := by
  have hrel : ((recordEvent s 0x0602 0 x.id status (q.last % 2 ^ 32)).releaseSteps x q).1.reg a = s.reg a := by
    rw [State.releaseSteps_frame]
    exact recordEvent_reg _ _ _ _ _ _ he
  unfold State.requestEnded
  dsimp only
  split
  · exact (State.reg_setReg_ne _ _ ha).trans hrel
  · exact hrel
end

/-- The RESULTs of a session whose request has ended (11 R338). -/
def State.endResults (s : State) (x : Session) (q : Request) (status : Nat) : List Result :=
  if status = stCancelled then x.results
  else x.results ++ [⟨status, q.reqId, 0, false, (s.requestEnded x q status).round, x.committed, [], none⟩]

section
variable {s : State} {sid : Nat} {x : Session}

theorem endRequest_some {q : Request} (hx : s.session? sid = some x) (hq : x.request = some q) (status : Nat) :
    endRequest s sid status =
      (s.requestEnded x q status).putSession { x with request := none, results := s.endResults x q status } := by
  obtain rfl := State.session?_id hx
  unfold endRequest
  rw [hx]
  dsimp only
  rw [hq]
  rfl

theorem endRequest_none (hx : s.session? sid = some x) (hq : x.request = none) (status : Nat) : endRequest s sid status = s := by
  unfold endRequest
  rw [hx]
  dsimp only
  rw [hq]

/-- A session whose request has ended holds none, and is else as it was. -/
theorem endRequest_session (hx : s.session? sid = some x) (status : Nat) :
    ∃ rs, (endRequest s sid status).session? sid = some { x with request := none, results := rs } := by
  cases hq : x.request with
  | none =>
    rw [endRequest_none hx hq, hx, ← hq]
    exact ⟨x.results, rfl⟩
  | some q =>
    rw [endRequest_some hx hq]
    exact ⟨s.endResults x q status, State.session?_putSession ((s.requestEnded_session? x q status sid).trans hx)⟩

/-- A request that is cancelled has no RESULT (11 R338). -/
theorem endRequest_cancelled {q : Request} (hx : s.session? sid = some x) (hq : x.request = some q) :
    (endRequest s sid stCancelled).session? sid = some { x with request := none } := by
  rw [endRequest_some hx hq]
  exact State.session?_putSession ((s.requestEnded_session? x q stCancelled sid).trans hx)

/-- A session that is not closing is so once its close starts, with no request (11 R340). -/
theorem startClose_closes (hx : s.session? sid = some x) (hs : x.state ≠ .closing) (cause : Nat) (toPeer : Option Nat) :
    ∃ y, (startClose s sid cause toPeer).session? sid = some y ∧ y.state = .closing ∧ y.request = none ∧
      y.closing = some ⟨cause, toPeer⟩ := by
  obtain ⟨rs, hend⟩ := endRequest_session hx stCancelled
  unfold startClose
  dsimp only
  rw [hend]
  dsimp only
  rw [if_neg hs]
  exact ⟨_, State.session?_putSession hend, rfl, rfl, rfl⟩

theorem State.session?_of_ownSession {pid : Nat} (h : s.ownSession pid sid = some x) : s.session? sid = some x ∧ x.state = .opened := by
  unfold State.ownSession at h
  split at h
  · cases h
  · rename_i y hy
    split at h
    · rename_i ho
      cases h
      exact ⟨hy, ho.1⟩
    · cases h
end

/-! ## CANCEL, CLOSE and CLOSE_COMPLETE (11 R339, R340) -/

section
variable {s : State} {pid : Nat} {l : List Nat} {x : Session}

theorem handleCancel_cancels {q : Request} (h1 : l.length = 8) (h2 : beAt l 2 2 = 0) (hx : s.ownSession pid (beAt l 0 2) = some x)
    (hq : x.request = some q) (hid : q.reqId = beAt l 4 4) : handleCancel s pid l =
      answer (endRequest s x.id stCancelled) pid 5 (beBytes 2 stCancelled ++ [0, 0] ++ beBytes 4 (s.releaseSteps x q).2) := by
  unfold handleCancel
  simp [h1, h2, hx, hq, hid]

theorem handleClose_closes (h1 : 2 ≤ l.length) (h2 : (l.drop 2).any (· ≠ 0) = false) (hx : s.ownSession pid (beAt l 0 2) = some x) :
    handleClose s pid l = startClose s x.id 0 (some pid) := by
  unfold handleClose
  have hgood : ¬ (l.length < 2 ∨ (l.drop 2).any (· ≠ 0) = true) := by
    rw [h2]
    simp
    omega
  rw [hx, if_neg hgood]
end

def State.withoutSession (s : State) (i : Nat) : State :=
  { s with client := { s.client with sessions := s.client.sessions.filter (fun y => y.id ≠ i) } }

/-- The state in which a session has closed, before its answer: the session is gone, and its event is recorded. -/
def State.closed (s : State) (x : Session) (c : Closing) : State :=
  recordEvent (s.withoutSession x.id) 0x0705 0 x.id c.cause x.committed

theorem State.closed_records (s : State) (x : Session) (c : Closing) :
    s.Records (s.closed x c) (s.record 0x0705 0 x.id c.cause x.committed) :=
  fun h => recordEvent_records (s.withoutSession x.id) 0x0705 0 x.id c.cause x.committed h

section
variable {s : State} {session : Nat} {x : Session} {c : Closing}

theorem State.closed_sessions : (s.closed x c).client.sessions = s.client.sessions.filter (fun y => y.id ≠ x.id) := by
  unfold State.closed
  rw [recordEvent_client]
  rfl

/-- The sequences of a session are closed on the tiles that hold them. -/
def State.flushed (s : State) (session : Nat) : State :=
  ((s.tiles.filter (fun e => (SMap.get? e.2.kvSpace session).isSome)).map (·.1)).foldl
    (fun s ti => (closeSession s ti session).modTile ti (fun t => { t with kvSpace := SMap.del t.kvSpace session })) s

theorem completeClose_eq (hx : s.session? session = some x) (hc : x.closing = some c) (hr : s.sessionRuns session = false) :
    completeClose s session = match c.answer with
      | none => (s.flushed session).closed x c
      | some pid => answer ((s.flushed session).closed x c) pid 6 (beBytes 2 stAccepted ++ [0, 0] ++ beBytes 4 x.committed) := by
  obtain rfl := State.session?_id hx
  unfold completeClose
  rw [hx]
  dsimp only
  rw [hc]
  dsimp only
  rw [if_neg (by simp [hr])]
  rfl

theorem State.flushed_none (h : ∀ e ∈ s.tiles, SMap.get? e.2.kvSpace session = none) : s.flushed session = s := by
  unfold State.flushed
  rw [List.filter_eq_nil_iff.2 fun e he => by simp [h e he]]
  rfl

theorem completeClose_frees (hx : s.session? session = some x) (hc : x.closing = some c) (hr : s.sessionRuns session = false) :
    ∀ y ∈ (completeClose s session).client.sessions, y.id ≠ session := by
  have hgone : ∀ y ∈ ((s.flushed session).closed x c).client.sessions, y.id ≠ session := by
    intro y hy
    rw [State.closed_sessions, List.mem_filter] at hy
    simpa [State.session?_id hx] using hy.2
  rw [completeClose_eq hx hc hr]
  cases c.answer with
  | none => exact hgone
  | some pid => rwa [(answer_mails ..).sessions]
end

/-- Settles O38: the ends of a request and of a session. -/
theorem requestsAndSessionsEnd : Obligations.RequestsAndSessionsEnd := by
  refine ⟨fun s p d x q h ht hr hfit h1 h2 hx hq hid => ?cancel, fun s p d x h ht hr h1 h2 hx => ?close,
    fun s session x hx hs => ?detached, fun s session x c hx hc hr => ⟨_, rfl, completeClose_frees hx hc hr⟩,
    fun s session x c p hx hc hr hkv hto hp hfit => ?complete⟩
  case cancel =>
    obtain ⟨hsess, -⟩ := State.session?_of_ownSession hx
    have hsid := State.session?_id hsess
    obtain ⟨pe, hpe, hfit'⟩ := h.peer
    rw [← hsid] at hsess
    have hend := endRequest_some hsess hq stCancelled
    rw [exec_cancel h hr ht, handleCancel_cancels h1 h2 hx hq hid, hend]
    have hmails := answer_mails (((s.heard p d).requestEnded x q stCancelled).putSession
      { x with request := none, results := (s.heard p d).endResults x q stCancelled }) p.id 5
    refine ⟨_, { x with request := none }, rfl, ?_, rfl, rfl, rfl, ?_, answer_sends hpe (hfit' hfit) ?_ ?_ 5 _⟩
    · rw [(hmails _).session?, ← hend]
      exact endRequest_cancelled hsess hq
    · exact State.Records.congr (State.requestEnded_records _ _ _ _) (hmails _).evt
    · exact (congrArg Client.peers (State.requestEnded_client (s.heard p d) x q stCancelled) :)
    · exact State.requestEnded_reg _ _ _ _ (by decide) (by decide)
  case close =>
    obtain ⟨hsess, hopen⟩ := State.session?_of_ownSession hx
    rw [← State.session?_id hsess] at hsess
    rw [exec_close h hr ht, handleClose_closes h1 h2 hx]
    obtain ⟨y, hy⟩ := startClose_closes hsess (by simp [hopen]) 0 (some p.id)
    exact ⟨_, y, rfl, hy⟩
  case detached =>
    obtain ⟨y, hy⟩ := startClose_closes hx (by simp [hs]) 1 none
    have hexec : exec (.detachTimeout session) s = .next (startClose s session 1 none) := by
      show execDetachTimeout session s = _
      unfold execDetachTimeout
      rw [hx]
      exact if_pos hs
    exact ⟨_, y, hexec, hy⟩
  case complete =>
    have hdone := completeClose_eq hx hc hr
    rw [hto, State.flushed_none hkv] at hdone
    dsimp only at hdone
    obtain rfl := State.session?_id hx
    refine ⟨_, congrArg Host.Outcome.next hdone, ?_, ?_, answer_sends hp hfit ?_ ?_ 6 _⟩
    · exact State.Records.congr (s.closed_records x c) (answer_mails ..).evt
    · rw [(answer_mails ..).sessions, State.closed_sessions]
    · unfold State.closed
      rw [recordEvent_client]
      rfl
    · exact recordEvent_reg _ _ _ _ _ _ (by decide)

end Sys2Proof.Machine

namespace Sys2Proof.Machine

/-! ## What a commit's work in memory leaves as it was (06 R175, 07 R216) -/

/-- Between two states nothing has left the module, and nothing of its clients has changed. -/
structure State.Unseen (s t : State) : Prop where
  client : t.client = s.client
  out : t.out = s.out

namespace State.Unseen
variable {s t u : State}

theorem refl (s : State) : s.Unseen s := ⟨rfl, rfl⟩

theorem trans (h : s.Unseen t) (k : t.Unseen u) : s.Unseen u := ⟨k.client.trans h.client, k.out.trans h.out⟩

theorem upd (h : s.Unseen t) (hc : u.client = t.client := by rfl) (ho : u.out = t.out := by rfl) : s.Unseen u := h.trans ⟨hc, ho⟩

theorem setTile (h : s.Unseen t) {ti : Nat} {x : Tile} : s.Unseen (t.setTile ti x) := h.trans ⟨rfl, rfl⟩
theorem modTile (h : s.Unseen t) {ti : Nat} {f : Tile → Tile} : s.Unseen (t.modTile ti f) := h.trans ⟨rfl, rfl⟩
theorem putGranule (h : s.Unseen t) {slice k : Nat} {c : BitVec 288} : s.Unseen (t.putGranule slice k c) := h.trans ⟨rfl, rfl⟩
theorem putStack (h : s.Unseen t) {k : Nat} {c : BitVec 288} : s.Unseen (t.putStack k c) := h.trans ⟨rfl, rfl⟩
theorem setFld (h : s.Unseen t) {a hi lo v : Nat} : s.Unseen (t.setFld a hi lo v) := h.trans ⟨rfl, rfl⟩
theorem count (h : s.Unseen t) {a n : Nat} : s.Unseen (t.count a n) := h.trans ⟨rfl, rfl⟩

theorem recordEvent (h : s.Unseen t) (code source p0 p1 p2 : Nat) : s.Unseen (recordEvent t code source p0 p1 p2) :=
  h.upd (recordEvent_client ..) (recordEvent_out ..)

theorem ite {c : Prop} [Decidable c] (h : s.Unseen t) (k : s.Unseen u) : s.Unseen (if c then t else u) := by
  split
  · exact h
  · exact k

theorem foldl {α : Type} {g : State → α → State} {l : List α} (h : s.Unseen t) (k : ∀ (x : State) (a : α), x.Unseen (g x a)) :
    s.Unseen (l.foldl g t) := by
  induction l generalizing t with
  | nil => exact h
  | cons a l ih => exact ih (h.trans (k t a))

end State.Unseen

theorem countBond_unseen (s : State) (slice layer bond n : Nat) : s.Unseen (countBond s slice layer bond n) := by
  unfold countBond
  extract_lets t k l sum s1 a
  have h1 : s.Unseen s1 := .setTile (.refl s)
  exact h1.ite (h1.modTile.setFld.ite (h1.modTile.recordEvent ..))

theorem noteBondedRead_unseen (s : State) (ti : Nat) (tier : Tier) (addr : Nat) : s.Unseen (noteBondedRead s ti tier addr) := by
  have h := State.Unseen.refl s
  unfold noteBondedRead
  extract_lets sl k c syn s1 s2 row b s3 s4 s5
  have h2 : s.Unseen s2 := h.count.foldl fun x b => countBond_unseen x _ _ b 1
  have h3 : s.Unseen s3 := h2.modTile
  split
  · exact .ite h3.modTile h3
  · exact .ite h3.modTile h3
  · exact h.count.setFld.recordEvent ..
  · exact h.count.setFld.recordEvent ..
  · exact h

theorem noteStackRead_unseen (s : State) (ti addr : Nat) : s.Unseen (noteStackRead s ti addr) := by
  have h := State.Unseen.refl s
  unfold noteStackRead
  extract_lets m s1 row b q s2 s3 q' s4
  have h1 : s.Unseen s1 := h.count
  have h2 : s.Unseen s2 := h1.upd
  have hce : s.Unseen (if b.2 = 16 then s2.scheduleRepair m else s2) := .ite (.upd h2) h2
  split
  · exact hce
  · exact hce
  · exact h.count.recordEvent ..
  · exact (State.Unseen.upd h).count.recordEvent ..
  · exact h

theorem writeBonded_unseen (s : State) (ti : Nat) (x : MemWrite) : s.Unseen (writeBonded s ti x) := by
  have h := State.Unseen.refl s
  have hr : s.Unseen ((noteBondedRead s ti x.tier x.addr).count (tileReg ti Reg.BDM_RMW_COUNT) 1) :=
    (noteBondedRead_unseen s ti x.tier x.addr).count
  exact .ite h.putGranule (.ite h.putGranule (.ite (hr.putGranule.recordEvent ..) hr.putGranule))

theorem writeStackGran_unseen (s : State) (ti addr : Nat) (data mask : BitVec 256) (poison : Bool) :
    s.Unseen (writeStackGran s ti addr data mask poison) := by
  have h := State.Unseen.refl s
  have hr : s.Unseen ((noteStackRead s ti addr).count Reg.STM_WCB_RMW 1) := (noteStackRead_unseen s ti addr).count
  exact .ite h.putStack (.ite h.putStack (.ite (hr.putStack.recordEvent ..) hr.putStack))

theorem putBytes_unseen (s : State) (ti : Nat) (tier : Tier) (addr n v : Nat) : s.Unseen (putBytes s ti tier addr n v) := by
  unfold putBytes
  extract_lets off x
  split
  · exact writeStackGran_unseen s ti _ _ _ _
  · exact writeBonded_unseen s ti x

theorem setNextPos_unseen (s : State) (ti : Nat) (e : DirEntry) (n : Nat) : s.Unseen (setNextPos s ti e n) := by
  unfold setNextPos
  extract_lets cached
  have h : s.Unseen cached := .modTile (.refl s)
  split
  · exact h
  · exact h.trans (putBytes_unseen _ ti _ _ _ _)

theorem writeSram_unseen (s : State) (ti : Nat) (ws : List SramWrite) : s.Unseen (writeSram s ti ws) :=
  .ite (.refl s) (.modTile (.refl s))

theorem reloadStage_unseen (s : State) (ti space : Nat) (e : DirEntry) (h : PageHdr) : s.Unseen (reloadStage s ti space e h) := by
  unfold reloadStage
  split
  · exact .refl s
  · exact writeSram_unseen s ti _

theorem restoreSeq_unseen (s : State) (ti : Nat) (m : KvMark) : s.Unseen (restoreSeq s ti m) := by
  unfold restoreSeq
  split
  · exact (State.Unseen.ite (reloadStage_unseen s ti _ _ _) (.refl s)).trans (setNextPos_unseen _ ti _ _)
  · exact .refl s

theorem commitKv_unseen (s : State) (ti slot : Nat) : s.Unseen (commitKv s ti slot) := by
  unfold commitKv
  extract_lets ms written
  have h : s.Unseen written := .foldl (.refl s) fun x m => by
    split
    · exact putBytes_unseen x ti _ _ _ _
    · exact .refl x
  exact h.modTile

theorem commitTile_unseen (s : State) (b : Batch) (ti slot : Nat) : s.Unseen (commitTile s b ti slot) := by
  unfold commitTile
  extract_lets gone ms s1 s2
  have h1 : s.Unseen s1 := .foldl (.refl s) fun x m => restoreSeq_unseen x ti m
  have h2 : s.Unseen s2 := h1.modTile
  exact (h2.trans (commitKv_unseen s2 ti slot)).modTile

end Sys2Proof.Machine

namespace Sys2Proof.Machine

/-! ## A batch step commits (10 R311, R312) -/

theorem State.Unseen.session? {s t : State} (h : s.Unseen t) (i : Nat) : t.session? i = s.session? i := by
  unfold State.session?
  rw [h.client]

theorem noteDrop_out (s : State) (sid cause round : Nat) : (noteDrop s sid cause round).out = s.out := recordEvent_out ..

theorem endRequest_out (s : State) (sid status : Nat) : (endRequest s sid status).out = s.out := by
  cases hx : s.session? sid with
  | none =>
    unfold endRequest
    rw [hx]
  | some x =>
    cases hq : x.request with
    | none => rw [endRequest_none hx hq]
    | some q =>
      rw [endRequest_some hx hq]
      exact State.requestEnded_out ..

theorem endRequest_committed {s : State} {sid c : Nat} {x : Session} (hx : s.session? sid = some x) (hc : x.committed = c)
    (status : Nat) : ∃ y, (endRequest s sid status).session? sid = some y ∧ y.committed = c := by
  obtain ⟨rs, hend⟩ := endRequest_session hx status
  exact ⟨_, hend, hc⟩

theorem commitMember_out (s : State) (b : Batch) (i : Nat) (m : Member) : (commitMember s b i m).out = s.out := by
  unfold commitMember
  split
  · rfl
  · split
    · exact noteDrop_out ..
    · split
      · rfl
      · split
        · exact noteDrop_out ..
        · extract_lets
          split
          · exact endRequest_out ..
          · rfl

/-- A member whose request is in progress makes its session's context that of its step. -/
theorem commitMember_session {s : State} {b : Batch} {i : Nat} {m : Member} {x : Session} {q : Request} {st : ReqStep}
    (hx : s.session? m.session = some x) (hq : x.request = some q) (hid : q.reqId = m.reqId)
    (hst : q.steps.find? (fun y => decide (y.num = m.step)) = some st) :
    ∃ y, (commitMember s b i m).session? m.session = some y ∧ y.committed = st.ctx := by
  unfold commitMember
  rw [hx]
  dsimp only
  rw [hq]
  dsimp only
  rw [hst]
  dsimp only
  rw [if_neg (by simp [hid]), State.session?_id hx]
  generalize s.outputOf b i = out
  split
  · exact ⟨_, State.session?_putSession hx (hid := (State.session?_id hx).symm), rfl⟩
  · split
    · exact endRequest_committed (State.session?_putSession hx (hid := (State.session?_id hx).symm)) rfl stPoisoned
    · exact ⟨_, State.session?_putSession hx (hid := (State.session?_id hx).symm), rfl⟩

/-- The work of a commit in its tiles (06 R175). -/
def State.tilesCommitted (s : State) (b : Batch) : State :=
  b.need.foldl (fun s x => commitTile s b x.1 x.2) ((s.tilesOf b).foldl (fun s ti => commitTile s b ti b.carried) s)

theorem State.tilesCommitted_unseen (s : State) (b : Batch) : s.Unseen (s.tilesCommitted b) :=
  .foldl (.foldl (.refl s) fun x ti => commitTile_unseen x b ti _) fun x _ => commitTile_unseen x b _ _

/-- The members of a batch step commit once its tiles have. -/
def State.membersCommitted (s : State) (b : Batch) : State :=
  b.members.zipIdx.foldl (fun s x => commitMember s b x.2 x.1) (s.tilesCommitted b)

/-- A batch step that has committed. -/
def Batch.done (b : Batch) : Batch := { b with committed := true, part := none, need := [], got := [] }

theorem commitBatch_eq (s : State) (b : Batch) : commitBatch s b = { s.membersCommitted b with
    sage := { (s.membersCommitted b).sage with
      batches := (s.membersCommitted b).sage.batches.map (fun x => if x.id = b.id then { x.done with bases := b.bases } else x) } } := rfl

theorem commitBatch_committed (s : State) (b : Batch) : ∀ x ∈ (commitBatch s b).sage.batches, x.id = b.id → x.committed = true := by
  intro x hx hid
  rw [commitBatch_eq] at hx
  obtain ⟨y, -, rfl⟩ := List.mem_map.1 hx
  by_cases h : y.id = b.id
  · rw [if_pos h]
    rfl
  · rw [if_neg h] at hid
    exact absurd hid h

theorem commitBatch_out (s : State) (b : Batch) : (commitBatch s b).out = s.out := by
  have hfold (l : List (Member × Nat)) (t : State) : (l.foldl (fun s x => commitMember s b x.2 x.1) t).out = t.out := by
    induction l generalizing t with
    | nil => rfl
    | cons x l ih => exact (ih _).trans (commitMember_out ..)
  exact (hfold _ _).trans (s.tilesCommitted_unseen b).out

/-- The step of a batch step's one member commits with it. -/
theorem commitBatch_session {s : State} {b : Batch} {m : Member} {x : Session} {q : Request} {st : ReqStep} (hm : b.members = [m])
    (hx : s.session? m.session = some x) (hq : x.request = some q) (hid : q.reqId = m.reqId)
    (hst : q.steps.find? (fun y => decide (y.num = m.step)) = some st) :
    ∃ y, (commitBatch s b).session? m.session = some y ∧ y.committed = st.ctx := by
  obtain ⟨y, hy, hc⟩ := commitMember_session (b := b) (i := 0) (((s.tilesCommitted_unseen b).session? _).trans hx) hq hid hst
  refine ⟨y, Eq.trans ?_ hy, hc⟩
  rw [commitBatch_eq]
  unfold State.membersCommitted
  rw [hm]
  rfl

end Sys2Proof.Machine

namespace Sys2Proof.Machine

/-! ## What an ensemble's modules tell each other (12 R385) -/

/-- A control message to every module of a list: each is sent, and nothing else changes. -/
theorem foldl_sendCtrl {f : State → Nat → Ctrl} (hf : ∀ s o a, f { s with out := o } a = f s a) (l : List Nat) (s : State) :
    l.foldl (fun s a => sendCtrl s none a (f s a)) s = { s with out := s.out ++ l.map (fun a => .ctrl none a (f s a)) } := by
  induction l generalizing s with
  | nil =>
    rw [List.map_nil, List.append_nil]
    rfl
  | cons a l ih =>
    rw [List.foldl_cons, ih]
    unfold sendCtrl State.emit
    simp only [hf, List.map_cons, List.append_assoc, List.singleton_append]

/-! ## The plan of an ensemble's round (12 R385) -/

/-- The parts of a round that an ensemble's leader sends (12 R385). -/
def State.ensParts (s : State) (slot n : Nat) : List PlanPart :=
  s.sage.batches.filterMap (fun b =>
    if b.ens = some slot ∧ b.holds ∧ !b.committed then
      (b.partAt (s.nparts b.model b.kind) n).map (fun k => PlanPart.mk b.id b.model b.kind k b.members.length)
    else none)

theorem State.mem_ensParts {s : State} {slot n : Nat} {p : PlanPart} : p ∈ s.ensParts slot n ↔
    ∃ b ∈ s.sage.batches, b.ens = some slot ∧ b.holds = true ∧ b.committed = false ∧ ∃ k,
      b.partAt (s.nparts b.model b.kind) n = some k ∧ p = ⟨b.id, b.model, b.kind, k, b.members.length⟩ := by
  unfold State.ensParts
  simp only [List.mem_filterMap, Option.ite_none_right_eq_some, Option.map_eq_some_iff, Bool.not_eq_true', and_assoc, eq_comm (a := p)]

theorem execEnsPlanSend_leader {s : State} {slot : Nat} (hslot : slot < 8) (hst : s.ensState slot = esLeader) :
    ∃ t, execEnsPlanSend slot s = .next t ∧ (t.ensSlot slot).planned = some (s.round + 1) ∧
      t.out = s.out ++ (s.ensMembers slot).map (fun a => .ctrl none a (.ensPlan (s.round + 1) (s.ensParts slot (s.round + 1)))) := by
  unfold execEnsPlanSend
  rw [if_neg (by simp [hst, Nat.not_le.2 hslot])]
  refine ⟨_, rfl, ?_, ?_⟩
  · unfold State.ensSlot State.setEnsSlot
    rw [SMap.getD_put_same]
  · rw [foldl_sendCtrl (f := fun _ _ => _) (fun _ _ _ => rfl)]
    rfl

/-- The batch step that a member opens for a part of its leader's plan. -/
def State.partBatch (s : State) (src round e : Nat) (p : PlanPart) : Batch :=
  ⟨s.sage.nextBatch, p.model, p.kind, round - p.part, 0, [], none, [], [], [], none, false, false, false, some src, some e, [p.batch, p.size], none⟩

theorem execEnsPlan_one {s : State} {src round e : Nat} {p : PlanPart}
    (hslot : s.slotOf [esMember] (fun e => decide (s.ensLeader e = src)) = some e) (hround : s.round < round) (hfrozen : s.sage.frozen < round)
    (hmodel : s.model? p.model ≠ none) (hnew : ∀ b ∈ s.sage.batches, b.leader = some src → b.remote ≠ [p.batch, p.size]) :
    execEnsPlan src round [p] s = .next { s with sage := { s.sage with
      batches := s.sage.batches ++ [s.partBatch src round e p], nextBatch := s.sage.nextBatch + 1 } } := by
  have hfresh : s.sage.batches.any (fun b => decide (b.leader = some src) && decide (b.remote = [p.batch, p.size])) = false := by
    simpa using hnew
  unfold execEnsPlan
  rw [hslot]
  dsimp only
  rw [if_neg (by omega), List.foldl_cons, List.foldl_nil, if_neg (by simp [hmodel, hfresh])]
  rfl

/-! ## A report (10 R316) -/

/-- A batch step with a member's report, where it is one of those reported. -/
def Batch.reportedBy (b : Batch) (src : Nat) (batches : List Nat) : Batch :=
  if b.ens.isSome && b.leader.isNone && batches.contains b.id && !b.remote.contains src then { b with remote := b.remote ++ [src] } else b

theorem execEnsReport_now (s : State) (src : Nat) (batches : List Nat) : execEnsReport src s.round batches s =
    .next { s with sage := { s.sage with batches := s.sage.batches.map (·.reportedBy src batches) } } := if_neg (by simp)

theorem Batch.reportedBy_remote {b : Batch} {src : Nat} {batches : List Nat} (hens : b.ens ≠ none) (hlead : b.leader = none)
    (hin : b.id ∈ batches) : (b.reportedBy src batches).id = b.id ∧ src ∈ (b.reportedBy src batches).remote ∧
      ∀ a ∈ b.remote, a ∈ (b.reportedBy src batches).remote := by
  unfold Batch.reportedBy
  by_cases hsrc : src ∈ b.remote
  · rw [if_neg (by simp [hsrc])]
    exact ⟨rfl, hsrc, fun _ ha => ha⟩
  · rw [if_pos (by simp [Option.isSome_iff_ne_none, hens, hlead, hin, hsrc])]
    exact ⟨rfl, List.mem_append_right _ (List.mem_singleton_self src), fun _ ha => List.mem_append_left _ ha⟩

/-! ## A batch step dropped by its ensemble (10 R316) -/

/-- A batch step that its ensemble does not commit. -/
def Batch.undone (b : Batch) : Batch := { b with dropped := some (b.dropped.getD 0), decision := some false }

/-- A batch step dropped for its ensemble. -/
def State.undoBatch (s : State) (id : Nat) : State :=
  { s with sage := { s.sage with batches := s.sage.batches.map (fun x => if x.id = id then x.undone else x) } }

theorem State.undoBatch_dropped (s : State) (id : Nat) :
    ∀ x ∈ (s.undoBatch id).sage.batches, x.id = id → x.dropped ≠ none ∧ x.decision = some false := by
  intro x hx hid
  obtain ⟨y, -, rfl⟩ := List.mem_map.1 hx
  by_cases h : y.id = id
  · rw [if_pos h]
    exact ⟨nofun, rfl⟩
  · rw [if_neg h] at hid
    exact absurd hid h

/-! ## The decision (10 R316) -/

/-- The members of an ensemble told the leader's decision. -/
def State.told (s : State) (e : Nat) (d : Decision) : State :=
  { s with out := s.out ++ (s.ensMembers e).map (fun a => .ctrl none a (.ensDecision s.round [d])) }

/-- The leader may commit: it and every member have the batch step complete. -/
def State.ensComplete (s : State) (b : Batch) (e : Nat) : Bool :=
  b.dropped.isNone && b.complete (s.nparts b.model b.kind) && (s.ensMembers e).all b.remote.contains

theorem State.ensComplete_iff {s : State} {b : Batch} {e : Nat} : s.ensComplete b e = true ↔
    b.dropped = none ∧ b.complete (s.nparts b.model b.kind) = true ∧ ∀ a ∈ s.ensMembers e, a ∈ b.remote := by
  unfold State.ensComplete
  simp [and_assoc]

theorem decideBatch_eq (s : State) (b : Batch) (e : Nat) : decideBatch s b e =
    if s.ensComplete b e then commitBatch (s.told e ⟨b.id, s.ensComplete b e⟩) b
    else (s.told e ⟨b.id, s.ensComplete b e⟩).undoBatch b.id := by
  have htold := foldl_sendCtrl (f := fun t _ => .ensDecision t.round [⟨b.id, s.ensComplete b e⟩]) (fun _ _ _ => rfl) (s.ensMembers e) s
  exact congrArg (fun t => if s.ensComplete b e then commitBatch t b else t.undoBatch b.id) htold

theorem execEnsembleDecision_decides {s : State} {batch e k : Nat} {b : Batch}
    (hb : s.sage.batches.find? (fun b => decide (b.id = batch)) = some b) (hens : b.ens = some e) (hlead : b.leader = none)
    (hpart : b.part = some k) (hlast : k + 1 = s.nparts b.model b.kind) (hopen : b.committed = false) (hdec : b.decision = none) :
    execEnsembleDecision batch s = .next (decideBatch s b e) := by
  unfold execEnsembleDecision
  rw [hb]
  dsimp only
  rw [hens, hlead, hpart]
  dsimp only
  rw [if_neg (by simp [hopen, hdec, hlast])]

theorem execEnsDecision_one {s : State} {src : Nat} {d : Decision} {b : Batch}
    (hb : s.sage.batches.find? (fun b => decide (b.leader = some src) && decide (b.remote.head? = some d.batch) && !b.committed) = some b) :
    execEnsDecision src s.round [d] s = .next
      (if d.commit && b.dropped.isNone && b.complete (s.nparts b.model b.kind) then commitBatch s b else s.undoBatch b.id) := by
  unfold execEnsDecision
  rw [if_neg (by simp), List.foldl_cons, List.foldl_nil]
  dsimp only
  rw [hb]
  rfl

/-! ## A decision lost (10 R316, 12 R386) -/

theorem Recorder.staging_stage {e : EventRec} {r : Recorder} (h : e ∈ r.staging) (time code source p0 p1 p2 : Nat) :
    e ∈ (r.stage time code source p0 p1 p2).1.staging := by
  unfold Recorder.stage
  split
  · exact h
  · split
    · exact List.mem_append_left _ h
    · split
      · exact h
      · exact List.mem_append_left _ h

/-- Recording an event leaves what is staged. -/
theorem recordEvent_staging {e : EventRec} {s : State} (h : e ∈ s.evt.staging) (code source p0 p1 p2 : Nat) :
    e ∈ (recordEvent s code source p0 p1 p2).evt.staging := by
  unfold recordEvent
  extract_lets st seq s1 s2 sev hs y sup half st2 s3 s4
  have hst : e ∈ st.1.staging := Recorder.staging_stage h ..
  clear_value st seq sev hs y sup half
  have h2 : e ∈ s2.evt.staging := by
    unfold s2
    split
    · exact hst
    · exact hst
  clear_value s2
  have hst2 : e ∈ st2.1.staging := Recorder.staging_stage h2 ..
  clear_value st2
  have h4 : e ∈ s4.evt.staging := by
    unfold s4
    split
    · exact hst2
    · exact hst2
  clear_value s4
  split
  · exact h2
  · split
    · exact h2
    · split
      · exact h2
      · rwa [State.setFld_evt, State.count_evt]

/-- The event a recorder with room stages stands there however many follow it. -/
theorem State.Records.shows {s t : State} {e : EventRec} (h : s.Records t e) : s.Shows t e := by
  intro hroom
  rw [(h hroom).1]
  exact List.mem_append_right _ (List.mem_singleton_self e)

/-- A batch step whose decision a member still waits for (10 R316). -/
def Batch.waitsFor (b : Batch) (slot : Nat) : Bool :=
  b.leader.isSome && decide (b.ens = some slot) && b.part.isSome && b.decision.isNone && !b.committed

/-- The batch steps that wait for an ensemble's decision dropped. -/
def State.undecided (s : State) (slot : Nat) : State :=
  { s with sage := { s.sage with batches := s.sage.batches.map (fun b => if b.waitsFor slot then { b with dropped := some 5 } else b) } }

theorem State.undecided_dropped (s : State) (slot : Nat) : ∀ b ∈ (s.undecided slot).sage.batches, b.waitsFor slot = true → b.dropped = some 5 := by
  intro b hb hw
  obtain ⟨y, -, rfl⟩ := List.mem_map.1 hb
  by_cases h : y.waitsFor slot = true
  · rw [if_pos h]
  · rw [if_neg h] at hw
    exact absurd hw h

/-- A slot's control register is none that an event writes. -/
theorem ensCtrl_notMem_eventRegs {e : Nat} (h : e < 8) : ensReg Reg.FAB_ENS_CTRL e ∉ eventRegs := by
  unfold ensReg eventRegs Reg.FAB_ENS_CTRL Reg.EVT_LOST Reg.BST_ERR_OVERFLOWS Reg.BST_ERR_STATUS
  simp only [List.mem_cons, List.not_mem_nil, or_false, not_or]
  omega

/-- A member's ensemble broken: its slot says so, and the batch steps and what is staged stay. -/
theorem breakEns_member {s : State} {e : Nat} (he : e < 8) (hst : s.ensState e = esMember) (cause member : Nat) :
    (breakEns s e cause member).ensState e = esBroken ∧ (breakEns s e cause member).sage = s.sage ∧
      ∀ x ∈ s.evt.staging, x ∈ (breakEns s e cause member).evt.staging := by
  unfold breakEns
  rw [hst, if_neg (by decide)]
  dsimp only
  rw [if_pos rfl]
  refine ⟨?_, recordEvent_sage .., fun x hx => recordEvent_staging (by exact hx) ..⟩
  unfold State.ensState
  rw [recordEvent_fld _ _ _ _ _ _ _ _ (ensCtrl_notMem_eventRegs he)]
  exact State.fld_setFld_same s _ _ (by decide) (by decide)

theorem execEnsembleDecisionLost_member {s : State} {slot : Nat} (hslot : slot < 8) (hst : s.ensState slot = esMember)
    (hw : ∃ b ∈ s.sage.batches, b.waitsFor slot = true) :
    execEnsembleDecisionLost slot s = .next
      (breakEns (recordEvent (s.undecided slot) 0x0606 0 0 (s.round % 2 ^ 32) (s.ensLeader slot)) slot 5 s.fabAddr) := by
  have hany : s.sage.batches.any (Batch.waitsFor · slot) = true := List.any_eq_true.2 hw
  unfold execEnsembleDecisionLost
  extract_lets waits leader t
  rw [if_neg (by simp [hst, Nat.not_le.2 hslot, show s.sage.batches.any waits = true from hany])]
  rfl

/-- Settles O50: the leader's decision is its one test of the batch step, and a commit or a drop marks every batch step of that number. -/
theorem ensemblesCommitTogether : Obligations.EnsemblesCommitTogether := by
  unfold Obligations.EnsemblesCommitTogether
  refine ⟨?plans, ?takes, ?reports, ?decides, ?follows, ?lost⟩
  case plans =>
    intro s slot hslot hst
    obtain ⟨t, ht, hplanned, hout⟩ := execEnsPlanSend_leader hslot hst
    exact ⟨t, _, ht, hplanned, hout, fun p => State.mem_ensParts⟩
  case takes =>
    intro s src round e p hslot hround hfrozen hmodel hnew
    exact ⟨_, _, execEnsPlan_one hslot hround hfrozen hmodel hnew, rfl, rfl, rfl, rfl, rfl, rfl, rfl, rfl⟩
  case reports =>
    intro s src batches
    exact ⟨_, execEnsReport_now s src batches, rfl, rfl, fun b hb hens hlead hin =>
      ⟨_, List.mem_map_of_mem hb, Batch.reportedBy_remote hens hlead hin⟩⟩
  case decides =>
    intro s batch e k b hb hens hlead hpart hlast hopen hdec
    have hex := execEnsembleDecision_decides hb hens hlead hpart hlast hopen hdec
    obtain rfl : b.id = batch := of_decide_eq_true (List.find?_some hb :)
    rw [decideBatch_eq] at hex
    constructor
    · intro hdrop hcomplete hall
      rw [State.ensComplete_iff.2 ⟨hdrop, hcomplete, hall⟩, if_pos rfl] at hex
      refine ⟨_, hex, commitBatch_committed _ b, fun a ha => ?_⟩
      rw [commitBatch_out]
      exact List.mem_append_right _ (List.mem_map.2 ⟨a, ha, rfl⟩)
    · intro hfails
      have hno : s.ensComplete b e = false := by
        rw [← Bool.not_eq_true, State.ensComplete_iff]
        rintro ⟨hdrop, hcomplete, hall⟩
        obtain h | h | ⟨a, ha, hmiss⟩ := hfails
        · exact h hdrop
        · exact absurd (h.symm.trans hcomplete) (by decide)
        · exact hmiss (hall a ha)
      rw [hno, if_neg (by decide)] at hex
      exact ⟨_, hex, State.undoBatch_dropped _ _, rfl⟩
  case follows =>
    intro s src d b hb
    refine ⟨_, execEnsDecision_one hb, fun hcommit hdrop hcomplete => ?_, fun hcommit => ?_⟩
    · rw [if_pos (by simp [hcommit, hdrop, hcomplete])]
      exact commitBatch_committed s b
    · rw [if_neg (by simp [hcommit])]
      exact s.undoBatch_dropped b.id
  case lost =>
    intro s slot hslot hst hw
    have hwaits {b : Batch} (h : b.leader ≠ none ∧ b.ens = some slot ∧ b.part ≠ none ∧ b.decision = none ∧ b.committed = false) :
        b.waitsFor slot = true := by
      obtain ⟨hlead, hens, hpart, hdec, hopen⟩ := h
      simp [Batch.waitsFor, Option.isSome_iff_ne_none, hlead, hens, hpart, hdec, hopen]
    have hrec := recordEvent_records (s.undecided slot) 0x0606 0 0 (s.round % 2 ^ 32) (s.ensLeader slot)
    have hmember : (recordEvent (s.undecided slot) 0x0606 0 0 (s.round % 2 ^ 32) (s.ensLeader slot)).ensState slot = esMember :=
      (recordEvent_fld _ _ _ _ _ _ _ _ (ensCtrl_notMem_eventRegs hslot)).trans hst
    obtain ⟨hbroken, hsage, hstaged⟩ := breakEns_member hslot hmember 5 s.fabAddr
    refine ⟨_, execEnsembleDecisionLost_member hslot hst (hw.imp fun b h => ⟨h.1, hwaits h.2⟩), hbroken,
      fun hroom => hstaged _ (hrec.shows hroom), fun b hb h1 h2 h3 h4 h5 => ?_⟩
    rw [hsage, recordEvent_sage] at hb
    exact s.undecided_dropped slot b hb (hwaits ⟨h1, h2, h3, h4, h5⟩)

end Sys2Proof.Machine

namespace Sys2Proof.Machine

/-! ## The plan freeze (10 R302) -/

/-- A batch step after steps left it: its round and its state are as they were, and of its members none is new and none is of those who
left. -/
structure Batch.Thins (b b' : Batch) (gone : List Member) : Prop where
  round : b'.round = b.round
  part : b'.part = b.part
  committed : b'.committed = b.committed
  members : ∀ m ∈ b'.members, m ∈ b.members ∧
    (b.part = none → b.committed = false → ∀ g ∈ gone, ¬ (m.session = g.session ∧ m.step = g.step))

theorem State.unseat_thins {s : State} {sid num : Nat} {b' : Batch} (h : b' ∈ (s.unseat sid num).sage.batches) {g : Member}
    (hs : g.session = sid) (hn : g.step = num) : ∃ b ∈ s.sage.batches, b.Thins b' [g] := by
  subst hs hn
  obtain ⟨b, hb, rfl⟩ := List.mem_map.1 (List.mem_filter.1 h).1
  refine ⟨b, hb, ?_⟩
  split
  next hheld =>
    refine ⟨rfl, rfl, rfl, fun m hm => ⟨hm, fun hpart hopen => ?_⟩⟩
    simp [hpart, hopen] at hheld
  next =>
    refine ⟨rfl, rfl, rfl, fun m hm => ?_⟩
    obtain ⟨hm, hne⟩ := List.mem_filter.1 hm
    exact ⟨hm, fun _ _ g hg hsame => by simp [hsame, List.mem_singleton.1 hg] at hne⟩

/-- A planned step returns to its session, to be placed again. -/
def State.returnStep (s : State) (m : Member) : State := (s.unseat m.session m.step).setStep m.session m.reqId m.step .waiting

theorem State.setStep_frame (s : State) (sid reqId num : Nat) (v : StepState) :
    s.setStep sid reqId num v = { s with client := (s.setStep sid reqId num v).client } := by
  unfold State.setStep
  split
  · rfl
  · split
    · rfl
    · split
      · rfl
      · rfl

theorem foldl_returnStep_frame (ms : List Member) (s : State) : ms.foldl State.returnStep s = { s with
    client := (ms.foldl State.returnStep s).client
    sage := { s.sage with batches := (ms.foldl State.returnStep s).sage.batches } } := by
  induction ms generalizing s with
  | nil => rfl
  | cons m ms ih =>
    have h1 : s.returnStep m = { s with client := (s.returnStep m).client, sage := { s.sage with batches := (s.unseat m.session m.step).sage.batches } } :=
      State.setStep_frame ..
    rw [List.foldl_cons, ih, h1]

theorem foldl_returnStep_thins (ms : List Member) (s : State) {b' : Batch} (h : b' ∈ (ms.foldl State.returnStep s).sage.batches) :
    ∃ b ∈ s.sage.batches, b.Thins b' ms := by
  induction ms generalizing s with
  | nil => exact ⟨b', h, rfl, rfl, rfl, fun m hm => ⟨hm, fun _ _ => nofun⟩⟩
  | cons g ms ih =>
    obtain ⟨b1, hb1, h1⟩ := ih (s.returnStep g) h
    have hsage : (s.returnStep g).sage = (s.unseat g.session g.step).sage := by
      unfold State.returnStep
      rw [State.setStep_frame]
    rw [hsage] at hb1
    obtain ⟨b, hb, h2⟩ := State.unseat_thins hb1 rfl rfl
    refine ⟨b, hb, h1.round.trans h2.round, h1.part.trans h2.part, h1.committed.trans h2.committed, fun m hm => ?_⟩
    obtain ⟨hm1, hms⟩ := h1.members m hm
    obtain ⟨hm2, hg⟩ := h2.members m hm1
    refine ⟨hm2, fun hpart hopen x hx => ?_⟩
    obtain rfl | hx := List.mem_cons.1 hx
    · exact hg hpart hopen x (List.mem_singleton_self x)
    · exact hms (h2.part.trans hpart) (h2.committed.trans hopen) x hx

/-- The sessions whose RESULT queue is full (10 R302). -/
def State.fullSessions (s : State) : List Nat := (s.client.sessions.filter (fun x => decide (256 ≤ x.results.length))).map (·.id)

/-- The planned steps of a round whose session's RESULT queue is full. -/
def State.crowded (s : State) (n : Nat) : List Member :=
  (s.sage.batches.filter (fun b => decide (b.round = n) && b.part.isNone && !b.committed)).flatMap (fun b =>
    b.members.filter (fun m => s.fullSessions.contains m.session))

/-- The freeze of a round. -/
def State.frozenAt (s : State) (n : Nat) : State :=
  { s with now := s.now + (n * s.roundNs - 30000 - s.calendar), sage := { s.sage with frozen := n } }

theorem execPlanFreeze_eq (s : State) : execPlanFreeze s =
    .next ((s.crowded (s.calendar / s.roundNs + 1)).foldl State.returnStep (s.frozenAt (s.calendar / s.roundNs + 1))) := rfl

theorem State.calendar_later {s : State} {u : State} {d : Nat} (h : 0 ≤ (s.now : Int) + s.tb.offset) (hnow : u.now = s.now + d)
    (htb : u.tb = s.tb) : u.calendar = s.calendar + d := by
  unfold State.calendar
  rw [hnow, htb]
  omega

/-- After the freeze no step of a session with a full RESULT queue is planned for the round. -/
theorem foldl_crowded_room {s : State} {n : Nat} {b : Batch}
    (hb : b ∈ ((s.crowded n).foldl State.returnStep (s.frozenAt n)).sage.batches) (hround : b.round = n) (hpart : b.part = none)
    (hopen : b.committed = false) {m : Member} (hm : m ∈ b.members) {x : Session} (hx : x ∈ s.client.sessions) (hid : x.id = m.session) :
    x.results.length < 256 := by
  obtain ⟨b0, hb0, hthins⟩ := foldl_returnStep_thins _ _ hb
  obtain ⟨hm0, hgone⟩ := hthins.members m hm
  rw [hthins.round] at hround
  rw [hthins.part] at hpart
  rw [hthins.committed] at hopen
  by_contra hfull
  have hcrowd : m ∈ s.crowded n := by
    refine List.mem_flatMap.2 ⟨b0, List.mem_filter.2 ⟨hb0, by simp [hround, hpart, hopen]⟩, List.mem_filter.2 ⟨hm0, ?_⟩⟩
    rw [List.contains_iff_mem]
    exact List.mem_map.2 ⟨x, List.mem_filter.2 ⟨hx, decide_eq_true (by omega)⟩, hid⟩
  exact hgone hpart hopen m hcrowd ⟨rfl, rfl⟩

end Sys2Proof.Machine

namespace Sys2Proof.Machine

/-! ## A reading of pace (10 R314) -/

/-- The last 100 readings of a cluster with one more (10 R314). -/
def State.paced (s : State) (c v : Nat) : List Nat := (v :: SMap.getD s.sage.readings c []).take 100

/-- A reading of a cluster's pace taken: it is among its last 100, their least is the pace, and the plan's pace tells whether the cluster
is below its floor. -/
structure State.PaceTaken (s t : State) (c v : Nat) : Prop where
  readings : SMap.getD t.sage.readings c [] = s.paced c v
  pace : t.fld (Reg.ADM_FLOOR + c) 15 0 = (s.paced c v).foldl min v % 65536
  below : c ∈ t.sage.belowFloor ↔ t.fld (Reg.ADM_FLOOR + c) 31 16 < 800

/-- A cluster's readings, its pace and its place below its floor are as they were. -/
structure State.PaceKept (s t : State) (c : Nat) : Prop where
  readings : SMap.getD t.sage.readings c [] = SMap.getD s.sage.readings c []
  reg : t.reg (Reg.ADM_FLOOR + c) = s.reg (Reg.ADM_FLOOR + c)
  below : c ∈ t.sage.belowFloor ↔ c ∈ s.sage.belowFloor

theorem State.PaceKept.trans {s t u : State} {c : Nat} (h : s.PaceKept t c) (k : t.PaceKept u c) : s.PaceKept u c :=
  ⟨k.readings.trans h.readings, k.reg.trans h.reg, k.below.trans h.below⟩

theorem State.PaceTaken.of_kept {s t u : State} {c v : Nat} (h : s.PaceTaken t c v) (k : t.PaceKept u c) : s.PaceTaken u c v := by
  have hfld (hi lo : Nat) : u.fld (Reg.ADM_FLOOR + c) hi lo = t.fld (Reg.ADM_FLOOR + c) hi lo := by
    unfold State.fld
    rw [k.reg]
  exact ⟨k.readings.trans h.readings, (hfld _ _).trans h.pace, by rw [hfld, k.below, h.below]⟩

theorem State.PaceKept.taken {s t u : State} {c v : Nat} (h : s.PaceKept t c) (k : t.PaceTaken u c v) : s.PaceTaken u c v := by
  have hpaced : t.paced c v = s.paced c v := by
    unfold State.paced
    rw [h.readings]
  exact ⟨k.readings.trans hpaced, hpaced ▸ k.pace, k.below⟩

/-- A cluster's readings with one more, and the pace they give. -/
def State.paceRead (s : State) (c v : Nat) : State :=
  ({ s with sage := { s.sage with readings := SMap.put s.sage.readings c (s.paced c v) } } : State).setFld (Reg.ADM_FLOOR + c) 15 0
    ((s.paced c v).foldl min v)

/-- The plan's pace of a cluster after a reading. -/
def State.newPace (s : State) (c v : Nat) : Nat := (s.paceRead c v).planPace c (s.paceRead c v).round

/-- The pace and the plan's pace of a reading shown. -/
def State.paceShown (s : State) (c v : Nat) : State := (s.paceRead c v).setFld (Reg.ADM_FLOOR + c) 31 16 (s.newPace c v)

theorem State.newPace_le (s : State) (c v : Nat) : s.newPace c v ≤ 800 := Nat.min_le_left ..

/-- The clusters below their floors with one of them looked at again. -/
def floorLooked (below : List Nat) (c p : Nat) : List Nat :=
  if p < 800 ∧ !below.contains c then c :: below else if 800 ≤ p ∧ below.contains c then below.filter (· ≠ c) else below

theorem mem_floorLooked_self (below : List Nat) (c p : Nat) : c ∈ floorLooked below c p ↔ p < 800 := by
  unfold floorLooked
  by_cases hp : p < 800
  · by_cases hc : c ∈ below
    · simp [hp, hc, Nat.not_le.2 hp]
    · simp [hp, hc]
  · by_cases hc : c ∈ below
    · simp [hp, hc, Nat.not_lt.1 hp]
    · simp [hp, hc]

theorem mem_floorLooked_ne {c d : Nat} (h : d ≠ c) (below : List Nat) (p : Nat) : d ∈ floorLooked below c p ↔ d ∈ below := by
  unfold floorLooked
  split
  · simp [h]
  · split
    · simp [h]
    · rfl

/-- Another list of clusters below their floors. -/
def State.withBelow (s : State) (below : List Nat) : State := { s with sage := { s.sage with belowFloor := below } }

theorem State.reg_withBelow (s : State) (below : List Nat) (a : Nat) : (s.withBelow below).reg a = s.reg a := rfl

/-- A reading changes what it shows and the list of clusters below their floors, and records what changed there. -/
theorem readPace_changes (s : State) (c v : Nat) : (∀ a ∉ eventRegs, (readPace s c v).reg a = (s.paceShown c v).reg a) ∧
    (readPace s c v).sage = ((s.paceShown c v).withBelow (floorLooked s.sage.belowFloor c (s.newPace c v))).sage := by
  have hread : readPace s c v =
      if s.newPace c v < 800 ∧ !s.sage.belowFloor.contains c then
        recordEvent ((s.paceShown c v).withBelow (c :: s.sage.belowFloor)) 0x0604 0 c (s.newPace c v) 1
      else if 800 ≤ s.newPace c v ∧ s.sage.belowFloor.contains c then
        recordEvent ((s.paceShown c v).withBelow (s.sage.belowFloor.filter (· ≠ c))) 0x0604 0 c (s.newPace c v) 0
      else s.paceShown c v := rfl
  have hrec (below : List Nat) (p on : Nat) :
      (∀ a ∉ eventRegs, (recordEvent ((s.paceShown c v).withBelow below) 0x0604 0 c p on).reg a = (s.paceShown c v).reg a) ∧
        (recordEvent ((s.paceShown c v).withBelow below) 0x0604 0 c p on).sage = ((s.paceShown c v).withBelow below).sage :=
    ⟨fun a ha => by rw [recordEvent_reg _ _ _ _ _ _ ha, State.reg_withBelow], recordEvent_sage ..⟩
  rw [hread]
  unfold floorLooked
  split
  · exact hrec ..
  · split
    · exact hrec ..
    · exact ⟨fun _ _ => rfl, rfl⟩

/-- The registers of the 144 clusters' paces are none that an event writes. -/
theorem floor_notMem_eventRegs {c : Nat} (h : c < 144) : Reg.ADM_FLOOR + c ∉ eventRegs := by
  unfold eventRegs Reg.ADM_FLOOR Reg.EVT_LOST Reg.BST_ERR_OVERFLOWS Reg.BST_ERR_STATUS
  simp only [List.mem_cons, List.not_mem_nil, or_false, not_or]
  omega

theorem readPace_taken (s : State) {c : Nat} (v : Nat) (h : c < 144) : s.PaceTaken (readPace s c v) c v := by
  obtain ⟨hreg, hsage⟩ := readPace_changes s c v
  have hfld (hi lo : Nat) : (readPace s c v).fld (Reg.ADM_FLOOR + c) hi lo = (s.paceShown c v).fld (Reg.ADM_FLOOR + c) hi lo := by
    unfold State.fld
    rw [hreg _ (floor_notMem_eventRegs h)]
  have hplan : (s.paceShown c v).fld (Reg.ADM_FLOOR + c) 31 16 = s.newPace c v :=
    (State.fld_setFld_same _ _ _ (by decide) (by decide)).trans (Nat.mod_eq_of_lt (by have := s.newPace_le c v; omega))
  refine ⟨?_, ?_, ?_⟩
  · rw [hsage]
    exact SMap.getD_put_same ..
  · rw [hfld]
    exact (State.fld_setFld_disjoint _ _ _ (by decide) (by decide) (by decide)).trans
      (State.fld_setFld_same _ _ _ (by decide) (by decide))
  · rw [hfld, hplan, hsage]
    exact mem_floorLooked_self ..

theorem readPace_reg (s : State) (c v : Nat) {a : Nat} (ha : a ≠ Reg.ADM_FLOOR + c) (hev : a ∉ eventRegs) :
    (readPace s c v).reg a = s.reg a := by
  rw [(readPace_changes s c v).1 a hev]
  exact (State.reg_setFld_ne _ _ _ _ ha).trans (State.reg_setFld_ne _ _ _ _ ha)

theorem readPace_others (s : State) {c d : Nat} (v : Nat) (h : d ≠ c) (hd : d < 144) : s.PaceKept (readPace s c v) d := by
  refine ⟨?_, readPace_reg s c v (by omega) (floor_notMem_eventRegs hd), ?_⟩
  · rw [(readPace_changes s c v).2]
    show SMap.getD (SMap.put s.sage.readings c _) d [] = _
    unfold SMap.getD
    rw [SMap.get?_put, if_neg h]
  · rw [(readPace_changes s c v).2]
    exact mem_floorLooked_ne h ..

/-- The readings of the clusters from `k` on are taken one after another. -/
def readPaces (s : State) (vs : List Nat) (k : Nat) : State := (vs.zipIdx k).foldl (fun s x => readPace s x.2 (x.1 % 65536)) s

theorem readPaces_cons (s : State) (v : Nat) (vs : List Nat) (k : Nat) :
    readPaces s (v :: vs) k = readPaces (readPace s k (v % 65536)) vs (k + 1) := rfl

theorem readPaces_others (s : State) (vs : List Nat) {k d : Nat} (h : d < k) (hd : d < 144) : s.PaceKept (readPaces s vs k) d := by
  induction vs generalizing s k with
  | nil => exact ⟨rfl, rfl, .rfl⟩
  | cons v vs ih => exact (readPace_others s _ (by omega) hd).trans (ih _ (by omega))

theorem readPaces_taken (s : State) (vs : List Nat) {k c v : Nat} (hv : vs[c]? = some v) (h : k + c < 144) :
    s.PaceTaken (readPaces s vs k) (k + c) (v % 65536) := by
  induction vs generalizing s k c with
  | nil => contradiction
  | cons w vs ih =>
    rw [readPaces_cons]
    cases c with
    | zero =>
      obtain rfl : w = v := by simpa using hv
      exact (readPace_taken s _ h).of_kept (readPaces_others _ vs (by omega) h)
    | succ c =>
      have hrest := ih (readPace s k (w % 65536)) (k := k + 1) (c := c) hv (by omega)
      rw [show k + 1 + c = k + (c + 1) by omega] at hrest
      exact (readPace_others s _ (by omega) h).taken hrest

theorem readPaces_regsFrame (s : State) (vs : List Nat) {k : Nat} (h : k + vs.length ≤ 144) :
    s.RegsFrame (readPaces s vs k) ((List.range 144).map (Reg.ADM_FLOOR + ·) ++ eventRegs) := by
  induction vs generalizing s k with
  | nil => exact State.RegsFrame.refl s _
  | cons v vs ih =>
    have hk : k < 144 := by
      rw [List.length_cons] at h
      omega
    refine .trans (fun a ha => ?_) (ih _ (k := k + 1) (by rw [List.length_cons] at h; omega))
    rw [List.mem_append, not_or] at ha
    exact readPace_reg s k _ (fun e => ha.1 (List.mem_map.2 ⟨k, List.mem_range.2 hk, e.symm⟩)) ha.2

theorem execPaceMonitorRead_eq (readings : List Nat) (s : State) :
    execPaceMonitorRead readings s = .next (readPaces s (readings.take 144) 0) := rfl

end Sys2Proof.Machine

namespace Sys2Proof.Machine

/-! ## A boundary between rounds at which nothing waits (10 R291)

The work of such a boundary counts, records and clears. `State.Calm` says what all of it keeps. -/

/-- A tile that has nothing to repair and nothing to restore. -/
structure Tile.Idle (t : Tile) : Prop where
  bonds : t.bondSuspect = []
  spares : t.pendingSpares = []
  marks : t.kvMarks = []

/-- A register of the round: its length or a word of its number. -/
def RoundReg (a : Nat) : Prop := a = Reg.ADM_ROUND_LEN ∨ a = Reg.ADM_ROUND_LO ∨ a = Reg.ADM_ROUND_HI

theorem not_roundReg {a : Nat} (h : a ≤ Reg.ADM_STATUS ∨ Reg.ADM_ROUND_HI < a) : ¬ RoundReg a := by
  unfold RoundReg
  unfold Reg.ADM_STATUS Reg.ADM_ROUND_HI at *
  unfold Reg.ADM_ROUND_LEN Reg.ADM_ROUND_LO
  omega

theorem not_roundReg_tileReg (ti off : Nat) : ¬ RoundReg (tileReg ti off) :=
  not_roundReg (.inr (by unfold tileReg tilePages Reg.ADM_ROUND_HI; omega))

theorem RoundReg.not_event {a : Nat} (h : RoundReg a) : a ∉ eventRegs := by
  unfold RoundReg Reg.ADM_ROUND_LEN Reg.ADM_ROUND_LO Reg.ADM_ROUND_HI at h
  unfold eventRegs Reg.EVT_LOST Reg.BST_ERR_OVERFLOWS Reg.BST_ERR_STATUS
  simp only [List.mem_cons, List.not_mem_nil, or_false, not_or]
  omega

/-- A state of the boundary's work, which began in `o`: time, the registers of the round and the tiles are as they were, and no work waits. -/
structure State.Calm (o s : State) : Prop where
  now : s.now = o.now
  tb : s.tb = o.tb
  regs : ∀ a, RoundReg a → s.reg a = o.reg a
  keys : o.tiles.map Prod.fst ⊆ s.tiles.map Prod.fst
  idle : ∀ e ∈ s.tiles, e.2.Idle
  batches : s.sage.batches = []
  sessions : s.client.sessions = []
  loads : s.client.loads = []
  due : s.plan.due = false
  job : s.bist.job = none
  layers : s.sup.layersDue = []
  slices : s.sup.slicesDue = []

/-- Recording an event leaves the repairs that wait for a boundary. -/
theorem recordEvent_repairs (s : State) (code source p0 p1 p2 : Nat) :
    (recordEvent s code source p0 p1 p2).sup.layersDue = s.sup.layersDue ∧ (recordEvent s code source p0 p1 p2).sup.slicesDue = s.sup.slicesDue := by
  unfold recordEvent
  extract_lets st seq s1 s2 sev hs y sup half st2 s3 s4
  clear_value st seq sev hs y half st2
  have h2 : s2.sup = s.sup := by
    unfold s2
    split
    · rfl
    · rfl
  have h4 : s4.sup.layersDue = s.sup.layersDue ∧ s4.sup.slicesDue = s.sup.slicesDue := by
    unfold s4 s3 sup
    rw [← h2]
    split
    · exact ⟨rfl, rfl⟩
    · exact ⟨rfl, rfl⟩
  have hsup : sup = s.sup := h2
  clear_value s2 s4 sup
  subst hsup
  split
  · rw [h2]
    exact ⟨rfl, rfl⟩
  · split
    · exact ⟨rfl, rfl⟩
    · split
      · exact ⟨rfl, rfl⟩
      · rwa [State.setFld_sup, State.count_sup]

theorem SMap.keys_put {β : Type} (m : SMap β) (k : Nat) (v : β) : m.map Prod.fst ⊆ (SMap.put m k v).map Prod.fst := by
  induction m with
  | nil => exact List.nil_subset _
  | cons e m ih =>
    unfold SMap.put
    split
    · exact List.subset_cons_self ..
    · split
      · next h => simp [h]
      · exact List.cons_subset_cons _ ih

namespace State.Calm
variable {o s t : State} {ti : Nat}

theorem upd (h : o.Calm s) (hnow : t.now = s.now := by rfl) (htb : t.tb = s.tb := by rfl) (hregs : t.regs = s.regs := by rfl)
    (htiles : t.tiles = s.tiles := by rfl) (hbatches : t.sage.batches = s.sage.batches := by rfl)
    (hsessions : t.client.sessions = s.client.sessions := by rfl) (hloads : t.client.loads = s.client.loads := by rfl)
    (hdue : t.plan.due = s.plan.due := by rfl) (hjob : t.bist.job = s.bist.job := by rfl)
    (hlayers : t.sup.layersDue = s.sup.layersDue := by rfl) (hslices : t.sup.slicesDue = s.sup.slicesDue := by rfl) : o.Calm t where
  now := hnow.trans h.now
  tb := htb.trans h.tb
  regs a ha := by
    rw [State.reg, hregs]
    exact h.regs a ha
  keys := htiles ▸ h.keys
  idle := htiles ▸ h.idle
  batches := hbatches.trans h.batches
  sessions := hsessions.trans h.sessions
  loads := hloads.trans h.loads
  due := hdue.trans h.due
  job := hjob.trans h.job
  layers := hlayers.trans h.layers
  slices := hslices.trans h.slices

theorem setReg (h : o.Calm s) {a : Nat} {v : Word} (k : ¬ RoundReg a) : o.Calm (s.setReg a v) :=
  { h with regs := fun b hb => (s.reg_setReg_ne v (fun e : b = a => k (e ▸ hb))).trans (h.regs b hb) }

theorem setFld (h : o.Calm s) {a hi lo v : Nat} (k : ¬ RoundReg a) : o.Calm (s.setFld a hi lo v) := h.setReg k

theorem setTileReg (h : o.Calm s) {off : Nat} {v : Word} : o.Calm (s.setReg (tileReg ti off) v) := h.setReg (not_roundReg_tileReg ti off)

theorem setTileFld (h : o.Calm s) {off hi lo v : Nat} : o.Calm (s.setFld (tileReg ti off) hi lo v) := h.setTileReg

theorem setTilState (h : o.Calm s) {st : Nat} : o.Calm (s.setTilState ti st) := h.setTileFld

theorem resetRegs (h : o.Calm s) {l : List Nat} (k : ∀ a ∈ l, ¬ RoundReg a) : o.Calm (s.resetRegs l) where
  __ := h
  regs a ha := by
    rw [State.reg_resetRegs, if_neg (fun hl => k a hl ha)]
    exact h.regs a ha

theorem tile (h : o.Calm s) (ti : Nat) : (s.tile ti).Idle := by
  obtain hinit | hmem := SMap.getD_mem (m := s.tiles) (k := ti) (d := Tile.init)
  · unfold State.tile
    rw [hinit]
    exact ⟨rfl, rfl, rfl⟩
  · exact h.idle _ hmem

theorem setTile (h : o.Calm s) {x : Tile} (k : x.Idle) : o.Calm (s.setTile ti x) where
  __ := h
  keys := List.Subset.trans h.keys (SMap.keys_put ..)
  idle e he := by
    obtain rfl | he := SMap.mem_put he
    · exact k
    · exact h.idle e he

theorem modTile (h : o.Calm s) {f : Tile → Tile} (k : ∀ x : Tile, x.Idle → (f x).Idle := by exact fun _ hx => ⟨hx.1, hx.2, hx.3⟩) :
    o.Calm (s.modTile ti f) := h.setTile (k _ (h.tile ti))

theorem recordEvent (h : o.Calm s) (code source p0 p1 p2 : Nat) : o.Calm (recordEvent s code source p0 p1 p2) where
  now := (recordEvent_now ..).trans h.now
  tb := (recordEvent_tb ..).trans h.tb
  regs a ha := (recordEvent_reg _ _ _ _ _ _ ha.not_event).trans (h.regs a ha)
  keys := by
    rw [recordEvent_tiles]
    exact h.keys
  idle := by
    rw [recordEvent_tiles]
    exact h.idle
  batches := by rw [recordEvent_sage, h.batches]
  sessions := by rw [recordEvent_client, h.sessions]
  loads := by rw [recordEvent_client, h.loads]
  due := by rw [recordEvent_plan, h.due]
  job := by rw [recordEvent_bist, h.job]
  layers := (recordEvent_repairs ..).1.trans h.layers
  slices := (recordEvent_repairs ..).2.trans h.slices

theorem ite {c : Prop} [Decidable c] (h : o.Calm s) (k : o.Calm t) : o.Calm (if c then s else t) := by
  split
  · exact h
  · exact k

theorem foldl {α : Type} {g : State → α → State} {l : List α} (h : o.Calm s) (k : ∀ x, o.Calm x → ∀ a ∈ l, o.Calm (g x a)) :
    o.Calm (l.foldl g s) := List.foldlRecOn l g h k

theorem mails (h : o.Calm s) (k : s.Mails t) : o.Calm t := by
  rw [k]
  exact h.upd

end State.Calm

end Sys2Proof.Machine

namespace Sys2Proof.Machine

/-! ## The work at a boundary at which nothing waits -/

section
variable {o s : State}

theorem abandonTile_calm (h : o.Calm s) (ti : Nat) : o.Calm (abandonTile s ti) := by
  unfold abandonTile
  extract_lets s1 s2
  have h1 : o.Calm s1 := h.modTile
  have h2 : o.Calm s2 := h1.upd
  exact h2.modTile.setTileFld.setTileReg

theorem dropMarks_idle {ti : Nat} (h : (s.tile ti).Idle) : dropMarks s ti = s.modTile ti (fun t => { t with
    kvMarks := t.kvMarks.filter (fun m => (s.sage.batches.map Batch.carried).contains m.slot) }) := by
  unfold dropMarks
  rw [h.marks]
  rfl

theorem dropMarks_calm (h : o.Calm s) (ti : Nat) : o.Calm (dropMarks s ti) := by
  rw [dropMarks_idle (h.tile ti)]
  exact h.modTile fun x hx => ⟨hx.bonds, hx.spares, by
    show List.filter _ x.kvMarks = []
    rw [hx.marks]
    rfl⟩

/-! ### The round that ends -/

/-- The work of the round that ends in one tile. -/
def State.tileEnded (s : State) (ti : Nat) : State := if s.inReset (halfOf ti) then s else dropMarks (abandonTile s ti) ti

/-- The tiles once the round has ended. -/
def State.tilesEnded (s : State) : State := (s.tiles.map (·.1)).foldl State.tileEnded s

/-- A round that ends with no batch step. -/
def State.roundEnded (s : State) : State := { s.tilesEnded with
  mesh := s.tilesEnded.mesh.filter (fun p => !(decide (p.ptype = .memWrite) && decide (p.srcKind = 0)))
  sage := { s.tilesEnded.sage with reports := [], faults := [], segments := [] } }

theorem endRound_of_none (h : s.sage.batches = []) : endRound s = s.roundEnded := by
  have hcommit : commitAtEnd s = s := by
    unfold commitAtEnd
    rw [h]
    rfl
  unfold endRound
  rw [hcommit]
  dsimp only
  rw [h]
  rfl

/-- Between two states nothing changed of what else may wait for a boundary. -/
structure State.Waits (s t : State) : Prop where
  shadow : t.shadow = s.shadow := by rfl
  tb : t.tb = s.tb := by rfl
  link : t.link = s.link := by rfl
  ctl : t.ctl = s.ctl := by rfl
  sup : t.sup = s.sup := by rfl

theorem State.Waits.trans {s t u : State} (h : s.Waits t) (k : t.Waits u) : s.Waits u where
  shadow := k.shadow.trans h.shadow
  tb := k.tb.trans h.tb
  link := k.link.trans h.link
  ctl := k.ctl.trans h.ctl
  sup := k.sup.trans h.sup

theorem State.Waits.modTile {s t : State} (h : s.Waits t) {ti : Nat} {f : Tile → Tile} : s.Waits (t.modTile ti f) := h.trans ⟨rfl, rfl, rfl, rfl, rfl⟩

theorem State.Waits.setReg {s t : State} (h : s.Waits t) {a : Nat} {v : Word} : s.Waits (t.setReg a v) := h.trans ⟨rfl, rfl, rfl, rfl, rfl⟩

theorem abandonTile_waits (s : State) (ti : Nat) : s.Waits (abandonTile s ti) := by
  unfold abandonTile clearHeld
  extract_lets s1 s2
  have h1 : s.Waits s1 := .modTile {}
  have h2 : s.Waits s2 := h1.trans {}
  exact h2.modTile.setReg.setReg

theorem tileEnded_waits (h : o.Calm s) (k : o.Waits s) (ti : Nat) : o.Calm (s.tileEnded ti) ∧ o.Waits (s.tileEnded ti) := by
  unfold State.tileEnded
  split
  · exact ⟨h, k⟩
  · refine ⟨dropMarks_calm (abandonTile_calm h ti) ti, ?_⟩
    rw [dropMarks_idle ((abandonTile_calm h ti).tile ti)]
    exact (k.trans (abandonTile_waits s ti)).modTile

theorem tilesEnded_waits (h : s.Calm s) : s.Calm s.tilesEnded ∧ s.Waits s.tilesEnded :=
  List.foldlRecOn _ State.tileEnded (motive := fun t => s.Calm t ∧ s.Waits t) ⟨h, {}⟩ fun _ ht ti _ => tileEnded_waits ht.1 ht.2 ti

theorem roundEnded_calm (h : s.Calm s) : s.Calm s.roundEnded := (tilesEnded_waits h).1.upd

/-! ### What the boundary finds nothing of -/

theorem applyLive_nil (h : s.shadow = []) : applyLive s = s := by
  unfold applyLive
  simp only [h, List.length_nil, ↓reduceIte, List.foldl_nil]
  rw [← h]

theorem applyTime_none (h : s.tb.pending = none) : applyTime s = s := by
  unfold applyTime
  rw [h]

theorem rejoinAtBoundary_none (h : s.link.rejoin = none) : rejoinAtBoundary s = (s, none) := by
  unfold rejoinAtBoundary
  rw [h]

theorem endReset_of_ne {h : Half} (hp : (s.halfReset h).phase ≠ 3) : endReset s h = s := if_neg hp

/-- The blocks' work between the rounds, and the round that starts. -/
def State.boundaryWork (s : State) (n : Nat) : State := settleReplace (beginRound (powerBoundary (testBoundary (healthBoundary (returnFlows s)) n)) n)

theorem State.Quiet.calm (q : s.Quiet) : s.Calm s where
  now := rfl
  tb := rfl
  regs _ _ := rfl
  keys := List.Subset.refl _
  idle e he := by
    obtain ⟨hbonds, hspares, hmarks⟩ := q.repairs.2.2 e he
    exact ⟨hbonds, hspares, hmarks⟩
  batches := q.work.1
  sessions := q.work.2.1
  loads := q.work.2.2
  due := q.plan.1
  job := q.plan.2.2
  layers := q.repairs.1
  slices := q.repairs.2.1

theorem roundBoundary_quiet (q : s.Quiet) :
    roundBoundary s = s.roundEnded.boundaryWork (s.roundEnded.calendar / s.roundEnded.roundNs) := by
  obtain ⟨hwest, heast, hoverW, hoverE⟩ := q.resets
  have hwaits : s.Waits s.roundEnded := (tilesEnded_waits q.calm).2.trans {}
  have hlive : s.roundEnded.shadow = [] := hwaits.shadow.trans q.live
  have htime : s.roundEnded.tb.pending = none := by rw [hwaits.tb, q.time]
  have hover := hwaits.sup
  have hrejoin : s.roundEnded.link.rejoin = none := by rw [hwaits.link, q.rejoin]
  have hreset (h : Half) : s.roundEnded.halfReset h = s.halfReset h := by
    unfold State.halfReset
    rw [hwaits.ctl]
  have hsettle : settleOverflow s.roundEnded = s.roundEnded :=
    settleOverflow_of_none (by rw [hover, hoverW]) (by rw [hover, hoverE])
  unfold roundBoundary
  rw [endRound_of_none q.work.1, applyLive_nil hlive, applyTime_none htime]
  dsimp only
  rw [hsettle, rejoinAtBoundary_none hrejoin]
  dsimp only
  rw [endReset_of_ne (h := .west) (by rwa [hreset]), endReset_of_ne (h := .east) (by rwa [hreset])]
  rfl

/-! ### The other blocks -/

theorem noteLate_calm (h : o.Calm s) : o.Calm (noteLate s) := by
  unfold noteLate
  exact .ite h (h.foldl fun x hx ci _ => .recordEvent (.upd hx) ..)

theorem healthBoundary_calm (h : o.Calm s) : o.Calm (healthBoundary s) := by
  unfold healthBoundary
  extract_lets s1 s2 ls ss sup s3 s4
  have h1 : o.Calm s1 := noteLate_calm h
  have h2 : o.Calm s2 := h1.foldl fun x hx e he => by
    obtain ⟨y, hy, rfl⟩ := List.mem_map.1 he
    rw [(h1.idle y hy).bonds]
    exact hx
  have hls : ls = [] := h2.layers
  have hss : ss = [] := h2.slices
  have h3 : o.Calm s3 := h2.upd (hlayers := hls.symm) (hslices := hss.symm)
  unfold s4
  rw [hls, hss]
  exact h3

theorem testBoundary_calm (h : o.Calm s) (n : Nat) : o.Calm (testBoundary s n) := by
  unfold testBoundary
  dsimp only
  rw [h.job]
  exact h.upd (hjob := h.job.symm)

theorem powerBoundary_calm (h : o.Calm s) : o.Calm (powerBoundary s) := h.upd

/-! ### The round that starts -/

theorem settleSlots_calm (h : o.Calm s) : o.Calm (settleSlots s) := by
  refine h.foldl fun x hx e he => ?_
  have hreg : ¬ RoundReg (ensReg Reg.FAB_ENS_CTRL e) := not_roundReg (.inr (by unfold ensReg Reg.FAB_ENS_CTRL Reg.ADM_ROUND_HI; omega))
  exact (State.Calm.ite ((hx.setFld hreg).recordEvent ..) hx).upd

theorem lowerCap_calm (h : o.Calm s) (x : Half) : o.Calm (lowerCap s x) := by
  have hcap (v : Rat) : o.Calm (setCap s x v) := by
    cases x with
    | west => exact (h.setFld (a := Reg.THM_CAP_NOW) (not_roundReg (.inl (by decide)))).upd
    | east => exact (h.setFld (a := Reg.THM_CAP_NOW) (not_roundReg (.inl (by decide)))).upd
  exact .ite (hcap _).upd h

theorem settleAdm_calm (h : o.Calm s) : o.Calm (settleAdm s) := .ite (h.setFld (not_roundReg (.inl (by decide)))) h

theorem resumeAdmission_calm (h : o.Calm s) : o.Calm (resumeAdmission s) :=
  .ite (settleAdm_calm ((State.Calm.upd h).setFld (not_roundReg (.inl (by decide))))) h.upd

theorem settleRequests_nil (h : s.client.sessions = []) (n : Nat) : settleRequests s n = s := by
  unfold settleRequests
  rw [h]
  rfl

theorem recheckPlan_calm (h : o.Calm s) (cause n : Nat) : o.Calm (recheckPlan s cause n) := by
  unfold recheckPlan
  rw [h.batches]
  dsimp only [List.reverse_nil, List.filter_nil, List.foldl_nil]
  rw [settleRequests_nil h.sessions]
  exact h.recordEvent ..

theorem expire_calm (h : o.Calm s) (n : Nat) : o.Calm (expire s n) :=
  h.upd (hbatches := by
    show List.filter _ s.sage.batches = _
    rw [h.batches]
    rfl)

theorem dropUnbudgeted_nil (h : s.sage.batches = []) (n : Nat) : dropUnbudgeted s n = s := by
  unfold dropUnbudgeted State.partsAt
  rw [h]
  rfl

theorem refreshPace_calm (h : o.Calm s) : o.Calm (refreshPace s) :=
  h.foldl fun x hx e _ => hx.setFld (not_roundReg (.inr (by unfold Reg.ADM_FLOOR Reg.ADM_ROUND_HI; omega)))

theorem refreshPower_calm (h : o.Calm s) (n : Nat) : o.Calm (refreshPower s n) :=
  .setReg (.setReg (.upd h) (not_roundReg (.inr (by decide)))) (not_roundReg (.inr (by decide)))

end

end Sys2Proof.Machine

namespace Sys2Proof.Machine

/-! ## What a change elsewhere leaves of a tile (10 R291) -/

/-- Between two states a tile and its token counts are as they were. -/
structure State.Passes (ti : Nat) (s t : State) : Prop where
  tile : t.tile ti = s.tile ti := by rfl
  tokens : t.reg (tileReg ti Reg.TIL_TOKENS) = s.reg (tileReg ti Reg.TIL_TOKENS) := by rfl

namespace State.Passes
variable {ti tj : Nat} {s t u : State}

theorem trans (h : s.Passes ti t) (k : t.Passes ti u) : s.Passes ti u := ⟨k.tile.trans h.tile, k.tokens.trans h.tokens⟩

theorem upd (h : s.Passes ti t) (htiles : u.tiles = t.tiles := by rfl) (hregs : u.regs = t.regs := by rfl) : s.Passes ti u :=
  h.trans ⟨by unfold State.tile; rw [htiles], by unfold State.reg; rw [hregs]⟩

theorem setReg (h : s.Passes ti t) {a : Nat} {v : Word} (k : tileReg ti Reg.TIL_TOKENS ≠ a) : s.Passes ti (t.setReg a v) :=
  h.trans ⟨rfl, State.reg_setReg_ne _ _ k⟩

/-- The registers of the module lie below the tile pages. -/
theorem setModule (h : s.Passes ti t) {a hi lo v : Nat} (k : a < tilePages) : s.Passes ti (t.setFld a hi lo v) :=
  h.setReg (by unfold tileReg; omega)

theorem setOther (h : s.Passes ti t) {off hi lo v : Nat} (k : Reg.TIL_TOKENS ≠ off := by decide) :
    s.Passes ti (t.setFld (tileReg ti off) hi lo v) := h.setReg (tileReg_inj ti k)

theorem setElsewhere (h : s.Passes ti t) (hne : ti ≠ tj) {off : Nat} {v : Word} (k : off < 0x1000 := by decide) :
    s.Passes ti (t.setReg (tileReg tj off) v) := h.setReg (by unfold tileReg Reg.TIL_TOKENS; omega)

theorem setTilState (h : s.Passes ti t) (hne : ti ≠ tj) {st : Nat} : s.Passes ti (t.setTilState tj st) := h.setElsewhere hne

theorem setTokens (h : s.Passes ti t) (hne : ti ≠ tj) {v : Nat} : s.Passes ti (t.setTokens tj v) := h.setElsewhere hne

theorem setTile (h : s.Passes ti t) (hne : ti ≠ tj) {x : Tile} : s.Passes ti (t.setTile tj x) :=
  h.trans ⟨by rw [State.tile_setTile, if_neg hne], rfl⟩

theorem modTile (h : s.Passes ti t) (hne : ti ≠ tj) {f : Tile → Tile} : s.Passes ti (t.modTile tj f) := h.setTile hne

theorem recordEvent (h : s.Passes ti t) (code source p0 p1 p2 : Nat) : s.Passes ti (recordEvent t code source p0 p1 p2) := by
  refine h.trans ⟨?_, recordEvent_reg _ _ _ _ _ _ ?_⟩
  · unfold State.tile
    rw [recordEvent_tiles]
  · exact (seqReg_tileReg ti (by decide)).not_event

theorem ite {c : Prop} [Decidable c] (h : s.Passes ti t) (k : s.Passes ti u) : s.Passes ti (if c then t else u) := by
  split
  · exact h
  · exact k

theorem foldl {α : Type} {g : State → α → State} {l : List α} (h : s.Passes ti t) (k : ∀ (x : State) a, a ∈ l → x.Passes ti (g x a)) :
    s.Passes ti (l.foldl g t) := List.foldlRecOn l g h fun x hx a ha => hx.trans (k x a ha)

end State.Passes

/-- A tile with no segment, no command counted, no HANDOVER and no token. -/
structure State.Fresh (s : State) (ti : Nat) : Prop where
  segs : (s.tile ti).segs = []
  ordinal : (s.tile ti).ordinal = 0
  handover : (s.tile ti).handover = none
  tokens : s.tokens ti = 0

theorem State.Fresh.passes {s t : State} {ti : Nat} (h : s.Fresh ti) (k : s.Passes ti t) : t.Fresh ti := by
  refine ⟨?_, ?_, ?_, ?_⟩
  · rw [k.tile, h.segs]
  · rw [k.tile, h.ordinal]
  · rw [k.tile, h.handover]
  · unfold State.tokens State.fld
    rw [k.tokens]
    exact h.tokens

/-! ## A tile enters a round -/

section
variable {o s : State} {ti tj : Nat}

theorem noteOverrun_tiles (s : State) (ti n : Nat) : (noteOverrun s ti n).tiles = s.tiles := by
  unfold noteOverrun
  refine List.foldlRecOn _ _ (motive := fun t : State => t.tiles = s.tiles) rfl fun t ht e _ => ?_
  split
  · split
    · exact ht
    · rw [recordEvent_tiles, State.setFld_tiles, ht]
  · exact ht

theorem noteOverrun_calm (h : o.Calm s) (ti n : Nat) : o.Calm (noteOverrun s ti n) := by
  refine h.foldl fun t ht e _ => ?_
  split
  · split
    · exact ht
    · exact ht.setTileFld.recordEvent ..
  · exact ht

theorem noteOverrun_passes (hne : tj ≠ ti) (s : State) (n : Nat) : s.Passes tj (noteOverrun s ti n) := by
  refine State.Passes.foldl {} fun t e _ => ?_
  split
  · split
    · exact {}
    · exact (State.Passes.setElsewhere {} hne).recordEvent ..
  · exact {}

theorem abandonTile_passes (hne : tj ≠ ti) (s : State) : s.Passes tj (abandonTile s ti) := by
  unfold abandonTile clearHeld
  extract_lets s1 s2
  have h1 : s.Passes tj s1 := .modTile {} hne
  have h2 : s.Passes tj s2 := h1.upd
  exact ((h2.modTile hne).setElsewhere hne).setElsewhere hne

theorem abandonTile_handover (s : State) (ti : Nat) : ((abandonTile s ti).tile ti).handover = none := by
  unfold abandonTile clearHeld
  extract_lets s1 s2
  have h1 : (s1.tile ti).handover = none := congrArg Tile.handover (State.tile_modTile_same ..)
  rw [State.tile_setReg, State.tile_setFld, State.tile_modTile_same]
  exact h1

/-- A tile at the start of a round: its banks, its tokens and what it counted in the last round put back. -/
def State.tileCleared (s : State) (ti : Nat) : State :=
  (((s.modTile ti (fun t => { t with pendingSpares := [] })).resetRegs ((List.range 12).map (fun b => tileReg ti (Reg.TIL_BANK_OWN + b)))).setTokens
    ti 0).modTile ti (fun t => { t with
    segs := []
    ordinal := 0
    slots := []
    recv := []
    syncs := []
    xlt := []
    dirCache := []
    starved := false
    oobEvent := false
    poisonEvent := false
    nocCrc := 0 })

/-- A tile that ran or faulted is idle again. -/
def State.tileStilled (s : State) (ti : Nat) : State :=
  if s.tilState ti = tilRunning ∨ s.tilState ti = tilFaulted then s.setTilState ti tilIdle else s

theorem enterRound_idle {n : Nat} (h : ((noteOverrun (abandonTile s ti) ti n).tile ti).pendingSpares = []) :
    enterRound s ti n = ((noteOverrun (abandonTile s ti) ti n).tileCleared ti).tileStilled ti := by
  unfold enterRound
  dsimp only
  rw [h]
  rfl

theorem State.tileCleared_calm (h : o.Calm s) (ti : Nat) : o.Calm (s.tileCleared ti) := by
  have hspare : o.Calm (s.modTile ti (fun t => { t with pendingSpares := [] })) := h.modTile fun _ hx => ⟨hx.bonds, rfl, hx.marks⟩
  refine State.Calm.modTile (State.Calm.setTileFld (hspare.resetRegs fun a ha => ?_))
  obtain ⟨b, -, rfl⟩ := List.mem_map.1 ha
  exact not_roundReg_tileReg ti _

theorem enterRound_calm (h : o.Calm s) (ti n : Nat) : o.Calm (enterRound s ti n) := by
  have hover := noteOverrun_calm (abandonTile_calm h ti) ti n
  rw [enterRound_idle (hover.tile ti).spares]
  exact .ite (State.tileCleared_calm hover ti).setTilState (State.tileCleared_calm hover ti)

theorem State.tileCleared_passes (hne : tj ≠ ti) (s : State) : s.Passes tj (s.tileCleared ti) := by
  have hspare : s.Passes tj (s.modTile ti (fun t => { t with pendingSpares := [] })) := .modTile {} hne
  have hbanks : s.Passes tj ((s.modTile ti (fun t => { t with pendingSpares := [] })).resetRegs
      ((List.range 12).map (fun b => tileReg ti (Reg.TIL_BANK_OWN + b)))) := by
    refine hspare.trans ⟨rfl, ?_⟩
    rw [State.reg_resetRegs, if_neg]
    rw [List.mem_map]
    rintro ⟨b, hb, heq⟩
    have hb := List.mem_range.1 hb
    unfold tileReg Reg.TIL_BANK_OWN Reg.TIL_TOKENS at heq
    omega
  exact (hbanks.setTokens hne).modTile hne

theorem State.tileCleared_fresh (h : (s.tile ti).handover = none) : (s.tileCleared ti).Fresh ti := by
  refine ⟨?_, ?_, ?_, ?_⟩
  · exact congrArg Tile.segs (State.tile_modTile_same ..)
  · exact congrArg Tile.ordinal (State.tile_modTile_same ..)
  · have hspare : ((s.modTile ti (fun t => { t with pendingSpares := [] })).tile ti).handover = none :=
      (congrArg Tile.handover (State.tile_modTile_same ..)).trans h
    exact (congrArg Tile.handover (State.tile_modTile_same ..)).trans hspare
  · exact State.fld_setFld_same _ _ _ (by decide) (by decide)

theorem enterRound_fresh (h : o.Calm s) (ti n : Nat) : (enterRound s ti n).Fresh ti := by
  have hover := noteOverrun_calm (abandonTile_calm h ti) ti n
  rw [enterRound_idle (hover.tile ti).spares]
  have hfresh : ((noteOverrun (abandonTile s ti) ti n).tileCleared ti).Fresh ti := by
    refine State.tileCleared_fresh ?_
    unfold State.tile
    rw [noteOverrun_tiles]
    exact abandonTile_handover s ti
  exact hfresh.passes (.ite (.setOther {}) {})

theorem enterRound_passes (h : o.Calm s) (hne : tj ≠ ti) (n : Nat) : s.Passes tj (enterRound s ti n) := by
  have hover := noteOverrun_calm (abandonTile_calm h ti) ti n
  have hcleared := ((abandonTile_passes hne s).trans (noteOverrun_passes hne _ n)).trans (State.tileCleared_passes hne _)
  rw [enterRound_idle (hover.tile ti).spares]
  exact hcleared.trans (.ite (.setTilState {} hne) {})

/-- A tile that enters the round is fresh, and one that was fresh stays so. -/
theorem enterRound_keepsFresh (h : o.Calm s) (n : Nat) (hf : tj = ti ∨ s.Fresh tj) : (enterRound s ti n).Fresh tj := by
  by_cases htj : tj = ti
  · rw [htj]
    exact enterRound_fresh h ti n
  · exact (hf.resolve_left htj).passes (enterRound_passes h htj n)

/-! ## A tile starts, and the module's replacement -/

/-- With no segment loaded a tile does not start. -/
theorem startTile_of_none (h : (s.tile ti).segs = []) : startTile s ti = s.setFld (tileReg ti Reg.TIL_STATUS) 13 8 0 := by
  unfold startTile
  dsimp only
  rw [h]
  rfl

theorem startTile_calm (h : o.Calm s) (ti : Nat) : o.Calm (startTile s ti) := by
  unfold startTile
  extract_lets t s1
  have h1 : o.Calm s1 := h.setTileFld
  split
  · exact h1
  · have hpc (pc : Nat) : ({ t with pc := pc } : Tile).Idle := ⟨(h.tile ti).bonds, (h.tile ti).spares, (h.tile ti).marks⟩
    exact .ite (h1.setTile (hpc _)).setTilState h1

theorem startTile_keepsFresh (ti : Nat) (h : s.Fresh tj) : (startTile s ti).Fresh tj := by
  by_cases htj : tj = ti
  · subst htj
    rw [startTile_of_none h.segs]
    exact h.passes (.setOther {})
  · refine h.passes ?_
    unfold startTile
    extract_lets t s1
    have h1 : s.Passes tj s1 := .setElsewhere {} htj
    split
    · exact h1
    · exact .ite ((h1.setTile htj).setTilState htj) h1

end

end Sys2Proof.Machine

namespace Sys2Proof.Machine

/-! ## The module's replacement at a boundary -/

section
variable {o s : State} {ti : Nat}

theorem State.Passes.mails {t u : State} (h : s.Passes ti t) (k : t.Mails u) : s.Passes ti u := by
  rw [k]
  exact h.upd

theorem reportPeers_calm (h : o.Calm s) (code v0 v1 : Nat) : o.Calm (reportPeers s code v0 v1) :=
  h.foldl fun _ hx _ _ => hx.mails (sendMsg_mails ..)

theorem reportPeers_passes (s : State) (code v0 v1 : Nat) : s.Passes ti (reportPeers s code v0 v1) :=
  .foldl {} fun _ _ _ => .mails {} (sendMsg_mails ..)

theorem settleCause_calm (h : o.Calm s) (bit : Nat) : o.Calm (settleCause s bit) := by
  unfold settleCause
  extract_lets c a on s1 s2
  have hset (v : Nat) : o.Calm (s.setFld a bit bit v) := h.setFld (not_roundReg (.inr (by decide)))
  have h1 : o.Calm s1 := (hset 1).recordEvent ..
  have h2 : o.Calm s2 := .ite (h1.recordEvent ..) h1
  exact .ite (reportPeers_calm h2 ..) (.ite ((hset 0).recordEvent ..) h)

theorem settleCause_passes (s : State) (bit : Nat) : s.Passes ti (settleCause s bit) := by
  unfold settleCause
  extract_lets c a on s1 s2
  have hset (v : Nat) : s.Passes ti (s.setFld a bit bit v) := .setModule {} (by decide)
  have h1 : s.Passes ti s1 := (hset 1).recordEvent ..
  have h2 : s.Passes ti s2 := .ite (h1.recordEvent ..) h1
  exact .ite (h2.trans (reportPeers_passes ..)) (.ite ((hset 0).recordEvent ..) {})

theorem settleReplace_calm (h : o.Calm s) : o.Calm (settleReplace s) := by
  have hcauses : o.Calm ((List.range 9).foldl settleCause s) := h.foldl fun _ hx bit _ => settleCause_calm hx bit
  exact (hcauses.setFld (a := Reg.BST_REPLACE_STATUS) (not_roundReg (.inr (by decide)))).setFld (a := Reg.MGT_SIGNALS)
    (not_roundReg (.inl (by decide)))

theorem settleReplace_passes (s : State) (ti : Nat) : s.Passes ti (settleReplace s) := by
  have hcauses : s.Passes ti ((List.range 9).foldl settleCause s) := .foldl {} fun x bit _ => settleCause_passes x bit
  exact (hcauses.setModule (a := Reg.BST_REPLACE_STATUS) (by decide)).setModule (a := Reg.MGT_SIGNALS) (by decide)

/-! ## The round in force and its tiles (10 R291) -/

/-- The tiles of a list enter a round. -/
def State.enterRounds (s : State) (l : List Nat) (n : Nat) : State := l.foldl (fun s ti => enterRound s ti n) s

theorem State.enterRounds_cons (s : State) (ti : Nat) (l : List Nat) (n : Nat) :
    s.enterRounds (ti :: l) n = (enterRound s ti n).enterRounds l n := by
  unfold State.enterRounds
  rw [List.foldl_cons]

theorem State.enterRounds_fresh (h : o.Calm s) (n : Nat) (l : List Nat) :
    o.Calm (s.enterRounds l n) ∧ ∀ tj, tj ∈ l ∨ s.Fresh tj → (s.enterRounds l n).Fresh tj := by
  induction l generalizing s with
  | nil => exact ⟨h, fun tj ht => ht.resolve_left List.not_mem_nil⟩
  | cons ti l ih =>
    obtain ⟨hcalm, hfresh⟩ := ih (enterRound_calm h ti n)
    rw [State.enterRounds_cons]
    refine ⟨hcalm, fun tj ht => hfresh tj ?_⟩
    rw [List.mem_cons, or_assoc] at ht
    obtain rfl | hl | hf := ht
    · exact .inr (enterRound_fresh h tj n)
    · exact .inl hl
    · exact .inr (enterRound_keepsFresh h n (.inr hf))

theorem foldl_startTile_fresh (h : o.Calm s) (l : List Nat) :
    o.Calm (l.foldl startTile s) ∧ ∀ tj, s.Fresh tj → (l.foldl startTile s).Fresh tj :=
  ⟨h.foldl fun _ hx ti _ => startTile_calm hx ti, fun tj hf =>
    List.foldlRecOn l startTile (motive := fun x => x.Fresh tj) hf fun _ hx ti _ => startTile_keepsFresh ti hx⟩

/-- The round in force is another one; nothing else is. -/
theorem State.Calm.setRound (h : o.Calm s) (n : Nat) : (s.setReg64 Reg.ADM_ROUND_LO n).Calm (s.setReg64 Reg.ADM_ROUND_LO n) :=
  { h with now := rfl, tb := rfl, regs := fun _ _ => rfl, keys := List.Subset.refl _ }

theorem notePlanMin_calm (h : o.Calm s) (n : Nat) : o.Calm (notePlanMin s n) := by
  unfold notePlanMin
  extract_lets need l
  clear_value l
  exact h.upd

/-- The plan is checked again where that is due. -/
theorem recheckDue_calm (h : o.Calm s) (n : Nat) :
    o.Calm (if s.sage.recheck then recheckPlan { s with sage := { s.sage with recheck := false } } 1 n else s) := by
  have hnoted : o.Calm { s with sage := { s.sage with recheck := false } } := h.upd
  split
  · exact recheckPlan_calm hnoted 1 n
  · exact h

theorem beginRound_fresh (h : o.Calm s) (n : Nat) : (s.setReg64 Reg.ADM_ROUND_LO n).Calm (beginRound s n) ∧
    ∀ ti ∈ o.tiles.map Prod.fst, (beginRound s n).Fresh ti := by
  have h0 := h.setRound n
  have hkeys : o.tiles.map Prod.fst ⊆ (s.setReg64 Reg.ADM_ROUND_LO n).tiles.map Prod.fst := h.keys
  unfold beginRound
  generalize s.setReg64 Reg.ADM_ROUND_LO n = s0 at h0 hkeys ⊢
  extract_lets began f freed sage fab s1 s2 s3 s4 s5 sage' s6 s7 s8 s9 run ends s10
  have h1 : s0.Calm s1 := h0.upd
  clear_value s1
  have h2 : s0.Calm s2 := settleSlots_calm h1
  clear_value s2
  have h3 : s0.Calm s3 := by
    unfold s3
    rw [h2.loads]
    exact h2
  clear_value s3
  have h4 : s0.Calm s4 := by
    unfold s4
    rw [h3.due]
    exact h3
  clear_value s4
  have h5 : s0.Calm s5 := notePlanMin_calm (resumeAdmission_calm (lowerCap_calm (lowerCap_calm h4 .west) .east)) n
  have h6 : s0.Calm s6 := recheckDue_calm h5 n
  clear_value s6
  have h7 : s0.Calm s7 := by
    unfold s7
    rw [dropUnbudgeted_nil (expire_calm h6 n).batches, settleRequests_nil (expire_calm h6 n).sessions]
    exact expire_calm h6 n
  clear_value s7
  have h8 : s0.Calm s8 := refreshPower_calm (refreshPace_calm h7) n
  clear_value s8
  obtain ⟨h9, hentered⟩ : s0.Calm s9 ∧ ∀ tj, tj ∈ s8.tiles.map Prod.fst ∨ s8.Fresh tj → s9.Fresh tj :=
    State.enterRounds_fresh h8 n (s8.tiles.map Prod.fst)
  clear_value s9
  have hrun : run = [] := by
    unfold run
    rw [h9.batches]
    rfl
  have h10 : s10 = s9 := by
    unfold s10
    rw [hrun]
    exact ite_self _
  rw [h10]
  obtain ⟨hstarted, hstays⟩ := foldl_startTile_fresh h9 (s9.tiles.map (·.1))
  refine ⟨hstarted, fun ti hti => hstays ti (hentered ti (.inl (h8.keys (hkeys hti))))⟩

theorem State.Calm.calendar {o t : State} (h : o.Calm t) : t.calendar = o.calendar := by
  unfold State.calendar
  rw [h.now, h.tb]

theorem State.Calm.round {o t : State} (h : o.Calm t) : t.round = o.round :=
  State.reg64_congr (h.regs _ (.inr (.inl rfl))) (h.regs _ (.inr (.inr rfl)))

theorem State.Calm.roundNs {o t : State} (h : o.Calm t) : t.roundNs = o.roundNs := by
  unfold State.roundNs State.fld
  rw [h.regs _ (.inl rfl)]

/-- The blocks' work and the start of a round take no time, and every tile enters the round. -/
theorem State.boundaryWork_starts (h : o.Calm s) (n : Nat) : (s.boundaryWork n).calendar = o.calendar ∧ (s.boundaryWork n).round = n % 2 ^ 64 ∧
    ∀ ti ∈ o.tiles.map Prod.fst, (s.boundaryWork n).Fresh ti := by
  have hblocks : o.Calm (powerBoundary (testBoundary (healthBoundary (returnFlows s)) n)) :=
    powerBoundary_calm (testBoundary_calm (healthBoundary_calm h.upd) n)
  unfold State.boundaryWork
  generalize powerBoundary (testBoundary (healthBoundary (returnFlows s)) n) = u at hblocks
  obtain ⟨hbegun, hfresh⟩ := beginRound_fresh hblocks n
  have hdone := settleReplace_calm hbegun
  refine ⟨hdone.calendar.trans hblocks.calendar, hdone.round.trans (u.reg64_setReg64 _ n), fun ti hti => ?_⟩
  exact (hfresh ti hti).passes (settleReplace_passes _ ti)

/-- A boundary at which nothing waits starts the round that the calendar says. -/
theorem roundBoundary_starts (q : s.Quiet) : (roundBoundary s).calendar = s.calendar ∧
    (roundBoundary s).round = s.calendar / s.roundNs % 2 ^ 64 ∧ ∀ ti ∈ s.tiles.map Prod.fst, (roundBoundary s).Fresh ti := by
  have hended := roundEnded_calm q.calm
  rw [roundBoundary_quiet q, hended.calendar, hended.roundNs]
  exact State.boundaryWork_starts hended _

end

/-! ## The rounds -/

/-- The clock at the next boundary. -/
def State.atBoundary (s : State) : State := { s with now := s.now + ((s.calendar / s.roundNs + 1) * s.roundNs - s.calendar) }

theorem State.Quiet.atBoundary {s : State} (q : s.Quiet) : s.atBoundary.Quiet :=
  ⟨q.live, q.time, q.resets, q.rejoin, q.plan, q.work, q.repairs⟩

theorem State.calendar_atBoundary {s : State} (hlen : 0 < s.roundNs) (h : 0 ≤ (s.now : Int) + s.tb.offset) :
    s.atBoundary.calendar = (s.calendar / s.roundNs + 1) * s.roundNs := by
  have hlt : s.calendar < (s.calendar / s.roundNs + 1) * s.roundNs := by
    rw [Nat.mul_comm]
    exact Nat.lt_mul_div_succ _ hlen
  rw [State.calendar_later h (u := s.atBoundary) rfl rfl]
  omega

theorem execRoundBoundary_eq (s : State) : execRoundBoundary s =
    if s.roundsRun then .next (roundBoundary s.atBoundary) else .next s.atBoundary := rfl

theorem execBatchStepCommit_commits {s : State} {batch : Nat} {b : Batch}
    (hb : s.sage.batches.find? (fun b => decide (b.id = batch)) = some b) (hdrop : b.dropped = none) (hopen : b.committed = false)
    (hcomplete : b.complete (s.nparts b.model b.kind) = true) (hlead : b.leader = none) (hens : b.ens = none) :
    execBatchStepCommit batch s = .next (commitBatch s b) := by
  unfold execBatchStepCommit
  rw [hb]
  dsimp only
  rw [if_neg (by simp [hdrop, hopen, hcomplete]), hlead]
  dsimp only
  rw [if_neg (by simp [hens])]

/-- Settles O45: the freeze takes every crowded step out, a quiet boundary's work keeps `State.Calm`, and a commit and a reading do what they
say. -/
theorem roundsProceed : Obligations.RoundsProceed := by
  unfold Obligations.RoundsProceed
  refine ⟨?freezes, ?stands, ?starts, ?commits, ?paces⟩
  case freezes =>
    intro s htime hearly
    have hlater : (s.frozenAt (s.calendar / s.roundNs + 1)).calendar =
        s.calendar + ((s.calendar / s.roundNs + 1) * s.roundNs - 30000 - s.calendar) := State.calendar_later htime rfl rfl
    refine ⟨_, execPlanFreeze_eq s, ?_, ?_, fun b hb hround hpart hopen m hm x hx hid => foldl_crowded_room hb hround hpart hopen hm hx hid⟩
    · rw [foldl_returnStep_frame]
      rfl
    · have hcal : ((s.crowded (s.calendar / s.roundNs + 1)).foldl State.returnStep (s.frozenAt (s.calendar / s.roundNs + 1))).calendar =
          (s.frozenAt (s.calendar / s.roundNs + 1)).calendar := by
        rw [foldl_returnStep_frame]
        rfl
      rw [hcal, hlater]
      omega
  case stands =>
    intro s hrun
    refine (execRoundBoundary_eq s).trans ?_
    rw [hrun]
    rfl
  case starts =>
    intro s hrun q hlen htime hbound
    obtain ⟨hcal, hround, hfresh⟩ := roundBoundary_starts q.atBoundary
    rw [State.calendar_atBoundary hlen htime] at hcal hround
    refine ⟨_, (execRoundBoundary_eq s).trans (if_pos hrun), hcal, ?_, fun e he => ?_⟩
    · have hn : s.calendar / s.roundNs + 1 < 2 ^ 64 := lt_of_le_of_lt (Nat.le_mul_of_pos_right _ hlen) hbound
      rw [hround, show s.atBoundary.roundNs = s.roundNs from rfl, Nat.mul_div_cancel _ hlen, Nat.mod_eq_of_lt hn]
    · have hf := hfresh e.1 (List.mem_map_of_mem he)
      exact ⟨hf.segs, hf.ordinal, hf.handover, hf.tokens⟩
  case commits =>
    intro s batch b hb hdrop hopen hcomplete hlead hens
    obtain rfl : b.id = batch := of_decide_eq_true (List.find?_some hb :)
    exact ⟨_, execBatchStepCommit_commits hb hdrop hopen hcomplete hlead hens, commitBatch_committed s b,
      fun m x q st hm hx hq hid hst => commitBatch_session hm hx hq hid hst⟩
  case paces =>
    intro s readings
    have hlen : (readings.take 144).length ≤ 144 := by
      rw [List.length_take]
      exact Nat.min_le_left ..
    refine ⟨_, execPaceMonitorRead_eq readings s, fun c hc v hv => ?_, readPaces_regsFrame s _ (by omega)⟩
    have hread : (readings.take 144)[c]? = some v := by rw [List.getElem?_take_of_lt hc, hv]
    have htaken := readPaces_taken s (readings.take 144) (k := 0) hread (by omega)
    rw [Nat.zero_add] at htaken
    exact ⟨htaken.readings, htaken.pace, htaken.below⟩

end Sys2Proof.Machine

namespace Sys2Proof.Machine

/-! ## Client ports (11 R322, R323, R353) -/

theorem State.setFld_regsOnly (s : State) (a hi lo v : Nat) : s.RegsOnly (s.setFld a hi lo v) [a] :=
  s.setReg_regsOnly (List.mem_singleton_self a)

theorem State.RegsOnly.mono {s t : State} {l m : List Nat} (h : s.RegsOnly t l) (k : l ⊆ m) : s.RegsOnly t m := ⟨h.1.mono k, h.2⟩

/-- An event recorded after an update that touches neither the recorder, nor the pending list, nor the time. -/
theorem recordEvent_recordsFor {s t : State} {code source p0 p1 p2 : Nat} (hevt : t.evt = s.evt := by rfl) (hsup : t.sup = s.sup := by rfl)
    (hnow : t.now = s.now := by rfl) (htb : t.tb = s.tb := by rfl) :
    s.Records (recordEvent t code source p0 p1 p2) (s.record code source p0 p1 p2) := by
  have h := recordEvent_records t code source p0 p1 p2
  unfold State.Records State.Room State.record State.calendar at *
  rwa [hevt, hsup, hnow, htb] at h

/-- Recording an event leaves a count that it does not make itself. -/
theorem State.Counted.afterEvent {s t : State} {a n : Nat} (h : s.Counted t a n) (ha : a ∉ eventRegs) (code source p0 p1 p2 : Nat) :
    s.Counted (Machine.recordEvent t code source p0 p1 p2) a n := by
  unfold State.Counted at *
  rwa [recordEvent_reg _ _ _ _ _ _ ha]

/-- The registers of the client ports are none that an event writes. -/
theorem netReg_notMem_eventRegs {a : Nat} (h : 0x90000 ≤ a ∧ a < 0xA0000) : a ∉ eventRegs := by
  simp only [eventRegs, Reg.EVT_LOST, Reg.BST_ERR_OVERFLOWS, Reg.BST_ERR_STATUS, List.mem_cons, List.not_mem_nil, or_false, not_or]
  omega

theorem portStatus_notMem_eventRegs {port : Nat} (h : port < 4) : Reg.NET_PORT_STATUS + port ∉ eventRegs :=
  netReg_notMem_eventRegs (by unfold Reg.NET_PORT_STATUS; omega)

theorem fecUncorr_notMem_eventRegs {port : Nat} (h : port < 4) : Reg.NET_FEC_UNCORR + port ∉ eventRegs :=
  netReg_notMem_eventRegs (by unfold Reg.NET_FEC_UNCORR; omega)

theorem fecUncorr_ne_portStatus (port : Nat) : Reg.NET_FEC_UNCORR + port ≠ Reg.NET_PORT_STATUS + port := by
  simp [Reg.NET_FEC_UNCORR, Reg.NET_PORT_STATUS]

section
variable (s : State) (port : Nat)

/-- A port that has seen a signal: it negotiates. -/
def State.negotiating : State := s.setFld (Reg.NET_PORT_STATUS + port) 2 0 1

/-- A port whose training has started once more. -/
def State.training : State :=
  { s.setFld (Reg.NET_PORT_STATUS + port) 2 0 2 with
    client := { s.client with attempts := SMap.put s.client.attempts port (SMap.getD s.client.attempts port 0 + 1) } }

/-- A port that has come up, before its event is recorded. -/
def State.portTrained (phy : Nat) : State :=
  { (s.setFld (Reg.NET_PORT_STATUS + port) 2 0 3).setFld (Reg.NET_PORT_STATUS + port) 5 4 phy with
    client := { s.client with attempts := SMap.put s.client.attempts port 0 } }

/-- A port that has gone down, before its event is recorded: a FEC error is counted (11 R353). -/
def State.portLost (cause : Nat) : State :=
  ((if cause = 1 then s.count (Reg.NET_FEC_UNCORR + port) 1 else s).setFld (Reg.NET_PORT_STATUS + port) 2 0 (if cause = 2 then 4 else 0)).setFld
    (Reg.NET_PORT_STATUS + port) 5 4 0

theorem State.portTrained_state (phy : Nat) : (s.portTrained port phy).fld (Reg.NET_PORT_STATUS + port) 2 0 = 3 :=
  (State.fld_setFld_disjoint _ _ _ (by decide) (by decide) (.inl (by decide))).trans (s.fld_setFld_same _ 3 (by decide) (by decide))

theorem State.portTrained_phy (phy : Nat) : (s.portTrained port phy).fld (Reg.NET_PORT_STATUS + port) 5 4 = phy % 4 :=
  State.fld_setFld_same _ _ phy (by decide) (by decide)

theorem State.portTrained_frame (phy : Nat) : s.RegsFrame (s.portTrained port phy) [Reg.NET_PORT_STATUS + port] :=
  (s.setFld_regsOnly _ 2 0 3).1.trans (State.setFld_regsOnly _ _ 5 4 phy).1

theorem State.portLost_state (cause : Nat) :
    (s.portLost port cause).fld (Reg.NET_PORT_STATUS + port) 2 0 = if cause = 2 then 4 else 0 := by
  unfold State.portLost
  rw [State.fld_setFld_disjoint _ _ _ (by decide) (by decide) (.inl (by decide)), State.fld_setFld_same _ _ _ (by decide) (by decide)]
  split <;> rfl

theorem State.portLost_counted : s.Counted (s.portLost port 1) (Reg.NET_FEC_UNCORR + port) 1 := by
  unfold State.Counted State.portLost
  rw [State.reg_setFld_ne _ _ _ _ (fecUncorr_ne_portStatus port), State.reg_setFld_ne _ _ _ _ (fecUncorr_ne_portStatus port)]
  exact s.toNat_reg_count _ 1

theorem State.portLost_regsOnly (cause : Nat) :
    s.RegsOnly (s.portLost port cause) [Reg.NET_PORT_STATUS + port, Reg.NET_FEC_UNCORR + port] := by
  have hcount : s.RegsOnly (if cause = 1 then s.count (Reg.NET_FEC_UNCORR + port) 1 else s)
      [Reg.NET_PORT_STATUS + port, Reg.NET_FEC_UNCORR + port] := by
    split
    · exact s.count_regsOnly (by simp)
    · exact ⟨.refl s _, rfl⟩
  exact (hcount.trans (State.setReg_regsOnly _ (by simp))).trans (State.setReg_regsOnly _ (by simp))
end

section
variable {s : State} {port : Nat} (hport : port < 4)
include hport

/-- A signal moves a port that may be trained on: DOWN to negotiation, negotiation to training (11 R322). -/
theorem exec_portSignalDetected (ha : s.addressed port = true) (hp : s.fld Reg.PWR_STATUS 2 0 = 3)
    (hs : s.fld (Reg.NET_PORT_STATUS + port) 2 0 < 3) : exec (.portSignalDetected port) s =
      .next (if s.fld (Reg.NET_PORT_STATUS + port) 2 0 = 0 then s.negotiating port else s.training port) := by
  show execPortSignalDetected port s = _
  unfold execPortSignalDetected
  dsimp only
  rw [if_neg (by simp [ha, hp]; omega)]
  split
  · rfl
  · rw [if_pos (by omega)]
    rfl

variable (hs : s.fld (Reg.NET_PORT_STATUS + port) 2 0 = 1 ∨ s.fld (Reg.NET_PORT_STATUS + port) 2 0 = 2)
include hs

theorem exec_portUp_known {phy : Nat} (hphy : phy = 1 ∨ phy = 2) : exec (.portUp port phy) s =
    .next (recordEvent (s.portTrained port phy) 0x0901 0 port phy (SMap.getD s.client.attempts port 0)) := by
  show execPortUp port phy s = _
  unfold execPortUp
  dsimp only
  rw [if_neg (by omega), if_neg (by omega)]
  rfl

theorem exec_portUp_unknown {phy : Nat} (h1 : phy ≠ 1) (h2 : phy ≠ 2) :
    exec (.portUp port phy) s = .next (s.setFld (Reg.NET_PORT_STATUS + port) 2 0 0) := by
  show execPortUp port phy s = _
  unfold execPortUp
  dsimp only
  rw [if_neg (by omega), if_pos ⟨h1, h2⟩]
end

section
variable {s : State} {port : Nat} (hport : port < 4) (hup : s.fld (Reg.NET_PORT_STATUS + port) 2 0 = 3)
include hport hup

theorem exec_portDown {cause : Nat} (hc : cause ≤ 2) :
    exec (.portDown port cause) s = .next (recordEvent (s.portLost port cause) 0x0902 0 port cause 0) := by
  show execPortDown port cause s = _
  unfold execPortDown
  rw [if_neg (by omega)]
  rfl

theorem exec_icmpEchoArpNs (kind : EchoKind) (src : Nat) : exec (.icmpEchoArpNs port kind src) s = .next (s.emit (.echo port kind src)) :=
  if_pos ⟨hport, hup⟩
end

theorem exec_datagramDiscarded_frame (s : State) {port : Nat} (h : port < 4) :
    exec (.datagramDiscarded (.frame port)) s = .next (s.count (Reg.NET_RX_DISCARD + port) 1) := by
  show execDatagramDiscarded (.frame port) s = _
  unfold execDatagramDiscarded
  dsimp only
  rw [if_pos h]

/-- A datagram in bad form, or of a known endpoint but not of its peer, is discarded and counted (11 R325, R328). -/
theorem exec_datagramDiscarded_datagram {s : State} {d : Datagram}
    (h : badDg d = true ∨ (∀ p, s.peerAt d.ip d.udp = some p → d.peerId ≠ p.id) ∧ s.peerAt d.ip d.udp ≠ none) :
    exec (.datagramDiscarded (.datagram d)) s = .next (discard s) := by
  show execDatagramDiscarded (.datagram d) s = _
  unfold execDatagramDiscarded
  dsimp only
  rcases h with h | ⟨hid, hsome⟩
  · rw [h]
    rfl
  · obtain ⟨p, hp⟩ := Option.ne_none_iff_exists'.1 hsome
    simp [hp, hid p hp]

/-- Settles O42: each row by the state that its exec lemma names. -/
theorem clientPortsFollowTheirLinks : Obligations.ClientPortsFollowTheirLinks := by
  refine ⟨fun s port hport ha hp hs => ?signal, fun s port phy hport hs hphy => ?known, fun s port phy hport hs h1 h2 => ?unknown,
    fun s port cause hport hc hup => ?lost, fun s port kind src hport hup => exec_icmpEchoArpNs hport hup kind src,
    fun s port hport => ?frame, fun s d h => ?datagram⟩
  case signal =>
    refine ⟨_, exec_portSignalDetected hport ha hp hs, ?_⟩
    split
    · exact ⟨s.fld_setFld_same _ 1 (by decide) (by decide), (s.setFld_regsOnly _ 2 0 1).1⟩
    · exact ⟨s.fld_setFld_same _ 2 (by decide) (by decide), (s.setFld_regsOnly _ 2 0 2).1⟩
  case known =>
    have hev := portStatus_notMem_eventRegs hport
    refine ⟨_, exec_portUp_known hport hs hphy, ?_, ?_, recordEvent_recordsFor, ?_⟩
    · rw [recordEvent_fld _ _ _ _ _ _ _ _ hev, s.portTrained_state]
    · rw [recordEvent_fld _ _ _ _ _ _ _ _ hev, s.portTrained_phy]
      omega
    · exact ((s.portTrained_frame port phy).mono (List.subset_append_left ..)).trans (recordEvent_frame ..).1
  case unknown =>
    exact ⟨_, exec_portUp_unknown hport hs h1 h2, s.fld_setFld_same _ 0 (by decide) (by decide), s.setFld_regsOnly ..⟩
  case lost =>
    have honly := s.portLost_regsOnly port cause
    refine ⟨_, exec_portDown hport hup hc, ?_, ?_, ?_, honly.events.trans (recordEvent_frame ..)⟩
    · rw [recordEvent_fld _ _ _ _ _ _ _ _ (portStatus_notMem_eventRegs hport), s.portLost_state]
    · rintro rfl
      exact (s.portLost_counted port).afterEvent (fecUncorr_notMem_eventRegs hport) ..
    · exact recordEvent_recordsFor (by rw [honly.2]) (by rw [honly.2]) (by rw [honly.2]) (by rw [honly.2])
  case frame =>
    exact ⟨_, exec_datagramDiscarded_frame s hport, State.count_counted rfl _ _, s.count_regsOnly (List.mem_singleton_self _)⟩
  case datagram =>
    exact ⟨_, exec_datagramDiscarded_datagram h, State.count_counted rfl _ _, s.count_regsOnly (List.mem_singleton_self _)⟩

end Sys2Proof.Machine

namespace Sys2Proof.Machine

/-! ## Acknowledgement, retransmission and the loss of a peer (11 R326-R328) -/

/-- A peer that may have had datagrams of a queue transmitted: its credit stands, and what it has not acknowledged was so before or comes
from the queue. -/
structure Peer.Pumped (p q : Peer) (queue : List OutDg) : Prop where
  limit : q.limit = p.limit
  heard : q.heard = p.heard
  unacked : ∀ g ∈ q.unacked, g ∈ p.unacked ∨ ∃ g0 ∈ queue, g0.seq = g.seq

theorem pumpList_pumped (pid : Nat) (l : List OutDg) : ∀ {s : State} {p : Peer}, s.peer? pid = some p →
    ∃ q, (pumpList s pid l).peer? pid = some q ∧ p.Pumped q l := by
  induction l with
  | nil => exact fun {s p} hp => ⟨p, hp, rfl, rfl, fun g hg => .inl hg⟩
  | cons g rest ih =>
    intro s p hp
    unfold pumpList
    rw [hp]
    dsimp only
    split
    · obtain ⟨q, hq, hlimit, hheard, hun⟩ := ih (transmit_peer (State.peer?_putPeer hp (p := p.moved g rest s.now)) (g.sent s.now)).2
      refine ⟨q, hq, hlimit, hheard, fun x hx => ?_⟩
      obtain hx | ⟨g0, hg0, he⟩ := hun x hx
      · obtain hx | hx := List.mem_append.1 hx
        · exact .inl hx
        · obtain rfl := List.mem_singleton.1 hx
          exact .inr ⟨g, List.mem_cons_self, rfl⟩
      · exact .inr ⟨g0, List.mem_cons_of_mem _ hg0, he⟩
    · exact ⟨p, hp, rfl, rfl, fun x hx => .inl hx⟩

theorem pump_eq {s : State} {pid : Nat} {p : Peer} (hp : s.peer? pid = some p) : pump s pid = pumpList s pid p.queue := by
  unfold pump
  rw [hp]

theorem Peer.sample_queue (p : Peer) (r : Nat) : (p.sample r).queue = p.queue := by
  unfold Peer.sample
  split <;> rfl

theorem Peer.samples_queue (p : Peer) (f : OutDg → Nat) (l : List OutDg) : (l.foldl (fun p g => p.sample (f g)) p).queue = p.queue := by
  induction l generalizing p with
  | nil => rfl
  | cons g l ih => exact (ih _).trans (p.sample_queue _)

theorem Peer.takesAck_queue (p : Peer) (d : Datagram) (now : Nat) : (p.takesAck d now).queue = p.queue := p.samples_queue _ _

theorem Peer.takesAck_id (p : Peer) (d : Datagram) (now : Nat) : (p.takesAck d now).id = p.id :=
  (congrArg Peer.id (p.takesAck_steady d now) :)

/-- RESULTs that are acknowledged leave their sessions, and nothing else changes (11 R338). -/
theorem dropResults_frame (s : State) (pid : Nat) : ∃ f : Session → Session,
    dropResults s pid = { s with client := { s.client with sessions := s.client.sessions.map f } } := by
  unfold dropResults
  split
  · exact ⟨id, by rw [List.map_id]⟩
  · exact ⟨_, rfl⟩

section
variable {s : State} {p : Peer} (hp : s.peer? p.id = some p) (d : Datagram)
include hp

/-- Taking an acknowledgement: the peer and the sessions note it, then the queue moves. -/
theorem takeAck_eq : takeAck s p.id d = pump (dropResults (s.putPeer (p.takesAck d s.now)) p.id) p.id := by
  unfold takeAck
  rw [hp]
  rfl

theorem dropResults_peer? : (dropResults (s.putPeer (p.takesAck d s.now)) p.id).peer? p.id = some (p.takesAck d s.now) := by
  obtain ⟨f, hf⟩ := dropResults_frame (s.putPeer (p.takesAck d s.now)) p.id
  rw [hf]
  exact State.peer?_putPeer hp (p.takesAck_id d s.now)

/-- Taking an acknowledgement changes the peers, the RESULTs of sessions and what has left the module, and nothing else. -/
theorem takeAck_frame : ∃ (f : Session → Session) (ps : List Peer) (os : List Output),
    takeAck s p.id d = { s with client := { s.client with peers := ps, sessions := s.client.sessions.map f }, out := os } := by
  obtain ⟨f, hf⟩ := dropResults_frame (s.putPeer (p.takesAck d s.now)) p.id
  rw [takeAck_eq hp, (pump_pumps (dropResults_peer? hp d)).frame, hf]
  exact ⟨f, _, _, rfl⟩

/-- So does hearing a message. -/
theorem State.heard_frame : ∃ (f : Session → Session) (ps : List Peer) (os : List Output),
    s.heard p d = { s with client := { s.client with peers := ps, sessions := s.client.sessions.map f }, out := os } := by
  obtain ⟨-, q, hq, -⟩ := takeAck_peer hp d
  obtain ⟨f, ps, os, h⟩ := takeAck_frame hp d
  rw [State.heard_eq hq, h]
  exact ⟨f, _, _, rfl⟩

/-- The peer that an acknowledgement has come from: it has the credit sent with it, and nothing acknowledged waits for it (11 R326). -/
theorem takeAck_acked : ∃ q, (takeAck s p.id d).peer? p.id = some q ∧ q.limit = seqAdd d.ack d.credit ∧ q.heard = s.now ∧
    ∀ g ∈ q.unacked, (g ∈ p.unacked ∧ ackedBy d.ack d.sack g.seq = false) ∨ ∃ g0 ∈ p.queue, g0.seq = g.seq := by
  have hpeer := dropResults_peer? hp d
  obtain ⟨q, hq, hlimit, hheard, hun⟩ := pumpList_pumped p.id (p.takesAck d s.now).queue hpeer
  rw [takeAck_eq hp, pump_eq hpeer]
  refine ⟨q, hq, hlimit, hheard, fun g hg => ?_⟩
  obtain h | h := hun g hg
  · obtain ⟨hmem, hnot⟩ := List.mem_filter.1 h
    exact .inl ⟨hmem, by simpa using hnot⟩
  · rw [p.takesAck_queue] at h
    exact .inr h

end

/-- The datagram of a peer as it leaves: it carries the acknowledgement (11 R325). -/
def State.wire (s : State) (p : Peer) (g : OutDg) : ClientTx :=
  ⟨p.port, p.ip, p.udp, p.id, p.cookie, g.dtype, g.response, g.lastFrag, g.seq, p.rcvNext, p.sackBits, s.creditOf p, g.frag, g.body⟩

theorem transmit_eq {s : State} {pid : Nat} {p : Peer} (hp : s.peer? pid = some p) (g : OutDg) :
    transmit s pid g = (s.putPeer (p.acknowledged (s.creditOf p))).emit (.client (s.wire p g)) := by
  unfold transmit
  rw [hp]
  rfl

theorem sendAck_eq {s : State} {pid : Nat} {p : Peer} (hp : s.peer? pid = some p) :
    sendAck s pid = transmit s pid ⟨p.sndNext, 0, false, 0, true, [], 0, 0⟩ := by
  unfold sendAck
  rw [hp]

section
variable {s : State} {p : Peer} {d : Datagram}

theorem clientRow_receive {dtype : Nat} (ht : d.dtype = dtype) (hr : respOf d = false) : clientRow dtype d s = receive s d :=
  if_pos ⟨ht, by simp [hr]⟩

/-- An ACK has nothing for its peer but what every datagram acknowledges. -/
theorem exec_ack (h : s.HearsFrom p d) (ht : d.dtype = 0) (hr : respOf d = false) : exec (.ack d) s = .next (takeAck s p.id d) := by
  obtain ⟨hport, hup, hopen, hgood, hat, -, hid, hcookie, -⟩ := h
  show Host.Outcome.next (clientRow 0 d s) = _
  rw [clientRow_receive ht hr]
  unfold receive
  rw [if_neg (by simp [hup, hopen]; omega), if_neg (by simp [hgood]), if_neg (by simp [ht]), hat]
  dsimp only
  rw [if_neg (by simp [hid, hcookie]), if_pos ht]

/-- A response, and a RESULT sent to the module, is heard and discarded (11 R336). -/
theorem exec_clientResponseDiscard (h : s.Hears p d) (hd : respOf d = true ∨ d.dtype = 4) :
    exec (.clientResponseDiscard d) s = .next (discard (s.heard p d)) := by
  obtain ⟨q, hq, -⟩ := h.peer
  have hm : handleMessage (s.heard p d) p.id ⟨d.dtype, respOf d, 0, d.body⟩ = discard (s.heard p d) := by
    unfold handleMessage
    rw [hq]
    rcases hd with hr | ht
    · simp [hr]
    · simp [ht]
  show execClientResponseDiscard d s = _
  unfold execClientResponseDiscard
  rw [if_pos hd, h.handled, hm]
end

/-- A datagram as it stands once it is transmitted once more. -/
def OutDg.again (g : OutDg) (now : Nat) : OutDg := { g with tries := g.tries + 1, sentAt := now }

/-- A peer to which a datagram is transmitted once more. -/
def Peer.retried (p : Peer) (g : OutDg) (now : Nat) : Peer :=
  { p with unacked := p.unacked.map (fun x => if x.seq = g.seq then g.again now else x) }

/-- The state in which a datagram is transmitted once more: it is counted. -/
def State.retrying (s : State) (p : Peer) (g : OutDg) : State := (s.putPeer (p.retried g s.now)).count Reg.SES_RETX 1

theorem State.retrying_peer? {s : State} {p : Peer} (hp : s.peer? p.id = some p) (g : OutDg) :
    (s.retrying p g).peer? p.id = some (p.retried g s.now) :=
  State.peer?_putPeer hp

theorem Peer.mem_retried {p : Peer} {g : OutDg} (hg : p.unacked.find? (fun x => decide (x.seq = g.seq)) = some g) (now : Nat) :
    g.again now ∈ (p.retried g now).unacked :=
  List.mem_map.2 ⟨g, List.mem_of_find?_eq_some hg, if_pos rfl⟩

section
variable {s : State} {p : Peer} (hp : s.peer? p.id = some p)
include hp

theorem exec_ackTimer (hdue : p.ackDue = true) :
    exec (.ackTimer p.id) s = .next (transmit s p.id ⟨p.sndNext, 0, false, 0, true, [], 0, 0⟩) := by
  show execAckTimer p.id s = _
  unfold execAckTimer
  rw [hp]
  dsimp only
  rw [if_pos hdue, sendAck_eq hp]

section
variable {g : OutDg} (hg : p.unacked.find? (fun x => decide (x.seq = g.seq)) = some g)
include hg

theorem exec_retransmissionTimeout_again (h : g.tries < 12) : exec (.retransmissionTimeout p.id g.seq) s =
    .next (transmit (s.retrying p g) p.id (g.again s.now)) := by
  show execRetransmissionTimeout p.id g.seq s = _
  unfold execRetransmissionTimeout
  rw [hp]
  dsimp only
  rw [hg]
  exact if_neg (by omega)

theorem exec_retransmissionTimeout_lost (h : 12 ≤ g.tries) : exec (.retransmissionTimeout p.id g.seq) s =
    .next (removePeer (recordEvent s 0x0703 0 p.id (s.sessionsOf p.id) (p.timeout g.tries / 1000)) p.id) := by
  show execRetransmissionTimeout p.id g.seq s = _
  unfold execRetransmissionTimeout
  rw [hp]
  dsimp only
  rw [hg]
  exact if_pos h
end

/-- A SUBMIT whose datagrams do not all come is discarded and refused under its REQ_ID (11 R327). -/
theorem exec_submitReassemblyTimeout {m : Assembly} (hm : p.asm = some m) (ht : m.dtype = 3) (hr : m.response = false) :
    exec (.submitReassemblyTimeout p.id) s = .next (answer (discard (s.putPeer p.assembled)) p.id 3
      (beBytes 2 stRefused ++ [0, 0] ++ beBytes 4 (beAt m.body 4 4) ++ List.replicate 16 0)) := by
  show execSubmitReassemblyTimeout p.id s = _
  unfold execSubmitReassemblyTimeout
  rw [hp]
  dsimp only
  rw [hm]
  dsimp only
  rw [if_pos ht, setAsm_none hp, ← submitAnswer_refused]
  unfold dropMessage
  rw [if_pos ⟨ht, by simp [hr]⟩]
end

theorem removePeer_peer? (s : State) (pid : Nat) : (removePeer s pid).peer? pid = none := by
  unfold removePeer State.peer?
  simp

theorem removePeer_sessions (s : State) (pid : Nat) : ∀ x ∈ (removePeer s pid).client.sessions, x.peer ≠ some pid := by
  intro x hx
  obtain ⟨y, -, rfl⟩ := List.mem_map.1 hx
  split
  · simp
  · assumption

/-- Settles O41: what each row of the delivery leaves of its peer. -/
theorem deliveryIsReliable : Obligations.DeliveryIsReliable := by
  refine ⟨fun s p d h ht hr => ?ack, fun s p hp hdue => ?timer, fun s p g hp hg htries => ?again, fun s p g hp hg htries => ?lost,
    fun s p d h hd => ?response, fun s p m hp hm ht hr hfit => ?reassembly⟩
  case ack =>
    obtain ⟨-, -, -, -, -, hp, -⟩ := id h
    obtain ⟨q, hq, hlimit, hheard, hun⟩ := takeAck_acked hp d
    obtain ⟨-, q', hq', hs⟩ := takeAck_peer hp d
    obtain rfl : q' = q := Option.some.inj (hq'.symm.trans hq)
    exact ⟨_, q', exec_ack h ht hr, hq, hlimit, hheard, (congrArg Peer.rcvNext hs :), hun⟩
  case timer =>
    rw [exec_ackTimer hp hdue, transmit_eq hp]
    exact ⟨_, s.wire p _, _, rfl, rfl, rfl, rfl, rfl, State.peer?_putPeer hp, rfl, rfl⟩
  case again =>
    have hpeer := State.retrying_peer? hp g
    rw [exec_retransmissionTimeout_again hp hg htries, transmit_eq hpeer]
    exact ⟨_, (s.retrying p g).wire (p.retried g s.now) (g.again s.now), _, rfl, rfl, rfl, rfl, State.peer?_putPeer hpeer,
      Peer.mem_retried hg _, State.count_counted (t := s.putPeer (p.retried g s.now)) rfl _ _⟩
  case lost =>
    exact ⟨_, exec_retransmissionTimeout_lost hp hg htries, removePeer_peer? .., removePeer_sessions _ _,
      State.Records.congr (recordEvent_records s _ _ _ _ _) rfl⟩
  case response =>
    obtain ⟨⟨-, -, -, -, -, hp, -⟩, -⟩ := id h
    obtain ⟨-, q, hq, hs⟩ := takeAck_peer hp d
    refine ⟨_, _, exec_clientResponseDiscard h hd, State.heard_peer hq, ?_, rfl, State.count_counted rfl _ _, rfl⟩
    exact congrArg (seqAdd · 1) (congrArg Peer.rcvNext hs :)
  case reassembly =>
    refine ⟨_, exec_submitReassemblyTimeout hp hm ht hr, (answer_mails ..).counted (State.count_counted rfl _ _),
      (answer_mails ..).sessions, ?_⟩
    exact answer_sends (s := s.putPeer p.assembled) (t := discard (s.putPeer p.assembled)) (State.peer?_putPeer hp) hfit rfl
      (State.reg_setReg_ne _ _ (by decide)) 3 _

end Sys2Proof.Machine

namespace Sys2Proof.Machine

/-! ## HELLO (11 R328, R329) -/

/-- Of more numbers than are used, one that is not used is picked. -/
theorem pickUnused_notMem {n : Nat} (v : Nat) {used : List Nat} (h : used.length < n) : pickUnused n v used ∉ used := by
  unfold pickUnused
  cases hf : ((List.range (used.length + 1)).map (fun i => (v + i) % n)).find? (fun i => !used.contains i) with
  | some i => simpa using List.find?_some hf
  | none =>
    have hsub : (List.range (used.length + 1)).map (fun i => (v + i) % n) ⊆ used := by
      intro i hi
      simpa using List.find?_eq_none.1 hf i hi
    have hnodup : ((List.range (used.length + 1)).map (fun i => (v + i) % n)).Nodup := by
      refine List.nodup_range.map_on fun i hi j hj he => ?_
      have hi := List.mem_range.1 hi
      have hj := List.mem_range.1 hj
      have hm : i ≡ j [MOD n] := Nat.ModEq.add_left_cancel' v he
      exact hm.eq_of_lt_of_lt (by omega) (by omega)
    have hlen := (List.subperm_of_subset hnodup hsub).length_le
    simp at hlen

theorem transmit_peers_length (s : State) (pid : Nat) (g : OutDg) : (transmit s pid g).client.peers.length = s.client.peers.length := by
  unfold transmit
  split
  · rfl
  · exact List.length_map _

theorem pumpList_peers_length (pid : Nat) (l : List OutDg) : ∀ s : State, (pumpList s pid l).client.peers.length = s.client.peers.length := by
  induction l with
  | nil => exact fun _ => rfl
  | cons g rest ih =>
    intro s
    unfold pumpList
    split
    · rfl
    · dsimp only
      split
      · exact (ih _).trans ((transmit_peers_length _ _ _).trans (List.length_map _))
      · rfl

/-- A peer that is sent a message keeps all but what its traffic moves, and no peer comes or goes. -/
theorem answer_peer {s : State} {pid : Nat} {p : Peer} (hp : s.peer? pid = some p) (dtype : Nat) (body : List Nat) :
    (answer s pid dtype body).client.peers.length = s.client.peers.length ∧
    ∃ q n, (answer s pid dtype body).peer? pid = some q ∧ q.steady = { p.steady with sndNext := n } := by
  have hput := State.peer?_putPeer hp (p := p.queued (s.datagrams p dtype true body))
  obtain ⟨q, hq, hs, -⟩ := (pump_pumps hput).peer _ hput
  unfold answer
  rw [sendMsg_eq hp]
  refine ⟨?_, q, _, hq, hs⟩
  unfold pump
  rw [hput]
  exact (pumpList_peers_length ..).trans (List.length_map _)

/-- The peer that a HELLO makes: its identifier, cookie and first SEQ from free values (log 2). -/
def State.newPeer (s : State) (d : Datagram) (operator : Bool) : Peer :=
  ⟨pickUnused 0xFFFF (Config.freeValue s.free).toNat (s.client.peers.map (·.id)), d.port, d.ip, d.udp, d.v6,
    (Config.freeValue (s.free + 1)).toNat % 2 ^ 32, operator, s.now, seqAdd d.seq 1, 0, [], none, true,
    (Config.freeValue (s.free + 1)).toNat / 2 ^ 32, seqAdd d.ack d.credit, [], [], false, 0, 0⟩

/-- The state with the peer of a HELLO, before its event is recorded. -/
def State.withNewPeer (s : State) (d : Datagram) (operator : Bool) : State :=
  { s with free := s.free + 2, client := { s.client with peers := s.client.peers ++ [s.newPeer d operator] } }

/-- The body of a HELLO's answer (11 R329). -/
def State.helloBody (s : State) (operator : Bool) : List Nat :=
  beBytes 2 stAccepted ++ [0, 0] ++ beBytes 4 s.plan.epoch ++ beBytes 4 (s.fld Reg.ADM_ROUND_LEN 15 0) ++
    beBytes 8 Config.moduleId.toNat ++ beBytes 8 s.round ++ beBytes 2 (s.fld Reg.FAB_ADDR 13 0) ++ beBytes 2 (if operator then 1 else 0)

section
variable (s : State) (d : Datagram) (operator : Bool)

/-- The state in which the answer to a HELLO leaves. -/
def State.greeted : State :=
  recordEvent (s.withNewPeer d operator) 0x0701 0 (s.newPeer d operator).id d.port (if operator then 1 else 0)

theorem State.greeted_client : (s.greeted d operator).client = (s.withNewPeer d operator).client := recordEvent_client ..

theorem State.greeted_reg {a : Nat} (h : a ∉ eventRegs) : (s.greeted d operator).reg a = s.reg a := recordEvent_reg _ _ _ _ _ _ h

theorem State.greeted_helloBody : (s.greeted d operator).helloBody operator = s.helloBody operator := by
  have hplan : (s.greeted d operator).plan = s.plan := recordEvent_plan ..
  unfold State.helloBody State.round State.reg64 State.fld
  rw [hplan, s.greeted_reg d operator (by decide), s.greeted_reg d operator (by decide), s.greeted_reg d operator (by decide),
    s.greeted_reg d operator (by decide)]

theorem addPeer_eq : addPeer s d operator = answer (s.greeted d operator) (s.newPeer d operator).id 1 (s.helloBody operator) := by
  rw [← s.greeted_helloBody d operator]
  rfl

theorem State.newPeer_unused (h : s.client.peers.length < 0xFFFF) : ∀ q ∈ s.client.peers, q.id ≠ (s.newPeer d operator).id := by
  intro q hq he
  exact pickUnused_notMem _ (by simpa using h) (List.mem_map.2 ⟨q, hq, he⟩)

theorem State.greeted_peer? (h : s.client.peers.length < 0xFFFF) :
    (s.greeted d operator).peer? (s.newPeer d operator).id = some (s.newPeer d operator) := by
  have hold : s.client.peers.find? (fun p => decide (p.id = (s.newPeer d operator).id)) = none :=
    List.find?_eq_none.2 fun q hq => by simpa using s.newPeer_unused d operator h q hq
  unfold State.peer?
  rw [State.greeted_client]
  simp [State.withNewPeer, List.find?_append, hold]
end

section
variable {s : State} {d : Datagram} (ht : d.dtype = 1) (hr : respOf d = false) (hid : d.peerId = 0xFFFF) (hcookie : d.cookie = 0)
  (hport : d.port < 4) (hup : s.fld (Reg.NET_PORT_STATUS + d.port) 2 0 = 3) (hopen : s.opened = true) (hgood : badDg d = false)
include ht hr hid hcookie hport hup hopen hgood

theorem exec_hello : exec (.hello d) s = .next (handleHello s d) := by
  show Host.Outcome.next (clientRow 1 d s) = _
  rw [clientRow_receive ht hr]
  unfold receive
  rw [if_neg (by simp [hup, hopen]; omega), if_neg (by simp [hgood]), if_pos ⟨ht, by simp [hr], hid, hcookie⟩]
end

section
variable {s : State} {d : Datagram} (hfrag : d.frag = 0) (hlast : lastOf d = true)
include hfrag hlast

/-- A HELLO without a token from an endpoint that is no peer's makes one. -/
theorem handleHello_new (hbody : d.body = [0, 0, 0, 0]) (hat : s.peerAt d.ip d.udp = none) (hroom : s.client.peers.length < 4096) :
    handleHello s d = addPeer s d false := by
  have h0 : beAt d.body 0 2 = 0 := by
    rw [hbody]
    rfl
  have h2 : beAt d.body 2 2 = 0 := by
    rw [hbody]
    rfl
  have hlen : d.body.length = 4 := by
    rw [hbody]
    rfl
  unfold handleHello
  simp [hfrag, hlast, h0, h2, hlen, hat, hroom]

/-- A HELLO whose body is not as its TOKEN_LEN says. -/
theorem handleHello_badLength (hlen : d.body.length ≠ 4 + beAt d.body 0 2) : handleHello s d = helloRefused s d stBadMessage := by
  unfold handleHello
  rw [if_neg (by simp [hfrag, hlast])]
  dsimp only
  rw [if_pos (.inr (.inl hlen))]
end

/-- Settles O34: the peer that a HELLO makes, and the answer that makes none. -/
theorem helloMakesAPeer : Obligations.HelloMakesAPeer := by
  refine ⟨fun s d ht hr hid hcookie hport hup hopen hgood hfrag hlast hbody hat hroom hmtu => ?accepted,
    fun s d ht hr hid hcookie hport hup hopen hgood hfrag hlast hlen => ?bad⟩
  case accepted =>
    have hfew : s.client.peers.length < 0xFFFF := by omega
    have hnew := s.greeted_peer? d false hfew
    have hfit : (s.greeted d false).Fits (s.newPeer d false) := by
      unfold State.Fits State.chunkSize State.fld
      rw [s.greeted_reg d false (by decide)]
      change 80 < getBits (s.reg Reg.NET_MTU) 13 0 at hmtu
      split <;> omega
    obtain ⟨hlen, q, n, hq, hs⟩ := answer_peer hnew 1 (s.helloBody false)
    have hqid : q.id = (s.newPeer d false).id := (congrArg Peer.id hs :)
    refine ⟨_, q, exec_hello ht hr hid hcookie hport hup hopen hgood, ?_⟩
    rw [handleHello_new hfrag hlast hbody hat hroom, addPeer_eq, hqid]
    refine ⟨hq, s.newPeer_unused d false hfew, ?_, (congrArg Peer.ip hs :), (congrArg Peer.udp hs :), (congrArg Peer.port hs :),
      (congrArg Peer.operator hs :), (congrArg Peer.rcvNext hs :), ?_, answer_sends hnew hfit rfl rfl 1 _⟩
    · rw [hlen, State.greeted_client]
      exact List.length_append
    · exact State.Records.congr recordEvent_recordsFor (answer_mails ..).evt
  case bad =>
    refine ⟨_, exec_hello ht hr hid hcookie hport hup hopen hgood, ?_⟩
    rw [handleHello_badLength hfrag hlast hlen]
    exact ⟨rfl, rfl, _, rfl, rfl, rfl, rfl, rfl⟩

end Sys2Proof.Machine

namespace Sys2Proof.Machine

/-! ## OPEN (11 R333) -/

/-- The number of the session that an OPEN makes (log 2). -/
def State.newSessionId (s : State) : Nat := pickUnused 16384 s.takeFree.1.toNat (s.client.sessions.map (·.id))

/-- The session that an OPEN makes of its token and the context it asks for. -/
def State.newSession (s : State) (pid : Nat) (l : List Nat) : Session :=
  ⟨s.newSessionId, s.takeFree.1.toNat / 2 ^ 32, .opened, some pid, beAt l 0 4, (tokenOf (l.drop 16)).partition, (tokenOf (l.drop 16)).classMask,
    beAt l 4 4, 0, none, [], none, false⟩

def State.withSession (s : State) (x : Session) : State := { s with client := { s.client with sessions := s.client.sessions ++ [x] } }

theorem State.newSession_unused {s : State} (pid : Nat) (l : List Nat) (h : s.client.sessions.length < 16384) :
    ∀ y ∈ s.client.sessions, y.id ≠ (s.newSession pid l).id := by
  intro y hy he
  exact pickUnused_notMem _ (by simpa using h) (List.mem_map.2 ⟨y, hy, he⟩)

/-- The answer to an OPEN that is not accepted names no session. -/
theorem openAnswer_refused (s : State) (pid st : Nat) : openAnswer s pid st 0 0 0 0 = answer s pid 2 (beBytes 2 st ++ List.replicate 14 0) := by
  have h : beBytes 2 0 ++ (beBytes 4 0 ++ (beBytes 4 0 ++ beBytes 4 0)) = List.replicate 14 0 := by decide
  unfold openAnswer
  rw [List.append_assoc, List.append_assoc, List.append_assoc, h]

/-- The state in which a refused OPEN is answered: it is counted and recorded. -/
def State.openDenied (s : State) (status tokenId model : Nat) : State :=
  recordEvent (s.count Reg.SES_OPEN_REFUSED 1) 0x0704 0 status (tokenId % 2 ^ 32) model

theorem openRefused_eq (s : State) (pid status tokenId model : Nat) :
    openRefused s pid status tokenId model = answer (s.openDenied status tokenId model) pid 2 (beBytes 2 status ++ List.replicate 14 0) :=
  openAnswer_refused ..

/-- The largest context of a session on a model under a token (11 R333). -/
theorem contextLimit_le {ask tokenMax modelMax : Nat} (h : ask ≤ modelMax) (k : tokenMax = 0 ∨ ask ≤ tokenMax) :
    ¬ (if tokenMax ≠ 0 ∧ tokenMax < modelMax then tokenMax else modelMax) < ask := by
  split <;> omega

section
variable {s : State} {pid : Nat} {l : List Nat} (hlen : l.length = 448) (hres : beAt l 8 2 = 0) (hask : beAt l 4 4 ≤ 4194304)
include hlen hres hask

/-- Whatever the life cycle, an OPEN without a valid token is refused (11 R333). -/
theorem handleOpen_invalidToken (hv : s.tokenValid (l.drop 16) = false) :
    handleOpen s pid l = openRefused s pid stNotAuthorised (tokenOf (l.drop 16)).tokenId (beAt l 0 4) := by
  unfold handleOpen
  rw [if_neg (by omega)]
  split
  · rfl
  · rw [if_neg (by omega)]
    unfold openNew
    exact if_pos (.inl (by simp [hv]))

theorem handleOpen_opens {m : Model} {s1 : State} (hpos : beAt l 4 4 ≠ 0) (hmax : beAt l 4 4 ≤ m.pkg.maxContext)
    (htok : (tokenOf (l.drop 16)).maxContext = 0 ∨ beAt l 4 4 ≤ (tokenOf (l.drop 16)).maxContext) (hlc : s.fuses.lifeCycle ≠ 4)
    (hv : s.tokenValid (l.drop 16) = true) (hmodel : (tokenOf (l.drop 16)).model = 0 ∨ (tokenOf (l.drop 16)).model = beAt l 0 4)
    (hm : s.model? (beAt l 0 4) = some m) (hp : m.paused = false) (hroom : s.client.sessions.length < 16384)
    (hseq : openSeqs s.takeFree.2 (beAt l 0 4) s.newSessionId ((beAt l 4 4 + 63) / 64) m.pkg.kv = some s1) :
    handleOpen s pid l = openAnswer (s1.withSession (s.newSession pid l)) pid stAccepted s.newSessionId (s.newSession pid l).cookie 0
      (beAt l 4 4) := by
  unfold handleOpen
  rw [if_neg (by omega), if_neg hlc, if_neg (by omega)]
  unfold openNew
  dsimp only
  rw [hm]
  dsimp only
  have hlimit := contextLimit_le hmax htok
  rw [if_neg (by simp only [hv, Bool.not_true, Bool.false_eq_true, false_or]; omega), if_neg (by simp [hp]), if_neg (by omega), if_neg hpos]
  unfold State.newSessionId at hseq
  rw [hseq]
  rfl
end

theorem State.openDenied_reg (s : State) (status tokenId model : Nat) {a : Nat} (he : a ∉ eventRegs) (ha : a ≠ Reg.SES_OPEN_REFUSED) :
    (s.openDenied status tokenId model).reg a = s.reg a :=
  (recordEvent_reg _ _ _ _ _ _ he).trans (s.reg_setReg_ne _ ha)

theorem State.openDenied_client (s : State) (status tokenId model : Nat) : (s.openDenied status tokenId model).client = s.client :=
  recordEvent_client ..

theorem exec_open {s : State} {p : Peer} {d : Datagram} (h : s.Hears p d) (ht : d.dtype = 2) (hr : respOf d = false) :
    exec (.open_ d) s = .next (handleOpen (s.heard p d) p.id d.body) :=
  congrArg Host.Outcome.next (clientRow_hears h ht hr fun q hq => by simp [handleMessage, hq])

/-- Settles O35: the session that OPEN makes, and what its refusal leaves. -/
theorem openMakesASession : Obligations.OpenMakesASession := by
  refine ⟨fun s p d m s1 h ht hr hlen hres hpos hmax hmodelMax htok hlc hv hmodel hm hp hroom hseq => ?opened,
    fun s p d h ht hr hfit hlen hres hask hv => ?refused⟩
  case opened =>
    refine ⟨_, (s.heard p d).newSession p.id d.body, exec_open h ht hr, ?_, State.newSession_unused p.id d.body hroom, rfl, rfl, rfl, rfl,
      rfl, rfl, rfl, rfl⟩
    rw [handleOpen_opens hlen hres (hmax.trans hmodelMax) hpos hmax htok hlc hv hmodel hm hp hroom hseq]
    unfold openAnswer
    rw [(answer_mails ..).sessions]
    exact List.mem_append_right _ (List.mem_singleton_self _)
  case refused =>
    obtain ⟨q, hq, hfit'⟩ := h.peer
    rw [exec_open h ht hr, handleOpen_invalidToken hlen hres hask hv, openRefused_eq]
    have hmails := answer_mails ((s.heard p d).openDenied stNotAuthorised (tokenOf (d.body.drop 16)).tokenId (beAt d.body 0 4)) p.id 2
    have hclient := (s.heard p d).openDenied_client stNotAuthorised (tokenOf (d.body.drop 16)).tokenId (beAt d.body 0 4)
    refine ⟨_, rfl, (hmails _).counted ?_, State.Records.congr recordEvent_recordsFor (hmails _).evt, ?_,
      answer_sends hq (hfit' hfit) (congrArg Client.peers hclient :) (State.openDenied_reg _ _ _ _ (by decide) (by decide)) 2 _⟩
    · exact (State.count_counted rfl _ _).afterEvent (by decide) ..
    · rw [(hmails _).sessions, hclient]

end Sys2Proof.Machine

namespace Sys2Proof.Machine

/-! ## STATUS, FLOOR_PLAN and RESULT_SEND (11 R336, R338, R348) -/

section
variable {s : State} {p : Peer} {d : Datagram} (h : s.Hears p d) (hr : respOf d = false)
include h hr

theorem exec_status (ht : d.dtype = 7) : exec (.status d) s = .next (handleStatus (s.heard p d) p.id d.body) :=
  congrArg Host.Outcome.next (clientRow_hears h ht hr fun q hq => by simp [handleMessage, hq])

theorem exec_floorPlan (ht : d.dtype = 8) : exec (.floorPlan d) s = .next (handleFloorPlan (s.heard p d) p.id d.body) :=
  congrArg Host.Outcome.next (clientRow_hears h ht hr fun q hq => by simp [handleMessage, hq])
end

/-- The body of the answer to a STATUS of the module (11 Table 11.9). -/
def State.moduleStatus (s : State) : List Nat :=
  beBytes 2 stAccepted ++ [0, 0] ++ [1, 0, 0, 0] ++ beBytes 8 s.round ++ beBytes 8 ((16384 - s.client.sessions.length) * 2 ^ 32 + s.plan.epoch)

theorem handleStatus_module (s : State) (pid : Nat) : handleStatus s pid [1, 0, 0, 0] = answer s pid 7 s.moduleStatus := rfl

/-- The body of the answer to a FLOOR_PLAN for an epoch (11 R348). -/
def State.floorPlanBody (s : State) (epoch : Nat) : List Nat :=
  match s.planOf epoch with
  | some r => beBytes 2 stAccepted ++ [0, 0] ++ planBytes r
  | none => beBytes 2 stRefused ++ [0, 0]

theorem handleFloorPlan_eq (s : State) (pid : Nat) {l : List Nat} (h : l.length = 4) :
    handleFloorPlan s pid l = answer s pid 8 (s.floorPlanBody (beAt l 0 4)) := by
  unfold handleFloorPlan State.floorPlanBody
  rw [if_neg (by simp [h])]
  cases s.planOf (beAt l 0 4) <;> rfl

section
variable {s : State} {p : Peer} (hp : s.peer? p.id = some p) (d : Datagram)
include hp

/-- Hearing a message changes nothing that a STATUS of the module reports. -/
theorem State.heard_moduleStatus : (s.heard p d).moduleStatus = s.moduleStatus := by
  obtain ⟨f, ps, os, hf⟩ := State.heard_frame hp d
  have hlen : (s.heard p d).client.sessions.length = s.client.sessions.length := by
    rw [hf]
    exact List.length_map _
  have hplan : (s.heard p d).plan = s.plan := by rw [hf]
  unfold State.moduleStatus State.round State.reg64 State.reg
  rw [State.heard_regs hp, hlen, hplan]

theorem State.heard_floorPlanBody (epoch : Nat) : (s.heard p d).floorPlanBody epoch = s.floorPlanBody epoch := by
  obtain ⟨f, ps, os, hf⟩ := State.heard_frame hp d
  have hplan : (s.heard p d).planOf epoch = s.planOf epoch := by
    rw [hf]
    rfl
  unfold State.floorPlanBody
  rw [hplan]
end

/-- The body of a RESULT (11 R338). -/
def Result.body (r : Result) (session : Nat) : List Nat :=
  beBytes 2 r.status ++ beBytes 2 session ++ beBytes 4 r.reqId ++ beBytes 4 r.index ++ beBytes 2 (if r.last then 1 else 0) ++
    beBytes 2 r.output.length ++ beBytes 8 r.round ++ beBytes 4 r.ctx ++ List.replicate 4 0 ++ r.output

/-- A session that notes the numbers under which a RESULT has been sent. -/
def Session.noting (x : Session) (i : Nat) (r : Result) (seqs : List Nat) : Session :=
  { x with results := x.results.set i { r with seqs := some seqs } }

/-- The first RESULT not yet sent leaves when its peer's credit allows, and its session notes its numbers. -/
theorem sendResult_sends {s : State} {session i : Nat} {x : Session} {p : Peer} {r : Result} (hx : s.session? session = some x)
    (hpeer : x.peer = some p.id) (hs : x.state ≠ .detached) (hi : x.results.findIdx? (fun r => r.seqs.isNone) = some i)
    (hres : x.results[i]? = some r) (hp : s.peer? p.id = some p) (hq : p.queue = []) (hcredit : seqLt p.sndNext p.limit = true) :
    sendResult s session = (sendMsg s p.id 4 false (r.body x.id)).1.putSession
      (x.noting i r (sendMsg s p.id 4 false (r.body x.id)).2) := by
  unfold sendResult
  simp only [hx, hpeer, hi, hp, hres]
  rw [if_neg (by simp [hs, hq, hcredit]), ← hpeer]
  rfl

/-- Settles O39: each answer's body, read as it was before the message was heard, and the RESULT that leaves. -/
theorem reportsReachTheClient : Obligations.ReportsReachTheClient := by
  refine ⟨fun s p d h ht hr hfit hbody => ?status, fun s p d h ht hr hfit hlen => ?floorPlan,
    fun s session i x p r hx hpeer hs hi hres hp hqueue hcredit hfit => ?result⟩
  case status =>
    obtain ⟨⟨-, -, -, -, -, hp, -⟩, -⟩ := id h
    obtain ⟨q, hq, hfit'⟩ := h.peer
    rw [exec_status h hr ht, hbody, handleStatus_module, State.heard_moduleStatus hp]
    exact ⟨_, rfl, (answer_mails ..).sessions, answer_sends hq (hfit' hfit) rfl rfl 7 _⟩
  case floorPlan =>
    obtain ⟨⟨-, -, -, -, -, hp, -⟩, -⟩ := id h
    obtain ⟨q, hq, hfit'⟩ := h.peer
    rw [exec_floorPlan h hr ht, handleFloorPlan_eq _ _ hlen, State.heard_floorPlanBody hp]
    exact ⟨_, rfl, (answer_mails ..).sessions, answer_sends hq (hfit' hfit) rfl rfl 8 _⟩
  case result =>
    have hmails := sendMsg_mails s p.id 4 false (r.body x.id)
    have hsend := sendResult_sends hx hpeer hs hi hres hp hqueue hcredit
    refine ⟨_, x.noting i r (sendMsg s p.id 4 false (r.body x.id)).2, _, congrArg Host.Outcome.next hsend, ?_, rfl, ?_⟩
    · exact State.session?_putSession ((hmails.session? session).trans hx)
    · exact sendMsg_sends hp hfit 4 false (r.body x.id)

end Sys2Proof.Machine

namespace Sys2Proof.Machine

/-! ## Packages (11 R345, R346) -/

section
variable {s : State} {p : Peer} {d : Datagram} (h : s.Hears p d) (hr : respOf d = false) (hop : p.operator = true)
include h

/-- A peer that is an operator's is so when its message is handled. -/
theorem State.Hears.operator {q : Peer} (hq : (s.heard p d).peer? p.id = some q) : q.operator = p.operator := by
  obtain ⟨⟨-, -, -, -, -, hp, -⟩, -⟩ := h
  obtain ⟨-, q', hq', hs⟩ := takeAck_peer hp d
  obtain rfl := Option.some.inj ((State.heard_peer hq').symm.trans hq)
  exact (congrArg Peer.operator hs :)

include hr hop

theorem exec_loadPackage (ht : d.dtype = 9) : exec (.loadPackage d) s = .next (handleLoad (s.heard p d) p.id true d.body) :=
  congrArg Host.Outcome.next (clientRow_hears h ht hr fun q hq => by simp [handleMessage, hq, h.operator hq, hop])

theorem exec_unloadPackage (ht : d.dtype = 10) : exec (.unloadPackage d) s = .next (handleUnload (s.heard p d) p.id true d.body) :=
  congrArg Host.Outcome.next (clientRow_hears h ht hr fun q hq => by simp [handleMessage, hq, h.operator hq, hop])
end

theorem State.load?_model {s : State} {model : Nat} {x : Load} (h : s.load? model = some x) : x.model = model :=
  of_decide_eq_true (List.find?_some h :)

theorem State.load?_putLoad (s : State) (x : Load) : (s.putLoad x).load? x.model = some x := by
  have hnone : (s.client.loads.filter (fun y => y.model ≠ x.model)).find? (fun y => decide (y.model = x.model)) = none :=
    List.find?_eq_none.2 fun y hy => by simpa using (List.mem_filter.1 hy).2
  unfold State.load? State.putLoad
  rw [List.find?_append, hnone]
  simp

theorem State.load?_dropLoad (s : State) (model : Nat) : (s.dropLoad model).load? model = none :=
  List.find?_eq_none.2 fun y hy => by simpa using (List.mem_filter.1 hy).2

def State.dropModel (s : State) (model : Nat) : State :=
  { s with client := { s.client with models := s.client.models.filter (fun m => m.pkg.model ≠ model) } }

theorem State.model?_dropModel (s : State) (model : Nat) : (s.dropModel model).model? model = none :=
  List.find?_eq_none.2 fun y hy => by simpa using (List.mem_filter.1 hy).2

namespace State.Mails
variable {s t : State} (h : s.Mails t)
include h

theorem loads : t.client.loads = s.client.loads := by rw [h]
theorem models : t.client.models = s.client.models := by rw [h]

theorem load? (model : Nat) : t.load? model = s.load? model := by
  unfold State.load?
  rw [h.loads]

theorem model? (model : Nat) : t.model? model = s.model? model := by
  unfold State.model?
  rw [h.models]

end State.Mails

/-- The load that the first chunk of a package starts. -/
def firstLoad (pid : Nat) (l : List Nat) : Load := ⟨beAt l 0 4, beAt l 16 8, l.drop 24, pid, none⟩

section
variable {s : State} {pid : Nat} {l : List Nat}

/-- The first chunk of a package that needs more is held, and answered with the bytes received (11 R345). -/
theorem handleLoad_first (h1 : 24 ≤ l.length) (h2 : beAt l 4 4 = 0) (hoff : beAt l 8 8 = 0) (hmore : l.length - 24 < beAt l 16 8)
    (hload : s.load? (beAt l 0 4) = none) (hmodel : s.model? (beAt l 0 4) = none) (hroom : s.client.loads.length < 2) :
    handleLoad s pid true l = loadAnswer (s.putLoad (firstLoad pid l)) pid stAccepted 0 (l.length - 24) := by
  have hchunk : (l.drop 24).length = l.length - 24 := List.length_drop
  unfold handleLoad
  dsimp only
  rw [if_neg (by simp), if_neg (by omega), hload]
  dsimp only
  rw [hmodel]
  dsimp only
  rw [if_neg (by simp), if_neg (by omega), if_neg (by omega), hchunk]
  rfl

/-- A model that no session but closing ones uses is removed, with its event (11 R346). -/
theorem handleUnload_unused {m : Model} (hlen : l.length = 6) (hforce : beAt l 4 2 ≤ 1) (hm : s.model? (beAt l 0 4) = some m)
    (hfree : ∀ x ∈ s.client.sessions, x.model = beAt l 0 4 → x.state = .closing) : handleUnload s pid true l =
      answer (recordEvent (s.dropModel (beAt l 0 4)) 0x0709 0 (beAt l 0 4) 0 0) pid 10 (beBytes 2 stAccepted ++ [0, 0] ++ beBytes 4 0) := by
  have hnone : s.client.sessions.filter (fun x => decide (x.model = beAt l 0 4) && decide (x.state ≠ .closing)) = [] :=
    List.filter_eq_nil_iff.2 fun x hx => by simpa using hfree x hx
  have hgood : ¬ (l.length < 6 ∨ 1 < beAt l 4 2 ∨ (l.drop 6).any (· ≠ 0) = true) := by
    rw [List.drop_of_length_le hlen.le]
    simp
    omega
  unfold handleUnload
  dsimp only
  rw [if_neg (by simp), if_neg hgood, hm]
  dsimp only
  rw [hnone]
  rfl
end

section
variable {s : State} {model : Nat} {x : Load} (hx : s.load? model = some x) (hall : x.bytes.length = x.total) (hready : x.ready = none)
include hx hall hready

theorem exec_packageVerificationDone_failed {r : Nat} (hv : verifyPackage s model x.bytes = .error r) :
    exec (.packageVerificationDone model) s = .next (loadAnswer
      (recordEvent (s.dropLoad model) 0x0708 0 model r (x.bytes.length % 2 ^ 32)) x.peer stPackageInvalid r x.bytes.length) := by
  show execPackageVerificationDone model s = _
  unfold execPackageVerificationDone
  rw [hx]
  dsimp only
  rw [if_neg (by simp [hall, hready]), hv]

theorem exec_packageVerificationDone_passed {k : Package} (hv : verifyPackage s model x.bytes = .ok k) :
    exec (.packageVerificationDone model) s = .next ((writePackage s k).putLoad { x with ready := some k }) := by
  show execPackageVerificationDone model s = _
  unfold execPackageVerificationDone
  rw [hx]
  dsimp only
  rw [if_neg (by simp [hall, hready]), hv]
end

/-- Settles O40: the load that is held, dropped or kept for the boundary, and the model that is removed. -/
theorem packagesLoadAndUnload : Obligations.PackagesLoadAndUnload := by
  refine ⟨fun s p d h ht hr hfit hop h1 h2 hoff hmore hload hmodel hroom => ?first, fun s model r x hx hall hready hv => ?failed,
    fun s model x k hx hall hready hv => ?passed, fun s p d m h ht hr hfit hop hlen hforce hm hfree => ?unload⟩
  case first =>
    obtain ⟨q, hq, hfit'⟩ := h.peer
    rw [exec_loadPackage h hr hop ht, handleLoad_first h1 h2 hoff hmore hload hmodel hroom]
    refine ⟨_, rfl, ((answer_mails ..).load? _).trans (State.load?_putLoad _ (firstLoad p.id d.body)), ?_⟩
    exact answer_sends (t := (s.heard p d).putLoad (firstLoad p.id d.body)) hq (hfit' hfit) rfl rfl 9 _
  case failed =>
    have hmails := answer_mails (recordEvent (s.dropLoad model) 0x0708 0 model r (x.bytes.length % 2 ^ 32)) x.peer 9
    have hclient := recordEvent_client (s.dropLoad model) 0x0708 0 model r (x.bytes.length % 2 ^ 32)
    refine ⟨_, exec_packageVerificationDone_failed hx hall hready hv, ((hmails _).load? _).trans ?_, (hmails _).models.trans ?_,
      State.Records.congr recordEvent_recordsFor (hmails _).evt⟩
    · unfold State.load?
      rw [hclient]
      exact s.load?_dropLoad model
    · rw [hclient]
      rfl
  case passed =>
    obtain rfl := State.load?_model hx
    exact ⟨_, exec_packageVerificationDone_passed hx hall hready hv, State.load?_putLoad _ { x with ready := some k }⟩
  case unload =>
    obtain ⟨q, hq, hfit'⟩ := h.peer
    rw [exec_unloadPackage h hr hop ht, handleUnload_unused hlen hforce hm hfree]
    have hclient := recordEvent_client ((s.heard p d).dropModel (beAt d.body 0 4)) 0x0709 0 (beAt d.body 0 4) 0 0
    refine ⟨_, rfl, ((answer_mails ..).model? _).trans ?_, State.Records.congr recordEvent_recordsFor (answer_mails ..).evt,
      answer_sends hq (hfit' hfit) (congrArg Client.peers hclient :) (recordEvent_reg _ _ _ _ _ _ (by decide)) 10 _⟩
    unfold State.model?
    rw [hclient]
    exact (s.heard p d).model?_dropModel _

end Sys2Proof.Machine

namespace Sys2Proof.Machine

/-! ## The registers of the fabric (12 Table 12.3) -/

/-- The registers of the fabric are none that an event writes. -/
theorem fabReg_notMem_eventRegs {a : Nat} (h : 0x80000 ≤ a ∧ a < 0x90000) : a ∉ eventRegs := by
  simp only [eventRegs, Reg.EVT_LOST, Reg.BST_ERR_OVERFLOWS, Reg.BST_ERR_STATUS, List.mem_cons, List.not_mem_nil, or_false, not_or]
  omega

/-- A list of updates that each leave one state as it is leave it so. -/
theorem foldl_stays {α : Type} {g : State → α → State} {s : State} {l : List α} (h : ∀ a ∈ l, g s a = s) : l.foldl g s = s := by
  induction l with
  | nil => rfl
  | cons a l ih =>
    rw [List.foldl_cons, h a (List.mem_cons_self ..)]
    exact ih fun b hb => h b (List.mem_cons_of_mem _ hb)

/-- A list of messages sent in order. -/
def State.emits (s : State) (l : List Output) : State := { s with out := s.out ++ l }

@[simp] theorem State.emits_nil (s : State) : s.emits [] = s := congrArg (fun o => { s with out := o }) (List.append_nil _)

@[simp] theorem State.emits_regs (s : State) (l : List Output) : (s.emits l).regs = s.regs := rfl
@[simp] theorem State.emits_fab (s : State) (l : List Output) : (s.emits l).fab = s.fab := rfl
@[simp] theorem State.emits_evt (s : State) (l : List Output) : (s.emits l).evt = s.evt := rfl
@[simp] theorem State.emits_ensState (s : State) (l : List Output) (e : Nat) : (s.emits l).ensState e = s.ensState e := rfl
@[simp] theorem State.emits_ensSlot (s : State) (l : List Output) (e : Nat) : (s.emits l).ensSlot e = s.ensSlot e := rfl
@[simp] theorem State.emits_out (s : State) (l : List Output) : (s.emits l).out = s.out ++ l := rfl

/-- Updates that each only send something send it all. -/
theorem foldl_emits {α : Type} {f : State → α → List Output} (hf : ∀ s o a, f { s with out := o } a = f s a) (l : List α) (s : State) :
    l.foldl (fun s a => s.emits (f s a)) s = s.emits (l.flatMap (f s)) := by
  induction l generalizing s with
  | nil => exact s.emits_nil.symm
  | cons a l ih =>
    have hrest : f (s.emits (f s a)) = f s := funext (hf s _)
    rw [List.foldl_cons, ih, hrest, List.flatMap_cons]
    unfold State.emits
    rw [List.append_assoc]

end Sys2Proof.Machine

namespace Sys2Proof.Machine

/-! ## What an update leaves of an ensemble (12 R384) -/

/-- A slot keeps its ensemble, whatever its state: its number, its model, its reservation and its members are as before. -/
structure State.SameEns (s t : State) (e : Nat) : Prop where
  ctrl : ∀ hi lo, 2 < lo → t.fld (ensReg Reg.FAB_ENS_CTRL e) hi lo = s.fld (ensReg Reg.FAB_ENS_CTRL e) hi lo
  regs : ∀ a, ensReg Reg.FAB_ENS_MODEL e ≤ a → a < ensReg Reg.FAB_ENS_MEMBER e + 64 → a ≠ ensReg Reg.FAB_ENS_LEADER e → t.reg a = s.reg a

/-- What a leader asks of the members of a slot's ensemble. -/
def State.formRequest (s : State) (e : Nat) : Ctrl := .ensForm (s.ensId e) (s.ensModel e)
  (s.fld (ensReg Reg.FAB_ENS_RESERVE e) 6 0) (s.fld (ensReg Reg.FAB_ENS_RESERVE e) 26 16) (s.ensMembers e)

theorem ensLeader_reg (e : Nat) : ensReg Reg.FAB_ENS_LEADER e = ensReg Reg.FAB_ENS_CTRL e + 3 := by
  unfold ensReg Reg.FAB_ENS_LEADER Reg.FAB_ENS_CTRL
  omega

theorem ensMember_reg (e : Nat) : ensReg Reg.FAB_ENS_MEMBER e = ensReg Reg.FAB_ENS_CTRL e + 8 := by
  unfold ensReg Reg.FAB_ENS_MEMBER Reg.FAB_ENS_CTRL
  omega

theorem ensModel_reg (e : Nat) : ensReg Reg.FAB_ENS_MODEL e = ensReg Reg.FAB_ENS_CTRL e + 1 := by
  unfold ensReg Reg.FAB_ENS_MODEL Reg.FAB_ENS_CTRL
  omega

theorem ensReserve_reg (e : Nat) : ensReg Reg.FAB_ENS_RESERVE e = ensReg Reg.FAB_ENS_CTRL e + 2 := by
  unfold ensReg Reg.FAB_ENS_RESERVE Reg.FAB_ENS_CTRL
  omega


/-- The registers of a slot lie among those of the fabric. -/
theorem ensCtrl_bounds {e : Nat} (he : e < 8) : 0x80100 ≤ ensReg Reg.FAB_ENS_CTRL e ∧ ensReg Reg.FAB_ENS_CTRL e < 0x80300 := by
  unfold ensReg Reg.FAB_ENS_CTRL
  omega

namespace State.SameEns
variable {s t u : State} {e : Nat}

theorem refl (s : State) (e : Nat) : s.SameEns s e := ⟨fun _ _ _ => rfl, fun _ _ _ _ => rfl⟩

theorem trans (h : s.SameEns t e) (k : t.SameEns u e) : s.SameEns u e :=
  ⟨fun hi lo hlo => (k.ctrl hi lo hlo).trans (h.ctrl hi lo hlo), fun a h1 h2 h3 => (k.regs a h1 h2 h3).trans (h.regs a h1 h2 h3)⟩

theorem setEnsState (h : s.SameEns t e) (v : Nat) : s.SameEns (t.setEnsState e v) e := by
  refine h.trans ⟨fun hi lo hlo => t.fld_setFld_disjoint _ v (by decide) (by decide) (.inr hlo), fun a ha _ _ => t.reg_setFld_ne _ _ _ ?_⟩
  rw [ensModel_reg] at ha
  omega

theorem setLeader (h : s.SameEns t e) (v : Nat) : s.SameEns (t.setFld (ensReg Reg.FAB_ENS_LEADER e) 13 0 v) e := by
  refine h.trans ⟨fun hi lo _ => t.fld_setFld_ne _ _ _ _ _ ?_, fun a _ _ ha => t.reg_setFld_ne _ _ _ ha⟩
  rw [ensLeader_reg]
  omega

theorem setEnsSlot (h : s.SameEns t e) (x : EnsSlot) : s.SameEns (t.setEnsSlot e x) e := h.trans ⟨fun _ _ _ => rfl, fun _ _ _ _ => rfl⟩

theorem recordEvent (h : s.SameEns t e) (he : e < 8) (code source p0 p1 p2 : Nat) : s.SameEns (recordEvent t code source p0 p1 p2) e := by
  have hb := ensCtrl_bounds he
  refine h.trans ⟨fun hi lo _ => recordEvent_fld _ _ _ _ _ _ _ _ (ensCtrl_notMem_eventRegs he), fun a h1 h2 _ =>
    recordEvent_reg _ _ _ _ _ _ (fabReg_notMem_eventRegs ?_)⟩
  rw [ensModel_reg] at h1
  rw [ensMember_reg] at h2
  omega

variable (h : s.SameEns t e)
include h

theorem ensId : t.ensId e = s.ensId e := h.ctrl 23 16 (by decide)

theorem ensModel : t.ensModel e = s.ensModel e := congrArg BitVec.toNat
  (h.regs _ (Nat.le_refl _) (by rw [ensModel_reg, ensMember_reg]; omega) (by rw [ensModel_reg, ensLeader_reg]; omega))

theorem reserve (hi lo : Nat) : t.fld (ensReg Reg.FAB_ENS_RESERVE e) hi lo = s.fld (ensReg Reg.FAB_ENS_RESERVE e) hi lo :=
  congrArg (getBits · hi lo) (h.regs _ (by rw [ensModel_reg, ensReserve_reg]; omega) (by rw [ensReserve_reg, ensMember_reg]; omega)
    (by rw [ensReserve_reg, ensLeader_reg]; omega))

theorem ensMembers : t.ensMembers e = s.ensMembers e := by
  unfold State.ensMembers
  rw [h.ctrl 14 8 (by decide)]
  refine List.map_congr_left fun i hi => congrArg (getBits · _ _) (h.regs _ ?_ ?_ ?_)
  · rw [ensModel_reg, ensMember_reg]
    omega
  · have hcount : s.fld (ensReg Reg.FAB_ENS_CTRL e) 14 8 < 128 := getBits_lt _ 14 8
    have hi := List.mem_range.1 hi
    omega
  · rw [ensMember_reg, ensLeader_reg]
    omega

theorem formRequest : t.formRequest e = s.formRequest e := by
  unfold State.formRequest
  rw [h.ensId, h.ensModel, h.reserve, h.reserve, h.ensMembers]

end State.SameEns

theorem State.ensState_setEnsState (s : State) (e : Nat) {v : Nat} (hv : v < 8) : (s.setEnsState e v).ensState e = v :=
  (s.fld_setFld_same _ v (by decide) (by decide)).trans (Nat.mod_eq_of_lt hv)

theorem State.ensSlot_setEnsSlot (s : State) (e : Nat) (x : EnsSlot) : (s.setEnsSlot e x).ensSlot e = x := SMap.getD_put_same ..

theorem recordEvent_ensState (s : State) (code source p0 p1 p2 : Nat) {e : Nat} (he : e < 8) :
    (recordEvent s code source p0 p1 p2).ensState e = s.ensState e := recordEvent_fld _ _ _ _ _ _ _ _ (ensCtrl_notMem_eventRegs he)

/-- A slot found among the eight is in one of the states sought. -/
theorem State.slotOf_some {s : State} {states : List Nat} {p : Nat → Bool} {e : Nat} (h : s.slotOf states p = some e) :
    e < 8 ∧ s.ensState e ∈ states ∧ p e = true := by
  have hp := List.find?_some h
  rw [Bool.and_eq_true, List.contains_iff_mem] at hp
  exact ⟨List.mem_range.1 (List.mem_of_find?_eq_some h), hp⟩

/-! ## A formation fails (12 R384) -/

theorem failForm_ensState (s : State) {e : Nat} (he : e < 8) (member reason : Nat) : (failForm s e member reason).ensState e = esFailed :=
  (recordEvent_ensState _ _ _ _ _ _ he).trans (s.ensState_setEnsState e (by decide))

theorem failForm_regsFrame (s : State) (e member reason : Nat) :
    s.RegsFrame (failForm s e member reason) ([ensReg Reg.FAB_ENS_CTRL e] ++ eventRegs) :=
  ((s.setFld_regsOnly (ensReg Reg.FAB_ENS_CTRL e) 2 0 esFailed).1.mono (by simp)).trans (recordEvent_frame _ _ _ _ _ _ _).1

theorem failForm_records (s : State) (e member reason : Nat) :
    s.Records (failForm s e member reason) (s.record 0x080B 0 (s.ensId e) member reason) := recordEvent_recordsFor

end Sys2Proof.Machine

namespace Sys2Proof.Machine

/-! ## FORM (12 R384) -/

/-- The slot of an ensemble that its leader forms, before it asks the members. -/
def State.forming (s : State) (slot : Nat) : State :=
  ((s.setEnsState slot esForming).setFld (ensReg Reg.FAB_ENS_LEADER slot) 13 0 s.fabAddr).setEnsSlot slot EnsSlot.init

section
variable (s : State) (slot : Nat)

theorem State.forming_sameEns : s.SameEns (s.forming slot) slot := (((SameEns.refl s slot).setEnsState _).setLeader _).setEnsSlot _

theorem State.forming_ensState : (s.forming slot).ensState slot = esForming := by
  refine (State.fld_setFld_ne _ _ _ _ _ _ ?_).trans (s.ensState_setEnsState slot (by decide))
  rw [ensLeader_reg]
  omega

theorem State.forming_ensLeader : (s.forming slot).ensLeader slot = s.fabAddr :=
  (State.fld_setFld_same _ _ _ (by decide) (by decide)).trans (Nat.mod_eq_of_lt (getBits_lt _ 13 0))

theorem State.forming_fabAddr : (s.forming slot).fabAddr = s.fabAddr := by
  have hctrl : Reg.FAB_ADDR < ensReg Reg.FAB_ENS_CTRL slot := Nat.lt_add_right _ (by decide)
  refine (State.fld_setFld_ne _ _ _ _ _ _ ?_).trans (State.fld_setFld_ne _ _ _ _ _ _ (Nat.ne_of_lt hctrl))
  rw [ensLeader_reg]
  omega

theorem State.forming_model? : (s.forming slot).model? ((s.forming slot).ensModel slot) = s.model? (s.ensModel slot) := by
  rw [(s.forming_sameEns slot).ensModel]
  rfl

end

section
variable {s : State} {slot : Nat} (hslot : slot < 8)
  (hst : s.ensState slot = esFree ∨ s.ensState slot = esBroken ∨ s.ensState slot = esFailed)
include hslot hst

theorem formEns_unloaded (hm : s.model? (s.ensModel slot) = none) : formEns s slot = failForm (s.forming slot) slot s.fabAddr 1 := by
  have hin : s.ensState slot ∈ [esFree, esBroken, esFailed] := by simpa using hst
  unfold formEns
  rw [if_neg (by rw [List.contains_iff_mem.2 hin]; simpa using hslot)]
  extract_lets s1 s2 r
  rw [show s2.model? (s2.ensModel slot) = none from (s.forming_model? slot).trans hm]
  exact congrArg (failForm (s.forming slot) slot · 1) (s.forming_fabAddr slot)

theorem formEns_asks {m : Model} (hm : s.model? (s.ensModel slot) = some m) (hrun : m.paused = false) : formEns s slot =
    (s.forming slot).emits ((s.ensMembers slot).map (fun a => .ctrl none a (s.formRequest slot))) := by
  have hin : s.ensState slot ∈ [esFree, esBroken, esFailed] := by simpa using hst
  have hsame := s.forming_sameEns slot
  unfold formEns
  rw [if_neg (by rw [List.contains_iff_mem.2 hin]; simpa using hslot)]
  extract_lets s1 s2 r
  rw [show s2.model? (s2.ensModel slot) = some m from (s.forming_model? slot).trans hm]
  dsimp only
  rw [if_neg (by simp [hrun])]
  refine (foldl_sendCtrl (f := fun s _ => s.formRequest slot) (fun _ _ _ => rfl) _ s2).trans ?_
  rw [show s2.formRequest slot = s.formRequest slot from hsame.formRequest, show s2.ensMembers slot = s.ensMembers slot from hsame.ensMembers]
  rfl

end

end Sys2Proof.Machine

namespace Sys2Proof.Machine

/-! ## ENS_FORM (12 R384) -/

/-- The bits of a member register that hold the member of a number: two to a register, the even one below. -/
def memberHi (i : Nat) : Nat := if i % 2 = 0 then 13 else 29
def memberLo (i : Nat) : Nat := if i % 2 = 0 then 0 else 16

/-- A member's address in a slot. -/
def State.ensMember (s : State) (e i : Nat) : Nat := s.fld (ensReg Reg.FAB_ENS_MEMBER e + i / 2) (memberHi i) (memberLo i)

def State.setEnsMember (s : State) (e i v : Nat) : State := s.setFld (ensReg Reg.FAB_ENS_MEMBER e + i / 2) (memberHi i) (memberLo i) v

theorem State.ensMembers_eq (s : State) (e : Nat) :
    s.ensMembers e = (List.range (s.fld (ensReg Reg.FAB_ENS_CTRL e) 14 8)).map (s.ensMember e) := rfl

theorem State.ensMember_setEnsMember (s : State) (e i v j : Nat) :
    (s.setEnsMember e i v).ensMember e j = if j = i then v % 2 ^ 14 else s.ensMember e j := by
  unfold State.ensMember State.setEnsMember
  by_cases hreg : j / 2 = i / 2
  · rw [hreg]
    by_cases hj : j = i
    · subst hj
      unfold memberHi memberLo
      rw [if_pos rfl]
      split
      · exact s.fld_setFld_same _ v (by decide) (by decide)
      · exact s.fld_setFld_same _ v (by decide) (by decide)
    · rw [if_neg hj]
      unfold memberHi memberLo
      by_cases hi : i % 2 = 0
      · rw [if_pos hi, if_pos hi, if_neg (by omega), if_neg (by omega)]
        exact s.fld_setFld_disjoint _ v (by decide) (by decide) (.inr (by decide))
      · rw [if_neg hi, if_neg hi, if_pos (by omega), if_pos (by omega)]
        exact s.fld_setFld_disjoint _ v (by decide) (by decide) (.inl (by decide))
  · rw [if_neg (by omega)]
    exact s.fld_setFld_ne _ _ _ _ _ (by omega)

/-- The members of a slot written from a number on. -/
def State.setEnsMembers (s : State) (e : Nat) (l : List Nat) (k : Nat) : State :=
  (l.zipIdx k).foldl (fun s x => s.setEnsMember e x.2 x.1) s

theorem State.setEnsMembers_cons (s : State) (e a : Nat) (l : List Nat) (k : Nat) :
    s.setEnsMembers e (a :: l) k = (s.setEnsMember e k a).setEnsMembers e l (k + 1) := rfl

/-- The registers below a slot's members stay. -/
theorem State.reg_setEnsMembers (e : Nat) (l : List Nat) (k : Nat) (s : State) {a : Nat} (h : a < ensReg Reg.FAB_ENS_MEMBER e) :
    (s.setEnsMembers e l k).reg a = s.reg a := by
  induction l generalizing s k with
  | nil => rfl
  | cons b l ih =>
    rw [State.setEnsMembers_cons, ih]
    exact s.reg_setFld_ne _ _ _ (by omega)

theorem State.setEnsMembers_out (e : Nat) (l : List Nat) (k : Nat) (s : State) : (s.setEnsMembers e l k).out = s.out := by
  induction l generalizing s k with
  | nil => rfl
  | cons b l ih => exact (ih (k + 1) (s.setEnsMember e k b)).trans (s.setFld_out ..)

theorem State.ensMember_setEnsMembers (e : Nat) (l : List Nat) (k : Nat) (s : State) :
    (∀ i (hi : i < l.length), (s.setEnsMembers e l k).ensMember e (k + i) = l[i] % 2 ^ 14) ∧
      ∀ j, j < k → (s.setEnsMembers e l k).ensMember e j = s.ensMember e j := by
  induction l generalizing s k with
  | nil => exact ⟨fun i hi => absurd hi (Nat.not_lt_zero i), fun _ _ => rfl⟩
  | cons a l ih =>
    obtain ⟨hin, hbelow⟩ := ih (k + 1) (s.setEnsMember e k a)
    rw [State.setEnsMembers_cons]
    refine ⟨fun i hi => ?_, fun j hj => ?_⟩
    · cases i with
      | zero =>
        refine (hbelow k (Nat.lt_succ_self k)).trans ?_
        rw [State.ensMember_setEnsMember, if_pos rfl]
        rfl
      | succ i =>
        have h := hin i (Nat.lt_of_succ_lt_succ hi)
        rw [Nat.add_right_comm] at h
        exact h
    · rw [hbelow j (by omega), State.ensMember_setEnsMember, if_neg (by omega)]

/-- The control word of a member's slot. -/
def memberCtrl (ensId count : Nat) : Word := BitVec.ofNat 32 (ensId % 256 * 65536 + count % 128 * 256 + esMember)

theorem memberCtrl_bits (ensId count : Nat) : getBits (memberCtrl ensId count) 2 0 = esMember ∧
    getBits (memberCtrl ensId count) 23 16 = ensId % 256 ∧ getBits (memberCtrl ensId count) 14 8 = count % 128 := by
  unfold memberCtrl getBits esMember
  simp only [BitVec.toNat_ofNat, Nat.shiftRight_eq_div_pow]
  omega

/-- A slot's registers as a member takes them, but for the members. -/
def State.slotHead (s : State) (e src ensId model time power count : Nat) : State :=
  (((s.setReg (ensReg Reg.FAB_ENS_CTRL e) (memberCtrl ensId count)).setReg (ensReg Reg.FAB_ENS_MODEL e) (BitVec.ofNat 32 model)).setReg
    (ensReg Reg.FAB_ENS_RESERVE e) (BitVec.ofNat 32 (power % 2048 * 65536 + time % 128))).setFld (ensReg Reg.FAB_ENS_LEADER e) 13 0 src

theorem takeSlot_eq (s : State) (e src ensId model time power : Nat) (members : List Nat) : takeSlot s e src ensId model time power members =
    (s.slotHead e src ensId model time power members.length).setEnsMembers e members 0 := rfl

section
variable (s : State) (e src ensId model time power : Nat) (members : List Nat)

theorem takeSlot_out : (takeSlot s e src ensId model time power members).out = s.out := by
  rw [takeSlot_eq, State.setEnsMembers_out, State.slotHead, State.setFld_out, State.setReg_out, State.setReg_out, State.setReg_out]

theorem takeSlot_ctrl : (takeSlot s e src ensId model time power members).reg (ensReg Reg.FAB_ENS_CTRL e) = memberCtrl ensId members.length := by
  rw [takeSlot_eq, State.reg_setEnsMembers _ _ _ _ (by rw [ensMember_reg]; omega)]
  unfold State.slotHead
  rw [State.reg_setFld_ne _ _ _ _ (by rw [ensLeader_reg]; omega), State.reg_setReg_ne _ _ (by rw [ensReserve_reg]; omega),
    State.reg_setReg_ne _ _ (by rw [ensModel_reg]; omega), State.reg_setReg_same]

theorem takeSlot_ensState : (takeSlot s e src ensId model time power members).ensState e = esMember :=
  (congrArg (getBits · 2 0) (takeSlot_ctrl ..)).trans (memberCtrl_bits ..).1

theorem takeSlot_ensId : (takeSlot s e src ensId model time power members).ensId e = ensId % 256 :=
  (congrArg (getBits · 23 16) (takeSlot_ctrl ..)).trans (memberCtrl_bits ..).2.1

theorem takeSlot_ensModel : (takeSlot s e src ensId model time power members).ensModel e = model % 2 ^ 32 := by
  unfold State.ensModel
  rw [takeSlot_eq, State.reg_setEnsMembers _ _ _ _ (by rw [ensMember_reg, ensModel_reg]; omega)]
  unfold State.slotHead
  rw [State.reg_setFld_ne _ _ _ _ (by rw [ensLeader_reg, ensModel_reg]; omega),
    State.reg_setReg_ne _ _ (by rw [ensReserve_reg, ensModel_reg]; omega), State.reg_setReg_same, BitVec.toNat_ofNat]

theorem takeSlot_ensLeader : (takeSlot s e src ensId model time power members).ensLeader e = src % 2 ^ 14 := by
  unfold State.ensLeader State.fld
  rw [takeSlot_eq, State.reg_setEnsMembers _ _ _ _ (by rw [ensMember_reg, ensLeader_reg]; omega)]
  exact State.fld_setFld_same _ _ _ (by decide) (by decide)

theorem takeSlot_ensMembers (hlen : members.length ≤ 64) (hmem : ∀ a ∈ members, a < 2 ^ 14) :
    (takeSlot s e src ensId model time power members).ensMembers e = members := by
  have hcount : (takeSlot s e src ensId model time power members).fld (ensReg Reg.FAB_ENS_CTRL e) 14 8 = members.length :=
    (congrArg (getBits · 14 8) (takeSlot_ctrl ..)).trans ((memberCtrl_bits ..).2.2.trans (Nat.mod_eq_of_lt (by omega)))
  rw [State.ensMembers_eq, hcount]
  refine List.ext_getElem (by simp) fun i _ hi => ?_
  have hread := (State.ensMember_setEnsMembers e members 0 (s.slotHead e src ensId model time power members.length)).1 i hi
  rw [List.getElem_map, List.getElem_range, takeSlot_eq]
  rw [Nat.zero_add] at hread
  rw [hread, Nat.mod_eq_of_lt (hmem _ (List.getElem_mem hi))]

end

section
variable {s : State} {ensId : Nat} (src model time power : Nat) (members : List Nat)

theorem execEnsForm_slotted {e : Nat} (h : s.formSlot ensId = some e) : execEnsForm src ensId model time power members s =
    .next (if s.joinRefusal src model time power (some e) = 0 then
      sendCtrl ((takeSlot s e src ensId model time power members).setEnsSlot e
        { EnsSlot.init with beats := SMap.put [] src (takeSlot s e src ensId model time power members).now, toLeader := true })
        none src (.ensJoin ensId 0)
    else sendCtrl s none src (.ensJoin ensId (s.joinRefusal src model time power (some e)))) := by
  unfold execEnsForm
  extract_lets same free r
  have hr : r = s.joinRefusal src model time power free := rfl
  have hfree : free = some e := h
  clear_value r free
  subst hr hfree
  dsimp only
  split
  · rfl
  · rfl

theorem execEnsForm_unslotted (h : s.formSlot ensId = none) : execEnsForm src ensId model time power members s =
    .next (sendCtrl s none src (.ensJoin ensId (s.joinRefusal src model time power none))) := by
  unfold execEnsForm
  extract_lets same free r
  have hr : r = s.joinRefusal src model time power free := rfl
  have hfree : free = none := h
  clear_value r free
  subst hr hfree
  rfl

end

/-- Without a slot for it no formation is accepted (12 R384). -/
theorem joinRefusal_unslotted (s : State) (src model time power : Nat) : s.joinRefusal src model time power none ≠ 0 := by
  unfold State.joinRefusal
  split
  · decide
  · extract_lets n rounds tiles b fits
    split
    · decide
    · split
      · decide
      · split
        · decide
        · exact nofun

/-! ## ENS_JOIN (12 R384) -/

/-- A slot with one acceptance more. -/
def State.acceptedBy (s : State) (e src : Nat) : EnsSlot :=
  let x := s.ensSlot e
  let acc := if x.accepted.contains src then x.accepted else x.accepted ++ [src]
  { x with accepted := acc, beats := SMap.put x.beats src s.now, toLeader := (s.ensMembers e).all acc.contains }

theorem State.mem_acceptedBy {s : State} {e src a : Nat} : a ∈ (s.acceptedBy e src).accepted ↔ a = src ∨ a ∈ (s.ensSlot e).accepted := by
  unfold State.acceptedBy
  dsimp only
  split
  next h =>
    have hsrc := List.contains_iff_mem.1 h
    exact ⟨.inr, fun ha => ha.elim (fun he => he ▸ hsrc) id⟩
  next => rw [List.mem_append, List.mem_singleton, or_comm]

theorem State.acceptedBy_toLeader {s : State} {e src : Nat} :
    (s.acceptedBy e src).toLeader = true ↔ ∀ a ∈ s.ensMembers e, a = src ∨ a ∈ (s.ensSlot e).accepted := by
  have hall : (s.acceptedBy e src).toLeader = (s.ensMembers e).all (s.acceptedBy e src).accepted.contains := rfl
  rw [hall, List.all_eq_true]
  exact forall₂_congr fun a _ => List.contains_iff_mem.trans State.mem_acceptedBy

theorem execEnsJoin_joined {s : State} {src ensId e : Nat} (reason : Nat)
    (h : s.slotOf [esForming] (fun e => decide (s.ensId e = ensId) && (s.ensMembers e).contains src) = some e) :
    execEnsJoin src ensId reason s = .next (if reason ≠ 0 then failForm s e src reason else s.setEnsSlot e (s.acceptedBy e src)) := by
  unfold execEnsJoin
  rw [h]
  dsimp only
  split
  · rfl
  · rfl

theorem execEnsFormTimeout_silent {s : State} {slot a : Nat} (hslot : slot < 8) (hst : s.ensState slot = esForming)
    (hnew : (s.ensSlot slot).toLeader = false) (ha : (s.ensMembers slot).find? (fun a => !(s.ensSlot slot).accepted.contains a) = some a) :
    execEnsFormTimeout slot s = .next (failForm s slot a 0) := by
  unfold execEnsFormTimeout
  rw [if_pos ⟨hst, hslot, by rw [hnew]; rfl⟩, ha]
  rfl

/-- Settles O49: each clause is what one message does to the slot, and a slot's registers read as its leader or member wrote them. -/
theorem ensemblesForm : Obligations.EnsemblesForm := by
  unfold Obligations.EnsemblesForm
  refine ⟨?asks, ?unloaded, ?answers, ?unslotted, ?accepts, ?refused, ?silent⟩
  case asks =>
    intro s slot m hslot hst hm hrun
    have hex : exec (.ensCtrlForm slot) s = .next (formEns s slot) := rfl
    rw [formEns_asks hslot hst hm hrun] at hex
    exact ⟨_, hex, s.forming_ensState slot, s.forming_ensLeader slot, rfl⟩
  case unloaded =>
    intro s slot hslot hst hm
    have hex : exec (.ensCtrlForm slot) s = .next (formEns s slot) := rfl
    rw [formEns_unloaded hslot hst hm] at hex
    have hrec := failForm_records (s.forming slot) slot s.fabAddr 1
    rw [(s.forming_sameEns slot).ensId] at hrec
    exact ⟨_, hex, failForm_ensState _ hslot _ _, State.records_congr rfl rfl rfl rfl hrec⟩
  case answers =>
    intro s src ensId model time power e members hslot hlen hmem
    have hex := execEnsForm_slotted src model time power members hslot
    by_cases hr : s.joinRefusal src model time power (some e) = 0
    · rw [if_pos hr] at hex
      refine ⟨_, hex, fun _ => ⟨takeSlot_ensState .., takeSlot_ensId .., takeSlot_ensLeader .., takeSlot_ensModel ..,
        takeSlot_ensMembers s e src ensId model time power members hlen hmem, ?_, ?_⟩, fun h => absurd hr h⟩
      · exact congrArg EnsSlot.toLeader (State.ensSlot_setEnsSlot _ e _)
      · exact congrArg (· ++ _) (takeSlot_out ..)
    · rw [if_neg hr] at hex
      exact ⟨_, hex, fun h => absurd h hr, fun _ => rfl⟩
  case unslotted =>
    intro s src ensId model time power members hslot
    exact ⟨joinRefusal_unslotted s src model time power, execEnsForm_unslotted src model time power members hslot⟩
  case accepts =>
    intro s src ensId e h
    have hex := execEnsJoin_joined 0 h
    rw [if_neg (by decide)] at hex
    have hslot := s.ensSlot_setEnsSlot e (s.acceptedBy e src)
    refine ⟨_, hex, ?_, fun a ha => ?_, ?_, rfl, rfl⟩
    · rw [hslot]
      exact State.mem_acceptedBy.2 (.inl rfl)
    · rw [hslot]
      exact State.mem_acceptedBy.2 (.inr ha)
    · rw [hslot]
      exact State.acceptedBy_toLeader
  case refused =>
    intro s src ensId e reason hr h
    have hex := execEnsJoin_joined reason h
    rw [if_pos hr] at hex
    exact ⟨_, hex, failForm_ensState s (State.slotOf_some h).1 src reason, failForm_records s e src reason, failForm_regsFrame s e src reason⟩
  case silent =>
    intro s slot a hslot hst hnew ha
    exact ⟨_, execEnsFormTimeout_silent hslot hst hnew ha, failForm_ensState s hslot a 0, failForm_records s slot a 0,
      failForm_regsFrame s slot a 0⟩

end Sys2Proof.Machine

namespace Sys2Proof.Machine

/-! ## An ensemble ends (12 R387) -/

/-- A slot BROKEN, before the members hear of it. -/
def State.broken (s : State) (e cause member : Nat) : State :=
  recordEvent ((s.setEnsState e esBroken).setEnsSlot e { s.ensSlot e with release := true, toLeader := false }) 0x080A 0 (s.ensId e) cause member

section
variable (s : State) {e : Nat} (he : e < 8) (cause member : Nat)

theorem State.broken_release : ((s.broken e cause member).ensSlot e).release = true := by
  unfold State.ensSlot State.broken
  rw [recordEvent_fab]
  exact congrArg EnsSlot.release (State.ensSlot_setEnsSlot _ e _)

theorem State.broken_shows : s.Shows (s.broken e cause member) (s.record 0x080A 0 (s.ensId e) cause member) :=
  (recordEvent_recordsFor (s := s)).shows

include he

theorem State.broken_sameEns : s.SameEns (s.broken e cause member) e := (((SameEns.refl s e).setEnsState _).setEnsSlot _).recordEvent he ..

theorem State.broken_ensState : (s.broken e cause member).ensState e = esBroken :=
  (recordEvent_ensState _ _ _ _ _ _ he).trans (s.ensState_setEnsState e (by decide))

end

/-- What a leader tells the members of an ensemble that ends; a member tells nobody. -/
def State.endNotices (s : State) (e cause : Nat) : List Output :=
  if s.ensState e = esMember then [] else (s.ensMembers e).map (fun a => .ctrl none a (.ensEnd (s.ensId e) cause))

/-- An ensemble whose model no session uses ends with its notices (12 R387). -/
theorem breakEns_unused {s : State} {e : Nat} (he : e < 8)
    (hst : s.ensState e = esForming ∨ s.ensState e = esLeader ∨ s.ensState e = esMember)
    (hfree : ∀ x ∈ s.client.sessions, x.model ≠ s.ensModel e) (cause member : Nat) :
    breakEns s e cause member = (s.broken e cause member).emits (s.endNotices e cause) := by
  have hsame := s.broken_sameEns he cause member
  have hid : (s.setEnsState e esBroken).ensId e = s.ensId e := ((State.SameEns.refl s e).setEnsState esBroken).ensId
  have hnone : s.client.sessions.filter (fun x => decide (x.model = s.ensModel e)) = [] :=
    List.filter_eq_nil_iff.2 fun x hx => by simpa using hfree x hx
  have hsessions : (s.broken e cause member).client.sessions = s.client.sessions := congrArg Client.sessions (recordEvent_client ..)
  unfold breakEns
  extract_lets st model slot s1 s2 s3
  have hs2 : s2 = s.broken e cause member := congrArg (recordEvent s1 0x080A 0 · cause member) hid
  have hs3 : s3 = (s.broken e cause member).emits ((s.ensMembers e).map (fun a => .ctrl none a (.ensEnd (s.ensId e) cause))) := by
    unfold s3
    rw [foldl_sendCtrl (f := fun s _ => .ensEnd (s.ensId e) cause) (fun _ _ _ => rfl), hs2, hsame.ensId, hsame.ensMembers]
    rfl
  rw [if_neg (by rcases hst with h | h | h <;> simp [st, h])]
  unfold State.endNotices
  split
  next => rw [hs2, State.emits_nil]
  next =>
    have hnobody : s3.client.sessions.filter (fun x => decide (x.model = model)) = [] := by
      rw [hs3]
      exact (congrArg (List.filter _) hsessions).trans hnone
    rw [hnobody]
    exact hs3

theorem breakEns_ended {s : State} {e : Nat} (he : e < 8)
    (hst : s.ensState e = esForming ∨ s.ensState e = esLeader ∨ s.ensState e = esMember)
    (hfree : ∀ x ∈ s.client.sessions, x.model ≠ s.ensModel e) (cause member : Nat) :
    s.EnsembleEnded (breakEns s e cause member) e cause member := by
  rw [breakEns_unused he hst hfree]
  have hout : ((s.broken e cause member).emits (s.endNotices e cause)).out = s.out ++ s.endNotices e cause :=
    congrArg (· ++ s.endNotices e cause) (recordEvent_out ..)
  refine ⟨?_, ?_, fun hroom => ?_, fun hlead a ha => ?_⟩
  · rw [State.emits_ensState, s.broken_ensState he]
  · rw [State.emits_ensSlot, s.broken_release]
  · rw [State.emits_evt]
    exact s.broken_shows cause member hroom
  · rw [hout, State.endNotices, if_neg hlead]
    exact List.mem_append_right _ (List.mem_map_of_mem ha)

/-! ## Beats (12 R386) -/

/-- A slot that has heard a beat. -/
def State.beaten (s : State) (e src time echoed : Nat) : EnsSlot :=
  { s.ensSlot e with
    beats := SMap.put (s.ensSlot e).beats src s.now
    times := SMap.put (s.ensSlot e).times src time
    roundTrip := if echoed = 0 then (s.ensSlot e).roundTrip else some (s.calendar - echoed) }

theorem execEnsBeat_heard {s : State} {src ensId e : Nat} (h : s.slotWith [esForming, esLeader, esMember] ensId src = some e)
    (time echoed : Nat) : execEnsBeat src ensId time echoed s = .next (s.setEnsSlot e (s.beaten e src time echoed)) := by
  unfold State.slotWith at h
  unfold execEnsBeat
  rw [h]
  rfl

theorem execEnsEnd_heard {s : State} {src ensId e : Nat} (h : s.slotWith [esForming, esLeader, esMember] ensId src = some e)
    (cause : Nat) : execEnsEnd src ensId cause s = .next (breakEns s e cause src) := by
  unfold State.slotWith at h
  unfold execEnsEnd
  rw [h]

/-- A module's beat to another of an ensemble, with the time last heard from it. -/
def State.beatTo (s : State) (e a : Nat) : Output := .ctrl none a (.ensBeat (s.ensId e) s.calendar (SMap.getD (s.ensSlot e).times a 0))

/-- The beats of a slot: a leader's to its members, a member's to its leader. -/
def State.beatsOf (s : State) (e : Nat) : List Output :=
  if s.ensState e = esLeader then (s.ensMembers e).map (s.beatTo e)
  else if s.ensState e = esMember then [s.beatTo e (s.ensLeader e)]
  else []

theorem execEnsBeatTimer_eq (s : State) :
    execEnsBeatTimer s = .next (s.emits ((List.range 8).flatMap s.beatsOf)) := by
  rw [← foldl_emits (f := State.beatsOf) (fun _ _ _ => rfl)]
  unfold execEnsBeatTimer
  congr 2
  funext s e
  unfold State.beatsOf
  dsimp only
  split
  · exact foldl_sendCtrl (f := fun t a => .ensBeat (t.ensId e) s.calendar (SMap.getD (t.ensSlot e).times a 0)) (fun _ _ _ => rfl) _ s
  · split
    · rfl
    · exact s.emits_nil.symm

/-- Settles O51: every end of an ensemble is one break of its slot, and a beat is one message to each module the slot names. -/
theorem ensemblesBeatAndEnd : Obligations.EnsemblesBeatAndEnd := by
  unfold Obligations.EnsemblesBeatAndEnd
  refine ⟨?heard, ?beats, ?lost, ?told, ?ends, fun _ _ _ => rfl, fun s src epoch => ?asked⟩
  case heard =>
    intro s src ensId time echoed e h
    refine ⟨_, execEnsBeat_heard h time echoed, ?_, ?_, fun hecho => ?_, rfl, rfl⟩
    all_goals rw [State.ensSlot_setEnsSlot]
    · exact (SMap.get?_put ..).trans (if_pos rfl)
    · exact (SMap.get?_put ..).trans (if_pos rfl)
    · exact if_neg hecho
  case beats =>
    intro s
    have hsent {e : Nat} (he : e < 8) {o : Output} (ho : o ∈ s.beatsOf e) : o ∈ (s.emits ((List.range 8).flatMap s.beatsOf)).out :=
      List.mem_append_right _ (List.mem_flatMap.2 ⟨e, List.mem_range.2 he, ho⟩)
    refine ⟨_, execEnsBeatTimer_eq s, rfl, rfl, fun e he => ⟨fun hst a ha => hsent he ?_, fun hst => hsent he ?_⟩⟩
    · rw [State.beatsOf, if_pos hst]
      exact List.mem_map_of_mem ha
    · rw [State.beatsOf, hst, if_neg (by decide), if_pos rfl]
      exact List.mem_singleton_self _
  case lost =>
    intro s slot src hslot hst hfree
    exact ⟨_, if_pos ⟨hslot, hst⟩, breakEns_ended hslot (.inr hst) hfree 2 src⟩
  case told =>
    intro s src ensId cause e h hfree
    obtain ⟨he, hst, -⟩ := State.slotOf_some h
    exact ⟨_, execEnsEnd_heard h cause, breakEns_ended he (by simpa using hst) hfree cause src⟩
  case ends =>
    intro s slot hslot hst hfree
    exact ⟨_, if_pos hslot, breakEns_ended hslot hst hfree 0 s.fabAddr⟩
  case asked => rfl

end Sys2Proof.Machine

namespace Sys2Proof.Machine

/-! ## The ports of the fabric (12 R357, R360) -/

theorem SMap.getD_put_ne {β : Type} (m : SMap β) {j k : Nat} (v d : β) (h : j ≠ k) : SMap.getD (SMap.put m k v) j d = SMap.getD m j d := by
  unfold SMap.getD
  rw [SMap.get?_put, if_neg h]

theorem State.fport_setFport_same (s : State) (n : Nat) (p : FabPort) : (s.setFport n p).fport n = p := SMap.getD_put_same ..

theorem State.fport_setFport_ne (s : State) {m n : Nat} (p : FabPort) (h : m ≠ n) : (s.setFport n p).fport m = s.fport m :=
  SMap.getD_put_ne _ _ _ h

theorem State.fport_congr {s t : State} (h : t.fab.ports = s.fab.ports) (n : Nat) : t.fport n = s.fport n := congrArg (SMap.getD · n FabPort.init) h

theorem State.reg_congr {s t : State} (h : t.regs = s.regs) (a : Nat) : t.reg a = s.reg a := congrArg (SMap.getD · a (resetOf a)) h

theorem State.fld_congr {s t : State} (h : t.regs = s.regs) (a hi lo : Nat) : t.fld a hi lo = s.fld a hi lo :=
  congrArg (getBits · hi lo) (State.reg_congr h a)

/-- A field of a register outside a frame reads as before. -/
theorem State.RegsFrame.fld {s t : State} {l : List Nat} (h : s.RegsFrame t l) {a : Nat} (ha : a ∉ l) (hi lo : Nat) : t.fld a hi lo = s.fld a hi lo :=
  congrArg (getBits · hi lo) (h a ha)

theorem State.Counted.congr {s t u : State} {a n : Nat} (h : s.Counted t a n) (k : u.regs = t.regs) : s.Counted u a n := by
  unfold State.Counted
  rw [State.reg_congr k]
  exact h

theorem State.fstate_setFstate (s : State) (n : Nat) {v : Nat} (hv : v < 8) : (s.setFstate n v).fstate n = v :=
  (s.fld_setFld_same _ v (by decide) (by decide)).trans (Nat.mod_eq_of_lt hv)

namespace State.RegsOnly
variable {s t : State} {l : List Nat} (h : s.RegsOnly t l)
include h

theorem fab : t.fab = s.fab := by rw [h.2]
theorem out : t.out = s.out := by rw [h.2]
theorem mesh : t.mesh = s.mesh := by rw [h.2]
theorem fport (n : Nat) : t.fport n = s.fport n := State.fport_congr (congrArg Fabric.ports h.fab) n

theorem records (code source p0 p1 p2 : Nat) : s.Records (recordEvent t code source p0 p1 p2) (s.record code source p0 p1 p2) :=
  recordEvent_recordsFor (by rw [h.2]) (by rw [h.2]) (by rw [h.2]) (by rw [h.2])

end State.RegsOnly

/-- The status of a port is one of the registers 0x10 to 0x1B. -/
theorem portStatus_bounds {n : Nat} (h : n < 12) : 0x80010 ≤ Reg.FAB_PORT_STATUS + n ∧ Reg.FAB_PORT_STATUS + n < 0x8001C := by
  unfold Reg.FAB_PORT_STATUS
  omega

theorem fabPortStatus_notMem_eventRegs {n : Nat} (h : n < 12) : Reg.FAB_PORT_STATUS + n ∉ eventRegs :=
  fabReg_notMem_eventRegs (by have := portStatus_bounds h; omega)

/-! ### Updates of the ports only -/

/-- Only the ports and what has been sent change. -/
def State.PortsOnly (s t : State) : Prop := t = { s with fab := { s.fab with ports := t.fab.ports }, out := t.out }

namespace State.PortsOnly
variable {s t u : State}

theorem refl (s : State) : s.PortsOnly s := rfl

theorem trans (h : s.PortsOnly t) (k : t.PortsOnly u) : s.PortsOnly u := by
  unfold State.PortsOnly at *
  rw [k, h]

theorem setFport (h : s.PortsOnly t) (n : Nat) (p : FabPort) : s.PortsOnly (t.setFport n p) := h.trans rfl

variable (h : s.PortsOnly t)
include h

theorem regs : t.regs = s.regs := by rw [h]
theorem tiles : t.tiles = s.tiles := by rw [h]
theorem mesh : t.mesh = s.mesh := by rw [h]
theorem evt : t.evt = s.evt := by rw [h]
theorem sup : t.sup = s.sup := by rw [h]
theorem now : t.now = s.now := by rw [h]
theorem tb : t.tb = s.tb := by rw [h]
theorem fab : t.fab = { s.fab with ports := t.fab.ports } := by rw [h]
theorem fstate (n : Nat) : t.fstate n = s.fstate n := State.fld_congr h.regs ..
theorem fabAddr : t.fabAddr = s.fabAddr := State.fld_congr h.regs ..

end State.PortsOnly

/-! ### LINK flits -/

section
variable (s : State) (n : Nat)

theorem sendLink_portsOnly : s.PortsOnly (sendLink s n) := rfl

theorem sendLink_fport : (sendLink s n).fport n = { s.fport n with nakDue := false, freedSent := (s.fport n).freed } := State.fport_setFport_same ..

theorem sendLink_out : (sendLink s n).out = s.out ++ [.linkFlit n (s.linkBody n)] := rfl

end

/-! ### Flits freed -/

theorem freeFlits_portsOnly (s : State) (n : Nat) (x : FabPacket) : s.PortsOnly (freeFlits s n x) := by
  unfold freeFlits
  extract_lets p q t
  have h : s.PortsOnly t := (State.PortsOnly.refl s).setFport n q
  split
  · exact h.trans (sendLink_portsOnly t n)
  · exact h

/-- Freeing a packet's flits moves its port's counts and what they owe the peer. -/
theorem freeFlits_fport (s : State) (n : Nat) (x : FabPacket) : ∃ nak sent, (freeFlits s n x).fport n =
    { s.fport n with freed := bump16 (s.fport n).freed x.vl (flitsOf x), nakDue := nak, freedSent := sent } := by
  unfold freeFlits
  extract_lets p q t
  have h : t.fport n = q := State.fport_setFport_same ..
  split
  · have hsent : (sendLink t n).fport n = { q with nakDue := false, freedSent := q.freed } := by rw [sendLink_fport, h]
    exact ⟨false, q.freed, hsent⟩
  · exact ⟨_, _, h⟩

theorem foldl_freeFlits (n : Nat) (l : List (Nat × FabPacket)) (s : State) : s.PortsOnly (l.foldl (fun s y => freeFlits s n y.2) s) ∧
    ((l.foldl (fun s y => freeFlits s n y.2) s).fport n).buffers = (s.fport n).buffers := by
  induction l generalizing s with
  | nil => exact ⟨State.PortsOnly.refl s, rfl⟩
  | cons y l ih =>
    obtain ⟨honly, hbuf⟩ := ih (freeFlits s n y.2)
    obtain ⟨_, _, hport⟩ := freeFlits_fport s n y.2
    refine ⟨(freeFlits_portsOnly s n y.2).trans honly, hbuf.trans ?_⟩
    rw [hport]

/-! ### A packet leaves -/

/-- The codeword in which a packet leaves on a port. -/
theorem sendOn_leaves (s : State) {u : State} {n : Nat} (h : u.fport n = s.fport n) (x : FabPacket) :
    s.Leaves (sendOn u n x) n x ∧ u.PortsOnly (sendOn u n x) := by
  unfold sendOn
  extract_lets p down y w
  have hseq : w.seq = (s.fport n).nextSeq := congrArg FabPort.nextSeq h
  have hform : y = x ∨ y = { x with phase := 1 } := by
    unfold y
    split
    · exact .inr rfl
    · exact .inl rfl
  refine ⟨⟨w, y, List.mem_append_right _ (List.mem_singleton_self _), ?_, rfl, hseq, rfl, hform⟩, rfl⟩
  refine (congrArg (fun p => w ∈ FabPort.kept p) (State.fport_setFport_same u n _)).mpr ?_
  exact List.mem_append_right _ (List.mem_singleton_self _)

end Sys2Proof.Machine

namespace Sys2Proof.Machine

/-! ## A root's work (12 R369, R370, R376) -/

/-- A root that goes on with its map changes what it knows of the modules, the map and its answers, MAP_PENDING and what it has sent. -/
structure State.RootWork (s t : State) : Prop where
  frame : s.RegsFrame t [Reg.FAB_STATUS]
  status : ∀ hi lo, hi < 29 ∨ 29 < lo → t.fld Reg.FAB_STATUS hi lo = s.fld Reg.FAB_STATUS hi lo
  rest : t = { s with
    regs := t.regs
    out := t.out
    fab := { s.fab with building := t.fab.building, next := t.fab.next, ready := t.fab.ready } }

namespace State.RootWork
variable {s t u : State}

theorem refl (s : State) : s.RootWork s := ⟨State.RegsFrame.refl s _, fun _ _ _ => rfl, rfl⟩

theorem trans (h : s.RootWork t) (k : t.RootWork u) : s.RootWork u := by
  refine ⟨h.frame.trans k.frame, fun hi lo d => (k.status hi lo d).trans (h.status hi lo d), ?_⟩
  rw [k.rest, h.rest]

theorem upd (s : State) (l : List RootEntry) (m : Option FabMap) (r : List Nat) (o : List Output) :
    s.RootWork { s with fab := { s.fab with building := l, next := m, ready := r }, out := o } :=
  ⟨fun _ _ => rfl, fun _ _ _ => rfl, rfl⟩

theorem emits (h : s.RootWork t) (l : List Output) : s.RootWork (t.emits l) :=
  h.trans (upd t t.fab.building t.fab.next t.fab.ready (t.out ++ l))

theorem setPending (h : s.RootWork t) (v : Nat) : s.RootWork (t.setFld Reg.FAB_STATUS 29 29 v) := by
  obtain ⟨hframe, hrest⟩ := t.setFld_regsOnly Reg.FAB_STATUS 29 29 v
  refine h.trans ⟨hframe, fun _ _ d => t.fld_setFld_disjoint _ v (by decide) (by decide) d, ?_⟩
  rw [hrest]

variable (h : s.RootWork t)
include h

theorem ports : t.fab.ports = s.fab.ports := by rw [h.rest]
theorem cand : t.fab.cand = s.fab.cand := by rw [h.rest]
theorem evt : t.evt = s.evt := by rw [h.rest]

end State.RootWork

/-- The neighbours of the modules in a root's table that it has given no address. -/
def freshPeers (l : List RootEntry) : List (Nat × LinkRec) :=
  (l.mergeSort (fun a b => decide (a.entry.addr ≤ b.entry.addr))).flatMap (newPeers l)

/-- The address of a module, as its root sends it over a neighbour that has one (12 R369). -/
def assignMessage (x : Nat × MapEntry) : Output := .ctrl none x.1 (.assign x.2.moduleId x.2.addr x.2.level x.2.parentPort)

/-- What a root does next: it waits, addresses new neighbours, or sends its map. -/
theorem rootStep_cases (s : State) :
    (rootStep s = s) ∨
    (∃ o, rootStep s = State.emits { s with fab := { s.fab with
      building := (assignNew s.fab.building (freshPeers s.fab.building)).1 } } o) ∨
    (∃ p m r o, rootStep s = State.emits (State.setFld { s with fab := { s.fab with
      building := s.fab.building.filter p, next := m, ready := r } } Reg.FAB_STATUS 29 29 1) o) := by
  unfold rootStep
  extract_lets l fresh q fab1 s1 fcn m keep fab2
  split
  · exact .inl rfl
  · split
    · exact .inr (.inl ⟨_, foldl_emits (f := fun _ x => [assignMessage x]) (fun _ _ _ => rfl) q.2 s1⟩)
    · exact .inr (.inr ⟨_, _, _, _, rfl⟩)

theorem rootStep_rootWork (s : State) : s.RootWork (rootStep s) := by
  obtain h | ⟨o, h⟩ | ⟨p, m, r, o, h⟩ := rootStep_cases s
  · rw [h]
    exact .refl s
  · rw [h]
    exact (State.RootWork.upd s _ s.fab.next s.fab.ready s.out).emits o
  · rw [h]
    exact ((State.RootWork.upd s _ m r s.out).setPending 1).emits o

theorem reportLinks_rootWork (s : State) : s.RootWork (reportLinks s) := by
  unfold reportLinks
  split
  · exact (State.RootWork.upd s _ s.fab.next s.fab.ready s.out).trans (rootStep_rootWork _)
  · split
    · exact (State.RootWork.refl s).emits _
    · exact .refl s

end Sys2Proof.Machine

namespace Sys2Proof.Machine

/-! ## A port goes down (12 R367, R378) -/

theorem fabDrop_ports (s : State) (cause dst : Nat) : (fabDrop s cause dst).fab.ports = s.fab.ports := by
  unfold fabDrop
  rw [recordEvent_fab, State.count_fab]

theorem fabDrop_counted (s : State) (cause dst : Nat) : s.Counted (fabDrop s cause dst) Reg.FAB_DROPPED 1 :=
  (State.count_counted (s := s) (t := { s with fab := { s.fab with dropsInRound := s.fab.dropsInRound + 1 } }) rfl Reg.FAB_DROPPED 1).afterEvent
    (by decide) ..

theorem fabDrop_regsFrame (s : State) (cause dst : Nat) : s.RegsFrame (fabDrop s cause dst) ([Reg.FAB_DROPPED] ++ eventRegs) :=
  State.RegsFrame.trans (t := State.count { s with fab := { s.fab with dropsInRound := s.fab.dropsInRound + 1 } } Reg.FAB_DROPPED 1)
    ((State.count_regsOnly _ (List.mem_singleton_self _)).1.mono (by simp)) (recordEvent_frame _ _ _ _ _ _ _).1

/-- Packets dropped are counted, and their ports stay. -/
theorem foldl_fabDrop (cause : Nat) (l : List FabPacket) (s : State) :
    s.RegsFrame (l.foldl (fun s x => fabDrop s cause x.dst) s) ([Reg.FAB_DROPPED] ++ eventRegs) ∧
      (l.foldl (fun s x => fabDrop s cause x.dst) s).fab.ports = s.fab.ports ∧
      s.Counted (l.foldl (fun s x => fabDrop s cause x.dst) s) Reg.FAB_DROPPED l.length := by
  induction l generalizing s with
  | nil => exact ⟨State.RegsFrame.refl s _, rfl, (Nat.min_eq_left (by have := (s.reg Reg.FAB_DROPPED).isLt; omega)).symm⟩
  | cons x l ih =>
    obtain ⟨hframe, hports, hcount⟩ := ih (fabDrop s cause x.dst)
    have hone := fabDrop_counted s cause x.dst
    refine ⟨(fabDrop_regsFrame s cause x.dst).trans hframe, hports.trans (fabDrop_ports s cause x.dst), ?_⟩
    unfold State.Counted at *
    rw [List.foldl_cons, hcount, hone, List.length_cons]
    omega

/-- A port without its link, before what it held is dropped. -/
def State.cutPort (s : State) (n : Nat) : State :=
  ((s.setFport n { FabPort.init with reversed := (s.fport n).reversed }).setFstate n fpDown).setFld (Reg.FAB_PORT_STATUS + n) 10 9 0

/-- A port that is down, before the module reports its links. -/
def State.portDown (s : State) (n cause : Nat) : State :=
  recordEvent (((s.fport n).buffers.map (·.2)).foldl (fun s x => fabDrop s 2 x.dst) (s.cutPort n)) 0x0802 0 n cause 0

theorem linkDown_eq (s : State) (n cause : Nat) : linkDown s n cause = reportLinks (s.portDown n cause) := rfl

theorem State.cutPort_regsFrame (s : State) (n : Nat) : s.RegsFrame (s.cutPort n) [Reg.FAB_PORT_STATUS + n] :=
  fun _ ha => (State.reg_setFld_ne _ _ _ _ (List.ne_of_not_mem_cons ha)).trans (State.reg_setFld_ne _ _ _ _ (List.ne_of_not_mem_cons ha))

theorem State.cutPort_fstate (s : State) (n : Nat) : (s.cutPort n).fstate n = fpDown :=
  (State.fld_setFld_disjoint _ _ 0 (by decide) (by decide) (.inl (by decide))).trans (State.fstate_setFstate _ n (by decide))

/-- Work that a root does leaves the registers of the ports and the counts. -/
theorem State.RootWork.fabReg {s t : State} (h : s.RootWork t) {a : Nat} (ha : Reg.FAB_STATUS < a) : t.reg a = s.reg a :=
  h.frame a (fun hm => absurd (List.mem_singleton.1 hm) (Nat.ne_of_gt ha))

section
variable (s : State) {n : Nat} (cause : Nat)

theorem linkDown_fport : (linkDown s n cause).fport n = { FabPort.init with reversed := (s.fport n).reversed } := by
  obtain ⟨-, hports, -⟩ := foldl_fabDrop 2 ((s.fport n).buffers.map (·.2)) (s.cutPort n)
  have hdown : (s.portDown n cause).fab.ports = (s.cutPort n).fab.ports := (congrArg Fabric.ports (recordEvent_fab ..)).trans hports
  have hreport : (linkDown s n cause).fab.ports = (s.portDown n cause).fab.ports := (reportLinks_rootWork (s.portDown n cause)).ports
  exact (State.fport_congr (hreport.trans hdown) n).trans (s.fport_setFport_same n _)

variable (hn : n < 12)
include hn

theorem linkDown_fstate : (linkDown s n cause).fstate n = fpDown := by
  obtain ⟨hframe, -, -⟩ := foldl_fabDrop 2 ((s.fport n).buffers.map (·.2)) (s.cutPort n)
  have hb := portStatus_bounds hn
  have hevent := fabPortStatus_notMem_eventRegs hn
  have hdrop : Reg.FAB_PORT_STATUS + n ∉ [Reg.FAB_DROPPED] ++ eventRegs := by
    rw [List.mem_append, List.mem_singleton, not_or]
    exact ⟨by unfold Reg.FAB_DROPPED; omega, hevent⟩
  have hreport : (linkDown s n cause).reg (Reg.FAB_PORT_STATUS + n) = (s.portDown n cause).reg (Reg.FAB_PORT_STATUS + n) :=
    (reportLinks_rootWork (s.portDown n cause)).fabReg (by unfold Reg.FAB_STATUS; omega)
  refine (congrArg (getBits · 2 0) (hreport.trans ?_)).trans (s.cutPort_fstate n)
  exact (recordEvent_reg _ _ _ _ _ _ hevent).trans (hframe _ hdrop)

theorem linkDown_dropped : s.Counted (linkDown s n cause) Reg.FAB_DROPPED (s.fport n).buffers.length := by
  obtain ⟨-, -, hcount⟩ := foldl_fabDrop 2 ((s.fport n).buffers.map (·.2)) (s.cutPort n)
  have hb := portStatus_bounds hn
  have hreport : (linkDown s n cause).reg Reg.FAB_DROPPED = (s.portDown n cause).reg Reg.FAB_DROPPED :=
    (reportLinks_rootWork (s.portDown n cause)).fabReg (by decide)
  have hcut : (s.cutPort n).reg Reg.FAB_DROPPED = s.reg Reg.FAB_DROPPED :=
    s.cutPort_regsFrame n _ (by rw [List.mem_singleton]; unfold Reg.FAB_DROPPED; omega)
  unfold State.Counted at *
  rw [hreport, State.portDown, recordEvent_reg _ _ _ _ _ _ (by decide), hcount, hcut, List.length_map]

end

theorem linkDown_records {s : State} {n : Nat} (h : (s.fport n).buffers = []) (cause : Nat) :
    s.Records (linkDown s n cause) (s.record 0x0802 0 n cause 0) := by
  have hdown : s.portDown n cause = recordEvent (s.cutPort n) 0x0802 0 n cause 0 := by
    rw [State.portDown, h]
    rfl
  rw [linkDown_eq]
  refine State.Records.congr (t := s.portDown n cause) ?_ (reportLinks_rootWork _).evt
  rw [hdown]
  exact recordEvent_recordsFor

end Sys2Proof.Machine

namespace Sys2Proof.Machine

/-! ## A port trains and hears its peer (12 R356, R367) -/

/-- A port in INFO, before it sends its LINK flit. -/
def State.trained (s : State) (port : Nat) (reversed : Bool) : State :=
  ((s.setFport port { FabPort.init with reversed := reversed }).setFld (Reg.FAB_PORT_STATUS + port) 11 11 (if reversed then 1 else 0)).setFstate
    port fpInfo

section
variable (s : State) (port : Nat) (reversed : Bool)

theorem State.trained_regsOnly :
    (s.setFport port { FabPort.init with reversed := reversed }).RegsOnly (s.trained port reversed) [Reg.FAB_PORT_STATUS + port] :=
  (State.setFld_regsOnly ..).trans (State.setFld_regsOnly ..)

theorem State.trained_fport : (s.trained port reversed).fport port = { FabPort.init with reversed := reversed } :=
  ((s.trained_regsOnly port reversed).fport port).trans (s.fport_setFport_same port _)

theorem State.trained_fstate : (s.trained port reversed).fstate port = fpInfo := State.fstate_setFstate _ port (by decide)

theorem State.trained_polarity : (s.trained port reversed).fld (Reg.FAB_PORT_STATUS + port) 11 11 = if reversed then 1 else 0 := by
  refine (State.fld_setFld_disjoint _ _ fpInfo (by decide) (by decide) (.inr (by decide))).trans ?_
  refine (State.fld_setFld_same _ _ _ (by decide) (by decide)).trans ?_
  cases reversed <;> rfl

end

theorem execFabTrainingDone_trains {s : State} {port : Nat} (hport : port < 12) (hst : s.fstate port = fpTraining) (reversed : Bool) :
    execFabTrainingDone port reversed s = .next (sendLink (s.trained port reversed) port) := if_pos ⟨hport, hst⟩

theorem State.fup_congr {s t : State} {n : Nat} (hst : t.fstate n = s.fstate n) (hport : t.fport n = s.fport n) : t.fup n = s.fup n := by
  unfold State.fup
  rw [hst, hport]

/-- A port's peer is the module of a number. -/
def FabPort.faces (p : FabPort) (id : Nat) : Bool := match p.peer with | some c => decide (c.moduleId = id) | none => false

/-- The other ports that are up with a link to a module. -/
def State.otherLinks (s : State) (n id : Nat) : List Nat := s.upPorts.filter (fun m => decide (m ≠ n) && (s.fport m).faces id)

theorem State.otherLinks_setFport (s : State) (n : Nat) (p : FabPort) (id : Nat) : (s.setFport n p).otherLinks n id = s.otherLinks n id := by
  unfold State.otherLinks State.upPorts
  rw [List.filter_filter, List.filter_filter]
  refine List.filter_congr fun m _ => ?_
  by_cases hm : m = n
  · simp [hm]
  · have hport : (s.setFport n p).fport m = s.fport m := s.fport_setFport_ne p hm
    rw [hport, State.fup_congr (s := s) (t := s.setFport n p) rfl hport]

theorem State.brokenPattern_eq (s : State) (n : Nat) (b : LinkBody) : s.brokenPattern n b =
    if b.moduleId = selfId then some 2
    else if 6 ≤ (s.otherLinks n b.moduleId).length then some 3
    else if s.fld Reg.FAB_ADDR 31 31 = 1 ∧ 62 ≤ s.fld Reg.FAB_ADDR 21 16 ∧ b.addr.isNone then some 5
    else none := rfl

/-- The pattern that a peer breaks does not depend on what its own port holds. -/
theorem State.brokenPattern_setFport (s : State) (n : Nat) (p : FabPort) (b : LinkBody) :
    (s.setFport n p).brokenPattern n b = s.brokenPattern n b := by
  rw [State.brokenPattern_eq, State.otherLinks_setFport, State.brokenPattern_eq]
  rfl

/-- A port in INFO with what its peer has said, before the pattern is checked. -/
def State.hearing (s : State) (port : Nat) (b : LinkBody) : State :=
  s.setFport port { s.fport port with peerFreed := b.freed, peer := some b }

/-- A port whose link is UP, before the module reports it. -/
def State.linked (s : State) (port : Nat) (b : LinkBody) : State :=
  ((s.setFld (Reg.FAB_PORT_STATUS + port) 29 16 (b.addr.getD 0)).setFld (Reg.FAB_PORT_STATUS + port) 15 12 b.port).setFstate port fpUp

section
variable {s : State} {port : Nat} (hport : port < 12) (hst : s.fstate port = fpInfo) {b : LinkBody}
include hport hst

theorem takeLink_info : takeLink s port b = linkInfo (s.hearing port b) port b := by
  unfold takeLink
  extract_lets st fab t u
  rw [if_neg (by simp [st, hst, Nat.not_le.2 hport]), if_pos hst]
  rfl

theorem takeLink_links (h : s.brokenPattern port b = none) : takeLink s port b =
    reportLinks (recordEvent ((s.hearing port b).linked port b) 0x0801 0 port (b.addr.getD 0) b.port) := by
  have hb : (s.hearing port b).brokenPattern port b = none := (s.brokenPattern_setFport ..).trans h
  rw [takeLink_info hport hst, linkInfo, hb]
  rfl

theorem takeLink_rejects {k : Nat} (h : s.brokenPattern port b = some k) : takeLink s port b =
    recordEvent ((s.hearing port b).setFstate port fpRejected) 0x0803 0 port k (b.moduleId % 2 ^ 32) := by
  have hb : (s.hearing port b).brokenPattern port b = some k := (s.brokenPattern_setFport ..).trans h
  rw [takeLink_info hport hst, linkInfo, hb]

end

theorem State.linked_regsOnly (s : State) (port : Nat) (b : LinkBody) : s.RegsOnly (s.linked port b) [Reg.FAB_PORT_STATUS + port] :=
  ((s.setFld_regsOnly ..).trans (State.setFld_regsOnly ..)).trans (State.setFld_regsOnly ..)

section
variable (s : State) (port : Nat) (b : LinkBody)

theorem State.linked_fstate : (s.linked port b).fstate port = fpUp := State.fstate_setFstate _ port (by decide)

theorem State.linked_peerPort : (s.linked port b).fld (Reg.FAB_PORT_STATUS + port) 15 12 = b.port % 16 :=
  (State.fld_setFld_disjoint _ _ fpUp (by decide) (by decide) (.inr (by decide))).trans (State.fld_setFld_same _ _ _ (by decide) (by decide))

theorem State.linked_peerAddr : (s.linked port b).fld (Reg.FAB_PORT_STATUS + port) 29 16 = b.addr.getD 0 % 2 ^ 14 :=
  (State.fld_setFld_disjoint _ _ fpUp (by decide) (by decide) (.inr (by decide))).trans
    ((State.fld_setFld_disjoint _ _ b.port (by decide) (by decide) (.inr (by decide))).trans (State.fld_setFld_same _ _ _ (by decide) (by decide)))

end

/-- An event and the report of the links leave a port's status. -/
theorem reportLinks_portStatus (s : State) (code source p0 p1 p2 : Nat) {port : Nat} (hport : port < 12) (hi lo : Nat) :
    (reportLinks (recordEvent s code source p0 p1 p2)).fld (Reg.FAB_PORT_STATUS + port) hi lo = s.fld (Reg.FAB_PORT_STATUS + port) hi lo := by
  have hb := portStatus_bounds hport
  have hreport := (reportLinks_rootWork (recordEvent s code source p0 p1 p2)).fabReg (a := Reg.FAB_PORT_STATUS + port)
    (by unfold Reg.FAB_STATUS; omega)
  exact congrArg (getBits · hi lo) (hreport.trans (recordEvent_reg _ _ _ _ _ _ (fabPortStatus_notMem_eventRegs hport)))

end Sys2Proof.Machine

namespace Sys2Proof.Machine

/-! ## Packets for this module (12 R362, R375) -/

/-- A WRITE for this module on its way over the mesh. -/
def State.writesOf (s : State) (x : FabPacket) : State :=
  State.sendAll { s with fab := { s.fab with nextTag := s.fab.nextTag + 1, inbound := s.fab.inbound ++ [⟨s.fab.nextTag, x, (meshWrites x s.fab.nextTag).length, false⟩] } }
    (meshWrites x s.fab.nextTag)

theorem deliverFab_write {s : State} {x : FabPacket} (hcrc : x.crcBad = false) (ht : x.ptype = 1) : deliverFab s x = s.writesOf x := by
  unfold deliverFab
  rw [if_neg (by simp [hcrc]), ht]
  rfl

theorem deliverFab_ack {s : State} {x : FabPacket} (hcrc : x.crcBad = false) (ht : x.ptype = 2) : deliverFab s x = finishRemote s x.tag true := by
  unfold deliverFab
  rw [if_neg (by simp [hcrc]), ht]
  rfl

theorem movePacket_own {s : State} {x : FabPacket} (hdst : x.dst = s.fabAddr) (o : Option Nat) : movePacket s o x = (deliverFab s x, true) :=
  if_pos hdst

theorem switchPacket_own {s : State} {x : FabPacket} (hdst : x.dst = s.fabAddr) : switchPacket s none x = deliverFab s x := by
  unfold switchPacket
  rw [movePacket_own hdst]
  exact if_pos rfl

theorem switchPacket_arrives {s : State} {x : FabPacket} (hdst : x.dst = s.fabAddr) (n : Nat) :
    switchPacket s (some n) x = freeFlits (deliverFab s x) n x := by
  unfold switchPacket
  rw [movePacket_own hdst]
  exact if_pos rfl

/-! ## Codewords (12 R358, R366) -/

/-- An acknowledgement moves what a port keeps for replay, and nothing else. -/
theorem takeCwAck_eq (p : FabPort) (ack : Nat) : ∃ kept replays, takeCwAck p ack = { p with kept := kept, replays := replays } := by
  unfold takeCwAck
  extract_lets rest
  split
  · exact ⟨_, _, rfl⟩
  · split
    · exact ⟨_, _, rfl⟩
    · exact ⟨_, _, rfl⟩

theorem FabPort.held_congr {p q : FabPort} (h : q.buffers = p.buffers) (v : Nat) : q.held v = p.held v := by
  unfold FabPort.held
  rw [h]

/-- Flits of data bring no packet. -/
theorem takeFlit_data (s : State) (n vl : Nat) : takeFlit s n (.data vl) = s := by
  unfold takeFlit
  split
  · rfl
  · rfl

/-- A WRITE for this module that comes over a port with room for it is delivered, and its flits are freed. -/
theorem takeFlit_write {s : State} {n : Nat} {x : FabPacket} (hst : s.fstate n = fpUp)
    (hroom : (s.fport n).held x.vl + flitsOf x ≤ vlBuffer x.vl) (ht : x.ptype = 1) (hdst : x.dst = s.fabAddr) (hcrc : x.crcBad = false) :
    takeFlit s n (.head x) = freeFlits (s.writesOf x) n x := by
  unfold takeFlit
  rw [if_neg (by simp [hst])]
  dsimp only
  rw [if_neg (Nat.not_lt.2 hroom), if_neg (by simp [ht]), switchPacket_arrives hdst, deliverFab_write hcrc ht]

/-- The flits of a WRITE for this module. -/
theorem foldl_takeFlit_write {s : State} {n : Nat} {x : FabPacket} {l : List Flit} (hst : s.fstate n = fpUp)
    (hroom : (s.fport n).held x.vl + flitsOf x ≤ vlBuffer x.vl) (ht : x.ptype = 1) (hdst : x.dst = s.fabAddr) (hcrc : x.crcBad = false)
    (hdata : ∀ f ∈ l, f = .data x.vl) : (Flit.head x :: l).foldl (fun s f => takeFlit s n f) s = freeFlits (s.writesOf x) n x := by
  rw [List.foldl_cons, takeFlit_write hst hroom ht hdst hcrc]
  exact foldl_stays fun f hf => by rw [hdata f hf, takeFlit_data]

theorem freeFlits_writesOf (s : State) (n : Nat) (x : FabPacket) :
    ((freeFlits (s.writesOf x) n x).fport n).expected = (s.fport n).expected ∧
      ((freeFlits (s.writesOf x) n x).fport n).freed = bump16 (s.fport n).freed x.vl (flitsOf x) ∧
      (freeFlits (s.writesOf x) n x).mesh = s.mesh ++ meshWrites x s.fab.nextTag := by
  obtain ⟨_, _, hfree⟩ := freeFlits_fport (s.writesOf x) n x
  rw [hfree, (freeFlits_portsOnly (s.writesOf x) n x).mesh]
  exact ⟨rfl, rfl, rfl⟩

/-- A port that has accepted a codeword, before its flits are taken. -/
def State.accepting (s : State) (port : Nat) (w : Codeword) : State :=
  (s.setFport port (takeCwAck (s.fport port) w.ack)).setFport port { takeCwAck (s.fport port) w.ack with
    expected := ((takeCwAck (s.fport port) w.ack).expected + 1) % 512, discarding := false }

/-- A port that is to ask for a codeword again. -/
def State.asking (s : State) (port : Nat) (w : Codeword) : State :=
  (s.setFport port (takeCwAck (s.fport port) w.ack)).setFport port { takeCwAck (s.fport port) w.ack with discarding := true, nakDue := true }

theorem State.accepting_fport (s : State) (port : Nat) (w : Codeword) : ∃ kept replays, (s.accepting port w).fport port =
    { s.fport port with kept := kept, replays := replays, expected := ((s.fport port).expected + 1) % 512, discarding := false } := by
  obtain ⟨kept, replays, hack⟩ := takeCwAck_eq (s.fport port) w.ack
  refine ⟨kept, replays, (State.fport_setFport_same _ port _).trans ?_⟩
  rw [hack]

theorem State.asking_fport (s : State) (port : Nat) (w : Codeword) : ∃ kept replays, (s.asking port w).fport port =
    { s.fport port with kept := kept, replays := replays, discarding := true, nakDue := true } := by
  obtain ⟨kept, replays, hack⟩ := takeCwAck_eq (s.fport port) w.ack
  refine ⟨kept, replays, (State.fport_setFport_same _ port _).trans ?_⟩
  rw [hack]

theorem linkBody_nak {s : State} {n : Nat} (h : (s.fport n).nakDue = true) : (s.linkBody n).nak = some (s.fport n).expected := if_pos h

section
variable {s : State} {port : Nat} {w : Codeword} (hport : port < 12) (hst : s.fstate port = fpUp)
include hport hst

theorem codeword_guard : ¬(12 ≤ port ∨ s.fstate port ≠ fpUp ∧ s.fstate port ≠ fpInfo) := by
  simp [hst, Nat.not_le.2 hport]

/-- A codeword that does not decode. -/
theorem execCodeword_garbled (hok : w.ok = false) (hfew : (s.fport port).uncorr.length < 16) : ∃ recent, execCodeword port w s =
    .next (sendLink ((s.count (Reg.FAB_PORT_FEC_UNCORR + port) 1).setFport port
      { s.fport port with uncorr := recent, nakDue := true, discarding := true }) port) := by
  unfold execCodeword
  extract_lets st p recent s1 s2 s3 s4 q s5
  have hrecent : recent.length ≤ 16 := by
    have hle : _ ≤ (s.fport port).uncorr.length := List.length_filter_le (fun t => decide (s.now < t + 1000000)) p.uncorr
    simp only [recent, List.length_cons]
    omega
  rw [if_neg (codeword_guard hport hst), if_pos (by simp [hok]), if_neg (Nat.not_lt.2 hrecent)]
  exact ⟨recent, rfl⟩

/-- A new codeword without LINK flits: in sequence its flits are taken, out of sequence it is asked for again. -/
theorem execCodeword_new (hok : w.ok = true) (hnew : w.isNew = true) (hflits : ∀ f ∈ w.flits, ∀ b, f ≠ .link b)
    (hdis : (s.fport port).discarding = false ∨ w.seq = (s.fport port).expected) : execCodeword port w s = .next (
      if w.seq = (s.fport port).expected then w.flits.foldl (fun s f => takeFlit s port f) (s.accepting port w)
      else sendLink (s.asking port w) port) := by
  obtain ⟨kept, replays, hack⟩ := takeCwAck_eq (s.fport port) w.ack
  unfold execCodeword
  extract_lets st p recent s1 s2 s3 s4 q s5
  have hs4 : s4 = s3 := foldl_stays fun f hf => by
    cases f with
    | link b => exact absurd rfl (hflits _ hf b)
    | head x => rfl
    | data v => rfl
  have hq : q = takeCwAck (s.fport port) w.ack := (congrArg (State.fport · port) hs4).trans (s.fport_setFport_same port _)
  have hexp : q.expected = (s.fport port).expected := by rw [hq, hack]
  have hs5 : s5 = s.accepting port w := by
    unfold s5
    rw [hs4, hq]
    rfl
  rw [if_neg (codeword_guard hport hst), if_neg (by simp [hok]), if_neg (by simp [hnew])]
  by_cases hseq : w.seq = (s.fport port).expected
  · rw [if_pos (hseq.trans hexp.symm), if_pos hseq, hs5]
  · have hdis' : q.discarding = false := by rw [hq, hack, hdis.resolve_right hseq]
    rw [if_neg (by rwa [hexp]), if_neg hseq, if_neg (by simp [hdis']), hs4, hq]
    rfl

end

/-! ## Replay (12 R358) -/

/-- From the oldest codeword kept on, all are sent again. -/
theorem replay_all {s : State} {n : Nat} {w : Codeword} {l : List Codeword} (hkept : (s.fport n).kept = w :: l) :
    replay s n w.seq = if 8 ≤ (s.fport n).replays then linkDown (s.count (Reg.FAB_PORT_REPLAY + n) 1) n 1 else
      ((s.count (Reg.FAB_PORT_REPLAY + n) 1).setFport n { s.fport n with replays := (s.fport n).replays + 1 }).emits
        ((w :: l).map (fun w => .codeword n { w with ack := (s.fport n).expected })) := by
  unfold replay
  extract_lets p ws t
  have hws : ws = w :: l := by
    unfold ws p
    rw [hkept]
    exact List.dropWhile_cons_of_neg (by simp)
  rw [if_neg (by simp [hws]), hws, List.map_eq_flatMap]
  split
  · rfl
  · exact foldl_emits (f := fun _ w => [.codeword n { w with ack := p.expected }]) (fun _ _ _ => rfl) (w :: l) _

theorem execCodewordReplayTimeout_kept_cons {s : State} {n : Nat} {w : Codeword} {l : List Codeword} (hkept : (s.fport n).kept = w :: l) :
    execCodewordReplayTimeout n s = .next (replay s n w.seq) := by
  unfold execCodewordReplayTimeout
  rw [hkept]

/-- Settles O46: a link's state stands in its port's status and its sequence numbers in the port, and each command writes them once. -/
theorem fabricLinksCarryCodewords : Obligations.FabricLinksCarryCodewords := by
  unfold Obligations.FabricLinksCarryCodewords
  refine ⟨?signal, ?trained, ?up, ?rejected, ?beat, ?down, ?inSequence, ?garbled, ?outOfSequence, ?replayed, ?givenUp⟩
  case signal =>
    intro s port hport hst hon hpower
    exact ⟨_, if_pos ⟨hport, hst, hon, hpower⟩, s.fstate_setFstate port (by decide), s.setFld_regsOnly ..⟩
  case trained =>
    intro s port reversed hport hst
    have hsent := sendLink_portsOnly (s.trained port reversed) port
    refine ⟨_, _, execFabTrainingDone_trains hport hst reversed, (hsent.fstate port).trans (s.trained_fstate port reversed),
      (State.fld_congr hsent.regs ..).trans (s.trained_polarity port reversed), ?_, congrArg (· ++ _) (s.trained_regsOnly port reversed).out, rfl, rfl,
      State.RegsFrame.upd (s.trained_regsOnly port reversed).1 hsent.regs⟩
    rw [sendLink_fport, s.trained_fport]
  case up =>
    intro s port b hport hst hb
    have hlinked := (s.hearing port b).linked_regsOnly port b
    have hwork := reportLinks_rootWork (recordEvent ((s.hearing port b).linked port b) 0x0801 0 port (b.addr.getD 0) b.port)
    have hstatus := reportLinks_portStatus ((s.hearing port b).linked port b) 0x0801 0 port (b.addr.getD 0) b.port hport
    have hex : exec (.linkFlit port b) s = .next (takeLink s port b) := rfl
    rw [takeLink_links hport hst hb] at hex
    refine ⟨_, hex, (hstatus 2 0).trans (State.linked_fstate ..), ?_, (hstatus 29 16).trans (State.linked_peerAddr ..),
      (hstatus 15 12).trans (State.linked_peerPort ..), State.Records.congr (hlinked.records _ _ _ _ _) hwork.evt⟩
    have hport' := State.fport_congr (hwork.ports.trans (congrArg Fabric.ports (recordEvent_fab ..))) port
    rw [hport', hlinked.fport]
    exact congrArg FabPort.peer (s.fport_setFport_same port _)
  case rejected =>
    intro s port b k hport hst hb
    have hex : exec (.linkFlit port b) s = .next (takeLink s port b) := rfl
    rw [takeLink_rejects hport hst hb] at hex
    refine ⟨_, hex, ?_, recordEvent_recordsFor, ?_⟩
    · exact (recordEvent_fld _ _ _ _ _ _ _ _ (fabPortStatus_notMem_eventRegs hport)).trans (State.fstate_setFstate _ port (by decide))
    · exact State.RegsFrame.trans (t := (s.hearing port b).setFstate port fpRejected)
        (((s.hearing port b).setFld_regsOnly ..).1.mono (by simp)) (recordEvent_frame _ _ _ _ _ _ _).1
  case beat =>
    intro s port hport hst
    refine ⟨_, if_pos ⟨hport, hst⟩, rfl, rfl, ?_⟩
    rw [sendLink_fport]
  case down =>
    intro s port cause hport hcause hdown hoff hfenced
    refine ⟨linkDown s port cause, if_neg (by simp [Nat.not_le.2 hport, Nat.not_lt.2 hcause, hdown, hoff, hfenced]),
      linkDown_fstate s cause hport, ?_, ?_, ?_, linkDown_dropped s cause hport, fun h => linkDown_records h cause⟩
    all_goals rw [linkDown_fport]
    all_goals rfl
  case inSequence =>
    intro s port w x l hport hst hok hnew hseq hflits hdata hroom ht hdst hcrc
    have hnolink : ∀ f ∈ w.flits, ∀ b, f ≠ .link b := by
      rw [hflits]
      exact List.forall_mem_cons.2 ⟨nofun, fun f hf b => hdata f hf ▸ nofun⟩
    have hex := execCodeword_new hport hst hok hnew hnolink (.inr hseq)
    obtain ⟨kept, replays, hacc⟩ := s.accepting_fport port w
    have hheld : ((s.accepting port w).fport port).held x.vl = (s.fport port).held x.vl := FabPort.held_congr (by rw [hacc]) _
    rw [if_pos hseq, hflits, foldl_takeFlit_write (s := s.accepting port w) hst (by rwa [hheld]) ht hdst hcrc hdata] at hex
    obtain ⟨hexp, hfreed, hmesh⟩ := freeFlits_writesOf (s.accepting port w) port x
    rw [hacc] at hexp hfreed
    exact ⟨_, hex, hexp, hfreed, hmesh⟩
  case garbled =>
    intro s port w hport hst hok hfew
    obtain ⟨recent, hex⟩ := execCodeword_garbled hport hst hok hfew
    refine ⟨_, _, hex, ?_, ?_, sendLink_out .., ?_⟩
    · rw [sendLink_fport, State.fport_setFport_same]
    · exact (State.count_counted (s := s) rfl (Reg.FAB_PORT_FEC_UNCORR + port) 1).congr (sendLink_portsOnly _ port).regs
    · have hport' := State.fport_setFport_same (s.count (Reg.FAB_PORT_FEC_UNCORR + port) 1) port
        { s.fport port with uncorr := recent, nakDue := true, discarding := true }
      rw [linkBody_nak (by rw [hport']), hport']
  case outOfSequence =>
    intro s port w hport hst hok hnew hseq hflits hdis
    have hex := execCodeword_new hport hst hok hnew (by simp [hflits]) (.inl hdis)
    rw [if_neg hseq] at hex
    obtain ⟨kept, replays, hask⟩ := s.asking_fport port w
    refine ⟨_, _, hex, ?_, sendLink_out .., ?_, rfl⟩
    · rw [sendLink_fport, hask]
    · rw [linkBody_nak (by rw [hask]), hask]
  case replayed =>
    intro s port w l hport hkept hfew
    have hex := execCodewordReplayTimeout_kept_cons hkept
    rw [replay_all hkept, if_neg (Nat.not_le.2 hfew)] at hex
    have hp : ((s.count (Reg.FAB_PORT_REPLAY + port) 1).setFport port { s.fport port with replays := (s.fport port).replays + 1 }).fport port = _ :=
      State.fport_setFport_same _ port _
    have hcount : s.Counted (s.count (Reg.FAB_PORT_REPLAY + port) 1) (Reg.FAB_PORT_REPLAY + port) 1 := State.count_counted rfl _ _
    refine ⟨_, hex, rfl, hcount.congr rfl, ?_, ?_⟩
    · exact (congrArg FabPort.kept hp).trans hkept
    · exact congrArg FabPort.replays hp
  case givenUp =>
    intro s port hport hkept hmany
    obtain ⟨w, l, hkept⟩ := List.exists_cons_of_ne_nil hkept
    have hex := execCodewordReplayTimeout_kept_cons hkept
    rw [replay_all hkept, if_pos hmany] at hex
    refine ⟨_, hex, linkDown_fstate _ 1 hport, ?_⟩
    rw [linkDown_fport]
    rfl

end Sys2Proof.Machine

namespace Sys2Proof.Machine

/-! ## The switch moves a packet (12 R374) -/

theorem State.Leaves.congr {s t u : State} {n : Nat} {x : FabPacket} (h : s.Leaves t n x) (hout : u.out = t.out)
    (hports : u.fab.ports = t.fab.ports) : s.Leaves u n x := by
  unfold State.Leaves
  rw [hout, State.fport_congr hports]
  exact h

/-- A packet that takes the escape route at once is counted (12 R374). -/
def State.noteEscape (s : State) (x y : FabPacket) : State := if y.vl = 3 ∧ x.vl ≠ 3 then s.count Reg.FAB_ESCAPED 1 else s

theorem State.noteEscape_regsOnly (s : State) (x y : FabPacket) : s.RegsOnly (s.noteEscape x y) [Reg.FAB_ESCAPED] := by
  unfold State.noteEscape
  split
  · exact s.count_regsOnly (List.mem_singleton_self _)
  · exact ⟨State.RegsFrame.refl s _, rfl⟩

section
variable {u : State} {x : FabPacket} (hdst : x.dst ≠ u.fabAddr)
include hdst

theorem switchPacket_sends {n : Nat} {y : FabPacket} (h : u.nextHop x = .send n y) :
    switchPacket u none x = sendOn (u.noteEscape x y) n y := by
  have hmove : movePacket u none x = (sendOn (u.noteEscape x y) n y, true) := by
    unfold movePacket
    rw [if_neg hdst, h]
    rfl
  unfold switchPacket
  rw [hmove]
  exact if_pos rfl

theorem switchPacket_waits (h : u.nextHop x = .wait) :
    switchPacket u none x = { u with fab := { u.fab with transit := u.fab.transit ++ [x] } } := by
  have hmove : movePacket u none x = (u, false) := by
    unfold movePacket
    rw [if_neg hdst, h]
  unfold switchPacket
  rw [hmove]
  exact if_neg nofun

/-- A packet that routing sends leaves, and the rest of the fabric and the mesh stay. -/
theorem switchPacket_leaves {s : State} (hports : u.fab.ports = s.fab.ports) {n : Nat} {y : FabPacket} (h : u.nextHop x = .send n y) :
    s.Leaves (switchPacket u none x) n y ∧ (switchPacket u none x).mesh = u.mesh ∧
      (switchPacket u none x).fab = { u.fab with ports := (switchPacket u none x).fab.ports } := by
  have hnote := u.noteEscape_regsOnly x y
  obtain ⟨hleaves, honly⟩ := sendOn_leaves s ((hnote.fport n).trans (State.fport_congr hports n)) y
  rw [switchPacket_sends hdst h]
  refine ⟨hleaves, honly.mesh.trans hnote.mesh, honly.fab.trans ?_⟩
  rw [hnote.fab]

end

/-- The command that carries a packet of the module's engines gives it to the switch. -/
theorem exec_fabPacket {i : Instr} {x : FabPacket} (h : (i = .fabWrite x ∧ x.ptype = 1) ∨ (i = .fabWriteAck x ∧ x.ptype = 2) ∨
    (i = .fabNack x ∧ x.ptype = 3) ∨ (i = .fabSync x ∧ x.ptype = 4) ∨ (i = .fabSyncRelease x ∧ x.ptype = 5)) (s : State) :
    exec i s = .next (switchPacket s none x) := by
  obtain ⟨rfl, ht⟩ | ⟨rfl, ht⟩ | ⟨rfl, ht⟩ | ⟨rfl, ht⟩ | ⟨rfl, ht⟩ := h
  · exact congrArg Host.Outcome.next (if_pos ht)
  · exact congrArg Host.Outcome.next (if_pos ht)
  · exact congrArg Host.Outcome.next (if_pos ht)
  · exact congrArg Host.Outcome.next (if_pos ht)
  · exact congrArg Host.Outcome.next (if_pos ht)

/-- An acknowledged WRITE of a SEND is no more outstanding (12 R362, 02 R72). -/
theorem finishRemote_acked {s : State} {tag : Nat} {r : RemoteWrite} {e : QEntry}
    (hr : s.fab.outgoing.find? (fun r => decide (r.tag = tag)) = some r) (he : (s.tile r.ti).entry? r.ref = some e) :
    finishRemote s tag true = State.setTile { s with fab := { s.fab with outgoing := s.fab.outgoing.filter (fun y => y.tag ≠ tag) } } r.ti
      ((s.tile r.ti).putEntry { e with outstanding := e.outstanding - r.count }) := by
  unfold finishRemote
  rw [hr]
  extract_lets fab t
  dsimp -zeta only
  rw [show (t.tile r.ti).entry? r.ref = some e from he]
  rfl

/-! ## A packet that has waited (12 R374) -/

section
variable {s : State} {x : FabPacket} (hin : x ∈ s.fab.transit)
include hin

theorem unqueue_transit : unqueue s x = some ({ s with fab := { s.fab with transit := s.fab.transit.erase x } }, none) :=
  if_pos (List.contains_iff_mem.2 hin)

theorem leaveBy_transit (y : FabPacket) (n : Nat) :
    leaveBy s x y n = sendOn { s with fab := { s.fab with transit := s.fab.transit.erase x } } n y := by
  unfold leaveBy
  rw [unqueue_transit hin]

/-- A packet that has waited leaves, counted. -/
theorem leaveBy_leaves (y : FabPacket) (n a : Nat) : s.Leaves ((leaveBy s x y n).count a 1) n y ∧
    s.Counted ((leaveBy s x y n).count a 1) a 1 ∧ ((leaveBy s x y n).count a 1).fab.transit = s.fab.transit.erase x := by
  obtain ⟨hleaves, honly⟩ := sendOn_leaves s (u := { s with fab := { s.fab with transit := s.fab.transit.erase x } }) (n := n) rfl y
  rw [leaveBy_transit hin]
  refine ⟨hleaves.congr (State.count_out ..) (congrArg Fabric.ports (State.count_fab ..)), State.count_counted honly.regs a 1, ?_⟩
  rw [State.count_fab, honly.fab]

end

/-- On the escape route a packet keeps its form. -/
theorem nextHop_escape {s : State} {x y : FabPacket} {n : Nat} (hx : x.vl = 3) (h : s.nextHop x = .send n y) : y = x := by
  unfold State.nextHop at h
  rw [if_pos hx] at h
  dsimp only at h
  split at h
  · exact absurd h nofun
  · split at h
    · exact absurd h nofun
    · split at h
      · injection h with _ hy
        exact hy.symm
      · exact absurd h nofun

/-! ## PORT packets of the mesh (12 R375) -/

/-- The WRITE of one PORT packet. -/
def State.portWrite (s : State) (p : Packet) : FabPacket :=
  ⟨1, 2, 0, 0, p.remote.getD 0, p.tag % 4096, s.fabAddr, p.srcId, p.chan, p.rtag, p.len, p.addr, s.fab.nextTag, p.pieces, false⟩

/-- The switch as it takes the WRITE of one PORT packet. -/
def State.portTaken (s : State) (p : Packet) : State :=
  { s with mesh := s.mesh.erase p, fab := { s.fab with merge := [], nextTag := s.fab.nextTag + 1, outgoing := s.fab.outgoing ++ [⟨s.fab.nextTag, p.srcId, p.ref, 1⟩] } }

/-- Routing depends on the registers, the ports and the map in force. -/
theorem State.nextHop_portTaken (s : State) (p : Packet) (x : FabPacket) : (s.portTaken p).nextHop x = s.nextHop x := rfl

theorem mergedWrite_single (s : State) (p : Packet) : mergedWrite s [p] = switchPacket
    { s with fab := { s.fab with merge := [], nextTag := s.fab.nextTag + 1, outgoing := s.fab.outgoing ++ [⟨s.fab.nextTag, p.srcId, p.ref, 1⟩] } }
    none (s.portWrite p) := by
  have hpieces : [p].flatMap (fun q => q.pieces.map (fun x => { x with idx := x.idx + (q.addr - p.addr) / 32 })) = p.pieces := by
    simp
  have hlen : ([p].map (·.len)).foldl (· + ·) 0 = p.len := Nat.zero_add _
  unfold mergedWrite
  dsimp only [List.head?_cons]
  rw [hpieces, hlen]
  rfl

theorem execPortPacket_single {s : State} {p : Packet} (hcrc : p.crcBad = false) (htag : p.tag < 4096) (hmerge : s.fab.merge = [])
    (hlast : ∀ q ∈ s.mesh, q.ptype = .port → continues p q = false) :
    execPortPacket p s = .next (switchPacket (s.portTaken p) none (s.portWrite p)) := by
  have harrive : s.arrive p = { s with mesh := s.mesh.erase p } := if_neg (by simp [hcrc])
  have hkind : p.tag / 4096 = 0 := Nat.div_eq_of_lt htag
  unfold execPortPacket
  rw [harrive]
  extract_lets t dst held size joins u now total more fab
  have hheld : held = [] := hmerge
  have hjoins : joins = false := by
    unfold joins
    rw [hheld]
    rfl
  have hu : u = t := by
    unfold u
    rw [if_pos (by simp [hheld])]
  have hnow : now = [p] := by
    unfold now
    rw [hjoins]
    rfl
  have hmore : more = false := by
    unfold more
    rw [hu, List.any_eq_false]
    intro q hq
    have hq' := hlast q (List.mem_of_mem_erase hq)
    by_cases hp : q.ptype = .port
    · simp [hq' hp]
    · simp [hp]
  rw [if_neg (by omega), if_neg (by omega), if_neg (by simp [hmore]), hnow, hu, mergedWrite_single]
  rfl

/-! ## FABRIC_STALL (12 R383) -/

theorem execFabricStall_stalls {s : State} {port vl : Nat} (hport : port < 12) (hheld : (s.fport port).buffers.any (fun y => decide (y.1 = vl)) = true) :
    execFabricStall port vl s = .next (recordEvent
      (((s.fport port).buffers.filter (fun y => decide (y.1 = vl))).foldl (fun s y => freeFlits s port y.2)
        (s.setFport port { s.fport port with buffers := (s.fport port).buffers.filter (fun y => y.1 ≠ vl) }))
      0x0808 0 port vl ((s.fport port).buffers.filter (fun y => decide (y.1 = vl))).length) := by
  obtain ⟨y, hy, hvl⟩ := List.any_eq_true.1 hheld
  have hne : (s.fport port).buffers.filter (fun y => decide (y.1 = vl)) ≠ [] := List.ne_nil_of_mem (List.mem_filter.2 ⟨hy, hvl⟩)
  exact if_neg (by simp only [Nat.not_le.2 hport, false_or, List.isEmpty_iff]; exact hne)

/-- Settles O47: every packet of the module's engines goes through the switch, and a packet that leaves is one codeword on its port. -/
theorem fabricPacketsTravel : Obligations.FabricPacketsTravel := by
  unfold Obligations.FabricPacketsTravel
  refine ⟨?leaves, ?written, ?acked, ?merged, ?misrouted, ?escaped, ?stalled⟩
  case leaves =>
    intro s x i hi hdst
    rw [exec_fabPacket hi]
    refine ⟨fun n y hhop => ?_, fun hhop => ⟨_, rfl, switchPacket_waits hdst hhop⟩⟩
    obtain ⟨hleaves, hmesh, hfab⟩ := switchPacket_leaves hdst (s := s) rfl hhop
    refine ⟨_, rfl, hleaves, ?_, hmesh⟩
    rw [hfab]
  case written =>
    intro s x ht hdst hcrc
    have hex := exec_fabPacket (.inl ⟨rfl, ht⟩) s
    rw [switchPacket_own hdst, deliverFab_write hcrc ht] at hex
    exact ⟨_, hex, rfl, rfl, rfl⟩
  case acked =>
    intro s x r e ht hdst hcrc hr he
    have hex := exec_fabPacket (.inr (.inl ⟨rfl, ht⟩)) s
    rw [switchPacket_own hdst, deliverFab_ack hcrc ht, finishRemote_acked hr he] at hex
    refine ⟨_, hex, ?_, fun y hy => by simpa using (List.mem_filter.1 hy).2⟩
    rw [State.tile_setTile_same]
    exact Tile.mem_putEntry (List.mem_of_find?_eq_some he) rfl
  case merged =>
    intro s p dst n x y hcrc hremote htag hdst hmerge hlast hx hhop
    have hwrite : s.portWrite p = x := by
      rw [hx, State.portWrite, hremote, Nat.mod_eq_of_lt htag]
      rfl
    have hex := execPortPacket_single hcrc htag hmerge hlast
    rw [hwrite] at hex
    have hdst' : x.dst ≠ (s.portTaken p).fabAddr := by
      rw [hx]
      exact hdst
    obtain ⟨hleaves, hmesh, hfab⟩ := switchPacket_leaves (s := s) hdst' rfl ((State.nextHop_portTaken s p x).trans hhop)
    refine ⟨_, hex, hleaves, hmesh, ?_, ?_⟩
    · rw [hfab]
      rfl
    · rw [hfab]
      rfl
  case misrouted =>
    intro s x n hin hvl hmis hmin hextra
    have hex : execMisrouteWait x s = .next ((leaveBy s x { x with misroute := x.misroute + 1 } n).count Reg.FAB_MISROUTED 1) := by
      unfold execMisrouteWait
      rw [if_neg (by simp [unqueue_transit hin, hvl, Nat.not_le.2 hmis, hmin]), hextra]
    exact ⟨_, hex, leaveBy_leaves hin _ n _⟩
  case escaped =>
    intro s x y n hin hvl hhop
    have hex : execEscapeWait x s = .next ((leaveBy s x y n).count Reg.FAB_ESCAPED 1) := by
      unfold execEscapeWait
      dsimp only
      rw [if_neg (by simp [unqueue_transit hin, hvl]), hhop]
    obtain ⟨hleaves, hcount, htransit⟩ := leaveBy_leaves hin y n Reg.FAB_ESCAPED
    have hy : y = { x with vl := 3 } := nextHop_escape rfl hhop
    exact ⟨_, hex, hleaves, congrArg FabPacket.vl hy, hcount, htransit⟩
  case stalled =>
    intro s port vl hport hheld
    obtain ⟨honly, hbuf⟩ := foldl_freeFlits port ((s.fport port).buffers.filter (fun y => decide (y.1 = vl)))
      (s.setFport port { s.fport port with buffers := (s.fport port).buffers.filter (fun y => y.1 ≠ vl) })
    refine ⟨_, execFabricStall_stalls hport hheld, ?_, recordEvent_recordsFor honly.evt honly.sup honly.now honly.tb⟩
    rw [State.fport_congr (congrArg Fabric.ports (recordEvent_fab ..)), hbuf, State.fport_setFport_same]

end Sys2Proof.Machine

namespace Sys2Proof.Machine

/-! ## Messages to the neighbours (12 R368, R370) -/

theorem flood_eq (s : State) (ports : List Nat) (m : Ctrl) : flood s ports m = s.emits (ports.map (fun n => .ctrl (some n) 0 m)) := by
  rw [List.map_eq_flatMap]
  exact foldl_emits (f := fun _ n => [.ctrl (some n) 0 m]) (fun _ _ _ => rfl) ports s

theorem announce_eq {s : State} {c : Candidate} (h : s.fab.cand = some c) :
    announce s = s.emits (s.upPorts.map (fun n => .ctrl (some n) 0 (.rootAnnounce c.id s.fcn))) := by
  unfold announce
  rw [h]
  exact flood_eq ..

section
variable {s t : State} (hports : t.fab.ports = s.fab.ports) (hregs : ∀ n, n < 12 → t.reg (Reg.FAB_PORT_STATUS + n) = s.reg (Reg.FAB_PORT_STATUS + n))
include hports hregs

theorem State.upPorts_congr : t.upPorts = s.upPorts :=
  List.filter_congr fun n hn =>
    State.fup_congr (congrArg (getBits · 2 0) (hregs n (List.mem_range.1 hn))) (State.fport_congr hports n)

theorem State.linkRecs_congr : t.linkRecs = s.linkRecs := by
  unfold State.linkRecs
  rw [State.upPorts_congr hports hregs]
  exact congrArg (fun f => s.upPorts.filterMap f) (funext fun n => by rw [State.fport_congr hports n])

end

namespace State.RegsAndEvents
variable {s t : State} {l : List Nat} (h : s.RegsAndEvents t l)
include h

theorem fab : t.fab = s.fab := by rw [h.2]
theorem out : t.out = s.out := by rw [h.2]

/-- A register of the fabric outside the list. -/
theorem fabReg {a : Nat} (ha : 0x80000 ≤ a ∧ a < 0x90000) (hl : a ∉ l) : t.reg a = s.reg a :=
  h.1 a (fun hm => (List.mem_append.1 hm).elim hl (fabReg_notMem_eventRegs ha))

end State.RegsAndEvents

/-! ## Candidates (12 R368, R380) -/

section
variable (s : State) (on : Bool)

theorem setNoRoot_frame : s.RegsAndEvents (setNoRoot s on) [Reg.FAB_STATUS] := by
  unfold setNoRoot
  split
  · exact ⟨fun _ _ => rfl, rfl⟩
  · exact (s.setFld_regsOnly ..).events.trans (recordEvent_frame ..)

theorem setNoRoot_isRoot : (setNoRoot s on).isRoot = s.isRoot := by
  unfold setNoRoot State.isRoot
  split
  · rfl
  · rw [recordEvent_fld _ _ _ _ _ _ _ _ (fabReg_notMem_eventRegs (by decide)), State.fld_setFld_disjoint _ _ _ (by decide) (by decide) (.inr (by decide))]

theorem setNoRoot_shown : (setNoRoot s true).fld Reg.FAB_STATUS 30 30 = 1 := by
  unfold setNoRoot
  split
  next h => simpa using h
  next => rw [recordEvent_fld _ _ _ _ _ _ _ _ (fabReg_notMem_eventRegs (by decide)), State.fld_setFld_same _ _ _ (by decide) (by decide)]; rfl

variable {s}

theorem setNoRoot_clear (h : s.fld Reg.FAB_STATUS 30 30 = 0) : setNoRoot s false = s := if_pos (by simp [h])

end

/-- A module that has taken a candidate, before it announces it: a root that hears another candidate is one no longer. -/
def State.followed (s : State) (id : Nat) : State :=
  if (setCand s (some ⟨id⟩)).isRoot && decide (id ≠ selfId) then (setCand s (some ⟨id⟩)).setFld Reg.FAB_STATUS 31 31 0
  else setCand s (some ⟨id⟩)

section
variable (s : State) (id : Nat)

theorem newCand_eq : newCand s id = announce (setNoRoot (s.followed id) false) := rfl

theorem State.followed_regsOnly : (setCand s (some ⟨id⟩)).RegsOnly (s.followed id) [Reg.FAB_STATUS] := by
  unfold State.followed
  split
  · exact State.setFld_regsOnly ..
  · exact ⟨fun _ _ => rfl, rfl⟩

theorem State.followed_isRoot {id : Nat} (h : id ≠ selfId) : (s.followed id).isRoot = false := by
  unfold State.followed
  by_cases hr : (setCand s (some ⟨id⟩)).isRoot = true
  · rw [if_pos (by simp [hr, h])]
    exact decide_eq_false (by rw [State.fld_setFld_same _ _ _ (by decide) (by decide)]; decide)
  · rw [if_neg (by simp [hr])]
    exact Bool.eq_false_iff.2 hr

/-- A module that takes a candidate tells its neighbours. -/
theorem newCand_announces : (newCand s id).fab.cand = some ⟨id⟩ ∧
    (newCand s id).out = s.out ++ s.upPorts.map (fun n => .ctrl (some n) 0 (.rootAnnounce id s.fcn)) ∧
    (id ≠ selfId → (newCand s id).isRoot = false) := by
  have hframe := (s.followed_regsOnly id).events.trans (setNoRoot_frame (s.followed id) false)
  have hcand : (setNoRoot (s.followed id) false).fab.cand = some ⟨id⟩ := congrArg Fabric.cand hframe.fab
  have hports : (setNoRoot (s.followed id) false).fab.ports = s.fab.ports := (congrArg Fabric.ports hframe.fab).trans rfl
  have hup : (setNoRoot (s.followed id) false).upPorts = s.upPorts :=
    State.upPorts_congr hports fun n hn => hframe.fabReg
      (by have := portStatus_bounds hn; omega) (by have := portStatus_bounds hn; simp [Reg.FAB_STATUS]; omega)
  have hfcn : (setNoRoot (s.followed id) false).fcn = s.fcn := congrArg BitVec.toNat (hframe.fabReg (by decide) (by decide))
  rw [newCand_eq, announce_eq hcand, hup, hfcn]
  refine ⟨hcand, congrArg (· ++ _) hframe.out, fun h => ?_⟩
  exact (setNoRoot_isRoot (s.followed id) false).trans (s.followed_isRoot h)

end

theorem execRootAnnounce_lower {s : State} {port candidate : Nat} (hup : s.fup port = true)
    (hlow : ∀ c, s.fab.cand = some c → candidate < c.id) (fcn : Nat) :
    execRootAnnounce port candidate fcn s = .next (newCand s candidate) := by
  unfold execRootAnnounce
  rw [if_neg (by simp [hup])]
  split
  next => rfl
  next c hc => exact if_pos (hlow c hc)

theorem execRootAnnounce_higher {s : State} {candidate : Nat} {c : Candidate} (hc : s.fab.cand = some c)
    (h : c.id ≤ candidate) (port fcn : Nat) : execRootAnnounce port candidate fcn s = .next s := by
  unfold execRootAnnounce
  rw [hc]
  split
  · rfl
  · exact if_neg (Nat.not_lt.2 h)

theorem execCandidateExpiry_silent {s : State} {c : Candidate} (hc : s.fab.cand = some c) (h : c.id ≠ selfId) :
    execCandidateExpiry s = .next (if s.eligible then newCand s selfId else setNoRoot (setCand s none) true) := by
  unfold execCandidateExpiry
  rw [hc]
  refine (if_neg h).trans ?_
  split
  · rfl
  · rfl

/-! ## The root (12 R368, R369) -/

/-- The low bits of a field that begins at bit 0. -/
theorem getBits_low (w : Word) {hi hi' : Nat} (h : hi' ≤ hi) : getBits w hi' 0 = getBits w hi 0 % 2 ^ (hi' + 1) :=
  (Nat.mod_mod_of_dvd _ (Nat.pow_dvd_pow 2 (Nat.succ_le_succ h))).symm

/-- A module that has begun to act as root, before it says so. -/
def State.rooted (s : State) : State := (s.setFld Reg.FAB_STATUS 31 31 1).setReg64 Reg.FAB_ROOT_ID_LO selfId

/-- A new root, which has said so. -/
def State.crowned (s : State) : State :=
  recordEvent s.rooted 0x0804 0 (selfId % 2 ^ 32) (s.reg Reg.FAB_ROOT_ID_LO).toNat s.rooted.fcn

/-- A new root with the address 0. -/
def State.rootAddressed (s : State) : State := (s.crowned.setFld Reg.FAB_ADDR 31 31 1).setFld Reg.FAB_ADDR 21 0 0

section
variable (s : State)

theorem State.rooted_regsOnly : s.RegsOnly s.rooted [Reg.FAB_STATUS, Reg.FAB_ROOT_ID_LO, Reg.FAB_ROOT_ID_LO + 1] :=
  ((s.setFld_regsOnly ..).mono (by simp)).trans ((State.setReg64_regsOnly ..).mono (by simp))

theorem State.rooted_fcn : s.rooted.fcn = s.fcn := congrArg BitVec.toNat (s.rooted_regsOnly.1 _ (by decide))

theorem State.crowned_reg {a : Nat} (ha : 0x80000 ≤ a ∧ a < 0x90000) : s.crowned.reg a = s.rooted.reg a :=
  recordEvent_reg _ _ _ _ _ _ (fabReg_notMem_eventRegs ha)

theorem State.crowned_status (hi lo : Nat) : s.crowned.fld Reg.FAB_STATUS hi lo = (s.setFld Reg.FAB_STATUS 31 31 1).fld Reg.FAB_STATUS hi lo :=
  congrArg (getBits · hi lo) ((s.crowned_reg (by decide)).trans ((State.setReg64_regsOnly ..).1 _ (by decide)))

theorem State.crowned_records :
    s.Records s.crowned (s.record 0x0804 0 (selfId % 2 ^ 32) (s.reg Reg.FAB_ROOT_ID_LO).toNat s.fcn) := by
  rw [← s.rooted_fcn]
  exact s.rooted_regsOnly.records _ _ _ _ _

theorem State.rootAddressed_regsOnly : s.crowned.RegsOnly s.rootAddressed [Reg.FAB_ADDR] :=
  (State.setFld_regsOnly ..).trans (State.setFld_regsOnly ..)

theorem State.rootAddressed_isRoot : s.rootAddressed.isRoot = true := by
  have h := s.rootAddressed_regsOnly.1.fld (a := Reg.FAB_STATUS) (by decide) 31 31
  unfold State.isRoot
  rw [h, s.crowned_status, State.fld_setFld_same _ _ _ (by decide) (by decide)]
  decide

theorem State.rootAddressed_addr : s.rootAddressed.fabAddr = 0 := by
  have h : s.rootAddressed.fld Reg.FAB_ADDR 21 0 = 0 % 2 ^ 22 := State.fld_setFld_same _ _ 0 (by decide) (by decide)
  have hlow : s.rootAddressed.fabAddr = s.rootAddressed.fld Reg.FAB_ADDR 21 0 % 2 ^ 14 := getBits_low _ (by decide)
  rw [hlow, h]
  rfl

theorem State.rootAddressed_addressed : s.rootAddressed.fld Reg.FAB_ADDR 31 31 = 1 :=
  (State.fld_setFld_disjoint _ _ 0 (by decide) (by decide) (.inr (by decide))).trans (State.fld_setFld_same _ _ 1 (by decide) (by decide))

theorem selfId_lt : selfId < 2 ^ 64 := Config.moduleId.isLt

theorem State.rootAddressed_rootId : s.rootAddressed.reg64 Reg.FAB_ROOT_ID_LO = selfId := by
  have hreg : ∀ a, Reg.FAB_ROOT_ID_LO ≤ a → a < 0x90000 → s.rootAddressed.reg a = s.rooted.reg a := fun a ha hb =>
    (s.rootAddressed_regsOnly.1 a (by simp [Reg.FAB_ADDR, Reg.FAB_ROOT_ID_LO] at *; omega)).trans
      (s.crowned_reg ⟨Nat.le_trans (by decide) ha, hb⟩)
  rw [State.reg64_congr (hreg _ (by decide) (by decide)) (hreg _ (by decide) (by decide))]
  exact (State.reg64_setReg64 ..).trans (Nat.mod_eq_of_lt selfId_lt)

end

/-- A root that knows a list of modules. -/
def State.withBuilding (s : State) (l : List RootEntry) : State := { s with fab := { s.fab with building := l } }

/-- What a new root knows of itself. -/
def State.rootEntry (s : State) : RootEntry := ⟨⟨selfId, 0, 0, true, s.fenced .west, s.fenced .east, none, 0, []⟩, some s.linkRecs⟩

/-- A candidate without a map begins one. -/
theorem becomeRoot_begins {s : State} (hc : s.fab.cand = some ⟨selfId⟩) (he : s.eligible = true) (hr : s.isRoot = false)
    (ha : s.fab.active = none) (hno : s.fld Reg.FAB_STATUS 30 30 = 0) :
    becomeRoot s = rootStep (s.rootAddressed.withBuilding [s.rootAddressed.rootEntry]) := by
  have hclear : setNoRoot s.crowned false = s.crowned :=
    setNoRoot_clear ((s.crowned_status 30 30).trans ((s.fld_setFld_disjoint _ 1 (by decide) (by decide) (.inl (by decide))).trans hno))
  have hactive : s.crowned.fab.active = none := (congrArg Fabric.active ((recordEvent_fab ..).trans s.rooted_regsOnly.fab)).trans ha
  unfold becomeRoot
  rw [hc]
  extract_lets old s1 s2 fab1 s3 e
  have hs2 : s2 = s.crowned := hclear
  have hs3 : s3 = s.rootAddressed := congrArg (fun t => (t.setFld Reg.FAB_ADDR 31 31 1).setFld Reg.FAB_ADDR 21 0 0) hs2
  refine (if_neg (by simp [he, hr])).trans ?_
  rw [← hs3]
  split
  next m hm => exact absurd (hm.symm.trans ((congrArg (·.fab.active) hs2).trans hactive)) nofun
  next => rfl

/-! ## The modules of a map (12 R369, R370) -/

/-- A root that waits for the links of a module and knows of no other waits on. -/
theorem rootStep_waits {s : State} (hwait : ∃ e ∈ s.fab.building, e.recs = none) (hknown : ∀ e ∈ s.fab.building, newPeers s.fab.building e = []) :
    rootStep s = s := by
  obtain ⟨e, he, hrecs⟩ := hwait
  have hany : s.fab.building.any (fun e => e.recs.isNone) = true := List.any_eq_true.2 ⟨e, he, by rw [hrecs]; rfl⟩
  have hnone : freshPeers s.fab.building = [] := List.flatMap_eq_nil_iff.2 fun e he => hknown e (List.mem_mergeSort.1 he)
  unfold rootStep
  extract_lets l fresh
  have hfresh : fresh = [] := hnone
  exact if_pos (by rw [hfresh]; simpa using hany)

theorem newPeers_known {l : List RootEntry} {e : RootEntry} (h : ∀ rs, e.recs = some rs → ∀ r ∈ rs, ∃ x ∈ l, x.entry.moduleId = r.peerId) :
    newPeers l e = [] := by
  unfold newPeers
  split
  next => rfl
  next rs hrs =>
    have hnone : rs.filter (fun r => !l.any (fun x => decide (x.entry.moduleId = r.peerId))) = [] :=
      List.filter_eq_nil_iff.2 fun r hr => by simpa using h rs hrs r hr
    rw [hnone, List.mergeSort_nil, List.map_nil]

/-- A module's entry with the links it has reported. -/
def RootEntry.linked (src : Nat) (rs : List LinkRec) (e : RootEntry) : RootEntry := if e.entry.addr = src then { e with recs := some rs } else e

theorem RootEntry.linked_entry (src : Nat) (rs : List LinkRec) (e : RootEntry) : (e.linked src rs).entry = e.entry := by
  unfold RootEntry.linked
  split
  · rfl
  · rfl

/-- Links that name no new module, while a module's are not known. -/
theorem rootLinks_waits {s : State} {src : Nat} {recs : List LinkRec} (hnone : ∀ e ∈ s.fab.building, e.recs = none)
    (hknown : ∀ r ∈ recs, ∃ e ∈ s.fab.building, e.entry.moduleId = r.peerId) (hother : ∃ e ∈ s.fab.building, e.entry.addr ≠ src) :
    rootLinks s src recs = s.withBuilding (s.fab.building.map (RootEntry.linked src recs)) := by
  obtain ⟨e, he, hne⟩ := hother
  refine rootStep_waits ⟨e, List.mem_map.2 ⟨e, he, if_neg hne⟩, hnone e he⟩ fun x hx => newPeers_known fun rs hrs r hr => ?_
  obtain ⟨y, hy, rfl⟩ := List.mem_map.1 hx
  have hrs' : rs = recs := by
    revert hrs
    split
    next => exact fun h => (Option.some.inj h).symm
    next => rw [hnone y hy]; exact nofun
  obtain ⟨z, hz, hid⟩ := hknown r (hrs' ▸ hr)
  exact ⟨_, List.mem_map_of_mem hz, (congrArg MapEntry.moduleId (z.linked_entry src recs)).trans hid⟩

/-- The modules that a root addresses are neighbours of modules it knows. -/
theorem assignNew_moduleId {e : RootEntry} (q : List (Nat × LinkRec)) (l : List RootEntry) (h : e ∈ (assignNew l q).1) :
    e ∈ l ∨ ∃ x ∈ q, e.entry.moduleId = x.2.peerId := by
  induction q generalizing l with
  | nil => exact .inl h
  | cons x q ih =>
    have hlater : ∀ l, e ∈ (assignNew l q).1 → e ∈ l ∨ ∃ y ∈ x :: q, e.entry.moduleId = y.2.peerId := fun l h =>
      (ih l h).imp id fun ⟨y, hy, hid⟩ => ⟨y, List.mem_cons_of_mem _ hy, hid⟩
    obtain ⟨pa, r⟩ := x
    unfold assignNew at h
    split at h
    next => exact hlater l h
    next =>
      obtain hl | hq := hlater _ h
      · obtain hl | hnew := List.mem_append.1 hl
        · exact .inl hl
        · exact .inr ⟨(pa, r), List.mem_cons_self .., by rw [List.mem_singleton.1 hnew]⟩
      · exact .inr hq

theorem mem_freshPeers {l : List RootEntry} {x : Nat × LinkRec} (h : x ∈ freshPeers l) : ∃ e ∈ l, ∃ rs, e.recs = some rs ∧ x.2 ∈ rs := by
  obtain ⟨e, he, hx⟩ := List.mem_flatMap.1 h
  refine ⟨e, List.mem_mergeSort.1 he, ?_⟩
  unfold newPeers at hx
  split at hx
  next => exact absurd hx List.not_mem_nil
  next rs hrs =>
    obtain ⟨r, hr, rfl⟩ := List.mem_map.1 hx
    exact ⟨rs, hrs, (List.mem_filter.1 (List.mem_mergeSort.1 hr)).1⟩

/-- A root that neither knows a module nor hears of it as a neighbour does not take it up. -/
theorem rootStep_without {s : State} {id : Nat} (hgone : ∀ e ∈ s.fab.building, e.entry.moduleId ≠ id)
    (hunheard : ∀ e ∈ s.fab.building, ∀ rs, e.recs = some rs → ∀ r ∈ rs, r.peerId ≠ id) :
    ∀ e ∈ (rootStep s).fab.building, e.entry.moduleId ≠ id := by
  intro e he
  obtain h | ⟨o, h⟩ | ⟨p, m, r, o, h⟩ := rootStep_cases s
  · exact hgone e (h ▸ he)
  · rw [h] at he
    obtain he | ⟨x, hx, hid⟩ := assignNew_moduleId _ _ he
    · exact hgone e he
    · obtain ⟨y, hy, rs, hrs, hr⟩ := mem_freshPeers hx
      exact hid ▸ hunheard y hy rs hrs x.2 hr
  · rw [h] at he
    exact hgone e (List.mem_filter.1 he).1

/-- A root's list without a module. -/
def withoutModule (l : List RootEntry) (id : Nat) : List RootEntry :=
  (l.filter (fun e => e.entry.moduleId ≠ id)).map (fun e => { e with recs := e.recs.map (fun rs => rs.filter (fun r => r.peerId ≠ id)) })

theorem execLeave_root {s : State} (hr : s.isRoot = true) (id : Nat) :
    execLeave id s = .next (rootStep (s.withBuilding (withoutModule s.fab.building id))) := if_neg (by simp [hr])

theorem rootStep_leave (s : State) (id : Nat) :
    ∀ e ∈ (rootStep (s.withBuilding (withoutModule s.fab.building id))).fab.building, e.entry.moduleId ≠ id := by
  refine rootStep_without (fun e he => ?_) (fun e he rs hrs r hr => ?_)
  all_goals obtain ⟨y, hy, rfl⟩ := List.mem_map.1 he
  · simpa using (List.mem_filter.1 hy).2
  · obtain ⟨rs', -, rfl⟩ := Option.map_eq_some_iff.1 hrs
    simpa using (List.mem_filter.1 hr).2

end Sys2Proof.Machine

namespace Sys2Proof.Machine

@[simp] theorem State.emits_fld (s : State) (l : List Output) (a hi lo : Nat) : (s.emits l).fld a hi lo = s.fld a hi lo := rfl

@[simp] theorem State.withBuilding_reg (s : State) (l : List RootEntry) (a : Nat) : (s.withBuilding l).reg a = s.reg a := rfl

@[simp] theorem State.withBuilding_fld (s : State) (l : List RootEntry) (a hi lo : Nat) : (s.withBuilding l).fld a hi lo = s.fld a hi lo := rfl

@[simp] theorem State.withBuilding_evt (s : State) (l : List RootEntry) : (s.withBuilding l).evt = s.evt := rfl

theorem State.RegsOnly.evt {s t : State} {l : List Nat} (h : s.RegsOnly t l) : t.evt = s.evt := by rw [h.2]

/-- A new root after its first work. -/
theorem State.RootWork.newRoot {s t : State} {l : List RootEntry} (h : (s.rootAddressed.withBuilding l).RootWork t) :
    t.isRoot = true ∧ t.fabAddr = 0 ∧ t.fld Reg.FAB_ADDR 31 31 = 1 ∧ t.reg64 Reg.FAB_ROOT_ID_LO = selfId ∧
      s.Records t (s.record 0x0804 0 (selfId % 2 ^ 32) (s.reg Reg.FAB_ROOT_ID_LO).toNat s.fcn) := by
  have hreg : ∀ a, Reg.FAB_STATUS < a → t.reg a = s.rootAddressed.reg a := fun a ha => (h.fabReg ha).trans (State.withBuilding_reg ..)
  have hroot : t.fld Reg.FAB_STATUS 31 31 = s.rootAddressed.fld Reg.FAB_STATUS 31 31 :=
    (h.status 31 31 (.inr (by decide))).trans (State.withBuilding_fld ..)
  have hevt : t.evt = s.rootAddressed.evt := h.evt.trans (State.withBuilding_evt ..)
  refine ⟨?_, ?_, ?_, ?_, ?_⟩
  · exact (congrArg (fun v => decide (v = 1)) hroot).trans s.rootAddressed_isRoot
  · exact (congrArg (getBits · 13 0) (hreg _ (by decide))).trans s.rootAddressed_addr
  · exact (congrArg (getBits · 31 31) (hreg _ (by decide))).trans s.rootAddressed_addressed
  · exact (State.reg64_congr (hreg _ (by decide)) (hreg _ (by decide))).trans s.rootAddressed_rootId
  · exact State.Records.congr s.crowned_records (hevt.trans s.rootAddressed_regsOnly.evt)

/-! ## Addresses (12 R369) -/

/-- A module that has taken its address. -/
def State.withAddr (s : State) (addr level : Nat) : State :=
  ((s.setFld Reg.FAB_ADDR 31 31 1).setFld Reg.FAB_ADDR 21 16 level).setFld Reg.FAB_ADDR 13 0 addr

section
variable (s : State) (addr level : Nat)

theorem State.withAddr_regsOnly : s.RegsOnly (s.withAddr addr level) [Reg.FAB_ADDR] :=
  ((State.setFld_regsOnly ..).trans (State.setFld_regsOnly ..)).trans (State.setFld_regsOnly ..)

theorem State.withAddr_addr : (s.withAddr addr level).fabAddr = addr % 2 ^ 14 := State.fld_setFld_same _ _ addr (by decide) (by decide)

theorem State.withAddr_level : (s.withAddr addr level).fld Reg.FAB_ADDR 21 16 = level % 64 :=
  (State.fld_setFld_disjoint _ _ addr (by decide) (by decide) (.inr (by decide))).trans (State.fld_setFld_same _ _ level (by decide) (by decide))

theorem State.withAddr_valid : (s.withAddr addr level).fld Reg.FAB_ADDR 31 31 = 1 :=
  (State.fld_setFld_disjoint _ _ addr (by decide) (by decide) (.inr (by decide))).trans
    ((State.fld_setFld_disjoint _ _ level (by decide) (by decide) (.inr (by decide))).trans (State.fld_setFld_same _ _ 1 (by decide) (by decide)))

theorem State.withAddr_linkRecs : (s.withAddr addr level).linkRecs = s.linkRecs := by
  have h := s.withAddr_regsOnly addr level
  exact State.linkRecs_congr (congrArg Fabric.ports h.fab) fun n hn => h.1 _ (by have := portStatus_bounds hn; simp [Reg.FAB_ADDR]; omega)

/-- Only a module that moves to another address says so and ends its ensembles. -/
theorem takeAddr_eq : takeAddr s addr level = if s.fld Reg.FAB_ADDR 31 31 = 1 ∧ s.fabAddr ≠ addr
    then breakAll (recordEvent (s.withAddr addr level) 0x0806 0 s.fabAddr addr (s.withAddr addr level).fcn) 4 else s.withAddr addr level := by
  unfold takeAddr
  extract_lets old had t
  by_cases h : s.fld Reg.FAB_ADDR 31 31 = 1 ∧ s.fabAddr ≠ addr
  · rw [if_pos h]
    exact if_pos (by simp [had, old, h])
  · rw [if_neg h]
    exact if_neg (by simpa [had, old] using h)

end

/-- The module's own address. -/
theorem execAssign_own {s : State} {addr : Nat} (h : s.fld Reg.FAB_ADDR 31 31 = 0 ∨ s.fabAddr = addr) (level parentPort : Nat) :
    execAssign selfId addr level parentPort s =
      .next ((s.withAddr addr level).emits [.ctrl (some parentPort) 0 (.links s.linkRecs)]) := by
  have htake : takeAddr s addr level = s.withAddr addr level := by
    rw [takeAddr_eq, if_neg]
    rintro ⟨hvalid, hmoved⟩
    rcases h with h | h
    · rw [h] at hvalid
      exact absurd hvalid (by decide)
    · exact hmoved h
  unfold execAssign
  rw [if_pos rfl, htake, ← s.withAddr_linkRecs addr level]
  rfl

/-- The address of a neighbour. -/
theorem execAssign_passes {s : State} {id n : Nat} (hid : id ≠ selfId) (h : s.upPorts.find? (fun n => (s.fport n).faces id) = some n)
    (addr level parentPort : Nat) : execAssign id addr level parentPort s =
      .next (s.emits [.ctrl (some n) 0 (.assign id addr level parentPort)]) := by
  unfold execAssign
  rw [if_neg hid]
  split
  next k hk => rw [Option.some.inj (hk.symm.trans h)]; rfl
  next hk => exact absurd (hk.symm.trans h) nofun

/-! ## Maps (12 R370) -/

/-- A module that keeps a map, with the answer it sends. -/
def State.mapped (s : State) (m : FabMap) : State :=
  State.setFld { s with fab := { s.fab with next := some m } } Reg.FAB_STATUS 29 29 1

theorem State.mapped_regsOnly (s : State) (m : FabMap) :
    State.RegsOnly { s with fab := { s.fab with next := some m } } (s.mapped m) [Reg.FAB_STATUS] := State.setFld_regsOnly ..

theorem State.mapped_pending (s : State) (m : FabMap) : (s.mapped m).fld Reg.FAB_STATUS 29 29 = 1 :=
  State.fld_setFld_same _ _ 1 (by decide) (by decide)

theorem State.mapped_frame (s : State) (m : FabMap) : s.RegsFrame (s.mapped m) [Reg.FAB_STATUS] := (s.mapped_regsOnly m).1

theorem execMap_newer {s : State} {fcn : Nat} (h : ∀ m, s.fab.active = some m → m.fcn < fcn) (entries : List MapEntry) :
    execMap fcn entries s = .next ((s.mapped ⟨fcn, entries⟩).emits [.ctrl s.parentPort 0 (.mapReady fcn)]) := by
  unfold execMap
  refine if_neg ?_
  split
  next m hm => simpa using h m hm
  next => exact Bool.false_ne_true

/-- A root that has a module's answer to its map. -/
def State.answered (s : State) (src : Nat) : State :=
  { s with fab := { s.fab with ready := if s.fab.ready.contains src then s.fab.ready else s.fab.ready ++ [src] } }

theorem State.mem_answered {s : State} {src a : Nat} : a ∈ (s.answered src).fab.ready ↔ a = src ∨ a ∈ s.fab.ready := by
  unfold State.answered
  dsimp only
  split
  next h =>
    have hsrc : src ∈ s.fab.ready := by simpa using h
    exact ⟨.inr, fun ha => ha.elim (fun e => e ▸ hsrc) id⟩
  next => simp [or_comm]

theorem floodActivate_root {s : State} {m : FabMap} (hr : s.isRoot = true) (hnext : s.fab.next = some m) :
    floodActivate s = activateMap (flood s s.upPorts (.activate m.fcn)) m := by
  unfold floodActivate
  rw [hnext]
  exact if_pos hr

/-- A root hears an answer to its map. -/
theorem execMapReady_answered {s : State} {m : FabMap} (hr : s.isRoot = true) (hnext : s.fab.next = some m) (src : Nat) :
    execMapReady src m.fcn s = .next (if ∀ e ∈ m.entries, e.addr = src ∨ e.addr ∈ s.fab.ready then floodActivate (s.answered src) else s.answered src) := by
  have hall : m.entries.all (fun e => (s.answered src).fab.ready.contains e.addr) = true ↔ ∀ e ∈ m.entries, e.addr = src ∨ e.addr ∈ s.fab.ready := by
    simp [State.mem_answered]
  unfold execMapReady
  rw [if_neg (by simp [hr]), hnext]
  refine (if_neg (fun h => h rfl)).trans ?_
  by_cases h : ∀ e ∈ m.entries, e.addr = src ∨ e.addr ∈ s.fab.ready
  · rw [if_pos h]
    exact if_pos (hall.2 h)
  · rw [if_neg h]
    exact if_neg (fun k => h (hall.1 k))

/-! ## What an idle fabric keeps through an activation (12 R370, R378) -/

/-- The registers that say what map is in force, and those of the ensembles. -/
def MapReg (a : Nat) : Prop := a = Reg.FAB_STATUS ∨ a = Reg.FAB_FCN ∨ 0x80100 ≤ a ∧ a < 0x80300

/-- The map in force, the ensembles, the fabric and what has been sent are as before. -/
structure State.KeepsMap (s t : State) : Prop where
  fab : t.fab = s.fab
  out : t.out = s.out
  regs : ∀ a, MapReg a → t.reg a = s.reg a

namespace State.KeepsMap
variable {s t u : State}

theorem refl (s : State) : s.KeepsMap s := ⟨rfl, rfl, fun _ _ => rfl⟩

theorem trans (h : s.KeepsMap t) (k : t.KeepsMap u) : s.KeepsMap u :=
  ⟨k.fab.trans h.fab, k.out.trans h.out, fun a ha => (k.regs a ha).trans (h.regs a ha)⟩

theorem foldl {α : Type} {g : State → α → State} {l : List α} (h : s.KeepsMap t) (k : ∀ (x : State) a, a ∈ l → x.KeepsMap (g x a)) :
    s.KeepsMap (l.foldl g t) := by
  induction l generalizing t with
  | nil => exact h
  | cons a l ih => exact ih (h.trans (k t a (List.mem_cons_self ..))) fun x b hb => k x b (List.mem_cons_of_mem _ hb)

theorem of_regsOnly {l : List Nat} (h : s.RegsOnly t l) (k : ∀ a ∈ l, ¬MapReg a) : s.KeepsMap t :=
  ⟨h.fab, h.out, fun a ha => h.1 a fun hm => k a hm ha⟩

theorem recordEvent (s : State) (code source p0 p1 p2 : Nat) : s.KeepsMap (recordEvent s code source p0 p1 p2) :=
  ⟨recordEvent_fab .., recordEvent_out .., fun a ha => recordEvent_reg _ _ _ _ _ _
    (fabReg_notMem_eventRegs (by unfold MapReg Reg.FAB_STATUS Reg.FAB_FCN at ha; omega))⟩

theorem fld (h : s.KeepsMap t) {a : Nat} (ha : MapReg a) (hi lo : Nat) : t.fld a hi lo = s.fld a hi lo := congrArg (getBits · hi lo) (h.regs a ha)

theorem ensState (h : s.KeepsMap t) {e : Nat} (he : e < 8) : t.ensState e = s.ensState e := h.fld (.inr (.inr (ensCtrl_bounds he))) 2 0

theorem idle (h : s.KeepsMap t) (hs : s.FabricIdle) : t.FabricIdle := by
  obtain ⟨htransit, hbuffers, hens, hleaving⟩ := hs
  refine ⟨?_, fun n => ?_, fun e he => (h.ensState he).trans (hens e he), ?_⟩
  · rw [h.fab, htransit]
  · rw [State.fport_congr (congrArg Fabric.ports h.fab), hbuffers]
  · rw [h.fab, hleaving]

end State.KeepsMap

theorem not_mapReg_portStatus {n : Nat} (h : n < 12) : ¬MapReg (Reg.FAB_PORT_STATUS + n) := by
  unfold MapReg Reg.FAB_STATUS Reg.FAB_FCN Reg.FAB_PORT_STATUS
  omega

theorem breakEns_free {s : State} {e : Nat} (h : s.ensState e = esFree) (cause member : Nat) : breakEns s e cause member = s :=
  if_pos (by rw [h]; decide)

namespace State.FabricIdle
variable {s : State} (h : s.FabricIdle)
include h

theorem breakAll_eq (cause : Nat) : breakAll s cause = s := by
  obtain ⟨-, -, hens, -⟩ := h
  exact foldl_stays fun e he => breakEns_free (hens e (List.mem_range.1 he)) ..

theorem nothing_held : (List.range 12).flatMap (fun n => (s.fport n).buffers.map (·.2)) = [] := by
  obtain ⟨-, hbuffers, -, -⟩ := h
  exact List.flatMap_eq_nil_iff.2 fun n _ => by rw [hbuffers]; rfl

theorem retryAll_eq : retryAll s = s := by
  obtain ⟨htransit, -, -, -⟩ := id h
  unfold retryAll
  dsimp only
  rw [h.nothing_held, htransit]
  rfl

theorem takeAddr_keepsMap (addr level : Nat) : s.KeepsMap (takeAddr s addr level) := by
  have haddr : s.KeepsMap (s.withAddr addr level) := .of_regsOnly (s.withAddr_regsOnly addr level)
    (fun a ha => by rw [List.mem_singleton.1 ha]; unfold MapReg; decide)
  have hsaid := haddr.trans (.recordEvent (s.withAddr addr level) 0x0806 0 s.fabAddr addr (s.withAddr addr level).fcn)
  rw [takeAddr_eq]
  split
  · rwa [(hsaid.idle h).breakAll_eq]
  · exact haddr

end State.FabricIdle

/-- A module with a new map, before it says so in its registers. -/
def State.adopted (s : State) (m : FabMap) : State :=
  { s with fab := { s.fab with active := some m, next := none, ready := [], cause := mapCause s.fab.active m } }

/-- A module with a new map, before it takes its address there. -/
def State.switched (s : State) (m : FabMap) : State :=
  (((s.adopted m).setReg Reg.FAB_FCN (BitVec.ofNat 32 m.fcn)).setFld Reg.FAB_STATUS 29 29 0).setFld Reg.FAB_STATUS 14 0 m.entries.length

section
variable (s : State) (m : FabMap)

theorem State.switched_fcn : (s.switched m).fcn = m.fcn % 2 ^ 32 := by
  have h : (s.switched m).reg Reg.FAB_FCN = BitVec.ofNat 32 m.fcn :=
    (State.reg_setFld_ne _ _ _ _ (by decide)).trans ((State.reg_setFld_ne _ _ _ _ (by decide)).trans (State.reg_setReg_same ..))
  unfold State.fcn
  rw [h, BitVec.toNat_ofNat]

theorem State.switched_pending : (s.switched m).fld Reg.FAB_STATUS 29 29 = 0 :=
  (State.fld_setFld_disjoint _ _ _ (by decide) (by decide) (.inr (by decide))).trans (State.fld_setFld_same _ _ 0 (by decide) (by decide))

theorem State.switched_count : (s.switched m).fld Reg.FAB_STATUS 14 0 = m.entries.length % 2 ^ 15 :=
  State.fld_setFld_same _ _ _ (by decide) (by decide)

theorem State.switched_regsOnly : (s.adopted m).RegsOnly (s.switched m) [Reg.FAB_FCN, Reg.FAB_STATUS] :=
  ((State.setReg_regsOnly _ (by simp)).trans ((State.setFld_regsOnly ..).mono (by simp))).trans ((State.setFld_regsOnly ..).mono (by simp))

variable {s}

theorem State.switched_idle (h : s.FabricIdle) : (s.switched m).FabricIdle := by
  obtain ⟨htransit, hbuffers, hens, hleaving⟩ := h
  have hr := s.switched_regsOnly m
  refine ⟨?_, fun n => ?_, fun e he => ?_, ?_⟩
  · rw [hr.fab]
    exact htransit
  · rw [hr.fport]
    exact hbuffers n
  · have := ensCtrl_bounds he
    exact (hr.1.fld (by simp [Reg.FAB_FCN, Reg.FAB_STATUS]; omega) 2 0).trans (hens e he)
  · rw [hr.fab]
    exact hleaving

/-- An idle module that switches to a map does nothing besides (12 R370). -/
theorem activateMap_idle (h : s.FabricIdle) : (s.switched m).KeepsMap (activateMap s m) := by
  unfold activateMap
  extract_lets cause fab1 s1 s2 s3 s4 root s5 s6 s7 stranded s8 gone s9
  have hidle : s3.FabricIdle := State.switched_idle m h
  have hstart : (s.switched m).KeepsMap s3 := .refl s3
  have haddr : s3.KeepsMap s4 := by
    unfold s4
    split
    · exact hidle.takeAddr_keepsMap ..
    · exact .refl s3
  have hroot : s4.KeepsMap s5 := .of_regsOnly (s4.setReg64_regsOnly Reg.FAB_ROOT_ID_LO root) (by unfold MapReg; decide)
  have hports : s5.KeepsMap s6 := .foldl (.refl s5) fun x n hn => by
    have hkeeps : ∀ (y : State) (hi lo v : Nat), y.KeepsMap (y.setFld (Reg.FAB_PORT_STATUS + n) hi lo v) := fun y hi lo v =>
      .of_regsOnly (y.setFld_regsOnly ..) fun a ha => by
        rw [List.mem_singleton.1 ha]
        exact not_mapReg_portStatus (List.mem_range.1 (List.mem_of_mem_filter hn))
    split
    · exact .refl x
    · exact (hkeeps x _ _ _).trans (hkeeps _ _ _ _)
  have hsaid : s3.KeepsMap s7 := ((haddr.trans hroot).trans hports).trans (.recordEvent s6 0x0805 0 m.fcn m.entries.length cause)
  have hidle7 : s7.FabricIdle := hsaid.idle hidle
  have hstranded : stranded = [] := by
    unfold stranded
    rw [hidle7.nothing_held]
    rfl
  have hs8 : s8 = s7 := by
    unfold s8
    rw [hstranded]
    rfl
  have hs9 : s9 = s7 := by
    obtain ⟨-, -, hens, -⟩ := hidle7
    unfold s9
    rw [hs8]
    refine foldl_stays fun e he => ?_
    split
    · exact breakEns_free (hens e (List.mem_range.1 he)) ..
    · rfl
  have hstays : ¬(s9.fab.leaving = true ∧ (!m.entries.any fun e => decide (e.moduleId = selfId)) = true) := by
    obtain ⟨-, -, -, hleaving⟩ := hidle7
    rw [hs9, hleaving]
    exact fun h => absurd h.1 Bool.false_ne_true
  rw [if_neg hstays, hs9, hidle7.retryAll_eq]
  exact hstart.trans hsaid

end

/-- A map put in force in an idle fabric, after its neighbours are told. -/
theorem activated {s t : State} (h : s.FabricIdle) {m : FabMap} (ht : activateMap (flood s s.upPorts (.activate m.fcn)) m = t) :
    t.fab.active = some m ∧ t.fab.next = none ∧ t.fcn = m.fcn % 2 ^ 32 ∧ t.fld Reg.FAB_STATUS 29 29 = 0 ∧
      t.fld Reg.FAB_STATUS 14 0 = m.entries.length % 2 ^ 15 ∧ ∀ n ∈ s.upPorts, .ctrl (some n) 0 (.activate m.fcn) ∈ t.out := by
  rw [flood_eq] at ht
  generalize hu : s.emits (s.upPorts.map fun n => .ctrl (some n) 0 (.activate m.fcn)) = u at ht
  have hidle : u.FabricIdle := by
    rw [← hu]
    exact h
  have hkeeps : (u.switched m).KeepsMap t := ht ▸ activateMap_idle m hidle
  have hfab : t.fab = (u.adopted m).fab := hkeeps.fab.trans (u.switched_regsOnly m).fab
  refine ⟨congrArg Fabric.active hfab, congrArg Fabric.next hfab, ?_, (hkeeps.fld (.inl rfl) ..).trans (u.switched_pending m),
    (hkeeps.fld (.inl rfl) ..).trans (u.switched_count m), fun n hn => ?_⟩
  · exact (congrArg BitVec.toNat (hkeeps.regs _ (.inr (.inl rfl)))).trans (u.switched_fcn m)
  · have hout : t.out = u.out := hkeeps.out.trans (u.switched_regsOnly m).out
    rw [hout, ← hu]
    exact List.mem_append_right _ (List.mem_map_of_mem hn)

/-- The commands that put a map in force. -/
theorem exec_activates {s : State} {m : FabMap} {i : Instr} (hidle : s.FabricIdle) (hnext : s.fab.next = some m)
    (hi : (i = .mapReadyTimeout ∧ s.isRoot = true) ∨ i = .activate m.fcn ∨
      ∃ src, i = .mapReady src m.fcn ∧ s.isRoot = true ∧ ∀ e ∈ m.entries, e.addr = src ∨ e.addr ∈ s.fab.ready) :
    ∃ u : State, u.FabricIdle ∧ u.upPorts = s.upPorts ∧ exec i s = .next (activateMap (flood u u.upPorts (.activate m.fcn)) m) := by
  obtain ⟨rfl, hr⟩ | rfl | ⟨src, rfl, hr, hall⟩ := hi
  · exact ⟨s, hidle, rfl, congrArg Host.Outcome.next (floodActivate_root hr hnext)⟩
  · have hex : exec (.activate m.fcn) s = execActivate m.fcn s := rfl
    refine ⟨s, hidle, rfl, hex.trans ?_⟩
    unfold execActivate
    rw [hnext]
    exact if_pos rfl
  · have hex : exec (.mapReady src m.fcn) s = execMapReady src m.fcn s := rfl
    refine ⟨s.answered src, hidle, rfl, hex.trans ?_⟩
    rw [execMapReady_answered hr hnext, if_pos hall, floodActivate_root (s := s.answered src) hr hnext]

/-! ## Leaving (12 R377) -/

theorem leaveFabric_idle {s : State} (h : s.FabricIdle) :
    leaveFabric s = { s with fab := { s.fab with leaving := true }, out := s.out ++ [.ctrl s.parentPort 0 (.leave selfId)] } := by
  unfold leaveFabric
  rw [h.breakAll_eq]
  rfl

/-- Settles O48: what a module knows of its fabric stands in a few registers, and each command writes them once. -/
theorem fabricsFindTheirMap : Obligations.FabricsFindTheirMap := by
  unfold Obligations.FabricsFindTheirMap
  refine ⟨?lower, ?higher, ?announced, ?silent, ?root, ?passed, ?heard, ?map, ?own, ?neighbour, ?answer, ?activation, ?leaves, ?left, ?leaving⟩
  case lower =>
    intro s port candidate fcn hup hlow
    obtain ⟨hcand, hout, hroot⟩ := newCand_announces s candidate
    exact ⟨_, execRootAnnounce_lower hup hlow fcn, hcand, fun n hn => hout ▸ List.mem_append_right _ (List.mem_map_of_mem hn), hroot⟩
  case higher =>
    intro s port candidate fcn c hc h
    exact execRootAnnounce_higher hc h port fcn
  case announced =>
    intro s c hc
    exact congrArg Host.Outcome.next (announce_eq hc)
  case silent =>
    intro s c hc h
    have hex : exec .candidateExpiry s = _ := execCandidateExpiry_silent hc h
    refine ⟨_, hex, fun he => ?_, fun he => ?_⟩
    · rw [if_pos he]
      exact (newCand_announces s selfId).1
    · rw [if_neg (by simp [he])]
      exact ⟨congrArg Fabric.cand (setNoRoot_frame (setCand s none) true).fab, setNoRoot_shown _⟩
  case root =>
    intro s hc he hr ha hno
    have hex : exec .rootChanged s = .next (becomeRoot s) := rfl
    rw [becomeRoot_begins hc he hr ha hno] at hex
    exact ⟨_, hex, (rootStep_rootWork _).newRoot⟩
  case passed =>
    intro s src recs hr
    exact if_neg (by simp [hr])
  case heard =>
    intro s src recs hr hnone hknown hother
    have hex : exec (.links src recs) s = .next (rootLinks s src recs) := if_pos hr
    rw [rootLinks_waits hnone hknown hother] at hex
    exact ⟨_, hex, rfl, rfl⟩
  case map =>
    intro s fcn entries h
    have hr := s.mapped_regsOnly ⟨fcn, entries⟩
    have hactive : (s.mapped ⟨fcn, entries⟩).fab.active = s.fab.active := (congrArg Fabric.active hr.fab).trans rfl
    refine ⟨_, execMap_newer h entries, congrArg Fabric.next hr.fab, ?_, congrArg (· ++ _) hr.out, hactive, (s.mapped_frame _).upd (State.emits_regs ..)⟩
    rw [State.emits_fld]
    exact s.mapped_pending _
  case own =>
    intro s addr level parentPort h
    have hr := s.withAddr_regsOnly addr level
    exact ⟨_, execAssign_own h level parentPort, (State.emits_fld ..).trans (s.withAddr_addr addr level),
      (State.emits_fld ..).trans (s.withAddr_valid addr level), (State.emits_fld ..).trans (s.withAddr_level addr level),
      congrArg (· ++ _) hr.out, State.RegsFrame.upd hr.1 (State.emits_regs ..)⟩
  case neighbour =>
    intro s id addr level parentPort n hid h
    exact execAssign_passes hid h addr level parentPort
  case answer =>
    intro s m src hr hnext hopen
    obtain ⟨e, he, hne, hmissing⟩ := hopen
    have hex : exec (.mapReady src m.fcn) s = _ := execMapReady_answered hr hnext src
    rw [if_neg fun h => (h e he).elim hne hmissing] at hex
    exact ⟨_, hex, State.mem_answered.2 (.inl rfl), rfl, rfl, rfl⟩
  case activation =>
    intro s m i hidle hnext hi
    obtain ⟨u, hu, hports, hex⟩ := exec_activates hidle hnext hi
    exact ⟨_, hex, hports ▸ activated hu rfl⟩
  case leaves =>
    intro s id hr
    exact if_pos (by simp [hr])
  case left =>
    intro s id hr
    exact ⟨_, execLeave_root hr id, rootStep_leave s id⟩
  case leaving =>
    intro s hidle
    exact ⟨_, congrArg Host.Outcome.next (leaveFabric_idle hidle), rfl, rfl, rfl⟩

end Sys2Proof.Machine

namespace Sys2Proof.Machine

/-! ## The registers and the modules of the half link (13 Table 13.5) -/

/-- The registers of the half link are none that an event writes. -/
theorem hlkReg_notMem_eventRegs {a : Nat} (h : 0xA0000 ≤ a ∧ a < 0xB0000) : a ∉ eventRegs := by
  simp only [eventRegs, Reg.EVT_LOST, Reg.BST_ERR_OVERFLOWS, Reg.BST_ERR_STATUS, List.mem_cons, List.not_mem_nil, or_false, not_or]
  omega

theorem hmReg_bounds {m : Nat} (h : m < 108) : 0xA0100 ≤ hmReg m ∧ hmReg m < 0xA016C := by
  unfold hmReg Reg.HLK_MOD_STATUS
  omega

theorem State.hlkMod_setHlkMod (s : State) (m : Nat) (x : HlkModule) : (s.setHlkMod m x).hlkMod m = x := SMap.getD_put_same ..

theorem State.hlkMod_congr {s t : State} (h : t.link.mods = s.link.mods) (m : Nat) : t.hlkMod m = s.hlkMod m :=
  congrArg (SMap.getD · m HlkModule.init) h

@[simp] theorem HlkModule.ends_setEnds (x : HlkModule) (toEast : Bool) (snd rcv : HlkEnd) : (x.setEnds toEast snd rcv).ends toEast = (snd, rcv) := by
  cases toEast
  · rfl
  · rfl

end Sys2Proof.Machine

namespace Sys2Proof.Machine

/-! ## Frames of the half link (13 R398, R399) -/

/-- An end that has sent a new frame and keeps it. -/
def HlkEnd.sent (e : HlkEnd) (f : HlkFrame) (w : HlkFlow) : HlkEnd :=
  { e with
    kept := e.kept ++ [({ f with seq := e.nextSeq }, w)]
    nextSeq := (e.nextSeq + 1) % 256
    credits := e.credits.modify (f.plane % 2) (fun c => c - 1) }

/-- An end that has accepted the frame it expected. -/
def HlkEnd.accepted (e : HlkEnd) (f : HlkFrame) : HlkEnd :=
  { e with expected := (e.expected + 1) % 256, discarding := false, owed := e.owed.modify (f.plane % 2) (· + 1) }

/-- An end that has asked for the frame it expects, with a control frame that returns what it owed. -/
def HlkEnd.asking (e : HlkEnd) : HlkEnd := { e with discarding := true, owed := [0, 0] }

/-- An end after a control frame: what is acknowledged is gone, and the credits are back. -/
def HlkEnd.acknowledged (e : HlkEnd) (f : HlkFrame) : HlkEnd :=
  { e with
    kept := e.kept.filter (fun k => decide ((k.1.seq + 256 - f.ack) % 256 < 128))
    credits := [min 64 (planeAt e.credits 0 + f.reqCredits), min 64 (planeAt e.credits 1 + f.rspCredits)] }

/-- An end that has sent a control frame owes what the frame did not return. -/
def HlkEnd.returned (e : HlkEnd) (f : HlkFrame) : HlkEnd :=
  { e with owed := [planeAt e.owed 0 - f.reqCredits, planeAt e.owed 1 - f.rspCredits] }

/-- Both ends of a module replaced. -/
def State.setEnds (s : State) (m : Nat) (toEast : Bool) (snd rcv : HlkEnd) : State :=
  s.setHlkMod m ((s.hlkMod m).setEnds toEast snd rcv)

section
variable {s : State} {m : Nat} {toEast : Bool} {f : HlkFrame} {w : HlkFlow} {snd rcv : HlkEnd}

theorem State.ends_setEnds : ((s.setEnds m toEast snd rcv).hlkMod m).ends toEast = (snd, rcv) := by
  rw [State.setEnds, State.hlkMod_setHlkMod, HlkModule.ends_setEnds]

variable (hends : (s.hlkMod m).ends toEast = (snd, rcv))
include hends

theorem sendFrame_ends : ((sendFrame s m toEast f w).hlkMod m).ends toEast = (snd.sent f w, rcv) := by
  obtain rfl : _ = snd := congrArg Prod.fst hends
  obtain rfl : _ = rcv := congrArg Prod.snd hends
  exact State.ends_setEnds

theorem receiveValid_accepts (hok : f.crcOk = true) (hseq : f.seq = rcv.expected) :
    receiveValid s m toEast f = s.setEnds m toEast snd (rcv.accepted f) := by
  obtain rfl : _ = snd := congrArg Prod.fst hends
  obtain rfl : _ = rcv := congrArg Prod.snd hends
  exact if_pos ⟨hok, hseq⟩

theorem receiveValid_asks (h : f.crcOk = false ∨ f.seq ≠ rcv.expected) (hdisc : rcv.discarding = false) :
    receiveValid s m toEast f = (s.setEnds m toEast snd rcv.asking).emit (.hlk m (!toEast) (controlFrame rcv true)) := by
  have hbad : ¬(f.crcOk = true ∧ f.seq = rcv.expected) := fun ⟨hok, hseq⟩ => h.elim (fun k => absurd hok (by simp [k])) (· hseq)
  obtain rfl : _ = snd := congrArg Prod.fst hends
  obtain rfl : _ = rcv := congrArg Prod.snd hends
  exact (if_neg hbad).trans (if_neg (by simp [hdisc]))

theorem receiveControl_acknowledges (hnak : f.nak = false) :
    receiveControl s m toEast f = s.setEnds m toEast (snd.returned f) (rcv.acknowledged f) := by
  obtain rfl : _ = snd := congrArg Prod.fst hends
  obtain rfl : _ = rcv := congrArg Prod.snd hends
  exact if_neg (by simp [hnak])

end

section
variable {s : State} {m : Nat} (hm : m < 108) (hact : s.hmState m = hmActive) (hwhole : s.fld Reg.HLK_STATUS 31 31 = 0)
variable {toEast : Bool} {f : HlkFrame} {w : HlkFlow} {snd rcv : HlkEnd} (hends : (s.hlkMod m).ends toEast = (snd, rcv))
include hm hact hwhole

theorem hlkFrame_guard : ¬(108 ≤ m ∨ s.hmState m ≠ hmActive ∨ s.fld Reg.HLK_STATUS 31 31 = 1) := by
  simp [hact, hwhole, hm]

theorem exec_hlkFrame_control (hvalid : f.valid = false) (hok : f.crcOk = true) :
    exec (.hlkFrame m toEast f w) s = .next (receiveControl s m toEast f) := by
  have hex : exec (.hlkFrame m toEast f w) s = execHlkFrame m toEast f w s := rfl
  rw [hex, execHlkFrame, if_neg (hlkFrame_guard hm hact hwhole), if_neg (by simp [hvalid]), if_pos hok]

include hends

theorem exec_hlkFrame_new (hvalid : f.valid = true) (hseq : f.seq = snd.nextSeq) (hmay : s.maySend m toEast f w = true) :
    exec (.hlkFrame m toEast f w) s = .next (receiveValid (sendFrame s m toEast f w) m toEast f) := by
  have hex : exec (.hlkFrame m toEast f w) s = execHlkFrame m toEast f w s := rfl
  rw [hex, execHlkFrame, if_neg (hlkFrame_guard hm hact hwhole), if_pos hvalid, hends]
  dsimp only
  rw [if_pos hseq, if_pos hmay]

theorem exec_hlkFrame_other (hvalid : f.valid = true) (hseq : f.seq ≠ snd.nextSeq) :
    exec (.hlkFrame m toEast f w) s = .next (receiveValid s m toEast f) := by
  have hex : exec (.hlkFrame m toEast f w) s = execHlkFrame m toEast f w s := rfl
  rw [hex, execHlkFrame, if_neg (hlkFrame_guard hm hact hwhole), if_pos hvalid, hends]
  exact if_neg hseq

end

end Sys2Proof.Machine

namespace Sys2Proof.Machine

/-! ## Replay on the half link (13 R399, R401) -/

/-- The frames that an end of a module keeps, as they are sent again. -/
def State.keptFrames (s : State) (m : Nat) (toEast : Bool) : List Output := ((s.hlkMod m).ends toEast).1.kept.map (fun f => .hlk m toEast f.1)

/-- A module whose frames are sent again, with the replay counted and noted. -/
def State.replayed (s : State) (m : Nat) (toEast : Bool) : State :=
  (((s.emits (s.keptFrames m toEast)).count Reg.HLK_REPLAYS 1).setHlkMod m
      { s.hlkMod m with replays := s.recentReplays m ++ [s.now] }).setFld (hmReg m) 31 16 (min (s.recentReplays m ++ [s.now]).length 65535)

section
variable (s : State) {m : Nat} (toEast : Bool)

theorem foldl_emit {α : Type} (g : α → Output) (l : List α) : l.foldl (fun s a => s.emit (g a)) s = s.emits (l.map g) := by
  rw [List.map_eq_flatMap]
  exact foldl_emits (f := fun _ a => [g a]) (fun _ _ _ => rfl) l s

theorem State.replayed_frame (m : Nat) : s.RegsFrame (s.replayed m toEast) [Reg.HLK_REPLAYS, hmReg m] := by
  intro a ha
  obtain ⟨hcount, hmod⟩ := not_or.1 (fun h => ha (List.mem_pair.2 h))
  exact (State.reg_setFld_ne _ _ _ _ hmod).trans (State.reg_setReg_ne (s.emits (s.keptFrames m toEast)) _ hcount)

theorem State.replayed_mod (m : Nat) : (s.replayed m toEast).hlkMod m = { s.hlkMod m with replays := s.recentReplays m ++ [s.now] } :=
  State.hlkMod_setHlkMod ..

theorem State.replayed_counted (hm : m < 108) : s.Counted (s.replayed m toEast) Reg.HLK_REPLAYS 1 := by
  have hb := hmReg_bounds hm
  have hne : Reg.HLK_REPLAYS ≠ hmReg m := by unfold Reg.HLK_REPLAYS; omega
  unfold State.Counted State.replayed
  rw [State.reg_setFld_ne _ _ _ _ hne]
  exact State.count_counted (s := s) (t := s.emits (s.keptFrames m toEast)) rfl Reg.HLK_REPLAYS 1

theorem replayModule_eq (m : Nat) : replayModule s m toEast =
    if (s.replayed m toEast).fld Reg.HLK_ERR_LIMIT 15 0 < (s.recentReplays m ++ [s.now]).length then moduleFailing (s.replayed m toEast) m
    else s.replayed m toEast := by
  unfold replayModule
  extract_lets x sent counted rs noted
  have hsent : sent = s.emits (s.keptFrames m toEast) := foldl_emit s (fun f => .hlk m toEast f.1) (x.ends toEast).1.kept
  have hrs : rs = s.recentReplays m ++ [s.now] := by
    unfold rs counted
    rw [hsent]
    rfl
  have hnoted : noted = s.replayed m toEast := by
    unfold noted counted
    rw [hrs, hsent]
    rfl
  rw [hrs, hnoted]

theorem replayModule_spares {s : State} (hm : m < 108) (h : (s.recentReplays m).length < s.fld Reg.HLK_ERR_LIMIT 15 0) :
    replayModule s m toEast = s.replayed m toEast := by
  have hb := hmReg_bounds hm
  have hlimit : (s.replayed m toEast).fld Reg.HLK_ERR_LIMIT 15 0 = s.fld Reg.HLK_ERR_LIMIT 15 0 :=
    (s.replayed_frame toEast m).fld (by simp [Reg.HLK_ERR_LIMIT, Reg.HLK_REPLAYS]; omega) 15 0
  rw [replayModule_eq, if_neg]
  rw [hlimit, List.length_append, List.length_singleton]
  omega

theorem exec_hlkReplayTimeout {s : State} (hm : m < 108) (hact : s.hmState m = hmActive) (hkept : ((s.hlkMod m).ends toEast).1.kept ≠ [])
    (h : (s.recentReplays m).length < s.fld Reg.HLK_ERR_LIMIT 15 0) :
    exec (.hlkReplayTimeout m toEast) s = .next (s.replayed m toEast) := by
  have hex : exec (.hlkReplayTimeout m toEast) s = execHlkReplayTimeout m toEast s := rfl
  rw [hex, execHlkReplayTimeout, if_neg (by simp [hact, hm]), if_neg (by simpa using hkept), replayModule_spares toEast hm h]

end

end Sys2Proof.Machine

namespace Sys2Proof.Machine

/-! ## The usable count and the row maps (13 R403, R404) -/

/-- The registers that name the row that carries each row's traffic. -/
def rowMapRegs : List Nat := (List.range 32).map (Reg.HLK_ROW_MAP + ·)

theorem rowMapRegs_bounds {a : Nat} (h : a ∈ rowMapRegs) : 0xA0010 ≤ a ∧ a < 0xA0030 := by
  obtain ⟨r, hr, rfl⟩ := List.mem_map.1 h
  have := List.mem_range.1 hr
  unfold Reg.HLK_ROW_MAP
  omega

/-- One row brought up to date. -/
def State.rowSettled (s : State) (r : Nat) : State :=
  if s.fld (Reg.HLK_ROW_MAP + r) 4 0 = s.rowFor r then s
  else recordEvent (s.setFld (Reg.HLK_ROW_MAP + r) 4 0 (s.rowFor r)) 0x0A04 0 r (s.rowFor r) (if s.rowFor r = r then 0 else 1)

section
variable (s : State)

theorem settleLink_eq : settleLink s = (List.range 32).foldl State.rowSettled (s.setFld Reg.HLK_STATUS 6 0 s.usablePositions.length) := rfl

theorem State.RegsAndEvents.refl (l : List Nat) : s.RegsAndEvents s l := ⟨State.RegsFrame.refl s _, rfl⟩

theorem State.rowSettled_frame {r : Nat} (h : r ∈ List.range 32) : s.RegsAndEvents (s.rowSettled r) rowMapRegs := by
  unfold State.rowSettled
  split
  · exact .refl s _
  · exact ((s.setFld_regsOnly ..).mono (List.cons_subset.2 ⟨List.mem_map_of_mem h, List.nil_subset _⟩)).events.trans (recordEvent_frame ..)

theorem settleRows_frame : s.RegsAndEvents ((List.range 32).foldl State.rowSettled s) rowMapRegs :=
  List.foldlRecOn (motive := fun t => s.RegsAndEvents t rowMapRegs) _ _ (.refl s _) fun t ht _ hr => ht.trans (t.rowSettled_frame hr)

theorem settleLink_frame : s.RegsAndEvents (settleLink s) (Reg.HLK_STATUS :: rowMapRegs) := by
  rw [settleLink_eq]
  generalize hn : s.usablePositions.length = n
  obtain ⟨hframe, hrest⟩ := settleRows_frame (s.setFld Reg.HLK_STATUS 6 0 n)
  exact ((s.setFld_regsOnly ..).mono (List.cons_subset.2 ⟨List.mem_cons_self, List.nil_subset _⟩)).events.trans
    ⟨hframe.mono (List.subset_cons_self _ _), hrest⟩

theorem settleLink_link : (settleLink s).link = s.link := by rw [(settleLink_frame s).2]

/-- A register of a module is none that bringing the link up to date writes. -/
theorem hmReg_notMem_settled {m : Nat} (hm : m < 108) : hmReg m ∉ Reg.HLK_STATUS :: rowMapRegs ++ eventRegs := by
  have hb := hmReg_bounds hm
  have hrow : hmReg m ∉ rowMapRegs := fun h => by have := rowMapRegs_bounds h; omega
  have hev : hmReg m ∉ eventRegs := hlkReg_notMem_eventRegs (by omega)
  rw [List.cons_append, List.mem_cons, List.mem_append]
  exact not_or.2 ⟨by unfold Reg.HLK_STATUS; omega, not_or.2 ⟨hrow, hev⟩⟩

theorem settleLink_mod {m : Nat} (hm : m < 108) (hi lo : Nat) : (settleLink s).fld (hmReg m) hi lo = s.fld (hmReg m) hi lo :=
  (settleLink_frame s).1.fld (hmReg_notMem_settled hm) hi lo

theorem settleLink_usable : (settleLink s).fld Reg.HLK_STATUS 6 0 = s.usablePositions.length % 128 := by
  have hout : Reg.HLK_STATUS ∉ rowMapRegs ++ eventRegs := by
    rw [List.mem_append, not_or]
    exact ⟨fun h => absurd (rowMapRegs_bounds h).1 (by decide), by decide⟩
  rw [settleLink_eq, (settleRows_frame _).1.fld hout]
  exact s.fld_setFld_same Reg.HLK_STATUS s.usablePositions.length (by decide) (by decide)

end

end Sys2Proof.Machine

namespace Sys2Proof.Machine

/-! ## A module that has trained (13 R401, R402, R410) -/

/-- The rejoin of a half at another stage, or ended. -/
def State.withRejoin (s : State) (r : Option (Half × Nat)) : State := { s with link := { s.link with rejoin := r } }

/-- A module that is ACTIVE at the width it trained for, its flows to return at the next boundary. -/
def State.activated (s : State) (m : Nat) : State :=
  ((s.setFld (hmReg m) 2 0 hmActive).setFld (hmReg m) 5 4 (s.hlkMod m).target).setHlkMod m { s.hlkMod m with returning := true }

section
variable (s : State) (m : Nat)

theorem State.activated_frame : s.RegsFrame (s.activated m) [hmReg m] :=
  fun _ ha => (State.reg_setFld_ne _ _ _ _ (List.ne_of_not_mem_cons ha)).trans (State.reg_setFld_ne _ _ _ _ (List.ne_of_not_mem_cons ha))

theorem State.activated_state : (s.activated m).hmState m = hmActive :=
  (State.fld_setFld_disjoint (s.setFld (hmReg m) 2 0 hmActive) _ _ (by decide) (by decide) (.inl (by decide))).trans
    (s.fld_setFld_same _ _ (by decide) (by decide))

theorem State.activated_width : (s.activated m).hmWidth m = (s.hlkMod m).target % 4 :=
  State.fld_setFld_same (s.setFld (hmReg m) 2 0 hmActive) _ _ (by decide) (by decide)

theorem State.activated_mod : (s.activated m).hlkMod m = { s.hlkMod m with returning := true } := State.hlkMod_setHlkMod ..

variable {s m} (hm : m < 108) (htrain : s.hmState m = hmTraining)
include hm htrain

/-- Across a split the module that returns starts the rejoin of the fenced half (13 R410). -/
theorem exec_hlkModuleTrained_passed : ∃ r, exec (.hlkModuleTrained m true) s = .next ((settleLink (s.activated m)).withRejoin r) := by
  have hex : exec (.hlkModuleTrained m true) s = execHlkModuleTrained m true s := rfl
  rw [hex, execHlkModuleTrained]
  extract_lets x s1 s2 t h l
  have ht : settleLink (s.activated m) = t := congrArg settleLink rfl
  rw [if_neg (by simp [htrain, hm]), if_pos rfl, ht]
  clear_value h t
  split
  · exact ⟨_, rfl⟩
  · exact ⟨t.link.rejoin, rfl⟩

theorem exec_hlkModuleTrained_failed (hwhole : s.fld Reg.HLK_STATUS 31 31 = 0) :
    exec (.hlkModuleTrained m false) s = .next (moduleFailing s m) := by
  have hex : exec (.hlkModuleTrained m false) s = execHlkModuleTrained m false s := rfl
  rw [hex, execHlkModuleTrained]
  dsimp only
  rw [if_neg (by simp [htrain, hm]), if_neg (by decide), if_neg (by simp [hwhole])]

end

/-! ## A module that cannot be replaced (13 R401, R402, R404) -/

section
variable {s : State} {m : Nat}

theorem retireModule_state : (retireModule s m).hmState m = hmRetired := by
  unfold retireModule State.hmState
  rw [State.fld_setFld_disjoint _ _ _ (by decide) (by decide) (.inl (by decide)),
    State.fld_setFld_disjoint _ _ _ (by decide) (by decide) (.inl (by decide)), State.fld_setFld_same _ _ _ (by decide) (by decide)]
  rfl

theorem retireModule_pos : (retireModule s m).hmPos m = 0xFF := State.fld_setFld_same _ _ _ (by decide) (by decide)

/-- The modules, the flows and what has been sent may change, and nothing else. -/
def State.HandsOver (s t : State) : Prop := t = { s with link := { s.link with mods := t.link.mods, flows := t.link.flows }, out := t.out }

theorem moveFrames_handsOver (s : State) (l : List (Bool × HlkFrame × HlkFlow)) : s.HandsOver (moveFrames s l) := by
  refine List.foldlRecOn (motive := s.HandsOver) _ _ rfl fun t ht x _ => ?_
  split
  · exact ht
  · unfold State.HandsOver at *
    rw [ht]
    rfl

/-- A position retired. -/
def State.withoutPosition (s : State) (pos : Nat) : State := { s with link := { s.link with retired := s.link.retired ++ [pos] } }

theorem State.withoutPosition_fld (s : State) (pos a hi lo : Nat) : (s.withoutPosition pos).fld a hi lo = s.fld a hi lo := rfl

/-- A module RETIRED together with its position, before its frames are handed over. -/
def State.retiredWith (s : State) (m pos : Nat) : State := settleLink ((retireModule s m).withoutPosition pos)

theorem moduleFailing_retires (hpos : s.hmPos m < 96) (hwidth : s.hmWidth m ≠ 2) (htarget : (s.hlkMod m).target ≠ 2) :
    moduleFailing s m = moveFrames (recordEvent (s.retiredWith m (s.hmPos m)) 0x0A03 0 (s.hmPos m) m
      ((s.retiredWith m (s.hmPos m)).fld Reg.HLK_STATUS 6 0)) (s.unacked m) := by
  have hwide : (decide (s.hmWidth m = 2) || (decide (s.hmState m = hmTraining) && decide ((s.hlkMod m).target = 2))) = false := by
    simp [hwidth, htarget]
  unfold moduleFailing State.retiredWith
  dsimp only
  rw [hwide, if_neg (by omega)]
  rfl

variable (pos : Nat)

theorem State.retiredWith_mod (hm : m < 108) (hi lo : Nat) : (s.retiredWith m pos).fld (hmReg m) hi lo = (retireModule s m).fld (hmReg m) hi lo := by
  rw [State.retiredWith, settleLink_mod _ hm, State.withoutPosition_fld]

theorem State.retiredWith_retired : pos ∈ (s.retiredWith m pos).link.retired := by
  rw [State.retiredWith, settleLink_link]
  exact List.mem_append_right _ (List.mem_singleton_self pos)

theorem State.usablePositions_congr {s t : State} (hlink : t.link.retired = s.link.retired) (hplan : t.plan = s.plan) :
    t.usablePositions = s.usablePositions := by
  unfold State.usablePositions State.darkPosition
  rw [hlink, hplan]

theorem State.retiredWith_usable :
    (s.retiredWith m pos).fld Reg.HLK_STATUS 6 0 = (s.retiredWith m pos).usablePositions.length % 128 := by
  have hplan : ∀ t : State, (settleLink t).plan = t.plan := fun t => by rw [(settleLink_frame t).2]
  unfold State.retiredWith
  rw [settleLink_usable, State.usablePositions_congr (congrArg Link.retired (settleLink_link _)) (hplan _)]

end

end Sys2Proof.Machine

namespace Sys2Proof.Machine

/-! ## What a change leaves of the split and of the tiles' work (13 R406) -/

/-- The registers that say which half is fenced, and whether a tile runs. -/
def FenceReg (a : Nat) : Prop := a = Reg.HLK_STATUS ∨ ∃ ti, a = tileReg ti Reg.TIL_STATUS

theorem not_fenceReg {a : Nat} (h : a < tilePages) (hne : a ≠ Reg.HLK_STATUS) : ¬FenceReg a := by
  rintro (rfl | ⟨ti, rfl⟩)
  · exact hne rfl
  · unfold tileReg at h
    omega

theorem FenceReg.not_event {a : Nat} (h : FenceReg a) : a ∉ eventRegs := by
  obtain rfl | ⟨ti, rfl⟩ := h
  · exact hlkReg_notMem_eventRegs (by decide)
  · exact (seqReg_tileReg ti (by decide)).not_event

section
variable {s t : State} (x : Half)

theorem State.halfTiles_congr (h : t.plan = s.plan) : t.halfTiles x = s.halfTiles x := by
  unfold State.halfTiles State.usable
  rw [h]

theorem State.halfReset_congr (h : t.ctl = s.ctl) : t.halfReset x = s.halfReset x := by
  unfold State.halfReset
  rw [h]

end

/-- The tiles, the floor plan, the compute resets and a split that waits are as before, and so are the registers of the fence. -/
structure State.KeepsFence (s t : State) : Prop where
  tiles : t.tiles = s.tiles := by rfl
  plan : t.plan = s.plan := by rfl
  ctl : t.ctl = s.ctl := by rfl
  due : t.link.splitDue = s.link.splitDue := by rfl
  regs : ∀ a, FenceReg a → t.reg a = s.reg a := by exact fun _ _ => rfl

namespace State.KeepsFence
variable {s t u : State}

theorem trans (h : s.KeepsFence t) (k : t.KeepsFence u) : s.KeepsFence u where
  tiles := k.tiles.trans h.tiles
  plan := k.plan.trans h.plan
  ctl := k.ctl.trans h.ctl
  due := k.due.trans h.due
  regs a ha := (k.regs a ha).trans (h.regs a ha)

theorem setReg (h : s.KeepsFence t) {a : Nat} {v : Word} (k : ¬FenceReg a) : s.KeepsFence (t.setReg a v) :=
  h.trans { regs := fun _ hb => State.reg_setReg_ne _ _ fun e => k (e ▸ hb) }

theorem setFld (h : s.KeepsFence t) {a hi lo v : Nat} (k : ¬FenceReg a) : s.KeepsFence (t.setFld a hi lo v) := h.setReg k

theorem of_regsOnly {l : List Nat} (h : s.RegsOnly t l) (k : ∀ a ∈ l, ¬FenceReg a) : s.KeepsFence t where
  tiles := by rw [h.2]
  plan := by rw [h.2]
  ctl := by rw [h.2]
  due := by rw [h.2]
  regs a ha := h.1 a fun hm => k a hm ha

theorem recordEvent (h : s.KeepsFence t) (code source p0 p1 p2 : Nat) : s.KeepsFence (recordEvent t code source p0 p1 p2) :=
  h.trans {
    tiles := recordEvent_tiles ..
    plan := recordEvent_plan ..
    ctl := recordEvent_ctl ..
    due := congrArg Link.splitDue (recordEvent_link ..)
    regs := fun _ ha => recordEvent_reg _ _ _ _ _ _ ha.not_event }

theorem foldl {α : Type} {g : State → α → State} {l : List α} (h : s.KeepsFence t) (k : ∀ (x : State) a, a ∈ l → x.KeepsFence (g x a)) :
    s.KeepsFence (l.foldl g t) := List.foldlRecOn l g h fun x hx a ha => hx.trans (k x a ha)

theorem ite {c : Prop} [Decidable c] (h : s.KeepsFence t) (k : s.KeepsFence u) : s.KeepsFence (if c then t else u) := by
  split
  · exact h
  · exact k

theorem mails (h : s.KeepsFence t) (k : t.Mails u) : s.KeepsFence u := by
  rw [k]
  exact h.trans {}

variable (h : s.KeepsFence t)
include h

theorem status (hi lo : Nat) : t.fld Reg.HLK_STATUS hi lo = s.fld Reg.HLK_STATUS hi lo := congrArg (getBits · hi lo) (h.regs _ (.inl rfl))

theorem fenced (x : Half) : t.fenced x = s.fenced x := by
  unfold State.fenced
  rw [h.status, h.status]

theorem leaseHalf : t.leaseHalf = s.leaseHalf := by
  unfold State.leaseHalf
  rw [h.status]

theorem tilState (ti : Nat) : t.tilState ti = s.tilState ti := congrArg (getBits · 2 0) (h.regs _ (.inr ⟨ti, rfl⟩))

theorem tile (ti : Nat) : t.tile ti = s.tile ti := by
  unfold State.tile
  rw [h.tiles]

theorem halfTiles (x : Half) : t.halfTiles x = s.halfTiles x := State.halfTiles_congr x h.plan

theorem halfReset (x : Half) : t.halfReset x = s.halfReset x := State.halfReset_congr x h.ctl

end State.KeepsFence

section
variable (s : State)

theorem fabDrop_keepsFence (cause dst : Nat) : s.KeepsFence (fabDrop s cause dst) := by
  have hreg : ¬FenceReg Reg.FAB_DROPPED := not_fenceReg (by decide) (by decide)
  unfold fabDrop
  exact (State.KeepsFence.setReg {} hreg).recordEvent ..

theorem fencePort_keepsFence {n : Nat} (hn : n < 12) : s.KeepsFence (fencePort s n) := by
  have hb := portStatus_bounds hn
  have hreg : ¬FenceReg (Reg.FAB_PORT_STATUS + n) := not_fenceReg (by unfold tilePages; omega) (by unfold Reg.HLK_STATUS; omega)
  have hsent : s.KeepsFence ((sendLink s n).setFport n FabPort.init) := {}
  exact (hsent.setFld hreg).foldl fun x a _ => fabDrop_keepsFence x 2 a.dst

theorem portDown_keepsFence {n : Nat} (hn : n < 4) : s.KeepsFence (portDown s n 2) := by
  have hreg : ∀ a ∈ [Reg.NET_PORT_STATUS + n, Reg.NET_FEC_UNCORR + n], ¬FenceReg a := by
    intro a ha
    refine not_fenceReg ?_ ?_
    all_goals
      simp only [List.mem_cons, List.not_mem_nil, or_false, Reg.NET_PORT_STATUS, Reg.NET_FEC_UNCORR] at ha
      simp only [tilePages, Reg.HLK_STATUS]
      omega
  have hdown : portDown s n 2 = recordEvent (s.portLost n 2) 0x0902 0 n 2 0 := rfl
  rw [hdown]
  exact (State.KeepsFence.of_regsOnly (s.portLost_regsOnly n 2) hreg).recordEvent ..

theorem settleAdm_keepsFence : s.KeepsFence (settleAdm s) :=
  .ite (.setFld {} (not_fenceReg (by decide) (by decide))) {}

theorem trainModule_keepsFence {m : Nat} (hm : m < 108) (pos target : Nat) : s.KeepsFence (trainModule s m pos target) := by
  have hb := hmReg_bounds hm
  have hreg : ¬FenceReg (hmReg m) := not_fenceReg (by unfold tilePages; omega) (by unfold Reg.HLK_STATUS; omega)
  have hmod : s.KeepsFence (s.setHlkMod m { HlkModule.init with target := target, replays := (s.hlkMod m).replays }) := {}
  exact ((hmod.setFld hreg).setFld hreg).setFld hreg

theorem report_mails (x : Session) (code v0 v1 : Nat) : s.Mails (report s x code v0 v1) := by
  unfold report
  split
  · rfl
  · split
    · rfl
    · exact sendMsg_mails ..

theorem State.requestEnded_keepsFence (x : Session) (q : Request) (status : Nat) : s.KeepsFence (s.requestEnded x q status) := by
  have hfence : ∀ a, FenceReg a → (s.requestEnded x q status).reg a = s.reg a := fun a ha =>
    s.requestEnded_reg x q status ha.not_event fun e => absurd (e ▸ ha) (not_fenceReg (by decide) (by decide))
  have hrest := s.requestEnded_frame x q status
  constructor
  case regs => exact hfence
  all_goals rw [hrest]
  · exact recordEvent_tiles ..
  · exact recordEvent_plan ..
  · exact recordEvent_ctl ..
  · exact congrArg Link.splitDue (recordEvent_link ..)

theorem endRequest_keepsFence (sid status : Nat) : s.KeepsFence (endRequest s sid status) := by
  cases hx : s.session? sid with
  | none =>
    unfold endRequest
    rw [hx]
    exact {}
  | some x =>
    cases hq : x.request with
    | none =>
      rw [endRequest_none hx hq]
      exact {}
    | some q =>
      rw [endRequest_some hx hq]
      exact (s.requestEnded_keepsFence x q status).trans {}

theorem loseSessions_keepsFence (h : Half) (l : List Session) : s.KeepsFence (loseSessions s h l) :=
  State.KeepsFence.foldl {} fun t x _ => (endRequest_keepsFence t x.id stHalfLost).mails (report_mails ..)

end

end Sys2Proof.Machine

namespace Sys2Proof.Machine

/-! ## A half fences itself (13 Table 13.3 step 3) -/

/-- The sequencer of a tile IDLE, if it ran or had faulted. -/
def State.tileIdled (s : State) (ti : Nat) : State :=
  if s.tilState ti = tilRunning ∨ s.tilState ti = tilFaulted then s.setTilState ti tilIdle else s

/-- A tile that is stopped as at a round end. -/
def State.tileFenced (s : State) (ti : Nat) : State := ((abandonTile s ti).tileIdled ti).modTile ti (fun t => { t with segs := [] })

/-- A tile with no segment that does not run. -/
structure State.Stopped (s : State) (ti : Nat) : Prop where
  segs : (s.tile ti).segs = []
  state : s.tilState ti ≠ tilRunning

section
variable {ti tj : Nat} (s : State)

theorem State.tileIdled_regsOnly (ti : Nat) : s.RegsOnly (s.tileIdled ti) [tileReg ti Reg.TIL_STATUS] := by
  unfold State.tileIdled
  split
  · exact s.setFld_regsOnly ..
  · exact ⟨State.RegsFrame.refl s _, rfl⟩

theorem State.tileIdled_state (ti : Nat) : (s.tileIdled ti).tilState ti ≠ tilRunning := by
  unfold State.tileIdled
  split
  next =>
    have hidle : (s.setTilState ti tilIdle).tilState ti = tilIdle := s.fld_setFld_same _ _ (by decide) (by decide)
    rw [hidle]
    decide
  next h => exact fun k => h (.inl k)

theorem abandonTile_regsFrame (ti : Nat) : s.RegsFrame (abandonTile s ti) [tileReg ti Reg.MXA_STATUS, tileReg ti Reg.MXA_HELD] := by
  intro a ha
  obtain ⟨hstatus, hheld⟩ := not_or.1 fun h => ha (List.mem_pair.2 h)
  exact (State.reg_setReg_ne _ _ hheld).trans (State.reg_setFld_ne _ _ _ _ hstatus)

theorem State.tileFenced_regsFrame (ti : Nat) :
    s.RegsFrame (s.tileFenced ti) [tileReg ti Reg.TIL_STATUS, tileReg ti Reg.MXA_STATUS, tileReg ti Reg.MXA_HELD] := by
  have hleft := (abandonTile_regsFrame s ti).mono (List.subset_cons_self (tileReg ti Reg.TIL_STATUS) _)
  have hidle := ((abandonTile s ti).tileIdled_regsOnly ti).1.mono
    (m := [tileReg ti Reg.TIL_STATUS, tileReg ti Reg.MXA_STATUS, tileReg ti Reg.MXA_HELD]) (List.cons_subset.2 ⟨List.mem_cons_self, List.nil_subset _⟩)
  exact (hleft.trans hidle).upd (State.modTile_regs ..)

theorem State.tileFenced_status (ti : Nat) : (s.tileFenced ti).reg Reg.HLK_STATUS = s.reg Reg.HLK_STATUS := by
  have hne (off : Nat) : Reg.HLK_STATUS ≠ tileReg ti off := by
    unfold tileReg tilePages Reg.HLK_STATUS
    omega
  exact s.tileFenced_regsFrame ti _ (by simp [hne])

theorem State.tileFenced_stops (ti : Nat) : (s.tileFenced ti).Stopped ti where
  segs := by rw [State.tileFenced, State.tile_modTile_same]
  state := by
    rw [State.tileFenced, State.tilState, State.fld_modTile]
    exact (abandonTile s ti).tileIdled_state ti

/-- Stopping one tile leaves every other. -/
theorem State.tileFenced_passes (hne : tj ≠ ti) : (s.tileFenced ti).tile tj = s.tile tj ∧ (s.tileFenced ti).tilState tj = s.tilState tj := by
  have hreg : tileReg tj Reg.TIL_STATUS ∉ [tileReg ti Reg.TIL_STATUS, tileReg ti Reg.MXA_STATUS, tileReg ti Reg.MXA_HELD] := by
    simp only [List.mem_cons, List.not_mem_nil, or_false, tileReg, Reg.TIL_STATUS, Reg.MXA_STATUS, Reg.MXA_HELD]
    omega
  refine ⟨?_, (s.tileFenced_regsFrame ti).fld hreg 2 0⟩
  have hidle : ((abandonTile s ti).tileIdled ti).tiles = (abandonTile s ti).tiles := by rw [((abandonTile s ti).tileIdled_regsOnly ti).2]
  have htile := (abandonTile_passes hne s).tile
  rw [State.tileFenced, State.tile_modTile, if_neg hne]
  unfold State.tile at *
  rw [hidle, htile]

theorem State.Stopped.tileFenced {s : State} (h : s.Stopped tj) (ti : Nat) : (s.tileFenced ti).Stopped tj := by
  by_cases hne : tj = ti
  · subst hne
    exact s.tileFenced_stops tj
  · obtain ⟨htile, hstate⟩ := s.tileFenced_passes hne
    exact ⟨(congrArg Tile.segs htile).trans h.segs, fun k => h.state (hstate.symm.trans k)⟩

theorem foldl_tileFenced_stops (l : List Nat) : ∀ ti ∈ l, (l.foldl State.tileFenced s).Stopped ti := by
  induction l generalizing s with
  | nil => exact nofun
  | cons a l ih =>
    intro ti hti
    rw [List.foldl_cons]
    obtain rfl | hti := List.mem_cons.1 hti
    · exact List.foldlRecOn (motive := fun t : State => t.Stopped ti) l _ (s.tileFenced_stops ti) fun t ht b _ => ht.tileFenced b
    · exact ih (s.tileFenced a) ti hti

theorem foldl_tileFenced_status (l : List Nat) : (l.foldl State.tileFenced s).reg Reg.HLK_STATUS = s.reg Reg.HLK_STATUS :=
  List.foldlRecOn (motive := fun t : State => t.reg Reg.HLK_STATUS = s.reg Reg.HLK_STATUS) l _ rfl fun t ht ti _ =>
    (t.tileFenced_status ti).trans ht

theorem State.KeepsFence.stopped {s t : State} (h : s.KeepsFence t) (k : s.Stopped ti) : t.Stopped ti :=
  ⟨(congrArg Tile.segs (h.tile ti)).trans k.segs, fun e => k.state ((h.tilState ti).symm.trans e)⟩

end

section
variable (s : State) (h : Half)

/-- The half marked fenced, without budget. -/
def State.fenceMarked : State := setBudget (setFenced s h true) h true

/-- The half marked fenced, with its tiles stopped. -/
def State.halfStopped : State := ((s.fenceMarked h).halfTiles h).foldl State.tileFenced (s.fenceMarked h)

/-- No split waits to be declared. -/
def State.splitDone : State := { s with link := { s.link with splitDue := false } }

theorem setBudget_frame (b : Bool) : setBudget s h b = { s with sage := (setBudget s h b).sage } := by
  cases h
  · rfl
  · rfl

theorem State.fenceMarked_status : (s.fenceMarked h).reg Reg.HLK_STATUS = (setFenced s h true).reg Reg.HLK_STATUS :=
  State.reg_congr (by rw [State.fenceMarked, setBudget_frame]) _

theorem State.fenceMarked_halfTiles : (s.fenceMarked h).halfTiles h = s.halfTiles h := by
  have hplan : (setFenced s h true).plan = s.plan := rfl
  exact State.halfTiles_congr h (by rw [State.fenceMarked, setBudget_frame, hplan])

/-- The ports of a half that fences itself, FENCED. -/
def State.portsFenced : State :=
  ((List.range 4).filter (fun n => decide (clientHalf n = h))).foldl (fun s n => Machine.portDown s n 2)
    (((List.range 12).filter (fun n => decide (portHalf n = h) && decide (s.fstate n ≠ fpDisabled))).foldl fencePort s)

theorem State.portsFenced_keepsFence : s.KeepsFence (s.portsFenced h) := by
  unfold State.portsFenced
  refine State.KeepsFence.foldl (.foldl {} fun t n hn => ?_) fun t n hn => ?_
  · exact fencePort_keepsFence t (List.mem_range.1 (List.mem_filter.1 hn).1)
  · exact portDown_keepsFence t (List.mem_range.1 (List.mem_filter.1 hn).1)

theorem fenceHalf_eq : fenceHalf s h = settleAdm ((s.halfStopped h).portsFenced h).splitDone := by
  unfold fenceHalf State.portsFenced State.splitDone State.halfStopped State.fenceMarked
  rfl

/-- With its tiles stopped, a half that fences itself takes its ports down; the work of a tile and the fence stay. -/
theorem fenceHalf_ports : ∃ t, (s.halfStopped h).KeepsFence t ∧ t.splitDone.KeepsFence (fenceHalf s h) := by
  rw [fenceHalf_eq]
  exact ⟨_, (s.halfStopped h).portsFenced_keepsFence h, settleAdm_keepsFence _⟩

theorem fenceHalf_status (hi lo : Nat) : (fenceHalf s h).fld Reg.HLK_STATUS hi lo = (setFenced s h true).fld Reg.HLK_STATUS hi lo := by
  obtain ⟨t, hports, hdone⟩ := fenceHalf_ports s h
  have hstopped : (s.halfStopped h).reg Reg.HLK_STATUS = (setFenced s h true).reg Reg.HLK_STATUS :=
    (foldl_tileFenced_status ..).trans (s.fenceMarked_status h)
  exact (hdone.status hi lo).trans ((hports.status hi lo).trans (congrArg (getBits · hi lo) hstopped))

theorem fenceHalf_stops : ∀ ti ∈ s.halfTiles h, (fenceHalf s h).Stopped ti := by
  intro ti hti
  obtain ⟨t, hports, hdone⟩ := fenceHalf_ports s h
  rw [← s.fenceMarked_halfTiles h] at hti
  have hstopped : (s.halfStopped h).Stopped ti := foldl_tileFenced_stops _ _ ti hti
  have ht : t.Stopped ti := hports.stopped hstopped
  exact hdone.stopped ⟨ht.segs, ht.state⟩

theorem setFenced_fenced : (setFenced s h true).fenced h = true := by
  cases h
  · exact decide_eq_true (State.fld_setFld_same _ _ _ (by decide) (by decide))
  · exact decide_eq_true (State.fld_setFld_same _ _ _ (by decide) (by decide))

/-- Fencing one half leaves the fence of the other. -/
theorem setFenced_other {x : Half} (hne : x ≠ h) : (setFenced s h true).fenced x = s.fenced x := by
  unfold State.fenced
  cases h with
  | west =>
    cases x with
    | west => exact absurd rfl hne
    | east => exact congrArg (fun n => decide (n = 1)) (State.fld_setFld_disjoint _ _ _ (by decide) (by decide) (.inr (by decide)))
  | east =>
    cases x with
    | west => exact congrArg (fun n => decide (n = 1)) (State.fld_setFld_disjoint _ _ _ (by decide) (by decide) (.inl (by decide)))
    | east => exact absurd rfl hne

/-- Fencing a half leaves SPLIT and LEASE_HALF. -/
theorem setFenced_high {hi lo : Nat} (hlo : 29 < lo) : (setFenced s h true).fld Reg.HLK_STATUS hi lo = s.fld Reg.HLK_STATUS hi lo := by
  cases h
  · exact State.fld_setFld_disjoint _ _ _ (by decide) (by decide) (.inr (Nat.lt_of_succ_lt hlo))
  · exact State.fld_setFld_disjoint _ _ _ (by decide) (by decide) (.inr hlo)

theorem fenceHalf_fenced : (fenceHalf s h).fenced h = true := by
  have hstatus : (fenceHalf s h).fenced h = (setFenced s h true).fenced h := by
    unfold State.fenced
    rw [fenceHalf_status, fenceHalf_status]
  rw [hstatus, setFenced_fenced]

theorem fenceHalf_other {x : Half} (hne : x ≠ h) : (fenceHalf s h).fenced x = s.fenced x := by
  have hstatus : (fenceHalf s h).fenced x = (setFenced s h true).fenced x := by
    unfold State.fenced
    rw [fenceHalf_status, fenceHalf_status]
  rw [hstatus, setFenced_other _ _ hne]

theorem fenceHalf_high {hi lo : Nat} (hlo : 29 < lo) : (fenceHalf s h).fld Reg.HLK_STATUS hi lo = s.fld Reg.HLK_STATUS hi lo :=
  (fenceHalf_status s h hi lo).trans (setFenced_high s h hlo)

end

end Sys2Proof.Machine


namespace Sys2Proof.Machine

/-! ## The split is declared (13 R406, R409, Table 13.3) -/

section
variable (s : State)

/-- SPLIT set, with every ACTIVE module in training again. -/
def State.linksCut : State :=
  (List.range 108).foldl (fun s m => if s.hmState m = hmActive then trainModule s m (s.hmPos m) (s.hmWidth m) else s)
    (s.setBit Reg.HLK_STATUS 31 true)

/-- The sessions whose state lies on the half without the lease. -/
def State.sessionsLost : List Session := s.linksCut.client.sessions.filter (fun x => s.linksCut.sessionOn x (otherHalf s.leaseHalf))

theorem State.KeepsFence.dropOnHalf {s t : State} (h : s.KeepsFence t) {x : Half} {cause : Nat} : s.KeepsFence (dropOnHalf t x cause) := h.trans {}

/-- The split recorded, and the steps dropped that use the half without the lease. -/
def State.splitTold : State :=
  dropOnHalf (recordEvent s.linksCut 0x0A05 0 (halfNo s.linksCut.leaseHalf) (s.linksCut.round % 2 ^ 32) s.sessionsLost.length)
    (otherHalf s.leaseHalf) 0

/-- A half that is to fence itself when it leaves its compute reset (13 R409). -/
def State.splitWaits (h : Half) : State := setBudget { s with link := { s.link with splitDue := true } } h true

/-- The half without the lease fenced, at once or when it leaves its compute reset. -/
def State.halvesParted : State :=
  if (s.splitTold.halfReset (otherHalf s.leaseHalf)).phase = 1 then s.splitTold.splitWaits (otherHalf s.leaseHalf)
  else fenceHalf s.splitTold (otherHalf s.leaseHalf)

/-- A new epoch is due at the next boundary (13 Table 13.3 step 6). -/
def State.epochDue : State := { s with plan := { s.plan with due := true } }

theorem declareSplit_eq : declareSplit s = (loseSessions s.halvesParted (otherHalf s.leaseHalf) s.sessionsLost).epochDue := by
  unfold declareSplit State.epochDue State.halvesParted State.splitWaits State.splitTold State.sessionsLost State.linksCut
  rfl

theorem State.splitTold_keepsFence : (s.setBit Reg.HLK_STATUS 31 true).KeepsFence s.splitTold := by
  have hcut : (s.setBit Reg.HLK_STATUS 31 true).KeepsFence s.linksCut := .foldl {} fun t m hm =>
    .ite (trainModule_keepsFence t (List.mem_range.1 hm) _ _) {}
  exact (hcut.recordEvent ..).dropOnHalf

theorem State.split_shown : (s.setBit Reg.HLK_STATUS 31 true).fld Reg.HLK_STATUS 31 31 = 1 := State.fld_setFld_same _ _ _ (by decide) (by decide)

theorem State.split_low {hi : Nat} (lo : Nat) (h : hi < 31) :
    (s.setBit Reg.HLK_STATUS 31 true).fld Reg.HLK_STATUS hi lo = s.fld Reg.HLK_STATUS hi lo :=
  State.fld_setFld_disjoint _ _ _ (by decide) (by decide) (.inl h)

theorem State.splitTold_shown : s.splitTold.fld Reg.HLK_STATUS 31 31 = 1 := (s.splitTold_keepsFence.status 31 31).trans s.split_shown

theorem State.splitTold_low {hi : Nat} (lo : Nat) (h : hi < 31) : s.splitTold.fld Reg.HLK_STATUS hi lo = s.fld Reg.HLK_STATUS hi lo :=
  (s.splitTold_keepsFence.status hi lo).trans (s.split_low lo h)

theorem State.splitTold_fenced (x : Half) : s.splitTold.fenced x = s.fenced x := by
  unfold State.fenced
  rw [s.splitTold_low 28 (by decide), s.splitTold_low 29 (by decide)]

theorem State.splitTold_halfTiles (x : Half) : s.splitTold.halfTiles x = s.halfTiles x :=
  (s.splitTold_keepsFence.halfTiles x).trans (State.halfTiles_congr x (State.setFld_plan ..))

theorem State.splitTold_halfReset (x : Half) : s.splitTold.halfReset x = s.halfReset x :=
  (s.splitTold_keepsFence.halfReset x).trans (State.halfReset_congr x (State.setFld_ctl ..))

theorem State.splitWaits_regs (h : Half) : (s.splitWaits h).regs = s.regs := by rw [State.splitWaits, setBudget_frame]

theorem State.splitWaits_due (h : Half) : (s.splitWaits h).link.splitDue = true := by rw [State.splitWaits, setBudget_frame]

end

theorem otherHalf_ne (h : Half) : h ≠ otherHalf h := by
  cases h
  · decide
  · decide

/-- The split as the two halves show it: the half with the lease serves on, and the other is fenced or will be. -/
structure State.Parted (s t : State) : Prop where
  shown : t.fld Reg.HLK_STATUS 31 31 = 1
  lease : t.leaseHalf = s.leaseHalf
  serves : t.fenced s.leaseHalf = false
  fences : (s.halfReset (otherHalf s.leaseHalf)).phase ≠ 1 → t.fenced (otherHalf s.leaseHalf) = true ∧
    ∀ ti ∈ s.halfTiles (otherHalf s.leaseHalf), t.Stopped ti
  waits : (s.halfReset (otherHalf s.leaseHalf)).phase = 1 → t.fenced (otherHalf s.leaseHalf) = false ∧ t.link.splitDue = true

theorem State.Parted.keepsFence {s t u : State} (h : s.Parted t) (k : t.KeepsFence u) : s.Parted u where
  shown := (k.status 31 31).trans h.shown
  lease := k.leaseHalf.trans h.lease
  serves := (k.fenced _).trans h.serves
  fences hp := ⟨(k.fenced _).trans (h.fences hp).1, fun ti hti => k.stopped ((h.fences hp).2 ti hti)⟩
  waits hp := ⟨(k.fenced _).trans (h.waits hp).1, k.due.trans (h.waits hp).2⟩

theorem State.halvesParted_parted {s : State} (hfree : ∀ x, s.fenced x = false) : s.Parted s.halvesParted := by
  have hlease {t : State} (h : t.fld Reg.HLK_STATUS 30 30 = s.fld Reg.HLK_STATUS 30 30) : t.leaseHalf = s.leaseHalf := by
    unfold State.leaseHalf
    rw [h]
  have hlow := s.splitTold_low (hi := 30) 30 (by decide)
  have hphase : (s.splitTold.halfReset (otherHalf s.leaseHalf)).phase = (s.halfReset (otherHalf s.leaseHalf)).phase :=
    congrArg HalfReset.phase (s.splitTold_halfReset _)
  have htold (x : Half) : s.splitTold.fenced x = false := (s.splitTold_fenced x).trans (hfree x)
  unfold State.halvesParted
  split
  next hp =>
    have hfld (hi lo : Nat) := State.fld_congr (s.splitTold.splitWaits_regs (otherHalf s.leaseHalf)) Reg.HLK_STATUS hi lo
    have hwaits (x : Half) : (s.splitTold.splitWaits (otherHalf s.leaseHalf)).fenced x = false := by
      rw [← htold x]
      unfold State.fenced
      rw [hfld, hfld]
    exact ⟨(hfld 31 31).trans s.splitTold_shown, hlease ((hfld 30 30).trans hlow), hwaits _, fun hne => absurd (hphase.symm.trans hp) hne,
      fun _ => ⟨hwaits _, State.splitWaits_due ..⟩⟩
  next hp =>
    exact ⟨(fenceHalf_high _ _ (by decide)).trans s.splitTold_shown, hlease ((fenceHalf_high _ _ (by decide)).trans hlow),
      (fenceHalf_other _ _ (otherHalf_ne _)).trans (htold _),
      fun _ => ⟨fenceHalf_fenced .., fun ti hti => fenceHalf_stops _ _ ti ((s.splitTold_halfTiles _).symm ▸ hti)⟩,
      fun he => absurd (hphase.trans he) hp⟩

theorem State.Parted.epochDue {s t : State} (h : s.Parted t) : s.Parted t.epochDue where
  shown := h.shown
  lease := h.lease
  serves := h.serves
  fences hp := ⟨(h.fences hp).1, fun ti hti => ⟨((h.fences hp).2 ti hti).segs, ((h.fences hp).2 ti hti).state⟩⟩
  waits := h.waits

theorem declareSplit_parted {s : State} (hfree : ∀ x, s.fenced x = false) : s.Parted (declareSplit s) := by
  rw [declareSplit_eq]
  exact ((State.halvesParted_parted hfree).keepsFence (loseSessions_keepsFence ..)).epochDue

theorem declareSplit_epochDue (s : State) : (declareSplit s).plan.due = true := by rw [declareSplit_eq, State.epochDue]

theorem exec_halvesSplit {s : State} (hwhole : s.fld Reg.HLK_STATUS 31 31 = 0) (hwest : s.fenced .west = false) (heast : s.fenced .east = false)
    (hpin : s.fld Reg.MGT_SIGNALS 8 8 = 0) (hmain : s.mainOn = true) : exec .halvesSplit s = .next (declareSplit s) := by
  have hex : exec .halvesSplit s = execHalvesSplit s := rfl
  rw [hex, execHalvesSplit, if_neg (by simp [hwhole, hwest, heast, hpin, hmain])]

end Sys2Proof.Machine

namespace Sys2Proof.Machine

/-! ## A half is attested anew (13 Table 13.4 step 3, 19 R551) -/

/-- The result of a re-attestation recorded. -/
def State.attested (s : State) (h : Half) (c : Nat) : State := recordEvent s 0x0105 0 (halfNo h) c 0

/-- A rejoin that ends without the half, with its event. -/
def State.rejoinRefused (s : State) (h : Half) (c : Nat) : State := recordEvent ((s.attested h c).withRejoin none) 0x0A08 0 (halfNo h) c 0

section
variable {s : State} {h : Half} {answer : Option Attestation} (hrejoin : s.link.rejoin = some (h, 1))
include hrejoin

theorem execReattestResult_attesting : execReattestResult answer s =
    if s.attest answer = 0 then .next ((s.attested h (s.attest answer)).withRejoin (some (h, 2)))
    else .next (s.rejoinRefused h (s.attest answer)) := by
  unfold execReattestResult
  rw [hrejoin]
  rfl

theorem exec_reattestResult_passed (hpass : s.attest answer = 0) :
    exec (.reattestResult answer) s = .next ((s.attested h 0).withRejoin (some (h, 2))) := by
  have hex : exec (.reattestResult answer) s = execReattestResult answer s := rfl
  rw [hex, execReattestResult_attesting hrejoin, if_pos hpass, hpass]

theorem exec_reattestResult_refused (hfail : s.attest answer ≠ 0) :
    exec (.reattestResult answer) s = .next (s.rejoinRefused h (s.attest answer)) := by
  have hex : exec (.reattestResult answer) s = execReattestResult answer s := rfl
  rw [hex, execReattestResult_attesting hrejoin, if_neg hfail]

end

section
variable (s : State) (h : Half) (c : Nat)

theorem State.attested_regsFrame : s.RegsFrame (s.attested h c) eventRegs := (recordEvent_frame _ _ _ _ _ _ []).1

theorem State.attested_records : s.Records (s.attested h c) (s.record 0x0105 0 (halfNo h) c 0) := recordEvent_records s _ _ _ _ _

theorem State.withRejoin_regsFrame (r : Option (Half × Nat)) : s.RegsFrame (s.withRejoin r) eventRegs := fun _ _ => rfl

theorem State.rejoinRefused_rejoin : (s.rejoinRefused h c).link.rejoin = none := congrArg Link.rejoin (recordEvent_link ..)

theorem State.rejoinRefused_shows : s.Shows (s.rejoinRefused h c) (s.record 0x0105 0 (halfNo h) c 0) := by
  intro hroom
  exact recordEvent_staging (s := (s.attested h c).withRejoin none) ((s.attested_records h c).shows hroom) ..

theorem State.rejoinRefused_regsFrame : s.RegsFrame (s.rejoinRefused h c) eventRegs :=
  ((s.attested_regsFrame h c).trans ((s.attested h c).withRejoin_regsFrame none)).trans (recordEvent_frame _ _ _ _ _ _ []).1

end

end Sys2Proof.Machine

namespace Sys2Proof.Machine

/-! ## The half link as a whole -/

/-- What a module that has trained shows, whether or not it starts the rejoin. -/
theorem trained_shows {s t : State} {m : Nat} (hm : m < 108) (r : Option (Half × Nat)) (ht : t = (settleLink (s.activated m)).withRejoin r) :
    t.hmState m = hmActive ∧ t.hmWidth m = (s.hlkMod m).target % 4 ∧ (t.hlkMod m).returning = true ∧
      s.RegsFrame t ([hmReg m, Reg.HLK_STATUS] ++ rowMapRegs ++ eventRegs) := by
  have hregs : t.regs = (settleLink (s.activated m)).regs := by rw [ht, State.withRejoin]
  have hmods : t.link.mods = (s.activated m).link.mods := by rw [ht, State.withRejoin, settleLink_link]
  have hmod (hi lo : Nat) : t.fld (hmReg m) hi lo = (s.activated m).fld (hmReg m) hi lo :=
    (State.fld_congr hregs ..).trans (settleLink_mod _ hm hi lo)
  refine ⟨(hmod 2 0).trans (s.activated_state m), (hmod 5 4).trans (s.activated_width m), ?_, ?_⟩
  · rw [State.hlkMod_congr hmods, State.activated_mod]
  · have hactive := (s.activated_frame m).mono (m := [hmReg m, Reg.HLK_STATUS] ++ rowMapRegs ++ eventRegs) (by simp)
    exact (hactive.trans ((settleLink_frame (s.activated m)).1.mono (by simp))).upd hregs

/-- What a module that cannot be replaced leaves: it and its position RETIRED. -/
theorem moduleFailing_retired {s : State} {m : Nat} (hm : m < 108) (hpos : s.hmPos m < 96) (hwidth : s.hmWidth m ≠ 2)
    (htarget : (s.hlkMod m).target ≠ 2) : (moduleFailing s m).hmState m = hmRetired ∧ (moduleFailing s m).hmPos m = 0xFF ∧
      s.hmPos m ∈ (moduleFailing s m).link.retired ∧
      (moduleFailing s m).fld Reg.HLK_STATUS 6 0 = (moduleFailing s m).usablePositions.length % 128 := by
  rw [moduleFailing_retires hpos hwidth htarget]
  generalize hr : s.retiredWith m (s.hmPos m) = r
  generalize hu : recordEvent r 0x0A03 0 (s.hmPos m) m (r.fld Reg.HLK_STATUS 6 0) = u
  have hmoved := moveFrames_handsOver u (s.unacked m)
  generalize moveFrames u (s.unacked m) = t at hmoved ⊢
  have hregs : t.regs = u.regs := by rw [hmoved]
  have hlink : t.link.retired = r.link.retired := by rw [hmoved, ← hu, recordEvent_link]
  have hplan : t.plan = r.plan := by rw [hmoved, ← hu, recordEvent_plan]
  have hfld {a : Nat} (ha : a ∉ eventRegs) (hi lo : Nat) : t.fld a hi lo = r.fld a hi lo := by
    rw [State.fld_congr hregs, ← hu, recordEvent_fld _ _ _ _ _ _ hi lo ha]
  have hmod (hi lo : Nat) : t.fld (hmReg m) hi lo = (retireModule s m).fld (hmReg m) hi lo := by
    have hb := hmReg_bounds hm
    rw [hfld (hlkReg_notMem_eventRegs (by omega)), ← hr, State.retiredWith_mod _ hm]
  refine ⟨(hmod 2 0).trans retireModule_state, (hmod 15 8).trans retireModule_pos, ?_, ?_⟩
  · rw [hlink, ← hr]
    exact State.retiredWith_retired _
  · rw [hfld (by decide), State.usablePositions_congr hlink hplan, ← hr, State.retiredWith_usable]

/-- Settles O52: a frame leaves its sender and reaches its receiver, a replay sends what is kept, a module trains or retires by the first
row of Table 13.2 that applies, and the split fences the half without the lease, at once or when it leaves its compute reset. -/
theorem halvesStayLinked : Obligations.HalvesStayLinked := by
  refine ⟨?new, ?gap, ?control, ?replay, ?trained, ?retired, ?lease, ?split, ?rejoin⟩
  case new =>
    intro s m toEast f w snd rcv hm hact hwhole hends hvalid hnext hmay hok hexp
    have hsent : snd.sent f w = { snd.sent f w with kept := snd.kept ++ [(f, w)] } := by
      unfold HlkEnd.sent
      rw [← hnext]
    refine ⟨_, exec_hlkFrame_new hm hact hwhole hends hvalid hnext hmay, ?_⟩
    rw [receiveValid_accepts (sendFrame_ends hends) hok hexp, State.ends_setEnds, hsent]
    exact ⟨rfl, rfl, rfl, rfl, rfl⟩
  case gap =>
    intro s m toEast f w snd rcv hm hact hwhole hends hvalid hnext hbad hdisc
    refine ⟨_, exec_hlkFrame_other hm hact hwhole hends hvalid hnext, ?_⟩
    have hmods (o : Output) : ((s.setEnds m toEast snd rcv.asking).emit o).hlkMod m = (s.setEnds m toEast snd rcv.asking).hlkMod m := rfl
    rw [receiveValid_asks hends hbad hdisc, hmods, State.ends_setEnds]
    exact ⟨rfl, rfl, rfl, rfl, rfl⟩
  case control =>
    intro s m toEast f w snd rcv hm hact hwhole hends hvalid hok hnak
    refine ⟨_, exec_hlkFrame_control hm hact hwhole hvalid hok, ?_⟩
    rw [receiveControl_acknowledges hends hnak, State.ends_setEnds]
    exact ⟨rfl, rfl, rfl, rfl⟩
  case replay =>
    intro s m fromWest hm hact hkept hfew
    refine ⟨_, exec_hlkReplayTimeout fromWest hm hact hkept hfew, rfl, s.replayed_counted fromWest hm, ?_, s.replayed_frame fromWest m⟩
    rw [State.replayed_mod]
  case trained =>
    intro s m hm htrain
    obtain ⟨r, hex⟩ := exec_hlkModuleTrained_passed hm htrain
    exact ⟨_, hex, trained_shows hm r rfl⟩
  case retired =>
    intro s m hm htrain hwhole hpos hwidth htarget
    exact ⟨_, exec_hlkModuleTrained_failed hm htrain hwhole, moduleFailing_retired hm hpos hwidth htarget⟩
  case lease =>
    intro s hspeaks
    exact if_neg (by simp [hspeaks])
  case split =>
    intro s hwhole hwest heast hpin hmain
    have hparted : s.Parted (declareSplit s) := declareSplit_parted fun
      | .west => hwest
      | .east => heast
    refine ⟨_, exec_halvesSplit hwhole hwest heast hpin hmain, hparted.shown, hparted.lease, declareSplit_epochDue s, hparted.serves,
      fun hp => ?_, hparted.waits⟩
    obtain ⟨hfenced, hstopped⟩ := hparted.fences hp
    exact ⟨hfenced, fun ti hti => ⟨(hstopped ti hti).segs, (hstopped ti hti).state⟩⟩
  case rejoin =>
    intro s h answer hrejoin
    by_cases hpass : s.attest answer = 0
    · refine ⟨_, exec_reattestResult_passed hrejoin hpass, fun _ => ⟨rfl, ?_, ?_⟩, fun hfail => absurd hpass hfail⟩
      · exact (s.attested_records h 0).congr rfl
      · exact (s.attested_regsFrame h 0).trans (State.withRejoin_regsFrame _ _)
    · exact ⟨_, exec_reattestResult_refused hrejoin hpass, fun h0 => absurd h0 hpass,
        fun _ => ⟨s.rejoinRefused_rejoin h _, s.rejoinRefused_shows h _, s.rejoinRefused_regsFrame h _⟩⟩

end Sys2Proof.Machine

namespace Sys2Proof.Machine

/-! ## The step and the state after reset -/

/-- Settles O1: the two cases of the queue are the two cases of `step`. -/
theorem stepRunsTheFrontCommand : Obligations.StepRunsTheFrontCommand := by
  constructor
  · intro c q s h
    unfold step
    rw [h]
  · intro s h
    simp only [step, h, idle]

theorem State.reset_wf : State.reset.wf where
  regs := rfl
  listed := by simp [State.reset]
  tiles := rfl
  tile := by simp [State.reset]
  shadow := rfl
  stack := rfl

/-- Settles O4: nothing is listed after reset, so that every register reads its reset value. -/
theorem resetLeavesTheModuleOff : Obligations.ResetLeavesTheModuleOff :=
  ⟨State.reset_wf, rfl, rfl, by decide, by decide, rfl, rfl, by decide, by decide, by decide⟩

/-! ## The recorder when it is full (19 R555) -/

section
variable (s : State) (code source p0 p1 p2 : Nat)

/-- The recorder of a state with the event staged. -/
@[simp] theorem State.staged_evt : (s.staged code source p0 p1 p2).evt = (s.evt.stage s.calendar code source p0 p1 p2).1 := by
  unfold State.staged
  dsimp only
  split <;> rfl

/-- An event that finds the recorder full, or its buffer, is counted and not staged. -/
theorem Recorder.stage_full {r : Recorder} (h : r.full = true) (time : Nat) : r.stage time code source p0 p1 p2 = (r, false, 1) :=
  if_pos h

theorem Recorder.stage_unbuffered {r : Recorder} (h : r.full = false) (hslot : r.slot < 131071) (hbuf : 65536 ≤ r.staging.length)
    (time : Nat) : r.stage time code source p0 p1 p2 = ({ r with overflowed := r.overflowed + 1 }, false, 1) := by
  unfold Recorder.stage
  rw [if_neg (by simp [h]), if_neg (by omega), if_pos hbuf]

/-- An event that finds the last ordinary slot used makes LOG_FULL the last record. -/
theorem Recorder.stage_last {r : Recorder} (h : r.full = false) (hslot : r.slot = 131071) (time : Nat) :
    r.stage time code source p0 p1 p2 =
      ({ r with staging := r.staging ++ [⟨r.head, time, 0x0301, 0, 1, code, 0, 0⟩], head := r.head + 1, full := true }, false, 1) := by
  unfold Recorder.stage
  rw [if_neg (by simp [h]), if_pos (by omega)]

/-- While the pending list has room, recording an event stages it and changes nothing else but the list. -/
theorem recordEvent_of_room (h : s.sup.list.length < 64) :
    ∃ u, recordEvent s code source p0 p1 p2 = { s.staged code source p0 p1 p2 with sup := u } := by
  have hsup := s.staged_sup code source p0 p1 p2
  unfold recordEvent
  extract_lets st seq s1 s2 sev hs e
  have h2 : s2 = s.staged code source p0 p1 p2 := rfl
  rw [h2]
  split
  · exact ⟨_, rfl⟩
  · split
    · exact ⟨_, rfl⟩
    · rw [hsup, if_pos h]
      exact ⟨_, rfl⟩

/-- An event whose staging leaves the recorder full leaves the recorder so, even where the pending list takes it no more. -/
theorem recordEvent_evt_of_full (h : (s.evt.stage s.calendar code source p0 p1 p2).1.full = true) :
    (recordEvent s code source p0 p1 p2).evt = (s.evt.stage s.calendar code source p0 p1 p2).1 := by
  have hevt := s.staged_evt code source p0 p1 p2
  unfold recordEvent
  extract_lets st seq s1 s2 sev hs e names half st2 s3 s4
  have h2 : s2.evt = st.1 := hevt
  have h4 : s4.evt = st.1 := by
    have hst2 : st2 = (st.1, false, 1) := by
      unfold st2
      rw [h2]
      exact Recorder.stage_full _ _ _ _ _ h _
    unfold s4 s3
    rw [hst2]
    rfl
  clear_value s4
  split
  · exact h2
  · split
    · exact h2
    · split
      · exact h2
      · rw [State.setFld_evt, State.count_evt, h4]

/-- An event that is not staged is counted in EVT_LOST. -/
theorem recordEvent_lost (h : s.sup.list.length < 64) (hst : (s.evt.stage s.calendar code source p0 p1 p2).2.2 = 1) :
    s.Counted (recordEvent s code source p0 p1 p2) Reg.EVT_LOST 1 := by
  obtain ⟨u, hu⟩ := recordEvent_of_room s code source p0 p1 p2 h
  have hs : s.staged code source p0 p1 p2 =
      State.count { s with evt := (s.evt.stage s.calendar code source p0 p1 p2).1 } Reg.EVT_LOST 1 := by
    unfold State.staged
    simp [hst]
  rw [hu, hs]
  exact State.toNat_reg_count _ _ _

theorem recordEvent_evt_of_room (h : s.sup.list.length < 64) :
    (recordEvent s code source p0 p1 p2).evt = (s.evt.stage s.calendar code source p0 p1 p2).1 := by
  obtain ⟨u, hu⟩ := recordEvent_of_room s code source p0 p1 p2 h
  rw [hu, ← s.staged_evt code source p0 p1 p2]

end

/-- Settles O6: with room by `recordEvent_records`; else by what `Recorder.stage` does with the last slot used or with no room. -/
theorem eventsAreRecordedInOrder : Obligations.EventsAreRecordedInOrder := by
  refine ⟨fun s code source p0 p1 p2 => ⟨recordEvent_records s _ _ _ _ _, recordEvent_frame s _ _ _ _ _ _⟩, ?last, ?lost⟩
  case last =>
    intro s code source p0 p1 p2 hfull hslot
    have hst := Recorder.stage_last code source p0 p1 p2 hfull hslot s.calendar
    have hevt := recordEvent_evt_of_full s code source p0 p1 p2 (by rw [hst])
    rw [hevt, hst]
    exact ⟨rfl, rfl, rfl, rfl, fun hroom => recordEvent_lost s code source p0 p1 p2 hroom (by rw [hst])⟩
  case lost =>
    intro s code source p0 p1 p2 hlost hroom
    have hst : (s.evt.stage s.calendar code source p0 p1 p2).1.staging = s.evt.staging ∧
        (s.evt.stage s.calendar code source p0 p1 p2).1.head = s.evt.head ∧ (s.evt.stage s.calendar code source p0 p1 p2).2.2 = 1 := by
      by_cases hf : s.evt.full = true
      · rw [Recorder.stage_full _ _ _ _ _ hf]
        exact ⟨rfl, rfl, rfl⟩
      · obtain ⟨hslot, hbuf⟩ := hlost.resolve_left hf
        rw [Recorder.stage_unbuffered _ _ _ _ _ (by simpa using hf) hslot hbuf]
        exact ⟨rfl, rfl, rfl⟩
    obtain ⟨hstaging, hhead, hcount⟩ := hst
    have hevt := recordEvent_evt_of_room s code source p0 p1 p2 hroom
    exact ⟨by rw [hevt, hstaging], by rw [hevt, hhead], recordEvent_lost s code source p0 p1 p2 hroom hcount⟩

end Sys2Proof.Machine

namespace Sys2Proof.Machine

/-! ## The log (19 R554, R556, R557, 17 R497) -/

section
variable (s : State) (code source p0 p1 p2 : Nat)

@[simp] theorem Recorder.stage_log (r : Recorder) (time : Nat) : (r.stage time code source p0 p1 p2).1.log = r.log := by
  unfold Recorder.stage
  split_ifs <;> rfl

/-- The recorder after an event has staged it, and after that at most the event that the pending list was full. -/
theorem recordEvent_evt_cases : (recordEvent s code source p0 p1 p2).evt = (s.evt.stage s.calendar code source p0 p1 p2).1 ∨
    ∃ time seq half n, (recordEvent s code source p0 p1 p2).evt =
      ((s.evt.stage s.calendar code source p0 p1 p2).1.stage time 0x0C40 0 seq half n).1 := by
  have hevt := s.staged_evt code source p0 p1 p2
  unfold recordEvent
  extract_lets st seq s1 s2 sev hs e names half st2 s3 s4
  have h2 : s2.evt = st.1 := hevt
  have h4 : s4.evt = (st.1.stage s2.calendar 0x0C40 0 seq half s2.sup.list.length).1 := by
    have h3 : s3.evt = (st.1.stage s2.calendar 0x0C40 0 seq half s2.sup.list.length).1 := by
      unfold s3 st2
      rw [h2]
    unfold s4
    split
    · exact h3
    · rw [State.count_evt, h3]
  clear_value s4
  split
  · exact .inl h2
  · split
    · exact .inl h2
    · split
      · exact .inl h2
      · exact .inr ⟨_, _, _, _, by rw [State.setFld_evt, State.count_evt, h4]⟩

@[simp] theorem recordEvent_evt_log : (recordEvent s code source p0 p1 p2).evt.log = s.evt.log := by
  obtain h | ⟨_, _, _, _, h⟩ := recordEvent_evt_cases s code source p0 p1 p2
  · rw [h, Recorder.stage_log]
  · rw [h, Recorder.stage_log, Recorder.stage_log]

end

/-- The loss of the card is noted in CFG_STATUS and as an event, and LOG stays (17 R497). -/
theorem cardLost_shown {s : State} (h : s.fld Reg.CFG_STATUS 31 31 = 1) (part addr : Nat) :
    (cardLost s part addr).fld Reg.CFG_STATUS 31 31 = 0 ∧ (cardLost s part addr).evt.log = s.evt.log ∧
      s.Records (cardLost s part addr) (s.record 0x0204 0 part addr 0) := by
  unfold cardLost
  rw [if_neg (by omega)]
  have hsig (t : State) (bit : Nat) (b : Bool) : (setAlert t bit b).fld Reg.CFG_STATUS 31 31 = t.fld Reg.CFG_STATUS 31 31 :=
    (State.fld_setFld_ne _ _ _ _ _ _ (by decide)).trans (State.fld_setFld_ne _ _ _ _ _ _ (by decide))
  refine ⟨?_, ?_, ?_⟩
  · rw [hsig, recordEvent_fld _ _ _ _ _ _ _ _ (by decide), State.fld_setFld_same _ _ _ (by decide) (by decide), Nat.zero_mod]
  · rw [setAlert_evt, recordEvent_evt_log, State.setFld_evt]
  · exact ((s.setFld_regsOnly _ _ _ _).records _ _ _ _ _).congr (setAlert_evt _ _ _)

/-- Programming moves up to eight staged records to LOG, in order. -/
theorem exec_logProgram_answered {s : State} (hcard : s.fld Reg.CFG_STATUS 31 31 = 1) (hclear : s.evt.clearing = false)
    (hserves : s.mgmt.silent = false) (hstaged : s.evt.staging ≠ []) (hover : s.evt.overflowed = 0) :
    exec (.logProgram true) s =
      .next { s with evt := { s.evt with log := s.evt.log ++ s.evt.staging.take 8, staging := s.evt.staging.drop 8 } } := by
  change execLogProgram true s = _
  unfold execLogProgram noteOverflow
  rw [if_neg (by simp [hcard, hclear, hserves, hstaged]), if_neg (by simp), if_pos (.inl hover)]

theorem exec_logProgram_unanswered {s : State} (hcard : s.fld Reg.CFG_STATUS 31 31 = 1) (hclear : s.evt.clearing = false)
    (hserves : s.mgmt.silent = false) (hstaged : s.evt.staging ≠ []) :
    exec (.logProgram false) s = .next (cardLost s 9 (cardLog + 32 * s.evt.log.length)) := by
  change execLogProgram false s = _
  unfold execLogProgram
  rw [if_neg (by simp [hcard, hclear, hserves, hstaged]), if_pos (by simp)]

/-! ### EVT_CLEAR -/

/-- Saving the state writes the card only. -/
theorem saveState_card (s : State) (mark : Option (Nat × Nat × Nat)) : saveState s mark = { s with card := (saveState s mark).card } := by
  unfold saveState
  split_ifs with h
  · rfl
  · cases s.card.slot0 with
    | none => rfl
    | some a =>
      dsimp only
      split_ifs <;> rfl

/-- The state is saved on a card that answers: one of its slots holds the fatigue counts in force and the mark (17 R500). -/
theorem saveState_saved {s : State} (h : s.fld Reg.CFG_STATUS 31 31 = 1) (mark : Option (Nat × Nat × Nat)) :
    ∃ r : SaveRec, ((saveState s mark).card.slot0 = some r ∨ (saveState s mark).card.slot1 = some r) ∧
      r.total = (s.reg Reg.THM_FATIGUE_TOTAL).toNat ∧ r.fatigue = (List.range 144).map (fun c => (s.reg (Reg.THM_FATIGUE + c)).toNat) ∧
      ∀ m ∈ mark, (r.clearSeq, r.clearFirst, r.clearHead) = m := by
  unfold saveState
  rw [if_neg (by omega)]
  extract_lets last m r
  refine ⟨r, ?_, rfl, rfl, fun x hx => by simp_all [r, m]⟩
  split
  · split
    · exact .inr rfl
    · exact .inl rfl
  · exact .inl rfl

/-- The state once the log is forgotten up to HEAD (R557). -/
def State.forgotten (s : State) (v : Word) : State :=
  let t := saveState s (some (v.toNat, s.evt.first % 2 ^ 32, s.evt.head % 2 ^ 32))
  { t with evt := { t.evt with log := [], staging := [], first := s.evt.head, full := false, clearing := true } }

theorem State.forgotten_lifeCycle (s : State) (v : Word) : (s.forgotten v).lifeCycle = s.lifeCycle := by
  unfold State.forgotten
  rw [saveState_card]
  rfl

theorem exec_evtClear_taken {s : State} {v : Word} (hclear : s.evt.clearing = false) (hv : v.toNat = s.evt.head % 2 ^ 32) :
    exec (.evtClear v) s =
      .next (recordEvent (s.forgotten v) 0x0302 0 (s.evt.first % 2 ^ 32) (s.evt.head % 2 ^ 32) s.lifeCycle) := by
  change Host.Outcome.next (clearLog s v) = _
  unfold clearLog
  rw [if_neg (by simp [hclear, hv]), ← s.forgotten_lifeCycle v]
  rfl

theorem exec_evtClear_refused {s : State} {v : Word} (hv : v.toNat ≠ s.evt.head % 2 ^ 32) :
    exec (.evtClear v) s = .next (refuse s Reg.EVT_CLEAR stRefused) := by
  change Host.Outcome.next (clearLog s v) = _
  unfold clearLog
  rw [if_pos (.inr hv)]

/-- An event staged in an empty recorder that is not full. -/
theorem Recorder.stage_empty {r : Recorder} (hfull : r.full = false) (hfirst : r.first = r.head) (hst : r.staging = [])
    (time code source p0 p1 p2 : Nat) : (r.stage time code source p0 p1 p2).1 =
      { r with staging := [⟨r.head, time, code, source, severityOf code, p0, p1, p2⟩], head := r.head + 1 } := by
  unfold Recorder.stage Recorder.slot
  rw [if_neg (by simp [hfull]), if_neg (by omega), if_neg (by simp [hst]), hst]
  rfl

/-- EVT_CLEAR with the HEAD in force leaves the record of the clearing alone, and its mark on the card (R557). -/
theorem exec_evtClear_cleared {s : State} {v : Word} (hclear : s.evt.clearing = false) (hv : v.toNat = s.evt.head % 2 ^ 32)
    (hroom : s.sup.list.length < 64) :
    ∃ t, exec (.evtClear v) s = .next t ∧ t.evt = { s.evt with
        staging := [s.record 0x0302 0 (s.evt.first % 2 ^ 32) (s.evt.head % 2 ^ 32) s.lifeCycle]
        log := [], first := s.evt.head, head := s.evt.head + 1, full := false, clearing := true } ∧
      t.card = (saveState s (some (v.toNat, s.evt.first % 2 ^ 32, s.evt.head % 2 ^ 32))).card := by
  refine ⟨_, exec_evtClear_taken hclear hv, ?_, ?_⟩
  · have hforgot : s.forgotten v = { s with
        card := (s.forgotten v).card
        evt := { s.evt with log := [], staging := [], first := s.evt.head, full := false, clearing := true } } := by
      unfold State.forgotten
      rw [saveState_card]
    rw [recordEvent_evt_of_room _ _ _ _ _ _ (by rw [hforgot]; exact hroom), hforgot, Recorder.stage_empty rfl rfl rfl]
    rfl
  · rw [recordEvent_card]
    rfl

/-- Settles O44: each command by what it does to the recorder. -/
theorem theLogIsKept : Obligations.TheLogIsKept := by
  refine ⟨fun s => exec_logProgram_answered, ?lost, ?clear, ?refused, fun _ => rfl, ?window⟩
  case lost =>
    intro s hcard hclear hserves hstaged
    exact ⟨_, exec_logProgram_unanswered hcard hclear hserves hstaged, cardLost_shown hcard 9 _⟩
  case clear =>
    intro s v hclear hv hroom
    obtain ⟨t, hex, hevt, hcard⟩ := exec_evtClear_cleared hclear hv hroom
    refine ⟨t, hex, by rw [hevt], by rw [hevt], by rw [hevt], by rw [hevt], by rw [hevt], by rw [hevt], fun hanswers => ?_⟩
    obtain ⟨r, hslot, -, -, hmark⟩ := saveState_saved hanswers (some (v.toNat, s.evt.first % 2 ^ 32, s.evt.head % 2 ^ 32))
    have hm := hmark _ rfl
    simp only [Prod.mk.injEq] at hm
    exact ⟨r, by rw [hcard]; exact hslot, hm⟩
  case refused => exact fun s v hv => ⟨_, exec_evtClear_refused hv, rfl, rfl, rfl⟩
  case window =>
    exact fun s => ⟨_, rfl, rfl, State.fld_setFld_same _ _ _ (by decide) (by decide), (State.setFld_regsOnly _ _ _ _ _).1, rfl⟩

end Sys2Proof.Machine

namespace Sys2Proof.Machine

/-! ## What a change leaves of some registers and of the staged records -/

/-- The registers of a set read as before, and every record that was staged is staged still. -/
structure State.Fixes (P : Nat → Prop) (s t : State) : Prop where
  regs : ∀ a, P a → t.reg a = s.reg a
  staged : ∀ e ∈ s.evt.staging, e ∈ t.evt.staging

namespace State.Fixes
variable {P Q : Nat → Prop} {s t u : State}

theorem refl (P : Nat → Prop) (s : State) : s.Fixes P s := ⟨fun _ _ => rfl, fun _ h => h⟩

theorem trans (h : s.Fixes P t) (k : t.Fixes P u) : s.Fixes P u :=
  ⟨fun a ha => (k.regs a ha).trans (h.regs a ha), fun e he => k.staged e (h.staged e he)⟩

theorem mono (h : s.Fixes P t) (k : ∀ a, Q a → P a) : s.Fixes Q t := ⟨fun a ha => h.regs a (k a ha), h.staged⟩

/-- A change of neither the registers nor the recorder. -/
theorem upd (h : s.Fixes P t) (hr : u.regs = t.regs := by rfl) (he : u.evt = t.evt := by rfl) : s.Fixes P u :=
  h.trans ⟨fun a _ => State.reg_congr hr a, fun e k => by rwa [he]⟩

theorem setReg (h : s.Fixes P t) {a : Nat} {v : Word} (k : ¬P a) : s.Fixes P (t.setReg a v) :=
  h.trans ⟨fun _ hb => State.reg_setReg_ne _ _ fun e => k (e ▸ hb), fun _ he => he⟩

theorem setFld (h : s.Fixes P t) {a hi lo v : Nat} (k : ¬P a) : s.Fixes P (t.setFld a hi lo v) := h.setReg k

theorem setBit (h : s.Fixes P t) {a i : Nat} {b : Bool} (k : ¬P a) : s.Fixes P (t.setBit a i b) := h.setReg k

theorem count (h : s.Fixes P t) {a n : Nat} (k : ¬P a) : s.Fixes P (t.count a n) := h.setReg k

theorem setReg64 (h : s.Fixes P t) {a v : Nat} (k : ¬P a) (l : ¬P (a + 1)) : s.Fixes P (t.setReg64 a v) := (h.setReg k).setReg l

theorem setAlert (h : s.Fixes P t) {i : Nat} {b : Bool} (k : ¬P Reg.MGT_SIGNALS) : s.Fixes P (setAlert t i b) := (h.setBit k).setBit k

theorem of_regsOnly {l : List Nat} (h : s.RegsOnly t l) (k : ∀ a ∈ l, ¬P a) : s.Fixes P t :=
  ⟨fun a ha => h.1 a fun hm => k a hm ha, fun e he => by rw [h.2]; exact he⟩

theorem recordEvent (h : s.Fixes P t) (k : ∀ a ∈ eventRegs, ¬P a) (code source p0 p1 p2 : Nat) :
    s.Fixes P (recordEvent t code source p0 p1 p2) :=
  h.trans ⟨fun _ ha => recordEvent_reg _ _ _ _ _ _ fun hm => k _ hm ha, fun _ he => recordEvent_staging he ..⟩

theorem foldl {α : Type} {g : State → α → State} {l : List α} (h : s.Fixes P t) (k : ∀ (x : State) a, a ∈ l → x.Fixes P (g x a)) :
    s.Fixes P (l.foldl g t) := List.foldlRecOn l g h fun x hx a ha => hx.trans (k x a ha)

theorem ite {c : Prop} [Decidable c] (h : s.Fixes P t) (k : s.Fixes P u) : s.Fixes P (if c then t else u) := by
  split
  · exact h
  · exact k

theorem fld (h : s.Fixes P t) {a : Nat} (ha : P a) (hi lo : Nat) : t.fld a hi lo = s.fld a hi lo := congrArg (getBits · hi lo) (h.regs a ha)

/-- A record shown before is shown still. -/
theorem shows (h : t.Fixes P u) {e : EventRec} (k : s.Shows t e) : s.Shows u e := fun hroom => h.staged e (k hroom)

end State.Fixes

/-- What each step of a loop leaves, the loop leaves. -/
theorem foldl_keeps {α β : Type} {f : State → β} {g : State → α → State} {l : List α} (h : ∀ x, ∀ a ∈ l, f (g x a) = f x) (s : State) :
    f (l.foldl g s) = f s := List.foldlRecOn (motive := fun t => f t = f s) l g rfl fun x hx a ha => (h x a ha).trans hx

theorem State.Shows.congr {s t u : State} {e : EventRec} (h : s.Shows t e) (k : u.evt = t.evt) : s.Shows u e := fun hroom => by
  rw [k]
  exact h hroom

/-! ## The signals (20 Table 20.10) -/

section
variable (s : State) {i j : Nat}

theorem setSignal_signal_same (h : i < 32) (b : Bool) : (setSignal s i b).signal i = b := s.fld_setBit_same Reg.MGT_SIGNALS h b

theorem setSignal_signal_ne (h : i < 32) (hne : j ≠ i) (b : Bool) : (setSignal s i b).signal j = s.signal j := by
  unfold State.signal setSignal State.setBit
  rw [State.fld_setFld_disjoint _ _ _ le_rfl h (by omega)]

theorem setAlert_signal_ne (h : i < 32) (hne : j ≠ i) (h3 : j ≠ 3) (b : Bool) : (setAlert s i b).signal j = s.signal j :=
  (setSignal_signal_ne _ (by decide) h3 _).trans (setSignal_signal_ne s h hne b)

theorem State.signal_congr {s t : State} (h : t.reg Reg.MGT_SIGNALS = s.reg Reg.MGT_SIGNALS) (j : Nat) : t.signal j = s.signal j :=
  congrArg (fun w => decide (getBits w j j = 1)) h

end

/-! ## What a loss of main power takes (14 R431) -/

section
variable (s : State)

/-- What main power held is gone; the registers that show so are not brought up to date. -/
def State.stripped : State := { s with
    regs := s.regs.filter (fun e => !lostWithMain e.1)
    tiles := s.tiles.map (fun (e : Nat × Tile) => (e.1, { Tile.init with generation := e.2.generation + 1, sliceGen := e.2.sliceGen + 1 }))
    mesh := []
    stm := { StackTier.init with generation := s.stm.generation + 1, retired := s.stm.retired, fusedRows := s.stm.fusedRows }
    sup := Supervisor.init
    plan := { s.plan with dark := [], failed := [], retired := s.fuses.burnTiles, due := false, current := none, previous := none }
    sage := Sage.init
    client := Client.init
    fab := Fabric.init
    link := Link.init
    ctl := ResetCtl.init
    bist := SelfTest.init
    ptp := PtpState.init
    tb := { s.tb with pending := none }
    thm := { s.thm with
      marks := [], episodes := [], agree := [], guardSpots := [], guard := [], unwell := [], throttled := [], allow := [], limit := [],
      shareW := 0, shareE := 0, stackRate := [], tref := [], capW := 0, capE := 0, lastW := 0, lastE := 0, shortRound := [] }
    pwr := { s.pwr with step := 0, wave := 0, deferred := [], undervolts := [], deadRegs := [], noBudget := [] } }

/-- The registers outside those lost that a loss of main power writes, but for the signals. -/
def strippedRegs : List Nat :=
  [Reg.HLK_STATUS, Reg.PWR_STATUS, Reg.MGT_TIME_STATUS, Reg.MGT_EPOCH, Reg.THM_CAP_NOW, Reg.THM_STATUS] ++
    (List.range 1296).map (Reg.THM_SPOT + ·)

theorem mem_strippedRegs {a : Nat} : a ∈ strippedRegs ↔
    a ∈ [Reg.HLK_STATUS, Reg.PWR_STATUS, Reg.MGT_TIME_STATUS, Reg.MGT_EPOCH, Reg.THM_CAP_NOW, Reg.THM_STATUS] ∨
      Reg.THM_SPOT ≤ a ∧ a < Reg.THM_SPOT + 1296 := by
  unfold strippedRegs
  rw [List.mem_append, List.mem_map]
  refine or_congr_right ⟨?_, fun h => ⟨a - Reg.THM_SPOT, List.mem_range.2 (by omega), by omega⟩⟩
  rintro ⟨i, hi, rfl⟩
  have := List.mem_range.1 hi
  omega

theorem State.stripped_reg {a : Nat} (h : lostWithMain a = false) : s.stripped.reg a = s.reg a := by
  unfold State.reg SMap.getD State.stripped
  rw [SMap.get?_filter _ (fun k => !lostWithMain k)]
  simp [h]

theorem State.stripped_evt : s.stripped.evt = s.evt := rfl

theorem State.stripped_now : s.stripped.now = s.now := rfl

/-- A tile after the loss holds nothing. -/
theorem State.stripped_tile (ti : Nat) : ∃ g n, s.stripped.tile ti = { Tile.init with generation := g, sliceGen := n } := by
  unfold State.tile SMap.getD State.stripped
  dsimp only
  induction s.tiles with
  | nil => exact ⟨0, 0, rfl⟩
  | cons e r ih =>
    rw [List.map_cons, SMap.get?]
    split_ifs
    · exact ⟨_, _, rfl⟩
    · exact ih

/-- The registers in `strippedRegs` show the loss. -/
def State.strippedShown : State :=
  let t := ((s.stripped.setFld Reg.HLK_STATUS 30 30 (s.fld Reg.HLK_STATUS 30 30)).setFld Reg.PWR_STATUS 20 16 0).setFld Reg.PWR_STATUS 30 30 0
  let t := ((t.setFld Reg.MGT_TIME_STATUS 31 31 0).setReg Reg.MGT_EPOCH 0).resetRegs [Reg.THM_CAP_NOW]
  (t.regs.filter (fun e => decide (Reg.THM_SPOT ≤ e.1) && decide (e.1 < Reg.THM_SPOT + 1296))).foldl (fun s e => s.setFld e.1 31 28 0)
    (t.setFld Reg.THM_STATUS 30 30 0)

theorem wipeMain_eq : wipeMain s = setSignal s.strippedShown 7 false := rfl

theorem State.setFld_regsOnly_mem (t : State) {a hi lo v : Nat} {l : List Nat} (h : a ∈ l) : t.RegsOnly (t.setFld a hi lo v) l := t.setReg_regsOnly h

theorem State.resetRegs_regsOnly_mem (t : State) {a : Nat} {l : List Nat} (h : a ∈ l) : t.RegsOnly (t.resetRegs [a]) l :=
  (t.resetRegs_regsOnly [a]).mono (List.cons_subset.2 ⟨h, List.nil_subset _⟩)

theorem State.strippedShown_regsOnly : s.stripped.RegsOnly s.strippedShown strippedRegs := by
  have hmem {a : Nat} (h : a ∈ [Reg.HLK_STATUS, Reg.PWR_STATUS, Reg.MGT_TIME_STATUS, Reg.MGT_EPOCH, Reg.THM_CAP_NOW, Reg.THM_STATUS]) : a ∈ strippedRegs := mem_strippedRegs.2 (.inl h)
  unfold State.strippedShown
  extract_lets t1 t2
  have h1 : s.stripped.RegsOnly t1 strippedRegs :=
    ((State.setFld_regsOnly_mem _ (hmem (by simp))).trans (State.setFld_regsOnly_mem _ (hmem (by simp)))).trans
      (State.setFld_regsOnly_mem _ (hmem (by simp)))
  have h2 : t1.RegsOnly t2 strippedRegs :=
    ((State.setFld_regsOnly_mem _ (hmem (by simp))).trans (State.setReg_regsOnly _ (hmem (by simp)))).trans
      (State.resetRegs_regsOnly_mem _ (hmem (by simp)))
  refine List.foldlRecOn (motive := fun t => s.stripped.RegsOnly t strippedRegs) _ _
    ((h1.trans h2).trans (State.setFld_regsOnly_mem _ (hmem (by simp)))) fun x hx e he => hx.trans (State.setFld_regsOnly_mem _ ?_)
  have hb := (List.mem_filter.1 he).2
  simp only [Bool.and_eq_true, decide_eq_true_eq] at hb
  exact mem_strippedRegs.2 (.inr hb)

/-- The loss leaves what is stripped, but for the registers that show it. -/
theorem wipeMain_regsOnly : s.stripped.RegsOnly (wipeMain s) (Reg.MGT_SIGNALS :: strippedRegs) := by
  rw [wipeMain_eq]
  exact (s.strippedShown_regsOnly.mono (List.subset_cons_self ..)).trans (State.setFld_regsOnly_mem _ List.mem_cons_self)

/-- A register that is neither lost nor shows the loss reads as before. -/
theorem wipeMain_reg {a : Nat} (hlost : lostWithMain a = false) (ha : a ∉ Reg.MGT_SIGNALS :: strippedRegs) :
    (wipeMain s).reg a = s.reg a := ((wipeMain_regsOnly s).1 a ha).trans (s.stripped_reg hlost)

theorem wipeMain_signal {j : Nat} (h : j ≠ 7) : (wipeMain s).signal j = s.signal j := by
  have hout : Reg.MGT_SIGNALS ∉ strippedRegs := by
    rw [mem_strippedRegs]
    decide
  rw [wipeMain_eq, setSignal_signal_ne _ (by decide) h]
  exact State.signal_congr ((s.strippedShown_regsOnly.1 _ hout).trans (s.stripped_reg (by decide))) j

/-- What is neither a register nor a time of a lock-out. -/
def State.offView : State := { s with regs := [], pwr := { s.pwr with lockedAt := 0 } }

theorem now_of_offView {s t : State} (h : t.offView = s.offView) : t.now = s.now := (congrArg State.now h :)

theorem evt_of_offView {s t : State} (h : t.offView = s.offView) : t.evt = s.evt := (congrArg State.evt h :)

/-- What main power loses of the power state leaves its input. -/
theorem mainIn_of_offView {s t : State} (h : t.offView = s.stripped.offView) : t.pwr.mainIn = s.pwr.mainIn :=
  congrArg (fun t => t.pwr.mainIn) h

/-- Main power locked out now. -/
def State.lockedNow : State := { s with pwr := { s.pwr with lockedAt := s.now } }

theorem State.lockedNow_reg (a : Nat) : s.lockedNow.reg a = s.reg a := rfl

theorem State.lockedNow_psState : s.lockedNow.psState = s.psState := rfl

theorem offState_true : offState s true = ((s.setPs psLocked).setFld Reg.PWR_STATUS 29 29 1).lockedNow := rfl

theorem offState_false : offState s false = s.setPs psAux := rfl

theorem State.psState_setPs {v : Nat} (h : v < 8) : (s.setPs v).psState = v :=
  (s.fld_setFld_same _ _ (by decide) (by decide)).trans (Nat.mod_eq_of_lt h)

/-- Main power off after a fault. -/
theorem offState_psState (lock : Bool) : (offState s lock).psState = if lock then psLocked else psAux := by
  cases lock with
  | false => exact s.psState_setPs (by decide)
  | true =>
    rw [offState_true, State.lockedNow_psState, State.psState,
      State.fld_setFld_disjoint _ _ _ (by decide) (by decide) (by decide)]
    exact s.psState_setPs (by decide)

theorem State.lockedNow_lockedAt : s.lockedNow.pwr.lockedAt = s.now := rfl

theorem offState_lockedAt : (offState s true).pwr.lockedAt = s.now := by
  rw [offState_true, State.lockedNow_lockedAt]
  exact State.setFld_now ..

theorem offState_reg (lock : Bool) {a : Nat} (h : a ≠ Reg.PWR_STATUS) : (offState s lock).reg a = s.reg a := by
  cases lock with
  | false => exact State.reg_setFld_ne _ _ _ _ h
  | true =>
    rw [offState_true, State.lockedNow_reg, State.reg_setFld_ne _ _ _ _ h]
    exact State.reg_setFld_ne _ _ _ _ h

theorem State.setFld_offView (a hi lo v : Nat) : (s.setFld a hi lo v).offView = s.offView := rfl

theorem State.lockedNow_offView : s.lockedNow.offView = s.offView := rfl

theorem State.RegsOnly.offView {s t : State} {l : List Nat} (h : s.RegsOnly t l) : t.offView = s.offView := by
  rw [h.2]
  rfl

theorem offState_offView (lock : Bool) : (offState s lock).offView = s.offView := by
  cases lock with
  | false => rfl
  | true =>
    rw [offState_true, State.lockedNow_offView, State.setFld_offView]
    exact State.setFld_offView ..

end

/-! ### The start or the removal goes on -/

/-- What the end of a loss does not change beside the registers. -/
def State.parkView (s : State) : State :=
  { s with regs := [], evt := Recorder.init, sup := Supervisor.init, boot := StartState.init, pwr := { s.pwr with stayOff := false } }

theorem State.setFld_parkView (s : State) (a hi lo v : Nat) : (s.setFld a hi lo v).parkView = s.parkView := rfl

theorem recordEvent_parkView (s : State) (code source p0 p1 p2 : Nat) : (recordEvent s code source p0 p1 p2).parkView = s.parkView := by
  rw [(recordEvent_frame s code source p0 p1 p2 []).2]
  rfl

/-- What the start and a removal do once main power is off (16 R489, 14 R433). -/
structure State.Parked (s t : State) : Prop where
  view : t.parkView = s.parkView
  fixes : s.Fixes (fun a => a ∉ [Reg.MGT_START_STATUS, Reg.MGT_SIGNALS] ++ eventRegs) t
  signal : ∀ j, j ≠ 3 → j ≠ 19 → t.signal j = s.signal j

/-- The start stands in a state of its own, between steps. -/
theorem State.setMs_parked (s : State) (v : Nat) : s.Parked ((s.setMs v).setFld Reg.MGT_START_STATUS 11 8 0) where
  view := (State.setFld_parkView _ Reg.MGT_START_STATUS 11 8 0).trans (State.setFld_parkView s Reg.MGT_START_STATUS 2 0 v)
  fixes := ((State.Fixes.refl _ s).setFld (by decide)).setFld (by decide)
  signal j _ _ := State.signal_congr ((State.reg_setFld_ne _ _ _ _ (by decide)).trans (State.reg_setFld_ne _ _ _ _ (by decide))) j

theorem State.Parked.trans {s t u : State} (h : s.Parked t) (k : t.Parked u) : s.Parked u where
  view := k.view.trans h.view
  fixes := h.fixes.trans k.fixes
  signal j h3 h19 := (k.signal j h3 h19).trans (h.signal j h3 h19)

theorem recordEvent_parked (s : State) (code source p0 p1 p2 : Nat) : s.Parked (recordEvent s code source p0 p1 p2) where
  view := recordEvent_parkView ..
  fixes := (State.Fixes.refl _ s).recordEvent (fun _ ha h => h (List.mem_append_right _ ha)) ..
  signal j _ _ := State.signal_congr (recordEvent_reg _ _ _ _ _ _ (by decide)) j

theorem setAlert_parked (s : State) (b : Bool) : s.Parked (setAlert s 19 b) where
  view := (State.setFld_parkView _ Reg.MGT_SIGNALS 3 3 _).trans (State.setFld_parkView s Reg.MGT_SIGNALS 19 19 _)
  fixes := (State.Fixes.refl _ _).setAlert (by decide)
  signal _ h3 h19 := setAlert_signal_ne _ (by decide) h19 h3 _

/-- No removal is left, and main power stays off. -/
def State.removalOver (s : State) : State := { s with boot := { s.boot with removal := none }, pwr := { s.pwr with stayOff := true } }

theorem State.removalOver_parked (s : State) : s.Parked s.removalOver := ⟨rfl, (State.Fixes.refl _ s).upd, fun _ _ _ => rfl⟩

theorem State.Parked.mainIn {s t : State} (h : s.Parked t) : t.pwr.mainIn = s.pwr.mainIn := congrArg (fun t => t.pwr.mainIn) h.view

theorem State.Parked.lockedAt {s t : State} (h : s.Parked t) : t.pwr.lockedAt = s.pwr.lockedAt := congrArg (fun t => t.pwr.lockedAt) h.view

theorem finishRemoval_eq (s : State) (r : Removal) : finishRemoval s r = setAlert (recordEvent
    ((s.setMs msReady).setFld Reg.MGT_START_STATUS 11 8 0).removalOver 0x001C 0 r.closed r.ended ((s.now - r.t0) / 1000000)) 19 true := rfl

theorem finishRemoval_parked (s : State) (r : Removal) : s.Parked (finishRemoval s r) := by
  rw [finishRemoval_eq]
  exact (((s.setMs_parked msReady).trans (State.removalOver_parked _)).trans (recordEvent_parked ..)).trans (setAlert_parked _ true)

theorem afterOff_parked (s : State) : s.Parked (afterOff s) := by
  unfold afterOff
  split
  · exact finishRemoval_parked s _
  · split
    · exact ⟨rfl, .refl _ s, fun _ _ _ => rfl⟩
    · exact s.setMs_parked msAux

/-! ### The loss with its event and its record (14 R431, Table 14.6) -/

section
variable (s : State) (code p0 p1 p2 : Nat) (lock : Bool)

/-- The loss is recorded as an event and on the card. -/
def State.lossNoted : State := addTrip (recordEvent s code 0 p0 p1 p2) 2 code p0 p1 p2 (s.evt.head % 2 ^ 32) false

/-- A record in TRIP is written on the card only. -/
theorem addTrip_frame (kind evtSeq : Nat) (isOpen : Bool) : addTrip s kind code p0 p1 p2 evtSeq isOpen =
    { s with card := { s.card with trips := (addTrip s kind code p0 p1 p2 evtSeq isOpen).card.trips } } := by
  unfold addTrip
  split <;> rfl

/-- A card that answers and has room in TRIP takes the record. -/
theorem addTrip_added (kind evtSeq : Nat) (isOpen : Bool) (hcard : s.fld Reg.CFG_STATUS 31 31 = 1) (hroom : s.card.trips.length < 64) :
    ∃ r ∈ (addTrip s kind code p0 p1 p2 evtSeq isOpen).card.trips, r.kind = kind ∧ r.code = code ∧ r.p0 = p0 ∧ r.p1 = p1 ∧ r.p2 = p2 ∧
      r.isOpen = isOpen := by
  unfold addTrip
  rw [if_neg (by omega)]
  extract_lets seq r
  refine ⟨r, ?_, rfl, rfl, rfl, rfl, rfl, rfl⟩
  rw [List.take_of_length_le (by simp; omega)]
  exact List.mem_append_right _ (List.mem_singleton_self r)

/-- What is neither a register, the recorder, the pending list nor TRIP. -/
def State.noteView : State := { s with regs := [], evt := Recorder.init, sup := Supervisor.init, card := { s.card with trips := [] } }

theorem recordEvent_noteView (source : Nat) : (recordEvent s code source p0 p1 p2).noteView = s.noteView := by
  rw [(recordEvent_frame s code source p0 p1 p2 []).2]
  rfl

theorem addTrip_noteView (kind evtSeq : Nat) (isOpen : Bool) : (addTrip s kind code p0 p1 p2 evtSeq isOpen).noteView = s.noteView := by
  rw [addTrip_frame]
  rfl

theorem mainIn_of_noteView {s t : State} (h : t.noteView = s.noteView) : t.pwr.mainIn = s.pwr.mainIn := congrArg (fun t => t.pwr.mainIn) h

theorem now_of_noteView {s t : State} (h : t.noteView = s.noteView) : t.now = s.now := (congrArg State.now h :)

theorem State.lossNoted_noteView : (s.lossNoted code p0 p1 p2).noteView = s.noteView :=
  (addTrip_noteView ..).trans (recordEvent_noteView ..)

theorem State.lossNoted_fixes {P : Nat → Prop} (h : ∀ a ∈ eventRegs, ¬P a) : s.Fixes P (s.lossNoted code p0 p1 p2) := by
  have hrec := (State.Fixes.refl P s).recordEvent h code 0 p0 p1 p2
  unfold State.lossNoted
  rw [addTrip_frame]
  exact hrec.upd

theorem State.lossNoted_records : s.Records (s.lossNoted code p0 p1 p2) (s.record code 0 p0 p1 p2) := by
  unfold State.lossNoted
  rw [addTrip_frame]
  exact (recordEvent_records s code 0 p0 p1 p2).congr rfl

theorem State.lossNoted_trip (hcard : s.fld Reg.CFG_STATUS 31 31 = 1) (hroom : s.card.trips.length < 64) :
    ∃ r ∈ (s.lossNoted code p0 p1 p2).card.trips, r.kind = 2 ∧ r.code = code ∧ r.p0 = p0 ∧ r.p1 = p1 ∧ r.p2 = p2 ∧ r.isOpen = false := by
  refine addTrip_added _ _ _ _ _ _ _ _ ?_ ?_
  · rw [recordEvent_fld _ _ _ _ _ _ _ _ (by decide), hcard]
  · rw [recordEvent_card]
    exact hroom

/-- Main power is off: neither charging, rising, on nor falling. -/
theorem loseMain_parked : (offState (wipeMain (s.lossNoted code p0 p1 p2)) lock).Parked (loseMain s code p0 p1 p2 lock) := afterOff_parked _

/-- The state after a loss that is not yet parked holds what is stripped. -/
theorem offState_wipeMain_view : (offState (wipeMain s) lock).offView = s.stripped.offView := by
  rw [offState_offView, (wipeMain_regsOnly s).offView]

/-- Between the loss and what is stripped, only registers, the recorder, the start and the power state differ. -/
def State.lostView (s : State) : State :=
  { s with regs := [], evt := Recorder.init, sup := Supervisor.init, boot := StartState.init, pwr := PowerState.init }

theorem loseMain_lostView : (loseMain s code p0 p1 p2 lock).lostView = (s.lossNoted code p0 p1 p2).stripped.lostView :=
  (congrArg State.lostView (loseMain_parked s code p0 p1 p2 lock).view :).trans
    (congrArg State.lostView (offState_wipeMain_view (s.lossNoted code p0 p1 p2) lock) :)

theorem loseMain_tile (ti : Nat) : ∃ g n, (loseMain s code p0 p1 p2 lock).tile ti = { Tile.init with generation := g, sliceGen := n } := by
  have htiles : (loseMain s code p0 p1 p2 lock).tiles = (s.lossNoted code p0 p1 p2).stripped.tiles :=
    (congrArg State.tiles (loseMain_lostView s code p0 p1 p2 lock) :)
  unfold State.tile
  rw [htiles]
  exact State.stripped_tile _ ti

theorem loseMain_fixes {P : Nat → Prop} (hev : ∀ a ∈ eventRegs, ¬P a) (hpark : ∀ a ∈ [Reg.MGT_START_STATUS, Reg.MGT_SIGNALS], ¬P a)
    (hpwr : ¬P Reg.PWR_STATUS) (hlost : ∀ a, P a → lostWithMain a = false ∧ a ∉ strippedRegs) :
    s.Fixes P (loseMain s code p0 p1 p2 lock) := by
  have hnote := s.lossNoted_fixes code p0 p1 p2 hev
  have hoff : (s.lossNoted code p0 p1 p2).Fixes P (offState (wipeMain (s.lossNoted code p0 p1 p2)) lock) := by
    refine ⟨fun a ha => ?_, fun e he => ?_⟩
    · have hsig : a ≠ Reg.MGT_SIGNALS := fun h => hpark _ (by simp) (h ▸ ha)
      rw [offState_reg _ _ fun h => hpwr (h ▸ ha), wipeMain_reg _ (hlost a ha).1 fun h => (List.mem_cons.1 h).elim hsig (hlost a ha).2]
    · have hevt : (offState (wipeMain (s.lossNoted code p0 p1 p2)) lock).evt = (s.lossNoted code p0 p1 p2).evt :=
        (evt_of_offView (offState_wipeMain_view (s.lossNoted code p0 p1 p2) lock)).trans (State.stripped_evt _)
      rwa [hevt]
  refine (hnote.trans hoff).trans ((loseMain_parked s code p0 p1 p2 lock).fixes.mono fun a ha h => ?_)
  obtain h | h := List.mem_append.1 h
  · exact hpark a h ha
  · exact hev a h ha

theorem loseMain_psState : (loseMain s code p0 p1 p2 lock).psState = if lock then psLocked else psAux :=
  ((loseMain_parked s code p0 p1 p2 lock).fixes.fld (by decide) 2 0).trans (offState_psState _ lock)

theorem loseMain_signal {j : Nat} (h3 : j ≠ 3) (h7 : j ≠ 7) (h19 : j ≠ 19) : (loseMain s code p0 p1 p2 lock).signal j = s.signal j := by
  rw [(loseMain_parked s code p0 p1 p2 lock).signal j h3 h19, State.signal_congr (offState_reg _ lock (by decide)), wipeMain_signal _ h7]
  exact State.signal_congr ((s.lossNoted_fixes (P := (· = Reg.MGT_SIGNALS)) code p0 p1 p2 (by decide)).regs _ rfl) j

theorem loseMain_mainIn : (loseMain s code p0 p1 p2 lock).pwr.mainIn = s.pwr.mainIn := by
  rw [(loseMain_parked s code p0 p1 p2 lock).mainIn, mainIn_of_offView (offState_wipeMain_view (s.lossNoted code p0 p1 p2) lock)]
  exact mainIn_of_noteView (s.lossNoted_noteView code p0 p1 p2)

theorem loseMain_lockedAt : (loseMain s code p0 p1 p2 true).pwr.lockedAt = s.now := by
  rw [(loseMain_parked s code p0 p1 p2 true).lockedAt, offState_lockedAt, now_of_offView (wipeMain_regsOnly _).offView, State.stripped_now]
  exact now_of_noteView (s.lossNoted_noteView code p0 p1 p2)

/-- Main power is gone after its loss, whatever the cause. -/
theorem loseMain_gone : s.MainGone (loseMain s code p0 p1 p2 lock) code p0 p1 p2 lock where
  state := loseMain_psState ..
  tiles ti := by
    obtain ⟨g, n, h⟩ := loseMain_tile s code p0 p1 p2 lock ti
    rw [h]
    exact ⟨rfl, rfl, rfl, rfl⟩
  packets := by
    have h := loseMain_lostView s code p0 p1 p2 lock
    have hclient : (loseMain s code p0 p1 p2 lock).client = Client.init := (congrArg State.client h :)
    have hsage : (loseMain s code p0 p1 p2 lock).sage = Sage.init := (congrArg State.sage h :)
    have hfab : (loseMain s code p0 p1 p2 lock).fab = Fabric.init := (congrArg State.fab h :)
    rw [hclient, hsage, hfab]
    exact ⟨(congrArg State.mesh h :), rfl, rfl, rfl⟩
  event := by
    have hkeep := loseMain_parked s code p0 p1 p2 lock
    have hevt : (offState (wipeMain (s.lossNoted code p0 p1 p2)) lock).evt = (s.lossNoted code p0 p1 p2).evt :=
      (evt_of_offView (offState_wipeMain_view (s.lossNoted code p0 p1 p2) lock)).trans (State.stripped_evt _)
    exact hkeep.fixes.shows ((s.lossNoted_records code p0 p1 p2).shows.congr hevt)
  trip hcard hroom := by
    have hcards : (loseMain s code p0 p1 p2 lock).card = (s.lossNoted code p0 p1 p2).card :=
      (congrArg State.card (loseMain_lostView s code p0 p1 p2 lock) :)
    rw [hcards]
    exact s.lossNoted_trip code p0 p1 p2 hcard hroom

end

/-- A loss noted from a state that differs in its registers and its power state is a loss from this one. -/
theorem State.MainGone.congr {s t u : State} {code p0 p1 p2 : Nat} {lock : Bool} (h : t.MainGone u code p0 p1 p2 lock)
    (hevt : t.evt = s.evt) (hsup : t.sup = s.sup) (hnow : t.now = s.now) (htb : t.tb = s.tb) (hcard : t.card = s.card)
    (hcfg : t.reg Reg.CFG_STATUS = s.reg Reg.CFG_STATUS) : s.MainGone u code p0 p1 p2 lock where
  state := h.state
  tiles := h.tiles
  packets := h.packets
  event := by
    have he := h.event
    unfold State.Shows State.Room State.record State.calendar at *
    rwa [hevt, hsup, hnow, htb] at he
  trip hanswers hroom := h.trip (by rwa [State.fld, hcfg]) (by rwa [hcard])

end Sys2Proof.Machine

namespace Sys2Proof.Machine

/-! ## Bits of a field that clear -/

theorem testBit_getBits (w : Word) {hi lo i : Nat} (h : lo + i ≤ hi) : (getBits w hi lo).testBit i = w.toNat.testBit (lo + i) := by
  unfold getBits
  rw [Nat.testBit_mod_two_pow, Nat.testBit_shiftRight, decide_eq_true (by omega), Bool.true_and]

theorem getBits_bit (w : Word) (i : Nat) : getBits w i i = (w.toNat.testBit i).toNat := by
  unfold getBits
  rw [show i + 1 - i = 1 by omega, pow_one, Nat.testBit_eq_decide_div_mod_eq, Nat.shiftRight_eq_div_pow]
  have := Nat.mod_two_eq_zero_or_one (w.toNat / 2 ^ i)
  rcases this with h | h <;> simp [h]

/-- Clearing a bit of a field clears that bit alone. -/
theorem testBit_getBits_cleared (w : Word) {hi lo k i : Nat} (hk : lo + k < 32) (h : lo + i ≤ hi) :
    (getBits (setBits w (lo + k) (lo + k) 0) hi lo).testBit i = (decide (i ≠ k) && (getBits w hi lo).testBit i) := by
  rw [testBit_getBits _ h, testBit_getBits _ h]
  have hbit (v : Word) (j : Nat) : v.toNat.testBit j = decide (getBits v j j = 1) := by
    rw [getBits_bit]
    cases v.toNat.testBit j <;> rfl
  rw [hbit, hbit w]
  by_cases hik : i = k
  · subst hik
    rw [getBits_setBits w 0 le_rfl hk]
    simp
  · rw [getBits_setBits_of_disjoint w 0 le_rfl hk (by omega)]
    simp [hik]

/-- Clearing a set bit leaves one set bit fewer. -/
theorem length_filter_cleared {p q : Nat → Bool} {n k : Nat} (hk : k < n) (hset : p k = true)
    (h : ∀ i < n, q i = (decide (i ≠ k) && p i)) : ((List.range n).filter q).length + 1 = ((List.range n).filter p).length := by
  have hq : (List.range n).filter q = ((List.range n).filter p).erase k := by
    rw [(List.nodup_range.filter p).erase_eq_filter, List.filter_filter]
    refine List.filter_congr fun i hi => ?_
    rw [h i (List.mem_range.1 hi)]
    by_cases hik : i = k <;> simp [hik]
  have hmem : k ∈ (List.range n).filter p := List.mem_filter.2 ⟨List.mem_range.2 hk, hset⟩
  rw [hq, List.length_erase_of_mem hmem]
  have := List.length_pos_of_mem hmem
  omega

theorem State.testBit_of_fld {s : State} {a hi lo k : Nat} (h : lo + k ≤ hi) (hset : s.fld a (lo + k) (lo + k) = 1) :
    (s.fld a hi lo).testBit k = true := by
  unfold State.fld at *
  rw [testBit_getBits _ h]
  rw [getBits_bit] at hset
  revert hset
  cases (s.reg a).toNat.testBit (lo + k) <;> simp

/-! ## Presence, input and output losses (14 R420, R431) -/

theorem psState_of_reg {s t : State} (h : t.reg Reg.PWR_STATUS = s.reg Reg.PWR_STATUS) : t.psState = s.psState := congrArg (getBits · 2 0) h

theorem enabled_of_reg {s t : State} (h : t.reg Reg.PWR_STATUS = s.reg Reg.PWR_STATUS) : t.enabled = s.enabled := by
  unfold State.enabled
  rw [psState_of_reg h]

/-- The state in which the presence signals have fallen and the main input is gone. -/
def State.unplugged (s : State) : State := mainGone (setSignal (setSignal s 0 false) 1 false)

theorem State.unplugged_reg (s : State) {a : Nat} (h : a ≠ Reg.MGT_SIGNALS) : s.unplugged.reg a = s.reg a :=
  (State.reg_setFld_ne _ _ _ _ h).trans (State.reg_setFld_ne _ _ _ _ h)

theorem exec_presenceLost {s : State} (h : s.enabled = true) (volts : Nat) :
    exec (.presenceLost volts) s = .next (loseMain s.unplugged 0x0410 volts 0 0 false) := by
  have hen : s.unplugged.enabled = true := (enabled_of_reg (s.unplugged_reg (by decide))).trans h
  change execPresenceLost volts s = _
  exact if_pos hen

theorem presenceLost_shown {s : State} (volts : Nat) :
    s.MainGone (loseMain s.unplugged 0x0410 volts 0 0 false) 0x0410 volts 0 0 false ∧
      (loseMain s.unplugged 0x0410 volts 0 0 false).signal 0 = false ∧ (loseMain s.unplugged 0x0410 volts 0 0 false).signal 1 = false := by
  have h1 : s.unplugged.signal 1 = false := setSignal_signal_same _ (by decide) _
  have h0 : s.unplugged.signal 0 = false := (setSignal_signal_ne _ (by decide) (by decide) _).trans (setSignal_signal_same s (by decide) false)
  refine ⟨(loseMain_gone ..).congr rfl rfl rfl rfl rfl (s.unplugged_reg (by decide)), ?_, ?_⟩
  · rw [loseMain_signal _ _ _ _ _ _ (by decide) (by decide) (by decide), h0]
  · rw [loseMain_signal _ _ _ _ _ _ (by decide) (by decide) (by decide), h1]

theorem exec_mainLost {s : State} (h : s.enabled = true) (k : LossKind) : exec (.mainLost k) s = match k with
    | .input volts => .next (loseMain (mainGone s) 0x0402 volts (if s.auxValid then 1 else 0) (s.round % 2 ^ 32) false)
    | .overvoltage peak => .next (loseMain s 0x0404 peak 0 0 false)
    | .overcurrent peak fast => .next (loseMain s 0x0405 peak (if fast then 1 else 0) 0 true) :=
  if_neg (by simp [h])

theorem mainLost_input_shown (s : State) (volts p1 p2 : Nat) :
    s.MainGone (loseMain (mainGone s) 0x0402 volts p1 p2 false) 0x0402 volts p1 p2 false ∧
      (loseMain (mainGone s) 0x0402 volts p1 p2 false).pwr.mainIn = false :=
  ⟨(loseMain_gone (mainGone s) ..).congr rfl rfl rfl rfl rfl rfl, loseMain_mainIn ..⟩

/-- The loss that a rail or the converters cause takes main power, and every staged record stays. -/
theorem shedMain_off (s : State) : (shedMain s).psState = psAux ∧ (∀ ti, ((shedMain s).tile ti).sram = []) ∧
    ∀ e ∈ s.evt.staging, e ∈ (shedMain s).evt.staging := by
  have hgone := loseMain_gone s.takeFree.2 0x0402 (s.takeFree.1.toNat % 2 ^ 16) (if s.auxValid then 1 else 0) (s.round % 2 ^ 32) false
  have hkeep : s.takeFree.2.Fixes (fun _ => False) (shedMain s) :=
    loseMain_fixes _ _ _ _ _ _ (fun _ _ => id) (fun _ _ => id) id fun _ => False.elim
  exact ⟨hgone.state, fun ti => (hgone.tiles ti).1, hkeep.staged⟩

/-! ## The input out of its envelope (14 R417) -/

theorem exec_inputOutOfEnvelope {s : State} {entering : Bool} (h : s.fld Reg.PWR_STATUS 30 30 ≠ if entering then 1 else 0) (volts : Nat) :
    exec (.inputOutOfEnvelope entering volts) s =
      .next (recordEvent (s.setBit Reg.PWR_STATUS 30 entering) 0x0403 0 (if entering then 1 else 0) volts 0) := by
  refine if_neg fun hsame => h ?_
  have hbit : s.fld Reg.PWR_STATUS 30 30 < 2 := getBits_lt _ 30 30
  cases entering with
  | true => simpa using hsame
  | false =>
    have : s.fld Reg.PWR_STATUS 30 30 ≠ 1 := by simpa using hsame
    simp
    omega

/-! ## The orderly power-down (14 R430) -/

theorem exec_mainOff_off {s : State} (h : s.psState ≠ psOn) : exec .mainOff s = .next s := by
  change Host.Outcome.next (mainOff s) = _
  rw [mainOff, if_neg h]

/-- The state from which the waves fall. -/
def State.falling (s : State) : State := { s.setPs psSeqDown with pwr := { s.pwr with step := 9, wave := 5, stayOff := true } }

theorem exec_mainOff_on {s : State} (h : s.psState = psOn) :
    exec .mainOff s = .next ((setSignal (dropRound (saveState s none)) 7 false).falling.setFld Reg.ADM_STATUS 2 0 0) := by
  change Host.Outcome.next (mainOff s) = _
  rw [mainOff, if_pos h]
  rfl

theorem State.falling_shown (s : State) (h : s.signal 7 = false) :
    let t := s.falling.setFld Reg.ADM_STATUS 2 0 0
    t.psState = psSeqDown ∧ t.pwr.step = 9 ∧ t.pwr.wave = 5 ∧ t.pwr.stayOff = true ∧ t.signal 7 = false ∧ t.fld Reg.ADM_STATUS 2 0 = 0 := by
  have hps : s.falling.psState = psSeqDown := s.psState_setPs (by decide)
  refine ⟨?_, rfl, rfl, rfl, ?_, State.fld_setFld_same _ _ _ (by decide) (by decide)⟩
  · exact (psState_of_reg (State.reg_setFld_ne _ _ _ _ (by decide))).trans hps
  · exact (State.signal_congr ((State.reg_setFld_ne _ _ _ _ (by decide)).trans (State.reg_setFld_ne s _ _ _ (by decide))) 7).trans h

/-- The clusters of a wave are switched off. -/
def State.waveDown (s : State) (w : Nat) : State :=
  ((List.range 144).filter (fun ci => decide (waveOf ci = w))).foldl (fun s ci => s.setReg (Reg.PWR_CL + ci) 0) s

/-- Registers that a loop sets to one word read it. -/
theorem foldl_setReg_reg (l : List Nat) (f : Nat → Nat) (v : Word) (s : State) {a : Nat} (h : a ∈ l.map f ∨ s.reg a = v) :
    (l.foldl (fun s i => s.setReg (f i) v) s).reg a = v := by
  induction l generalizing s with
  | nil => simpa using h
  | cons i r ih =>
    refine ih (s.setReg (f i) v) ?_
    rw [State.reg_setReg]
    by_cases hi : a = f i
    · exact .inr (if_pos hi)
    · rw [if_neg hi]
      simpa [hi] using h

theorem State.waveDown_reg (s : State) {ci w : Nat} (h : ci < 144) (hw : waveOf ci = w) : (s.waveDown w).reg (Reg.PWR_CL + ci) = 0 :=
  foldl_setReg_reg _ (Reg.PWR_CL + ·) 0 s (.inl (List.mem_map_of_mem (List.mem_filter.2 ⟨List.mem_range.2 h, decide_eq_true hw⟩)))

theorem State.waveDown_pwr (s : State) (w : Nat) : (s.waveDown w).pwr = s.pwr := by
  unfold State.waveDown
  exact foldl_keeps (f := State.pwr) (fun _ _ _ => by rfl) s

/-- After a wave the one before it falls, and after wave 0 step 8. -/
def State.waveNext (s : State) (w : Nat) : State :=
  if w = 0 then { s with pwr := { s.pwr with step := 8 } } else { s with pwr := { s.pwr with wave := w - 1 } }

theorem State.waveNext_reg (s : State) (w a : Nat) : (s.waveNext w).reg a = s.reg a := by
  unfold State.waveNext
  split <;> rfl

theorem exec_powerDownStepDone {s : State} (h : s.psState = psSeqDown) : exec .powerDownStepDone s =
    if s.pwr.step = 9 then .next ((s.waveDown s.pwr.wave).waveNext s.pwr.wave)
    else if 1 < s.pwr.step then .next { s with pwr := { s.pwr with step := s.pwr.step - 1 } }
    else .next (afterOff ((wipeMain s).setPs psAux)) := by
  change execPowerDownStepDone s = _
  unfold execPowerDownStepDone
  rw [if_neg (by simp [h])]
  exact if_congr Iff.rfl (apply_ite Host.Outcome.next (s.pwr.wave = 0) _ _).symm rfl

theorem tiles_of_parkView {s t : State} (h : t.parkView = s.parkView) : t.tiles = s.tiles := (congrArg State.tiles h :)

theorem tiles_of_offView {s t : State} (h : t.offView = s.offView) : t.tiles = s.tiles := (congrArg State.tiles h :)

/-- At the end of a power-down main power is off and no tile holds anything. -/
theorem afterOff_wipeMain_off (s : State) : (afterOff ((wipeMain s).setPs psAux)).psState = psAux ∧
    ∀ ti, ((afterOff ((wipeMain s).setPs psAux)).tile ti).sram = [] ∧ ((afterOff ((wipeMain s).setPs psAux)).tile ti).slice = [] := by
  have hpark := afterOff_parked ((wipeMain s).setPs psAux)
  refine ⟨(hpark.fixes.fld (by decide) 2 0).trans ((wipeMain s).psState_setPs (by decide)), fun ti => ?_⟩
  obtain ⟨g, n, htile⟩ := s.stripped_tile ti
  have htiles : (afterOff ((wipeMain s).setPs psAux)).tile ti = s.stripped.tile ti := by
    unfold State.tile
    rw [tiles_of_parkView hpark.view, State.setPs, State.setFld_tiles, tiles_of_offView (wipeMain_regsOnly s).offView]
  rw [htiles, htile]
  exact ⟨rfl, rfl⟩

end Sys2Proof.Machine

namespace Sys2Proof.Machine

/-! ## A converter fails (14 R421, R422) -/

/-- The caps in force fall in THM_CAP_NOW, the thermal manager and Sage alone. -/
def State.capView (s : State) : State := { s with regs := [], thm := Thermal.init, sage := Sage.init }

theorem setCap_regsFrame (s : State) (h : Half) (v : Rat) : s.RegsFrame (setCap s h v) [Reg.THM_CAP_NOW] := by
  cases h with
  | west => exact (s.setFld_regsOnly ..).1.upd
  | east => exact (s.setFld_regsOnly ..).1.upd

theorem lowerCap_regsFrame (s : State) (h : Half) : s.RegsFrame (lowerCap s h) [Reg.THM_CAP_NOW] := by
  unfold lowerCap
  split
  · exact (setCap_regsFrame s h _).upd
  · exact .refl s _

/-- The thermal manager in another state. -/
def State.withThm (s : State) (x : Thermal) : State := { s with thm := x }

theorem State.withThm_capView (s : State) (x : Thermal) : (s.withThm x).capView = s.capView := rfl

theorem State.setFld_capView (s : State) (a hi lo v : Nat) : (s.setFld a hi lo v).capView = s.capView := rfl

theorem setCap_west (s : State) (v : Rat) :
    setCap s .west v = (s.setFld Reg.THM_CAP_NOW 15 0 v.floor.toNat).withThm { s.thm with capW := v } := rfl

theorem setCap_east (s : State) (v : Rat) :
    setCap s .east v = (s.setFld Reg.THM_CAP_NOW 31 16 v.floor.toNat).withThm { s.thm with capE := v } := rfl

theorem setCap_capView (s : State) (h : Half) (v : Rat) : (setCap s h v).capView = s.capView := by
  cases h with
  | west => rw [setCap_west, State.withThm_capView, State.setFld_capView]
  | east => rw [setCap_east, State.withThm_capView, State.setFld_capView]

/-- Sage re-checks its plan. -/
def State.rechecking (s : State) (due : Bool) : State := { s with sage := { s.sage with recheck := s.sage.recheck || due } }

theorem State.rechecking_capView (s : State) (due : Bool) : (s.rechecking due).capView = s.capView := rfl

theorem lowerCap_eq (s : State) (h : Half) : lowerCap s h =
    if s.capTarget h < s.capOf h then (setCap s h (s.capTarget h)).rechecking (decide (s.capOther h < s.capOf h)) else s := rfl

theorem lowerCap_capView (s : State) (h : Half) : (lowerCap s h).capView = s.capView := by
  rw [lowerCap_eq]
  split
  · rw [State.rechecking_capView, setCap_capView]
  · rfl

theorem lowerCaps_regsFrame (s : State) : s.RegsFrame (lowerCaps s) [Reg.THM_CAP_NOW] :=
  (lowerCap_regsFrame s .west).trans (lowerCap_regsFrame _ .east)

theorem lowerCaps_capView (s : State) : (lowerCaps s).capView = s.capView := (lowerCap_capView _ .east).trans (lowerCap_capView s .west)

theorem records_of_capView {s t : State} (h : t.capView = s.capView) (code source p0 p1 p2 : Nat) :
    s.Records (recordEvent t code source p0 p1 p2) (s.record code source p0 p1 p2) :=
  recordEvent_recordsFor (congrArg State.evt h :) (congrArg State.sup h :) (congrArg State.now h :) (congrArg State.tb h :)

theorem State.converters_congr {s t : State} (h : t.reg Reg.PWR_STATUS = s.reg Reg.PWR_STATUS) : t.converters = s.converters := by
  unfold State.converters State.fld
  rw [h]

/-- A converter is out. -/
def State.converterDown (s : State) (k : Nat) : State := s.setFld Reg.PWR_STATUS (16 + k) (16 + k) 0

theorem State.converterDown_capView (s : State) (k : Nat) : (s.converterDown k).capView = s.capView := rfl

/-- One converter fewer works. -/
theorem State.converters_cleared {s : State} {k : Nat} (hk : k < 5) (h : s.fld Reg.PWR_STATUS (16 + k) (16 + k) = 1) :
    (s.converterDown k).converters + 1 = s.converters := by
  unfold State.converters
  refine length_filter_cleared hk (State.testBit_of_fld (by omega) h) fun i hi => ?_
  rw [State.fld, State.converterDown, State.setFld, State.reg_setReg_same]
  exact testBit_getBits_cleared _ (by omega) (by omega)

/-- The failed converter is noted, the caps fall, and the event names what is left. -/
def State.converterOut (s : State) (k : Nat) : State :=
  let t := lowerCaps (s.converterDown k)
  recordEvent t 0x0407 0 k t.converters (min (t.fld Reg.THM_CAP_NOW 15 0) (t.fld Reg.THM_CAP_NOW 31 16))

theorem exec_converterFailed {s : State} {k : Nat} (hk : k < 5) (hen : s.enabled = true) (h : s.fld Reg.PWR_STATUS (16 + k) (16 + k) = 1) :
    exec (.converterFailed k) s =
      if (lowerCaps (s.converterDown k)).converters < 2 then .next (shedMain (s.converterOut k))
      else .next (s.converterOut k) := if_neg (by simp [hen, h, hk])

section
variable (s : State) (k : Nat)

theorem State.converterOut_reg {a : Nat} (hcap : a ≠ Reg.THM_CAP_NOW) (hev : a ∉ eventRegs) :
    (s.converterOut k).reg a = (s.converterDown k).reg a := by
  have hlow := lowerCaps_regsFrame (s.converterDown k) a (by simpa using hcap)
  rw [State.converterOut, recordEvent_reg _ _ _ _ _ _ hev, hlow]

theorem lowerCaps_converters : (lowerCaps s).converters = s.converters := State.converters_congr (lowerCaps_regsFrame s _ (by decide))

theorem State.converterOut_converters : (s.converterOut k).converters = (s.converterDown k).converters :=
  State.converters_congr (s.converterOut_reg k (by decide) (by decide))

/-- The event of the failure names the converter, how many still work and the lower cap (R421). -/
theorem State.converterOut_records : s.Records (s.converterOut k) (s.record 0x0407 0 k (s.converterOut k).converters
    (min ((s.converterOut k).fld Reg.THM_CAP_NOW 15 0) ((s.converterOut k).fld Reg.THM_CAP_NOW 31 16))) := by
  have hview : (lowerCaps (s.converterDown k)).capView = s.capView := (lowerCaps_capView _).trans (s.converterDown_capView k)
  have hcap (hi lo : Nat) : (s.converterOut k).fld Reg.THM_CAP_NOW hi lo = (lowerCaps (s.converterDown k)).fld Reg.THM_CAP_NOW hi lo := by
    rw [State.converterOut, recordEvent_fld _ _ _ _ _ _ hi lo (by decide)]
  rw [hcap, hcap, State.converterOut_converters, ← lowerCaps_converters]
  unfold State.converterOut
  exact records_of_capView hview _ _ _ _ _

end

/-! ## A cluster goes dark (14 R436, R438) -/

/-- The registers of the clusters. -/
def ClusterReg (a : Nat) : Prop := Reg.PWR_CL ≤ a ∧ a < Reg.PWR_CL + 144

theorem clusterReg_of_lt {ci : Nat} (h : ci < 144) : ClusterReg (Reg.PWR_CL + ci) := ⟨by omega, by omega⟩

theorem ClusterReg.bounds {a : Nat} (h : ClusterReg a) : 0x40100 ≤ a ∧ a < 0x40190 := h

theorem ClusterReg.not_event {a : Nat} (h : a ∈ eventRegs) : ¬ClusterReg a := fun hc => by
  have hb := hc.bounds
  simp only [eventRegs, Reg.EVT_LOST, Reg.BST_ERR_OVERFLOWS, Reg.BST_ERR_STATUS, List.mem_cons, List.not_mem_nil, or_false] at h
  omega

theorem ClusterReg.not_tile (ti off : Nat) : ¬ClusterReg (tileReg ti off) := fun hc => by
  have hb := hc.bounds
  unfold tileReg tilePages at hb
  omega

/-- A tile of a dark cluster: off, and its slice without service. -/
def State.tileDarkened (s : State) (ti : Nat) : State :=
  ((offTile s ti).setFld (tileReg ti Reg.BDM_STATUS) 15 15 1).setFld (tileReg ti Reg.BDM_STATUS) 2 0 4

/-- The floor plan without a cluster. -/
def State.planDark (s : State) (ci : Nat) : State := { s with plan := { s.plan with dark := s.plan.dark ++ [ci], due := true } }

/-- The register of a cluster that goes dark shows it, and no step of the round uses its tiles. -/
def State.clusterDropped (s : State) (ci : Nat) : State := (dropCluster s ci).setReg (Reg.PWR_CL + ci) (setBits 0 31 29 clDark)

section
variable (s : State) (ci cause : Nat)

theorem makeDark_eq (h : s.clState ci ≠ clDark) : makeDark s ci cause =
    settleLink (assertReplace (((clusterTiles ci).foldl State.tileDarkened
      (recordEvent (s.clusterDropped ci) 0x0409 0 ci cause (s.clusterDropped ci).plan.epoch)).planDark ci)) := if_neg h

theorem makeDark_stays (h : s.clState ci = clDark) : makeDark s ci cause = s := if_pos h

/-- What the drop of steps does not change. -/
def State.dropView (s : State) : State := { s with sage := Sage.init }

theorem dropAt_dropView (ti slot : Nat) (poisoned : Bool) : (s.dropAt ti slot poisoned).dropView = s.dropView := rfl

theorem dropCluster_dropView : (dropCluster s ci).dropView = s.dropView := by
  unfold dropCluster
  exact foldl_keeps (f := State.dropView) (fun t ti _ => dropAt_dropView t ti 0 false) s

theorem regs_of_dropView {s t : State} (h : t.dropView = s.dropView) : t.regs = s.regs := (congrArg State.regs h :)
theorem plan_of_dropView {s t : State} (h : t.dropView = s.dropView) : t.plan = s.plan := (congrArg State.plan h :)
theorem pwr_of_dropView {s t : State} (h : t.dropView = s.dropView) : t.pwr = s.pwr := (congrArg State.pwr h :)
theorem evt_of_dropView {s t : State} (h : t.dropView = s.dropView) : t.evt = s.evt := (congrArg State.evt h :)

/-- The recorder, the pending list and the time that an event's record is made of. -/
theorem clock_of_dropView {s t : State} (h : t.dropView = s.dropView) : t.evt = s.evt ∧ t.sup = s.sup ∧ t.now = s.now ∧ t.tb = s.tb :=
  ⟨(congrArg State.evt h :), (congrArg State.sup h :), (congrArg State.now h :), (congrArg State.tb h :)⟩

theorem State.clusterDropped_regsFrame : s.RegsFrame (s.clusterDropped ci) [Reg.PWR_CL + ci] := by
  intro a ha
  rw [State.clusterDropped, State.reg_setReg_ne _ _ (by simpa using ha)]
  exact State.reg_congr (regs_of_dropView (dropCluster_dropView s ci)) a

theorem State.clusterDropped_clState : (s.clusterDropped ci).clState ci = clDark := by
  rw [State.clusterDropped, State.clState, State.fld_setReg_same, getBits_setBits _ _ (by decide) (by decide)]
  rfl

/-- A tile's queue, segments and arrivals go. -/
def State.tileEmptied (s : State) (ti : Nat) : State :=
  (s.modTile ti (fun t => { t with queue := [], handover := none, segs := [], eject := [] })).modTile ti (fun t => { t with held := none })

theorem offTile_eq (ti : Nat) : offTile s ti =
    (((s.tileEmptied ti).setFld (tileReg ti Reg.MXA_STATUS) 17 16 0).setReg (tileReg ti Reg.MXA_HELD) 0).setTilState ti tilOff := rfl

theorem State.tileEmptied_fixes (ti : Nat) : s.Fixes ClusterReg (s.tileEmptied ti) := ⟨fun _ _ => rfl, fun _ h => h⟩

theorem offTile_fixes (ti : Nat) : s.Fixes ClusterReg (offTile s ti) := by
  rw [offTile_eq]
  exact (((s.tileEmptied_fixes ti).setFld (ClusterReg.not_tile _ _)).setReg (ClusterReg.not_tile _ _)).setFld (ClusterReg.not_tile _ _)

theorem State.tileDarkened_fixes (ti : Nat) : s.Fixes ClusterReg (s.tileDarkened ti) :=
  ((offTile_fixes s ti).setFld (ClusterReg.not_tile _ _)).setFld (ClusterReg.not_tile _ _)

theorem State.rowSettled_fixes {r : Nat} (h : r < 32) : s.Fixes ClusterReg (s.rowSettled r) := by
  unfold State.rowSettled
  refine .ite (.refl _ s) (((State.Fixes.refl _ s).setFld fun hc => ?_).recordEvent (fun _ => ClusterReg.not_event) ..)
  have hb := hc.bounds
  unfold Reg.HLK_ROW_MAP at hb
  omega

theorem settleLink_fixes : s.Fixes ClusterReg (settleLink s) := by
  rw [settleLink_eq]
  exact ((State.Fixes.refl _ s).setFld (by unfold ClusterReg; decide)).foldl fun t r hr => t.rowSettled_fixes (List.mem_range.1 hr)

theorem assertReplace_fixes : s.Fixes ClusterReg (assertReplace s) :=
  ((State.Fixes.refl _ s).setBit (by unfold ClusterReg; decide)).setBit (by unfold ClusterReg; decide)

theorem State.planDark_fixes : s.Fixes ClusterReg (s.planDark ci) := ⟨fun _ _ => rfl, fun _ h => h⟩

/-- After its register has changed, going dark leaves the registers of clusters and what is staged. -/
theorem makeDark_fixes (h : s.clState ci ≠ clDark) :
    (recordEvent (s.clusterDropped ci) 0x0409 0 ci cause (s.clusterDropped ci).plan.epoch).Fixes ClusterReg (makeDark s ci cause) := by
  rw [makeDark_eq s ci cause h]
  have htiles (t : State) : t.Fixes ClusterReg ((clusterTiles ci).foldl State.tileDarkened t) :=
    (State.Fixes.refl _ t).foldl fun t ti _ => t.tileDarkened_fixes ti
  exact (((htiles _).trans (State.planDark_fixes _ ci)).trans (assertReplace_fixes _)).trans (settleLink_fixes _)

theorem settleLink_plan : (settleLink s).plan = s.plan := by rw [(settleLink_frame s).2]

theorem settleLink_pwr : (settleLink s).pwr = s.pwr := by rw [(settleLink_frame s).2]

theorem clusterDropped_plan : (s.clusterDropped ci).plan = s.plan := by
  rw [State.clusterDropped, State.setReg_plan, plan_of_dropView (dropCluster_dropView s ci)]

theorem clusterDropped_pwr : (s.clusterDropped ci).pwr = s.pwr := by
  rw [State.clusterDropped, State.setReg_pwr, pwr_of_dropView (dropCluster_dropView s ci)]

theorem assertReplace_plan : (assertReplace s).plan = s.plan := by rw [assertReplace, setSignal_plan, State.setBit_plan]
theorem assertReplace_pwr : (assertReplace s).pwr = s.pwr := by rw [assertReplace, setSignal_pwr, State.setBit_pwr]
theorem State.planDark_plan : (s.planDark ci).plan = { s.plan with dark := s.plan.dark ++ [ci], due := true } := rfl
theorem State.planDark_pwr : (s.planDark ci).pwr = s.pwr := rfl
theorem State.tileEmptied_plan (ti : Nat) : (s.tileEmptied ti).plan = s.plan := rfl
theorem State.tileEmptied_pwr (ti : Nat) : (s.tileEmptied ti).pwr = s.pwr := rfl
theorem State.tileDarkened_plan (ti : Nat) : (s.tileDarkened ti).plan = s.plan := by
  rw [State.tileDarkened, State.setFld_plan, State.setFld_plan, offTile_eq, State.setTilState_plan, State.setReg_plan, State.setFld_plan,
    State.tileEmptied_plan]
theorem State.tileDarkened_pwr (ti : Nat) : (s.tileDarkened ti).pwr = s.pwr := by
  rw [State.tileDarkened, State.setFld_pwr, State.setFld_pwr, offTile_eq, State.setTilState_pwr, State.setReg_pwr, State.setFld_pwr,
    State.tileEmptied_pwr]

theorem makeDark_plan (h : s.clState ci ≠ clDark) : (makeDark s ci cause).plan = { s.plan with dark := s.plan.dark ++ [ci], due := true } := by
  rw [makeDark_eq s ci cause h, settleLink_plan, assertReplace_plan, State.planDark_plan,
    foldl_keeps (f := State.plan) fun t ti _ => t.tileDarkened_plan ti, recordEvent_plan, clusterDropped_plan]

theorem makeDark_pwr : (makeDark s ci cause).pwr = s.pwr := by
  by_cases h : s.clState ci = clDark
  · rw [makeDark_stays s ci cause h]
  · rw [makeDark_eq s ci cause h, settleLink_pwr, assertReplace_pwr, State.planDark_pwr,
      foldl_keeps (f := State.pwr) fun t ti _ => t.tileDarkened_pwr ti, recordEvent_pwr, clusterDropped_pwr]

theorem records_of_clusterDropped (code source p0 p1 p2 : Nat) :
    s.Records (recordEvent (s.clusterDropped ci) code source p0 p1 p2) (s.record code source p0 p1 p2) := by
  obtain ⟨hevt, hsup, hnow, htb⟩ := clock_of_dropView (dropCluster_dropView s ci)
  exact recordEvent_recordsFor (by rw [State.clusterDropped, State.setReg_evt, hevt]) (by rw [State.clusterDropped, State.setReg_sup, hsup])
    (by rw [State.clusterDropped, State.setReg_now, hnow]) (by rw [State.clusterDropped, State.setReg_tb, htb])

/-- A cluster that was not dark has gone dark. -/
theorem makeDark_goneDark (hci : ci < 144) (h : s.clState ci ≠ clDark) : s.GoneDark (makeDark s ci cause) ci cause where
  state := by
    have hfix := makeDark_fixes s ci cause h
    have hreg := hfix.fld (clusterReg_of_lt hci) 31 29
    rw [State.clState, hreg, recordEvent_fld _ _ _ _ _ _ _ _ fun hm => ClusterReg.not_event hm (clusterReg_of_lt hci)]
    exact s.clusterDropped_clState ci
  plan := by
    rw [makeDark_plan s ci cause h]
    exact ⟨List.mem_append_right _ (List.mem_singleton_self ci), rfl⟩
  event := by
    refine (makeDark_fixes s ci cause h).shows ?_
    rw [clusterDropped_plan]
    exact (records_of_clusterDropped s ci _ _ _ _ _).shows

/-- Another cluster's state is as before. -/
theorem makeDark_clState_ne {cj : Nat} (hcj : cj < 144) (hne : cj ≠ ci) : (makeDark s ci cause).clState cj = s.clState cj := by
  by_cases h : s.clState ci = clDark
  · rw [makeDark_stays s ci cause h]
  rw [State.clState, (makeDark_fixes s ci cause h).fld (clusterReg_of_lt hcj),
    recordEvent_fld _ _ _ _ _ _ _ _ fun hm => ClusterReg.not_event hm (clusterReg_of_lt hcj)]
  exact (s.clusterDropped_regsFrame ci).fld (by simp; omega) 31 29

end

/-- What was staged is staged still when a cluster goes dark. -/
theorem makeDark_staged (s : State) (ci cause : Nat) : ∀ e ∈ s.evt.staging, e ∈ (makeDark s ci cause).evt.staging := by
  intro e he
  by_cases h : s.clState ci = clDark
  · rwa [makeDark_stays s ci cause h]
  · refine (makeDark_fixes s ci cause h).staged e (recordEvent_staging ?_ ..)
    rw [State.clusterDropped, State.setReg_evt, evt_of_dropView (dropCluster_dropView s ci)]
    exact he

end Sys2Proof.Machine

namespace Sys2Proof.Machine

/-! ## The power state changes alone -/

/-- The power state in another state. -/
def State.withPwr (s : State) (x : PowerState) : State := { s with pwr := x }

section
variable (s : State) (x : PowerState)

theorem State.withPwr_pwr : (s.withPwr x).pwr = x := rfl
theorem State.withPwr_evt : (s.withPwr x).evt = s.evt := rfl
theorem State.withPwr_fld (a hi lo : Nat) : (s.withPwr x).fld a hi lo = s.fld a hi lo := rfl

end

/-! ## Events of states with one recorder and one time -/

/-- The recorder, the pending list and the time of two states are the same, so that an event has the same record in both. -/
structure State.SameClock (s t : State) : Prop where
  evt : t.evt = s.evt := by rfl
  sup : t.sup = s.sup := by rfl
  now : t.now = s.now := by rfl
  tb : t.tb = s.tb := by rfl

namespace State.SameClock
variable {s t u : State}

theorem trans (h : s.SameClock t) (k : t.SameClock u) : s.SameClock u :=
  ⟨k.evt.trans h.evt, k.sup.trans h.sup, k.now.trans h.now, k.tb.trans h.tb⟩

theorem of_regsOnly {l : List Nat} (h : s.RegsOnly t l) : s.SameClock t := ⟨by rw [h.2], by rw [h.2], by rw [h.2], by rw [h.2]⟩

theorem records (h : s.SameClock t) (code source p0 p1 p2 : Nat) :
    s.Records (recordEvent t code source p0 p1 p2) (s.record code source p0 p1 p2) := recordEvent_recordsFor h.evt h.sup h.now h.tb

theorem shows (h : s.SameClock t) {code source p0 p1 p2 : Nat} (k : t.Shows u (t.record code source p0 p1 p2)) :
    s.Shows u (s.record code source p0 p1 p2) := by
  unfold State.Shows State.Room State.record State.calendar at *
  rwa [h.evt, h.sup, h.now, h.tb] at k

theorem goneDark (h : s.SameClock t) (hplan : t.plan = s.plan) {ci cause : Nat} (k : t.GoneDark u ci cause) : s.GoneDark u ci cause :=
  ⟨k.state, k.plan, h.shows (hplan ▸ k.event)⟩

end State.SameClock

/-! ## Auxiliary power is lost (00 R40) -/

/-- The module off: what the card, the fuses, the log and the stack tier's list hold stays. -/
def State.unpowered (s : State) : State := { State.reset with
    tiles := s.tiles
    stm := s.stm
    evt := { Recorder.init with log := s.evt.log, head := s.evt.head, first := s.evt.first, clearing := s.evt.clearing }
    card := { s.card with job := none }
    fuses := s.fuses
    plan := { Plan.init with fused := s.plan.fused }
    out := s.out
    now := s.now
    free := s.free
    pending := s.pending }

theorem exec_auxLost (s : State) : exec .auxLost s = .next (wipeMain s).unpowered := rfl

theorem State.unpowered_log (s : State) : s.unpowered.evt.log = s.evt.log := rfl
theorem State.unpowered_card (s : State) : s.unpowered.card = { s.card with job := none } := rfl
theorem State.unpowered_fuses (s : State) : s.unpowered.fuses = s.fuses := rfl
theorem State.unpowered_tile (s : State) (ti : Nat) : s.unpowered.tile ti = s.tile ti := rfl

/-- What the wipe leaves of the log, the card, the fuses and the tiles. -/
theorem wipeMain_kept_parts (s : State) : (wipeMain s).evt = s.evt ∧ (wipeMain s).card = s.card ∧ (wipeMain s).fuses = s.fuses ∧
    ∀ ti, (wipeMain s).tile ti = s.stripped.tile ti := by
  have h := (wipeMain_regsOnly s).2
  have hstripped : s.stripped.evt = s.evt ∧ s.stripped.card = s.card ∧ s.stripped.fuses = s.fuses := ⟨rfl, rfl, rfl⟩
  obtain ⟨hevt, hcard, hfuses⟩ := hstripped
  refine ⟨?_, ?_, ?_, fun ti => ?_⟩
  · rw [h]
    exact hevt
  · rw [h]
    exact hcard
  · rw [h]
    exact hfuses
  · unfold State.tile
    rw [tiles_of_offView (wipeMain_regsOnly s).offView]

theorem wipeMain_tile_empty (s : State) (ti : Nat) : ((wipeMain s).tile ti).sram = [] ∧ ((wipeMain s).tile ti).slice = [] := by
  obtain ⟨-, -, -, htile⟩ := wipeMain_kept_parts s
  obtain ⟨g, n, h⟩ := s.stripped_tile ti
  rw [htile, h]
  exact ⟨rfl, rfl⟩

/-! ## A phase fails (14 R435, R436) -/

/-- The phases of a cluster that work. -/
def State.phases (s : State) (cluster : Nat) : Nat :=
  ((List.range 3).filter (fun i => (s.fld (Reg.PWR_CL + cluster) 26 24).testBit i)).length

/-- A phase is out. -/
def State.phaseDown (s : State) (cluster phase : Nat) : State := s.setFld (Reg.PWR_CL + cluster) (24 + phase) (24 + phase) 0

/-- Two phases carry the cluster, at code 50 at most. -/
def State.twoPhased (s : State) (cluster : Nat) : State :=
  (s.setCl cluster clTwoPhase).setFld (Reg.PWR_CL + cluster) 6 0 (min 50 (s.fld (Reg.PWR_CL + cluster) 6 0))

section
variable {s : State} {cluster phase : Nat}

theorem State.phases_of_full (h : s.fld (Reg.PWR_CL + cluster) 26 24 = 7) : s.phases cluster = 3 := by
  unfold State.phases
  rw [h]
  decide

theorem State.phases_of_not_full (h : s.fld (Reg.PWR_CL + cluster) 26 24 ≠ 7) : s.phases cluster < 3 := by
  have hfew : ∀ x < 8, x ≠ 7 → ((List.range 3).filter (fun i => Nat.testBit x i)).length < 3 := by decide
  exact hfew _ (getBits_lt _ 26 24) h

theorem State.phaseDown_phases (hphase : phase < 3) (h : s.fld (Reg.PWR_CL + cluster) (24 + phase) (24 + phase) = 1) :
    (s.phaseDown cluster phase).phases cluster + 1 = s.phases cluster := by
  unfold State.phases
  refine length_filter_cleared hphase (State.testBit_of_fld (by omega) h) fun i hi => ?_
  rw [State.fld, State.phaseDown, State.setFld, State.reg_setReg_same]
  exact testBit_getBits_cleared _ (by omega) (by omega)

theorem exec_phaseFailed (hc : cluster < 144) (hphase : phase < 3) (hlit : s.clState cluster ≠ clDark)
    (h : s.fld (Reg.PWR_CL + cluster) (24 + phase) (24 + phase) = 1) : exec (.phaseFailed cluster phase) s =
      if (s.phaseDown cluster phase).phases cluster < 2 then .next (makeDark (s.phaseDown cluster phase) cluster 0)
      else .next (recordEvent ((s.phaseDown cluster phase).twoPhased cluster) 0x0408 0 cluster phase
        ((s.phaseDown cluster phase).phases cluster)) := by
  refine if_neg ?_
  rw [h]
  simp [hc, hphase, hlit]

theorem State.phaseDown_regsOnly : s.RegsOnly (s.phaseDown cluster phase) [Reg.PWR_CL + cluster] := s.setFld_regsOnly ..

theorem State.twoPhased_regsOnly : s.RegsOnly (s.twoPhased cluster) [Reg.PWR_CL + cluster] :=
  (s.setFld_regsOnly ..).trans (State.setFld_regsOnly ..)

theorem State.phaseDown_fld (hphase : phase < 3) {hi lo : Nat} (h : hi < 24 ∨ 26 < lo) :
    (s.phaseDown cluster phase).fld (Reg.PWR_CL + cluster) hi lo = s.fld (Reg.PWR_CL + cluster) hi lo :=
  s.fld_setFld_disjoint _ _ le_rfl (by omega) (by omega)

theorem State.twoPhased_clState : (s.twoPhased cluster).clState cluster = clTwoPhase :=
  (State.fld_setFld_disjoint _ _ _ (by decide) (by decide) (by decide)).trans (s.fld_setFld_same _ _ (by decide) (by decide))

theorem State.twoPhased_code : (s.twoPhased cluster).fld (Reg.PWR_CL + cluster) 6 0 = min 50 (s.fld (Reg.PWR_CL + cluster) 6 0) :=
  (State.fld_setFld_same _ _ _ (by decide) (by decide)).trans (Nat.mod_eq_of_lt (by omega))

theorem pwrCl_notMem_eventRegs (hc : cluster < 144) : Reg.PWR_CL + cluster ∉ eventRegs :=
  fun h => ClusterReg.not_event h (clusterReg_of_lt hc)

/-- With two phases left the cluster goes on at a lower code (R435). -/
theorem twoPhased_shown (hc : cluster < 144) (hphase : phase < 3) (n : Nat) :
    let t := recordEvent ((s.phaseDown cluster phase).twoPhased cluster) 0x0408 0 cluster phase n
    t.clState cluster = clTwoPhase ∧ t.fld (Reg.PWR_CL + cluster) 6 0 = min 50 (s.fld (Reg.PWR_CL + cluster) 6 0) ∧
      s.Records t (s.record 0x0408 0 cluster phase n) ∧ s.RegsAndEvents t [Reg.PWR_CL + cluster] := by
  have hregs : s.RegsOnly ((s.phaseDown cluster phase).twoPhased cluster) [Reg.PWR_CL + cluster] :=
    State.phaseDown_regsOnly.trans State.twoPhased_regsOnly
  have hev (hi lo : Nat) := recordEvent_fld ((s.phaseDown cluster phase).twoPhased cluster) 0x0408 0 cluster phase n hi lo (pwrCl_notMem_eventRegs hc)
  refine ⟨?_, ?_, hregs.records _ _ _ _ _, hregs.events.trans (recordEvent_frame ..)⟩
  · rw [State.clState, hev]
    exact State.twoPhased_clState
  · rw [hev, State.twoPhased_code, State.phaseDown_fld hphase (by omega)]

/-- With fewer the cluster goes dark (R436). -/
theorem phaseDown_goneDark (hc : cluster < 144) (hphase : phase < 3) (hlit : s.clState cluster ≠ clDark) :
    s.GoneDark (makeDark (s.phaseDown cluster phase) cluster 0) cluster 0 := by
  have hclock : s.SameClock (s.phaseDown cluster phase) := .of_regsOnly State.phaseDown_regsOnly
  refine hclock.goneDark (by rw [(State.phaseDown_regsOnly (s := s)).2]) (makeDark_goneDark _ _ _ hc ?_)
  rwa [State.clState, State.phaseDown_fld hphase (by omega)]

end

/-! ## An in-die regulator fails (14 R437) -/

theorem tiePartner_ne (ci : Nat) : tiePartner ci ≠ ci := by
  have hx (x : Nat) : x ^^^ 1 ≠ x := fun h => by
    have := congrArg (x ^^^ ·) h
    simp at this
  unfold tiePartner
  intro h
  have := hx (ci / 18)
  omega

theorem tiePartner_lt {ci : Nat} (h : ci < 144) : tiePartner ci < 144 := by
  have hx : ∀ x < 8, x ^^^ 1 < 8 := by decide
  have := hx (ci / 18) (by omega)
  unfold tiePartner
  omega

/-- A regulator is dead. -/
def State.regDead (s : State) (cluster rail : Nat) : State :=
  { s with pwr := { s.pwr with deadRegs := s.pwr.deadRegs ++ [(cluster, rail)] } }

/-- The partner's regulator feeds both rails. -/
def State.tied (s : State) (cluster rail : Nat) : State := (s.regDead cluster rail).setFld (Reg.PWR_CL + cluster) (12 + rail) (12 + rail) 1

section
variable {s : State} {cluster rail : Nat}

theorem exec_dieRegTied (hc : cluster < 144) (hrail : rail < 3) (hdead : (cluster, rail) ∉ s.pwr.deadRegs)
    (hlit : s.clState cluster ≠ clDark) : exec (.dieRegTied cluster rail) s =
      if (tiePartner cluster, rail) ∈ s.pwr.deadRegs then .next (makeDark (makeDark (s.regDead cluster rail) cluster 1) (tiePartner cluster) 1)
      else .next (recordEvent (s.tied cluster rail) 0x040A 0 (208 + 3 * cluster + rail) (208 + 3 * tiePartner cluster + rail) 0) := by
  change execDieRegTied cluster rail s = _
  have hpartner := tiePartner_ne cluster
  unfold execDieRegTied
  rw [if_neg (by simp [hc, hrail, hdead, hlit])]
  refine if_congr ?_ rfl rfl
  simp [hpartner]

theorem tied_shown (hc : cluster < 144) (hrail : rail < 3) (p0 p1 : Nat) :
    let t := recordEvent (s.tied cluster rail) 0x040A 0 p0 p1 0
    t.fld (Reg.PWR_CL + cluster) (12 + rail) (12 + rail) = 1 ∧ t.pwr.deadRegs = s.pwr.deadRegs ++ [(cluster, rail)] ∧
      s.Records t (s.record 0x040A 0 p0 p1 0) := by
  have hdead : s.SameClock (s.regDead cluster rail) := {}
  have htied : (s.regDead cluster rail).RegsOnly (s.tied cluster rail) [Reg.PWR_CL + cluster] := State.setFld_regsOnly ..
  refine ⟨?_, ?_, (hdead.trans (.of_regsOnly htied)).records _ _ _ _ _⟩
  · rw [recordEvent_fld _ _ _ _ _ _ _ _ (pwrCl_notMem_eventRegs hc), State.tied, State.fld_setFld_same _ _ _ le_rfl (by omega)]
    simp
  · rw [recordEvent_pwr, htied.2]
    rfl

theorem makeDark_clState (s : State) {ci : Nat} (hci : ci < 144) (cause : Nat) : (makeDark s ci cause).clState ci = clDark := by
  by_cases h : s.clState ci = clDark
  · rwa [makeDark_stays s ci cause h]
  · exact (makeDark_goneDark s ci cause hci h).state

/-- Both clusters of a tie go dark. -/
theorem bothDark (s : State) (hc : cluster < 144) : let t := makeDark (makeDark s cluster 1) (tiePartner cluster) 1
    t.clState cluster = clDark ∧ t.clState (tiePartner cluster) = clDark := by
  refine ⟨?_, makeDark_clState _ (tiePartner_lt hc) 1⟩
  rw [makeDark_clState_ne _ _ _ hc (tiePartner_ne cluster).symm]
  exact makeDark_clState s hc 1

end

/-! ## A rail fails (14 R437) -/

theorem domReg_bounds {d : Nat} (h : d < 640) : 0x41000 ≤ domReg d ∧ domReg d + 2 < 0x41A00 := by
  unfold domReg Reg.PWR_DOM_STATUS
  omega

theorem noteMin_regsOnly (s : State) (d v : Nat) : s.RegsOnly (noteMin s d v) [domReg d, domReg d + 1, domReg d + 2] := by
  unfold noteMin
  split
  · exact ((s.setFld_regsOnly ..).mono (by simp)).trans ((State.setReg64_regsOnly ..).mono (by simp))
  · exact ⟨.refl s _, rfl⟩

section
variable {s : State} {domain : Nat} (volts : Nat)

theorem exec_railFault_stack (hen : s.enabled = true) (hlo : 156 ≤ domain) (hhi : domain ≤ 203) : exec (.railFault domain volts) s =
    .next (stackOffline (recordEvent (noteMin s domain volts) 0x040F 0 domain volts 0) ((domain - 156) / 3)) := by
  change execRailFault domain volts s = _
  unfold execRailFault
  rw [if_neg (by simp [hen]), if_pos ⟨hlo, hhi⟩]

theorem exec_railFault_main (hen : s.enabled = true) (hlo : 144 ≤ domain) (hhi : domain ≤ 155) : exec (.railFault domain volts) s =
    .next (shedMain (recordEvent (noteMin s domain volts) 0x040F 0 domain volts 1)) := by
  change execRailFault domain volts s = _
  unfold execRailFault
  rw [if_neg (by simp [hen]), if_neg (by omega), if_pos ⟨hlo, hhi⟩]

theorem exec_railFault_other (hlo : domain < 144 ∨ 203 < domain) : exec (.railFault domain volts) s = .next s := by
  change execRailFault domain volts s = _
  unfold execRailFault
  split_ifs
  · rfl
  · omega
  · omega
  · rfl

theorem stackStatus_notMem_eventRegs {k : Nat} (h : k < 16) : Reg.STM_STACK_STATUS + k ∉ eventRegs := by
  simp only [eventRegs, Reg.EVT_LOST, Reg.BST_ERR_OVERFLOWS, Reg.BST_ERR_STATUS, Reg.STM_STACK_STATUS, List.mem_cons, List.not_mem_nil,
    or_false, not_or]
  omega

/-- The floor plan is due. -/
def State.planDue (s : State) : State := { s with plan := { s.plan with due := true } }

theorem State.planDue_fld (s : State) (a hi lo : Nat) : s.planDue.fld a hi lo = s.fld a hi lo := rfl

theorem State.planDue_evt (s : State) : s.planDue.evt = s.evt := rfl

theorem stackOffline_eq (s : State) (k : Nat) : stackOffline s k = if s.fld (Reg.STM_STACK_STATUS + k) 2 0 = stkOffline then s
    else (recordEvent (s.setFld (Reg.STM_STACK_STATUS + k) 2 0 stkOffline) 0x0B03 k k (halfNo (stackHalf k)) 0).planDue := rfl

/-- The stack is OFFLINE, and every staged record stays. -/
theorem stackOffline_shown (s : State) {k : Nat} (h : k < 16) : (stackOffline s k).fld (Reg.STM_STACK_STATUS + k) 2 0 = stkOffline ∧
    ∀ e ∈ s.evt.staging, e ∈ (stackOffline s k).evt.staging := by
  rw [stackOffline_eq]
  split
  next hoff => exact ⟨hoff, fun _ => id⟩
  next =>
    refine ⟨?_, fun e he => ?_⟩
    · rw [State.planDue_fld, recordEvent_fld _ _ _ _ _ _ _ _ (stackStatus_notMem_eventRegs h),
        State.fld_setFld_same _ _ _ (by decide) (by decide)]
      rfl
    · rw [State.planDue_evt]
      exact recordEvent_staging (s := s.setFld (Reg.STM_STACK_STATUS + k) 2 0 stkOffline) (by rwa [State.setFld_evt]) _ _ _ _ _

theorem railEvent_shows (domain volts p2 : Nat) :
    s.Shows (recordEvent (noteMin s domain volts) 0x040F 0 domain volts p2) (s.record 0x040F 0 domain volts p2) :=
  ((noteMin_regsOnly s domain volts).records _ _ _ _ _).shows

end

/-! ## A domain falls under its tolerance (14 R438) -/

/-- The cluster's work of the round drops, with the event. -/
def State.uvRecorded (s : State) (cluster volts duration : Nat) : State :=
  recordEvent (dropCluster (noteMin s cluster volts) cluster) 0x040D 0 cluster volts duration

/-- The times of a cluster's undervoltages in the last day. -/
def State.recentUv (s : State) (cluster : Nat) : List Nat :=
  (SMap.getD s.pwr.undervolts cluster []).filter (fun t => decide (s.now < t + 86400000000000))

/-- The undervoltage is noted, and the cluster has no budget until a boundary. -/
def State.uvNoted (s : State) (cluster : Nat) : State := { s with pwr := { s.pwr with
  undervolts := SMap.put s.pwr.undervolts cluster (s.recentUv cluster ++ [s.now]), noBudget := s.pwr.noBudget ++ [cluster] } }

section
variable {s : State} {cluster : Nat} (volts duration : Nat)

theorem exec_domainUv (hc : cluster < 144) (hon : s.clState cluster = clOn ∨ s.clState cluster = clTwoPhase) :
    exec (.domainUv cluster volts duration) s =
      let t := (s.uvRecorded cluster volts duration).uvNoted cluster
      if 3 ≤ ((s.uvRecorded cluster volts duration).recentUv cluster ++ [(s.uvRecorded cluster volts duration).now]).length then
        .next (makeDark t cluster 2)
      else .next (deferOn (t.setCl cluster clDeferred) cluster 0) := by
  change execDomainUv cluster volts duration s = _
  unfold execDomainUv
  rw [if_neg (by obtain h | h := hon <;> simp [h, hc])]
  rfl

theorem State.uvRecorded_pwr : (s.uvRecorded cluster volts duration).pwr = s.pwr := by
  rw [State.uvRecorded, recordEvent_pwr, pwr_of_dropView (dropCluster_dropView _ _), (noteMin_regsOnly s cluster volts).2]

theorem State.uvRecorded_now : (s.uvRecorded cluster volts duration).now = s.now := by
  rw [State.uvRecorded, recordEvent_now, (clock_of_dropView (dropCluster_dropView _ _)).2.2.1, (noteMin_regsOnly s cluster volts).2]

theorem State.uvRecorded_recent : (s.uvRecorded cluster volts duration).recentUv cluster = s.recentUv cluster := by
  unfold State.recentUv
  rw [State.uvRecorded_pwr, State.uvRecorded_now]

theorem State.uvRecorded_clState (hc : cluster < 144) : (s.uvRecorded cluster volts duration).clState cluster = s.clState cluster := by
  have hb := domReg_bounds (d := cluster) (by omega)
  have hmin : Reg.PWR_CL + cluster ∉ [domReg cluster, domReg cluster + 1, domReg cluster + 2] := by
    simp only [List.mem_cons, List.not_mem_nil, or_false, not_or, Reg.PWR_CL]
    omega
  rw [State.clState, State.uvRecorded, recordEvent_fld _ _ _ _ _ _ _ _ (pwrCl_notMem_eventRegs hc),
    State.fld_congr (regs_of_dropView (dropCluster_dropView _ _)), (noteMin_regsOnly s cluster volts).1.fld hmin]
  rfl

theorem State.uvRecorded_shows : s.Shows (s.uvRecorded cluster volts duration) (s.record 0x040D 0 cluster volts duration) := by
  obtain ⟨hevt, hsup, hnow, htb⟩ := clock_of_dropView (dropCluster_dropView (noteMin s cluster volts) cluster)
  have hclock : s.SameClock (dropCluster (noteMin s cluster volts) cluster) :=
    (State.SameClock.of_regsOnly (noteMin_regsOnly s cluster volts)).trans ⟨hevt, hsup, hnow, htb⟩
  exact (hclock.records _ _ _ _ _).shows

end

theorem State.uvNoted_evt (s : State) (cluster : Nat) : (s.uvNoted cluster).evt = s.evt := rfl
theorem State.uvNoted_clState (s : State) (cluster ci : Nat) : (s.uvNoted cluster).clState ci = s.clState ci := rfl

/-- A domain deferred is listed so. -/
theorem deferOn_listed (s : State) (d cause : Nat) : SMap.get? (deferOn s d cause).pwr.deferred d ≠ none := by
  have h : (deferOn s d cause).pwr.deferred =
      SMap.put s.pwr.deferred d ((match SMap.get? s.pwr.deferred d with | some x => x.1 | none => s.now), cause) := rfl
  rw [h, SMap.get?_put, if_pos rfl]
  exact Option.some_ne_none _

theorem deferOn_evt (s : State) (d cause : Nat) : (deferOn s d cause).evt = s.evt := rfl
theorem deferOn_clState (s : State) (d cause ci : Nat) : (deferOn s d cause).clState ci = s.clState ci := rfl
theorem deferOn_noBudget (s : State) (d cause : Nat) : (deferOn s d cause).pwr.noBudget = s.pwr.noBudget := rfl
theorem deferOn_localSense (s : State) (d cause : Nat) : (deferOn s d cause).pwr.localSense = s.pwr.localSense := rfl

theorem State.setCl_clState (s : State) (ci : Nat) {v : Nat} (h : v < 8) : (s.setCl ci v).clState ci = v :=
  (s.fld_setFld_same _ _ (by decide) (by decide)).trans (Nat.mod_eq_of_lt h)

/-! ## A remote sense fails and returns (14 R426) -/

/-- The domain's sense is local. -/
def State.sensedLocally (s : State) (domain : Nat) : State := { s with pwr := { s.pwr with localSense := s.pwr.localSense ++ [domain] } }

/-- The domain's sense is remote again. -/
def State.sensedRemotely (s : State) (domain : Nat) : State :=
  { s with pwr := { s.pwr with localSense := s.pwr.localSense.filter (fun d => decide (d ≠ domain)) } }

/-- A cluster to be switched on again, without budget until a boundary. -/
def State.resensed (s : State) (domain : Nat) : State :=
  (s.setCl domain clDeferred).withPwr { s.pwr with noBudget := s.pwr.noBudget ++ [domain] }

theorem State.resensed_clState (s : State) (domain : Nat) : (s.resensed domain).clState domain = clDeferred := by
  rw [State.resensed, State.clState, State.withPwr_fld]
  exact s.setCl_clState domain (by decide)

theorem State.resensed_evt (s : State) (domain : Nat) : (s.resensed domain).evt = s.evt := by
  rw [State.resensed, State.withPwr_evt, State.setCl, State.setFld_evt]

theorem State.resensed_localSense (s : State) (domain : Nat) : (s.resensed domain).pwr.localSense = s.pwr.localSense := by
  rw [State.resensed, State.withPwr_pwr]

theorem exec_senseFault {s : State} {domain : Nat} (hd : domain < 640) (h : domain ∉ s.pwr.localSense) :
    exec (.senseFault domain) s = .next (recordEvent (s.sensedLocally domain) 0x040E 0 domain 1 0) := if_neg (by simp [hd, h])

theorem exec_senseRestored {s : State} {domain : Nat} (h : domain ∈ s.pwr.localSense) : exec (.senseRestored domain) s =
    let t := recordEvent (s.sensedRemotely domain) 0x040E 0 domain 0 0
    if domain < 144 && decide (t.psState = psOn) && decide (t.clState domain = clOff) && t.powered domain then
      .next (deferOn (t.resensed domain) domain 0)
    else .next t := by
  change execSenseRestored domain s = _
  unfold execSenseRestored
  rw [if_neg (by simp [h])]
  rfl

end Sys2Proof.Machine

namespace Sys2Proof.Machine

/-! ## The faults of the delivery, each as its statement asks -/

section
variable {s : State}

theorem powerDownStepDone_shown (h : s.psState = psSeqDown) : ∃ t, exec .powerDownStepDone s = .next t ∧
    (s.pwr.step = 9 → (∀ ci, ci < 144 → waveOf ci = s.pwr.wave → t.reg (Reg.PWR_CL + ci) = 0) ∧
      (s.pwr.wave ≠ 0 → t.pwr.wave = s.pwr.wave - 1 ∧ t.pwr.step = 9) ∧ (s.pwr.wave = 0 → t.pwr.step = 8)) ∧
    (1 < s.pwr.step → s.pwr.step ≠ 9 → t = { s with pwr := { s.pwr with step := s.pwr.step - 1 } }) ∧
    (s.pwr.step ≤ 1 → t.psState = psAux ∧ ∀ ti, (t.tile ti).sram = [] ∧ (t.tile ti).slice = []) := by
  have hex := exec_powerDownStepDone h
  by_cases h9 : s.pwr.step = 9
  · rw [if_pos h9] at hex
    refine ⟨_, hex, fun _ => ⟨fun ci hci hw => ?_, fun h0 => ?_, fun h0 => ?_⟩, fun _ hne => absurd h9 hne, fun hle => by omega⟩
    · rw [State.waveNext_reg, State.waveDown_reg s hci hw]
    · rw [State.waveNext, if_neg h0, State.waveDown_pwr]
      exact ⟨rfl, h9⟩
    · rw [State.waveNext, if_pos h0]
  · rw [if_neg h9] at hex
    by_cases h1 : 1 < s.pwr.step
    · rw [if_pos h1] at hex
      exact ⟨_, hex, fun h => absurd h h9, fun _ _ => rfl, fun hle => by omega⟩
    · rw [if_neg h1] at hex
      exact ⟨_, hex, fun h => absurd h h9, fun h => absurd h h1, fun _ => afterOff_wipeMain_off s⟩

theorem converterFailed_shown {k : Nat} (hk : k < 5) (hen : s.enabled = true) (h : s.fld Reg.PWR_STATUS (16 + k) (16 + k) = 1) :
    ∃ t, exec (.converterFailed k) s = .next t ∧ (2 < s.converters → t.fld Reg.PWR_STATUS (16 + k) (16 + k) = 0 ∧
        t.converters + 1 = s.converters ∧
        s.Records t (s.record 0x0407 0 k t.converters (min (t.fld Reg.THM_CAP_NOW 15 0) (t.fld Reg.THM_CAP_NOW 31 16)))) ∧
      (s.converters ≤ 2 → t.psState = psAux ∧ ∀ ti, (t.tile ti).sram = []) := by
  have hex := exec_converterFailed hk hen h
  have hleft := State.converters_cleared hk h
  rw [lowerCaps_converters] at hex
  by_cases hfew : (s.converterDown k).converters < 2
  · rw [if_pos hfew] at hex
    obtain ⟨hps, htile, -⟩ := shedMain_off (s.converterOut k)
    exact ⟨_, hex, fun _ => by omega, fun _ => ⟨hps, htile⟩⟩
  · rw [if_neg hfew] at hex
    refine ⟨_, hex, fun _ => ⟨?_, ?_, s.converterOut_records k⟩, fun _ => by omega⟩
    · rw [State.fld, State.converterOut_reg s k (by decide) (by decide)]
      exact s.fld_setFld_same _ _ le_rfl (by omega)
    · rw [State.converterOut_converters, hleft]

theorem phaseFailed_shown {cluster phase : Nat} (hc : cluster < 144) (hphase : phase < 3) (hlit : s.clState cluster ≠ clDark)
    (h : s.fld (Reg.PWR_CL + cluster) (24 + phase) (24 + phase) = 1) : ∃ t, exec (.phaseFailed cluster phase) s = .next t ∧
      (s.fld (Reg.PWR_CL + cluster) 26 24 = 7 → t.clState cluster = clTwoPhase ∧
        t.fld (Reg.PWR_CL + cluster) 6 0 = min 50 (s.fld (Reg.PWR_CL + cluster) 6 0) ∧ s.Records t (s.record 0x0408 0 cluster phase 2) ∧
        s.RegsAndEvents t [Reg.PWR_CL + cluster]) ∧
      (s.fld (Reg.PWR_CL + cluster) 26 24 ≠ 7 → s.GoneDark t cluster 0) := by
  have hex := exec_phaseFailed hc hphase hlit h
  have hleft := State.phaseDown_phases hphase h
  by_cases hfull : s.fld (Reg.PWR_CL + cluster) 26 24 = 7
  · have htwo : (s.phaseDown cluster phase).phases cluster = 2 := by
      have := State.phases_of_full hfull
      omega
    rw [htwo, if_neg (by decide)] at hex
    exact ⟨_, hex, fun _ => twoPhased_shown hc hphase 2, fun hne => absurd hfull hne⟩
  · have := State.phases_of_not_full hfull
    rw [if_pos (by omega)] at hex
    exact ⟨_, hex, fun hall => absurd hall hfull, fun _ => phaseDown_goneDark hc hphase hlit⟩

theorem railFault_shown (domain volts : Nat) (hen : s.enabled = true) : ∃ t, exec (.railFault domain volts) s = .next t ∧
    (156 ≤ domain → domain ≤ 203 → t.fld (Reg.STM_STACK_STATUS + (domain - 156) / 3) 2 0 = stkOffline ∧
      s.Shows t (s.record 0x040F 0 domain volts 0)) ∧
    (144 ≤ domain → domain ≤ 155 → t.psState = psAux ∧ s.Shows t (s.record 0x040F 0 domain volts 1)) := by
  by_cases hstack : 156 ≤ domain ∧ domain ≤ 203
  · obtain ⟨hlo, hhi⟩ := hstack
    obtain ⟨hoff, hstaged⟩ := stackOffline_shown (recordEvent (noteMin s domain volts) 0x040F 0 domain volts 0) (k := (domain - 156) / 3) (by omega)
    exact ⟨_, exec_railFault_stack volts hen hlo hhi, fun _ _ => ⟨hoff, fun hroom => hstaged _ (railEvent_shows domain volts 0 hroom)⟩,
      fun _ _ => by omega⟩
  by_cases hmain : 144 ≤ domain ∧ domain ≤ 155
  · obtain ⟨hlo, hhi⟩ := hmain
    obtain ⟨hps, -, hstaged⟩ := shedMain_off (recordEvent (noteMin s domain volts) 0x040F 0 domain volts 1)
    exact ⟨_, exec_railFault_main volts hen hlo hhi, fun _ _ => by omega,
      fun _ _ => ⟨hps, fun hroom => hstaged _ (railEvent_shows domain volts 1 hroom)⟩⟩
  · exact ⟨_, exec_railFault_other volts (by omega), fun _ _ => by omega, fun _ _ => by omega⟩

theorem domainUv_shown {cluster : Nat} (volts duration : Nat) (hc : cluster < 144) (hon : s.clState cluster = clOn ∨ s.clState cluster = clTwoPhase) :
    ∃ t, exec (.domainUv cluster volts duration) s = .next t ∧ s.Shows t (s.record 0x040D 0 cluster volts duration) ∧
      cluster ∈ t.pwr.noBudget ∧
      ((s.recentUv cluster).length < 2 → t.clState cluster = clDeferred ∧ SMap.get? t.pwr.deferred cluster ≠ none) ∧
      (2 ≤ (s.recentUv cluster).length → t.clState cluster = clDark ∧ cluster ∈ t.plan.dark) := by
  have hex := exec_domainUv volts duration hc hon
  have hshow := s.uvRecorded_shows (cluster := cluster) volts duration
  have hbudget : cluster ∈ ((s.uvRecorded cluster volts duration).uvNoted cluster).pwr.noBudget :=
    List.mem_append_right _ (List.mem_singleton_self cluster)
  dsimp only at hex
  rw [State.uvRecorded_recent, List.length_append, List.length_singleton] at hex
  by_cases hmany : 2 ≤ (s.recentUv cluster).length
  · rw [if_pos (by omega)] at hex
    have hlit : ((s.uvRecorded cluster volts duration).uvNoted cluster).clState cluster ≠ clDark := by
      rw [State.uvNoted_clState, State.uvRecorded_clState volts duration hc]
      obtain h | h := hon <;> rw [h] <;> decide
    refine ⟨_, hex, fun hroom => ?_, ?_, fun hlt => by omega, fun _ => ⟨makeDark_clState _ hc 2, (makeDark_goneDark _ _ 2 hc hlit).plan.1⟩⟩
    · exact makeDark_staged _ _ _ _ (by rw [State.uvNoted_evt]; exact hshow hroom)
    · rw [makeDark_pwr]
      exact hbudget
  · rw [if_neg (by omega)] at hex
    refine ⟨_, hex, ?_, ?_, fun _ => ⟨?_, deferOn_listed _ _ 0⟩, fun hle => by omega⟩
    · exact hshow.congr (by rw [deferOn_evt, State.setCl, State.setFld_evt, State.uvNoted_evt])
    · rw [deferOn_noBudget, State.setCl, State.setFld_pwr]
      exact hbudget
    · rw [deferOn_clState, State.setCl_clState _ _ (by decide)]

theorem senseRestored_shown {domain : Nat} (h : domain ∈ s.pwr.localSense) : ∃ t, exec (.senseRestored domain) s = .next t ∧
    t.pwr.localSense = s.pwr.localSense.filter (fun d => decide (d ≠ domain)) ∧ s.Records t (s.record 0x040E 0 domain 0 0) ∧
    (domain < 144 → s.psState = psOn → s.clState domain = clOff → s.powered domain = true → t.clState domain = clDeferred) := by
  have hclock : s.SameClock (s.sensedRemotely domain) := {}
  have hrec := hclock.records 0x040E 0 domain 0 0
  have hsense : (recordEvent (s.sensedRemotely domain) 0x040E 0 domain 0 0).pwr.localSense =
      s.pwr.localSense.filter (fun d => decide (d ≠ domain)) := by
    rw [recordEvent_pwr]
    rfl
  have hex := exec_senseRestored h
  dsimp only at hex
  split_ifs at hex with hoff
  · refine ⟨_, hex, ?_, ?_, fun _ _ _ _ => ?_⟩
    · rw [deferOn_localSense, State.resensed_localSense, hsense]
    · exact hrec.congr (by rw [deferOn_evt, State.resensed_evt])
    · rw [deferOn_clState, State.resensed_clState]
  · refine ⟨_, hex, hsense, hrec, fun hd hps hcl hpow => absurd ?_ hoff⟩
    have hreg (a : Nat) (ha : a ∉ eventRegs) : (recordEvent (s.sensedRemotely domain) 0x040E 0 domain 0 0).reg a = s.reg a :=
      recordEvent_reg _ _ _ _ _ _ ha
    have hps' : (recordEvent (s.sensedRemotely domain) 0x040E 0 domain 0 0).psState = psOn :=
      (psState_of_reg (hreg _ (by decide))).trans hps
    have hcl' : (recordEvent (s.sensedRemotely domain) 0x040E 0 domain 0 0).clState domain = clOff :=
      (congrArg (getBits · 31 29) (hreg _ (pwrCl_notMem_eventRegs hd))).trans hcl
    have hpow' : (recordEvent (s.sensedRemotely domain) 0x040E 0 domain 0 0).powered domain = true := by
      unfold State.powered State.usable at *
      rwa [recordEvent_plan]
    simp [hd, hps', hcl', hpow']

end

theorem exec_pwrDomClr {s : State} {domain : Nat} (h : domain < 640) :
    exec (.pwrDomClr domain) s = .next ((s.setFld (domReg domain) 31 16 0xFFFF).setReg64 (domReg domain + 1) 0) := by
  change Host.Outcome.next (clearDomain s domain) = _
  unfold clearDomain
  rw [if_neg (by omega)]

theorem pwrDomClr_shown (s : State) (domain : Nat) :
    let t := (s.setFld (domReg domain) 31 16 0xFFFF).setReg64 (domReg domain + 1) 0
    t.fld (domReg domain) 31 16 = 0xFFFF ∧ t.reg64 (domReg domain + 1) = 0 ∧
      s.RegsOnly t [domReg domain, domReg domain + 1, domReg domain + 2] := by
  have hset := State.setReg64_regsOnly (s.setFld (domReg domain) 31 16 0xFFFF) (domReg domain + 1) 0
  refine ⟨?_, (State.reg64_setReg64 _ _ _).trans (Nat.zero_mod _), ?_⟩
  · rw [hset.1.fld (by simp; omega), State.fld_setFld_same _ _ _ (by decide) (by decide)]
    rfl
  · exact ((s.setFld_regsOnly ..).mono (by simp)).trans (hset.mono (by simp))

/-- Settles O54: a loss by what it strips, and each fault of the delivery by the cases of its command. -/
theorem powerFaultsAreContained : Obligations.PowerFaultsAreContained := by
  refine ⟨?presence, ?input, ?overvoltage, ?overcurrent, ?envelope, ?mainOff, fun s => exec_mainOff_off, fun s => powerDownStepDone_shown,
    ?aux, fun s k => converterFailed_shown, fun s cluster phase => phaseFailed_shown, ?tied, fun s => railFault_shown,
    fun s cluster volts duration => domainUv_shown volts duration, ?sense, fun s domain => senseRestored_shown,
    fun s domain h => ⟨_, exec_pwrDomClr h, pwrDomClr_shown s domain⟩⟩
  case presence => exact fun s volts hen => ⟨_, exec_presenceLost hen volts, presenceLost_shown volts⟩
  case input => exact fun s volts hen => ⟨_, exec_mainLost hen _, mainLost_input_shown s volts _ _⟩
  case overvoltage => exact fun s peak hen => ⟨_, exec_mainLost hen _, loseMain_gone ..⟩
  case overcurrent => exact fun s peak fast hen => ⟨_, exec_mainLost hen _, loseMain_gone .., loseMain_lockedAt ..⟩
  case envelope =>
    intro s entering volts hne
    have hset : s.RegsOnly (s.setBit Reg.PWR_STATUS 30 entering) [Reg.PWR_STATUS] := s.setFld_regsOnly ..
    refine ⟨_, exec_inputOutOfEnvelope hne volts, ?_, hset.records _ _ _ _ _, hset.events.trans (recordEvent_frame ..)⟩
    rw [recordEvent_fld _ _ _ _ _ _ _ _ (by decide), State.setBit, State.fld_setFld_same _ _ _ le_rfl (by decide)]
    cases entering <;> rfl
  case mainOff =>
    exact fun s hon => ⟨_, exec_mainOff_on hon, State.falling_shown _ (setSignal_signal_same _ (by decide) false)⟩
  case aux =>
    intro s
    obtain ⟨hevt, hcard, hfuses, -⟩ := wipeMain_kept_parts s
    refine ⟨_, exec_auxLost s, rfl, rfl, rfl, ?_, ?_, ?_, ?_, rfl, fun ti => ?_⟩
    · rw [State.unpowered_log, hevt]
    · rw [State.unpowered_card, hcard]
    · rw [State.unpowered_card, hcard]
    · rw [State.unpowered_fuses, hfuses]
    · rw [State.unpowered_tile]
      exact wipeMain_tile_empty s ti
  case tied =>
    intro s cluster rail hc hrail hdead hlit
    have hex := exec_dieRegTied hc hrail hdead hlit
    split_ifs at hex with hpartner
    · exact ⟨_, hex, fun hne => absurd hpartner hne, fun _ => bothDark _ hc⟩
    · exact ⟨_, hex, fun _ => tied_shown hc hrail _ _, fun h => absurd h hpartner⟩
  case sense =>
    intro s domain hd h
    have hclock : s.SameClock (s.sensedLocally domain) := {}
    refine ⟨_, exec_senseFault hd h, ?_, hclock.records _ _ _ _ _, fun a ha => recordEvent_reg _ _ _ _ _ _ ha⟩
    rw [recordEvent_pwr]
    rfl

end Sys2Proof.Machine

namespace Sys2Proof.Machine

/-! ## What the thermal manager has measured and predicted (15) -/

/-- The predictions, the used values and the coolant of the thermal manager. -/
def Thermal.sensed (x : Thermal) : Thermal :=
  { Thermal.init with nodes := x.nodes, predicted := x.predicted, used := x.used, flows := x.flows, rises := x.rises, stopped := x.stopped, fcool := x.fcool, reduced := x.reduced }

/-- The measured values stay, and the registers of a set read as before. -/
structure State.HeatKept (P : Nat → Prop) (s t : State) : Prop where
  sensed : t.thm.sensed = s.thm.sensed
  fixes : s.Fixes P t

namespace State.HeatKept
variable {P Q : Nat → Prop} {s t u : State}

theorem refl (P : Nat → Prop) (s : State) : s.HeatKept P s := ⟨rfl, .refl P s⟩

theorem trans (h : s.HeatKept P t) (k : t.HeatKept P u) : s.HeatKept P u := ⟨k.sensed.trans h.sensed, h.fixes.trans k.fixes⟩

/-- A change that leaves the measured values, the registers and the recorder. -/
theorem upd (h : s.HeatKept P t) (ht : u.thm.sensed = t.thm.sensed := by rfl) (hr : u.regs = t.regs := by rfl) (he : u.evt = t.evt := by rfl) :
    s.HeatKept P u := ⟨ht.trans h.sensed, h.fixes.upd hr he⟩

theorem setReg (h : s.HeatKept P t) {a : Nat} {v : Word} (k : ¬P a) : s.HeatKept P (t.setReg a v) := ⟨h.sensed, h.fixes.setReg k⟩

theorem setFld (h : s.HeatKept P t) {a hi lo v : Nat} (k : ¬P a) : s.HeatKept P (t.setFld a hi lo v) := h.setReg k

theorem count (h : s.HeatKept P t) {a n : Nat} (k : ¬P a) : s.HeatKept P (t.count a n) := h.setReg k

theorem recordEvent (h : s.HeatKept P t) (k : ∀ a ∈ eventRegs, ¬P a) (code source p0 p1 p2 : Nat) :
    s.HeatKept P (recordEvent t code source p0 p1 p2) :=
  ⟨(congrArg Thermal.sensed (recordEvent_thm ..)).trans h.sensed, h.fixes.recordEvent k ..⟩

theorem foldl {α : Type} {g : State → α → State} {l : List α} (h : s.HeatKept P t) (k : ∀ (x : State) a, a ∈ l → x.HeatKept P (g x a)) :
    s.HeatKept P (l.foldl g t) := List.foldlRecOn l g h fun x hx a ha => hx.trans (k x a ha)

theorem ite {c : Prop} [Decidable c] (h : s.HeatKept P t) (k : s.HeatKept P u) : s.HeatKept P (if c then t else u) := by
  split
  · exact h
  · exact k

variable (h : s.HeatKept P t)
include h

theorem predicted : t.thm.predicted = s.thm.predicted := (congrArg Thermal.predicted h.sensed :)
theorem used : t.thm.used = s.thm.used := (congrArg Thermal.used h.sensed :)
theorem nodes : t.thm.nodes = s.thm.nodes := (congrArg Thermal.nodes h.sensed :)
theorem flows : t.thm.flows = s.thm.flows := (congrArg Thermal.flows h.sensed :)
theorem rises : t.thm.rises = s.thm.rises := (congrArg Thermal.rises h.sensed :)
theorem stopped : t.thm.stopped = s.thm.stopped := (congrArg Thermal.stopped h.sensed :)
theorem fcool : t.thm.fcool = s.thm.fcool := (congrArg Thermal.fcool h.sensed :)
theorem reduced : t.thm.reduced = s.thm.reduced := (congrArg Thermal.reduced h.sensed :)

theorem meanFlow : t.meanFlow = s.meanFlow := by
  unfold State.meanFlow
  rw [h.flows]

end State.HeatKept

/-! ### A cap that falls, and a round that is dropped -/

section
variable (s : State)

theorem State.withThm_heat {P : Nat → Prop} {x : Thermal} (h : x.sensed = s.thm.sensed) : s.HeatKept P (s.withThm x) := ⟨h, (State.Fixes.refl P s).upd⟩

theorem setCap_heat {P : Nat → Prop} (hcap : ¬P Reg.THM_CAP_NOW) (h : Half) (v : Rat) : s.HeatKept P (setCap s h v) := by
  cases h with
  | west =>
    rw [setCap_west]
    exact ((State.HeatKept.refl P s).setFld hcap).trans (State.withThm_heat _ rfl)
  | east =>
    rw [setCap_east]
    exact ((State.HeatKept.refl P s).setFld hcap).trans (State.withThm_heat _ rfl)

theorem lowerCap_heat {P : Nat → Prop} (hcap : ¬P Reg.THM_CAP_NOW) (h : Half) : s.HeatKept P (lowerCap s h) := by
  rw [lowerCap_eq]
  exact .ite ((setCap_heat s hcap h _).upd) (.refl P s)

theorem lowerCaps_heat {P : Nat → Prop} (hcap : ¬P Reg.THM_CAP_NOW) : s.HeatKept P (lowerCaps s) :=
  (lowerCap_heat s hcap .west).trans (lowerCap_heat _ hcap .east)

/-- The registers that the coolant shows in, and the signals. -/
def CoolReg (a : Nat) : Prop := a ∈ [Reg.THM_STATUS, Reg.THM_FLOW, Reg.THM_COOL_TEMP, Reg.MGT_SIGNALS]

theorem not_coolReg_event : ∀ a ∈ eventRegs, ¬CoolReg a := by
  unfold CoolReg
  decide

theorem State.requestEnded_heat (x : Session) (q : Request) (status : Nat) : s.HeatKept CoolReg (s.requestEnded x q status) := by
  have hthm : (s.requestEnded x q status).thm = s.thm := by rw [s.requestEnded_frame, recordEvent_thm]
  have hevt : (s.requestEnded x q status).evt = (recordEvent s 0x0602 0 x.id status (q.last % 2 ^ 32)).evt := by rw [s.requestEnded_frame]
  refine ⟨congrArg Thermal.sensed hthm, fun a ha => ?_, fun e he => ?_⟩
  · refine s.requestEnded_reg x q status (fun h => not_coolReg_event a h ha) fun h => absurd (h ▸ ha) ?_
    unfold CoolReg
    decide
  · rw [hevt]
    exact recordEvent_staging he ..

theorem endRequest_heat (sid status : Nat) : s.HeatKept CoolReg (endRequest s sid status) := by
  cases hx : s.session? sid with
  | none =>
    unfold endRequest
    rw [hx]
    exact .refl _ s
  | some x =>
    cases hq : x.request with
    | none =>
      rw [endRequest_none hx hq]
      exact .refl _ s
    | some q =>
      rw [endRequest_some hx hq]
      exact (s.requestEnded_heat x q status).upd

theorem noteDrop_heat (sid cause round : Nat) : s.HeatKept CoolReg (noteDrop s sid cause round) := by
  have hreg : ¬CoolReg Reg.ADM_STEPS_DROPPED := by
    unfold CoolReg
    decide
  exact ((State.HeatKept.refl _ s).count hreg).recordEvent not_coolReg_event ..

theorem State.setStep_heat {P : Nat → Prop} (sid reqId num : Nat) (v : StepState) : s.HeatKept P (s.setStep sid reqId num v) := by
  rw [s.setStep_frame]
  exact (State.HeatKept.refl P s).upd

theorem dropBatch_heat (b : Batch) (cause : Nat) : s.HeatKept CoolReg (dropBatch s b cause) := by
  unfold dropBatch
  refine (State.HeatKept.refl _ s).upd.foldl fun x m _ => .ite ?_ (noteDrop_heat x ..)
  have hwait : x.HeatKept CoolReg ((noteDrop x m.session cause x.round).setStep m.session m.reqId m.step .waiting) :=
    (noteDrop_heat x ..).trans (State.setStep_heat ..)
  exact .ite (hwait.trans (endRequest_heat ..)) (.ite (hwait.trans (endRequest_heat ..)) hwait)

theorem abandonTile_heat (ti : Nat) : s.HeatKept CoolReg (abandonTile s ti) := by
  have hreg (off : Nat) : ¬CoolReg (tileReg ti off) := by
    unfold CoolReg tileReg tilePages
    simp only [List.mem_cons, List.not_mem_nil, or_false, Reg.THM_STATUS, Reg.THM_FLOW, Reg.THM_COOL_TEMP, Reg.MGT_SIGNALS]
    omega
  unfold abandonTile clearHeld
  exact ((State.HeatKept.refl _ s).upd.setFld (hreg _)).setReg (hreg _)

theorem dropRound_heat : s.HeatKept CoolReg (dropRound s) :=
  ((State.HeatKept.refl _ s).foldl fun x b _ => dropBatch_heat x b _).foldl fun x ti _ => abandonTile_heat x ti

end

/-! ## A cap exceeded, and a guard lifted (15 R450, R454) -/

section
variable {s : State}

theorem exec_spotGuardLift {cluster : Nat} (hin : cluster ∈ s.thm.guard) (hwell : cluster ∉ s.thm.unwell) :
    exec (.spotGuardLift cluster) s = .next ((s.withThm { s.thm with guard := s.thm.guard.filter (fun c => decide (c ≠ cluster)) }).setBit
      Reg.THM_STATUS 30 (!(s.thm.guard.filter (fun c => decide (c ≠ cluster))).isEmpty)) := by
  change execSpotGuardLift cluster s = _
  exact if_pos (by simp [hin, hwell])

theorem spotGuardLift_shown {cluster : Nat} (hin : cluster ∈ s.thm.guard) (hwell : cluster ∉ s.thm.unwell) :
    ∃ t, exec (.spotGuardLift cluster) s = .next t ∧ t.thm.guard = s.thm.guard.filter (fun c => decide (c ≠ cluster)) ∧
      t.fld Reg.THM_STATUS 30 30 = (if t.thm.guard = [] then 0 else 1) ∧ s.RegsFrame t [Reg.THM_STATUS] := by
  refine ⟨_, exec_spotGuardLift hin hwell, rfl, ?_, fun a ha => State.reg_setFld_ne _ _ _ _ (by simpa using ha)⟩
  refine (State.fld_setFld_same _ _ _ le_rfl (by decide)).trans ?_
  change (if (!(s.thm.guard.filter (fun c => decide (c ≠ cluster))).isEmpty) = true then 1 else 0) % 2 ^ 1 =
    if s.thm.guard.filter (fun c => decide (c ≠ cluster)) = [] then 0 else 1
  cases s.thm.guard.filter (fun c => decide (c ≠ cluster)) <;> rfl

/-- The hottest cluster is one whose VCL can fall. -/
theorem State.hottest_some {h : Half} {ci : Nat} (hci : s.hottest h = some ci) : ci < 144 ∧ 0 < s.vset ci := by
  have hstep (a : Option Nat) (c : Nat) (hc : c ∈ List.range 144) (own : Bool) {ci : Nat}
      (hci : (if own && s.drawing c && decide (0 < s.vset c) then
          match a with
          | none => some c
          | some d => if s.dieTemp d < s.dieTemp c then some c else a
        else a) = some ci) (ha : ∀ {ci}, a = some ci → ci < 144 ∧ 0 < s.vset ci) : ci < 144 ∧ 0 < s.vset ci := by
    split at hci
    next hok =>
      have hown : c < 144 ∧ 0 < s.vset c := ⟨List.mem_range.1 hc, by simpa using (Bool.and_eq_true_iff.1 hok).2⟩
      cases a with
      | none => exact Option.some.inj hci ▸ hown
      | some d =>
        dsimp only at hci
        split at hci
        · exact Option.some.inj hci ▸ hown
        · exact ha hci
    · exact ha hci
  unfold State.hottest at hci
  exact List.foldlRecOn (motive := fun a => ∀ {ci}, a = some ci → ci < 144 ∧ 0 < s.vset ci) _ _ (fun h => by cases h)
    (fun a ha c hc _ hci => hstep a c hc _ hci ha) hci

theorem stepVset_vset {ci : Nat} (h : 0 < s.vset ci) : (stepVset s ci).vset ci < s.vset ci ∧ s.vset ci ≤ (stepVset s ci).vset ci + 5 := by
  have hlt : s.vset ci < 2 ^ 7 := getBits_lt _ 6 0
  have hset : (stepVset s ci).vset ci = s.vset ci - (1 + s.takeFree.1.toNat % 5) := by
    refine (State.fld_setFld_same _ _ _ (by decide) (by decide)).trans (Nat.mod_eq_of_lt ?_)
    omega
  omega

theorem stepVset_regsFrame (s : State) (ci : Nat) : s.RegsFrame (stepVset s ci) [Reg.PWR_CL + ci] := fun a ha =>
  State.reg_setFld_ne s.takeFree.2 _ _ _ (by simpa using ha)

/-- The bonded share of a stack falls to what is left. -/
def State.sharing (s : State) (h : Half) (left : Rat) : State :=
  match h with
  | .west => s.withThm { s.thm with shareW := left }
  | .east => s.withThm { s.thm with shareE := left }

def State.shareOf (s : State) (h : Half) : Rat :=
  match h with
  | .west => s.thm.shareW
  | .east => s.thm.shareE

theorem exec_capExceeded {h : Half} {power : Nat} (hover : s.capOf h < power) (hon : s.psState = psOn) : exec (.capExceeded h power) s =
    if (power : Rat) - s.capOf h ≤ s.shareOf h then .next (s.sharing h (max 0 (s.shareOf h - ((power : Rat) - s.capOf h))))
    else match (s.sharing h (max 0 (s.shareOf h - ((power : Rat) - s.capOf h)))).hottest h with
      | some ci => .next (stepVset (s.sharing h (max 0 (s.shareOf h - ((power : Rat) - s.capOf h)))) ci)
      | none => .next (s.sharing h (max 0 (s.shareOf h - ((power : Rat) - s.capOf h)))) := by
  change execCapExceeded h power s = _
  unfold execCapExceeded
  rw [if_neg (by simp [hon, hover])]
  cases h <;> rfl

theorem State.sharing_hottest (s : State) (h : Half) (left : Rat) : (s.sharing h left).hottest h = s.hottest h := by
  cases h <;> rfl

theorem stepVset_thm (s : State) (ci : Nat) : (stepVset s ci).thm = s.thm := rfl

/-- A cap exceeded answers with a state whose shares are lowered, and whose set-points fall only when the share is used up. -/
theorem capExceeded_shown {h : Half} {power : Nat} (hover : s.capOf h < power) (hon : s.psState = psOn) :
    ∃ t, exec (.capExceeded h power) s = .next t ∧ t.thm = (s.sharing h (max 0 (s.shareOf h - ((power : Rat) - s.capOf h)))).thm ∧
      ((power : Rat) - s.capOf h ≤ s.shareOf h → t.regs = s.regs) ∧
      (s.shareOf h < (power : Rat) - s.capOf h → ∀ ci, s.hottest h = some ci →
        t.vset ci < s.vset ci ∧ s.vset ci ≤ t.vset ci + 5 ∧ s.RegsFrame t [Reg.PWR_CL + ci]) := by
  have hex := exec_capExceeded hover hon
  have hregs (left : Rat) : (s.sharing h left).regs = s.regs := by cases h <;> rfl
  by_cases hfits : (power : Rat) - s.capOf h ≤ s.shareOf h
  · rw [if_pos hfits] at hex
    exact ⟨_, hex, rfl, fun _ => hregs _, fun hlt => absurd hfits (not_le.2 hlt)⟩
  · rw [if_neg hfits, State.sharing_hottest] at hex
    cases hhot : s.hottest h with
    | none =>
      rw [hhot] at hex
      exact ⟨_, hex, rfl, fun hle => absurd hle hfits, fun _ ci hci => by cases hci⟩
    | some c =>
      rw [hhot] at hex
      refine ⟨_, hex, stepVset_thm .., fun hle => absurd hle hfits, fun _ ci hci => ?_⟩
      obtain rfl := Option.some.inj hci
      have hv (left : Rat) : (s.sharing h left).vset c = s.vset c := State.fld_congr (hregs left) ..
      have hpos := (State.hottest_some hhot).2
      rw [← hv (max 0 (s.shareOf h - ((power : Rat) - s.capOf h)))] at hpos ⊢
      obtain ⟨hlt, hle⟩ := stepVset_vset hpos
      exact ⟨hlt, hle, fun a ha => (stepVset_regsFrame _ c a ha).trans (State.reg_congr (hregs _) a)⟩

end

end Sys2Proof.Machine

namespace Sys2Proof.Machine

/-! ## The coolant (15 R460-R463) -/

section
variable (s : State)

/-- The recorded flow and the rise of the temperature, without the factor that they give. -/
def Thermal.sampled (x : Thermal) (flow : Nat) (rise : Int) : Thermal :=
  { x with flows := window100 x.flows flow, rises := window100 x.rises rise, stopped := if flow < 40 then x.stopped + 1 else 0 }

/-- A sample of the coolant as its registers show it. -/
def State.flowShown (flow : Nat) (inlet outlet : Int) : State :=
  let t := s.withThm (s.thm.sampled flow (outlet - inlet))
  ((t.setReg Reg.THM_COOL_TEMP (BitVec.ofNat 32 (field16 outlet * 65536 + field16 inlet))).setFld Reg.THM_FLOW 15 0
    (min 65535 t.meanFlow.floor.toNat)).setFld Reg.THM_FLOW 25 16 (coolFactor t.meanFlow inlet * 1000).floor.toNat

/-- The inlet temperature leaves its range or comes back to it. -/
def State.inletNoted (inlet : Int) : State :=
  if decide (s.fld Reg.THM_STATUS 29 29 = 1) = !inletGood inlet then s
  else recordEvent (s.setBit Reg.THM_STATUS 29 (!inletGood inlet)) 0x050C 0 (if !inletGood inlet then 1 else 0) (tempParam inlet) 0

/-- The factor falls below 1 or comes back to it. -/
def State.reducedNoted (low : Bool) : State :=
  if s.thm.reduced = low then s
  else recordEvent (s.withThm { s.thm with reduced := low }) 0x0505 0 (if low then 1 else 0) (s.fld Reg.THM_FLOW 15 0) (s.fld Reg.THM_FLOW 25 16)

/-- The factor that a sample gives. -/
def State.newFactor (flow : Nat) (inlet outlet : Int) : Rat := coolFactor (s.withThm (s.thm.sampled flow (outlet - inlet))).meanFlow inlet

def State.factorSet (f : Rat) : State := s.withThm { s.thm with fcool := f }

/-- A sample of the coolant, before the caps fall. -/
def State.cooled (flow : Nat) (inlet outlet : Int) : State :=
  settleReduced ((((s.flowShown flow inlet outlet).inletNoted inlet).reducedNoted (decide (s.newFactor flow inlet outlet < 1))).factorSet
    (s.newFactor flow inlet outlet))

theorem exec_coolantSample {s : State} (h : s.pwr.auxOn = true) (flow : Nat) (inlet outlet : Int) :
    exec (.coolantSample flow inlet outlet) s =
      if (lowerCaps (s.cooled flow inlet outlet)).thState = thNormal ∨ (lowerCaps (s.cooled flow inlet outlet)).thState = thReduced then
        match (lowerCaps (s.cooled flow inlet outlet)).lossTrigger with
        | some k => .next (loseCoolant (lowerCaps (s.cooled flow inlet outlet)) k)
        | none => .next (lowerCaps (s.cooled flow inlet outlet))
      else .next (lowerCaps (s.cooled flow inlet outlet)) := by
  change execCoolantSample flow inlet outlet s = _
  unfold execCoolantSample
  rw [if_neg (by simp [h])]
  rfl

theorem State.withThm_thm (x : Thermal) : (s.withThm x).thm = x := rfl
theorem State.withThm_reg (x : Thermal) (a : Nat) : (s.withThm x).reg a = s.reg a := rfl

theorem thState_of_reg {s t : State} (h : t.reg Reg.THM_STATUS = s.reg Reg.THM_STATUS) : t.thState = s.thState := congrArg (getBits · 2 0) h

theorem settleReduced_thm : (settleReduced s).thm = s.thm := by
  unfold settleReduced
  split
  · exact State.setFld_thm ..
  · rfl

theorem settleReduced_regsOnly : s.RegsOnly (settleReduced s) [Reg.THM_STATUS] := by
  unfold settleReduced
  split
  · exact s.setFld_regsOnly ..
  · exact ⟨State.RegsFrame.refl s _, rfl⟩

theorem settleReduced_bit {hi lo : Nat} (h : 2 < lo) : (settleReduced s).fld Reg.THM_STATUS hi lo = s.fld Reg.THM_STATUS hi lo := by
  unfold settleReduced
  split
  · exact State.fld_setFld_disjoint _ _ _ (by decide) (by decide) (.inr h)
  · rfl

theorem State.thState_setTh {v : Nat} (h : v < 8) : (s.setTh v).thState = v :=
  (s.fld_setFld_same _ _ (by decide) (by decide)).trans (Nat.mod_eq_of_lt h)

/-- While nothing worse holds, the factor gives the state. -/
theorem settleReduced_thState {s : State} (h : s.thState = thNormal ∨ s.thState = thReduced) :
    (settleReduced s).thState = if s.thm.reduced then thReduced else thNormal := by
  unfold settleReduced
  rw [if_pos h]
  exact s.thState_setTh (by split <;> decide)

section
variable (flow : Nat) (inlet outlet : Int)

theorem State.inletNoted_thm : (s.inletNoted inlet).thm = s.thm := by
  unfold State.inletNoted
  split
  · rfl
  · rw [recordEvent_thm, State.setBit_thm]

theorem State.reducedNoted_thm (low : Bool) : (s.reducedNoted low).thm = { s.thm with reduced := low } := by
  unfold State.reducedNoted
  split
  next h => rw [← h]
  next => rw [recordEvent_thm, State.withThm_thm]

theorem State.inletNoted_reg {a : Nat} (h : a ≠ Reg.THM_STATUS) (hev : a ∉ eventRegs) : (s.inletNoted inlet).reg a = s.reg a := by
  unfold State.inletNoted
  split
  · rfl
  · exact (recordEvent_reg _ _ _ _ _ _ hev).trans (State.reg_setFld_ne _ _ _ _ h)

theorem State.reducedNoted_reg (low : Bool) {a : Nat} (hev : a ∉ eventRegs) : (s.reducedNoted low).reg a = s.reg a := by
  unfold State.reducedNoted
  split
  · rfl
  · exact (recordEvent_reg _ _ _ _ _ _ hev).trans (s.withThm_reg _ a)

theorem State.inletNoted_bit : (s.inletNoted inlet).fld Reg.THM_STATUS 29 29 = if inletGood inlet then 0 else 1 := by
  have hlt : s.fld Reg.THM_STATUS 29 29 < 2 := getBits_lt _ 29 29
  unfold State.inletNoted
  split
  next h =>
    cases hgood : inletGood inlet with
    | true =>
      rw [hgood] at h
      have h0 : s.fld Reg.THM_STATUS 29 29 ≠ 1 := of_decide_eq_false h
      exact (by omega : s.fld Reg.THM_STATUS 29 29 = 0)
    | false =>
      rw [hgood] at h
      exact of_decide_eq_true h
  next =>
    rw [recordEvent_fld _ _ _ _ _ _ _ _ (by decide), State.setBit, State.fld_setFld_same _ _ _ le_rfl (by decide)]
    cases inletGood inlet <;> rfl

theorem State.inletNoted_thState : (s.inletNoted inlet).thState = s.thState := by
  unfold State.inletNoted
  split
  · rfl
  · exact (recordEvent_fld _ _ _ _ _ _ _ _ (by decide)).trans (State.fld_setFld_disjoint _ _ _ le_rfl (by decide) (.inl (by decide)))

theorem State.flowShown_thm : (s.flowShown flow inlet outlet).thm = s.thm.sampled flow (outlet - inlet) := rfl

theorem State.flowShown_temp :
    (s.flowShown flow inlet outlet).reg Reg.THM_COOL_TEMP = BitVec.ofNat 32 (field16 outlet * 65536 + field16 inlet) := by
  unfold State.flowShown
  dsimp only
  rw [State.reg_setFld_ne _ _ _ _ (by decide), State.reg_setFld_ne _ _ _ _ (by decide), State.reg_setReg_same]

theorem State.flowShown_flow : (s.flowShown flow inlet outlet).fld Reg.THM_FLOW 15 0 =
    min 65535 (s.withThm (s.thm.sampled flow (outlet - inlet))).meanFlow.floor.toNat := by
  unfold State.flowShown
  dsimp only
  rw [State.fld_setFld_disjoint _ _ _ (by decide) (by decide) (.inl (by decide)), State.fld_setFld_same _ _ _ (by decide) (by decide)]
  exact Nat.mod_eq_of_lt (by omega)

theorem State.flowShown_status : (s.flowShown flow inlet outlet).reg Reg.THM_STATUS = s.reg Reg.THM_STATUS := by
  unfold State.flowShown
  dsimp only
  rw [State.reg_setFld_ne _ _ _ _ (by decide), State.reg_setFld_ne _ _ _ _ (by decide), State.reg_setReg_ne _ _ (by decide), State.withThm_reg]

/-- The mean flow of a state depends on its samples. -/
theorem meanFlow_of_flows {s t : State} (h : t.thm.flows = s.thm.flows) : t.meanFlow = s.meanFlow := by
  unfold State.meanFlow
  rw [h]

theorem State.factorSet_thm (f : Rat) : (s.factorSet f).thm = { s.thm with fcool := f } := rfl
theorem State.factorSet_fld (f : Rat) (a hi lo : Nat) : (s.factorSet f).fld a hi lo = s.fld a hi lo := rfl
theorem State.factorSet_reg (f : Rat) (a : Nat) : (s.factorSet f).reg a = s.reg a := rfl

theorem State.cooled_thm : (s.cooled flow inlet outlet).thm = { s.thm.sampled flow (outlet - inlet) with
    reduced := decide (s.newFactor flow inlet outlet < 1), fcool := s.newFactor flow inlet outlet } := by
  rw [State.cooled, settleReduced_thm, State.factorSet_thm, State.reducedNoted_thm, State.inletNoted_thm, State.flowShown_thm]

theorem State.cooled_fcool : (s.cooled flow inlet outlet).thm.fcool = s.newFactor flow inlet outlet := by rw [State.cooled_thm]

theorem State.cooled_meanFlow : (s.cooled flow inlet outlet).meanFlow = (s.withThm (s.thm.sampled flow (outlet - inlet))).meanFlow := by
  apply meanFlow_of_flows
  rw [State.cooled_thm, State.withThm_thm]

theorem State.cooled_reg {a : Nat} (h : a ≠ Reg.THM_STATUS) (hev : a ∉ eventRegs) :
    (s.cooled flow inlet outlet).reg a = (s.flowShown flow inlet outlet).reg a := by
  rw [State.cooled, (settleReduced_regsOnly _).1 a (by simpa using h), State.factorSet_reg, State.reducedNoted_reg _ _ hev, State.inletNoted_reg _ _ h hev]

theorem State.cooled_bit : (s.cooled flow inlet outlet).fld Reg.THM_STATUS 29 29 = if inletGood inlet then 0 else 1 := by
  rw [State.cooled, settleReduced_bit _ (by decide), State.factorSet_fld, State.fld, State.reducedNoted_reg _ _ (by decide)]
  exact State.inletNoted_bit ..

theorem State.cooled_thState {s : State} (h : s.thState = thNormal ∨ s.thState = thReduced) :
    (s.cooled flow inlet outlet).thState = if (s.cooled flow inlet outlet).thm.fcool < 1 then thReduced else thNormal := by
  have hinlet : ((s.flowShown flow inlet outlet).inletNoted inlet).thState = s.thState :=
    ((s.flowShown flow inlet outlet).inletNoted_thState inlet).trans (thState_of_reg (s.flowShown_status ..))
  have hlow := ((s.flowShown flow inlet outlet).inletNoted inlet).reducedNoted_thm (decide (s.newFactor flow inlet outlet < 1))
  have hstate : (((s.flowShown flow inlet outlet).inletNoted inlet).reducedNoted (decide (s.newFactor flow inlet outlet < 1))).thState = s.thState :=
    (thState_of_reg (State.reducedNoted_reg _ _ (by decide))).trans hinlet
  rw [State.cooled_fcool, State.cooled]
  generalize ((s.flowShown flow inlet outlet).inletNoted inlet).reducedNoted _ = t at hlow hstate
  have hred : (t.factorSet (s.newFactor flow inlet outlet)).thm.reduced = decide (s.newFactor flow inlet outlet < 1) := by
    rw [State.factorSet_thm, hlow]
  rw [← hstate, ← thState_of_reg (t.factorSet_reg (s.newFactor flow inlet outlet) _)] at h
  rw [settleReduced_thState h, hred]
  exact if_congr decide_eq_true_iff rfl rfl

end

/-! ### The loss -/

/-- The loss of the coolant as its registers show it. -/
def State.lossShown : State := ((setSignal s 4 true).setFld Reg.THM_STATUS 31 31 1).setTh thLoss

theorem State.lossShown_thm : s.lossShown.thm = s.thm :=
  (State.setFld_thm _ Reg.THM_STATUS 2 0 thLoss).trans ((State.setFld_thm _ Reg.THM_STATUS 31 31 1).trans (setSignal_thm s 4 true))

theorem State.lossShown_thState : s.lossShown.thState = thLoss := State.thState_setTh _ (by decide)

theorem State.lossShown_signal : s.lossShown.signal 4 = true :=
  (State.signal_congr ((State.reg_setFld_ne _ _ _ _ (by decide)).trans (State.reg_setFld_ne _ _ _ _ (by decide))) 4).trans
    (setSignal_signal_same s (by decide) true)

theorem State.lossShown_lost : s.lossShown.fld Reg.THM_STATUS 31 31 = 1 :=
  (State.fld_setFld_disjoint _ _ _ (by decide) (by decide) (.inr (by decide))).trans (State.fld_setFld_same _ _ _ le_rfl (by decide))

theorem State.lossShown_inRange : s.lossShown.fld Reg.THM_STATUS 29 29 = s.fld Reg.THM_STATUS 29 29 := by
  have hsig : (setSignal s 4 true).fld Reg.THM_STATUS 29 29 = s.fld Reg.THM_STATUS 29 29 := State.fld_setFld_ne _ _ _ _ _ _ (by decide)
  unfold State.lossShown State.setTh
  rw [State.fld_setFld_disjoint _ _ _ (by decide) (by decide) (.inr (by decide)),
    State.fld_setFld_disjoint _ _ _ (by decide) (by decide) (.inl (by decide)), hsig]

theorem State.lossShown_reg {a : Nat} (h : a ≠ Reg.THM_STATUS) (hsig : a ≠ Reg.MGT_SIGNALS) : s.lossShown.reg a = s.reg a := by
  unfold State.lossShown State.setTh
  rw [State.reg_setFld_ne _ _ _ _ h, State.reg_setFld_ne _ _ _ _ h]
  exact State.reg_setFld_ne _ _ _ _ hsig

/-- The time of the loss. -/
def State.lossStamped : State := s.withThm { s.thm with lossAt := s.now }

/-- A round in progress is dropped, if rounds run. -/
def State.roundDropped : State := if s.roundsRun then (dropRound s).setFld Reg.ADM_STATUS 2 0 4 else s

theorem loseCoolant_eq (k : Nat) : loseCoolant s k =
    let t := (lowerCaps (recordEvent s.lossShown 0x0506 0 k (s.lossShown.fld Reg.THM_FLOW 15 0)
      (tempParam (s.lossShown.outlet - s.lossShown.inlet))).lossStamped).roundDropped
    ((List.range 144).filter (fun ci => t.drawing ci)).foldl (fun s ci => setVset s ci 20) t := rfl

theorem not_coolReg {a : Nat} (h : a ∉ [Reg.THM_STATUS, Reg.THM_FLOW, Reg.THM_COOL_TEMP, Reg.MGT_SIGNALS]) : ¬CoolReg a := h

theorem State.lossStamped_heat {P : Nat → Prop} : s.HeatKept P s.lossStamped := s.withThm_heat rfl

theorem State.roundDropped_heat : s.HeatKept CoolReg s.roundDropped :=
  .ite ((dropRound_heat s).setFld (not_coolReg (by decide))) (.refl _ s)

theorem setVset_heat {ci : Nat} (h : ci < 144) (v : Nat) : s.HeatKept CoolReg (setVset s ci v) := by
  refine (State.HeatKept.refl _ s).setFld (not_coolReg ?_)
  simp only [List.mem_cons, List.not_mem_nil, or_false, Reg.THM_STATUS, Reg.THM_FLOW, Reg.THM_COOL_TEMP, Reg.MGT_SIGNALS, Reg.PWR_CL]
  omega

theorem loseCoolant_heat (k : Nat) : s.lossShown.HeatKept CoolReg (loseCoolant s k) := by
  rw [loseCoolant_eq]
  refine State.HeatKept.foldl ?_ fun x ci hci => setVset_heat x (List.mem_range.1 (List.mem_filter.1 hci).1) 20
  exact (((State.HeatKept.refl _ _).recordEvent not_coolReg_event ..).trans (State.lossStamped_heat _)).trans
    ((lowerCaps_heat _ (not_coolReg (by decide))).trans (State.roundDropped_heat _))

/-- What loses the coolant shows in its samples and its temperatures. -/
theorem lossTrigger_congr {s t : State} (h : t.thm.sensed = s.thm.sensed) (hreg : t.reg Reg.THM_COOL_TEMP = s.reg Reg.THM_COOL_TEMP) :
    t.lossTrigger = s.lossTrigger := by
  have hflow : t.meanFlow = s.meanFlow := meanFlow_of_flows (congrArg Thermal.flows h :)
  have hrise : t.thm.rises = s.thm.rises := (congrArg Thermal.rises h :)
  have hstop : t.thm.stopped = s.thm.stopped := (congrArg Thermal.stopped h :)
  have hfld (hi lo : Nat) : t.fld Reg.THM_COOL_TEMP hi lo = s.fld Reg.THM_COOL_TEMP hi lo := congrArg (getBits · hi lo) hreg
  unfold State.lossTrigger State.outlet State.inlet
  simp only [hflow, hrise, hstop, hfld]

end

/-- A sample of the coolant shows in the state. -/
structure State.Sampled (s t : State) (flow : Nat) (inlet outlet : Int) : Prop where
  flows : t.thm.flows = window100 s.thm.flows flow
  fcool : t.thm.fcool = coolFactor t.meanFlow inlet
  temp : t.reg Reg.THM_COOL_TEMP = BitVec.ofNat 32 (field16 outlet * 65536 + field16 inlet)
  flow : t.fld Reg.THM_FLOW 15 0 = min 65535 t.meanFlow.floor.toNat
  inRange : t.fld Reg.THM_STATUS 29 29 = if inletGood inlet then 0 else 1

theorem CoolReg.of_mem {a : Nat} (h : a ∈ [Reg.THM_STATUS, Reg.THM_FLOW, Reg.THM_COOL_TEMP, Reg.MGT_SIGNALS]) : CoolReg a := h

section
variable {s t : State} (flow : Nat) (inlet outlet : Int)

theorem State.cooled_sampled : s.Sampled (s.cooled flow inlet outlet) flow inlet outlet where
  flows := by
    rw [State.cooled_thm]
    rfl
  fcool := by
    rw [State.cooled_meanFlow, State.cooled_thm]
    rfl
  temp := by rw [s.cooled_reg _ _ _ (by decide) (by decide), s.flowShown_temp]
  flow := by
    rw [State.fld, s.cooled_reg _ _ _ (by decide) (by decide), State.cooled_meanFlow]
    exact s.flowShown_flow ..
  inRange := s.cooled_bit ..

/-- A state with the same samples and registers shows the sample too. -/
theorem State.Sampled.congr {u : State} (h : s.Sampled t flow inlet outlet) (hsense : u.thm.sensed = t.thm.sensed)
    (hflow : u.reg Reg.THM_FLOW = t.reg Reg.THM_FLOW) (htemp : u.reg Reg.THM_COOL_TEMP = t.reg Reg.THM_COOL_TEMP)
    (hbit : u.fld Reg.THM_STATUS 29 29 = t.fld Reg.THM_STATUS 29 29) : s.Sampled u flow inlet outlet := by
  have hflows : u.thm.flows = t.thm.flows := (congrArg Thermal.flows hsense :)
  have hfcool : u.thm.fcool = t.thm.fcool := (congrArg Thermal.fcool hsense :)
  have hmean := meanFlow_of_flows hflows
  exact ⟨hflows.trans h.flows, hfcool.trans (h.fcool.trans (by rw [hmean])), htemp.trans h.temp,
    (congrArg (getBits · 15 0) hflow).trans (h.flow.trans (by rw [hmean])), hbit.trans h.inRange⟩

/-- The state once the caps have fallen. -/
theorem lowerCaps_cooled : (s.cooled flow inlet outlet).HeatKept CoolReg (lowerCaps (s.cooled flow inlet outlet)) :=
  lowerCaps_heat _ (not_coolReg (by decide))

theorem lowerCaps_cooled_thState (h : s.thState = thNormal ∨ s.thState = thReduced) : (lowerCaps (s.cooled flow inlet outlet)).thState =
    if (lowerCaps (s.cooled flow inlet outlet)).thm.fcool < 1 then thReduced else thNormal := by
  have hk := lowerCaps_cooled (s := s) flow inlet outlet
  rw [hk.fcool]
  exact (hk.fixes.fld (.of_mem (by decide)) 2 0).trans (State.cooled_thState flow inlet outlet h)

theorem coolantSample_shown (h : s.pwr.auxOn = true) : ∃ t, exec (.coolantSample flow inlet outlet) s = .next t ∧ s.Sampled t flow inlet outlet ∧
      (s.thState = thNormal ∨ s.thState = thReduced →
        (t.lossTrigger = none → t.thState = if t.thm.fcool < 1 then thReduced else thNormal) ∧
        (t.lossTrigger ≠ none → t.thState = thLoss ∧ t.signal 4 = true ∧ t.fld Reg.THM_STATUS 31 31 = 1)) := by
  have hex := exec_coolantSample h flow inlet outlet
  have hstate := lowerCaps_cooled_thState (s := s) flow inlet outlet
  have hk := lowerCaps_cooled (s := s) flow inlet outlet
  have hshown := (State.cooled_sampled (s := s) flow inlet outlet).congr _ _ _ hk.sensed (hk.fixes.regs _ (.of_mem (by decide)))
    (hk.fixes.regs _ (.of_mem (by decide))) (hk.fixes.fld (.of_mem (by decide)) 29 29)
  generalize lowerCaps (s.cooled flow inlet outlet) = u at hex hstate hshown
  by_cases hst : u.thState = thNormal ∨ u.thState = thReduced
  · rw [if_pos hst] at hex
    cases hloss : u.lossTrigger with
    | none =>
      rw [hloss] at hex
      exact ⟨u, hex, hshown, fun hs => ⟨fun _ => hstate hs, fun hne => absurd hloss hne⟩⟩
    | some k =>
      rw [hloss] at hex
      have hl := loseCoolant_heat u k
      have hsense := hl.sensed.trans (congrArg Thermal.sensed u.lossShown_thm)
      have hreg {a : Nat} (ha : a ∈ [Reg.THM_FLOW, Reg.THM_COOL_TEMP]) : (loseCoolant u k).reg a = u.reg a := by
        obtain rfl | rfl := List.mem_pair.1 ha
        · exact (hl.fixes.regs _ (.of_mem (by decide))).trans (u.lossShown_reg (by decide) (by decide))
        · exact (hl.fixes.regs _ (.of_mem (by decide))).trans (u.lossShown_reg (by decide) (by decide))
      have hbit := (hl.fixes.fld (.of_mem (by decide)) 29 29).trans u.lossShown_inRange
      have htrigger := (lossTrigger_congr hsense (hreg (by simp))).trans hloss
      refine ⟨_, hex, hshown.congr _ _ _ hsense (hreg (by simp)) (hreg (by simp)) hbit, fun _ => ⟨fun hn => ?_, fun _ => ⟨?_, ?_, ?_⟩⟩⟩
      · rw [htrigger] at hn
        cases hn
      · exact (hl.fixes.fld (.of_mem (by decide)) 2 0).trans u.lossShown_thState
      · exact (State.signal_congr (hl.fixes.regs _ (.of_mem (by decide))) 4).trans u.lossShown_signal
      · exact (hl.fixes.fld (.of_mem (by decide)) 31 31).trans u.lossShown_lost
  · rw [if_neg hst] at hex
    refine ⟨u, hex, hshown, fun hs => absurd ?_ hst⟩
    rw [hstate hs]
    split
    · exact .inr rfl
    · exact .inl rfl

end

/-! ### Its return, and the saved state -/

section
variable {s : State}

/-- The loss is over. -/
def State.lossOver (s : State) : State := ((setSignal s 4 false).setFld Reg.THM_STATUS 31 31 0).setTh thNormal

theorem exec_coolantRestored (hloss : s.thState = thLoss) (hflow : qFull s.inlet ≤ s.meanFlow) (hin : inletGood s.inlet = true)
    (hplan : s.belowPlan = true) : exec .coolantRestored s = .next (recordEvent (settleReduced s.lossOver) 0x050D 0
      (((settleReduced s.lossOver).now - (settleReduced s.lossOver).thm.lossAt) / 1000000 % 2 ^ 32)
      ((settleReduced s.lossOver).fld Reg.THM_FLOW 15 0) (tempParam (settleReduced s.lossOver).inlet)) := by
  change execCoolantRestored s = _
  unfold execCoolantRestored
  rw [if_neg (by simp [hloss, hin, hplan, not_lt.2 hflow])]
  rfl

theorem State.lossOver_regsOnly (s : State) : s.RegsOnly s.lossOver [Reg.THM_STATUS, Reg.MGT_SIGNALS] :=
  ((State.setFld_regsOnly_mem s (by decide)).trans (State.setFld_regsOnly_mem _ (by decide))).trans (State.setFld_regsOnly_mem _ (by decide))

theorem coolantRestored_shown (hloss : s.thState = thLoss) (hflow : qFull s.inlet ≤ s.meanFlow) (hin : inletGood s.inlet = true)
    (hplan : s.belowPlan = true) : ∃ t, exec .coolantRestored s = .next t ∧ t.thState = (if s.thm.reduced then thReduced else thNormal) ∧
      t.signal 4 = false ∧ t.fld Reg.THM_STATUS 31 31 = 0 ∧
      s.Records t (s.record 0x050D 0 ((s.now - s.thm.lossAt) / 1000000 % 2 ^ 32) (s.fld Reg.THM_FLOW 15 0) (tempParam s.inlet)) ∧
      s.RegsAndEvents t [Reg.THM_STATUS, Reg.MGT_SIGNALS] := by
  have hex := exec_coolantRestored hloss hflow hin hplan
  have hover := s.lossOver_regsOnly
  have hset := settleReduced_regsOnly s.lossOver
  have hregs : s.RegsOnly (settleReduced s.lossOver) [Reg.THM_STATUS, Reg.MGT_SIGNALS] := hover.trans (hset.mono (by decide))
  have hnormal : s.lossOver.thState = thNormal := State.thState_setTh _ (by decide)
  have hthm : (settleReduced s.lossOver).thm = s.thm := by rw [hregs.2]
  have hnow : (settleReduced s.lossOver).now = s.now := by rw [hregs.2]
  have hfld (a : Nat) (ha : a ∉ [Reg.THM_STATUS, Reg.MGT_SIGNALS]) (hi lo : Nat) : (settleReduced s.lossOver).fld a hi lo = s.fld a hi lo :=
    hregs.1.fld ha hi lo
  have hinlet : (settleReduced s.lossOver).inlet = s.inlet := congrArg signed16 (hfld _ (by decide) 15 0)
  rw [hthm, hnow, hinlet, hfld _ (by decide)] at hex
  refine ⟨_, hex, ?_, ?_, ?_, (State.SameClock.of_regsOnly hregs).records _ _ _ _ _, hregs.events.trans (recordEvent_frame ..)⟩
  · refine (recordEvent_fld _ _ _ _ _ _ _ _ (by decide)).trans ((settleReduced_thState (.inl hnormal)).trans ?_)
    rw [show s.lossOver.thm = s.thm by rw [hover.2]]
  · rw [State.signal_congr (recordEvent_reg _ _ _ _ _ _ (by decide)), State.signal_congr (hset.1 _ (by decide))]
    exact (State.signal_congr ((State.reg_setFld_ne _ _ _ _ (by decide)).trans (State.reg_setFld_ne _ _ _ _ (by decide))) 4).trans
      (setSignal_signal_same s (by decide) false)
  · rw [recordEvent_fld _ _ _ _ _ _ _ _ (by decide), settleReduced_bit _ (by decide)]
    exact (State.fld_setFld_disjoint _ _ _ (by decide) (by decide) (.inr (by decide))).trans (State.fld_setFld_same _ _ _ le_rfl (by decide))

theorem exec_stateSave (h : s.pwr.auxOn = true) : exec .stateSave s = .next (saveState s none) := if_pos h

theorem stateSave_shown (h : s.pwr.auxOn = true) (hcard : s.fld Reg.CFG_STATUS 31 31 = 1) :
    ∃ t, exec .stateSave s = .next t ∧ s.Saved t ∧ t.regs = s.regs := by
  obtain ⟨r, hslot, htotal, hfatigue, -⟩ := saveState_saved hcard none
  exact ⟨_, exec_stateSave h, ⟨r, hslot, htotal, hfatigue⟩, by rw [saveState_card]⟩

end

end Sys2Proof.Machine

namespace Sys2Proof.Machine

/-! ## A thermal trip (15 R464) -/

section
variable (s : State)

/-- The loss of main power clears only one bit of the thermal status. -/
theorem wipeMain_thState : (wipeMain s).thState = s.thState := by
  have hspot : s.strippedShown.fld Reg.THM_STATUS 2 0 = s.stripped.fld Reg.THM_STATUS 2 0 := by
    unfold State.strippedShown
    extract_lets t1 t2
    have hne (t : State) (e : Nat × Word) (he : e ∈ t2.regs.filter (fun e => decide (Reg.THM_SPOT ≤ e.1) && decide (e.1 < Reg.THM_SPOT + 1296))) :
        (t.setFld e.1 31 28 0).fld Reg.THM_STATUS 2 0 = t.fld Reg.THM_STATUS 2 0 := by
      have hb := (List.mem_filter.1 he).2
      simp only [Bool.and_eq_true, decide_eq_true_eq] at hb
      exact State.fld_setFld_ne _ _ _ _ _ _ (fun h => by rw [← h] at hb; exact absurd hb.1 (by decide))
    rw [foldl_keeps (f := fun t : State => t.fld Reg.THM_STATUS 2 0) hne, State.fld_setFld_disjoint _ _ _ le_rfl (by decide) (.inl (by decide))]
    have h2 : t2.fld Reg.THM_STATUS 2 0 = t1.fld Reg.THM_STATUS 2 0 := by
      refine congrArg (getBits · 2 0) (((State.resetRegs_regsOnly_mem _ (List.mem_singleton_self _)).1 _ (by decide)).trans ?_)
      exact (State.reg_setReg_ne _ _ (by decide)).trans (State.reg_setFld_ne _ _ _ _ (by decide))
    have h1 : t1.fld Reg.THM_STATUS 2 0 = s.stripped.fld Reg.THM_STATUS 2 0 :=
      congrArg (getBits · 2 0) ((State.reg_setFld_ne _ _ _ _ (by decide)).trans ((State.reg_setFld_ne _ _ _ _ (by decide)).trans
        (State.reg_setFld_ne _ _ _ _ (by decide))))
    exact h2.trans h1
  have hlast : (wipeMain s).fld Reg.THM_STATUS 2 0 = s.strippedShown.fld Reg.THM_STATUS 2 0 := by
    rw [wipeMain_eq]
    exact State.fld_setFld_ne _ _ _ _ _ _ (by decide)
  exact hlast.trans (hspot.trans (congrArg (getBits · 2 0) (s.stripped_reg (by decide))))

/-- A trip as its registers show it. -/
def State.tripShown : State := (setSignal s 5 true).setTh thTripped

/-- A trip with its event and its open record. -/
def State.tripNoted (place : Nat) (value : Int) : State :=
  addTrip (recordEvent s.tripShown 0x0507 0 place (tempParam value) (s.tripShown.round % 2 ^ 32)) 1 0x0507 place (tempParam value)
    (s.tripShown.round % 2 ^ 32) (s.tripShown.evt.head % 2 ^ 32) true

/-- The model's nodes at the trip, from which the cool-down check restarts. -/
def State.tripHeld : State := { s with
  thm := { s.thm with refused := false, restart := s.tripTemps.zipIdx.map (fun x => (x.2, (x.1 : Rat))) }
  boot := { s.boot with removal := none } }

/-- Main power, if enabled, is shed. -/
def State.shed : State := if s.enabled then offState (wipeMain s) false else s

theorem tripThermal_eq {s : State} (h : s.thState ≠ thTripped) (k : s.thState ≠ thCooldown) (place : Nat) (value : Int) :
    tripThermal s place value = afterOff ((s.tripNoted place value).tripHeld.shed.setFld Reg.ADM_STATUS 2 0 4) := by
  unfold tripThermal
  rw [if_neg (by simp [h, k])]
  rfl

theorem tripThermal_holds {s : State} (h : s.thState = thTripped ∨ s.thState = thCooldown) (place : Nat) (value : Int) :
    tripThermal s place value = s := if_pos h

theorem State.tripHeld_evt : s.tripHeld.evt = s.evt := rfl
theorem State.tripHeld_reg (a : Nat) : s.tripHeld.reg a = s.reg a := rfl
theorem State.tripHeld_card : s.tripHeld.card = s.card := rfl

theorem State.tripHeld_heat {P : Nat → Prop} : s.HeatKept P s.tripHeld := ⟨rfl, (State.Fixes.refl P s).upd⟩

theorem State.stripped_sensed : s.stripped.thm.sensed = s.thm.sensed := rfl

theorem thm_of_offView {s t : State} (h : t.offView = s.offView) : t.thm = s.thm := (congrArg State.thm h :)

theorem card_of_offView {s t : State} (h : t.offView = s.offView) : t.card = s.card := (congrArg State.card h :)

theorem State.stripped_card : s.stripped.card = s.card := rfl

theorem State.shed_view : s.shed.thm.sensed = s.thm.sensed ∧ s.shed.evt = s.evt ∧ s.shed.card = s.card := by
  unfold State.shed
  split
  · have h := offState_wipeMain_view s false
    rw [thm_of_offView h, evt_of_offView h, card_of_offView h]
    exact ⟨s.stripped_sensed, s.stripped_evt, s.stripped_card⟩
  · exact ⟨rfl, rfl, rfl⟩

theorem State.shed_reg {a : Nat} (hpwr : a ≠ Reg.PWR_STATUS) (hsig : a ≠ Reg.MGT_SIGNALS) (hlost : lostWithMain a = false)
    (ha : a ∉ strippedRegs) : s.shed.reg a = s.reg a := by
  unfold State.shed
  split
  · exact (offState_reg _ _ hpwr).trans (wipeMain_reg s hlost fun h => (List.mem_cons.1 h).elim hsig ha)
  · rfl

theorem State.shed_signal {j : Nat} (h : j ≠ 7) : s.shed.signal j = s.signal j := by
  unfold State.shed
  split
  · exact (State.signal_congr (offState_reg _ _ (by decide)) j).trans (wipeMain_signal s h)
  · rfl

theorem State.shed_thState : s.shed.thState = s.thState := by
  unfold State.shed
  split
  · exact (thState_of_reg (offState_reg _ _ (by decide))).trans (wipeMain_thState s)
  · rfl

/-- Where main power was enabled it is off, and no tile holds anything. -/
theorem State.shed_off (h : s.enabled = true) : s.shed.psState = psAux ∧ ∀ ti, (s.shed.tile ti).sram = [] ∧ (s.shed.tile ti).slice = [] := by
  unfold State.shed
  rw [if_pos h]
  refine ⟨offState_psState _ false, fun ti => ?_⟩
  obtain ⟨g, n, htile⟩ := s.stripped_tile ti
  have hsame : (offState (wipeMain s) false).tile ti = s.stripped.tile ti := by
    unfold State.tile
    rw [tiles_of_offView (offState_wipeMain_view s false)]
  rw [hsame, htile]
  exact ⟨rfl, rfl⟩

theorem State.tripShown_regsOnly : s.RegsOnly s.tripShown [Reg.THM_STATUS, Reg.MGT_SIGNALS] :=
  (State.setFld_regsOnly_mem s (by decide)).trans (State.setFld_regsOnly_mem _ (by decide))

theorem State.tripShown_signal : s.tripShown.signal 5 = true :=
  (State.signal_congr (State.reg_setFld_ne _ _ _ _ (by decide)) 5).trans (setSignal_signal_same s (by decide) true)

theorem State.tripShown_thm : s.tripShown.thm = s.thm := by rw [s.tripShown_regsOnly.2]

section
variable (place : Nat) (value : Int)

theorem addTrip_same (code p0 p1 p2 kind evtSeq : Nat) (isOpen : Bool) : (addTrip s kind code p0 p1 p2 evtSeq isOpen).regs = s.regs ∧
    (addTrip s kind code p0 p1 p2 evtSeq isOpen).evt = s.evt ∧ (addTrip s kind code p0 p1 p2 evtSeq isOpen).thm = s.thm := by
  rw [addTrip_frame]
  exact ⟨rfl, rfl, rfl⟩

theorem State.tripNoted_heat {P : Nat → Prop} (h : ∀ a ∈ eventRegs, ¬P a) : s.tripShown.HeatKept P (s.tripNoted place value) := by
  obtain ⟨hregs, hevt, hthm⟩ := addTrip_same (recordEvent s.tripShown 0x0507 0 place (tempParam value) (s.tripShown.round % 2 ^ 32))
    0x0507 place (tempParam value) (s.tripShown.round % 2 ^ 32) 1 (s.tripShown.evt.head % 2 ^ 32) true
  exact ((State.HeatKept.refl P s.tripShown).recordEvent h ..).upd (congrArg Thermal.sensed hthm) hregs hevt

theorem State.tripNoted_reg {a : Nat} (h : a ∉ eventRegs) : (s.tripNoted place value).reg a = s.tripShown.reg a :=
  (s.tripNoted_heat place value (P := (· = a)) fun _ hb e => h (e ▸ hb)).fixes.regs a rfl

theorem round_of_reg {s t : State} (hlo : t.reg Reg.ADM_ROUND_LO = s.reg Reg.ADM_ROUND_LO)
    (hhi : t.reg (Reg.ADM_ROUND_LO + 1) = s.reg (Reg.ADM_ROUND_LO + 1)) : t.round = s.round := by
  unfold State.round State.reg64
  rw [hlo, hhi]

theorem State.tripNoted_records : s.Records (s.tripNoted place value) (s.record 0x0507 0 place (tempParam value) (s.round % 2 ^ 32)) := by
  have hround : s.tripShown.round = s.round := round_of_reg (s.tripShown_regsOnly.1 _ (by decide)) (s.tripShown_regsOnly.1 _ (by decide))
  obtain ⟨-, hevt, -⟩ := addTrip_same (recordEvent s.tripShown 0x0507 0 place (tempParam value) (s.tripShown.round % 2 ^ 32))
    0x0507 place (tempParam value) (s.tripShown.round % 2 ^ 32) 1 (s.tripShown.evt.head % 2 ^ 32) true
  have hrec := (State.SameClock.of_regsOnly s.tripShown_regsOnly).records 0x0507 0 place (tempParam value) (s.tripShown.round % 2 ^ 32)
  rw [hround] at hrec hevt
  unfold State.tripNoted
  rw [hround]
  exact State.Records.congr hrec hevt

theorem State.tripNoted_trip (hcard : s.fld Reg.CFG_STATUS 31 31 = 1) (hroom : s.card.trips.length < 64) :
    ∃ r ∈ (s.tripNoted place value).card.trips, r.kind = 1 ∧ r.code = 0x0507 ∧ r.isOpen = true := by
  have hshown := s.tripShown_regsOnly
  obtain ⟨r, hr, hkind, hcode, -, -, -, hopen⟩ := addTrip_added
    (recordEvent s.tripShown 0x0507 0 place (tempParam value) (s.tripShown.round % 2 ^ 32)) 0x0507 place (tempParam value)
    (s.tripShown.round % 2 ^ 32) 1 (s.tripShown.evt.head % 2 ^ 32) true
    (by rw [recordEvent_fld _ _ _ _ _ _ _ _ (by decide), hshown.1.fld (by decide), hcard])
    (by rw [recordEvent_card, hshown.2]; exact hroom)
  exact ⟨r, hr, hkind, hcode, hopen⟩

end

/-! ### What a trip keeps, and what it shows -/

/-- The registers of the temperatures of the stacks. -/
def StackTempReg (a : Nat) : Prop := Reg.THM_STACK_TEMP ≤ a ∧ a < Reg.THM_STACK_TEMP + 16

theorem not_stackTempReg {a : Nat} (h : a < 0x50200 ∨ 0x50210 ≤ a) : ¬StackTempReg a := fun ⟨hlo, hhi⟩ => by
  unfold Reg.THM_STACK_TEMP at hlo hhi
  omega

theorem not_stackTempReg_event : ∀ a ∈ eventRegs, ¬StackTempReg a := by
  intro a ha
  simp only [eventRegs, List.mem_cons, List.not_mem_nil, or_false] at ha
  obtain rfl | rfl | rfl := ha
  all_goals exact not_stackTempReg (by decide)

/-- A loss of main power leaves the temperatures of the stacks. -/
theorem StackTempReg.kept {a : Nat} (h : StackTempReg a) : lostWithMain a = false ∧ a ∉ strippedRegs := by
  obtain ⟨k, hk, rfl⟩ : ∃ k < 16, a = Reg.THM_STACK_TEMP + k := ⟨a - Reg.THM_STACK_TEMP, by have := h.2; omega, by have := h.1; omega⟩
  refine ⟨?_, fun hm => ?_⟩
  · clear h
    revert k
    decide
  · obtain hm | hm := mem_strippedRegs.1 hm
    · simp only [List.mem_cons, List.not_mem_nil, or_false, Reg.HLK_STATUS, Reg.PWR_STATUS, Reg.MGT_TIME_STATUS, Reg.MGT_EPOCH,
        Reg.THM_CAP_NOW, Reg.THM_STATUS, Reg.THM_STACK_TEMP] at hm
      omega
    · exact absurd hm.1 (by unfold Reg.THM_SPOT Reg.THM_STACK_TEMP; omega)

theorem State.shed_heat : s.HeatKept StackTempReg s.shed where
  sensed := s.shed_view.1
  fixes := by
    refine ⟨fun a ha => ?_, fun e he => ?_⟩
    · obtain ⟨hlost, hout⟩ := StackTempReg.kept ha
      exact s.shed_reg (fun h => absurd (h ▸ ha) (not_stackTempReg (by decide))) (fun h => absurd (h ▸ ha) (not_stackTempReg (by decide))) hlost hout
    · rw [s.shed_view.2.1]
      exact he

theorem thm_of_parkView {s t : State} (h : t.parkView = s.parkView) : t.thm = s.thm := (congrArg State.thm h :)

theorem card_of_parkView {s t : State} (h : t.parkView = s.parkView) : t.card = s.card := (congrArg State.card h :)

theorem afterOff_heat : s.HeatKept StackTempReg (afterOff s) := by
  have h := afterOff_parked s
  refine ⟨congrArg Thermal.sensed (thm_of_parkView h.view), h.fixes.mono fun a ha hm => ?_⟩
  obtain hm | hm := List.mem_append.1 hm
  · obtain rfl | rfl := List.mem_pair.1 hm
    · exact not_stackTempReg (by decide) ha
    · exact not_stackTempReg (by decide) ha
  · exact not_stackTempReg_event a hm ha

theorem tripThermal_heat (place : Nat) (value : Int) : s.HeatKept StackTempReg (tripThermal s place value) := by
  by_cases h : s.thState = thTripped ∨ s.thState = thCooldown
  · rw [tripThermal_holds h]
    exact .refl _ s
  · rw [tripThermal_eq (fun e => h (.inl e)) fun e => h (.inr e)]
    have hshown : s.HeatKept StackTempReg s.tripShown := ⟨congrArg Thermal.sensed s.tripShown_thm,
      .of_regsOnly s.tripShown_regsOnly fun a ha hm => by
        obtain rfl | rfl := List.mem_pair.1 ha
        · exact not_stackTempReg (by decide) hm
        · exact not_stackTempReg (by decide) hm⟩
    have hheld := (hshown.trans (s.tripNoted_heat place value not_stackTempReg_event)).trans (State.tripHeld_heat _)
    exact ((hheld.trans (State.shed_heat _)).setFld (not_stackTempReg (by decide))).trans (afterOff_heat _)

end

section
variable {s : State}

theorem exec_thermalTrip (h : s.pwr.auxOn = true) (place : Nat) (value : Int) :
    exec (.thermalTrip place value) s = .next (tripThermal s place value) := by
  change execThermalTrip place value s = _
  exact if_neg (by simp [h])

theorem thermalTrip_shown (haux : s.pwr.auxOn = true) (htrip : s.thState ≠ thTripped) (hcool : s.thState ≠ thCooldown) (place : Nat) (value : Int) :
    ∃ t, exec (.thermalTrip place value) s = .next t ∧ t.thState = thTripped ∧ t.signal 5 = true ∧
      s.Shows t (s.record 0x0507 0 place (tempParam value) (s.round % 2 ^ 32)) ∧
      (s.fld Reg.CFG_STATUS 31 31 = 1 → s.card.trips.length < 64 → ∃ r ∈ t.card.trips, r.kind = 1 ∧ r.code = 0x0507 ∧ r.isOpen = true) ∧
      (s.enabled = true → t.psState = psAux ∧ ∀ ti, (t.tile ti).sram = [] ∧ (t.tile ti).slice = []) := by
  have hex := exec_thermalTrip haux place value
  rw [tripThermal_eq htrip hcool] at hex
  let n := s.tripNoted place value
  let u := n.tripHeld.shed
  have hpark := afterOff_parked (u.setFld Reg.ADM_STATUS 2 0 4)
  obtain ⟨-, hevt, hcard⟩ := n.tripHeld.shed_view
  refine ⟨_, hex, ?_, ?_, ?_, fun hans hroom => ?_, fun hen => ?_⟩
  · refine (thState_of_reg (hpark.fixes.regs _ (by decide))).trans ((thState_of_reg (State.reg_setFld_ne _ _ _ _ (by decide))).trans ?_)
    rw [State.shed_thState, thState_of_reg (n.tripHeld_reg _), thState_of_reg (s.tripNoted_reg place value (by decide))]
    exact State.thState_setTh _ (by decide)
  · rw [hpark.signal 5 (by decide) (by decide), State.signal_congr (State.reg_setFld_ne _ _ _ _ (by decide)), State.shed_signal _ (by decide),
      State.signal_congr (n.tripHeld_reg _), State.signal_congr (s.tripNoted_reg place value (by decide)), s.tripShown_signal]
  · exact hpark.fixes.shows ((s.tripNoted_records place value).shows.congr (hevt.trans n.tripHeld_evt))
  · rw [card_of_parkView hpark.view, State.setFld_card, hcard, n.tripHeld_card]
    exact s.tripNoted_trip place value hans hroom
  · have hen' : n.tripHeld.enabled = true := by
      rw [enabled_of_reg (n.tripHeld_reg _), enabled_of_reg (s.tripNoted_reg place value (by decide)), enabled_of_reg (s.tripShown_regsOnly.1 _ (by decide)), hen]
    obtain ⟨hps, htile⟩ := n.tripHeld.shed_off hen'
    refine ⟨?_, fun ti => ?_⟩
    · rw [psState_of_reg (hpark.fixes.regs _ (by decide)), psState_of_reg (State.reg_setFld_ne _ _ _ _ (by decide))]
      exact hps
    · have hsame : (afterOff (u.setFld Reg.ADM_STATUS 2 0 4)).tile ti = u.tile ti := by
        unfold State.tile
        rw [tiles_of_parkView hpark.view, State.setFld_tiles]
      rw [hsame]
      exact htile ti

theorem exec_tripHoldEnd (h : s.thState = thTripped) : exec .tripHoldEnd s = .next (mainGone (s.setTh thCooldown)) := if_pos h

theorem tripHoldEnd_shown (h : s.thState = thTripped) : ∃ t, exec .tripHoldEnd s = .next t ∧ t.thState = thCooldown ∧ t.pwr.mainIn = false ∧
    s.RegsFrame t [Reg.THM_STATUS] :=
  ⟨_, exec_tripHoldEnd h, s.thState_setTh (by decide), rfl, fun a ha => State.reg_setFld_ne _ _ _ _ (by simpa using ha)⟩

end

end Sys2Proof.Machine

namespace Sys2Proof.Machine

/-! ## A step of the thermal model (15 R446-R449) -/

/-- A property that the steps at other places keep, and that the step at one place brings about, holds after all of them. -/
theorem foldl_zipIdx_at {α σ : Type} {g : σ → α × Nat → σ} {l : List α} {i n : Nat} {x : α} (hx : l[i]? = some x) {P Q : σ → Prop}
    (hpre : ∀ s y j, j ≠ n + i → P s → P (g s (y, j))) (hat : ∀ s, P s → Q (g s (x, n + i)))
    (hpost : ∀ s y j, j ≠ n + i → Q s → Q (g s (y, j))) {s : σ} (h : P s) : Q ((l.zipIdx n).foldl g s) := by
  induction l generalizing n i s with
  | nil => simp at hx
  | cons y r ih =>
    rw [List.zipIdx_cons, List.foldl_cons]
    cases i with
    | zero =>
      obtain rfl : y = x := by simpa using hx
      refine List.foldlRecOn (motive := Q) _ _ (hat s h) fun t ht e he => hpost t e.1 e.2 ?_ ht
      have := List.le_snd_of_mem_zipIdx he
      omega
    | succ i =>
      have hplace : n + 1 + i = n + (i + 1) := by omega
      rw [List.getElem?_cons_succ] at hx
      exact ih hx (hplace ▸ hpre) (hplace ▸ hat) (hplace ▸ hpost) (hpre s y n (by omega) h)

/-- A map built over a list of keys holds what it was built from. -/
theorem SMap.get?_map_keys {β : Type} (f : Nat → β) (l : List Nat) {n : Nat} (h : n ∈ l) : SMap.get? (l.map fun k => (k, f k)) n = some (f n) := by
  induction l with
  | nil => simp at h
  | cons k r ih =>
    rw [List.map_cons, SMap.get?]
    split_ifs with hk
    · rw [← hk]
    · exact ih ((List.mem_cons.1 h).resolve_left hk)

section
variable {P : Nat → Prop} (s : State)

theorem noteAgree_heat (spot : Nat) (agrees : Bool) : s.HeatKept P (noteAgree s spot agrees) := by
  unfold noteAgree
  split
  · exact s.withThm_heat rfl
  · split
    · exact s.withThm_heat rfl
    · split
      · exact .refl P s
      · exact s.withThm_heat rfl

theorem excludeDiode_heat {spot : Nat} (hspot : ¬P (Reg.THM_SPOT + spot)) (hev : ∀ a ∈ eventRegs, ¬P a) (d : Nat) :
    s.HeatKept P (excludeDiode s spot d) :=
  .ite (.refl P s) (((State.HeatKept.refl P s).setFld hspot).recordEvent hev ..)

theorem countMark_heat {spot : Nat} (hspot : ¬P (Reg.THM_SPOT + spot)) (hev : ∀ a ∈ eventRegs, ¬P a) (d : Nat) {note : State → State}
    (hnote : ∀ t : State, t.HeatKept P (note t)) : s.HeatKept P (countMark s spot d note) := by
  unfold countMark
  extract_lets k l src t1 t2
  have hmark : s.HeatKept P t2 := ((State.HeatKept.refl P s).upd.setFld hspot).trans (hnote _)
  exact .ite hmark (hmark.trans (excludeDiode_heat _ hspot hev d))

theorem markDiode_heat {spot : Nat} (hspot : ¬P (Reg.THM_SPOT + spot)) (hev : ∀ a ∈ eventRegs, ¬P a) (d : Nat) (a b : Int) :
    s.HeatKept P (markDiode s spot d a b) :=
  .ite (.refl P s) ((State.HeatKept.refl P s).upd.trans (countMark_heat _ hspot hev d fun t => (State.HeatKept.refl P t).recordEvent hev ..))

/-- A spot is held at 70 %. -/
def State.spotCapped (s : State) (spot : Nat) : State := s.withThm { s.thm with
  guardSpots := if !s.thm.guardSpots.contains spot then s.thm.guardSpots ++ [spot] else s.thm.guardSpots
  guard := if s.thm.guard.contains (spot / 9) then s.thm.guard else s.thm.guard ++ [spot / 9] }

theorem capCluster_eq (spot : Nat) (event : Bool) (top m : Rat) : capCluster s spot event top m =
    if event && !s.thm.guardSpots.contains spot then
      recordEvent ((s.spotCapped spot).setFld Reg.THM_STATUS 30 30 1) 0x0503 0 spot (tempParam top.floor) (tempParam m.floor)
    else (s.spotCapped spot).setFld Reg.THM_STATUS 30 30 1 := rfl

theorem capCluster_heat (hst : ¬P Reg.THM_STATUS) (hev : ∀ a ∈ eventRegs, ¬P a) (spot : Nat) (event : Bool) (top m : Rat) :
    s.HeatKept P (capCluster s spot event top m) := by
  have hcap : s.HeatKept P ((s.spotCapped spot).setFld Reg.THM_STATUS 30 30 1) := (State.HeatKept.refl P s).upd.setFld hst
  rw [capCluster_eq]
  exact .ite (hcap.recordEvent hev ..) hcap

/-- The value that a spot's diodes and the model give (Table 15.2). -/
def State.spotChoice (k spot : Nat) (x : Int × Int) : Choice :=
  choose (if s.fld (Reg.THM_SPOT + spot) 30 30 = 1 then none else some (x.1 : Rat))
    (if s.fld (Reg.THM_SPOT + spot) 31 31 = 1 then none else some (x.2 : Rat)) (s.pred spot)
    (Config.thermalNeighbour k s.boot.cal s.thm.nodes s.thm.used spot)

/-- The diode that the choice marks is noted. -/
def State.spotMarked (spot : Nat) (x : Int × Int) (mark : Option Nat) : State :=
  match mark with
  | some d => markDiode s spot d x.1 x.2
  | none => s

/-- The cluster is held or not, as the choice says. -/
def State.spotGuarded (spot : Nat) (x : Int × Int) (c : Choice) (m : Rat) : State :=
  if c.row = 4 ∨ c.row = 6 then capCluster s spot (decide (c.row = 4)) (max (x.1 : Rat) (x.2 : Rat)) m
  else s.withThm { s.thm with guardSpots := s.thm.guardSpots.filter (fun p => decide (p ≠ spot)) }

/-- The node takes a quarter of the difference. -/
def State.spotCorrected (spot : Nat) (c : Choice) (m : Rat) : State := s.withThm { s.thm with
  unwell := if c.row ≤ 2 ∨ s.thm.unwell.contains (spot / 9) then s.thm.unwell else s.thm.unwell ++ [spot / 9]
  used := SMap.put s.thm.used spot c.used
  nodes := SMap.put s.thm.nodes spot (m + (c.used - m) / 4) }

theorem spotStep_eq (k spot : Nat) (x : Int × Int) : spotStep s k spot x =
    ((((((noteAgree s spot (decide ((s.spotChoice k spot x).row = 1))).spotMarked spot x (s.spotChoice k spot x).mark).spotGuarded spot x
      (s.spotChoice k spot x) (s.pred spot)).spotCorrected spot (s.spotChoice k spot x) (s.pred spot)).setFld (Reg.THM_SPOT + spot) 23 12
        (field12 (s.pred spot + ((s.spotChoice k spot x).used - s.pred spot) / 4))).setFld (Reg.THM_SPOT + spot) 11 0
          (field12 (s.spotChoice k spot x).used)) := rfl

theorem State.spotMarked_heat {spot : Nat} (hspot : ¬P (Reg.THM_SPOT + spot)) (hev : ∀ a ∈ eventRegs, ¬P a) (x : Int × Int) (mark : Option Nat) :
    s.HeatKept P (s.spotMarked spot x mark) := by
  cases mark with
  | none => exact .refl P s
  | some d => exact markDiode_heat s hspot hev d ..

theorem State.spotGuarded_heat (hst : ¬P Reg.THM_STATUS) (hev : ∀ a ∈ eventRegs, ¬P a) (spot : Nat) (x : Int × Int) (c : Choice) (m : Rat) :
    s.HeatKept P (s.spotGuarded spot x c m) :=
  .ite (capCluster_heat s hst hev ..) (s.withThm_heat rfl)

/-- What a step at a spot changes of the measured values: its own, and nothing else. -/
theorem spotStep_shown (k spot : Nat) (x : Int × Int) : (spotStep s k spot x).thm.predicted = s.thm.predicted ∧
    (spotStep s k spot x).thm.used = SMap.put s.thm.used spot (s.spotChoice k spot x).used ∧
    (spotStep s k spot x).thm.nodes = SMap.put s.thm.nodes spot (s.pred spot + ((s.spotChoice k spot x).used - s.pred spot) / 4) ∧
    ∀ a, a ∉ Reg.THM_STATUS :: eventRegs → a ≠ Reg.THM_SPOT + spot → (spotStep s k spot x).reg a = s.reg a := by
  let P : Nat → Prop := fun a => a ∉ Reg.THM_STATUS :: eventRegs ∧ a ≠ Reg.THM_SPOT + spot
  have hspot : ¬P (Reg.THM_SPOT + spot) := fun h => h.2 rfl
  have hst : ¬P Reg.THM_STATUS := fun h => h.1 List.mem_cons_self
  have hev : ∀ a ∈ eventRegs, ¬P a := fun a ha h => h.1 (List.mem_cons_of_mem _ ha)
  rw [spotStep_eq]
  generalize s.spotChoice k spot x = c
  have hheat : s.HeatKept P (((noteAgree s spot (decide (c.row = 1))).spotMarked spot x c.mark).spotGuarded spot x c (s.pred spot)) :=
    ((noteAgree_heat s ..).trans (State.spotMarked_heat _ hspot hev ..)).trans (State.spotGuarded_heat _ hst hev ..)
  generalize ((noteAgree s spot (decide (c.row = 1))).spotMarked spot x c.mark).spotGuarded spot x c (s.pred spot) = t at hheat
  refine ⟨?_, ?_, ?_, fun a ha hne => ?_⟩
  · rw [State.setFld_thm, State.setFld_thm]
    exact hheat.predicted
  · rw [State.setFld_thm, State.setFld_thm, ← hheat.used]
    rfl
  · rw [State.setFld_thm, State.setFld_thm, ← hheat.nodes]
    rfl
  · rw [State.reg_setFld_ne _ _ _ _ hne, State.reg_setFld_ne _ _ _ _ hne]
    exact hheat.fixes.regs a ⟨ha, hne⟩

/-- Two diodes in service that agree within 3 K give the higher (Table 15.2 row 1). -/
theorem State.spotChoice_agreeing {spot : Nat} {a b : Int} (h30 : s.fld (Reg.THM_SPOT + spot) 30 30 = 0)
    (h31 : s.fld (Reg.THM_SPOT + spot) 31 31 = 0) (hab : a - b ≤ 30) (hba : b - a ≤ 30) (k : Nat) :
    (s.spotChoice k spot (a, b)).used = ((max a b : Int) : Rat) := by
  have hnear : near (a : Rat) (b : Rat) 30 = true := by
    unfold near
    simp only [Bool.and_eq_true, decide_eq_true_eq]
    exact ⟨by exact_mod_cast hab, by exact_mod_cast hba⟩
  unfold State.spotChoice
  rw [h30, h31]
  change (chooseTwo (a : Rat) (b : Rat) _).used = _
  unfold chooseTwo
  rw [if_pos hnear]
  exact (Int.cast_max ..).symm

/-- The node of a stack takes a quarter of the difference to its sensor. -/
def State.stackCorrected (k : Nat) (t : Int) : State := s.withThm { s.thm with
  used := SMap.put s.thm.used (1440 + k) (t : Rat)
  nodes := SMap.put s.thm.nodes (1440 + k) (s.pred (1440 + k) + ((t : Rat) - s.pred (1440 + k)) / 4) }

theorem stackStep_eq (k : Nat) (t : Int) : stackStep s k t = ((s.stackCorrected k t).setFld (Reg.THM_STACK_TEMP + k) 31 16
    (field16 (s.pred (1440 + k) + ((t : Rat) - s.pred (1440 + k)) / 4).floor)).setFld (Reg.THM_STACK_TEMP + k) 15 0 (field16 t) := rfl

theorem stackStep_thm (k : Nat) (t : Int) : (stackStep s k t).thm = (s.stackCorrected k t).thm := by
  rw [stackStep_eq, State.setFld_thm, State.setFld_thm]

theorem stackStep_fld (k : Nat) (t : Int) : (stackStep s k t).fld (Reg.THM_STACK_TEMP + k) 15 0 = field16 t := by
  rw [stackStep_eq, State.fld_setFld_same _ _ _ (by decide) (by decide)]
  refine Nat.mod_eq_of_lt ?_
  unfold field16
  omega

end

/-! ### After the corrections, the limits are held -/

section
variable (s : State)

theorem noteThrottle_heat (key place part : Nat) (v : Rat) (inside : Bool) : s.HeatKept StackTempReg (noteThrottle s key place part v inside) := by
  unfold noteThrottle
  split
  · exact .ite (.refl _ s) ((State.HeatKept.refl _ s).upd.recordEvent not_stackTempReg_event ..)
  · exact s.withThm_heat rfl

theorem cluster_notStackTempReg {ci : Nat} (h : ci < 144) : ¬StackTempReg (Reg.PWR_CL + ci) := not_stackTempReg (by unfold Reg.PWR_CL; omega)

theorem setVset_keeps {ci : Nat} (h : ci < 144) (v : Nat) : s.HeatKept StackTempReg (setVset s ci v) :=
  (State.HeatKept.refl _ s).setFld (cluster_notStackTempReg h)

theorem stepVset_keeps {ci : Nat} (h : ci < 144) : s.HeatKept StackTempReg (stepVset s ci) :=
  (State.HeatKept.refl _ s).upd.trans (setVset_keeps s.takeFree.2 h _)

theorem holdCluster_heat (tooHot : Bool) {ci : Nat} (h : ci < 144) : s.HeatKept StackTempReg (holdCluster s tooHot ci) := by
  unfold holdCluster
  extract_lets die lay t1 t2 g tied src t3
  have ht : s.HeatKept StackTempReg t3 :=
    ((noteThrottle_heat s ..).trans (noteThrottle_heat t1 ..)).trans (t2.withThm_heat rfl)
  exact .ite ht (.ite (ht.trans (setVset_keeps t3 h _)) (.ite (ht.trans (stepVset_keeps t3 h)) (.ite ht (ht.trans (setVset_keeps t3 h _)))))

theorem holdStack_heat (k : Nat) : s.HeatKept StackTempReg (holdStack s k) :=
  (noteThrottle_heat s ..).trans (State.withThm_heat _ rfl)

theorem State.setLastPower_heat (h : Half) (v : Nat) : s.HeatKept StackTempReg (s.setLastPower h v) := by
  cases h with
  | west => exact s.withThm_heat rfl
  | east => exact s.withThm_heat rfl

theorem noteShort_heat (h : Half) (p : Nat) : s.HeatKept StackTempReg (noteShort s h p) := by
  have hset := ((s.setLastPower_heat h p).setFld (a := Reg.THM_STATUS) (hi := 28) (lo := 28) (v := 1) (not_stackTempReg (by decide)))
  exact .ite (.ite hset ((hset.trans (State.withThm_heat _ (by rfl))).recordEvent not_stackTempReg_event ..)) (s.setLastPower_heat h p)

theorem divideCap_heat (h : Half) : s.HeatKept StackTempReg (divideCap s h) := by
  cases h with
  | west => exact s.withThm_heat rfl
  | east => exact s.withThm_heat rfl

theorem raiseCap_heat (h : Half) : s.HeatKept StackTempReg (raiseCap s h) :=
  .ite (setCap_heat s (not_stackTempReg (by decide)) h _) (.refl _ s)

theorem noteFatigue_heat {ci : Nat} (h : ci < 144) : s.HeatKept StackTempReg (noteFatigue s ci) := by
  unfold noteFatigue
  split
  · exact .refl _ s
  · refine .ite (.refl _ s) (((State.HeatKept.refl _ s).upd.count ?_).count (not_stackTempReg (by decide)))
    exact not_stackTempReg (by unfold Reg.THM_FATIGUE; omega)

theorem holdLimits_heat (powers : List Nat) : s.HeatKept StackTempReg (holdLimits s powers) := by
  have hshort := (noteShort_heat s .west (stackPower powers .west)).trans (noteShort_heat _ .east (stackPower powers .east))
  have hcaps := (hshort.trans ((raiseCap_heat _ .west).trans (raiseCap_heat _ .east))).trans (lowerCaps_heat _ (not_stackTempReg (by decide)))
  have hshare := hcaps.trans ((divideCap_heat _ .west).trans (divideCap_heat _ .east))
  refine (State.HeatKept.foldl ?_ fun x k _ => holdStack_heat x k).foldl fun x ci hci => noteFatigue_heat x (List.mem_range.1 hci)
  exact hshare.foldl fun x ci hci => holdCluster_heat x _ (List.mem_range.1 hci)

end

end Sys2Proof.Machine

namespace Sys2Proof.Machine

/-! ## The step as a whole (15 R446-R449) -/

section
variable (s : State)

/-- The prediction of every node. -/
def State.predictions (powers : List Nat) : SMap Rat := (List.range 1460).map fun n =>
  (n, Config.thermalPredict s.free s.boot.cal s.thm.nodes powers (s.fld Reg.THM_FLOW 15 0) s.inlet n)

/-- The state before the corrections: every node at its prediction. -/
def State.modelBase (powers : List Nat) : State :=
  s.takeFree.2.withThm { s.thm with predicted := s.predictions powers, nodes := s.predictions powers, unwell := [] }

theorem State.modelBase_predicted (powers : List Nat) : (s.modelBase powers).thm.predicted = s.predictions powers := by
  rw [State.modelBase, State.withThm_thm]

theorem State.modelBase_reg (powers : List Nat) (a : Nat) : (s.modelBase powers).reg a = s.reg a := by
  rw [State.modelBase, State.withThm_reg]
  rfl

theorem modelStep_eq (diodes : List (Int × Int)) (sensors : List Int) (powers : List Nat) : modelStep s diodes sensors powers =
    (sensors.take 16).zipIdx.foldl (fun s x => stackStep s x.2 x.1)
      ((diodes.take 1296).zipIdx.foldl (fun t x => spotStep t s.free x.2 x.1) (s.modelBase powers)) := rfl

theorem stackStep_predicted (k : Nat) (v : Int) : (stackStep s k v).thm.predicted = s.thm.predicted := by
  rw [stackStep_thm]
  rfl

theorem stackStep_used (k : Nat) (v : Int) : (stackStep s k v).thm.used = SMap.put s.thm.used (1440 + k) (v : Rat) :=
  congrArg Thermal.used (stackStep_thm s k v)

theorem stackStep_nodes (k : Nat) (v : Int) : (stackStep s k v).thm.nodes =
    SMap.put s.thm.nodes (1440 + k) (s.pred (1440 + k) + ((v : Rat) - s.pred (1440 + k)) / 4) := congrArg Thermal.nodes (stackStep_thm s k v)

theorem modelStep_predicted (diodes : List (Int × Int)) (sensors : List Int) (powers : List Nat) :
    (modelStep s diodes sensors powers).thm.predicted = s.predictions powers := by
  rw [modelStep_eq, foldl_keeps (f := fun t : State => t.thm.predicted) fun t x _ => stackStep_predicted t ..,
    foldl_keeps (f := fun t : State => t.thm.predicted) fun t x _ => (spotStep_shown t ..).1, State.modelBase_predicted]

/-- The measured value of a node, and its node after the correction. -/
structure State.NodeSet (t : State) (p : SMap Rat) (n : Nat) (v : Rat) : Prop where
  predicted : t.thm.predicted = p
  used : SMap.get? t.thm.used n = some v
  node : SMap.get? t.thm.nodes n = some (SMap.getD p n 0 + (v - SMap.getD p n 0) / 4)

/-- A spot whose two diodes agree takes the higher of them. -/
theorem modelStep_spot {diodes : List (Int × Int)} {spot : Nat} {a b : Int} (hspot : spot < 1296) (hx : diodes[spot]? = some (a, b))
    (h30 : s.fld (Reg.THM_SPOT + spot) 30 30 = 0) (h31 : s.fld (Reg.THM_SPOT + spot) 31 31 = 0) (hab : a - b ≤ 30) (hba : b - a ≤ 30)
    (sensors : List Int) (powers : List Nat) :
    (modelStep s diodes sensors powers).NodeSet (s.predictions powers) spot ((max a b : Int) : Rat) := by
  rw [modelStep_eq]
  have hstack (t : State) (y : Int) (j : Nat) (ht : t.NodeSet (s.predictions powers) spot ((max a b : Int) : Rat)) :
      (stackStep t j y).NodeSet (s.predictions powers) spot ((max a b : Int) : Rat) := by
    have hne : spot ≠ 1440 + j := by omega
    refine ⟨(stackStep_predicted ..).trans ht.predicted, ?_, ?_⟩
    · rw [stackStep_used, SMap.get?_put, if_neg hne, ht.used]
    · rw [stackStep_nodes, SMap.get?_put, if_neg hne, ht.node]
  refine List.foldlRecOn (motive := fun t : State => t.NodeSet (s.predictions powers) spot ((max a b : Int) : Rat)) _ _ ?_ fun t ht e _ => hstack t _ _ ht
  have htake : (diodes.take 1296)[spot]? = some (a, b) := by rw [List.getElem?_take_of_lt hspot, hx]
  refine foldl_zipIdx_at (n := 0) htake
    (P := fun t : State => t.thm.predicted = s.predictions powers ∧ t.reg (Reg.THM_SPOT + spot) = s.reg (Reg.THM_SPOT + spot))
    (Q := fun t : State => t.NodeSet (s.predictions powers) spot ((max a b : Int) : Rat)) ?pre ?here ?post ⟨s.modelBase_predicted powers, s.modelBase_reg powers _⟩
  case pre =>
    rintro t y j hj ⟨hpred, hreg⟩
    obtain ⟨hpred', -, -, hregs⟩ := spotStep_shown t s.free j y
    refine ⟨hpred'.trans hpred, (hregs _ ?_ (by omega)).trans hreg⟩
    simp only [eventRegs, List.mem_cons, List.not_mem_nil, or_false, Reg.THM_STATUS, Reg.EVT_LOST, Reg.BST_ERR_OVERFLOWS, Reg.BST_ERR_STATUS, Reg.THM_SPOT]
    omega
  case here =>
    rintro t ⟨hpred, hreg⟩
    rw [Nat.zero_add]
    obtain ⟨hpred', hused, hnodes, -⟩ := spotStep_shown t s.free spot (a, b)
    have hchoice := t.spotChoice_agreeing (spot := spot) (a := a) (b := b) (by rw [State.fld, hreg]; exact h30) (by rw [State.fld, hreg]; exact h31)
      hab hba s.free
    refine ⟨hpred'.trans hpred, ?_, ?_⟩
    · rw [hused, SMap.get?_put, if_pos rfl, hchoice]
    · rw [hnodes, SMap.get?_put, if_pos rfl, hchoice, State.pred, hpred]
  case post =>
    rintro t y j hj ht
    obtain ⟨hpred, hused, hnodes, -⟩ := spotStep_shown t s.free j y
    have hne : spot ≠ j := by omega
    refine ⟨hpred.trans ht.predicted, ?_, ?_⟩
    · rw [hused, SMap.get?_put, if_neg hne, ht.used]
    · rw [hnodes, SMap.get?_put, if_neg hne, ht.node]

/-- A stack takes the value of its sensor. -/
theorem modelStep_stack {sensors : List Int} {k : Nat} {v : Int} (hk : k < 16) (hx : sensors[k]? = some v) (diodes : List (Int × Int))
    (powers : List Nat) : (modelStep s diodes sensors powers).NodeSet (s.predictions powers) (1440 + k) (v : Rat) ∧
      (modelStep s diodes sensors powers).fld (Reg.THM_STACK_TEMP + k) 15 0 = field16 v := by
  rw [modelStep_eq]
  have htake : (sensors.take 16)[k]? = some v := by rw [List.getElem?_take_of_lt hk, hx]
  refine foldl_zipIdx_at (n := 0) htake (P := fun t : State => t.thm.predicted = s.predictions powers)
    (Q := fun t : State => t.NodeSet (s.predictions powers) (1440 + k) (v : Rat) ∧ t.fld (Reg.THM_STACK_TEMP + k) 15 0 = field16 v) ?pre ?here ?post ?base
  case pre => exact fun t y j _ ht => (stackStep_predicted ..).trans ht
  case here =>
    rintro t ht
    rw [Nat.zero_add]
    refine ⟨⟨(stackStep_predicted ..).trans ht, ?_, ?_⟩, stackStep_fld t k v⟩
    · rw [stackStep_used, SMap.get?_put, if_pos rfl]
    · rw [stackStep_nodes, SMap.get?_put, if_pos rfl, State.pred, ht]
  case post =>
    rintro t y j hj ⟨ht, hfld⟩
    have hne : 1440 + k ≠ 1440 + j := by omega
    refine ⟨⟨(stackStep_predicted ..).trans ht.predicted, ?_, ?_⟩, ?_⟩
    · rw [stackStep_used, SMap.get?_put, if_neg hne, ht.used]
    · rw [stackStep_nodes, SMap.get?_put, if_neg hne, ht.node]
    · rw [stackStep_eq, State.fld_setFld_ne _ _ _ _ _ _ (by omega), State.fld_setFld_ne _ _ _ _ _ _ (by omega)]
      exact hfld
  case base =>
    rw [foldl_keeps (f := fun t : State => t.thm.predicted) fun t x _ => (spotStep_shown t ..).1, s.modelBase_predicted]

theorem State.NodeSet.heat {t u : State} {p : SMap Rat} {n : Nat} {v : Rat} {P : Nat → Prop} (h : t.NodeSet p n v) (k : t.HeatKept P u) : u.NodeSet p n v :=
  ⟨k.predicted.trans h.predicted, by rw [k.used]; exact h.used, by rw [k.nodes]; exact h.node⟩

/-- A trip follows where a cause is found. -/
def State.tripped (diodes : List (Int × Int)) (sensors : List Int) : State :=
  match s.tripCause diodes sensors with
  | some x => tripThermal s.takeFree.2 x.1 x.2
  | none => s

theorem exec_thermalModelStep {s : State} (h : s.pwr.auxOn = true) (diodes : List (Int × Int)) (sensors : List Int) (powers : List Nat) :
    exec (.thermalModelStep diodes sensors powers) s =
      .next ((holdLimits (modelStep s diodes sensors powers) powers).tripped diodes sensors) := by
  change execThermalModelStep diodes sensors powers s = _
  unfold execThermalModelStep State.tripped
  rw [if_neg (by simp [h])]
  cases hcause : (holdLimits (modelStep s diodes sensors powers) powers).tripCause diodes sensors with
  | none => simp only [hcause]
  | some x => simp only [hcause]

theorem State.takeFree_heat {P : Nat → Prop} : s.HeatKept P s.takeFree.2 := (State.HeatKept.refl P s).upd

theorem State.tripped_heat (diodes : List (Int × Int)) (sensors : List Int) : s.HeatKept StackTempReg (s.tripped diodes sensors) := by
  unfold State.tripped
  split
  · exact s.takeFree_heat.trans (tripThermal_heat ..)
  · exact .refl _ s

theorem thermalModelStep_shown {s : State} (h : s.pwr.auxOn = true) (diodes : List (Int × Int)) (sensors : List Int) (powers : List Nat) :
    ∃ t, exec (.thermalModelStep diodes sensors powers) s = .next t ∧
      (∀ n, n < 1460 → SMap.get? t.thm.predicted n =
        some (Config.thermalPredict s.free s.boot.cal s.thm.nodes powers (s.fld Reg.THM_FLOW 15 0) s.inlet n)) ∧
      (∀ (spot : Nat) (a b : Int), spot < 1296 → diodes[spot]? = some (a, b) → s.fld (Reg.THM_SPOT + spot) 30 30 = 0 →
        s.fld (Reg.THM_SPOT + spot) 31 31 = 0 → a - b ≤ 30 → b - a ≤ 30 →
        SMap.get? t.thm.used spot = some ((max a b : Int) : Rat) ∧
        SMap.get? t.thm.nodes spot = some (t.pred spot + (((max a b : Int) : Rat) - t.pred spot) / 4)) ∧
      ∀ (k : Nat) (v : Int), k < 16 → sensors[k]? = some v →
        SMap.get? t.thm.used (1440 + k) = some (v : Rat) ∧
        SMap.get? t.thm.nodes (1440 + k) = some (t.pred (1440 + k) + ((v : Rat) - t.pred (1440 + k)) / 4) ∧
        t.fld (Reg.THM_STACK_TEMP + k) 15 0 = field16 v := by
  have hkept := (holdLimits_heat (modelStep s diodes sensors powers) powers).trans (State.tripped_heat _ diodes sensors)
  refine ⟨_, exec_thermalModelStep h diodes sensors powers, fun n hn => ?_, fun spot a b hspot hx h30 h31 hab hba => ?_, fun k v hk hx => ?_⟩
  · rw [hkept.predicted, modelStep_predicted]
    exact SMap.get?_map_keys _ _ (List.mem_range.2 hn)
  · have hset := (modelStep_spot s hspot hx h30 h31 hab hba sensors powers).heat hkept
    rw [State.pred, hset.predicted]
    exact ⟨hset.used, hset.node⟩
  · obtain ⟨hstack, hfld⟩ := modelStep_stack s hk hx diodes powers
    have hset := hstack.heat hkept
    rw [State.pred, hset.predicted]
    exact ⟨hset.used, hset.node, (hkept.fixes.fld ⟨by omega, by omega⟩ 15 0).trans hfld⟩

end

/-! ## The cool-down check (15 R465) -/

section
variable (s : State)

theorem eraseTrips_frame (h : s.tripOpen = false) : (eraseTrips s).tripOpen = false ∧ (eraseTrips s).thm = s.thm ∧
    s.RegsFrame (eraseTrips s) eventRegs := by
  unfold eraseTrips
  dsimp only
  split
  · exact ⟨h, rfl, State.RegsFrame.refl s _⟩
  · refine ⟨?_, recordEvent_thm .., fun a ha => recordEvent_reg _ _ _ _ _ _ ha⟩
    unfold State.tripOpen
    rw [recordEvent_card]
    rfl

theorem tripOpen_of_card {s t : State} (h : t.card = s.card) : t.tripOpen = s.tripOpen := by
  unfold State.tripOpen
  rw [h]

/-- Main power begins to charge. -/
def State.charging : State := (s.setPs psCharging).withPwr { s.pwr with step := 1 }

theorem tryEnable_eq (waited : Bool) : tryEnable s waited = if s.mayEnable waited then (eraseTrips s).charging else s := rfl

theorem State.charging_card : s.charging.card = s.card := rfl
theorem State.charging_thm : s.charging.thm = s.thm := rfl
theorem State.charging_reg {a : Nat} (h : a ≠ Reg.PWR_STATUS) : s.charging.reg a = s.reg a := State.reg_setFld_ne _ _ _ _ h

theorem tryEnable_frame (h : s.tripOpen = false) (waited : Bool) : (tryEnable s waited).tripOpen = false ∧ (tryEnable s waited).thm = s.thm ∧
    s.RegsFrame (tryEnable s waited) (Reg.PWR_STATUS :: eventRegs) := by
  rw [tryEnable_eq]
  split
  · obtain ⟨hopen, hthm, hregs⟩ := eraseTrips_frame s h
    refine ⟨(tripOpen_of_card (State.charging_card _)).trans hopen, (State.charging_thm _).trans hthm, fun a ha => ?_⟩
    exact (State.charging_reg _ fun e => ha (e ▸ List.mem_cons_self)).trans (hregs a fun hm => ha (List.mem_cons_of_mem _ hm))
  · exact ⟨h, rfl, State.RegsFrame.refl s _⟩

/-- The start stands at step 3 again. -/
def State.reentered : State :=
  (((s.setMs msStarting).setFld Reg.MGT_START_STATUS 11 8 3).setFld Reg.MGT_START_STATUS 19 16 0).setFld Reg.ADM_STATUS 2 0 1

theorem State.reentered_regsOnly : s.RegsOnly s.reentered [Reg.MGT_START_STATUS, Reg.ADM_STATUS] :=
  ((State.setFld_regsOnly_mem s (by decide)).trans (State.setFld_regsOnly_mem _ (by decide))).trans
    ((State.setFld_regsOnly_mem _ (by decide)).trans (State.setFld_regsOnly_mem _ (by decide)))

/-- The step of the start begins now. -/
def State.stepNow : State := { s with boot := { s.boot with stepAt := s.now } }

theorem reenterStart_eq : reenterStart s = tryEnable s.reentered.stepNow false := rfl

theorem State.stepNow_card : s.stepNow.card = s.card := rfl
theorem State.stepNow_thm : s.stepNow.thm = s.thm := rfl
theorem State.stepNow_reg (a : Nat) : s.stepNow.reg a = s.reg a := rfl

theorem reenterStart_frame (h : s.tripOpen = false) : (reenterStart s).tripOpen = false ∧ (reenterStart s).thm = s.thm ∧
    s.RegsFrame (reenterStart s) (Reg.MGT_START_STATUS :: Reg.ADM_STATUS :: Reg.PWR_STATUS :: eventRegs) := by
  have hre := s.reentered_regsOnly
  have hcard : s.reentered.stepNow.card = s.card := by rw [State.stepNow_card, hre.2]
  obtain ⟨hopen, hthm, hregs⟩ := tryEnable_frame s.reentered.stepNow ((tripOpen_of_card hcard).trans h) false
  rw [reenterStart_eq]
  refine ⟨hopen, ?_, fun a ha => ?_⟩
  · rw [hthm, State.stepNow_thm, hre.2]
  · simp only [List.mem_cons, not_or] at ha
    obtain ⟨hstart, hadm, hpwr, hev⟩ := ha
    rw [hregs a (by simp [hpwr]; simpa using hev), State.stepNow_reg, hre.1 a (by simp [hstart, hadm])]

/-- No trip record is open, and the cool-down model is put away. -/
def State.tripsClosed : State := { s with
  card := { s.card with trips := s.card.trips.map (fun r => { r with isOpen := false }) }
  thm := { s.thm with restart := [] } }

/-- The trip is over, as its registers show it. -/
def State.tripOver : State := settleReduced ((setSignal s.tripsClosed 5 false).setTh thNormal)

/-- The end of the trip with its event, whose first parameter is the length of the trip. -/
def State.tripCleared (p0 : Nat) (node diode : Int) : State := recordEvent s.tripOver 0x0508 0 p0 (tempParam node) (tempParam diode)

/-- The start waits for the end of the trip. -/
def State.awaitsCooldown : Bool :=
  s.boot.loaded && (decide (s.msState = msAux) || (decide (s.msState = msStarting) && decide (s.fld Reg.MGT_START_STATUS 11 8 = 3))) &&
    decide (s.psState = psAux) && !s.pwr.stayOff

theorem clearTrip_eq (node diode : Int) : ∃ p0, clearTrip s node diode =
    if (s.tripCleared p0 node diode).awaitsCooldown then reenterStart (s.tripCleared p0 node diode) else s.tripCleared p0 node diode := by
  unfold clearTrip
  extract_lets time thm card closed ended cleared
  have hended : ended = s.tripOver := rfl
  have hcleared : cleared = s.tripCleared ((s.tripOver.calendar - time) / 1000000000 % 2 ^ 32) node diode := by
    unfold State.tripCleared
    rw [← hended]
  clear_value cleared
  rw [hcleared]
  exact ⟨_, rfl⟩

theorem State.tripCleared_frame (p0 : Nat) (node diode : Int) : s.tripOver.RegsAndEvents (s.tripCleared p0 node diode) [] := recordEvent_frame ..

theorem State.tripsClosed_open : s.tripsClosed.tripOpen = false := by
  change (s.card.trips.map _).any _ = false
  simp

theorem State.tripsClosed_reduced : s.tripsClosed.thm.reduced = s.thm.reduced := rfl

theorem State.tripOver_regsOnly : s.tripsClosed.RegsOnly s.tripOver [Reg.THM_STATUS, Reg.MGT_SIGNALS] :=
  ((State.setFld_regsOnly_mem s.tripsClosed (by decide)).trans (State.setFld_regsOnly_mem _ (by decide))).trans
    ((settleReduced_regsOnly _).mono (by decide))

theorem State.tripOver_thState : s.tripOver.thState = if s.thm.reduced then thReduced else thNormal := by
  have hthm : ((setSignal s.tripsClosed 5 false).setTh thNormal).thm = s.tripsClosed.thm :=
    (State.setFld_thm _ Reg.THM_STATUS 2 0 thNormal).trans (setSignal_thm s.tripsClosed 5 false)
  unfold State.tripOver
  rw [settleReduced_thState (.inl (State.thState_setTh _ (by decide))), hthm, State.tripsClosed_reduced]

theorem State.tripOver_signal : s.tripOver.signal 5 = false :=
  (State.signal_congr ((settleReduced_regsOnly _).1 _ (by decide)) 5).trans
    ((State.signal_congr (State.reg_setFld_ne _ _ _ _ (by decide)) 5).trans (setSignal_signal_same s.tripsClosed (by decide) false))

theorem clearTrip_shown (node diode : Int) : (clearTrip s node diode).tripOpen = false ∧ (clearTrip s node diode).signal 5 = false ∧
    (clearTrip s node diode).thState = if s.thm.reduced then thReduced else thNormal := by
  obtain ⟨p0, heq⟩ := clearTrip_eq s node diode
  rw [heq]
  have hcard : (s.tripCleared p0 node diode).card = s.tripOver.card := by rw [(s.tripCleared_frame p0 node diode).2]
  have hopen : (s.tripCleared p0 node diode).tripOpen = false := by
    rw [tripOpen_of_card hcard, tripOpen_of_card (t := s.tripOver) (s := s.tripsClosed) (by rw [s.tripOver_regsOnly.2]), s.tripsClosed_open]
  have hreg {a : Nat} (ha : a ∉ eventRegs) : (s.tripCleared p0 node diode).reg a = s.tripOver.reg a := (s.tripCleared_frame p0 node diode).1 a (by simpa using ha)
  generalize s.tripCleared p0 node diode = u at hopen hreg
  split
  · obtain ⟨hclosed, -, hframe⟩ := reenterStart_frame u hopen
    exact ⟨hclosed, (State.signal_congr ((hframe _ (by decide)).trans (hreg (by decide))) 5).trans s.tripOver_signal,
      (thState_of_reg ((hframe _ (by decide)).trans (hreg (by decide)))).trans s.tripOver_thState⟩
  · exact ⟨hopen, (State.signal_congr (hreg (by decide)) 5).trans s.tripOver_signal, (thState_of_reg (hreg (by decide))).trans s.tripOver_thState⟩

theorem exec_cooldownCheck {s : State} (haux : s.pwr.auxOn = true) (hopen : s.tripOpen = true) (htrip : s.thState ≠ thTripped)
    (diodes : List (Int × Int)) : exec (.cooldownCheck diodes) s =
      match (coolModel s).cooldownFails (highest ((coolModel s).thm.restart.map (fun e => e.2.floor))) (highest ((coolModel s).inService diodes)) with
      | none => .next (clearTrip (coolModel s) (highest ((coolModel s).thm.restart.map (fun e => e.2.floor))) (highest ((coolModel s).inService diodes)))
      | some x => if s.pwr.mainIn && !s.thm.refused then
          .next (recordEvent ((coolModel s).takeFree.2.withThm { (coolModel s).thm with refused := true }) 0x0509 0 x.1 x.2 0)
        else .next (coolModel s) := by
  change execCooldownCheck diodes s = _
  unfold execCooldownCheck
  rw [if_neg (by simp [haux, hopen, htrip])]
  rfl

theorem coolModel_inService (diodes : List (Int × Int)) : (coolModel s).inService diodes = s.inService diodes := rfl
theorem coolModel_reduced : (coolModel s).thm.reduced = s.thm.reduced := rfl
theorem coolModel_card : (coolModel s).card = s.card := rfl
theorem coolModel_reg (a : Nat) : (coolModel s).reg a = s.reg a := rfl

/-- A failure of the check is noted once. -/
def State.coolRefused : State := (coolModel s).takeFree.2.withThm { (coolModel s).thm with refused := true }

theorem State.coolRefused_card : s.coolRefused.card = s.card := rfl
theorem State.coolRefused_reg (a : Nat) : s.coolRefused.reg a = s.reg a := rfl
theorem State.coolRefused_sameClock : s.SameClock s.coolRefused := {}
theorem State.coolRefused_refused : s.coolRefused.thm.refused = true := rfl

theorem cooldownCheck_shown {s : State} (haux : s.pwr.auxOn = true) (hopen : s.tripOpen = true) (htrip : s.thState ≠ thTripped)
    (diodes : List (Int × Int)) : ∃ t, exec (.cooldownCheck diodes) s = .next t ∧
      ((coolModel s).cooldownFails (highest ((coolModel s).thm.restart.map (fun e => e.2.floor))) (highest (s.inService diodes)) = none →
        t.tripOpen = false ∧ t.signal 5 = false ∧ t.thState = (if s.thm.reduced then thReduced else thNormal)) ∧
      (∀ c v, (coolModel s).cooldownFails (highest ((coolModel s).thm.restart.map (fun e => e.2.floor))) (highest (s.inService diodes)) =
          some (c, v) → t.tripOpen = true ∧ t.thState = s.thState ∧
        (s.pwr.mainIn = true → s.thm.refused = false → t.thm.refused = true ∧ s.Records t (s.record 0x0509 0 c v 0))) := by
  have hex := exec_cooldownCheck haux hopen htrip diodes
  rw [coolModel_inService] at hex
  generalize (coolModel s).cooldownFails (highest ((coolModel s).thm.restart.map (fun e => e.2.floor))) (highest (s.inService diodes)) = r at hex ⊢
  cases r with
  | none =>
    refine ⟨_, hex, fun _ => ?_, fun _ _ h => by cases h⟩
    rw [← coolModel_reduced]
    exact clearTrip_shown (coolModel s) ..
  | some x =>
    dsimp only at hex
    by_cases hnote : (s.pwr.mainIn && !s.thm.refused) = true
    · rw [if_pos hnote] at hex
      refine ⟨_, hex, fun h => (by cases h), fun c v h => ?_⟩
      obtain rfl := Option.some.inj h
      refine ⟨(tripOpen_of_card ((recordEvent_card ..).trans s.coolRefused_card)).trans hopen,
        thState_of_reg ((recordEvent_reg _ _ _ _ _ _ (by decide)).trans (s.coolRefused_reg _)), fun _ _ => ⟨?_, ?_⟩⟩
      · exact (congrArg Thermal.refused (recordEvent_thm s.coolRefused 0x0509 0 c v 0)).trans s.coolRefused_refused
      · exact s.coolRefused_sameClock.records 0x0509 0 c v 0
    · rw [if_neg hnote] at hex
      refine ⟨_, hex, fun h => (by cases h), fun c v h => ⟨(tripOpen_of_card (coolModel_card s)).trans hopen,
        thState_of_reg (coolModel_reg s _), fun hin href => absurd ?_ hnote⟩⟩
      rw [hin, href]
      rfl

end

/-! ## The obligation -/

/-- Settles O55: each clause is what its command leaves, by the lemma about that command. -/
theorem heatIsHeld : Obligations.HeatIsHeld := by
  unfold Obligations.HeatIsHeld
  refine ⟨fun s diodes sensors powers h => thermalModelStep_shown h diodes sensors powers, fun s cluster hin hwell => spotGuardLift_shown hin hwell,
    fun s power hover hon => ?west, fun s power hover hon => ?east, fun s flow inlet outlet h => ?coolant,
    fun s hloss hflow hin hplan => coolantRestored_shown hloss hflow hin hplan, fun s place value haux htrip hcool => thermalTrip_shown haux htrip hcool place value,
    fun s h => tripHoldEnd_shown h, fun s diodes haux hopen htrip => cooldownCheck_shown haux hopen htrip diodes,
    fun s haux hcard => stateSave_shown haux hcard⟩
  case west =>
    obtain ⟨t, hex, hthm, hregs, hvset⟩ := capExceeded_shown hover hon
    exact ⟨t, hex, by rw [hthm]; rfl, by rw [hthm]; rfl, hregs, hvset⟩
  case east =>
    obtain ⟨t, hex, hthm, -, -⟩ := capExceeded_shown hover hon
    exact ⟨t, hex, by rw [hthm]; rfl, by rw [hthm]; rfl⟩
  case coolant =>
    obtain ⟨t, hex, hshown, hstate⟩ := coolantSample_shown flow inlet outlet h
    exact ⟨t, hex, hshown.flows, hshown.fcool, hshown.temp, hshown.flow, hshown.inRange, hstate⟩

end Sys2Proof.Machine

namespace Sys2Proof.Machine

/-! ## What the work on some tiles leaves of the module -/

/-- The registers of the pages of some tiles. -/
def TileRegOf (X : Nat → Prop) (a : Nat) : Prop := ∃ ti off, X ti ∧ off < 0x1000 ∧ a = tileReg ti off

theorem not_tileRegOf_module {X : Nat → Prop} {a : Nat} (h : a < tilePages) : ¬TileRegOf X a := by
  rintro ⟨ti, off, -, -, rfl⟩
  unfold tileReg at h
  omega

theorem not_tileRegOf_other {X : Nat → Prop} {ti off : Nat} (h : ¬X ti) (hoff : off < 0x1000) : ¬TileRegOf X (tileReg ti off) := by
  rintro ⟨tj, o, hX, ho, he⟩
  unfold tileReg at he
  obtain rfl : ti = tj := by omega
  exact h hX

theorem tileReg_notMem_eventRegs (ti off : Nat) : tileReg ti off ∉ eventRegs := by
  simp only [eventRegs, List.mem_cons, List.not_mem_nil, or_false, Reg.EVT_LOST, Reg.BST_ERR_OVERFLOWS, Reg.BST_ERR_STATUS]
  unfold tileReg tilePages
  omega

/-- Only the tiles in `X`, their registers and the recorder change, beside what no tile shows. -/
structure State.Within (X : Nat → Prop) (s t : State) : Prop where
  tiles : ∀ ti, ¬X ti → t.tile ti = s.tile ti
  regs : ∀ a, a ∉ eventRegs → ¬TileRegOf X a → t.reg a = s.reg a
  plan : t.plan = s.plan
  sage : t.sage = s.sage
  west : t.ctl.west = s.ctl.west
  east : t.ctl.east = s.ctl.east
  now : t.now = s.now

namespace State.Within
variable {X Y : Nat → Prop} {s t u : State} {ti : Nat}

theorem refl (X : Nat → Prop) (s : State) : s.Within X s := ⟨fun _ _ => rfl, fun _ _ _ => rfl, rfl, rfl, rfl, rfl, rfl⟩

theorem trans (h : s.Within X t) (k : t.Within X u) : s.Within X u where
  tiles ti hti := (k.tiles ti hti).trans (h.tiles ti hti)
  regs a he ha := (k.regs a he ha).trans (h.regs a he ha)
  plan := k.plan.trans h.plan
  sage := k.sage.trans h.sage
  west := k.west.trans h.west
  east := k.east.trans h.east
  now := k.now.trans h.now

theorem mono (h : s.Within X t) (k : ∀ ti, X ti → Y ti) : s.Within Y t :=
  { h with
    tiles := fun ti hti => h.tiles ti fun hX => hti (k ti hX)
    regs := fun a he ha => h.regs a he fun ⟨ti, off, hX, hoff, e⟩ => ha ⟨ti, off, k ti hX, hoff, e⟩ }

theorem setReg (h : s.Within X t) (hX : X ti) {off : Nat} {v : Word} (hoff : off < 0x1000) : s.Within X (t.setReg (tileReg ti off) v) :=
  h.trans ⟨fun _ _ => rfl, fun _ _ ha => State.reg_setReg_ne _ _ fun e => ha ⟨ti, off, hX, hoff, e⟩, rfl, rfl, rfl, rfl, rfl⟩

theorem setFld (h : s.Within X t) (hX : X ti) {off hi lo v : Nat} (hoff : off < 0x1000) : s.Within X (t.setFld (tileReg ti off) hi lo v) :=
  h.setReg hX hoff

theorem setTile (h : s.Within X t) (hX : X ti) (x : Tile) : s.Within X (t.setTile ti x) :=
  h.trans ⟨fun tj htj => by rw [State.tile_setTile, if_neg fun e : tj = ti => htj (e ▸ hX)], fun _ _ _ => rfl, rfl, rfl, rfl, rfl, rfl⟩

theorem modTile (h : s.Within X t) (hX : X ti) (f : Tile → Tile) : s.Within X (t.modTile ti f) := h.setTile hX _

theorem recordEvent (h : s.Within X t) (code source p0 p1 p2 : Nat) : s.Within X (recordEvent t code source p0 p1 p2) := by
  have hframe := recordEvent_frame t code source p0 p1 p2 []
  refine h.trans ⟨fun ti _ => ?_, fun a he _ => hframe.1 a (by simpa using he), ?_, ?_, ?_, ?_, ?_⟩
  · unfold State.tile
    rw [hframe.2]
  all_goals rw [hframe.2]

theorem ite {c : Prop} [Decidable c] (h : s.Within X t) (k : s.Within X u) : s.Within X (if c then t else u) := by
  split
  · exact h
  · exact k

theorem foldl {α : Type} {g : State → α → State} {l : List α} (h : s.Within X t) (k : ∀ (x : State) a, a ∈ l → x.Within X (g x a)) :
    s.Within X (l.foldl g t) := List.foldlRecOn l g h fun x hx a ha => hx.trans (k x a ha)

variable (h : s.Within X t)
include h

theorem halfReset (x : Half) : t.halfReset x = s.halfReset x := by
  cases x with
  | west => exact h.west
  | east => exact h.east

theorem halfTiles (x : Half) : t.halfTiles x = s.halfTiles x := State.halfTiles_congr x h.plan

theorem module {a : Nat} (he : a ∉ eventRegs) (ha : a < tilePages) : t.reg a = s.reg a := h.regs a he (not_tileRegOf_module ha)

theorem otherReg (hti : ¬X ti) {off : Nat} (hoff : off < 0x1000) : t.reg (tileReg ti off) = s.reg (tileReg ti off) :=
  h.regs _ (tileReg_notMem_eventRegs ti off) (not_tileRegOf_other hti hoff)

end State.Within

/-! ## A tile goes into reset (16 R486, Table 16.5 steps 1 and 2) -/

section
variable {X : Nat → Prop} (s : State) {ti : Nat} (hX : X ti)
include hX

theorem putGranule_within (k : Nat) (c : BitVec 288) : s.Within X (s.putGranule ti k c) := (State.Within.refl X s).modTile hX _

theorem addCut_within (c : CutEntry) : s.Within X (addCut s ti c) := (State.Within.refl X s).modTile hX _

theorem cutBurst_within (off : Nat) : s.Within X (cutBurst s ti off) :=
  ((State.Within.refl X s).foldl fun x _ _ => putGranule_within x hX ..).trans (addCut_within _ hX _)

theorem writePair_within (layer pair : Nat) (outs : List IbuOut) : s.Within X (writePair s ti layer pair outs).1 := by
  unfold writePair
  refine (State.Within.refl X s).foldl fun x b _ => ?_
  exact .ite (putGranule_within x hX ..) (.ite (putGranule_within x hX ..) (.ite (putGranule_within x hX ..) (putGranule_within x hX ..)))

theorem runStep_within (pair : Nat) (f : IbuFields) (left : Nat) : s.Within X (runStep s ti pair f left) := by
  unfold runStep
  extract_lets total step ce r s1 a s2 s3
  have hlo : Reg.IBU_STEPS_LO < 0x1000 := by decide
  have h1 : s.Within X s1 := (writePair_within s hX ..).setReg hX (by decide)
  have h2 : s.Within X s2 := by
    have hstep := h1.setReg hX (v := BitVec.ofNat 32 (s1.reg64 a + 1)) hlo
    exact (h1.setReg hX hlo).setReg hX (off := Reg.IBU_STEPS_LO + 1) (by decide)
  split
  · exact h2
  · exact ((h2.setReg hX (by decide)).setFld hX (by decide)).recordEvent ..

theorem haltIbu_within (cmd layer pair : Nat) (e : QEntry) : s.Within X (haltIbu s ti cmd layer pair e) := by
  unfold haltIbu
  split
  · exact .ite (runStep_within s hX ..) ((runStep_within s hX ..).trans (addCut_within _ hX _))
  · exact .refl X s

theorem resetTileRegs_within : s.Within X (resetTileRegs s ti) := by
  refine ⟨fun _ _ => rfl, fun a _ ha => ?_, rfl, rfl, rfl, rfl, rfl⟩
  have hout : ¬(tileReg ti 0 ≤ a ∧ a < tileReg ti 0x1000) := fun ⟨hlo, hhi⟩ => by
    refine ha ⟨ti, a - tileReg ti 0, hX, ?_, ?_⟩
    · unfold tileReg at *
      omega
    · unfold tileReg at *
      omega
  unfold State.reg SMap.getD resetTileRegs
  dsimp only
  rw [SMap.get?_filter s.regs (fun k => !(decide (tileReg ti 0 ≤ k) && decide (k < tileReg ti 0x1000) && resetsOnReset (k - tileReg ti 0)))]
  rw [if_pos]
  simp only [Bool.not_eq_true', Bool.and_eq_false_iff, decide_eq_false_iff_not]
  exact .inl (not_and_or.1 hout)

end

/-- The IBUs of a tile halted, with what they had left in the cut list. -/
def State.ibusHalted (s : State) (ti : Nat) : State :=
  (s.tile ti).runningPairs.foldl (fun t x => haltIbu t ti (s.reg (tileReg ti Reg.TIL_CMD_COUNT_LO)).toNat x.1 x.2.1 x.2.2) s

/-- What a tile keeps over a reset. -/
def Tile.logicReset (t : Tile) : Tile := { t with
  generation := t.generation + 1, sram := [], written := [], segs := [], queue := [], handover := none, ordinal := 0, slots := [], recv := []
  syncs := [], eject := [], held := none, xlt := [], dirCache := [], attnRecs := [], waiting := [] }

/-- The tile logic in reset. -/
def State.logicReset (s : State) (ti : Nat) : State :=
  ((((resetTileRegs s ti).modTile ti Tile.logicReset).setTilState ti tilReset).setFld (tileReg ti Reg.BDM_STATUS) 2 0 bdmKeeper).setFld
    (tileReg ti Reg.IBU_STATUS) 2 0 3

theorem resetTile_eq (s : State) (ti : Nat) : resetTile s ti = (s.ibusHalted ti).logicReset ti := rfl

section
variable (s : State) {ti : Nat}

theorem State.ibusHalted_within (ti : Nat) : s.Within (· = ti) (s.ibusHalted ti) :=
  (State.Within.refl _ s).foldl fun x _ _ => haltIbu_within (X := (· = ti)) x rfl ..

theorem State.logicReset_within (ti : Nat) : s.Within (· = ti) (s.logicReset ti) := by
  unfold State.logicReset State.setTilState
  exact ((((resetTileRegs_within (X := (· = ti)) s rfl).modTile rfl Tile.logicReset).setFld rfl (by decide)).setFld rfl (by decide)).setFld rfl (by decide)

theorem resetTile_within (ti : Nat) : s.Within (· = ti) (resetTile s ti) := by
  rw [resetTile_eq]
  exact (s.ibusHalted_within ti).trans (State.logicReset_within _ ti)

/-- The logic of a tile stands in reset, and its keeper has the ports. -/
structure State.TileInReset (s : State) (ti : Nat) : Prop where
  state : s.tilState ti = tilReset
  queue : (s.tile ti).queue = []
  segs : (s.tile ti).segs = []
  sram : (s.tile ti).sram = []
  keeper : s.fld (tileReg ti Reg.BDM_STATUS) 2 0 = bdmKeeper

theorem State.logicReset_tile (ti : Nat) : (s.logicReset ti).tile ti = (s.tile ti).logicReset := by
  have htiles : (s.logicReset ti).tiles = ((resetTileRegs s ti).modTile ti Tile.logicReset).tiles := by
    rw [State.logicReset, State.setTilState, State.setFld_tiles, State.setFld_tiles, State.setFld_tiles]
  have hkept : (resetTileRegs s ti).tile ti = s.tile ti := rfl
  unfold State.tile at *
  rw [htiles, ← hkept]
  exact State.tile_modTile_same ..

theorem resetTile_inReset (ti : Nat) : (resetTile s ti).TileInReset ti := by
  rw [resetTile_eq]
  generalize s.ibusHalted ti = u
  have htile := u.logicReset_tile ti
  refine ⟨?_, by rw [htile]; rfl, by rw [htile]; rfl, by rw [htile]; rfl, ?_⟩
  · refine (State.fld_setFld_ne _ _ _ _ _ _ (tileReg_inj ti (by decide))).trans ((State.fld_setFld_ne _ _ _ _ _ _ (tileReg_inj ti (by decide))).trans ?_)
    exact (State.fld_setFld_same _ _ _ (by decide) (by decide)).trans rfl
  · exact (State.fld_setFld_ne _ _ _ _ _ _ (tileReg_inj ti (by decide))).trans (State.fld_setFld_same _ _ _ (by decide) (by decide))

theorem State.TileInReset.within {s t : State} {X : Nat → Prop} (h : s.TileInReset ti) (k : s.Within X t) (hX : ¬X ti) : t.TileInReset ti := by
  have htile := k.tiles ti hX
  refine ⟨(congrArg (getBits · 2 0) (k.otherReg hX (by decide))).trans h.state, ?_, ?_, ?_,
    (congrArg (getBits · 2 0) (k.otherReg hX (by decide))).trans h.keeper⟩
  · rw [htile, h.queue]
  · rw [htile, h.segs]
  · rw [htile, h.sram]

theorem foldl_resetTile_within (l : List Nat) : s.Within (· ∈ l) (l.foldl resetTile s) :=
  (State.Within.refl _ s).foldl fun x ti hti => (resetTile_within x ti).mono fun _ e => e ▸ hti

theorem foldl_resetTile_inReset (l : List Nat) : ∀ ti ∈ l, (l.foldl resetTile s).TileInReset ti := by
  induction l generalizing s with
  | nil => exact nofun
  | cons a l ih =>
    intro ti hti
    rw [List.foldl_cons]
    by_cases hl : ti ∈ l
    · exact ih (resetTile s a) ti hl
    · obtain rfl := (List.mem_cons.1 hti).resolve_right hl
      exact (resetTile_inReset s ti).within (foldl_resetTile_within _ l) hl

/-! ### Tiles with no command -/

theorem Tile.runningPairs_idle {t : Tile} (h : t.queue = []) : t.runningPairs = [] := by
  unfold Tile.runningPairs
  rw [h]
  rfl

/-- Where no command waits, a reset leaves the recorder, the slices and the empty queues. -/
structure State.Calmed (s t : State) : Prop where
  clock : s.SameClock t
  queue : ∀ ti, (s.tile ti).queue = [] → (t.tile ti).queue = []

theorem State.Calmed.trans {s t u : State} (h : s.Calmed t) (k : t.Calmed u) : s.Calmed u :=
  ⟨h.clock.trans k.clock, fun ti hq => k.queue ti (h.queue ti hq)⟩

theorem modTile_calmed {f : Tile → Tile} (ti : Nat) (h : ∀ x : Tile, x.queue = [] → (f x).queue = []) : s.Calmed (s.modTile ti f) := by
  refine ⟨{}, fun tj hq => ?_⟩
  rw [State.tile_modTile]
  split
  next e => exact h _ (e ▸ hq)
  next => exact hq

theorem State.SameClock.setFld_calmed (a hi lo v : Nat) : s.Calmed (s.setFld a hi lo v) := ⟨{}, fun _ hq => hq⟩

theorem resetTile_idle (h : (s.tile ti).queue = []) : resetTile s ti = s.logicReset ti := by
  rw [resetTile_eq, State.ibusHalted, Tile.runningPairs_idle h]
  rfl

theorem resetTileRegs_calmed (ti : Nat) : s.Calmed (resetTileRegs s ti) := ⟨{}, fun _ hq => hq⟩

theorem State.logicReset_calmed (ti : Nat) : s.Calmed (s.logicReset ti) :=
  (((resetTileRegs_calmed s ti).trans (modTile_calmed _ ti fun _ _ => rfl)).trans (State.SameClock.setFld_calmed ..)).trans
    ((State.SameClock.setFld_calmed ..).trans (State.SameClock.setFld_calmed ..))

theorem State.logicReset_slice (ti tj : Nat) : ((s.logicReset ti).tile tj).slice = (s.tile tj).slice ∧
    ((s.logicReset ti).tile tj).sliceGen = (s.tile tj).sliceGen := by
  by_cases h : tj = ti
  · subst h
    rw [State.logicReset_tile]
    exact ⟨rfl, rfl⟩
  · rw [(s.logicReset_within ti).tiles tj h]
    exact ⟨rfl, rfl⟩

theorem foldl_resetTile_calmed (hidle : ∀ ti, (s.tile ti).queue = []) (l : List Nat) : s.Calmed (l.foldl resetTile s) ∧
    ∀ tj k, (l.foldl resetTile s).rawGranule tj k = s.rawGranule tj k := by
  induction l generalizing s with
  | nil => exact ⟨⟨{}, fun _ h => h⟩, fun _ _ => rfl⟩
  | cons a l ih =>
    have hone := s.logicReset_calmed a
    rw [List.foldl_cons, resetTile_idle s (hidle a)]
    obtain ⟨hcalm, hslice⟩ := ih (s.logicReset a) fun ti => hone.queue ti (hidle ti)
    refine ⟨hone.trans hcalm, fun tj k => (hslice tj k).trans ?_⟩
    obtain ⟨hs, hg⟩ := s.logicReset_slice a tj
    exact State.rawGranule_congr hs hg k

theorem putGranule_calmed (k : Nat) (c : BitVec 288) : s.Calmed (s.putGranule ti k c) := modTile_calmed s ti fun _ h => h

theorem State.Calmed.refl : s.Calmed s := ⟨{}, fun _ h => h⟩

theorem State.Calmed.foldl {α : Type} {g : State → α → State} {l : List α} {t : State} (h : s.Calmed t)
    (k : ∀ (x : State) a, a ∈ l → x.Calmed (g x a)) : s.Calmed (l.foldl g t) := List.foldlRecOn l g h fun x hx a ha => hx.trans (k x a ha)

theorem addCut_calmed (c : CutEntry) : s.Calmed (addCut s ti c) := modTile_calmed s ti fun _ h => h

theorem cutBurst_calmed (off : Nat) : s.Calmed (cutBurst s ti off) := by
  unfold cutBurst
  exact ((State.Calmed.refl s).foldl s fun x _ _ => putGranule_calmed x ..).trans (addCut_calmed ..)

end

/-! ## A half goes into reset (Table 16.5 steps 1 and 2) -/

section
variable (s : State) (h : Half) (cause : Nat) (byPin : Bool) (cuts : List (Nat × Nat))

/-- The half's budget taken and its steps dropped. -/
def State.halfDropped : State := dropOnHalf (setBudget s h true) h 3

/-- The bursts that were crossing to the half are cut. -/
def State.burstsCut : State := cuts.foldl (fun t c => if (s.halfTiles h).contains c.1 then cutBurst t c.1 c.2 else t) s

/-- The half's tiles in reset. -/
def State.tilesReset : State := (s.halfTiles h).foldl resetTile (s.burstsCut h cuts)

/-- The packets of the half taken out of the mesh, and its tiles noted as untrained. -/
def State.meshCleared (ts : List Nat) : State := { s with
  mesh := s.mesh.filter (fun p => !lostInReset h p)
  ctl := { s.ctl with untrained := s.ctl.untrained.filter (fun ti => decide (halfOf ti ≠ h)) ++ ts } }

theorem State.meshCleared_now (ts : List Nat) : (s.meshCleared h ts).now = s.now := rfl

theorem resetHalf_eq : resetHalf s h cause byPin cuts =
    settleAdm (endTestIn ((((s.halfDropped h).tilesReset h cuts).meshCleared h ((s.halfDropped h).halfTiles h)).setHalfReset h
      ⟨1, ((s.halfDropped h).tilesReset h cuts).now, cause, byPin⟩) h) := by
  unfold resetHalf
  extract_lets s1 ts s2 s3 c s4
  have h1 : s1 = s.halfDropped h := rfl
  have h2 : s2 = (s.halfDropped h).burstsCut h cuts := rfl
  have h3 : s3 = (s.halfDropped h).tilesReset h cuts := rfl
  have h4 : s4 = s3.meshCleared h ts := rfl
  have hts : ts = (s.halfDropped h).halfTiles h := rfl
  clear_value s4
  rw [h4, State.meshCleared_now, hts, h3]

theorem State.halfDropped_frame : s.halfDropped h = { s with sage := (s.halfDropped h).sage } := by
  cases h
  · rfl
  · rfl

theorem State.halfDropped_batches : (s.halfDropped h).sage.batches = s.sage.batches.map (fun b =>
    if b.dropped.isNone && !b.committed && b.need.any (fun x => decide (halfOf x.1 = h)) then { b with dropped := some 3 } else b) := by
  cases h
  · rfl
  · rfl

theorem State.halfDropped_halfTiles (x : Half) : (s.halfDropped h).halfTiles x = s.halfTiles x :=
  State.halfTiles_congr x (by rw [s.halfDropped_frame])

theorem State.mem_halfTiles {ti : Nat} : ti ∈ s.halfTiles h ↔ ti < tileCount ∧ halfOf ti = h ∧ s.usable ti = true := by
  unfold State.halfTiles
  rw [List.mem_filter, List.mem_range, Bool.and_eq_true, decide_eq_true_eq]

theorem State.burstsCut_within : s.Within (fun ti => ti ∈ s.halfTiles h ∧ ∃ c ∈ cuts, c.1 = ti) (s.burstsCut h cuts) := by
  refine (State.Within.refl _ s).foldl fun t c hc => ?_
  split
  next hin => exact cutBurst_within t ⟨List.contains_iff_mem.1 hin, c, hc, rfl⟩ _
  next => exact .refl _ t

theorem State.burstsCut_calmed : s.Calmed (s.burstsCut h cuts) := by
  refine (State.Calmed.refl s).foldl s fun t c _ => ?_
  split
  · exact cutBurst_calmed t _
  · exact .refl t

theorem State.tilesReset_within : s.Within (· ∈ s.halfTiles h) (s.tilesReset h cuts) :=
  ((s.burstsCut_within h cuts).mono fun _ hti => hti.1).trans (foldl_resetTile_within ..)

theorem State.tilesReset_inReset : ∀ ti ∈ s.halfTiles h, (s.tilesReset h cuts).TileInReset ti :=
  fun ti hti => foldl_resetTile_inReset (s.burstsCut h cuts) (s.halfTiles h) ti hti

theorem State.tilesReset_calmed (hidle : ∀ ti, (s.tile ti).queue = []) : s.Calmed (s.tilesReset h cuts) ∧
    ∀ ti k, (∀ c ∈ cuts, c.1 ≠ ti) → (s.tilesReset h cuts).rawGranule ti k = s.rawGranule ti k := by
  have hcut := s.burstsCut_calmed h cuts
  obtain ⟨hcalm, hslice⟩ := foldl_resetTile_calmed (s.burstsCut h cuts) (fun ti => hcut.queue ti (hidle ti)) (s.halfTiles h)
  refine ⟨hcut.trans hcalm, fun ti k hnone => (hslice ti k).trans ?_⟩
  have htile := (s.burstsCut_within h cuts).tiles ti fun ⟨_, c, hc, e⟩ => hnone c hc e
  exact State.rawGranule_congr (congrArg Tile.slice htile) (congrArg Tile.sliceGen htile) k

/-- The two registers of the module that a reset of a half may write. -/
def resetRegsOfModule : List Nat := [Reg.ADM_STATUS, Reg.BST_TEST_STATUS]

theorem endTestIn_frame : s.RegsFrame (endTestIn s h) resetRegsOfModule ∧
    endTestIn s h = { s with regs := (endTestIn s h).regs, bist := (endTestIn s h).bist } := by
  unfold endTestIn
  split
  · exact ⟨State.RegsFrame.refl s _, rfl⟩
  · split
    · exact ⟨State.RegsFrame.refl s _, rfl⟩
    · have hset : s.RegsFrame (s.setReg Reg.BST_TEST_STATUS (setBits 0 31 30 3)) resetRegsOfModule :=
        fun a ha => State.reg_setReg_ne _ _ fun e : a = Reg.BST_TEST_STATUS => ha (e ▸ by decide)
      exact ⟨hset.upd, rfl⟩

theorem settleAdm_regsOnly : s.RegsOnly (settleAdm s) resetRegsOfModule := by
  unfold settleAdm
  split
  · exact State.setFld_regsOnly_mem s (by decide)
  · exact ⟨State.RegsFrame.refl s _, rfl⟩

/-- The step that ends the reset's beginning, on a state whose tiles are in reset. -/
def State.resetNoted (r : HalfReset) (ts : List Nat) : State := settleAdm (endTestIn ((s.meshCleared h ts).setHalfReset h r) h)

theorem State.setHalfReset_frame (r : HalfReset) : s.setHalfReset h r = { s with ctl := (s.setHalfReset h r).ctl } := by
  cases h
  · rfl
  · rfl

theorem State.setHalfReset_same (r : HalfReset) : (s.setHalfReset h r).halfReset h = r := by
  cases h
  · rfl
  · rfl

theorem State.setHalfReset_other (r : HalfReset) {x : Half} (hne : x ≠ h) : (s.setHalfReset h r).halfReset x = s.halfReset x := by
  cases h
  · cases x
    · exact absurd rfl hne
    · rfl
  · cases x
    · rfl
    · exact absurd rfl hne

/-- What the note of a reset leaves. -/
structure State.Noted (s t : State) : Prop where
  regs : s.RegsFrame t resetRegsOfModule
  tiles : t.tiles = s.tiles
  plan : t.plan = s.plan
  sage : t.sage = s.sage
  clock : s.SameClock t

theorem State.resetNoted_noted (r : HalfReset) (ts : List Nat) : s.Noted (s.resetNoted h r ts) := by
  have hset := (s.meshCleared h ts).setHalfReset_frame h r
  have hend := endTestIn_frame ((s.meshCleared h ts).setHalfReset h r) h
  have hadm := settleAdm_regsOnly (endTestIn ((s.meshCleared h ts).setHalfReset h r) h)
  have hmesh : (s.meshCleared h ts).tiles = s.tiles ∧ (s.meshCleared h ts).plan = s.plan ∧ (s.meshCleared h ts).sage = s.sage ∧
      s.SameClock (s.meshCleared h ts) ∧ (s.meshCleared h ts).regs = s.regs := ⟨rfl, rfl, rfl, {}, rfl⟩
  obtain ⟨htiles, hplan, hsage, hclock, hregs⟩ := hmesh
  have hregs' : ((s.meshCleared h ts).setHalfReset h r).regs = s.regs := by rw [hset]; exact hregs
  unfold State.resetNoted
  refine ⟨fun a ha => ?_, ?_, ?_, ?_, ?_⟩
  · exact (hadm.1 a ha).trans ((hend.1 a ha).trans (State.reg_congr hregs' a))
  · rw [hadm.2, hend.2, hset]
    exact htiles
  · rw [hadm.2, hend.2, hset]
    exact hplan
  · rw [hadm.2, hend.2, hset]
    exact hsage
  · rw [hadm.2, hend.2, hset]
    exact ⟨hclock.evt, hclock.sup, hclock.now, hclock.tb⟩

theorem State.resetNoted_halfReset (r : HalfReset) (ts : List Nat) (x : Half) :
    (s.resetNoted h r ts).halfReset x = ((s.meshCleared h ts).setHalfReset h r).halfReset x := by
  have hend := endTestIn_frame ((s.meshCleared h ts).setHalfReset h r) h
  have hadm := settleAdm_regsOnly (endTestIn ((s.meshCleared h ts).setHalfReset h r) h)
  refine State.halfReset_congr x ?_
  rw [State.resetNoted, hadm.2, hend.2]

theorem State.resetNoted_same (r : HalfReset) (ts : List Nat) : (s.resetNoted h r ts).halfReset h = r :=
  (s.resetNoted_halfReset h r ts h).trans (State.setHalfReset_same ..)

theorem State.resetNoted_other (r : HalfReset) (ts : List Nat) {x : Half} (hne : x ≠ h) : (s.resetNoted h r ts).halfReset x = s.halfReset x := by
  rw [State.resetNoted_halfReset, State.setHalfReset_other _ _ _ hne]
  cases x
  · rfl
  · rfl

theorem State.Noted.tile {s t : State} (k : s.Noted t) (ti : Nat) : t.tile ti = s.tile ti := by
  unfold State.tile
  rw [k.tiles]

theorem tileReg_notMem_resetRegs (ti off : Nat) : tileReg ti off ∉ resetRegsOfModule := by
  simp only [resetRegsOfModule, List.mem_cons, List.not_mem_nil, or_false, Reg.ADM_STATUS, Reg.BST_TEST_STATUS]
  unfold tileReg tilePages
  omega

theorem State.TileInReset.noted {s t : State} {ti : Nat} (k : s.TileInReset ti) (n : s.Noted t) : t.TileInReset ti := by
  have htile := n.tile ti
  refine ⟨(congrArg (getBits · 2 0) (n.regs _ (tileReg_notMem_resetRegs ti _))).trans k.state, ?_, ?_, ?_,
    (congrArg (getBits · 2 0) (n.regs _ (tileReg_notMem_resetRegs ti _))).trans k.keeper⟩
  · rw [htile, k.queue]
  · rw [htile, k.segs]
  · rw [htile, k.sram]

/-- The reset of a half has begun; the other half is as it was. -/
structure State.HalfTaken (s t : State) (h : Half) (r : HalfReset) : Prop where
  phase : t.halfReset h = r
  other : ∀ x, x ≠ h → t.halfReset x = s.halfReset x
  inReset : ∀ ti ∈ s.halfTiles h, t.TileInReset ti
  tiles : ∀ ti, halfOf ti ≠ h → t.tile ti = s.tile ti
  regs : ∀ a, a ∉ resetRegsOfModule ++ eventRegs → ¬TileRegOf (fun ti => halfOf ti = h) a → t.reg a = s.reg a
  plan : t.plan = s.plan
  now : t.now = s.now
  batches : t.sage.batches = (s.halfDropped h).sage.batches

theorem resetHalf_taken : s.HalfTaken (resetHalf s h cause byPin cuts) h ⟨1, s.now, cause, byPin⟩ := by
  have hdrop := s.halfDropped_frame h
  have hwithin := (s.halfDropped h).tilesReset_within h cuts
  have hin := (s.halfDropped h).tilesReset_inReset h cuts
  have hnow : ((s.halfDropped h).tilesReset h cuts).now = s.now := by rw [hwithin.now, hdrop]
  rw [s.halfDropped_halfTiles] at hwithin hin
  rw [resetHalf_eq, hnow]
  change s.HalfTaken (((s.halfDropped h).tilesReset h cuts).resetNoted h ⟨1, s.now, cause, byPin⟩ ((s.halfDropped h).halfTiles h)) h _
  generalize (s.halfDropped h).tilesReset h cuts = u at hwithin hin hnow
  have hnote := u.resetNoted_noted h ⟨1, s.now, cause, byPin⟩ ((s.halfDropped h).halfTiles h)
  have hhalf {ti : Nat} (hti : ti ∈ s.halfTiles h) : halfOf ti = h := ((s.mem_halfTiles h).1 hti).2.1
  have htile (ti : Nat) : (s.halfDropped h).tile ti = s.tile ti := by
    rw [hdrop]
    rfl
  refine ⟨State.resetNoted_same .., fun x hne => ?_, fun ti hti => (hin ti hti).noted hnote, fun ti hne => ?_, fun a ha hpage => ?_, ?_, ?_, ?_⟩
  · rw [State.resetNoted_other _ _ _ _ hne, hwithin.halfReset x]
    exact State.halfReset_congr x (by rw [hdrop])
  · rw [hnote.tile, hwithin.tiles ti fun hti => hne (hhalf hti), htile]
  · obtain ⟨hmod, hev⟩ := not_or.1 fun hm => ha (List.mem_append.2 hm)
    rw [hnote.regs a hmod, hwithin.regs a hev fun ⟨ti, off, hti, hoff, e⟩ => hpage ⟨ti, off, hhalf hti, hoff, e⟩]
    exact State.reg_congr (by rw [hdrop]) a
  · rw [hnote.plan, hwithin.plan, hdrop]
  · rw [hnote.clock.now, hnow]
  · rw [hnote.sage, hwithin.sage]

/-- Where no command waits, the beginning of the reset records nothing and writes no slice but at the cuts. -/
theorem resetHalf_calm (hidle : ∀ ti, (s.tile ti).queue = []) : s.SameClock (resetHalf s h cause byPin cuts) ∧
    ∀ ti k, (∀ c ∈ cuts, c.1 ≠ ti) → (resetHalf s h cause byPin cuts).rawGranule ti k = s.rawGranule ti k := by
  have hdrop := s.halfDropped_frame h
  have htile (ti : Nat) : (s.halfDropped h).tile ti = s.tile ti := by
    rw [hdrop]
    rfl
  obtain ⟨hcalm, hslice⟩ := (s.halfDropped h).tilesReset_calmed h cuts fun ti => (congrArg Tile.queue (htile ti)).trans (hidle ti)
  rw [resetHalf_eq]
  generalize (s.halfDropped h).tilesReset h cuts = u at hcalm hslice
  have hnote := u.resetNoted_noted h ⟨1, u.now, cause, byPin⟩ ((s.halfDropped h).halfTiles h)
  have hclock : s.SameClock (s.halfDropped h) := ⟨by rw [hdrop], by rw [hdrop], by rw [hdrop], by rw [hdrop]⟩
  refine ⟨(hclock.trans hcalm.clock).trans hnote.clock, fun ti k hnone => ?_⟩
  have hlast : (u.resetNoted h ⟨1, u.now, cause, byPin⟩ ((s.halfDropped h).halfTiles h)).rawGranule ti k = u.rawGranule ti k :=
    State.rawGranule_congr (congrArg Tile.slice (hnote.tile ti)) (congrArg Tile.sliceGen (hnote.tile ti)) k
  have hfirst : (s.halfDropped h).rawGranule ti k = s.rawGranule ti k :=
    State.rawGranule_congr (congrArg Tile.slice (htile ti)) (congrArg Tile.sliceGen (htile ti)) k
  exact hlast.trans ((hslice ti k hnone).trans hfirst)

end

end Sys2Proof.Machine

namespace Sys2Proof.Machine

/-! ## The requests of a reset (16 R485, R494) -/

section
variable {s t u : State} {h : Half} {cause : Nat} {byPin : Bool}

theorem State.TakesReset.takes (k : s.TakesReset h) (cause : Nat) : s.takesReset h cause = true := by
  obtain ⟨-, -, hphase, hfence⟩ := k
  unfold State.takesReset
  simp [hphase, hfence]

theorem State.TakesReset.request (k : s.TakesReset h) (hs : List Half) (cause : Nat) (byPin : Bool) (cuts : List (Nat × Nat)) :
    requestReset s hs cause byPin cuts = startReset s hs cause byPin cuts := by
  obtain ⟨hmain, hms, -, -⟩ := k
  unfold requestReset
  rw [if_neg (by rw [hms]; decide), if_neg (by simp [hmain])]

theorem State.TakesReset.write (k : s.TakesReset h) (hs : List Half) (cuts : List (Nat × Nat)) :
    resetWrite s hs cuts = startReset s hs 0 false cuts := by
  have hms := k.2.1
  unfold resetWrite
  rw [if_neg (by rw [hms]; decide)]
  exact k.request ..

theorem holdByPin_free (hphase : (s.halfReset h).phase ≠ 1) (byPin : Bool) : holdByPin s h byPin = s := by
  unfold holdByPin
  exact if_neg (by simp [hphase])

theorem startReset_one (k : s.TakesReset h) (cause : Nat) (cuts : List (Nat × Nat)) : startReset s [h] cause false cuts =
    recordEvent (resetHalf s h cause false cuts) 0x0017 0 (halfBit h) cause ((resetHalf s h cause false cuts).round % 2 ^ 32) := by
  have hhold : holdByPin s h false = s := holdByPin_free k.2.2.1 false
  have hgo : [h].filter (fun x => s.takesReset x cause) = [h] := by simp [k.takes cause]
  unfold startReset
  extract_lets u go v
  have hu : u = s := hhold
  have hgo' : go = [h] := by
    change [h].filter (fun x => u.takesReset x cause) = [h]
    rw [hu, hgo]
  have hv : v = resetHalf s h cause false cuts := by
    change go.foldl (fun t x => resetHalf t x cause false cuts) u = _
    rw [hgo', hu, List.foldl_cons, List.foldl_nil]
  rw [hv, hgo', if_neg (by simp)]
  simp only [List.foldl_cons, List.foldl_nil, List.map_cons, List.map_nil, Nat.zero_add]

theorem startReset_both (kw : s.TakesReset .west) (ke : s.TakesReset .east) (cause : Nat) (cuts : List (Nat × Nat)) :
    startReset s [.west, .east] cause true cuts =
      recordEvent (resetHalf (resetHalf s .west cause true cuts) .east cause true cuts) 0x0017 0 3 cause
        ((resetHalf (resetHalf s .west cause true cuts) .east cause true cuts).round % 2 ^ 32) := by
  have hhold : [Half.west, .east].foldl (fun s h => holdByPin s h true) s = s := by
    rw [List.foldl_cons, holdByPin_free kw.2.2.1, List.foldl_cons, holdByPin_free ke.2.2.1, List.foldl_nil]
  have hgo : [Half.west, .east].filter (fun x => s.takesReset x cause) = [.west, .east] := by simp [kw.takes cause, ke.takes cause]
  unfold startReset
  extract_lets u go v
  have hu : u = s := hhold
  have hgo' : go = [.west, .east] := by
    change [Half.west, .east].filter (fun x => u.takesReset x cause) = [.west, .east]
    rw [hu, hgo]
  have hv : v = resetHalf (resetHalf s .west cause true cuts) .east cause true cuts := by
    change go.foldl (fun t x => resetHalf t x cause true cuts) u = _
    rw [hgo', hu, List.foldl_cons, List.foldl_cons, List.foldl_nil]
  rw [hv, hgo', if_neg (by decide)]
  simp only [List.foldl_cons, List.foldl_nil, List.map_cons, List.map_nil, halfBit, Nat.zero_add, Nat.reduceAdd]

/-! ### The reset has begun -/

/-- A batch step that the reset of a half drops, or that was dropped before it. -/
theorem State.HalfTaken.dropped {r : HalfReset} (k : s.HalfTaken t h r) {b : Batch} (hb : b ∈ s.sage.batches)
    (hdrop : b.dropped = some 3 ∨ b.dropped = none ∧ b.committed = false ∧ b.need.any (fun x => decide (halfOf x.1 = h)) = true) :
    ∃ b' ∈ t.sage.batches, b'.id = b.id ∧ b'.dropped = some 3 := by
  rw [k.batches, State.halfDropped_batches]
  refine ⟨_, List.mem_map_of_mem hb, ?_, ?_⟩
  · split
    · rfl
    · rfl
  · obtain hd | ⟨hnone, hopen, hneed⟩ := hdrop
    · rw [if_neg (by simp [hd])]
      exact hd
    · rw [if_pos (by rw [hnone, hopen, hneed]; rfl)]

/-- A batch step of another half stays, or is dropped with this one. -/
theorem State.HalfTaken.carried {r : HalfReset} (k : s.HalfTaken t h r) {b : Batch} (hb : b ∈ s.sage.batches) :
    ∃ b' ∈ t.sage.batches, b'.id = b.id ∧ (b'.dropped = some 3 ∨ b' = b) := by
  rw [k.batches, State.halfDropped_batches]
  refine ⟨_, List.mem_map_of_mem hb, ?_, ?_⟩
  · split
    · rfl
    · rfl
  · split
    · exact .inl rfl
    · exact .inr rfl

theorem State.TileInReset.recorded {ti : Nat} (k : s.TileInReset ti) (code source p0 p1 p2 : Nat) :
    (recordEvent s code source p0 p1 p2).TileInReset ti :=
  k.within ((State.Within.refl (fun _ => False) s).recordEvent ..) id

theorem halfReset_recordEvent (x : Half) (code source p0 p1 p2 : Nat) : (recordEvent s code source p0 p1 p2).halfReset x = s.halfReset x :=
  State.halfReset_congr x (recordEvent_ctl ..)

/-- What a state shows of a reset begun does not change when an event is recorded. -/
theorem State.ResetBegun.recorded (k : s.ResetBegun t h cause byPin) (code source p0 p1 p2 : Nat) :
    s.ResetBegun (recordEvent t code source p0 p1 p2) h cause byPin where
  phase := (halfReset_recordEvent ..).trans k.phase
  tiles ti hh hu := by
    obtain ⟨hstate, hqueue, hsegs, hsram, hkeeper⟩ := k.tiles ti hh hu
    have hin := State.TileInReset.recorded ⟨hstate, hqueue, hsegs, hsram, hkeeper⟩ code source p0 p1 p2
    exact ⟨hin.state, hin.queue, hin.segs, hin.sram, hin.keeper⟩
  drops := by
    rw [recordEvent_sage]
    exact k.drops

theorem State.HalfTaken.begun (k : s.HalfTaken t h ⟨1, s.now, cause, byPin⟩) : s.ResetBegun t h cause byPin where
  phase := k.phase
  tiles ti hh hu := by
    have hlt : ti < tileCount := by
      unfold State.usable at hu
      simp only [Bool.and_eq_true, decide_eq_true_eq] at hu
      exact hu.1.1.1.1
    have hin := k.inReset ti ((s.mem_halfTiles h).2 ⟨hlt, hh, hu⟩)
    exact ⟨hin.state, hin.queue, hin.segs, hin.sram, hin.keeper⟩
  drops b hb hnone hopen hneed := k.dropped hb (.inr ⟨hnone, hopen, hneed⟩)

/-- The reset of one half, then of the other: both have begun. -/
theorem State.HalfTaken.both {x : Half} (k : s.HalfTaken t h ⟨1, s.now, cause, byPin⟩) (l : t.HalfTaken u x ⟨1, t.now, cause, byPin⟩) (hne : h ≠ x) :
    s.ResetBegun u h cause byPin ∧ s.ResetBegun u x cause byPin := by
  have hbegun := k.begun
  constructor
  · refine ⟨(l.other h hne).trans k.phase, fun ti hh hu => ?_, fun b hb hnone hopen hneed => ?_⟩
    · obtain ⟨hstate, hqueue, hsegs, hsram, hkeeper⟩ := hbegun.tiles ti hh hu
      have htile := l.tiles ti (hh ▸ hne)
      have hreg {off : Nat} (hoff : off < 0x1000) : u.reg (tileReg ti off) = t.reg (tileReg ti off) := by
        refine l.regs _ (fun hm => ?_) (not_tileRegOf_other (hh ▸ hne) hoff)
        exact (List.mem_append.1 hm).elim (tileReg_notMem_resetRegs ti off) (tileReg_notMem_eventRegs ti off)
      exact ⟨(congrArg (getBits · 2 0) (hreg (by decide))).trans hstate, by rw [htile, hqueue], by rw [htile, hsegs], by rw [htile, hsram],
        (congrArg (getBits · 2 0) (hreg (by decide))).trans hkeeper⟩
    · obtain ⟨b', hb', hid, hdrop⟩ := hbegun.drops b hb hnone hopen hneed
      obtain ⟨b'', hb'', hid', hdrop'⟩ := l.dropped hb' (.inl hdrop)
      exact ⟨b'', hb'', hid'.trans hid, hdrop'⟩
  · have hsecond := l.begun
    rw [k.now] at l
    refine ⟨l.phase, fun ti hh hu => hsecond.tiles ti hh ?_, fun b hb hnone hopen hneed => ?_⟩
    · unfold State.usable at hu ⊢
      rwa [k.plan]
    · obtain ⟨b', hb', hid, hdrop | rfl⟩ := k.carried hb
      · obtain ⟨b'', hb'', hid', hdrop'⟩ := l.dropped hb' (.inl hdrop)
        exact ⟨b'', hb'', hid'.trans hid, hdrop'⟩
      · exact l.dropped hb' (.inr ⟨hnone, hopen, hneed⟩)

theorem State.HalfTaken.module {r : HalfReset} (k : s.HalfTaken t h r) {a : Nat} (hout : a ∉ resetRegsOfModule ++ eventRegs) (ha : a < tilePages) :
    t.reg a = s.reg a := k.regs a hout (not_tileRegOf_module ha)

/-- A reset of one half requested by its register. -/
theorem resetWrite_shown (k : s.TakesReset h) (cuts : List (Nat × Nat)) : s.ResetBegun (resetWrite s [h] cuts) h 0 false ∧
    ((∀ ti, (s.tile ti).queue = []) → (∀ ti, halfOf ti ≠ h → (resetWrite s [h] cuts).tile ti = s.tile ti) ∧
      (∀ ti k, (∀ c ∈ cuts, c.1 ≠ ti) → (resetWrite s [h] cuts).rawGranule ti k = s.rawGranule ti k) ∧
      s.Records (resetWrite s [h] cuts) (s.record 0x0017 0 (halfBit h) 0 (s.round % 2 ^ 32))) := by
  have htaken := resetHalf_taken s h 0 false cuts
  have hround : (resetHalf s h 0 false cuts).round = s.round :=
    round_of_reg (htaken.module (by decide) (by decide)) (htaken.module (by decide) (by decide))
  have hcalm := resetHalf_calm s h 0 false cuts
  rw [k.write, startReset_one k, hround]
  have htile (ti : Nat) (code source p0 p1 p2 : Nat) : (recordEvent (resetHalf s h 0 false cuts) code source p0 p1 p2).tile ti =
      (resetHalf s h 0 false cuts).tile ti := ((State.Within.refl (fun _ => False) _).recordEvent code source p0 p1 p2).tiles ti id
  refine ⟨htaken.begun.recorded .., fun hidle => ⟨fun ti hne => (htile ti ..).trans (htaken.tiles ti hne), fun ti j hnone => ?_, ?_⟩⟩
  · obtain ⟨-, hslice⟩ := hcalm hidle
    refine Eq.trans (State.rawGranule_congr ?_ ?_ j) (hslice ti j hnone)
    · rw [htile]
    · rw [htile]
  · obtain ⟨hclock, -⟩ := hcalm hidle
    exact hclock.records _ _ _ _ _

theorem exec_resetW (cuts : List (Nat × Nat)) : exec (.resetW cuts) s = .next (resetWrite s [.west] cuts) := rfl
theorem exec_resetE (cuts : List (Nat × Nat)) : exec (.resetE cuts) s = .next (resetWrite s [.east] cuts) := rfl
theorem exec_resetInN_asserted (cuts : List (Nat × Nat)) : exec (.resetInN true cuts) s =
    .next (requestReset (setSignal s 8 true) [.west, .east] 1 true cuts) := rfl
theorem exec_resetInN_released (cuts : List (Nat × Nat)) : exec (.resetInN false cuts) s = .next (releasePin (setSignal s 8 false)) := rfl

/-- The pin asserted, as its signal shows it. -/
theorem setSignal_regsOnly (s : State) (i : Nat) (b : Bool) : s.RegsOnly (setSignal s i b) [Reg.MGT_SIGNALS] := s.setFld_regsOnly ..

theorem State.TakesReset.signalled (k : s.TakesReset h) (i : Nat) (b : Bool) : (setSignal s i b).TakesReset h := by
  obtain ⟨hmain, hms, hphase, hfence⟩ := k
  have hregs := setSignal_regsOnly s i b
  have hfld {a : Nat} (ha : a ∉ [Reg.MGT_SIGNALS]) (hi lo : Nat) : (setSignal s i b).fld a hi lo = s.fld a hi lo := hregs.1.fld ha hi lo
  have hreset : (setSignal s i b).halfReset h = s.halfReset h := State.halfReset_congr h (by rw [hregs.2])
  refine ⟨?_, ?_, by rwa [hreset], ?_⟩
  · unfold State.mainOn at *
    rwa [hfld (by decide)]
  · exact (hfld (by decide) 2 0).trans hms
  · unfold State.fenced at *
    rw [hfld (by decide), hfld (by decide)]
    exact hfence

theorem State.ResetBegun.congr (k : t.ResetBegun u h cause byPin) (hnow : t.now = s.now) (hplan : t.plan = s.plan) (hsage : t.sage = s.sage) :
    s.ResetBegun u h cause byPin where
  phase := hnow ▸ k.phase
  tiles ti hh hu := k.tiles ti hh (by unfold State.usable at *; rwa [hplan])
  drops := hsage ▸ k.drops

theorem resetInN_shown (kw : s.TakesReset .west) (ke : s.TakesReset .east) (cuts : List (Nat × Nat)) :
    ∃ t, exec (.resetInN true cuts) s = .next t ∧ s.ResetBegun t .west 1 true ∧ s.ResetBegun t .east 1 true ∧ t.fld Reg.MGT_SIGNALS 8 8 = 1 := by
  have hsig := setSignal_regsOnly s 8 true
  have hbit : (setSignal s 8 true).fld Reg.MGT_SIGNALS 8 8 = 1 := of_decide_eq_true (setSignal_signal_same s (by decide) true)
  have kw' := kw.signalled 8 true
  have ke' := ke.signalled 8 true
  have hex := exec_resetInN_asserted (s := s) cuts
  rw [kw'.request, startReset_both kw' ke'] at hex
  have hsame : (setSignal s 8 true).now = s.now ∧ (setSignal s 8 true).plan = s.plan ∧ (setSignal s 8 true).sage = s.sage := by
    rw [hsig.2]
    exact ⟨rfl, rfl, rfl⟩
  obtain ⟨hnow, hplan, hsage⟩ := hsame
  generalize setSignal s 8 true = v at *
  have hwest := resetHalf_taken v .west 1 true cuts
  have heast := resetHalf_taken (resetHalf v .west 1 true cuts) .east 1 true cuts
  obtain ⟨hw, he⟩ := hwest.both heast (by decide)
  refine ⟨_, hex, (hw.recorded ..).congr hnow hplan hsage, (he.recorded ..).congr hnow hplan hsage, ?_⟩
  rw [recordEvent_fld _ _ _ _ _ _ _ _ (by decide), State.fld, heast.module (by decide) (by decide), hwest.module (by decide) (by decide)]
  exact hbit

theorem releasePin_shown (cuts : List (Nat × Nat)) :
    ∃ t, exec (.resetInN false cuts) s = .next t ∧ t.halfReset .west = { s.halfReset .west with byPin := false } ∧
      t.halfReset .east = { s.halfReset .east with byPin := false } ∧ t.fld Reg.MGT_SIGNALS 8 8 = 0 ∧ s.RegsFrame t [Reg.MGT_SIGNALS] := by
  have hsig := setSignal_regsOnly s 8 false
  have hbit : (setSignal s 8 false).fld Reg.MGT_SIGNALS 8 8 = 0 := s.fld_setFld_same _ _ le_rfl (by decide)
  have hreset (x : Half) : (setSignal s 8 false).halfReset x = s.halfReset x := State.halfReset_congr x (by rw [hsig.2])
  have hex := exec_resetInN_released (s := s) cuts
  have hframe := hsig.1
  rw [← hreset, ← hreset]
  generalize setSignal s 8 false = v at hex hbit hframe ⊢
  exact ⟨_, hex, rfl, rfl, hbit, hframe⟩

/-! ### Release and training (Table 16.5 steps 4 to 6) -/

theorem releaseHalf_held (k : (s.halfReset h).byPin = true) : releaseHalf s h = s := if_pos (.inr k)

theorem releaseHalf_free (hphase : (s.halfReset h).phase = 1) (hpin : (s.halfReset h).byPin = false) : releaseHalf s h =
    (s.halfTiles h).foldl (fun s ti => s.setTilState ti tilIdle) (s.setHalfReset h { s.halfReset h with phase := 2 }) :=
  if_neg (by simp [hphase, hpin])

theorem exec_computeResetRelease (hsplit : s.link.splitDue = false) (hkept : (releaseHalf s h).link = s.link) (h' : Half) (e : h' = h) :
    exec (.computeResetRelease h') s = .next (releaseHalf s h) := by
  subst e
  change execComputeResetRelease h' s = _
  unfold execComputeResetRelease
  exact if_neg (by simp [hsplit])

theorem foldl_setTilState (l : List Nat) (v : Nat) (hv : v < 8) (s : State) :
    (∀ ti ∈ l, (l.foldl (fun s ti => s.setTilState ti v) s).tilState ti = v) ∧
      s.RegsOnly (l.foldl (fun s ti => s.setTilState ti v) s) (l.map (fun ti => tileReg ti Reg.TIL_STATUS)) := by
  have hone (t : State) (ti : Nat) : (t.setTilState ti v).tilState ti = v :=
    (t.fld_setFld_same _ _ (by decide) (by decide)).trans (Nat.mod_eq_of_lt hv)
  induction l generalizing s with
  | nil => exact ⟨nofun, State.RegsFrame.refl s _, rfl⟩
  | cons a l ih =>
    obtain ⟨hset, hregs⟩ := ih (s.setTilState a v)
    rw [List.foldl_cons]
    refine ⟨fun ti hti => ?_, (State.setFld_regsOnly_mem s List.mem_cons_self).trans (hregs.mono (List.subset_cons_self ..))⟩
    by_cases hl : ti ∈ l
    · exact hset ti hl
    · obtain rfl := (List.mem_cons.1 hti).resolve_right hl
      refine (congrArg (getBits · 2 0) (hregs.1 _ fun hm => ?_)).trans (hone s ti)
      obtain ⟨tj, htj, e⟩ := List.mem_map.1 hm
      unfold tileReg at e
      obtain rfl : tj = ti := by omega
      exact hl htj

theorem computeResetRelease_shown (hphase : (s.halfReset h).phase = 1) (hpin : (s.halfReset h).byPin = false) (hsplit : s.link.splitDue = false) :
    ∃ t, exec (.computeResetRelease h) s = .next t ∧ (t.halfReset h).phase = 2 ∧ (∀ ti ∈ s.halfTiles h, t.tilState ti = tilIdle) ∧
      s.RegsFrame t ((s.halfTiles h).map (fun ti => tileReg ti Reg.TIL_STATUS)) := by
  have hset := s.setHalfReset_frame h { s.halfReset h with phase := 2 }
  have hphase' := congrArg HalfReset.phase (s.setHalfReset_same h { s.halfReset h with phase := 2 })
  have hregs' : (s.setHalfReset h { s.halfReset h with phase := 2 }).regs = s.regs := by rw [hset]
  have hlink : (s.setHalfReset h { s.halfReset h with phase := 2 }).link = s.link := by rw [hset]
  have hfree := releaseHalf_free hphase hpin
  generalize s.setHalfReset h { s.halfReset h with phase := 2 } = v at hphase' hregs' hlink hfree
  obtain ⟨hidle, hregs⟩ := foldl_setTilState (s.halfTiles h) tilIdle (by decide) v
  rw [← hfree] at hidle hregs
  refine ⟨_, exec_computeResetRelease hsplit (by rw [hregs.2]; exact hlink) h rfl, ?_, hidle, fun a ha => (hregs.1 a ha).trans (State.reg_congr hregs' a)⟩
  rw [State.halfReset_congr h (by rw [hregs.2])]
  exact hphase'

theorem exec_backendTrained {ti : Nat} (hin : ti ∈ s.ctl.untrained) (hphase : (s.halfReset (halfOf ti)).phase = 2) :
    exec (.backendTrained ti) s = .next (takePorts s ti) := if_pos (by simp [hin, hphase])

/-- A controller's ports are its own again. -/
def State.portsTaken (s : State) (ti : Nat) : State :=
  (s.setFld (tileReg ti Reg.BDM_STATUS) 2 0 bdmReady).setFld (tileReg ti Reg.IBU_STATUS) 2 0 1

def State.tileTrained (s : State) (ti : Nat) : State :=
  { s with ctl := { s.ctl with untrained := s.ctl.untrained.filter (fun x => decide (x ≠ ti)) } }

theorem tileTrained_regs (s : State) (ti : Nat) (f : Tile → Tile) : ((s.tileTrained ti).modTile ti f).regs = s.regs := rfl

theorem tileTrained_untrained (s : State) (ti : Nat) (f : Tile → Tile) :
    ((s.tileTrained ti).modTile ti f).ctl.untrained = s.ctl.untrained.filter (fun x => decide (x ≠ ti)) := rfl

theorem tileTrained_tile (s : State) (ti tj : Nat) : (s.tileTrained ti).tile tj = s.tile tj := rfl

theorem State.portsTaken_tiles (s : State) (ti : Nat) : (s.portsTaken ti).tiles = s.tiles := by
  rw [State.portsTaken, State.setFld_tiles, State.setFld_tiles]

theorem takePorts_idle {ti : Nat} (h : (s.tile ti).waiting = []) :
    takePorts s ti = ((s.portsTaken ti).tileTrained ti).modTile ti (fun t => { t with waiting := [] }) := by
  have hwait : (((s.portsTaken ti).tileTrained ti).tile ti).waiting = [] := by
    rw [tileTrained_tile]
    unfold State.tile at *
    rwa [State.portsTaken_tiles]
  have htake : takePorts s ti = (((s.portsTaken ti).tileTrained ti).tile ti).waiting.foldl bondedRequest
      (((s.portsTaken ti).tileTrained ti).modTile ti (fun t => { t with waiting := [] })) := rfl
  rw [htake, hwait]
  rfl

theorem backendTrained_shown {ti : Nat} (hin : ti ∈ s.ctl.untrained) (hphase : (s.halfReset (halfOf ti)).phase = 2)
    (hwait : (s.tile ti).waiting = []) : ∃ t, exec (.backendTrained ti) s = .next t ∧ t.fld (tileReg ti Reg.BDM_STATUS) 2 0 = bdmReady ∧
      t.fld (tileReg ti Reg.IBU_STATUS) 2 0 = 1 ∧ t.ctl.untrained = s.ctl.untrained.filter (fun x => x ≠ ti) ∧
      s.RegsFrame t [tileReg ti Reg.BDM_STATUS, tileReg ti Reg.IBU_STATUS] := by
  have hregs : (((s.portsTaken ti).tileTrained ti).modTile ti (fun t => { t with waiting := [] })).regs = (s.portsTaken ti).regs :=
    tileTrained_regs ..
  have huntrained := tileTrained_untrained (s.portsTaken ti) ti (fun t => { t with waiting := [] })
  have hctl : (s.portsTaken ti).ctl = s.ctl := by rw [State.portsTaken, State.setFld_ctl, State.setFld_ctl]
  refine ⟨_, (exec_backendTrained hin hphase).trans (congrArg Host.Outcome.next (takePorts_idle hwait)), ?_, ?_, ?_, fun a ha => ?_⟩
  · refine (State.fld_congr hregs ..).trans ?_
    exact (State.fld_setFld_ne _ _ _ _ _ _ (tileReg_inj ti (by decide))).trans (State.fld_setFld_same _ _ _ (by decide) (by decide))
  · exact (State.fld_congr hregs ..).trans (State.fld_setFld_same _ _ _ (by decide) (by decide))
  · rw [huntrained, hctl]
  · obtain ⟨hbdm, hibu⟩ := not_or.1 fun hm => ha (List.mem_pair.2 hm)
    exact (State.reg_congr hregs a).trans ((State.reg_setFld_ne _ _ _ _ hibu).trans (State.reg_setFld_ne _ _ _ _ hbdm))

end

end Sys2Proof.Machine

namespace Sys2Proof.Machine

/-! ## The cut lists (Table 16.5 step 7) -/

/-- Writing the entries of a map with rising keys leaves each in its register. -/
theorem foldl_setReg_entry (l : SMap Word) (hwf : SMap.wf l = true) (s : State) : ∀ e ∈ l, (l.foldl (fun s e => s.setReg e.1 e.2) s).reg e.1 = e.2 := by
  have hout (m : SMap Word) (t : State) (a : Nat) (ha : a ∉ m.map Prod.fst) : (m.foldl (fun s e => s.setReg e.1 e.2) t).reg a = t.reg a :=
    foldl_keeps (f := fun t : State => t.reg a) (fun t e he => State.reg_setReg_ne _ _ fun h => ha (h ▸ List.mem_map_of_mem he)) t
  induction l generalizing s with
  | nil => exact nofun
  | cons x r ih =>
    rw [SMap.wf_iff, List.map_cons, List.pairwise_cons] at hwf
    obtain ⟨hlt, hr⟩ := hwf
    intro e he
    rw [List.foldl_cons]
    obtain rfl | he := List.mem_cons.1 he
    · rw [hout r _ _ fun hm => Nat.lt_irrefl _ (hlt _ hm), State.reg_setReg_same]
    · exact ih ((SMap.wf_iff r).2 hr) _ e he

section
variable (s : State) (h : Half)

/-- Whether a translation register lies in a half. -/
def baseOf (h : Half) (a : Nat) : Bool :=
  match tileOf a with
  | some (ti, _) => decide (halfOf ti = h)
  | none => false

theorem baseOf_tile {a ti off : Nat} (ha : tileOf a = some (ti, off)) (hh : halfOf ti = h) : baseOf h a = true := by
  unfold baseOf
  rw [ha]
  exact decide_eq_true hh

/-- The bases of a half written again. -/
def State.basesWritten : State := (s.ctl.bases.filter (fun e => baseOf h e.1)).foldl (fun s e => s.setReg e.1 e.2) s

def State.basesDropped (keep : Nat × Word → Bool) : State := { s with ctl := { s.ctl with bases := s.ctl.bases.filter keep } }

theorem reloadBases_eq : reloadBases s h = (s.basesWritten h).basesDropped (fun e => !baseOf h e.1) := rfl

theorem State.basesWritten_frame : s.basesWritten h = { s with regs := (s.basesWritten h).regs } := by
  unfold State.basesWritten
  induction s.ctl.bases.filter (fun e => baseOf h e.1) using List.reverseRecOn with
  | nil => rfl
  | append_singleton l e ih =>
    rw [List.foldl_append, List.foldl_cons, List.foldl_nil, ih]
    rfl

/-- The registers of tiles, and nothing else of what an event or a tile shows, are written by the treatment of the cut lists. -/
structure State.CutsTreated (s t : State) : Prop where
  regs : t.regs = s.regs
  clock : s.SameClock t
  ctl : t.ctl = s.ctl
  plan : t.plan = s.plan
  client : t.client = s.client
  clean : ∀ ti, (t.tile ti).cut = [] ∧ (t.tile ti).kvMarks = []

variable {s}

theorem State.CutsTreated.trans {t u : State} (k : s.CutsTreated t) (l : t.CutsTreated u) : s.CutsTreated u :=
  ⟨l.regs.trans k.regs, k.clock.trans l.clock, l.ctl.trans k.ctl, l.plan.trans k.plan, l.client.trans k.client, l.clean⟩

theorem modTile_treated {ti : Nat} {f : Tile → Tile} (hclean : ∀ ti, (s.tile ti).cut = [] ∧ (s.tile ti).kvMarks = [])
    (hf : ∀ x : Tile, x.cut = [] ∧ x.kvMarks = [] → (f x).cut = [] ∧ (f x).kvMarks = []) : s.CutsTreated (s.modTile ti f) := by
  refine ⟨rfl, {}, rfl, rfl, rfl, fun tj => ?_⟩
  rw [State.tile_modTile]
  split
  · exact hf _ (hclean _)
  · exact hclean tj

theorem handleCuts_clean {ti : Nat} (hcut : (s.tile ti).cut = []) : handleCuts s ti = s.modTile ti (fun t => { t with cut := [] }) := by
  unfold handleCuts
  rw [hcut]
  rfl

theorem dropKv_clean {ti : Nat} (hkv : (s.tile ti).kvMarks = []) : dropKv s ti = s.modTile ti (fun t => { t with kvMarks := [] }) := by
  unfold dropKv
  rw [hkv]
  rfl

theorem foldl_treated {g : State → Nat → State} (hg : ∀ (t : State) ti, (∀ tj, (t.tile tj).cut = [] ∧ (t.tile tj).kvMarks = []) → t.CutsTreated (g t ti))
    (hclean : ∀ ti, (s.tile ti).cut = [] ∧ (s.tile ti).kvMarks = []) (l : List Nat) : s.CutsTreated (l.foldl g s) :=
  List.foldlRecOn (motive := s.CutsTreated) l g ⟨rfl, {}, rfl, rfl, rfl, hclean⟩ fun t ht ti _ => ht.trans (hg t ti ht.clean)

theorem handleCuts_treated {ti : Nat} (hclean : ∀ ti, (s.tile ti).cut = [] ∧ (s.tile ti).kvMarks = []) : s.CutsTreated (handleCuts s ti) := by
  rw [handleCuts_clean (hclean ti).1]
  exact modTile_treated hclean fun _ hx => ⟨rfl, hx.2⟩

theorem dropKv_treated {ti : Nat} (hclean : ∀ ti, (s.tile ti).cut = [] ∧ (s.tile ti).kvMarks = []) : s.CutsTreated (dropKv s ti) := by
  rw [dropKv_clean (hclean ti).2]
  exact modTile_treated hclean fun _ hx => ⟨hx.1, rfl⟩

theorem foldl_add_zero {f : Nat → Nat} (hf : ∀ i, f i = 0) (l : List Nat) : (l.map f).foldl (· + ·) 0 = 0 := by
  induction l with
  | nil => rfl
  | cons a l ih =>
    rw [List.map_cons, List.foldl_cons, hf, Nat.zero_add]
    exact ih

/-- The cut lists and the marks of a half, treated. -/
def State.listsTreated (s : State) (ts : List Nat) : State := ts.foldl dropKv (ts.foldl handleCuts s)

theorem State.listsTreated_treated (hclean : ∀ ti, (s.tile ti).cut = [] ∧ (s.tile ti).kvMarks = []) (ts : List Nat) :
    s.CutsTreated (s.listsTreated ts) := by
  have hcuts := foldl_treated (s := s) (fun t ti ht => handleCuts_treated (s := t) (ti := ti) ht) hclean ts
  exact hcuts.trans (foldl_treated (fun t ti ht => dropKv_treated (s := t) (ti := ti) ht) hcuts.clean ts)

/-- The pending entries that the reset clears are gone, where an overflow caused it. -/
def State.pendingCleared (s : State) (h : Half) (cause : Nat) : State :=
  if cause = 2 then { s with sup := { s.sup with list := s.sup.list.filter (fun e => !e.inLogic h) } } else s

theorem State.pendingCleared_frame (s : State) (h : Half) (cause : Nat) : (s.pendingCleared h cause).regs = s.regs ∧ (s.pendingCleared h cause).evt = s.evt ∧
    (s.pendingCleared h cause).now = s.now ∧ (s.pendingCleared h cause).tb = s.tb ∧ (s.pendingCleared h cause).sup.list.length ≤ s.sup.list.length := by
  unfold State.pendingCleared
  split
  · exact ⟨rfl, rfl, rfl, rfl, List.length_filter_le ..⟩
  · exact ⟨rfl, rfl, rfl, rfl, le_rfl⟩

theorem foldl_no_sessions (hnone : s.client.sessions = []) (g : State → Session → State) : s.client.sessions.foldl g s = s := by
  rw [hnone, List.foldl_nil]

/-- The half returns, before the event. -/
def State.halfBack (s : State) (h : Half) : State :=
  ((((reloadBases s h).listsTreated (s.halfTiles h)).pendingCleared h (s.halfReset h).cause).setHalfReset h { s.halfReset h with phase := 3 })

theorem handleReset_clean (hphase : (s.halfReset h).phase = 2) (htrained : ∀ ti ∈ s.ctl.untrained, halfOf ti ≠ h)
    (hclean : ∀ ti, (s.tile ti).cut = [] ∧ (s.tile ti).kvMarks = []) (hsess : s.client.sessions = []) :
    handleReset s h = recordEvent (s.halfBack h) 0x0018 0 (halfBit h) 0 (((s.halfBack h).now - (s.halfReset h).t0) / 1000) := by
  have hfold : reloadBases s h = { s with regs := (reloadBases s h).regs, ctl := (reloadBases s h).ctl } := by
    rw [reloadBases_eq, State.basesDropped, s.basesWritten_frame]
  have hclean' (ti : Nat) : ((reloadBases s h).tile ti).cut = [] ∧ ((reloadBases s h).tile ti).kvMarks = [] := by
    rw [hfold]
    exact hclean ti
  have htreated := State.listsTreated_treated hclean' (s.halfTiles h)
  have hnone : ((reloadBases s h).listsTreated (s.halfTiles h)).client.sessions = [] := by
    rw [htreated.client, hfold]
    exact hsess
  have hcuts := foldl_add_zero (f := fun ti => (s.tile ti).cut.length) (fun ti => by rw [(hclean ti).1]; rfl) (s.halfTiles h)
  unfold handleReset
  extract_lets r ts cuts s1 s2 s3 s4 sup s5 s6
  have h3 : s3 = (reloadBases s h).listsTreated (s.halfTiles h) := rfl
  have h4 : s4 = s3 := foldl_no_sessions (by rw [h3]; exact hnone) fun s x => truncateSession s h x
  have h5 : s5 = s4.pendingCleared h r.cause := rfl
  have h6 : s6 = s5.setHalfReset h { r with phase := 3 } := rfl
  have hall : s6 = s.halfBack h := by
    rw [h6, h5, h4, h3]
    rfl
  rw [if_neg (by simp [hphase, r]; simpa using htrained)]
  clear_value s6
  rw [hall, show cuts = 0 from hcuts]

theorem State.halfBack_shown (hclean : ∀ ti, (s.tile ti).cut = [] ∧ (s.tile ti).kvMarks = []) :
    (s.halfBack h).halfReset h = { s.halfReset h with phase := 3 } ∧ (s.halfBack h).regs = (s.basesWritten h).regs ∧ (s.halfBack h).evt = s.evt ∧
      (s.halfBack h).now = s.now ∧ (s.halfBack h).tb = s.tb ∧ (s.halfBack h).sup.list.length ≤ s.sup.list.length := by
  have hfold : reloadBases s h = { s with regs := (reloadBases s h).regs, ctl := (reloadBases s h).ctl } := by
    rw [reloadBases_eq, State.basesDropped, s.basesWritten_frame]
  have hregs : (reloadBases s h).regs = (s.basesWritten h).regs := by rw [reloadBases_eq, State.basesDropped]
  have hclean' (ti : Nat) : ((reloadBases s h).tile ti).cut = [] ∧ ((reloadBases s h).tile ti).kvMarks = [] := by
    rw [hfold]
    exact hclean ti
  have htreated := State.listsTreated_treated hclean' (s.halfTiles h)
  have hclock : s.SameClock (reloadBases s h) := ⟨by rw [hfold], by rw [hfold], by rw [hfold], by rw [hfold]⟩
  have hall := hclock.trans htreated.clock
  have hregs' := htreated.regs.trans hregs
  unfold State.halfBack
  generalize (reloadBases s h).listsTreated (s.halfTiles h) = u at hall hregs'
  obtain ⟨hpr, hpe, hpn, hpt, hpl⟩ := u.pendingCleared_frame h (s.halfReset h).cause
  generalize u.pendingCleared h (s.halfReset h).cause = v at hpr hpe hpn hpt hpl
  refine ⟨State.setHalfReset_same .., ?_, ?_, ?_, ?_, ?_⟩
  all_goals rw [State.setHalfReset_frame]
  · exact hpr.trans hregs'
  · exact hpe.trans hall.evt
  · exact hpn.trans hall.now
  · exact hpt.trans hall.tb
  · exact hpl.trans (by rw [hall.sup])

theorem exec_cutListHandling : exec (.cutListHandling h) s = .next (handleReset s h) := rfl

theorem cutListHandling_shown (hphase : (s.halfReset h).phase = 2) (htrained : ∀ ti ∈ s.ctl.untrained, halfOf ti ≠ h)
    (hclean : ∀ ti, (s.tile ti).cut = [] ∧ (s.tile ti).kvMarks = []) (hsess : s.client.sessions = []) (hwf : SMap.wf s.ctl.bases = true) :
    ∃ t, exec (.cutListHandling h) s = .next t ∧ t.halfReset h = { s.halfReset h with phase := 3 } ∧
      (∀ e ∈ s.ctl.bases, (∃ ti off, tileOf e.1 = some (ti, off) ∧ halfOf ti = h) → t.reg e.1 = e.2) ∧
      s.Records t (s.record 0x0018 0 (halfBit h) 0 ((s.now - (s.halfReset h).t0) / 1000)) := by
  obtain ⟨hreset, hregs, hevt, hnow, htb, hlist⟩ := State.halfBack_shown h hclean
  have hex := exec_cutListHandling (s := s) h
  rw [handleReset_clean h hphase htrained hclean hsess, hnow] at hex
  generalize s.halfBack h = u at hreset hregs hevt hnow htb hlist hex
  refine ⟨_, hex, (halfReset_recordEvent ..).trans hreset, ?_, ?_⟩
  · rintro e he ⟨ti, off, htile, hhalf⟩
    have hlow : e.1 ∉ eventRegs := fun hm => by
      have hge : tilePages ≤ e.1 := by
        unfold tileOf at htile
        split at htile
        next hin => exact hin.1
        next => cases htile
      simp only [eventRegs, List.mem_cons, List.not_mem_nil, or_false, Reg.EVT_LOST, Reg.BST_ERR_OVERFLOWS, Reg.BST_ERR_STATUS] at hm
      unfold tilePages at hge
      omega
    rw [recordEvent_reg _ _ _ _ _ _ hlow, State.reg_congr hregs]
    exact foldl_setReg_entry _ (SMap.filter_wf _ hwf) s e (List.mem_filter.2 ⟨he, baseOf_tile h htile hhalf⟩)
  · rintro ⟨hfull, hslot, hstaging, hsup⟩
    have hrec := recordEvent_records u 0x0018 0 (halfBit h) 0 ((s.now - (s.halfReset h).t0) / 1000)
      ⟨by rw [hevt]; exact hfull, by rw [hevt]; exact hslot, by rw [hevt]; exact hstaging, by omega⟩
    unfold State.record State.calendar at *
    rwa [hevt, hnow, htb] at hrec

end

/-! ## The obligation -/

theorem halfOf_east_ne {ti : Nat} (h : halfOf ti = .east) : halfOf ti ≠ .west := by
  rw [h]
  decide

theorem halfOf_west_ne {ti : Nat} (h : halfOf ti = .west) : halfOf ti ≠ .east := by
  rw [h]
  decide

/-- Settles O43: the requests, the release, the training and the cut lists each by their lemma. -/
theorem computeResetsHoldTheirHalves : Obligations.ComputeResetsHoldTheirHalves := by
  unfold Obligations.ComputeResetsHoldTheirHalves
  refine ⟨fun s cuts k => ?west, fun s cuts k => ?east, fun s cuts kw ke => resetInN_shown kw ke cuts, fun s cuts => releasePin_shown cuts,
    fun s h hphase hpin hsplit => computeResetRelease_shown hphase hpin hsplit, fun s h hpin hsplit => ?held,
    fun s ti hin hphase hwait => backendTrained_shown hin hphase hwait,
    fun s h hphase htrained hclean hsess hwf => cutListHandling_shown h hphase htrained hclean hsess hwf⟩
  case west =>
    obtain ⟨hbegun, hidle⟩ := resetWrite_shown k cuts
    refine ⟨_, exec_resetW cuts, hbegun, fun hq => ?_⟩
    obtain ⟨htiles, hslice, hrec⟩ := hidle hq
    exact ⟨fun ti he => htiles ti (halfOf_east_ne he), hslice, hrec⟩
  case east =>
    obtain ⟨hbegun, hidle⟩ := resetWrite_shown k cuts
    refine ⟨_, exec_resetE cuts, hbegun, fun hq => ?_⟩
    obtain ⟨htiles, hslice, hrec⟩ := hidle hq
    exact ⟨fun ti hw => htiles ti (halfOf_west_ne hw), hslice, hrec⟩
  case held =>
    have hheld := releaseHalf_held hpin
    rw [exec_computeResetRelease hsplit (by rw [hheld]) h rfl, hheld]

end Sys2Proof.Machine

namespace Sys2Proof.Machine

/-! ## A request without its authorisation (19 R537) -/

section
variable {s t : State}

theorem authFailed_shown (hclock : t.SameClock s) (hreg : s.reg Reg.SEC_AUTH_FAILS = t.reg Reg.SEC_AUTH_FAILS) (mtype cmd addr : Nat) :
    t.Counted (authFailed s mtype cmd addr) Reg.SEC_AUTH_FAILS 1 ∧
      t.Records (authFailed s mtype cmd addr) (t.record 0x0102 0 mtype cmd (addr % 2 ^ 24)) := by
  have hcount : s.Counted (s.count Reg.SEC_AUTH_FAILS 1) Reg.SEC_AUTH_FAILS 1 := State.count_counted rfl _ _
  have hafter := hcount.afterEvent (by decide) 0x0102 0 mtype cmd (addr % 2 ^ 24)
  constructor
  · unfold State.Counted at *
    rwa [hreg] at hafter
  · exact (hclock.trans (.of_regsOnly (s.count_regsOnly (List.mem_singleton_self _)))).records _ _ _ _ _

theorem authFailed_frame (s : State) (mtype cmd addr : Nat) : s.RegsAndEvents (authFailed s mtype cmd addr) [Reg.SEC_AUTH_FAILS] :=
  (s.count_regsOnly (List.mem_singleton_self _)).events.trans (recordEvent_frame ..)

end

/-! ## The configuration card (17 R510-R512) -/

section
variable {s : State} {j : CardJob}

theorem SMap.getD_keep {β : Type} (m : SMap β) (p : Nat → Bool) (a : Nat) (d : β) :
    SMap.getD (SMap.keep m p) a d = if p a then SMap.getD m a d else d := by
  unfold SMap.getD SMap.keep
  rw [SMap.get?_filter]
  by_cases h : p a = true
  · rw [if_pos h, if_pos h]
  · rw [if_neg h, if_neg h]

/-! ### START -/

/-- TARGET and LEN as START finds them. -/
def State.cardAsked (s : State) (target len : Nat) : State :=
  (s.setFld Reg.CFG_CARD_CTRL 7 4 target).setReg Reg.CFG_CARD_LEN (BitVec.ofNat 32 len)

theorem State.cardAsked_regsOnly (s : State) (target len : Nat) : s.RegsOnly (s.cardAsked target len) [Reg.CFG_CARD_CTRL, Reg.CFG_CARD_LEN] :=
  (State.setFld_regsOnly_mem s (by decide)).trans (State.setReg_regsOnly _ (by decide))

theorem exec_cfgCardStart (target len : Nat) (owner : Bool) :
    exec (.cfgCardStart target len owner) s = .next (cardStart (s.cardAsked target len) owner) := rfl

theorem cardStart_refused : cardStart s false = refuse (authFailed s 0x7F 2 Reg.CFG_CARD_CTRL) Reg.CFG_CARD_CTRL stNotAuthorised := rfl

theorem cfgCardStart_refused (s : State) (target len : Nat) : ∃ t, exec (.cfgCardStart target len false) s = .next t ∧ t.card = s.card ∧
    s.Counted t Reg.SEC_AUTH_FAILS 1 ∧ s.Records t (s.record 0x0102 0 0x7F 2 (Reg.CFG_CARD_CTRL % 2 ^ 24)) ∧
    t.out = s.out ++ [.written Reg.CFG_CARD_CTRL stNotAuthorised] := by
  have hask := s.cardAsked_regsOnly target len
  obtain ⟨hcount, hrec⟩ := authFailed_shown (s := s.cardAsked target len) (t := s) (.of_regsOnly hask) (hask.1 _ (by decide)) 0x7F 2 Reg.CFG_CARD_CTRL
  have hframe := (authFailed_frame (s.cardAsked target len) 0x7F 2 Reg.CFG_CARD_CTRL).2
  refine ⟨_, (exec_cfgCardStart ..).trans (congrArg Host.Outcome.next cardStart_refused), ?_, hcount.congr (refuse_regs ..), hrec.congr (refuse_evt ..), ?_⟩
  · rw [refuse_card, hframe, hask.2]
  · rw [refuse_out, hframe, hask.2]

/-- The user configuration was written or is read, as the event says. -/
def State.calNoted (s : State) (target : Nat) : State :=
  if target = 2 then recordEvent s 0x0208 0 (s.fld Reg.CFG_STATUS 30 30) (s.reg Reg.CFG_CAL_SEQ).toNat 0 else s

def State.imageOut (s : State) (target : Nat) : State := if target = 1 then s.setFld Reg.CFG_STATUS 29 29 0 else s

/-- The partition erased, with the job that writes it. -/
def State.partitionErased (s : State) (target base size len : Nat) : State := { s with card := { s.card with
  bytes := SMap.keep s.card.bytes (fun a => !(decide (base ≤ a) && decide (a < base + size)))
  job := some ⟨target, base, size, len, [], 0⟩ } }

theorem cardStart_erases {target len base size : Nat} (hpast : s.pastStep1 = true) (hjob : s.card.job = none)
    (htarget : s.fld Reg.CFG_CARD_CTRL 7 4 = target) (hlen : (s.reg Reg.CFG_CARD_LEN).toNat = len)
    (hpart : s.cardTarget target = some (base, size)) (hle : len ≤ size) :
    cardStart s true = (((s.calNoted target).imageOut target).partitionErased target base size len).setCc ccErasing := by
  unfold cardStart
  dsimp only
  rw [htarget, hlen, if_neg (by decide), if_neg (by simp [hpast, hjob]), hpart]
  exact if_neg (by omega)

theorem State.calNoted_card (s : State) (target : Nat) : (s.calNoted target).card = s.card := by
  unfold State.calNoted
  split
  · exact recordEvent_card ..
  · rfl

theorem State.imageOut_card (s : State) (target : Nat) : (s.imageOut target).card = s.card := by
  unfold State.imageOut
  split
  · exact State.setFld_card ..
  · rfl

/-- A partition named by a TARGET lies in a card, and its TARGET and its size fit their registers. -/
theorem State.cardTarget_bounds {target base size : Nat} (h : s.cardTarget target = some (base, size)) : target < 16 ∧ size < 2 ^ 32 := by
  unfold State.cardTarget at h
  split at h
  · obtain ⟨-, rfl⟩ := Prod.mk.inj (Option.some.inj h)
    decide
  · obtain ⟨-, rfl⟩ := Prod.mk.inj (Option.some.inj h)
    decide
  · obtain ⟨-, rfl⟩ := Prod.mk.inj (Option.some.inj h)
    decide
  · cases h

theorem cfgCardStart_erases {target len base size : Nat} (hpast : s.pastStep1 = true) (hjob : s.card.job = none)
    (hpart : s.cardTarget target = some (base, size)) (hle : len ≤ size) :
    ∃ t, exec (.cfgCardStart target len true) s = .next t ∧ t.ccState = ccErasing ∧ t.card.job = some ⟨target, base, size, len, [], 0⟩ ∧
      (∀ a, base ≤ a → a < base + size → SMap.getD t.card.bytes a 0xFF = 0xFF) ∧
      (∀ a, a < base ∨ base + size ≤ a → SMap.getD t.card.bytes a 0xFF = SMap.getD s.card.bytes a 0xFF) ∧
      t.card.trips = s.card.trips ∧ t.card.slot0 = s.card.slot0 ∧ t.card.slot1 = s.card.slot1 := by
  obtain ⟨htarget, hsize⟩ := State.cardTarget_bounds hpart
  have hask := s.cardAsked_regsOnly target len
  have hcard : (s.cardAsked target len).card = s.card := by rw [hask.2]
  have hctrl : (s.cardAsked target len).fld Reg.CFG_CARD_CTRL 7 4 = target :=
    (State.fld_setReg_ne _ _ _ _ (by decide)).trans ((s.fld_setFld_same _ _ (by decide) (by decide)).trans (Nat.mod_eq_of_lt htarget))
  have hlen : ((s.cardAsked target len).reg Reg.CFG_CARD_LEN).toNat = len := by
    rw [State.cardAsked, State.reg_setReg_same, BitVec.toNat_ofNat, Nat.mod_eq_of_lt (by omega)]
  have hpast' : (s.cardAsked target len).pastStep1 = true := by
    unfold State.pastStep1 State.msState at *
    rw [hask.1.fld (by decide)]
    rwa [show (s.cardAsked target len).boot = s.boot by rw [hask.2]]
  have hpart' : (s.cardAsked target len).cardTarget target = some (base, size) := by
    unfold State.cardTarget at *
    rw [hask.1.fld (by decide), hask.1.fld (by decide)]
    exact hpart
  have hex := (exec_cfgCardStart (s := s) target len true).trans
    (congrArg Host.Outcome.next (cardStart_erases hpast' (by rw [hcard, hjob]) hctrl hlen hpart' hle))
  have hkept : (((s.cardAsked target len).calNoted target).imageOut target).card = s.card := by
    rw [State.imageOut_card, State.calNoted_card, hcard]
  generalize ((s.cardAsked target len).calNoted target).imageOut target = u at hex hkept
  have hset : ((u.partitionErased target base size len).setCc ccErasing).card = (u.partitionErased target base size len).card := State.setFld_card ..
  have hbytes (a : Nat) : SMap.getD (u.partitionErased target base size len).card.bytes a 0xFF =
      if !(decide (base ≤ a) && decide (a < base + size)) then SMap.getD s.card.bytes a 0xFF else 0xFF := by
    rw [← hkept]
    exact SMap.getD_keep u.card.bytes (fun a => !(decide (base ≤ a) && decide (a < base + size))) a 0xFF
  refine ⟨_, hex, (State.fld_setFld_same _ _ _ (by decide) (by decide)).trans rfl, ?_, fun a hlo hhi => ?_, fun a hout => ?_, ?_, ?_, ?_⟩
  · rw [hset]
    rfl
  · rw [hset, hbytes, if_neg (by simp [hlo, hhi])]
  · rw [hset, hbytes, if_pos (by simp; omega)]
  · rw [hset, ← hkept]
    rfl
  · rw [hset, ← hkept]
    rfl
  · rw [hset, ← hkept]
    rfl

/-! ### Receiving and programming -/

theorem State.ccState_setCc (s : State) {v : Nat} (h : v < 8) : (s.setCc v).ccState = v :=
  (s.fld_setFld_same _ _ (by decide) (by decide)).trans (Nat.mod_eq_of_lt h)

theorem exec_cardEraseDone (hjob : s.card.job = some j) (hcc : s.ccState = ccErasing) :
    exec .cardEraseDone s = .next (s.setCc (if j.len = 0 then ccChecking else ccReceiving)) := by
  change execCardEraseDone s = _
  unfold execCardEraseDone
  rw [hjob]
  exact if_pos hcc

theorem cardEraseDone_shown (hjob : s.card.job = some j) (hcc : s.ccState = ccErasing) : ∃ t, exec .cardEraseDone s = .next t ∧
    t.ccState = (if j.len = 0 then ccChecking else ccReceiving) ∧ s.RegsOnly t [Reg.CFG_CARD_CTRL] :=
  ⟨_, exec_cardEraseDone hjob hcc, s.ccState_setCc (by split <;> decide), s.setFld_regsOnly ..⟩

theorem exec_cfgCardData (hjob : s.card.job = some j) (hcc : s.ccState = ccReceiving) (v : Word) : exec (.cfgCardData v) s =
    .next { s with card := { s.card with job := some { j with received := (j.received ++ leBytes 4 v.toNat).take j.len } } } := by
  change Host.Outcome.next (cardData s v) = _
  unfold cardData
  rw [hjob]
  exact congrArg Host.Outcome.next (if_neg (by simp [hcc]))

/-- The card with a job in progress or none. -/
def State.withJob (s : State) (x : Option CardJob) : State := { s with card := { s.card with job := x } }

theorem cardFail_job (hjob : s.card.job = some j) (cause field : Nat) :
    cardFail s cause field = recordEvent ((s.withJob none).setCc ccFailed) 0x0205 0 j.target cause field := by
  unfold cardFail
  rw [hjob]
  rfl

theorem State.withJob_sameClock (s : State) (x : Option CardJob) : s.SameClock (s.withJob x) := {}
theorem State.withJob_card (s : State) (x : Option CardJob) : (s.withJob x).card = { s.card with job := x } := rfl
theorem State.withJob_reg (s : State) (x : Option CardJob) (a : Nat) : (s.withJob x).reg a = s.reg a := rfl

theorem State.setCc_regsOnly (s : State) (v : Nat) : s.RegsOnly (s.setCc v) [Reg.CFG_CARD_CTRL] := s.setFld_regsOnly ..

/-- A job that ends leaves its state, the card without it, and the event. -/
theorem jobEnded_shown (s : State) {v : Nat} (hv : v < 8) (code p0 p1 p2 : Nat) :
    (recordEvent ((s.withJob none).setCc v) code 0 p0 p1 p2).ccState = v ∧
      (recordEvent ((s.withJob none).setCc v) code 0 p0 p1 p2).card = { s.card with job := none } ∧
      s.Records (recordEvent ((s.withJob none).setCc v) code 0 p0 p1 p2) (s.record code 0 p0 p1 p2) ∧
      s.RegsFrame (recordEvent ((s.withJob none).setCc v) code 0 p0 p1 p2) ([Reg.CFG_CARD_CTRL] ++ eventRegs) := by
  have hset := (s.withJob none).setCc_regsOnly v
  refine ⟨?_, ?_, ((s.withJob_sameClock none).trans (.of_regsOnly hset)).records _ _ _ _ _, fun a ha => ?_⟩
  · exact (recordEvent_fld _ _ _ _ _ _ _ _ (by decide)).trans (State.ccState_setCc _ hv)
  · rw [recordEvent_card, hset.2]
    exact s.withJob_card none
  · exact ((hset.events.trans (recordEvent_frame ..)).1 a ha).trans (s.withJob_reg none a)

theorem cardFail_shown (hjob : s.card.job = some j) (cause field : Nat) : (cardFail s cause field).ccState = ccFailed ∧
    (cardFail s cause field).card = { s.card with job := none } ∧ s.Records (cardFail s cause field) (s.record 0x0205 0 j.target cause field) ∧
      s.RegsFrame (cardFail s cause field) ([Reg.CFG_CARD_CTRL] ++ eventRegs) := by
  rw [cardFail_job hjob]
  exact jobEnded_shown s (by decide) ..

/-- Without its card, a failed job leaves all but the state of the write and the event. -/
theorem cardFail_frame (hjob : s.card.job = some j) (cause field : Nat) :
    s.RegsAndEvents { cardFail s cause field with card := s.card } [Reg.CFG_CARD_CTRL] := by
  obtain ⟨-, -, -, hregs⟩ := cardFail_shown hjob cause field
  refine ⟨hregs, ?_⟩
  rw [cardFail_job hjob, (recordEvent_frame ((s.withJob none).setCc ccFailed) 0x0205 0 j.target cause field []).2,
    ((s.withJob none).setCc_regsOnly ccFailed).2]
  rfl

theorem exec_cfgCardAbort : exec .cfgCardAbort s = .next (cardFail s 0x100 0) := rfl

theorem exec_cardWriteTimeout (hcc : s.ccState = ccReceiving) : exec .cardWriteTimeout s = .next (cardFail s 0x101 0) := if_pos hcc

/-- The bytes of the card with a run of bytes written. -/
def programBytes (m : SMap Nat) (base : Nat) (bs : List Nat) : SMap Nat := bs.zipIdx.foldl (fun m x => SMap.set m (base + x.2) x.1 0xFF) m

theorem programBytes_at (m : SMap Nat) (base : Nat) {bs : List Nat} {i b : Nat} (h : bs[i]? = some b) :
    SMap.getD (programBytes m base bs) (base + i) 0xFF = b := by
  refine foldl_zipIdx_at (n := 0) h (P := fun _ => True) (Q := fun m => SMap.getD m (base + i) 0xFF = b) (fun _ _ _ _ _ => trivial) ?here ?later trivial
  case here =>
    intro m _
    rw [SMap.getD_set, if_pos (by omega)]
  case later =>
    intro m y k hk hm
    rw [SMap.getD_set, if_neg (by omega)]
    exact hm

theorem programBytes_outside (m : SMap Nat) (base : Nat) (bs : List Nat) {a : Nat} (h : a < base ∨ base + bs.length ≤ a) :
    SMap.getD (programBytes m base bs) a 0xFF = SMap.getD m a 0xFF := by
  refine List.foldlRecOn (motive := fun n => SMap.getD n a 0xFF = SMap.getD m a 0xFF) _ _ rfl fun n hn x hx => ?_
  obtain ⟨y, i⟩ := x
  have hi := (List.mem_zipIdx' hx).1
  rw [SMap.getD_set, if_neg (by omega)]
  exact hn

/-- The bytes received next are on the card. -/
def State.programmed (s : State) (j : CardJob) (n : Nat) : State := { s with card := { s.card with
  bytes := programBytes s.card.bytes (j.base + j.programmed) ((j.received.drop j.programmed).take n)
  job := some { j with programmed := j.programmed + n } } }

theorem exec_cardProgramDone (hjob : s.card.job = some j) (hcc : s.ccState = ccReceiving)
    (hn : 0 < min 256 (j.len - j.programmed) ∧ j.programmed + min 256 (j.len - j.programmed) ≤ j.received.length) (ok : Bool) :
    exec (.cardProgramDone ok) s = if !ok then .next (cardFail s 0x102 0) else
      .next (if j.programmed + min 256 (j.len - j.programmed) = j.len then (s.programmed j (min 256 (j.len - j.programmed))).setCc ccChecking
        else s.programmed j (min 256 (j.len - j.programmed))) := by
  change execCardProgramDone ok s = _
  unfold execCardProgramDone
  rw [hjob]
  exact if_neg (by rw [hcc]; omega)

theorem State.programmed_card (s : State) (j : CardJob) (n : Nat) : (s.programmed j n).card = { s.card with
  bytes := programBytes s.card.bytes (j.base + j.programmed) ((j.received.drop j.programmed).take n)
  job := some { j with programmed := j.programmed + n } } := rfl

theorem State.programmed_reg (s : State) (j : CardJob) (n a : Nat) : (s.programmed j n).reg a = s.reg a := rfl

theorem cardProgramDone_shown (hjob : s.card.job = some j) (hcc : s.ccState = ccReceiving)
    (hn : 0 < min 256 (j.len - j.programmed) ∧ j.programmed + min 256 (j.len - j.programmed) ≤ j.received.length) :
    ∃ t, exec (.cardProgramDone true) s = .next t ∧
      t.card.job = some { j with programmed := j.programmed + min 256 (j.len - j.programmed) } ∧
      (∀ i b, i < min 256 (j.len - j.programmed) → j.received[j.programmed + i]? = some b →
        SMap.getD t.card.bytes (j.base + j.programmed + i) 0xFF = b) ∧
      (∀ a, a < j.base + j.programmed ∨ j.base + j.programmed + min 256 (j.len - j.programmed) ≤ a →
        SMap.getD t.card.bytes a 0xFF = SMap.getD s.card.bytes a 0xFF) ∧
      t.ccState = (if j.programmed + min 256 (j.len - j.programmed) = j.len then ccChecking else ccReceiving) ∧
      s.RegsFrame t [Reg.CFG_CARD_CTRL] := by
  have hex := exec_cardProgramDone hjob hcc hn true
  generalize min 256 (j.len - j.programmed) = n at hex hn ⊢
  have hcard : (if j.programmed + n = j.len then (s.programmed j n).setCc ccChecking else s.programmed j n).card = (s.programmed j n).card := by
    split
    · exact State.setFld_card ..
    · rfl
  have hlen : ((j.received.drop j.programmed).take n).length ≤ n := List.length_take_le ..
  refine ⟨_, hex, ?_, fun i b hi hb => ?_, fun a ha => ?_, ?_, fun a ha => ?_⟩
  · rw [hcard, State.programmed_card]
  · rw [hcard, State.programmed_card]
    refine programBytes_at _ _ ?_
    rw [List.getElem?_take_of_lt hi, List.getElem?_drop]
    exact hb
  · rw [hcard, State.programmed_card]
    exact programBytes_outside _ _ _ (by omega)
  · split
    · exact State.ccState_setCc _ (by decide)
    · exact (congrArg (getBits · 2 0) (s.programmed_reg j n _)).trans hcc
  · split
    · exact (((s.programmed j n).setCc_regsOnly ccChecking).1 a ha).trans (s.programmed_reg j n a)
    · exact s.programmed_reg j n a

/-! ### The check -/

/-- The write of a job that ends DONE. -/
def State.cardDone (s : State) (j : CardJob) (seq : Nat) : State := recordEvent ((s.withJob none).setCc ccDone) 0x0203 0 j.target j.len seq

theorem State.cardDone_shown (s : State) (j : CardJob) (seq : Nat) : (s.cardDone j seq).ccState = ccDone ∧
    (s.cardDone j seq).card = { s.card with job := none } ∧ s.Records (s.cardDone j seq) (s.record 0x0203 0 j.target j.len seq) ∧
      s.RegsFrame (s.cardDone j seq) ([Reg.CFG_CARD_CTRL] ++ eventRegs) := jobEnded_shown s (by decide) ..

/-- The image that the module loads next is the one written. -/
def State.imageIn (s : State) (target : Nat) : State := if target = 1 then s.setFld Reg.CFG_STATUS 29 29 1 else s

theorem State.imageIn_regsOnly (s : State) (target : Nat) : s.RegsOnly (s.imageIn target) [Reg.CFG_STATUS] := by
  unfold State.imageIn
  split
  · exact s.setFld_regsOnly ..
  · exact ⟨State.RegsFrame.refl s _, rfl⟩

theorem exec_cardCheckDone_image (hjob : s.card.job = some j) (hcc : s.ccState = ccChecking) (htarget : j.target = 1 ∨ j.target = 2) :
    exec .cardCheckDone s =
      match s.checkCard j.base j.size (decide (j.target = 2)) (if j.target = 1 then some (s.reg Reg.CFG_IMAGE_SEQ).toNat else none) with
      | .ok c => .next ((s.imageIn j.target).cardDone j c.seq)
      | .error b => .next (cardFail (noteBad s b) b.cause b.field) := by
  change execCardCheckDone s = _
  unfold execCardCheckDone
  rw [hjob]
  dsimp only
  rw [if_neg (by simp [hcc]), if_neg (by omega)]
  cases s.checkCard j.base j.size (decide (j.target = 2)) (if j.target = 1 then some (s.reg Reg.CFG_IMAGE_SEQ).toNat else none) with
  | ok c => rfl
  | error b => rfl

theorem exec_cardCheckDone_boot (hjob : s.card.job = some j) (hcc : s.ccState = ccChecking) (htarget : j.target = 3) {r : Nat × List Nat}
    (hok : checkBoot s.fuses (s.card.read j.base j.size) = .ok r) : exec .cardCheckDone s = .next (s.cardDone j 0) := by
  change execCardCheckDone s = _
  unfold execCardCheckDone
  rw [hjob]
  dsimp only
  rw [if_neg (by simp [hcc]), if_pos htarget, hok]
  rfl

theorem cardCheckDone_passed {c : Container} (hjob : s.card.job = some j) (hcc : s.ccState = ccChecking) (htarget : j.target = 1 ∨ j.target = 2)
    (hok : s.checkCard j.base j.size (decide (j.target = 2)) (if j.target = 1 then some (s.reg Reg.CFG_IMAGE_SEQ).toNat else none) = .ok c) :
    ∃ t, exec .cardCheckDone s = .next t ∧ t.ccState = ccDone ∧ t.card = { s.card with job := none } ∧
      (j.target = 1 → t.fld Reg.CFG_STATUS 29 29 = 1) ∧ s.Records t (s.record 0x0203 0 j.target j.len c.seq) := by
  have hex := exec_cardCheckDone_image hjob hcc htarget
  rw [hok] at hex
  have hin := s.imageIn_regsOnly j.target
  obtain ⟨hstate, hcard, -, hregs⟩ := (s.imageIn j.target).cardDone_shown j c.seq
  refine ⟨_, hex, hstate, ?_, fun h1 => ?_, ?_⟩
  · rw [hcard, hin.2]
  · rw [hregs.fld (by decide), State.imageIn, if_pos h1]
    exact State.fld_setFld_same _ _ _ le_rfl (by decide)
  · exact ((State.SameClock.of_regsOnly hin).trans (((s.imageIn j.target).withJob_sameClock none).trans
      (.of_regsOnly (State.setCc_regsOnly _ ccDone)))).records _ _ _ _ _

theorem cardCheckDone_failed {b : Bad} (hjob : s.card.job = some j) (hcc : s.ccState = ccChecking) (htarget : j.target = 1 ∨ j.target = 2)
    (hbad : s.checkCard j.base j.size (decide (j.target = 2)) (if j.target = 1 then some (s.reg Reg.CFG_IMAGE_SEQ).toNat else none) = .error b) :
    ∃ t, exec .cardCheckDone s = .next t ∧ t.ccState = ccFailed ∧ t.card = { s.card with job := none } ∧
      t.reg Reg.CFG_LAST_ERR = BitVec.ofNat 32 (b.field * 65536 + b.cause) ∧ s.Records t (s.record 0x0205 0 j.target b.cause b.field) := by
  have hex := exec_cardCheckDone_image hjob hcc htarget
  rw [hbad] at hex
  have hnote : s.RegsOnly (noteBad s b) [Reg.CFG_LAST_ERR] := s.setReg_regsOnly (List.mem_singleton_self _)
  have hjob' : (noteBad s b).card.job = some j := by rw [hnote.2]; exact hjob
  obtain ⟨hstate, hcard, -, hregs⟩ := cardFail_shown hjob' b.cause b.field
  refine ⟨_, hex, hstate, ?_, ?_, ?_⟩
  · rw [hcard, hnote.2]
  · rw [hregs _ (by decide), noteBad, State.reg_setReg_same]
  · rw [cardFail_job hjob']
    exact ((State.SameClock.of_regsOnly hnote).trans (((noteBad s b).withJob_sameClock none).trans
      (.of_regsOnly (State.setCc_regsOnly _ ccFailed)))).records _ _ _ _ _

theorem exec_cfgCardReadData : exec .cfgCardReadData s = .next (advanceCard (s.emit (.word Reg.CFG_CARD_READ_DATA s.cardWord))) := rfl

theorem advanceCard_frame (s : State) : s.RegsOnly (advanceCard s) [Reg.CFG_CARD_READ_ADDR] := s.setReg_regsOnly (List.mem_singleton_self _)

theorem cfgCardReadData_shown (s : State) : ∃ t, exec .cfgCardReadData s = .next t ∧ t.out = s.out ++ [.word Reg.CFG_CARD_READ_DATA s.cardWord] ∧
    t.reg Reg.CFG_CARD_READ_ADDR = s.reg Reg.CFG_CARD_READ_ADDR + 4 ∧ t.card = s.card ∧ s.RegsFrame t [Reg.CFG_CARD_READ_ADDR] := by
  have hread : (s.emit (.word Reg.CFG_CARD_READ_DATA s.cardWord)).out = s.out ++ [.word Reg.CFG_CARD_READ_DATA s.cardWord] ∧
      (s.emit (.word Reg.CFG_CARD_READ_DATA s.cardWord)).regs = s.regs ∧ (s.emit (.word Reg.CFG_CARD_READ_DATA s.cardWord)).card = s.card := ⟨rfl, rfl, rfl⟩
  have hex := exec_cfgCardReadData (s := s)
  obtain ⟨hout, hregs, hcard⟩ := hread
  generalize s.emit (.word Reg.CFG_CARD_READ_DATA s.cardWord) = u at hex hout hregs hcard
  have hadv := advanceCard_frame u
  refine ⟨_, hex, ?_, ?_, ?_, fun a ha => (hadv.1 a ha).trans (State.reg_congr hregs a)⟩
  · rw [hadv.2]
    exact hout
  · rw [advanceCard, State.reg_setReg_same, State.reg_congr hregs]
  · rw [hadv.2]
    exact hcard

end

/-- Settles O57: each step of a card write by its lemma. -/
theorem cardWritesProceed : Obligations.CardWritesProceed := by
  unfold Obligations.CardWritesProceed
  refine ⟨fun s target len base size hpast hjob hpart hle => cfgCardStart_erases hpast hjob hpart hle,
    fun s target len => cfgCardStart_refused s target len, fun s j hjob hcc => cardEraseDone_shown hjob hcc,
    fun s j v hjob hcc => exec_cfgCardData hjob hcc v, fun s j hjob hcc _ hn => ⟨cardProgramDone_shown hjob hcc hn, ?program⟩,
    fun s j hjob => ?abort, fun s j hjob hcc => ?timeout, fun s j c hjob hcc htarget hok => cardCheckDone_passed hjob hcc htarget hok,
    fun s j b hjob hcc htarget hbad => cardCheckDone_failed hjob hcc htarget hbad, fun s j r hjob hcc htarget hok => ?boot,
    fun s => cfgCardReadData_shown s⟩
  case program =>
    obtain ⟨hstate, hcard, hrec, -⟩ := cardFail_shown hjob 0x102 0
    exact ⟨_, exec_cardProgramDone hjob hcc hn false, hstate, hcard, hrec⟩
  case abort =>
    obtain ⟨hstate, hcard, hrec, -⟩ := cardFail_shown hjob 0x100 0
    exact ⟨_, exec_cfgCardAbort, hstate, hcard, hrec, cardFail_frame hjob ..⟩
  case timeout =>
    obtain ⟨hstate, hcard, hrec, -⟩ := cardFail_shown hjob 0x101 0
    exact ⟨_, exec_cardWriteTimeout hcc, hstate, hcard, hrec, cardFail_frame hjob ..⟩
  case boot =>
    obtain ⟨hstate, hcard, hrec, -⟩ := s.cardDone_shown j 0
    rw [htarget] at hrec
    exact ⟨_, exec_cardCheckDone_boot hjob hcc htarget hok, hstate, hcard, hrec⟩

end Sys2Proof.Machine

namespace Sys2Proof.Machine

/-! ## Requested tests (18 R518-R520) -/

section
variable {s : State}

/-- The fields of BST_TEST_CTRL that a test request writes. -/
def State.testAsked (s : State) (v : Word) : State :=
  ((s.setFld Reg.BST_TEST_CTRL 23 12 (getBits v 23 12)).setFld Reg.BST_TEST_CTRL 11 0 (getBits v 11 0)).setFld Reg.BST_TEST_CTRL 30 28 (getBits v 30 28)

/-- The test in progress, or none. -/
def State.withTest (s : State) (j : Option TestJob) : State := { s with bist := { s.bist with job := j } }

theorem State.withTest_bist (s : State) (j : Option TestJob) : (s.withTest j).bist = { s.bist with job := j } := rfl
theorem State.withTest_reg (s : State) (j : Option TestJob) (a : Nat) : (s.withTest j).reg a = s.reg a := rfl
theorem State.withTest_out (s : State) (j : Option TestJob) : (s.withTest j).out = s.out := rfl

/-- A test waits for the next boundary. -/
def State.testWaiting (s : State) (v : Word) : State :=
  (s.setReg Reg.BST_TEST_STATUS (setBits 0 31 30 1)).withTest (some ⟨getBits v 30 28, getBits v 11 0, getBits v 23 12, false⟩)

theorem State.testAsked_regsOnly (s : State) (v : Word) : s.RegsOnly (s.testAsked v) [Reg.BST_TEST_CTRL] :=
  ((s.setFld_regsOnly ..).trans (State.setFld_regsOnly ..)).trans (State.setFld_regsOnly ..)

theorem State.testWaiting_shown (s : State) (v : Word) :
    (s.testWaiting v).bist = { s.bist with job := some ⟨getBits v 30 28, getBits v 11 0, getBits v 23 12, false⟩ } ∧
      (s.testWaiting v).reg Reg.BST_TEST_STATUS = setBits 0 31 30 1 ∧ s.RegsFrame (s.testWaiting v) [Reg.BST_TEST_STATUS] ∧
      (s.testWaiting v).out = s.out := by
  refine ⟨?_, ?_, fun a ha => ?_, ?_⟩
  · rw [State.testWaiting, State.withTest_bist, State.setReg_bist]
  · rw [State.testWaiting, State.withTest_reg, State.reg_setReg_same]
  · rw [State.testWaiting, State.withTest_reg, State.reg_setReg_ne _ _ (by simpa using ha)]
  · rw [State.testWaiting, State.withTest_out, State.setReg_out]

theorem exec_bstTestStart {v : Word} (hstart : v.getLsbD 31 = true) (htest : getBits v 30 28 ≠ 7) (hjob : s.bist.job = none)
    (hallowed : s.testAllowed (getBits v 30 28) = true) (hmask : getBits v 30 28 ≤ 3 → getBits v 23 12 ≠ 0)
    (husable : s.usable (getBits v 11 0) = true) : exec (.bstTestStart v) s = .next ((s.testAsked v).testWaiting v) := by
  change Host.Outcome.next (writeTest s v) = _
  unfold writeTest
  extract_lets test mask ti a s1 s2 s3
  have hs : s2 = s.testAsked v := if_neg htest
  have hwait : s3.withTest (some ⟨test, ti, mask, false⟩) = (s.testAsked v).testWaiting v := congrArg (State.testWaiting · v) hs
  clear_value s3
  rw [if_neg htest, if_neg (by simp [hstart])]
  refine congrArg Host.Outcome.next ((if_neg ?_).trans hwait)
  simpa [hjob, hallowed, husable, test, ti, mask] using hmask

theorem bstTestStart_waits {v : Word} (hstart : v.getLsbD 31 = true) (htest : getBits v 30 28 ≠ 7) (hjob : s.bist.job = none)
    (hallowed : s.testAllowed (getBits v 30 28) = true) (hmask : getBits v 30 28 ≤ 3 → getBits v 23 12 ≠ 0)
    (husable : s.usable (getBits v 11 0) = true) :
    ∃ t, exec (.bstTestStart v) s = .next t ∧
      t.bist = { s.bist with job := some ⟨getBits v 30 28, getBits v 11 0, getBits v 23 12, false⟩ } ∧
      t.fld Reg.BST_TEST_STATUS 31 30 = 1 ∧ s.RegsFrame t [Reg.BST_TEST_CTRL, Reg.BST_TEST_STATUS] ∧ t.out = s.out := by
  have hask := s.testAsked_regsOnly v
  obtain ⟨hbist, hstatus, hregs, hout⟩ := (s.testAsked v).testWaiting_shown v
  refine ⟨_, exec_bstTestStart hstart htest hjob hallowed hmask husable, ?_, ?_, ?_, ?_⟩
  · rw [hbist, hask.2]
  · rw [State.fld, hstatus]
    decide
  · exact (hask.1.mono (by simp)).trans (hregs.mono (by simp))
  · rw [hout, hask.2]

theorem bstTestStart_seven {v : Word} (h : getBits v 30 28 = 7) :
    ∃ t, exec (.bstTestStart v) s = .next t ∧ t.bist = s.bist ∧ t.out = s.out ++ [.written Reg.BST_TEST_CTRL stRefused] := by
  refine ⟨writeTest s v, rfl, ?_⟩
  unfold writeTest
  extract_lets test mask ti a s1 s2 s3
  have hs : s2 = s1 := if_pos h
  have hbist : s1.bist = s.bist := by rw [State.setFld_bist, State.setFld_bist]
  have hout : s1.out = s.out := by rw [State.setFld_out, State.setFld_out]
  clear_value s2 s1
  rw [hs, if_pos h, refuse_bist, refuse_out, hbist, hout]
  exact ⟨rfl, rfl⟩

end

end Sys2Proof.Machine

namespace Sys2Proof.Machine

/-! ## The end of a march (18 R518, R519) -/

section
variable {s : State} {j : TestJob} {t : Tile} {ti mask w : Nat} {d : BitVec 64}

/-- A word of a tile reads as some data. -/
def Tile.Reads (t : Tile) (ti w : Nat) (d : BitVec 64) : Prop :=
  (sramDecode (t.raw ti w) w).1.poisoned = false ∧ (sramDecode (t.raw ti w) w).2 = d

/-- The word that a transparent march writes back reads as it did, and so does every other. -/
theorem Tile.Reads.marchWord (h : t.Reads ti w d) (i : Nat) : (marchWord ti i t).Reads ti w d := by
  have hraw := t.raw_putWord ti i w (if (sramDecode (t.raw ti i) i).1.poisoned then sramPoison i else sramEncode (sramDecode (t.raw ti i) i).2 i)
  change (Machine.marchWord ti i t).raw ti w = _ at hraw
  unfold Tile.Reads
  rw [hraw]
  obtain rfl | hne := eq_or_ne w i
  · rw [if_pos rfl, if_neg (by simp [h.1]), sramDecode_sramEncode]
    exact ⟨rfl, h.2⟩
  · rw [if_neg hne]
    exact h

/-- A tile after a transparent march of its banks. -/
def Tile.marched (t : Tile) (ti mask : Nat) : Tile :=
  ((List.range 12).filter (fun b => mask.testBit b)).foldl (fun t b => (List.range 16384).foldl (fun t i => marchWord ti (16384 * b + i) t) t) t

/-- What the march of a word keeps, the march of the banks keeps. -/
theorem Tile.marched_keeps {P : Tile → Prop} (hword : ∀ t i, P t → P (marchWord ti i t)) (h : P t) : P (t.marched ti mask) :=
  List.foldlRecOn _ _ h fun _ hx _ _ => List.foldlRecOn _ _ hx fun y hy _ _ => hword y _ hy

theorem Tile.marched_reads (h : t.Reads ti w d) : (t.marched ti mask).Reads ti w d :=
  Tile.marched_keeps (P := fun x => x.Reads ti w d) (fun _ i hx => hx.marchWord i) h

theorem Tile.marched_softSpares : (t.marched ti mask).softSpares = t.softSpares :=
  Tile.marched_keeps (P := fun x => x.softSpares = t.softSpares) (fun _ _ hx => hx) rfl

/-- The result of a test in BST_TEST_STATUS. -/
def State.testReported (s : State) (result fails n : Nat) : State :=
  s.setReg Reg.BST_TEST_STATUS (setBits (setBits (setBits 0 31 30 result) 23 12 fails) 11 0 n)

/-- What a test does to the tile that it ran on. -/
def State.tested (s : State) (j : TestJob) : State :=
  if j.test ≤ 1 then transparent s j.ti j.mask
  else if j.test ≤ 3 then destroyBanks s j.ti j.mask
  else if j.test = 6 then s.modTile j.ti (fun t => { t with slice := [], sliceGen := t.sliceGen + 1 })
  else s

/-- The event of a march that has ended. -/
def State.marchNoted (s : State) (j : TestJob) (result spares : Nat) : State :=
  if j.test ≤ 3 then recordEvent s 0x0C07 0 j.ti (16 * j.test + result) spares else s

/-- No test runs and no tile is held for one. -/
def State.testOver (s : State) : State := { s with bist := { s.bist with job := none, held := [], releasing := s.bist.releasing ++ s.bist.held } }

/-- The banks of a march with failing rows. -/
def failingBanks (items : List (Nat × Nat)) : List (Nat × List Nat) :=
  (items.map (·.1)).eraseDups.map (fun b => (b, ((items.filter (fun x => decide (x.1 = b))).map (·.2)).eraseDups))

/-- The repair of the banks of a march. -/
def State.marchRepaired (s : State) (j : TestJob) (banks : List (Nat × List Nat)) : State :=
  if j.test ≤ 1 then banks.foldl (fun s b => marchBank s j.ti b.1 b.2) s
  else if j.test ≤ 3 then banks.foldl (fun s b => failInService s j.ti b.1 b.2) s
  else s

/-- The end of a test with its failing items. -/
def State.testEnded (s : State) (j : TestJob) (items : List (Nat × Nat)) : State :=
  let result := if items.isEmpty then 2 else 3
  let t := (s.testReported result ((items.map (·.1)).eraseDups.foldl (fun m i => if i < 12 then m + 2 ^ i else m) 0) (min 4095 items.length)).tested j
  ((t.marchNoted j result (t.sparesTaken j.ti (failingBanks items))).marchRepaired j (failingBanks items)).testOver

theorem endTest_eq (s : State) (j : TestJob) (rows : List (Nat × Nat)) : endTest s j rows =
    s.testEnded j (if j.test ≤ 3 then rows.filter (fun x => j.mask.testBit x.1 && decide (x.1 < 12)) else rows) := rfl

theorem endTest_clean (s : State) (j : TestJob) : endTest s j [] = (((s.testReported 2 0 0).tested j).marchNoted j 2 0).testOver := by
  rw [endTest_eq, List.filter_nil, ite_self]
  unfold State.testEnded
  generalize hu : State.tested _ j = u
  have hnone (x : State) : x.marchRepaired j (failingBanks []) = x := by
    unfold State.marchRepaired
    exact (if_congr Iff.rfl rfl (ite_self x)).trans (ite_self x)
  dsimp only
  rw [hnone]
  subst hu
  rfl

/-- A transparent march with one failing row. -/
theorem endTest_row (s : State) {bank : Nat} (row : Nat) (htest : j.test ≤ 1) (hbank : bank < 12) (hmask : j.mask.testBit bank = true) :
    ∃ n, endTest s j [(bank, row)] =
      (marchBank (((s.testReported 3 (2 ^ bank) 1).tested j).marchNoted j 3 n) j.ti bank [row]).testOver := by
  have hitems : (if j.test ≤ 3 then [(bank, row)].filter (fun x => j.mask.testBit x.1 && decide (x.1 < 12)) else [(bank, row)]) = [(bank, row)] := by
    rw [List.filter_singleton]
    simp [hbank, hmask]
  have hbanks : failingBanks [(bank, row)] = [(bank, [row])] := by
    simp [failingBanks, List.eraseDups_cons]
  have hfails : (([(bank, row)].map (·.1)).eraseDups.foldl (fun m i => if i < 12 then m + 2 ^ i else m) 0) = 2 ^ bank := by
    simp [hbank, List.eraseDups_cons]
  rw [endTest_eq, hitems]
  unfold State.testEnded
  dsimp only [List.isEmpty_cons, List.length_singleton]
  rw [hbanks, hfails, if_neg Bool.false_ne_true, show min 4095 1 = 1 from rfl]
  generalize State.sparesTaken _ _ _ = n
  exact ⟨n, congrArg State.testOver (if_pos htest)⟩

theorem State.tested_eq (s : State) (j : TestJob) : ∃ m, s.tested j = { s with tiles := m } := by
  unfold State.tested
  split
  · exact ⟨_, rfl⟩
  · split
    · exact ⟨_, rfl⟩
    · split
      · exact ⟨_, rfl⟩
      · exact ⟨_, rfl⟩

theorem State.tested_tile (s : State) (h : j.test ≤ 1) : (s.tested j).tile j.ti = (s.tile j.ti).marched j.ti j.mask := by
  rw [State.tested, if_pos h]
  exact State.tile_modTile_same ..

theorem State.testReported_status (s : State) {result fails n : Nat} (hresult : result < 4) (hfails : fails < 4096) (hn : n < 4096) :
    (s.testReported result fails n).fld Reg.BST_TEST_STATUS 31 30 = result ∧
      (s.testReported result fails n).fld Reg.BST_TEST_STATUS 23 12 = fails ∧ (s.testReported result fails n).fld Reg.BST_TEST_STATUS 11 0 = n := by
  unfold State.fld
  rw [State.testReported, State.reg_setReg_same]
  refine ⟨?_, ?_, ?_⟩
  · rw [getBits_setBits_of_disjoint _ _ (by decide) (by decide) (by decide), getBits_setBits_of_disjoint _ _ (by decide) (by decide) (by decide),
      getBits_setBits _ _ (by decide) (by decide)]
    omega
  · rw [getBits_setBits_of_disjoint _ _ (by decide) (by decide) (by decide), getBits_setBits _ _ (by decide) (by decide)]
    omega
  · rw [getBits_setBits _ _ (by decide) (by decide)]
    omega

theorem State.testReported_regsOnly (s : State) (result fails n : Nat) : s.RegsOnly (s.testReported result fails n) [Reg.BST_TEST_STATUS] :=
  s.setReg_regsOnly (List.mem_singleton_self _)

theorem State.testReported_tile (s : State) (result fails n ti : Nat) : (s.testReported result fails n).tile ti = s.tile ti := by
  rw [State.tile, State.testReported, State.setReg_tiles]
  rfl

theorem State.marchNoted_regsAndEvents (s : State) (j : TestJob) (result n : Nat) : s.RegsAndEvents (s.marchNoted j result n) [] := by
  unfold State.marchNoted
  split
  · exact recordEvent_frame ..
  · exact .refl ..

/-- A test reported and noted: what stands in the registers, in the log and in the tile. -/
structure State.TestNoted (s t : State) (j : TestJob) (result fails n spares : Nat) : Prop where
  status : t.fld Reg.BST_TEST_STATUS 31 30 = result ∧ t.fld Reg.BST_TEST_STATUS 23 12 = fails ∧ t.fld Reg.BST_TEST_STATUS 11 0 = n
  noted : j.test ≤ 3 → s.Records t (s.record 0x0C07 0 j.ti (16 * j.test + result) spares)
  tile : j.test ≤ 1 → t.tile j.ti = (s.tile j.ti).marched j.ti j.mask
  fuses : t.fuses = s.fuses
  plan : t.plan = s.plan

theorem State.testNoted (s : State) (j : TestJob) {result fails n : Nat} (hresult : result < 4) (hfails : fails < 4096) (hn : n < 4096)
    (spares : Nat) : s.TestNoted (((s.testReported result fails n).tested j).marchNoted j result spares) j result fails n spares := by
  have hstatus := s.testReported_status hresult hfails hn
  have honly := s.testReported_regsOnly result fails n
  have htile := s.testReported_tile result fails n j.ti
  generalize s.testReported result fails n = u at hstatus honly htile
  obtain ⟨m, hm⟩ := u.tested_eq j
  have hclock : u.SameClock (u.tested j) := by rw [hm]; exact {}
  have hregs : (u.tested j).regs = u.regs := by rw [hm]
  have hplan : (u.tested j).plan = s.plan := by rw [hm, honly.2]
  have hfuses : (u.tested j).fuses = s.fuses := by rw [hm, honly.2]
  have hmarch := u.tested_tile (j := j)
  generalize u.tested j = x at hclock hregs hplan hfuses hmarch
  have hnoted := x.marchNoted_regsAndEvents j result spares
  refine ⟨?_, fun h => ?_, fun h => ?_, ?_, ?_⟩
  · rwa [hnoted.1.fld (by decide), hnoted.1.fld (by decide), hnoted.1.fld (by decide), State.fld_congr hregs, State.fld_congr hregs,
      State.fld_congr hregs]
  · rw [State.marchNoted, if_pos h]
    exact ((State.SameClock.of_regsOnly honly).trans hclock).records _ _ _ _ _
  · rw [State.tile, hnoted.2]
    exact (hmarch h).trans (by rw [htile])
  · rw [hnoted.2, hfuses]
  · rw [hnoted.2, hplan]

theorem State.testOver_bist (s : State) : s.testOver.bist.job = none ∧ s.testOver.bist.held = [] := ⟨rfl, rfl⟩
theorem State.testOver_regs (s : State) : s.testOver.regs = s.regs := rfl
theorem State.testOver_evt (s : State) : s.testOver.evt = s.evt := rfl
theorem State.testOver_tile (s : State) (ti : Nat) : s.testOver.tile ti = s.tile ti := rfl
theorem State.testOver_plan (s : State) : s.testOver.plan = s.plan := rfl

theorem exec_marchDone (hjob : s.bist.job = some j) (hrun : j.running = true) (rows : List (Nat × Nat)) :
    exec (.marchDone (halfOf j.ti) rows) s = .next (endTest s j rows) := by
  change execMarchDone (halfOf j.ti) rows s = _
  unfold execMarchDone
  rw [hjob]
  exact if_pos (by simp [hrun])

theorem marchDone_passed (hjob : s.bist.job = some j) (hrun : j.running = true) :
    ∃ t, exec (.marchDone (halfOf j.ti) []) s = .next t ∧ t.bist.job = none ∧ t.bist.held = [] ∧
      t.fld Reg.BST_TEST_STATUS 31 30 = 2 ∧ t.fld Reg.BST_TEST_STATUS 23 12 = 0 ∧ t.fld Reg.BST_TEST_STATUS 11 0 = 0 ∧
      (j.test ≤ 3 → s.Records t (s.record 0x0C07 0 j.ti (16 * j.test + 2) 0)) ∧
      (j.test ≤ 1 → ∀ w, (sramDecode ((s.tile j.ti).raw j.ti w) w).1.poisoned = false →
        (sramDecode ((t.tile j.ti).raw j.ti w) w).2 = (sramDecode ((s.tile j.ti).raw j.ti w) w).2) := by
  have hex := (exec_marchDone hjob hrun []).trans (congrArg Host.Outcome.next (endTest_clean s j))
  have hnoted := s.testNoted j (result := 2) (fails := 0) (n := 0) (by decide) (by decide) (by decide) 0
  generalize State.marchNoted _ j 2 0 = u at hex hnoted
  obtain ⟨hresult, hfails, hn⟩ := hnoted.status
  refine ⟨_, hex, u.testOver_bist.1, u.testOver_bist.2, ?_, ?_, ?_, fun h hroom => ?_, fun h w hw => ?_⟩
  · rw [State.fld_congr u.testOver_regs, hresult]
  · rw [State.fld_congr u.testOver_regs, hfails]
  · rw [State.fld_congr u.testOver_regs, hn]
  · rw [u.testOver_evt]
    exact hnoted.noted h hroom
  · rw [u.testOver_tile, hnoted.tile h]
    exact (Tile.marched_reads ⟨hw, rfl⟩).2

/-! ### A failing row -/

theorem takeSpare_spares (s : State) (ti : Nat) {bank : Nat} (row : Nat) (h : s.spareRows ti 0 bank < 8) :
    (0, bank, row) ∈ ((takeSpare s ti (0, bank, row)).tile ti).softSpares := by
  unfold takeSpare
  extract_lets t used s1
  split
  next hin => exact List.contains_iff_mem.1 hin
  next =>
    rw [if_neg (Nat.not_le.2 h)]
    clear_value s1
    rw [State.tile, recordEvent_tiles]
    change _ ∈ ((s1.modTile ti _).tile ti).softSpares
    rw [State.tile_modTile_same]
    exact List.mem_append_right _ (List.mem_singleton_self _)

theorem offTile_plan (s : State) (ti : Nat) : (offTile s ti).plan = s.plan := by
  rw [offTile_eq, State.setTilState_plan, State.setReg_plan, State.setFld_plan, State.tileEmptied_plan]

/-- A tile out of the floor plan, which a new epoch follows. -/
def State.planRetired (s : State) (ti : Nat) : State := { s with plan := { s.plan with retired := s.plan.retired ++ [ti], due := true } }

theorem State.planRetired_plan (s : State) (ti : Nat) : (s.planRetired ti).plan = { s.plan with retired := s.plan.retired ++ [ti], due := true } := rfl

theorem retireTile_eq (husable : s.usable ti = true) : retireTile s ti = (offTile (s.dropAt ti 0 false) ti).planRetired ti := by
  unfold retireTile
  rw [husable]
  rfl

theorem retireTile_plan (husable : s.usable ti = true) : (retireTile s ti).plan = { s.plan with retired := s.plan.retired ++ [ti], due := true } := by
  rw [retireTile_eq husable, State.planRetired_plan, offTile_plan, plan_of_dropView (dropAt_dropView s ti 0 false)]

/-- The registers of the module, which stand in no tile's page. -/
def ModuleReg (a : Nat) : Prop := a < tilePages

theorem ModuleReg.not_tile (ti off : Nat) : ¬ModuleReg (tileReg ti off) := by
  unfold ModuleReg tileReg
  omega

theorem offTile_module (s : State) (ti : Nat) : s.Fixes ModuleReg (offTile s ti) := by
  rw [offTile_eq]
  have hemptied : s.Fixes ModuleReg (s.tileEmptied ti) := ⟨fun _ _ => rfl, fun _ h => h⟩
  exact ((hemptied.setFld (ModuleReg.not_tile _ _)).setReg (ModuleReg.not_tile _ _)).setFld (ModuleReg.not_tile _ _)

theorem retireTile_module (s : State) (ti : Nat) : s.Fixes ModuleReg (retireTile s ti) := by
  have hdrop : s.Fixes ModuleReg (s.dropAt ti 0 false) := (State.Fixes.refl _ s).upd rfl rfl
  have hoff := hdrop.trans (offTile_module (s.dropAt ti 0 false) ti)
  by_cases h : s.usable ti = true
  · rw [retireTile_eq h]
    generalize offTile (s.dropAt ti 0 false) ti = u at hoff
    exact hoff.upd
  · rw [retireTile, if_pos (by simp [h])]
    exact .refl ..

theorem marchBank_spares (s : State) (ti : Nat) {bank : Nat} (row : Nat) (h : s.spareRows ti 0 bank < 8) :
    marchBank s ti bank [row] = takeSpare s ti (0, bank, row) := if_neg (by simp; omega)

theorem marchBank_retires (ti : Nat) {bank : Nat} (row : Nat) (h : 8 ≤ s.spareRows ti 0 bank) (husable : s.usable ti = true) :
    marchBank s ti bank [row] = recordEvent (retireTile s ti) 0x0C04 0 ti 1 s.plan.epoch := by
  rw [marchBank, if_pos (by simp; omega), if_pos husable]

/-- The registers of the module that the recording of events leaves as they are. -/
def QuietReg (a : Nat) : Prop := ModuleReg a ∧ a ∉ eventRegs

theorem takeSpare_quiet (s : State) (ti bank row : Nat) : s.Fixes QuietReg (takeSpare s ti (0, bank, row)) := by
  unfold takeSpare
  extract_lets t used s1
  split
  · exact .refl ..
  · split
    · exact .refl ..
    · have hs1 : s.Fixes QuietReg s1 := ⟨fun _ _ => rfl, fun _ h => h⟩
      clear_value s1
      exact hs1.upd.recordEvent (fun _ hm hq => hq.2 hm) ..

theorem retireTile_quiet (s : State) (ti p0 p1 p2 p3 : Nat) : s.Fixes QuietReg (recordEvent (retireTile s ti) 0x0C04 p0 p1 p2 p3) :=
  ((retireTile_module s ti).mono fun _ h => h.1).recordEvent (fun _ hm hq => hq.2 hm) ..

theorem marchBank_quiet (s : State) (ti bank row : Nat) : s.Fixes QuietReg (marchBank s ti bank [row]) := by
  unfold marchBank
  split
  · split
    · exact retireTile_quiet ..
    · exact .refl ..
  · exact takeSpare_quiet ..

theorem marchDone_failed {bank : Nat} (row : Nat) (hjob : s.bist.job = some j) (hrun : j.running = true) (htest : j.test ≤ 1) (hbank : bank < 12)
    (hmask : j.mask.testBit bank = true) :
    ∃ t, exec (.marchDone (halfOf j.ti) [(bank, row)]) s = .next t ∧ t.fld Reg.BST_TEST_STATUS 31 30 = 3 ∧
      t.fld Reg.BST_TEST_STATUS 23 12 = 2 ^ bank ∧ t.fld Reg.BST_TEST_STATUS 11 0 = 1 ∧
      (s.spareRows j.ti 0 bank < 8 → (0, bank, row) ∈ (t.tile j.ti).softSpares) ∧
      (8 ≤ s.spareRows j.ti 0 bank → s.usable j.ti = true → j.ti ∈ t.plan.retired ∧ t.plan.due = true) := by
  obtain ⟨spares, hend⟩ := endTest_row s row htest hbank hmask
  have hex := (exec_marchDone hjob hrun [(bank, row)]).trans (congrArg Host.Outcome.next hend)
  have hfail : 2 ^ bank < 4096 := Nat.pow_lt_pow_right (a := 2) (by decide) hbank
  have hnoted := s.testNoted j (result := 3) (by decide) hfail (n := 1) (by decide) spares
  generalize State.marchNoted _ j 3 spares = u at hex hnoted
  obtain ⟨hresult, hfails, hn⟩ := hnoted.status
  have hspare : u.spareRows j.ti 0 bank = s.spareRows j.ti 0 bank := by
    unfold State.spareRows
    rw [hnoted.fuses, hnoted.tile htest, Tile.marched_softSpares]
  have hkeeps := (marchBank_quiet u j.ti bank row).fld (a := Reg.BST_TEST_STATUS) ⟨by unfold ModuleReg; decide, by decide⟩
  refine ⟨_, hex, ?_, ?_, ?_, fun h => ?_, fun h husable => ?_⟩
  · rw [State.fld_congr (State.testOver_regs _), hkeeps, hresult]
  · rw [State.fld_congr (State.testOver_regs _), hkeeps, hfails]
  · rw [State.fld_congr (State.testOver_regs _), hkeeps, hn]
  · rw [State.testOver_tile, marchBank_spares u j.ti row (by omega)]
    exact takeSpare_spares u j.ti row (by omega)
  · have husable' : u.usable j.ti = true := by
      unfold State.usable at *
      rwa [hnoted.plan]
    rw [State.testOver_plan, marchBank_retires j.ti row (by omega) husable', recordEvent_plan, retireTile_plan husable']
    exact ⟨List.mem_append_right _ (List.mem_singleton_self _), rfl⟩

end

end Sys2Proof.Machine

namespace Sys2Proof.Machine

/-! ## Thyme (18 R521-R524) -/

section
variable {s : State} {u : UnitResult} {ci ti : Nat}

/-- The tiles of a cluster lie in it. -/
theorem clusterOf_of_mem (h : ti ∈ clusterTiles ci) : clusterOf ti = ci := by
  obtain ⟨i, hi, rfl⟩ := List.mem_map.1 h
  have hlt := List.mem_range.1 hi
  unfold clusterOf tileX tileY tileAt
  omega

/-- The units that each tile has run in the pass. -/
def State.withDone (s : State) (m : SMap Nat) : State := { s with bist := { s.bist with done := m } }
/-- The units that run again. -/
def State.withRetest (s : State) (l : List (Nat × Nat)) : State := { s with bist := { s.bist with retest := l } }
/-- One unit more of the pass has failed. -/
def State.unitCounted (s : State) : State := { s with bist := { s.bist with fails := s.bist.fails + 1 } }

/-- A unit of a tile has run. -/
def State.unitRun (s : State) (ti : Nat) : State := s.withDone (SMap.put s.bist.done ti (SMap.getD s.bist.done ti 0 + 1))

theorem State.unitRun_passDone (s : State) (hne : ci ≠ clusterOf ti) : (s.unitRun ti).passDone ci = s.passDone ci := by
  unfold State.passDone
  refine Bool.eq_iff_iff.2 ?_
  rw [List.all_eq_true, List.all_eq_true]
  refine forall₂_congr fun tj hj => ?_
  have hcl := clusterOf_of_mem hj
  have htj : tj ≠ ti := fun e => hne (by rw [← e, hcl])
  change (!s.usable tj || decide (unitsOf tj ≤ SMap.getD (SMap.put s.bist.done ti _) tj 0)) = true ↔ _
  rw [SMap.getD_put_ne _ _ _ htj]

/-- A pass with a cluster that has not run its units goes on. -/
theorem settlePass_stays (hci : ci < 144) (h : s.passDone ci = false) : settlePass s = s := by
  unfold settlePass
  refine if_neg ?_
  have hall : (List.range 144).all s.passDone = false := List.all_eq_false.2 ⟨ci, List.mem_range.2 hci, by simp [h]⟩
  simp [hall]

theorem softRepair_none (h : s.stm.repairs = []) : softRepair s = s := by
  unfold softRepair
  simp only [h]

theorem exec_thymeSlice (hallowed : s.sliceAllowed (clusterOf u.ti) = true) (husable : s.usable u.ti = true) :
    exec (.thymeSlice (clusterOf u.ti) [u]) s = .next (softRepair (settlePass (takeUnit s u))) := by
  change execThymeSlice (clusterOf u.ti) [u] s = _
  unfold execThymeSlice
  rw [if_pos hallowed, List.filter_singleton]
  simp only [husable, decide_true, Bool.and_self, cond_true, List.foldl_cons, List.foldl_nil]

theorem takeUnit_passed (hcls : u.cls = 0) (hpassed : u.passed = true) (hnew : s.bist.retest.contains (u.ti, 8 * u.cls + u.index) = false) :
    takeUnit s u = s.unitRun u.ti := by
  unfold takeUnit
  extract_lets key again s1 s2 spot s3 b s4
  have hs1 : s1 = s := if_pos hpassed
  have hs2 : s2 = s1 := if_neg (by rw [hcls]; decide)
  have hs3 : s3 = s2 := if_neg (by rw [hcls]; decide)
  have hs4 : s4 = s3.unitRun u.ti := if_neg (by rw [show again = false from hnew]; decide)
  rw [if_pos (Or.inl hpassed), hs4, hs3, hs2, hs1]

theorem thymeSlice_passed (hallowed : s.sliceAllowed (clusterOf u.ti) = true) (husable : s.usable u.ti = true) (hcls : u.cls = 0)
    (hpassed : u.passed = true) (hrepairs : s.stm.repairs = []) (hnew : s.bist.retest.contains (u.ti, 8 * u.cls + u.index) = false)
    (hci : ci < 144) (hne : ci ≠ clusterOf u.ti) (hrest : s.passDone ci = false) :
    exec (.thymeSlice (clusterOf u.ti) [u]) s = .next (s.unitRun u.ti) := by
  rw [exec_thymeSlice hallowed husable, takeUnit_passed hcls hpassed hnew,
    settlePass_stays hci ((s.unitRun_passDone hne).trans hrest), softRepair_none (s := s.unitRun u.ti) hrepairs]

/-! ### A unit that fails -/

theorem unitFailed_eq (s : State) (u : UnitResult) :
    unitFailed s u = recordEvent (s.unitCounted.count Reg.BST_THYME_FAILS 1) 0x0C03 0 u.ti u.cls u.index := rfl

theorem State.unitCounted_regs (s : State) : s.unitCounted.regs = s.regs := rfl
theorem State.unitCounted_sameClock (s : State) : s.SameClock s.unitCounted := {}

/-- What a failed unit leaves for the rest of its slice. -/
structure State.UnitView (s t : State) : Prop where
  retest : t.bist.retest = s.bist.retest
  plan : t.plan = s.plan
  stm : t.stm = s.stm

theorem unitFailed_view (s : State) (u : UnitResult) : s.UnitView (unitFailed s u) := by
  rw [unitFailed_eq]
  refine ⟨?_, ?_, ?_⟩
  · rw [recordEvent_bist, State.count_bist]
    rfl
  · rw [recordEvent_plan, State.count_plan]
    rfl
  · rw [recordEvent_stm, State.count_stm]
    rfl

theorem unitFailed_counted (s : State) (u : UnitResult) : s.Counted (unitFailed s u) Reg.BST_THYME_FAILS 1 ∧
    s.Records (unitFailed s u) (s.record 0x0C03 0 u.ti u.cls u.index) := by
  rw [unitFailed_eq]
  have hcount : s.Counted (s.unitCounted.count Reg.BST_THYME_FAILS 1) Reg.BST_THYME_FAILS 1 := State.count_counted s.unitCounted_regs _ _
  exact ⟨hcount.afterEvent (by decide) .., (s.unitCounted_sameClock.trans (.of_regsOnly
    (s.unitCounted.count_regsOnly (List.mem_singleton_self _)))).records _ _ _ _ _⟩

/-- A unit of logic that fails: counted and run again, or, failing again, the end of its tile. -/
theorem takeUnit_failed (hcls : u.cls = 0) (hpassed : u.passed = false) : takeUnit s u =
    if s.bist.retest.contains (u.ti, 8 * u.cls + u.index) then
      secondFailure ((unitFailed s u).withRetest ((unitFailed s u).bist.retest.filter (fun k => decide (k ≠ (u.ti, 8 * u.cls + u.index))))) u
    else
      ((unitFailed s u).unitRun u.ti).withRetest (((unitFailed s u).unitRun u.ti).bist.retest ++ [(u.ti, 8 * u.cls + u.index)]) := by
  unfold takeUnit
  extract_lets key again s1 s2 spot s3 b s4
  have hs1 : s1 = unitFailed s u := if_neg (by simp [hpassed])
  have hs2 : s2 = s1 := if_neg (by rw [hcls]; decide)
  have hs3 : s3 = unitFailed s u := (if_neg (by rw [hcls]; decide) : s3 = s2).trans (hs2.trans hs1)
  have hs4 : s4 = if again then s3.withRetest (s3.bist.retest.filter (fun k => decide (k ≠ key))) else s3.unitRun u.ti := rfl
  rw [if_neg (by simp [hpassed, hcls])]
  change (if again = true then secondFailure s4 u else s4.withRetest (s4.bist.retest ++ [key])) = if again = true then _ else _
  clear_value s4 s3 again
  rw [hs4, hs3]
  cases again with
  | true => rfl
  | false => rfl

theorem retireTile_bist_stm (husable : s.usable ti = true) : (retireTile s ti).bist = s.bist ∧ (retireTile s ti).stm = s.stm := by
  have hplan (t : State) : (t.planRetired ti).bist = t.bist ∧ (t.planRetired ti).stm = t.stm := ⟨rfl, rfl⟩
  have hdrop : ((s.dropAt ti 0 false).tileEmptied ti).bist = s.bist ∧ ((s.dropAt ti 0 false).tileEmptied ti).stm = s.stm := ⟨rfl, rfl⟩
  rw [retireTile_eq husable, (hplan _).1, (hplan _).2, offTile_eq]
  generalize (s.dropAt ti 0 false).tileEmptied ti = u at hdrop
  rw [State.setTilState_bist, State.setTilState_stm, State.setReg_bist, State.setReg_stm, State.setFld_bist, State.setFld_stm]
  exact hdrop

/-- A unit that fails for the second time retires its tile. -/
theorem takeUnit_again (hcls : u.cls = 0) (hpassed : u.passed = false) (husable : s.usable u.ti = true)
    (hagain : s.bist.retest.contains (u.ti, 8 * u.cls + u.index) = true) :
    (unitFailed s u).Fixes QuietReg (takeUnit s u) ∧ (u.ti, 8 * u.cls + u.index) ∉ (takeUnit s u).bist.retest ∧
      (takeUnit s u).plan = { s.plan with retired := s.plan.retired ++ [u.ti], due := true } ∧ (takeUnit s u).stm = s.stm := by
  have hview := unitFailed_view s u
  rw [takeUnit_failed hcls hpassed, if_pos hagain]
  generalize unitFailed s u = f at hview
  have hf (l : List (Nat × Nat)) : f.Fixes QuietReg (f.withRetest l) ∧ (f.withRetest l).bist.retest = l ∧ (f.withRetest l).plan = f.plan ∧
      (f.withRetest l).stm = f.stm := ⟨⟨fun _ _ => rfl, fun _ h => h⟩, rfl, rfl, rfl⟩
  have hfilter : (u.ti, 8 * u.cls + u.index) ∉ f.bist.retest.filter (fun k => decide (k ≠ (u.ti, 8 * u.cls + u.index))) := by
    simp [List.mem_filter]
  generalize f.bist.retest.filter _ = l at hfilter
  obtain ⟨hfix, hretest, hplan, hstm⟩ := hf l
  generalize f.withRetest l = x at hfix hretest hplan hstm
  have husable' : x.usable u.ti = true := by
    unfold State.usable at *
    rwa [hplan, hview.plan]
  rw [secondFailure, if_pos hcls, if_pos husable']
  refine ⟨hfix.trans (retireTile_quiet ..), ?_, ?_, ?_⟩
  · rw [recordEvent_bist, (retireTile_bist_stm husable').1, hretest]
    exact hfilter
  · rw [recordEvent_plan, retireTile_plan husable', hplan, hview.plan]
  · rw [recordEvent_stm, (retireTile_bist_stm husable').2, hstm, hview.stm]

/-- A unit that fails for the first time runs again. -/
theorem takeUnit_first (hcls : u.cls = 0) (hpassed : u.passed = false)
    (hnew : s.bist.retest.contains (u.ti, 8 * u.cls + u.index) = false) :
    (unitFailed s u).Fixes QuietReg (takeUnit s u) ∧ (u.ti, 8 * u.cls + u.index) ∈ (takeUnit s u).bist.retest ∧ (takeUnit s u).stm = s.stm := by
  have hview := unitFailed_view s u
  rw [takeUnit_failed hcls hpassed, if_neg (by rw [hnew]; exact Bool.false_ne_true)]
  generalize unitFailed s u = f at hview
  have hf (l : List (Nat × Nat)) : f.Fixes QuietReg ((f.unitRun u.ti).withRetest l) ∧ ((f.unitRun u.ti).withRetest l).bist.retest = l ∧
      ((f.unitRun u.ti).withRetest l).stm = f.stm := ⟨⟨fun _ _ => rfl, fun _ h => h⟩, rfl, rfl⟩
  obtain ⟨hfix, hretest, hstm⟩ := hf ((f.unitRun u.ti).bist.retest ++ [(u.ti, 8 * u.cls + u.index)])
  exact ⟨hfix, by rw [hretest]; exact List.mem_append_right _ (List.mem_singleton_self _), by rw [hstm, hview.stm]⟩

/-- The end of a pass leaves the count of failed units, the units that run again, the floor plan and the stacks. -/
structure State.PassKept (s t : State) : Prop where
  fixes : s.Fixes (· = Reg.BST_THYME_FAILS) t
  retest : t.bist.retest = s.bist.retest
  plan : t.plan = s.plan
  stm : t.stm = s.stm

/-- The next pass begins. -/
def State.passBegun (s : State) : State := { s with bist := { s.bist with passAt := s.now, done := [], fails := 0, late := [] } }

theorem State.passBegun_kept (s : State) : s.PassKept s.passBegun := ⟨⟨fun _ _ => rfl, fun _ h => h⟩, rfl, rfl, rfl⟩

theorem State.PassKept.trans {t x : State} (h : s.PassKept t) (k : t.PassKept x) : s.PassKept x :=
  ⟨h.fixes.trans k.fixes, k.retest.trans h.retest, k.plan.trans h.plan, k.stm.trans h.stm⟩

theorem settlePass_passKept (s : State) : s.PassKept (settlePass s) := by
  unfold settlePass
  split
  · extract_lets n t b
    have hset : s.RegsOnly (s.setFld Reg.BST_THYME_STATUS 31 16 n) [Reg.BST_THYME_STATUS] := s.setFld_regsOnly ..
    have hfix : s.Fixes (· = Reg.BST_THYME_FAILS) t := (State.Fixes.of_regsOnly hset (by decide)).recordEvent (by decide) ..
    have hbist : t.bist = s.bist := (recordEvent_bist ..).trans (State.setFld_bist ..)
    have hplan : t.plan = s.plan := (recordEvent_plan ..).trans (State.setFld_plan ..)
    have hstm : t.stm = s.stm := (recordEvent_stm ..).trans (State.setFld_stm ..)
    have hbegun : t.PassKept t.passBegun := t.passBegun_kept
    clear_value t
    exact State.PassKept.trans ⟨hfix, by rw [hbist], hplan, hstm⟩ hbegun
  · exact ⟨.refl _ s, rfl, rfl, rfl⟩

theorem thymeSlice_failed (hallowed : s.sliceAllowed (clusterOf u.ti) = true) (husable : s.usable u.ti = true) (hcls : u.cls = 0)
    (hpassed : u.passed = false) (hrepairs : s.stm.repairs = []) :
    ∃ t, exec (.thymeSlice (clusterOf u.ti) [u]) s = .next t ∧ s.Counted t Reg.BST_THYME_FAILS 1 ∧
      s.Shows t (s.record 0x0C03 0 u.ti u.cls u.index) ∧
      (s.bist.retest.contains (u.ti, 8 * u.cls + u.index) = false → (u.ti, 8 * u.cls + u.index) ∈ t.bist.retest) ∧
      (s.bist.retest.contains (u.ti, 8 * u.cls + u.index) = true →
        (u.ti, 8 * u.cls + u.index) ∉ t.bist.retest ∧ u.ti ∈ t.plan.retired ∧ t.plan.due = true) := by
  obtain ⟨hcount, hrec⟩ := unitFailed_counted s u
  have htaken : (unitFailed s u).Fixes QuietReg (takeUnit s u) ∧ (takeUnit s u).stm = s.stm := by
    cases hagain : s.bist.retest.contains (u.ti, 8 * u.cls + u.index) with
    | false =>
      obtain ⟨hfix, -, hstm⟩ := takeUnit_first hcls hpassed hagain
      exact ⟨hfix, hstm⟩
    | true =>
      obtain ⟨hfix, -, -, hstm⟩ := takeUnit_again hcls hpassed husable hagain
      exact ⟨hfix, hstm⟩
  have hpass := settlePass_passKept (takeUnit s u)
  have hfix := (htaken.1.mono fun a (ha : a = Reg.BST_THYME_FAILS) => (by subst ha; exact ⟨by unfold ModuleReg; decide, by decide⟩ : QuietReg a)).trans
    hpass.fixes
  have hex := exec_thymeSlice hallowed husable
  rw [softRepair_none (by rw [hpass.stm, htaken.2, hrepairs])] at hex
  refine ⟨_, hex, ?_, hfix.shows hrec.shows, fun hnew => ?_, fun hagain => ?_⟩
  · unfold State.Counted at *
    rwa [hfix.regs _ rfl]
  · rw [hpass.retest]
    exact (takeUnit_first hcls hpassed hnew).2.1
  · obtain ⟨-, hout, hplan, -⟩ := takeUnit_again hcls hpassed husable hagain
    rw [hpass.retest, hpass.plan, hplan]
    exact ⟨hout, List.mem_append_right _ (List.mem_singleton_self _), rfl⟩

end

/-! ## The fuse burn (18 R526) -/

section
variable {s : State}

theorem burnStart_owner (hdiag : s.diagnosing = true) (hidle : s.fld Reg.BST_BURN_CTRL 2 0 ≠ burning) :
    ∃ t, exec (.bstBurnStart true) s = .next t ∧ t.fld Reg.BST_BURN_CTRL 2 0 = burning ∧ s.RegsOnly t [Reg.BST_BURN_CTRL] := by
  refine ⟨s.setFld Reg.BST_BURN_CTRL 2 0 burning, congrArg Host.Outcome.next ?_, s.fld_setFld_same _ _ (by decide) (by decide), s.setFld_regsOnly ..⟩
  rw [burnStart, if_neg (by decide), if_neg (by simp [hdiag, hidle])]

theorem burnStart_other (s : State) : ∃ t, exec (.bstBurnStart false) s = .next t ∧ t.reg Reg.BST_BURN_CTRL = s.reg Reg.BST_BURN_CTRL ∧
    t.fuses = s.fuses ∧ t.out = s.out ++ [.written Reg.BST_BURN_CTRL stNotAuthorised] := by
  have hframe := authFailed_frame s 0x7F 2 Reg.BST_BURN_CTRL
  refine ⟨refuse (authFailed s 0x7F 2 Reg.BST_BURN_CTRL) Reg.BST_BURN_CTRL stNotAuthorised, rfl, ?_, ?_, ?_⟩
  · rw [refuse_reg, hframe.1 _ (by decide)]
  · rw [refuse_fuses, hframe.2]
  · rw [refuse_out, hframe.2]

/-- The fuses with some entries burnt. -/
def State.burnt (s : State) (f : Fuses) : State := { s with fuses := f }

theorem State.burnt_shown (s : State) (f : Fuses) : s.SameClock (s.burnt f) ∧ (s.burnt f).fuses = f := ⟨{}, rfl⟩

/-- The entries of a burn map of one kind. -/
def burnCount (m : List BurnItem) (k : Nat) : Nat := (m.filter (fun i => decide (i.kind = k))).length

theorem exec_burnDone_ok (hburn : s.fld Reg.BST_BURN_CTRL 2 0 = burning) : exec (.burnDone true) s =
    .next (recordEvent ((s.burnt (s.burnMap.foldl Fuses.burn s.fuses)).setFld Reg.BST_BURN_CTRL 2 0 burnDone) 0x0C08 0
      (burnCount s.burnMap 0) (burnCount s.burnMap 1) (burnCount s.burnMap 2)) := if_neg (not_not.2 hburn)

theorem exec_burnDone_failed (hburn : s.fld Reg.BST_BURN_CTRL 2 0 = burning) : exec (.burnDone false) s =
    .next ((s.takeFree.2.burnt ((s.burnMap.take (s.takeFree.1.toNat % (s.burnMap.length + 1))).foldl Fuses.burn s.fuses)).setFld
      Reg.BST_BURN_CTRL 2 0 burnFailed) := if_neg (not_not.2 hburn)

theorem burnDone_shown (hburn : s.fld Reg.BST_BURN_CTRL 2 0 = burning) :
    ∃ t, exec (.burnDone true) s = .next t ∧ t.fld Reg.BST_BURN_CTRL 2 0 = burnDone ∧
      t.fuses = s.burnMap.foldl Fuses.burn s.fuses ∧
      s.Records t (s.record 0x0C08 0 (burnCount s.burnMap 0) (burnCount s.burnMap 1) (burnCount s.burnMap 2)) := by
  obtain ⟨hclock, hfuses⟩ := s.burnt_shown (s.burnMap.foldl Fuses.burn s.fuses)
  have hex := exec_burnDone_ok hburn
  generalize s.burnt _ = u at hex hclock hfuses
  have hset : u.RegsOnly (u.setFld Reg.BST_BURN_CTRL 2 0 burnDone) [Reg.BST_BURN_CTRL] := u.setFld_regsOnly ..
  refine ⟨_, hex, ?_, ?_, (hclock.trans (.of_regsOnly hset)).records _ _ _ _ _⟩
  · exact (recordEvent_fld _ _ _ _ _ _ _ _ (by decide)).trans (u.fld_setFld_same _ _ (by decide) (by decide))
  · rw [recordEvent_fuses, hset.2]
    exact hfuses

theorem burnDone_stopped (hburn : s.fld Reg.BST_BURN_CTRL 2 0 = burning) :
    ∃ t, exec (.burnDone false) s = .next t ∧ t.fld Reg.BST_BURN_CTRL 2 0 = burnFailed ∧
      ∃ n, t.fuses = (s.burnMap.take n).foldl Fuses.burn s.fuses := by
  have hex := exec_burnDone_failed hburn
  generalize s.takeFree.1.toNat % (s.burnMap.length + 1) = n at hex
  have hfuses := (s.takeFree.2.burnt_shown ((s.burnMap.take n).foldl Fuses.burn s.fuses)).2
  generalize s.takeFree.2.burnt _ = u at hex hfuses
  refine ⟨_, hex, u.fld_setFld_same _ _ (by decide) (by decide), n, ?_⟩
  rw [State.setFld_fuses, hfuses]

end

/-- Settles O58: each request, end of a test, slice and burn by its lemma. -/
theorem selfTestsReport : Obligations.SelfTestsReport := by
  unfold Obligations.SelfTestsReport
  exact ⟨fun s v hstart htest hjob hallowed hmask husable => bstTestStart_waits hstart htest hjob hallowed hmask husable,
    fun s v h => bstTestStart_seven h, fun s j hjob hrun => marchDone_passed hjob hrun,
    fun s j bank row hjob hrun htest hbank hmask => marchDone_failed row hjob hrun htest hbank hmask,
    fun s u hallowed husable hcls hpassed hrepairs hnew ⟨ci, hci, hne, hrest⟩ =>
      thymeSlice_passed hallowed husable hcls hpassed hrepairs hnew hci hne hrest,
    fun s u hallowed husable hcls hpassed hrepairs => thymeSlice_failed hallowed husable hcls hpassed hrepairs,
    fun s hdiag hidle => burnStart_owner hdiag hidle, burnStart_other, fun s hburn => ⟨burnDone_shown hburn, burnDone_stopped hburn⟩⟩

end Sys2Proof.Machine

namespace Sys2Proof.Machine

/-! ## The management port (19 R534-R537) -/

section
variable {s : State}

theorem respond_shown (s : State) (ep command tag status : Nat) (body : List Nat) :
    (respond s ep command tag status body).regs = s.regs ∧ (respond s ep command tag status body).evt = s.evt ∧
      (respond s ep command tag status body).fuses = s.fuses ∧ (respond s ep command tag status body).mgmt = s.mgmt ∧
      (respond s ep command tag status body).out = s.out ++ [.vdm ep (command + 0x80) tag status body] := ⟨rfl, rfl, rfl, rfl, rfl⟩

/-- What a read changes. -/
theorem afterRead_frame (s : State) (a : Nat) : s.RegsOnly (afterRead s a) [Reg.EVT_CURSOR, Reg.CFG_CARD_READ_ADDR] := by
  unfold afterRead
  split
  · exact s.setFld_regsOnly_mem List.mem_cons_self
  · split
    · exact s.setReg_regsOnly (by simp)
    · exact ⟨State.RegsFrame.refl s _, rfl⟩

theorem exec_vdmRead {ep tag addr count : Nat} (hport : s.portAnswers = true) (hpos : 0 < count) (hmax : count ≤ 64) :
    exec (.vdmRead ep tag addr count) s = .next (respond (((List.range count).map (fun i => (addr + i) % 2 ^ 32)).foldl afterRead s) ep 1 tag 0
      ([0, 0] ++ ((List.range count).map (fun i => (addr + i) % 2 ^ 32)).flatMap (fun a => leBytes 4 (s.readReg a).toNat))) := by
  change execVdmRead ep tag addr count s = _
  unfold execVdmRead
  rw [if_neg (by simp [hport])]
  exact if_neg (by omega)

theorem vdmRead_shown {ep tag addr count : Nat} (hport : s.portAnswers = true) (hpos : 0 < count) (hmax : count ≤ 64) :
    ∃ t, exec (.vdmRead ep tag addr count) s = .next t ∧ t.out = s.out ++ [.vdm ep 0x81 tag 0 ([0, 0] ++
        (List.range count).flatMap (fun i => leBytes 4 (s.readReg ((addr + i) % 2 ^ 32)).toNat))] ∧
      s.RegsFrame t [Reg.EVT_CURSOR, Reg.CFG_CARD_READ_ADDR] := by
  have hex := exec_vdmRead (ep := ep) (tag := tag) (addr := addr) hport hpos hmax
  rw [List.flatMap_map] at hex
  have hreads : s.RegsOnly (((List.range count).map (fun i => (addr + i) % 2 ^ 32)).foldl afterRead s) [Reg.EVT_CURSOR, Reg.CFG_CARD_READ_ADDR] :=
    List.foldlRecOn (motive := fun t => s.RegsOnly t [Reg.EVT_CURSOR, Reg.CFG_CARD_READ_ADDR]) _ _ ⟨State.RegsFrame.refl s _, rfl⟩ fun t ht a _ => ht.trans (afterRead_frame t a)
  generalize ((List.range count).map (fun i => (addr + i) % 2 ^ 32)).foldl afterRead s = t at hex hreads
  obtain ⟨hregs, -, -, -, hout⟩ := respond_shown t ep 1 tag 0
    ([0, 0] ++ (List.range count).flatMap (fun i => leBytes 4 (s.readReg ((addr + i) % 2 ^ 32)).toNat))
  refine ⟨_, hex, hout.trans (by rw [hreads.2]), fun a ha => (State.reg_congr hregs a).trans (hreads.1 a ha)⟩

theorem writeAll_cursor {w : Word} (h : w.toNat < 2 ^ 17) : writeAll true s Reg.EVT_CURSOR [w] = (s.setFld Reg.EVT_CURSOR 16 0 w.toNat, 1, 0) := by
  have hv : getBits w 16 0 = w.toNat := Nat.mod_eq_of_lt h
  have hwrite : writeRegister s Reg.EVT_CURSOR w true = s.setFld Reg.EVT_CURSOR 16 0 w.toNat := by
    rw [writeRegister_EVT_CURSOR]
    rw [← hv] at h ⊢
    refine plainWrite_accepted regDef_EVT_CURSOR ?_
    rw [List.foldl_cons, List.foldl_nil]
    exact writeField_rw rfl (Nat.zero_le _) (Nat.le_of_lt_succ h)
  have haccepted : writeStatus s (s.setFld Reg.EVT_CURSOR 16 0 w.toNat) = 0 := writeStatus_accepted (State.setFld_mgmt ..)
  unfold writeAll
  rw [show Reg.EVT_CURSOR % 2 ^ 32 = Reg.EVT_CURSOR from rfl, hwrite]
  dsimp only
  rw [haccepted]
  rfl

theorem vdmWrite_cursor {ep i tag : Nat} {w : Word} (hport : s.portServes = true) (howner : s.ownerSession ep (some i) = true) (hw : w.toNat < 2 ^ 17) :
    ∃ t, exec (.vdmWrite ep (some i) tag Reg.EVT_CURSOR [w]) s = .next t ∧ t.fld Reg.EVT_CURSOR 16 0 = w.toNat ∧
      t.out = s.out ++ [.vdm ep 0x82 tag 0 [1, 0]] ∧ s.RegsFrame t [Reg.EVT_CURSOR] := by
  have hex : exec (.vdmWrite ep (some i) tag Reg.EVT_CURSOR [w]) s = .next (respond (s.setFld Reg.EVT_CURSOR 16 0 w.toNat) ep 2 tag 0 [1, 0]) := by
    change execVdmWrite ep (some i) tag Reg.EVT_CURSOR [w] s = _
    unfold execVdmWrite
    rw [if_neg (by simp [hport]), if_neg (by simp), if_neg (by simp [howner]), writeAll_cursor hw]
    dsimp only
    rw [show leBytes 2 1 = [1, 0] by decide]
  have hset := s.setFld_regsOnly Reg.EVT_CURSOR 16 0 w.toNat
  have hfld : (s.setFld Reg.EVT_CURSOR 16 0 w.toNat).fld Reg.EVT_CURSOR 16 0 = w.toNat :=
    (s.fld_setFld_same _ _ (by decide) (by decide)).trans (Nat.mod_eq_of_lt hw)
  generalize s.setFld Reg.EVT_CURSOR 16 0 w.toNat = t at hex hset hfld
  obtain ⟨hregs, -, -, -, hout⟩ := respond_shown t ep 2 tag 0 [1, 0]
  exact ⟨_, hex, (State.fld_congr hregs ..).trans hfld, hout.trans (by rw [hset.2]), fun a ha => (State.reg_congr hregs a).trans (hset.1 a ha)⟩

theorem vdmWrite_unauthorised {ep tag addr : Nat} {session : Option Nat} {values : List Word} (hport : s.portServes = true) (hne : values ≠ [])
    (hmax : values.length ≤ 64) (howner : s.ownerSession ep session = false) :
    ∃ t, exec (.vdmWrite ep session tag addr values) s = .next t ∧ s.Counted t Reg.SEC_AUTH_FAILS 1 ∧
      s.Records t (s.record 0x0102 0 0x7F 2 (addr % 2 ^ 24)) ∧ t.out = s.out ++ [.vdm ep 0x82 tag stNotAuthorised [0, 0]] ∧
      s.RegsFrame t (Reg.SEC_AUTH_FAILS :: eventRegs) := by
  have hex : exec (.vdmWrite ep session tag addr values) s = .next (respond (authFailed s 0x7F 2 addr) ep 2 tag stNotAuthorised [0, 0]) := by
    change execVdmWrite ep session tag addr values s = _
    unfold execVdmWrite
    rw [if_neg (by simp [hport]), if_neg (by simp [hne]; omega)]
    exact if_pos (by simp [howner])
  obtain ⟨hcount, hrec⟩ := authFailed_shown (t := s) (s := s) {} rfl 0x7F 2 addr
  have hframe := authFailed_frame s 0x7F 2 addr
  generalize authFailed s 0x7F 2 addr = t at hex hcount hrec hframe
  obtain ⟨hregs, hevt, -, -, hout⟩ := respond_shown t ep 2 tag stNotAuthorised [0, 0]
  refine ⟨_, hex, hcount.congr hregs, fun hroom => ?_, hout.trans (by rw [hframe.2]), fun a ha => (State.reg_congr hregs a).trans (hframe.1 a ha)⟩
  rw [hevt]
  exact hrec hroom

/-! ### Keys and identity (19 R537, R543) -/

/-- The key last sent on an endpoint. -/
def State.withOwnerKey (s : State) (ep : Nat) (key : List Nat) : State :=
  { s with mgmt := { s.mgmt with ownerKeys := SMap.put s.mgmt.ownerKeys ep key } }

theorem ownerKey_taken {ep tag : Nat} {key : List Nat} (hport : s.portServes = true) (hlen : key.length = 388) :
    ∃ t, exec (.ownerKey ep tag key) s = .next t ∧ SMap.get? t.mgmt.ownerKeys ep = some key ∧ t.regs = s.regs ∧
      t.out = s.out ++ [.vdm ep 0x90 tag 0 []] := by
  refine ⟨respond (s.withOwnerKey ep key) ep 0x10 tag 0 [], ?_, ?_, rfl, rfl⟩
  · change execOwnerKey ep tag key s = _
    unfold execOwnerKey
    rw [if_neg (by simp [hport]), if_neg (by simp [hlen])]
    rfl
  · change SMap.get? (SMap.put s.mgmt.ownerKeys ep key) ep = some key
    rw [SMap.get?_put, if_pos rfl]

/-- A nonce that stands for the next ticket, and the free bytes it is made of taken. -/
def State.nonceTaken (s : State) : State := { (s.takeBytes 16).2 with mgmt := { s.mgmt with nonce := some (s.takeBytes 16).1 } }

theorem exportId_shown {ep tag : Nat} (hport : s.portServes = true) :
    ∃ t nonce, exec (.exportId ep tag) s = .next t ∧ nonce.length = 16 ∧ t.mgmt.nonce = some nonce ∧ t.regs = s.regs ∧
      t.out = s.out ++ [.vdm ep 0x91 tag 0 (leBytes 8 Config.moduleId.toNat ++ nonce ++ s.identity.getD (List.replicate 388 0))] := by
  refine ⟨respond s.nonceTaken ep 0x11 tag 0 (leBytes 8 Config.moduleId.toNat ++ (s.takeBytes 16).1 ++ s.identity.getD (List.replicate 388 0)),
    (s.takeBytes 16).1, ?_, ?_, rfl, rfl, rfl⟩
  · change execExportId ep tag s = _
    unfold execExportId
    rw [if_neg (by simp [hport])]
    rfl
  · exact (List.length_map ..).trans List.length_range

end

end Sys2Proof.Machine

namespace Sys2Proof.Machine

/-! ## The life cycle (19 R546-R548) -/

section
variable {s : State}

/-- The life cycle in the fuses, and DIAGNOSTIC. -/
def State.lifeSet (s : State) (new : Nat) : State := { s with
  fuses := if new = 3 then s.fuses else { s.fuses with lifeCycle := new }
  mgmt := { s.mgmt with diagnostic := decide (new = 3) } }

theorem changeLife_eq (s : State) (old new : Nat) :
    changeLife s old new = recordEvent (s.lifeSet new) 0x0103 0 old new (s.lifeSet new).fuses.slot := rfl

theorem State.lifeSet_fuses (s : State) (new : Nat) :
    (s.lifeSet new).fuses.owners = s.fuses.owners ∧ (s.lifeSet new).fuses.seeds = s.fuses.seeds ∧ (s.lifeSet new).fuses.slot = s.fuses.slot := by
  change (if new = 3 then s.fuses else _).owners = _ ∧ (if new = 3 then s.fuses else _).seeds = _ ∧ (if new = 3 then s.fuses else _).slot = _
  split
  · exact ⟨rfl, rfl, rfl⟩
  · exact ⟨rfl, rfl, rfl⟩

theorem State.lifeSet_lifeCycle (s : State) {new : Nat} (h : new = 3 → s.fuses.lifeCycle = 2) : (s.lifeSet new).lifeCycle = new := by
  change (if (if new = 3 then s.fuses else { s.fuses with lifeCycle := new }).lifeCycle = 2 ∧ decide (new = 3) = true then 3
    else (if new = 3 then s.fuses else { s.fuses with lifeCycle := new }).lifeCycle) = new
  by_cases h3 : new = 3
  · rw [if_pos h3, h h3, h3]
    rfl
  · rw [if_neg h3, if_neg (by simp [h3])]

theorem State.lifeSet_frame (s : State) (new : Nat) : s.SameClock (s.lifeSet new) ∧ (s.lifeSet new).out = s.out ∧
    (s.lifeSet new).mgmt = { s.mgmt with diagnostic := decide (new = 3) } := ⟨{}, rfl, rfl⟩

/-- What a transition of the life cycle leaves: the state, its event, and the owners, seeds and answers of before. -/
structure State.LifeChanged (s t : State) (u : State) (old new : Nat) : Prop where
  life : t.lifeCycle = new
  event : s.Records t (s.record 0x0103 0 old new u.fuses.slot)
  owners : t.fuses.owners = u.fuses.owners
  seeds : t.fuses.seeds = u.fuses.seeds
  nonce : t.mgmt.nonce = u.mgmt.nonce
  out : t.out = u.out

theorem changeLife_changed {u : State} (hclock : s.SameClock u) (old : Nat) {new : Nat} (h : new = 3 → u.fuses.lifeCycle = 2) :
    s.LifeChanged (changeLife u old new) u old new := by
  have hlife := u.lifeSet_lifeCycle h
  obtain ⟨howners, hseeds, hslot⟩ := u.lifeSet_fuses new
  obtain ⟨hset, hout, hmgmt⟩ := u.lifeSet_frame new
  rw [changeLife_eq, hslot]
  generalize u.lifeSet new = x at *
  refine ⟨?_, (hclock.trans hset).records _ _ _ _ _, ?_, ?_, ?_, ?_⟩
  · unfold State.lifeCycle at *
    rw [recordEvent_fuses, recordEvent_mgmt]
    exact hlife
  · rw [recordEvent_fuses, howners]
  · rw [recordEvent_fuses, hseeds]
  · rw [recordEvent_mgmt, hmgmt]
  · rw [recordEvent_out, hout]

/-- The seeds overwritten with ones. -/
def State.seedsGone (s : State) : State := { s with
  fuses := { s.fuses with seeds := s.fuses.seeds.map (fun x => List.replicate x.length 0xFF) }
  mgmt := { s.mgmt with derived := false } }

/-- The owner and the seed of the next slot. -/
def State.ownerBurnt (s : State) (hash : List Nat) : State := { (s.takeBytes 32).2 with
  fuses := { s.fuses with owners := s.fuses.owners ++ [hash], seeds := s.fuses.seeds ++ [(s.takeBytes 32).1] }
  mgmt := { s.mgmt with derived := false } }

theorem retireModuleLife_eq (s : State) (old : Nat) : retireModuleLife s old = changeLife s.seedsGone old 5 := rfl

/-- A life cycle that may become DIAGNOSTIC is SERVICE, and the fuses hold it. -/
theorem ownerMay_diagnostic (h : ownerMay s.lifeCycle 3 = true) : s.fuses.lifeCycle = 2 := by
  have hlife : s.lifeCycle = 2 := by simpa [ownerMay] using h
  unfold State.lifeCycle at hlife
  split at hlife
  · exact absurd hlife (by decide)
  · exact hlife

theorem exec_lcRequest_owner {ep i tag target : Nat} (hport : s.portServes = true) (howner : s.ownerSession ep (some i) = true)
    (hmay : ownerMay s.lifeCycle target = true) : exec (.lcRequest ep (some i) tag target []) s =
      if target = 5 then .next (respond (retireModuleLife s s.lifeCycle) ep 0x13 tag 0 [])
      else .next (respond (changeLife s s.lifeCycle target) ep 0x13 tag 0 []) := by
  change execLcRequest ep (some i) tag target [] s = _
  unfold execLcRequest
  rw [if_neg (by simp [hport]), if_neg (by simp), if_neg (by simp [howner]), if_neg (by simp [hmay])]

theorem lcRequest_refused {ep i tag target : Nat} (hport : s.portServes = true) (howner : s.ownerSession ep (some i) = true)
    (hmay : ownerMay s.lifeCycle target = false) :
    exec (.lcRequest ep (some i) tag target []) s = .next (s.emit (.vdm ep 0x93 tag stRefused [])) := by
  change execLcRequest ep (some i) tag target [] s = _
  unfold execLcRequest
  rw [if_neg (by simp [hport]), if_neg (by simp), if_neg (by simp [howner])]
  exact if_pos (by simp [hmay])

/-- An answer after a transition keeps what the transition left. -/
theorem State.LifeChanged.respond {t u : State} {old new : Nat} (h : s.LifeChanged t u old new) (ep command tag status : Nat) (body : List Nat) :
    (respond t ep command tag status body).lifeCycle = new ∧
      s.Records (respond t ep command tag status body) (s.record 0x0103 0 old new u.fuses.slot) ∧
      (respond t ep command tag status body).out = u.out ++ [.vdm ep (command + 0x80) tag status body] ∧
      (respond t ep command tag status body).fuses.owners = u.fuses.owners ∧ (respond t ep command tag status body).fuses.seeds = u.fuses.seeds ∧
      (respond t ep command tag status body).mgmt.nonce = u.mgmt.nonce := by
  obtain ⟨-, hevt, hfuses, hmgmt, hout⟩ := respond_shown t ep command tag status body
  refine ⟨?_, fun hroom => ?_, ?_, ?_, ?_, ?_⟩
  · unfold State.lifeCycle
    rw [hfuses, hmgmt]
    exact h.life
  · rw [hevt]
    exact h.event hroom
  · rw [hout, h.out]
  · rw [hfuses, h.owners]
  · rw [hfuses, h.seeds]
  · rw [hmgmt, h.nonce]

theorem lcRequest_taken {ep i tag target : Nat} (hport : s.portServes = true) (howner : s.ownerSession ep (some i) = true)
    (hmay : ownerMay s.lifeCycle target = true) :
    ∃ t, exec (.lcRequest ep (some i) tag target []) s = .next t ∧ t.lifeCycle = target ∧
      s.Records t (s.record 0x0103 0 s.lifeCycle target s.fuses.slot) ∧ t.out = s.out ++ [.vdm ep 0x93 tag 0 []] ∧
      (target = 5 → ∀ x ∈ t.fuses.seeds, ∀ b ∈ x, b = 0xFF) := by
  have hex := exec_lcRequest_owner (tag := tag) hport howner hmay
  by_cases htarget : target = 5
  · subst htarget
    rw [if_pos rfl, retireModuleLife_eq] at hex
    have hgone : s.SameClock s.seedsGone ∧ s.seedsGone.fuses.slot = s.fuses.slot ∧ s.seedsGone.out = s.out ∧
        s.seedsGone.fuses.seeds = s.fuses.seeds.map (fun x => List.replicate x.length 0xFF) := ⟨{}, rfl, rfl, rfl⟩
    generalize s.seedsGone = u at hex hgone
    obtain ⟨hclock, hslot, hsame, hseeds⟩ := hgone
    obtain ⟨hlife, hrec, hout, -, hkept, -⟩ :=
      (changeLife_changed hclock s.lifeCycle (new := 5) fun h => absurd h (by decide)).respond ep 0x13 tag 0 []
    rw [hslot] at hrec
    rw [hsame] at hout
    rw [hseeds] at hkept
    refine ⟨_, hex, hlife, hrec, hout, fun _ x hx b hb => ?_⟩
    rw [hkept] at hx
    obtain ⟨y, -, rfl⟩ := List.mem_map.1 hx
    exact List.eq_of_mem_replicate hb
  · rw [if_neg htarget] at hex
    obtain ⟨hlife, hrec, hout, -⟩ := (changeLife_changed (s := s) (u := s) {} s.lifeCycle (new := target)
      fun h => ownerMay_diagnostic (h ▸ hmay)).respond ep 0x13 tag 0 []
    exact ⟨_, hex, hlife, hrec, hout, fun h => absurd h htarget⟩

/-! ### Tickets (19 R548) -/

/-- A ticket has been used: no nonce stands for another. -/
def State.nonceUsed (s : State) : State := { s with mgmt := { s.mgmt with nonce := none } }

theorem exec_lcRequest_ticket {ep tag target : Nat} {session : Option Nat} {ticket : List Nat} (hport : s.portServes = true) (hne : ticket ≠ []) :
    exec (.lcRequest ep session tag target ticket) s = .next (ticketRequest s ep tag target ticket) := by
  change execLcRequest ep session tag target ticket s = _
  unfold execLcRequest
  rw [if_neg (by simp [hport])]
  exact if_pos (by simp [hne])

theorem ticketRequest_provisions {ep tag : Nat} {ticket hash : List Nat} (hticket : s.ticket ticket = .ok (1, hash))
    (hlife : s.lifeCycle = 0 ∨ s.lifeCycle = 4) (hroom : s.fuses.owners.length < 4) :
    ticketRequest s ep tag 1 ticket = respond (changeLife (s.nonceUsed.ownerBurnt hash) s.lifeCycle 1) ep 0x13 tag 0 [] := by
  unfold ticketRequest
  rw [hticket]
  exact (if_pos ⟨rfl, rfl, hlife⟩).trans (if_neg (Nat.not_le.2 hroom))

theorem lcRequest_provisions {ep tag : Nat} {session : Option Nat} {ticket hash : List Nat} (hport : s.portServes = true) (hne : ticket ≠ [])
    (hticket : s.ticket ticket = .ok (1, hash)) (hlife : s.lifeCycle = 0 ∨ s.lifeCycle = 4) (hroom : s.fuses.owners.length < 4) :
    ∃ t, exec (.lcRequest ep session tag 1 ticket) s = .next t ∧ t.lifeCycle = 1 ∧ t.fuses.owners = s.fuses.owners ++ [hash] ∧
      t.mgmt.nonce = none ∧ s.Records t (s.record 0x0103 0 s.lifeCycle 1 s.fuses.owners.length) ∧
      t.out = s.out ++ [.vdm ep 0x93 tag 0 []] := by
  have hex := (exec_lcRequest_ticket (session := session) hport hne).trans (congrArg Host.Outcome.next (ticketRequest_provisions (ep := ep) (tag := tag) hticket hlife hroom))
  have hburnt : s.SameClock (s.nonceUsed.ownerBurnt hash) ∧ (s.nonceUsed.ownerBurnt hash).fuses.owners = s.fuses.owners ++ [hash] ∧
      (s.nonceUsed.ownerBurnt hash).out = s.out ∧ (s.nonceUsed.ownerBurnt hash).mgmt.nonce = none := ⟨{}, rfl, rfl, rfl⟩
  generalize s.nonceUsed.ownerBurnt hash = u at hex hburnt
  obtain ⟨hclock, howners, hsame, hnonce⟩ := hburnt
  obtain ⟨hnew, hrec, hout, hkept, -, hused⟩ :=
    (changeLife_changed hclock s.lifeCycle (new := 1) fun h => absurd h (by decide)).respond ep 0x13 tag 0 []
  have hslot : u.fuses.slot = s.fuses.owners.length := by simp [Fuses.slot, howners]
  rw [hslot] at hrec
  exact ⟨_, hex, hnew, hkept.trans howners, hused.trans hnonce, hrec, hout.trans (by rw [hsame])⟩

theorem ticketRequest_error {ep tag target cause : Nat} {ticket : List Nat} (hticket : s.ticket ticket = .error cause) :
    ticketRequest s ep tag target ticket =
      respond (recordEvent (authFailed s 0x7F 0x13 0) 0x0106 0 (leAt ticket 4 1) cause 0) ep 0x13 tag stNotAuthorised [] := by
  unfold ticketRequest
  simp only [hticket]

theorem lcRequest_badTicket {ep tag target cause : Nat} {session : Option Nat} {ticket : List Nat} (hport : s.portServes = true) (hne : ticket ≠ [])
    (hticket : s.ticket ticket = .error cause) :
    ∃ t, exec (.lcRequest ep session tag target ticket) s = .next t ∧ t.fuses = s.fuses ∧ s.Counted t Reg.SEC_AUTH_FAILS 1 ∧
      s.Shows t (s.record 0x0102 0 0x7F 0x13 0) ∧ t.out = s.out ++ [.vdm ep 0x93 tag stNotAuthorised []] := by
  have hex := (exec_lcRequest_ticket (session := session) hport hne).trans
    (congrArg Host.Outcome.next (ticketRequest_error (ep := ep) (tag := tag) (target := target) hticket))
  obtain ⟨hcount, hrec⟩ := authFailed_shown (t := s) (s := s) {} rfl 0x7F 0x13 0
  have hframe := (authFailed_frame s 0x7F 0x13 0).2
  generalize authFailed s 0x7F 0x13 0 = u at hex hcount hrec hframe
  have hnoted := hcount.afterEvent (by decide) 0x0106 0 (leAt ticket 4 1) cause 0
  have hshown : s.Shows (recordEvent u 0x0106 0 (leAt ticket 4 1) cause 0) (s.record 0x0102 0 0x7F 0x13 0) :=
    fun hroom => recordEvent_staging (hrec.shows hroom) ..
  obtain ⟨hregs, hevt, hfuses, -, hout⟩ := respond_shown (recordEvent u 0x0106 0 (leAt ticket 4 1) cause 0) ep 0x13 tag stNotAuthorised []
  refine ⟨_, hex, ?_, hnoted.congr hregs, hshown.congr hevt, ?_⟩
  · rw [hfuses, recordEvent_fuses, hframe]
  · rw [hout, recordEvent_out, hframe]

end

end Sys2Proof.Machine

namespace Sys2Proof.Machine

/-! ## SPDM (19 R543, R549, R550) -/

section
variable {s : State} {key : List Nat}

/-- The content that the standard gives behind an answer. -/
theorem spdmAnswer_shown (s : State) (ep code : Nat) (body : List Nat) :
    ∃ rest, (spdmAnswer s ep code body).out = s.out ++ [.spdm ep code (body ++ rest)] ∧ (spdmAnswer s ep code body).mgmt = s.mgmt ∧
      (spdmAnswer s ep code body).evt = s.evt ∧ (spdmAnswer s ep code body).fuses = s.fuses := ⟨_, rfl, rfl, rfl, rfl⟩

/-- The identity key is there. -/
theorem withIdentity_some (hkey : s.identity = some key) (ep : Nat) (f : State → State) : withIdentity s ep f = f s := by
  have hlife : s.fuses.lifeCycle ≠ 0 := by
    intro h
    simp [State.identity, h] at hkey
  rw [withIdentity, if_neg hlife, hkey]
  rfl

theorem exec_keyExchange (hport : s.portAnswers = true) (hkey : s.identity = some key) (ep reqId : Nat) (x : List Nat) :
    exec (.spdmRequest ep (.keyExchange reqId x)) s = .next (openHandshake s ep) := by
  change execSpdmRequest ep (.keyExchange reqId x) s = _
  unfold execSpdmRequest
  rw [if_neg (by simp [hport])]
  exact congrArg Host.Outcome.next (withIdentity_some hkey ep _)

/-- One session more, in its handshake. -/
def State.sessionBegun (s : State) (ep : Nat) : State := { s with mgmt := { s.mgmt with
  sessions := s.mgmt.sessions ++ [⟨s.mgmt.nextId, ep, false, none, 0⟩]
  nextId := s.mgmt.nextId + 1 } }

theorem keyExchange_begins (hport : s.portAnswers = true) (hkey : s.identity = some key) (hroom : s.mgmt.sessions.length < 4)
    (ep reqId : Nat) (x : List Nat) : ∃ t body, exec (.spdmRequest ep (.keyExchange reqId x)) s = .next t ∧
      t.mgmt.sessions = s.mgmt.sessions ++ [⟨s.mgmt.nextId, ep, false, none, 0⟩] ∧ t.mgmt.nextId = s.mgmt.nextId + 1 ∧
      t.out = s.out ++ [.spdm ep 0x64 body] := by
  have hopen : openHandshake s ep = spdmAnswer (s.sessionBegun ep) ep 0x64 (leBytes 4 s.mgmt.nextId) := if_neg (Nat.not_le.2 hroom)
  have hex := (exec_keyExchange hport hkey ep reqId x).trans (congrArg Host.Outcome.next hopen)
  obtain ⟨rest, hout, hmgmt, -⟩ := spdmAnswer_shown (s.sessionBegun ep) ep 0x64 (leBytes 4 s.mgmt.nextId)
  exact ⟨_, _, hex, by rw [hmgmt]; rfl, by rw [hmgmt]; rfl, hout⟩

theorem keyExchange_busy (hport : s.portAnswers = true) (hkey : s.identity = some key) (hfull : 4 ≤ s.mgmt.sessions.length)
    (ep reqId : Nat) (x : List Nat) : exec (.spdmRequest ep (.keyExchange reqId x)) s = .next (s.emit (.spdm ep 0x7F [errBusy])) :=
  (exec_keyExchange hport hkey ep reqId x).trans (congrArg Host.Outcome.next (if_pos hfull))

/-- A session opens with the key that its requester proved. -/
def State.sessionOpened (s : State) (x : SpdmSession) (i period : Nat) (key : List Nat) : State :=
  { s with mgmt := { s.mgmt with sessions := s.mgmt.sessions.map (fun z =>
    if z.id = i then { x with isOpen := true, key := some key, period := period } else z) } }

theorem State.sessionOpened_frame (s : State) (x : SpdmSession) (i period : Nat) (key : List Nat) :
    s.SameClock (s.sessionOpened x i period key) ∧ (s.sessionOpened x i period key).fuses = s.fuses := ⟨{}, rfl⟩

theorem State.ownerKey_congr {t : State} (h : t.fuses = s.fuses) (k : Option (List Nat)) : t.ownerKey k = s.ownerKey k := by
  unfold State.ownerKey
  rw [h]

/-- The session that has opened gives owner authorisation. -/
theorem State.sessionOpened_owner {x : SpdmSession} {ep i : Nat} (period : Nat)
    (hfind : s.mgmt.sessions.find? (fun y => decide (y.id = i) && decide (y.ep = ep) && !y.isOpen) = some x) (howner : s.ownerKey (some key) = true) :
    (s.sessionOpened x i period key).ownerSession ep (some i) = true := by
  have hx := List.find?_some hfind
  simp only [Bool.and_eq_true, decide_eq_true_eq] at hx
  obtain ⟨⟨hid, hep⟩, -⟩ := hx
  refine List.any_eq_true.2 ⟨{ x with isOpen := true, key := some key, period := period }, ?_, ?_⟩
  · exact List.mem_map.2 ⟨x, List.mem_of_find?_eq_some hfind, if_pos hid⟩
  · rw [State.ownerKey_congr (s.sessionOpened_frame x i period key).2, howner]
    simp [hid, hep]

theorem finishHandshake_opens {x : SpdmSession} {ep i : Nat} (period : Nat)
    (hfind : s.mgmt.sessions.find? (fun y => decide (y.id = i) && decide (y.ep = ep) && !y.isOpen) = some x)
    (hsent : SMap.get? s.mgmt.ownerKeys ep = some key) : finishHandshake s ep i (some key) true period =
      spdmAnswer (recordEvent (s.sessionOpened x i period key) 0x0101 0 i (if (s.sessionOpened x i period key).ownerKey (some key) then 1 else 0)
        (leAt (keyHash key) 0 4)) ep 0x65 [] := by
  unfold finishHandshake
  rw [hfind]
  dsimp only
  rw [if_neg (by decide), if_pos hsent]
  rfl

theorem finish_opens {x : SpdmSession} {ep i : Nat} (period : Nat) (hport : s.portAnswers = true)
    (hfind : s.mgmt.sessions.find? (fun y => decide (y.id = i) && decide (y.ep = ep) && !y.isOpen) = some x)
    (hsent : SMap.get? s.mgmt.ownerKeys ep = some key) (howner : s.ownerKey (some key) = true) :
    ∃ t, exec (.spdmRequest ep (.finish i (some key) true period)) s = .next t ∧ t.ownerSession ep (some i) = true ∧
      s.Records t (s.record 0x0101 0 i 1 (leAt (keyHash key) 0 4)) := by
  have hex : exec (.spdmRequest ep (.finish i (some key) true period)) s = .next (finishHandshake s ep i (some key) true period) := by
    change execSpdmRequest ep (.finish i (some key) true period) s = _
    unfold execSpdmRequest
    exact if_neg (by simp [hport])
  obtain ⟨hclock, hfuses⟩ := s.sessionOpened_frame x i period key
  have hopened := s.sessionOpened_owner period hfind howner
  rw [finishHandshake_opens period hfind hsent, State.ownerKey_congr hfuses, if_pos howner] at hex
  generalize s.sessionOpened x i period key = u at hex hclock hfuses hopened
  obtain ⟨rest, -, hmgmt, hevt, hkept⟩ := spdmAnswer_shown (recordEvent u 0x0101 0 i 1 (leAt (keyHash key) 0 4)) ep 0x65 []
  refine ⟨_, hex, ?_, fun hroom => ?_⟩
  · unfold State.ownerSession State.ownerKey at *
    rw [hmgmt, hkept, recordEvent_mgmt, recordEvent_fuses]
    exact hopened
  · rw [hevt]
    exact hclock.records _ _ _ _ _ hroom

/-! ### Sessions that end -/

theorem endSpdm_gone (s : State) (i : Nat) : (∀ y ∈ (endSpdm s i).mgmt.sessions, y.id ≠ i) ∧ (endSpdm s i).regs = s.regs :=
  ⟨fun y hy => by simpa using (List.mem_filter.1 hy).2, rfl⟩

theorem exec_heartbeat {ep i : Nat} (hport : s.portAnswers = true) (hopen : s.openSession ep i = true) :
    exec (.spdmRequest ep (.heartbeat i)) s = .next (s.emit (.spdm ep 0x68 [])) := by
  change execSpdmRequest ep (.heartbeat i) s = _
  unfold execSpdmRequest
  rw [if_neg (by simp [hport])]
  exact congrArg Host.Outcome.next (if_pos hopen)

theorem exec_endSession {ep i : Nat} (hport : s.portAnswers = true) (hopen : s.openSession ep i = true) :
    exec (.spdmRequest ep (.endSession i)) s = .next ((endSpdm s i).emit (.spdm ep 0x6C [])) := by
  change execSpdmRequest ep (.endSession i) s = _
  unfold execSpdmRequest
  rw [if_neg (by simp [hport])]
  exact congrArg Host.Outcome.next (if_pos hopen)

theorem heartbeatTimeout_ends {i : Nat} (hopen : s.mgmt.sessions.any (fun x => decide (x.id = i) && x.isOpen && decide (x.period ≠ 0)) = true) :
    ∃ t, exec (.spdmHeartbeatTimeout i) s = .next t ∧ (∀ y ∈ t.mgmt.sessions, y.id ≠ i) ∧ t.regs = s.regs :=
  ⟨endSpdm s i, if_pos hopen, endSpdm_gone s i⟩

/-! ### Measurements -/

theorem exec_getMeasurements {ep index : Nat} (nonce : List Nat) (hport : s.portAnswers = true) (hlow : 1 ≤ index) (hhigh : index ≤ 8) :
    exec (.getMeasurements ep none index nonce) s =
      if nonce.isEmpty then .next (s.emit (.spdm ep 0x60 (index :: s.measurement index)))
      else .next (withIdentity s ep (fun s' => { s' with free := s'.free + 1 }.emit (.spdm ep 0x60 (index :: s.measurement index ++
        Config.identitySign (s'.fuses.seed.getD []) (index :: s.measurement index ++ nonce) s'.free)))) := by
  change execGetMeasurements ep none index nonce s = _
  unfold execGetMeasurements
  extract_lets inSession blocks
  have hblocks : blocks = index :: s.measurement index := by
    have hblock : (if index = 255 then (List.range 8).map (· + 1) else [index]) = [index] := if_neg (by omega)
    change (if index = 0 then [8] else (if index = 255 then (List.range 8).map (· + 1) else [index]).flatMap (fun i => i :: s.measurement i)) = _
    rw [if_neg (by omega), hblock, List.flatMap_singleton]
  clear_value blocks
  rw [if_neg (by simp [hport]), if_neg (by simp [inSession]; omega), hblocks]

theorem getMeasurements_plain {ep index : Nat} (hport : s.portAnswers = true) (hlow : 1 ≤ index) (hhigh : index ≤ 8) :
    exec (.getMeasurements ep none index []) s = .next (s.emit (.spdm ep 0x60 (index :: s.measurement index))) :=
  (exec_getMeasurements [] hport hlow hhigh).trans (if_pos rfl)

theorem getMeasurements_signed {ep index : Nat} {nonce : List Nat} (hport : s.portAnswers = true) (hkey : s.identity = some key) (hlow : 1 ≤ index)
    (hhigh : index ≤ 8) (hnonce : nonce ≠ []) : ∃ t sig, exec (.getMeasurements ep none index nonce) s = .next t ∧ t.regs = s.regs ∧
      t.out = s.out ++ [.spdm ep 0x60 (index :: s.measurement index ++ sig)] := by
  have hex := (exec_getMeasurements (ep := ep) nonce hport hlow hhigh).trans (if_neg (by simp [hnonce]))
  rw [withIdentity_some hkey] at hex
  exact ⟨_, _, hex, rfl, rfl⟩

/-! ## PLDM, MCTP and the bus (19 R534, R537) -/

theorem exec_pldmRequest {ep k n : Nat} (hport : s.portServes = true) :
    (s.sensor k = some n → exec (.pldmRequest ep (.readSensor k)) s = .next (s.emit (.pldm ep (0 :: leBytes 4 n)))) ∧
      (s.stateSensor k = some n → exec (.pldmRequest ep (.readState k)) s = .next (s.emit (.pldm ep (0 :: leBytes 4 n)))) := by
  have hserved : ¬(!s.portServes) = true := by simp [hport]
  refine ⟨fun h => ?_, fun h => ?_⟩
  · change execPldmRequest ep (.readSensor k) s = _
    unfold execPldmRequest
    rw [if_neg hserved]
    dsimp only
    rw [h]
    rfl
  · change execPldmRequest ep (.readState k) s = _
    unfold execPldmRequest
    rw [if_neg hserved]
    dsimp only
    rw [h]
    rfl

theorem exec_setEndpointId {ep eid : Nat} (hport : s.portServes = true) (hlow : 8 ≤ eid) (hhigh : eid < 255) :
    exec (.mctpControl ep (.setEndpointId eid)) s = .next ({ s with mgmt := { s.mgmt with eid := eid } }.emit (.mctp ep [0, eid])) := by
  change execMctpControl ep (.setEndpointId eid) s = _
  unfold execMctpControl
  rw [if_neg (by simp [hport])]
  exact if_pos ⟨hlow, hhigh⟩

theorem exec_getEndpointId {ep : Nat} (hport : s.portServes = true) :
    exec (.mctpControl ep .getEndpointId) s = .next (s.emit (.mctp ep [0, s.mgmt.eid])) := by
  change execMctpControl ep .getEndpointId s = _
  unfold execMctpControl
  exact if_neg (by simp [hport])

theorem exec_dynamicAddress (hport : s.portAnswers = true) (hnone : s.mgmt.dynAddr = none) (d : Nat) :
    exec (.entdaaOrSetdasa (.entdaa d)) s = .next { s with mgmt := { s.mgmt with dynAddr := some (d % 128) } } ∧
      exec (.entdaaOrSetdasa (.setdasa 0x3A d)) s = .next { s with mgmt := { s.mgmt with dynAddr := some (d % 128) } } := by
  have hanswers : ¬(!s.portAnswers) = true := by simp [hport]
  have hset : s.mgmt.dynAddr.isNone = true := by rw [hnone]; rfl
  refine ⟨?_, ?_⟩
  · change execEntdaaOrSetdasa (.entdaa d) s = _
    unfold execEntdaaOrSetdasa
    exact (if_neg hanswers).trans (congrArg Host.Outcome.next (if_pos hset))
  · change execEntdaaOrSetdasa (.setdasa 0x3A d) s = _
    unfold execEntdaaOrSetdasa
    exact (if_neg hanswers).trans (congrArg Host.Outcome.next ((if_pos rfl).trans (if_pos hset)))

end

end Sys2Proof.Machine

namespace Sys2Proof.Machine

/-! ## What a dropped round leaves -/

section
variable (s : State)

/-- The registers of the module that neither an event nor the drop of steps touches. -/
def DropFreeReg (a : Nat) : Prop := QuietReg a ∧ a ≠ Reg.ADM_STEPS_DROPPED ∧ a ≠ Reg.ADM_LATE_DROPPED

theorem DropFreeReg.not_event : ∀ a ∈ eventRegs, ¬DropFreeReg a := fun _ ha h => h.1.2 ha

theorem DropFreeReg.not_tile (ti off : Nat) : ¬DropFreeReg (tileReg ti off) := fun h => ModuleReg.not_tile ti off h.1.1

theorem State.requestEnded_round (x : Session) (q : Request) (status : Nat) : s.Fixes DropFreeReg (s.requestEnded x q status) := by
  have hevt : (s.requestEnded x q status).evt = (recordEvent s 0x0602 0 x.id status (q.last % 2 ^ 32)).evt := by rw [s.requestEnded_frame]
  refine ⟨fun a ha => s.requestEnded_reg x q status ha.1.2 ha.2.2, fun e he => ?_⟩
  rw [hevt]
  exact recordEvent_staging he ..

theorem endRequest_round (sid status : Nat) : s.Fixes DropFreeReg (endRequest s sid status) := by
  cases hx : s.session? sid with
  | none =>
    unfold endRequest
    rw [hx]
    exact .refl _ s
  | some x =>
    cases hq : x.request with
    | none =>
      rw [endRequest_none hx hq]
      exact .refl _ s
    | some q =>
      rw [endRequest_some hx hq]
      exact (s.requestEnded_round x q status).upd

theorem noteDrop_round (sid cause round : Nat) : s.Fixes DropFreeReg (noteDrop s sid cause round) :=
  ((State.Fixes.refl _ s).count fun h => h.2.1 rfl).recordEvent DropFreeReg.not_event ..

theorem dropBatch_round (b : Batch) (cause : Nat) : s.Fixes DropFreeReg (dropBatch s b cause) := by
  unfold dropBatch
  refine (State.Fixes.refl _ s).upd.foldl fun x m _ => .ite ?_ (noteDrop_round x ..)
  have hstep (t : State) : t.Fixes DropFreeReg (t.setStep m.session m.reqId m.step .waiting) := by
    rw [t.setStep_frame]
    exact (State.Fixes.refl _ t).upd
  have hwait := (noteDrop_round x m.session cause x.round).trans (hstep _)
  exact .ite (hwait.trans (endRequest_round ..)) (.ite (hwait.trans (endRequest_round ..)) hwait)

theorem abandonTile_round (ti : Nat) : s.Fixes DropFreeReg (abandonTile s ti) := by
  unfold abandonTile clearHeld
  exact ((State.Fixes.refl _ s).upd.setFld (DropFreeReg.not_tile _ _)).setReg (DropFreeReg.not_tile _ _)

theorem dropRound_round : s.Fixes DropFreeReg (dropRound s) :=
  ((State.Fixes.refl _ s).foldl fun x b _ => dropBatch_round x b _).foldl fun x ti _ => abandonTile_round x ti

end

/-! ## The two controllers (19 R538-R541) -/

section
variable {s : State} {h : Half}

theorem State.activeHalf_of_reg {t : State} (k : t.reg Reg.MGT_CTRL_STATUS = s.reg Reg.MGT_CTRL_STATUS) : t.activeHalf = s.activeHalf := by
  unfold State.activeHalf State.fld
  rw [k]

theorem State.held_of_reg {t : State} (k : t.reg Reg.MGT_CTRL_STATUS = s.reg Reg.MGT_CTRL_STATUS) (h : Half) : t.held h = s.held h := by
  unfold State.held State.fld
  rw [k]

theorem activeHalf_of_fld (k : s.fld Reg.MGT_CTRL_STATUS 0 0 = halfNo h) : s.activeHalf = h := by
  unfold State.activeHalf
  rw [k]
  cases h with
  | west => rfl
  | east => rfl

theorem wdBit_bounds (h : Half) : 0 < wdBit h ∧ wdBit h < 30 := by
  cases h with
  | west => decide
  | east => decide

/-- The watchdog holds a controller. -/
def State.watchdogHeld (s : State) (h : Half) : State := s.setFld Reg.MGT_CTRL_STATUS (wdBit h) (wdBit h) 1

theorem State.watchdogHeld_regsOnly (s : State) (h : Half) : s.RegsOnly (s.watchdogHeld h) [Reg.MGT_CTRL_STATUS] := s.setFld_regsOnly ..

theorem State.watchdogHeld_held (s : State) (h : Half) : (s.watchdogHeld h).held h = true := by
  have hb := (wdBit_bounds h).2
  have hfld := s.fld_setFld_same Reg.MGT_CTRL_STATUS (hi := wdBit h) (lo := wdBit h) 1 le_rfl (by omega)
  rw [show wdBit h + 1 - wdBit h = 1 by omega] at hfld
  exact decide_eq_true hfld

/-- A field of another bit of MGT_CTRL_STATUS leaves a controller held. -/
theorem State.held_setFld (s : State) (h : Half) {hi lo v : Nat} (hle : lo ≤ hi) (hlt : hi < 32) (hne : wdBit h < lo ∨ hi < wdBit h) :
    (s.setFld Reg.MGT_CTRL_STATUS hi lo v).held h = s.held h := by
  unfold State.held
  rw [s.fld_setFld_disjoint Reg.MGT_CTRL_STATUS v hle hlt hne]

theorem exec_watchdogExpiry (haux : s.pwr.auxOn = true) (hheld : s.held h = false) (logValid : Nat) : exec (.watchdogExpiry h logValid) s =
    if h ≠ s.activeHalf then .next (recordEvent ((s.watchdogHeld h).setFld Reg.MGT_CTRL_STATUS 31 31 0) 0x0002 0 (halfNo h) 0 0)
    else if s.fenced (otherHalf h) then .next (serveNothing (s.watchdogHeld h))
    else if decide (s.fld Reg.MGT_CTRL_STATUS 31 31 = 1) && !s.mgmt.takenOver then
      .next (if decide (s.msState = msStarting) then restartStart (takeOver (s.watchdogHeld h) h logValid) else takeOver (s.watchdogHeld h) h logValid)
    else .next (shedSilent (s.watchdogHeld h)) := by
  change execWatchdogExpiry h logValid s = _
  unfold execWatchdogExpiry
  exact if_neg (by simp [haux, hheld])

/-- The standby's watchdog: it is held, and no longer ready. -/
theorem watchdogExpiry_standby (haux : s.pwr.auxOn = true) (hheld : s.held h = false) (hstandby : h ≠ s.activeHalf) (logValid : Nat) :
    ∃ t, exec (.watchdogExpiry h logValid) s = .next t ∧ t.held h = true ∧ t.fld Reg.MGT_CTRL_STATUS 31 31 = 0 ∧
      s.Records t (s.record 0x0002 0 (halfNo h) 0 0) ∧ s.RegsAndEvents t [Reg.MGT_CTRL_STATUS] := by
  have hex := (exec_watchdogExpiry haux hheld logValid).trans (if_pos hstandby)
  have hset : s.RegsOnly ((s.watchdogHeld h).setFld Reg.MGT_CTRL_STATUS 31 31 0) [Reg.MGT_CTRL_STATUS] :=
    (s.watchdogHeld_regsOnly h).trans (State.setFld_regsOnly ..)
  have hready : ((s.watchdogHeld h).setFld Reg.MGT_CTRL_STATUS 31 31 0).fld Reg.MGT_CTRL_STATUS 31 31 = 0 :=
    ((s.watchdogHeld h).fld_setFld_same _ _ le_rfl (by decide)).trans rfl
  have hkept : ((s.watchdogHeld h).setFld Reg.MGT_CTRL_STATUS 31 31 0).held h = true := by
    have hb := (wdBit_bounds h).2
    rw [State.held_setFld _ h le_rfl (by decide) (by omega), s.watchdogHeld_held]
  generalize (s.watchdogHeld h).setFld Reg.MGT_CTRL_STATUS 31 31 0 = u at hex hset hready hkept
  refine ⟨_, hex, ?_, ?_, (State.SameClock.of_regsOnly hset).records _ _ _ _ _, hset.events.trans (recordEvent_frame ..)⟩
  · rw [State.held_of_reg (recordEvent_reg u _ _ _ _ _ (by decide)), hkept]
  · rw [recordEvent_fld _ _ _ _ _ _ _ _ (by decide), hready]

/-! ### The takeover -/

/-- What the scan of LOG and the check of the image leave. -/
structure State.ScanKept (s t : State) : Prop where
  regs : s.RegsFrame t (Reg.CFG_LAST_ERR :: eventRegs)
  mgmt : t.mgmt = s.mgmt
  card : t.card = s.card

namespace State.ScanKept
variable {t u : State}

theorem refl (s : State) : s.ScanKept s := ⟨State.RegsFrame.refl s _, rfl, rfl⟩

theorem trans (k : s.ScanKept t) (l : t.ScanKept u) : s.ScanKept u :=
  ⟨k.regs.trans l.regs, l.mgmt.trans k.mgmt, l.card.trans k.card⟩

end State.ScanKept

theorem recordEvent_scanKept (s : State) (code source p0 p1 p2 : Nat) : s.ScanKept (recordEvent s code source p0 p1 p2) :=
  ⟨fun _ ha => recordEvent_reg _ _ _ _ _ _ fun h => ha (List.mem_cons_of_mem _ h), recordEvent_mgmt .., recordEvent_card ..⟩

theorem restage_scanKept (s : State) (l : List EventRec) : s.ScanKept (restage s l) := ⟨fun _ _ => rfl, rfl, rfl⟩

theorem noteTakeover_scanKept (s : State) (x : Option (Nat × Nat)) : s.ScanKept (noteTakeover s x) := by
  unfold noteTakeover
  split
  · exact .refl s
  · exact recordEvent_scanKept ..

/-- The log as a scan finds it. -/
def State.withEvt (s : State) (r : Recorder) : State := { s with evt := r }

theorem State.withEvt_scanKept (s : State) (r : Recorder) : s.ScanKept (s.withEvt r) := ⟨fun _ _ => rfl, rfl, rfl⟩

theorem scanLog_scanKept (s : State) (n : Nat) (x : Option (Nat × Nat)) : s.ScanKept (scanLog s n x) := by
  unfold scanLog
  extract_lets m log staged mark cleared
  split
  · exact (((s.withEvt_scanKept _).trans (recordEvent_scanKept ..)).trans (noteTakeover_scanKept ..)).trans (restage_scanKept ..)
  · exact (((s.withEvt_scanKept _).trans (noteTakeover_scanKept ..)).trans (restage_scanKept ..)).trans (recordEvent_scanKept ..)

theorem noteImage_scanKept (s : State) (found : Except Bad Container) : s.ScanKept (noteImage s found) := by
  unfold noteImage
  split
  · split
    · exact .refl s
    · exact recordEvent_scanKept ..
  next b =>
    have hbad : s.ScanKept (noteBad s b) := by
      have hset : s.RegsOnly (noteBad s b) [Reg.CFG_LAST_ERR] := s.setReg_regsOnly (List.mem_singleton_self _)
      exact ⟨hset.1.mono (by simp), by rw [hset.2], by rw [hset.2]⟩
    exact hbad.trans (recordEvent_scanKept ..)

/-- The controller of a half is the active one, and none stands by. -/
def State.ctrlTaken (s : State) (h : Half) : State := (s.setFld Reg.MGT_CTRL_STATUS 0 0 (halfNo h)).setFld Reg.MGT_CTRL_STATUS 31 31 0

/-- No record waits for the log. -/
def State.stagingGone (s : State) : State := { s with evt := { s.evt with staging := [] } }

theorem State.stagingGone_regs (s : State) : s.stagingGone.regs = s.regs := rfl

/-- The controllers, the staging buffer and the lease when the lease changes hands. -/
def State.leaseTaken (s : State) (h : Half) : State := (s.ctrlTaken h).stagingGone.setFld Reg.HLK_STATUS 30 30 (halfNo h)

/-- No secured session is left, and the standby has taken over. -/
def State.standbyActive (s : State) : State := { s with mgmt := { s.mgmt with sessions := [], takenOver := true } }

theorem State.standbyActive_shown (s : State) : s.standbyActive.mgmt.sessions = [] ∧ s.standbyActive.regs = s.regs ∧ s.standbyActive.card = s.card :=
  ⟨rfl, rfl, rfl⟩

/-- The takeover up to the scan of LOG (19 Table 19.4 steps 2 to 4). -/
def State.takeoverBegun (s : State) (h : Half) : State := (cardAbort (s.leaseTaken h)).standbyActive

theorem takeOver_eq (s : State) (failed : Half) (logValid : Nat) : takeOver s failed logValid =
    if s.fld Reg.MGT_CTRL_STATUS 30 30 = 1 then
      scanLog (s.takeoverBegun (otherHalf failed)) logValid (some (halfNo failed, s.fld Reg.MGT_CTRL_STATUS 30 30))
    else noteImage (scanLog (s.takeoverBegun (otherHalf failed)) logValid (some (halfNo failed, s.fld Reg.MGT_CTRL_STATUS 30 30)))
      ((scanLog (s.takeoverBegun (otherHalf failed)) logValid (some (halfNo failed, s.fld Reg.MGT_CTRL_STATUS 30 30))).checkCard
        (cfgBase ((scanLog (s.takeoverBegun (otherHalf failed)) logValid (some (halfNo failed, s.fld Reg.MGT_CTRL_STATUS 30 30))).fld
          Reg.CFG_STATUS 0 0)) cardCfgSize false none) := rfl

theorem takeOver_scanKept (s : State) (failed : Half) (logValid : Nat) :
    (s.takeoverBegun (otherHalf failed)).ScanKept (takeOver s failed logValid) := by
  have hscan := scanLog_scanKept (s.takeoverBegun (otherHalf failed)) logValid (some (halfNo failed, s.fld Reg.MGT_CTRL_STATUS 30 30))
  rw [takeOver_eq]
  generalize scanLog (s.takeoverBegun (otherHalf failed)) logValid (some (halfNo failed, s.fld Reg.MGT_CTRL_STATUS 30 30)) = t at hscan
  split
  · exact hscan
  · exact hscan.trans (noteImage_scanKept ..)

theorem State.leaseTaken_shown (s : State) (h : Half) : s.RegsFrame (s.leaseTaken h) [Reg.MGT_CTRL_STATUS, Reg.HLK_STATUS] ∧
    (s.leaseTaken h).activeHalf = h ∧ (s.leaseTaken h).held (otherHalf h) = s.held (otherHalf h) ∧
      (s.leaseTaken h).fld Reg.HLK_STATUS 30 30 = halfNo h := by
  have hno : halfNo h < 2 := by cases h <;> decide
  have hset : s.RegsOnly (s.ctrlTaken h) [Reg.MGT_CTRL_STATUS] := (s.setFld_regsOnly ..).trans (State.setFld_regsOnly ..)
  have hactive : (s.ctrlTaken h).activeHalf = h := by
    refine activeHalf_of_fld ?_
    rw [State.ctrlTaken, State.fld_setFld_disjoint _ _ _ le_rfl (by decide) (by decide), State.fld_setFld_same _ _ _ le_rfl (by decide)]
    exact Nat.mod_eq_of_lt hno
  have hheld : (s.ctrlTaken h).held (otherHalf h) = s.held (otherHalf h) := by
    have hb := wdBit_bounds (otherHalf h)
    rw [State.ctrlTaken, State.held_setFld _ _ le_rfl (by decide) (by omega), State.held_setFld _ _ le_rfl (by decide) (by omega)]
  have hgone := (s.ctrlTaken h).stagingGone_regs
  unfold State.leaseTaken
  generalize s.ctrlTaken h = u at hset hactive hheld hgone
  generalize u.stagingGone = x at hgone
  have hreg : (x.setFld Reg.HLK_STATUS 30 30 (halfNo h)).reg Reg.MGT_CTRL_STATUS = u.reg Reg.MGT_CTRL_STATUS :=
    (State.reg_setFld_ne _ _ _ _ (by decide)).trans (State.reg_congr hgone _)
  refine ⟨fun a ha => ?_, (State.activeHalf_of_reg hreg).trans hactive, (State.held_of_reg hreg _).trans hheld,
    (State.fld_setFld_same _ _ _ le_rfl (by decide)).trans (Nat.mod_eq_of_lt hno)⟩
  rw [List.mem_cons, List.mem_singleton, not_or] at ha
  rw [State.reg_setFld_ne _ _ _ _ ha.2, State.reg_congr hgone, hset.1 a (by simpa using ha.1)]

theorem State.standbyActive_job (s : State) : (cardAbort s).standbyActive.card.job = none := by
  rw [(cardAbort s).standbyActive_shown.2.2, cardAbort]
  cases hjob : s.card.job with
  | none =>
    unfold cardFail
    rw [hjob]
    exact hjob
  | some j => rw [(cardFail_shown hjob 0x100 0).2.1]

theorem cardAbort_regsFrame (s : State) : s.RegsFrame (cardAbort s) ([Reg.CFG_CARD_CTRL] ++ eventRegs) := by
  cases hjob : s.card.job with
  | none =>
    unfold cardAbort cardFail
    rw [hjob]
    exact .refl s _
  | some j => exact (cardFail_shown hjob 0x100 0).2.2.2

/-- The standby that takes over: it is active and holds the lease, with no secured session, no card write and the power as it was. -/
structure State.TakenOver (s t : State) (failed : Half) : Prop where
  active : t.activeHalf = otherHalf failed
  held : t.held failed = s.held failed
  lease : t.fld Reg.HLK_STATUS 30 30 = halfNo (otherHalf failed)
  sessions : t.mgmt.sessions = []
  job : t.card.job = none
  power : t.psState = s.psState

theorem otherHalf_otherHalf (h : Half) : otherHalf (otherHalf h) = h := by
  cases h with
  | west => rfl
  | east => rfl

theorem takeOver_shown (s : State) (failed : Half) (logValid : Nat) : s.TakenOver (takeOver s failed logValid) failed := by
  obtain ⟨hframe, hactive, hheld, hlease⟩ := s.leaseTaken_shown (otherHalf failed)
  rw [otherHalf_otherHalf] at hheld
  have habort := cardAbort_regsFrame (s.leaseTaken (otherHalf failed))
  have hjob := (s.leaseTaken (otherHalf failed)).standbyActive_job
  have hscan := takeOver_scanKept s failed logValid
  rw [State.takeoverBegun] at hscan
  generalize s.leaseTaken (otherHalf failed) = u at *
  obtain ⟨hsessions, hregs, -⟩ := (cardAbort u).standbyActive_shown
  generalize (cardAbort u).standbyActive = x at *
  have hreg {a : Nat} (ha : a ∉ [Reg.CFG_LAST_ERR, Reg.CFG_CARD_CTRL] ++ eventRegs) : (takeOver s failed logValid).reg a = u.reg a := by
    rw [List.mem_append, not_or, List.mem_cons, List.mem_singleton, not_or] at ha
    obtain ⟨⟨herr, hctrl⟩, hevent⟩ := ha
    rw [hscan.regs a (by simp [herr, hevent]), State.reg_congr hregs, habort a (by simp [hctrl, hevent])]
  refine ⟨?_, ?_, ?_, ?_, ?_, ?_⟩
  · rw [State.activeHalf_of_reg (hreg (by decide)), hactive]
  · rw [State.held_of_reg (hreg (by decide)), hheld]
  · exact (congrArg (getBits · 30 30) (hreg (by decide))).trans hlease
  · rw [hscan.mgmt, hsessions]
  · rw [hscan.card, hjob]
  · exact psState_of_reg ((hreg (by decide)).trans (hframe _ (by decide)))

theorem watchdogExpiry_takesOver (haux : s.pwr.auxOn = true) (hheld : s.held s.activeHalf = false) (hfence : s.fenced (otherHalf s.activeHalf) = false)
    (hready : s.fld Reg.MGT_CTRL_STATUS 31 31 = 1) (hfirst : s.mgmt.takenOver = false) (hms : s.msState ≠ msStarting) (logValid : Nat) :
    ∃ t, exec (.watchdogExpiry s.activeHalf logValid) s = .next t ∧ t.activeHalf = otherHalf s.activeHalf ∧
      t.held s.activeHalf = true ∧ t.fld Reg.HLK_STATUS 30 30 = halfNo (otherHalf s.activeHalf) ∧ t.mgmt.sessions = [] ∧
      t.card.job = none ∧ t.psState = s.psState := by
  have hex := exec_watchdogExpiry haux hheld logValid
  rw [if_neg (not_not.2 rfl), if_neg (by simp [hfence]), if_pos (by simp [hready, hfirst]), if_neg (by simp [hms])] at hex
  have htaken := takeOver_shown (s.watchdogHeld s.activeHalf) s.activeHalf logValid
  refine ⟨_, hex, htaken.active, htaken.held.trans (s.watchdogHeld_held _), htaken.lease, htaken.sessions, htaken.job, htaken.power.trans ?_⟩
  exact psState_of_reg ((s.watchdogHeld_regsOnly _).1 _ (by decide))

/-! ### No controller left -/

/-- The port is silent, and no session is left. -/
def State.portSilent (s : State) : State := { s with mgmt := { s.mgmt with silent := true, sessions := [] } }
/-- Main power stays off. -/
def State.staysOff (s : State) : State := { s with pwr := { s.pwr with stayOff := true } }

theorem State.portSilent_shown (s : State) : s.portSilent.mgmt.silent = true ∧ s.portSilent.regs = s.regs ∧ s.portSilent.evt = s.evt ∧
    s.portSilent.pwr = s.pwr ∧ s.portSilent.portAnswers = false := ⟨rfl, rfl, rfl, rfl, Bool.and_false _⟩

theorem State.staysOff_shown (s : State) : s.staysOff.regs = s.regs ∧ s.staysOff.evt = s.evt ∧ s.staysOff.pwr.stayOff = true := ⟨rfl, rfl, rfl⟩

theorem State.stagingGone_staging (s : State) : s.stagingGone.evt.staging = [] := rfl

theorem State.staysOff_portSilent (s : State) : s.stagingGone.staysOff.portSilent = { s with
    evt := { s.evt with staging := [] }
    pwr := { s.pwr with stayOff := true }
    mgmt := { s.mgmt with silent := true, sessions := [] } } := rfl

theorem State.stagingGone_portSilent (s : State) : s.stagingGone.portSilent = { s with
    evt := { s.evt with staging := [] }
    mgmt := { s.mgmt with silent := true, sessions := [] } } := rfl

theorem shedSilent_eq (s : State) : shedSilent s = (afterOff (offState (wipeMain s) false)).stagingGone.staysOff.portSilent := by
  rw [State.staysOff_portSilent]
  rfl

theorem watchdogExpiry_sheds (haux : s.pwr.auxOn = true) (hheld : s.held s.activeHalf = false) (hfence : s.fenced (otherHalf s.activeHalf) = false)
    (hready : s.fld Reg.MGT_CTRL_STATUS 31 31 = 0) (logValid : Nat) :
    ∃ t, exec (.watchdogExpiry s.activeHalf logValid) s = .next t ∧ t.mgmt.silent = true ∧ t.psState = psAux ∧ t.evt.staging = [] ∧
      t.pwr.stayOff = true ∧ t.portAnswers = false := by
  have hex := exec_watchdogExpiry haux hheld logValid
  rw [if_neg (not_not.2 rfl), if_neg (by simp [hfence]), if_neg (by simp [hready]), shedSilent_eq, offState_false] at hex
  have hoff := (afterOff_wipeMain_off (s.watchdogHeld s.activeHalf)).1
  generalize afterOff ((wipeMain (s.watchdogHeld s.activeHalf)).setPs psAux) = u at hex hoff
  have hgone := u.stagingGone_regs
  have hstaging := u.stagingGone_staging
  generalize u.stagingGone = x at hex hgone hstaging
  obtain ⟨hregs, hevt, hstay⟩ := x.staysOff_shown
  generalize x.staysOff = y at hex hregs hevt hstay
  obtain ⟨hsilent, hsame, hlog, hpwr, hport⟩ := y.portSilent_shown
  refine ⟨_, hex, hsilent, (psState_of_reg ?_).trans hoff, by rw [hlog, hevt, hstaging], by rw [hpwr, hstay], hport⟩
  rw [State.reg_congr hsame, State.reg_congr hregs, State.reg_congr hgone]

/-- The lease is lost with the controller that held it. -/
def State.leaseGone (s : State) : State := { s with link := { s.link with leaseLost := true } }

theorem serveNothing_eq (s : State) :
    serveNothing s = (assertReplace ((dropRound s.leaseGone).setFld Reg.ADM_STATUS 2 0 0)).stagingGone.portSilent := by
  rw [State.stagingGone_portSilent]
  rfl

theorem assertReplace_shown (s : State) : s.RegsOnly (assertReplace s) [Reg.BST_REPLACE_STATUS, Reg.MGT_SIGNALS] ∧
    (assertReplace s).fld Reg.BST_REPLACE_STATUS 31 31 = 1 :=
  ⟨(s.setFld_regsOnly_mem List.mem_cons_self).trans (State.setFld_regsOnly_mem _ (by simp)),
    (State.fld_setReg_ne _ _ _ _ (by decide)).trans ((s.fld_setFld_same _ _ le_rfl (by decide)).trans rfl)⟩

theorem watchdogExpiry_servesNothing (haux : s.pwr.auxOn = true) (hheld : s.held s.activeHalf = false)
    (hfence : s.fenced (otherHalf s.activeHalf) = true) (logValid : Nat) :
    ∃ t, exec (.watchdogExpiry s.activeHalf logValid) s = .next t ∧ t.mgmt.silent = true ∧ t.fld Reg.ADM_STATUS 2 0 = 0 ∧
      t.fld Reg.BST_REPLACE_STATUS 31 31 = 1 ∧ t.psState = s.psState := by
  have hex := exec_watchdogExpiry haux hheld logValid
  rw [if_neg (not_not.2 rfl), if_pos hfence, serveNothing_eq] at hex
  have hheld' := (s.watchdogHeld_regsOnly s.activeHalf).1
  have hgone : (s.watchdogHeld s.activeHalf).leaseGone.regs = (s.watchdogHeld s.activeHalf).regs := rfl
  generalize s.watchdogHeld s.activeHalf = u at hex hheld' hgone
  have hround := dropRound_round u.leaseGone
  generalize u.leaseGone = x at hex hgone hround
  generalize dropRound x = y at hex hround
  have hclosed : (y.setFld Reg.ADM_STATUS 2 0 0).fld Reg.ADM_STATUS 2 0 = 0 := (y.fld_setFld_same _ _ (by decide) (by decide)).trans rfl
  have hset : y.RegsOnly (y.setFld Reg.ADM_STATUS 2 0 0) [Reg.ADM_STATUS] := y.setFld_regsOnly ..
  generalize y.setFld Reg.ADM_STATUS 2 0 0 = z at hex hclosed hset
  obtain ⟨hreplace, hasked⟩ := assertReplace_shown z
  generalize assertReplace z = w at hex hreplace hasked
  have hsame := w.stagingGone_regs
  generalize w.stagingGone = v at hex hsame
  obtain ⟨hsilent, hregs, -⟩ := v.portSilent_shown
  rw [hsame] at hregs
  refine ⟨_, hex, hsilent, ?_, ?_, ?_⟩
  · rw [State.fld_congr hregs, hreplace.1.fld (by decide), hclosed]
  · rw [State.fld_congr hregs, hasked]
  · refine psState_of_reg ?_
    rw [State.reg_congr hregs, hreplace.1 _ (by decide), hset.1 _ (by decide),
      hround.regs _ ⟨⟨by unfold ModuleReg; decide, by decide⟩, by decide, by decide⟩, State.reg_congr hgone, hheld' _ (by decide)]

/-! ## The reference monitor (20 R574) -/

theorem settleAlert_shown (s : State) : (settleAlert s).signal 3 = decide ((settleAlert s).fld Reg.MGT_SIGNALS 19 16 ≠ 0) := by
  have hkept : (settleAlert s).fld Reg.MGT_SIGNALS 19 16 = s.fld Reg.MGT_SIGNALS 19 16 := by
    rw [settleAlert, setSignal, State.setBit, State.fld_setFld_disjoint _ _ _ le_rfl (by decide) (by decide)]
  rw [hkept]
  exact setSignal_signal_same _ (by decide) _

theorem setAlert_shown (s : State) {i : Nat} (hi : i < 32) (h3 : i ≠ 3) (b : Bool) : (setAlert s i b).signal i = b ∧
    (setAlert s i b).signal 3 = decide ((setAlert s i b).fld Reg.MGT_SIGNALS 19 16 ≠ 0) ∧ s.RegsOnly (setAlert s i b) [Reg.MGT_SIGNALS] := by
  refine ⟨?_, settleAlert_shown _, (setSignal_regsOnly ..).trans (setSignal_regsOnly ..)⟩
  rw [setAlert, settleAlert, setSignal_signal_ne _ (by decide) h3, setSignal_signal_same _ hi]

theorem refclkCheck_shown (s : State) (ab ac bc : Bool) : ∃ t, exec (.refclkCheck ab ac bc) s = .next t ∧ t.signal 31 = (ab || ac) ∧
    t.signal 30 = (ab || bc) ∧ t.signal 29 = (ac || bc) ∧ t.signal 18 = !((ab || ac) && (ab || bc) && (ac || bc)) ∧
    t.signal 3 = decide (t.fld Reg.MGT_SIGNALS 19 16 ≠ 0) ∧ s.RegsOnly t [Reg.MGT_SIGNALS] := by
  have hset : s.RegsOnly (setSignal (setSignal (setSignal s 31 (ab || ac)) 30 (ab || bc)) 29 (ac || bc)) [Reg.MGT_SIGNALS] :=
    ((setSignal_regsOnly ..).trans (setSignal_regsOnly ..)).trans (setSignal_regsOnly ..)
  have h31 : (setSignal (setSignal (setSignal s 31 (ab || ac)) 30 (ab || bc)) 29 (ac || bc)).signal 31 = (ab || ac) := by
    rw [setSignal_signal_ne _ (by decide) (by decide), setSignal_signal_ne _ (by decide) (by decide), setSignal_signal_same _ (by decide)]
  have h30 : (setSignal (setSignal (setSignal s 31 (ab || ac)) 30 (ab || bc)) 29 (ac || bc)).signal 30 = (ab || bc) := by
    rw [setSignal_signal_ne _ (by decide) (by decide), setSignal_signal_same _ (by decide)]
  have h29 : (setSignal (setSignal (setSignal s 31 (ab || ac)) 30 (ab || bc)) 29 (ac || bc)).signal 29 = (ac || bc) :=
    setSignal_signal_same _ (by decide) _
  refine ⟨setAlert (setSignal (setSignal (setSignal s 31 (ab || ac)) 30 (ab || bc)) 29 (ac || bc)) 18 (!((ab || ac) && (ab || bc) && (ac || bc))), rfl, ?_⟩
  generalize setSignal (setSignal (setSignal s 31 (ab || ac)) 30 (ab || bc)) 29 (ac || bc) = u at hset h31 h30 h29
  obtain ⟨h18, h3, honly⟩ := setAlert_shown u (by decide : 18 < 32) (by decide) (!((ab || ac) && (ab || bc) && (ac || bc)))
  exact ⟨(setAlert_signal_ne u (by decide) (by decide) (by decide) _).trans h31, (setAlert_signal_ne u (by decide) (by decide) (by decide) _).trans h30,
    (setAlert_signal_ne u (by decide) (by decide) (by decide) _).trans h29, h18, h3, hset.trans honly⟩

end

/-- Settles O59: each request, and each expiry of a watchdog, by its lemma. -/
theorem managementAnswers : Obligations.ManagementAnswers := by
  unfold Obligations.ManagementAnswers
  exact ⟨fun s ep tag addr count hport hpos hmax => vdmRead_shown hport hpos hmax,
    fun s ep i tag w hport howner hw => vdmWrite_cursor hport howner hw,
    fun s ep tag addr session values hport hne hmax howner => vdmWrite_unauthorised hport hne hmax howner,
    fun s ep tag key hport hlen => ownerKey_taken hport hlen, fun s ep tag hport => exportId_shown hport,
    fun s ep i tag target hport howner => ⟨lcRequest_taken hport howner, lcRequest_refused hport howner⟩,
    fun s ep tag session ticket hash hport hne hticket hlife hroom => lcRequest_provisions hport hne hticket hlife hroom,
    fun s ep tag target cause session ticket hport hne hticket => lcRequest_badTicket hport hne hticket,
    fun s ep reqId x key hport hkey => ⟨fun hroom => keyExchange_begins hport hkey hroom ep reqId x, fun hfull => keyExchange_busy hport hkey hfull ep reqId x⟩,
    fun s ep i period key x hport hfind hsent howner => finish_opens period hport hfind hsent howner,
    fun s ep i hport hopen => ⟨exec_heartbeat hport hopen, _, exec_endSession hport hopen, (endSpdm_gone s i).1, (endSpdm_gone s i).2, rfl⟩,
    fun s i hopen => heartbeatTimeout_ends hopen, fun s ep index hport hlow hhigh => getMeasurements_plain hport hlow hhigh,
    fun s ep index nonce key hport hkey hlow hhigh hnonce => getMeasurements_signed hport hkey hlow hhigh hnonce,
    fun s ep k n hport => exec_pldmRequest hport,
    fun s ep eid hport => ⟨fun hlow hhigh => exec_setEndpointId hport hlow hhigh, exec_getEndpointId hport⟩,
    fun s haux => if_pos haux, fun s d hport hnone => exec_dynamicAddress hport hnone d,
    fun s h logValid haux hheld hstandby => watchdogExpiry_standby haux hheld hstandby logValid,
    fun s logValid haux hheld hfence hready hfirst hms => watchdogExpiry_takesOver haux hheld hfence hready hfirst hms logValid,
    fun s logValid haux hheld hfence hready => watchdogExpiry_sheds haux hheld hfence hready logValid,
    fun s logValid haux hheld hfence => watchdogExpiry_servesNothing haux hheld hfence logValid, refclkCheck_shown⟩

end Sys2Proof.Machine

namespace Sys2Proof.Machine

/-! ## The start halts (16 R471) -/

section
variable {s : State}

/-- The start stands halted at a step. -/
def State.halted (s : State) (step : Nat) : State :=
  ((s.setMs msHalted).setFld Reg.MGT_START_STATUS 19 16 step).setFld Reg.MGT_START_STATUS 11 8 0

theorem State.halted_shown (s : State) {step : Nat} (h : step < 16) : s.RegsOnly (s.halted step) [Reg.MGT_START_STATUS] ∧
    (s.halted step).msState = msHalted ∧ (s.halted step).fld Reg.MGT_START_STATUS 19 16 = step := by
  refine ⟨((s.setFld_regsOnly ..).trans (State.setFld_regsOnly ..)).trans (State.setFld_regsOnly ..), ?_, ?_⟩
  · rw [State.halted, State.msState, State.fld_setFld_disjoint _ _ _ (by decide) (by decide) (by decide),
      State.fld_setFld_disjoint _ _ _ (by decide) (by decide) (by decide)]
    exact s.fld_setFld_same _ _ (by decide) (by decide)
  · rw [State.halted, State.fld_setFld_disjoint _ _ _ (by decide) (by decide) (by decide)]
    exact (State.fld_setFld_same _ _ _ (by decide) (by decide)).trans (Nat.mod_eq_of_lt h)

theorem haltStart_eq (s : State) (step cause : Nat) : haltStart s step cause =
    recordEvent (s.halted step) 0x0014 0 step cause (((s.halted step).now - (s.halted step).boot.stepAt) / 1000 % 2 ^ 32) := rfl

theorem haltStart_shown (s : State) {step : Nat} (h : step < 16) (cause : Nat) : (haltStart s step cause).msState = msHalted ∧
    (haltStart s step cause).fld Reg.MGT_START_STATUS 19 16 = step ∧
      s.Records (haltStart s step cause) (s.record 0x0014 0 step cause ((s.now - s.boot.stepAt) / 1000 % 2 ^ 32)) ∧
      s.RegsAndEvents (haltStart s step cause) [Reg.MGT_START_STATUS] := by
  obtain ⟨honly, hms, hstep⟩ := s.halted_shown h
  have hnow : (s.halted step).now = s.now := by rw [honly.2]
  have hboot : (s.halted step).boot = s.boot := by rw [honly.2]
  rw [haltStart_eq, hnow, hboot]
  generalize s.halted step = u at honly hms hstep
  refine ⟨(recordEvent_fld _ _ _ _ _ _ _ _ (by decide)).trans hms, (recordEvent_fld _ _ _ _ _ _ _ _ (by decide)).trans hstep,
    (State.SameClock.of_regsOnly honly).records _ _ _ _ _, honly.events.trans (recordEvent_frame ..)⟩

theorem exec_startStepTimeout (hms : s.msState = msStarting) (haux : s.pwr.auxOn = true) (hstep : s.step = 1 ∨ s.step = 2) (cause : Nat) :
    exec (.startStepTimeout cause) s = .next (haltStart s s.step cause) := by
  change Host.Outcome.next (timeOut s cause) = _
  unfold timeOut
  rw [if_neg (by simp [hms, haux])]
  obtain h | h := hstep
  · simp only [h]
  · simp only [h]

/-! ## Calendar time (16 R475-R479) -/

/-! ### PTP -/

/-- A message of the domain on the port that carries PTP is taken. -/
theorem exec_ptpMessage {port : Nat} (hsource : s.boot.timeSource = 1) (husable : s.ptpUsable port = true)
    (hport : port = s.fld Reg.MGT_TIME_STATUS 9 8) (m : PtpMsg) : exec (.ptpMessage port s.boot.ptpDomain m) s = .next (takePtp s port m) := by
  have hsettled : settlePtp s = s := if_pos (hport ▸ husable)
  change execPtpMessage port s.boot.ptpDomain m s = _
  unfold execPtpMessage
  rw [hsettled]
  exact if_pos ⟨hsource, rfl, husable, hport⟩

/-- The time stamps of the last Sync. -/
def State.synced (s : State) (t1 t2 : Option Int) : State := { s with ptp := { s.ptp with t1 := t1, t2 := t2 } }

theorem ptpSync_taken {port source : Nat} (t2 : Int) (hsource : s.boot.timeSource = 1) (husable : s.ptpUsable port = true)
    (hport : port = s.fld Reg.MGT_TIME_STATUS 9 8) (hmaster : s.fromMaster source = true) :
    ∃ t, exec (.ptpMessage port s.boot.ptpDomain (.sync source none t2)) s = .next t ∧ t.ptp.t2 = some t2 ∧ t.ptp.t1 = none ∧
      t.out = s.out ++ [.ptpDelayReq port source] ∧ t.regs = s.regs := by
  have htaken : takePtp s port (.sync source none t2) = (s.synced none (some t2)).emit (.ptpDelayReq port source) :=
    (if_pos hmaster).trans (if_neg Bool.false_ne_true)
  exact ⟨_, (exec_ptpMessage hsource husable hport _).trans (congrArg Host.Outcome.next htaken), rfl, rfl, rfl, rfl⟩

theorem noteOffset_regsOnly (s : State) (o : Int) : s.RegsOnly (noteOffset s o) [Reg.MGT_TIME_OFFSET] := s.setReg_regsOnly (List.mem_singleton_self _)

/-- An offset within 750 ns of a time base that is set is only noted. -/
theorem takeOffset_notes (hset : s.tb.isSet = true) (source : Nat) {o : Int} (hlow : -750 ≤ o) (hhigh : o ≤ 750) :
    takeOffset s source o = noteOffset s o := by
  have htb : (noteOffset s o).tb.isSet = true := by
    rw [(noteOffset_regsOnly s o).2]
    exact hset
  unfold takeOffset
  dsimp only
  rw [if_neg (by simp [htb]), if_neg (by omega)]

theorem noteOffset_reg (s : State) {o : Int} (hlow : -750 ≤ o) (hhigh : o ≤ 750) : (noteOffset s o).reg Reg.MGT_TIME_OFFSET = BitVec.ofInt 32 o := by
  rw [noteOffset, State.reg_setReg_same, min_eq_right (by omega), max_eq_right (by omega)]

theorem ptpFollowUp_taken {port source : Nat} {t1 t2 d : Int} (hsource : s.boot.timeSource = 1) (husable : s.ptpUsable port = true)
    (hport : port = s.fld Reg.MGT_TIME_STATUS 9 8) (hmaster : s.fromMaster source = true) (ht2 : s.ptp.t2 = some t2) (hdelay : s.ptp.delay = some d)
    (hset : s.tb.isSet = true) (hlow : -750 ≤ t2 - t1 - d) (hhigh : t2 - t1 - d ≤ 750) :
    ∃ t, exec (.ptpMessage port s.boot.ptpDomain (.followUp source t1)) s = .next t ∧ t.ptp.t1 = some t1 ∧
      t.reg Reg.MGT_TIME_OFFSET = BitVec.ofInt 32 (t2 - t1 - d) ∧ t.tb = s.tb ∧ s.RegsFrame t [Reg.MGT_TIME_OFFSET] := by
  have htaken : takePtp s port (.followUp source t1) = ptpOffset (s.synced (some t1) s.ptp.t2) := if_pos hmaster
  have hsync : (s.synced (some t1) s.ptp.t2).ptp.t1 = some t1 ∧ (s.synced (some t1) s.ptp.t2).ptp.t2 = some t2 ∧
      (s.synced (some t1) s.ptp.t2).ptp.delay = some d ∧ (s.synced (some t1) s.ptp.t2).tb = s.tb ∧
      (s.synced (some t1) s.ptp.t2).regs = s.regs := ⟨rfl, ht2, hdelay, rfl, rfl⟩
  have hex := (exec_ptpMessage hsource husable hport (.followUp source t1)).trans (congrArg Host.Outcome.next htaken)
  generalize s.synced (some t1) s.ptp.t2 = u at hex hsync
  obtain ⟨hu1, hu2, hud, htb, hregs⟩ := hsync
  have hoffset : ptpOffset u = noteOffset u (t2 - t1 - d) := by
    unfold ptpOffset
    rw [hu1, hu2, hud]
    exact takeOffset_notes (by rw [htb]; exact hset) 1 hlow hhigh
  rw [hoffset] at hex
  have honly := noteOffset_regsOnly u (t2 - t1 - d)
  refine ⟨_, hex, ?_, noteOffset_reg u hlow hhigh, ?_, fun a ha => ?_⟩
  · rw [honly.2]
    exact hu1
  · rw [honly.2]
    exact htb
  · rw [honly.1 a ha, State.reg_congr hregs]

/-- PTP on another port, from its beginning. -/
def State.ptpMoved (s : State) (q : Nat) : State := { s.setFld Reg.MGT_TIME_STATUS 9 8 q with ptp := PtpState.init }

theorem ptpMoved_shown (s : State) {q : Nat} (hq : q < 4) : (s.ptpMoved q).fld Reg.MGT_TIME_STATUS 9 8 = q ∧ (s.ptpMoved q).ptp = PtpState.init ∧
    (s.ptpMoved q).tb = s.tb ∧ s.RegsFrame (s.ptpMoved q) [Reg.MGT_TIME_STATUS] :=
  ⟨(s.fld_setFld_same Reg.MGT_TIME_STATUS q (by decide) (by decide)).trans (Nat.mod_eq_of_lt hq), rfl, rfl, (s.setFld_regsOnly ..).1⟩

theorem ptpAnnounceTimeout_moves {q : Nat} (hsource : s.boot.timeSource = 1) (hfind : (List.map (· % 4) [s.fld Reg.MGT_TIME_STATUS 9 8 + 1,
      s.fld Reg.MGT_TIME_STATUS 9 8 + 2, s.fld Reg.MGT_TIME_STATUS 9 8 + 3]).find? s.ptpUsable = some q) :
    ∃ t, exec .ptpAnnounceTimeout s = .next t ∧ t.fld Reg.MGT_TIME_STATUS 9 8 = q ∧ t.ptp = PtpState.init ∧ t.tb = s.tb ∧
      s.RegsFrame t [Reg.MGT_TIME_STATUS] := by
  have hq : q < 4 := by
    obtain ⟨k, -, rfl⟩ := List.mem_map.1 (List.mem_of_find?_eq_some hfind)
    exact Nat.mod_lt _ (by decide)
  refine ⟨s.ptpMoved q, ?_, ptpMoved_shown s hq⟩
  change execPtpAnnounceTimeout s = _
  unfold execPtpAnnounceTimeout
  dsimp only
  rw [if_neg (by simp [hsource]), hfind]
  rfl

/-! ### PPS -/

/-- The time of the last edge. -/
def State.edgeSeen (s : State) : State := { s with tb := { s.tb with edge := some s.now } }

theorem ppsEdge_taken (hsource : s.boot.timeSource = 2) (hnone : s.tb.ppsSecond = none) (hset : s.tb.isSet = true) (offset : Int) :
    ∃ t, exec (.ppsEdge offset) s = .next t ∧
      (-750 ≤ offset → offset ≤ 750 → t.reg Reg.MGT_TIME_OFFSET = BitVec.ofInt 32 offset ∧ t.tb = { s.tb with edge := some s.now } ∧
        s.RegsFrame t [Reg.MGT_TIME_OFFSET]) ∧
      (10000 < offset ∨ offset < -10000 → t = { s with tb := { s.tb with discarded := s.tb.discarded + 1 } }) := by
  have hex : exec (.ppsEdge offset) s = if 10000 < offset ∨ offset < -10000 then .next { s with tb := { s.tb with discarded := s.tb.discarded + 1 } }
      else .next (takeOffset s.edgeSeen 2 offset) := by
    change execPpsEdge offset s = _
    unfold execPpsEdge
    rw [if_neg (by simp [hsource]), hnone]
    exact if_neg (by simp [hset])
  by_cases hfar : 10000 < offset ∨ offset < -10000
  · exact ⟨_, hex.trans (if_pos hfar), fun hlow hhigh => by omega, fun _ => rfl⟩
  · refine ⟨_, hex.trans (if_neg hfar), fun hlow hhigh => ?_, fun h => absurd h hfar⟩
    have hedge : s.edgeSeen.tb = { s.tb with edge := some s.now } ∧ s.edgeSeen.regs = s.regs := ⟨rfl, rfl⟩
    have hset' : s.edgeSeen.tb.isSet = true := hset
    generalize s.edgeSeen = u at hedge hset'
    obtain ⟨htb, hregs⟩ := hedge
    have honly := noteOffset_regsOnly u offset
    rw [takeOffset_notes hset' 2 hlow hhigh]
    refine ⟨noteOffset_reg u hlow hhigh, ?_, fun a ha => ?_⟩
    · rw [honly.2]
      exact htb
    · rw [honly.1 a ha, State.reg_congr hregs]

/-! ### The lock -/

/-- The lock shown to the requesters. -/
def State.lockShown (s : State) (on : Bool) : State := settleHold ((s.setBit Reg.MGT_TIME_STATUS 31 on).setBit Reg.ADM_STATUS 31 on)

theorem State.lockShown_shown (s : State) (on : Bool) : s.RegsOnly (s.lockShown on) [Reg.MGT_TIME_STATUS, Reg.ADM_STATUS] ∧
    (s.lockShown on).fld Reg.MGT_TIME_STATUS 31 31 = (if on then 1 else 0) ∧ (s.lockShown on).fld Reg.ADM_STATUS 31 31 = (if on then 1 else 0) ∧
      (s.lockShown on).fld Reg.ADM_STATUS 30 30 = (if on then 0 else 1) := by
  have hbit : ∀ b : Bool, (if b then 1 else 0) % 2 ^ (31 + 1 - 31) = if b then 1 else 0 := by decide
  have htime : ((s.setBit Reg.MGT_TIME_STATUS 31 on).setBit Reg.ADM_STATUS 31 on).fld Reg.MGT_TIME_STATUS 31 31 = if on then 1 else 0 :=
    (State.fld_setFld_ne _ _ _ _ _ _ (by decide)).trans ((s.fld_setFld_same _ _ le_rfl (by decide)).trans (hbit on))
  have hadm : ((s.setBit Reg.MGT_TIME_STATUS 31 on).setBit Reg.ADM_STATUS 31 on).fld Reg.ADM_STATUS 31 31 = if on then 1 else 0 :=
    (State.fld_setFld_same _ _ _ le_rfl (by decide)).trans (hbit on)
  have honly : s.RegsOnly ((s.setBit Reg.MGT_TIME_STATUS 31 on).setBit Reg.ADM_STATUS 31 on) [Reg.MGT_TIME_STATUS, Reg.ADM_STATUS] :=
    (s.setFld_regsOnly_mem List.mem_cons_self).trans (State.setFld_regsOnly_mem _ (by simp))
  unfold State.lockShown
  generalize (s.setBit Reg.MGT_TIME_STATUS 31 on).setBit Reg.ADM_STATUS 31 on = u at htime hadm honly
  refine ⟨honly.trans (u.setFld_regsOnly_mem (by simp)), ?_, ?_, ?_⟩
  · rw [settleHold, State.fld_setFld_ne _ _ _ _ _ _ (by decide), htime]
  · rw [settleHold, State.fld_setFld_disjoint _ _ _ le_rfl (by decide) (by decide), hadm]
  · rw [settleHold, State.fld_setFld_same _ _ _ le_rfl (by decide), htime]
    cases on with
    | true => rfl
    | false => rfl

theorem timeLockChange_shown {locked : Bool} (hmay : locked = true → s.boot.timeSource ≠ 0 ∧ s.tb.isSet = true)
    (hnew : s.fld Reg.MGT_TIME_STATUS 31 31 ≠ (if locked then 1 else 0)) :
    ∃ t, exec (.timeLockChange locked) s = .next t ∧ t.fld Reg.MGT_TIME_STATUS 31 31 = (if locked then 1 else 0) ∧
      t.fld Reg.ADM_STATUS 31 31 = (if locked then 1 else 0) ∧ t.fld Reg.ADM_STATUS 30 30 = (if locked then 0 else 1) ∧
      s.Records t (s.record 0x0605 0 (if locked then 0 else 1) (s.reg Reg.MGT_TIME_OFFSET).toNat 0) ∧
      s.RegsAndEvents t [Reg.MGT_TIME_STATUS, Reg.ADM_STATUS] := by
  obtain ⟨honly, htime, hadm, hhold⟩ := s.lockShown_shown locked
  have hoffset : ((s.setBit Reg.MGT_TIME_STATUS 31 locked).setBit Reg.ADM_STATUS 31 locked).reg Reg.MGT_TIME_OFFSET = s.reg Reg.MGT_TIME_OFFSET :=
    (State.reg_setFld_ne _ _ _ _ (by decide)).trans (State.reg_setFld_ne _ _ _ _ (by decide))
  have hbit : s.fld Reg.MGT_TIME_STATUS 31 31 < 2 := getBits_lt ..
  have hkeeps : ¬(locked && (decide (s.boot.timeSource = 0) || !s.tb.isSet)) = true := by
    intro h
    obtain ⟨hlocked, hnot⟩ := Bool.and_eq_true_iff.1 h
    obtain ⟨hsource, hset⟩ := hmay hlocked
    simp [hsource, hset] at hnot
  have hchanges : ¬decide (s.fld Reg.MGT_TIME_STATUS 31 31 = 1) = locked := by
    cases locked with
    | true => simpa using hnew
    | false =>
      have hone : s.fld Reg.MGT_TIME_STATUS 31 31 ≠ 0 := hnew
      have : s.fld Reg.MGT_TIME_STATUS 31 31 = 1 := by omega
      simp [this]
  have hex : exec (.timeLockChange locked) s =
      .next (recordEvent (s.lockShown locked) 0x0605 0 (if locked then 0 else 1) (s.reg Reg.MGT_TIME_OFFSET).toNat 0) := by
    change execTimeLockChange locked s = _
    unfold execTimeLockChange setLock
    rw [if_neg hkeeps, if_neg hchanges]
    dsimp only
    rw [hoffset]
    rfl
  generalize s.lockShown locked = u at hex honly htime hadm hhold
  refine ⟨_, hex, ?_, ?_, ?_, (State.SameClock.of_regsOnly honly).records _ _ _ _ _, honly.events.trans (recordEvent_frame ..)⟩
  · rw [recordEvent_fld _ _ _ _ _ _ _ _ (by decide), htime]
  · rw [recordEvent_fld _ _ _ _ _ _ _ _ (by decide), hadm]
  · rw [recordEvent_fld _ _ _ _ _ _ _ _ (by decide), hhold]

end

end Sys2Proof.Machine

namespace Sys2Proof.Machine

/-! ## Calendar time is set (16 R478, R479) -/

section
variable {s : State}

/-- Calendar time steps by a difference. -/
def State.timeStepped (s : State) (d : Int) : State := { s with tb := { s.tb with offset := s.tb.offset + d, isSet := true, pending := none } }

/-- Calendar time takes a value, and the source is shown. -/
def State.timeSet (s : State) (time : Int) (source : Nat) : State :=
  ((s.timeStepped (time - (s.now + s.tb.offset))).setFld Reg.MGT_TIME_STATUS 30 30 1).setFld Reg.MGT_TIME_STATUS 1 0 source

theorem applySetting_target (s : State) (source time : Nat) : applySetting s ⟨source, some time, 0⟩ =
    recordEvent (s.timeSet time source) 0x001A 0 source (low32 (time - (s.now + s.tb.offset))) 0 := rfl

theorem State.timeSet_shown (s : State) (time source : Nat) : (s.timeSet time source).calendar = time ∧ (s.timeSet time source).tb.isSet = true ∧
    s.RegsFrame (s.timeSet time source) [Reg.MGT_TIME_STATUS] := by
  have hstepped (d : Int) : (s.timeStepped d).now = s.now ∧ (s.timeStepped d).tb.offset = s.tb.offset + d ∧ (s.timeStepped d).tb.isSet = true ∧
      (s.timeStepped d).regs = s.regs := ⟨rfl, rfl, rfl, rfl⟩
  obtain ⟨hnow, hoffset, hset, hregs⟩ := hstepped (time - (s.now + s.tb.offset))
  unfold State.timeSet
  generalize s.timeStepped (time - (s.now + s.tb.offset)) = u at hnow hoffset hset hregs
  have honly : u.RegsOnly ((u.setFld Reg.MGT_TIME_STATUS 30 30 1).setFld Reg.MGT_TIME_STATUS 1 0 source) [Reg.MGT_TIME_STATUS] :=
    (u.setFld_regsOnly ..).trans (State.setFld_regsOnly ..)
  refine ⟨?_, ?_, fun a ha => (honly.1 a ha).trans (State.reg_congr hregs a)⟩
  · rw [honly.2]
    change ((u.now : Int) + u.tb.offset).toNat = time
    rw [hnow, hoffset]
    omega
  · rw [honly.2]
    exact hset

/-- The second written, in its two registers. -/
def State.secondWritten (s : State) (lo hi : Nat) : State :=
  (s.setReg Reg.MGT_TIME_SET_LO (BitVec.ofNat 32 lo)).setReg Reg.MGT_TIME_SET_HI (BitVec.ofNat 32 hi)

theorem State.secondWritten_shown (s : State) {lo hi : Nat} (hlo : lo < 2 ^ 32) (hhi : hi < 2 ^ 32) :
    s.RegsOnly (s.secondWritten lo hi) [Reg.MGT_TIME_SET_LO, Reg.MGT_TIME_SET_HI] ∧ ((s.secondWritten lo hi).reg Reg.MGT_TIME_SET_LO).toNat = lo ∧
      ((s.secondWritten lo hi).reg Reg.MGT_TIME_SET_HI).toNat = hi := by
  refine ⟨(s.setReg_regsOnly List.mem_cons_self).trans (State.setReg_regsOnly _ (by simp)), ?_, ?_⟩
  · rw [State.secondWritten, State.reg_setReg_ne _ _ (by decide), State.reg_setReg_same, BitVec.toNat_ofNat, Nat.mod_eq_of_lt hlo]
  · rw [State.secondWritten, State.reg_setReg_same, BitVec.toNat_ofNat, Nat.mod_eq_of_lt hhi]

theorem setSecond_regs (s : State) (sec : Nat) : s.RegsFrame (setSecond s sec) ([Reg.MGT_TIME_STATUS] ++ eventRegs) := by
  unfold setSecond
  split
  · unfold setTime
    split
    · exact fun _ _ => rfl
    · rw [applySetting_target]
      intro a ha
      rw [List.mem_append, not_or] at ha
      rw [recordEvent_reg _ _ _ _ _ _ ha.2, (s.timeSet_shown _ _).2.2 a ha.1]
  · split
    · exact fun _ _ => rfl
    · exact .refl s _

theorem mgtTimeSet_shown (s : State) {lo hi : Nat} (hlo : lo < 2 ^ 32) (hhi : hi < 2 ^ 32) :
    ∃ t, exec (.mgtTimeSet lo hi) s = .next t ∧ (t.reg Reg.MGT_TIME_SET_LO).toNat = lo ∧ (t.reg Reg.MGT_TIME_SET_HI).toNat = hi ∧
      (s.boot.timeSource = 0 → s.roundsRun = false → t.calendar = (hi * 2 ^ 32 + lo) * 1000000000 ∧ t.tb.isSet = true) ∧
      (s.boot.timeSource = 0 → s.roundsRun = true → t.tb = { s.tb with pending := some ⟨3, some ((hi * 2 ^ 32 + lo) * 1000000000), 0⟩ }) ∧
      (s.boot.timeSource = 2 → t.tb = { s.tb with ppsSecond := some (hi * 2 ^ 32 + lo, s.now) }) := by
  have hex : exec (.mgtTimeSet lo hi) s = .next (setSecond (s.secondWritten lo hi) (hi % 2 ^ 32 * 2 ^ 32 + lo % 2 ^ 32)) := rfl
  rw [Nat.mod_eq_of_lt hlo, Nat.mod_eq_of_lt hhi] at hex
  obtain ⟨honly, hl, hh⟩ := s.secondWritten_shown hlo hhi
  generalize s.secondWritten lo hi = u at hex honly hl hh
  have hregs := setSecond_regs u (hi * 2 ^ 32 + lo)
  have hsource : u.boot.timeSource = s.boot.timeSource := by rw [honly.2]
  have htb : u.tb = s.tb := by rw [honly.2]
  have hnow : u.now = s.now := by rw [honly.2]
  have hrun : u.roundsRun = s.roundsRun := by
    unfold State.roundsRun State.mainOn
    rw [honly.1.fld (by decide), honly.1.fld (by decide)]
  refine ⟨_, hex, ?_, ?_, fun h0 hstill => ?_, fun h0 hrunning => ?_, fun h2 => ?_⟩
  · rw [hregs _ (by decide), hl]
  · rw [hregs _ (by decide), hh]
  · rw [setSecond, if_pos (hsource.trans h0), setTime, if_neg (by simp [hrun, hstill]), applySetting_target]
    obtain ⟨hcal, hset, -⟩ := u.timeSet_shown ((hi * 2 ^ 32 + lo) * 1000000000) 3
    unfold State.calendar at *
    rw [recordEvent_now, recordEvent_tb]
    exact ⟨hcal, hset⟩
  · rw [setSecond, if_pos (hsource.trans h0), setTime, if_pos (hrun.trans hrunning), ← htb]
  · rw [setSecond, if_neg (by omega), if_pos (hsource.trans h2), ← htb, ← hnow]

/-! ## Removal begins (16 R489) -/

/-- The state, the removal and the end of its drain. -/
def State.removing (s : State) (cause : Nat) : State := { s.setMs msRemoving with
  boot := { s.boot with removal := some ⟨s.now, cause, 0, 0, false⟩, heldRemoval := none }
  sage := { s.sage with draining := some (s.now + s.fld Reg.MGT_REMOVE_DRAIN 15 0 * 1000000) } }

theorem msState_removable (h : s.msState = msServing ∨ s.msState = msHalted) :
    (¬(s.msState = msRemoving ∨ s.msState = msReady)) ∧ ¬(s.msState = msAux ∨ s.msState = msStarting) := by
  obtain h | h := h
  · rw [h]
    decide
  · rw [h]
    decide

theorem msState_removalHeld (h : s.msState = msAux ∨ s.msState = msStarting) : ¬(s.msState = msRemoving ∨ s.msState = msReady) := by
  obtain h | h := h
  · rw [h]
    decide
  · rw [h]
    decide

theorem beginRemoval_eq (h : s.msState = msServing ∨ s.msState = msHalted) (cause : Nat) : beginRemoval s cause =
    recordEvent (s.removing cause) 0x001B 0 cause (s.fld Reg.MGT_REMOVE_DRAIN 15 0) s.admitted := by
  unfold beginRemoval
  rw [if_neg (msState_removable h).1, if_neg (msState_removable h).2]
  rfl

theorem State.removing_shown (s : State) (cause : Nat) : (s.removing cause).boot.removal = some ⟨s.now, cause, 0, 0, false⟩ ∧
    (s.removing cause).sage.draining = some (s.now + s.fld Reg.MGT_REMOVE_DRAIN 15 0 * 1000000) ∧ s.SameClock (s.removing cause) ∧
    s.RegsFrame (s.removing cause) [Reg.MGT_START_STATUS] ∧ (s.removing cause).msState = msRemoving :=
  ⟨rfl, rfl, {}, (s.setFld_regsOnly ..).1, s.fld_setFld_same Reg.MGT_START_STATUS msRemoving (by decide) (by decide)⟩

/-- A removal that begins, asked for while a signal changes. -/
theorem beginRemoval_begun {u : State} (honly : s.RegsOnly u [Reg.MGT_SIGNALS]) (h : s.msState = msServing ∨ s.msState = msHalted) (cause : Nat) :
    s.RemovalBegun (beginRemoval u cause) cause ∧ u.RegsFrame (beginRemoval u cause) ([Reg.MGT_START_STATUS] ++ eventRegs) := by
  have hms : u.msState = s.msState := honly.1.fld (a := Reg.MGT_START_STATUS) (by decide) 2 0
  have hnow : u.now = s.now := by rw [honly.2]
  have hdrain : u.fld Reg.MGT_REMOVE_DRAIN 15 0 = s.fld Reg.MGT_REMOVE_DRAIN 15 0 := honly.1.fld (by decide) 15 0
  have hadmitted : u.admitted = s.admitted := by
    unfold State.admitted
    rw [honly.2]
  obtain ⟨hremoval, hdraining, hclock, hregs, hstate⟩ := u.removing_shown cause
  rw [beginRemoval_eq (hms ▸ h), hdrain, hadmitted]
  rw [hdrain, hnow] at hdraining
  rw [hnow] at hremoval
  generalize u.removing cause = t at hremoval hdraining hclock hregs hstate
  refine ⟨⟨?_, ?_, ?_, ((State.SameClock.of_regsOnly honly).trans hclock).records _ _ _ _ _⟩, fun a ha => ?_⟩
  · exact (recordEvent_fld _ _ _ _ _ _ _ _ (by decide)).trans hstate
  · rw [recordEvent_boot, hremoval]
  · rw [recordEvent_sage, hdraining]
  · rw [List.mem_append, not_or] at ha
    rw [recordEvent_reg _ _ _ _ _ _ ha.2, hregs a ha.1]

theorem removeReqN_begins (h : s.msState = msServing ∨ s.msState = msHalted) :
    ∃ t, exec .removeReqN s = .next t ∧ s.RemovalBegun t 0 ∧ t.signal 9 = true := by
  obtain ⟨hbegun, hregs⟩ := beginRemoval_begun (setSignal_regsOnly s 9 true) h 0
  refine ⟨_, rfl, hbegun, ?_⟩
  rw [State.signal_congr (hregs _ (by decide)), setSignal_signal_same _ (by decide)]

theorem mgtRemoveStart_begins (h : s.msState = msServing ∨ s.msState = msHalted) :
    ∃ t, exec .mgtRemoveStart s = .next t ∧ s.RemovalBegun t 1 ∧ s.RegsFrame t ([Reg.MGT_START_STATUS] ++ eventRegs) :=
  ⟨_, rfl, beginRemoval_begun ⟨State.RegsFrame.refl s _, rfl⟩ h 1⟩

theorem mgtRemoveStart_held (h : s.msState = msAux ∨ s.msState = msStarting) :
    exec .mgtRemoveStart s = .next { s with boot := { s.boot with heldRemoval := some 1 } } :=
  congrArg Host.Outcome.next ((if_neg (msState_removalHeld h)).trans (if_pos h))

/-- The pulse on ALERT_N ends: the signal stays for another cause only. -/
theorem alertPulseEnd_shown (s : State) : ∃ t, exec .alertPulseEnd s = .next t ∧ t.signal 19 = false ∧
    t.signal 3 = decide (s.fld Reg.MGT_SIGNALS 18 16 ≠ 0) ∧ s.RegsOnly t [Reg.MGT_SIGNALS] := by
  obtain ⟨h19, -, honly⟩ := setAlert_shown s (by decide : 19 < 32) (by decide) false
  refine ⟨_, rfl, h19, ?_, honly⟩
  have hcauses : (setSignal s 19 false).fld Reg.MGT_SIGNALS 19 16 = s.fld Reg.MGT_SIGNALS 18 16 := by
    have hkept : (setSignal s 19 false).fld Reg.MGT_SIGNALS 18 16 = s.fld Reg.MGT_SIGNALS 18 16 :=
      s.fld_setFld_disjoint _ _ le_rfl (by decide) (by decide)
    have hclear : (setSignal s 19 false).fld Reg.MGT_SIGNALS 19 19 = 0 := s.fld_setFld_same _ _ le_rfl (by decide)
    rw [← hkept]
    unfold State.fld getBits at *
    omega
  rw [setAlert, settleAlert, setSignal_signal_same _ (by decide), hcauses]

end

end Sys2Proof.Machine

namespace Sys2Proof.Machine

/-! ## Steps of the start (16 R470, R473, R474) -/

/-- What one element of a list establishes, and every other keeps, holds after the loop. -/
theorem foldl_establishes {α β : Type} {f : β → α → β} {l : List α} {a : α} {P : β → Prop} (ha : a ∈ l) (here : ∀ x, P (f x a))
    (later : ∀ x b, b ≠ a → P x → P (f x b)) (x : β) : P (l.foldl f x) := by
  obtain ⟨pre, post, rfl⟩ := List.append_of_mem ha
  rw [List.foldl_append, List.foldl_cons]
  refine List.foldlRecOn _ _ (here _) fun y hy b _ => ?_
  by_cases hb : b = a
  · rw [hb]
    exact here y
  · exact later y b hb hy

section
variable {s : State}

section
variable (hms : s.msState = msStarting) (haux : s.pwr.auxOn = true) (r : StartResult)
include hms haux

theorem endStep_three (h : s.step = 3) : endStep s r = if s.psState = psSeqUp ∧ s.pwr.step = 9 then nextStep s 4 else s := by
  unfold endStep
  rw [if_neg (by simp [hms, haux])]
  simp only [h]

theorem endStep_five (h : s.step = 5) : endStep s r = endStep5 s r.rates := by
  unfold endStep
  rw [if_neg (by simp [hms, haux])]
  simp only [h]

theorem endStep_nine (h : s.step = 9) : endStep s r = if s.psState = psOn then endStep9 s else s := by
  unfold endStep
  rw [if_neg (by simp [hms, haux])]
  simp only [h]

theorem endStep_eleven (h : s.step = 11) : endStep s r = if s.tb.isSet ∨ s.boot.timeSource = 0 then nextStep s 12 else s := by
  unfold endStep
  rw [if_neg (by simp [hms, haux])]
  simp only [h]

theorem endStep_twelve (h : s.step = 12) : endStep s r = endStep12 s := by
  unfold endStep
  rw [if_neg (by simp [hms, haux])]
  simp only [h]

end

/-- The next step has begun. -/
theorem nextStep_shown (s : State) {k : Nat} (h : k < 16) : (nextStep s k).step = k ∧ (nextStep s k).boot.stepAt = s.now ∧
    s.RegsFrame (nextStep s k) [Reg.MGT_START_STATUS] :=
  ⟨(s.fld_setFld_same Reg.MGT_START_STATUS k (by decide) (by decide)).trans (Nat.mod_eq_of_lt h), rfl, (s.setFld_regsOnly ..).1⟩

/-! ### Step 5: the stacks train -/

/-- The status registers of the stacks. -/
def StackStatusReg (a : Nat) : Prop := Reg.STM_STACK_STATUS ≤ a ∧ a < Reg.STM_STACK_STATUS + 16

theorem StackStatusReg.bounds {a : Nat} (h : StackStatusReg a) : 0xb0010 ≤ a ∧ a < 0xb0020 := h

theorem stackStatusReg_of_lt {k : Nat} (h : k < 16) : StackStatusReg (Reg.STM_STACK_STATUS + k) := ⟨by omega, by omega⟩

theorem StackStatusReg.not_event : ∀ a ∈ eventRegs, ¬StackStatusReg a := by
  unfold StackStatusReg
  decide

theorem StackStatusReg.not_min {p : Nat} (h : p < 16) : ¬StackStatusReg (Reg.STM_REG_MIN + p) := fun hs => by
  have hb := hs.bounds
  change 0xb0010 ≤ 0xb0040 + p ∧ 0xb0040 + p < 0xb0020 at hb
  omega

/-- The training of a stack touches no other's status. -/
theorem trainStack_frame (s : State) (k i : Nat) : s.RegsFrame (trainStack s k i) ([Reg.STM_STACK_STATUS + k] ++ eventRegs) := by
  have hset (t : State) (hi lo v : Nat) : t.RegsFrame (t.setFld (Reg.STM_STACK_STATUS + k) hi lo v) ([Reg.STM_STACK_STATUS + k] ++ eventRegs) :=
    (t.setFld_regsOnly ..).1.mono (List.subset_append_left _ _)
  have hevent (t : State) (code source p0 p1 p2 : Nat) : t.RegsFrame (recordEvent t code source p0 p1 p2) ([Reg.STM_STACK_STATUS + k] ++ eventRegs) :=
    (recordEvent_frame ..).1
  unfold trainStack
  split
  · refine (hset s 15 8 0).trans ?_
    rw [stackOffline_eq]
    split
    · exact .refl _ _
    · exact (hset _ _ _ _).trans (hevent _ _ _ _ _ _)
  · dsimp only
    split
    · exact ((hset s _ _ _).trans (hset _ _ _ _)).trans (hevent _ _ _ _ _ _)
    · exact (((hset s _ _ _).trans (hset _ _ _ _)).trans (hevent _ _ _ _ _ _)).trans (hevent _ _ _ _ _ _)

theorem trainStack_ready (s : State) {k i rate : Nat} (hk : k < 16) (h : stackRates[i]? = some rate) :
    (trainStack s k i).fld (Reg.STM_STACK_STATUS + k) 15 8 = rate ∧ (trainStack s k i).fld (Reg.STM_STACK_STATUS + k) 2 0 = stkReady := by
  have hout : Reg.STM_STACK_STATUS + k ∉ eventRegs := fun hm => StackStatusReg.not_event _ hm (stackStatusReg_of_lt hk)
  have hrate : rate < 256 := by
    have hall : ∀ x ∈ stackRates, x < 256 := by decide
    exact hall rate (List.mem_of_getElem? h)
  have hset : ((s.setFld (Reg.STM_STACK_STATUS + k) 15 8 rate).setFld (Reg.STM_STACK_STATUS + k) 2 0 stkReady).fld (Reg.STM_STACK_STATUS + k) 15 8 = rate ∧
      ((s.setFld (Reg.STM_STACK_STATUS + k) 15 8 rate).setFld (Reg.STM_STACK_STATUS + k) 2 0 stkReady).fld (Reg.STM_STACK_STATUS + k) 2 0 = stkReady := by
    refine ⟨?_, State.fld_setFld_same _ _ _ (by decide) (by decide)⟩
    rw [State.fld_setFld_disjoint _ _ _ (by decide) (by decide) (by decide), State.fld_setFld_same _ _ _ (by decide) (by decide)]
    exact Nat.mod_eq_of_lt hrate
  have hevent (t : State) (code source p0 p1 p2 hi lo : Nat) :
      (recordEvent t code source p0 p1 p2).fld (Reg.STM_STACK_STATUS + k) hi lo = t.fld (Reg.STM_STACK_STATUS + k) hi lo :=
    recordEvent_fld _ _ _ _ _ _ _ _ hout
  unfold trainStack
  rw [h]
  dsimp only
  split
  · rw [hevent, hevent]
    exact hset
  · rw [hevent, hevent, hevent, hevent]
    exact hset

theorem scaleMins_stacks (s : State) (h : Half) : s.Fixes StackStatusReg (scaleMins s h) := by
  unfold scaleMins
  extract_lets lo mins sys total limit t
  split
  · exact .refl _ s
  · have hmins : s.Fixes StackStatusReg t := (State.Fixes.refl _ s).foldl fun x p hp => (State.Fixes.refl _ x).setFld (StackStatusReg.not_min (List.mem_range.1 hp))
    exact hmins.recordEvent StackStatusReg.not_event ..

theorem endStep5_shown (s : State) (rates : List Nat) : (endStep5 s rates).step = 6 ∧ ∀ k i rate, k < 16 → rates[k]? = some i →
    stackRates[i]? = some rate →
      (endStep5 s rates).fld (Reg.STM_STACK_STATUS + k) 15 8 = rate ∧ (endStep5 s rates).fld (Reg.STM_STACK_STATUS + k) 2 0 = stkReady := by
  have hscale := ((scaleMins_stacks ((List.range 16).foldl (fun s k => trainStack s k (rates.getD k 3)) s) .west).trans (scaleMins_stacks _ .east))
  unfold endStep5
  refine ⟨(nextStep_shown _ (by decide)).1, fun k i rate hk hi hrate => ?_⟩
  have hnext := (nextStep_shown (scaleMins (scaleMins ((List.range 16).foldl (fun s k => trainStack s k (rates.getD k 3)) s) .west) .east) (k := 6) (by decide)).2.2
  have hreg : Reg.STM_STACK_STATUS + k ∉ [Reg.MGT_START_STATUS] := by
    have hb := (stackStatusReg_of_lt hk).bounds
    intro hm
    rw [List.mem_singleton.1 hm] at hb
    revert hb
    decide
  rw [hnext.fld hreg, hnext.fld hreg, hscale.fld (stackStatusReg_of_lt hk), hscale.fld (stackStatusReg_of_lt hk)]
  refine foldl_establishes (P := fun t : State => t.fld (Reg.STM_STACK_STATUS + k) 15 8 = rate ∧ t.fld (Reg.STM_STACK_STATUS + k) 2 0 = stkReady)
    (List.mem_range.2 hk) (fun x => ?_) (fun x j hj hx => ?_) s
  · rw [List.getD_eq_getElem?_getD, hi]
    exact trainStack_ready x hk hrate
  · have hframe := trainStack_frame x j (rates.getD j 3)
    have hout : Reg.STM_STACK_STATUS + k ∉ [Reg.STM_STACK_STATUS + j] ++ eventRegs := by
      rw [List.mem_append, List.mem_singleton, not_or]
      exact ⟨by omega, fun hm => StackStatusReg.not_event _ hm (stackStatusReg_of_lt hk)⟩
    rw [hframe.fld hout, hframe.fld hout]
    exact hx

/-! ### Step 9: the tiles are ready -/

theorem newCand_regs (s : State) (id : Nat) : s.RegsFrame (newCand s id) ([Reg.FAB_STATUS] ++ eventRegs) := by
  have hframe := (s.followed_regsOnly id).events.trans (setNoRoot_frame (s.followed id) false)
  have hcand : (setNoRoot (s.followed id) false).fab.cand = some ⟨id⟩ := congrArg Fabric.cand hframe.fab
  rw [newCand_eq, announce_eq hcand]
  exact hframe.1

/-- Step 9 up to its end: the tiles are idle, and an eligible module is its own candidate. -/
def State.tilesReady (s : State) : State :=
  if (((List.range tileCount).filter s.usable).foldl (fun s ti => s.setTilState ti tilIdle) s).eligible &&
      (((List.range tileCount).filter s.usable).foldl (fun s ti => s.setTilState ti tilIdle) s).fab.cand.isNone then
    newCand (((List.range tileCount).filter s.usable).foldl (fun s ti => s.setTilState ti tilIdle) s) selfId
  else ((List.range tileCount).filter s.usable).foldl (fun s ti => s.setTilState ti tilIdle) s

theorem endStep9_eq (s : State) : endStep9 s = nextStep s.tilesReady 10 := rfl

theorem endStep9_shown (s : State) : (endStep9 s).step = 10 ∧ ∀ ti, s.usable ti = true → (endStep9 s).tilState ti = tilIdle := by
  obtain ⟨hstep, -, hnext⟩ := nextStep_shown s.tilesReady (k := 10) (by decide)
  rw [endStep9_eq]
  refine ⟨hstep, fun ti husable => ?_⟩
  have hti : ti ∈ (List.range tileCount).filter s.usable := by
    refine List.mem_filter.2 ⟨List.mem_range.2 ?_, husable⟩
    unfold State.usable at husable
    simp only [Bool.and_eq_true, decide_eq_true_eq] at husable
    exact husable.1.1.1.1
  have hidle := (foldl_setTilState ((List.range tileCount).filter s.usable) tilIdle (by decide) s).1 ti hti
  have hready : s.tilesReady.fld (tileReg ti Reg.TIL_STATUS) 2 0 = tilIdle := by
    unfold State.tilesReady
    generalize ((List.range tileCount).filter s.usable).foldl (fun s ti => s.setTilState ti tilIdle) s = u at hidle
    split
    · have hout : tileReg ti Reg.TIL_STATUS ∉ [Reg.FAB_STATUS] ++ eventRegs := by
        rw [List.mem_append, List.mem_singleton, not_or]
        refine ⟨fun he => ModuleReg.not_tile ti Reg.TIL_STATUS ?_, tileReg_notMem_eventRegs ti _⟩
        rw [he]
        unfold ModuleReg
        decide
      rw [(newCand_regs u selfId).fld hout]
      exact hidle
    · exact hidle
  have hout : tileReg ti Reg.TIL_STATUS ∉ [Reg.MGT_START_STATUS] := by
    intro hm
    refine ModuleReg.not_tile ti Reg.TIL_STATUS ?_
    rw [List.mem_singleton.1 hm]
    unfold ModuleReg
    decide
  exact (hnext.fld hout 2 0).trans hready

end

end Sys2Proof.Machine

namespace Sys2Proof.Machine

/-! ## Step 12: the service opens (16 R482) -/

/-- What the end of the start leaves: some registers, the requests held, REMOVE_REQ_N and the time. -/
structure State.Opens (P : Nat → Prop) (s t : State) : Prop where
  fixes : s.Fixes P t
  ctl : t.ctl = s.ctl
  held : t.boot.heldRemoval = s.boot.heldRemoval
  signal : t.signal 9 = s.signal 9
  now : t.now = s.now
  tb : t.tb = s.tb

namespace State.Opens
variable {P Q : Nat → Prop} {s t u : State}

theorem refl (P : Nat → Prop) (s : State) : s.Opens P s := ⟨.refl P s, rfl, rfl, rfl, rfl, rfl⟩

theorem trans (h : s.Opens P t) (k : t.Opens P u) : s.Opens P u :=
  ⟨h.fixes.trans k.fixes, k.ctl.trans h.ctl, k.held.trans h.held, k.signal.trans h.signal, k.now.trans h.now, k.tb.trans h.tb⟩

theorem mono (h : s.Opens P t) (k : ∀ a, Q a → P a) : s.Opens Q t := ⟨h.fixes.mono k, h.ctl, h.held, h.signal, h.now, h.tb⟩

theorem of_regsOnly {l : List Nat} (h : s.RegsOnly t l) (k : ∀ a ∈ l, ¬P a) (hsig : Reg.MGT_SIGNALS ∉ l) : s.Opens P t :=
  ⟨.of_regsOnly h k, by rw [h.2], by rw [h.2], State.signal_congr (h.1 _ hsig) 9, by rw [h.2], by rw [h.2]⟩

theorem recordEvent (h : s.Opens P t) (k : ∀ a ∈ eventRegs, ¬P a) (code source p0 p1 p2 : Nat) : s.Opens P (recordEvent t code source p0 p1 p2) :=
  h.trans ⟨(State.Fixes.refl P t).recordEvent k .., recordEvent_ctl .., by rw [recordEvent_boot],
    State.signal_congr (recordEvent_reg _ _ _ _ _ _ (by decide)) 9, recordEvent_now .., recordEvent_tb ..⟩

theorem setFld (h : s.Opens P t) {a hi lo v : Nat} (k : ¬P a) (hsig : a ≠ Reg.MGT_SIGNALS) : s.Opens P (t.setFld a hi lo v) :=
  h.trans (.of_regsOnly (t.setFld_regsOnly ..) (fun b hb => by rwa [List.mem_singleton.1 hb]) (by simpa using Ne.symm hsig))

theorem setSignal (h : s.Opens P t) {i : Nat} (hi : i < 32) (h9 : i ≠ 9) (k : ¬P Reg.MGT_SIGNALS) (b : Bool) : s.Opens P (setSignal t i b) := by
  have honly := setSignal_regsOnly t i b
  exact h.trans ⟨.of_regsOnly honly fun a ha => by rwa [List.mem_singleton.1 ha], by rw [honly.2], by rw [honly.2],
    setSignal_signal_ne t hi (Ne.symm h9) b, by rw [honly.2], by rw [honly.2]⟩

theorem mails (h : s.Opens P t) (k : t.Mails u) : s.Opens P u := by
  rw [k]
  exact h.trans ⟨⟨fun _ _ => rfl, fun _ he => he⟩, rfl, rfl, rfl, rfl, rfl⟩

theorem foldl {α : Type} {g : State → α → State} {l : List α} (h : s.Opens P t) (k : ∀ (x : State) a, a ∈ l → x.Opens P (g x a)) :
    s.Opens P (l.foldl g t) := List.foldlRecOn l g h fun x hx a ha => hx.trans (k x a ha)

theorem ite {c : Prop} [Decidable c] (h : s.Opens P t) (k : s.Opens P u) : s.Opens P (if c then t else u) := by
  split
  · exact h
  · exact k

end State.Opens

/-- The registers of the start and of the round. -/
def OpenReg (a : Nat) : Prop := a = Reg.MGT_START_STATUS ∨ RoundReg a

theorem OpenReg.not_event : ∀ a ∈ eventRegs, ¬OpenReg a := by
  unfold OpenReg RoundReg
  decide

theorem not_openReg {a : Nat} (h : a ∉ [Reg.MGT_START_STATUS, Reg.ADM_ROUND_LEN, Reg.ADM_ROUND_LO, Reg.ADM_ROUND_HI]) : ¬OpenReg a := by
  unfold OpenReg RoundReg
  simpa using h

section
variable (s : State)

theorem saveState_opens (mark : Option (Nat × Nat × Nat)) : s.Opens OpenReg (saveState s mark) := by
  rw [saveState_card]
  exact ⟨⟨fun _ _ => rfl, fun _ he => he⟩, rfl, rfl, rfl, rfl, rfl⟩

theorem publishStart_opens : s.Opens OpenReg (publishStart s) := by
  unfold publishStart
  extract_lets n saved r same e rec' p s1
  have h1 : s.Opens OpenReg s1 := ⟨⟨fun _ _ => rfl, fun _ he => he⟩, rfl, rfl, rfl, rfl, rfl⟩
  clear_value s1
  have hepoch : s1.Opens OpenReg (s1.setReg Reg.MGT_EPOCH (BitVec.ofNat 32 e.1)) :=
    .of_regsOnly (s1.setReg_regsOnly (List.mem_singleton_self _)) (fun a ha => by
      rw [List.mem_singleton.1 ha]
      exact not_openReg (by decide)) (by decide)
  exact ((h1.trans hepoch).trans (saveState_opens _ none)).recordEvent OpenReg.not_event ..

theorem setCap_opens (h : Half) (v : Rat) : s.Opens OpenReg (setCap s h v) := by
  have hset (hi lo n : Nat) (x : Thermal) : s.Opens OpenReg { s.setFld Reg.THM_CAP_NOW hi lo n with thm := x } := by
    have hfld : s.Opens OpenReg (s.setFld Reg.THM_CAP_NOW hi lo n) := (State.Opens.refl _ s).setFld (not_openReg (by decide)) (by decide)
    exact hfld.trans ⟨⟨fun _ _ => rfl, fun _ he => he⟩, rfl, rfl, rfl, rfl, rfl⟩
  cases h with
  | west => exact hset ..
  | east => exact hset ..

theorem settleAdm_opens : s.Opens OpenReg (settleAdm s) := by
  unfold settleAdm
  exact .ite ((State.Opens.refl _ s).setFld (not_openReg (by decide)) (by decide)) (.refl _ s)

theorem raiseSvn_opens : s.Opens OpenReg (raiseSvn s) := by
  have hfuses (f : Fuses) : s.Opens OpenReg { s with fuses := f } := ⟨⟨fun _ _ => rfl, fun _ he => he⟩, rfl, rfl, rfl, rfl, rfl⟩
  unfold raiseSvn
  split
  · exact .ite ((hfuses _).recordEvent OpenReg.not_event ..) (.refl _ s)
  · exact .refl _ s

theorem reportPeers_opens (code v0 v1 : Nat) : s.Opens OpenReg (reportPeers s code v0 v1) :=
  (State.Opens.refl _ s).foldl fun x _ _ => (State.Opens.refl _ x).mails (sendMsg_mails ..)

theorem settleCause_opens (bit : Nat) : s.Opens OpenReg (settleCause s bit) := by
  have hset (v : Nat) : s.Opens OpenReg (s.setFld Reg.BST_REPLACE_STATUS bit bit v) := (State.Opens.refl _ s).setFld (not_openReg (by decide)) (by decide)
  unfold settleCause
  refine .ite ?_ (.ite ((hset 0).recordEvent OpenReg.not_event ..) (.refl _ s))
  have hon := (hset 1).recordEvent OpenReg.not_event 0x0C01 0 bit (s.replaceCause bit).2.1 (s.replaceCause bit).2.2
  exact (State.Opens.ite (hon.recordEvent OpenReg.not_event ..) hon).trans (reportPeers_opens ..)

theorem assertReplace_opens : s.Opens OpenReg (assertReplace s) :=
  ((State.Opens.refl _ s).setFld (not_openReg (by decide)) (by decide)).setSignal (by decide) (by decide) (not_openReg (by decide)) true

theorem settleReplace_opens : s.Opens OpenReg (settleReplace s) := by
  unfold settleReplace
  exact (((State.Opens.refl _ s).foldl fun x bit _ => settleCause_opens x bit).setFld (not_openReg (by decide)) (by decide)).setSignal
    (by decide) (by decide) (not_openReg (by decide)) _

/-- The thermal manager and the self-test with new contents. -/
def State.withThmBist (x : Thermal) (b : SelfTest) : State := { s with thm := x, bist := b }

theorem State.withThmBist_opens (x : Thermal) (b : SelfTest) : s.Opens OpenReg (s.withThmBist x b) :=
  ⟨⟨fun _ _ => rfl, fun _ he => he⟩, rfl, rfl, State.signal_congr rfl 9, rfl, rfl⟩

theorem nextStep_opens (k : Nat) : s.Opens RoundReg (nextStep s k) := by
  have hset : s.Opens RoundReg (s.setFld Reg.MGT_START_STATUS 11 8 k) := (State.Opens.refl _ s).setFld (by unfold RoundReg; decide) (by decide)
  have hboot (t : State) : t.Opens RoundReg { t with boot := { t.boot with stepAt := t.now } } :=
    ⟨⟨fun _ _ => rfl, fun _ he => he⟩, rfl, rfl, State.signal_congr rfl 9, rfl, rfl⟩
  exact hset.trans (hboot _)

theorem State.setMs_opens (v : Nat) : s.Opens RoundReg (s.setMs v) := (State.Opens.refl _ s).setFld (by unfold RoundReg; decide) (by decide)

theorem State.setMs_shown {v : Nat} (h : v < 8) : (s.setMs v).msState = v ∧ (s.setMs v).step = s.step :=
  ⟨(s.fld_setFld_same _ _ (by decide) (by decide)).trans (Nat.mod_eq_of_lt h), s.fld_setFld_disjoint _ _ (by decide) (by decide) (by decide)⟩

/-- No request that was held during the start is left. -/
def State.heldGone : State := { s with ctl := { s.ctl with heldW := false, heldE := false, heldCause := 0 } }

theorem State.heldGone_regs : s.heldGone.regs = s.regs := rfl

variable {s}

theorem releaseHeld_none (hw : s.ctl.heldW = false) (he : s.ctl.heldE = false) (hheld : s.boot.heldRemoval = none) (hsig : s.signal 9 = false) :
    releaseHeld s = s.heldGone := by
  unfold releaseHeld
  extract_lets hs c b s1 s2
  have hhs : hs = [] := by simp [hs, hw, he]
  have hs2 : s2 = s1 := if_pos (by rw [hhs]; rfl)
  have hs1 : s1 = s.heldGone := rfl
  have hkept : s.heldGone.boot.heldRemoval = none ∧ s.heldGone.signal 9 = false := ⟨hheld, hsig⟩
  clear_value s2 s1
  rw [hs2, hs1, hkept.1]
  exact if_neg (by simp [hkept.2])

theorem endStep12_shown (hw : s.ctl.heldW = false) (he : s.ctl.heldE = false) (hheld : s.boot.heldRemoval = none) (hsig : s.signal 9 = false) :
    (endStep12 s).msState = msServing ∧ (endStep12 s).step = 0 ∧ (endStep12 s).round = s.calendar / s.roundNs % 2 ^ 64 := by
  unfold endStep12
  extract_lets s1 w e s2 s3 s4 s5 s6 x y s7 s8 s9 s10 s11
  have h1 : s.Opens OpenReg s1 := publishStart_opens s
  have hround2 : s2.round = s1.calendar / s1.roundNs % 2 ^ 64 := State.reg64_setReg64 ..
  have h2 : s1.Opens (fun _ => False) s2 := ((State.Opens.of_regsOnly (s1.setReg_regsOnly (List.mem_singleton_self _)) (by simp) (by decide)).trans
    (.of_regsOnly (State.setReg_regsOnly _ (List.mem_singleton_self _)) (by simp) (by decide)))
  clear_value s2
  have h3 : s2.Opens OpenReg s3 := ((State.Opens.refl _ s2).setFld (not_openReg (by decide)) (by decide)).trans (settleAdm_opens _)
  clear_value s3
  have h4 : s3.Opens OpenReg s4 :=
    (State.Opens.ite ((State.Opens.refl _ s3).setFld (not_openReg (by decide)) (by decide)) (.refl _ s3)).setFld (not_openReg (by decide)) (by decide)
  clear_value s4
  have h6 : s4.Opens OpenReg s6 :=
    (((State.Opens.refl _ s4).setFld (not_openReg (by decide)) (by decide)).trans (setCap_opens s5 ..)).trans (setCap_opens ..)
  clear_value s6
  have h7 : s6.Opens OpenReg s7 := s6.withThmBist_opens ..
  clear_value s7
  have hnext := nextStep_shown s7 (k := 0) (by decide)
  have h8 : s7.Opens RoundReg s8 := (nextStep_opens s7 0).trans (State.setMs_opens _ msServing)
  obtain ⟨hms, hstay⟩ : s8.msState = msServing ∧ s8.step = (nextStep s7 0).step := (nextStep s7 0).setMs_shown (by decide)
  have hstep : s8.step = 0 := hstay.trans hnext.1
  clear_value s8
  have h9 : s8.Opens OpenReg s9 := raiseSvn_opens s8
  clear_value s9
  have h10 : s9.Opens OpenReg s10 := settleReplace_opens s9
  clear_value s10
  have h11 : s10.Opens OpenReg s11 :=
    .ite (((State.Opens.refl _ s10).recordEvent OpenReg.not_event ..).trans (assertReplace_opens _)) (.refl _ s10)
  clear_value s11
  have hopen : s2.Opens RoundReg s11 := (((((h3.trans h4).trans h6).trans h7).mono fun _ => .inr).trans h8).trans
    (((h9.trans h10).trans h11).mono fun _ => .inr)
  have hfirst : s.Opens (fun _ => False) s11 := ((h1.mono nofun).trans h2).trans (hopen.mono nofun)
  have hlast := (h9.trans h10).trans h11
  rw [releaseHeld_none (by rw [hfirst.ctl, hw]) (by rw [hfirst.ctl, he]) (hfirst.held.trans hheld) (hfirst.signal.trans hsig)]
  have hregs := s11.heldGone_regs
  generalize s11.heldGone = t at hregs
  refine ⟨?_, ?_, ?_⟩
  · exact (State.fld_congr hregs ..).trans ((hlast.fixes.fld (.inl rfl) 2 0).trans hms)
  · exact (State.fld_congr hregs ..).trans ((hlast.fixes.fld (.inl rfl) 11 8).trans hstep)
  · have hlen : s1.roundNs = s.roundNs := by
      unfold State.roundNs
      rw [h1.fixes.fld (.inr (.inl rfl))]
    have hcal : s1.calendar = s.calendar := by
      unfold State.calendar
      rw [h1.now, h1.tb]
    rw [← hlen, ← hcal, ← hround2]
    exact round_of_reg ((State.reg_congr hregs _).trans (hopen.fixes.regs _ (.inr (.inl rfl))))
      ((State.reg_congr hregs _).trans (hopen.fixes.regs _ (.inr (.inr rfl))))

end

end Sys2Proof.Machine

namespace Sys2Proof.Machine

/-! ## The end of the drain (16 R489) -/

/-- What the drop of a round leaves beside registers: the start, the fabric, and no session where there was none. -/
structure State.RoundKept (s t : State) : Prop where
  boot : t.boot = s.boot
  fab : t.fab = s.fab
  sessions : s.client.sessions = [] → t.client.sessions = []

namespace State.RoundKept
variable {s t u : State}

theorem refl (s : State) : s.RoundKept s := ⟨rfl, rfl, id⟩

theorem trans (h : s.RoundKept t) (k : t.RoundKept u) : s.RoundKept u :=
  ⟨k.boot.trans h.boot, k.fab.trans h.fab, fun hs => k.sessions (h.sessions hs)⟩

theorem recordEvent (h : s.RoundKept t) (code source p0 p1 p2 : Nat) : s.RoundKept (recordEvent t code source p0 p1 p2) :=
  h.trans ⟨recordEvent_boot .., recordEvent_fab .., fun hs => by rwa [recordEvent_client]⟩

theorem of_regsOnly {l : List Nat} (h : s.RegsOnly t l) : s.RoundKept t := ⟨by rw [h.2], by rw [h.2], fun hs => by rwa [h.2]⟩

theorem foldl {α : Type} {g : State → α → State} {l : List α} (h : s.RoundKept t) (k : ∀ (x : State) a, a ∈ l → x.RoundKept (g x a)) :
    s.RoundKept (l.foldl g t) := List.foldlRecOn l g h fun x hx a ha => hx.trans (k x a ha)

theorem ite {c : Prop} [Decidable c] (h : s.RoundKept t) (k : s.RoundKept u) : s.RoundKept (if c then t else u) := by
  split
  · exact h
  · exact k

end State.RoundKept

section
variable {s : State}

theorem session?_none (h : s.client.sessions = []) (sid : Nat) : s.session? sid = none := by
  unfold State.session?
  rw [h]
  rfl

theorem noteDrop_roundKept (s : State) (sid cause round : Nat) : s.RoundKept (noteDrop s sid cause round) :=
  (State.RoundKept.of_regsOnly (s.count_regsOnly (List.mem_singleton_self Reg.ADM_STEPS_DROPPED))).recordEvent ..

theorem endRequest_roundKept (s : State) (sid status : Nat) : s.RoundKept (endRequest s sid status) := by
  cases hx : s.session? sid with
  | none =>
    unfold endRequest
    rw [hx]
    exact .refl s
  | some x =>
    have hsome (h : s.client.sessions = []) : False := by
      rw [session?_none h] at hx
      cases hx
    cases hq : x.request with
    | none =>
      rw [endRequest_none hx hq]
      exact .refl s
    | some q =>
      have hended : (s.requestEnded x q status).boot = s.boot ∧ (s.requestEnded x q status).fab = s.fab := by
        rw [s.requestEnded_frame]
        exact ⟨recordEvent_boot .., recordEvent_fab ..⟩
      rw [endRequest_some hx hq]
      generalize s.requestEnded x q status = u at hended
      exact ⟨hended.1, hended.2, fun h => (hsome h).elim⟩

theorem State.setStep_roundKept (s : State) (sid reqId num : Nat) (v : StepState) : s.RoundKept (s.setStep sid reqId num v) := by
  refine ⟨by rw [s.setStep_frame], by rw [s.setStep_frame], fun h => ?_⟩
  unfold State.setStep
  rw [session?_none h]
  exact h

theorem dropBatch_roundKept (s : State) (b : Batch) (cause : Nat) : s.RoundKept (dropBatch s b cause) := by
  have hbatches (g : Sage) : s.RoundKept { s with sage := g } := ⟨rfl, rfl, id⟩
  unfold dropBatch
  refine (hbatches _).foldl fun x m _ => .ite ?_ (noteDrop_roundKept x ..)
  have hwait := (noteDrop_roundKept x m.session cause x.round).trans (State.setStep_roundKept _ m.session m.reqId m.step .waiting)
  exact .ite (hwait.trans (endRequest_roundKept ..)) (.ite (hwait.trans (endRequest_roundKept ..)) hwait)

theorem abandonTile_roundKept (s : State) (ti : Nat) : s.RoundKept (abandonTile s ti) := by
  have htile (t : State) (f : Tile → Tile) : t.RoundKept (t.modTile ti f) := ⟨rfl, rfl, id⟩
  have hmesh (t : State) (m : List Packet) : t.RoundKept { t with mesh := m } := ⟨rfl, rfl, id⟩
  unfold abandonTile clearHeld
  exact (((htile s _).trans (hmesh _ _)).trans (htile _ _)).trans
    ((State.RoundKept.of_regsOnly (State.setFld_regsOnly ..)).trans (.of_regsOnly (State.setReg_regsOnly _ (List.mem_singleton_self _))))

theorem dropRound_roundKept (s : State) : s.RoundKept (dropRound s) :=
  ((State.RoundKept.refl s).foldl fun x b _ => dropBatch_roundKept x b _).foldl fun x ti _ => abandonTile_roundKept x ti

/-! ### Leaving the fabric (12 R377) -/

/-- The registers that neither an event, nor the drop of steps, nor the fabric touches. -/
def LeaveReg (a : Nat) : Prop := DropFreeReg a ∧ ¬(0x80000 ≤ a ∧ a < 0x90000)

theorem LeaveReg.not_event : ∀ a ∈ eventRegs, ¬LeaveReg a := fun _ ha h => h.1.1.2 ha

theorem endRequest_leave (s : State) (sid status : Nat) : s.Fixes LeaveReg (endRequest s sid status) := (endRequest_round s sid status).mono fun _ h => h.1

theorem State.Fixes.mails {P : Nat → Prop} {s t u : State} (h : s.Fixes P t) (k : t.Mails u) : s.Fixes P u := h.upd k.regs k.evt

theorem breakEns_leave (s : State) {e : Nat} (he : e < 8) (cause member : Nat) : s.Fixes LeaveReg (breakEns s e cause member) := by
  have hctrl : ¬LeaveReg (ensReg Reg.FAB_ENS_CTRL e) := fun h => h.2 (by
    have hb := ensCtrl_bounds he
    omega)
  unfold breakEns
  extract_lets st model x y s1
  split
  · exact .refl _ s
  · have h1 : s.Fixes LeaveReg s1 :=
      (((State.Fixes.refl _ s).setFld hctrl).upd (u := y) rfl rfl).recordEvent LeaveReg.not_event ..
    clear_value s1
    split
    · exact h1
    · refine State.Fixes.foldl (h1.foldl fun u a _ => (State.Fixes.refl _ u).upd rfl rfl) fun u z _ => ?_
      exact (endRequest_leave u z.id stEnsembleBroken).mails (report_mails ..)

/-- The module has said that it leaves. -/
def State.leaving (s : State) : State := { s with fab := { s.fab with leaving := true } }

theorem State.leaving_shown (s : State) : s.leaving.fab.leaving = true ∧ s.leaving.regs = s.regs := ⟨rfl, rfl⟩

theorem leaveFabric_eq (s : State) : leaveFabric s = (sendCtrl (breakAll s 6) (breakAll s 6).parentPort 0 (.leave selfId)).leaving := rfl

theorem leaveFabric_shown (s : State) : (leaveFabric s).fab.leaving = true ∧ (leaveFabric s).psState = s.psState := by
  have hbreak : s.Fixes LeaveReg (breakAll s 6) := (State.Fixes.refl _ s).foldl fun x e he => breakEns_leave x (List.mem_range.1 he) ..
  rw [leaveFabric_eq]
  generalize breakAll s 6 = u at hbreak
  have hsent : (sendCtrl u u.parentPort 0 (.leave selfId)).regs = u.regs := rfl
  generalize sendCtrl u u.parentPort 0 (.leave selfId) = x at hsent
  obtain ⟨hleaving, hregs⟩ := x.leaving_shown
  refine ⟨hleaving, psState_of_reg ?_⟩
  rw [State.reg_congr hregs, State.reg_congr hsent]
  exact hbreak.regs _ ⟨⟨⟨by unfold ModuleReg; decide, by decide⟩, by decide, by decide⟩, by decide⟩

/-! ### The power-down that follows -/

/-- The removal, with what its drain closed and ended. -/
def State.drained (s : State) (r : Removal) (closed ended : Nat) : State :=
  { s with boot := { s.boot with removal := some { r with closed := closed, ended := ended, drained := true } } }

theorem State.drained_shown (s : State) (r : Removal) (closed ended : Nat) :
    (s.drained r closed ended).boot.removal = some { r with closed := closed, ended := ended, drained := true } ∧
      (s.drained r closed ended).fab = s.fab ∧ (s.drained r closed ended).regs = s.regs := ⟨rfl, rfl, rfl⟩

theorem powerDown_eq (s : State) : powerDown s = (setSignal (dropRound (saveState s none)) 7 false).falling.setFld Reg.ADM_STATUS 2 0 0 := rfl

theorem powerDown_shown (s : State) : s.RoundKept (powerDown s) ∧ (powerDown s).psState = psSeqDown ∧ (powerDown s).signal 7 = false ∧
    (powerDown s).pwr.stayOff = true := by
  have hsaved : s.RoundKept (saveState s none) := by
    rw [saveState_card]
    exact ⟨rfl, rfl, id⟩
  have hdropped := (hsaved.trans (dropRound_roundKept _)).trans (.of_regsOnly (setSignal_regsOnly (dropRound (saveState s none)) 7 false))
  have hsig : (setSignal (dropRound (saveState s none)) 7 false).signal 7 = false := setSignal_signal_same _ (by decide) _
  rw [powerDown_eq]
  generalize setSignal (dropRound (saveState s none)) 7 false = u at hdropped hsig
  obtain ⟨hps, -, -, hstay, hoff, -⟩ := u.falling_shown hsig
  have hpwr (t : State) (p : PowerState) : t.RoundKept { t with pwr := p } := ⟨rfl, rfl, id⟩
  have hfall : u.RoundKept u.falling := (State.RoundKept.of_regsOnly (u.setFld_regsOnly ..)).trans (hpwr (u.setPs psSeqDown) _)
  exact ⟨(hdropped.trans hfall).trans (.of_regsOnly (State.setFld_regsOnly ..)), hps, hoff, hstay⟩

theorem drainEnd_eq (r : Removal) (hnone : s.client.sessions = []) (hpower : ((leaveFabric (dropRound s)).drained r 0 0).psState = psOn) :
    drainEnd s r = powerDown ((leaveFabric (dropRound s)).drained r 0 0) := by
  have hsessions := (dropRound_roundKept s).sessions hnone
  have hadmitted : s.admitted = 0 := by
    unfold State.admitted
    rw [hnone]
    rfl
  unfold drainEnd
  extract_lets round n s1 k s2 s3 b s4
  have hk : k = 0 := by simp [k, s1, hsessions]
  have hs2 : s2 = s1 := by simp [s2, s1, hsessions]
  have hs3 : s3 = leaveFabric (dropRound s) := congrArg leaveFabric hs2
  have hs4 : s4 = s3.drained r k n := rfl
  have hn : n = 0 := hadmitted
  rw [hk, hn, hs3] at hs4
  clear_value s4
  rw [hs4]
  exact if_pos hpower

theorem removalDrainEnd_powersDown {r : Removal} (hremoval : s.boot.removal = some r) (hdrain : r.drained = false) (hpower : s.psState = psOn)
    (hnone : s.client.sessions = []) :
    ∃ t, exec .removalDrainEnd s = .next t ∧ t.boot.removal = some { r with closed := 0, ended := 0, drained := true } ∧
      t.fab.leaving = true ∧ t.psState = psSeqDown ∧ t.signal 7 = false ∧ t.pwr.stayOff = true := by
  obtain ⟨hleaving, hleft⟩ := leaveFabric_shown (dropRound s)
  have hround : (dropRound s).psState = s.psState :=
    psState_of_reg ((dropRound_round s).regs _ ⟨⟨by unfold ModuleReg; decide, by decide⟩, by decide, by decide⟩)
  obtain ⟨hdrained, hfab, hregs⟩ := (leaveFabric (dropRound s)).drained_shown r 0 0
  have hon : ((leaveFabric (dropRound s)).drained r 0 0).psState = psOn :=
    (psState_of_reg (State.reg_congr hregs _)).trans (hleft.trans (hround.trans hpower))
  have hex : exec .removalDrainEnd s = .next (powerDown ((leaveFabric (dropRound s)).drained r 0 0)) := by
    change execRemovalDrainEnd s = _
    unfold execRemovalDrainEnd
    rw [hremoval]
    exact (if_neg (by simp [hdrain])).trans (congrArg Host.Outcome.next (drainEnd_eq r hnone hon))
  generalize (leaveFabric (dropRound s)).drained r 0 0 = u at hex hdrained hfab
  obtain ⟨hkept, hps, hoff, hstay⟩ := powerDown_shown u
  exact ⟨_, hex, by rw [hkept.boot, hdrained], by rw [hkept.fab, hfab, hleaving], hps, hoff, hstay⟩

end

/-- Settles O56: each step of the start, of the time base and of a removal by its lemma. -/
theorem theModuleStartsAndLeaves : Obligations.TheModuleStartsAndLeaves := by
  unfold Obligations.TheModuleStartsAndLeaves
  refine ⟨fun s r hms haux => ⟨_, rfl, fun h3 hup hnine => ?three, fun h5 => ?five, fun h9 hon => ?nine, fun h11 hset => ?eleven,
      fun h12 hw he hheld hsig => ?twelve⟩,
    fun s cause hms haux hstep => ⟨_, exec_startStepTimeout hms haux hstep cause, haltStart_shown s (by omega) cause⟩,
    fun s port source t2 hsource husable hport hmaster => ptpSync_taken t2 hsource husable hport hmaster,
    fun s port source t1 t2 d hsource husable hport hmaster ht2 hdelay hset hlow hhigh =>
      ptpFollowUp_taken hsource husable hport hmaster ht2 hdelay hset hlow hhigh,
    fun s q hsource hfind => ptpAnnounceTimeout_moves hsource hfind,
    fun s offset hsource hnone hset => ppsEdge_taken hsource hnone hset offset,
    fun s locked hmay hnew => timeLockChange_shown hmay hnew, fun s lo hi hlo hhi => mgtTimeSet_shown s hlo hhi,
    fun s h => ⟨removeReqN_begins h, mgtRemoveStart_begins h⟩, fun s h => mgtRemoveStart_held h,
    fun s r hremoval hdrain hpower hnone => removalDrainEnd_powersDown hremoval hdrain hpower hnone, alertPulseEnd_shown⟩
  case three =>
    rw [endStep_three hms haux r h3, if_pos ⟨hup, hnine⟩]
    exact nextStep_shown s (by decide)
  case five =>
    rw [endStep_five hms haux r h5]
    exact endStep5_shown s r.rates
  case nine =>
    rw [endStep_nine hms haux r h9, if_pos hon]
    exact endStep9_shown s
  case eleven =>
    rw [endStep_eleven hms haux r h11, if_pos hset]
    obtain ⟨hstep, -, hregs⟩ := nextStep_shown s (k := 12) (by decide)
    exact ⟨hstep, hregs⟩
  case twelve =>
    rw [endStep_twelve hms haux r h12]
    exact endStep12_shown hw he hheld hsig

end Sys2Proof.Machine
